-- ==== Sys2Proof/Word.lean ====
section
/-! DEFINITION. The word types of the model and their plainest arithmetic. -/

namespace Sys2Proof

/-- One byte. -/
abbrev Byte := BitVec 8

/-- One 32-bit register word (R9). -/
abbrev Word := BitVec 32

/-- One 64-bit memory-die or Thicket program word. -/
abbrev Word64 := BitVec 64

/-- One 128-bit Thicket V register, stream entry or memory beat (R122). -/
abbrev Vec := BitVec 128

/-- One 512-bit NoC flit payload, DRAM line or submission entry (64 bytes). -/
abbrev Line := BitVec 512

/-- One 1,024-bit configuration frame (R70). -/
abbrev Frame := BitVec 1024

end Sys2Proof
end

