-- ==== Sys2Proof/Syntax.lean ====
section
/-! DEFINITION. The commands of the device. -/

namespace Sys2Proof

/-- What a SECDED check finds in one word. -/
inductive Ecc where
  | ok | single | double
  deriving DecidableEq, Repr

/-- The erroneous bits of a received flit (R206, R215): of each half its 256 payload bits, and from bit 256 its 16 check bits. -/
structure FlitFind where
  half0 : BitVec 272
  half1 : BitVec 272
  deriving DecidableEq, Repr

/-- How a request that a unit makes within one step, and its response, come through the network (R215 to R217). -/
inductive NetWay where
  | ok
  | data                 -- a data flit is poisoned on its way
  | header               -- a header loses half 0: POISONED
  | dropped              -- a header loses both halves: the request times out
  | sum                  -- e2e_crc does not match
  deriving DecidableEq, Repr

/-- What a word that crosses between dies carries (R15, R16). -/
inductive CrossWord where
  | other                                      -- a control word, or a word of none of the kinds below
  | noc (init : Nat) (tag : Fin 256) (flit : Nat) (find : FlitFind)  -- a flit of a request or of its response, the header 0
  | portA (block : Fin 4096)                   -- the next port A access of a block
  | path (tile : Fin 1024)                     -- the oldest port B access of a tile on its group path
  | staging (frame : Fin 228352)               -- a frame on its way into the staged latches
  | landing (frame : Fin 228352)               -- a frame on its way through the relay to the landing plane
  | writeBack (frame : Fin 228352)             -- a frame on its way back to its plane (R102)
  | repair (frame : Fin 228352)                -- a repaired frame on its way to a plane or to the latches (R323)
  deriving DecidableEq, Repr

/-- What the check codes find while one Thicket instruction runs (R128): at its fetch, and in the 64-bit words of its X and its Y access, of which
a vector access has two and a scalar one the first. -/
structure Finds where
  fetch : Ecc
  x : Ecc
  x2 : Ecc
  y : Ecc
  y2 : Ecc
  deriving DecidableEq, Repr

/-- What the check code of a memory word or line takes its pattern for (R188, R190, R238). -/
inductive WordFind where
  | ok
  | single               -- correctable, and corrected
  | double               -- uncorrectable
  | wrong                -- more errors than the code detects, taken for a correctable pattern: what is delivered is wrong
  | marker               -- an upset that happens to spell the poison marker
  deriving DecidableEq, Repr

/-- What a check code finds in one word or line: the finding and the place of the bit or symbol corrected. -/
structure Finding where
  ecc : WordFind
  place : Nat
  deriving DecidableEq, Repr

/-- The erroneous bits of a DRAM line as it is read (R238): symbol i, the 16 beats of DQ i, is bits 16i to 16i + 15. -/
structure LineFind where
  bad : BitVec 640 := 0
  deriving DecidableEq, Repr

/-- What an access made within one step finds: how it comes through the network, with how many flits corrected, and its word or its DRAM line. -/
structure AccessFind where
  way : NetWay := .ok
  corrected : Nat := 0
  word : Finding := ⟨.ok, 0⟩
  line : LineFind := {}
  deriving DecidableEq, Repr

/-- The source of a port B access (R182): a NoC request by initiator and tag, or a tile's group path. -/
inductive BPort where
  | noc (initiator tag : Nat)
  | path (tile : Fin 1024)
  deriving DecidableEq, Repr

/-- The header fields of a request packet, and its data flits (R207). -/
structure Packet where
  opcode : Byte
  poisoned : Bool
  kidValid : Bool
  reserved : Bool        -- a reserved bit of the header is set
  length : Byte
  qos : Byte
  tag : Byte
  pa : BitVec 56
  kid : Byte
  be : BitVec 64
  data : List Line
  deriving DecidableEq, Repr

/-- What the sweeps of one strobe group's training find (R228, R229): bit k says that delay step k of 128 passes, on reads and on writes. -/
structure GroupTrain where
  rd : BitVec 128
  wr : BitVec 128
  deriving DecidableEq, Repr

/-- What stage 0x08 finds of a controller (R223, R228): initialisation failed, an arrangement that is not supported, or the arrangement and the
training results of the 20 strobe groups. -/
inductive DramFit where
  | failed
  | unsupported
  | trained (x8 twoRanks dense : Bool) (groups : Vector GroupTrain 20)
  deriving DecidableEq, Repr

/-- What the reads of the metadata lines of a tag and of a counter find, where the tag cache holds neither (R260, R263). -/
structure MetaFind where
  tag : LineFind := {}
  counter : LineFind := {}
  deriving DecidableEq, Repr

/-- What the fabric gives a swap edge: the distributed-memory frames of the outgoing context that R69 marks dirty, with their contents, and the
flip-flops that have changed since the last swap, by tile, as they capture on the edge (R96, laid out as in R315). -/
structure SwapData where
  dirty : List (Fin 225280 × BitVec 1024)
  ffs : List (Fin 5120 × BitVec 512)
  deriving DecidableEq, Repr

/-- A time-of-day message (R451): an NMEA ZDA sentence by what it says, or the 16 bytes of a binary message. -/
inductive TodMessage where
  | zda (checksum : Bool) (utc : Nat)
  | binary (data : Vector (BitVec 8) 16)
  deriving DecidableEq, Repr

/-- The values that PAIR_FORM compares (R517), in the order of their bits. -/
structure FormValues where
  rom : Nat
  stepping : Nat
  owner : BitVec 512
  digests : List (BitVec 512)
  schedule : BitVec 512
  keys : BitVec 64
  command : Nat            -- release, pair_flags and mac; bit 63 the role
  grid : Nat               -- PRL_SYM_SLOT, FIRST, LEN and the PRL_UDIG address
  grade : Nat
  deriving DecidableEq, Repr

/-- What a control block says beside its fixed fields: its announcement (R507), and what the devices of a pair tell each other where R517, R525,
R528, R392, R393 and R535 give no field to it. Edges are time-counter values in 2^-16 ns; an edge of 0 withdraws. -/
inductive Note where
  | none
  | width (lanes train : Nat)
  | drops (lanes : Nat)            -- fronthaul lanes DROPPED (R527)
  | step (kind : Nat) (value : Int) (edge : Nat)
  | roles (edge : Nat)
  | takeover (edge : Nat)
  | dissolve (edge : Nat)
  | unform                         -- a PAIR_FORM has ended before its commit point (R518)
  | resync                         -- the shadow begins a resynchronisation (R520)
  | form (values : FormValues)
  | verdict (agree : Bool)
  | report (fault : Bool)
  | prepared (change : Nat)
  | failed (change index : Nat)
  | commit (change : Nat) (abandon : Bool) (edge : Nat)
  deriving DecidableEq, Repr

/-- A Bolryn control block (R507). -/
structure ControlBlock where
  role : Nat
  width : Nat
  fit : Bool
  selfFault : Bool
  takeover : Bool
  sleep : Bool
  train : Nat
  ackTrain : Nat
  nak : BitVec 24
  depart : Nat             -- time-counter value, 2^-16 ns
  echoTrain : Nat
  echoArrival : Nat        -- time-counter value, 2^-16 ns
  digest : BitVec 64
  unit : Nat
  word : Option (BitVec 64)  -- the user-state word of the unit, at a symbol's end (R525)
  fault : Nat
  tq : Nat
  step : Nat
  ctx : Nat
  note : Note
  deriving DecidableEq, Repr

/-- What a Bolryn data block carries (R506, R516): a device write of stream 0, or a mirror record of stream 1. -/
inductive PairData where
  | write (pa : Nat) (data : List Byte)
  | record (function queue seq cid status result result2 : Nat) (arming : Option (BitVec 512))
  deriving DecidableEq, Repr

/-- Who reads host memory: the ring of a queue, a started command, or the Porter for an owner record (R365). -/
inductive HostTarget where
  | ring (queue : Fin 256)
  | command (id : Nat)
  | owner
  deriving DecidableEq, Repr

/-- What a completion TLP of a host-memory read says (R365). -/
inductive ReadOutcome where
  | data (bytes : List Byte)
  | unsupported
  | abort
  | poisoned
  deriving DecidableEq, Repr

/-- A spare that an intrusive test finds failing (R553): a district's spare tile, the column spare of a DSP group, or a column spare of a memory
group. -/
inductive SpareFail where
  | district (d : Fin 80)
  | dsp (column : Fin 16) (quarter : Fin 4)
  | mem (group : Fin 16) (spare : Fin 4)
  deriving DecidableEq, Repr

/-- The commands of the block, one constructor for each row of the table. Operands name the unit that a command acts on, the value that host
software or the design presents, or what the environment is found to be at that step; `id` is the handle of a fetched host
command. An operand with a default says what is found only now and then. -/
inductive Instr where
  | coldReset (cause : Fin 3)
  | porNDeassert (fsel : Fin 8) (rate : Fin 4) (halt : Fin 3)
  | bootRailCheck
  | corePllLock (locked : Bool)
  | porterStart (result : Fin 3)
  | dieReleaseTraining (failed : Option (Fin 3))
  | stackClear
  | ddrTraining (fit0 : DramFit) (fit1 : DramFit) (drop0 : List (Fin 32)) (drop1 : List (Fin 32))
  | bootComplete
  | warmReset (cause : Fin 4)
  | perstAssert
  | perstDeassert
  | linkLoss
  | pcieRefclkLoss
  | functionLevelReset (function : Fin 64)
  | pmeTurnOff
  | dormantPowerDown
  | wake (source : Fin 3)
  | wakeTimerExpiry
  | porterLockstepFault (both : Bool)
  | dieResetRequest (mask : Fin 16) (confirm : Byte)
  | warmResetRequest (confirm : Byte)
  | dieResetD0
  | d0DrainEnd
  | d0OutstandingDieReset
  | d0ResetRelease
  | d0ShuttersOpen (failed : List (Fin 2) := [])
  | porterReady
  | dieResetUpper (die : Fin 3)
  | dieTrainingComplete (die : Fin 3) (failed : Bool := false)
  | neighbourPowerLoss (die : Fin 3) (lane : Fin 4 := 3)
  | crossingWord (kind : Fin 5) (group : Fin 65536) (bad : List (Fin 272)) (word : CrossWord) (back : Bool := false)
  | channelSpareSwitch
  | clockSkewSample (die : Fin 4) (skew : Int)
  | delayLockWindow (district : Fin 80) (error : Int)
  | lockAcquireTimeout (district : Fin 80)
  | stagingComplete (swap : SwapData)
  | stagingTimeout
  | commandSwapDue (swap : SwapData)
  | scheduleEntryDue (swap : SwapData)
  | lateSwapReady (swap : SwapData)
  | lateLimitExpiry
  | scheduleBankTakeover
  | writeBackFrame
  | thicketNop (tile : Fin 1024) (finds : Finds)
  | wait (tile : Fin 1024) (finds : Finds)
  | br (tile : Fin 1024) (finds : Finds)
  | loop (tile : Fin 1024) (finds : Finds)
  | blkBegin (tile : Fin 1024) (finds : Finds)
  | blkCommit (tile : Fin 1024) (finds : Finds)
  | timer (tile : Fin 1024) (finds : Finds)
  | mac (tile : Fin 1024) (finds : Finds)
  | macj (tile : Fin 1024) (finds : Finds)
  | msb (tile : Fin 1024) (finds : Finds)
  | mul (tile : Fin 1024) (finds : Finds)
  | mulj (tile : Fin 1024) (finds : Finds)
  | pack (tile : Fin 1024) (finds : Finds)
  | aclr (tile : Fin 1024) (finds : Finds)
  | aload (tile : Fin 1024) (finds : Finds)
  | bexNext (tile : Fin 1024) (finds : Finds)
  | bexClr (tile : Fin 1024) (finds : Finds)
  | vadd (tile : Fin 1024) (finds : Finds)
  | vsub (tile : Fin 1024) (finds : Finds)
  | vaddmj (tile : Fin 1024) (finds : Finds)
  | vsubmj (tile : Fin 1024) (finds : Finds)
  | vconj (tile : Fin 1024) (finds : Finds)
  | vshr (tile : Fin 1024) (finds : Finds)
  | vmov (tile : Fin 1024) (finds : Finds)
  | vperm (tile : Fin 1024) (finds : Finds)
  | spop (tile : Fin 1024) (finds : Finds)
  | spush (tile : Fin 1024) (finds : Finds)
  | lpop (tile : Fin 1024) (finds : Finds)
  | lpush (tile : Fin 1024) (finds : Finds)
  | mdrd (tile : Fin 1024) (finds : Finds)
  | mdwr (tile : Fin 1024) (finds : Finds)
  | nwr (tile : Fin 1024) (finds : Finds)
  | setr (tile : Fin 1024) (finds : Finds)
  | setrv (tile : Fin 1024) (finds : Finds)
  | getr (tile : Fin 1024) (finds : Finds)
  | entryVectorTaken (tile : Fin 1024)
  | tileTimerExpiry (tile : Fin 1024)
  | residueCheckFail (tile : Fin 1024)
  | mdrdDataReturn (tile : Fin 1024)
  | linkArrival (tile : Fin 1024)
  | streamInPush (tile : Fin 1024) (port : Bool) (data : Vec)
  | stagingBufferRelease (tile : Fin 1024)
  | blockWatchdog (tile : Fin 1024)
  | externalXyBeat (init : Nat) (tag : Fin 256) (ecc : Ecc) (ecc2 : Ecc)
  | tileSubstitutionStart (tile : Fin 1024)
  | copyingComplete (tile : Fin 1024)
  | tileKick (tile : Fin 1024)
  | tileKickAll
  | portARead (block : Fin 4096) (word : Fin 4096) (find : Finding)
  | portAWrite (block : Fin 4096) (word : Fin 4096) (be : Byte) (data : Word64)
  | portAInvalidate (block : Fin 4096)
  | portBRead (port : BPort) (finds : List Finding)
  | portBWrite (port : BPort)
  | narrowWriteMerge (find : Finding)
  | retirementSwitch (block : Fin 4096) (bad : List (Fin 4096 × WordFind))
  | hostBlockInvalidate (block : Fin 4096)
  | hostInvalidateAll
  | invalidateClearDone (block : Fin 4096)
  | nocRequestInject (init : Fin 256) (pkt : List Line) (tap : Bool := false)
  | nocFlitHop (init : Nat) (tag : Fin 256) (router : Fin 48) (find : FlitFind)
  | nocRequestTimeout (init : Nat) (tag : Fin 256)
  | nocResponseArrival (init : Nat) (tag : Fin 256) (ready : Bool)
  | nocStatClear
  | dramReadRequest (init : Nat) (tag : Fin 256)
  | dramWriteRequest (init : Nat) (tag : Fin 256)
  | dramPartialWrite (init : Nat) (tag : Fin 256) (find : LineFind)
  | dramReadData (ctl : Fin 2) (find : LineFind)
  | dramRefresh (ctl : Fin 2)
  | mr4Poll (ctl : Fin 2) (readings : Vector (Fin 4) 4)
  | dramAlert (ctl : Fin 2) (sub : Fin 2) (crc : Bool)
  | dramFullRetrainEnd (ctl : Fin 2) (groups : List GroupTrain)
  | retrainQuantum (ctl : Fin 2) (sub : Fin 2) (result : Option (Fin 10 × GroupTrain)) (last : Bool)
  | dramRetrainRequest (ctl : Fin 2)
  | pprNow (ctl : Fin 2) (entry : Fin 32)
  | spprRepairComplete (ctl : Fin 2) (bad : List (Fin 128)) (fixed : List (Fin 128 × Fin 40) := [])
  | encRegionEnable (region : Fin 32) (value : Word)
  | encRegionDisable (region : Fin 32) (value : Word)
  | encConfigLock
  | encRequest (init : Nat) (tag : Fin 256) (metadata : MetaFind)
  | encReadComplete (init : Nat) (tag : Fin 256)
  | sweepLine (find : LineFind) (metadata : MetaFind := {})
  | ownerProgram (confirm : Byte) (record : Option (List Byte)) (powerLoss : Bool)
  | ownerRevoke (confirm : Byte) (record : Option (List Byte)) (powerLoss : Bool)
  | ownerDisableDebug (confirm : Byte) (record : Option (List Byte))
  | debugSessionExpiry
  | imageFrameRecord
  | imageStreamEnd (net : NetWay := .ok)
  | landingPlaneRemap
  | snapshotCaptureEdge (id : Nat) (values : List (BitVec 512))
  | voteCorrection
  | latchCheckFrame (frame : Fin 228352) (staged : Bool) (held : Option Frame) (written : Bool) (entryBad : Bool := false)
  | privetSweepStart (engineB : Bool) (katOk : Bool)
  | privetFrameCheck (engineB : Bool) (held : Option Frame) (entryBad : Bool)
  | privetSweepReport (engineB : Bool) (slip : Bool)
  | privetReportLate (engineB : Bool)
  | frameRepair (net : NetWay := .ok)
  | internalFaultSafeDelay
  | sqTailDoorbell (function : Fin 64) (page : Fin 256) (value : Word)
  | cqHeadDoorbell (function : Fin 64) (page : Fin 256) (value : Word)
  | commandFetch (entries : List Line)
  | completionPost (id : Nat) (refused : Bool) (msixFails : Bool := false)
  | coalescingTimeout (queue : Fin 256) (msixFails : Bool := false)
  | msixUnmask (function : Fin 64) (vector : Fin 32)
  | adminQueueEnable (function : Fin 64) (sqLog : Fin 32) (cqLog : Fin 32)
  | adminQueueDisable (function : Fin 64)
  | functionQuotaWrite (function : Fin 64) (base : Fin 256) (count : Fin 512)
  | queueDrainLimit (queue : Fin 256)
  | commandOverrun (id : Nat)
  | pcieLaneErrorWindow (lane : Fin 8) (errors : Nat)
  | nop (id : Nat)
  | identify (id : Nat)
  | abort (id : Nat)
  | queueCreate (id : Nat)
  | queueDisable (id : Nat)
  | queueDelete (id : Nat)
  | imageLoad (id : Nat)
  | imageLoadPartial (id : Nat)
  | contextStage (id : Nat)
  | contextSwapAt (id : Nat)
  | scheduleSet (id : Nat)
  | contextRetire (id : Nat)
  | snapshotFf (id : Nat)
  | dmaMove (id : Nat)
  | dmaFill (id : Nat)
  | dmaGather (id : Nat)
  | keyInstall (id : Nat)
  | keyRetire (id : Nat)
  | regionRekey (id : Nat)
  | timeRead (id : Nat)
  | timeAdjust (id : Nat)
  | holdoverControl (id : Nat)
  | timedOutputSet (id : Nat)
  | eyeScan (id : Nat)
  | pairForm (id : Nat)
  | pairDissolve (id : Nat)
  | pairTakeover (id : Nat)
  | pairPrepare (id : Nat)
  | pairCommit (id : Nat)
  | bistRun (id : Nat) (find : AccessFind := {})
  | telemetryRead (id : Nat)
  | faultLogRead (id : Nat)
  | throttleAck (id : Nat)
  | attest (id : Nat)
  | debugUnlock (id : Nat)
  | modeSet (id : Nat) (swap : SwapData)
  | laneEnable (lane : Fin 16) (value : Word)
  | laneDisable (lane : Fin 16) (value : Word)
  | cdrLock (lane : Fin 16) (heights : List Nat)
  | laneAlignLock (lane : Fin 16)
  | laneAcquireTimeout (lane : Fin 16)
  | laneRetryWaitEnd (lane : Fin 16)
  | laneLinkLoss (lane : Fin 16)
  | tsSettle (lane : Fin 16)
  | frameReceived (lane : Fin 16) (frame : List Byte) (fcs : Bool) (pcs : Bool) (offset : Int) (ready : Bool)
  | streamEgressFrame (lane : Fin 16) (frame : List Byte) (underrun : Bool)
  | slowPathTxTail (lane : Fin 16) (value : Word)
  | slowPathTransmit (lane : Fin 16) (offset : Int) (stepped : Bool)
  | eiEntry (lane : Fin 16)
  | rxSignalLossEi (lane : Fin 16)
  | eiRelockTimeout (lane : Fin 16)
  | fhLaneErrorWindow (lane : Fin 16) (corrected : Nat) (errors : Nat) (receiving : List Byte := [])
  | eyeScanEnd (group : Fin 3) (points : List (BitVec 16))
  | candidateWindow (candidate : Fin 25) (count : Nat)
  | coreRefMissingEdge
  | corePllUnlock (pll : Fin 4)
  | coreReferenceSwitch (source : Fin 32) (confirm : Byte)
  | coreRefSwitchEnd
  | userPllEnable (pll : Fin 8) (value : Word)
  | userPllDisable (pll : Fin 8) (value : Word)
  | userPllLock (pll : Fin 8)
  | userPllInputFail (pll : Fin 8)
  | globalChannelSelect (channel : Fin 32) (source : Fin 16)
  | wicketTrim (codes : Int)
  | oscBackupCheck (permille : Nat)
  | timePllRefLoss
  | timePllReturn
  | replicaRealign
  | timingEvaluation
  | modelRefit
  | ptpMeasurementCommit (value : Word)
  | ppsEdge (width : Nat) (sub : Fin 21845)
  | ppsTimeout
  | todMessage (message : TodMessage)
  | synceHoldOffExpiry
  | synceWtrExpiry (lane : Fin 16)
  | timeStepEdge
  | timedOutputEdge (output : Fin 8)
  | housekeepingRound (codes : Vector (BitVec 12) 48) (sensors : Vector (BitVec 12) 96) (activity : Vector Nat 20) (served : Bool)
  | throttleGraceExpiry
  | throttleStepDeepen
  | throttleStepRelease
  | wicketWatchdogExpiry
  | wicketRestartEnd
  | pinOwnerChange (register : Fin 3) (value : Word)
  | ownerHandoverEnd (pin : Fin 64) (level : Bool) (oe : Bool)
  | pinInputChange (levels : List (Fin 64 × Bool)) (ports : List (Fin 64 × Bool × Bool))
  | debounceSettle (pin : Fin 64)
  | matcherEnable (matcher : Fin 8) (value : Word)
  | prlLinkEnable (value : Word)
  | linkStageDone (partnerWidth : Fin 9)
  | linkStateTimeout
  | controlBlockReceived (block : ControlBlock) (crcOk : Bool)
  | dataBlockReceived (train : Nat) (data : PairData) (index : Fin 24 := 0) (fecOk : Bool := true)
  | bolrynLaneErrorWindow (lane : Fin 8) (codewords : Nat)
  | linkWidthChange
  | linkDirectionSleep
  | linkDirectionWake
  | bandReadapt (ok : Bool)
  | pairFormCommit
  | pairFormTimeout
  | digestUnitClose (find : AccessFind := {})
  | segmentReleaseDue
  | mismatchResolution
  | resyncCopyEnd
  | resyncFrameEnd
  | pairTimeAverage
  | roleExchange
  | heartbeatLoss
  | takeoverEdge
  | partnerTimeout
  | dissolveBoundary
  | pairCommitBoundary
  | pairInject (value : Word)
  | bistSlice (signature : Word) (spares : List (Fin 6 × Fin 65536 × Fin 8))
  | injectionTimeout
  | safeCauseClear (value : Word)
  | muteLift
  | safConfigWrite (register : Fin 7) (value : Word)
  | registerWrite (function : Fin 64) (offset : BitVec 24) (value : Word64) (wide : Bool) (bar : Fin 3 := 0)
  | rcCounterRead (function : Fin 64) (offset : BitVec 24) (wide : Bool) (bar : Fin 3 := 0)
  | capturePairRead (function : Fin 64) (offset : BitVec 24) (wide : Bool)
  | badWidthAccess (function : Fin 64) (offset : BitVec 24) (bytes : Nat) (write : Bool) (bar : Fin 3 := 0)
  | unassignedAccess (function : Fin 64) (offset : BitVec 24) (write : Bool)
  | blockedAccess (function : Fin 64) (offset : BitVec 24) (write : Bool)
  | linkTrainingComplete (speed : Fin 8) (width : Fin 16) (reversed : Bool)
  | hostReadCompletion (target : HostTarget) (outcome : ReadOutcome)
  | completionTimeout (target : HostTarget)
  | runStagingTimeout
  | referenceReadyTimeout
  | upperDieRelease (die : Fin 3)
  | bolrynLaneSignalChange (lane : Fin 8) (up : Bool)
  | eiSignalReturn (lane : Fin 16)
  | dramAlertDeassert (ctl : Fin 2) (sub : Fin 2)
  | intrusiveBistEnd (signatures : Vector Word 97) (spares : List SpareFail) (channels : List (Fin 6 × Fin 65536 × Fin 8))
  | landingPlaneCopyEnd
  deriving DecidableEq, Repr

end Sys2Proof
end

