-- ==== Sys2Proof/WellFormed.lean ====
section
/-! DEFINITION. Which terms are commands: what the types of the operands do not say. The meanings are total, also on other terms. -/

namespace Sys2Proof

/-- What the fabric gives a swap edge names each frame and tile once. -/
def SwapData.wf (d : SwapData) : Bool :=
  decide (d.dirty.map (fun p => p.1)).Nodup && decide (d.ffs.map (fun p => p.1)).Nodup

/-- The operands fit the command: units are named once, and lists are no longer than what they stand for. -/
def Instr.wf : Instr → Bool
  | .ddrTraining _ _ drop0 drop1 => decide drop0.Nodup && decide drop1.Nodup
  | .crossingWord _ _ bad _ _ => decide bad.Nodup
  | .stagingComplete swap => swap.wf
  | .commandSwapDue swap => swap.wf
  | .scheduleEntryDue swap => swap.wf
  | .lateSwapReady swap => swap.wf
  | .portBRead _ finds => decide (finds.length ≤ 8)
  | .retirementSwitch _ bad => decide (bad.map (fun p => p.1)).Nodup
  | .nocRequestInject _ pkt _ => decide (pkt.length ≤ 9)
  | .spprRepairComplete _ bad _ => decide bad.Nodup
  | .snapshotCaptureEdge _ values => decide (values.length ≤ 5120)
  | .commandFetch entries => decide (entries.length ≤ 8)
  | .modeSet _ swap => swap.wf
  | .cdrLock _ heights => decide (heights.length = 16)
  | .eyeScanEnd _ points => decide (points.length ≤ 4096)
  | .pinInputChange levels ports => decide (levels.map (fun p => p.1)).Nodup && decide (ports.map (fun p => p.1)).Nodup
  | .badWidthAccess _ _ bytes _ _ => decide (bytes ≠ 0)
  | .intrusiveBistEnd _ spares _ => decide spares.Nodup
  | .coldReset _ | .porNDeassert _ _ _ | .bootRailCheck | .corePllLock _ | .porterStart _ | .dieReleaseTraining _ | .stackClear | .bootComplete
  | .warmReset _ | .perstAssert | .perstDeassert | .linkLoss | .pcieRefclkLoss | .functionLevelReset _ | .pmeTurnOff | .dormantPowerDown | .wake _
  | .wakeTimerExpiry | .porterLockstepFault _ | .dieResetRequest _ _ | .warmResetRequest _ | .dieResetD0 | .d0DrainEnd | .d0OutstandingDieReset
  | .d0ResetRelease | .d0ShuttersOpen _ | .porterReady | .dieResetUpper _ | .dieTrainingComplete _ _ | .neighbourPowerLoss _ _ | .channelSpareSwitch
  | .clockSkewSample _ _ | .delayLockWindow _ _ | .lockAcquireTimeout _ | .stagingTimeout | .lateLimitExpiry | .scheduleBankTakeover
  | .writeBackFrame | .thicketNop _ _ | .wait _ _ | .br _ _ | .loop _ _ | .blkBegin _ _ | .blkCommit _ _ | .timer _ _ | .mac _ _ | .macj _ _
  | .msb _ _ | .mul _ _ | .mulj _ _ | .pack _ _ | .aclr _ _ | .aload _ _ | .bexNext _ _ | .bexClr _ _ | .vadd _ _ | .vsub _ _ | .vaddmj _ _
  | .vsubmj _ _ | .vconj _ _ | .vshr _ _ | .vmov _ _ | .vperm _ _ | .spop _ _ | .spush _ _ | .lpop _ _ | .lpush _ _ | .mdrd _ _ | .mdwr _ _
  | .nwr _ _ | .setr _ _ | .setrv _ _ | .getr _ _ | .entryVectorTaken _ | .tileTimerExpiry _ | .residueCheckFail _ | .mdrdDataReturn _
  | .linkArrival _ | .streamInPush _ _ _ | .stagingBufferRelease _ | .blockWatchdog _ | .externalXyBeat _ _ _ _ | .tileSubstitutionStart _
  | .copyingComplete _ | .tileKick _ | .tileKickAll | .portARead _ _ _ | .portAWrite _ _ _ _ | .portAInvalidate _ | .portBWrite _
  | .narrowWriteMerge _ | .hostBlockInvalidate _ | .hostInvalidateAll | .invalidateClearDone _ | .nocFlitHop _ _ _ _ | .nocRequestTimeout _ _
  | .nocResponseArrival _ _ _ | .nocStatClear | .dramReadRequest _ _ | .dramWriteRequest _ _ | .dramPartialWrite _ _ _ | .dramReadData _ _
  | .dramRefresh _ | .mr4Poll _ _ | .dramAlert _ _ _ | .dramFullRetrainEnd _ _ | .retrainQuantum _ _ _ _ | .dramRetrainRequest _ | .pprNow _ _
  | .encRegionEnable _ _ | .encRegionDisable _ _ | .encConfigLock | .encRequest _ _ _ | .encReadComplete _ _ | .sweepLine _ _ | .ownerProgram _ _ _
  | .ownerRevoke _ _ _ | .ownerDisableDebug _ _ | .debugSessionExpiry | .imageFrameRecord | .imageStreamEnd _ | .landingPlaneRemap | .voteCorrection
  | .latchCheckFrame _ _ _ _ _ | .privetSweepStart _ _ | .privetFrameCheck _ _ _ | .privetSweepReport _ _ | .privetReportLate _ | .frameRepair _
  | .internalFaultSafeDelay | .sqTailDoorbell _ _ _ | .cqHeadDoorbell _ _ _ | .completionPost _ _ _ | .coalescingTimeout _ _ | .msixUnmask _ _
  | .adminQueueEnable _ _ _ | .adminQueueDisable _ | .functionQuotaWrite _ _ _ | .queueDrainLimit _ | .commandOverrun _ | .pcieLaneErrorWindow _ _
  | .nop _ | .identify _ | .abort _ | .queueCreate _ | .queueDisable _ | .queueDelete _ | .imageLoad _ | .imageLoadPartial _ | .contextStage _
  | .contextSwapAt _ | .scheduleSet _ | .contextRetire _ | .snapshotFf _ | .dmaMove _ | .dmaFill _ | .dmaGather _ | .keyInstall _ | .keyRetire _
  | .regionRekey _ | .timeRead _ | .timeAdjust _ | .holdoverControl _ | .timedOutputSet _ | .eyeScan _ | .pairForm _ | .pairDissolve _
  | .pairTakeover _ | .pairPrepare _ | .pairCommit _ | .bistRun _ _ | .telemetryRead _ | .faultLogRead _ | .throttleAck _ | .attest _
  | .debugUnlock _ | .laneEnable _ _ | .laneDisable _ _ | .laneAlignLock _ | .laneAcquireTimeout _ | .laneRetryWaitEnd _ | .laneLinkLoss _
  | .tsSettle _ | .frameReceived _ _ _ _ _ _ | .streamEgressFrame _ _ _ | .slowPathTxTail _ _ | .slowPathTransmit _ _ _ | .eiEntry _
  | .rxSignalLossEi _ | .eiRelockTimeout _ | .fhLaneErrorWindow _ _ _ _ | .candidateWindow _ _ | .coreRefMissingEdge | .corePllUnlock _
  | .coreReferenceSwitch _ _ | .coreRefSwitchEnd | .userPllEnable _ _ | .userPllDisable _ _ | .userPllLock _ | .userPllInputFail _
  | .globalChannelSelect _ _ | .wicketTrim _ | .oscBackupCheck _ | .timePllRefLoss | .timePllReturn | .replicaRealign | .timingEvaluation
  | .modelRefit | .ptpMeasurementCommit _ | .ppsEdge _ _ | .ppsTimeout | .todMessage _ | .synceHoldOffExpiry | .synceWtrExpiry _ | .timeStepEdge
  | .timedOutputEdge _ | .housekeepingRound _ _ _ _ | .throttleGraceExpiry | .throttleStepDeepen | .throttleStepRelease | .wicketWatchdogExpiry
  | .wicketRestartEnd | .pinOwnerChange _ _ | .ownerHandoverEnd _ _ _ | .debounceSettle _ | .matcherEnable _ _ | .prlLinkEnable _
  | .linkStageDone _ | .linkStateTimeout | .controlBlockReceived _ _ | .dataBlockReceived _ _ _ _ | .bolrynLaneErrorWindow _ _ | .linkWidthChange
  | .linkDirectionSleep | .linkDirectionWake | .bandReadapt _ | .pairFormCommit | .pairFormTimeout | .digestUnitClose _ | .segmentReleaseDue
  | .mismatchResolution | .resyncCopyEnd | .resyncFrameEnd | .pairTimeAverage | .roleExchange | .heartbeatLoss | .takeoverEdge | .partnerTimeout
  | .dissolveBoundary | .pairCommitBoundary | .pairInject _ | .bistSlice _ _ | .injectionTimeout | .safeCauseClear _ | .muteLift
  | .safConfigWrite _ _ | .registerWrite _ _ _ _ _ | .rcCounterRead _ _ _ _ | .capturePairRead _ _ _ | .unassignedAccess _ _ _ | .blockedAccess _ _ _
  | .linkTrainingComplete _ _ _ | .hostReadCompletion _ _ | .completionTimeout _ | .runStagingTimeout | .referenceReadyTimeout | .upperDieRelease _
  | .bolrynLaneSignalChange _ _ | .eiSignalReturn _ | .dramAlertDeassert _ _ | .landingPlaneCopyEnd => true

end Sys2Proof
end

