-- ==== Sys2Proof/Decode.lean ====
section
/-! DEFINITION. Commands by their words: the table gives no row of this block any bits, so no word spells a command. -/

namespace Sys2Proof

/-- The command that `nbits` bits of value `w` spell by the bits of the table: none, since no row has bits. -/
def decodeTableWord (_nbits _w : Nat) : Option Instr := none

end Sys2Proof
end

