-- ==== Sys2Proof/Machine/Aes.lean ====
section
/-! DEFINITION. AES-256 (FIPS 197), and its uses that the spec names: XTS (IEEE 1619, R256) and GCM (NIST SP 800-38D, R257, R284, R300). Byte strings
are lists of numbers below 256, in the order of the standards. -/

namespace Sys2Proof.Machine

/-! ## The cipher -/

/-- The substitution table and its inverse: entry `x` is byte `x` of the number. -/
def sboxTable : Nat :=
  0x16bb54b00f2d99416842e6bf0d89a18cdf2855cee9871e9b948ed9691198f8e19e1dc186b95735610ef6034866b53e708a8bbd4b1f74dde8c6b4a61c2e2578ba08ae7a65eaf4566ca94ed58d6d37c8e779e4959162acd3c25c2406490a3a32e0db0b5ede14b8ee4688902a22dc4f816073195d643d7ea7c41744975fec130ccdd2f3ff1021dab6bcf5389d928f40a351a89f3c507f02f94585334d43fbaaefd0cf584c4a39becb6a5bb1fc20ed00d153842fe329b3d63b52a05a6e1b1a2c830975b227ebe28012079a059618c323c7041531d871f1e5a534ccf73f362693fdb7c072a49cafa2d4adf04759fa7dc982ca76abd7fe2b670130c56f6bf27b777c63
def sboxInvTable : Nat :=
  0x7d0c2155631469e126d677ba7e042b17619953833cbbebc8b0f52aae4d3be0a0ef9cc9939f7ae52d0d4ab519a97f51605fec8027591012b131c7078833a8dd1ff45acd78fec0db9a2079d2c64b3e56fc1bbe18aa0e62b76f89c5291d711af1476edf751ce837f9e28535ade72274ac9673e6b4f0cecff297eadc674f4111913a6b8a130103bdafc1020f3fca8f1e2cd00645b3b80558e4f70ad3bc8c00abd890849d8da75746155edab9edfd5048706c92b6655dcc5ca4d41698688664f6f87225d18b6d49a25b76b224d92866a12e084ec3fa420b954cee3d23c2a632947b54cbe9dec444438e3487ff2f9b8239e37cfbd7f3819ea340bf38a53630d56a0952

def sbox (x : Nat) : Nat := sboxTable >>> (8 * x) % 256
def sboxInv (x : Nat) : Nat := sboxInvTable >>> (8 * x) % 256

/-- Multiplication by x in the field of AES. -/
def xtime (a : Nat) : Nat := if a < 128 then 2 * a else (2 * a) ^^^ 0x11B

/-- The product of two bytes in the field of AES. -/
def gmul (a b : Nat) : Nat :=
  ((List.range 8).foldl (fun (p : Nat × Nat) i => (if b.testBit i then p.1 ^^^ p.2 else p.1, xtime p.2)) (0, a)).1

/-- The sum of two byte strings. -/
def xorBytes (a b : List Nat) : List Nat := List.zipWith (fun x y => x ^^^ y) a b

/-- A column times the circulant matrix whose first row is `m`. -/
def mixColumn (m c : List Nat) : List Nat :=
  (List.range 4).map (fun r => (List.range 4).foldl (fun a k => a ^^^ gmul (c.getD k 0) (m.getD ((k + 4 - r) % 4) 0)) 0)

def mixColumns (m s : List Nat) : List Nat := (List.range 4).flatMap (fun k => mixColumn m ((s.drop (4 * k)).take 4))

/-- Row `r` of the state, bytes `r`, `r + 4`, `r + 8` and `r + 12`, turns left by `r`, or right with `back`. -/
def shiftRows (back : Bool) (s : List Nat) : List Nat :=
  (List.range 16).map (fun i => s.getD ((if back then i + 16 - 4 * (i % 4) else i + 4 * (i % 4)) % 16) 0)

/-- The expansion of a 32-byte key: `n` more words of 4 bytes after `w`, the words so far, the newest first. -/
def expandKey : Nat → Nat → List (List Nat) → List (List Nat)
  | 0, _, w => w
  | n + 1, i, w =>
    let t := w.headD []
    let t := if i % 8 = 0 then
        xorBytes ((t.drop 1 ++ t.take 1).map sbox) [(List.range (i / 8 - 1)).foldl (fun a _ => xtime a) 1, 0, 0, 0]
      else if i % 8 = 4 then t.map sbox else t
    expandKey n (i + 1) (xorBytes (w.getD 7 []) t :: w)

/-- The 15 round keys of 16 bytes. -/
def roundKeys (key : List Nat) : List (List Nat) :=
  let w := (expandKey 52 8 ((List.range 8).map (fun i => (key.drop (4 * (7 - i))).take 4))).reverse
  (List.range 15).map (fun r => ((w.drop (4 * r)).take 4).flatten)

/-- The block encrypted under round keys. -/
def aesEnc (rk : List (List Nat)) (b : List Nat) : List Nat :=
  let s := (List.range' 1 13).foldl (fun s r => xorBytes (mixColumns [2, 3, 1, 1] (shiftRows false (s.map sbox))) (rk.getD r [])) (xorBytes b (rk.getD 0 []))
  xorBytes (shiftRows false (s.map sbox)) (rk.getD 14 [])

/-- The block decrypted under round keys. -/
def aesDec (rk : List (List Nat)) (b : List Nat) : List Nat :=
  let s := (List.range' 1 13).foldl (fun s r =>
    mixColumns [14, 11, 13, 9] (xorBytes ((shiftRows true s).map sboxInv) (rk.getD (14 - r) []))) (xorBytes b (rk.getD 14 []))
  xorBytes ((shiftRows true s).map sboxInv) (rk.getD 0 [])

/-- The `n` bytes of a number, the least significant first, and the number that they spell. -/
def toLe : Nat → Nat → List Nat
  | 0, _ => []
  | n + 1, v => v % 256 :: toLe n (v / 256)

def fromLe (l : List Nat) : Nat := l.foldr (fun b a => b + 256 * a) 0

/-- The AES-256 block function on a key and a block whose byte 0 is the least significant (R257). -/
def aes256 (k : BitVec 256) (b : BitVec 128) : BitVec 128 := BitVec.ofNat 128 (fromLe (aesEnc (roundKeys (toLe 32 k.toNat)) (toLe 16 b.toNat)))

/-! ## XTS (R256) -/

/-- The tweak of the next block of a data unit. -/
def nextTweak (t : Nat) : Nat := if t < 2 ^ 127 then 2 * t else (2 * t % 2 ^ 128) ^^^ 0x87

/-- A 64-byte line through XTS under data key bits [255:0] and tweak key bits [511:256] of the slot; `f` is the cipher of one block. -/
def xtsLine (f : List (List Nat) → List Nat → List Nat) (k : BitVec 512) (n : Nat) (d : BitVec 512) : BitVec 512 :=
  let rk := roundKeys (toLe 32 k.toNat)
  let t0 := fromLe (aesEnc (roundKeys (toLe 32 (k.toNat >>> 256))) (toLe 16 n))
  let blocks := (List.range 4).foldl (fun (a : Nat × List Nat) i =>
    let t := toLe 16 a.1
    (nextTweak a.1, a.2 ++ xorBytes (f rk (xorBytes (toLe 16 (d.toNat >>> (128 * i))) t)) t)) (t0, [])
  BitVec.ofNat 512 (fromLe blocks.2)

def xtsSeal : BitVec 512 → Nat → BitVec 512 → BitVec 512 := xtsLine aesEnc
def xtsOpen : BitVec 512 → Nat → BitVec 512 → BitVec 512 := xtsLine aesDec

/-! ## GCM (R257, R284, R300) -/

/-- A number whose most significant byte comes first. -/
def fromBe (l : List Nat) : Nat := l.foldl (fun a b => a * 256 + b) 0
def toBe (n v : Nat) : List Nat := (toLe n v).reverse

/-- The product in the field of GHASH, whose first bit is the most significant. -/
def ghashMul (x h : Nat) : Nat :=
  ((List.range 128).foldl (fun (p : Nat × Nat) i =>
    (if x.testBit (127 - i) then p.1 ^^^ p.2 else p.1, if p.2 % 2 = 1 then (p.2 / 2) ^^^ (0xE1 <<< 120) else p.2 / 2)) (0, h)).1

/-- GHASH goes on over a byte string, padded with zeros to whole blocks. -/
def ghash (h a : Nat) (l : List Nat) : Nat :=
  (List.range ((l.length + 15) / 16)).foldl (fun a i =>
    ghashMul (a ^^^ fromBe ((List.range 16).map (fun j => l.getD (16 * i + j) 0))) h) a

/-- Block `i` of the key stream of a 12-byte IV; block 1 is the tag's. -/
def gcmBlock (rk : List (List Nat)) (iv : List Nat) (i : Nat) : List Nat := aesEnc rk (iv ++ toBe 4 i)

/-- The sum of a byte string with the key stream. -/
def gcmXor (rk : List (List Nat)) (iv l : List Nat) : List Nat :=
  xorBytes l ((List.range ((l.length + 15) / 16)).flatMap (fun i => gcmBlock rk iv (i + 2)))

/-- The 16-byte tag of a ciphertext and its additional data. -/
def gcmTag16 (rk : List (List Nat)) (iv aad c : List Nat) : List Nat :=
  let h := fromBe (aesEnc rk (List.replicate 16 0))
  let x := ghash h (ghash h (ghash h 0 aad) c) (toBe 8 (8 * aad.length) ++ toBe 8 (8 * c.length))
  xorBytes (toBe 16 x) (gcmBlock rk iv 1)

/-- The key stream over one 64-byte line, by key and IV (R257): encryption and decryption both XOR it. -/
def gcmStream (k : BitVec 256) (iv : BitVec 96) : BitVec 512 :=
  BitVec.ofNat 512 (fromLe (gcmXor (roundKeys (toLe 32 k.toNat)) (toLe 12 iv.toNat) (List.replicate 64 0)))

/-- The first 8 bytes of the tag of a ciphertext line (R257). -/
def gcmTag (k : BitVec 256) (iv : BitVec 96) (c : BitVec 512) : BitVec 64 :=
  BitVec.ofNat 64 (fromLe ((gcmTag16 (roundKeys (toLe 32 k.toNat)) (toLe 12 iv.toNat) [] (toLe 64 c.toNat)).take 8))

/-- Decryption by key, IV, additional data, ciphertext and tag: none where the tag fails (R284, R300). -/
def gcmOpen (k : BitVec 256) (iv : BitVec 96) (aad c : List Byte) (tag : BitVec 128) : Option (List Byte) :=
  let rk := roundKeys (toLe 32 k.toNat)
  let n (l : List Byte) : List Nat := l.map (fun b => b.toNat)
  let v := toLe 12 iv.toNat
  if fromLe (gcmTag16 rk v (n aad) (n c)) = tag.toNat then some ((gcmXor rk v (n c)).map (BitVec.ofNat 8)) else none

end Sys2Proof.Machine
end

