-- ==== Sys2Proof/Machine/Keccak.lean ====
section
/-! DEFINITION. SHA3-256, SHA3-512, SHAKE128 and SHAKE256 (FIPS 202), and KMAC128 (NIST SP 800-185). -/

namespace Sys2Proof.Machine

/-! ## Byte strings, little-endian -/

/-- The `n` bytes of `v`, least significant first. -/
def leBytes : Nat → Nat → List Byte
  | 0, _ => []
  | n + 1, v => BitVec.ofNat 8 v :: leBytes n (v / 256)

/-- The number that a byte string spells, least significant byte first. -/
def ofBytes : List Byte → Nat
  | [] => 0
  | b :: l => b.toNat + 256 * ofBytes l

/-! ## The permutation and the hashes -/

/-- The round constants of the permutation. -/
def keccakRc : List Nat :=
  [0x1, 0x8082, 0x800000000000808A, 0x8000000080008000,
   0x808B, 0x80000001, 0x8000000080008081, 0x8000000000008009,
   0x8A, 0x88, 0x80008009, 0x8000000A,
   0x8000808B, 0x800000000000008B, 0x8000000000008089, 0x8000000000008003,
   0x8000000000008002, 0x8000000000000080, 0x800A, 0x800000008000000A,
   0x8000000080008081, 0x8000000000008080, 0x80000001, 0x8000000080008008]

/-- The rotations of the lanes, lane (x, y) at x + 5 y. -/
def keccakRot : List Nat :=
  [0, 1, 62, 28, 27, 36, 44, 6, 55, 20, 3, 10, 43, 25, 39, 41, 45, 15, 21, 8, 18, 2, 61, 56, 14]

/-- A lane of 64 bits turned left by `n`. -/
def rotLane (v n : Nat) : Nat := (v <<< n % 2 ^ 64) ||| (v >>> (64 - n))

/-- One round on the 25 lanes. -/
def keccakRound (a : List Nat) (rc : Nat) : List Nat :=
  let c := (List.range 5).map (fun x => (List.range 5).foldl (fun v y => v ^^^ a.getD (x + 5 * y) 0) 0)
  let t := (List.range 25).map (fun i => a.getD i 0 ^^^ c.getD ((i % 5 + 4) % 5) 0 ^^^ rotLane (c.getD ((i % 5 + 1) % 5) 0) 1)
  let b := (List.range 25).map (fun i =>
    let x := (i % 5 + 3 * (i / 5)) % 5
    let j := x + 5 * (i % 5)
    rotLane (t.getD j 0) (keccakRot.getD j 0))
  (List.range 25).map (fun i =>
    let y := 5 * (i / 5)
    let v := b.getD i 0 ^^^ ((2 ^ 64 - 1 - b.getD (y + (i + 1) % 5) 0) &&& b.getD (y + (i + 2) % 5) 0)
    if i = 0 then v ^^^ rc else v)

def keccak (a : List Nat) : List Nat := keccakRc.foldl keccakRound a

/-- The lane at byte `o` of a string. -/
def laneAt (l : List Nat) (o : Nat) : Nat := ((l.drop o).take 8).foldr (fun b v => b + 256 * v) 0

/-- The blocks of `rate` bytes are absorbed; `n` bounds their number. -/
def absorb : Nat → Nat → List Nat → List Nat → List Nat
  | 0, _, _, a => a
  | n + 1, rate, l, a =>
    absorb n rate (l.drop rate) (keccak ((List.range 25).map (fun i => if 8 * i < rate then a.getD i 0 ^^^ laneAt l (8 * i) else a.getD i 0)))

/-- The state after `m`, its domain bits `dom` and the padding have been absorbed in blocks of `rate` bytes. -/
def sponge (rate dom : Nat) (m : List Byte) : List Nat :=
  let l := m.map (fun b => b.toNat)
  let pad := rate - l.length % rate
  let l := l ++ (if pad = 1 then [dom + 128] else dom :: List.replicate (pad - 2) 0 ++ [0x80])
  absorb (l.length / rate) rate l (List.replicate 25 0)

/-- The bytes of a state's lanes. -/
def laneBytes (a : List Nat) : List Nat := a.flatMap (fun v => (List.range 8).map (fun i => v >>> (8 * i) % 256))

/-- `n` blocks of `rate` bytes are squeezed. -/
def squeeze : Nat → Nat → List Nat → List Nat
  | 0, _, _ => []
  | n + 1, rate, a => (laneBytes a).take rate ++ squeeze n rate (keccak a)

/-- `n` bytes of an extendable output. -/
def xof (rate dom n : Nat) (m : List Byte) : List Byte :=
  ((squeeze ((n + rate - 1) / rate) rate (sponge rate dom m)).take n).map (BitVec.ofNat 8)

def shake128 (n : Nat) (m : List Byte) : List Byte := xof 168 0x1F n m
def shake256 (n : Nat) (m : List Byte) : List Byte := xof 136 0x1F n m

/-- The first 64 bytes that a hash of `rate` bytes gives, byte 0 the least significant. -/
def sha3 (rate : Nat) (m : List Byte) : Nat := ((sponge rate 6 m).take 8).foldr (fun b v => b + 2 ^ 64 * v) 0

def sha3_256 (m : List Byte) : BitVec 256 := BitVec.ofNat 256 (sha3 136 m)
def sha3_512 (m : List Byte) : BitVec 512 := BitVec.ofNat 512 (sha3 72 m)

/-! ## KMAC128 -/

/-- The bytes of a length, most significant first, none of them a leading zero. -/
def lengthBytes : Nat → Nat → List Byte
  | 0, _ => []
  | k + 1, v => if v < 256 then [BitVec.ofNat 8 v] else lengthBytes k (v / 256) ++ [BitVec.ofNat 8 v]

def leftEncode (v : Nat) : List Byte := let l := lengthBytes 8 v; BitVec.ofNat 8 l.length :: l
def rightEncode (v : Nat) : List Byte := let l := lengthBytes 8 v; l ++ [BitVec.ofNat 8 l.length]
def encodeString (m : List Byte) : List Byte := leftEncode (8 * m.length) ++ m

/-- A string of encoded strings, filled up to whole blocks of 168 bytes. -/
def bytePad (m : List Byte) : List Byte :=
  let l := leftEncode 168 ++ m
  l ++ List.replicate ((168 - l.length % 168) % 168) 0

/-- The first `n` bytes of KMAC128 with an output of `bits` bits. -/
def kmac128 (bits n : Nat) (key custom m : List Byte) : List Byte :=
  let name : List Byte := [0x4B, 0x4D, 0x41, 0x43]
  xof 168 4 n (bytePad (encodeString name ++ encodeString custom) ++ bytePad (encodeString key) ++ m ++ rightEncode bits)

end Sys2Proof.Machine
end

