-- ==== Sys2Proof/Machine/Curve.lean ====
section
/-! DEFINITION. SHA-512 (FIPS 180-4) and Ed25519 (RFC 8032), as R281 and R288 use them. -/

namespace Sys2Proof.Machine

/-! ## SHA-512 -/

/-- The first eighty primes: from the fractions of their roots come the constants. -/
def sha512Primes : List Nat :=
  ((List.range 410).drop 2).filter (fun n => (List.range 21).all (fun d => decide (d < 2) || decide (n ≤ d) || n % d != 0))

/-- The whole root of degree `k` of `v`, bit by bit from bit `n - 1`. -/
def wholeRoot (k v : Nat) : Nat → Nat → Nat
  | 0, r => r
  | n + 1, r => wholeRoot k v n (if (r + 2 ^ n) ^ k ≤ v then r + 2 ^ n else r)

def sha512K : List Nat := sha512Primes.map (fun p => wholeRoot 3 (p * 2 ^ 192) 68 0 % 2 ^ 64)
def sha512Init : List Nat := (sha512Primes.take 8).map (fun p => wholeRoot 2 (p * 2 ^ 128) 69 0 % 2 ^ 64)

def rotRight (v n : Nat) : Nat := v >>> n ||| (v <<< (64 - n) % 2 ^ 64)

/-- The message schedule: sixteen words and sixty-four more, last word first. -/
def sha512Words : Nat → List Nat → List Nat
  | 0, w => w
  | n + 1, w =>
    let a := w.getD 14 0
    let b := w.getD 1 0
    let s0 := rotRight a 1 ^^^ rotRight a 8 ^^^ a >>> 7
    let s1 := rotRight b 19 ^^^ rotRight b 61 ^^^ b >>> 6
    sha512Words n ((s1 + w.getD 6 0 + s0 + w.getD 15 0) % 2 ^ 64 :: w)

/-- One round on the eight working words, with the word and constant `kw`. -/
def sha512Round (v : List Nat) (kw : Nat) : List Nat :=
  match v with
  | [a, b, c, d, e, f, g, h] =>
    let t1 := h + (rotRight e 14 ^^^ rotRight e 18 ^^^ rotRight e 41) + ((e &&& f) ^^^ ((2 ^ 64 - 1 - e) &&& g)) + kw
    let t2 := (rotRight a 28 ^^^ rotRight a 34 ^^^ rotRight a 39) + ((a &&& b) ^^^ (a &&& c) ^^^ (b &&& c))
    [(t1 + t2) % 2 ^ 64, a, b, c, (d + t1) % 2 ^ 64, e, f, g]
  | _ => v

def bigEndian (l : List Nat) : Nat := l.foldl (fun v b => 256 * v + b) 0

/-- `n` blocks of 128 bytes. -/
def sha512Blocks : Nat → List Nat → List Nat → List Nat
  | 0, _, h => h
  | n + 1, m, h =>
    let w := ((List.range 16).map (fun i => bigEndian ((m.drop (8 * i)).take 8))).reverse
    let w := (sha512Words 64 w).reverse
    let v := (w.zipWith (fun x k => x + k) sha512K).foldl sha512Round h
    sha512Blocks n (m.drop 128) (h.zipWith (fun x y => (x + y) % 2 ^ 64) v)

/-- SHA-512 of a byte string, as the little-endian number that its 64 bytes spell. -/
def sha512 (m : List Byte) : Nat :=
  let l := m.map (fun b => b.toNat)
  let fill := (239 - l.length % 128) % 128
  let bitsOf := 8 * l.length
  let l := l ++ 0x80 :: List.replicate fill 0 ++ ((List.range 16).map (fun i => bitsOf >>> (8 * (15 - i)) % 256))
  let h := sha512Blocks (l.length / 128) l sha512Init
  (h.flatMap (fun v => (List.range 8).map (fun i => v >>> (8 * (7 - i)) % 256))).foldr (fun b v => b + 256 * v) 0

/-! ## The curve -/

def edP : Nat := 2 ^ 255 - 19

/-- The order of the base point. -/
def edL : Nat := 2 ^ 252 + 27742317777372353535851937790883648493

/-- `a ^ e` modulo the field's prime, for `e` of at most `n` bits. -/
def edPow (a e : Nat) : Nat → Nat
  | 0 => 1
  | n + 1 => let r := edPow a (e / 2) n; if e % 2 = 1 then r * r % edP * a % edP else r * r % edP

def edInv (a : Nat) : Nat := edPow a (edP - 2) 255
def edMinus (a b : Nat) : Nat := (a + edP - b % edP) % edP
def edD : Nat := (edP - 121665 % edP) * edInv 121666 % edP

/-- A point as X, Y, Z, T with x = X/Z, y = Y/Z and x y = T/Z. -/
structure EdPoint where
  x : Nat
  y : Nat
  z : Nat
  t : Nat

def EdPoint.zero : EdPoint := ⟨0, 1, 1, 0⟩

def EdPoint.add (p q : EdPoint) : EdPoint :=
  let a := edMinus p.y p.x * edMinus q.y q.x % edP
  let b := (p.y + p.x) * (q.y + q.x) % edP
  let c := 2 * p.t * q.t % edP * edD % edP
  let d := 2 * p.z * q.z % edP
  let e := edMinus b a
  let f := edMinus d c
  let g := (d + c) % edP
  let h := (b + a) % edP
  ⟨e * f % edP, g * h % edP, f * g % edP, e * h % edP⟩

/-- `k` times a point, for `k` of at most `n` bits. -/
def EdPoint.times (p : EdPoint) (k : Nat) : Nat → EdPoint
  | 0 => EdPoint.zero
  | n + 1 => let r := p.times (k / 2) n; let d := r.add r; if k % 2 = 1 then d.add p else d

def EdPoint.same (p q : EdPoint) : Bool := (p.x * q.z % edP == q.x * p.z % edP) && (p.y * q.z % edP == q.y * p.z % edP)

/-- The x of sign bit `sign` over a y; none where the curve has no such point. -/
def edX (y sign : Nat) : Option Nat :=
  let u := edMinus (y * y) 1
  let v := (edD * (y * y % edP) + 1) % edP
  let x2 := u * edInv v % edP
  let r := edPow x2 ((edP + 3) / 8) 253
  let x := if r * r % edP = x2 then r else r * edPow 2 ((edP - 1) / 4) 254 % edP
  if x * x % edP ≠ x2 ∨ (x = 0 ∧ sign = 1) then none else some (if x % 2 = sign then x else edP - x)

/-- A point from its 32 bytes; an encoding that is not canonical is refused (R281). -/
def edDecode (v : Nat) : Option EdPoint :=
  let y := v % 2 ^ 255
  if edP ≤ y then none else (edX y (v / 2 ^ 255 % 2)).map (fun x => ⟨x, y, 1, x * y % edP⟩)

def edEncode (p : EdPoint) : Nat :=
  let i := edInv p.z
  p.y * i % edP + p.x * i % edP % 2 * 2 ^ 255

def edBase : EdPoint :=
  let y := 4 * edInv 5 % edP
  let x := (edX y 0).getD 0
  ⟨x, y, 1, x * y % edP⟩

/-! ## Keys and signatures -/

/-- The secret scalar of a seed's hash. -/
def edScalar (h : Nat) : Nat := h % 2 ^ 254 / 8 * 8 + 2 ^ 254

/-- The public key of a seed. -/
@[irreducible] def edPublic (seed : BitVec 256) : List Byte :=
  leBytes 32 (edEncode (edBase.times (edScalar (sha512 (leBytes 32 seed.toNat))) 255))

/-- The signature of a message. -/
@[irreducible] def edSign (seed : BitVec 256) (m : List Byte) : List Byte :=
  let h := sha512 (leBytes 32 seed.toNat)
  let a := edScalar h
  let pub := leBytes 32 (edEncode (edBase.times a 255))
  let r := sha512 (leBytes 32 (h / 2 ^ 256) ++ m) % edL
  let rb := leBytes 32 (edEncode (edBase.times r 253))
  rb ++ leBytes 32 ((r + sha512 (rb ++ pub ++ m) * a) % edL)

/-- The signature verifies: S below the order, both points canonical, and the equation without the cofactor (R281). -/
@[irreducible] def edVerify (pub m sig : List Byte) : Bool :=
  let rb := sig.take 32
  let sc := ofBytes ((sig.drop 32).take 32)
  match edDecode (ofBytes pub), edDecode (ofBytes rb) with
  | some a, some r =>
    let k := sha512 (rb ++ pub ++ m) % edL
    decide (sc < edL) && (edBase.times sc 253).same (r.add (a.times k 253))
  | _, _ => false

end Sys2Proof.Machine
end

