-- ==== Sys2Proof/Machine/Lattice.lean ====
section
/-! DEFINITION. ML-KEM-768 (FIPS 203) and ML-DSA-65 (FIPS 204), as R275, R281, R284 and R288 use them. A polynomial is a list of 256 numbers modulo
the ring's prime `q`. -/

namespace Sys2Proof.Machine

/-! ## Bytes, bits and polynomials -/

/-- `n` values of `w` bits packed into bytes, the least significant first, and back. -/
def packBits (w : Nat) (l : List Nat) : List Byte := leBytes (w * l.length / 8) (l.foldr (fun a v => a % 2 ^ w + 2 ^ w * v) 0)
def unpackBits (w n : Nat) (l : List Byte) : List Nat :=
  let v := ofBytes l
  (List.range n).map (fun i => v >>> (w * i) % 2 ^ w)

def polyAdd (q : Nat) (a b : List Nat) : List Nat := a.zipWith (fun x y => (x + y) % q) b
def polySub (q : Nat) (a b : List Nat) : List Nat := a.zipWith (fun x y => (x + q - y) % q) b

/-- `a ^ e` modulo `q`, for `e` of at most `n` bits. -/
def powMod (q a e : Nat) : Nat → Nat
  | 0 => 1 % q
  | n + 1 => let r := powMod q a (e / 2) n; if e % 2 = 1 then r * r % q * a % q else r * r % q

/-- The low `n` bits of `k`, last first. -/
def turnBits (n k : Nat) : Nat := (List.range n).foldl (fun v i => 2 * v + k >>> i % 2) 0

/-- The powers of a root in the transforms' order, and their inverses. -/
def zetaTable (q z n : Nat) : List Nat := (List.range (2 ^ n)).map (fun k => powMod q z (turnBits n k) 8)
def inverseTable (q : Nat) (l : List Nat) : List Nat := l.map (fun z => powMod q z (q - 2) 23)

/-- The transform of `n` levels from node `k`, with the powers `zs`. -/
def ntt (q : Nat) (zs : List Nat) : Nat → Nat → List Nat → List Nat
  | 0, _, a => a
  | n + 1, k, a =>
    let h := a.length / 2
    let lo := a.take h
    let hi := (a.drop h).map (fun x => zs.getD k 0 * x % q)
    ntt q zs n (2 * k) (polyAdd q lo hi) ++ ntt q zs n (2 * k + 1) (polySub q lo hi)

/-- The inverse transform but for the factor `2 ^ n`. -/
def nttBack (q : Nat) (zi : List Nat) : Nat → Nat → List Nat → List Nat
  | 0, _, a => a
  | n + 1, k, a =>
    let h := a.length / 2
    let lo := nttBack q zi n (2 * k) (a.take h)
    let hi := nttBack q zi n (2 * k + 1) (a.drop h)
    polyAdd q lo hi ++ (polySub q lo hi).map (fun x => zi.getD k 0 * x % q)

def zeroPoly : List Nat := List.replicate 256 0

/-- The sum of the products of two vectors, with the product `mul`. -/
def dotPoly (q : Nat) (mul : List Nat → List Nat → List Nat) (a b : List (List Nat)) : List Nat :=
  (a.zipWith mul b).foldl (polyAdd q) zeroPoly

/-! ## ML-KEM-768 -/

def kemQ : Nat := 3329
def kemZ : List Nat := zetaTable kemQ 17 7
def kemZi : List Nat := inverseTable kemQ kemZ
def kemNtt (a : List Nat) : List Nat := ntt kemQ kemZ 7 1 a
def kemBack (a : List Nat) : List Nat := (nttBack kemQ kemZi 7 1 a).map (fun x => 3303 * x % kemQ)

/-- The product of two transformed polynomials: 128 products of degree one. -/
def kemMul (a b : List Nat) : List Nat :=
  (List.range 128).flatMap (fun i =>
    let z := powMod kemQ 17 (2 * turnBits 7 i + 1) 9
    let a0 := a.getD (2 * i) 0
    let a1 := a.getD (2 * i + 1) 0
    let b0 := b.getD (2 * i) 0
    let b1 := b.getD (2 * i + 1) 0
    [(a0 * b0 + a1 * b1 % kemQ * z) % kemQ, (a0 * b1 + a1 * b0) % kemQ])

/-- The candidates of 12 bits in a byte string. -/
def triples : Nat → List Nat → List Nat
  | n + 1, a :: b :: c :: l => (a + 256 * (b % 16)) :: (b / 16 + 16 * c) :: triples n l
  | _, _ => []

/-- A uniform transformed polynomial. -/
def kemSample (seed : List Byte) : List Nat :=
  ((triples 560 ((shake128 1680 seed).map (fun b => b.toNat))).filter (fun v => decide (v < kemQ))).take 256

/-- A noise polynomial: the difference of two sums of two bits each. -/
def kemNoise (seed : List Byte) (n : Nat) : List Nat :=
  (unpackBits 4 256 (shake256 128 (seed ++ leBytes 1 n))).map (fun v => (v % 2 + v / 2 % 2 + kemQ - v / 4 % 2 - v / 8 % 2) % kemQ)

def kemCompress (d x : Nat) : Nat := (2 ^ (d + 1) * x + kemQ) / (2 * kemQ) % 2 ^ d
def kemExpand (d y : Nat) : Nat := (2 * kemQ * y + 2 ^ d) / 2 ^ (d + 1)

/-- Row `i` of the public matrix, or of its transpose. -/
def kemRow (rho : List Byte) (turned : Bool) (i : Nat) : List (List Nat) :=
  (List.range 3).map (fun j => kemSample (rho ++ leBytes 1 (if turned then i else j) ++ leBytes 1 (if turned then j else i)))

/-- The transformed secret of a seed, and the encapsulation key. -/
def kemKeys (d : BitVec 256) : List (List Nat) × List Byte :=
  let g := leBytes 64 (sha3_512 (leBytes 32 d.toNat ++ [3])).toNat
  let rho := g.take 32
  let sigma := g.drop 32
  let s := (List.range 3).map (fun i => kemNtt (kemNoise sigma i))
  let e := (List.range 3).map (fun i => kemNtt (kemNoise sigma (3 + i)))
  let t := (List.range 3).map (fun i => polyAdd kemQ (dotPoly kemQ kemMul (kemRow rho false i) s) (e.getD i zeroPoly))
  (s, t.flatMap (packBits 12) ++ rho)

/-- The encapsulation key of a pair of seeds. -/
@[irreducible] def mlkemPublic (d : BitVec 256) : List Byte := (kemKeys d).2

/-- The encryption of 32 bytes with the coins `r`. -/
def kemEncrypt (ek m r : List Byte) : List Byte :=
  let t := (List.range 3).map (fun i => (unpackBits 12 256 ((ek.drop (384 * i)).take 384)).map (fun x => x % kemQ))
  let rho := ek.drop 1152
  let y := (List.range 3).map (fun i => kemNtt (kemNoise r i))
  let u := (List.range 3).map (fun i => polyAdd kemQ (kemBack (dotPoly kemQ kemMul (kemRow rho true i) y)) (kemNoise r (3 + i)))
  let mu := (unpackBits 1 256 m).map (kemExpand 1)
  let v := polyAdd kemQ (polyAdd kemQ (kemBack (dotPoly kemQ kemMul t y)) (kemNoise r 6)) mu
  u.flatMap (fun p => packBits 10 (p.map (kemCompress 10))) ++ packBits 4 (v.map (kemCompress 4))

/-- The decryption of a ciphertext. -/
def kemDecrypt (s : List (List Nat)) (c : List Byte) : List Byte :=
  let u := (List.range 3).map (fun i => kemNtt ((unpackBits 10 256 ((c.drop (320 * i)).take 320)).map (kemExpand 10)))
  let v := (unpackBits 4 256 (c.drop 960)).map (kemExpand 4)
  packBits 1 ((polySub kemQ v (kemBack (dotPoly kemQ kemMul s u))).map (kemCompress 1))

/-- The shared secret of a ciphertext under a pair of seeds; a ciphertext that no encapsulation makes gives one of its own. -/
@[irreducible] def mlkemDecaps (d z : BitVec 256) (c : List Byte) : List Byte :=
  let k := kemKeys d
  let m := kemDecrypt k.1 c
  let g := leBytes 64 (sha3_512 (m ++ leBytes 32 (sha3_256 k.2).toNat)).toNat
  if kemEncrypt k.2 m (g.drop 32) = c then g.take 32 else shake256 32 (leBytes 32 z.toNat ++ c)

/-! ## ML-DSA-65 -/

def dsaQ : Nat := 8380417
def dsaZ : List Nat := zetaTable dsaQ 1753 8
def dsaZi : List Nat := inverseTable dsaQ dsaZ
def dsaNtt (a : List Nat) : List Nat := ntt dsaQ dsaZ 8 1 a
def dsaBack (a : List Nat) : List Nat := (nttBack dsaQ dsaZi 8 1 a).map (fun x => 8347681 * x % dsaQ)
def dsaMul (a b : List Nat) : List Nat := a.zipWith (fun x y => x * y % dsaQ) b

/-- The distance of a residue from 0. -/
def dsaNorm (a : Nat) : Nat := if dsaQ < 2 * a then dsaQ - a else a
def dsaBelow (b : Nat) (v : List (List Nat)) : Bool := v.all (fun p => p.all (fun a => decide (dsaNorm a < b)))

/-- The candidates of 23 bits in a byte string. -/
def dsaTriples : Nat → List Nat → List Nat
  | n + 1, a :: b :: c :: l => (a + 256 * b + 65536 * (c % 128)) :: dsaTriples n l
  | _, _ => []

/-- A transformed polynomial of the public matrix: row `i`, column `j`. -/
def dsaEntry (rho : List Byte) (i j : Nat) : List Nat :=
  ((dsaTriples 392 ((shake128 1176 (rho ++ leBytes 1 j ++ leBytes 1 i)).map (fun b => b.toNat))).filter (fun v => decide (v < dsaQ))).take 256

def dsaMatrix (rho : List Byte) : List (List (List Nat)) :=
  (List.range 6).map (fun i => (List.range 5).map (fun j => dsaEntry rho i j))

/-- A short secret polynomial. -/
def dsaShort (seed : List Byte) (n : Nat) : List Nat :=
  (((unpackBits 4 1088 (shake256 544 (seed ++ leBytes 2 n))).filter (fun v => decide (v < 9))).take 256).map (fun v => (dsaQ + 4 - v) % dsaQ)

/-- The upper part of a residue, rounded at 13 bits. -/
def dsaUpper (a : Nat) : Nat := (a + 4095) / 8192

/-- The high part of a residue, modulo 16, and its low part (R281's verification needs the first alone). -/
def dsaHigh (a : Nat) : Nat := if dsaQ - 1 < a + 261888 then 0 else (a + 261887) / 523776
def dsaLow (a : Nat) : Nat := (a + 16 * dsaQ - dsaHigh a * 523776) % dsaQ

/-- The high part moved by a hint towards the side of the low part. -/
def dsaUseHint (h a : Nat) : Nat :=
  let x := dsaHigh a
  if h = 0 then x
  else if dsaQ - 1 < a + 261888 then 15
  else if 0 < dsaLow a ∧ 2 * dsaLow a < dsaQ then (x + 1) % 16 else (x + 15) % 16

/-- A key pair's parts: rho, K, the secrets s1 and s2, and t. -/
structure DsaKey where
  rho : List Byte
  k : List Byte
  s1 : List (List Nat)
  s2 : List (List Nat)
  t : List (List Nat)

def dsaKey (seed : BitVec 256) : DsaKey :=
  let g := shake256 128 (leBytes 32 seed.toNat ++ [6, 5])
  let rho := g.take 32
  let r := (g.drop 32).take 64
  let s1 := (List.range 5).map (dsaShort r)
  let s2 := (List.range 6).map (fun i => dsaShort r (5 + i))
  let s1n := s1.map dsaNtt
  let t := ((dsaMatrix rho).map (fun row => dsaBack (dotPoly dsaQ dsaMul row s1n))).zipWith (polyAdd dsaQ) s2
  { rho := rho, k := g.drop 96, s1 := s1, s2 := s2, t := t }

def DsaKey.pub (x : DsaKey) : List Byte := x.rho ++ x.t.flatMap (fun p => packBits 10 (p.map dsaUpper))

/-- The public key of a seed. -/
@[irreducible] def mldsaPublic (seed : BitVec 256) : List Byte := (dsaKey seed).pub

/-- The challenge of a hash: 49 entries of 1 or -1. -/
def dsaChallenge (h : List Byte) : List Nat :=
  let o := (shake256 272 h).map (fun b => b.toNat)
  let signs := ofBytes ((o.take 8).map (BitVec.ofNat 8))
  let step (a : List Nat × List Nat) (n : Nat) : List Nat × List Nat :=
    let i := 207 + n
    let l := a.2.dropWhile (fun b => decide (i < b))
    let j := l.headD 0
    ((a.1.set i (a.1.getD j 0)).set j (if signs >>> n % 2 = 1 then dsaQ - 1 else 1), l.drop 1)
  ((List.range 49).foldl step (zeroPoly, o.drop 8)).1

/-- The message as it is signed, with its context string, hashed under the public key. -/
def dsaMessage (pub m ctx : List Byte) : List Byte :=
  shake256 64 (shake256 64 pub ++ [0] ++ leBytes 1 ctx.length ++ ctx ++ m)

/-- The encoding of the high parts. -/
def dsaHighBytes (w : List (List Nat)) : List Byte := w.flatMap (fun p => packBits 4 p)

/-- The encoding of a hint: the places of its ones, and where each polynomial's end. -/
def dsaHintBytes (h : List (List Nat)) : List Byte :=
  let places := h.map (fun p => (List.range 256).filter (fun i => p.getD i 0 == 1))
  let all := places.flatMap id
  let ends := (List.range 6).map (fun i => ((places.take (i + 1)).map (fun l => l.length)).foldl (· + ·) 0)
  (all ++ List.replicate (55 - all.length) 0 ++ ends).map (BitVec.ofNat 8)

/-- The hint that 61 bytes spell; none where they spell none. -/
def dsaHint (b : List Byte) : Option (List (List Nat)) :=
  let v := b.map (fun x => x.toNat)
  let ends := v.drop 55
  let starts := 0 :: ends
  let ok := (List.range 6).all (fun i =>
    let s := starts.getD i 0
    let e := starts.getD (i + 1) 0
    decide (s ≤ e) && decide (e ≤ 55) && (List.range (e - s - 1)).all (fun k => decide (v.getD (s + k) 0 < v.getD (s + k + 1) 0)))
  if ok && (List.range 55).all (fun k => decide (k < ends.getD 5 0) || v.getD k 0 == 0) then
    some ((List.range 6).map (fun i =>
      let l := ((v.take (starts.getD (i + 1) 0)).drop (starts.getD i 0))
      (List.range 256).map (fun k => if l.contains k then 1 else 0)))
  else none

/-- One attempt at a signature, number `n` of at most 814 (FIPS 204, appendix C). -/
def dsaAttempt (x : DsaKey) (a : List (List (List Nat))) (mu seed : List Byte) (n : Nat) : Option (List Byte) :=
  let y := (List.range 5).map (fun i => (unpackBits 20 256 (shake256 640 (seed ++ leBytes 2 (5 * n + i)))).map (fun v => (524288 + dsaQ - v) % dsaQ))
  let yn := y.map dsaNtt
  let w := a.map (fun row => dsaBack (dotPoly dsaQ dsaMul row yn))
  let ch := shake256 48 (mu ++ dsaHighBytes (w.map (fun p => p.map dsaHigh)))
  let c := dsaNtt (dsaChallenge ch)
  let timesC (v : List (List Nat)) : List (List Nat) := v.map (fun p => dsaBack (dsaMul c (dsaNtt p)))
  let z := y.zipWith (polyAdd dsaQ) (timesC x.s1)
  let r := w.zipWith (polySub dsaQ) (timesC x.s2)
  let ct := timesC (x.t.map (fun p => p.map (fun v => (v + dsaQ - 8192 * dsaUpper v) % dsaQ)))
  let h : List (List Nat) := (r.zip ct).map (fun p => (p.1.zip p.2).map (fun v => if dsaHigh v.1 = dsaHigh ((v.1 + v.2) % dsaQ) then (0 : Nat) else 1))
  if dsaBelow 524092 z && dsaBelow 261692 (r.map (fun p => p.map dsaLow)) && dsaBelow 261888 ct &&
      decide ((h.map List.sum).sum ≤ 55) then
    some (ch ++ z.flatMap (fun p => packBits 20 (p.map (fun v => (524288 + dsaQ - v) % dsaQ))) ++ dsaHintBytes h)
  else none

/-- The first attempt from `n` that succeeds. -/
def dsaTries (x : DsaKey) (a : List (List (List Nat))) (mu seed : List Byte) : Nat → Nat → List Byte
  | 0, _ => []
  | k + 1, n => match dsaAttempt x a mu seed n with
    | some sig => sig
    | none => dsaTries x a mu seed k (n + 1)

/-- The signature of a message under a context string, with the random input `rnd`. -/
@[irreducible] def mldsaSign (seed rnd : BitVec 256) (m ctx : List Byte) : List Byte :=
  let x := dsaKey seed
  let mu := dsaMessage x.pub m ctx
  dsaTries x (dsaMatrix x.rho) mu (shake256 64 (x.k ++ leBytes 32 rnd.toNat ++ mu)) 814 0

/-- A signature verifies. -/
@[irreducible] def mldsaVerify (pub m sig ctx : List Byte) : Bool :=
  let ch := sig.take 48
  let z := (List.range 5).map (fun i => (unpackBits 20 256 ((sig.drop (48 + 640 * i)).take 640)).map (fun v => (524288 + dsaQ - v) % dsaQ))
  match dsaHint ((sig.drop 3248).take 61) with
  | none => false
  | some h =>
    let t := (List.range 6).map (fun i => dsaNtt ((unpackBits 10 256 ((pub.drop (32 + 320 * i)).take 320)).map (fun v => 8192 * v % dsaQ)))
    let c := dsaNtt (dsaChallenge ch)
    let zn := z.map dsaNtt
    let w := ((dsaMatrix (pub.take 32)).map (fun row => dotPoly dsaQ dsaMul row zn)).zipWith (fun a b => dsaBack (polySub dsaQ a (dsaMul c b))) t
    let w1 := (w.zip h).map (fun p => (p.1.zip p.2).map (fun v => dsaUseHint v.2 v.1))
    dsaBelow 524092 z && shake256 48 (dsaMessage pub m ctx ++ dsaHighBytes w1) == ch

end Sys2Proof.Machine
end

