-- ==== Sys2Proof/Config.lean ====
section
/-! DEFINITION. What the spec leaves to the device: free values and uninterpreted functions. None has a body, so nothing can be
proved of the value of any of them. -/

namespace Sys2Proof

/-! ## The bits of the fabric's frames (R70) -/

/-- LUT modes, and the memory organisations of R67. -/
inductive LutMode where
  | lut6 | split | cell64 | cell32 | cluster64 | cluster32
  deriving DecidableEq, Repr, Inhabited

/-- The asynchronous reset of a flip-flop (R86): none, one of its cluster's two networks, or a wire reset. -/
inductive ResetPick where
  | none
  | network (r : Fin 2)
  | wire (k : Fin 2)
  deriving DecidableEq, Repr, Inhabited

/-- The options of a flip-flop (R65): D from O6, O5 or BX/BY; clock enable and synchronous reset, or always; reset value. -/
structure FfConf where
  d : Fin 3
  ce : Option (Fin 2)
  sr : Option (Fin 2)
  areset : ResetPick
  resetValue : Bool
  deriving DecidableEq, Repr, Inhabited

/-- A cell: its mode, the clock of its flip-flops (CLKA, CLKB, WCK0, WCK1), and the two outputs that it gives its tile (R71). -/
structure CellConf where
  mode : LutMode
  clock : Fin 4
  ffa : FfConf
  ffb : FfConf
  out0 : Fin 4
  out1 : Fin 4
  deriving DecidableEq, Repr, Inhabited

/-- A cluster: its cells, its two channels and two reset networks, the select code of each L0 output, and the inputs that take a wire of port A of a
memory block instead (R71). -/
structure ClusterConf where
  cells : Nat → CellConf
  clkA : Fin 32
  clkB : Fin 32
  reset0 : Fin 16
  reset1 : Fin 16
  l0 : Nat → Nat
  vertical : Nat → Option (Fin 4096 × Nat)
  deriving Inhabited

/-- What frame 16 to 31 of a tile spells; the L1 selects that a frame 32 to 39 spells; the district-output and tile-entry selects of frames 40 to 43;
and the selects of the sky outputs and sky entries of a district's 16 frames. The spec gives the frames, not their bits. -/
opaque Config.cluster : BitVec 1024 → ClusterConf
opaque Config.l1Select : BitVec 1024 → Nat → Nat
opaque Config.districtOut : List (BitVec 1024) → Nat → Nat
opaque Config.tileEntry : List (BitVec 1024) → Nat → Nat
opaque Config.skyOutput : List (BitVec 1024) → Nat → Nat
opaque Config.skySelect : List (BitVec 1024) → Nat → Nat

/-- The source of a global reset network (R86): a fabric wire, by its number, the input side of a GPIO pin port, or the logic die's own reset. -/
inductive ResetSource where
  | die
  | pin (n : Fin 64)
  | wire (n : Nat)
  deriving DecidableEq, Repr

/-- What a port frame binds (R70, R87 to R89): stream port `p` of the frame's DSP tile (stream-in 0 and 1, stream-out 2 and 3), port A of block `k` of the
frame's eight to a fabric tile, a NoC, fronthaul or pin port, each with its global channel, or the source of a global reset network. -/
inductive Binding where
  | stream (p : Fin 4) (channel : Fin 32)
  | memory (k : Fin 8) (tile : Fin 5120) (channel : Fin 32)
  | noc (p : Fin 64) (channel : Fin 32)
  | fronthaul (k : Fin 16) (channel : Fin 32)
  | pin (n : Fin 64) (channel : Fin 32)
  | reset (k : Fin 16) (source : ResetSource)
  deriving DecidableEq, Repr, Inhabited

/-- The bindings that port frame 1,280 or above spells: the spec gives the frames, not their bits. -/
opaque Config.bindings : BitVec 1024 → List Binding

/-- The select of input `w` of the ports homed on a district, which its 16 frames hold (R71, R87). -/
opaque Config.portSelect : List (BitVec 1024) → Nat → Nat

/-- Wires beside those of R87's widths that the ports homed on district `d` give the fabric: valid, ready and status signals. -/
opaque Config.portSignals : (d : Nat) → Nat

/-- The select of a wire into port A of block `b` among the cell outputs of its group (R71). -/
opaque Config.verticalSelect : BitVec 1024 → (b w : Nat) → Nat

/-- Entries that a stream-out port buffers beyond one (R88), and the edges of its channel that the design lets pass before it takes the entry that the port
accepted in hop cycle `h`. -/
opaque Config.streamDepth : Nat
opaque Config.streamWait : (port h : Nat) → Nat

/-- The level on wire `w` of the ports homed on district `d` in hop cycle `h`, and on wire `w` of port A of block `b`: what the ports deliver where the
model holds no data that stands there. -/
opaque Config.portWire : (d w h : Nat) → Bool
opaque Config.verticalWire : (b w h : Nat) → Bool

/-- The level of a wire in a loop of logic without a flip-flop. -/
opaque Config.loopLevel : (h : Nat) → Bool

/-! ## Free values -/

/-- What the code of a flit's half makes of erroneous bits that it need not correct or detect (R206): it detects them (none), or delivers the payload
with these bits changed, counting a correction or not. -/
opaque Config.flitCode : BitVec 272 → Option (BitVec 256 × Bool)

/-- What the decoder of a DRAM line takes for the erroneous bits of a pattern of more than four symbols that it need not detect (R238): nothing, where it
detects the pattern. -/
opaque Config.lineCode : BitVec 640 → Option (BitVec 640)

/-- The `n`-th free value of width `w`: what the device produces where the spec states no value (the state's `free` counter gives `n`). -/
opaque Config.free (w : Nat) : Nat → BitVec w

/-- What DRAM line `line` holds before anything writes it, after its contents have been lost `epoch` times (R230 relies on none). -/
opaque Config.dramLine : (epoch line : Nat) → BitVec 512

/-- The keyed tag of 4 KiB of the memory-die reserve (R311): the spec names no construction for it. -/
opaque Config.storeTag : List (BitVec 8) → BitVec 64

/-- The output length, in bits, that R317's KMAC128 is given. -/
opaque Config.kmacBits : Nat

/-- The device's unique secret and the fused seed (R275). -/
opaque Config.uds : BitVec 256
opaque Config.fuseSeed : BitVec 256

/-- The body of TELEMETRY_READ page 0, 1 or 2 as a function of the readings it reports (R395): the spec gives these pages no byte layout. -/
opaque Config.pageBody : (page : Nat) → List Nat → List Byte

/-- The signature that the ROM data tables hold for an analog slice in a band (R550). -/
opaque Config.bistRom : (slice band : Nat) → BitVec 32

end Sys2Proof
end

