-- ==== Sys2Proof/Machine/Flags.lean ====
section
/-! DEFINITION. The fixed codes of the machine: completion status codes (R363), fault-log kinds and classes (R561, R562),
mode, latch and queue encodings, and the saturating counter arithmetic of the register map. -/

namespace Sys2Proof.Machine

/-- The completion status codes of R363. -/
inductive Status where
  | success | alreadyComplete | aborted | duplicate | cancelled | invalidOpcode | invalidField
  | notReady | busy | modeForbids | staleSequence | authFailEd | authFailMldsa | authFailBoth
  | digestMismatch | regionViolation | imageFormat | keyRevoked | dieReset | poisoned
  | integrityFail | accessDenied | swapLate | swapSkipped | pairMismatch | pairNotFormed
  | pairLinkDown | thermalLimit | internalFault
  deriving DecidableEq, Repr

/-- The byte of each status code (R363). -/
def Status.code : Status → Nat
  | .success => 0x00 | .alreadyComplete => 0x01 | .aborted => 0x02 | .duplicate => 0x03
  | .cancelled => 0x04 | .invalidOpcode => 0x05 | .invalidField => 0x06 | .notReady => 0x07
  | .busy => 0x08 | .modeForbids => 0x09 | .staleSequence => 0x0A | .authFailEd => 0x10
  | .authFailMldsa => 0x11 | .authFailBoth => 0x12 | .digestMismatch => 0x13
  | .regionViolation => 0x14 | .imageFormat => 0x15 | .keyRevoked => 0x16 | .dieReset => 0x20
  | .poisoned => 0x22 | .integrityFail => 0x23 | .accessDenied => 0x24 | .swapLate => 0x30
  | .swapSkipped => 0x31 | .pairMismatch => 0x40 | .pairNotFormed => 0x41
  | .pairLinkDown => 0x42 | .thermalLimit => 0x50 | .internalFault => 0x60

/-- The kinds of fault-log entries (R562). -/
inductive FaultKind where
  | resetCause | modeChange | thermalCrossing | bandChange | safeCause
  | channelSpared | groupExhausted | crossingUncorrectable
  | delayUnlock | indeterminateWrite | tileSpared | spareExhausted | spareFailed
  | dspException | dspSlackExceeded | dspHalted | dspSpared | tileWriteFailed
  | memUncorrectable | memBlockRetired
  | dramUncorrectable | dramRetrainFailed | dramOffline | dramRepairDropped | dramHot
  | nocHeaderDropped | nocTagReuse | encFailure | encEpochExhausted
  | repairLost | dmReverted | planeFrameLasting | portFrameLasting | privetFailed
  | stagingAbandoned | retainedStoreLost | laneDropped
  | clockFailure | trimLimit | oscBackup | timeError
  | railAlarm | sensorInvalid | plausibility | wicketRestart
  | pairResyncFailed | pairDoubleFault | bistFail | injectionDetected
  | commandOverrun | internalFault
  deriving DecidableEq, Repr

/-- The 16-bit kind code of R562. -/
def FaultKind.code : FaultKind → Nat
  | .resetCause => 0x01 | .modeChange => 0x02 | .thermalCrossing => 0x03 | .bandChange => 0x04
  | .safeCause => 0x05 | .channelSpared => 0x10 | .groupExhausted => 0x11
  | .crossingUncorrectable => 0x12 | .delayUnlock => 0x20 | .indeterminateWrite => 0x21
  | .tileSpared => 0x22 | .spareExhausted => 0x23 | .spareFailed => 0x24 | .dspException => 0x30
  | .dspSlackExceeded => 0x31 | .dspHalted => 0x32 | .dspSpared => 0x33 | .tileWriteFailed => 0x34
  | .memUncorrectable => 0x40 | .memBlockRetired => 0x41 | .dramUncorrectable => 0x50
  | .dramRetrainFailed => 0x51 | .dramOffline => 0x52 | .dramRepairDropped => 0x53
  | .dramHot => 0x54 | .nocHeaderDropped => 0x60 | .nocTagReuse => 0x61 | .encFailure => 0x70
  | .encEpochExhausted => 0x71 | .repairLost => 0x80 | .dmReverted => 0x81
  | .planeFrameLasting => 0x82 | .portFrameLasting => 0x83 | .privetFailed => 0x84
  | .stagingAbandoned => 0x85 | .retainedStoreLost => 0x86 | .laneDropped => 0x90
  | .clockFailure => 0xA0 | .trimLimit => 0xA1 | .oscBackup => 0xA2 | .timeError => 0xA3
  | .railAlarm => 0xB0 | .sensorInvalid => 0xB1 | .plausibility => 0xB2 | .wicketRestart => 0xB3
  | .pairResyncFailed => 0xC0 | .pairDoubleFault => 0xC1 | .bistFail => 0xD0
  | .injectionDetected => 0xD1 | .commandOverrun => 0xE0 | .internalFault => 0xE1

/-- The class of each kind (R561, R562): 0 INFO to 5 FATAL. -/
def FaultKind.cls : FaultKind → Nat
  | .resetCause | .modeChange | .thermalCrossing | .bandChange | .safeCause => 0
  | .dspSlackExceeded | .injectionDetected => 1
  | .channelSpared | .groupExhausted | .tileSpared | .spareExhausted | .spareFailed | .dspSpared
  | .memBlockRetired | .dramOffline | .dramRepairDropped | .planeFrameLasting | .portFrameLasting
  | .laneDropped => 2
  | .crossingUncorrectable | .indeterminateWrite | .dspException | .dspHalted | .tileWriteFailed
  | .memUncorrectable | .dramUncorrectable | .nocHeaderDropped | .nocTagReuse | .encFailure
  | .dmReverted => 3
  | .repairLost | .clockFailure | .pairDoubleFault | .internalFault => 5
  | .delayUnlock | .dramRetrainFailed | .dramHot | .encEpochExhausted | .privetFailed
  | .stagingAbandoned | .retainedStoreLost | .trimLimit | .oscBackup | .timeError | .railAlarm
  | .sensorInvalid | .plausibility | .wicketRestart | .pairResyncFailed | .bistFail
  | .commandOverrun => 4

/-! Mode encodings of DEV_MODE (R38). -/
def modeBoot : Nat := 0
def modeAssembly : Nat := 1
def modeRun : Nat := 2
def modeLead : Nat := 3
def modeShadow : Nat := 4
def modeService : Nat := 5
def modeDormant : Nat := 6

/-! Staged-latch states of R91. -/
def stEmpty : Nat := 0
def stStaging : Nat := 1
def stReady : Nat := 2
def stOutDirty : Nat := 3
def stOutClean : Nat := 4
def stSuperseded : Nat := 5

/-! Queue states of HCI_Q_STATUS_q (R362). -/
def qFree : Nat := 0
def qEnabled : Nat := 1
def qDisabling : Nat := 2
def qDisabled : Nat := 3
def qError : Nat := 4

/-! Bits of SAF_SAFE_CAUSE (R545, R563). -/
def scMode : Nat := 0
def scRecovery : Nat := 1
def scTimeError : Nat := 2
def scInternalFault : Nat := 3
def scRailAlarm : Nat := 4
def scPlausibility : Nat := 5
def scLostFrame : Nat := 6
def scDspHalt : Nat := 7
def scBistFail : Nat := 8
def scPair : Nat := 9

/-! Cause bits of HCI_EVT_CAUSE (R362). -/
def evSwap : Nat := 0
def evThrottle : Nat := 1
def evFaultLog : Nat := 2
def evTiming : Nat := 3
def evPair : Nat := 4
def evQueueError : Nat := 5
def evThermal : Nat := 6

/-- A saturating counter of `w` bits, increased by `k`. -/
def satAdd (w v k : Nat) : Nat := min (v + k) (2 ^ w - 1)

/-- Bit `i` of `v`. -/
def bit (v i : Nat) : Bool := v.testBit i

/-- `v` with bit `i` set to `b`. -/
def putBit (v i : Nat) (b : Bool) : Nat :=
  if b then v ||| (1 <<< i) else if v.testBit i then v - 2 ^ i else v

/-- Bits `[lo + w - 1 : lo]` of `v`. -/
def bits (v lo w : Nat) : Nat := (v >>> lo) % 2 ^ w

/-- 1 for true, 0 for false. -/
def b2n (b : Bool) : Nat := if b then 1 else 0

/-- `v` as a two's-complement number of `w` bits. -/
def toSigned (w v : Nat) : Int :=
  if v % 2 ^ w < 2 ^ (w - 1) then (v % 2 ^ w : Nat) else ((v % 2 ^ w : Nat) : Int) - (2 ^ w : Nat)

/-- A two's-complement field of `w` bits holding `v`. -/
def ofSigned (w : Nat) (v : Int) : Nat := (v % (2 ^ w : Nat)).toNat

end Sys2Proof.Machine
end

