-- ==== Sys2Proof/Machine/State.lean ====
section
/-! DEFINITION. The state of the device: everything the spec gives it, as plain data, and the state after reset. Register fields
stand in `regs`, a sparse list from field key to value in which an unlisted field holds its reset value; the state behind the registers
stands in one structure for each unit. -/

namespace Sys2Proof.Machine

/-! ## Register rows (R9 to R12) -/

/-- Reset classes of the reset columns (R12). -/
inductive Cls where
  | c | w | d | f | q
  deriving DecidableEq, Repr

/-- The four active dies (R14). -/
inductive Die where
  | d0 | d1 | d2 | d3
  deriving DecidableEq, Repr

/-- The number of a die. -/
def Die.idx : Die → Nat
  | .d0 => 0 | .d1 => 1 | .d2 => 2 | .d3 => 3

/-- Access types of R10; reserved bits have no row. -/
inductive Access where
  | ro | rw | w1c | w1s | rc | wo
  deriving DecidableEq, Repr

/-- One field of one register family of BAR0. Instance `(i, j)` lies at `base + s1 * i + s2 * j`. -/
structure Row where
  base : Nat
  s1 : Nat
  n1 : Nat
  s2 : Nat
  n2 : Nat
  lo : Nat
  width : Nat
  acc : Access
  rst : Nat
  cls : List Cls
  dies : List Die
  except : List (Nat × Nat)
  deriving DecidableEq, Repr

/-! ## Sparse maps -/

/-- A map kept as (key, value) pairs with strictly rising keys and no entry equal to the map's default. -/
abbrev Sparse (α : Type) := List (Nat × α)

/-! ## Host commands in flight (chapter 14) -/

/-- Where a fetched command stands in the HCI tracking table (R59, R354). -/
inductive TrackPhase where
  | fetched    -- fetched, not started
  | started    -- executing
  | held       -- a duplicate of a command not yet completed (R350)
  | prepared   -- at its commit point in a prepared change (R392)
  | finished   -- its status is recorded; the completion is not yet posted
  deriving DecidableEq, Repr

/-- A tracking entry: one fetched command (R59). -/
structure Track where
  id : Nat                 -- the model's own handle: fetch number
  q : Nat                  -- global queue
  seq : Nat
  cid : Nat
  op : Nat                 -- opcode
  irqNow : Bool
  fence : Bool
  entry : BitVec 512       -- the submission entry
  sqHead : Nat             -- submission head after the fetch (R347)
  phase : TrackPhase
  inWindow : Bool          -- its number is marked executed by this command
  committed : Bool         -- commit mark (R354)
  aborted : Bool           -- abort latch (R354)
  abortedBy : List Nat     -- the ABORTs whose completions wait for its own
  startTick : Nat
  eventTick : Option Nat   -- the event of a time-driven command (R367)
  overrun : Bool           -- COMMAND_OVERRUN already written (R367)
  status : Nat
  orig : Nat
  result : Nat
  result2 : Nat
  pair : Option Nat        -- index of a command listed in a prepared change (R392)
  data : List Byte         -- what it has read from host memory and holds up to its commit point
  ahead : Nat              -- sweeps queued ahead of a REGION_REKEY as it was accepted (R384)
  reissue : Bool := false  -- a base-die reset ended it, and its number is unmarked (R59, R351)
  deriving DecidableEq, Repr

/-- What the window keeps for one accepted number (R349 to R351). -/
structure WinEntry where
  seq : Nat
  executed : Bool
  note : Bool              -- completed, then unmarked (R351)
  done : Bool              -- completion values are held
  cid : Nat
  status : Nat
  result : Nat
  deriving DecidableEq, Repr

/-- The ring state of one queue pair (R339 to R361); its architectural status stands in HCI_Q_STATUS_q. -/
structure Queue where
  sqBase : Nat
  cqBase : Nat
  sqLog : Nat
  cqLog : Nat
  sqTail : Nat             -- published by the host
  sqHead : Nat             -- next entry to fetch
  cqHead : Nat             -- freed by the host
  cqTail : Nat             -- next slot to write
  phase : Bool             -- phase of the next completion (R348)
  h : Nat                  -- highest accepted number, mod 2^48 (R349)
  window : List WinEntry
  vector : Nat
  aggCount : Nat
  aggTime : Nat            -- microseconds
  unsignalled : Nat
  oldest : Nat             -- tick of the oldest unsignalled completion
  disabledBy : Option Nat  -- the QUEUE_DISABLE that waits (handle)
  drainLimit : Nat         -- tick of the drain limit (R356)
  deletePending : Bool     -- admin queue: delete follows the disable (R343)
  writesFailed : Bool      -- a completion or MSI-X write was refused (R341)
  deriving DecidableEq, Repr

/-- A host-memory read that a started command waits for (R365). -/
structure HostRead where
  id : Nat                 -- command handle; owner records use `ownerRead`
  addr : Nat
  length : Nat
  got : List Byte          -- bytes of the TLPs that have arrived, in address order
  at_ : Nat := 0           -- tick of the request (R333)
  deriving DecidableEq, Repr

/-- What the device sends out of itself, oldest first (an output port of the model). -/
inductive Out where
  | hostWrite (addr : Nat) (data : List Byte)          -- posted memory write TLP
  | hostRead (id addr length : Nat)                    -- non-posted host read
  | msix (function vector addr data : Nat)             -- MSI-X message: the vector's table entry as written (R336)
  | pmeToAck                                           -- PME_TO_Ack (R48)
  | egress (lane tick : Nat) (data : List Byte) (bad : Bool)  -- transmitted frame, and the tick at which its first bit leaves the pin; bad: ended
                                                         -- with an invalid FCS
  | egressCut (lane frames : Nat)                        -- frames listed for the lane that are not yet whole on the wire end here (R58, R414)
  | streamIn (port tick : Nat) (data : List Byte) (err : Bool) (info : BitVec 64)  -- ingress frame handed to the stream port, with rx_meta, and the
                                                         -- tick of its first word
  | tileStream (tile port tick : Nat) (data : Vec)     -- Thicket stream-out to the fabric, and the tick at which the design takes it
  | nocResponse (initiator : Nat) (header : BitVec 512) (poison : List Nat) (data : List (BitVec 512))  -- response flits and which data flits are poisoned
  | portData (block tick : Nat) (data : BitVec 64) (poison : Bool)  -- port A read data, and the tick at which it is presented
  | werr (block tick : Nat)                                   -- port A refused a narrow write (R192)
  | controlBlock (block : ControlBlock)
  | dataBlock (train : Nat) (data : PairData)
  | pin (n : Nat) (level : Bool)
  | readData (function off value : Nat)                 -- the answer to a BAR0 read, 32 or 64 bits
  deriving DecidableEq, Repr

/-- The PCIe link, functions and queues (HOST domain, R34). -/
structure Link where
  up : Bool
  training : Bool                    -- link training or Recovery in progress
  perst : Bool                       -- PERST# asserted
  refclk : Bool                      -- PCIe reference clock stable
  queues : Sparse Queue
  tracks : List Track                -- in fetch order
  nextId : Nat
  cancelAll : Bool                   -- MODE_SET DORMANT has committed (R48)
  masked : Sparse Bool               -- MSI-X mask bit of vector 32 f + v
  msix : Sparse (Nat × Nat)          -- MSI-X table of BAR4: address and data of vector 32 f + v (R336)
  pendingMsix : Sparse Bool          -- MSI-X pending bit of vector 32 f + v
  lastAq : Nat                       -- round-robin pointer of the fetch rounds (R342)
  reads : List HostRead
  deriving DecidableEq, Repr

/-! ## Modes, boot and resets (chapter 02) -/

/-- Causes of DEV_RESET_CAUSE that end in BOOT (R55). -/
inductive ResetCause where
  | powerOn | porPin | aonSupply | perst | refClockLoss | porterFault | hostRequest
  deriving DecidableEq, Repr

/-- The steps of a class D reset of D0 (R57). -/
inductive D0Phase where
  | idle
  | fence (t : Nat)        -- fence raised, drain running, since tick t
  | drained (t : Nat)      -- drain ended at tick t
  | held (t : Nat)         -- Shutters closed, CORE in reset since tick t
  | released (t : Nat)     -- CORE left reset at tick t; channels retrain
  | opened (t : Nat)       -- Shutters open since the release at tick t; Porter restarting
  deriving DecidableEq, Repr

/-- Where the reset of an upper die stands (R589). -/
inductive DiePhase where
  | off                    -- unpowered or never released
  | held (t : Nat)         -- in reset since tick t
  | training (t : Nat)     -- released at tick t, groups training
  | open_
  deriving DecidableEq, Repr

/-- A mode transition between acceptance and commit point (R41). -/
structure Transition where
  dest : Nat
  id : Nat                 -- MODE_SET or pair command handle
  ctx : Nat
  since : Nat
  deriving DecidableEq, Repr

structure Boot where
  porHeld : Bool           -- POR_N asserted or power not yet good
  cause : Option ResetCause -- cause to record as the reset ends (R55)
  stageSince : Nat         -- tick at which the present stage began
  coreUp : Bool            -- CORE is out of reset and clocked
  hostUp : Bool            -- HOST is powered
  dormant : Bool
  dormantCommit : Option Nat -- tick of the DORMANT commit (R48)
  pmeAcked : Bool          -- PME_Turn_Off has been answered since that commit
  hostAsked : List Nat     -- upper dies whose reset the host requested (R55)
  perstSeen : Bool         -- PERST# asserted at some moment in DORMANT (R50)
  wakeN : Bool             -- WAKE# asserted (R51)
  thermalHold : Bool       -- DORMANT entered at the shut-down threshold
  wakeWaiting : Option Nat -- a deferred wake source (R50)
  refLostDormant : Bool    -- core reference failed in DORMANT (R588)
  d0 : D0Phase
  d0Cause : Option ResetCause
  dies : List DiePhase     -- D1, D2, D3
  transition : Option Transition
  leftPair : Bool          -- a warm reset has taken a shadow out of its pair (R534)
  recoverD0 : Bool         -- R60 holds the mute
  recoverD2 : Bool         -- R61: until a context has been staged and swapped in
  recoverD3 : Bool         -- R61: until the D2-D3 Panes have retrained
  d3Unswept : Bool         -- staging refused after a D3 reset (R61, R94)
  sweptA : Bool
  sweptB : Bool
  deriving DecidableEq, Repr

/-! ## The stack (chapter 01) -/

structure Stack where
  skewBad : List Nat       -- consecutive bad skew samples of D0..D3 (R23)
  trim : List Int          -- clock trim of each die in ps (R23)
  spares : List (Nat × Nat × Nat)  -- (group, spare, channel): spare channels in use (R17)
  copying : List (Nat × Nat × Nat × Nat) -- (group, spare, channel, tick): copying onto a spare
  failed : List (Nat × Nat)        -- (group, spare): spare channels that failed their slice (R551)
  poisoned : List CrossWord        -- words delivered poisoned whose access has not yet used them (R16)
  lasting : List Nat       -- channels already lasting (group * 1024 + channel)
  uncorrectable : Nat      -- uncorrectable crossings of control words (R16)
  deriving DecidableEq, Repr

/-! ## Safety (chapter 22) -/

structure FaultEntry where
  seq : Nat
  kind : FaultKind
  injected : Bool
  withheld : Bool
  history : Bool
  setDegraded : Bool
  time : Nat               -- time-counter value, units of 2^-16 ns
  die : Nat
  unit : Nat
  detail : Nat
  deriving DecidableEq, Repr

/-- An open counting window of R541. -/
structure Window where
  opened : Nat             -- tick of the first event
  length : Nat             -- window in units of 10 ms, as it stood at the opening
  limit : Nat
  count : Nat
  deriving DecidableEq, Repr

/-- An armed fault injection (R554). -/
structure Injection where
  mech : Nat
  target : Nat
  variant : Nat
  id : Nat                 -- BIST_RUN handle
  since : Nat
  deriving DecidableEq, Repr

/-- An analog cycle of BIST_RUN set 0 (R394). -/
structure BistRun where
  id : Nat                 -- BIST_RUN handle
  run : Nat                -- slices that have passed or failed
  decided : Nat            -- places of the cycle behind it
  deriving DecidableEq, Repr

structure Safety where
  log : List FaultEntry    -- oldest first, at most 512
  nextSeq : Nat
  windows : Sparse Window  -- key: kind * 2^40 + item
  lasted : Sparse Bool     -- items whose response has been given
  laneLims : Sparse (Nat × Nat) -- by field of SAF_LANE_LIM: its value before the first change in the last 1 s, and the tick of that change
  injection : Option Injection
  internalFaultAt : Option Nat  -- tick at which INTERNAL_FAULT was raised and still holds
  slice : Nat              -- next analog slice of the cycle (R550)
  repeats : Nat            -- repeats used in this cycle (R551)
  again : Option Nat       -- the slice that the next slot repeats
  deferred : List Nat      -- slices waiting on an eye scan (R552)
  lastSlice : Nat          -- tick of the last slice slot
  failedSpares : Sparse Bool -- spares that failed intrusive tests or slices (R551, R553)
  failedSamplers : Sparse Bool -- offset samplers that failed (R551): slice number
  bistCmd : Option BistRun -- a BIST_RUN set 0 in progress
  bistGroups : Nat         -- groups found failing by the running BIST_RUN
  intrusive : Option Nat   -- BIST_RUN set 1 in progress (handle)
  deriving DecidableEq, Repr

/-! ## Fabric delay lock (chapter 03) -/

/-- The lock counters of one district (R77); code, error and flags stand in THM_DLOCK_DISTRICT_n. -/
structure District where
  at63 : Nat               -- consecutive windows at code 63
  slowRun : Nat
  fastRun : Nat
  relockRun : Nat
  lockedOnce : Bool := false   -- it has locked since the reset (R79)
  acquired : Bool          -- has locked once since the release
  releasedAt : Option Nat  -- tick of the logic die's release
  slow : Bool              -- in slow unlock (R78)
  spareUsed : Bool         -- district spare in use (R63)
  spareTile : Nat          -- fabric tile it serves
  sparePending : Option Nat -- lasting tile that takes the spare at the next staging (R327)
  deriving DecidableEq, Repr

/-! ## Contexts (chapter 04) -/

/-- Who started the staging in progress. -/
inductive StageOwner where
  | command (id : Nat)     -- CONTEXT_STAGE
  | mode (id : Nat)        -- MODE_SET RUN
  | schedule
  | restage                -- R104
  deriving DecidableEq, Repr

structure Staging where
  ctx : Nat
  start : Nat              -- tick
  owner : StageOwner
  oldPlane : Bool          -- a commit replaced the plane while it ran (R104)
  old : Sparse (BitVec 1024) := []  -- the frames of the plane that was replaced
  waits : Sparse Nat := []   -- ticks that each district has waited for repairs (R93)
  deriving DecidableEq, Repr

/-- A swap armed by CONTEXT_SWAP_AT (R106). Times are in units of 2^-16 ns. -/
structure ArmedSwap where
  id : Nat
  ctx : Nat
  immediate : Bool
  target : Nat
  skip : Bool
  limitUs : Nat
  waiting : Bool           -- fell due and was not ready
  deriving DecidableEq, Repr

/-- One entry of a schedule table (R108). -/
structure SchedEntry where
  offset : Nat             -- ns
  ctx : Nat
  skip : Bool
  report : Bool
  limitUs : Nat
  deriving DecidableEq, Repr

/-- One bank of the schedule table. -/
structure Bank where
  bytes : List Byte        -- header and entries, for the digest (R111)
  period : Nat             -- ns
  phase : Nat
  entries : List SchedEntry
  start : Nat              -- start time, ns of the time counter
  deriving DecidableEq, Repr

/-- A LATE schedule swap that waits (R113). -/
structure LateSwap where
  entry : Nat
  ctx : Nat
  dueNs : Nat              -- time-counter ns
  limitUs : Nat
  reason : Nat
  bank : Nat               -- the bank of its entry
  deriving DecidableEq, Repr

/-- Write-back after a swap (R101). -/
structure WriteBack where
  ctx : Nat
  edge : Nat               -- tick of the swap edge
  left : List (Nat × BitVec 1024)  -- dirty frames not yet written, in order
  slot : Nat               -- 200 hc slots done
  deriving DecidableEq, Repr

/-- The port bindings of the active context that no unit of the base die holds (R99, R100). -/
structure Ports where
  dsp : Sparse Nat                 -- the channel of DSP stream port tile * 4 + port, stream-in 0 and 1, stream-out 2 and 3 (R87, R88)
  memory : Sparse (Nat × Nat)      -- port A by block: the fabric tile, and its global channel (R89)
  resets : Sparse ResetSource      -- global reset networks (R86)
  outs : Sparse (List Nat) := []   -- ticks at which the design takes what stream-out port tile * 4 + port has buffered (R88)
  deriving DecidableEq, Repr

/-- A wire clock (R83, R85): its level, and the hop cycles in which it last rose and fell. -/
structure WireClock where
  level : Bool := false
  rose : Option Nat := none
  fell : Option Nat := none
  deriving DecidableEq, Repr

structure Contexts where
  planes : Sparse (BitVec 1024)    -- context * 2^18 + frame; 8 is the landing plane
  sigs : Sparse (BitVec 64)        -- signature table, keyed as planes
  active : Sparse (BitVec 1024)    -- active latches, by frame
  staged : Sparse (BitVec 1024)    -- staged latches, by frame
  activeOld : Bool                 -- the active copy's plane was replaced (R104)
  staging : Option Staging
  armed : Option ArmedSwap
  lastSwap : Option Nat            -- tick of the last swap edge
  lastSwapTime : Nat               -- its time-counter value, 2^-16 ns
  wb : Option WriteBack
  banks : Sparse Bank
  originNs : Nat                   -- time-counter ns of the running bank's present period origin
  late : Option LateSwap
  swapLog : Sparse (BitVec 128)
  swapSeq : Nat
  wbEnd : Nat                      -- tick of the last write-back (R102)
  writtenBack : Sparse Bool        -- plane frames that hold written-back distributed memory (R324)
  oldSigs : Sparse (BitVec 64)     -- signatures of the active version after its plane was replaced
  ffs : Sparse (BitVec 512)       -- flip-flops by tile, laid out as in R315 (R66)
  refused : Bool                   -- the staging for the next entry was refused (R94, reason 0x04)
  newVersion : Sparse Bool         -- contexts whose latest commit has not yet been active (R304)
  ports : Ports
  dirty : List Nat := []           -- LUT frames of the active context that a memory-mode write has marked (R69)
  chanFrom : Sparse Nat := []     -- hop cycle from which a global channel follows its new source (R441)
  resetSync : Sparse (BitVec 8) := []  -- release stages of the reset networks by cluster: network choice * 4 + clock (R86)
  wck : Sparse WireClock := []     -- the wire clocks: 2 * cluster + number (R83, R85)
  pllPhase : Sparse Nat := []      -- phase of a user PLL since its last lock, by number (R82)
  deriving DecidableEq, Repr

/-! ## The Thicket (chapters 05 and 06) -/

/-- A circular address generator AG0 to AG3 (R130). -/
structure Ag where
  b : BitVec 12
  l : BitVec 13
  i : BitVec 12
  s : BitVec 13
  deriving DecidableEq, Repr

/-- An anchor address generator AG4 or AG5 with its offset M (R132). -/
structure AgAnchor where
  b : BitVec 12
  i : BitVec 12
  w : Nat
  reverse : Bool
  m : BitVec 12
  deriving DecidableEq, Repr

/-- The registers of R122 that BLK.BEGIN copies into the checkpoint. -/
structure TileRegs where
  v : Sparse (BitVec 128)
  acc : Sparse (BitVec 384)
  ag : Sparse Ag
  ag4 : AgAnchor
  ag5 : AgAnchor
  headroom : Nat           -- BEX[3:0]
  expTotal : Nat           -- BEX[15:8]
  bexMode : BitVec 16
  loop0 : BitVec 16
  loop1 : BitVec 16
  sat : Bool               -- TST.sat
  deriving DecidableEq, Repr

/-- What a staged output is for (R144, R145). -/
inductive OutKind where
  | streamOut (port : Nat)
  | linkOut (down : Bool)
  | memWrite (addr : Nat)  -- byte address in the memory die
  | nocWrite (pa : Nat)
  deriving DecidableEq, Repr

structure StagedOut where
  kind : OutKind
  data : BitVec 128
  deriving DecidableEq, Repr

/-- An active hardware loop (R160): counter, first and last program address. -/
structure LoopFrame where
  lc : Nat
  first : Nat
  last : Nat
  deriving DecidableEq, Repr

/-- Tile states of R137. -/
inductive TileState where
  | idle | run | halted | copying
  deriving DecidableEq, Repr

/-- The code of a tile state (R137). -/
def TileState.code : TileState → Nat
  | .idle => 0 | .run => 1 | .halted => 2 | .copying => 3

/-- One input FIFO with its tentative pops (R144): `popped` counts entries consumed by the open block. -/
structure TileFifo where
  q : List (BitVec 128)
  popped : Nat
  freed : List Nat         -- tile hc at which entries were freed (link room, R141)
  deriving DecidableEq, Repr

/-- An MDRD in flight (R142): its V register, byte address in the memory die, earliest hc of delivery, and the data port B
has returned, with its poison mark. -/
structure TileRead where
  v : Nat
  addr : Nat
  ready : Nat
  data : Option (Bool × BitVec 128)
  deriving DecidableEq, Repr

structure Tile where
  regs : TileRegs
  ckpt : TileRegs
  ckptLoops : List LoopFrame -- loops that enclose the open block, as at its BLK.BEGIN
  x : Sparse (BitVec 32)
  y : Sparse (BitVec 32)
  prog : Sparse (BitVec 64)
  vectors : Sparse (Nat × Bool)      -- context * 8 + vector
  newVectors : Sparse (Nat × Bool)   -- of a loaded version not yet in force (R304)
  ranges : Sparse (Nat × Nat)        -- program range of each context: first, length
  newRanges : Sparse (Nat × Nat)
  oldRanges : Sparse (Nat × Nat)     -- of a version that a commit superseded in the staged latches before it was active (R104, R135)
  staging : List StagedOut           -- committed, then those of the open block
  blockOuts : Nat                    -- how many of them belong to the open block
  relHc : Nat := 0                   -- hc of the next release of committed outputs (R145, R161)
  streamIn0 : TileFifo
  streamIn1 : TileFifo
  linkUp : TileFifo                  -- from above (row r - 1)
  linkDown : TileFifo                -- from below (row r + 1)
  arriving : List (Bool × BitVec 128 × Nat) -- link writes on their way: to linkDown?, data, hc of arrival
  state : TileState
  pc : Nat
  inBlock : Bool
  swapPending : Bool
  ctx : Nat
  exc : Nat
  events : Sparse Bool               -- pending EV1 to EV6
  timer : Option Nat                 -- tile hc of expiry
  loops : List LoopFrame             -- innermost first
  hc : Nat                           -- hc of the next issue slot
  lastHc : Nat                       -- hc in which the last instruction issued (R173)
  xUses : List Nat                   -- hcs, from the present on, in which the tile's own slots use X, and Y (R129)
  yUses : List Nat
  vReady : Sparse Nat                -- hc from which a V register is usable (R171)
  accReady : Sparse Nat              -- hc from which an accumulator is usable by PACK (R171)
  checkAt : Nat                      -- hc at which the last residue check of the block completes (R161)
  reads : List TileRead              -- MDRDs in flight, in issue order
  blockPc : Nat                      -- address of the open block's BLK.BEGIN
  blockHc : Nat
  slack : Nat
  attempts : Nat
  cost : Nat
  slackNoted : Bool
  inHandler : Bool                   -- EV7 taken, no WAIT or BLK.BEGIN since (R177)
  lasting : Bool                     -- substitution wanted (R150)
  before : TileState                 -- state in which COPYING began
  copyAt : Nat                       -- tick at which COPYING began
  resumeCkpt : Bool                  -- a halted tile resumes at its checkpoint
  edgeTick : Nat                     -- tick of the last swap edge
  deriving DecidableEq, Repr


/-! ## The memory die (chapter 07) -/

/-- A valid word: its data and the poison marker (R183, R190). An unlisted word is invalid. -/
structure MemWord where
  data : BitVec 64
  poison : Bool
  deriving DecidableEq, Repr

/-- Where a memory-die access came from, so that its answer finds its way. -/
inductive MemPort where
  | portA
  | noc (initiator tag : Nat)
  | path (tile : Nat)
  deriving DecidableEq, Repr

/-- What an update of the memory die does, and when (R184, R187), counted from the hop cycle a of its acceptance. -/
inductive UpdateKind where
  | inval                              -- bulk invalidate of the block: end of a
  | full                               -- full write, or a narrow one that found the word invalid and goes over zeros: end of a + 1
  | merge (base : Option (Option MemWord))  -- narrow write that found it valid: end of a + 3, over the word as it stands at the end of a + 2
  | merged                             -- the same, its merge done: end of a + 3
  deriving DecidableEq, Repr

/-- An update between acceptance and effect. -/
structure MemUpdate where
  kind : UpdateKind
  port : MemPort
  block : Nat
  word : Nat
  be : BitVec 8
  data : BitVec 64
  since : Nat                          -- tick of acceptance
  deriving DecidableEq, Repr

/-- A released MDWR on its group path (R142). -/
structure PathWrite where
  tile : Nat
  addr : Nat                           -- byte address in the memory die
  data : BitVec 128
  hc : Nat                             -- hc of release
  deriving DecidableEq, Repr

structure MemDie where
  words : Sparse MemWord             -- block * 4096 + word
  updates : List MemUpdate           -- accepted, not yet in force, in acceptance order
  invalEdge : Sparse Nat             -- tick of the last invalidate by port A, by block (R180)
  clearing : Sparse Nat              -- blocks clearing in the background: tick of the last invalidate
  retiring : List (Nat × Nat × Nat)  -- (block, spare index in its group, tick the copy began)
  newer : List Nat := []             -- words of retiring blocks written during their copies: block * 4096 + word (R196)
  portAt : Sparse Nat := []          -- tick of the last request that port A of a block accepted (R180)
  elogWin : Sparse Window            -- counting window of log entry quadrant * 16 + e
  pathWrites : List PathWrite        -- released MDWRs on the group paths
  pathTurn : Sparse Nat              -- by group path (column * 4 + group): the source served last, 0 to 15 a row, 16 the spare (R142)
  pathLast : Sparse Bool             -- by block: its port B served a path request last (R142)
  portBFree : Sparse Nat := []       -- tick from which port B of a block accepts its next word (R182)
  deriving DecidableEq, Repr

/-! ## The network-on-chip (chapter 08) -/

/-- Which ring access of the slow path a request makes (R418). -/
inductive SlowPart where
  | rx                                -- the received entry is written
  | head                              -- the transmit entry's header and first bytes are read
  | body                              -- the rest of the transmit entry is read
  | back                              -- its header is written back
  deriving DecidableEq, Repr

/-- Who made a request, so that its response finds its way. -/
inductive NocOwner where
  | fabric                            -- a fabric NoC port: the design
  | tile (t : Nat)                    -- a tile's NWR (R165)
  | dma (id piece : Nat)              -- a DMA piece of the command `id`
  | frame                             -- a classifier delivery into X memory (R417)
  | slow (lane : Nat) (part : SlowPart)  -- a ring access of the slow path (R418)
  | mirror                            -- a mirrored write (R516)
  | debug                             -- a Porter access made for a debug session (R255)
  deriving DecidableEq, Repr

/-- How far a flit has come on its route: routers reached, and the tick at which it reached the last (R204, R205). -/
structure Hop where
  at_ : Nat
  tick : Nat
  deriving DecidableEq, Repr

/-- A request between its maker and the arrival of its response. -/
structure NocReq where
  init : Nat
  tag : Nat
  owner : NocOwner
  qos : Nat
  write : Bool
  pa : Nat
  kidValid : Bool
  kid : Nat
  len : Nat
  be : BitVec 64
  data : List (BitVec 512)
  issued : Nat := 0                  -- tick
  fwd : List Hop := []               -- its flits on their way to the target, the header first
  back : List Hop := []              -- the flits of its response
  sum : Option (BitVec 32) := none   -- e2e_crc, where a flit has since changed without a router's notice (R217)
  badFlits : List Nat := []          -- write data flits poisoned on the way (R215)
  lost : Bool := false               -- half 0 of its header is lost: the target performs nothing (R216)
  dropped : Bool := false            -- header dropped: times out (R216)
  refused : Bool := false            -- answered at injection, never forwarded (R33, R209)
  done : Nat := 0                    -- flits, beats or lines that the target has served
  status : Nat := 0                  -- worst status met so far (completion code)
  answered : Bool := false           -- the target has answered
  ready : Nat := 0                   -- tick at which the answer is ready at the target
  respPoison : List Nat := []        -- response data flits that are poisoned
  respData : List (BitVec 512) := []
  inPort : Bool := false             -- its response waits in its fabric port (R218)
  notBefore : Nat := 0               -- tick before which a tile delivery's bytes do not reach X memory (R410)
  deriving DecidableEq, Repr

structure Noc where
  reqs : List NocReq                 -- outstanding, in issue order
  waiting : List NocReq              -- made by an engine, not yet injected
  tx : List (Nat × List (BitVec 512))  -- packets in the transmit buffers of fabric ports, by initiator (R218)
  links : Sparse Nat                 -- tick at which a link's channel last carried a flit (R203)
  turns : Sparse (Nat × Nat)         -- by link and class: the initiator served last and its grants in a row (R212)
  fenced : Bool                      -- fabric ports read FENCED (R219)
  bound : Sparse Nat                 -- the global channel of each fabric port that the active context binds (R88, R218)
  denyCap : Option Nat               -- NOC_DENY_PA_HI as captured for its next read (R222)
  bytesCap : Sparse Nat              -- NOC_BYTES_HI_i as captured, by initiator
  deriving DecidableEq, Repr

/-! ## DRAM controllers (chapter 09) -/

/-- What a request asks of the controller for a line. -/
inductive LineOp where
  | read
  | write
  | activate                         -- ACT, as the retry buffer holds it
  | refresh                          -- REFab, likewise
  deriving DecidableEq, Repr

/-- What a read of a controller is for: an operation of the engine, the read half of a partial write to a plaintext line (R235), a metadata line, or
the running sweep's line. -/
inductive LineUse where
  | data | part | metadata | sweep
  deriving DecidableEq, Repr

/-- One line-sized request between the engine and a controller. -/
structure DramReq where
  init : Nat
  tag : Nat
  pa : Nat
  line : Nat                         -- location[35:6]
  op : LineOp
  data : BitVec 512
  be : BitVec 64
  qos : Nat
  since : Nat
  use : LineUse := .data
  deriving DecidableEq, Repr

/-- The place of a line in its components (R226). -/
structure RowAddr where
  row : Nat
  bg : Nat
  bank : Nat
  rank : Nat
  sub : Nat
  deriving DecidableEq, Repr

/-- A stored DRAM line; an unlisted line holds what `Config.dramLine` gives it. -/
structure DramLine where
  data : BitVec 512
  poison : Bool
  deriving DecidableEq, Repr

/-- One subchannel of a controller. -/
structure DramSub where
  retry : List DramReq               -- the last 32 issued commands (R236)
  alertSince : Option Nat            -- ALERT_n asserted since this tick
  alertEnd : Option Nat              -- tick of the end of the last replay
  alertRun : Nat                     -- consecutive alerts
  alertCrc : Bool                    -- class of the alert: write CRC, or parity
  full : Option Nat                  -- in full retraining since this tick (R236)
  retrain : Bool                     -- quanta of R229 are left
  quantumEnd : Nat                   -- tick at which the last quantum ended
  deriving DecidableEq, Repr

structure DramCtrl where
  reads : List DramReq               -- the 64-entry read queue, oldest first
  writes : List DramReq              -- the 64-entry write queue, oldest first
  draining : Bool
  sub0 : DramSub
  sub1 : DramSub
  repair : Option (Nat × RowAddr)    -- sPPR in progress: log entry and row (R242)
  repairQ : List (Nat × RowAddr)     -- log entries and rows whose repairs wait for it
  softRepairs : List (Nat × Nat × Nat)  -- soft repair list: (resource, bank, row) (R244)
  elogWin : Sparse Window
  lasted : Sparse Bool               -- log entries whose row is lasting
  mr4 : Nat                          -- refresh rate the components ask: 0 3.9, 1 1.95, 2 0.975 us (R245)
  refreshes : Nat                    -- REFab commands issued, over the subchannel and rank pairs in turn (R245)
  lastRefresh : Nat                  -- tick of the first REFab of the present round
  ready : Nat                        -- tick from which requests are accepted after self-refresh (R246)
  deriving DecidableEq, Repr

structure Dram where
  lines : Sparse DramLine            -- by location[35:6]
  epoch : Nat                        -- how often the contents have been lost (R230)
  c0 : DramCtrl
  c1 : DramCtrl
  deriving DecidableEq, Repr

/-! ## Inline encryption (chapter 10) -/

/-- A sweep's purpose (R268). -/
inductive SweepKind where
  | init | epoch | rekey (id : Nat) (newKey : Nat)
  deriving DecidableEq, Repr

/-- The line that the running sweep has taken into the engine (R268): the metadata lines still to be read, its data, with poison, once they are read, and
whether its metadata is lost. -/
structure SweepWork where
  need : List Nat
  data : Option (BitVec 512 × Bool)
  lost : Bool
  deriving DecidableEq, Repr

/-- A sweep, queued or running: what the lines at or above its position are under. -/
structure Sweep where
  region : Nat
  kind : SweepKind
  oldKey : Nat
  oldEpoch : Nat
  due : Nat                          -- tick at which the next line may be taken
  work : Option SweepWork := none
  deriving DecidableEq, Repr

/-- A line's tag entry (R258, R259). -/
structure TagEntry where
  tag : BitVec 64
  counter : BitVec 64                -- the counter word: narrow counter [27:0] and poison mark [31], or the wide counter (R259)
  deriving DecidableEq, Repr

/-- Where a line operation stands. -/
inductive EncStage where
  | toController                     -- to be presented to the controller
  | queued                           -- in the controller's read queue
  | returned (status : Nat) (data : BitVec 512)
  deriving DecidableEq, Repr

/-- An operation of the engine on one line (R262). -/
structure EncOp where
  req : DramReq
  key : Nat                          -- resolved key ID
  region : Option Nat
  stored : Bool                      -- right CIPHERTEXT: the stored line as it stands
  merge : Bool                       -- read half of a partial write to an encrypted line (R265)
  entry : Option TagEntry            -- the tag entry that a write installs
  late : Nat := 0                    -- hc that the engine adds (R261)
  need : List Nat := []              -- metadata lines, by location / 64, that are still to be read
  sealing : Bool := false             -- a write that is sealed once its metadata is read
  stage : EncStage
  deriving DecidableEq, Repr

/-- A line of the tag cache (R260): its location / 64, whether it is dirty, and its bytes, once its region is disabled. -/
structure CacheLine where
  line : Nat
  dirty : Bool
  kept : Option (BitVec 512) := none
  deriving DecidableEq, Repr

structure Enc where
  keys : Sparse (BitVec 512)         -- key material of slots 1 to 63
  tags : Sparse TagEntry             -- by location[35:6]
  metaLost : Sparse Bool             -- lines whose metadata line the controller reported POISONED (R267)
  cache : Sparse (List CacheLine)    -- tag cache by set, the line last used first (R260)
  ops : List EncOp
  sweeps : List Sweep                -- the running sweep first
  failCap : Option Nat               -- ENC_FAIL_PA_HI as captured for its next read
  held : List (Nat × Nat)            -- writes held by R266, already counted: initiator and tag
  deriving DecidableEq, Repr


/-! ## Security (chapter 11) -/

/-- An owner key slot as fused (R277). -/
structure OwnerSlot where
  bits : Nat               -- the two state bits
  ed : BitVec 256          -- SHA3-256 of the Ed25519 public key
  ml : BitVec 256          -- SHA3-256 of the ML-DSA-65 public key
  deriving DecidableEq, Repr

/-- An operation that the Porter performs in its turn (R282): a command with the bytes it has read, an owner record with what host memory held, or the
unwrapping of a load's image key. -/
inductive PorterOp where
  | command (id : Nat) (data : Option (List Byte))
  | record (rec : Option (List Byte)) (cut : Bool)
  | recordRead                       -- a record that host memory is still to deliver
  | wrap (id : Nat)
  deriving DecidableEq, Repr

/-- One copy of the security fuse fields (R274). -/
structure FuseCopy where
  slots : Vector OwnerSlot 4
  debugDisabled : Bool
  deriving DecidableEq, Repr

structure Sec where
  slots : Vector OwnerSlot 4  -- the owner slots as read from the fuses
  debugDisabled : Bool     -- the debug_disabled fuse, likewise
  copies : Vector FuseCopy 3  -- the fuses
  expires : Option Nat     -- tick at which the open debug session ends
  ops : List PorterOp      -- accepted operations of the Porter, oldest first (R282)
  deriving DecidableEq, Repr

/-! ## Configuration images (chapter 12) -/

/-- One image of a retained chain (R309), as the frames that it writes. -/
structure RetImage where
  size : Nat               -- bytes
  full : Bool
  frames : Sparse (BitVec 1024)  -- the frames that its records spell
  bytes : List Byte := []  -- header, segment table and payload plaintext
  sig : List Byte := []    -- signature block
  tags : List (BitVec 64) := []  -- in the memory-die reserve, the keyed tag of each 4 KiB (R311)
  deriving DecidableEq, Repr

/-- What a committed context has beside its plane. -/
structure CtxImage where
  digest : BitVec 512      -- chained under R308
  keyMask : BitVec 64      -- R298
  chain : List RetImage    -- oldest first
  oldChain : List RetImage -- of the version that the active latches still hold after a commit (R309)
  stagedChain : List RetImage := [] -- of the version that the staged latches still hold after a commit
  oldMask : BitVec 64      -- key mask of the version still active after a commit
  deriving DecidableEq, Repr

/-- A DSP_PROGRAMS entry (R297). -/
structure TileProg where
  tile : Nat
  start : Nat
  words : List (BitVec 64)
  vectors : List (Nat × Bool)
  deriving DecidableEq, Repr

/-- The load in progress (R302 to R305); its phase stands in CFG_LOAD_STATUS. -/
structure Load where
  id : Nat                 -- command handle
  isPartial : Bool
  ctx : Nat
  addr : Nat
  length : Nat
  head : List Byte         -- header and segment table
  wrap : List Byte         -- key-wrap section
  stream : List Byte       -- stored bytes from 0x400 on
  plain : List Byte        -- payload plaintext
  chunks : Nat             -- chunks decrypted
  key : Option (BitVec 256)
  seg : Nat                -- index in the segment table of the segment that is being decoded
  at_ : Nat                -- offset of the next record or entry in the segment
  items : Nat              -- records or entries of the segment done
  pos : Nat                -- position of R294
  last : Option (BitVec 1024)
  index : Sparse (Nat × Nat) -- FRAME_INDEX entries as recomputed (R295): byte offset, frames before
  written : Nat            -- frames written
  frames : Sparse (BitVec 1024)
  progs : List TileProg
  since : Nat              -- tick at which the present phase began
  verified : Bool          -- both signatures have verified
  storeLost : Bool := false -- the reserve has lost what it has written so far (R199)
  deriving DecidableEq, Repr

structure Images where
  ctx : Sparse CtxImage    -- committed contexts
  load : Option Load
  deriving DecidableEq, Repr

/-! ## Configuration integrity (chapter 13) -/

/-- A queued repair (R325). -/
structure Repair where
  ctx : Nat                -- context, or 8 for the landing plane
  frame : Nat
  latch : Bool
  staged : Bool
  injected : Bool          -- provoked by a fault injection (R556)
  at_ : Nat := 0           -- tick at which it was queued (R93)
  deriving DecidableEq, Repr

/-- One Privet engine (R321, R328). -/
structure Privet where
  sweeping : Bool
  pos : Nat                -- frames of its share done in this sweep
  last : Nat               -- tick of its last frame
  start : Nat              -- tick at which the sweep began
  count : Nat              -- its own sweep count
  record : Nat             -- the Wicket's record of it
  report : Nat             -- tick of the last report
  deriving DecidableEq, Repr

structure Integ where
  a : Privet
  b : Privet
  queue : List Repair      -- at most 64, in the order found
  lost : List Repair       -- R326
  deriving DecidableEq, Repr

/-! ## DMA movers (R380 to R382) -/

/-- One move or fill. -/
structure DmaElem where
  src : Nat
  dst : Nat
  len : Nat
  srcHost : Bool
  dstHost : Bool
  pattern : Option (BitVec 64)   -- of a fill
  bad : Bool                     -- a reserved bit of its element is set
  deriving DecidableEq, Repr

/-- What the mover waits for. -/
inductive DmaWait where
  | none
  | hostRead (n : Nat)     -- a host read of n bytes
  | devRead (n : Nat)      -- a device read for n bytes
  | devWrite (n : Nat)     -- the acknowledgement of a device write of n bytes
  | held (data : List Byte)  -- the movers: these bytes of the piece are still to be written (R57, R334)
  deriving DecidableEq, Repr

/-- A DMA command on its mover. -/
structure Dma where
  id : Nat
  mover : Nat              -- NoC initiator 0x00 to 0x1F
  elems : List DmaElem
  idx : Nat                -- element in progress
  off : Nat                -- bytes of the element whose writes were issued
  issued : Nat             -- bytes whose writes were issued
  wait : DmaWait
  gather : Bool            -- DMA_GATHER
  deriving DecidableEq, Repr

/-! ## Fronthaul lanes (chapter 16) -/

/-- An ingress frame in a lane's buffer: its bytes, its error flag and its rx_meta. -/
structure RxFrame where
  ready : Nat              -- tick from which its first word stands at the stream port (R410)
  data : List Byte
  err : Bool
  info : BitVec 64
  deriving DecidableEq, Repr

/-- The slow-path transmit entry that a lane works on (R418). -/
structure SlowTx where
  pa : Nat                 -- its PA
  bytes : List Byte        -- as far as it has been read
  fail : Bool              -- a ring access failed
  whole : Bool             -- its frame has been read, or is not to be read
  sent : Bool              -- its header is being written back
  deriving DecidableEq, Repr

/-- What a lane holds beside its registers. -/
structure Lane where
  since : Nat              -- tick at which the present state, or the retry wait, began
  wait : Bool              -- in the 10 ms wait before a retry (R403)
  txEi : Bool              -- transmitter in electrical idle (R408)
  rxEi : Bool              -- receiver held UP without a signal (R409)
  back : Nat               -- tick at which the signal returned, 0 while it is away
  looped : Bool            -- in the loopback of an intrusive scan (R406)
  buf : List RxFrame       -- ingress buffer of the lane's port (R412)
  onWire : List (Nat × Bool) := []      -- frames given to the transmitter and not yet whole on the wire: the tick at which each ends, and whether
                                        -- it came from the stream port (R414)
  rxSlow : List (List Byte) := []       -- slow-path entries to be written, the first in progress (R418)
  rxLeft : Nat := 0                     -- its requests that are not answered yet
  rxFail : Bool := false                -- one of them was refused
  slowTx : Option SlowTx := none        -- the transmit entry in progress (R418)
  deriving DecidableEq, Repr

/-- An eye scan in progress (R406); group 0 fronthaul, 1 PCIe, 2 Bolryn Link. -/
structure Scan where
  id : Nat
  group : Nat
  lane : Nat
  intrusive : Bool
  start : Nat               -- later by the pauses that are over
  idle : Option Nat := none -- tick at which the lane went into electrical idle, and the dwell paused (R407)
  deriving DecidableEq, Repr

structure Fh where
  lanes : Sparse Lane
  rings : Sparse (Nat × Nat)   -- element index w and seq of rule 64 n + r (R417)
  bound : Sparse Nat           -- the global channel of each stream port that the active context binds (R88, R100)
  scans : List Scan
  deriving DecidableEq, Repr

/-! ## Pair operation and the Bolryn Link (chapter 21) -/

/-- A PAIR_FORM between acceptance and its commit point (R517, R518). -/
structure Forming where
  id : Nat
  role : Nat
  since : Nat
  edge : Option Nat        -- the second frame boundary after agreement, 2^-16 ns
  deriving DecidableEq, Repr

/-- An egress word held under compare-before-release (R526), by frame. -/
structure HeldFrame where
  unit : Nat
  lane : Nat
  data : List Byte
  bad : Bool
  at_ : Nat                -- tick of acceptance
  deriving DecidableEq, Repr

/-- A closed comparison unit whose verdict is open (R525, R526). -/
structure ClosedUnit where
  unit : Nat
  digest : BitVec 64
  word : Option (BitVec 64)  -- the user-state word, at a symbol's end
  suspended : Bool
  since : Nat              -- opening of the unit before it, time-counter ns (R528)
  closed : Nat             -- its end, time-counter ns
  verdict : Option Bool    -- it matched, as far as known
  deriving DecidableEq, Repr

/-- A prepared or preparing change (R392). -/
structure Prepared where
  id : Nat                 -- PAIR_PREPARE handle
  change : Nat
  tracks : List Nat        -- handles of the listed commands
  own : Bool               -- every listed command stands at its commit point
  partner : Bool           -- the partner has prepared
  applied : Bool           -- its commit boundary has passed; what is left waits (R521)
  deriving DecidableEq, Repr

/-- A PAIR_COMMIT between acceptance and its frame boundary (R393). -/
structure Committing where
  id : Option Nat          -- its handle, on the lead
  abandon : Bool
  edge : Nat               -- 2^-16 ns
  deriving DecidableEq, Repr

/-- A mirror window of the shadow (R516): number H and its entries. -/
structure Mirror where
  h : Nat
  window : List WinEntry
  deriving DecidableEq, Repr

/-- A takeover that waits for its edge (R531). -/
structure Takeover where
  id : Option Nat          -- PAIR_TAKEOVER, on the device that it was issued to
  edge : Nat               -- 2^-16 ns
  own : Bool               -- decided by the devices themselves
  deriving DecidableEq, Repr

/-- What the partner's last control block said (R507). -/
structure Partner where
  role : Nat
  width : Nat
  tq : Nat
  step : Nat
  ctx : Nat
  fault : Nat
  deriving DecidableEq, Repr

structure Pair where
  selfFault : Option Nat   -- fault_code of the self-fault report to be sent (R530)
  mac : Nat
  overwrite : Bool         -- source addresses are overwritten (R514)
  exchangeOk : Bool        -- pair_flags bit 0
  forming : Option Forming
  values : Option FormValues -- the values compared at formation or last commit
  agrees : Bool            -- they still agree after the last PAIR_COMMIT (R519)
  partner : Option Partner
  lastBlock : Nat          -- tick of the last valid control block
  heartbeat : Bool         -- valid control blocks arrive
  absentSince : Option Nat -- tick since which the partner has been absent (R534)
  synced : Bool            -- a whole frame of matching digests has followed the last resynchronisation (R519, R520)
  unit : Nat               -- number of the open comparison unit, from 1
  unitOpened : Nat         -- its start, time-counter ns
  unitBefore : Nat         -- start of the unit before it
  unitSuspended : Bool     -- comparison of it is suspended (R527)
  ctxDiffers : Bool        -- the partner's active context differs
  partnerDrops : Nat       -- the partner's DROPPED fronthaul lanes (R527)
  frames : List (Nat × List Byte)  -- egress frames accepted in it: port and bytes
  closed : List ClosedUnit
  held : List HeldFrame
  inject : Bool            -- the next unit digest has bit 0 inverted (R557)
  early : List (Nat × BitVec 64 × Option (BitVec 64)) -- digests of units that the lead has not closed yet
  mismatch : Option ClosedUnit -- the unit of an unresolved mismatch (R528)
  ownReport : Option Bool  -- the fault reports of R528
  partnerReport : Option Bool
  rounds : Nat             -- failed resynchronisation rounds
  copying : Bool           -- a resynchronisation copy runs
  frameFrom : Option Nat   -- frame boundary at which the whole frame of matching digests begins, 2^-16 ns (R520)
  dirty : Bool             -- a mismatch fell in that frame
  far : Bool               -- the offset exceeded 1.1 us and has not been within 50 ns since (R519)
  offset : Int             -- mean pair offset, 2^-16 ns
  ownTq : Nat
  tqRun : Nat              -- consecutive evaluations with the lead's class worse (R524)
  lastExchange : Option Nat
  exchange : Option Nat    -- frame boundary of a role exchange, 2^-16 ns
  takeover : Option Takeover
  yieldAt : Option Nat     -- edge at which this lead goes to RUN in the safe state (R532, R533)
  dissolve : Option (Option Nat × Nat)   -- PAIR_DISSOLVE handle, on the device that it was issued to, and its boundary
  heard : Option (FormValues × Nat)      -- the partner's values and the tick at which they came (R517, R521)
  partnerPrepared : Option Nat           -- a change that the partner has prepared (R392)
  partnerFailed : Option (Nat × Nat)     -- a change that failed on the partner, and the entry
  prepared : Option Prepared
  committing : Option Committing
  compareAfter : Bool      -- the formation values are to be compared again (R521)
  mirrors : Sparse Mirror  -- by function * 256 + local queue
  mismatches : Nat         -- of telemetry page 4 (R537)
  takeovers : Nat
  lastEdge : Nat
  lastFault : Nat
  since : Nat              -- tick at which the present link state began
  down : Sparse Bool       -- lanes without signal or CDR lock
  txTrain : Nat
  rxTrain : Nat            -- last train received in full
  rxAt : Nat               -- time-counter value of its arrival, 2^-16 ns
  sentAt : List (Nat × Nat) -- departure of the last trains sent, by train, 2^-16 ns
  crcErrors : Nat          -- control blocks discarded (R507)
  averaged : Nat           -- tick of the last 1 ms average (R522)
  offsets : List Int       -- pair offsets measured since the last average, 2^-16 ns (R522)
  widthAt : Option (Nat × Nat)   -- an announced width and the train at which it takes effect (R509)
  readapt : List Nat       -- lane pairs that still readapt after a band change (R511), the one out of service first
  readaptAt : Nat
  useSince : Sparse Nat := []     -- tick since which a lane is in use (R512)
  rxNak : BitVec 24 := 0   -- data blocks of train `rxTrain` that failed FEC (R507)
  lastData : Nat           -- tick of the last data block sent
  replay : List (Nat × PairData)  -- sent data blocks by train, for NAKs (R507)
  tx : List PairData       -- data blocks that wait for a waking direction (R510)
  deriving DecidableEq, Repr

/-! ## The time counter and the timing engine (chapter 18) -/

/-- What TIMED_OUTPUT_SET arms on an output (R388). -/
structure ToutArm where
  mode : Nat               -- 0 off, 1 single pulse, 2 periodic, 3 level change
  active : Bool            -- active level
  safeLevel : Bool
  width : Nat              -- ns
  start : Nat              -- time-counter value of the first edge
  period : Nat             -- ns
  count : Nat              -- pulses, 0 unending
  deriving DecidableEq, Repr

/-- One timed output TOUTk (R468, R469). -/
structure Tout where
  arm : ToutArm
  pulses : Nat             -- pulses whose leading edge has passed, muted ones included
  high : Option Nat        -- inside a pulse: the tick of its trailing edge
  next : Option ToutArm    -- a new arming that waits for the present pulse to end
  deriving DecidableEq, Repr

/-- A phase reference as measured: PTP or 1PPS. -/
structure RefMeas where
  offset : Option Int      -- last measured offset, 2^-16 ns, positive when the counter is ahead
  at_ : Nat                -- tick of the last measurement
  since : Option Nat       -- tick since which the reference has been valid without a break
  deriving DecidableEq, Repr

/-- The state machine of R455 to R462 over one choice of phase reference. -/
structure Engine where
  state : Nat              -- code of R455
  previous : Nat
  entry : Nat              -- state from which ACQUIRING was entered
  source : Nat             -- phase reference followed: 0 none, 1 PTP, 2 1PPS, 3 pair transfer
  offset : Int             -- filtered offset, 2^-16 ns
  inside : Option Nat      -- tick since which |filtered offset| has been within 50 ns
  outside : Option Nat     -- tick since which it has exceeded 250 ns
  outage : Option Nat      -- tick at which the present or last outage began
  counted : Nat            -- ms of the outage that the bound has taken in
  bound : Nat              -- 10^-6 ns
  minutes : Nat            -- whole minutes of the outage counted for excess
  minuteTemp : Int         -- temperature at the start of the present minute, 0.01 °C
  excess : Nat             -- 10^-4 °C
  left : Bool              -- left_range
  disagree : Bool          -- a qualified reference lies beyond te_limit (R464)
  deriving DecidableEq, Repr

/-- A step or retuning of the counter that waits for its edge (R466, R522, R523). -/
structure TimeStep where
  id : Option Nat          -- TIME_ADJUST handle
  kind : Nat               -- 0 step, 1 set, 2 frequency
  value : Int              -- 2^-16 ns, or ppt for kind 2
  edge : Nat               -- 2^-16 ns
  engine : Bool            -- an engine step: the engine enters ACQUIRING after it
  pair : Bool              -- a shadow's step by its pair offset
  deriving DecidableEq, Repr

structure Tim where
  fine : Nat               -- time counter
  ppt : Int                -- its frequency offset, parts per 10^12
  touts : Sparse Tout
  latched : Nat            -- TIM_TIME_MID and HI as captured by the last read of LO
  captured : Nat           -- 0 none, 1 MID, 2 HI, 3 both still to be read
  replica : Option Nat     -- counter value at the last realignment of the hop-clock replica (R448)
  eng : Engine
  own : Engine             -- a shadow's evaluation of its own references (R524)
  ptp : RefMeas
  pps : RefMeas
  ppsEdge : Option Nat     -- timestamp of the last 1PPS edge, 2^-16 ns
  ppsTick : Nat            -- its tick
  ppsRun : Nat             -- consecutive edges spaced 1 s
  todLast : Option Nat     -- second of the last edge by the last accepted message
  todEdge : Option Nat     -- second of the last edge, as the message before it implies
  todSeen : Bool           -- a message has arrived since the last edge
  todFlags : Nat           -- flags and utc_offset of the last binary message (R451)
  seLost : Sparse Bool     -- SyncE candidates that lost eligibility
  seWtr : Sparse Nat       -- end of a wait-to-restore time, by lane
  seHold : Option Nat      -- end of the hold-off time
  seSlew : Bool            -- the frequency still moves after a change of selection
  steps : List TimeStep
  lastStep : Int           -- 2^-16 ns
  stepTick : Option Nat := none -- tick of the last step
  extra : Int              -- TIME_ADJUST kind 2 in an outage, ppt
  base : Int               -- frequency at the entry to ACQUIRING, ppt
  lastEval : Nat           -- tick
  lastFit : Nat            -- tick
  tenths : Nat             -- tenths of a second LOCKED beyond learned_s
  bins : Sparse Nat        -- learned data by 0.5 °C bin, µs
  fit : List Int           -- f0, c1, c2, c3, r, a
  fitMean : Int            -- mean learned temperature, 0.01 °C
  temp : Int               -- oscillator temperature, 0.01 °C
  fallback : Bool          -- temp_fallback
  deriving DecidableEq, Repr

/-! ## The Wicket (chapter 19) -/

structure Wkt where
  history : List FaultEntry
  est : List Int           -- est[z] of the 20 logic-die zones, 10^-9 °C
  estStart : Bool          -- D2 has been released for the first time since it was powered (R480)
  power : Nat              -- P_logic of the last round, 50 µW
  request : Nat            -- P_req
  railRun : Sparse Nat     -- rounds that a rail channel has been out of limits
  round : Nat              -- rounds done, for the district of channels 28 and 29
  lastRound : Nat          -- tick
  served : Nat             -- tick of the last round whose computation the core completed
  stalled : Bool           -- the core has not completed a round since
  restart : Option Nat     -- tick at which the watchdog restarted the core
  throttleHeld : Bool      -- at or above 105 °C, not released yet
  shutHeld : Bool          -- at or above 115 °C, not released yet
  thermN : Bool            -- THERM_N asserted
  since : Nat              -- tick of the last throttle state or step change
  paused : Option Nat      -- tick since which a running grace time is paused
  pauseTotal : Nat         -- ticks of pause in the present grace time
  wakeTick : Nat           -- tick from which the wake timer runs
  stepWas : Nat := 0       -- throttle step enforced until tick `stepFrom` (R486, R529)
  stepFrom : Nat := 0
  deriving DecidableEq, Repr

/-! ## Pins (chapter 20) -/

/-- What a keeper, or the design's pin port, gives: level and output enable. -/
structure PinDrive where
  level : Bool
  oe : Bool
  clock : Option (Nat × Nat) := none  -- a running clock in place of the level: its source code and divider (R494)
  deriving DecidableEq, Repr

structure Pins where
  kept : Sparse PinDrive   -- held by the keeper, by pin
  fabric : Sparse PinDrive -- last taken from pin port n
  bound : Sparse Nat       -- the global channel of each pin port that the active context binds (R88)
  hand : Sparse Nat        -- end of the handover in progress, tick
  sleeping : Bool          -- sleep states hold (R502)
  visible : Sparse Bool    -- sampled level that readers may see
  steady : Sparse Nat      -- tick since which it has been constant, while a debounce count runs
  deriving DecidableEq, Repr

/-- Why the machine stops with a fault. No rule of the spec stops the device on a command (every refusal, error and exception of
the spec is an effect on the state), so no fault exists. -/
inductive Fault where
  deriving DecidableEq, Repr

/-- Why a command is refused. -/
inductive Refusal where
  /-- The command has no meaning in the model yet; raised by an arm of `exec` only. Safe: the model stops. -/
  | notModelled (mnemonic : String)
  deriving DecidableEq, Repr

structure State where
  now : Nat
  grade2 : Bool
  regs : Sparse Nat
  boot : Boot
  stack : Stack
  safe : Safety
  districts : Sparse District
  ctxs : Contexts
  tiles : Sparse Tile
  mem : MemDie
  noc : Noc
  dram : Dram
  enc : Enc
  link : Link
  sec : Sec
  imgs : Images
  integ : Integ
  dmas : List Dma
  fh : Fh
  tim : Tim
  wkt : Wkt
  pins : Pins
  pair : Pair
  free : Nat
  outbox : List Out
  pending : List Instr
  deriving DecidableEq, Repr

/-- The outcome of a command. -/
abbrev Res := Host.Outcome State Fault Refusal

/-! ## The state after reset (R12, R52) -/

def DramSub.zero : DramSub :=
  { retry := [], alertSince := none, alertEnd := none, alertRun := 0, alertCrc := false, full := none, retrain := false,
    quantumEnd := 0 }

def DramCtrl.zero : DramCtrl :=
  { reads := [], writes := [], draining := false, sub0 := DramSub.zero, sub1 := DramSub.zero, repair := none, repairQ := [],
    softRepairs := [], elogWin := [], lasted := [], mr4 := 0, refreshes := 0, lastRefresh := 0, ready := 0 }

def Boot.start : Boot :=
  { porHeld := true, cause := some .powerOn, stageSince := 0, coreUp := false, hostUp := true, dormant := false, dormantCommit := none, pmeAcked := false, hostAsked := [],
    perstSeen := false, wakeN := false, thermalHold := false, wakeWaiting := none, refLostDormant := false, d0 := .idle, d0Cause := none,
    dies := [.off, .off, .off], transition := none, leftPair := false, recoverD0 := false, recoverD2 := false, recoverD3 := false, d3Unswept := false,
    sweptA := false, sweptB := false }

def Stack.start : Stack :=
  { skewBad := [0, 0, 0, 0], trim := [0, 0, 0, 0], spares := [], copying := [], failed := [], poisoned := [], lasting := [], uncorrectable := 0 }

def Safety.start : Safety :=
  { log := [], nextSeq := 0, windows := [], lasted := [], laneLims := [], injection := none, internalFaultAt := none, slice := 0, repeats := 0,
    again := none, deferred := [], lastSlice := 0, failedSpares := [], failedSamplers := [], bistCmd := none, bistGroups := 0,
    intrusive := none }

def Contexts.start : Contexts :=
  { planes := [], sigs := [], active := [], staged := [], activeOld := false, staging := none, armed := none, lastSwap := none,
    lastSwapTime := 0, wb := none, banks := [], originNs := 0, late := none, swapLog := [], swapSeq := 0,
    wbEnd := 0, writtenBack := [], oldSigs := [], ffs := [], refused := false, newVersion := [], ports := { dsp := [], memory := [], resets := [] } }

def MemDie.start : MemDie :=
  { words := [], updates := [], invalEdge := [], clearing := [], retiring := [], elogWin := [], pathWrites := [], pathTurn := [], pathLast := [] }

def Noc.start : Noc := { reqs := [], waiting := [], tx := [], links := [], turns := [], fenced := true, bound := [], denyCap := none, bytesCap := [] }

def Dram.start : Dram := { lines := [], epoch := 0, c0 := DramCtrl.zero, c1 := DramCtrl.zero }

def Enc.start : Enc := { keys := [], tags := [], metaLost := [], cache := [], ops := [], sweeps := [], failCap := none, held := [] }

/-- PERST# asserted, the PCIe reference clock running, every MSI-X vector masked. -/
def Link.start : Link :=
  { up := false, training := false, perst := true, refclk := true, queues := [], tracks := [], nextId := 0, cancelAll := false,
    masked := [], msix := [], pendingMsix := [], lastAq := 0, reads := [] }

def OwnerSlot.blank : OwnerSlot := { bits := 0, ed := 0, ml := 0 }

/-- A device whose fuses have not been written: every owner slot BLANK (R277). -/
def FuseCopy.blank : FuseCopy := { slots := Vector.replicate 4 OwnerSlot.blank, debugDisabled := false }
def Sec.start : Sec :=
  { slots := Vector.replicate 4 OwnerSlot.blank, debugDisabled := false, copies := Vector.replicate 3 FuseCopy.blank, expires := none, ops := [] }

def Images.start : Images := { ctx := [], load := none }

def Privet.fresh : Privet := { sweeping := false, pos := 0, last := 0, start := 0, count := 0, record := 0, report := 0 }

def Integ.start : Integ := { a := Privet.fresh, b := Privet.fresh, queue := [], lost := [] }

def Fh.start : Fh := { lanes := [], rings := [], bound := [], scans := [] }

def Pair.start : Pair :=
  { selfFault := none, mac := 0, overwrite := false, exchangeOk := false, forming := none, values := none, agrees := false,
    partner := none, lastBlock := 0, heartbeat := false, absentSince := none, synced := false, unit := 0, unitOpened := 0, unitBefore := 0,
    unitSuspended := false, ctxDiffers := false, partnerDrops := 0, frames := [], closed := [], held := [], inject := false, early := [],
    mismatch := none, ownReport := none, partnerReport := none, rounds := 0, copying := false, frameFrom := none, dirty := false, far := false,
    offset := 0, ownTq := 0, tqRun := 0, lastExchange := none, exchange := none, takeover := none, yieldAt := none, dissolve := none,
    heard := none, partnerPrepared := none, partnerFailed := none, prepared := none, committing := none, compareAfter := false, mirrors := [],
    mismatches := 0, takeovers := 0, lastEdge := 0, lastFault := 0, since := 0, down := [], txTrain := 0, rxTrain := 0, rxAt := 0,
    sentAt := [], crcErrors := 0, averaged := 0, offsets := [], widthAt := none, readapt := [], readaptAt := 0, lastData := 0, replay := [],
    tx := [] }

def RefMeas.start : RefMeas := { offset := none, at_ := 0, since := none }

/-- The engine in FREERUN (R455). -/
def Engine.start : Engine :=
  { state := 0, previous := 0, entry := 0, source := 0, offset := 0, inside := none, outside := none, outage := none, counted := 0,
    bound := 0, minutes := 0, minuteTemp := 0, excess := 0, left := false, disagree := false }

/-- The time counter at 0 in FREERUN (R52). -/
def Tim.start : Tim :=
  { fine := 0, ppt := 0, touts := [], latched := 0, captured := 0, replica := none, eng := Engine.start, own := Engine.start,
    ptp := RefMeas.start, pps := RefMeas.start, ppsEdge := none, ppsTick := 0, ppsRun := 0, todLast := none, todEdge := none,
    todSeen := false, todFlags := 0, seLost := [], seWtr := [], seHold := none, seSlew := false, steps := [], lastStep := 0, extra := 0,
    base := 0, lastEval := 0, lastFit := 0, tenths := 0, bins := [], fit := [], fitMean := 0, temp := 0, fallback := false }

def Wkt.start : Wkt :=
  { history := [], est := List.replicate 20 0, estStart := false, power := 0, request := 0, railRun := [], round := 0, lastRound := 0,
    served := 0, stalled := false, restart := none, throttleHeld := false, shutHeld := false, thermN := false, since := 0, paused := none,
    pauseTotal := 0, wakeTick := 0 }

def Pins.start : Pins := { kept := [], fabric := [], bound := [], hand := [], sleeping := false, visible := [], steady := [] }

/-- The state after reset: the whole device in the reset of power-on, POR_N still asserted, so that POR_N_DEASSERT starts boot. Every
register field holds its reset value (`regs` lists none). -/
def State.reset : State :=
  { now := 0, grade2 := false, regs := [], boot := Boot.start, stack := Stack.start, safe := Safety.start, districts := [],
    ctxs := Contexts.start, tiles := [], mem := MemDie.start, noc := Noc.start, dram := Dram.start, enc := Enc.start, link := Link.start,
    sec := Sec.start, imgs := Images.start, integ := Integ.start, dmas := [], fh := Fh.start, tim := Tim.start, wkt := Wkt.start,
    pins := Pins.start, pair := Pair.start, free := 0, outbox := [], pending := [] }

end Sys2Proof.Machine
end

