-- ==== Sys2Proof/Machine/Fields.lean ====
section
/-! DEFINITION. The register map of BAR0 (R564, R572): one `Row` per field of every register table of the spec, and
the list of all of them. A row gives the field's offset (with the strides of its family), bits, access type (R10), reset value
and the reset classes that load it (R12). Reserved bits have no row: they read 0 and ignore writes. -/

namespace Sys2Proof.Machine

/-- The reset value of a row at register offset `off`: its own, or the exception its table names for that offset. -/
def Row.resetAt (r : Row) (off : Nat) : Nat :=
  match r.except.find? (fun p => p.1 == off) with
  | some p => p.2
  | none => r.rst

/-- Default classes of R220 that are not 0, by register offset of NOC_INIT_CFG_i. -/
def nocClassDefaults : List (Nat × Nat) :=
  (List.range 0x20).map (fun i => (0x91000 + 0x80 * i, 1)) ++
    [(0x91000 + 0x80 * 0x20, 2), (0x91000 + 0x80 * 0xA1, 1), (0x91000 + 0x80 * 0xA2, 2), (0x91000 + 0x80 * 0xA3, 2)]

/-- The reset values of rules 62 and 63 of every lane (R427) for the register at `o` in the rule. -/
def ruleDefaults (o v62 v63 : Nat) : List (Nat × Nat) :=
  (List.range 16).flatMap (fun n => [(0x101000 + 0x4000 * n + 0x40 * 62 + o, v62), (0x101000 + 0x4000 * n + 0x40 * 63 + o, v63)])

/-! DEV_ID (R570, 23_register_map.md) -/
def DEV_ID.part_id : Row := ⟨0, 0, 1, 0, 1, 0, 16, .ro, 0x4E04, [.c], [], []⟩
def DEV_ID.family : Row := ⟨0, 0, 1, 0, 1, 16, 8, .ro, 1, [.c], [], []⟩
/-! DEV_REV (R570, 23_register_map.md) -/
def DEV_REV.stepping : Row := ⟨4, 0, 1, 0, 1, 0, 8, .ro, 0xB0, [.c], [], []⟩
def DEV_REV.rom_major : Row := ⟨4, 0, 1, 0, 1, 8, 8, .ro, 4, [.c], [], []⟩
def DEV_REV.rom_minor : Row := ⟨4, 0, 1, 0, 1, 16, 8, .ro, 1, [.c], [], []⟩
def DEV_REV.speed : Row := ⟨4, 0, 1, 0, 1, 24, 4, .ro, 0, [.c], [], []⟩
/-! DEV_CAPS (R570, 23_register_map.md) -/
def DEV_CAPS.temp_grade : Row := ⟨8, 0, 1, 0, 1, 0, 8, .ro, 0x45, [.c], [], []⟩
def DEV_CAPS.vf_total : Row := ⟨8, 0, 1, 0, 1, 8, 8, .ro, 0x3C, [.c], [], []⟩
def DEV_CAPS.queue_pairs : Row := ⟨8, 0, 1, 0, 1, 16, 9, .ro, 0x100, [.c], [], []⟩
/-! DEV_SCRATCH (R570, 23_register_map.md) -/
def DEV_SCRATCH.scratch : Row := ⟨0xC, 0, 1, 0, 1, 0, 32, .rw, 0, [.c, .w], [], []⟩
/-! DEV_MODE (R38, 02_modes_and_start_up.md) -/
def DEV_MODE.mode : Row := ⟨0x10, 0, 1, 0, 1, 0, 3, .ro, 0, [.c, .w], [], []⟩
def DEV_MODE.previous_mode : Row := ⟨0x10, 0, 1, 0, 1, 4, 3, .ro, 0, [.c, .w], [], []⟩
def DEV_MODE.degraded : Row := ⟨0x10, 0, 1, 0, 1, 8, 1, .ro, 0, [.c, .w], [], []⟩
def DEV_MODE.safe_state : Row := ⟨0x10, 0, 1, 0, 1, 9, 1, .ro, 1, [.c, .w], [], []⟩
def DEV_MODE.transition_busy : Row := ⟨0x10, 0, 1, 0, 1, 10, 1, .ro, 0, [.c, .w], [], []⟩
def DEV_MODE.transitions : Row := ⟨0x10, 0, 1, 0, 1, 16, 16, .ro, 0, [.c], [], []⟩
/-! DEV_BOOT_STATUS (R47, 02_modes_and_start_up.md) -/
def DEV_BOOT_STATUS.stage : Row := ⟨0x14, 0, 1, 0, 1, 0, 8, .ro, 0, [.c, .w], [], []⟩
def DEV_BOOT_STATUS.halt_code : Row := ⟨0x14, 0, 1, 0, 1, 8, 8, .ro, 0, [.c, .w], [], []⟩
def DEV_BOOT_STATUS.dram0_disabled : Row := ⟨0x14, 0, 1, 0, 1, 16, 1, .ro, 0, [.c, .w], [], []⟩
def DEV_BOOT_STATUS.dram1_disabled : Row := ⟨0x14, 0, 1, 0, 1, 17, 1, .ro, 0, [.c, .w], [], []⟩
/-! DEV_RESET_CAUSE (R55, 02_modes_and_start_up.md) -/
def DEV_RESET_CAUSE.power_on : Row := ⟨0x18, 0, 1, 0, 1, 0, 1, .w1c, 0, [.c], [], []⟩
def DEV_RESET_CAUSE.por_pin : Row := ⟨0x18, 0, 1, 0, 1, 1, 1, .w1c, 0, [.c], [], []⟩
def DEV_RESET_CAUSE.aon_supply : Row := ⟨0x18, 0, 1, 0, 1, 2, 1, .w1c, 0, [.c], [], []⟩
def DEV_RESET_CAUSE.perst : Row := ⟨0x18, 0, 1, 0, 1, 3, 1, .w1c, 0, [.c], [], []⟩
def DEV_RESET_CAUSE.ref_clock_loss : Row := ⟨0x18, 0, 1, 0, 1, 4, 1, .w1c, 0, [.c], [], []⟩
def DEV_RESET_CAUSE.porter_fault : Row := ⟨0x18, 0, 1, 0, 1, 5, 1, .w1c, 0, [.c], [], []⟩
def DEV_RESET_CAUSE.host_request : Row := ⟨0x18, 0, 1, 0, 1, 6, 1, .w1c, 0, [.c], [], []⟩
def DEV_RESET_CAUSE.thermal_entry : Row := ⟨0x18, 0, 1, 0, 1, 7, 1, .w1c, 0, [.c], [], []⟩
def DEV_RESET_CAUSE.wake : Row := ⟨0x18, 0, 1, 0, 1, 8, 1, .w1c, 0, [.c], [], []⟩
def DEV_RESET_CAUSE.wake_source : Row := ⟨0x18, 0, 1, 0, 1, 9, 2, .ro, 0, [.c], [], []⟩
def DEV_RESET_CAUSE.die_reset : Row := ⟨0x18, 0, 1, 0, 1, 12, 4, .w1c, 0, [.c], [], []⟩
/-! DEV_RESET_CTRL (R55, 02_modes_and_start_up.md) -/
def DEV_RESET_CTRL.perst_scope : Row := ⟨0x1C, 0, 1, 0, 1, 0, 1, .rw, 0, [.c], [], []⟩
def DEV_RESET_CTRL.die_reset : Row := ⟨0x1C, 0, 1, 0, 1, 4, 4, .wo, 0, [], [], []⟩
def DEV_RESET_CTRL.warm_reset : Row := ⟨0x1C, 0, 1, 0, 1, 8, 1, .wo, 0, [], [], []⟩
def DEV_RESET_CTRL.refused : Row := ⟨0x1C, 0, 1, 0, 1, 9, 1, .w1c, 0, [.c, .w], [], []⟩
def DEV_RESET_CTRL.confirm : Row := ⟨0x1C, 0, 1, 0, 1, 24, 8, .wo, 0, [], [], []⟩
/-! DEV_DORMANT_CTRL (R51, 02_modes_and_start_up.md) -/
def DEV_DORMANT_CTRL.wake_perst : Row := ⟨0x20, 0, 1, 0, 1, 0, 1, .rw, 1, [.c], [], []⟩
def DEV_DORMANT_CTRL.wake_pin : Row := ⟨0x20, 0, 1, 0, 1, 1, 1, .rw, 0, [.c], [], []⟩
def DEV_DORMANT_CTRL.wake_timer : Row := ⟨0x20, 0, 1, 0, 1, 2, 1, .rw, 0, [.c], [], []⟩
def DEV_DORMANT_CTRL.assert_wake_n : Row := ⟨0x20, 0, 1, 0, 1, 3, 1, .rw, 1, [.c], [], []⟩
/-! DEV_STACK_STATUS (R28, 01_stack.md) -/
def DEV_STACK_STATUS.shutter_closed : Row := ⟨0x100, 0, 1, 0, 1, 0, 4, .ro, 0xF, [.c, .w], [], []⟩
def DEV_STACK_STATUS.die_in_reset : Row := ⟨0x100, 0, 1, 0, 1, 4, 4, .ro, 0xF, [.c, .w], [], []⟩
def DEV_STACK_STATUS.skew_fault : Row := ⟨0x100, 0, 1, 0, 1, 8, 4, .w1c, 0, [.c], [], []⟩
def DEV_STACK_STATUS.spares_in_use : Row := ⟨0x100, 0, 1, 0, 1, 16, 8, .ro, 0, [.c], [], []⟩
def DEV_STACK_STATUS.groups_exhausted : Row := ⟨0x100, 0, 1, 0, 1, 24, 8, .ro, 0, [.c], [], []⟩
/-! HCI_AQ_SQ_BASE_LO (R343, 14_host_rings.md) -/
def HCI_AQ_SQ_BASE_LO.base_lo : Row := ⟨0x10000, 0x100, 0x40, 0, 1, 12, 20, .rw, 0, [.c, .w, .f], [], []⟩
/-! HCI_AQ_SQ_BASE_HI (R343, 14_host_rings.md) -/
def HCI_AQ_SQ_BASE_HI.base_hi : Row := ⟨0x10004, 0x100, 0x40, 0, 1, 0, 32, .rw, 0, [.c, .w, .f], [], []⟩
/-! HCI_AQ_CQ_BASE_LO (R343, 14_host_rings.md) -/
def HCI_AQ_CQ_BASE_LO.base_lo : Row := ⟨0x10008, 0x100, 0x40, 0, 1, 12, 20, .rw, 0, [.c, .w, .f], [], []⟩
/-! HCI_AQ_CQ_BASE_HI (R343, 14_host_rings.md) -/
def HCI_AQ_CQ_BASE_HI.base_hi : Row := ⟨0x1000C, 0x100, 0x40, 0, 1, 0, 32, .rw, 0, [.c, .w, .f], [], []⟩
/-! HCI_AQ_CFG (R343, 14_host_rings.md) -/
def HCI_AQ_CFG.sq_size_log2 : Row := ⟨0x10010, 0x100, 0x40, 0, 1, 0, 5, .rw, 0, [.c, .w, .f], [], []⟩
def HCI_AQ_CFG.cq_size_log2 : Row := ⟨0x10010, 0x100, 0x40, 0, 1, 8, 5, .rw, 0, [.c, .w, .f], [], []⟩
def HCI_AQ_CFG.enable : Row := ⟨0x10010, 0x100, 0x40, 0, 1, 16, 1, .rw, 0, [.c, .w, .f], [], []⟩
/-! HCI_AQ_STATUS (R343, 14_host_rings.md) -/
def HCI_AQ_STATUS.ready : Row := ⟨0x10014, 0x100, 0x40, 0, 1, 0, 1, .ro, 0, [.c, .w, .f], [], []⟩
def HCI_AQ_STATUS.error : Row := ⟨0x10014, 0x100, 0x40, 0, 1, 1, 3, .ro, 0, [.c, .w, .f], [], []⟩
/-! HCI_EVT_CAUSE (R362, 14_host_rings.md) -/
def HCI_EVT_CAUSE.swap_event : Row := ⟨0x18000, 0, 1, 0, 1, 0, 1, .w1c, 0, [.c, .w], [], []⟩
def HCI_EVT_CAUSE.throttle_request : Row := ⟨0x18000, 0, 1, 0, 1, 1, 1, .w1c, 0, [.c, .w], [], []⟩
def HCI_EVT_CAUSE.fault_log : Row := ⟨0x18000, 0, 1, 0, 1, 2, 1, .w1c, 0, [.c, .w], [], []⟩
def HCI_EVT_CAUSE.timing_state : Row := ⟨0x18000, 0, 1, 0, 1, 3, 1, .w1c, 0, [.c, .w], [], []⟩
def HCI_EVT_CAUSE.pair_event : Row := ⟨0x18000, 0, 1, 0, 1, 4, 1, .w1c, 0, [.c, .w], [], []⟩
def HCI_EVT_CAUSE.queue_error : Row := ⟨0x18000, 0, 1, 0, 1, 5, 1, .w1c, 0, [.c, .w], [], []⟩
def HCI_EVT_CAUSE.thermal_warning : Row := ⟨0x18000, 0, 1, 0, 1, 6, 1, .w1c, 0, [.c, .w], [], []⟩
/-! HCI_EVT_ENABLE (R362, 14_host_rings.md) -/
def HCI_EVT_ENABLE.swap_event : Row := ⟨0x18004, 0, 1, 0, 1, 0, 1, .rw, 0, [.c, .w], [], []⟩
def HCI_EVT_ENABLE.throttle_request : Row := ⟨0x18004, 0, 1, 0, 1, 1, 1, .rw, 0, [.c, .w], [], []⟩
def HCI_EVT_ENABLE.fault_log : Row := ⟨0x18004, 0, 1, 0, 1, 2, 1, .rw, 0, [.c, .w], [], []⟩
def HCI_EVT_ENABLE.timing_state : Row := ⟨0x18004, 0, 1, 0, 1, 3, 1, .rw, 0, [.c, .w], [], []⟩
def HCI_EVT_ENABLE.pair_event : Row := ⟨0x18004, 0, 1, 0, 1, 4, 1, .rw, 0, [.c, .w], [], []⟩
def HCI_EVT_ENABLE.queue_error : Row := ⟨0x18004, 0, 1, 0, 1, 5, 1, .rw, 0, [.c, .w], [], []⟩
def HCI_EVT_ENABLE.thermal_warning : Row := ⟨0x18004, 0, 1, 0, 1, 6, 1, .rw, 0, [.c, .w], [], []⟩
/-! HCI_EVT_VEC (R362, 14_host_rings.md) -/
def HCI_EVT_VEC.vector : Row := ⟨0x18010, 4, 7, 0, 1, 0, 5, .rw, 0, [.c, .w], [], []⟩
/-! HCI_Q_STATUS (R362, 14_host_rings.md) -/
def HCI_Q_STATUS.state : Row := ⟨0x19000, 4, 0x100, 0, 1, 0, 3, .ro, 0, [.c, .w, .f, .q], [], []⟩
def HCI_Q_STATUS.admin : Row := ⟨0x19000, 4, 0x100, 0, 1, 3, 1, .ro, 0, [.c, .w, .f, .q], [], []⟩
def HCI_Q_STATUS.function : Row := ⟨0x19000, 4, 0x100, 0, 1, 4, 6, .ro, 0, [.c, .w, .f, .q], [], []⟩
def HCI_Q_STATUS.outstanding : Row := ⟨0x19000, 4, 0x100, 0, 1, 16, 7, .ro, 0, [.c, .w, .f, .q], [], []⟩
def HCI_Q_STATUS.error : Row := ⟨0x19000, 4, 0x100, 0, 1, 24, 3, .ro, 0, [.c, .w, .f, .q], [], []⟩
/-! PCIE_LINK_STATUS (R362, 14_host_rings.md) -/
def PCIE_LINK_STATUS.speed : Row := ⟨0x20000, 0, 1, 0, 1, 0, 3, .ro, 0, [.c, .w], [], []⟩
def PCIE_LINK_STATUS.width : Row := ⟨0x20000, 0, 1, 0, 1, 4, 4, .ro, 0, [.c, .w], [], []⟩
def PCIE_LINK_STATUS.reversed : Row := ⟨0x20000, 0, 1, 0, 1, 8, 1, .ro, 0, [.c, .w], [], []⟩
def PCIE_LINK_STATUS.dropped : Row := ⟨0x20000, 0, 1, 0, 1, 16, 8, .ro, 0, [.c, .w], [], []⟩
/-! PCIE_BLOCKED_COUNT (R571, 23_register_map.md) -/
def PCIE_BLOCKED_COUNT.unassigned : Row := ⟨0x20004, 0, 1, 0, 1, 0, 16, .rc, 0, [.c, .w], [], []⟩
def PCIE_BLOCKED_COUNT.blocked : Row := ⟨0x20004, 0, 1, 0, 1, 16, 16, .rc, 0, [.c, .w], [], []⟩
/-! PCIE_ERR_COUNTS (R362, 14_host_rings.md) -/
def PCIE_ERR_COUNTS.bad_access : Row := ⟨0x20008, 0, 1, 0, 1, 0, 16, .rc, 0, [.c, .w], [], []⟩
def PCIE_ERR_COUNTS.retrains : Row := ⟨0x20008, 0, 1, 0, 1, 16, 8, .rc, 0, [.c, .w], [], []⟩
def PCIE_ERR_COUNTS.fn_cfg_refused : Row := ⟨0x20008, 0, 1, 0, 1, 24, 1, .w1c, 0, [.c, .w], [], []⟩
/-! PCIE_BLOCKED_ACCESS (R571, 23_register_map.md) -/
def PCIE_BLOCKED_ACCESS.offset : Row := ⟨0x2000C, 0, 1, 0, 1, 0, 24, .ro, 0, [.c, .w], [], []⟩
def PCIE_BLOCKED_ACCESS.function : Row := ⟨0x2000C, 0, 1, 0, 1, 24, 6, .ro, 0, [.c, .w], [], []⟩
def PCIE_BLOCKED_ACCESS.write : Row := ⟨0x2000C, 0, 1, 0, 1, 30, 1, .ro, 0, [.c, .w], [], []⟩
def PCIE_BLOCKED_ACCESS.kind : Row := ⟨0x2000C, 0, 1, 0, 1, 31, 1, .ro, 0, [.c, .w], [], []⟩
/-! PCIE_FN_CFG (R362, 14_host_rings.md) -/
def PCIE_FN_CFG.queue_base : Row := ⟨0x20100, 4, 0x40, 0, 1, 0, 8, .rw, 0, [.c, .w], [], []⟩
def PCIE_FN_CFG.queue_count : Row := ⟨0x20100, 4, 0x40, 0, 1, 8, 9, .rw, 0, [.c, .w], [], [(0x20100, 0x10)]⟩
/-! CLK_CAND_READY (R445, 17_clocks.md) -/
def CLK_CAND_READY.ready : Row := ⟨0x40000, 0, 1, 0, 1, 0, 25, .ro, 0, [.c], [], []⟩
/-! CLK_REF_STATUS (R445, 17_clocks.md) -/
def CLK_REF_STATUS.current : Row := ⟨0x40004, 0, 1, 0, 1, 0, 5, .ro, 0, [.c], [], []⟩
def CLK_REF_STATUS.switching : Row := ⟨0x40004, 0, 1, 0, 1, 5, 1, .ro, 0, [.c, .w], [], []⟩
def CLK_REF_STATUS.hop_locked : Row := ⟨0x40004, 0, 1, 0, 1, 6, 1, .ro, 0, [.c, .w], [], []⟩
def CLK_REF_STATUS.lane_locked : Row := ⟨0x40004, 0, 1, 0, 1, 7, 1, .ro, 0, [.c, .w], [], []⟩
def CLK_REF_STATUS.dram_locked : Row := ⟨0x40004, 0, 1, 0, 1, 8, 2, .ro, 0, [.c, .w], [], []⟩
/-! CLK_REF_CTRL (R445, 17_clocks.md) -/
def CLK_REF_CTRL.source : Row := ⟨0x40008, 0, 1, 0, 1, 0, 5, .wo, 0, [], [], []⟩
def CLK_REF_CTRL.go : Row := ⟨0x40008, 0, 1, 0, 1, 8, 1, .wo, 0, [], [], []⟩
def CLK_REF_CTRL.done : Row := ⟨0x40008, 0, 1, 0, 1, 9, 1, .w1c, 0, [.c, .w], [], []⟩
def CLK_REF_CTRL.result : Row := ⟨0x40008, 0, 1, 0, 1, 16, 8, .ro, 0, [.c, .w], [], []⟩
def CLK_REF_CTRL.confirm : Row := ⟨0x40008, 0, 1, 0, 1, 24, 8, .wo, 0, [], [], []⟩
/-! CLK_REF_PREF (R445, 17_clocks.md) -/
def CLK_REF_PREF.pref0 : Row := ⟨0x4000C, 0, 1, 0, 1, 0, 5, .rw, 0, [.c], [], []⟩
def CLK_REF_PREF.pref1 : Row := ⟨0x4000C, 0, 1, 0, 1, 8, 5, .rw, 0x1F, [.c], [], []⟩
def CLK_REF_PREF.pref2 : Row := ⟨0x4000C, 0, 1, 0, 1, 16, 5, .rw, 0x1F, [.c], [], []⟩
def CLK_REF_PREF.pref3 : Row := ⟨0x4000C, 0, 1, 0, 1, 24, 5, .rw, 0x1F, [.c], [], []⟩
/-! CLK_WKT_TRIM (R445, 17_clocks.md) -/
def CLK_WKT_TRIM.fsel : Row := ⟨0x40010, 0, 1, 0, 1, 0, 3, .ro, 0, [.c], [], []⟩
def CLK_WKT_TRIM.trim : Row := ⟨0x40010, 0, 1, 0, 1, 4, 8, .ro, 0, [.c], [], []⟩
def CLK_WKT_TRIM.trim_source : Row := ⟨0x40010, 0, 1, 0, 1, 12, 2, .ro, 0, [.c], [], []⟩
def CLK_WKT_TRIM.trim_limit : Row := ⟨0x40010, 0, 1, 0, 1, 14, 1, .w1c, 0, [.c], [], []⟩
def CLK_WKT_TRIM.on_backup : Row := ⟨0x40010, 0, 1, 0, 1, 15, 1, .ro, 0, [.c], [], []⟩
/-! CLK_MON_EVENTS (R445, 17_clocks.md) -/
def CLK_MON_EVENTS.missing_edge : Row := ⟨0x40014, 0, 1, 0, 1, 0, 1, .w1c, 0, [.c], [], []⟩
def CLK_MON_EVENTS.freq_window : Row := ⟨0x40014, 0, 1, 0, 1, 1, 1, .w1c, 0, [.c], [], []⟩
def CLK_MON_EVENTS.pll_unlock : Row := ⟨0x40014, 0, 1, 0, 1, 2, 1, .w1c, 0, [.c], [], []⟩
def CLK_MON_EVENTS.upll_unlock : Row := ⟨0x40014, 0, 1, 0, 1, 3, 1, .w1c, 0, [.c], [], []⟩
def CLK_MON_EVENTS.wicket_osc_fail : Row := ⟨0x40014, 0, 1, 0, 1, 4, 1, .w1c, 0, [.c], [], []⟩
def CLK_MON_EVENTS.failed_source : Row := ⟨0x40014, 0, 1, 0, 1, 8, 5, .ro, 0, [.c], [], []⟩
/-! CLK_CAND_COUNT (R445, 17_clocks.md) -/
def CLK_CAND_COUNT.count : Row := ⟨0x40100, 4, 0x19, 0, 1, 0, 20, .ro, 0, [.c], [], []⟩
def CLK_CAND_COUNT.run : Row := ⟨0x40100, 4, 0x19, 0, 1, 20, 3, .ro, 0, [.c], [], []⟩
/-! CLK_UPLL_CFG (R445, 17_clocks.md) -/
def CLK_UPLL_CFG.m : Row := ⟨0x40200, 8, 8, 0, 1, 0, 7, .rw, 1, [.c], [], []⟩
def CLK_UPLL_CFG.n : Row := ⟨0x40200, 8, 8, 0, 1, 7, 10, .rw, 8, [.c], [], []⟩
def CLK_UPLL_CFG.o : Row := ⟨0x40200, 8, 8, 0, 1, 17, 8, .rw, 2, [.c], [], []⟩
def CLK_UPLL_CFG.input : Row := ⟨0x40200, 8, 8, 0, 1, 25, 5, .rw, 0x1F, [.c], [], []⟩
def CLK_UPLL_CFG.enable : Row := ⟨0x40200, 8, 8, 0, 1, 30, 1, .rw, 0, [.c], [], []⟩
/-! CLK_UPLL_STATUS (R445, 17_clocks.md) -/
def CLK_UPLL_STATUS.locked : Row := ⟨0x40204, 8, 8, 0, 1, 0, 1, .ro, 0, [.c], [], []⟩
def CLK_UPLL_STATUS.cfg_error : Row := ⟨0x40204, 8, 8, 0, 1, 1, 1, .w1c, 0, [.c], [], []⟩
def CLK_UPLL_STATUS.refused : Row := ⟨0x40204, 8, 8, 0, 1, 2, 1, .w1c, 0, [.c], [], []⟩
def CLK_UPLL_STATUS.unlock_seen : Row := ⟨0x40204, 8, 8, 0, 1, 3, 1, .w1c, 0, [.c], [], []⟩
/-! CLK_GCH_SEL (R445, 17_clocks.md) -/
def CLK_GCH_SEL.source : Row := ⟨0x40400, 4, 0x20, 0, 1, 0, 4, .rw, 0, [.c], [], []⟩
/-! TIM_STATUS (R471, 18_timing_and_holdover.md) -/
def TIM_STATUS.state : Row := ⟨0x50000, 0, 1, 0, 1, 0, 3, .ro, 0, [.c], [], []⟩
def TIM_STATUS.previous : Row := ⟨0x50000, 0, 1, 0, 1, 3, 3, .ro, 0, [.c], [], []⟩
def TIM_STATUS.tq_class : Row := ⟨0x50000, 0, 1, 0, 1, 6, 3, .ro, 4, [.c], [], []⟩
def TIM_STATUS.phase_ref : Row := ⟨0x50000, 0, 1, 0, 1, 9, 2, .ro, 0, [.c], [], []⟩
def TIM_STATUS.synce_sel : Row := ⟨0x50000, 0, 1, 0, 1, 11, 5, .ro, 0x1F, [.c], [], []⟩
def TIM_STATUS.time_error : Row := ⟨0x50000, 0, 1, 0, 1, 16, 1, .ro, 1, [.c], [], []⟩
def TIM_STATUS.forced : Row := ⟨0x50000, 0, 1, 0, 1, 17, 1, .ro, 0, [.c], [], []⟩
def TIM_STATUS.freq_assisted : Row := ⟨0x50000, 0, 1, 0, 1, 18, 1, .ro, 0, [.c], [], []⟩
def TIM_STATUS.time_pll_src : Row := ⟨0x50000, 0, 1, 0, 1, 19, 2, .ro, 0, [.c], [], []⟩
def TIM_STATUS.model_usable : Row := ⟨0x50000, 0, 1, 0, 1, 21, 1, .ro, 0, [.c], [], []⟩
def TIM_STATUS.ref_disagree : Row := ⟨0x50000, 0, 1, 0, 1, 22, 1, .w1c, 0, [.c], [], []⟩
/-! TIM_TIME_LO (R471, 18_timing_and_holdover.md) -/
def TIM_TIME_LO.fraction : Row := ⟨0x50004, 0, 1, 0, 1, 0, 16, .ro, 0, [.c], [], []⟩
def TIM_TIME_LO.ns_lo : Row := ⟨0x50004, 0, 1, 0, 1, 16, 16, .ro, 0, [.c], [], []⟩
/-! TIM_TIME_MID (R471, 18_timing_and_holdover.md) -/
def TIM_TIME_MID.ns_hi : Row := ⟨0x50008, 0, 1, 0, 1, 0, 16, .ro, 0, [.c], [], []⟩
def TIM_TIME_MID.sec_lo : Row := ⟨0x50008, 0, 1, 0, 1, 16, 16, .ro, 0, [.c], [], []⟩
/-! TIM_TIME_HI (R471, 18_timing_and_holdover.md) -/
def TIM_TIME_HI.sec_hi : Row := ⟨0x5000C, 0, 1, 0, 1, 0, 32, .ro, 0, [.c], [], []⟩
/-! TIM_HO_BOUND (R471, 18_timing_and_holdover.md) -/
def TIM_HO_BOUND.bound_ns : Row := ⟨0x50010, 0, 1, 0, 1, 0, 32, .ro, 0, [.c], [], []⟩
/-! TIM_HO_ELAPSED (R471, 18_timing_and_holdover.md) -/
def TIM_HO_ELAPSED.seconds : Row := ⟨0x50014, 0, 1, 0, 1, 0, 32, .ro, 0, [.c], [], []⟩
/-! TIM_LEARNED (R471, 18_timing_and_holdover.md) -/
def TIM_LEARNED.learned_s : Row := ⟨0x50018, 0, 1, 0, 1, 0, 32, .ro, 0, [.c], [], []⟩
/-! TIM_HO_CFG (R471, 18_timing_and_holdover.md) -/
def TIM_HO_CFG.te_limit_ns : Row := ⟨0x50020, 0, 1, 0, 1, 0, 12, .rw, 0x44C, [.c], [], []⟩
def TIM_HO_CFG.step_policy : Row := ⟨0x50020, 0, 1, 0, 1, 12, 1, .rw, 0, [.c], [], []⟩
def TIM_HO_CFG.reacq_holdoff_s : Row := ⟨0x50020, 0, 1, 0, 1, 16, 5, .rw, 0xA, [.c], [], []⟩
def TIM_HO_CFG.osc_class : Row := ⟨0x50020, 0, 1, 0, 1, 24, 4, .ro, 0, [.c], [], []⟩
/-! TIM_SERVO_CFG (R471, 18_timing_and_holdover.md) -/
def TIM_SERVO_CFG.bw : Row := ⟨0x50024, 0, 1, 0, 1, 0, 2, .rw, 2, [.c], [], []⟩
def TIM_SERVO_CFG.slew_max : Row := ⟨0x50024, 0, 1, 0, 1, 8, 8, .rw, 0xA, [.c], [], []⟩
def TIM_SERVO_CFG.ptp_timeout_s : Row := ⟨0x50024, 0, 1, 0, 1, 16, 4, .rw, 2, [.c], [], []⟩
/-! TIM_REF_CFG (R471, 18_timing_and_holdover.md) -/
def TIM_REF_CFG.ptp_enable : Row := ⟨0x50028, 0, 1, 0, 1, 0, 1, .rw, 0, [.c], [], []⟩
def TIM_REF_CFG.pps_enable : Row := ⟨0x50028, 0, 1, 0, 1, 1, 1, .rw, 0, [.c], [], []⟩
def TIM_REF_CFG.phase_primary : Row := ⟨0x50028, 0, 1, 0, 1, 2, 1, .rw, 0, [.c], [], []⟩
def TIM_REF_CFG.synce_enable : Row := ⟨0x50028, 0, 1, 0, 1, 3, 1, .rw, 0, [.c], [], []⟩
def TIM_REF_CFG.tod_format : Row := ⟨0x50028, 0, 1, 0, 1, 4, 2, .rw, 0, [.c], [], []⟩
def TIM_REF_CFG.tod_baud : Row := ⟨0x50028, 0, 1, 0, 1, 6, 2, .rw, 2, [.c], [], []⟩
/-! TIM_PTP_MEAS_LO (R471, 18_timing_and_holdover.md) -/
def TIM_PTP_MEAS_LO.offset_lo : Row := ⟨0x50030, 0, 1, 0, 1, 0, 32, .wo, 0, [], [], []⟩
/-! TIM_PTP_MEAS_HI (R471, 18_timing_and_holdover.md) -/
def TIM_PTP_MEAS_HI.offset_hi : Row := ⟨0x50034, 0, 1, 0, 1, 0, 16, .wo, 0, [], [], []⟩
def TIM_PTP_MEAS_HI.age_us : Row := ⟨0x50034, 0, 1, 0, 1, 16, 16, .wo, 0, [], [], []⟩
/-! TIM_PTP_CTRL (R471, 18_timing_and_holdover.md) -/
def TIM_PTP_CTRL.ptp_valid : Row := ⟨0x50038, 0, 1, 0, 1, 0, 1, .rw, 0, [.c, .w], [], []⟩
def TIM_PTP_CTRL.meas_count : Row := ⟨0x50038, 0, 1, 0, 1, 16, 16, .rc, 0, [.c], [], []⟩
/-! TIM_PPS_ADJ (R471, 18_timing_and_holdover.md) -/
def TIM_PPS_ADJ.adj : Row := ⟨0x50040, 0, 1, 0, 1, 0, 32, .rw, 0, [.c], [], []⟩
/-! TIM_TOD_CFG (R471, 18_timing_and_holdover.md) -/
def TIM_TOD_CFG.utc_offset : Row := ⟨0x50044, 0, 1, 0, 1, 0, 16, .rw, 0x25, [.c], [], []⟩
/-! TIM_PPS_STATUS (R471, 18_timing_and_holdover.md) -/
def TIM_PPS_STATUS.pps_valid : Row := ⟨0x50048, 0, 1, 0, 1, 0, 1, .ro, 0, [.c], [], []⟩
def TIM_PPS_STATUS.seconds_known : Row := ⟨0x50048, 0, 1, 0, 1, 1, 1, .ro, 0, [.c], [], []⟩
def TIM_PPS_STATUS.time_valid : Row := ⟨0x50048, 0, 1, 0, 1, 2, 1, .ro, 0, [.c], [], []⟩
def TIM_PPS_STATUS.tod_errors : Row := ⟨0x50048, 0, 1, 0, 1, 8, 8, .rc, 0, [.c], [], []⟩
/-! TIM_SYNCE_CFG (R471, 18_timing_and_holdover.md) -/
def TIM_SYNCE_CFG.wtr_s : Row := ⟨0x50080, 0, 1, 0, 1, 0, 10, .rw, 0x12C, [.c], [], []⟩
def TIM_SYNCE_CFG.hold_off_ms : Row := ⟨0x50080, 0, 1, 0, 1, 16, 10, .rw, 0x1F4, [.c], [], []⟩
/-! TIM_SYNCE_QL (R471, 18_timing_and_holdover.md) -/
def TIM_SYNCE_QL.rank : Row := ⟨0x50100, 4, 0x10, 0, 1, 0, 4, .rw, 0xF, [.c], [], []⟩
def TIM_SYNCE_QL.prio : Row := ⟨0x50100, 4, 0x10, 0, 1, 4, 4, .rw, 0, [.c], [], []⟩
def TIM_SYNCE_QL.lockout : Row := ⟨0x50100, 4, 0x10, 0, 1, 8, 1, .rw, 0, [.c], [], []⟩
def TIM_SYNCE_QL.eligible : Row := ⟨0x50100, 4, 0x10, 0, 1, 9, 1, .ro, 0, [.c], [], []⟩
def TIM_SYNCE_QL.in_wtr : Row := ⟨0x50100, 4, 0x10, 0, 1, 10, 1, .ro, 0, [.c], [], []⟩
/-! TIM_TOUT_ADJ (R471, 18_timing_and_holdover.md) -/
def TIM_TOUT_ADJ.adj : Row := ⟨0x50200, 4, 8, 0, 1, 0, 32, .rw, 0, [.c], [], []⟩
/-! TIM_TOUT_STATUS (R471, 18_timing_and_holdover.md) -/
def TIM_TOUT_STATUS.armed : Row := ⟨0x50220, 0, 1, 0, 1, 0, 8, .ro, 0, [.c], [], []⟩
def TIM_TOUT_STATUS.level : Row := ⟨0x50220, 0, 1, 0, 1, 8, 8, .ro, 0, [.c], [], []⟩
/-! THM_STATUS (R490, 19_wicket_and_thermal.md) -/
def THM_STATUS.eff_temp : Row := ⟨0x60000, 0, 1, 0, 1, 0, 12, .ro, 0, [.c], [], []⟩
def THM_STATUS.hot_die : Row := ⟨0x60000, 0, 1, 0, 1, 12, 2, .ro, 0, [.c], [], []⟩
def THM_STATUS.band : Row := ⟨0x60000, 0, 1, 0, 1, 14, 2, .ro, 1, [.c], [], []⟩
def THM_STATUS.warning : Row := ⟨0x60000, 0, 1, 0, 1, 16, 1, .ro, 0, [.c], [], []⟩
def THM_STATUS.throttle_active : Row := ⟨0x60000, 0, 1, 0, 1, 17, 1, .ro, 0, [.c], [], []⟩
def THM_STATUS.step : Row := ⟨0x60000, 0, 1, 0, 1, 18, 2, .ro, 0, [.c], [], []⟩
def THM_STATUS.plausibility_fault : Row := ⟨0x60000, 0, 1, 0, 1, 20, 1, .w1c, 0, [.c], [], []⟩
def THM_STATUS.sensor_invalid : Row := ⟨0x60000, 0, 1, 0, 1, 21, 1, .w1c, 0, [.c], [], []⟩
def THM_STATUS.wicket_restart : Row := ⟨0x60000, 0, 1, 0, 1, 22, 1, .w1c, 0, [.c], [], []⟩
/-! THM_THROTTLE_CFG (R490, 19_wicket_and_thermal.md) -/
def THM_THROTTLE_CFG.grace_ms : Row := ⟨0x60004, 0, 1, 0, 1, 0, 9, .rw, 0x14, [.c], [], []⟩
/-! THM_THROTTLE_STATUS (R490, 19_wicket_and_thermal.md) -/
def THM_THROTTLE_STATUS.request : Row := ⟨0x60008, 0, 1, 0, 1, 0, 16, .ro, 0, [.c], [], []⟩
def THM_THROTTLE_STATUS.state : Row := ⟨0x60008, 0, 1, 0, 1, 16, 3, .ro, 0, [.c], [], []⟩
def THM_THROTTLE_STATUS.acked : Row := ⟨0x60008, 0, 1, 0, 1, 19, 1, .ro, 0, [.c], [], []⟩
/-! THM_DIE (R490, 19_wicket_and_thermal.md) -/
def THM_DIE.eff_temp : Row := ⟨0x60010, 4, 4, 0, 1, 0, 12, .ro, 0, [.c], [], []⟩
def THM_DIE.hottest : Row := ⟨0x60010, 4, 4, 0, 1, 12, 6, .ro, 0, [.c], [], []⟩
def THM_DIE.valid : Row := ⟨0x60010, 4, 4, 0, 1, 18, 1, .ro, 0, [.c], [], []⟩
def THM_DIE.hw_trip : Row := ⟨0x60010, 4, 4, 0, 1, 19, 1, .w1c, 0, [.c], [], []⟩
/-! THM_SENSOR (R490, 19_wicket_and_thermal.md) -/
def THM_SENSOR.temp : Row := ⟨0x60100, 4, 0x60, 0, 1, 0, 12, .ro, 0, [.c], [], []⟩
def THM_SENSOR.valid : Row := ⟨0x60100, 4, 0x60, 0, 1, 12, 1, .ro, 0, [.c], [], []⟩
/-! THM_ZONE (R490, 19_wicket_and_thermal.md) -/
def THM_ZONE.estimate : Row := ⟨0x60300, 4, 0x14, 0, 1, 0, 12, .ro, 0, [.c], [], []⟩
def THM_ZONE.run : Row := ⟨0x60300, 4, 0x14, 0, 1, 12, 2, .ro, 0, [.c], [], []⟩
def THM_ZONE.plausibility : Row := ⟨0x60300, 4, 0x14, 0, 1, 14, 1, .w1c, 0, [.c], [], []⟩
def THM_ZONE.share : Row := ⟨0x60300, 4, 0x14, 0, 1, 16, 8, .ro, 0, [.c], [], []⟩
/-! THM_DLOCK_UNLOCKED (R80, 03_fabric_cells_and_routing.md) -/
def THM_DLOCK_UNLOCKED.bits : Row := ⟨0x60400, 4, 2, 0, 1, 0, 32, .ro, 0, [.c], [], []⟩
/-! THM_DLOCK_UNLOCKED2 (R80, 03_fabric_cells_and_routing.md) -/
def THM_DLOCK_UNLOCKED2.bits : Row := ⟨0x60408, 0, 1, 0, 1, 0, 16, .ro, 0, [.c], [], []⟩
/-! THM_DLOCK_DISTRICT (R81, 03_fabric_cells_and_routing.md) -/
def THM_DLOCK_DISTRICT.bias_code : Row := ⟨0x60800, 4, 0x50, 0, 1, 0, 6, .ro, 0x20, [.c], [], []⟩
def THM_DLOCK_DISTRICT.freq_error : Row := ⟨0x60800, 4, 0x50, 0, 1, 8, 8, .ro, 0, [.c], [], []⟩
def THM_DLOCK_DISTRICT.locked : Row := ⟨0x60800, 4, 0x50, 0, 1, 16, 1, .ro, 0, [.c], [], []⟩
def THM_DLOCK_DISTRICT.at_limit : Row := ⟨0x60800, 4, 0x50, 0, 1, 17, 1, .ro, 0, [.c], [], []⟩
def THM_DLOCK_DISTRICT.slow_unlock_seen : Row := ⟨0x60800, 4, 0x50, 0, 1, 18, 1, .w1c, 0, [.c], [], []⟩
def THM_DLOCK_DISTRICT.fast_unlock_seen : Row := ⟨0x60800, 4, 0x50, 0, 1, 19, 1, .w1c, 0, [.c], [], []⟩
def THM_DLOCK_DISTRICT.unlock_events : Row := ⟨0x60800, 4, 0x50, 0, 1, 20, 8, .ro, 0, [.c], [], []⟩
/-! WKT_WAKE_TIMER (R490, 19_wicket_and_thermal.md) -/
def WKT_WAKE_TIMER.seconds : Row := ⟨0x70000, 0, 1, 0, 1, 0, 32, .rw, 0, [.c], [], []⟩
/-! WKT_STATUS (R490, 19_wicket_and_thermal.md) -/
def WKT_STATUS.restarts : Row := ⟨0x70004, 0, 1, 0, 1, 0, 8, .rc, 0, [.c], [], []⟩
def WKT_STATUS.history : Row := ⟨0x70004, 0, 1, 0, 1, 8, 7, .ro, 0, [.c], [], []⟩
/-! WKT_ADC (R490, 19_wicket_and_thermal.md) -/
def WKT_ADC.code : Row := ⟨0x70100, 4, 0x30, 0, 1, 0, 12, .ro, 0, [.c], [], []⟩
def WKT_ADC.alarm : Row := ⟨0x70100, 4, 0x30, 0, 1, 12, 1, .w1c, 0, [.c], [], []⟩
/-! PIN_CFG (R504, 20_pins.md) -/
def PIN_CFG.drive : Row := ⟨0x80000, 4, 0x40, 0, 1, 0, 2, .rw, 1, [.c], [], []⟩
def PIN_CFG.slew_slow : Row := ⟨0x80000, 4, 0x40, 0, 1, 2, 1, .rw, 0, [.c], [], []⟩
def PIN_CFG.pull : Row := ⟨0x80000, 4, 0x40, 0, 1, 3, 2, .rw, 0, [.c], [], []⟩
def PIN_CFG.open_drain : Row := ⟨0x80000, 4, 0x40, 0, 1, 5, 1, .rw, 0, [.c], [], []⟩
def PIN_CFG.schmitt : Row := ⟨0x80000, 4, 0x40, 0, 1, 6, 1, .rw, 1, [.c], [], []⟩
def PIN_CFG.debounce_us : Row := ⟨0x80000, 4, 0x40, 0, 1, 8, 8, .rw, 0, [.c], [], []⟩
def PIN_CFG.sleep : Row := ⟨0x80000, 4, 0x40, 0, 1, 16, 2, .rw, 3, [.c], [], []⟩
/-! PIN_FABRIC_EN (R504, 20_pins.md) -/
def PIN_FABRIC_EN.fabric : Row := ⟨0x80100, 4, 2, 0, 1, 0, 32, .rw, 0, [.c], [], []⟩
/-! PIN_PERIPH_EN (R504, 20_pins.md) -/
def PIN_PERIPH_EN.fault_n : Row := ⟨0x80108, 0, 1, 0, 1, 0, 1, .rw, 0, [.c], [], []⟩
def PIN_PERIPH_EN.therm_warn_n : Row := ⟨0x80108, 0, 1, 0, 1, 1, 1, .rw, 0, [.c], [], []⟩
def PIN_PERIPH_EN.clkout : Row := ⟨0x80108, 0, 1, 0, 1, 2, 4, .rw, 0, [.c], [], []⟩
/-! PIN_OUT (R504, 20_pins.md) -/
def PIN_OUT.out : Row := ⟨0x80110, 4, 2, 0, 1, 0, 32, .rw, 0, [.c], [], []⟩
/-! PIN_OE (R504, 20_pins.md) -/
def PIN_OE.oe : Row := ⟨0x80118, 4, 2, 0, 1, 0, 32, .rw, 0, [.c], [], []⟩
/-! PIN_IN (R504, 20_pins.md) -/
def PIN_IN.level : Row := ⟨0x80120, 4, 2, 0, 1, 0, 32, .ro, 0, [.c], [], []⟩
/-! PIN_OWNER (R504, 20_pins.md) -/
def PIN_OWNER.owner : Row := ⟨0x80130, 4, 4, 0, 1, 0, 32, .ro, 0, [.c], [], []⟩
/-! PIN_CLKOUT (R504, 20_pins.md) -/
def PIN_CLKOUT.source : Row := ⟨0x80140, 4, 4, 0, 1, 0, 6, .rw, 0, [.c], [], []⟩
def PIN_CLKOUT.divider : Row := ⟨0x80140, 4, 4, 0, 1, 8, 8, .rw, 1, [.c], [], []⟩
/-! PIN_STATUS (R504, 20_pins.md) -/
def PIN_STATUS.bank_1v8 : Row := ⟨0x80180, 0, 1, 0, 1, 0, 4, .ro, 0, [.c], [], []⟩
def PIN_STATUS.bank_fault : Row := ⟨0x80180, 0, 1, 0, 1, 4, 4, .ro, 0, [.c], [], []⟩
def PIN_STATUS.clkout_refused : Row := ⟨0x80180, 0, 1, 0, 1, 8, 1, .w1c, 0, [.c], [], []⟩
/-! PIN_MATCH_MASK (R504, 20_pins.md) -/
def PIN_MATCH_MASK.mask : Row := ⟨0x80200, 0x10, 8, 0, 1, 0, 16, .rw, 0, [.c], [], []⟩
def PIN_MATCH_MASK.bank : Row := ⟨0x80200, 0x10, 8, 0, 1, 16, 2, .rw, 0, [.c], [], []⟩
/-! PIN_MATCH_VAL (R504, 20_pins.md) -/
def PIN_MATCH_VAL.value : Row := ⟨0x80204, 0x10, 8, 0, 1, 0, 16, .rw, 0, [.c], [], []⟩
/-! PIN_MATCH_CFG (R504, 20_pins.md) -/
def PIN_MATCH_CFG.enable : Row := ⟨0x80208, 0x10, 8, 0, 1, 0, 1, .rw, 0, [.c], [], []⟩
def PIN_MATCH_CFG.mode : Row := ⟨0x80208, 0x10, 8, 0, 1, 1, 1, .rw, 0, [.c], [], []⟩
def PIN_MATCH_CFG.irq : Row := ⟨0x80208, 0x10, 8, 0, 1, 2, 1, .rw, 0, [.c], [], []⟩
def PIN_MATCH_CFG.wake : Row := ⟨0x80208, 0x10, 8, 0, 1, 3, 1, .rw, 0, [.c], [], []⟩
def PIN_MATCH_CFG.vector : Row := ⟨0x80208, 0x10, 8, 0, 1, 4, 5, .rw, 0, [.c], [], []⟩
/-! PIN_MATCH_STATUS (R504, 20_pins.md) -/
def PIN_MATCH_STATUS.match : Row := ⟨0x8020C, 0x10, 8, 0, 1, 0, 1, .ro, 0, [.c], [], []⟩
def PIN_MATCH_STATUS.event : Row := ⟨0x8020C, 0x10, 8, 0, 1, 1, 1, .w1c, 0, [.c], [], []⟩
def PIN_MATCH_STATUS.cfg_error : Row := ⟨0x8020C, 0x10, 8, 0, 1, 2, 1, .w1c, 0, [.c], [], []⟩
def PIN_MATCH_STATUS.count : Row := ⟨0x8020C, 0x10, 8, 0, 1, 16, 16, .rc, 0, [.c], [], []⟩
/-! NOC_STAT_CTRL (R221, 08_network_on_chip.md) -/
def NOC_STAT_CTRL.freeze : Row := ⟨0x90000, 0, 1, 0, 1, 0, 1, .rw, 0, [.c, .w, .d], [.d0], []⟩
def NOC_STAT_CTRL.clear : Row := ⟨0x90000, 0, 1, 0, 1, 1, 1, .wo, 0, [], [], []⟩
/-! NOC_DENY_PA_LO (R222, 08_network_on_chip.md) -/
def NOC_DENY_PA_LO.pa_lo : Row := ⟨0x90010, 0, 1, 0, 1, 0, 32, .ro, 0, [.c, .w, .d], [.d0], []⟩
/-! NOC_DENY_PA_HI (R222, 08_network_on_chip.md) -/
def NOC_DENY_PA_HI.pa_hi : Row := ⟨0x90014, 0, 1, 0, 1, 0, 24, .ro, 0, [.c, .w, .d], [.d0], []⟩
def NOC_DENY_PA_HI.initiator : Row := ⟨0x90014, 0, 1, 0, 1, 24, 8, .ro, 0, [.c, .w, .d], [.d0], []⟩
/-! NOC_ERR_COUNTS (R221, 08_network_on_chip.md) -/
def NOC_ERR_COUNTS.corrected : Row := ⟨0x90020, 0, 1, 0, 1, 0, 16, .rc, 0, [.c, .w, .d], [.d0], []⟩
def NOC_ERR_COUNTS.uncorrectable : Row := ⟨0x90020, 0, 1, 0, 1, 16, 8, .rc, 0, [.c, .w, .d], [.d0], []⟩
def NOC_ERR_COUNTS.e2e_fail : Row := ⟨0x90020, 0, 1, 0, 1, 24, 8, .rc, 0, [.c, .w, .d], [.d0], []⟩
/-! NOC_INIT_CFG (R222, 08_network_on_chip.md) -/
def NOC_INIT_CFG.cls : Row := ⟨0x91000, 0x80, 0xA4, 0, 1, 0, 2, .rw, 0, [.c, .w, .d], [.d0], nocClassDefaults⟩
def NOC_INIT_CFG.weight : Row := ⟨0x91000, 0x80, 0xA4, 0, 1, 4, 4, .rw, 0, [.c, .w, .d], [.d0], []⟩
/-! NOC_BYTES_LO (R222, 08_network_on_chip.md) -/
def NOC_BYTES_LO.bytes_lo : Row := ⟨0x91008, 0x80, 0xA4, 0, 1, 0, 32, .ro, 0, [.c, .w, .d], [.d0], []⟩
/-! NOC_BYTES_HI (R222, 08_network_on_chip.md) -/
def NOC_BYTES_HI.bytes_hi : Row := ⟨0x9100C, 0x80, 0xA4, 0, 1, 0, 32, .ro, 0, [.c, .w, .d], [.d0], []⟩
/-! NOC_HIST (R222, 08_network_on_chip.md) -/
def NOC_HIST.count : Row := ⟨0x91040, 0x80, 0xA4, 4, 0x10, 0, 32, .ro, 0, [.c, .w, .d], [.d0], []⟩
/-! DRC_MAP (R247, 09_dram_controller.md) -/
def DRC_MAP.interleaved : Row := ⟨0xA0000, 0, 1, 0, 1, 0, 1, .ro, 0, [.c, .w], [], []⟩
def DRC_MAP.capacity_mismatch : Row := ⟨0xA0000, 0, 1, 0, 1, 1, 1, .ro, 0, [.c, .w], [], []⟩
def DRC_MAP.strap_no_dram : Row := ⟨0xA0000, 0, 1, 0, 1, 2, 1, .ro, 0, [.c], [], []⟩
def DRC_MAP.rate : Row := ⟨0xA0000, 0, 1, 0, 1, 4, 2, .ro, 0, [.c], [], []⟩
def DRC_MAP.capacity_gib : Row := ⟨0xA0000, 0, 1, 0, 1, 8, 7, .ro, 0, [.c, .w], [], []⟩
/-! DRC_STATUS (R248, 09_dram_controller.md) -/
def DRC_STATUS.state : Row := ⟨0xA1000, 0x1000, 2, 0, 1, 0, 3, .ro, 0, [.c, .w], [], []⟩
def DRC_STATUS.unsupported_config : Row := ⟨0xA1000, 0x1000, 2, 0, 1, 3, 1, .ro, 0, [.c, .w], [], []⟩
def DRC_STATUS.width_x8 : Row := ⟨0xA1000, 0x1000, 2, 0, 1, 4, 1, .ro, 0, [.c, .w], [], []⟩
def DRC_STATUS.two_ranks : Row := ⟨0xA1000, 0x1000, 2, 0, 1, 5, 1, .ro, 0, [.c, .w], [], []⟩
def DRC_STATUS.density_32gb : Row := ⟨0xA1000, 0x1000, 2, 0, 1, 6, 1, .ro, 0, [.c, .w], [], []⟩
def DRC_STATUS.dram_hot : Row := ⟨0xA1000, 0x1000, 2, 0, 1, 7, 1, .w1c, 0, [.c, .w], [], []⟩
def DRC_STATUS.band : Row := ⟨0xA1000, 0x1000, 2, 0, 1, 8, 2, .ro, 1, [.c, .w], [], []⟩
def DRC_STATUS.retraining : Row := ⟨0xA1000, 0x1000, 2, 0, 1, 10, 1, .ro, 0, [.c, .w, .d], [.d0], []⟩
def DRC_STATUS.margin_low : Row := ⟨0xA1000, 0x1000, 2, 0, 1, 12, 20, .ro, 0, [.c, .w], [], []⟩
/-! DRC_CTRL (R248, 09_dram_controller.md) -/
def DRC_CTRL.ppr_auto : Row := ⟨0xA1004, 0x1000, 2, 0, 1, 0, 1, .rw, 1, [.c], [], []⟩
def DRC_CTRL.retrain : Row := ⟨0xA1004, 0x1000, 2, 0, 1, 1, 1, .wo, 0, [], [], []⟩
def DRC_CTRL.ppr_refused : Row := ⟨0xA1004, 0x1000, 2, 0, 1, 2, 1, .w1c, 0, [.c, .w], [], []⟩
def DRC_CTRL.ppr_entry : Row := ⟨0xA1004, 0x1000, 2, 0, 1, 4, 5, .rw, 0, [.c, .w], [], []⟩
def DRC_CTRL.ppr_now : Row := ⟨0xA1004, 0x1000, 2, 0, 1, 9, 1, .wo, 0, [], [], []⟩
/-! DRC_ERR_COUNTS (R248, 09_dram_controller.md) -/
def DRC_ERR_COUNTS.corrected : Row := ⟨0xA1010, 0x1000, 2, 0, 1, 0, 16, .rc, 0, [.c], [], []⟩
def DRC_ERR_COUNTS.uncorrectable : Row := ⟨0xA1010, 0x1000, 2, 0, 1, 16, 8, .rc, 0, [.c], [], []⟩
def DRC_ERR_COUNTS.alerts : Row := ⟨0xA1010, 0x1000, 2, 0, 1, 24, 4, .rc, 0, [.c], [], []⟩
def DRC_ERR_COUNTS.untracked : Row := ⟨0xA1010, 0x1000, 2, 0, 1, 28, 3, .rc, 0, [.c], [], []⟩
/-! DRC_PPR (R248, 09_dram_controller.md) -/
def DRC_PPR.used : Row := ⟨0xA1020, 0x1000, 2, 0, 1, 0, 32, .ro, 0, [.c], [], []⟩
/-! DRC_PPR_STAT (R248, 09_dram_controller.md) -/
def DRC_PPR_STAT.exhausted : Row := ⟨0xA1024, 0x1000, 2, 0, 1, 0, 1, .w1c, 0, [.c], [], []⟩
/-! DRC_TRAIN (R248, 09_dram_controller.md) -/
def DRC_TRAIN.rd_delay : Row := ⟨0xA1100, 0x1000, 2, 4, 0x14, 0, 7, .ro, 0, [.c, .w], [], []⟩
def DRC_TRAIN.wr_delay : Row := ⟨0xA1100, 0x1000, 2, 4, 0x14, 8, 7, .ro, 0, [.c, .w], [], []⟩
def DRC_TRAIN.rd_eye : Row := ⟨0xA1100, 0x1000, 2, 4, 0x14, 16, 7, .ro, 0, [.c, .w], [], []⟩
def DRC_TRAIN.wr_eye : Row := ⟨0xA1100, 0x1000, 2, 4, 0x14, 24, 7, .ro, 0, [.c, .w], [], []⟩
/-! DRC_ELOG_LO (R248, 09_dram_controller.md) -/
def DRC_ELOG_LO.row : Row := ⟨0xA1400, 0x1000, 2, 8, 0x20, 0, 17, .ro, 0, [.c], [], []⟩
def DRC_ELOG_LO.bank_group : Row := ⟨0xA1400, 0x1000, 2, 8, 0x20, 17, 3, .ro, 0, [.c], [], []⟩
def DRC_ELOG_LO.bank : Row := ⟨0xA1400, 0x1000, 2, 8, 0x20, 20, 2, .ro, 0, [.c], [], []⟩
def DRC_ELOG_LO.rank : Row := ⟨0xA1400, 0x1000, 2, 8, 0x20, 22, 1, .ro, 0, [.c], [], []⟩
def DRC_ELOG_LO.subchannel : Row := ⟨0xA1400, 0x1000, 2, 8, 0x20, 23, 1, .ro, 0, [.c], [], []⟩
def DRC_ELOG_LO.in_use : Row := ⟨0xA1400, 0x1000, 2, 8, 0x20, 24, 1, .ro, 0, [.c], [], []⟩
def DRC_ELOG_LO.uncorrectable : Row := ⟨0xA1400, 0x1000, 2, 8, 0x20, 25, 1, .ro, 0, [.c], [], []⟩
def DRC_ELOG_LO.repaired : Row := ⟨0xA1400, 0x1000, 2, 8, 0x20, 26, 1, .ro, 0, [.c], [], []⟩
def DRC_ELOG_LO.window_hits : Row := ⟨0xA1400, 0x1000, 2, 8, 0x20, 27, 5, .ro, 0, [.c], [], []⟩
/-! DRC_ELOG_HI (R248, 09_dram_controller.md) -/
def DRC_ELOG_HI.symbol : Row := ⟨0xA1404, 0x1000, 2, 8, 0x20, 0, 6, .ro, 0, [.c], [], []⟩
def DRC_ELOG_HI.total_hits : Row := ⟨0xA1404, 0x1000, 2, 8, 0x20, 8, 8, .ro, 0, [.c], [], []⟩
def DRC_ELOG_HI.window_start : Row := ⟨0xA1404, 0x1000, 2, 8, 0x20, 16, 16, .ro, 0, [.c], [], []⟩
/-! ENC_CTRL (R272, 10_inline_encryption.md) -/
def ENC_CTRL.lock : Row := ⟨0xB0000, 0, 1, 0, 1, 0, 1, .w1s, 0, [.c, .w], [], []⟩
def ENC_CTRL.sweep_rate : Row := ⟨0xB0000, 0, 1, 0, 1, 8, 6, .rw, 8, [.c, .w], [], []⟩
/-! ENC_STATUS (R272, 10_inline_encryption.md) -/
def ENC_STATUS.refused : Row := ⟨0xB0004, 0, 1, 0, 1, 0, 1, .w1c, 0, [.c, .w], [], []⟩
def ENC_STATUS.sweep_busy : Row := ⟨0xB0004, 0, 1, 0, 1, 1, 1, .ro, 0, [.c, .w], [], []⟩
def ENC_STATUS.sweep_region : Row := ⟨0xB0004, 0, 1, 0, 1, 2, 5, .ro, 0, [.c, .w], [], []⟩
def ENC_STATUS.sweeps_queued : Row := ⟨0xB0004, 0, 1, 0, 1, 7, 6, .ro, 0, [.c, .w], [], []⟩
/-! ENC_TAG_BASE (R272, 10_inline_encryption.md) -/
def ENC_TAG_BASE.base : Row := ⟨0xB0008, 0, 1, 0, 1, 0, 16, .rw, 0, [.c, .w], [], []⟩
/-! ENC_ERR_COUNTS (R272, 10_inline_encryption.md) -/
def ENC_ERR_COUNTS.integrity_fail : Row := ⟨0xB0010, 0, 1, 0, 1, 0, 16, .rc, 0, [.c, .w], [], []⟩
def ENC_ERR_COUNTS.rights_denied : Row := ⟨0xB0010, 0, 1, 0, 1, 16, 8, .rc, 0, [.c, .w], [], []⟩
def ENC_ERR_COUNTS.held_writes : Row := ⟨0xB0010, 0, 1, 0, 1, 24, 8, .rc, 0, [.c, .w], [], []⟩
/-! ENC_FAIL_PA_LO (R272, 10_inline_encryption.md) -/
def ENC_FAIL_PA_LO.kind : Row := ⟨0xB0018, 0, 1, 0, 1, 0, 1, .ro, 0, [.c, .w], [], []⟩
def ENC_FAIL_PA_LO.pa_lo : Row := ⟨0xB0018, 0, 1, 0, 1, 6, 26, .ro, 0, [.c, .w], [], []⟩
/-! ENC_FAIL_PA_HI (R272, 10_inline_encryption.md) -/
def ENC_FAIL_PA_HI.pa_hi : Row := ⟨0xB001C, 0, 1, 0, 1, 0, 24, .ro, 0, [.c, .w], [], []⟩
def ENC_FAIL_PA_HI.initiator : Row := ⟨0xB001C, 0, 1, 0, 1, 24, 8, .ro, 0, [.c, .w], [], []⟩
/-! ENC_KEY_STATE (R272, 10_inline_encryption.md) -/
def ENC_KEY_STATE.state : Row := ⟨0xB0040, 4, 4, 0, 1, 0, 32, .ro, 0, [.c, .w], [], []⟩
/-! ENC_RIGHTS (R272, 10_inline_encryption.md) -/
def ENC_RIGHTS.rights : Row := ⟨0xB0100, 4, 0x40, 0, 1, 0, 16, .rw, 0, [.c, .w], [], [(0xB0100, 0xAAAA), (0xB01FC, 0x8000)]⟩
/-! ENC_REGION_BASE (R272, 10_inline_encryption.md) -/
def ENC_REGION_BASE.base : Row := ⟨0xB1000, 0x20, 0x20, 0, 1, 0, 24, .rw, 0, [.c, .w], [], []⟩
/-! ENC_REGION_LIMIT (R272, 10_inline_encryption.md) -/
def ENC_REGION_LIMIT.limit : Row := ⟨0xB1004, 0x20, 0x20, 0, 1, 0, 24, .rw, 0, [.c, .w], [], []⟩
/-! ENC_REGION_CFG (R272, 10_inline_encryption.md) -/
def ENC_REGION_CFG.enable : Row := ⟨0xB1008, 0x20, 0x20, 0, 1, 0, 1, .rw, 0, [.c, .w], [], []⟩
def ENC_REGION_CFG.mode : Row := ⟨0xB1008, 0x20, 0x20, 0, 1, 1, 2, .rw, 0, [.c, .w], [], []⟩
def ENC_REGION_CFG.key_id : Row := ⟨0xB1008, 0x20, 0x20, 0, 1, 8, 6, .rw, 0, [.c, .w], [], []⟩
/-! ENC_REGION_META (R272, 10_inline_encryption.md) -/
def ENC_REGION_META.meta : Row := ⟨0xB100C, 0x20, 0x20, 0, 1, 0, 24, .rw, 0, [.c, .w], [], []⟩
/-! ENC_REGION_STATUS (R272, 10_inline_encryption.md) -/
def ENC_REGION_STATUS.state : Row := ⟨0xB1010, 0x20, 0x20, 0, 1, 0, 2, .ro, 0, [.c, .w], [], []⟩
def ENC_REGION_STATUS.error : Row := ⟨0xB1010, 0x20, 0x20, 0, 1, 2, 3, .ro, 0, [.c, .w], [], []⟩
def ENC_REGION_STATUS.sweep_queued : Row := ⟨0xB1010, 0x20, 0x20, 0, 1, 5, 1, .ro, 0, [.c, .w], [], []⟩
def ENC_REGION_STATUS.prev_key_id : Row := ⟨0xB1010, 0x20, 0x20, 0, 1, 6, 6, .ro, 0, [.c, .w], [], []⟩
/-! ENC_REGION_EPOCH (R272, 10_inline_encryption.md) -/
def ENC_REGION_EPOCH.epoch : Row := ⟨0xB1014, 0x20, 0x20, 0, 1, 0, 32, .ro, 0, [.c, .w], [], []⟩
/-! ENC_REGION_PROGRESS (R272, 10_inline_encryption.md) -/
def ENC_REGION_PROGRESS.line : Row := ⟨0xB1018, 0x20, 0x20, 0, 1, 0, 30, .ro, 0, [.c, .w], [], []⟩
/-! MEM_STATUS (R201, 07_memory_layer.md) -/
def MEM_STATUS.reserve_base : Row := ⟨0xC0000, 0, 1, 0, 1, 0, 12, .ro, 0, [.c, .w], [], []⟩
def MEM_STATUS.reserve_active : Row := ⟨0xC0000, 0, 1, 0, 1, 12, 1, .ro, 0, [.c, .w], [], []⟩
def MEM_STATUS.inval_busy : Row := ⟨0xC0000, 0, 1, 0, 1, 13, 1, .ro, 0, [.c, .w, .d], [.d1], []⟩
def MEM_STATUS.inval_refused : Row := ⟨0xC0000, 0, 1, 0, 1, 14, 1, .w1c, 0, [.c, .w], [], []⟩
def MEM_STATUS.retire_busy : Row := ⟨0xC0000, 0, 1, 0, 1, 15, 1, .ro, 0, [.c, .w, .d], [.d1], []⟩
def MEM_STATUS.spares_used : Row := ⟨0xC0000, 0, 1, 0, 1, 16, 7, .ro, 0, [.c], [], []⟩
/-! MEM_INVAL (R201, 07_memory_layer.md) -/
def MEM_INVAL.block : Row := ⟨0xC0010, 0, 1, 0, 1, 0, 12, .wo, 0, [], [], []⟩
def MEM_INVAL.all : Row := ⟨0xC0010, 0, 1, 0, 1, 12, 1, .wo, 0, [], [], []⟩
/-! MEM_QERR (R201, 07_memory_layer.md) -/
def MEM_QERR.corrected : Row := ⟨0xC0100, 4, 4, 0, 1, 0, 16, .rc, 0, [.c, .w, .d], [.d1], []⟩
def MEM_QERR.uncorrectable : Row := ⟨0xC0100, 4, 4, 0, 1, 16, 8, .rc, 0, [.c, .w, .d], [.d1], []⟩
def MEM_QERR.untracked : Row := ⟨0xC0100, 4, 4, 0, 1, 24, 7, .rc, 0, [.c, .w, .d], [.d1], []⟩
/-! MEM_SPARE_MAP (R201, 07_memory_layer.md) -/
def MEM_SPARE_MAP.spare0 : Row := ⟨0xC0200, 4, 0x10, 0, 1, 0, 8, .ro, 0, [.c], [], []⟩
def MEM_SPARE_MAP.spare1 : Row := ⟨0xC0200, 4, 0x10, 0, 1, 8, 8, .ro, 0, [.c], [], []⟩
def MEM_SPARE_MAP.spare2 : Row := ⟨0xC0200, 4, 0x10, 0, 1, 16, 8, .ro, 0, [.c], [], []⟩
def MEM_SPARE_MAP.spare3 : Row := ⟨0xC0200, 4, 0x10, 0, 1, 24, 8, .ro, 0, [.c], [], []⟩
/-! MEM_SPARE_STAT (R201, 07_memory_layer.md) -/
def MEM_SPARE_STAT.used : Row := ⟨0xC0240, 4, 0x10, 0, 1, 0, 4, .ro, 0, [.c], [], []⟩
def MEM_SPARE_STAT.exhausted : Row := ⟨0xC0240, 4, 0x10, 0, 1, 4, 1, .w1c, 0, [.c], [], []⟩
def MEM_SPARE_STAT.retired : Row := ⟨0xC0240, 4, 0x10, 0, 1, 5, 4, .ro, 0, [.c], [], []⟩
/-! MEM_ELOG_LO (R201, 07_memory_layer.md) -/
def MEM_ELOG_LO.block : Row := ⟨0xC1000, 0x80, 4, 8, 0x10, 0, 12, .ro, 0, [.c, .w, .d], [.d1], []⟩
def MEM_ELOG_LO.word : Row := ⟨0xC1000, 0x80, 4, 8, 0x10, 12, 12, .ro, 0, [.c, .w, .d], [.d1], []⟩
def MEM_ELOG_LO.uncorrectable : Row := ⟨0xC1000, 0x80, 4, 8, 0x10, 24, 1, .ro, 0, [.c, .w, .d], [.d1], []⟩
def MEM_ELOG_LO.in_use : Row := ⟨0xC1000, 0x80, 4, 8, 0x10, 25, 1, .ro, 0, [.c, .w, .d], [.d1], []⟩
def MEM_ELOG_LO.window_hits : Row := ⟨0xC1000, 0x80, 4, 8, 0x10, 26, 3, .ro, 0, [.c, .w, .d], [.d1], []⟩
/-! MEM_ELOG_HI (R201, 07_memory_layer.md) -/
def MEM_ELOG_HI.bit_pos : Row := ⟨0xC1004, 0x80, 4, 8, 0x10, 0, 7, .ro, 0, [.c, .w, .d], [.d1], []⟩
def MEM_ELOG_HI.total_hits : Row := ⟨0xC1004, 0x80, 4, 8, 0x10, 8, 8, .ro, 0, [.c, .w, .d], [.d1], []⟩
def MEM_ELOG_HI.window_start : Row := ⟨0xC1004, 0x80, 4, 8, 0x10, 16, 16, .ro, 0, [.c, .w, .d], [.d1], []⟩
/-! CFG_LATCH_STATUS (R118, 04_contexts.md) -/
def CFG_LATCH_STATUS.active_ctx : Row := ⟨0xD0000, 0, 1, 0, 1, 0, 3, .ro, 0, [.c, .w, .d], [.d2], []⟩
def CFG_LATCH_STATUS.active_valid : Row := ⟨0xD0000, 0, 1, 0, 1, 3, 1, .ro, 0, [.c, .w, .d], [.d2], []⟩
def CFG_LATCH_STATUS.staged_ctx : Row := ⟨0xD0000, 0, 1, 0, 1, 4, 3, .ro, 0, [.c, .w, .d], [.d2], []⟩
def CFG_LATCH_STATUS.staged_state : Row := ⟨0xD0000, 0, 1, 0, 1, 8, 3, .ro, 0, [.c, .w, .d], [.d2], []⟩
def CFG_LATCH_STATUS.repair_wait : Row := ⟨0xD0000, 0, 1, 0, 1, 11, 1, .ro, 0, [.c, .w, .d], [.d2], []⟩
def CFG_LATCH_STATUS.swap_armed : Row := ⟨0xD0000, 0, 1, 0, 1, 12, 1, .ro, 0, [.c, .w, .d], [.d2], []⟩
def CFG_LATCH_STATUS.frames_staged : Row := ⟨0xD0000, 0, 1, 0, 1, 16, 16, .ro, 0, [.c, .w, .d], [.d2], []⟩
/-! CFG_CTX_STATUS (R118, 04_contexts.md) -/
def CFG_CTX_STATUS.state : Row := ⟨0xD0100, 4, 8, 0, 1, 0, 2, .ro, 0, [.c, .w], [], []⟩
def CFG_CTX_STATUS.in_active : Row := ⟨0xD0100, 4, 8, 0, 1, 2, 1, .ro, 0, [.c, .w, .d], [.d2], []⟩
def CFG_CTX_STATUS.in_staged : Row := ⟨0xD0100, 4, 8, 0, 1, 3, 1, .ro, 0, [.c, .w, .d], [.d2], []⟩
def CFG_CTX_STATUS.in_schedule : Row := ⟨0xD0100, 4, 8, 0, 1, 4, 1, .ro, 0, [.c, .w], [], []⟩
def CFG_CTX_STATUS.writeback_pending : Row := ⟨0xD0100, 4, 8, 0, 1, 5, 1, .ro, 0, [.c, .w, .d], [.d2], []⟩
def CFG_CTX_STATUS.repairs_pending : Row := ⟨0xD0100, 4, 8, 0, 1, 8, 8, .ro, 0, [.c, .w], [], []⟩
def CFG_CTX_STATUS.dirty_max : Row := ⟨0xD0100, 4, 8, 0, 1, 16, 16, .ro, 0, [.c, .w], [], []⟩
/-! CFG_SCHED_STATUS (R118, 04_contexts.md) -/
def CFG_SCHED_STATUS.running : Row := ⟨0xD0200, 0, 1, 0, 1, 0, 1, .ro, 0, [.c, .w], [], []⟩
def CFG_SCHED_STATUS.running_bank : Row := ⟨0xD0200, 0, 1, 0, 1, 1, 1, .ro, 0, [.c, .w], [], []⟩
def CFG_SCHED_STATUS.bank_armed : Row := ⟨0xD0200, 0, 1, 0, 1, 2, 1, .ro, 0, [.c, .w], [], []⟩
def CFG_SCHED_STATUS.suspended : Row := ⟨0xD0200, 0, 1, 0, 1, 3, 1, .w1c, 0, [.c, .w], [], []⟩
def CFG_SCHED_STATUS.next_entry : Row := ⟨0xD0200, 0, 1, 0, 1, 8, 8, .ro, 0, [.c, .w], [], []⟩
/-! CFG_SWAP_COUNTS (R118, 04_contexts.md) -/
def CFG_SWAP_COUNTS.late : Row := ⟨0xD0204, 0, 1, 0, 1, 0, 16, .rc, 0, [.c, .w], [], []⟩
def CFG_SWAP_COUNTS.skipped : Row := ⟨0xD0204, 0, 1, 0, 1, 16, 16, .rc, 0, [.c, .w], [], []⟩
/-! CFG_SWAP_EVT_TAIL (R119, 04_contexts.md) -/
def CFG_SWAP_EVT_TAIL.tail : Row := ⟨0xD0300, 0, 1, 0, 1, 0, 8, .ro, 0, [.c, .w], [], []⟩
def CFG_SWAP_EVT_TAIL.overflow : Row := ⟨0xD0300, 0, 1, 0, 1, 8, 1, .w1c, 0, [.c, .w], [], []⟩
/-! CFG_SWAP_EVT_HEAD (R119, 04_contexts.md) -/
def CFG_SWAP_EVT_HEAD.head : Row := ⟨0xD0304, 0, 1, 0, 1, 0, 8, .rw, 0, [.c, .w], [], []⟩
/-! CFG_LOAD_STATUS (R316, 12_configuration_images.md) -/
def CFG_LOAD_STATUS.phase : Row := ⟨0xD0400, 0, 1, 0, 1, 0, 3, .ro, 0, [.c, .w, .d], [.d0, .d2, .d3], []⟩
def CFG_LOAD_STATUS.partial : Row := ⟨0xD0400, 0, 1, 0, 1, 3, 1, .ro, 0, [.c, .w, .d], [.d0, .d2, .d3], []⟩
def CFG_LOAD_STATUS.target : Row := ⟨0xD0400, 0, 1, 0, 1, 4, 3, .ro, 0, [.c, .w, .d], [.d0, .d2, .d3], []⟩
def CFG_LOAD_STATUS.encrypted : Row := ⟨0xD0400, 0, 1, 0, 1, 7, 1, .ro, 0, [.c, .w, .d], [.d0, .d2, .d3], []⟩
def CFG_LOAD_STATUS.last_status : Row := ⟨0xD0400, 0, 1, 0, 1, 8, 8, .ro, 0, [.c, .w], [], []⟩
/-! CFG_LOAD_POSITION (R316, 12_configuration_images.md) -/
def CFG_LOAD_POSITION.frame : Row := ⟨0xD0404, 0, 1, 0, 1, 0, 18, .ro, 0, [.c, .w, .d], [.d0, .d2, .d3], []⟩
/-! CFG_LOAD_VIOLATION (R316, 12_configuration_images.md) -/
def CFG_LOAD_VIOLATION.where : Row := ⟨0xD0408, 0, 1, 0, 1, 0, 18, .ro, 0, [.c, .w], [], []⟩
def CFG_LOAD_VIOLATION.dsp : Row := ⟨0xD0408, 0, 1, 0, 1, 18, 1, .ro, 0, [.c, .w], [], []⟩
/-! CFG_RETAIN_STATUS (R316, 12_configuration_images.md) -/
def CFG_RETAIN_STATUS.in_reserve : Row := ⟨0xD040C, 0, 1, 0, 1, 0, 1, .ro, 0, [.c, .w], [], []⟩
def CFG_RETAIN_STATUS.store_lost : Row := ⟨0xD040C, 0, 1, 0, 1, 1, 1, .ro, 0, [.c, .w], [], []⟩
def CFG_RETAIN_STATUS.free_mib : Row := ⟨0xD040C, 0, 1, 0, 1, 8, 9, .ro, 0, [.c, .w], [], []⟩
/-! CFG_CTX_IMAGE (R316, 12_configuration_images.md) -/
def CFG_CTX_IMAGE.debug_observe : Row := ⟨0xD0500, 4, 8, 0, 1, 0, 1, .ro, 0, [.c, .w], [], []⟩
def CFG_CTX_IMAGE.chain_depth : Row := ⟨0xD0500, 4, 8, 0, 1, 1, 3, .ro, 0, [.c, .w], [], []⟩
def CFG_CTX_IMAGE.retained_64k : Row := ⟨0xD0500, 4, 8, 0, 1, 8, 16, .ro, 0, [.c, .w], [], []⟩
/-! INT_STATUS (R332, 13_configuration_integrity.md) -/
def INT_STATUS.engine_a : Row := ⟨0xE0000, 0, 1, 0, 1, 0, 2, .ro, 3, [.c, .w, .d], [.d3], []⟩
def INT_STATUS.engine_b : Row := ⟨0xE0000, 0, 1, 0, 1, 2, 2, .ro, 3, [.c, .w, .d], [.d3], []⟩
def INT_STATUS.diag_degraded : Row := ⟨0xE0000, 0, 1, 0, 1, 4, 1, .ro, 0, [.c, .w, .d], [.d3], []⟩
def INT_STATUS.internal_fault : Row := ⟨0xE0000, 0, 1, 0, 1, 5, 1, .ro, 0, [.c, .w, .d], [.d0, .d3], []⟩
def INT_STATUS.sweep_overrun : Row := ⟨0xE0000, 0, 1, 0, 1, 6, 1, .w1c, 0, [.c, .w, .d], [.d3], []⟩
def INT_STATUS.repair_queue : Row := ⟨0xE0000, 0, 1, 0, 1, 8, 7, .ro, 0, [.c, .w, .d], [.d3], []⟩
def INT_STATUS.lost_frames : Row := ⟨0xE0000, 0, 1, 0, 1, 16, 16, .ro, 0, [.c, .w], [], []⟩
/-! INT_SWEEP_A (R332, 13_configuration_integrity.md) -/
def INT_SWEEP_A.sweeps : Row := ⟨0xE0010, 0, 1, 0, 1, 0, 24, .ro, 0, [.c, .w, .d], [.d3], []⟩
def INT_SWEEP_A.kat_fail : Row := ⟨0xE0010, 0, 1, 0, 1, 24, 1, .w1c, 0, [.c, .w, .d], [.d3], []⟩
def INT_SWEEP_A.report_late : Row := ⟨0xE0010, 0, 1, 0, 1, 25, 1, .w1c, 0, [.c, .w, .d], [.d3], []⟩
def INT_SWEEP_A.count_mismatch : Row := ⟨0xE0010, 0, 1, 0, 1, 26, 1, .w1c, 0, [.c, .w, .d], [.d3], []⟩
/-! INT_SWEEP_B (R332, 13_configuration_integrity.md) -/
def INT_SWEEP_B.sweeps : Row := ⟨0xE0014, 0, 1, 0, 1, 0, 24, .ro, 0, [.c, .w, .d], [.d3], []⟩
def INT_SWEEP_B.kat_fail : Row := ⟨0xE0014, 0, 1, 0, 1, 24, 1, .w1c, 0, [.c, .w, .d], [.d3], []⟩
def INT_SWEEP_B.report_late : Row := ⟨0xE0014, 0, 1, 0, 1, 25, 1, .w1c, 0, [.c, .w, .d], [.d3], []⟩
def INT_SWEEP_B.count_mismatch : Row := ⟨0xE0014, 0, 1, 0, 1, 26, 1, .w1c, 0, [.c, .w, .d], [.d3], []⟩
/-! INT_COUNTS (R332, 13_configuration_integrity.md) -/
def INT_COUNTS.plane_repairs : Row := ⟨0xE0020, 0, 1, 0, 1, 0, 12, .rc, 0, [.c, .w], [], []⟩
def INT_COUNTS.latch_repairs : Row := ⟨0xE0020, 0, 1, 0, 1, 12, 8, .rc, 0, [.c, .w], [], []⟩
def INT_COUNTS.vote_corrections : Row := ⟨0xE0020, 0, 1, 0, 1, 20, 12, .rc, 0, [.c, .w], [], []⟩
/-! INT_LAST_REPAIR (R332, 13_configuration_integrity.md) -/
def INT_LAST_REPAIR.frame : Row := ⟨0xE0024, 0, 1, 0, 1, 0, 18, .ro, 0, [.c, .w], [], []⟩
def INT_LAST_REPAIR.plane : Row := ⟨0xE0024, 0, 1, 0, 1, 18, 4, .ro, 0, [.c, .w], [], []⟩
def INT_LAST_REPAIR.latch : Row := ⟨0xE0024, 0, 1, 0, 1, 22, 1, .ro, 0, [.c, .w], [], []⟩
def INT_LAST_REPAIR.staged : Row := ⟨0xE0024, 0, 1, 0, 1, 23, 1, .ro, 0, [.c, .w], [], []⟩
def INT_LAST_REPAIR.source : Row := ⟨0xE0024, 0, 1, 0, 1, 24, 2, .ro, 0, [.c, .w], [], []⟩
/-! DSP_COL_SPARE (R153, 05_dsp_tiles.md) -/
def DSP_COL_SPARE.used : Row := ⟨0xF0100, 4, 0x10, 0, 1, 0, 4, .ro, 0, [.c], [], []⟩
def DSP_COL_SPARE.row_g0 : Row := ⟨0xF0100, 4, 0x10, 0, 1, 8, 4, .ro, 0, [.c], [], []⟩
def DSP_COL_SPARE.row_g1 : Row := ⟨0xF0100, 4, 0x10, 0, 1, 12, 4, .ro, 0, [.c], [], []⟩
def DSP_COL_SPARE.row_g2 : Row := ⟨0xF0100, 4, 0x10, 0, 1, 16, 4, .ro, 0, [.c], [], []⟩
def DSP_COL_SPARE.row_g3 : Row := ⟨0xF0100, 4, 0x10, 0, 1, 20, 4, .ro, 0, [.c], [], []⟩
def DSP_COL_SPARE.exhausted : Row := ⟨0xF0100, 4, 0x10, 0, 1, 24, 4, .w1c, 0, [.c], [], []⟩
/-! DSP_TILE_KICK (R154, 05_dsp_tiles.md) -/
def DSP_TILE_KICK.tile : Row := ⟨0xF0200, 0, 1, 0, 1, 0, 10, .wo, 0, [], [], []⟩
def DSP_TILE_KICK.all : Row := ⟨0xF0200, 0, 1, 0, 1, 10, 1, .wo, 0, [], [], []⟩
/-! DSP_TILE_STATUS (R153, 05_dsp_tiles.md) -/
def DSP_TILE_STATUS.state : Row := ⟨0xF1000, 4, 0x400, 0, 1, 0, 2, .ro, 0, [.c, .w, .d], [.d2], []⟩
def DSP_TILE_STATUS.spare : Row := ⟨0xF1000, 4, 0x400, 0, 1, 2, 1, .ro, 0, [.c], [], []⟩
def DSP_TILE_STATUS.in_block : Row := ⟨0xF1000, 4, 0x400, 0, 1, 3, 1, .ro, 0, [.c, .w, .d], [.d2], []⟩
def DSP_TILE_STATUS.ctx : Row := ⟨0xF1000, 4, 0x400, 0, 1, 4, 3, .ro, 0, [.c, .w, .d], [.d2], []⟩
def DSP_TILE_STATUS.exc_code : Row := ⟨0xF1000, 4, 0x400, 0, 1, 8, 8, .ro, 0, [.c, .w, .d], [.d2], []⟩
def DSP_TILE_STATUS.swap_entry_hc : Row := ⟨0xF1000, 4, 0x400, 0, 1, 16, 16, .ro, 0, [.c, .w, .d], [.d2], []⟩
/-! DSP_TILE_REPLAY (R153, 05_dsp_tiles.md) -/
def DSP_TILE_REPLAY.replays : Row := ⟨0xF2000, 4, 0x400, 0, 1, 0, 12, .rc, 0, [.c, .w, .d], [.d2], []⟩
def DSP_TILE_REPLAY.slack_exceeded : Row := ⟨0xF2000, 4, 0x400, 0, 1, 12, 4, .rc, 0, [.c, .w, .d], [.d2], []⟩
def DSP_TILE_REPLAY.ecc_corrected : Row := ⟨0xF2000, 4, 0x400, 0, 1, 16, 16, .rc, 0, [.c, .w, .d], [.d2], []⟩
/-! FHL_LANE_CFG (R426, 16_fronthaul_lanes.md) -/
def FHL_LANE_CFG.mode : Row := ⟨0x100000, 0x4000, 0x10, 0, 1, 0, 3, .rw, 0, [.c, .w], [], []⟩
def FHL_LANE_CFG.fec : Row := ⟨0x100000, 0x4000, 0x10, 0, 1, 3, 1, .rw, 0, [.c, .w], [], []⟩
def FHL_LANE_CFG.enable : Row := ⟨0x100000, 0x4000, 0x10, 0, 1, 4, 1, .rw, 0, [.c, .w], [], []⟩
def FHL_LANE_CFG.ei_enable : Row := ⟨0x100000, 0x4000, 0x10, 0, 1, 5, 1, .rw, 0, [.c, .w], [], []⟩
def FHL_LANE_CFG.rx_ei_tolerate : Row := ⟨0x100000, 0x4000, 0x10, 0, 1, 6, 1, .rw, 0, [.c, .w], [], []⟩
def FHL_LANE_CFG.peak_manual : Row := ⟨0x100000, 0x4000, 0x10, 0, 1, 7, 1, .rw, 0, [.c, .w], [], []⟩
def FHL_LANE_CFG.peak_code : Row := ⟨0x100000, 0x4000, 0x10, 0, 1, 8, 4, .rw, 0, [.c, .w], [], []⟩
def FHL_LANE_CFG.tx_preset : Row := ⟨0x100000, 0x4000, 0x10, 0, 1, 12, 3, .rw, 3, [.c, .w], [], []⟩
def FHL_LANE_CFG.max_frame : Row := ⟨0x100000, 0x4000, 0x10, 0, 1, 16, 14, .rw, 0x2580, [.c, .w], [], []⟩
/-! FHL_LANE_CFG2 (R426, 16_fronthaul_lanes.md) -/
def FHL_LANE_CFG2.tx_start_bytes : Row := ⟨0x100004, 0x4000, 0x10, 0, 1, 0, 12, .rw, 0x100, [.c, .w], [], []⟩
def FHL_LANE_CFG2.ei_entry : Row := ⟨0x100004, 0x4000, 0x10, 0, 1, 16, 10, .rw, 0x64, [.c, .w], [], []⟩
/-! FHL_LANE_STATUS (R426, 16_fronthaul_lanes.md) -/
def FHL_LANE_STATUS.state : Row := ⟨0x100008, 0x4000, 0x10, 0, 1, 0, 3, .ro, 0, [.c, .w], [], []⟩
def FHL_LANE_STATUS.in_ei : Row := ⟨0x100008, 0x4000, 0x10, 0, 1, 3, 1, .ro, 0, [.c, .w, .d], [.d0], []⟩
def FHL_LANE_STATUS.peak_in_use : Row := ⟨0x100008, 0x4000, 0x10, 0, 1, 4, 4, .ro, 0, [.c, .w, .d], [.d0], []⟩
def FHL_LANE_STATUS.mode_in_use : Row := ⟨0x100008, 0x4000, 0x10, 0, 1, 8, 3, .ro, 0, [.c, .w, .d], [.d0], []⟩
def FHL_LANE_STATUS.on_odd_lane : Row := ⟨0x100008, 0x4000, 0x10, 0, 1, 11, 1, .ro, 0, [.c, .w], [], []⟩
def FHL_LANE_STATUS.cfg_error : Row := ⟨0x100008, 0x4000, 0x10, 0, 1, 12, 1, .w1c, 0, [.c, .w], [], []⟩
def FHL_LANE_STATUS.refused : Row := ⟨0x100008, 0x4000, 0x10, 0, 1, 13, 1, .w1c, 0, [.c, .w], [], []⟩
def FHL_LANE_STATUS.egress_muted : Row := ⟨0x100008, 0x4000, 0x10, 0, 1, 14, 1, .ro, 1, [.c, .w], [], []⟩
def FHL_LANE_STATUS.ts_settled : Row := ⟨0x100008, 0x4000, 0x10, 0, 1, 15, 1, .ro, 0, [.c, .w, .d], [.d0], []⟩
def FHL_LANE_STATUS.rclk_valid : Row := ⟨0x100008, 0x4000, 0x10, 0, 1, 16, 1, .ro, 0, [.c, .w, .d], [.d0], []⟩
def FHL_LANE_STATUS.scan_busy : Row := ⟨0x100008, 0x4000, 0x10, 0, 1, 17, 1, .ro, 0, [.c, .w, .d], [.d0], []⟩
/-! FHL_RX_COUNTS (R426, 16_fronthaul_lanes.md) -/
def FHL_RX_COUNTS.rx_err : Row := ⟨0x100010, 0x4000, 0x10, 0, 1, 0, 16, .rc, 0, [.c, .w, .d], [.d0], []⟩
def FHL_RX_COUNTS.rx_overflow : Row := ⟨0x100010, 0x4000, 0x10, 0, 1, 16, 8, .rc, 0, [.c, .w, .d], [.d0], []⟩
def FHL_RX_COUNTS.pause_discarded : Row := ⟨0x100010, 0x4000, 0x10, 0, 1, 24, 8, .rc, 0, [.c, .w, .d], [.d0], []⟩
/-! FHL_TX_COUNTS (R426, 16_fronthaul_lanes.md) -/
def FHL_TX_COUNTS.tx_discarded : Row := ⟨0x100014, 0x4000, 0x10, 0, 1, 0, 16, .rc, 0, [.c, .w, .d], [.d0], []⟩
def FHL_TX_COUNTS.underrun : Row := ⟨0x100014, 0x4000, 0x10, 0, 1, 16, 8, .rc, 0, [.c, .w, .d], [.d0], []⟩
def FHL_TX_COUNTS.link_down : Row := ⟨0x100014, 0x4000, 0x10, 0, 1, 24, 8, .rc, 0, [.c, .w, .d], [.d0], []⟩
/-! FHL_FEC_COUNTS (R426, 16_fronthaul_lanes.md) -/
def FHL_FEC_COUNTS.corrected : Row := ⟨0x100018, 0x4000, 0x10, 0, 1, 0, 16, .rc, 0, [.c, .w, .d], [.d0], []⟩
def FHL_FEC_COUNTS.uncorrectable : Row := ⟨0x100018, 0x4000, 0x10, 0, 1, 16, 16, .rc, 0, [.c, .w, .d], [.d0], []⟩
/-! FHL_TS_ADJ_RX (R426, 16_fronthaul_lanes.md) -/
def FHL_TS_ADJ_RX.adj : Row := ⟨0x100020, 0x4000, 0x10, 0, 1, 0, 32, .rw, 0, [.c, .w], [], []⟩
/-! FHL_TS_ADJ_TX (R426, 16_fronthaul_lanes.md) -/
def FHL_TS_ADJ_TX.adj : Row := ⟨0x100024, 0x4000, 0x10, 0, 1, 0, 32, .rw, 0, [.c, .w], [], []⟩
/-! FHL_CLS_DEFAULT (R426, 16_fronthaul_lanes.md) -/
def FHL_CLS_DEFAULT.action : Row := ⟨0x100030, 0x4000, 0x10, 0, 1, 0, 2, .rw, 0, [.c, .w], [], []⟩
/-! FHL_SP_RX_BASE_LO (R427, 16_fronthaul_lanes.md) -/
def FHL_SP_RX_BASE_LO.base_lo : Row := ⟨0x100040, 0x4000, 0x10, 0, 1, 11, 21, .rw, 0, [.c, .w], [], []⟩
/-! FHL_SP_RX_BASE_HI (R427, 16_fronthaul_lanes.md) -/
def FHL_SP_RX_BASE_HI.base_hi : Row := ⟨0x100044, 0x4000, 0x10, 0, 1, 0, 24, .rw, 0, [.c, .w], [], []⟩
/-! FHL_SP_RX_CFG (R427, 16_fronthaul_lanes.md) -/
def FHL_SP_RX_CFG.size_log2 : Row := ⟨0x100048, 0x4000, 0x10, 0, 1, 0, 4, .rw, 0, [.c, .w], [], []⟩
def FHL_SP_RX_CFG.enable : Row := ⟨0x100048, 0x4000, 0x10, 0, 1, 4, 1, .rw, 0, [.c, .w], [], []⟩
/-! FHL_SP_RX_HEAD (R427, 16_fronthaul_lanes.md) -/
def FHL_SP_RX_HEAD.index : Row := ⟨0x10004C, 0x4000, 0x10, 0, 1, 0, 10, .rw, 0, [.c, .w], [], []⟩
/-! FHL_SP_RX_TAIL (R427, 16_fronthaul_lanes.md) -/
def FHL_SP_RX_TAIL.index : Row := ⟨0x100050, 0x4000, 0x10, 0, 1, 0, 10, .ro, 0, [.c, .w], [], []⟩
/-! FHL_SP_TX_BASE_LO (R427, 16_fronthaul_lanes.md) -/
def FHL_SP_TX_BASE_LO.base_lo : Row := ⟨0x100054, 0x4000, 0x10, 0, 1, 11, 21, .rw, 0, [.c, .w], [], []⟩
/-! FHL_SP_TX_BASE_HI (R427, 16_fronthaul_lanes.md) -/
def FHL_SP_TX_BASE_HI.base_hi : Row := ⟨0x100058, 0x4000, 0x10, 0, 1, 0, 24, .rw, 0, [.c, .w], [], []⟩
/-! FHL_SP_TX_CFG (R427, 16_fronthaul_lanes.md) -/
def FHL_SP_TX_CFG.size_log2 : Row := ⟨0x10005C, 0x4000, 0x10, 0, 1, 0, 4, .rw, 0, [.c, .w], [], []⟩
def FHL_SP_TX_CFG.enable : Row := ⟨0x10005C, 0x4000, 0x10, 0, 1, 4, 1, .rw, 0, [.c, .w], [], []⟩
/-! FHL_SP_TX_TAIL (R427, 16_fronthaul_lanes.md) -/
def FHL_SP_TX_TAIL.index : Row := ⟨0x100060, 0x4000, 0x10, 0, 1, 0, 10, .rw, 0, [.c, .w], [], []⟩
/-! FHL_SP_TX_HEAD (R427, 16_fronthaul_lanes.md) -/
def FHL_SP_TX_HEAD.index : Row := ⟨0x100064, 0x4000, 0x10, 0, 1, 0, 10, .ro, 0, [.c, .w], [], []⟩
/-! FHL_RULE (R427, 16_fronthaul_lanes.md) -/
def FHL_RULE.dmac_val_lo : Row := ⟨0x101000, 0x4000, 0x10, 0x40, 0x40, 0, 32, .rw, 0, [.c, .w], [], []⟩
def FHL_RULE.dmac_val_hi : Row := ⟨0x101004, 0x4000, 0x10, 0x40, 0x40, 0, 16, .rw, 0, [.c, .w], [], []⟩
def FHL_RULE.dmac_mask_hi : Row := ⟨0x101004, 0x4000, 0x10, 0x40, 0x40, 16, 16, .rw, 0, [.c, .w], [], []⟩
def FHL_RULE.dmac_mask_lo : Row := ⟨0x101008, 0x4000, 0x10, 0x40, 0x40, 0, 32, .rw, 0, [.c, .w], [], []⟩
def FHL_RULE.etype_val : Row := ⟨0x10100C, 0x4000, 0x10, 0x40, 0x40, 0, 16, .rw, 0, [.c, .w], [], (ruleDefaults 0xC 0x88F7 0x8809)⟩
def FHL_RULE.etype_mask : Row := ⟨0x10100C, 0x4000, 0x10, 0x40, 0x40, 16, 16, .rw, 0, [.c, .w], [], (ruleDefaults 0xC 0xFFFF 0xFFFF)⟩
def FHL_RULE.vlan_val : Row := ⟨0x101010, 0x4000, 0x10, 0x40, 0x40, 0, 16, .rw, 0, [.c, .w], [], []⟩
def FHL_RULE.vlan_mask : Row := ⟨0x101010, 0x4000, 0x10, 0x40, 0x40, 16, 16, .rw, 0, [.c, .w], [], []⟩
def FHL_RULE.msg_val : Row := ⟨0x101014, 0x4000, 0x10, 0x40, 0x40, 0, 8, .rw, 0, [.c, .w], [], []⟩
def FHL_RULE.msg_mask : Row := ⟨0x101014, 0x4000, 0x10, 0x40, 0x40, 8, 8, .rw, 0, [.c, .w], [], []⟩
def FHL_RULE.eaxc_val : Row := ⟨0x101018, 0x4000, 0x10, 0x40, 0x40, 0, 16, .rw, 0, [.c, .w], [], []⟩
def FHL_RULE.eaxc_mask : Row := ⟨0x101018, 0x4000, 0x10, 0x40, 0x40, 16, 16, .rw, 0, [.c, .w], [], []⟩
def FHL_RULE.tile : Row := ⟨0x10101C, 0x4000, 0x10, 0x40, 0x40, 0, 10, .rw, 0, [.c, .w], [], []⟩
def FHL_RULE.strip_w : Row := ⟨0x10101C, 0x4000, 0x10, 0x40, 0x40, 10, 4, .rw, 0, [.c, .w], [], []⟩
def FHL_RULE.ring_base : Row := ⟨0x10101C, 0x4000, 0x10, 0x40, 0x40, 16, 12, .rw, 0, [.c, .w], [], []⟩
def FHL_RULE.ring_len : Row := ⟨0x101020, 0x4000, 0x10, 0x40, 0x40, 0, 13, .rw, 0, [.c, .w], [], []⟩
def FHL_RULE.enable : Row := ⟨0x101024, 0x4000, 0x10, 0x40, 0x40, 0, 1, .rw, 0, [.c, .w], [], (ruleDefaults 0x24 1 1)⟩
def FHL_RULE.action : Row := ⟨0x101024, 0x4000, 0x10, 0x40, 0x40, 1, 3, .rw, 0, [.c, .w], [], (ruleDefaults 0x24 2 2)⟩
/-! PRL_CFG (R536, 21_pair_operation.md) -/
def PRL_CFG.enable : Row := ⟨0x140000, 0, 1, 0, 1, 0, 1, .rw, 0, [.c, .w], [], []⟩
def PRL_CFG.lead_yield : Row := ⟨0x140000, 0, 1, 0, 1, 1, 1, .rw, 0, [.c, .w], [], []⟩
def PRL_CFG.takeover_on_lane : Row := ⟨0x140000, 0, 1, 0, 1, 2, 1, .rw, 1, [.c, .w], [], []⟩
def PRL_CFG.partner_timeout_s : Row := ⟨0x140000, 0, 1, 0, 1, 8, 8, .rw, 1, [.c, .w], [], []⟩
/-! PRL_STATUS (R536, 21_pair_operation.md) -/
def PRL_STATUS.link_state : Row := ⟨0x140004, 0, 1, 0, 1, 0, 3, .ro, 0, [.c, .w, .d], [.d0], []⟩
def PRL_STATUS.width : Row := ⟨0x140004, 0, 1, 0, 1, 3, 4, .ro, 0, [.c, .w, .d], [.d0], []⟩
def PRL_STATUS.tx_sleep : Row := ⟨0x140004, 0, 1, 0, 1, 7, 1, .ro, 0, [.c, .w, .d], [.d0], []⟩
def PRL_STATUS.rx_sleep : Row := ⟨0x140004, 0, 1, 0, 1, 8, 1, .ro, 0, [.c, .w, .d], [.d0], []⟩
def PRL_STATUS.fit : Row := ⟨0x140004, 0, 1, 0, 1, 9, 1, .ro, 0, [.c, .w, .d], [.d0], []⟩
def PRL_STATUS.partner_present : Row := ⟨0x140004, 0, 1, 0, 1, 10, 1, .ro, 0, [.c, .w, .d], [.d0], []⟩
def PRL_STATUS.release : Row := ⟨0x140004, 0, 1, 0, 1, 11, 1, .ro, 0, [.c, .w], [], []⟩
def PRL_STATUS.resync : Row := ⟨0x140004, 0, 1, 0, 1, 12, 1, .ro, 0, [.c, .w, .d], [.d0], []⟩
def PRL_STATUS.suspended : Row := ⟨0x140004, 0, 1, 0, 1, 13, 1, .ro, 0, [.c, .w, .d], [.d0], []⟩
def PRL_STATUS.cfg_error : Row := ⟨0x140004, 0, 1, 0, 1, 14, 1, .w1c, 0, [.c, .w], [], []⟩
def PRL_STATUS.dropped : Row := ⟨0x140004, 0, 1, 0, 1, 16, 8, .ro, 0, [.c, .w], [], []⟩
/-! PRL_SYM_SLOT (R536, 21_pair_operation.md) -/
def PRL_SYM_SLOT.slot_ns : Row := ⟨0x140008, 0, 1, 0, 1, 0, 24, .rw, 0x7A120, [.c, .w], [], []⟩
/-! PRL_SYM_FIRST (R536, 21_pair_operation.md) -/
def PRL_SYM_FIRST.first_ns : Row := ⟨0x14000C, 0, 1, 0, 1, 0, 24, .rw, 0x8D67, [.c, .w], [], []⟩
/-! PRL_SYM_LEN (R536, 21_pair_operation.md) -/
def PRL_SYM_LEN.sym_ns : Row := ⟨0x140010, 0, 1, 0, 1, 0, 24, .rw, 0x8B5D, [.c, .w], [], []⟩
/-! PRL_UDIG_LO (R536, 21_pair_operation.md) -/
def PRL_UDIG_LO.pa_lo : Row := ⟨0x140014, 0, 1, 0, 1, 3, 29, .rw, 0, [.c, .w], [], []⟩
/-! PRL_UDIG_HI (R536, 21_pair_operation.md) -/
def PRL_UDIG_HI.pa_hi : Row := ⟨0x140018, 0, 1, 0, 1, 0, 24, .rw, 0, [.c, .w], [], []⟩
/-! PRL_TT_ADJ (R536, 21_pair_operation.md) -/
def PRL_TT_ADJ.adj : Row := ⟨0x14001C, 0, 1, 0, 1, 0, 32, .rw, 0, [.c, .w], [], []⟩
/-! PRL_OFFSET (R536, 21_pair_operation.md) -/
def PRL_OFFSET.offset : Row := ⟨0x140020, 0, 1, 0, 1, 0, 32, .ro, 0, [.c, .w, .d], [.d0], []⟩
/-! PRL_COUNTS (R536, 21_pair_operation.md) -/
def PRL_COUNTS.mismatches : Row := ⟨0x140024, 0, 1, 0, 1, 0, 8, .rc, 0, [.c, .w], [], []⟩
def PRL_COUNTS.steps : Row := ⟨0x140024, 0, 1, 0, 1, 8, 8, .rc, 0, [.c, .w], [], []⟩
def PRL_COUNTS.takeovers : Row := ⟨0x140024, 0, 1, 0, 1, 16, 8, .rc, 0, [.c, .w], [], []⟩
def PRL_COUNTS.late_digests : Row := ⟨0x140024, 0, 1, 0, 1, 24, 8, .rc, 0, [.c, .w], [], []⟩
/-! PRL_EQ_BAND (R536, 21_pair_operation.md) -/
def PRL_EQ_BAND.peak_code : Row := ⟨0x140040, 4, 4, 0, 1, 0, 4, .rw, 6, [.c, .w], [], []⟩
def PRL_EQ_BAND.tx_preset : Row := ⟨0x140040, 4, 4, 0, 1, 4, 3, .rw, 3, [.c, .w], [], []⟩
/-! PRL_SYNC (R536, 21_pair_operation.md) -/
def PRL_SYNC.first : Row := ⟨0x140100, 4, 0x10, 0, 1, 0, 12, .rw, 0, [.c, .w], [], []⟩
def PRL_SYNC.count : Row := ⟨0x140100, 4, 0x10, 0, 1, 12, 13, .rw, 0, [.c, .w], [], []⟩
def PRL_SYNC.kind : Row := ⟨0x140100, 4, 0x10, 0, 1, 25, 1, .rw, 0, [.c, .w], [], []⟩
def PRL_SYNC.enable : Row := ⟨0x140100, 4, 0x10, 0, 1, 26, 1, .rw, 0, [.c, .w], [], []⟩
/-! SAF_CTRL (R563, 22_faults_safety_and_self_test.md) -/
def SAF_CTRL.lock : Row := ⟨0x150000, 0, 1, 0, 1, 0, 1, .w1s, 0, [.c, .w], [], []⟩
def SAF_CTRL.refused : Row := ⟨0x150000, 0, 1, 0, 1, 1, 1, .w1c, 0, [.c, .w], [], []⟩
def SAF_CTRL.time_error : Row := ⟨0x150000, 0, 1, 0, 1, 8, 1, .rw, 1, [.c, .w], [], []⟩
def SAF_CTRL.internal_fault : Row := ⟨0x150000, 0, 1, 0, 1, 9, 1, .rw, 1, [.c, .w], [], []⟩
def SAF_CTRL.rail_alarm : Row := ⟨0x150000, 0, 1, 0, 1, 10, 1, .rw, 0, [.c, .w], [], []⟩
def SAF_CTRL.plausibility : Row := ⟨0x150000, 0, 1, 0, 1, 11, 1, .rw, 0, [.c, .w], [], []⟩
def SAF_CTRL.lost_frame : Row := ⟨0x150000, 0, 1, 0, 1, 12, 1, .rw, 1, [.c, .w], [], []⟩
def SAF_CTRL.dsp_halt : Row := ⟨0x150000, 0, 1, 0, 1, 13, 1, .rw, 0, [.c, .w], [], []⟩
def SAF_CTRL.bist_fail : Row := ⟨0x150000, 0, 1, 0, 1, 14, 1, .rw, 0, [.c, .w], [], []⟩
/-! SAF_SAFE_CAUSE (R563, 22_faults_safety_and_self_test.md) -/
def SAF_SAFE_CAUSE.mode : Row := ⟨0x150004, 0, 1, 0, 1, 0, 1, .ro, 1, [.c, .w], [], []⟩
def SAF_SAFE_CAUSE.recovery : Row := ⟨0x150004, 0, 1, 0, 1, 1, 1, .ro, 0, [.c, .w], [], []⟩
def SAF_SAFE_CAUSE.time_error : Row := ⟨0x150004, 0, 1, 0, 1, 2, 1, .ro, 0, [.c, .w], [], []⟩
def SAF_SAFE_CAUSE.internal_fault : Row := ⟨0x150004, 0, 1, 0, 1, 3, 1, .w1c, 0, [.c, .w], [], []⟩
def SAF_SAFE_CAUSE.rail_alarm : Row := ⟨0x150004, 0, 1, 0, 1, 4, 1, .w1c, 0, [.c, .w], [], []⟩
def SAF_SAFE_CAUSE.plausibility : Row := ⟨0x150004, 0, 1, 0, 1, 5, 1, .w1c, 0, [.c, .w], [], []⟩
def SAF_SAFE_CAUSE.lost_frame : Row := ⟨0x150004, 0, 1, 0, 1, 6, 1, .w1c, 0, [.c, .w], [], []⟩
def SAF_SAFE_CAUSE.dsp_halt : Row := ⟨0x150004, 0, 1, 0, 1, 7, 1, .w1c, 0, [.c, .w], [], []⟩
def SAF_SAFE_CAUSE.bist_fail : Row := ⟨0x150004, 0, 1, 0, 1, 8, 1, .w1c, 0, [.c, .w], [], []⟩
def SAF_SAFE_CAUSE.pair : Row := ⟨0x150004, 0, 1, 0, 1, 9, 1, .w1c, 0, [.c, .w], [], []⟩
/-! SAF_DEGRADED (R563, 22_faults_safety_and_self_test.md) -/
def SAF_DEGRADED.stack_channel : Row := ⟨0x150008, 0, 1, 0, 1, 0, 1, .ro, 0, [.c, .w], [], []⟩
def SAF_DEGRADED.district_spare : Row := ⟨0x150008, 0, 1, 0, 1, 1, 1, .ro, 0, [.c, .w], [], []⟩
def SAF_DEGRADED.dsp_spare : Row := ⟨0x150008, 0, 1, 0, 1, 2, 1, .ro, 0, [.c, .w], [], []⟩
def SAF_DEGRADED.mem_block : Row := ⟨0x150008, 0, 1, 0, 1, 3, 1, .ro, 0, [.c, .w], [], []⟩
def SAF_DEGRADED.fronthaul_lane : Row := ⟨0x150008, 0, 1, 0, 1, 4, 1, .ro, 0, [.c, .w], [], []⟩
def SAF_DEGRADED.pcie_lane : Row := ⟨0x150008, 0, 1, 0, 1, 5, 1, .ro, 0, [.c, .w], [], []⟩
def SAF_DEGRADED.bolryn_lane : Row := ⟨0x150008, 0, 1, 0, 1, 6, 1, .ro, 0, [.c, .w], [], []⟩
def SAF_DEGRADED.dram_offline : Row := ⟨0x150008, 0, 1, 0, 1, 7, 1, .ro, 0, [.c, .w], [], []⟩
def SAF_DEGRADED.privet_sole : Row := ⟨0x150008, 0, 1, 0, 1, 8, 1, .ro, 0, [.c, .w], [], []⟩
/-! SAF_LOG_STATUS (R563, 22_faults_safety_and_self_test.md) -/
def SAF_LOG_STATUS.entries : Row := ⟨0x15000C, 0, 1, 0, 1, 0, 10, .ro, 0, [.c], [], []⟩
def SAF_LOG_STATUS.lost : Row := ⟨0x15000C, 0, 1, 0, 1, 16, 16, .rc, 0, [.c], [], []⟩
/-! SAF_LANE_LIM (R563, 22_faults_safety_and_self_test.md) -/
def SAF_LANE_LIM.fh_codewords : Row := ⟨0x150010, 0, 1, 0, 1, 0, 8, .rw, 8, [.c, .w], [], []⟩
def SAF_LANE_LIM.fh_blocks : Row := ⟨0x150010, 0, 1, 0, 1, 8, 8, .rw, 0x40, [.c, .w], [], []⟩
def SAF_LANE_LIM.pcie_errors : Row := ⟨0x150010, 0, 1, 0, 1, 16, 8, .rw, 0x40, [.c, .w], [], []⟩
def SAF_LANE_LIM.bolryn_codewords : Row := ⟨0x150010, 0, 1, 0, 1, 24, 8, .rw, 8, [.c, .w], [], []⟩
/-! SAF_INJ_CFG (R563, 22_faults_safety_and_self_test.md) -/
def SAF_INJ_CFG.target : Row := ⟨0x150020, 0, 1, 0, 1, 0, 24, .rw, 0, [.c, .w], [], []⟩
def SAF_INJ_CFG.variant : Row := ⟨0x150020, 0, 1, 0, 1, 24, 2, .rw, 0, [.c, .w], [], []⟩
def SAF_INJ_CFG.pair_inject : Row := ⟨0x150020, 0, 1, 0, 1, 26, 1, .wo, 0, [], [], []⟩
/-! SAF_INJ_STATUS (R563, 22_faults_safety_and_self_test.md) -/
def SAF_INJ_STATUS.armed : Row := ⟨0x150024, 0, 1, 0, 1, 0, 1, .ro, 0, [.c, .w], [], []⟩
def SAF_INJ_STATUS.detected : Row := ⟨0x150024, 0, 1, 0, 1, 1, 1, .ro, 0, [.c, .w], [], []⟩
def SAF_INJ_STATUS.missed : Row := ⟨0x150024, 0, 1, 0, 1, 2, 1, .ro, 0, [.c, .w], [], []⟩
def SAF_INJ_STATUS.mechanism : Row := ⟨0x150024, 0, 1, 0, 1, 3, 5, .ro, 0, [.c, .w], [], []⟩
def SAF_INJ_STATUS.latency_us : Row := ⟨0x150024, 0, 1, 0, 1, 8, 24, .ro, 0, [.c, .w], [], []⟩
/-! SAF_WIN (R563, 22_faults_safety_and_self_test.md) -/
def SAF_WIN.window : Row := ⟨0x150100, 4, 5, 0, 1, 0, 24, .rw, 0x64, [.c, .w], [], [(0x150104, 0x3E8), (0x150108, 0x1770), (0x15010C, 0x83D600)]⟩
def SAF_WIN.limit : Row := ⟨0x150100, 4, 5, 0, 1, 24, 8, .rw, 0x10, [.c, .w], [], [(0x150104, 3), (0x150108, 4), (0x15010C, 8), (0x150110, 2)]⟩
/-! BIST_STATUS (R563, 22_faults_safety_and_self_test.md) -/
def BIST_STATUS.cycles : Row := ⟨0x160000, 0, 1, 0, 1, 0, 16, .ro, 0, [.c, .w], [], []⟩
def BIST_STATUS.failed : Row := ⟨0x160000, 0, 1, 0, 1, 16, 9, .w1c, 0, [.c, .w], [], []⟩
def BIST_STATUS.skipped : Row := ⟨0x160000, 0, 1, 0, 1, 25, 7, .rc, 0, [.c, .w], [], []⟩
/-! SEC_STATUS (R289, 11_security_and_attestation.md) -/
def SEC_STATUS.owner_slots : Row := ⟨0x170000, 0, 1, 0, 1, 0, 8, .ro, 0, [.c, .w], [], []⟩
def SEC_STATUS.debug_disabled : Row := ⟨0x170000, 0, 1, 0, 1, 8, 1, .ro, 0, [.c, .w], [], []⟩
def SEC_STATUS.debug_open : Row := ⟨0x170000, 0, 1, 0, 1, 9, 1, .ro, 0, [.c, .w], [], []⟩
def SEC_STATUS.grants : Row := ⟨0x170000, 0, 1, 0, 1, 10, 3, .ro, 0, [.c, .w], [], []⟩
def SEC_STATUS.debug_signer : Row := ⟨0x170000, 0, 1, 0, 1, 13, 2, .ro, 0, [.c, .w], [], []⟩
/-! SEC_DEBUG_REMAIN (R289, 11_security_and_attestation.md) -/
def SEC_DEBUG_REMAIN.seconds : Row := ⟨0x170004, 0, 1, 0, 1, 0, 17, .ro, 0, [.c, .w], [], []⟩
/-! SEC_FINGERPRINT (R289, 11_security_and_attestation.md) -/
def SEC_FINGERPRINT.bytes : Row := ⟨0x170020, 4, 8, 0, 1, 0, 32, .ro, 0, [.c, .w], [], []⟩
/-! SEC_DEBUG_NONCE (R289, 11_security_and_attestation.md) -/
def SEC_DEBUG_NONCE.bytes : Row := ⟨0x170040, 4, 4, 0, 1, 0, 32, .ro, 0, [.c, .w], [], []⟩
/-! SEC_OWNER_ADDR_LO (R289, 11_security_and_attestation.md) -/
def SEC_OWNER_ADDR_LO.addr_lo : Row := ⟨0x170080, 0, 1, 0, 1, 3, 29, .rw, 0, [.c, .w], [], []⟩
/-! SEC_OWNER_ADDR_HI (R289, 11_security_and_attestation.md) -/
def SEC_OWNER_ADDR_HI.addr_hi : Row := ⟨0x170084, 0, 1, 0, 1, 0, 32, .rw, 0, [.c, .w], [], []⟩
/-! SEC_OWNER_CTRL (R290, 11_security_and_attestation.md) -/
def SEC_OWNER_CTRL.go : Row := ⟨0x170088, 0, 1, 0, 1, 0, 1, .wo, 0, [], [], []⟩
def SEC_OWNER_CTRL.busy : Row := ⟨0x170088, 0, 1, 0, 1, 1, 1, .ro, 0, [.c, .w], [], []⟩
def SEC_OWNER_CTRL.done : Row := ⟨0x170088, 0, 1, 0, 1, 2, 1, .w1c, 0, [.c, .w], [], []⟩
def SEC_OWNER_CTRL.result : Row := ⟨0x170088, 0, 1, 0, 1, 8, 8, .ro, 0, [.c, .w], [], []⟩
def SEC_OWNER_CTRL.confirm : Row := ⟨0x170088, 0, 1, 0, 1, 24, 8, .wo, 0, [], [], []⟩

/-- Fields of block DEV, part 0. -/
def rowsDev0 : List Row :=
  [DEV_ID.part_id, DEV_ID.family, DEV_REV.stepping, DEV_REV.rom_major, DEV_REV.rom_minor,
   DEV_REV.speed, DEV_CAPS.temp_grade, DEV_CAPS.vf_total, DEV_CAPS.queue_pairs, DEV_SCRATCH.scratch,
   DEV_MODE.mode, DEV_MODE.previous_mode, DEV_MODE.degraded, DEV_MODE.safe_state, DEV_MODE.transition_busy,
   DEV_MODE.transitions, DEV_BOOT_STATUS.stage, DEV_BOOT_STATUS.halt_code, DEV_BOOT_STATUS.dram0_disabled, DEV_BOOT_STATUS.dram1_disabled,
   DEV_RESET_CAUSE.power_on, DEV_RESET_CAUSE.por_pin, DEV_RESET_CAUSE.aon_supply, DEV_RESET_CAUSE.perst, DEV_RESET_CAUSE.ref_clock_loss,
   DEV_RESET_CAUSE.porter_fault, DEV_RESET_CAUSE.host_request, DEV_RESET_CAUSE.thermal_entry, DEV_RESET_CAUSE.wake, DEV_RESET_CAUSE.wake_source,
   DEV_RESET_CAUSE.die_reset, DEV_RESET_CTRL.perst_scope, DEV_RESET_CTRL.die_reset, DEV_RESET_CTRL.warm_reset, DEV_RESET_CTRL.refused,
   DEV_RESET_CTRL.confirm, DEV_DORMANT_CTRL.wake_perst, DEV_DORMANT_CTRL.wake_pin, DEV_DORMANT_CTRL.wake_timer, DEV_DORMANT_CTRL.assert_wake_n]

/-- Fields of block DEV, part 1. -/
def rowsDev1 : List Row :=
  [DEV_STACK_STATUS.shutter_closed, DEV_STACK_STATUS.die_in_reset, DEV_STACK_STATUS.skew_fault, DEV_STACK_STATUS.spares_in_use, DEV_STACK_STATUS.groups_exhausted]

/-- Fields of block HCI, part 0. -/
def rowsHci0 : List Row :=
  [HCI_AQ_SQ_BASE_LO.base_lo, HCI_AQ_SQ_BASE_HI.base_hi, HCI_AQ_CQ_BASE_LO.base_lo, HCI_AQ_CQ_BASE_HI.base_hi, HCI_AQ_CFG.sq_size_log2,
   HCI_AQ_CFG.cq_size_log2, HCI_AQ_CFG.enable, HCI_AQ_STATUS.ready, HCI_AQ_STATUS.error, HCI_EVT_CAUSE.swap_event,
   HCI_EVT_CAUSE.throttle_request, HCI_EVT_CAUSE.fault_log, HCI_EVT_CAUSE.timing_state, HCI_EVT_CAUSE.pair_event, HCI_EVT_CAUSE.queue_error,
   HCI_EVT_CAUSE.thermal_warning, HCI_EVT_ENABLE.swap_event, HCI_EVT_ENABLE.throttle_request, HCI_EVT_ENABLE.fault_log, HCI_EVT_ENABLE.timing_state,
   HCI_EVT_ENABLE.pair_event, HCI_EVT_ENABLE.queue_error, HCI_EVT_ENABLE.thermal_warning, HCI_EVT_VEC.vector, HCI_Q_STATUS.state,
   HCI_Q_STATUS.admin, HCI_Q_STATUS.function, HCI_Q_STATUS.outstanding, HCI_Q_STATUS.error]

/-- Fields of block PCIE, part 0. -/
def rowsPcie0 : List Row :=
  [PCIE_LINK_STATUS.speed, PCIE_LINK_STATUS.width, PCIE_LINK_STATUS.reversed, PCIE_LINK_STATUS.dropped, PCIE_BLOCKED_COUNT.unassigned,
   PCIE_BLOCKED_COUNT.blocked, PCIE_ERR_COUNTS.bad_access, PCIE_ERR_COUNTS.retrains, PCIE_ERR_COUNTS.fn_cfg_refused, PCIE_BLOCKED_ACCESS.offset,
   PCIE_BLOCKED_ACCESS.function, PCIE_BLOCKED_ACCESS.write, PCIE_BLOCKED_ACCESS.kind, PCIE_FN_CFG.queue_base, PCIE_FN_CFG.queue_count]

/-- Fields of block CLK, part 0. -/
def rowsClk0 : List Row :=
  [CLK_CAND_READY.ready, CLK_REF_STATUS.current, CLK_REF_STATUS.switching, CLK_REF_STATUS.hop_locked, CLK_REF_STATUS.lane_locked,
   CLK_REF_STATUS.dram_locked, CLK_REF_CTRL.source, CLK_REF_CTRL.go, CLK_REF_CTRL.done, CLK_REF_CTRL.result,
   CLK_REF_CTRL.confirm, CLK_REF_PREF.pref0, CLK_REF_PREF.pref1, CLK_REF_PREF.pref2, CLK_REF_PREF.pref3,
   CLK_WKT_TRIM.fsel, CLK_WKT_TRIM.trim, CLK_WKT_TRIM.trim_source, CLK_WKT_TRIM.trim_limit, CLK_WKT_TRIM.on_backup,
   CLK_MON_EVENTS.missing_edge, CLK_MON_EVENTS.freq_window, CLK_MON_EVENTS.pll_unlock, CLK_MON_EVENTS.upll_unlock, CLK_MON_EVENTS.wicket_osc_fail,
   CLK_MON_EVENTS.failed_source, CLK_CAND_COUNT.count, CLK_CAND_COUNT.run, CLK_UPLL_CFG.m, CLK_UPLL_CFG.n,
   CLK_UPLL_CFG.o, CLK_UPLL_CFG.input, CLK_UPLL_CFG.enable, CLK_UPLL_STATUS.locked, CLK_UPLL_STATUS.cfg_error,
   CLK_UPLL_STATUS.refused, CLK_UPLL_STATUS.unlock_seen, CLK_GCH_SEL.source]

/-- Fields of block TIM, part 0. -/
def rowsTim0 : List Row :=
  [TIM_STATUS.state, TIM_STATUS.previous, TIM_STATUS.tq_class, TIM_STATUS.phase_ref, TIM_STATUS.synce_sel,
   TIM_STATUS.time_error, TIM_STATUS.forced, TIM_STATUS.freq_assisted, TIM_STATUS.time_pll_src, TIM_STATUS.model_usable,
   TIM_STATUS.ref_disagree, TIM_TIME_LO.fraction, TIM_TIME_LO.ns_lo, TIM_TIME_MID.ns_hi, TIM_TIME_MID.sec_lo,
   TIM_TIME_HI.sec_hi, TIM_HO_BOUND.bound_ns, TIM_HO_ELAPSED.seconds, TIM_LEARNED.learned_s, TIM_HO_CFG.te_limit_ns,
   TIM_HO_CFG.step_policy, TIM_HO_CFG.reacq_holdoff_s, TIM_HO_CFG.osc_class, TIM_SERVO_CFG.bw, TIM_SERVO_CFG.slew_max,
   TIM_SERVO_CFG.ptp_timeout_s, TIM_REF_CFG.ptp_enable, TIM_REF_CFG.pps_enable, TIM_REF_CFG.phase_primary, TIM_REF_CFG.synce_enable,
   TIM_REF_CFG.tod_format, TIM_REF_CFG.tod_baud, TIM_PTP_MEAS_LO.offset_lo, TIM_PTP_MEAS_HI.offset_hi, TIM_PTP_MEAS_HI.age_us,
   TIM_PTP_CTRL.ptp_valid, TIM_PTP_CTRL.meas_count, TIM_PPS_ADJ.adj, TIM_TOD_CFG.utc_offset, TIM_PPS_STATUS.pps_valid]

/-- Fields of block TIM, part 1. -/
def rowsTim1 : List Row :=
  [TIM_PPS_STATUS.seconds_known, TIM_PPS_STATUS.time_valid, TIM_PPS_STATUS.tod_errors, TIM_SYNCE_CFG.wtr_s, TIM_SYNCE_CFG.hold_off_ms,
   TIM_SYNCE_QL.rank, TIM_SYNCE_QL.prio, TIM_SYNCE_QL.lockout, TIM_SYNCE_QL.eligible, TIM_SYNCE_QL.in_wtr,
   TIM_TOUT_ADJ.adj, TIM_TOUT_STATUS.armed, TIM_TOUT_STATUS.level]

/-- Fields of block THM, part 0. -/
def rowsThm0 : List Row :=
  [THM_STATUS.eff_temp, THM_STATUS.hot_die, THM_STATUS.band, THM_STATUS.warning, THM_STATUS.throttle_active,
   THM_STATUS.step, THM_STATUS.plausibility_fault, THM_STATUS.sensor_invalid, THM_STATUS.wicket_restart, THM_THROTTLE_CFG.grace_ms,
   THM_THROTTLE_STATUS.request, THM_THROTTLE_STATUS.state, THM_THROTTLE_STATUS.acked, THM_DIE.eff_temp, THM_DIE.hottest,
   THM_DIE.valid, THM_DIE.hw_trip, THM_SENSOR.temp, THM_SENSOR.valid, THM_ZONE.estimate,
   THM_ZONE.run, THM_ZONE.plausibility, THM_ZONE.share, THM_DLOCK_UNLOCKED.bits, THM_DLOCK_UNLOCKED2.bits,
   THM_DLOCK_DISTRICT.bias_code, THM_DLOCK_DISTRICT.freq_error, THM_DLOCK_DISTRICT.locked, THM_DLOCK_DISTRICT.at_limit, THM_DLOCK_DISTRICT.slow_unlock_seen,
   THM_DLOCK_DISTRICT.fast_unlock_seen, THM_DLOCK_DISTRICT.unlock_events]

/-- Fields of block WKT, part 0. -/
def rowsWkt0 : List Row :=
  [WKT_WAKE_TIMER.seconds, WKT_STATUS.restarts, WKT_STATUS.history, WKT_ADC.code, WKT_ADC.alarm]

/-- Fields of block PIN, part 0. -/
def rowsPin0 : List Row :=
  [PIN_CFG.drive, PIN_CFG.slew_slow, PIN_CFG.pull, PIN_CFG.open_drain, PIN_CFG.schmitt,
   PIN_CFG.debounce_us, PIN_CFG.sleep, PIN_FABRIC_EN.fabric, PIN_PERIPH_EN.fault_n, PIN_PERIPH_EN.therm_warn_n,
   PIN_PERIPH_EN.clkout, PIN_OUT.out, PIN_OE.oe, PIN_IN.level, PIN_OWNER.owner,
   PIN_CLKOUT.source, PIN_CLKOUT.divider, PIN_STATUS.bank_1v8, PIN_STATUS.bank_fault, PIN_STATUS.clkout_refused,
   PIN_MATCH_MASK.mask, PIN_MATCH_MASK.bank, PIN_MATCH_VAL.value, PIN_MATCH_CFG.enable, PIN_MATCH_CFG.mode,
   PIN_MATCH_CFG.irq, PIN_MATCH_CFG.wake, PIN_MATCH_CFG.vector, PIN_MATCH_STATUS.match, PIN_MATCH_STATUS.event,
   PIN_MATCH_STATUS.cfg_error, PIN_MATCH_STATUS.count]

/-- Fields of block NOC, part 0. -/
def rowsNoc0 : List Row :=
  [NOC_STAT_CTRL.freeze, NOC_STAT_CTRL.clear, NOC_DENY_PA_LO.pa_lo, NOC_DENY_PA_HI.pa_hi, NOC_DENY_PA_HI.initiator,
   NOC_ERR_COUNTS.corrected, NOC_ERR_COUNTS.uncorrectable, NOC_ERR_COUNTS.e2e_fail, NOC_INIT_CFG.cls, NOC_INIT_CFG.weight,
   NOC_BYTES_LO.bytes_lo, NOC_BYTES_HI.bytes_hi, NOC_HIST.count]

/-- Fields of block DRC, part 0. -/
def rowsDrc0 : List Row :=
  [DRC_MAP.interleaved, DRC_MAP.capacity_mismatch, DRC_MAP.strap_no_dram, DRC_MAP.rate, DRC_MAP.capacity_gib,
   DRC_STATUS.state, DRC_STATUS.unsupported_config, DRC_STATUS.width_x8, DRC_STATUS.two_ranks, DRC_STATUS.density_32gb,
   DRC_STATUS.dram_hot, DRC_STATUS.band, DRC_STATUS.retraining, DRC_STATUS.margin_low, DRC_CTRL.ppr_auto,
   DRC_CTRL.retrain, DRC_CTRL.ppr_refused, DRC_CTRL.ppr_entry, DRC_CTRL.ppr_now, DRC_ERR_COUNTS.corrected,
   DRC_ERR_COUNTS.uncorrectable, DRC_ERR_COUNTS.alerts, DRC_ERR_COUNTS.untracked, DRC_PPR.used, DRC_PPR_STAT.exhausted,
   DRC_TRAIN.rd_delay, DRC_TRAIN.wr_delay, DRC_TRAIN.rd_eye, DRC_TRAIN.wr_eye, DRC_ELOG_LO.row,
   DRC_ELOG_LO.bank_group, DRC_ELOG_LO.bank, DRC_ELOG_LO.rank, DRC_ELOG_LO.subchannel, DRC_ELOG_LO.in_use,
   DRC_ELOG_LO.uncorrectable, DRC_ELOG_LO.repaired, DRC_ELOG_LO.window_hits, DRC_ELOG_HI.symbol, DRC_ELOG_HI.total_hits]

/-- Fields of block DRC, part 1. -/
def rowsDrc1 : List Row :=
  [DRC_ELOG_HI.window_start]

/-- Fields of block ENC, part 0. -/
def rowsEnc0 : List Row :=
  [ENC_CTRL.lock, ENC_CTRL.sweep_rate, ENC_STATUS.refused, ENC_STATUS.sweep_busy, ENC_STATUS.sweep_region,
   ENC_STATUS.sweeps_queued, ENC_TAG_BASE.base, ENC_ERR_COUNTS.integrity_fail, ENC_ERR_COUNTS.rights_denied, ENC_ERR_COUNTS.held_writes,
   ENC_FAIL_PA_LO.kind, ENC_FAIL_PA_LO.pa_lo, ENC_FAIL_PA_HI.pa_hi, ENC_FAIL_PA_HI.initiator, ENC_KEY_STATE.state,
   ENC_RIGHTS.rights, ENC_REGION_BASE.base, ENC_REGION_LIMIT.limit, ENC_REGION_CFG.enable, ENC_REGION_CFG.mode,
   ENC_REGION_CFG.key_id, ENC_REGION_META.meta, ENC_REGION_STATUS.state, ENC_REGION_STATUS.error, ENC_REGION_STATUS.sweep_queued,
   ENC_REGION_STATUS.prev_key_id, ENC_REGION_EPOCH.epoch, ENC_REGION_PROGRESS.line]

/-- Fields of block MEM, part 0. -/
def rowsMem0 : List Row :=
  [MEM_STATUS.reserve_base, MEM_STATUS.reserve_active, MEM_STATUS.inval_busy, MEM_STATUS.inval_refused, MEM_STATUS.retire_busy,
   MEM_STATUS.spares_used, MEM_INVAL.block, MEM_INVAL.all, MEM_QERR.corrected, MEM_QERR.uncorrectable,
   MEM_QERR.untracked, MEM_SPARE_MAP.spare0, MEM_SPARE_MAP.spare1, MEM_SPARE_MAP.spare2, MEM_SPARE_MAP.spare3,
   MEM_SPARE_STAT.used, MEM_SPARE_STAT.exhausted, MEM_SPARE_STAT.retired, MEM_ELOG_LO.block, MEM_ELOG_LO.word,
   MEM_ELOG_LO.uncorrectable, MEM_ELOG_LO.in_use, MEM_ELOG_LO.window_hits, MEM_ELOG_HI.bit_pos, MEM_ELOG_HI.total_hits,
   MEM_ELOG_HI.window_start]

/-- Fields of block CFG, part 0. -/
def rowsCfg0 : List Row :=
  [CFG_LATCH_STATUS.active_ctx, CFG_LATCH_STATUS.active_valid, CFG_LATCH_STATUS.staged_ctx, CFG_LATCH_STATUS.staged_state, CFG_LATCH_STATUS.repair_wait,
   CFG_LATCH_STATUS.swap_armed, CFG_LATCH_STATUS.frames_staged, CFG_CTX_STATUS.state, CFG_CTX_STATUS.in_active, CFG_CTX_STATUS.in_staged,
   CFG_CTX_STATUS.in_schedule, CFG_CTX_STATUS.writeback_pending, CFG_CTX_STATUS.repairs_pending, CFG_CTX_STATUS.dirty_max, CFG_SCHED_STATUS.running,
   CFG_SCHED_STATUS.running_bank, CFG_SCHED_STATUS.bank_armed, CFG_SCHED_STATUS.suspended, CFG_SCHED_STATUS.next_entry, CFG_SWAP_COUNTS.late,
   CFG_SWAP_COUNTS.skipped, CFG_SWAP_EVT_TAIL.tail, CFG_SWAP_EVT_TAIL.overflow, CFG_SWAP_EVT_HEAD.head, CFG_LOAD_STATUS.phase,
   CFG_LOAD_STATUS.partial, CFG_LOAD_STATUS.target, CFG_LOAD_STATUS.encrypted, CFG_LOAD_STATUS.last_status, CFG_LOAD_POSITION.frame,
   CFG_LOAD_VIOLATION.where, CFG_LOAD_VIOLATION.dsp, CFG_RETAIN_STATUS.in_reserve, CFG_RETAIN_STATUS.store_lost, CFG_RETAIN_STATUS.free_mib,
   CFG_CTX_IMAGE.debug_observe, CFG_CTX_IMAGE.chain_depth, CFG_CTX_IMAGE.retained_64k]

/-- Fields of block INT, part 0. -/
def rowsInt0 : List Row :=
  [INT_STATUS.engine_a, INT_STATUS.engine_b, INT_STATUS.diag_degraded, INT_STATUS.internal_fault, INT_STATUS.sweep_overrun,
   INT_STATUS.repair_queue, INT_STATUS.lost_frames, INT_SWEEP_A.sweeps, INT_SWEEP_A.kat_fail, INT_SWEEP_A.report_late,
   INT_SWEEP_A.count_mismatch, INT_SWEEP_B.sweeps, INT_SWEEP_B.kat_fail, INT_SWEEP_B.report_late, INT_SWEEP_B.count_mismatch,
   INT_COUNTS.plane_repairs, INT_COUNTS.latch_repairs, INT_COUNTS.vote_corrections, INT_LAST_REPAIR.frame, INT_LAST_REPAIR.plane,
   INT_LAST_REPAIR.latch, INT_LAST_REPAIR.staged, INT_LAST_REPAIR.source]

/-- Fields of block DSP, part 0. -/
def rowsDsp0 : List Row :=
  [DSP_COL_SPARE.used, DSP_COL_SPARE.row_g0, DSP_COL_SPARE.row_g1, DSP_COL_SPARE.row_g2, DSP_COL_SPARE.row_g3,
   DSP_COL_SPARE.exhausted, DSP_TILE_KICK.tile, DSP_TILE_KICK.all, DSP_TILE_STATUS.state, DSP_TILE_STATUS.spare,
   DSP_TILE_STATUS.in_block, DSP_TILE_STATUS.ctx, DSP_TILE_STATUS.exc_code, DSP_TILE_STATUS.swap_entry_hc, DSP_TILE_REPLAY.replays,
   DSP_TILE_REPLAY.slack_exceeded, DSP_TILE_REPLAY.ecc_corrected]

/-- Fields of block FHL, part 0. -/
def rowsFhl0 : List Row :=
  [FHL_LANE_CFG.mode, FHL_LANE_CFG.fec, FHL_LANE_CFG.enable, FHL_LANE_CFG.ei_enable, FHL_LANE_CFG.rx_ei_tolerate,
   FHL_LANE_CFG.peak_manual, FHL_LANE_CFG.peak_code, FHL_LANE_CFG.tx_preset, FHL_LANE_CFG.max_frame, FHL_LANE_CFG2.tx_start_bytes,
   FHL_LANE_CFG2.ei_entry, FHL_LANE_STATUS.state, FHL_LANE_STATUS.in_ei, FHL_LANE_STATUS.peak_in_use, FHL_LANE_STATUS.mode_in_use,
   FHL_LANE_STATUS.on_odd_lane, FHL_LANE_STATUS.cfg_error, FHL_LANE_STATUS.refused, FHL_LANE_STATUS.egress_muted, FHL_LANE_STATUS.ts_settled,
   FHL_LANE_STATUS.rclk_valid, FHL_LANE_STATUS.scan_busy, FHL_RX_COUNTS.rx_err, FHL_RX_COUNTS.rx_overflow, FHL_RX_COUNTS.pause_discarded,
   FHL_TX_COUNTS.tx_discarded, FHL_TX_COUNTS.underrun, FHL_TX_COUNTS.link_down, FHL_FEC_COUNTS.corrected, FHL_FEC_COUNTS.uncorrectable,
   FHL_TS_ADJ_RX.adj, FHL_TS_ADJ_TX.adj, FHL_CLS_DEFAULT.action, FHL_SP_RX_BASE_LO.base_lo, FHL_SP_RX_BASE_HI.base_hi,
   FHL_SP_RX_CFG.size_log2, FHL_SP_RX_CFG.enable, FHL_SP_RX_HEAD.index, FHL_SP_RX_TAIL.index, FHL_SP_TX_BASE_LO.base_lo]

/-- Fields of block FHL, part 1. -/
def rowsFhl1 : List Row :=
  [FHL_SP_TX_BASE_HI.base_hi, FHL_SP_TX_CFG.size_log2, FHL_SP_TX_CFG.enable, FHL_SP_TX_TAIL.index, FHL_SP_TX_HEAD.index,
   FHL_RULE.dmac_val_lo, FHL_RULE.dmac_val_hi, FHL_RULE.dmac_mask_hi, FHL_RULE.dmac_mask_lo, FHL_RULE.etype_val,
   FHL_RULE.etype_mask, FHL_RULE.vlan_val, FHL_RULE.vlan_mask, FHL_RULE.msg_val, FHL_RULE.msg_mask,
   FHL_RULE.eaxc_val, FHL_RULE.eaxc_mask, FHL_RULE.tile, FHL_RULE.strip_w, FHL_RULE.ring_base,
   FHL_RULE.ring_len, FHL_RULE.enable, FHL_RULE.action]

/-- Fields of block PRL, part 0. -/
def rowsPrl0 : List Row :=
  [PRL_CFG.enable, PRL_CFG.lead_yield, PRL_CFG.takeover_on_lane, PRL_CFG.partner_timeout_s, PRL_STATUS.link_state,
   PRL_STATUS.width, PRL_STATUS.tx_sleep, PRL_STATUS.rx_sleep, PRL_STATUS.fit, PRL_STATUS.partner_present,
   PRL_STATUS.release, PRL_STATUS.resync, PRL_STATUS.suspended, PRL_STATUS.cfg_error, PRL_STATUS.dropped,
   PRL_SYM_SLOT.slot_ns, PRL_SYM_FIRST.first_ns, PRL_SYM_LEN.sym_ns, PRL_UDIG_LO.pa_lo, PRL_UDIG_HI.pa_hi,
   PRL_TT_ADJ.adj, PRL_OFFSET.offset, PRL_COUNTS.mismatches, PRL_COUNTS.steps, PRL_COUNTS.takeovers,
   PRL_COUNTS.late_digests, PRL_EQ_BAND.peak_code, PRL_EQ_BAND.tx_preset, PRL_SYNC.first, PRL_SYNC.count,
   PRL_SYNC.kind, PRL_SYNC.enable]

/-- Fields of block SAF, part 0. -/
def rowsSaf0 : List Row :=
  [SAF_CTRL.lock, SAF_CTRL.refused, SAF_CTRL.time_error, SAF_CTRL.internal_fault, SAF_CTRL.rail_alarm,
   SAF_CTRL.plausibility, SAF_CTRL.lost_frame, SAF_CTRL.dsp_halt, SAF_CTRL.bist_fail, SAF_SAFE_CAUSE.mode,
   SAF_SAFE_CAUSE.recovery, SAF_SAFE_CAUSE.time_error, SAF_SAFE_CAUSE.internal_fault, SAF_SAFE_CAUSE.rail_alarm, SAF_SAFE_CAUSE.plausibility,
   SAF_SAFE_CAUSE.lost_frame, SAF_SAFE_CAUSE.dsp_halt, SAF_SAFE_CAUSE.bist_fail, SAF_SAFE_CAUSE.pair, SAF_DEGRADED.stack_channel,
   SAF_DEGRADED.district_spare, SAF_DEGRADED.dsp_spare, SAF_DEGRADED.mem_block, SAF_DEGRADED.fronthaul_lane, SAF_DEGRADED.pcie_lane,
   SAF_DEGRADED.bolryn_lane, SAF_DEGRADED.dram_offline, SAF_DEGRADED.privet_sole, SAF_LOG_STATUS.entries, SAF_LOG_STATUS.lost,
   SAF_LANE_LIM.fh_codewords, SAF_LANE_LIM.fh_blocks, SAF_LANE_LIM.pcie_errors, SAF_LANE_LIM.bolryn_codewords, SAF_INJ_CFG.target,
   SAF_INJ_CFG.variant, SAF_INJ_CFG.pair_inject, SAF_INJ_STATUS.armed, SAF_INJ_STATUS.detected, SAF_INJ_STATUS.missed]

/-- Fields of block SAF, part 1. -/
def rowsSaf1 : List Row :=
  [SAF_INJ_STATUS.mechanism, SAF_INJ_STATUS.latency_us, SAF_WIN.window, SAF_WIN.limit]

/-- Fields of block BIST, part 0. -/
def rowsBist0 : List Row :=
  [BIST_STATUS.cycles, BIST_STATUS.failed, BIST_STATUS.skipped]

/-- Fields of block SEC, part 0. -/
def rowsSec0 : List Row :=
  [SEC_STATUS.owner_slots, SEC_STATUS.debug_disabled, SEC_STATUS.debug_open, SEC_STATUS.grants, SEC_STATUS.debug_signer,
   SEC_DEBUG_REMAIN.seconds, SEC_FINGERPRINT.bytes, SEC_DEBUG_NONCE.bytes, SEC_OWNER_ADDR_LO.addr_lo, SEC_OWNER_ADDR_HI.addr_hi,
   SEC_OWNER_CTRL.go, SEC_OWNER_CTRL.busy, SEC_OWNER_CTRL.done, SEC_OWNER_CTRL.result, SEC_OWNER_CTRL.confirm]

/-- Every field of the register map. -/
def allRows : List Row :=
  rowsDev0 ++ rowsDev1 ++ rowsHci0 ++ rowsPcie0 ++ rowsClk0 ++ rowsTim0 ++
  rowsTim1 ++ rowsThm0 ++ rowsWkt0 ++ rowsPin0 ++ rowsNoc0 ++ rowsDrc0 ++
  rowsDrc1 ++ rowsEnc0 ++ rowsMem0 ++ rowsCfg0 ++ rowsInt0 ++ rowsDsp0 ++
  rowsFhl0 ++ rowsFhl1 ++ rowsPrl0 ++ rowsSaf0 ++ rowsSaf1 ++ rowsBist0 ++
  rowsSec0

end Sys2Proof.Machine
end

