-- ==== Sys2Proof/Machine/Sparse.lean ====
section
/-! DEFINITION. Reading and writing the sparse maps of the state in their one canonical form: keys strictly rising, no entry
equal to the map's default. -/

namespace Sys2Proof.Machine

variable {α : Type}

/-- The entry at key `n`, if one is listed. -/
def sparseFind : Sparse α → Nat → Option α
  | [], _ => none
  | (k, v) :: m, n => if k = n then some v else sparseFind m n

/-- The value at key `n`; an unlisted key reads as the default `d`. -/
def sparseGet (d : α) (m : Sparse α) (n : Nat) : α := (sparseFind m n).getD d

/-- `m` without key `n`. -/
def sparseDel : Sparse α → Nat → Sparse α
  | [], _ => []
  | (k, v) :: m, n => if k = n then sparseDel m n else (k, v) :: sparseDel m n

/-- `m` with `v` listed at key `n`. -/
def sparsePut : Sparse α → Nat → α → Sparse α
  | [], n, v => [(n, v)]
  | (k, w) :: m, n, v =>
    if k = n then (n, v) :: m else if n < k then (n, v) :: (k, w) :: m else (k, w) :: sparsePut m n v

/-- `m` with value `v` at key `n`; writing the default removes the entry. -/
def sparseSet [DecidableEq α] (d : α) (m : Sparse α) (n : Nat) (v : α) : Sparse α :=
  if v = d then sparseDel m n else sparsePut m n v

/-- The keys rise strictly from above `lo`. -/
def sparseRises : Nat → Sparse α → Bool
  | _, [] => true
  | lo, (k, _) :: m => decide (lo ≤ k) && sparseRises (k + 1) m

/-- The canonical form of a sparse map with default `d`. -/
def sparseWf [DecidableEq α] (d : α) (m : Sparse α) : Bool :=
  sparseRises 0 m && m.all (fun p => decide (p.2 ≠ d))

end Sys2Proof.Machine
end

