-- ==== Sys2Proof/Machine/Ops.lean ====
section
/-! DEFINITION. The named operations that every family of commands shares: register fields, time, counting windows, events and
vectors, the fault log, the safe state and the completion of host commands. -/

namespace Sys2Proof.Machine

/-! ## Register fields (R9 to R12) -/

/-- BAR0 offset of instance `(i, j)` of a row's register. -/
def Row.offset (r : Row) (i j : Nat) : Nat := r.base + r.s1 * i + r.s2 * j

/-- The key under which the field's value stands in `State.regs`. -/
def Row.key (r : Row) (i j : Nat) : Nat := r.offset i j * 32 + r.lo

/-- The value of a register field. -/
def State.rd (s : State) (r : Row) (i : Nat := 0) (j : Nat := 0) : Nat :=
  sparseGet (r.resetAt (r.offset i j)) s.regs (r.key i j)

/-- The state with a register field set to `v`, cut to the field's width. -/
def State.wr (s : State) (r : Row) (v : Nat) (i : Nat := 0) (j : Nat := 0) : State :=
  { s with regs := sparseSet (r.resetAt (r.offset i j)) s.regs (r.key i j) (v % 2 ^ r.width) }

/-- A one-bit field as a truth value. -/
def State.rdb (s : State) (r : Row) (i : Nat := 0) (j : Nat := 0) : Bool := s.rd r i j == 1

/-- A field written with a truth value. -/
def State.wrb (s : State) (r : Row) (b : Bool) (i : Nat := 0) (j : Nat := 0) : State := s.wr r (b2n b) i j

/-- A saturating counter field increased by `k`. -/
def State.inc (s : State) (r : Row) (k : Nat := 1) (i : Nat := 0) (j : Nat := 0) : State :=
  s.wr r (satAdd r.width (s.rd r i j) k) i j

/-- Bit `n` of a field set or cleared. -/
def State.wrBit (s : State) (r : Row) (n : Nat) (b : Bool) (i : Nat := 0) (j : Nat := 0) : State :=
  s.wr r (putBit (s.rd r i j) n b) i j

/-- The instance of a row's register that lies at offset `off`. -/
def Row.inst (r : Row) (off : Nat) : Option (Nat × Nat) :=
  let d := off - r.base
  let i := if r.s1 = 0 then 0 else d / r.s1
  let e := if r.s1 = 0 then d else d % r.s1
  let j := if r.s2 = 0 then 0 else e / r.s2
  if r.base ≤ off ∧ i < r.n1 ∧ j < r.n2 ∧ r.s1 * i + r.s2 * j = d then some (i, j) else none

/-- The row of the register map that a key stands for. -/
def rowOfKey (k : Nat) : Option Row := allRows.find? (fun r => k % 32 == r.lo && (r.inst (k / 32)).isSome)

/-- Loads the reset value of every field whose reset column lists class `c` and that `p` admits (R12). -/
def resetRegs (c : Cls) (p : Nat → Row → Bool) (m : Sparse Nat) : Sparse Nat :=
  m.filter (fun e =>
    match rowOfKey e.1 with
    | some r => !(r.cls.contains c && p (e.1 / 32) r)
    | none => true)

/-! ## Free values -/

/-- A free value of width `w`, and the state that has used it. -/
def State.fresh (s : State) (w : Nat) : BitVec w × State :=
  (Config.free w s.free, { s with free := s.free + 1 })

/-! ## Time -/

/-- Length of one hop cycle in ticks of 1/39 ns: 13 on speed grade 3 (3.0 GHz), 15 on grade 2 (2.6 GHz) (R6, R8). -/
def hcTicks (s : State) : Nat := if s.grade2 then 15 else 13

/-- Ticks in a nanosecond, a microsecond, a millisecond and a second. -/
def nsTicks : Nat := 39
def usTicks : Nat := 39000
def msTicks : Nat := 39000000
def secTicks : Nat := 39000000000

/-- The present hop cycle. -/
def nowHc (s : State) : Nat := s.now / hcTicks s

/-- `n` hop cycles in ticks. -/
def hcs (s : State) (n : Nat) : Nat := n * hcTicks s

/-- The hop cycle after a swap edge, in which no port of the design transfers anything and every output holds its level (R97). -/
def holdCycle (s : State) : Bool := s.ctxs.lastSwap.any (fun t => decide (t ≤ s.now) && decide (s.now < t + hcs s 1))

/-- The hop cycles of a period of global channel `c`, where a hop-clock division drives it; 0 where none does (R82, R441). -/
def channelHc (s : State) (c : Nat) : Nat :=
  match s.rd CLK_GCH_SEL.source c with | 1 => 2 | 2 => 3 | 3 => 4 | _ => 0

/-- Global channel `c` carries a clock: a division of the hop clock, or a user PLL that is locked (R82, R441). -/
def channelLive (s : State) (c : Nat) : Bool :=
  channelHc s c != 0 || (decide (8 ≤ s.rd CLK_GCH_SEL.source c) && s.rdb CLK_UPLL_STATUS.locked (s.rd CLK_GCH_SEL.source c - 8))

/-- The LOCAL_OSC frequency that the straps declare, in Hz; 0 for a reserved code (R430). -/
def localHz (s : State) : Nat :=
  match s.rd CLK_WKT_TRIM.fsel with
  | 0 => 10000000 | 1 => 20000000 | 2 => 25000000 | 3 => 38400000 | 4 => 50000000 | 5 => 100000000 | _ => 0

/-- The frequency of a candidate, in Hz (R431). -/
def candHz (s : State) (c : Nat) : Nat := if c = 0 then localHz s else if c ≤ 24 then 156250000 else 0

/-- The input frequency of user PLL `k` in Hz, as its candidate declares it (R440). -/
def upllInput (s : State) (k : Nat) : Nat :=
  let i := s.rd CLK_UPLL_CFG.input k
  candHz s (if i = 0x1F then s.rd CLK_REF_STATUS.current else i)

/-- The rate of user PLL `k`, input * n / (m * o), as a fraction of the tick: edges for each so many ticks (R82, R440). -/
def pllRate (s : State) (k : Nat) : Nat × Nat :=
  (upllInput s k * s.rd CLK_UPLL_CFG.n k, secTicks * (s.rd CLK_UPLL_CFG.m k * s.rd CLK_UPLL_CFG.o k))

/-- The rising edges of user PLL `k` before tick `t`: its rate is what is configured, its phase a free value of its last lock (DESIGN CHOICE, log entry
181). -/
def pllEdges (s : State) (k t : Nat) : Nat :=
  let r := pllRate s k
  ((t - 1) * r.1 + sparseGet 0 s.ctxs.pllPhase k % r.2) / r.2

/-- The tick of rising edge `j` of user PLL `k`. -/
def pllTick (s : State) (k j : Nat) : Nat :=
  let r := pllRate s k
  (j * r.2 - sparseGet 0 s.ctxs.pllPhase k % r.2 + r.1 - 1) / r.1

/-- The tick of the `n`-th edge of channel `c` from tick `t` on, the first one at or after it. -/
def channelTick (s : State) (c t n : Nat) : Nat :=
  let p := channelHc s c * hcTicks s
  if p ≠ 0 then (t + p - 1) / p * p + (n - 1) * p
  else
    let k := s.rd CLK_GCH_SEL.source c - 8
    max t (pllTick s k (pllEdges s k t + n))

/-- Scale of `Tim.fine`: units of the time counter are 2^-16 ns, and `fine` counts 1 / (39 * 10^12) of them. -/
def fineScale : Nat := 39 * 10 ^ 12

/-- Time passes: `d` ticks, over which the time counter advances at its own rate (R446, R447). -/
def advance (s : State) (d : Nat) : State :=
  { s with
    now := s.now + d
    tim := { s.tim with fine := s.tim.fine + d * (65536 * ((10 : Int) ^ 12 + s.tim.ppt).toNat) } }

/-- Time passes up to tick `t`, if `t` is still to come. -/
def advanceTo (s : State) (t : Nat) : State := if s.now < t then advance s (t - s.now) else s

/-- The 96-bit time counter in units of 2^-16 ns. -/
def counter (s : State) : Nat := s.tim.fine / fineScale

/-- The time counter in whole nanoseconds: seconds * 10^9 + nanoseconds. -/
def counterNs (s : State) : Nat := counter s / 65536

/-- The time counter as it will read at tick `t`. -/
def counterAt (s : State) (t : Nat) : Nat := counter (advanceTo s t)

/-- Ticks until the time counter reads `c` or later, by its present rate. -/
def ticksUntil (s : State) (c : Nat) : Nat :=
  let need := c * fineScale - s.tim.fine
  let rate := 65536 * ((10 : Int) ^ 12 + s.tim.ppt).toNat
  (need + rate - 1) / rate

/-- Time passes until the time counter reads `c` or later. -/
def advanceToCounter (s : State) (c : Nat) : State := advance s (ticksUntil s c)

/-- The three fields of a time-counter value (R366): fraction, nanoseconds, seconds. -/
def timeFraction (c : Nat) : Nat := c % 65536
def timeNs (c : Nat) : Nat := c / 65536 % 1000000000
def timeSec (c : Nat) : Nat := c / 65536 / 1000000000

/-- TIME96 (R366): fraction in bits 15..0, nanoseconds in bits 47..16, seconds in bits 95..48. -/
def time96 (c : Nat) : Nat := timeFraction c + timeNs c * 2 ^ 16 + timeSec c % 2 ^ 48 * 2 ^ 48

/-- The time-counter value that a TIME96 spells. -/
def ofTime96 (t : Nat) : Nat := t % 65536 + bits t 16 32 * 65536 + bits t 48 48 * 1000000000 * 65536

/-- The 10 ms radio frame boundary at or after time-counter value `c`. -/
def frameBoundary (c : Nat) : Nat :=
  let p := 10000000 * 65536
  (c + p - 1) / p * p

/-! ## Vectors and device events (R360, R362) -/

/-- The message of vector `v` of function `f`: its entry of the MSI-X table (R336). -/
def msixMessage (s : State) (f v : Nat) : Out :=
  let e := sparseGet (0, 0) s.link.msix (32 * f + v)
  .msix f v e.1 e.2

/-- Signals vector `v` of function `f`: a masked vector sets its pending bit (R360). -/
def signalVector (s : State) (f v : Nat) : State :=
  if sparseGet true s.link.masked (32 * f + v) then
    { s with link := { s.link with pendingMsix := sparseSet false s.link.pendingMsix (32 * f + v) true } }
  else if !s.link.up then s
  else { s with outbox := s.outbox ++ [msixMessage s f v] }

/-- A device event: its cause bit sets, and its PF0 vector is signalled on a 0-to-1 change while enabled (R362). -/
def raiseEvent (s : State) (k : Nat) : State :=
  let row (base : Nat) : Row := { HCI_EVT_CAUSE.swap_event with base := base, lo := k }
  let was := s.rd (row 0x18000) == 1
  let t := s.wr (row 0x18000) 1
  if !was && s.rd (row 0x18004) == 1 then signalVector t 0 (s.rd HCI_EVT_VEC.vector k) else t

/-! ## Register accesses of host software (R44, R564 to R567) -/

/-- PCIE_BLOCKED_ACCESS records an access by function `fn` at `off` of its BAR0 (R571). -/
def recordAccess (s : State) (off fn : Nat) (write stopped : Bool) : State :=
  (((s.wr PCIE_BLOCKED_ACCESS.offset off).wr PCIE_BLOCKED_ACCESS.function fn).wrb PCIE_BLOCKED_ACCESS.write write).wrb
    PCIE_BLOCKED_ACCESS.kind stopped

/-- An access of R567 is counted and recorded. -/
def blockedAccess (s : State) (off fn : Nat) (write : Bool) : State := (recordAccess s off fn write true).inc PCIE_BLOCKED_COUNT.blocked

/-- The offset lies in a block of the CORE domain (R564). -/
def coreBlock (off : Nat) : Bool := (decide (0x90000 ≤ off) && decide (off < 0x150000)) || decide (0x170000 ≤ off)

/-- The domain of the block at `off` answers: CORE from boot stage 0x04, AON from stage 0x01 (R567). -/
def blockAnswers (s : State) (off : Nat) : Bool :=
  if coreBlock off then s.boot.coreUp
  else if 0x40000 ≤ off then !s.boot.porHeld && decide (1 ≤ s.rd DEV_BOOT_STATUS.stage)
  else true

/-- A write that PF0 makes at `off`, acting as `f`: outside the DEV block it is discarded and counted before ASSEMBLY and while the block's
domain is stopped. -/
def regWrite (off : Nat) (s : State) (f : State → State) : State :=
  if !s.link.up then s
  else if 0x10000 ≤ off ∧ (s.rd DEV_MODE.mode = 0 ∨ !blockAnswers s off) then blockedAccess s off 0 true
  else f s

/-- A write in the HCI window of function `fn`, at `off` of that window (R35, R565). -/
def hciWrite (fn off : Nat) (s : State) (f : State → State) : State :=
  if !s.link.up then s
  else if s.rd DEV_MODE.mode = 0 then blockedAccess s (if fn = 0 then 0x10000 + off else off) fn true
  else f s

/-! ## The fault log (R559) -/

/-- Appends one entry: a full log of 512 entries loses its oldest (R559). -/
def appendFault (s : State) (e : FaultEntry) : State :=
  let full := decide (512 ≤ s.safe.log.length)
  let log := (if full then s.safe.log.drop (s.safe.log.length - 511) else s.safe.log) ++ [e]
  let t := { s with safe := { s.safe with log := log, nextSeq := (s.safe.nextSeq + 1) % 2 ^ 32 } }
  let t := t.wr SAF_LOG_STATUS.entries log.length
  if full then t.inc SAF_LOG_STATUS.lost else t

/-- Writes a fault-log entry of kind `k` and raises fault_log for class 2 or higher (R559, R562). -/
def fault (s : State) (k : FaultKind) (unit : Nat := 0) (detail : Nat := 0) (die : Nat := 255)
    (injected : Bool := false) (withheld : Bool := false) (history : Bool := false)
    (degraded : Bool := false) : State :=
  let e : FaultEntry :=
    { seq := s.safe.nextSeq, kind := k, injected := injected, withheld := withheld, history := history,
      setDegraded := degraded, time := counter s, die := die, unit := unit % 65536, detail := detail % 2 ^ 64 }
  let t := appendFault s e
  if 2 ≤ k.cls then raiseEvent t evFaultLog else t

/-- A PA and initiator in a detail field (R562). -/
def paDetail (pa init : Nat) : Nat := pa % 2 ^ 56 + init % 256 * 2 ^ 56

/-! ## Counting windows (R541, R542) -/

/-- The key of item `n` of window kind `k`. -/
def winKey (k n : Nat) : Nat := k * 2 ^ 40 + n

/-- Adds one event to an item's window: the new window, by the programmed values `win` (10 ms units) and `limit` where one opens. -/
def windowAdd (now win limit : Nat) (w : Option Window) : Window :=
  match w with
  | some w => if now < w.opened + w.length * 10 * msTicks then { w with count := w.count + 1 }
              else { opened := now, length := win, limit := limit, count := 1 }
  | none => { opened := now, length := win, limit := limit, count := 1 }

/-- Counts an event of item `n` of kind `k` (0 to 4); true when the item becomes lasting, once (R541). -/
def countEvent (s : State) (k n : Nat) : State × Bool :=
  let w := windowAdd s.now (s.rd SAF_WIN.window k) (s.rd SAF_WIN.limit k) (sparseFind s.safe.windows (winKey k n))
  let t := { s with safe := { s.safe with windows := sparsePut s.safe.windows (winKey k n) w } }
  if w.limit ≤ w.count && !(sparseGet false s.safe.lasted (winKey k n)) then
    ({ t with safe := { t.safe with lasted := sparseSet false t.safe.lasted (winKey k n) true } }, true)
  else (t, false)

/-! ## Completions of host commands (R347, R354) -/

/-- The tracking entry of handle `id`. -/
def trackOf (s : State) (id : Nat) : Option Track := s.link.tracks.find? (fun t => t.id == id)

/-- The tracking entries with the one of handle `id` changed by `f`. -/
def mapTrack (s : State) (id : Nat) (f : Track → Track) : State :=
  { s with link := { s.link with tracks := s.link.tracks.map (fun t => if t.id == id then f t else t) } }

/-- Records the outcome of a command in its tracking entry; the completion is posted by COMPLETION_POST. A command that has
finished is not changed, so a target never receives two completions (R354). -/
def finish (s : State) (id : Nat) (st : Status) (result : Nat := 0) (result2 : Nat := 0) : State :=
  mapTrack s id (fun t =>
    if t.phase = .finished then t
    else { t with phase := .finished, status := st.code, result := result % 2 ^ 64, result2 := result2 % 2 ^ 32,
                  eventTick := some (t.eventTick.getD s.now) })

/-- Finishes a command whose outputs are a time (R366). -/
def finishTime (s : State) (id : Nat) (st : Status) (c : Nat) : State :=
  finish s id st (time96 c % 2 ^ 64) (time96 c / 2 ^ 64)

/-- Sets the commit mark of a command (R354). -/
def commit (s : State) (id : Nat) : State := mapTrack s id (fun t => { t with committed := true })

end Sys2Proof.Machine
end

