-- ==== Sys2Proof/Machine/Safe.lean ====
section
/-! DEFINITION. The safe state (R545 to R548), the mode (R38) and the Wicket's history (R473), shared by every family. -/

namespace Sys2Proof.Machine

/-- The row of bit `b` of SAF_SAFE_CAUSE. -/
def causeRow (b : Nat) : Row :=
  [SAF_SAFE_CAUSE.mode, SAF_SAFE_CAUSE.recovery, SAF_SAFE_CAUSE.time_error, SAF_SAFE_CAUSE.internal_fault, SAF_SAFE_CAUSE.rail_alarm,
    SAF_SAFE_CAUSE.plausibility, SAF_SAFE_CAUSE.lost_frame, SAF_SAFE_CAUSE.dsp_halt, SAF_SAFE_CAUSE.bist_fail].getD b SAF_SAFE_CAUSE.pair

/-- The policy bit of SAF_CTRL of cause `b`, 2 to 8. -/
def policyRow (b : Nat) : Row :=
  [SAF_CTRL.time_error, SAF_CTRL.internal_fault, SAF_CTRL.rail_alarm, SAF_CTRL.plausibility, SAF_CTRL.lost_frame,
    SAF_CTRL.dsp_halt].getD (b - 2) SAF_CTRL.bist_fail

/-- Bit `b` of SAF_SAFE_CAUSE is set. -/
def causeSet (s : State) (b : Nat) : Bool := s.rd (causeRow b) == 1

/-- No bit of SAF_SAFE_CAUSE is set. -/
def noCause (s : State) : Bool := (List.range 10).all (fun b => !causeSet s b)

/-- The policy bit of SAF_CTRL of a policy cause (bits 2 to 8) is 1; the other causes have none (R545). -/
def policyAllows (s : State) (b : Nat) : Bool :=
  if 2 ≤ b ∧ b ≤ 8 then s.rd (policyRow b) == 1 else true

def Tout.off : Tout :=
  { arm := { mode := 0, active := false, safeLevel := false, width := 0, start := 0, period := 0, count := 0 },
    pulses := 0, high := none, next := none }

/-- The timed outputs at levels chosen by `f` (TIM_TOUT_STATUS.level). -/
def setToutLevels (s : State) (f : Tout → Bool) : State :=
  (List.range 8).foldl
    (fun t k => t.wrBit TIM_TOUT_STATUS.level k (f (sparseGet Tout.off t.tim.touts k))) s

/-- FHL_LANE_STATUS_n.egress_muted of every lane set to `b` (R414). -/
def setEgressMuted (s : State) (b : Bool) : State :=
  (List.range 16).foldl (fun t n => t.wrb FHL_LANE_STATUS.egress_muted b n) s

/-- What a lane holds before anything has reached it. -/
def Lane.zero : Lane := { since := 0, wait := false, txEi := false, rxEi := false, back := 0, looped := false, buf := [] }

def laneOf (s : State) (n : Nat) : Lane := sparseGet Lane.zero s.fh.lanes n
def setLane (s : State) (n : Nat) (x : Lane) : State := { s with fh := { s.fh with lanes := sparseSet Lane.zero s.fh.lanes n x } }

/-- Frames that lanes have not yet sent whole end with an invalid FCS and are counted (R58, R414): those of the stream ports, or all. -/
def cutEgress (s : State) (all : Bool) : State :=
  (List.range 16).foldl (fun s n =>
    let x := laneOf s n
    let cut (e : Nat × Bool) : Bool := decide (s.now < e.1) && (all || e.2)
    let k := (x.onWire.filter cut).length
    let s1 := setLane s n { x with onWire := x.onWire.filter (fun e => decide (s.now < e.1) && !cut e) }
    if k = 0 then s1 else ({ s1 with outbox := s1.outbox ++ [.egressCut n k] } : State).inc FHL_TX_COUNTS.tx_discarded k n) s

/-- Transmit mute (R538, R546): stream-port egress is discarded and the timed outputs hold their safe levels. -/
def mute (s : State) : State :=
  setToutLevels (setEgressMuted (cutEgress (s.wr DEV_MODE.safe_state 1) false) true) (fun o => o.arm.safeLevel)

/-- The level an output rests at between its edges (R468): the inverse of its active level, or its safe level while off. -/
def Tout.idleLevel (o : Tout) : Bool := if o.arm.mode = 0 then o.arm.safeLevel else !o.arm.active

/-- A mode 3 level change whose start fell during the mute applies when the mute lifts (R469). -/
def Tout.liftLevel (o : Tout) : Bool := if o.arm.mode = 3 && decide (0 < o.pulses) then o.arm.active else o.idleLevel

/-- The mute lifts (R547): egress is released and the timed outputs return to their idle levels (R469). -/
def unmute (s : State) : State :=
  setToutLevels (setEgressMuted (s.wr DEV_MODE.safe_state 0) false) Tout.liftLevel

/-! ## Control blocks of the Bolryn Link (R507) -/

/-- The link is ACTIVE (R508). -/
def pairActive (s : State) : Bool := s.rd PRL_STATUS.link_state == 5

/-- The role of R507 by the mode. -/
def roleCode (s : State) : Nat := if s.rd DEV_MODE.mode = modeLead then 1 else if s.rd DEV_MODE.mode = modeShadow then 2 else 0

/-- Lane pair `k`, lanes 2k and 2k + 1, is usable: neither dropped nor down (R508). -/
def lanePairUsable (s : State) (k : Nat) : Bool :=
  [2 * k, 2 * k + 1].all (fun n => !bit (s.rd PRL_STATUS.dropped) n && !sparseGet false s.pair.down n)

/-- The width of R506 that the usable lane pairs allow; one that readapts is out of service (R508, R511). -/
def linkWidth (s : State) : Nat :=
  let u := ((List.range 4).filter (lanePairUsable s)).length
  let n := if s.pair.readapt.isEmpty then u else max (u - 1) (min u 2)
  if n = 4 then 8 else if n = 3 then 6 else if n = 2 then 4 else 0

/-- Bolryn lane `n` is in use: the lowest usable lane pairs carry the width, one that readapts being out of service, and the lowest alone while the
receive direction sleeps (R506, R510, R511). -/
def bolrynInUse (s : State) (n : Nat) : Bool :=
  let u := (List.range 4).filter (fun k => lanePairUsable s k && s.pair.readapt.head? != some k)
  pairActive s && (u.take (if s.rdb PRL_STATUS.rx_sleep then 1 else s.rd PRL_STATUS.width / 2)).contains (n / 2)

/-! ## The symbol grid (R513) -/

def slotNs (s : State) : Nat := s.rd PRL_SYM_SLOT.slot_ns
def firstNs (s : State) : Nat := s.rd PRL_SYM_FIRST.first_ns
def symNs (s : State) : Nat := s.rd PRL_SYM_LEN.sym_ns

/-- The grid values meet every condition of R513. -/
def gridOk (s : State) : Bool :=
  slotNs s != 0 && 10000000 % slotNs s == 0 && decide (firstNs s < slotNs s) && decide (2000 ≤ symNs s) && (slotNs s - firstNs s) % symNs s == 0

/-- The first symbol boundary after time-counter ns `ns`. -/
def nextSymbolNs (s : State) (ns : Nat) : Nat :=
  let slot := max 1 (slotNs s)
  let o := ns % slot
  let b := ns - o
  if o < firstNs s then b + min slot (firstNs s)
  else b + min slot (firstNs s + ((o - firstNs s) / max 1 (symNs s) + 1) * max 1 (symNs s))

/-- The first symbol boundary after now, 2^-16 ns. -/
def nextSymbol (s : State) : Nat := nextSymbolNs s (counterNs s) * 65536

/-- The throttle step to enforce: in a pair the deeper of the device's own and its partner's (R486, R529). -/
def throttleTarget (s : State) : Nat :=
  let own := s.rd THM_STATUS.step
  if s.rd DEV_MODE.mode = modeLead ∨ s.rd DEV_MODE.mode = modeShadow then
    max own (match s.pair.partner with | some p => if p.role = 0 then 0 else p.step | none => 0)
  else own

/-- The throttle step enforced at tick `t`: in a pair a change takes effect at the next symbol boundary (R529). -/
def throttleAt (s : State) (t : Nat) : Nat := if s.wkt.stepFrom ≤ t then throttleTarget s else s.wkt.stepWas

def throttleStep (s : State) : Nat := throttleAt s s.now

/-- The step to enforce has changed from that of `before`: at once, or in a pair at the next symbol boundary. -/
def stepChange (before s : State) : State :=
  if throttleTarget before = throttleTarget s then s
  else
    let at_ := if s.rd DEV_MODE.mode = modeLead ∨ s.rd DEV_MODE.mode = modeShadow then s.now + ticksUntil s (nextSymbol s) else s.now
    { s with wkt := { s.wkt with stepWas := throttleAt before s.now, stepFrom := at_ } }

/-- The first issue slot at or after hc `n` that the pattern of a throttle step keeps (R486). -/
def keptHc (step n : Nat) : Nat :=
  let removed := if step = 0 then false else if step = 1 then n % 8 == 7 else if step = 2 then n % 4 == 3 else n % 2 == 1
  if removed then n + 1 else n

/-- A control block that leaves now, with a unit's digest, a takeover notice or a note. Blocks that say nothing new are not recorded. -/
def sendControl (s : State) (note : Note) (unit : Nat := 0) (digest : BitVec 64 := 0) (word : Option (BitVec 64) := none)
    (notice : Bool := false) : State :=
  if !pairActive s then s
  else
    let b : ControlBlock :=
      { role := roleCode s, width := s.rd PRL_STATUS.width, fit := s.rdb PRL_STATUS.fit, selfFault := s.pair.selfFault.isSome,
        takeover := notice, sleep := s.rdb PRL_STATUS.tx_sleep, train := s.pair.txTrain, ackTrain := s.pair.rxTrain, nak := s.pair.rxNak,
        depart := counter s, echoTrain := s.pair.rxTrain, echoArrival := s.pair.rxAt, digest := digest, unit := unit, word := word,
        fault := s.pair.selfFault.getD 0, tq := s.rd TIM_STATUS.tq_class, step := s.rd THM_STATUS.step,
        ctx := s.rd CFG_LATCH_STATUS.active_ctx, note := note }
    let kept := s.pair.sentAt.drop (s.pair.sentAt.length - 63)
    { s with outbox := s.outbox ++ [.controlBlock b],
             pair := { s.pair with txTrain := (s.pair.txTrain + 1) % 2 ^ 32, sentAt := kept ++ [(s.pair.txTrain, counter s)] } }

/-- A data block leaves in the present train and is kept for 64 trains (R506, R507). -/
def putBlock (s : State) (d : PairData) : State :=
  let recent (p : Nat × PairData) : Bool := decide ((s.pair.txTrain + 2 ^ 32 - p.1) % 2 ^ 32 < 64)
  { s with outbox := s.outbox ++ [.dataBlock s.pair.txTrain d],
           pair := { s.pair with replay := s.pair.replay.filter recent ++ [(s.pair.txTrain, d)], lastData := s.now } }

/-- The fence of the base die's reset is up: its initiators issue nothing new (R57). -/
def d0Fenced (s : State) : Bool := match s.boot.d0 with | .fence _ | .drained _ => true | _ => false

/-- The word `w` was delivered poisoned; the mark is taken with it (R16). -/
def takePoison (s : State) (w : CrossWord) : Bool × State :=
  (s.stack.poisoned.contains w, { s with stack := { s.stack with poisoned := s.stack.poisoned.erase w } })

/-- A lead sends a data block to its shadow; while the direction sleeps, or the fence of a base-die reset is up, it waits (R510, R516, R57). -/
def sendData (s : State) (d : PairData) : State :=
  if s.rd DEV_MODE.mode ≠ modeLead ∨ !pairActive s then s
  else if s.rdb PRL_STATUS.tx_sleep || d0Fenced s then { s with pair := { s.pair with tx := s.pair.tx ++ [d] } }
  else putBlock s d

/-- A lead's self-fault report leaves in the next control block, and the lead leaves its role at the next symbol boundary (R530, R532); the
first cause stands. -/
def selfFault (s : State) (code : Nat) : State :=
  if s.rd DEV_MODE.mode = modeLead ∧ s.pair.selfFault = none then
    let t := sendControl (mute { s with pair := { s.pair with selfFault := some code } }) .none
    { t with pair := { t.pair with yieldAt := some (nextSymbol s) } }
  else s

/-- A shadow reports a self-fault in the next control block and is no longer fit (R519, R326). -/
def shadowFault (s : State) (code : Nat) : State :=
  let t := sendControl { s.wr PRL_STATUS.fit 0 with pair := { s.pair with selfFault := some code, synced := false } } .none
  { t with pair := { t.pair with selfFault := s.pair.selfFault } }

/-- The fault_code under which a safe cause is reported (R530, R548). -/
def causeFaultCode (b : Nat) : Nat :=
  if b = scInternalFault then 1 else if b = scLostFrame then 2 else if b = scDspHalt then 4 else 6

/-- A safe cause whose condition holds: it sets if its policy allows, is logged, and mutes in the same hc (R545, R546);
a policy cause makes a lead report and a latched cause makes a shadow unfit (R548). -/
def setCause (s : State) (b : Nat) : State :=
  if !policyAllows s b || causeSet s b then s
  else
    let t := mute (fault (s.wr (causeRow b) 1) .safeCause b)
    if s.rd DEV_MODE.mode = modeLead ∧ 2 ≤ b ∧ b ≤ 8 then selfFault t (causeFaultCode b)
    else if s.rd DEV_MODE.mode = modeShadow ∧ 3 ≤ b then t.wr PRL_STATUS.fit 0
    else t

/-- An unlatched cause (mode, recovery, time_error) ends. -/
def endCause (s : State) (b : Nat) : State := s.wr (causeRow b) 0

/-- The mute lifts if no cause is set (R547). -/
def liftIfClear (s : State) : State := if noCause s && s.rdb DEV_MODE.safe_state then unmute s else s

/-- A record of the Wicket's history of 64, also written to the fault log with `history` set (R473, R559). -/
def history (s : State) (k : FaultKind) (unit : Nat := 0) (detail : Nat := 0) : State :=
  let e : FaultEntry :=
    { seq := s.safe.nextSeq, kind := k, injected := false, withheld := false, history := true,
      setDegraded := false, time := counter s, die := 255, unit := unit, detail := detail }
  let h := (if 64 ≤ s.wkt.history.length then s.wkt.history.drop (s.wkt.history.length - 63)
            else s.wkt.history) ++ [e]
  fault ({ s with wkt := { s.wkt with history := h } }.wr WKT_STATUS.history h.length) k unit detail (history := true)

/-- The mode changes (R38): previous_mode, the saturating count, the history record and the mode cause of R545. -/
def setMode (s : State) (m : Nat) : State :=
  let prev := s.rd DEV_MODE.mode
  let t := ((s.wr DEV_MODE.mode m).wr DEV_MODE.previous_mode prev).inc DEV_MODE.transitions
  let t := history t .modeChange 0 (prev + m * 256)
  if m = modeRun ∨ m = modeLead then endCause t scMode
  else if m = modeDormant then t
  else setCause t scMode

/-- A bit of SAF_DEGRADED sets or clears, and DEV_MODE.degraded follows (R544). -/
def setDegraded (s : State) (b : Nat) (v : Bool) : State :=
  let t := s.wrb { SAF_DEGRADED.stack_channel with lo := b } v
  t.wrb DEV_MODE.degraded ((List.range 9).any (fun i => t.rd { SAF_DEGRADED.stack_channel with lo := i } == 1))

/-- The bits of SAF_DEGRADED (R563). -/
def dgStack : Nat := 0
def dgDistrict : Nat := 1
def dgDsp : Nat := 2
def dgMem : Nat := 3
def dgFronthaul : Nat := 4
def dgPcie : Nat := 5
def dgBolryn : Nat := 6
def dgDram : Nat := 7
def dgPrivet : Nat := 8

/-! ## Lane limits (R541 to R543) -/

/-- The fields of SAF_LANE_LIM. -/
def laneLimRow (k : Nat) : Row :=
  if k = 0 then SAF_LANE_LIM.fh_codewords else if k = 1 then SAF_LANE_LIM.fh_blocks
  else if k = 2 then SAF_LANE_LIM.pcie_errors else SAF_LANE_LIM.bolryn_codewords

/-- The limit in force for the 1 s window that ends now: a change applies from the next window. -/
def laneLimit (s : State) (k : Nat) : Nat :=
  match sparseFind s.safe.laneLims k with
  | some (old, at') => if s.now < at' + secTicks then old else s.rd (laneLimRow k)
  | none => s.rd (laneLimRow k)

/-! ## Dies and domains -/

/-- Upper die `k` (1 to 3) is out of reset with its Shutters open. -/
def dieOpen (s : State) (k : Nat) : Bool := s.boot.dies.getD (k - 1) .off == .open_

/-! ## Fault injection (R554 to R556) -/

/-- The longest time from arming to detection that completes SUCCESS: the detection time of R540 plus 10 ms (R554). -/
def injBound (s : State) (mech : Nat) : Nat :=
  (match mech with
   | 0x01 => 10 * usTicks
   | 0x02 => 100 * msTicks
   | 0x03 => if s.rdb SAF_DEGRADED.privet_sole then 32 * msTicks else 16 * msTicks
   | 0x04 => msTicks
   | 0x0B => 2 * msTicks
   | 0x0C => secTicks
   | _ => 0) + 10 * msTicks

/-- An injection into mechanism `mech` with target `target` is armed. -/
def injArmed (s : State) (mech target : Nat) : Bool :=
  match s.safe.injection with
  | some i => i.mech == mech && i.target == target
  | none => false

/-- The armed injection is detected at tick `at'`: SAF_INJ_STATUS reports it and BIST_RUN set 2 completes (R554). -/
def injectionEnd (s : State) (at' : Nat) (r : Nat := 0) (r2 : Nat := 0) : State :=
  match s.safe.injection with
  | none => s
  | some i =>
    let t := { s with safe := { s.safe with injection := none } }.wr SAF_INJ_STATUS.armed 0
    if at' ≤ i.since + injBound s i.mech then
      let us := (at' - i.since + usTicks - 1) / usTicks
      finish ((t.wr SAF_INJ_STATUS.detected 1).wr SAF_INJ_STATUS.latency_us (min us 0xFFFFFF)) i.id .success r r2
    else finish (t.wr SAF_INJ_STATUS.missed 1) i.id .internalFault

/-- Detection of an injected event that writes no entry of its own when real: INJECTION_DETECTED is logged, with response_withheld
where a write-back is withheld (R556). -/
def injectionLogged (s : State) (at' die : Nat) : State :=
  match s.safe.injection with
  | none => s
  | some i =>
    injectionEnd (fault s .injectionDetected i.mech ((at' - i.since) / nsTicks) die (injected := true)
      (withheld := i.mech == 0x05 || i.mech == 0x06)) at'

end Sys2Proof.Machine
end

