-- ==== Sys2Proof/Machine/Crypto.lean ====
section
/-! DEFINITION. Byte strings, the device's keys (R275, R276), the dual-signature rule (R281), key blobs (R284) and golden signatures (R317). -/

namespace Sys2Proof.Machine

/-! ## Byte strings, little-endian -/

/-- `n` bytes of `l` from offset `o`; bytes past its end are 0. -/
def slice (l : List Byte) (o n : Nat) : List Byte := (List.range n).map (fun i => l.getD (o + i) 0)

/-- The little-endian field of `n` bytes at offset `o`. -/
def field (l : List Byte) (o n : Nat) : Nat := ofBytes (slice l o n)

/-- Every byte of `l` in `[o, o + n)` is 0. -/
def zeros (l : List Byte) (o n : Nat) : Bool := (slice l o n).all (fun b => b == 0)

/-- One bit of an unreflected CRC of `w` bits: the register shifts left and takes the polynomial where its top bit leaves. -/
def crcBit (w poly a : Nat) : Nat := let s := a * 2; if a.testBit (w - 1) then (s % 2 ^ w) ^^^ poly else s % 2 ^ w

/-- An unreflected CRC of `w` bits over a byte string, most significant bit of each byte first. -/
def crc (w poly init : Nat) (l : List Byte) : Nat :=
  l.foldl (fun a b => (List.range 8).foldl (fun x _ => crcBit w poly x) (a ^^^ (b.toNat * 2 ^ (w - 8)))) init

/-- The bytes of an ASCII text. -/
def ascii (t : String) : List Byte := t.toList.map (fun c => BitVec.ofNat 8 c.toNat)

/-! ## Device identity (R275, R276) -/

/-- The root of the device's keys. -/
def ikm : List Byte :=
  leBytes 64 (sha3_512 (leBytes 32 Config.uds.toNat ++ leBytes 32 Config.fuseSeed.toNat ++ ascii "NDL-ID")).toNat

/-- The key seed of index `k`: 1 Ed25519, 2 ML-DSA-65, 3 and 4 ML-KEM-768, 5 the frame signatures. -/
def keySeed (k : Nat) : BitVec 256 := sha3_256 (ikm ++ leBytes 1 k)

def edPub : List Byte := edPublic (keySeed 1)
def mldsaPub : List Byte := mldsaPublic (keySeed 2)
def mlkemPub : List Byte := mlkemPublic (keySeed 3)

/-- The device fingerprint: the first 32 bytes of the hash of the two identity public keys. -/
def fingerprint : List Byte := leBytes 32 (sha3_512 (edPub ++ mldsaPub)).toNat

/-! ## Owner slots (R277, R278) -/

/-- Slot states as SEC_STATUS encodes them. -/
def osBlank : Nat := 0
def osProgrammed : Nat := 1
def osTorn : Nat := 2
def osRevoked : Nat := 3

/-- The state of a slot as fused (R277). -/
def OwnerSlot.state (o : OwnerSlot) : Nat :=
  if o.bits = 1 then osProgrammed
  else if o.bits = 3 then osRevoked
  else if o.bits = 0 ∧ o.ed = 0 ∧ o.ml = 0 then osBlank
  else osTorn

def ownerSlot (s : State) (n : Nat) : OwnerSlot := s.sec.slots.toList.getD n { bits := 0, ed := 0, ml := 0 }

/-- SEC_STATUS.owner_slots of the fuses. -/
def ownerSlotBits (s : State) : Nat :=
  (List.range 4).foldl (fun a n => a + (ownerSlot s n).state * 4 ^ n) 0

/-- The owner key-set hash (R278). -/
def ownerHash (s : State) : BitVec 512 :=
  sha3_512 ((List.range 4).flatMap (fun n =>
    leBytes 1 (ownerSlot s n).bits ++ leBytes 32 (ownerSlot s n).ed.toNat ++ leBytes 32 (ownerSlot s n).ml.toNat))

/-! ## The dual-signature rule (R281) -/

/-- What is checked of a signed object. -/
structure Signed where
  slot : Nat
  domain : String
  digest : List Byte       -- SHA3-512 of the signed body, or an image's digest
  edPub : List Byte
  mlPub : List Byte
  edSig : List Byte
  mlSig : List Byte

/-- The verdict of R281; `enrol` gives the new hashes of the first PROGRAM of slot 0. -/
def dualVerify (s : State) (o : Signed) (enrol : Option (Nat × Nat)) : Status :=
  let sl := ownerSlot s o.slot
  if sl.state = osRevoked ∨ sl.state = osTorn then .keyRevoked
  else
    let usable := match enrol with
      | some _ => sl.state == osBlank
      | none => sl.state == osProgrammed
    let eh := (enrol.map (·.1)).getD sl.ed.toNat
    let mh := (enrol.map (·.2)).getD sl.ml.toNat
    let ed := usable && (sha3_256 o.edPub).toNat == eh && edVerify o.edPub (ascii o.domain ++ o.digest) o.edSig
    let ml := usable && (sha3_256 o.mlPub).toNat == mh && mldsaVerify o.mlPub o.digest o.mlSig (ascii o.domain)
    if ed && ml then .success else if ml then .authFailEd else if ed then .authFailMldsa else .authFailBoth

/-- A signed object held in bytes: its body ends at `body`, and keys and signatures follow each other from `at'`. -/
def signedAt (l : List Byte) (slot : Nat) (domain : String) (body at' : Nat) : Signed :=
  { slot := slot, domain := domain, digest := leBytes 64 (sha3_512 (slice l 0 body)).toNat,
    edPub := slice l at' 32, mlPub := slice l (at' + 32) 1952, edSig := slice l (at' + 1984) 64,
    mlSig := slice l (at' + 2048) 3309 }

/-! ## Key blobs (R283, R284) -/

/-- Unwraps a blob of the given kind: the 64 bytes of its key field, or the status that refuses it. -/
def unwrapBlob (s : State) (l : List Byte) (kind : Nat) (bad : Status) : Status × List Byte :=
  if !(slice l 0 4 == ascii "NDKB" && field l 4 2 == 1 && field l 6 1 == kind && decide (field l 7 1 < 4) &&
       slice l 8 32 == fingerprint) then (bad, [])
  else
    match dualVerify s (signedAt l (field l 7 1) "NDL-KEYBLOB" 0x4B8 0x4B8) none with
    | .success =>
      let ss := mlkemDecaps (keySeed 3) (keySeed 4) (slice l 0x28 1088)
      let kek := sha3_256 (ss ++ fingerprint ++ leBytes 1 kind)
      match gcmOpen kek 0 (slice l 0 0x28) (slice l 0x468 64) (BitVec.ofNat 128 (field l 0x4A8 16)) with
      | none => (.integrityFail, [])
      | some k => if kind = 2 ∧ !zeros k 32 32 then (.integrityFail, []) else (.success, k)
    | st => (st, [])

/-! ## Golden signatures (R317) -/

/-- The signature of frame `f` of context `c` with content `d`; the output length that KMAC128 is given is not stated. -/
@[irreducible]
def frameSig (c f : Nat) (d : Frame) : BitVec 64 :=
  BitVec.ofNat 64 (ofBytes (kmac128 Config.kmacBits 8 (leBytes 32 (keySeed 5).toNat) (ascii "NDL-FRAME")
    (leBytes 4 f ++ leBytes 1 c ++ leBytes 128 d.toNat)))

end Sys2Proof.Machine
end

