-- ==== Sys2Proof/Machine/Cmd.lean ====
section
/-! DEFINITION. What every host command shares: its parameters (R344), the modes that accept it (R369), its start in order (R346), its host
reads (R365), its hold at the commit point in a prepared change (R392), and its outcome. -/

namespace Sys2Proof.Machine

/-! ## Parameters -/

/-- The `n`-byte field at offset `o` of the submission entry. -/
def Track.par (t : Track) (o n : Nat) : Nat := bits t.entry.toNat (8 * o) (8 * n)

/-- A TIME96 parameter at offset `o`: the time-counter value it names. -/
def Track.time (t : Track) (o : Nat) : Nat := ofTime96 (t.par o 12)

/-- A TIME96 field is valid: nanoseconds below 10^9 (R366). -/
def timeOk (v : Nat) : Bool := decide (bits v 16 32 < 1000000000)

/-- A time-counter value more than 1,000 s ahead (R376, R377, R379). -/
def farAhead (s : State) (c : Nat) : Bool := decide (counter s + 1000 * 1000000000 * 65536 < c)

/-! ## Acceptance -/

/-- The Porter executes commands: boot has reached ASSEMBLY, and no reset of the base die is in progress (R57). -/
def porterUp (s : State) : Bool := s.rd DEV_MODE.mode != modeBoot && s.boot.coreUp && s.boot.d0 == .idle

/-- The modes of the summary table (R369) for each opcode. -/
def opModes (op : Nat) : List Nat :=
  let arlhv := [modeAssembly, modeRun, modeLead, modeShadow, modeService]
  let arv := [modeAssembly, modeRun, modeService]
  if op = 0x10 ∨ op = 0x11 ∨ op = 0x12 ∨ op = 0x13 ∨ op = 0x14 ∨ op = 0x15 ∨ op = 0x30 ∨ op = 0x31 ∨ op = 0x32 then arv
  else if op = 0x41 ∨ op = 0x43 then [modeAssembly, modeRun, modeLead, modeService]
  else if op = 0x50 then [modeRun]
  else if op = 0x54 then [modeLead]
  else arlhv

/-- The command's mode allows it; the mode checks of pair commands, MODE_SET and BIST_RUN stand in their own descriptions. -/
def modeAllows (s : State) (op : Nat) : Bool :=
  if op = 0x50 ∨ op = 0x51 ∨ op = 0x52 ∨ op = 0x53 ∨ op = 0x54 ∨ op = 0x7F then true
  else (opModes op).contains (s.rd DEV_MODE.mode)

/-- The commands of the queue fetched before `id`. -/
def earlier (s : State) (t : Track) : List Track :=
  (s.link.tracks.takeWhile (fun u => u.id != t.id)).filter (fun u => u.q == t.q && u.phase != .held)

/-- The command may start now: commands of one queue start in the order of their fetch, and a fenced one waits for all earlier ones (R346). -/
def mayStart (s : State) (t : Track) : Bool :=
  t.phase == .fetched &&
    (if t.fence then (earlier s t).isEmpty else (earlier s t).all (fun u => u.phase != .fetched))

/-- Starts command `id` if its opcode is `op` and it may start: it executes `body`, or completes MODE_FORBIDS (R345, R369). -/
def startCommand (op id : Nat) (s : State) (body : Track → State → State) : State :=
  match trackOf s id with
  | none => s
  | some t =>
    if t.op = op ∧ porterUp s ∧ mayStart s t then
      let s1 := mapTrack s id (fun t => { t with phase := .started, startTick := s.now })
      if modeAllows s op || t.pair.isSome then body t s1 else finish s1 id .modeForbids
    else s

/-- A started command reaches its commit point: it commits, or holds there while its prepared change waits (R392). -/
def reachCommit (s : State) (t : Track) (k : State → State) : State :=
  if t.pair.isSome then mapTrack s t.id (fun t => { t with phase := .prepared }) else k (commit s t.id)

/-- The bytes that a command holds up to its commit point. -/
def holdData (s : State) (id : Nat) (d : List Byte) : State := mapTrack s id (fun t => { t with data := d })

/-! ## Host memory (R365) -/

/-- A started command reads `n` bytes of host memory. -/
def readHost (s : State) (id addr n : Nat) : State :=
  { s with link := { s.link with reads := s.link.reads ++ [{ id := id, addr := addr, length := n, got := [], at_ := s.now }] },
           outbox := s.outbox ++ [.hostRead id addr n] }

/-- The read is no longer awaited. -/
def dropRead (s : State) (id : Nat) : State :=
  { s with link := { s.link with reads := s.link.reads.filter (fun r => r.id != id) } }

/-- A posted write to host memory. -/
def writeHost (s : State) (addr : Nat) (d : List Byte) : State :=
  if s.link.up then { s with outbox := s.outbox ++ [.hostWrite addr d] } else s

/-! ## DMA movers (R57, R334) -/

/-- The lowest free mover. -/
def freeMover (s : State) : Option Nat := (List.range 32).find? (fun m => !(s.dmas.any (fun d => d.mover == m)))

/-- The movers issue: CORE runs, no fence of R57 is up, and the link does not retrain (R334). -/
def moversIssue (s : State) : Bool :=
  s.boot.coreUp && !s.link.training && (match s.boot.d0 with | .idle | .opened _ => true | _ => false)

/-- Captured flip-flop values move to host memory, each set through a free mover, and their SNAPSHOT_FF completes (R59, R314). -/
def snapshotMoves (s : State) : State :=
  if !moversIssue s || !porterUp s || (freeMover s).isNone then s
  else (s.link.tracks.filter (fun t => t.op == 0x16 && t.committed && t.phase == .started)).foldl (fun s t =>
    finish (writeHost s (t.par 0x18 8) t.data) t.id .success t.data.length t.result2) s

/-- Register units of one degree Celsius (R490). -/
def tempUnit : Int := 8

/-- The effective junction temperature is at or above the throttle threshold, or clock swallowing is enforced (R363, THERMAL_LIMIT). -/
def thermalLimit (s : State) : Bool :=
  decide (105 * tempUnit ≤ toSigned 12 (s.rd THM_STATUS.eff_temp)) || decide (0 < throttleStep s)

end Sys2Proof.Machine
end

