-- ==== Sys2Proof/Machine/Thicket.lean ====
section
/-! DEFINITION. Decoding and arithmetic of the Thicket instruction word (chapters 05 and 06): fields, slots, address generators, block
exponent detection and the lane arithmetic. Everything here is about one tile's own data. -/

namespace Sys2Proof.Machine

/-! ## The instruction word (R155 to R166) -/

/-- The operations of the six groups. -/
inductive TOp where
  | nop | wait | br | loop | blkBegin | blkCommit | timer
  | mac | macj | msb | mul | mulj
  | pack | aclr | aload | bexNext | bexClr
  | vadd | vsub | vaddmj | vsubmj | vconj | vshr | vmov | vperm
  | spop | spush | lpop | lpush | mdrd | mdwr | nwr
  | setr | setrv | getr
  deriving DecidableEq, Repr

/-- The operation a word's group and op fields name; none where they name none (R156). -/
def topOf (w : Nat) : Option TOp :=
  match bits w 60 4, bits w 57 3 with
  | 0, 0 => some .nop | 0, 1 => some .wait | 0, 2 => some .br | 0, 3 => some .loop
  | 0, 4 => some .blkBegin | 0, 5 => some .blkCommit | 0, 6 => some .timer
  | 1, 0 => some .mac | 1, 1 => some .macj | 1, 2 => some .msb | 1, 3 => some .mul | 1, 4 => some .mulj
  | 2, 0 => some .pack | 2, 1 => some .aclr | 2, 2 => some .aload | 2, 3 => some .bexNext
  | 2, 4 => some .bexClr
  | 3, 0 => some .vadd | 3, 1 => some .vsub | 3, 2 => some .vaddmj | 3, 3 => some .vsubmj
  | 3, 4 => some .vconj | 3, 5 => some .vshr | 3, 6 => some .vmov | 3, 7 => some .vperm
  | 4, 0 => some .spop | 4, 1 => some .spush | 4, 2 => some .lpop | 4, 3 => some .lpush
  | 4, 4 => some .mdrd | 4, 5 => some .mdwr | 4, 6 => some .nwr
  | 5, 0 => some .setr | 5, 1 => some .setrv | 5, 2 => some .getr
  | _, _ => none

/-! Fields of the compute slot (R157, R158, R165, R166). -/
def fD (w : Nat) : Nat := bits w 52 4
def fA (w : Nat) : Nat := bits w 48 4
def fB (w : Nat) : Nat := bits w 44 4
def fBc (w : Nat) : Bool := bit w 43
def fEl (w : Nat) : Nat := bits w 40 3
def fImm8 (w : Nat) : Nat := bits w 32 8
def fM8 (w : Nat) : Bool := bit w 56
def fSel (w : Nat) : Nat := bits w 50 6
def fImm16 (w : Nat) : Nat := bits w 32 16

/-- Part width and accumulator part width of the word's mode (R122, R123). -/
def partW (m8 : Bool) : Nat := if m8 then 8 else 16
def accW (m8 : Bool) : Nat := if m8 then 24 else 48
def partN (m8 : Bool) : Nat := if m8 then 16 else 8

/-- The operation is of the MAC group. -/
def TOp.isMac : TOp → Bool
  | .mac | .macj | .msb | .mul | .mulj => true
  | _ => false

/-- The operation writes accumulator d through the MAC pipeline (R163). -/
def TOp.writesAcc : TOp → Bool
  | .mac | .macj | .msb | .mul | .mulj | .aclr | .aload => true
  | _ => false

/-- The V register that the compute operation writes. -/
def destV (op : TOp) (w : Nat) : Option Nat :=
  match op with
  | .pack | .vadd | .vsub | .vaddmj | .vsubmj | .vconj | .vshr | .vmov | .vperm | .spop | .lpop | .mdrd => some (fD w)
  | .getr => some (fB w)
  | _ => none

/-- The V registers that the compute operation reads. -/
def srcV (op : TOp) (w : Nat) : List Nat :=
  match op with
  | .mac | .macj | .msb | .mul | .mulj | .vadd | .vsub | .vaddmj | .vsubmj | .mdwr | .nwr => [fA w, fB w]
  | .aload | .vconj | .vshr | .vmov | .vperm | .spush | .lpush | .mdrd => [fA w]
  | .setrv => [fB w]
  | _ => []

/-- Cycles from issue to the result in V (R171). -/
def destLat : TOp → Nat
  | .pack => 3
  | .mdrd => 9
  | _ => 1

/-! ## Memory slots (R167, R168) -/

/-- A decoded memory slot. -/
structure Slot where
  kind : Nat
  scalar : Bool
  gen : Nat
  v : Nat
  upd : Nat
  imm : Int
  deriving DecidableEq, Repr

def slotOf (z : Nat) : Slot :=
  { kind := bits z 14 2, scalar := bit z 13, gen := bits z 10 3, v := bits z 6 4, upd := bits z 4 2,
    imm := toSigned 4 (bits z 0 4) }

def xSlot (w : Nat) : Slot := slotOf (bits w 16 16)
def ySlot (w : Nat) : Slot := slotOf (bits w 0 16)

/-- A slot that the encoding forbids (R156, R167). -/
def slotIllegal (z : Nat) : Bool :=
  let k := slotOf z
  if k.kind = 0 then bits z 0 14 != 0
  else decide (6 ≤ k.gen) || k.upd == 3 || (k.kind == 3 && k.v != 0) ||
    (bits z 0 4 != 0 && !(decide (k.gen < 4) && k.upd == 2))

/-- The compute field breaks its form: a reserved bit or value (R156 to R166). -/
def computeIllegal (op : TOp) (w : Nat) : Bool :=
  let noB := fB w != 0 || fBc w || fEl w != 0
  let bForm := (decide (4 ≤ fEl w) && !fM8 w) || (fEl w != 0 && !fBc w)
  match op with
  | .nop | .wait | .blkCommit | .bexNext | .bexClr => bits w 32 24 != 0
  | .br => bits w 43 8 != 0 || decide (10 ≤ fD w)
  | .loop => false
  | .blkBegin | .timer => bits w 48 8 != 0
  | .mac | .macj | .msb | .mul | .mulj => bForm || fImm8 w != 0
  | .pack => noB || bits w 38 2 != 0
  | .aclr => bits w 32 20 != 0
  | .aload => noB || bits w 37 3 != 0
  | .vadd | .vsub | .vaddmj | .vsubmj => bForm || fImm8 w != 0
  | .vconj | .vmov => noB || fImm8 w != 0
  | .vshr => noB || bits w 36 4 != 0
  | .vperm => noB
  | .spop | .lpop => bits w 44 8 != 0 || bits w 32 11 != 0
  | .spush | .lpush => fD w != 0 || fB w != 0 || bits w 32 11 != 0
  | .mdrd => bits w 32 16 != 0
  | .mdwr | .nwr => fD w != 0 || bits w 32 12 != 0
  | .setr => bits w 48 2 != 0
  | .setrv | .getr => bits w 48 2 != 0 || bits w 32 12 != 0

/-- The two slots load one register, or a slot loads the register that the compute operation writes (R170). -/
def loadClash (op : TOp) (w : Nat) : Bool :=
  let x := xSlot w
  let y := ySlot w
  (x.kind == 1 && y.kind == 1 && x.v == y.v) ||
    (match destV op w with
     | some d => (x.kind == 1 && x.v == d) || (y.kind == 1 && y.v == d)
     | none => false)

/-! ## Parts and lanes (R122 to R125) -/

/-- Part `p` of a V register: parts alternate real and imaginary, element 0 lowest. -/
def vPart (pw : Nat) (v : BitVec 128) (p : Nat) : Int := toSigned pw (v.toNat >>> (pw * p))

/-- A V register from its parts. -/
def ofParts (pw : Nat) (l : List Int) : BitVec 128 :=
  BitVec.ofNat 128 (l.foldr (fun x acc => ofSigned pw x + acc * 2 ^ pw) 0)

/-- Part `p` of an accumulator. -/
def accPart (aw : Nat) (v : BitVec 384) (p : Nat) : Int := toSigned aw (v.toNat >>> (aw * p))

/-- An accumulator from its parts. -/
def ofAccParts (aw : Nat) (l : List Int) : BitVec 384 :=
  BitVec.ofNat 384 (l.foldr (fun x acc => ofSigned aw x + acc * 2 ^ aw) 0)

/-- `x` saturated to `w` bits, and whether it saturated (R124, R125). -/
def satTo (w : Nat) (x : Int) : Int × Bool :=
  let hi : Int := 2 ^ (w - 1) - 1
  let lo : Int := -(2 ^ (w - 1))
  if hi < x then (hi, true) else if x < lo then (lo, true) else (x, false)

/-- `x` shifted right by `n` with rounding half up (R125). -/
def shrRound (x : Int) (n : Nat) : Int := if n = 0 then x else (x + 2 ^ (n - 1)) / 2 ^ n

/-- Saturates every part; the flag says whether any saturated. -/
def satAll (w : Nat) (l : List Int) : List Int × Bool :=
  (l.map (fun x => (satTo w x).1), l.any (fun x => (satTo w x).2))

/-- The element of b that serves lane `k`: itself, or the broadcast element (R157). -/
def bLane (w k : Nat) : Nat := if fBc w then fEl w else k

/-- Part `p` of the complex products of a and b, lane by lane (R123); `conj` takes the conjugate of b. -/
def productPart (w : Nat) (conj : Bool) (a b : BitVec 128) (p : Nat) : Int :=
  let pw := partW (fM8 w)
  let k := p / 2
  let ar := vPart pw a (2 * k)
  let ai := vPart pw a (2 * k + 1)
  let br := vPart pw b (2 * bLane w k)
  let bi := (if conj then -1 else 1) * vPart pw b (2 * bLane w k + 1)
  if p % 2 = 0 then ar * br - ai * bi else ar * bi + ai * br

/-- The accumulator after a MAC-group operation, and whether a part saturated (R124, R162). -/
def macResult (op : TOp) (w : Nat) (acc : BitVec 384) (a b : BitVec 128) : BitVec 384 × Bool :=
  let aw := accW (fM8 w)
  let conj := op == .macj || op == .mulj
  let l := (List.range (partN (fM8 w))).map (fun p =>
    let x := productPart w conj a b p
    match op with
    | .mac | .macj => accPart aw acc p + x
    | .msb => accPart aw acc p - x
    | _ => x)
  let r := satAll aw l
  (ofAccParts aw r.1, r.2)

/-- PACK (R125, R163). -/
def packResult (w : Nat) (acc : BitVec 384) : BitVec 128 × Bool :=
  let l := (List.range (partN (fM8 w))).map (fun p => shrRound (accPart (accW (fM8 w)) acc p) (bits w 32 6))
  let r := satAll (partW (fM8 w)) l
  (ofParts (partW (fM8 w)) r.1, r.2)

/-- ALOAD (R163). -/
def aloadResult (w : Nat) (a : BitVec 128) : BitVec 384 × Bool :=
  let l := (List.range (partN (fM8 w))).map (fun p => vPart (partW (fM8 w)) a p * 2 ^ bits w 32 5)
  let r := satAll (accW (fM8 w)) l
  (ofAccParts (accW (fM8 w)) r.1, r.2)

/-- The VALU operations (R164). The rotation of b by -j saturates by itself where it negates the least number (DEDUCED, log entry 117). -/
def valuResult (op : TOp) (w : Nat) (a b : BitVec 128) : BitVec 128 × Bool :=
  let pw := partW (fM8 w)
  let ap := vPart pw a
  let bRe (p : Nat) := vPart pw b (2 * bLane w (p / 2))
  let bIm (p : Nat) := vPart pw b (2 * bLane w (p / 2) + 1)
  let b1 (p : Nat) := if p % 2 = 0 then bRe p else bIm p
  let turned (p : Nat) := satTo pw (-(bRe p))
  match op with
  | .vperm =>
    (BitVec.ofNat 128 ((List.range 4).foldr
      (fun k acc => (a.toNat >>> (32 * bits w (32 + 2 * k) 2)) % 2 ^ 32 + acc * 2 ^ 32) 0), false)
  | .vmov => (a, false)
  | _ =>
    let f (p : Nat) : Int :=
      match op with
      | .vadd => ap p + b1 p
      | .vsub => ap p - b1 p
      | .vaddmj => if p % 2 = 0 then ap p + bIm p else ap p + (turned p).1
      | .vsubmj => if p % 2 = 0 then ap p - bIm p else ap p - (turned p).1
      | .vconj => if p % 2 = 0 then ap p else -(ap p)
      | .vshr => shrRound (ap p) (bits w 32 4)
      | _ => ap p
    let parts := List.range (partN (fM8 w))
    let r := satAll pw (parts.map f)
    let turns := (op == .vaddmj || op == .vsubmj) && parts.any (fun p => p % 2 == 1 && (turned p).2)
    (ofParts pw r.1, r.2 || turns)

/-! ## Address generators (R130 to R132) -/

def Ag.zero : Ag := { b := 0, l := 0, i := 0, s := 0 }

/-- `bitrev` of R132. -/
def bitRev (v : Nat) : Nat → Nat
  | 0 => 0
  | w + 1 => bitRev (v / 2) w + v % 2 * 2 ^ w

/-- AG0 to AG3 stepped by `step` (R130). -/
def Ag.update (g : Ag) (step : Int) : Ag :=
  let m : Int := if g.l = 0 then 4096 else g.l.toNat
  { g with i := BitVec.ofInt 12 (((g.i.toNat : Int) + step) % m) }

/-- A write of L or I that leaves I at or past L wraps I (R130). -/
def Ag.wrap (g : Ag) : Ag :=
  if g.l ≠ 0 ∧ g.l.toNat ≤ g.i.toNat then { g with i := BitVec.ofNat 12 (g.i.toNat % g.l.toNat) } else g

/-- AG4 or AG5 stepped by offset `m` (R132). -/
def AgAnchor.update (g : AgAnchor) (m : Nat) : AgAnchor :=
  let mask := 2 ^ g.w
  let i := g.i.toNat
  if g.reverse then { g with i := BitVec.ofNat 12 (bitRev ((bitRev i g.w + bitRev (m % mask) g.w) % mask) g.w % mask) }
  else { g with i := BitVec.ofNat 12 ((i + m) % mask) }

/-- The element address a generator gives (R130, R167). -/
def agAddr (r : TileRegs) (gen : Nat) : Nat :=
  if gen = 4 then (r.ag4.b.toNat + r.ag4.i.toNat) % 4096
  else if gen = 5 then (r.ag5.b.toNat + r.ag5.i.toNat) % 4096
  else
    let g := sparseGet Ag.zero r.ag gen
    (g.b.toNat + g.i.toNat) % 4096

/-- The update that a slot makes to its generator (R131, R167). -/
def slotUpdate (r : TileRegs) (k : Slot) : TileRegs :=
  if k.kind = 0 ∨ k.upd = 0 then r
  else if k.gen = 4 then
    { r with ag4 := r.ag4.update (if k.upd = 1 then r.ag4.m.toNat else r.ag5.m.toNat) }
  else if k.gen = 5 then
    { r with ag5 := r.ag5.update (if k.upd = 1 then r.ag4.m.toNat else r.ag5.m.toNat) }
  else
    let g := sparseGet Ag.zero r.ag k.gen
    { r with ag := sparseSet Ag.zero r.ag k.gen (g.update (if k.upd = 1 then g.s.toInt else k.imm)) }

/-- Both slots' updates; one generator named by both updates once, by the X slot (R131). -/
def slotUpdates (r : TileRegs) (w : Nat) : TileRegs :=
  let x := xSlot w
  let y := ySlot w
  let r1 := slotUpdate r x
  if x.kind ≠ 0 ∧ y.kind ≠ 0 ∧ x.gen = y.gen then r1 else slotUpdate r1 y

/-! ## Block exponent detection (R133, R134) -/

/-- Redundant sign bits of a part taken as 16 bits; 0 and -1 count as 15 (R133). -/
def headroomOf (x : Int) : Nat :=
  let m : Nat := if 0 ≤ x then x.toNat else (-x - 1).toNat
  if m = 0 then 15 else 14 - m.log2

/-- The smallest count over the parts of a store. -/
def storeHeadroom (m8 : Bool) (v : BitVec 128) (scalar : Bool) : Nat :=
  let n := if scalar then partN m8 / 4 else partN m8
  (List.range n).foldl (fun a p => min a (headroomOf (vPart (partW m8) v p))) 15

/-- BEXMODE fields (R133). -/
def bexTrack (r : TileRegs) : Bool := bit r.bexMode.toNat 0
def bexScope (r : TileRegs) : Nat := bits r.bexMode.toNat 1 2
def bexPreshift (r : TileRegs) : Nat := bits r.bexMode.toNat 4 4
def bexGuard (r : TileRegs) : Nat := bits r.bexMode.toNat 8 4

/-- BEXMODE with another preshift. -/
def setPreshift (r : TileRegs) (n : Nat) : TileRegs :=
  { r with bexMode := BitVec.ofNat 16 (r.bexMode.toNat - bexPreshift r * 16 + n % 16 * 16) }

/-- BEX.NEXT (R134). -/
def bexNext (r : TileRegs) : TileRegs :=
  let p := bexGuard r - r.headroom
  { setPreshift r p with expTotal := min 255 (r.expTotal + p), headroom := 15 }

/-- BEX.CLR (R163). -/
def bexClr (r : TileRegs) : TileRegs := { setPreshift r 0 with headroom := 15, expTotal := 0 }

/-! ## X and Y memory (R127, R168) -/

/-- Four consecutive elements. -/
def memVec (m : Sparse (BitVec 32)) (a : Nat) : BitVec 128 :=
  BitVec.ofNat 128 ((List.range 4).foldr (fun k acc => (sparseGet 0 m (a + k)).toNat + acc * 2 ^ 32) 0)

/-- Element `k` of a V register. -/
def vElem (v : BitVec 128) (k : Nat) : BitVec 32 := BitVec.ofNat 32 (v.toNat >>> (32 * k))

/-- What a load slot delivers: a vector with preshift, or one element broadcast (R133, R168). -/
def loadValue (m : Sparse (BitVec 32)) (k : Slot) (a : Nat) (m8 : Bool) (pre : Nat) : BitVec 128 :=
  if k.scalar then
    let e := (sparseGet 0 m a).toNat
    BitVec.ofNat 128 (e + e * 2 ^ 32 + e * 2 ^ 64 + e * 2 ^ 96)
  else ofParts (partW m8) ((List.range (partN m8)).map (fun p => shrRound (vPart (partW m8) (memVec m a) p) pre))

/-- A store slot's memory. -/
def storeValue (m : Sparse (BitVec 32)) (k : Slot) (a : Nat) (v : BitVec 128) : Sparse (BitVec 32) :=
  if k.scalar then sparseSet 0 m a (vElem v 0)
  else (List.range 4).foldl (fun m j => sparseSet 0 m (a + j) (vElem v j)) m

/-! ## The registers of a tile after reset (R590) -/

def AgAnchor.zero : AgAnchor := { b := 0, i := 0, w := 1, reverse := false, m := 0 }

def TileRegs.zero : TileRegs :=
  { v := [], acc := [], ag := [], ag4 := AgAnchor.zero, ag5 := AgAnchor.zero, headroom := 15, expTotal := 0,
    bexMode := 0, loop0 := 0, loop1 := 0, sat := false }

def TileFifo.empty : TileFifo := { q := [], popped := 0, freed := [] }

/-- A tile as every reset of the logic die leaves it (R590). -/
def Tile.zero : Tile :=
  { regs := TileRegs.zero, ckpt := TileRegs.zero, ckptLoops := [], x := [], y := [], prog := [], vectors := [], newVectors := [],
    ranges := [], newRanges := [], oldRanges := [], staging := [], blockOuts := 0, streamIn0 := TileFifo.empty,
    streamIn1 := TileFifo.empty, linkUp := TileFifo.empty, linkDown := TileFifo.empty, arriving := [],
    state := .idle, pc := 0, inBlock := false, swapPending := false, ctx := 0, exc := 0, events := [],
    timer := none, loops := [], hc := 0, lastHc := 0, xUses := [], yUses := [], vReady := [], accReady := [], checkAt := 0, reads := [], blockPc := 0,
    blockHc := 0, slack := 0, attempts := 0, cost := 0, slackNoted := false, inHandler := false, lasting := false,
    before := .idle, copyAt := 0, resumeCkpt := false, edgeTick := 0 }

def tileOf (s : State) (t : Nat) : Tile := sparseGet Tile.zero s.tiles t

def setTile (s : State) (t : Nat) (x : Tile) : State := { s with tiles := sparseSet Tile.zero s.tiles t x }

/-- AG4, AG5 and their selectors exist on the tile: an anchor, or a spare serving it (R120, R132). -/
def hasAnchor (s : State) (t : Nat) : Bool := t % 64 % 16 == 0 || s.rdb DSP_TILE_STATUS.spare t

/-! ## Special registers (R166) -/

/-- TST as a program reads it (R152). -/
def tstValue (x : Tile) : Nat :=
  b2n x.inBlock + b2n x.swapPending * 2 + x.ctx % 8 * 4 + b2n x.regs.sat * 32 + x.exc % 256 * 256

/-- The value GETR reads (R166). -/
def readSpecial (x : Tile) (sel : Nat) : Nat :=
  let r := x.regs
  let g := sparseGet Ag.zero r.ag (sel % 4)
  let an := if sel % 2 = 0 then r.ag4 else r.ag5
  if sel < 0x04 then g.b.toNat
  else if sel < 0x08 then g.l.toNat
  else if sel < 0x0C then g.i.toNat
  else if sel < 0x10 then g.s.toNat
  else if sel < 0x12 then an.b.toNat
  else if sel < 0x14 then an.i.toNat
  else if sel < 0x16 then an.w + b2n an.reverse * 16
  else if sel < 0x18 then an.m.toNat
  else if sel = 0x18 then r.headroom + r.expTotal * 256
  else if sel = 0x19 then r.bexMode.toNat
  else if sel = 0x1A then r.loop0.toNat
  else if sel = 0x1B then r.loop1.toNat
  else tstValue x % 65536

/-- The value breaks the selector's range (R166). -/
def specialRange (sel v : Nat) : Bool :=
  if 0x04 ≤ sel ∧ sel < 0x08 then decide (4096 < v % 8192)
  else if 0x14 ≤ sel ∧ sel < 0x16 then v % 16 == 0 || decide (12 < v % 16)
  else if sel = 0x19 then bit v 3 || bits v 12 4 != 0
  else false

/-- The write rule of a selector (R166). -/
def writeSpecial (r : TileRegs) (sel v : Nat) : TileRegs :=
  let n := sel % 4
  let g := sparseGet Ag.zero r.ag n
  let putG (g : Ag) : TileRegs := { r with ag := sparseSet Ag.zero r.ag n g }
  let an := if sel % 2 = 0 then r.ag4 else r.ag5
  let putA (a : AgAnchor) : TileRegs := if sel % 2 = 0 then { r with ag4 := a } else { r with ag5 := a }
  if sel < 0x04 then putG { g with b := BitVec.ofNat 12 v }
  else if sel < 0x08 then putG ({ g with l := BitVec.ofNat 13 v }).wrap
  else if sel < 0x0C then putG ({ g with i := BitVec.ofNat 12 v }).wrap
  else if sel < 0x10 then putG { g with s := BitVec.ofNat 13 v }
  else if sel < 0x12 then putA { an with b := BitVec.ofNat 12 v }
  else if sel < 0x14 then putA { an with i := BitVec.ofNat 12 (v % 2 ^ an.w) }
  else if sel < 0x16 then putA { an with w := v % 16, reverse := bit v 4 }
  else if sel < 0x18 then putA { an with m := BitVec.ofNat 12 v }
  else if sel = 0x18 then { r with headroom := v % 16, expTotal := bits v 8 8 }
  else if sel = 0x19 then { r with bexMode := BitVec.ofNat 16 v }
  else if sel = 0x1A then { r with loop0 := BitVec.ofNat 16 v }
  else if sel = 0x1B then { r with loop1 := BitVec.ofNat 16 v }
  else if bit v 5 then { r with sat := false } else r

end Sys2Proof.Machine
end

