-- ==== Sys2Proof/Machine/Tiles.lean ====
section
/-! DEFINITION. The Thicket tiles: issuing an instruction (R155 to R177), blocks and replay (R144 to R149), events and vectors (R136 to
R138), ports and links (R140 to R143) and column spares (R150, R151). -/

namespace Sys2Proof.Machine

/-! ## Vectors and states -/

/-- The vector `ev` of context `c`, if enabled (R136). -/
def vectorOf (x : Tile) (c ev : Nat) : Option Nat :=
  match sparseFind x.vectors (c * 8 + ev) with
  | some (a, true) => some a
  | _ => none

/-- The context whose vectors are in force: the one active in the fabric (R136). -/
def activeCtx (s : State) : Option Nat :=
  if s.rdb CFG_LATCH_STATUS.active_valid then some (s.rd CFG_LATCH_STATUS.active_ctx) else none

/-- Enters a vector for an event of hop cycle `n`: every loop ends, and the first instruction issues in the next hc, from RUN 2 hc after the last
instruction before it at the earliest (R160, R173). -/
def takeVector (x : Tile) (addr n : Nat) : Tile :=
  { x with state := .run, pc := addr % 2048, loops := [], hc := max (n + 1) (if x.state = .run then x.lastHc + 2 else x.hc), resumeCkpt := false }

/-- Takes EV0 of context `c` (R138): swap_pending clears, TST.ctx becomes `c`, and the hc since the edge is recorded. -/
def takeEv0 (s : State) (t c addr : Nat) : State :=
  let x := tileOf s t
  let y := takeVector { x with swapPending := false, ctx := c } addr (nowHc s)
  let waited := (max y.hc (nowHc s)) - x.edgeTick / hcTicks s
  (setTile s t y).wr DSP_TILE_STATUS.swap_entry_hc (min waited 0xFFFF) t

/-- The fifo of input `k`: 0, 1 stream-in; 2 from above; 3 from below. -/
def Tile.fifo (x : Tile) (k : Nat) : TileFifo :=
  if k = 0 then x.streamIn0 else if k = 1 then x.streamIn1 else if k = 2 then x.linkUp else x.linkDown

def Tile.setFifo (x : Tile) (k : Nat) (f : TileFifo) : Tile :=
  if k = 0 then { x with streamIn0 := f } else if k = 1 then { x with streamIn1 := f }
  else if k = 2 then { x with linkUp := f } else { x with linkDown := f }

/-- Entries that a pop can still take. -/
def TileFifo.avail (f : TileFifo) : Nat := f.q.length - f.popped

/-- An event becomes pending; a repeat merges with it (R137). -/
def raiseTileEvent (x : Tile) (ev : Nat) : Tile := { x with events := sparseSet false x.events ev true }

/-- Appends an entry to an input FIFO; its event rises when the FIFO was empty (R136, R140). A FIFO whose entries are all popped tentatively counts as
empty, and a rewind raises no event (DESIGN CHOICE, log entry 135). -/
def pushFifo (x : Tile) (k : Nat) (d : BitVec 128) : Tile :=
  let f := x.fifo k
  let y := x.setFifo k { f with q := f.q ++ [d] }
  if f.avail = 0 then raiseTileEvent y (k + 1) else y

/-! ## Blocks -/

/-- Rewinds the tentative pops of every FIFO (R148). -/
def rewindPops (x : Tile) : Tile :=
  { x with
    streamIn0 := { x.streamIn0 with popped := 0 }, streamIn1 := { x.streamIn1 with popped := 0 }
    linkUp := { x.linkUp with popped := 0 }, linkDown := { x.linkDown with popped := 0 } }

/-- Frees the entries that a FIFO's open block consumed (R144). -/
def TileFifo.free (f : TileFifo) (hc : Nat) : TileFifo :=
  { q := f.q.drop f.popped, popped := 0, freed := f.freed.filter (fun h => decide (hc < h + 2)) ++ List.replicate f.popped hc }

def freePops (x : Tile) (hc : Nat) : Tile :=
  { x with
    streamIn0 := x.streamIn0.free hc, streamIn1 := x.streamIn1.free hc
    linkUp := x.linkUp.free hc, linkDown := x.linkDown.free hc }

/-- Discards the open block: its staged outputs go, its pops are rewound, and the checkpoint is restored with the loops that enclose the block
(R148, R149, R176). -/
def abandonBlock (x : Tile) : Tile :=
  let y := rewindPops x
  { y with staging := y.staging.take (y.staging.length - y.blockOuts), blockOuts := 0, regs := y.ckpt,
           reads := y.reads.filter (fun r => decide (r.ready < y.blockHc + 9)), loops := y.ckptLoops, inBlock := false,
           attempts := 0, cost := 0, slackNoted := false, vReady := [], accReady := [] }

/-- The tile stands outside a block, and no block is about to be replayed (R138, R148). -/
def Tile.betweenBlocks (x : Tile) : Bool := !x.inBlock && x.attempts == 0

/-! ## Exceptions (R174 to R177) -/

/-- A tile raises exception `code`: an open block is abandoned, exc_code is written, and EV7 is taken, or EV0 in its
place where a swap is pending, or the tile enters HALTED (R176, R177). Every exception but a residue failure is counted in the fault log. -/
def raiseExc (s : State) (t code : Nat) (injected : Bool := false) : State :=
  let x0 := tileOf s t
  let x := if x0.inBlock then abandonBlock x0 else x0
  let x := { x with exc := code, attempts := 0, cost := 0, slackNoted := false }
  let s := if code = 8 then s else fault s .dspException t code (die := 2) (injected := injected)
  match (if x.inHandler then none else vectorOf x x.ctx 7) with
  | none => setTile s t { x with state := .halted, resumeCkpt := false }
  | some a7 =>
    match (if x.swapPending then (activeCtx s).bind (fun c => (vectorOf x c 0).map (fun a => (c, a))) else none) with
    | some (c, a) => takeEv0 (setTile s t x) t c a
    | none => setTile s t { takeVector { x with swapPending := false } a7 (nowHc s) with inHandler := true }

/-! ## Checks before issue -/

/-- The precise exceptions of the instruction, first in the order of R175. A LOOP of LOOP0 inside the body of LOOP1 raises none (DESIGN CHOICE, log entry
188). -/
def staticExc (s : State) (t : Nat) (x : Tile) (op : TOp) (w : Nat) : Option Nat :=
  let xs := xSlot w
  let ys := ySlot w
  let anchor := hasAnchor s t
  let sel := fSel w
  let isReg := op == .setr || op == .setrv || op == .getr
  let vGet (n : Nat) : BitVec 128 := sparseGet 0 x.regs.v n
  let illegal := computeIllegal op w || slotIllegal (bits w 16 16) || slotIllegal (bits w 0 16) || loadClash op w
  let slotAnchor (k : Slot) : Bool := k.kind != 0 && decide (4 ≤ k.gen) && !anchor
  let invalid :=
    (op.writesAcc && decide (4 ≤ fD w)) || (op == .pack && decide (4 ≤ fA w)) || slotAnchor xs || slotAnchor ys ||
      (isReg && (decide (0x1D ≤ sel) || (decide (0x10 ≤ sel ∧ sel < 0x18) && !anchor)))
  let nesting := (op == .blkBegin && x.inBlock) || (op == .blkCommit && !x.inBlock) || (op == .wait && x.inBlock)
  let lc := if bit w 55 then 1 else 0
  let len := if bits w 32 6 = 0 then 64 else bits w 32 6
  let loopBad := op == .loop &&
    (x.loops.any (fun f => f.lc == lc) ||
      (lc == 1 && x.loops.any (fun f => f.lc == 0 && decide (f.last < x.pc + len))))
  let range := (op == .pack && decide (47 < bits w 32 6)) ||
    (op == .setr && specialRange sel (fImm16 w)) || (op == .setrv && specialRange sel ((vGet (fB w)).toNat % 65536))
  let row := t % 64
  let edge := (op == .lpop || op == .lpush) && (if fBc w then row == 63 else row == 0)
  let off := (vElem (vGet (fA w)) 0).toNat
  let slotAlign (k : Slot) : Bool :=
    (k.kind == 1 || k.kind == 2) && !k.scalar && agAddr x.regs k.gen % 4 != 0
  let align := slotAlign xs || slotAlign ys ||
    ((op == .mdrd || op == .mdwr) && (off % 16 != 0 || bits off 23 9 != 0)) || (op == .nwr && off % 16 != 0)
  if illegal then some 1 else if invalid then some 2 else if nesting then some 9 else if loopBad then some 10
  else if range then some 11 else if edge then some 5 else if align then some 3 else none

/-- The program address lies outside the range of the context whose vector was last taken (R174, code 0x0C). -/
def outOfRange (x : Tile) : Bool :=
  match sparseFind x.ranges x.ctx with
  | some (lo, n) => decide (x.pc < lo) || decide (lo + n ≤ x.pc)
  | none => true

/-- V registers that the instruction reads or writes. -/
def usesV (op : TOp) (w : Nat) : List Nat :=
  let slotV (k : Slot) : List Nat := if k.kind = 1 ∨ k.kind = 2 then [k.v] else []
  srcV op w ++ (destV op w).toList ++ slotV (xSlot w) ++ slotV (ySlot w)

/-- The first hc at or after `n` whose issue slot is kept; the step of a group of 8 hc is the one enforced at its start (R486). -/
def issueSlot (s : State) (n : Nat) : Nat := keptHc (throttleAt s (n / 8 * 8 * hcTicks s)) n

/-- The hc in which the instruction issues: its operands are ready, its writes keep their order, and its slot is not
removed by throttling (R171, R172, R486). An ALOAD into an accumulator with a pending write does not wait for it (DESIGN CHOICE, log entry 186). -/
def issueHc (s : State) (x : Tile) (op : TOp) (w : Nat) : Nat :=
  let v (n : Nat) : Nat := sparseGet 0 x.vReady n
  let storeV (k : Slot) : Nat := if k.kind = 2 then v k.v else 0
  let loadV (k : Slot) : Nat := if k.kind = 1 then v k.v - 2 else 0
  let src := (srcV op w).foldl (fun a n => max a (v n)) 0
  let dst := match destV op w with | some d => v d - destLat op | none => 0
  let acc := if op = .pack then sparseGet 0 x.accReady (fA w)
             else if op.writesAcc then sparseGet 0 x.accReady (fD w) - 5 else 0
  let com := if op = .blkCommit then x.checkAt else 0
  issueSlot s
    ([x.hc, nowHc s, src, dst, acc, com, storeV (xSlot w), storeV (ySlot w), loadV (xSlot w), loadV (ySlot w)].foldl max 0)

/-- Room for a link write in the neighbour's FIFO: entries held, on their way, or freed less than 2 hc ago (R141). -/
def linkRoom (y : Tile) (down : Bool) (n : Nat) : Bool :=
  let f := if down then y.linkUp else y.linkDown
  let coming := (y.arriving.filter (fun a => a.1 == !down)).length
  y.state != .copying && decide (f.q.length + coming + (f.freed.filter (fun h => decide (n < h + 2))).length < 8)

/-- The neighbour below (`down`) or above. -/
def neighbour (t : Nat) (down : Bool) : Nat := if down then t + 1 else t - 1

/-- Which input FIFO a pop takes from: SPOP port 0 or 1, LPOP from above or below. -/
def popFifo (op : TOp) (w : Nat) : Option Nat :=
  match op with
  | .spop => some (b2n (fBc w))
  | .lpop => some (2 + b2n (fBc w))
  | _ => none

/-- The output that the instruction makes (R165). -/
def outputOf (s : State) (t : Nat) (x : Tile) (op : TOp) (w : Nat) : Option StagedOut :=
  let a := sparseGet 0 x.regs.v (fA w)
  let b := sparseGet 0 x.regs.v (fB w)
  let _ := s
  match op with
  | .spush => some { kind := .streamOut (b2n (fBc w)), data := a }
  | .lpush => some { kind := .linkOut (fBc w), data := a }
  | .mdwr => some { kind := .memWrite (t / 64 * 256 * 0x8000 + (vElem a 0).toNat), data := b }
  | .nwr => some { kind := .nocWrite ((vElem a 1).toNat % 2 ^ 24 * 2 ^ 32 + (vElem a 0).toNat), data := b }
  | _ => none

/-- The ticks at which the design takes the entries that stream port `k` still buffers at tick `t`. -/
def streamHeld (s : State) (k t : Nat) : List Nat := (sparseGet [] s.ctxs.ports.outs k).filter (fun e => decide (t < e))

/-- The tick at which the design takes what stream-out port `p` of a tile accepts in hc `n`: on an edge of the binding's channel, after what the port
buffers (R88). -/
def streamTakes (s : State) (t p n : Nat) : Nat :=
  let k := t * 4 + 2 + p
  channelTick s ((sparseFind s.ctxs.ports.dsp k).getD 0) (max (n * hcTicks s) ((streamHeld s k (n * hcTicks s)).getLastD 0) + 1) (1 + Config.streamWait k n)

/-- Delivers one released output (R141, R145, R165): a stream entry to its port, a link entry on its 2 hc way, a memory-die write to the group path, a
NoC write to the column port. -/
def releaseOut (s : State) (t n : Nat) (o : StagedOut) : State :=
  match o.kind with
  | .streamOut p =>
    let k := t * 4 + 2 + p
    let l := streamHeld s k (n * hcTicks s)
    let e := streamTakes s t p n
    { s with outbox := s.outbox ++ [.tileStream t p e o.data],
             ctxs := { s.ctxs with ports := { s.ctxs.ports with outs := sparseSet [] s.ctxs.ports.outs k (l ++ [e]) } } }
  | .linkOut down =>
    let m := neighbour t down
    let y := tileOf s m
    setTile s m { y with arriving := y.arriving ++ [(!down, o.data, n + 2)] }
  | .memWrite a => { s with mem := { s.mem with pathWrites := s.mem.pathWrites ++ [{ tile := t, addr := a, data := o.data, hc := n }] } }
  | .nocWrite pa =>
    let k := bits pa 4 2
    let r : NocReq :=
      { init := 0x80 + t / 64, tag := 0, owner := .tile t, qos := 0, write := true, pa := pa - pa % 64, kidValid := false,
        kid := 0, len := 1, be := BitVec.ofNat 64 (0xFFFF <<< (16 * k)), data := [BitVec.ofNat 512 (o.data.toNat <<< (128 * k))] }
    { s with noc := { s.noc with waiting := s.noc.waiting ++ [r] } }

/-- Port `p` of the tile to or from the fabric is bound: 0, 1 stream-in, 2, 3 stream-out (R87, R100). -/
def dspBound (s : State) (t p : Nat) : Bool := (sparseFind s.ctxs.ports.dsp (t * 4 + p)).any (channelLive s)

/-- Stream-out port `p` can accept in hop cycle `h`: the active context binds it, the hop cycle is not that after a swap edge (R97, R100), and its buffer has
room (R88), of a depth that the spec does not give. -/
def streamRoom (s : State) (t p h : Nat) : Bool :=
  dspBound s t (2 + p) && !holdCycle s && decide ((streamHeld s (t * 4 + 2 + p) (h * hcTicks s)).length ≤ Config.streamDepth)

/-- The instruction reads or writes a V register that an MDRD has not delivered. -/
def awaitsRead (x : Tile) (op : TOp) (w : Nat) : Bool := x.reads.any (fun r => (usesV op w).contains r.v)

/-- The instruction stalls: an empty pop, a full output, an MDRD register not yet delivered, or a commit that waits (R161, R165). -/
def stalls (s : State) (t : Nat) (x : Tile) (op : TOp) (w : Nat) : Bool :=
  let pop := match popFifo op w with | some k => (x.fifo k).avail == 0 | none => false
  let push := match outputOf s t x op w with
    | some o =>
      if x.inBlock then decide (128 ≤ x.staging.length)
      else match o.kind with
        | .linkOut down => !linkRoom (tileOf s (neighbour t down)) down (issueHc s x op w)
        | .streamOut p => !streamRoom s t p (issueHc s x op w)
        | _ => false
    | none => false
  awaitsRead x op w || pop || push || (op == .blkCommit && x.reads.any (fun r => decide (x.blockHc + 9 ≤ r.ready)))

/-- The block breaks its limits: a 129th staged output, a 17th stream pop or a 9th link pop (R145). -/
def blockLimit (s : State) (t : Nat) (x : Tile) (op : TOp) (w : Nat) : Bool :=
  x.inBlock &&
    ((match outputOf s t x op w with | some _ => decide (128 ≤ x.blockOuts) | none => false) ||
      (match popFifo op w with
       | some k => decide ((if k < 2 then 16 else 8) ≤ (x.fifo k).popped)
       | none => false))

/-! ## Execution -/

/-- The condition of BR (R159). -/
def brCond (x : Tile) (c : Nat) : Bool :=
  match c with
  | 0 => true
  | 1 => x.streamIn0.avail != 0
  | 2 => x.streamIn1.avail != 0
  | 3 => x.linkUp.avail != 0
  | 4 => x.linkDown.avail != 0
  | 5 => x.regs.sat
  | 6 => x.swapPending
  | 7 => x.regs.loop0 != 0
  | 8 => x.regs.loop1 != 0
  | _ => decide (x.regs.headroom < bexGuard x.regs)

/-- The counter of a loop. -/
def loopCount (r : TileRegs) (lc : Nat) : Nat := if lc = 0 then r.loop0.toNat else r.loop1.toNat

def setLoopCount (r : TileRegs) (lc n : Nat) : TileRegs :=
  if lc = 0 then { r with loop0 := BitVec.ofNat 16 n } else { r with loop1 := BitVec.ofNat 16 n }

/-- The next address after an instruction at `pc` that does not branch: loop back-edges and fall-through (R160). -/
def loopNext (r : TileRegs) (pc : Nat) : List LoopFrame → TileRegs × Nat × List LoopFrame
  | [] => (r, (pc + 1) % 2048, [])
  | f :: fs =>
    if f.last = pc then
      if 1 < loopCount r f.lc then (setLoopCount r f.lc (loopCount r f.lc - 1), f.first, f :: fs)
      else loopNext (setLoopCount r f.lc 0) pc fs
    else (r, (pc + 1) % 2048, f :: fs)

/-- The register effect of the compute operation on registers `r0` (as before the instruction) into `r`. TST.sat shows from the issue (DESIGN CHOICE, log
entry 187), and GETR reads a register as it was before the instruction (DESIGN CHOICE, log entry 189). -/
def computeRegs (op : TOp) (w : Nat) (x : Tile) (pop : BitVec 128) (r : TileRegs) : TileRegs :=
  let v (n : Nat) : BitVec 128 := sparseGet 0 x.regs.v n
  let acc (n : Nat) : BitVec 384 := sparseGet 0 x.regs.acc n
  let putV (d : Nat) (p : BitVec 128 × Bool) : TileRegs :=
    { r with v := sparseSet 0 r.v d p.1, sat := r.sat || p.2 }
  let putA (d : Nat) (p : BitVec 384 × Bool) : TileRegs :=
    { r with acc := sparseSet 0 r.acc d p.1, sat := r.sat || p.2 }
  match op with
  | .mac | .macj | .msb | .mul | .mulj => putA (fD w) (macResult op w (acc (fD w)) (v (fA w)) (v (fB w)))
  | .pack => putV (fD w) (packResult w (acc (fA w)))
  | .aclr => putA (fD w) (0, false)
  | .aload => putA (fD w) (aloadResult w (v (fA w)))
  | .bexNext => bexNext r
  | .bexClr => bexClr r
  | .vadd | .vsub | .vaddmj | .vsubmj | .vconj | .vshr | .vmov | .vperm =>
    putV (fD w) (valuResult op w (v (fA w)) (v (fB w)))
  | .spop | .lpop => putV (fD w) (pop, false)
  | .setr => writeSpecial r (fSel w) (fImm16 w)
  | .setrv => writeSpecial r (fSel w) ((v (fB w)).toNat % 65536)
  | .getr => putV (fB w) (BitVec.ofNat 128 (readSpecial x (fSel w)), false)
  | _ => r

/-- The slots: stores with their headroom counts, loads and generator updates, on the registers before the instruction
(R131, R133, R167 to R169). The loads' values come back with the registers to be written after the compute operation. -/
def slotsEffect (x : Tile) (w : Nat) : Tile × List (Nat × BitVec 128) :=
  let m8 := fM8 w
  let r := x.regs
  let xs := xSlot w
  let ys := ySlot w
  let xa := agAddr r xs.gen
  let ya := agAddr r ys.gen
  let pre := bexPreshift r
  let loads := (if xs.kind = 1 then [(xs.v, loadValue x.x xs xa m8 pre)] else []) ++
    (if ys.kind = 1 then [(ys.v, loadValue x.y ys ya m8 pre)] else [])
  let inScope (yMem : Bool) : Bool := bexTrack r &&
    (match bexScope r with | 0 => !yMem | 1 => yMem | 2 => true | _ => false)
  let head (k : Slot) (yMem : Bool) (h : Nat) : Nat :=
    if k.kind = 2 ∧ inScope yMem then min h (storeHeadroom m8 (sparseGet 0 r.v k.v) k.scalar) else h
  let mx := if xs.kind = 2 then storeValue x.x xs xa (sparseGet 0 r.v xs.v) else x.x
  let my := if ys.kind = 2 then storeValue x.y ys ya (sparseGet 0 r.v ys.v) else x.y
  let r1 := { slotUpdates r w with headroom := head ys true (head xs false r.headroom) }
  ({ x with x := mx, y := my, regs := r1 }, loads)

/-- Where the next instruction is, and the bubble the control operation costs (R158, R160, R173). A loop ends or repeats by its counter as
the instruction issues; a counter that the instruction itself writes keeps what it wrote (DEDUCED, from R160 and R169). -/
def controlNext (op : TOp) (w : Nat) (x : Tile) (r : TileRegs) : TileRegs × Nat × List LoopFrame × Nat :=
  let pc := x.pc
  match op with
  | .br =>
    if brCond x (fD w) != bit w 51 then
      let target := bits w 32 11
      (r, target, x.loops.filter (fun f => decide (f.first ≤ target ∧ target ≤ f.last)), 1)
    else
      let n := loopNext r pc x.loops
      (n.1, n.2.1, n.2.2, 0)
  | .loop =>
    let lc := if bit w 55 then 1 else 0
    let len := if bits w 32 6 = 0 then 64 else bits w 32 6
    let r1 := if bit w 54 then r else setLoopCount r lc (bits w 38 16)
    if loopCount r1 lc = 0 then (r1, (pc + 1 + len) % 2048, x.loops, 1)
    else (r1, (pc + 1) % 2048, { lc := lc, first := pc + 1, last := pc + len } :: x.loops, 0)
  | _ =>
    let n := loopNext r pc x.loops
    (n.1, n.2.1, n.2.2, 0)

/-- The scoreboard after an instruction that issued at `n` (R171). -/
def scoreboard (x : Tile) (op : TOp) (w n : Nat) : Tile :=
  let ld (k : Slot) (m : Sparse Nat) : Sparse Nat := if k.kind = 1 then sparseSet 0 m k.v (n + 2) else m
  let vr := ld (ySlot w) (ld (xSlot w) x.vReady)
  let vr := match destV op w with | some d => sparseSet 0 vr d (n + destLat op) | none => vr
  let x := { x with vReady := vr }
  if op.writesAcc then
    { x with accReady := sparseSet 0 x.accReady (fD w) (n + 5), checkAt := max x.checkAt (n + 5) }
  else x

/-- The tile-state effect of the flow and IO operations issued at `n`. -/
def flowEffect (op : TOp) (w n : Nat) (x0 x : Tile) (t : Nat) : Tile :=
  match op with
  | .wait => { x with state := .idle, inHandler := false }
  | .blkBegin =>
    let again := decide (0 < x.attempts) && x.blockPc == x0.pc
    { x with ckpt := x0.regs, ckptLoops := x0.loops, inBlock := true, blockPc := x0.pc, blockHc := n, slack := bits w 32 16, blockOuts := 0,
             checkAt := 0, attempts := if again then x.attempts else 0, cost := if again then x.cost else 0,
             slackNoted := again && x.slackNoted, inHandler := false }
  | .blkCommit =>
    { freePops x n with relHc := max x.relHc (n + 1), inBlock := false, blockOuts := 0, attempts := 0, cost := 0, slackNoted := false }
  | .timer => { x with timer := if bits w 32 16 = 0 then none else some (n + bits w 32 16) }
  | .mdrd =>
    let a := (vElem (sparseGet 0 x0.regs.v (fA w)) 0).toNat
    { x with reads := x.reads ++ [{ v := fD w, addr := t / 64 * 256 * 0x8000 + a, ready := n + 9, data := none }] }
  | _ => x

/-- One pop: the entry, and the tile with it taken, tentatively inside a block (R144). -/
def doPop (x : Tile) (k n : Nat) : BitVec 128 × Tile :=
  let f := x.fifo k
  let d := f.q.getD f.popped 0
  if x.inBlock then (d, x.setFifo k { f with popped := f.popped + 1 })
  else (d, x.setFifo k { f with q := f.q.drop 1, freed := f.freed.filter (fun h => decide (n < h + 2)) ++ [n] })

/-- The spare of the tile's group is in use, being copied to, or bad (R150, R151, R553). -/
def spareGone (s : State) (t : Nat) : Bool :=
  bit (s.rd DSP_COL_SPARE.used (t / 64)) (t % 64 / 16) || sparseGet false s.safe.failedSpares (0x100000000 + t / 64 * 4 + t % 64 / 16) ||
    s.tiles.any (fun p => p.1 / 16 == t / 16 && p.2.state == .copying)

/-- A fault becomes lasting in a tile whose group has no spare left (R151). -/
def spareExhaust (s : State) (t : Nat) : State :=
  fault (s.wrBit DSP_COL_SPARE.exhausted (t % 64 / 16) true (t / 64)) .spareExhausted (t / 64 * 4 + t % 64 / 16) 1 (die := 2)

/-- The residue and parity check fails at hc `e` (R148). Inside a block it replays, or halts the tile on the third attempt in a row;
outside it raises the residue exception. The failure counts toward the tile's window (R150, R151). -/
def residueFail (s : State) (t e : Nat) (injected : Bool) : State :=
  let c := if injected then (s, false) else countEvent s 4 t
  let s := if injected then injectionLogged c.1 (max s.now (e * hcTicks s)) 2 else c.1
  let spareUsed := spareGone s t
  let wantSpare (s : State) : State := if spareUsed then spareExhaust s t else setTile s t { tileOf s t with lasting := true }
  let s := if c.2 then wantSpare s else s
  let x := tileOf s t
  if !x.inBlock then raiseExc s t 8
  else
    let cost := x.cost + (e - x.blockHc) + 4
    let tries := x.attempts + 1
    let y := { abandonBlock x with attempts := tries, cost := cost, pc := x.blockPc, hc := e + 4 }
    let beyond := x.slack != 0 && decide (x.slack < cost) && !x.slackNoted
    let s := if beyond then
        let s := fault s .dspSlackExceeded t cost (die := 2) (injected := injected)
        if injected then s else s.inc DSP_TILE_REPLAY.slack_exceeded 1 t
      else s
    if 3 ≤ tries then
      let s := setTile s t { y with state := .halted, resumeCkpt := true, attempts := 0, cost := 0 }
      let s := fault s .dspHalted t 0 (die := 2) (injected := injected)
      if spareUsed then
        let s := if c.2 then s else wantSpare s
        if injected then s else setCause s scDspHalt
      else setTile s t { tileOf s t with lasting := true }
    else
      let s := if injected then s else s.inc DSP_TILE_REPLAY.replays 1 t
      setTile s t { y with slackNoted := x.slackNoted || beyond }

/-! ## Issue -/

/-- A loaded register of which the words `lo` and `hi` are in double error: what they delivered is a free value (R128). A scalar load has one word. -/
def poisonLoad (s : State) (scalar lo hi : Bool) (v : BitVec 128) : BitVec 128 × State :=
  if scalar then (if lo then s.fresh 128 else (v, s))
  else
    let a := if lo then s.fresh 64 else (v.extractLsb' 0 64, s)
    let b := if hi then a.2.fresh 64 else (v.extractLsb' 64 64, a.2)
    (b.1 ++ a.1, b.2)

/-- The loads of an instruction, with what their check codes find. -/
def poisonLoads (s : State) (loads : List (Nat × BitVec 128)) (f : Finds) (w : Nat) : State × List (Nat × BitVec 128) :=
  let xs := xSlot w
  loads.foldl (fun a p =>
    let ofX := xs.kind = 1 ∧ xs.v = p.1
    let r := poisonLoad a.1 (if ofX then xs.scalar else (ySlot w).scalar) ((if ofX then f.x else f.y) == .double) ((if ofX then f.x2 else f.y2) == .double) p.2
    (r.2, a.2 ++ [(p.1, r.1)])) (s, [])

/-- The findings of the words that the instruction's slots load. -/
def slotFinds (f : Finds) (w : Nat) : Finds :=
  let xs := xSlot w
  let ys := ySlot w
  { fetch := f.fetch, x := if xs.kind = 1 then f.x else .ok, x2 := if xs.kind = 1 ∧ !xs.scalar then f.x2 else .ok,
    y := if ys.kind = 1 then f.y else .ok, y2 := if ys.kind = 1 ∧ !ys.scalar then f.y2 else .ok }

/-- One of the loaded words is in double error. -/
def loadsBad (f : Finds) : Bool := f.x == .double || f.x2 == .double || f.y == .double || f.y2 == .double

/-- Single errors corrected in X and Y accesses are counted (R128). -/
def countEcc (s : State) (t : Nat) (e : Ecc) : State :=
  if e = .single then s.inc DSP_TILE_REPLAY.ecc_corrected 1 t else s

/-- The hcs in which a slot uses its memory, those that are past left out (R129). -/
def slotUse (s : State) (l : List Nat) (k : Slot) (n : Nat) : List Nat :=
  let l := l.filter (fun h => decide (nowHc s ≤ h))
  if k.kind = 1 ∨ k.kind = 2 then l ++ [n] else l

/-- The instruction issues and acts (R126, R155 to R173). -/
def execute (op : TOp) (t w : Nat) (f : Finds) (s0 : State) : State :=
  let x0 := tileOf s0 t
  let xs := xSlot w
  let ys := ySlot w
  let f := slotFinds f w
  let n := issueHc s0 x0 op w
  let s1 := countEcc (countEcc (countEcc (countEcc s0 t f.x) t f.x2) t f.y) t f.y2
  let out := outputOf s1 t x0 op w
  let sl := slotsEffect x0 w
  let pl := poisonLoads s1 sl.2 f w
  let s2 := pl.1
  let popped := match popFifo op w with
    | some k => doPop sl.1 k n
    | none => (0, sl.1)
  let x1 := popped.2
  let tracked := bexTrack x0.regs && bexScope x0.regs == 3 && (xs.kind == 2 || ys.kind == 2)
  let fr := if tracked then s2.fresh 4 else (0, s2)
  let s3 := fr.2
  let x1 := if tracked then { x1 with regs := { x1.regs with headroom := fr.1.toNat } } else x1
  let c := controlNext op w { x1 with loops := x0.loops } x1.regs
  let r1 := computeRegs op w x0 popped.1 c.1
  let r3 := { r1 with v := pl.2.foldl (fun m p => sparseSet 0 m p.1 p.2) r1.v }
  let x2 := { x1 with regs := r3, pc := c.2.1, loops := c.2.2.1, hc := n + 1 + c.2.2.2, lastHc := n,
                        xUses := slotUse s1 x1.xUses xs n, yUses := slotUse s1 x1.yUses ys n }
  let x3 := flowEffect op w n x0 (scoreboard x2 op w n) t
  let x4 := match out with
    | some o => if x0.inBlock then { x3 with staging := x3.staging ++ [o], blockOuts := x3.blockOuts + 1 } else x3
    | none => x3
  let s4 := setTile s3 t x4
  let s5 := match out with
    | some o => if x0.inBlock then s4 else releaseOut s4 t n o
    | none => s4
  let s6 := if loadsBad f then raiseExc s5 t 4 else s5
  if op.isMac && injArmed s6 0x08 t then residueFail s6 t (n + 5) true else s6

/-- A Thicket instruction command: the instruction that the tile's program counter names issues if it is `op`. An exception found before
issue is taken in its place; a stalled instruction, one of a tile that waits between blocks for its substitution (R150), and one that is not the next of a running tile, changes nothing. -/
def issue (op : TOp) (t : Nat) (f : Finds) (s : State) : State :=
  let x := tileOf s t
  let w := (sparseGet 0 x.prog x.pc).toNat
  if x.state ≠ .run ∨ (x.swapPending ∧ x.betweenBlocks) ∨ (x.lasting ∧ x.betweenBlocks ∧ !spareGone s t) then s
  else if outOfRange x then raiseExc s t 0x0C
  else if f.fetch = .double then raiseExc s t 4
  else
    let s1 := countEcc s t f.fetch
    match topOf w with
    | none => raiseExc s1 t 1
    | some o =>
      if o ≠ op then s
      else
        match staticExc s1 t x op w with
        | some code => if (code = 3 ∨ code = 11) ∧ awaitsRead x op w then s else raiseExc s1 t code
        | none =>
          if blockLimit s1 t x op w then raiseExc s1 t 6
          else if stalls s1 t x op w then s
          else if x.inBlock ∧ x.blockHc + 65536 < issueHc s1 x op w then raiseExc s1 t 7
          else execute op t w f s1

/-! ## Vectors, ports and links as commands -/

/-- A tile takes what is due (R136 to R138): EV0 after a swap edge, or the first pending enabled event of an idle or halted tile. -/
def entryVector (t : Nat) (s : State) : State :=
  let x := tileOf s t
  if x.state = .copying ∨ (x.state = .run ∧ (!x.betweenBlocks ∨ !x.swapPending)) then s
  else
    match activeCtx s with
    | none => setTile s t { x with swapPending := false }
    | some c =>
      if x.swapPending then
        match vectorOf x c 0 with
        | some a => takeEv0 s t c a
        | none => setTile s t { x with swapPending := false }
      else
        let order := if x.state = .halted then [6] else [1, 2, 3, 4, 5, 6]
        match order.find? (fun ev => sparseGet false x.events ev && (vectorOf x c ev).isSome) with
        | some ev =>
          setTile s t { takeVector { x with events := sparseSet false x.events ev false, ctx := c }
            ((vectorOf x c ev).getD 0) (nowHc s) with resumeCkpt := false }
        | none => s

/-- The tile timer expires (R158): EV5 becomes pending. -/
def timerExpiry (t : Nat) (s : State) : State :=
  let x := tileOf s t
  match x.timer with
  | none => s
  | some n => setTile (advanceTo s (n * hcTicks s)) t (raiseTileEvent { x with timer := none } 5)

/-- The data of the oldest read that port B has answered reaches its V register (R142); poisoned data raises poison (R165). A read
issued before the open block also reaches the checkpoint, so that a replay keeps it (R149). -/
def readReturn (t : Nat) (s : State) : State :=
  let x := tileOf s t
  match x.reads.find? (fun r => r.data.isSome) with
  | none => s
  | some r =>
    if x.state = .copying then s
    else
      let d := r.data.getD (false, 0)
      let s1 := advanceTo s (r.ready * hcTicks s)
      let put (g : TileRegs) : TileRegs := { g with v := sparseSet 0 g.v r.v d.2 }
      let early := x.inBlock && decide (r.ready < x.blockHc + 9)
      let y := { x with regs := put x.regs, ckpt := if early then put x.ckpt else x.ckpt, reads := x.reads.erase r,
                        vReady := sparseSet 0 x.vReady r.v (max r.ready (nowHc s1)) }
      let s2 := setTile s1 t y
      if d.1 then raiseExc s2 t 4 else s2

/-- The next link write on its way arrives in the tile's link-in FIFO (R141). -/
def linkArrival (t : Nat) (s : State) : State :=
  let x := tileOf s t
  match x.arriving with
  | [] => s
  | (down, d, n) :: rest =>
    if x.state = .copying then s
    else setTile (advanceTo s (n * hcTicks s)) t (pushFifo { x with arriving := rest } (if down then 3 else 2) d)

/-- The fabric writes an entry into stream-in FIFO `p`; a full FIFO, a tile in COPYING and a logic die in reset apply backpressure, a port that the
active context does not bind and the hop cycle after a swap transfer nothing (R97, R100, R140). -/
def streamPush (t p : Nat) (d : BitVec 128) (s : State) : State :=
  let x := tileOf s t
  if 16 ≤ (x.fifo p).q.length ∨ x.state = .copying ∨ !dieOpen s 2 ∨ !dspBound s t p ∨ holdCycle s then s else setTile s t (pushFifo x p d)

/-- The number of an output's kind: stream-out, link-out, memory-die write, NoC write (R145). -/
def OutKind.num : OutKind → Nat
  | .streamOut _ => 0 | .linkOut _ => 1 | .memWrite _ => 2 | .nocWrite _ => 3

/-- In hc `h` one kind releases its next committed entry, if its destination has room (R141, R145). -/
def releaseKind (t k h : Nat) (s : State) : State :=
  let x := tileOf s t
  let done := x.staging.length - x.blockOuts
  match (x.staging.take done).findIdx? (fun o => o.kind.num == k) with
  | none => s
  | some i =>
    match x.staging[i]? with
    | none => s
    | some o =>
      let room := match o.kind with
        | .linkOut down => linkRoom (tileOf s (neighbour t down)) down h
        | .streamOut p => streamRoom s t p h
        | _ => true
      if room then releaseOut (setTile s t { x with staging := x.staging.eraseIdx i }) t h o else s

/-- One hc of release, from that after BLK.COMMIT's on: each kind independently releases one entry (R145, R161). -/
def stagingRelease (t : Nat) (s : State) : State :=
  let x := tileOf s t
  if x.state = .copying ∨ x.staging.length ≤ x.blockOuts then s
  else
    let s := advanceTo s (x.relHc * hcTicks s)
    let h := max (nowHc s) x.relHc
    let s := [0, 1, 2, 3].foldl (fun s k => releaseKind t k h s) s
    setTile s t { tileOf s t with relHc := h + 1 }

/-- A block has run for more than 65,536 hc (R145). -/
def blockWatchdog (t : Nat) (s : State) : State :=
  let x := tileOf s t
  if x.state ≠ .run ∨ !x.inBlock then s
  else
    let n := x.blockHc + 65537
    let s1 := advanceTo s (n * hcTicks s)
    raiseExc (setTile s1 t { x with hc := max x.hc n }) t 7

/-! ## Column spares (R150, R151) -/

/-- A lasting tile between blocks whose staging buffer has drained enters COPYING; another lasting tile of the group finds no spare any more
(R151). -/
def substitutionStart (t : Nat) (s : State) : State :=
  let x := tileOf s t
  if x.lasting ∧ x.betweenBlocks ∧ x.staging = [] ∧ x.state ≠ .copying ∧ !spareGone s t then
    ((s.tiles.filter (fun p => p.1 / 16 == t / 16 && p.1 != t && p.2.lasting)).map Prod.fst).foldl
      (fun s u => spareExhaust (setTile s u { tileOf s u with lasting := false }) u)
      (setTile s t { x with state := .copying, before := x.state, copyAt := s.now })
  else s

/-- The spare serves the tile from now on: DSP_COL_SPARE, DSP_TILE_STATUS.spare, SAF_DEGRADED and the fault log show it. -/
def spareTakes (t : Nat) (s : State) : State :=
  let c := t / 64
  let q := t % 64 / 16
  let row : Row := { DSP_COL_SPARE.row_g0 with lo := 8 + 4 * q }
  let s1 := ((s.wrBit DSP_COL_SPARE.used q true c).wr row (t % 16) c).wr DSP_TILE_STATUS.spare 1 t
  setDegraded (fault s1 .dspSpared t 0 (die := 2) (degraded := true)) dgDsp true

/-- After 3,200 hc the spare resumes, a halted tile at the checkpoint of its failed block. -/
def copyingComplete (t : Nat) (s : State) : State :=
  let x := tileOf s t
  if x.state ≠ .copying then s
  else
    let s1 := advanceTo s (x.copyAt + hcs s 3200)
    let y := { x with state := x.before, lasting := false, hc := max x.hc (nowHc s1) }
    let y := if x.before = .halted ∧ x.resumeCkpt then
        { y with state := .run, regs := x.ckpt, loops := x.ckptLoops, pc := x.blockPc, resumeCkpt := false }
      else y
    spareTakes t (setTile s1 t y)

/-! ## Meanings -/

/-- THICKET_NOP (R158) on tile `tile`, with what the check codes find. -/
def execThicketNop (tile : Fin 1024) (finds : Finds) (s : State) : Res := .next (issue .nop tile finds s)

/-- WAIT (R158) on tile `tile`, with what the check codes find. -/
def execWait (tile : Fin 1024) (finds : Finds) (s : State) : Res := .next (issue .wait tile finds s)

/-- BR (R158, R159) on tile `tile`, with what the check codes find. -/
def execBr (tile : Fin 1024) (finds : Finds) (s : State) : Res := .next (issue .br tile finds s)

/-- LOOP (R160) on tile `tile`, with what the check codes find. -/
def execLoop (tile : Fin 1024) (finds : Finds) (s : State) : Res := .next (issue .loop tile finds s)

/-- BLK_BEGIN (R144) on tile `tile`, with what the check codes find. -/
def execBlkBegin (tile : Fin 1024) (finds : Finds) (s : State) : Res := .next (issue .blkBegin tile finds s)

/-- BLK_COMMIT (R144, R161) on tile `tile`, with what the check codes find. -/
def execBlkCommit (tile : Fin 1024) (finds : Finds) (s : State) : Res := .next (issue .blkCommit tile finds s)

/-- TIMER (R158) on tile `tile`, with what the check codes find. -/
def execTimer (tile : Fin 1024) (finds : Finds) (s : State) : Res := .next (issue .timer tile finds s)

/-- MAC (R162) on tile `tile`, with what the check codes find. -/
def execMac (tile : Fin 1024) (finds : Finds) (s : State) : Res := .next (issue .mac tile finds s)

/-- MACJ (R162) on tile `tile`, with what the check codes find. -/
def execMacj (tile : Fin 1024) (finds : Finds) (s : State) : Res := .next (issue .macj tile finds s)

/-- MSB (R162) on tile `tile`, with what the check codes find. -/
def execMsb (tile : Fin 1024) (finds : Finds) (s : State) : Res := .next (issue .msb tile finds s)

/-- MUL (R162) on tile `tile`, with what the check codes find. -/
def execMul (tile : Fin 1024) (finds : Finds) (s : State) : Res := .next (issue .mul tile finds s)

/-- MULJ (R162) on tile `tile`, with what the check codes find. -/
def execMulj (tile : Fin 1024) (finds : Finds) (s : State) : Res := .next (issue .mulj tile finds s)

/-- PACK (R125, R163) on tile `tile`, with what the check codes find. -/
def execPack (tile : Fin 1024) (finds : Finds) (s : State) : Res := .next (issue .pack tile finds s)

/-- ACLR (R163) on tile `tile`, with what the check codes find. -/
def execAclr (tile : Fin 1024) (finds : Finds) (s : State) : Res := .next (issue .aclr tile finds s)

/-- ALOAD (R163) on tile `tile`, with what the check codes find. -/
def execAload (tile : Fin 1024) (finds : Finds) (s : State) : Res := .next (issue .aload tile finds s)

/-- BEX_NEXT (R134) on tile `tile`, with what the check codes find. -/
def execBexNext (tile : Fin 1024) (finds : Finds) (s : State) : Res := .next (issue .bexNext tile finds s)

/-- BEX_CLR (R163) on tile `tile`, with what the check codes find. -/
def execBexClr (tile : Fin 1024) (finds : Finds) (s : State) : Res := .next (issue .bexClr tile finds s)

/-- VADD (R164) on tile `tile`, with what the check codes find. -/
def execVadd (tile : Fin 1024) (finds : Finds) (s : State) : Res := .next (issue .vadd tile finds s)

/-- VSUB (R164) on tile `tile`, with what the check codes find. -/
def execVsub (tile : Fin 1024) (finds : Finds) (s : State) : Res := .next (issue .vsub tile finds s)

/-- VADDMJ (R164) on tile `tile`, with what the check codes find. -/
def execVaddmj (tile : Fin 1024) (finds : Finds) (s : State) : Res := .next (issue .vaddmj tile finds s)

/-- VSUBMJ (R164) on tile `tile`, with what the check codes find. -/
def execVsubmj (tile : Fin 1024) (finds : Finds) (s : State) : Res := .next (issue .vsubmj tile finds s)

/-- VCONJ (R164) on tile `tile`, with what the check codes find. -/
def execVconj (tile : Fin 1024) (finds : Finds) (s : State) : Res := .next (issue .vconj tile finds s)

/-- VSHR (R164) on tile `tile`, with what the check codes find. -/
def execVshr (tile : Fin 1024) (finds : Finds) (s : State) : Res := .next (issue .vshr tile finds s)

/-- VMOV (R164) on tile `tile`, with what the check codes find. -/
def execVmov (tile : Fin 1024) (finds : Finds) (s : State) : Res := .next (issue .vmov tile finds s)

/-- VPERM (R164) on tile `tile`, with what the check codes find. -/
def execVperm (tile : Fin 1024) (finds : Finds) (s : State) : Res := .next (issue .vperm tile finds s)

/-- SPOP (R165) on tile `tile`, with what the check codes find. -/
def execSpop (tile : Fin 1024) (finds : Finds) (s : State) : Res := .next (issue .spop tile finds s)

/-- SPUSH (R165) on tile `tile`, with what the check codes find. -/
def execSpush (tile : Fin 1024) (finds : Finds) (s : State) : Res := .next (issue .spush tile finds s)

/-- LPOP (R165) on tile `tile`, with what the check codes find. -/
def execLpop (tile : Fin 1024) (finds : Finds) (s : State) : Res := .next (issue .lpop tile finds s)

/-- LPUSH (R165) on tile `tile`, with what the check codes find. -/
def execLpush (tile : Fin 1024) (finds : Finds) (s : State) : Res := .next (issue .lpush tile finds s)

/-- MDRD (R165) on tile `tile`, with what the check codes find. -/
def execMdrd (tile : Fin 1024) (finds : Finds) (s : State) : Res := .next (issue .mdrd tile finds s)

/-- MDWR (R165) on tile `tile`, with what the check codes find. -/
def execMdwr (tile : Fin 1024) (finds : Finds) (s : State) : Res := .next (issue .mdwr tile finds s)

/-- NWR (R165) on tile `tile`, with what the check codes find. -/
def execNwr (tile : Fin 1024) (finds : Finds) (s : State) : Res := .next (issue .nwr tile finds s)

/-- SETR (R166) on tile `tile`, with what the check codes find. -/
def execSetr (tile : Fin 1024) (finds : Finds) (s : State) : Res := .next (issue .setr tile finds s)

/-- SETRV (R166) on tile `tile`, with what the check codes find. -/
def execSetrv (tile : Fin 1024) (finds : Finds) (s : State) : Res := .next (issue .setrv tile finds s)

/-- GETR (R166) on tile `tile`, with what the check codes find. -/
def execGetr (tile : Fin 1024) (finds : Finds) (s : State) : Res := .next (issue .getr tile finds s)

/-- ENTRY_VECTOR_TAKEN (R136 to R138). -/
def execEntryVectorTaken (tile : Fin 1024) (s : State) : Res := .next (entryVector tile s)

/-- TILE_TIMER_EXPIRY (R158). -/
def execTileTimerExpiry (tile : Fin 1024) (s : State) : Res := .next (timerExpiry tile s)

/-- RESIDUE_CHECK_FAIL (R148, R150, R151). -/
def execResidueCheckFail (tile : Fin 1024) (s : State) : Res :=
  .next (if (tileOf s tile).state = .copying ∨ (tileOf s tile).state = .halted then s else residueFail s tile (max (tileOf s tile).hc (nowHc s)) false)

/-- MDRD_DATA_RETURN (R142, R165). -/
def execMdrdDataReturn (tile : Fin 1024) (s : State) : Res := .next (readReturn tile s)

/-- LINK_ARRIVAL (R141). -/
def execLinkArrival (tile : Fin 1024) (s : State) : Res := .next (linkArrival tile s)

/-- STREAM_IN_PUSH (R140). -/
def execStreamInPush (tile : Fin 1024) (port : Bool) (data : Vec) (s : State) : Res := .next (streamPush tile (b2n port) data s)

/-- STAGING_BUFFER_RELEASE (R141, R145). -/
def execStagingBufferRelease (tile : Fin 1024) (s : State) : Res := .next (stagingRelease tile s)

/-- BLOCK_WATCHDOG (R145). -/
def execBlockWatchdog (tile : Fin 1024) (s : State) : Res := .next (blockWatchdog tile s)

/-- TILE_SUBSTITUTION_START (R150). -/
def execTileSubstitutionStart (tile : Fin 1024) (s : State) : Res := .next (substitutionStart tile s)

/-- COPYING_COMPLETE (R150). -/
def execCopyingComplete (tile : Fin 1024) (s : State) : Res := .next (copyingComplete tile s)

/-- TILE_KICK (R154). -/
def execTileKick (tile : Fin 1024) (s : State) : Res := .next (regWrite 0xF0200 s (fun s => if dieOpen s 2 then setTile s tile (raiseTileEvent (tileOf s tile) 6) else s))

/-- TILE_KICK_ALL (R154). -/
def execTileKickAll (s : State) : Res := 
  .next (regWrite 0xF0200 s (fun s =>
    if dieOpen s 2 then (List.range 1024).foldl (fun s t => setTile s t (raiseTileEvent (tileOf s t) 6)) s else s))

end Sys2Proof.Machine
end

