-- ==== Sys2Proof/Machine/Contexts.lean ====
section
/-! DEFINITION. Contexts (chapter 04): staging, swaps, write-back, command swaps and the schedule. -/

namespace Sys2Proof.Machine

/-! ## Planes and latches (R90, R91) -/

/-- Frames of a context (R70) and the plane key of a frame. -/
def frameCount : Nat := 228352
def planeKey (c f : Nat) : Nat := c * 2 ^ 18 + f

/-- A frame of a plane; 8 is the landing plane. -/
def planeFrame (s : State) (c f : Nat) : Frame := sparseGet 0 s.ctxs.planes (planeKey c f)

/-- The frames of a plane that are not zero, by frame number. -/
def planeFrames (s : State) (c : Nat) : Sparse Frame :=
  (s.ctxs.planes.filter (fun p => p.1 / 2 ^ 18 == c)).map (fun p => (p.1 % 2 ^ 18, p.2))

/-- Drops every key of plane `c` from a map keyed as the planes. -/
def dropPlane {α : Type} (m : Sparse α) (c : Nat) : Sparse α := m.filter (fun p => p.1 / 2 ^ 18 != c)

/-- The keys of plane `a` moved to plane `b`. -/
def movePlane {α : Type} (m : Sparse α) (a b : Nat) : Sparse α :=
  (m.filter (fun p => p.1 / 2 ^ 18 == a)).foldr (fun p m => sparsePut m (planeKey b (p.1 % 2 ^ 18)) p.2)
    (dropPlane (dropPlane m a) b)

/-- The keys of planes `a` and `b` exchanged. -/
def swapPlanes {α : Type} (m : Sparse α) (a b : Nat) : Sparse α :=
  (m.filter (fun p => p.1 / 2 ^ 18 == b)).foldr (fun p m => sparsePut m (planeKey a (p.1 % 2 ^ 18)) p.2) (movePlane m a b)

/-- A frame is a LUT frame, which distributed memory uses (R69, R70). -/
def isLutFrame (f : Nat) : Bool := decide (f < 225280) && decide (f % 44 < 16)

/-- The district of a tile (R62) and of a frame: a port frame's is the home district of its port (R70, R87, R92). The frames of R70's last row, whose
order the spec does not give, are taken as one for each NoC, stream and GPIO port in turn; memory port A, which has no home district, goes by the
first district of the block's group (DESIGN CHOICE, log entry 140). -/
def tileDistrict (t : Nat) : Nat := t / 64 / 8 * 8 + t % 64 / 8
def frameDistrict (f : Nat) : Nat :=
  if f < 225280 then tileDistrict (f / 44)
  else
    let p := f - 225280
    if p < 1280 then p / 16
    else if p < 2304 then (p - 1280) % 64 / 8 * 8 + (p - 1280) / 64 / 2
    else if p < 2816 then let b := 8 * (p - 2304); b / 256 / 8 * 40 + b / 256 % 8
    else if p < 2880 then 64 + (p - 2816) / 4
    else if p < 2896 then 64 + (p - 2880)
    else if p < 2960 then 72 + (p - 2896) / 8
    else (p - 2960) % 80

/-- Context `c` is COMMITTED, whether or not a load targets it (R90). -/
def committed (s : State) (c : Nat) : Bool := (sparseFind s.imgs.ctx c).isSome

def stagedState (s : State) : Nat := s.rd CFG_LATCH_STATUS.staged_state
def stagedCtx (s : State) : Nat := s.rd CFG_LATCH_STATUS.staged_ctx

/-- The latch bits of CFG_CTX_STATUS_n follow the latch sets (R118). -/
def showLatches (s : State) : State :=
  (List.range 8).foldl (fun t n =>
    ((t.wrb CFG_CTX_STATUS.in_active (activeCtx s == some n) n).wrb CFG_CTX_STATUS.in_staged
      (stagedState s != stEmpty && stagedCtx s == n) n).wrb CFG_CTX_STATUS.writeback_pending
        (match s.ctxs.wb with | some w => w.ctx == n | none => false) n) s

/-- Bytes of a chain of images; and of what a context has in the store, each image once (R309). -/
def chainSize (c : List RetImage) : Nat := (c.map (fun r => r.size)).foldl (· + ·) 0
def imageSize (c : CtxImage) : Nat := chainSize (c.chain ++ c.oldChain ++ c.stagedChain).eraseDups

/-- Bytes of the store in use. -/
def storeUsed (s : State) : Nat := (s.imgs.ctx.map (fun p => imageSize p.2)).foldl (· + ·) 0

/-- Size of the store: region 31, or the memory-die reserve (R310, R311). -/
def storeSize (s : State) : Nat := if s.rdb CFG_RETAIN_STATUS.in_reserve then 32 * 2 ^ 20 else 320 * 2 ^ 20

def showStore (s : State) : State := s.wr CFG_RETAIN_STATUS.free_mib ((storeSize s - storeUsed s) / 2 ^ 20)

/-- The staged latches hold, or are taking, a version of context `c` whose plane a commit has replaced (R104). -/
def holdsOld (s : State) (c : Nat) : Bool :=
  stagedCtx s == c && (stagedState s == stSuperseded || (stagedState s == stStaging && s.ctxs.staging.any (fun g => g.oldPlane)))

/-- Old images and old program ranges are kept until their version has left both latch sets (R135, R309). -/
def dropOldChains (s : State) : State :=
  let act (c : Nat) : Bool := s.ctxs.activeOld && activeCtx s == some c
  let keep (p : Nat × CtxImage) : Nat × CtxImage :=
    (p.1, { p.2 with oldChain := if act p.1 then p.2.oldChain else [], stagedChain := if holdsOld s p.1 then p.2.stagedChain else [] })
  let t := { s with
    imgs := { s.imgs with ctx := s.imgs.ctx.map keep }
    tiles := s.tiles.map (fun p => (p.1, { p.2 with oldRanges := p.2.oldRanges.filter (fun r => holdsOld s r.1) })) }
  if t.imgs = s.imgs then t else showStore t

/-- The staged set takes a state and a context. -/
def setStaged (s : State) (st c : Nat) : State :=
  dropOldChains (showLatches ((s.wr CFG_LATCH_STATUS.staged_state st).wr CFG_LATCH_STATUS.staged_ctx c))

/-! ## Staging (R92 to R94, R105) -/

/-- A frame of context `c` is lost: a staging that reaches it is abandoned (R326). -/
def planeLost (s : State) (c : Nat) : Bool := s.integ.lost.any (fun r => r.ctx == c)

/-- A repair of a staged latch frame is queued, or the frame is lost and stays pending (R325, R326). -/
def stagedRepair (s : State) : Bool :=
  s.integ.queue.any (fun r => r.latch && r.staged) || s.integ.lost.any (fun r => r.latch && r.staged && r.ctx == stagedCtx s)

/-- INT_STATUS and the contexts' counts follow the repair queue and the lost frames (R332, R118). -/
def showRepairs (s : State) : State :=
  let t := (s.wr INT_STATUS.repair_queue s.integ.queue.length).wr INT_STATUS.lost_frames (min s.integ.lost.length 0xFFFF)
  (List.range 8).foldl (fun t c =>
    t.wr CFG_CTX_STATUS.repairs_pending (min 255 ((s.integ.queue.filter (fun r => r.ctx == c && !r.latch)).length +
      (s.integ.lost.filter (fun r => r.ctx == c)).length)) c) t

/-- Pending repairs changed by `f`: some are dropped, or change their latch set. -/
def mapRepairs (s : State) (f : Repair → Option Repair) : State :=
  showRepairs { s with integ := { s.integ with queue := s.integ.queue.filterMap f } }

/-- The same of the lost frames. -/
def mapLost (s : State) (f : Repair → Option Repair) : State :=
  showRepairs { s with integ := { s.integ with lost := s.integ.lost.filterMap f } }

/-- The staged set takes new content: what was pending of it is no more. -/
def dropStagedRepairs (s : State) : State := mapRepairs s (fun r => if r.latch && r.staged then none else some r)

/-- The staged set becomes EMPTY. -/
def emptyStaged (s : State) : State :=
  dropStagedRepairs ({ setStaged (s.wr CFG_LATCH_STATUS.repair_wait 0) stEmpty 0 with
    ctxs := { s.ctxs with staged := [], staging := none, refused := false } })

/-- Why a staging is refused (R94): 0 not COMMITTED, 1 the configuration die is not swept, 2 the logic die is in reset. -/
def stagingRefusal (s : State) (c : Nat) : Option Nat :=
  if !committed s c then some 0 else if s.boot.d3Unswept then some 1 else if !dieOpen s 2 then some 2 else none

/-- A staging of context `c` starts. One that a command owns and that the schedule's own staging overtakes ends without a completion of its own
(DESIGN CHOICE, log entry 133). -/
def startStaging (s : State) (c : Nat) (o : StageOwner) : State :=
  let t := dropStagedRepairs (setStaged (s.wr CFG_LATCH_STATUS.frames_staged 0) stStaging c)
  { t with ctxs := { t.ctxs with staging := some { ctx := c, start := s.now, owner := o, oldPlane := false },
                                 refused := false } }

/-- The place of a frame among its district's in the order of their numbers, of at most 2,880. -/
def frameRank (f : Nat) : Nat :=
  if f < 225280 then let t := f / 44; (t / 64 % 8 * 8 + t % 8) * 44 + f % 44 else 2816 + f % 64

/-- The 60,000 hc between swaps, and the 54,000 hc of a staging, in ticks (R92, R98). -/
def swapInterval (s : State) : Nat := hcs s 60000
def stagingTime (s : State) : Nat := hcs s 54000

/-- Ticks that district `d` has waited for repairs in the staging. -/
def Staging.wait (g : Staging) (d : Nat) : Nat := sparseGet 0 g.waits d

/-- The tick at which the staging comes to a frame of its plane: each district reads its frames in the order of their numbers, at an even pace
(DESIGN CHOICE, log entry 141), and has waited for repairs so far. -/
def frameTick (s : State) (g : Staging) (f : Nat) : Nat := g.start + g.wait (frameDistrict f) + stagingTime s * frameRank f / 2880

/-- The staging waits, or will wait, for the repair: it was pending before its district comes to the frame (R93). -/
def stagingNeeds (s : State) (g : Staging) (r : Repair) : Bool :=
  r.ctx == g.ctx && !r.latch && !g.oldPlane && decide (r.at_ ≤ frameTick s g r.frame)

/-- A repair that the staging needs is pending; and one for which a district waits already. -/
def repairNeeded (s : State) (g : Staging) : Bool := s.integ.queue.any (stagingNeeds s g)
def repairAwaited (s : State) (g : Staging) (r : Repair) : Bool := stagingNeeds s g r && decide (frameTick s g r.frame ≤ s.now)

/-- The tick since which district `d` waits for a pending repair of the staging's plane (R93). -/
def waitsSince (s : State) (g : Staging) (d : Nat) : Option Nat :=
  ((s.integ.queue.filter (fun r => repairAwaited s g r && frameDistrict r.frame == d)).map (fun r => frameTick s g r.frame)).min?

/-- The repair `r` of a plane frame has ended: the district that waited for it reads on (R93). -/
def repairEnded (s : State) (r : Repair) : State :=
  match s.ctxs.staging with
  | none => s
  | some g =>
    let d := frameDistrict r.frame
    let t := frameTick s g r.frame
    if repairAwaited s g r ∧ t < s.now then
      { s with ctxs := { s.ctxs with staging := some { g with waits := sparsePut g.waits d (g.wait d + (s.now - t)) } } }
    else s

/-- CFG_LATCH_STATUS.repair_wait and frames_staged as they read while a staging runs (R118): the frames of every district, in units of 16. -/
def stagingWaits (s : State) : Option Bool := s.ctxs.staging.map (fun g => (List.range 80).any (fun d => (waitsSince s g d).isSome))

/-- Frames of its 2,880 that district `d` has come to, and those of them that it does not overwrite yet, since they are dirty and not written back. -/
def framesPassed (s : State) (g : Staging) (d : Nat) : Nat :=
  min (stagingTime s) ((match waitsSince s g d with | some t => t | none => s.now) - g.start - g.wait d) * 2880 / stagingTime s
def framesKept (s : State) (g : Staging) (d : Nat) : Nat :=
  match s.ctxs.wb with
  | some w => (w.left.filter (fun p => frameDistrict p.1 == d && decide (frameRank p.1 < framesPassed s g d))).length
  | none => 0

def stagedUnits (s : State) : Option Nat := s.ctxs.staging.map (fun g =>
  (((List.range 80).map (framesPassed s g)).sum * frameCount / 230400 - ((List.range 80).map (framesKept s g)).sum) / 16)

/-- The first swap-grid edge at or after tick `t`: every 12 hc (R95). -/
def gridEdge (s : State) (t : Nat) : Nat := (t + hcs s 12 - 1) / hcs s 12 * hcs s 12

/-- The first edge at or after `t` that R98 allows. -/
def swapEdge (s : State) (t : Nat) : Nat :=
  match s.ctxs.lastSwap with
  | none => gridEdge s t
  | some l => gridEdge s (max t (l + swapInterval s))

def District.zero : District :=
  { at63 := 0, slowRun := 0, fastRun := 0, relockRun := 0, acquired := false, releasedAt := none, slow := false, spareUsed := false,
    spareTile := 0, sparePending := none }

/-- The lock counters and spare of district `d`. -/
def district (s : State) (d : Nat) : District := sparseGet District.zero s.districts d
def setDistrict (s : State) (d : Nat) (x : District) : State := { s with districts := sparseSet District.zero s.districts d x }

/-- The district's lasting tile takes the district spare at a staging (R63, R327); with the spare in use or bad it stays in service, and
a further lasting frame of it is reported again at the next staging (DESIGN CHOICE, log entry 184). -/
def takeDistrictSpare (s : State) (d : Nat) : State :=
  let x := district s d
  match x.sparePending with
  | none => s
  | some t =>
    let put (y : District) : State := setDistrict s d y
    if x.spareUsed || sparseGet false s.safe.failedSpares d then
      fault (put { x with sparePending := none }) .spareExhausted d 0 (die := 2)
    else
      setDegraded (fault (put { x with sparePending := none, spareUsed := true, spareTile := t }) .tileSpared t 0 (die := 2)
        (degraded := true)) dgDistrict true

/-- What the staged latches hold once the staging has copied every frame: the plane's frames, or those of the plane that a commit has replaced
meanwhile (R104). A frame whose word crossed poisoned was not written (R16). -/
def stagedFrames (s : State) (g : Staging) : Sparse Frame :=
  let new := if g.oldPlane then g.old else planeFrames s g.ctx
  let bad (f : Nat) : Bool := s.stack.poisoned.any (fun w => match w with | .staging x => x.val == f | _ => false)
  (s.ctxs.staged.filter (fun p => bad p.1)).foldl (fun m p => sparsePut m p.1 p.2) (new.filter (fun p => !bad p.1))

/-- A swap names context `c`: an armed one, a late one, or an entry of the running or the armed bank (R104). -/
def swapNames (s : State) (c : Nat) : Bool :=
  s.ctxs.armed.any (fun a => a.ctx == c) || s.ctxs.late.any (fun l => l.ctx == c) || (s.rdb CFG_CTX_STATUS.in_schedule c && activeCtx s != some c)

/-- A superseded copy that an armed or scheduled swap names is staged again from the new plane at once (R104). -/
def restage (s : State) (c : Nat) : State :=
  if swapNames s c && (stagingRefusal s c).isNone then startStaging s c .restage else s

/-- The staged set has copied every frame (R92): it is READY, or SUPERSEDED where a commit has replaced the plane meanwhile (R104). -/
def stagingDone (s : State) (g : Staging) : State :=
  let t := (List.range 80).foldl takeDistrictSpare s
  let t := { t with
    ctxs := { t.ctxs with staged := stagedFrames s g, staging := none }
    stack := { t.stack with poisoned := t.stack.poisoned.filter (fun w => match w with | .staging _ => false | _ => true) } }
  let t := setStaged ((t.wr CFG_LATCH_STATUS.frames_staged 14272).wr CFG_LATCH_STATUS.repair_wait 0)
    (if g.oldPlane then stSuperseded else stReady) g.ctx
  if g.oldPlane then restage t g.ctx else t

/-! ## Readiness -/

/-- A swap to context `c` is ready (R103, R325). -/
def swapReady (s : State) (c : Nat) : Bool :=
  stagedCtx s == c && (stagedState s == stReady && !stagedRepair s || stagedState s == stOutClean && !stagedRepair s)

/-- Why a swap to context `c` is not ready: the reasons of R116. -/
def notReadyReason (s : State) (c : Nat) : Nat :=
  if s.ctxs.refused then 4
  else if stagedState s = stOutDirty then 3
  else if stagedState s = stEmpty ∨ stagedState s = stSuperseded then
    (if planeLost s c then 2 else 5)
  else
    match s.ctxs.staging with
    | some g => if s.integ.queue.any (repairAwaited s g) then 2 else if s.ctxs.wb.isSome then 3 else 1
    | none => if stagedRepair s then 2 else 1

/-! ## The swap edge (R95 to R101) -/

/-- The entry vectors and program ranges of a new version take effect as it first becomes active (R304). -/
def newVersionActive (s : State) (c : Nat) : State :=
  if !sparseGet false s.ctxs.newVersion c then s
  else
    let upd (x : Tile) : Tile :=
      { x with vectors := x.newVectors.foldl (fun m p => if p.1 / 8 == c then sparsePut m p.1 p.2 else m)
                 (x.vectors.filter (fun p => p.1 / 8 != c)),
               ranges := match sparseFind x.newRanges c with
                 | some r => sparsePut x.ranges c r
                 | none => sparseDel x.ranges c,
               newVectors := x.newVectors.filter (fun p => p.1 / 8 != c), newRanges := sparseDel x.newRanges c }
    { s with tiles := s.tiles.map (fun p => (p.1, upd p.2)),
             ctxs := { s.ctxs with newVersion := sparseSet false s.ctxs.newVersion c false } }

/-- Every tile sees the swap: it takes EV0 of the new context at its next boundary (R138). -/
def tilesSwap (s : State) : State :=
  (List.range 1024).foldl (fun t i =>
    setTile t i { tileOf t i with swapPending := true, edgeTick := s.now }) s

/-- The largest count of dirty frames in one district (CFG_CTX_STATUS_n.dirty_max). -/
def dirtyMax (l : List (Nat × Frame)) : Nat :=
  ((List.range 80).map (fun d => (l.filter (fun p => frameDistrict p.1 == d)).length)).foldl max 0

/-- A mode transition is in progress (R38, R41): one that a command began, or a takeover, an exchange of roles, a lead's yielding or a
dissolution that waits for its boundary. -/
def transitioning (s : State) : Bool :=
  s.rdb DEV_MODE.transition_busy || s.pair.takeover.isSome || s.pair.exchange.isSome || s.pair.yieldAt.isSome || s.pair.dissolve.isSome

/-- A mode transition ends (R41). -/
def endTransition (s : State) : State :=
  { s with boot := { s.boot with transition := none } }.wr DEV_MODE.transition_busy 0

/-- The recovery cause ends when no reset holds the mute any more (R545). -/
def endRecovery (s : State) : State :=
  if s.boot.recoverD0 || s.boot.recoverD2 || s.boot.recoverD3 then s else endCause s scRecovery

/-- The bindings that the port frames of a context spell, with their port frame numbers (R70); a frame of zeros binds nothing (DESIGN CHOICE, log
entry 173). -/
def bindings (m : Sparse Frame) : List (Nat × Binding) :=
  (m.filter (fun e => decide (226560 ≤ e.1) && decide (e.1 < frameCount))).flatMap (fun e => (Config.bindings e.2).map (fun b => (e.1 - 225280, b)))

/-- Those of one kind, as a table. -/
def boundBy {α : Type} (l : List (Nat × Binding)) (f : Nat × Binding → Option (Nat × α)) : Sparse α :=
  (l.filterMap f).foldl (fun m e => sparsePut m e.1 e.2) []

/-- DSP stream ports lie in port frames 1,280 to 2,303, port A in 2,304 to 2,815, the other ports and the reset networks from 2,816 on. -/
def boundStreams (l : List (Nat × Binding)) : Sparse Nat :=
  boundBy l (fun e => match e.2 with | .stream p c => if e.1 < 2304 then some (4 * (e.1 - 1280) + p.val, c.val) else none | _ => none)
def boundMemory (l : List (Nat × Binding)) : Sparse (Nat × Nat) :=
  boundBy l (fun e => match e.2 with
    | .memory k t c => if 2304 ≤ e.1 ∧ e.1 < 2816 then some (8 * (e.1 - 2304) + k.val, t.val, c.val) else none
    | _ => none)
def boundResets (l : List (Nat × Binding)) : Sparse ResetSource :=
  boundBy l (fun e => match e.2 with | .reset k x => if 2816 ≤ e.1 then some (k.val, x) else none | _ => none)
def boundNoc (l : List (Nat × Binding)) : Sparse Nat :=
  boundBy l (fun e => match e.2 with | .noc p c => if 2816 ≤ e.1 then some (p.val, c.val) else none | _ => none)
def boundFronthaul (l : List (Nat × Binding)) : Sparse Nat :=
  boundBy l (fun e => match e.2 with | .fronthaul k c => if 2816 ≤ e.1 then some (k.val, c.val) else none | _ => none)
def boundPins (l : List (Nat × Binding)) : Sparse Nat :=
  boundBy l (fun e => match e.2 with | .pin n c => if 2816 ≤ e.1 then some (n.val, c.val) else none | _ => none)

/-- The bindings of a latch set or plane take effect (R99, R100). -/
def bindPorts (s : State) (m : Sparse Frame) : State :=
  let l := bindings m
  { s with
    ctxs := { s.ctxs with ports := { s.ctxs.ports with dsp := boundStreams l, memory := boundMemory l, resets := boundResets l } }
    noc := { s.noc with bound := boundNoc l }
    fh := { s.fh with bound := boundFronthaul l }
    pins := { s.pins with bound := boundPins l } }

/-- Flip-flops of tiles hold new values (R66, R96). -/
def setFfs (s : State) (l : List (Nat × BitVec 512)) : State :=
  { s with ctxs := { s.ctxs with ffs := l.foldl (fun m p => sparseSet 0 m p.1 p.2) s.ctxs.ffs } }

/-- The map `m` with the value `o` of the key `k`, or without the key. -/
def putOpt {β : Type} (m : Sparse β) (k : Nat) (o : Option β) : Sparse β := match o with | some v => sparsePut m k v | none => sparseDel m k

/-- What belongs to the superseded version that context `c` had in the active latches goes with it into the staged ones (R104, R135, R309). -/
def outgoingOld (s : State) (c : Nat) : State :=
  { s with
    imgs := { s.imgs with ctx := s.imgs.ctx.map (fun p => if p.1 = c then (p.1, { p.2 with stagedChain := p.2.oldChain }) else p) }
    tiles := s.tiles.map (fun p => (p.1, { p.2 with oldRanges := putOpt p.2.oldRanges c (sparseFind p.2.ranges c) })) }

/-- The latch sets exchange on the present tick, a swap-grid edge (R91, R96 to R101, R104). -/
def doSwap (s : State) (sd : SwapData) : State :=
  let given : List (Nat × Frame) := (sd.dirty.map (fun p => (p.1.val, p.2))).filter (fun p => isLutFrame p.1)
  let dirty := given ++ (s.ctxs.dirty.filter (fun f => !given.any (fun p => p.1 == f))).map (fun f => (f, sparseGet 0 s.ctxs.active f))
  let outgoing := activeCtx s
  let incoming := stagedCtx s
  let outLatches := dirty.foldl (fun m p => sparseSet 0 m p.1 p.2) s.ctxs.active
  let keep := outgoing.isSome && !s.ctxs.activeOld && !dirty.isEmpty
  let wb : Option WriteBack :=
    if keep then some { ctx := outgoing.getD 0, edge := s.now, left := dirty, slot := 0 } else none
  let s := setFfs s (sd.ffs.map (fun p => (p.1.val, p.2)))
  let t := { s with
    ctxs := { s.ctxs with active := s.ctxs.staged, staged := outLatches, activeOld := false, oldSigs := [], dirty := [],
                          lastSwap := some s.now, lastSwapTime := counter s, wb := wb, refused := false },
    boot := { s.boot with recoverD2 := false } }
  let t := bindPorts t t.ctxs.active
  let t := (t.wr CFG_LATCH_STATUS.active_ctx incoming).wr CFG_LATCH_STATUS.active_valid 1
  let flip (r : Repair) : Option Repair := some (if r.latch then { r with staged := !r.staged } else r)
  let t := mapLost (mapRepairs t flip) flip
  let t := if s.ctxs.activeOld then outgoingOld t (outgoing.getD 0) else t
  let t := match outgoing with
    | none => setStaged t stEmpty 0
    | some c =>
      setStaged (t.wr CFG_CTX_STATUS.dirty_max (dirtyMax dirty) c)
        (if s.ctxs.activeOld then stSuperseded else if keep then stOutDirty else stOutClean) c
  endRecovery (dropOldChains (tilesSwap (newVersionActive t incoming)))

/-- The transition from ASSEMBLY to RUN takes place on its swap edge: the mode cause ends, and the mute lifts there if no cause is left
(R42, R547). A device whose warm reset ended a shadow's role comes to RUN in the safe state (R534). -/
def enterRun (s : State) : State :=
  match s.boot.transition with
  | none => s
  | some tr =>
    let t := setMode (finish (commit (endTransition s) tr.id) tr.id .success) modeRun
    liftIfClear (if s.boot.leftPair then setCause { t with boot := { t.boot with leftPair := false } } scPair else t)

/-! ## The schedule (R108 to R117) -/

def running (s : State) : Bool := s.rdb CFG_SCHED_STATUS.running
def runBank (s : State) : Nat := s.rd CFG_SCHED_STATUS.running_bank
def bankArmed (s : State) : Bool := s.rdb CFG_SCHED_STATUS.bank_armed

/-- The bank that does not run; bank 0 where none runs. -/
def idleBank (s : State) : Nat := if running s then 1 - runBank s else 0

def bankOf (s : State) (b : Nat) : Option Bank := sparseFind s.ctxs.banks b

/-- The first period origin of a bank at or after time `ns` (R109). -/
def firstOrigin (k : Bank) (ns : Nat) : Nat :=
  if k.period = 0 then ns else ns + (k.phase + k.period - ns % k.period) % k.period

/-- The origin at which the armed bank takes over (R111). -/
def armedOrigin (s : State) : Option Nat :=
  if bankArmed s then (bankOf s (idleBank s)).map (fun k => firstOrigin k k.start) else none

/-- The next entry of the running bank: index, entry and due time. -/
def nextDue (s : State) : Option (Nat × SchedEntry × Nat) :=
  if !running s then none
  else
    let i := s.rd CFG_SCHED_STATUS.next_entry
    match bankOf s (runBank s) with
    | none => none
    | some k => (k.entries[i]?).map (fun e => (i, e, s.ctxs.originNs + e.offset))

/-- The context that the next entry to be performed names: an armed bank's first entry once the running bank's last has passed. -/
def nextNamed (s : State) : Option Nat :=
  let ofArmed : Option Nat := (bankOf s (idleBank s)).bind (fun k => (k.entries.head?).map (fun e => e.ctx))
  match nextDue s, armedOrigin s with
  | none, some _ => ofArmed
  | none, none => none
  | some (_, e, due), some o => if o ≤ due then ofArmed else some e.ctx
  | some (_, e, _), none => some e.ctx

/-- The staging for the next entry starts by itself (R112): not for the active context, nor for a swap back, and one in progress for the same
context goes on. -/
def scheduleStage (s : State) : State :=
  match nextNamed s with
  | none => s
  | some c =>
    let s := { s with ctxs := { s.ctxs with refused := false } }
    if activeCtx s == some c then s
    else if stagedCtx s == c && (stagedState s == stStaging || stagedState s == stReady || stagedState s == stOutDirty ||
        stagedState s == stOutClean) then s
    else if (stagingRefusal s c).isSome then { s with ctxs := { s.ctxs with refused := true } }
    else startStaging s c .schedule

/-- MODE_SET RUN swaps its READY context in on the first edge that R98 allows (R42); a running schedule begins its next staging there (R112). -/
def runSwap (s : State) (sd : SwapData) : State := scheduleStage (enterRun (doSwap (advanceTo s (swapEdge s s.now)) sd))

/-- A skipped entry's staging is abandoned unless the following entry names the same context (R113). -/
def afterSkip (s : State) (c : Nat) : State :=
  if nextNamed s == some c then scheduleStage s
  else if stagedState s = stStaging ∧ stagedCtx s = c then scheduleStage (emptyStaged s)
  else scheduleStage s

/-- The entry moves on: after the last comes entry 0 of the next period (R109). -/
def advanceEntry (s : State) : State :=
  match bankOf s (runBank s) with
  | none => s
  | some k =>
    let i := s.rd CFG_SCHED_STATUS.next_entry + 1
    if i < k.entries.length then s.wr CFG_SCHED_STATUS.next_entry i
    else { s with ctxs := { s.ctxs with originNs := s.ctxs.originNs + k.period } }.wr CFG_SCHED_STATUS.next_entry 0

/-- Kinds of swap events (R116). -/
def kOnTime : Nat := 0
def kLate : Nat := 1
def kSkipped : Nat := 2
def kSuperseded : Nat := 3

/-- A swap-event record of an entry of bank `bank` is written and raises swap_event; a full log drops it (R116, R119). A dropped record takes its
sequence number and raises swap_event too (DESIGN CHOICE, log entries 129 and 130). -/
def swapRecord (s : State) (bank due : Nat) (edge : Option Nat) (entry c kind reason : Nat) : State :=
  let r : Nat := due % 1000000000 + ((edge.map (fun e => e % 1000000000)).getD 0xFFFFFFFF) * 2 ^ 32 +
    (due / 1000000000 % 65536) * 2 ^ 64 + entry % 256 * 2 ^ 80 + (c + 8 * bank) * 2 ^ 88 + kind * 2 ^ 96 + reason * 2 ^ 104 +
    s.ctxs.swapSeq * 2 ^ 112
  let tail := s.rd CFG_SWAP_EVT_TAIL.tail
  let t := { s with ctxs := { s.ctxs with swapSeq := (s.ctxs.swapSeq + 1) % 65536 } }
  let t := if (tail + 1) % 256 = s.rd CFG_SWAP_EVT_HEAD.head then t.wr CFG_SWAP_EVT_TAIL.overflow 1
    else { t with ctxs := { t.ctxs with swapLog := sparseSet 0 t.ctxs.swapLog tail (BitVec.ofNat 128 r) } }.wr
      CFG_SWAP_EVT_TAIL.tail ((tail + 1) % 256)
  let t := if kind = kLate then t.inc CFG_SWAP_COUNTS.late else if kind = kOnTime then t else t.inc CFG_SWAP_COUNTS.skipped
  raiseEvent t evSwap

/-- A late swap that still waits is superseded as the next entry, which names `c`, falls due; where it names another context, staging restarts for
`c` (R114). -/
def supersedeLate (s : State) (c : Nat) : State :=
  match s.ctxs.late with
  | none => s
  | some l =>
    let t := swapRecord { s with ctxs := { s.ctxs with late := none } } l.bank l.dueNs none l.entry l.ctx kSuperseded l.reason
    if l.ctx = c ∨ activeCtx t = some c ∨ (stagedCtx t = c ∧ stagedState t ≠ stEmpty ∧ stagedState t ≠ stSuperseded) then t
    else if (stagingRefusal t c).isSome then { t with ctxs := { t.ctxs with refused := true } }
    else startStaging t c .schedule

/-- An entry that is not ready at its due time, by its policy (R113). -/
def entryNotReady (s : State) (i : Nat) (e : SchedEntry) (due reason : Nat) : State :=
  if e.skip then afterSkip (swapRecord s (runBank s) due none i e.ctx kSkipped reason) e.ctx
  else
    let t := { s with ctxs := { s.ctxs with late := some { entry := i, ctx := e.ctx, dueNs := due, limitUs := e.limitUs, reason := reason,
                                                             bank := runBank s } } }
    if stagedCtx t == e.ctx && stagedState t != stEmpty && stagedState t != stSuperseded then t
    else if activeCtx t == some e.ctx || (stagingRefusal t e.ctx).isSome then t
    else startStaging t e.ctx .schedule

/-- A schedule entry falls due. Where it performs no swap, the staging that R112 begins on its due edge begins at the due time, not at the swap-grid edge
after it (DESIGN CHOICE, log entry 176). -/
def entryDue (sd : SwapData) (s : State) : State :=
  match nextDue s with
  | none => s
  | some (i, e, due) =>
    if (armedOrigin s).any (fun o => decide (o ≤ due)) then s
    else
      let s := supersedeLate (advanceToCounter s (due * 65536)) e.ctx
      if activeCtx s == some e.ctx then
        let t := advanceEntry s
        scheduleStage (if e.report then swapRecord t (runBank t) due none i e.ctx kOnTime 0 else t)
      else if !swapReady s e.ctx then
        let r := notReadyReason s e.ctx
        entryNotReady (advanceEntry s) i e due r
      else if gridEdge s s.now < swapEdge s s.now then entryNotReady (advanceEntry s) i e due 7
      else
        let t := advanceEntry (doSwap (advanceTo s (gridEdge s s.now)) sd)
        scheduleStage (if e.report then swapRecord t (runBank t) due (some (counterNs t)) i e.ctx kOnTime 0 else t)

/-- The waiting schedule swap is skipped at its limit (R114). -/
def skipLate (s : State) (l : LateSwap) : State :=
  afterSkip (swapRecord { s with ctxs := { s.ctxs with late := none } } l.bank l.dueNs none l.entry l.ctx kSkipped 6) l.ctx

/-! ## Command swaps (R105, R106) -/

/-- An armed command swap is gone. -/
def disarm (s : State) : State := { s with ctxs := { s.ctxs with armed := none } }.wr CFG_LATCH_STATUS.swap_armed 0

/-- The armed swap takes place on the present edge. -/
def armedSwap (s : State) (a : ArmedSwap) (sd : SwapData) : State :=
  let t := scheduleStage (disarm (doSwap s sd))
  finishTime t a.id (if a.waiting ∧ !a.immediate then .swapLate else .success) (counter t)

/-- An armed command swap falls due (R106). -/
def commandSwapDue (sd : SwapData) (s : State) : State :=
  match s.ctxs.armed with
  | none => s
  | some a =>
    if a.waiting then s
    else
      let s := if a.immediate then s else advanceToCounter s a.target
      if swapReady s a.ctx then armedSwap (advanceTo s (swapEdge s s.now)) a sd
      else if a.skip && !a.immediate then finishTime (disarm s) a.id .swapSkipped a.target
      else { s with ctxs := { s.ctxs with armed := some { a with waiting := true } } }

/-- A late limit in units of 2^-16 ns; 0 means none. -/
def limitOf (us : Nat) : Option Nat := if us = 0 then none else some (us * 1000 * 65536)

/-- The waiting command swap is ready and takes place on the next edge, unless its limit passes first (R106). -/
def lateCommand (sd : SwapData) (s : State) : Option State :=
  match s.ctxs.armed with
  | none => none
  | some a =>
    let e := swapEdge s s.now
    if !a.waiting || !swapReady s a.ctx || (!a.immediate && (limitOf a.limitUs).any (fun l => decide (a.target + l < counterAt s e))) then none
    else some (armedSwap (advanceTo s e) a sd)

/-- The same of the waiting schedule swap (R113, R114). -/
def lateSchedule (sd : SwapData) (s : State) : Option State :=
  match s.ctxs.late with
  | none => none
  | some l =>
    let e := swapEdge s s.now
    if !swapReady s l.ctx || (limitOf l.limitUs).any (fun d => decide (l.dueNs * 65536 + d < counterAt s e)) then none
    else
      let t := doSwap (advanceTo s e) sd
      let t := { t with ctxs := { t.ctxs with late := none } }
      some (scheduleStage (swapRecord t l.bank l.dueNs (some (counterNs t)) l.entry l.ctx kLate l.reason))

/-- A waiting LATE swap is ready: the command's, or else the schedule's. -/
def lateReady (sd : SwapData) (s : State) : State := ((lateCommand sd s).orElse (fun _ => lateSchedule sd s)).getD s

/-- The counter value at which the waiting command swap, or the waiting schedule swap, reaches its late limit. -/
def commandLimit (s : State) : Option Nat :=
  s.ctxs.armed.bind (fun a => if a.waiting && !a.immediate then (limitOf a.limitUs).map (fun l => a.target + l) else none)

def scheduleLimit (s : State) : Option Nat := s.ctxs.late.bind (fun l => (limitOf l.limitUs).map (fun d => l.dueNs * 65536 + d))

/-- The lateness of a waiting swap reaches its limit, the earlier one where both wait: it is skipped (R106, R114). -/
def lateLimit (s : State) : State :=
  let command := (commandLimit s).any (fun c => (scheduleLimit s).all (fun d => decide (c ≤ d)))
  match commandLimit s, scheduleLimit s, s.ctxs.armed, s.ctxs.late with
  | some c, _, some a, _ => if command then finishTime (disarm (advanceToCounter s c)) a.id .swapSkipped c else skipAtLimit s
  | _, _, _, _ => skipAtLimit s
where
  /-- The schedule's waiting swap is skipped at its limit. -/
  skipAtLimit (s : State) : State :=
    match scheduleLimit s, s.ctxs.late with
    | some d, some l => skipLate (advanceToCounter s d) l
    | _, _ => s

/-! ## Bank takeover -/

/-- CFG_CTX_STATUS_n.in_schedule follows the running and armed banks (R118). -/
def showSchedule (s : State) : State :=
  let named (b : Nat) (n : Nat) : Bool := (bankOf s b).any (fun k => k.entries.any (fun e => e.ctx == n))
  (List.range 8).foldl (fun t n =>
    t.wrb CFG_CTX_STATUS.in_schedule (running s && named (runBank s) n || bankArmed s && named (idleBank s) n) n) s

/-- The armed bank takes over at its origin, once the running bank's earlier entries have fallen due (R111). A start time that has passed gives an
origin that has passed: its entries before the present fall due at once (DESIGN CHOICE, log entry 132). Where the bank was armed after the running one's
last edge, no staging has begun for its first entry, and begins here (DESIGN CHOICE, log entry 177). -/
def bankTakeover (s : State) : State :=
  match armedOrigin s with
  | none => s
  | some o =>
    if (nextDue s).any (fun d => decide (d.2.2 < o)) then s
    else
      let b := idleBank s
      let s := advanceToCounter s (o * 65536)
      let s := { s with ctxs := { s.ctxs with originNs := o } }
      let t := ((s.wr CFG_SCHED_STATUS.running_bank b).wr CFG_SCHED_STATUS.bank_armed 0).wr CFG_SCHED_STATUS.next_entry 0
      let go := (bankOf s b).any (fun k => !k.entries.isEmpty)
      let u := showSchedule (supersedeIfStopped go (t.wrb CFG_SCHED_STATUS.running go))
      if u.ctxs.late.isSome then u else scheduleStage u
where
  /-- A schedule that stops leaves no late swap waiting. -/
  supersedeIfStopped (go : Bool) (s : State) : State := if go then s else supersedeLate s (s.ctxs.late.elim 0 (fun l => l.ctx))

/-! ## Write-back (R101, R102) -/

/-- The first frame of every district that is still to be written, and the rest. -/
def takeSlot (l : List (Nat × Frame)) : List (Nat × Frame) × List (Nat × Frame) :=
  (List.range 80).foldl (fun (a : List (Nat × Frame) × List (Nat × Frame)) d =>
    match a.2.find? (fun p => frameDistrict p.1 == d) with
    | some p => (a.1 ++ [p], a.2.erase p)
    | none => a) ([], l)

/-- A frame goes into its plane with its new signature (R101, R318). One whose word crosses poisoned is not written, and waits for a later slot (R16;
DESIGN CHOICE, log entry 172). -/
def crossedBad (s : State) (p : Nat × Frame) : Bool :=
  s.stack.poisoned.any (fun w => match w with | .writeBack x => x.val == p.1 | _ => false)

def writeBackFrame (c : Nat) (s : State) (p : Nat × Frame) : State :=
  let k := planeKey c p.1
  if crossedBad s p then (takePoison s (.writeBack (Fin.ofNat 228352 p.1))).2
  else
  { s with ctxs := { s.ctxs with planes := sparseSet 0 s.ctxs.planes k p.2, sigs := sparsePut s.ctxs.sigs k (frameSig c p.1 p.2),
                                 writtenBack := sparseSet false s.ctxs.writtenBack k true } }

/-- One 200 hc slot: each district writes one frame back. -/
def writeBack (s : State) : State :=
  match s.ctxs.wb with
  | none => s
  | some w =>
    if !dieOpen s 2 || !dieOpen s 3 then s
    else
      let s := advanceTo s (w.edge + hcs s (200 * (w.slot + 1)))
      let slot := takeSlot w.left
      let left := slot.2 ++ slot.1.filter (crossedBad s)
      let t := slot.1.foldl (writeBackFrame w.ctx) s
      if left.isEmpty then
        let t := { t with ctxs := { t.ctxs with wb := none, wbEnd := s.now } }
        if stagedState t = stOutDirty then setStaged t stOutClean (stagedCtx t) else showLatches t
      else { t with ctxs := { t.ctxs with wb := some { w with left := left, slot := w.slot + 1 } } }

/-! ## Staging events -/

/-- The staging in progress is abandoned. -/
def abandonStaging (s : State) (g : Staging) (st : Status) : State :=
  let t := emptyStaged s
  match g.owner with
  | .command id => finish t id st
  | .mode id => finish (endTransition t) id st
  | _ => t

/-- A reset of the base die has raised its fence, and what it catches has not ended yet (R57). -/
def baseFenced (s : State) : Bool := match s.boot.d0 with | .fence _ | .drained _ => true | _ => false

/-- The staging in progress has copied its frames: not while a repair of its plane is pending, or before its write-back has ended (R92, R93,
R102, R326). That of a MODE_SET which a base-die reset catches leaves the latches READY, with no swap (R60). -/
def stagingComplete (sd : SwapData) (s : State) : State :=
  match s.ctxs.staging with
  | none => s
  | some g =>
    if !dieOpen s 2 || !dieOpen s 3 then s
    else if !g.oldPlane && planeLost s g.ctx then abandonStaging (fault s .stagingAbandoned g.ctx 0 (die := 3)) g .integrityFail
    else if repairNeeded s g || s.ctxs.wb.isSome then s
    else
      let t := stagingDone (advanceTo s (max (g.start + stagingTime s + ((g.waits.map Prod.snd).foldl max 0))
        (if s.ctxs.lastSwap == some g.start then s.ctxs.wbEnd + hcs s 200 else 0))) g
      match g.owner with
      | .command id => finish (commit t id) id .success
      | .mode _ => if baseFenced s then t else if g.oldPlane then abandonStaging t g .swapSkipped else runSwap t sd
      | _ => t

/-- A staging not complete 2 ms after its start is abandoned (R375). -/
def stagingTimeout (s : State) : State :=
  match s.ctxs.staging with
  | none => s
  | some g => abandonStaging (fault (advanceTo s (g.start + 2 * msTicks)) .stagingAbandoned g.ctx 0 (die := 2)) g .internalFault

/-- MODE_SET RUN whose staging has not completed within 1 ms (R42). -/
def runTimeout (s : State) : State :=
  match s.boot.transition, s.ctxs.staging with
  | some tr, some g =>
    match g.owner with
    | .mode _ => abandonStaging (advanceTo s (tr.since + msTicks)) g .swapSkipped
    | _ => s
  | _, _ => s

/-! ## Commands -/

/-- No staging or armed swap stands in the way of a context command (R375). -/
def stageBusy (s : State) : Bool := running s || s.ctxs.staging.isSome || s.ctxs.armed.isSome

/-- CONTEXT_STAGE (R94, R105, R375). -/
def contextStage (t : Track) (s : State) : State :=
  let c := t.par 0x10 1
  if 7 < c then finish s t.id .invalidField
  else if stageBusy s then finish s t.id .busy
  else if stagedState s = stReady ∧ stagedCtx s = c ∧ committed s c then finish (commit s t.id) t.id .success
  else
    match stagingRefusal s c with
    | some 0 => finish s t.id .notReady
    | some _ => finish s t.id .busy
    | none => startStaging s c (.command t.id)

/-- CONTEXT_SWAP_AT (R105, R106, R376). -/
def contextSwapAt (t : Track) (s : State) : State :=
  let c := t.par 0x10 1
  let fl := t.par 0x11 1
  let limit := t.par 0x12 2
  let imm := fl.testBit 0
  let skip := fl.testBit 1
  let target := t.time 0x18
  if 7 < c then finish s t.id .invalidField
  else if fl.testBit 2 then
    if c ≠ 0 ∨ t.par 0x18 12 ≠ 0 then finish s t.id .invalidField
    else if running s then finish s t.id .busy
    else
      match s.ctxs.armed with
      | none => finish s t.id .invalidField
      | some a =>
        finish (finishTime (disarm (commit s t.id)) a.id .swapSkipped (if a.immediate then counter s else a.target)) t.id .success
  else if !timeOk (t.par 0x18 12) || (imm && t.par 0x18 12 != 0) || (skip && limit != 0) || (!imm && farAhead s target) then
    finish s t.id .invalidField
  else if running s || s.ctxs.armed.isSome then finish s t.id .busy
  else if stagedCtx s = c ∧ (stagedState s = stStaging ∨ stagedState s = stReady ∨ stagedState s = stOutDirty ∨ stagedState s = stOutClean)
  then
    let passed := decide (target ≤ counter s)
    let s1 := commit s t.id
    { s1 with ctxs := { s1.ctxs with armed := some { id := t.id, ctx := c, immediate := imm || passed, target := target, skip := skip,
                                                     limitUs := limit, waiting := false } } }.wr CFG_LATCH_STATUS.swap_armed 1
  else finish s t.id .notReady

/-- The table of SCHEDULE_SET passes R110. -/
def tableOk (s : State) (d : List Byte) (len : Nat) : Bool :=
  let period := field d 0 4
  let n := field d 8 1
  let least := if s.grade2 then 23077 else 20000
  let offs := (List.range n).map (fun i => field d (16 + 8 * i) 3)
  let gaps := (List.range n).map (fun i =>
    if i + 1 < n then (offs.getD (i + 1) 0 : Int) - offs.getD i 0 else (period : Int) + offs.getD 0 0 - offs.getD i 0)
  decide (n ≤ 64) && len == 16 + 8 * n && period != 0 && 10000000 % period == 0 && decide (least ≤ period) &&
    decide (field d 4 4 < period) && zeros d 9 7 && offs.all (fun o => decide (o < period)) &&
    gaps.all (fun g => decide ((least : Int) ≤ g)) &&
    (List.range n).all (fun i =>
      bits (field d (16 + 8 * i) 8) 29 3 == 0 && bits (field d (16 + 8 * i) 8) 48 16 == 0 &&
        (bits (field d (16 + 8 * i) 8) 27 1 == 0 || bits (field d (16 + 8 * i) 8) 32 16 == 0))

/-- The bank that a checked table spells. -/
def bankOfTable (d : List Byte) (startNs : Nat) : Bank :=
  { bytes := d, period := field d 0 4, phase := field d 4 4, start := startNs,
    entries := (List.range (field d 8 1)).map (fun i =>
      let e := field d (16 + 8 * i) 8
      { offset := bits e 0 24, ctx := bits e 24 3, skip := e.testBit 27, report := e.testBit 28, limitUs := bits e 32 16 }) }

/-- Whole ns at or after a time-counter value. -/
def ceilNs (c : Nat) : Nat := (c + 65535) / 65536

/-- SCHEDULE_SET commits: the bank is armed (R111), and its first entry's staging starts where no schedule runs (R112). -/
def scheduleArm (t : Track) (s : State) : State :=
  let b := idleBank s
  let start := if (t.par 0x1C 1).testBit 0 then ceilNs (counter s) else ceilNs (t.time 0x20)
  let s1 := { s with ctxs := { s.ctxs with banks := sparsePut s.ctxs.banks b (bankOfTable t.data start) } }
  let s2 := showSchedule (s1.wr CFG_SCHED_STATUS.bank_armed 1)
  let s3 := if running s then s2 else scheduleStage s2
  finish s3 t.id .success ((sha3_512 t.data).toNat % 2 ^ 64)

/-- SCHEDULE_SET starts: its fields are checked and the table is read from host memory (R377). -/
def scheduleSet (t : Track) (s : State) : State :=
  let len := t.par 0x18 4
  let imm := (t.par 0x1C 1).testBit 0
  if len < 16 ∨ 528 < len ∨ t.par 0x10 8 % 8 ≠ 0 ∨ !timeOk (t.par 0x20 12) ∨ (imm ∧ t.par 0x20 12 ≠ 0) ∨
      (!imm ∧ farAhead s (t.time 0x20)) then finish s t.id .invalidField
  else if bankArmed s || s.ctxs.armed.isSome || (s.ctxs.staging.any (fun g => match g.owner with | .command _ => true | _ => false)) then
    finish s t.id .busy
  else readHost s t.id (t.par 0x10 8) len

/-- The table has arrived: it is checked (R110) and armed. -/
def scheduleTable (t : Track) (d : List Byte) (s : State) : State :=
  if !tableOk s d (t.par 0x18 4) then finish s t.id .invalidField
  else if !(bankOfTable d 0).entries.all (fun e => committed s e.ctx) then finish s t.id .notReady
  else if bankArmed s then finish s t.id .busy
  else reachCommit (holdData s t.id d) t (fun s => scheduleArm { t with data := d } s)

/-- CONTEXT_RETIRE is refused BUSY (R107, R378). -/
def retireBusy (s : State) (c : Nat) : Bool :=
  activeCtx s == some c ||
    (stagedState s != stEmpty && stagedCtx s == c && stagedState s != stOutClean && stagedState s != stSuperseded) ||
    s.ctxs.armed.any (fun a => a.ctx == c) || s.rdb CFG_CTX_STATUS.in_schedule c || s.imgs.load.any (fun l => l.ctx == c)

/-- Pending plane repairs and losses of context `c` are dropped (R304, R326). -/
def dropRepairs (s : State) (c : Nat) : State :=
  mapLost (mapRepairs s (fun r => if r.ctx == c && !r.latch then none else some r)) (fun r => if r.ctx == c then none else some r)

/-- The plane of context `c` becomes EMPTY. -/
def retire (t : Track) (s : State) : State :=
  let c := t.par 0x10 1
  let s1 := { s with imgs := { s.imgs with ctx := sparseDel s.imgs.ctx c },
                     ctxs := { s.ctxs with planes := dropPlane s.ctxs.planes c, sigs := dropPlane s.ctxs.sigs c,
                                           writtenBack := dropPlane s.ctxs.writtenBack c } }
  let s2 := ((dropRepairs s1 c).wr CFG_CTX_STATUS.state 0 c).wr CFG_CTX_IMAGE.debug_observe 0 c
  let s3 := (s2.wr CFG_CTX_IMAGE.chain_depth 0 c).wr CFG_CTX_IMAGE.retained_64k 0 c
  let free (x : Tile) : Tile :=
    { x with ranges := sparseDel x.ranges c, newRanges := sparseDel x.newRanges c, vectors := x.vectors.filter (fun v => v.1 / 8 != c),
             newVectors := x.newVectors.filter (fun v => v.1 / 8 != c) }
  let s4 := { s3 with tiles := s3.tiles.map (fun p => (p.1, free p.2)) }
  let s5 := if stagedState s4 != stEmpty && stagedCtx s4 == c then emptyStaged s4 else s4
  finish (showStore s5) t.id .success 1

/-- CONTEXT_RETIRE (R107, R378). -/
def contextRetire (t : Track) (s : State) : State :=
  let c := t.par 0x10 1
  if 7 < c then finish s t.id .invalidField
  else if retireBusy s c then finish s t.id .busy
  else if !committed s c then reachCommit s t (fun s => finish s t.id .success 0)
  else reachCommit s t (retire t)

/-! ## Reset of the logic die (R117) -/

/-- Latches, stagings, swaps and the schedule are lost with the logic die. suspended is set where a bank ran or was armed (DESIGN CHOICE, log
entry 131). -/
def ctxResetD2 (s : State) : State :=
  let s0 := match s.ctxs.staging with
    | some g => (match g.owner with
        | .command id => finish s id .dieReset
        | .mode id => finish (endTransition s) id .dieReset
        | _ => s)
    | none => s
  let s1 := match s0.boot.transition with
    | some tr => if tr.dest = modeRun ∧ s0.rd DEV_MODE.mode = modeAssembly then finish (endTransition s0) tr.id .dieReset else s0
    | none => s0
  let s2 := match s1.ctxs.armed with
    | some a => finish s1 a.id .dieReset
    | none => s1
  let was := running s2 || bankArmed s2
  let s2 := mapRepairs s2 (fun r => if r.latch then none else some r)
  let s3 := { s2 with ctxs := { s2.ctxs with active := [], staged := [], activeOld := false, oldSigs := [], staging := none, armed := none,
                                             lastSwap := none, wb := none, late := none, banks := [], refused := false, ffs := [], dirty := [], resetSync := [], wck := [],
                                             ports := Contexts.start.ports },
                      noc := { s2.noc with bound := [] }, fh := { s2.fh with bound := [] }, pins := { s2.pins with bound := [] } }
  let s4 := ((s3.wr CFG_SCHED_STATUS.running 0).wr CFG_SCHED_STATUS.bank_armed 0).wr CFG_SCHED_STATUS.next_entry 0
  let s5 := if was then s4.wr CFG_SCHED_STATUS.suspended 1 else s4
  let s6 := ((s5.wr CFG_LATCH_STATUS.active_valid 0).wr CFG_LATCH_STATUS.active_ctx 0).wr CFG_LATCH_STATUS.swap_armed 0
  showSchedule (dropOldChains (setStaged ((s6.wr CFG_LATCH_STATUS.repair_wait 0).wr CFG_LATCH_STATUS.frames_staged 0) stEmpty 0))

/-! ## Meanings -/

/-- STAGING_COMPLETE (R92, R93, R102, R63, R42). -/
def execStagingComplete (swap : SwapData) (s : State) : Res := .next (stagingComplete swap s)

/-- STAGING_TIMEOUT (R375). -/
def execStagingTimeout (s : State) : Res := .next (stagingTimeout s)

/-- RUN_STAGING_TIMEOUT (R42). -/
def execRunStagingTimeout (s : State) : Res := .next (runTimeout s)

/-- COMMAND_SWAP_DUE (R95 to R100, R106). -/
def execCommandSwapDue (swap : SwapData) (s : State) : Res := .next (commandSwapDue swap s)

/-- SCHEDULE_ENTRY_DUE (R109, R112 to R116). -/
def execScheduleEntryDue (swap : SwapData) (s : State) : Res := .next (entryDue swap s)

/-- LATE_SWAP_READY (R106, R113, R115). -/
def execLateSwapReady (swap : SwapData) (s : State) : Res := .next (lateReady swap s)

/-- LATE_LIMIT_EXPIRY (R106, R114). -/
def execLateLimitExpiry (s : State) : Res := .next (lateLimit s)

/-- SCHEDULE_BANK_TAKEOVER (R111). -/
def execScheduleBankTakeover (s : State) : Res := .next (bankTakeover s)

/-- WRITE_BACK_FRAME (R101). -/
def execWriteBackFrame (s : State) : Res := .next (writeBack s)

/-- CONTEXT_STAGE (R105, R375). -/
def execContextStage (id : Nat) (s : State) : Res := .next (startCommand 0x12 id s contextStage)

/-- CONTEXT_SWAP_AT (R106, R376). -/
def execContextSwapAt (id : Nat) (s : State) : Res := .next (startCommand 0x13 id s contextSwapAt)

/-- SCHEDULE_SET (R111, R377). -/
def execScheduleSet (id : Nat) (s : State) : Res := .next (startCommand 0x14 id s scheduleSet)

/-- CONTEXT_RETIRE (R107, R378). -/
def execContextRetire (id : Nat) (s : State) : Res := .next (startCommand 0x15 id s contextRetire)

end Sys2Proof.Machine
end

