-- ==== Sys2Proof/Machine/Noc.lean ====
section
/-! DEFINITION. The network-on-chip (chapter 08) and the physical address map (R30 to R33): routes, virtual channels and arbitration, injection,
flit checks and the bookkeeping of requests. A request stays in `noc.reqs` from its injection until its response reaches the requester. Initiator numbers from 256 up are those of
requests whose requester a reset of the logic die has taken (R61). -/

namespace Sys2Proof.Machine

/-! ## Requests in flight -/

/-- The outstanding request of an initiator and tag. -/
def reqOf (s : State) (init tag : Nat) : Option NocReq := s.noc.reqs.find? (fun r => r.init == init && r.tag == tag)

/-- The outstanding requests with the one of `init` and `tag` changed by `f`. -/
def mapReq (s : State) (init tag : Nat) (f : NocReq → NocReq) : State :=
  { s with noc := { s.noc with reqs := s.noc.reqs.map (fun r => if r.init == init && r.tag == tag then f r else r) } }

/-- The request leaves the network. -/
def dropReq (s : State) (init tag : Nat) : State :=
  { s with noc := { s.noc with reqs := s.noc.reqs.filter (fun r => !(r.init == init && r.tag == tag)) } }

/-- The first status other than SUCCESS that a request met stands. -/
def worseStatus (a b : Nat) : Nat := if a = 0 then b else a

/-- The target has served one more unit of `total`, with status `st`, which is ready `dt` ticks from now; the request is answered when all are
served. -/
def served (s : State) (init tag total : Nat) (st : Nat) (dt : Nat := 0) : State :=
  mapReq s init tag (fun r =>
    { r with done := r.done + 1, status := worseStatus r.status st, ready := max r.ready (s.now + dt),
             answered := r.answered || decide (total ≤ r.done + 1) })

/-! ## The address map (R30, R31) -/

/-- Where a location lies. -/
inductive Target where
  | dram
  | block (n : Nat)
  | tile (t : Nat)
  | regs
  | unmapped
  deriving DecidableEq, Repr

/-- The location of a PA, and its key ID field. -/
def locOf (pa : Nat) : Nat := pa % 2 ^ 50
def keyOf (pa : Nat) : Nat := pa / 2 ^ 50 % 64

/-- The table of R30. -/
def targetOf (loc : Nat) : Target :=
  if loc < 0x1000000000 then .dram
  else if loc < 0x1008000000 then .block ((loc - 0x1000000000) / 0x8000)
  else if loc < 0x100A000000 then .tile ((loc - 0x1008000000) / 0x8000)
  else if 0x1010000000 ≤ loc ∧ loc < 0x1011000000 then .regs
  else .unmapped

/-- Block `n` belongs to the memory-die reserve (R199). -/
def inReserve (s : State) (n : Nat) : Bool := s.rdb MEM_STATUS.reserve_active && decide (s.rd MEM_STATUS.reserve_base ≤ n)

/-! States of DRC_STATUS_c (R248). -/
def drDisabled : Nat := 0
def drTraining : Nat := 1
def drActive : Nat := 2
def drSelfRefresh : Nat := 3
def drOffline : Nat := 4

/-- The DDR5 controller of a location (R225). -/
def ctrlOfLoc (s : State) (loc : Nat) : Nat :=
  if s.rdb DRC_MAP.interleaved then b2n (bit loc 12 != (bit loc 20 != bit loc 28))
  else if s.rd DRC_STATUS.state 0 = drDisabled then 1 else 0

/-- The reachable DRAM capacity in bytes (R225). -/
def dramCapacity (s : State) : Nat := s.rd DRC_MAP.capacity_gib * 2 ^ 30

/-- The key mask of the version that is active (R298). -/
def activeMask (s : State) : Nat :=
  if s.rdb CFG_LATCH_STATUS.active_valid then
    match sparseFind s.imgs.ctx (s.rd CFG_LATCH_STATUS.active_ctx) with
    | some c => if s.ctxs.activeOld then c.oldMask.toNat else c.keyMask.toNat
    | none => 0
  else 0

/-- A fabric or Thicket port names a key ID that the active context's mask does not allow (R298); key ID 0 is always allowed. -/
def keyMasked (s : State) (r : NocReq) : Bool :=
  let k := if r.kidValid then r.kid else keyOf r.pa
  decide (0x40 ≤ r.init) && decide (r.init < 0x90) && k != 0 && !(activeMask s).testBit k

/-- The request is refused as unmapped (R33, R199): an unmapped location at either end, DRAM above the fitted capacity, the register space
from any initiator but the Porter, a reserve block, or a key ID at a target other than DRAM. One that runs from one kind of target into another,
of which the spec does not speak, is refused (DESIGN CHOICE, log entry 169). -/
def refusedByMap (s : State) (r : NocReq) : Bool :=
  let loc := locOf r.pa
  let last := loc + 64 * r.len - 1
  let keyed := keyOf r.pa != 0 || (r.kidValid && r.kid != 0)
  match targetOf loc, targetOf last with
  | .dram, .dram => decide (dramCapacity s ≤ last)
  | .block a, .block b => keyed || (!(0xA1 ≤ r.init ∧ r.init ≤ 0xA3) && (inReserve s a || inReserve s b))
  | .tile _, .tile _ => keyed
  | .regs, .regs => keyed || r.init != 0x20
  | _, _ => true

/-- A DRAM request that crosses a 4 KiB boundary (R227). -/
def crosses4K (r : NocReq) : Bool :=
  targetOf (locOf r.pa) == .dram && decide (4096 < r.pa % 4096 + 64 * r.len)

/-- NOC_DENY_PA logs the PA and the initiator of the last refused request (R33, R222). -/
def nocLogDeny (s : State) (pa init : Nat) : State :=
  ((s.wr NOC_DENY_PA_LO.pa_lo pa).wr NOC_DENY_PA_HI.pa_hi (pa / 2 ^ 32)).wr NOC_DENY_PA_HI.initiator init

/-- A request answered where it is made, never forwarded: ACCESS_DENIED, with zero data marked poisoned for a read (R33). -/
def refuseReq (r : NocReq) (st : Nat) : NocReq :=
  { r with answered := true, refused := true, status := st, respPoison := if r.write then [] else List.range r.len,
           respData := if r.write then [] else List.replicate r.len 0 }

/-! ## Routers, links and routes (R202 to R205) -/

/-- The router at which an initiator attaches (R202, R220). -/
def initRouter (i : Nat) : Nat :=
  let i := i % 256
  if i < 0x20 then 16 + i / 4
  else if i < 0x40 then 25
  else if i < 0x80 then 32 + (i - 0x40) / 4
  else if i < 0x90 then 8 + (i - 0x80) / 2
  else if i < 0xA0 then (i - 0x90) / 2
  else if i = 0xA0 then 4 else if i = 0xA1 then 27 else if i = 0xA2 then 29 else 31

/-- The unit that serves a location: controllers 0 and 1, memory-die quadrants 2 to 5, Thicket columns 6 to 21, the register space 22. -/
def unitOf (s : State) (loc : Nat) : Nat :=
  match targetOf loc with
  | .dram => ctrlOfLoc s loc
  | .block b => 2 + b / 1024
  | .tile t => 6 + t / 64
  | _ => 22

/-- The router at which a unit attaches (R202). -/
def unitRouter (u : Nat) : Nat :=
  if u = 0 then 16 else if u = 1 then 23 else if u < 6 then 24 + 2 * (u - 2) else if u < 22 then 8 + (u - 6) / 2 else 25

/-- The local port of an attachment at its router, in the order of the table of R202; one that a router has in two roles has one port. -/
def initPort (i : Nat) : Nat :=
  let i := i % 256
  if i < 0x20 then i % 4 else if i < 0x40 then 0 else if i < 0x80 then i % 4 else if i < 0xA0 then i % 2 else if i = 0xA0 then 2 else 0

def unitPort (u : Nat) : Nat := if u < 2 then 4 else if u < 6 then 0 else if u < 22 then u % 2 else 0

/-- The numbers from `a` to `b`, in either direction, without `a`. -/
def stepsTo (a b : Nat) : List Nat :=
  if a ≤ b then (List.range (b - a)).map (fun k => a + k + 1) else (List.range (a - b)).map (fun k => a - k - 1)

/-- The routers of a packet from `src` to `dst`: along the column, then along the row; in rows 2 and 3 a leg of 4 columns or more takes the
express link first (R204). -/
def route (src dst : Nat) : List Nat :=
  let x := src % 8
  let y := dst / 8
  let z := dst % 8
  let row :=
    if (y = 2 ∨ y = 3) ∧ x + 4 ≤ z then (x + 4) :: stepsTo (x + 4) z
    else if (y = 2 ∨ y = 3) ∧ z + 4 ≤ x then (x - 4) :: stepsTo (x - 4) z
    else stepsTo x z
  src :: ((stepsTo (src / 8) y).map (fun k => 8 * k + x) ++ row.map (fun k => 8 * y + k))

/-- Hops between routers (R204). -/
def hops (src dst : Nat) : Nat := (route src dst).length - 1

/-- The routers that a request passes, or its response. -/
def routeOf (s : State) (r : NocReq) (resp : Bool) : List Nat :=
  let a := initRouter r.init
  let b := unitRouter (unitOf s (locOf r.pa))
  if resp then route b a else route a b

/-- The nodes of the initiators and of the units, beside the 48 routers. -/
def initNode (i : Nat) : Nat := 48 + i % 256
def unitNode (u : Nat) : Nat := 320 + u

/-- The way of a request, or of its response: its routers, and the unit or initiator to which the last one ejects it. -/
def wayOf (s : State) (r : NocReq) (resp : Bool) : List Nat :=
  routeOf s r resp ++ [if resp then initNode r.init else unitNode (unitOf s (locOf r.pa))]

/-- Transom crossings between an initiator and its router: fabric and Thicket column ports lie on the logic die (R205). -/
def initCross (i : Nat) : Nat := if 0x40 ≤ i % 256 ∧ i % 256 < 0x90 then 1 else 0

/-- Hop cycles from a router's ejection to its unit: a Pane to the memory die, a Transom to a Thicket column (R205). -/
def unitCross (u : Nat) : Nat := if 2 ≤ u ∧ u < 22 then 1 else 0

/-- Flits of a request, and of a response: data follows only a read that ends SUCCESS or POISONED (R208). -/
def reqFlits (r : NocReq) : Nat := if r.write then 1 + r.len else 1

def carriesData (r : NocReq) : Bool := !r.write && (r.status == 0 || r.status == Status.poisoned.code)

/-- A response whose header has lost half 0 is delivered POISONED, its data marked poisoned (R216). -/
def asDelivered (r : NocReq) : NocReq :=
  if r.lost then { r with status := Status.poisoned.code, respPoison := List.range r.respData.length } else r

def respFlits (r : NocReq) : Nat := if carriesData r then 1 + r.len else 1

/-- Flit `k` of a packet: where it is. A flit that has not left waits at its initiator since the issue, or at the target since the answer. -/
def hopOf (r : NocReq) (resp : Bool) (k : Nat) : Hop :=
  if resp then r.back.getD k ⟨0, r.ready⟩ else r.fwd.getD k ⟨0, r.issued⟩

/-- Every flit has come to the end of its way. -/
def allThere (s : State) (r : NocReq) (resp : Bool) : Bool :=
  let n := (wayOf s r resp).length
  (List.range (if resp then respFlits r else reqFlits r)).all (fun k => decide (n ≤ (hopOf r resp k).at_))

/-- The tick at which the last flit was ejected. -/
def lastHop (r : NocReq) (resp : Bool) : Nat := (hopOf r resp ((if resp then respFlits r else reqFlits r) - 1)).tick

/-- The tick from which the target can serve a request whose flits have been ejected to it: after the crossing. -/
def reachTick (s : State) (r : NocReq) : Nat := lastHop r false + hcs s (unitCross (unitOf s (locOf r.pa)))

/-- The request stands at its target, not yet answered. -/
def atTarget (s : State) (r : NocReq) : Bool := !r.answered && !r.dropped && !r.refused && allThere s r false

/-- No earlier request of the same initiator, class and unit is still to be answered (R213). -/
def inOrder (s : State) (r : NocReq) : Bool :=
  !((s.noc.reqs.takeWhile (fun q => !(q.init == r.init && q.tag == r.tag))).any (fun q =>
    q.init == r.init && q.qos == r.qos && !q.answered && !q.dropped && unitOf s (locOf q.pa) == unitOf s (locOf r.pa)))

/-- The request is served now: it has come to its target, in its turn. -/
def servable (s : State) (r : NocReq) : Bool := atTarget s r && inOrder s r

/-! ## Classes (R211, R220) -/

/-- The configured class of an initiator; 3 is treated as bulk (R222). -/
def initClass (s : State) (i : Nat) : Nat := if s.rd NOC_INIT_CFG.cls i = 3 then 1 else s.rd NOC_INIT_CFG.cls i

/-- The rank of a class in the order of R212: time-critical, management, bulk. -/
def classRank (c : Nat) : Nat := if c = 0 then 0 else if c = 2 then 1 else 2

/-- The class in which a packet travels: the one its header names, but none above the port's own (R211). -/
def packetClass (own named : Nat) : Nat :=
  let n := if named = 0 ∨ named = 2 then named else 1
  if classRank n < classRank own then own else n

/-- Initiator `i` is a fabric NoC port (R220). -/
def isFabricPort (i : Nat) : Bool := decide (0x40 ≤ i) && decide (i < 0x80)

/-! ## Virtual channels and arbitration (R210, R212) -/

/-- The virtual channel of a packet: 0 to 2 by the class of a request, 3 for responses. -/
def vcOf (r : NocReq) (resp : Bool) : Nat := if resp then 3 else if r.qos = 0 ∨ r.qos = 2 then r.qos else 1

/-- The local port of a packet's source. -/
def sourceNode (s : State) (r : NocReq) (resp : Bool) : Nat := if resp then unitNode (unitOf s (locOf r.pa)) else initNode r.init

/-- The node before position `p` of a packet's way, and the node at it: a router, or the source. -/
def nodeAt (s : State) (r : NocReq) (resp : Bool) (p : Nat) : Nat :=
  if p = 0 then sourceNode s r resp else (wayOf s r resp).getD (p - 1) 0

/-- The channel of the link from `a` to `b` that packets of initiator `i` use: the doubled columns have two (R203). -/
def channelOf (a b i : Nat) : Nat :=
  if a < 48 ∧ b < 48 ∧ a % 8 = b % 8 ∧ 16 ≤ min a b ∧ max a b < 40 then i % 2 else 0

/-- The key of a link's channel. -/
def linkKey (a b i : Nat) : Nat := (a * 512 + b) * 2 + channelOf a b i

/-- A flit on its way: its request, whether it belongs to the response, its number and where it is. -/
structure Flit where
  req : NocReq
  resp : Bool
  k : Nat
  hop : Hop
  deriving DecidableEq, Repr

/-- The flits on their way, packet by packet in issue order. -/
def flits (s : State) : List Flit :=
  s.noc.reqs.flatMap (fun r =>
    if r.dropped || r.refused || r.inPort then []
    else (List.range (if r.answered then respFlits r else reqFlits r)).map (fun k => ⟨r, r.answered, k, hopOf r r.answered k⟩))

/-- The node and input that hold a flit, and the node that it goes to next; none at the end of its way. -/
def Flit.here (s : State) (f : Flit) : Nat := nodeAt s f.req f.resp f.hop.at_

def Flit.from_ (s : State) (f : Flit) : Nat := nodeAt s f.req f.resp (f.hop.at_ - 1)

def Flit.next (s : State) (f : Flit) : Option Nat := (wayOf s f.req f.resp)[f.hop.at_]?

def Flit.vc (f : Flit) : Nat := vcOf f.req f.resp

/-- The two flits wait in one input buffer of a virtual channel. -/
def sameBuffer (s : State) (f g : Flit) : Bool :=
  f.vc == g.vc && f.here s == g.here s && (f.hop.at_ == 0 && g.hop.at_ == 0 || f.hop.at_ != 0 && g.hop.at_ != 0 && f.from_ s == g.from_ s)

/-- The flit is the first of its buffer: of the flits there, none came before it. -/
def heads (s : State) (l : List Flit) (f : Flit) : Bool :=
  match l.find? (fun g => sameBuffer s f g && (g.next s).isSome && l.all (fun h => !(sameBuffer s f h && (h.next s).isSome) || decide (g.hop.tick ≤ h.hop.tick))) with
  | some g => g == f
  | none => true

/-- Flits of responses that fabric port `init` holds: those of whole responses that wait, and those ejected to it of the next ones (R218). -/
def rxHeld (s : State) (init : Nat) : Nat :=
  ((s.noc.reqs.filter (fun r => r.init == init && r.answered && !r.refused)).map (fun r =>
    if r.inPort then respFlits r else (r.back.filter (fun h => decide ((wayOf s r true).length ≤ h.at_))).length)).sum

/-- The buffer that the flit goes to has room for it at tick `t`: 4 flits of its virtual channel per router input, whose credit is back 1 hc after a
flit has gone on (R210); 16 flits in a fabric port (R218). -/
def hasCredit (s : State) (l : List Flit) (t : Nat) (f : Flit) : Bool :=
  match f.next s with
  | none => false
  | some b =>
    if 48 ≤ b then !(f.resp && isFabricPort f.req.init) || decide (rxHeld s f.req.init < 16)
    else
      let there (g : Flit) : Bool := g.hop.at_ != 0 && g.here s == b && g.from_ s == f.here s
      let left (g : Flit) : Bool :=
        decide (2 ≤ g.hop.at_) && g.from_ s == b && nodeAt s g.req g.resp (g.hop.at_ - 2) == f.here s && decide (t < g.hop.tick + hcTicks s)
      decide ((l.filter (fun g => g.vc == f.vc && (there g || left g))).length < 4)

/-- Another packet of the flit's virtual channel has sent its header over the same link, and not yet its last flit: packets of one virtual channel
do not interleave (R212). -/
def linkTaken (s : State) (l : List Flit) (f : Flit) : Bool :=
  l.any (fun g => g.k == 0 && !(g.req.init == f.req.init && g.req.tag == f.req.tag) && g.vc == f.vc &&
    l.any (fun h => h.req.init == g.req.init && h.req.tag == g.req.tag && decide (h.hop.at_ < g.hop.at_) &&
      (List.range' h.hop.at_ (g.hop.at_ - h.hop.at_)).any (fun p =>
        nodeAt s g.req g.resp p == f.here s && some (nodeAt s g.req g.resp (p + 1)) == f.next s &&
          channelOf (f.here s) ((f.next s).getD 0) g.req.init == channelOf (f.here s) ((f.next s).getD 0) f.req.init)))

/-- The flits that contend at tick `t` for the link that `f` needs: first of their buffers, in the hc after their arrival, with a credit. -/
def contenders (s : State) (l : List Flit) (t : Nat) (f : Flit) : List Flit :=
  l.filter (fun g => g.here s == f.here s && g.next s == f.next s && (g.next s).isSome &&
    channelOf (f.here s) ((f.next s).getD 0) g.req.init == channelOf (f.here s) ((f.next s).getD 0) f.req.init &&
    decide (g.hop.tick + hcTicks s ≤ t) && heads s l g && hasCredit s l t g && !linkTaken s l g)

/-- The order of R212 between flits: responses first, a bulk or management flit that has waited 31 hc, then by class. -/
def grantRank (s : State) (t : Nat) (f : Flit) : Nat :=
  if f.resp then classRank f.req.qos
  else if f.vc ≠ 0 ∧ f.hop.tick + hcs s 32 ≤ t then 3
  else 4 + classRank f.req.qos

/-- The turn of a class at a link. -/
def turnKey (s : State) (f : Flit) : Nat := linkKey (f.here s) ((f.next s).getD 0) f.req.init * 8 + b2n f.resp * 4 + f.req.qos % 4

/-- How far initiator `i` stands from its grant: the one served last goes on up to its weight, then the next numbers follow (R212). -/
def turnRank (s : State) (f : Flit) : Nat :=
  let i := f.req.init % 256
  match sparseFind s.noc.turns (turnKey s f) with
  | none => i
  | some (j, n) => if i = j ∧ n ≤ s.rd NOC_INIT_CFG.weight i then 0 else (i + 255 - j) % 256 + 1

/-- The router's output grants this hc to `f`: none of the contenders stands before it. -/
def granted (s : State) (l : List Flit) (t : Nat) (f : Flit) : Bool :=
  let c := contenders s l t f
  let rank (g : Flit) : Nat := grantRank s t g * 1024 + turnRank s g
  c.contains f && c.all (fun g => decide (rank f ≤ rank g))

/-- The next flit of a packet to reach `router`: the first that stands one position before it. -/
def nextFlit (s : State) (r : NocReq) (router : Nat) : Option Flit :=
  ((List.range (if r.answered then respFlits r else reqFlits r)).map (fun k => (⟨r, r.answered, k, hopOf r r.answered k⟩ : Flit))).find?
    (fun f => f.next s == some router)

/-- The earliest tick at which a flit can reach the next node of its way: one hc for each hop, a Transom crossing when it leaves its source (that of the
Pane to the memory die counts with port B, R182), and one flit per hc on the link's channel (R203 to R205). -/
def linkTick (s : State) (f : Flit) (node : Nat) : Nat :=
  let cross := if f.hop.at_ ≠ 0 then 0 else if f.resp then b2n (decide (6 ≤ unitOf s (locOf f.req.pa)) && decide (unitOf s (locOf f.req.pa) < 22))
    else initCross f.req.init
  let used := match sparseFind s.noc.links (linkKey (f.here s) node f.req.init) with
    | some t => t + hcTicks s
    | none => 0
  max (f.hop.tick + hcs s (1 + cross)) used

/-- The tick at which a hop that is commanded now brings the flit to `router`. -/
def hopTick (s : State) (f : Flit) (router : Nat) : Nat :=
  max s.now (linkTick s f router)

/-- The list `l`, padded with `h`, with entry `k` replaced. -/
def setHop (l : List Hop) (n k : Nat) (h : Hop) (pad : Hop) : List Hop :=
  (List.range n).map (fun i => if i = k then h else l.getD i pad)

/-- The flit reaches the next node of its way at tick `t`. -/
def moveFlit (s : State) (f : Flit) (router t : Nat) : State :=
  let h : Hop := ⟨f.hop.at_ + 1, t⟩
  let i := f.req.init % 256
  let n := match sparseFind s.noc.turns (turnKey s f) with
    | some (j, n) => if j = i ∧ n ≤ s.rd NOC_INIT_CFG.weight i then n + 1 else 1
    | none => 1
  let s1 := mapReq s f.req.init f.req.tag (fun r =>
    if f.resp then { r with back := setHop r.back (respFlits r) f.k h ⟨0, r.ready⟩ }
    else { r with fwd := setHop r.fwd (reqFlits r) f.k h ⟨0, r.issued⟩ })
  { s1 with noc := { s1.noc with
      links := sparsePut s1.noc.links (linkKey (f.here s) router f.req.init) t
      turns := sparsePut s1.noc.turns (turnKey s f) (i, n) } }

/-! ## Packets (R206, R207) -/

/-- One bit of CRC-32 in the bit order of IEEE 802.3. -/
def crc32Bit (a : Nat) : Nat := if a % 2 = 1 then (a / 2) ^^^ 0xEDB88320 else a / 2

/-- CRC-32 of IEEE 802.3 over a byte string. -/
def crc32 (l : List Byte) : BitVec 32 :=
  BitVec.ofNat 32 ((l.foldl (fun a b => (List.range 8).foldl (fun x _ => crc32Bit x) (a ^^^ b.toNat)) 0xFFFFFFFF) ^^^ 0xFFFFFFFF)

/-- e2e_crc: over the payload of all data flits (R207). -/
def e2eCrc (l : List (BitVec 512)) : BitVec 32 := crc32 (l.flatMap (fun d => leBytes 64 d.toNat))

/-- Byte `k` of a flit. -/
def flitByte (f : BitVec 512) (k : Nat) : Nat := f.toNat / 2 ^ (8 * k) % 256

/-- A header flit with the bytes of its fields at their offsets, and the copies in half 1 (R207). -/
def headerFlit (opcode flags len qos init tag destRouter destPort pa kid be crc status nextPort : Nat) : BitVec 512 :=
  BitVec.ofNat 512 (ofBytes ([opcode, flags, len, qos, init, tag, destRouter, destPort].map (BitVec.ofNat 8) ++ leBytes 7 pa ++ leBytes 1 kid ++
    leBytes 8 be ++ leBytes 4 crc ++ [status, nextPort, 0, 0].map (BitVec.ofNat 8) ++
    [opcode, len, qos, init, destRouter, destPort, tag, 0].map (BitVec.ofNat 8)))

/-- The look-ahead output port that a header carries over the link to position `p` of its way (R204, R207): 0 to 3 the neighbours in x and y, 4 the
express link, and from 8 up the local ports. -/
def nextPortAt (way : List Nat) (p port : Nat) : Nat :=
  match way[p]?, way[p + 1]? with
  | some a, some b => if b = a + 1 then 0 else if a = b + 1 then 1 else if b = a + 8 then 2 else if a = b + 8 then 3 else 4
  | _, _ => 8 + port

/-- The header of a request as it reaches position `p` of its way. -/
def requestHeader (s : State) (r : NocReq) (p : Nat) : BitVec 512 :=
  let u := unitOf s (locOf r.pa)
  headerFlit (if r.write then 2 else 1) (2 * b2n r.kidValid) r.len r.qos r.init r.tag (unitRouter u) (unitPort u) r.pa r.kid
    (if r.write && r.len == 1 then r.be.toNat else 2 ^ 64 - 1) (if r.write then (e2eCrc r.data).toNat else 0) 0
    (nextPortAt (routeOf s r false) p (unitPort u))

/-- The header of its response. -/
def responseHeader (s : State) (r : NocReq) (p : Nat) : BitVec 512 :=
  headerFlit (if r.write then 4 else 3) (b2n (!r.respPoison.isEmpty)) (respFlits r - 1) r.qos r.init r.tag (initRouter r.init)
    (initPort r.init) r.pa 0 (2 ^ 64 - 1) (if carriesData r then (e2eCrc r.respData).toNat else 0) r.status
    (nextPortAt (routeOf s r true) p (initPort r.init))

/-- The packet whose flits a fabric port presents, the header first. A reserved bit is one of flags [7:2] or of the bytes that R207 does not
list. -/
def packetOf (l : List (BitVec 512)) : Packet :=
  let h := l.headD 0
  let fl := flitByte h 1
  { opcode := BitVec.ofNat 8 (flitByte h 0), poisoned := fl.testBit 0, kidValid := fl.testBit 1,
    reserved := fl / 4 != 0 || h.toNat / 2 ^ 240 % 2 ^ 16 != 0 || h.toNat / 2 ^ 312 != 0,
    length := BitVec.ofNat 8 (flitByte h 2), qos := BitVec.ofNat 8 (flitByte h 3), tag := BitVec.ofNat 8 (flitByte h 5),
    pa := BitVec.ofNat 56 (h.toNat / 2 ^ 64), kid := BitVec.ofNat 8 (flitByte h 15), be := BitVec.ofNat 64 (h.toNat / 2 ^ 128), data := l.drop 1 }

/-! ## Injection (R209 to R214) -/

/-- The base die forwards requests: CORE runs and no fence of R57 is up. -/
def nocRunning (s : State) : Bool :=
  s.boot.coreUp && (match s.boot.d0 with | .idle => true | .opened _ => true | _ => false)

/-- The base die's own Shutters may open: CORE runs and no reset of R57 keeps them shut. -/
def baseOpen (s : State) : Bool :=
  s.boot.coreUp && (match s.boot.d0 with | .idle | .opened _ | .fence _ | .drained _ => true | _ => false)

/-- The request enters the network at tick `now`, after the checks of R33 and R227; a refused one is logged and answered at once. -/
def injectReq (s : State) (r : NocReq) (malformed : Bool) : State :=
  let r := { r with issued := s.now }
  let bad := malformed || crosses4K r || refusedByMap s r || keyMasked s r
  let s1 := if bad then nocLogDeny s r.pa r.init else s
  let r1 := if bad then refuseReq r Status.accessDenied.code else r
  { s1 with noc := { s1.noc with reqs := s1.noc.reqs ++ [r1] } }

/-- The faults of R209 in a packet. -/
def packetMalformed (p : Packet) : Bool :=
  p.opcode != 1 && p.opcode != 2 || p.length == 0 || decide (8 < p.length.toNat) || p.pa.toNat % 64 != 0 ||
    p.reserved || (p.opcode == 2 && p.length != 1 && p.be != BitVec.allOnes 64)

/-- The request that a packet of a fabric port spells. -/
def reqOfPacket (s : State) (init : Nat) (p : Packet) : NocReq :=
  { init := init, tag := p.tag.toNat, owner := .fabric, qos := packetClass (initClass s init) p.qos.toNat,
    write := p.opcode == 2, pa := p.pa.toNat, kidValid := p.kidValid, kid := p.kid.toNat,
    len := min 8 (max 1 p.length.toNat), be := p.be, data := p.data, issued := s.now,
    badFlits := if p.poisoned then List.range p.length.toNat else [] }

/-- Outstanding requests of an initiator. -/
def outstanding (s : State) (i : Nat) : Nat := (s.noc.reqs.filter (fun r => r.init == i)).length

/-- The lowest tag that an initiator has free. -/
def freeTag (s : State) (i : Nat) : Nat :=
  ((List.range 64).find? (fun t => !(s.noc.reqs.any (fun r => r.init == i && r.tag == t)))).getD 0

/-- The status that a fabric port shows the design (R218, R219): 0 OPEN, 1 FENCED, 2 UNBOUND. -/
def portStatus (s : State) (init : Nat) : Nat := if s.noc.fenced then 1 else if (sparseFind s.noc.bound (init - 0x40)).isNone then 2 else 0

/-- The global channel of a fabric port's binding carries a clock, on whose edges alone the port transfers flits (R88, R218). -/
def portClocked (s : State) (init : Nat) : Bool := (sparseFind s.noc.bound (init - 0x40)).any (channelLive s)

/-- The tick of the `n`-th edge of the port's channel from tick `t` on. -/
def portTick (s : State) (init t n : Nat) : Nat := channelTick s ((sparseFind s.noc.bound (init - 0x40)).getD 0) t n

/-- Flits in a fabric port's transmit buffer. -/
def txHeld (s : State) (init : Nat) : Nat := ((s.noc.tx.filter (fun e => e.1 == init)).map (fun e => e.2.length)).sum

/-- The header of a packet leaves the buffer of an open fabric port: a reused tag is discarded and logged (R214). -/
def issueFabric (s : State) (init : Nat) (l : List (BitVec 512)) : State :=
  let p := packetOf l
  if (reqOf s init p.tag.toNat).isSome then fault s .nocTagReuse (init - 0x40) p.tag.toNat (die := 0)
  else injectReq s (reqOfPacket s init p) (packetMalformed p)

/-- The port may issue a packet: it is not fenced, the network runs, and fewer than 32 requests are outstanding (R214, R218). -/
def portIssues (s : State) (init : Nat) : Bool := !s.noc.fenced && nocRunning s && decide (outstanding s init < 32)

/-- Packets that a port holds issue in their order while it may (R58, R214, R218). -/
def pump : Nat → Nat → State → State
  | 0, _, s => s
  | n + 1, init, s =>
    match s.noc.tx.find? (fun e => e.1 == init) with
    | none => s
    | some e =>
      if portIssues s init then pump n init (issueFabric { s with noc := { s.noc with tx := s.noc.tx.erase e } } init e.2) else s

/-- What every port of the design holds issues when the ports reopen (R57, R58). -/
def pumpAll (s : State) : State := (List.range 64).foldl (fun s p => pump 16 (0x40 + p) s) s

/-- A packet is whole: every data flit that its header promises is there (R206). -/
def packetWhole (l : List (BitVec 512)) : Bool :=
  let p := packetOf l
  !l.isEmpty && (p.opcode != 2 || decide (8 < p.length.toNat) || l.length == 1 + p.length.toNat)

/-- A fabric port takes a packet of the design into its buffer of 16 flits, one flit on each edge of its channel, and issues it, or holds it at its
limit of outstanding requests; an unbound or fenced port, one without a clock or room, the hold cycle of a swap (R97), and a packet whose data
flits are not all there transfer nothing (R206, R214, R218). -/
def injectFabric (s : State) (init : Nat) (l : List (BitVec 512)) : State :=
  if portStatus s init ≠ 0 || !portClocked s init || holdCycle s || !packetWhole l || decide (16 < txHeld s init + l.length) then s
  else
    let s := advanceTo s (portTick s init s.now l.length)
    if (s.noc.tx.any (fun e => e.1 == init)) || !portIssues s init then { s with noc := { s.noc with tx := s.noc.tx ++ [(init, l)] } }
    else issueFabric s init l

/-- The debugger of a session has the Porter make an access under grant [1], or the board test-access port makes one under grant [2], which opens it
(R255, R285). -/
def injectDebug (s : State) (init : Nat) (l : List (BitVec 512)) (tap : Bool) : State :=
  if !packetWhole l || !s.rdb SEC_STATUS.debug_open || !bit (s.rd SEC_STATUS.grants) (if tap then 2 else 1) || decide (64 ≤ outstanding s init) then s
  else
    let p := packetOf l
    injectReq s { reqOfPacket s init p with tag := freeTag s init, owner := .debug, qos := initClass s init } (packetMalformed p)

/-- An engine's next request is injected; an initiator with 64 outstanding requests waits (R214). -/
def injectEngine (s : State) (init : Nat) : State :=
  match s.noc.waiting.find? (fun r => r.init == init) with
  | none => s
  | some r =>
    if 64 ≤ outstanding s init then s
    else
      let s1 := { s with noc := { s.noc with waiting := s.noc.waiting.erase r } }
      injectReq s1 { r with tag := freeTag s init, qos := initClass s init } false

/-- A request of an engine, to be injected in its turn. -/
def nocMake (s : State) (init : Nat) (o : NocOwner) (write : Bool) (pa len : Nat) (kid : Option Nat) (be : BitVec 64)
    (data : List (BitVec 512)) : State :=
  let r : NocReq :=
    { init := init, tag := 0, owner := o, qos := 0, write := write, pa := pa, kidValid := kid.isSome, kid := kid.getD 0,
      len := len, be := be, data := data }
  { s with noc := { s.noc with waiting := s.noc.waiting ++ [r] } }

/-! ## Accesses of byte strings -/

/-- The bytes of the next piece on the device side at address `a` with `left` to go: one partial line, or whole lines up to 512 bytes that
do not cross 4 KiB (R227, R380). -/
def deviceChunk (a left : Nat) : Nat :=
  if a % 64 ≠ 0 ∨ left < 64 then min left (64 - a % 64) else min (min 512 (left / 64 * 64)) (4096 - a % 4096)

/-- The requests that write bytes at `pa` under R227, and how many they are; `fuel` bounds them. -/
def putBytes : Nat → Nat → NocOwner → Nat → List Byte → State → Nat × State
  | 0, _, _, _, _, s => (0, s)
  | _ + 1, _, _, _, [], s => (0, s)
  | k + 1, init, o, pa, l, s =>
    let n := max 1 (deviceChunk pa l.length)
    let at_ := pa % 64
    let lines := (at_ + n + 63) / 64
    let img := ofBytes (l.take n) * 2 ^ (8 * at_)
    let be := if lines = 1 then BitVec.ofNat 64 ((2 ^ n - 1) * 2 ^ at_) else BitVec.allOnes 64
    let r := putBytes k init o (pa + n) (l.drop n)
      (nocMake s init o true (pa / 64 * 64) lines none be ((List.range lines).map (fun i => BitVec.ofNat 512 (img >>> (512 * i)))))
    (r.1 + 1, r.2)

/-- An engine writes a byte string. -/
def writeBytes (s : State) (init : Nat) (o : NocOwner) (pa : Nat) (l : List Byte) : Nat × State := putBytes (l.length + 1) init o pa l s

/-- The bytes of a read response. -/
def respBytes (r : NocReq) (o n : Nat) : List Byte := slice (r.respData.flatMap (fun l => leBytes 64 l.toNat)) o n

/-- Latency in hc of a request in an empty network whose target takes `serve` hc (R205). -/
def quietHc (s : State) (r : NocReq) (serve : Nat) : Nat :=
  let h := hops (initRouter r.init) (unitRouter (unitOf s (locOf r.pa)))
  2 * (h + 2 + initCross r.init + unitCross (unitOf s (locOf r.pa))) + (reqFlits r - 1) + (respFlits r - 1) + serve

/-! ## Flit checks (R215 to R217) -/

/-- What the code of one half finds in its 272 bits with the erroneous bits `e` (R206): one is corrected, two and a burst of up to 16 adjacent bits are
detected; what it makes of more is the code's, of which the spec gives no more. -/
inductive HalfFind where
  | ok
  | corrected
  | bad
  | wrong (change : BitVec 256) (counted : Bool)
  deriving DecidableEq, Repr

def halfFind (e : BitVec 272) : HalfFind :=
  let on := (List.range 272).filter (fun i => e.getLsbD i)
  if on.length = 0 then .ok
  else if on.length = 1 then .corrected
  else if on.length = 2 ∨ on.getLastD 0 < on.headD 0 + 16 then .bad
  else match Config.flitCode e with
    | none => .bad
    | some (d, c) => .wrong d c

/-- Errors that the code of a half has corrected, or thinks that it has (R215). -/
def HalfFind.count : HalfFind → Nat
  | .corrected => 1
  | .wrong _ c => b2n c
  | _ => 0

def HalfFind.change : HalfFind → Nat
  | .wrong d _ => d.toNat
  | _ => 0

/-- A header whose half 0 is lost: the target performs nothing for a request, a response is delivered POISONED (R216). -/
def loseHeader (r : NocReq) : NocReq := { r with lost := true }

/-- A data flit is poisoned on its way (R215). -/
def poisonData (r : NocReq) (k : Nat) : NocReq :=
  if r.answered then { r with respPoison := if r.respPoison.contains k then r.respPoison else r.respPoison ++ [k],
                              status := worseStatus r.status Status.poisoned.code }
  else { r with badFlits := if r.badFlits.contains k then r.badFlits else r.badFlits ++ [k] }

/-- The bits `d` of a data flit change without a router's notice: the sum that the sender computed goes on with it (R217). -/
def changeData (r : NocReq) (k : Nat) (d : BitVec 512) : NocReq :=
  if r.answered then { r with sum := some (r.sum.getD (e2eCrc r.respData)), respData := r.respData.set k (r.respData.getD k 0 ^^^ d) }
  else { r with sum := some (r.sum.getD (e2eCrc r.data)), data := r.data.set k (r.data.getD k 0 ^^^ d) }

/-- The receiver's e2e_crc differs from the sender's. -/
def sumFails (r : NocReq) (l : List (BitVec 512)) : Bool := match r.sum with | some c => e2eCrc l != c | none => false

/-- The target, which the request reaches now, answers POISONED and performs nothing; a read carries zeros marked poisoned (R216). -/
def answerPoisoned (s : State) (init tag : Nat) : State :=
  mapReq s init tag (fun r =>
    { r with answered := true, status := Status.poisoned.code, ready := reachTick s r, sum := none,
             respPoison := if r.write then [] else List.range r.len, respData := if r.write then [] else List.replicate r.len 0 })

/-- What the target finds when the last flit of a request has come: a lost header, or a sum that fails, is answered POISONED (R216, R217). -/
def arriveCheck (s : State) (init tag : Nat) : State :=
  match reqOf s init tag with
  | none => s
  | some r =>
    if !atTarget s r then s
    else if r.lost then answerPoisoned s init tag
    else if r.write && sumFails r r.data then (answerPoisoned s init tag).inc NOC_ERR_COUNTS.e2e_fail
    else mapReq s init tag (fun r => { r with sum := none })

/-- A half of a header, or of a data flit, is uncorrectable (R215, R216). -/
def flitBad (s : State) (init tag router k : Nat) (bad0 bad1 : Bool) : State :=
  if k ≠ 0 then (if bad0 || bad1 then mapReq s init tag (fun r => poisonData r (k - 1)) else s)
  else if bad0 && bad1 then fault (mapReq s init tag (fun r => { r with dropped := true })) .nocHeaderDropped router 0 (die := 0)
  else if bad0 then fault ((mapReq s init tag loseHeader).inc NOC_ERR_COUNTS.uncorrectable) .nocHeaderDropped router 1 (die := 0)
  else if bad1 then s.inc NOC_ERR_COUNTS.corrected
  else s

/-- What a router finds in a flit that it receives with the erroneous bits `find`. An injection at the router takes the place of the finding for a
header flit (R555). A header that changes without notice is taken as it was sent (DESIGN CHOICE, log entry 170). -/
def flitCheck (s : State) (init tag router : Nat) (k : Nat) (find : FlitFind) : State :=
  if k = 0 ∧ injArmed s 0x09 router then
    if s.safe.injection.any (fun i => i.variant == 0) then injectionLogged s s.now 0
    else injectionEnd (fault (mapReq s init tag loseHeader) .nocHeaderDropped router 1 (die := 0) (injected := true)) s.now
  else
    let a := halfFind find.half0
    let b := halfFind find.half1
    let n := a.count + b.count
    let s1 := if n = 0 then s else s.inc NOC_ERR_COUNTS.corrected n
    let d := BitVec.ofNat 512 (a.change + b.change * 2 ^ 256)
    let s2 := if k = 0 || d == 0 then s1 else mapReq s1 init tag (fun r => changeData r (k - 1) d)
    flitBad s2 init tag router k (a == .bad) (b == .bad)

/-! ## Hops and ejection (R203 to R205, R212) -/

/-- The flit stands in the last router of its way, and the unit or initiator takes it next. -/
def ejects (s : State) (f : Flit) : Bool := (f.next s).any (fun b => decide (48 ≤ b))

def ejectTick (s : State) (f : Flit) : Nat := linkTick s f ((f.next s).getD 0)

/-- The last routers eject what stands in them, each local output one flit per hc in the order of R212, up to tick `t`; `n` bounds the flits. -/
def ejectTo (t : Nat) : Nat → State → State
  | 0, s => s
  | n + 1, s =>
    let l := flits s
    let c := (l.filter (ejects s)).filter (fun f => decide (ejectTick s f ≤ t) && granted s l (ejectTick s f) f)
    match c.find? (fun f => c.all (fun g => decide (ejectTick s f ≤ ejectTick s g))) with
    | none => s
    | some f =>
      ejectTo t n (arriveCheck (moveFlit s f ((f.next s).getD 0) (ejectTick s f)) f.req.init f.req.tag)

/-- The network as it stands at tick `t` if nothing more is commanded by then. -/
def netAt (s : State) (t : Nat) : State := ejectTo t (flits s).length s

/-- The tick at which the last flit of a packet is ejected, if all its flits have come to the last router. -/
def ejectedAt (s : State) (init tag : Nat) : Option Nat :=
  let u := netAt s (s.now + hcs s 65536)
  match reqOf s init tag, reqOf u init tag with
  | some r, some q => if allThere u q r.answered then some (lastHop q r.answered) else none
  | _, _ => none

/-- The network once the packet has come to the end of its way, or now where it does not. -/
def arrive (s : State) (init tag : Nat) : State := netAt s (max s.now ((ejectedAt s init tag).getD 0))

/-- `router` receives the next flit of a packet, if the router before it grants the link this hc (R204, R212), and checks it (R215). -/
def flitHop (init tag router : Nat) (find : FlitFind) (s : State) : State :=
  let s0 := netAt s s.now
  match reqOf s0 init tag with
  | none => s0
  | some r =>
    if r.dropped || r.refused || r.inPort then s0
    else
      match nextFlit s0 r router with
      | none => s0
      | some f =>
        let t := hopTick s0 f router
        let s1 := netAt s0 t
        if !granted s1 (flits s1) t f then s0
        else flitCheck (moveFlit (advanceTo s1 t) f router t) init tag router f.k find

/-! ## Statistics (R221) -/

/-- The bin of a latency in hc. -/
def histBin (hc : Nat) : Nat := if hc < 8 then 0 else min 15 (hc.log2 - 2)

/-- Bytes that a request moves: the enabled bytes of a length-1 write, else 64 a flit. -/
def reqBytes (r : NocReq) : Nat :=
  if r.write && r.len == 1 then ((List.range 64).filter (fun i => r.be.getLsbD i)).length else 64 * r.len

/-- A completed request is counted: its latency, and its bytes if it ended SUCCESS; nothing while frozen, or of a requester that a reset
has taken. -/
def countReq (s : State) (r : NocReq) (bin : Nat) (st : Nat) : State :=
  if s.rdb NOC_STAT_CTRL.freeze || decide (256 ≤ r.init) then s
  else
    let s1 := s.inc NOC_HIST.count 1 r.init bin
    if st = 0 then
      let b := s1.rd NOC_BYTES_LO.bytes_lo r.init + s1.rd NOC_BYTES_HI.bytes_hi r.init * 2 ^ 32 + reqBytes r
      (s1.wr NOC_BYTES_LO.bytes_lo b r.init).wr NOC_BYTES_HI.bytes_hi (b / 2 ^ 32) r.init
    else s1

/-- What the routers and the ends count and log of a request of `init`, issued at tick `t0`, that comes through the network as `w` says (R215 to
R217). -/
def wayCounts (s : State) (init t0 : Nat) (w : NetWay) : State :=
  match w with
  | .ok | .data => s
  | .sum => s.inc NOC_ERR_COUNTS.e2e_fail
  | .header => fault (s.inc NOC_ERR_COUNTS.uncorrectable) .nocHeaderDropped (initRouter init) 1 (die := 0)
  | .dropped =>
    (advanceTo (fault s .nocHeaderDropped (initRouter init) 0 (die := 0)) (t0 + hcs s 16384)).inc NOC_ERR_COUNTS.uncorrectable

/-- Requests of the retained-image store, of the loader or a Privet engine `i`, move `bytes` bytes (R309, R310, R323). The spec gives neither how many
requests they make nor how long each takes: every bin grows by a free number (log entry 146). -/
def storeTraffic (s : State) (i bytes : Nat) : State :=
  if bytes = 0 ∨ s.rdb NOC_STAT_CTRL.freeze ∨ !nocRunning s then s
  else
    let b := s.rd NOC_BYTES_LO.bytes_lo i + s.rd NOC_BYTES_HI.bytes_hi i * 2 ^ 32 + bytes
    (List.range 16).foldl (fun s k => let n := s.fresh 32; n.2.inc NOC_HIST.count n.1.toNat i k)
      ((s.wr NOC_BYTES_LO.bytes_lo b i).wr NOC_BYTES_HI.bytes_hi (b / 2 ^ 32) i)

/-- The initiator IDs of R220. -/
def initIds : List Nat := List.range 0x21 ++ (List.range 0x64).map (· + 0x40)

/-- Every byte counter and histogram bin is cleared. -/
def statClear (s : State) : State :=
  initIds.foldl (fun s i =>
    (List.range 16).foldl (fun s k => s.wr NOC_HIST.count 0 i k)
      ((s.wr NOC_BYTES_LO.bytes_lo 0 i).wr NOC_BYTES_HI.bytes_hi 0 i)) s

/-! ## Meanings -/

/-- NOC_REQUEST_INJECT (R209 to R214): a fabric port presents packet `pkt`, or another initiator's next waiting request is injected; a packet of the
Porter is a debug session's access. -/
def execNocRequestInject (init : Fin 256) (pkt : List Line) (s : State) (tap : Bool := false) : Res :=
  .next (if isFabricPort init then injectFabric s init pkt
    else if !nocRunning s then s
    else if init.val = 0x20 ∧ !pkt.isEmpty then injectDebug s init pkt tap
    else injectEngine s init)

/-- NOC_STAT_CLEAR (R221). -/
def execNocStatClear (s : State) : Res := .next (regWrite 0x90000 s statClear)

end Sys2Proof.Machine
end

