-- ==== Sys2Proof/Machine/Stack.lean ====
section
/-! DEFINITION. The four-die stack (chapter 01): Shutters, words that cross and spare channels. -/

namespace Sys2Proof.Machine

/-! ## Shutters (R24 to R28) -/

/-- What die `n` drives on its status lanes (R24, R27): 0 SHUT, 1 TRAIN, 2 OPEN. -/
def statusLane (s : State) (n : Nat) : Nat :=
  if n = 0 then (match s.boot.d0 with | .released _ => 1 | _ => if baseOpen s then 2 else 0)
  else match s.boot.dies.getD (n - 1) .off with
    | .open_ => 2
    | .training _ => 1
    | _ => 0

/-- A status lane as received: the invalid encoding 3 counts as SHUT (R24). -/
def laneReceived (code : Nat) : Nat := if code = 3 then 0 else code

/-- Die `n` has left reset, its groups have trained, and its status lanes read OPEN. -/
def dieTrained (s : State) (n : Nat) : Bool := laneReceived (statusLane s n) == 2

/-- Dies that share a channel group with die `n` (R15). -/
def neighbours (n : Nat) : List Nat := if n = 0 then [1, 2] else if n = 1 then [0, 2] else if n = 2 then [0, 1, 3] else [2]

/-- Die `n` is held in reset. -/
def dieInReset (s : State) (n : Nat) : Bool :=
  if n = 0 then !s.boot.coreUp || (match s.boot.d0 with | .held _ => true | _ => false)
  else match s.boot.dies.getD (n - 1) .off with
    | .off | .held _ => true
    | _ => false

/-- DEV_STACK_STATUS follows the dies (R28): the Shutters of the two dies at a group close together (R25). -/
def showStack (s : State) : State :=
  let closed := (List.range 4).foldl (fun a n => a + b2n (!dieTrained s n || (neighbours n).any (fun m => !dieTrained s m)) * 2 ^ n) 0
  let reset := (List.range 4).foldl (fun a n => a + b2n (dieInReset s n) * 2 ^ n) 0
  (s.wr DEV_STACK_STATUS.shutter_closed closed).wr DEV_STACK_STATUS.die_in_reset reset

def setDie (s : State) (k : Nat) (p : DiePhase) : State :=
  showStack { s with boot := { s.boot with dies := s.boot.dies.set (k - 1) p } }

/-- A status-lane receiver next to die `k` reads `lane` without warning: SHUT, or the invalid encoding, says that the die has lost its power, and
its neighbours close their sides within 4 hc (R24, R25). Behind D2 lie the fabric's NoC ports, which then read fenced. -/
def powerLoss (k lane : Nat) (s : State) : State :=
  if dieOpen s k && laneReceived lane == 0 then
    let t := setDie (advance s (hcs s 4)) k .off
    if k = 2 then { t with noc := { t.noc with fenced := true } } else t
  else s

/-! ## Words (R15 to R18) -/

/-- Kinds of R15, in the order of its table; the clock Transoms (kind 5) carry no words. -/
def gkMemory : Nat := 0
def gkBase : Nat := 1
def gkConfig : Nat := 2
def gkNoc : Nat := 3
def gkControl : Nat := 4

/-- Data and check channels of a group of a kind, per direction (R15). -/
def groupChannels (kind : Nat) : Nat :=
  if kind = gkMemory ∨ kind = gkBase then 72 else if kind = gkConfig then 137 else if kind = gkNoc then 272
  else if kind = gkControl then 39 else 33

/-- Spare channels of a group of a kind (R15). For the clock group's 33 channels the table gives 1 per 8: the model counts whole eights, 4
(DESIGN CHOICE, log entry 127). -/
def groupSpares (kind : Nat) : Nat :=
  if kind = gkConfig then 4 else if kind = gkNoc then 8 else if kind = 5 then 33 / 8 else 2

/-- The two dies of a group kind. -/
def groupDies (kind : Nat) : Nat × Nat :=
  if kind = gkMemory then (1, 2) else if kind = gkBase then (0, 1) else if kind = gkConfig then (2, 3) else (0, 2)

/-- The key of a group. -/
def groupKey (kind group : Nat) : Nat := kind * 2 ^ 16 + group

/-- A channel of a group: its number in the direction from the lower die of the group up, or (`back`) in the other (R15). -/
def channelNo (back : Bool) (ch : Nat) : Nat := b2n back * 512 + ch

/-- What carries channel `c` of group `g`: itself, or the spare that was selected for it last, as number 960 up (R17). -/
def carrier (s : State) (g c : Nat) : Nat :=
  match (s.stack.spares.filter (fun e => e.1 == g && e.2.2 == c)).getLast? with
  | some e => 960 + e.2.1
  | none => c

/-- The key under which the errors of channel `c` of a group are counted: that of what carries it. -/
def channelKey (s : State) (kind group c : Nat) : Nat := groupKey kind group * 1024 + carrier s (groupKey kind group) c

/-- Spare `k` of group `g` is in use, is being copied onto, or has failed its slice (R17, R18, R551). -/
def spareTaken (s : State) (g k : Nat) : Bool :=
  s.stack.spares.any (fun e => e.1 == g && e.2.1 == k) || s.stack.copying.any (fun e => e.1 == g && e.2.1 == k) || s.stack.failed.contains (g, k)

/-- Every spare of group `g` is in use or has failed (R28). -/
def groupFull (s : State) (g : Nat) : Bool :=
  (List.range (groupSpares (g / 2 ^ 16))).all (fun k =>
    s.stack.spares.any (fun e => e.1 == g && e.2.1 == k) || s.stack.failed.contains (g, k))

/-- DEV_STACK_STATUS.groups_exhausted counts group `g` once its last spare is taken (R28). -/
def countFull (before after : State) (g : Nat) : State :=
  if groupFull after g && !groupFull before g then after.inc DEV_STACK_STATUS.groups_exhausted else after

/-- A lasting channel, or the spare that carries it, is copied onto a free spare for 64 hc; without one it stays in service (R17, R18). Of several free
spares the lowest is taken (DESIGN CHOICE, log entry 171). The log entry names the first die of the group (DESIGN CHOICE, log entry 128). -/
def channelLasting (s : State) (kind group c : Nat) : State :=
  let g := groupKey kind group
  let t := { s with stack := { s.stack with lasting := s.stack.lasting ++ [channelKey s kind group c] } }
  match (List.range (groupSpares kind)).find? (fun k => !spareTaken s g k) with
  | some k => { t with stack := { t.stack with copying := t.stack.copying ++ [(g, k, c, t.now)] } }
  | none => fault t .groupExhausted kind 0 (die := (groupDies kind).1)

/-- The injection target of mechanism 0x0A that names a group kind (R555). -/
def crossTarget (kind : Nat) : Nat := if kind = gkBase then 0 else if kind = gkMemory then 1 else if kind = gkConfig then 2 else 3

/-- What a poisoned word does where it arrives (R16): an access of port A or of a group path uses it as poisoned when it is served, and a frame word
is not written when its frame is. -/
def poisonWord (s : State) (w : CrossWord) : State :=
  match w with
  | .other | .noc _ _ _ _ => s
  | w => if s.stack.poisoned.contains w then s else { s with stack := { s.stack with poisoned := s.stack.poisoned ++ [w] } }

/-- One correction on channel `c` is counted under what carries it (R17). -/
def countChannel (s : State) (kind group c : Nat) : State :=
  let (t, lasting) := countEvent s 0 (channelKey s kind group c)
  if lasting then channelLasting t kind group c else t

/-- A flit that crosses a Transom is checked as at a NoC hop (R16): its codes find what they find, and where one has corrected an error, the channels
`bad` count it. -/
def crossFlit (s : State) (group init tag k : Nat) (find : FlitFind) (bad : List Nat) : State :=
  let t := flitCheck s init tag (initRouter init) k find
  if (halfFind find.half0).count + (halfFind find.half1).count = 0 then t
  else bad.foldl (fun t c => countChannel t gkNoc group c) t

/-- A word arrives with the erroneous channels `bad`, each one of the group's (R15). -/
def crossing (kind group : Nat) (back : Bool) (bad : List Nat) (w : CrossWord) (s : State) : State :=
  let d := groupDies kind
  let bad := ((bad.filter (fun c => decide (c < groupChannels kind))).eraseDups).map (channelNo back)
  if !dieTrained s d.1 || !dieTrained s d.2 then s
  else if kind ≠ gkNoc ∧ injArmed s 0x0A (crossTarget kind) then
    if s.safe.injection.any (fun i => i.variant == 1) then
      injectionEnd (fault s .crossingUncorrectable kind 0 (die := d.2) (injected := true)) s.now
    else injectionLogged s s.now d.2
  else
    match w, bad with
    | .noc i t k f, _ => if kind = gkNoc then crossFlit s group i t.val k f bad else s
    | _, [] => s
    | _, [c] => countChannel (if kind = gkNoc then s.inc NOC_ERR_COUNTS.corrected else s) kind group c
    | w, _ =>
      if kind = gkControl then
        fault { s with stack := { s.stack with uncorrectable := s.stack.uncorrectable + 1 } } .crossingUncorrectable kind 0 (die := d.2)
      else poisonWord s w

/-- The copy of 64 hc has ended and the spare is selected (R17). -/
def spareChannel (s : State) : State :=
  match s.stack.copying with
  | [] => s
  | (g, k, ch, t0) :: rest =>
    let s := advanceTo s (t0 + hcs s 64)
    let kind := g / 2 ^ 16
    let t := { s with stack := { s.stack with copying := rest, spares := s.stack.spares ++ [(g, k, ch)] } }
    let t := countFull s (t.inc DEV_STACK_STATUS.spares_in_use) g
    setDegraded (fault t .channelSpared kind (ch % 512) (die := (groupDies kind).1) (degraded := true)) dgStack true

/-! ## Meanings -/

/-- CROSSING_WORD (R16 to R18): a word of a memory-port Pane (kinds 0, 1), a configuration Pane (2), a NoC-port Transom (3) or the control
Transom (4), from the lower die up or (`back`) down. -/
def execCrossingWord (kind : Fin 5) (group : Fin 65536) (bad : List (Fin 272)) (word : CrossWord) (s : State) (back : Bool := false) : Res :=
  .next (crossing kind group back (bad.map (fun b => b.val)) word s)

/-- CHANNEL_SPARE_SWITCH (R17). -/
def execChannelSpareSwitch (s : State) : Res := .next (spareChannel s)

/-- NEIGHBOUR_POWER_LOSS (R24, R25): die D1, D2 or D3, and what its neighbour reads on the status lane. -/
def execNeighbourPowerLoss (die : Fin 3) (s : State) (lane : Fin 4 := 3) : Res := .next (powerLoss (die.val + 1) lane s)

end Sys2Proof.Machine
end

