-- ==== Sys2Proof/Machine/MemDie.lean ====
section
/-! DEFINITION. The memory die (chapter 07): words with valid bits and poison, ports A and B, invalidation, error logs and retirement. -/

namespace Sys2Proof.Machine

/-- The word of a block; none while it is invalid (R183). -/
def memWord (s : State) (b w : Nat) : Option MemWord := sparseFind s.mem.words (b * 4096 + w)

/-- Writes a word, which becomes valid. -/
def putWord (s : State) (b w : Nat) (m : MemWord) : State :=
  { s with mem := { s.mem with words := sparsePut s.mem.words (b * 4096 + w) m } }

/-- The enabled bytes of `d` over `old`. -/
def mergeBytes (be : BitVec 8) (d old : BitVec 64) : BitVec 64 :=
  BitVec.ofNat 64 ((List.range 8).foldl (fun acc i =>
    acc + (((if be.getLsbD i then d else old).toNat >>> (8 * i)) % 256) * 2 ^ (8 * i)) 0)

/-- The PA of a word. -/
def wordPa (b w : Nat) : Nat := 0x1000000000 + b * 0x8000 + 8 * w

/-! ## Error logs (R193 to R195) -/

/-- The entry of a quadrant's log that holds the word. -/
def elogFind (s : State) (q b w : Nat) : Option Nat :=
  (List.range 16).find? (fun e =>
    s.rdb MEM_ELOG_LO.in_use q e && s.rd MEM_ELOG_LO.block q e == b && s.rd MEM_ELOG_LO.word q e == w)

/-- The tick at which the window of entry `e` of quadrant `q` closes. -/
def elogClose (s : State) (q e : Nat) : Nat :=
  match sparseFind s.mem.elogWin (q * 16 + e) with
  | some x => x.opened + x.length * 10 * msTicks
  | none => 0

/-- The entry with the least key among `l`. -/
def minBy (f : Nat → Nat) (l : List Nat) : Option Nat :=
  l.foldl (fun a e => match a with | none => some e | some x => if f e < f x then some e else some x) none

/-- The entry that a new word takes (R194): a free one, or the one whose window closed earliest; none while every window is open. -/
def elogSlot (s : State) (q : Nat) : Option Nat :=
  match (List.range 16).find? (fun e => !s.rdb MEM_ELOG_LO.in_use q e) with
  | some e => some e
  | none => minBy (elogClose s q) ((List.range 16).filter (fun e => decide (elogClose s q e ≤ s.now)))

/-- The log entry of a word after one more event; true when the word becomes lasting: its count reaches the
limit within its window (R195). -/
def elogUpdate (s : State) (q e b w : Nat) (fresh unc : Bool) (place : Nat) : State × Bool :=
  let old := if fresh then none else sparseFind s.mem.elogWin (q * 16 + e)
  let win := windowAdd s.now (s.rd SAF_WIN.window 2) (s.rd SAF_WIN.limit 2) old
  let total := if fresh then 1 else satAdd 8 (s.rd MEM_ELOG_HI.total_hits q e) 1
  let s1 := { s with mem := { s.mem with elogWin := sparsePut s.mem.elogWin (q * 16 + e) win } }
  let s2 := ((((s1.wr MEM_ELOG_LO.block b q e).wr MEM_ELOG_LO.word w q e).wrb MEM_ELOG_LO.uncorrectable unc q e).wr
    MEM_ELOG_LO.in_use 1 q e).wr MEM_ELOG_LO.window_hits (min win.count 7) q e
  let s3 := ((s2.wr MEM_ELOG_HI.bit_pos (if unc then 0x7F else place) q e).wr MEM_ELOG_HI.total_hits total q e)
  let s4 := if win.count = 1 then s3.wr MEM_ELOG_HI.window_start (timeSec (counter s)) q e else s3
  (s4, win.count == win.limit)

/-- The free column spare of a group, lowest first (R196, R553). -/
def freeSpare (s : State) (g : Nat) : Option Nat :=
  (List.range 4).find? (fun k =>
    !(bit (s.rd MEM_SPARE_STAT.used g) k) && !(sparseGet false s.safe.failedSpares (0x200000000 + g * 4 + k)) &&
      !(s.mem.retiring.any (fun r => r.1 / 256 == g && r.2.1 == k)))

/-- A word has become lasting (R195): the retirement of its block starts, or the group's exhaustion is reported, and the block's later events are
not acted on (R198). -/
def startRetire (s : State) (b w : Nat) : State :=
  let key := winKey 2 (b * 4096 + w)
  let acted := s.safe.lasted.any (fun e => decide (winKey 2 (b * 4096) ≤ e.1) && decide (e.1 < winKey 2 (b * 4096 + 4096)))
  if acted || s.mem.retiring.any (fun r => r.1 == b) then s
  else
    let s1 := { s with safe := { s.safe with lasted := sparseSet false s.safe.lasted key true } }
    match freeSpare s1 (b / 256) with
    | none => fault (s1.wr MEM_SPARE_STAT.exhausted 1 (b / 256)) .spareExhausted (b / 256) 2 (die := 1)
    | some k =>
      { s1 with mem := { s1.mem with retiring := s1.mem.retiring ++ [(b, k, (nowHc s1 + 1) * hcTicks s1)] } }.wr MEM_STATUS.retire_busy 1

/-- A corrected or uncorrectable event on a word is counted, logged and acted on; while no entry of the log can take the word, it is counted as
untracked only (R193, R194). An uncorrectable one has its entry in the fault log (R195). -/
def memEvent (s : State) (b w : Nat) (unc : Bool) (place init : Nat) : State :=
  let q := b / 1024
  let s0 := if unc then fault s .memUncorrectable b (paDetail (wordPa b w) init) (die := 1) else s
  let slot := match elogFind s0 q b w with | some e => some (e, false) | none => (elogSlot s0 q).map (fun e => (e, true))
  match slot with
  | none => s0.inc MEM_QERR.untracked 1 q
  | some (e, fresh) =>
    let r := elogUpdate (s0.inc (if unc then MEM_QERR.uncorrectable else MEM_QERR.corrected) 1 q) q e b w fresh unc place
    if r.2 then startRetire r.1 b w else r.1

/-! ## Reading a word (R183, R188 to R190) -/

/-- What a checked read delivers: the data, and whether it is poisoned. -/
structure WordRead where
  data : BitVec 64
  poison : Bool
  deriving DecidableEq, Repr

/-- A read of a word through its check code, by initiator `init`. An invalid word reads zero; a corrected one is as written, and written back; one
that the code takes for correctable although more is wrong delivers and leaves a free value (R188); an uncorrectable one delivers what the array
holds, a free value, and is marked; an upset that spells the marker is as a marked word (R190). -/
def readWord (s : State) (b w : Nat) (f : Finding) (init : Nat) : WordRead × State :=
  match memWord s b w with
  | none => (⟨0, false⟩, s)
  | some m =>
    if m.poison then (⟨m.data, true⟩, s)
    else
      match f.ecc with
      | .ok => (⟨m.data, false⟩, s)
      | .single => (⟨m.data, false⟩, memEvent s b w false f.place init)
      | .wrong => let fr := s.fresh 64; (⟨fr.1, false⟩, memEvent (putWord fr.2 b w ⟨fr.1, false⟩) b w false f.place init)
      | .double => let fr := s.fresh 64; (⟨fr.1, true⟩, memEvent (putWord fr.2 b w ⟨fr.1, true⟩) b w true 0x7F init)
      | .marker => let fr := s.fresh 64; (⟨fr.1, true⟩, putWord fr.2 b w ⟨fr.1, true⟩)

/-! ## Updates between acceptance and effect (R184 to R187, R191, R192) -/

/-- The hop cycle that a tick lies in. -/
def hcOf (s : State) (t : Nat) : Nat := t / hcTicks s

/-- Hop cycles from acceptance to the next event of an update: its effect, or for a merge first the cycle whose end it reads (R184). -/
def UpdateKind.delay : UpdateKind → Nat
  | .inval => 0
  | .full => 1
  | .merge none => 2
  | .merge (some _) | .merged => 3

/-- The hop cycle at whose end an update acts next. -/
def MemUpdate.due (s : State) (u : MemUpdate) : Nat := hcOf s u.since + u.kind.delay

def MemUpdate.isA (u : MemUpdate) : Bool := u.port == .portA

/-- What a write makes of a word: a full one replaces it and clears its poison (R191), a narrow one goes over the word, or over zeros where it is
invalid, and leaves a poisoned word as it is (R192). -/
def writeOver (full : Bool) (be : BitVec 8) (d : BitVec 64) (w : Option MemWord) : Option MemWord :=
  if full then some ⟨d, false⟩
  else match w with
    | none => some ⟨mergeBytes be d 0, false⟩
    | some m => if m.poison then some m else some ⟨mergeBytes be d m.data, false⟩

/-- A tile's memory-die write that failed is recorded (R192, R199). -/
def pathFailed (s : State) (t pa : Nat) (st : Nat) : State :=
  fault s .tileWriteFailed t (pa % 2 ^ 56 + st * 2 ^ 56) (die := 2)

/-- The first edge of port A's channel at or after 4 hc from tick `t`, at which it presents what it answers to a request of that tick (R181). -/
def portAEdge (s : State) (b t : Nat) : Nat :=
  match sparseFind s.ctxs.ports.memory b with
  | some (_, c) => channelTick s c (t + hcs s 4) 1
  | none => t + hcs s 4

/-- The writer of a narrow write hears of its end (R182, R192): port A a werr, on its channel's first edge from 4 hc after acceptance; a NoC request its
status, 6 hc after acceptance, once no merge of it is left. -/
def mergeStatus (s : State) (u : MemUpdate) (refused : Bool) : State :=
  match u.port with
  | .portA => if refused then { s with outbox := s.outbox ++ [.werr u.block (portAEdge s u.block u.since)] } else s
  | .noc i t =>
    mapReq s i t (fun q =>
      { q with status := if refused then worseStatus q.status Status.poisoned.code else q.status, ready := max q.ready (u.since + hcs s 7),
               answered := q.answered || (decide (q.len ≤ q.done) && !(s.mem.updates.any (fun m => m.port == .noc i t && m.kind != .merged))) })
  | .path t => if refused then pathFailed s t (wordPa u.block u.word) Status.poisoned.code else s

/-- The read half of a narrow write passes its word through the check code, and the write is merged or refused (R184, R192): its new data, if it
is performed. -/
def mergeRead (s : State) (u : MemUpdate) (base : Option MemWord) (f : Finding) : Option (BitVec 64) × State :=
  match base with
  | none => (some (mergeBytes u.be u.data 0), s)
  | some m =>
    let fr := if u.isA ∧ f.ecc = .double then s.fresh 8 else (0, s)
    let init := match u.port with | .portA => fr.1.toNat | .noc i _ => i | .path t => 0x80 + t / 64
    let stands := memWord fr.2 u.block u.word == some m
    let r := readWord fr.2 u.block u.word f init
    let s1 := if stands then r.2 else { r.2 with mem := { r.2.mem with words := fr.2.mem.words } }
    if m.poison || (stands && r.1.poison) then (none, s1)
    else (some (mergeBytes u.be u.data (if stands then r.1.data else m.data)), s1)

/-- The word of update `u` becomes `w`. -/
def putOver (s : State) (u : MemUpdate) (w : Option MemWord) : State := match w with | some m => putWord s u.block u.word m | none => s

/-- An update takes effect; a merge whose command has not come finds no error (DESIGN CHOICE, log entry 139). -/
def takeEffect (s : State) (u : MemUpdate) : State :=
  match u.kind with
  | .inval => { s with mem := { s.mem with words := s.mem.words.filter (fun e => e.1 / 4096 != u.block) } }
  | .full | .merged => putWord s u.block u.word ⟨u.data, false⟩
  | .merge base =>
    let r := mergeRead s u (base.getD none) ⟨.ok, 0⟩
    mergeStatus (putOver r.2 u (r.1.map (fun d => ⟨d, false⟩))) u r.1.isNone

/-- The end of hop cycle `h`: bulk invalidates first, then port A, then port B (R185); then the merges that read the word at this end take it. -/
def endHc (s : State) (h : Nat) : State :=
  let now := s.mem.updates.filter (fun u => u.due s == h && u.kind != .merge none)
  let s0 := { s with mem := { s.mem with updates := s.mem.updates.filter (fun u => !(u.due s == h && u.kind != .merge none)) } }
  let s1 := (now.filter (fun u => u.kind == .inval)).foldl takeEffect s0
  let s2 := (now.filter (fun u => u.kind != .inval && u.isA)).foldl takeEffect s1
  let s3 := (now.filter (fun u => u.kind != .inval && !u.isA)).foldl takeEffect s2
  { s3 with mem := { s3.mem with updates := s3.mem.updates.map (fun u =>
      if u.kind = .merge none ∧ u.due s = h then { u with kind := .merge (some (memWord s3 u.block u.word)) } else u) } }

/-- Everything that acts before hop cycle `m` has acted; `fuel` bounds the number of ends. -/
def settleTo : Nat → Nat → State → State
  | 0, _, s => s
  | fuel + 1, m, s =>
    match (s.mem.updates.map (fun u => u.due s)).min? with
    | none => s
    | some h => if h < m then settleTo fuel m (endHc s h) else s

/-- The memory die as it stands at the end of the hop cycle before this one (R186). -/
def settleMem (s : State) : State := settleTo (2 * s.mem.updates.length) (hcOf s s.now) s

/-- The word as it stands at the end of the hop cycle `h`, once what acts until then has acted. -/
def wordAtEnd (s : State) (b w h : Nat) : Option MemWord := memWord (settleTo (2 * s.mem.updates.length) (h + 1) s) b w

/-- A port's writes that have not yet taken effect, over the word, in acceptance order: a port reads back its own writes (R186). -/
def ownWrites (s : State) (portA : Bool) (b w : Nat) (x : Option MemWord) : Option MemWord :=
  (s.mem.updates.filter (fun u => u.kind != .inval && u.block == b && u.word == w && u.isA == portA)).foldl
    (fun x u => writeOver (u.kind == .full || u.kind == .merged) u.be u.data x) x

/-- A checked read of a word by a port, with the port's own writes over it. -/
def portRead (s : State) (portA : Bool) (b w : Nat) (f : Finding) (init : Nat) : WordRead × State :=
  let r := readWord s b w f init
  let valid := (memWord s b w).isSome
  match ownWrites s portA b w (if valid then some ⟨r.1.data, r.1.poison⟩ else none) with
  | some m => (⟨m.data, m.poison⟩, r.2)
  | none => (⟨0, false⟩, r.2)

/-- A write accepted while the block is copied to a spare takes precedence over the copy of its word (R196). -/
def noteNewer (s : State) (b w : Nat) : State :=
  if s.mem.retiring.any (fun r => r.1 == b && decide (r.2.2 ≤ s.now)) && !s.mem.newer.contains (b * 4096 + w) then
    { s with mem := { s.mem with newer := s.mem.newer ++ [b * 4096 + w] } }
  else s

/-- An update of a word is accepted now. -/
def putUpdate (s : State) (k : UpdateKind) (port : MemPort) (b w : Nat) (be : BitVec 8) (d : BitVec 64) : State :=
  { s with mem := { s.mem with updates := s.mem.updates ++ [{ kind := k, port := port, block := b, word := w, be := be, data := d, since := s.now }] } }

/-- A port accepts a write of a word (R184): a narrow one of a word that is invalid at the end of this hc goes over zeros. The flag says that it waits
for its merge. -/
def writeWord (s : State) (port : MemPort) (b w : Nat) (be : BitVec 8) (d : BitVec 64) : State × Bool :=
  let s := noteNewer s b w
  if be = 0 then (s, false)
  else if be = BitVec.allOnes 8 then (putUpdate s .full port b w be d, false)
  else if (wordAtEnd s b w (hcOf s s.now)).isNone then (putUpdate s .full port b w be (mergeBytes be d 0), false)
  else (putUpdate s (.merge none) port b w be d, true)

/-- The oldest narrow write that waits reads its word and is merged, or refused; the hop cycle of its effect comes (R184, R192). -/
def narrowMerge (f : Finding) (s : State) : State :=
  let waits (u : MemUpdate) : Bool := match u.kind with | .merge _ => true | _ => false
  match s.mem.updates.find? waits with
  | none => s
  | some n =>
    let s0 := settleMem (advanceTo s (n.since + hcs s 3))
    match s0.mem.updates.find? (fun u => waits u && u.port == n.port && u.block == n.block && u.word == n.word && u.since == n.since) with
    | none => s0
    | some u =>
      let r := mergeRead s0 u (match u.kind with | .merge b => b.getD none | _ => none) f
      let l := match r.1 with
        | some d => s0.mem.updates.map (fun v => if v = u then { u with kind := .merged, data := d } else v)
        | none => s0.mem.updates.erase u
      mergeStatus { r.2 with mem := { r.2.mem with updates := l } } u r.1.isNone

/-! ## Port A (R180, R181) -/

/-- Requests of the logic die cross to the memory die: both dies' Shutters are open, and no reset of the base die holds them (R24, R57). -/
def panesOpen (s : State) : Bool :=
  dieOpen s 1 && dieOpen s 2 && (match s.boot.d0 with | .idle | .opened _ => true | _ => false)

/-- The channel edge at which port A samples a request given now: the first from now on (R181). -/
def portASample (s : State) (b : Nat) : State :=
  match sparseFind s.ctxs.ports.memory b with
  | some (_, c) => settleMem (advanceTo s (channelTick s c s.now 1))
  | none => settleMem s

/-- Port A of the block has accepted a request. -/
def portATook (s : State) (b : Nat) : State := { s with mem := { s.mem with portAt := sparsePut s.mem.portAt b s.now } }

/-- Port A of a block serves the design: the active context binds it to a channel that runs (R89, R100), the Panes are open, the block is none of the
reserve, and no invalidate was requested on the same edge (R180). No transfer falls in the hop cycle after a swap edge (R97). -/
def portAServes (s : State) (b : Nat) : Bool :=
  let e := portASample s b
  panesOpen s && !inReserve s b && (sparseFind s.ctxs.ports.memory b).any (fun p => channelLive s p.2) && !holdCycle e &&
    !(sparseFind s.mem.invalEdge b).any (fun t => hcOf s t == hcOf s e.now)

/-- A read by the design. The fault-log entry of an uncorrectable one names an initiator that the spec does not state: a free value. -/
def portARead (b w : Nat) (f : Finding) (s : State) : State :=
  if !portAServes s b then s
  else
    let s0 := portATook (portASample s b) b
    let fr := if f.ecc = .double then s0.fresh 8 else (0, s0)
    let r := portRead fr.2 true b w f fr.1.toNat
    let p := takePoison r.2 (.portA (Fin.ofNat 4096 b))
    { p.2 with outbox := p.2.outbox ++ [.portData b (portAEdge s0 b s0.now) r.1.data (r.1.poison || p.1)] }

/-- A write by the design. A write word that crossed poisoned is not written (R16): port A has no other answer for it than werr. -/
def portAWrite (b w : Nat) (be : BitVec 8) (d : BitVec 64) (s : State) : State :=
  if !portAServes s b then s
  else
    let s0 := portATook (portASample s b) b
    let p := takePoison s0 (.portA (Fin.ofNat 4096 b))
    if p.1 then { p.2 with outbox := p.2.outbox ++ [.werr b (portAEdge s0 b s0.now)] } else (writeWord p.2 .portA b w be d).1

/-- Bulk invalidate of a block (R187): every word becomes invalid at the end of this hop cycle, and the array clears in the background. -/
def invalidate (s : State) (b : Nat) : State :=
  if inReserve s b then s.wr MEM_STATUS.inval_refused 1
  else
    let s := settleMem s
    { s with mem := { s.mem with
        updates := s.mem.updates ++ [({ kind := .inval, port := .portA, block := b, word := 0, be := 0, data := 0, since := s.now } : MemUpdate)]
        clearing := sparsePut s.mem.clearing b s.now } }.wr MEM_STATUS.inval_busy 1

/-- The inval signal of port A, on the first channel edge on which the port has not already accepted a request: a request that the design makes on
the same edge, given after it, is discarded (R180; DESIGN CHOICE, log entry 175). -/
def portAInvalidate (b : Nat) (s : State) : State :=
  if !portAServes s b then s
  else
    let s0 := portASample s b
    let s1 := if sparseFind s0.mem.portAt b == some s0.now then portASample (advanceTo s0 (s0.now + 1)) b else s0
    invalidate { s1 with mem := { s1.mem with invalEdge := sparsePut s1.mem.invalEdge b s1.now } } b

/-- Every block outside the reserve is invalidated. -/
def invalidateAll (s : State) : State :=
  let n := if s.rdb MEM_STATUS.reserve_active then s.rd MEM_STATUS.reserve_base else 4096
  let s := settleMem s
  { s with mem := { s.mem with
      updates := s.mem.updates ++ (List.range n).map (fun b =>
        ({ kind := .inval, port := .portA, block := b, word := 0, be := 0, data := 0, since := s.now } : MemUpdate))
      clearing := (List.range n).map (fun b => (b, s.now)) } }.wr MEM_STATUS.inval_busy 1

/-- The background clearing of a block ends. -/
def clearDone (b : Nat) (s : State) : State :=
  match sparseFind s.mem.clearing b with
  | none => s
  | some t =>
    let s1 := advanceTo s (t + hcs s 3000)
    let c := sparseDel s1.mem.clearing b
    { s1 with mem := { s1.mem with clearing := c } }.wrb MEM_STATUS.inval_busy (!c.isEmpty)

/-! ## Port B (R182) -/

/-- The word at byte offset `off` of a PA in the memory die: block and word number. -/
def blockWord (pa : Nat) : Nat × Nat :=
  let o := locOf pa - 0x1000000000
  (o / 0x8000, o / 8 % 4096)

/-- The state in which port B accepts word `k` of a run of words that began at tick `t`: one word per hc (R182). -/
def wordTurn (s : State) (t k : Nat) : State := settleMem (advanceTo s (t + hcs s k))

/-- Reads `n` consecutive words from `pa` through port B, one each hc from now, each as it stands then (R182, R186); the value, and whether any word is
poisoned. -/
def readWords (s : State) (pa n init : Nat) (finds : List Finding) : (Nat × Bool) × State :=
  (List.range n).foldl (fun a k =>
    let bw := blockWord (pa + 8 * k)
    let r := portRead (wordTurn a.2 s.now k) false bw.1 bw.2 (finds.getD k ⟨.ok, 0⟩) init
    ((a.1.1 + r.1.data.toNat * 2 ^ (64 * k), a.1.2 || r.1.poison), r.2)) ((0, false), s)

/-- A tile's memory-die accesses that wait for its group path: its oldest read without data, and its oldest released write. -/
def pathRead (s : State) (t : Nat) : Option TileRead := (tileOf s t).reads.find? (fun r => r.data.isNone)

def pathWrite (s : State) (t : Nat) : Option PathWrite := s.mem.pathWrites.find? (fun e => e.tile == t)

/-- The source of tile `t` on its group path: the row in the group, or 16 while the spare runs it (R142, R150). -/
def pathSource (s : State) (t : Nat) : Nat := if s.rdb DSP_TILE_STATUS.spare t then 16 else t % 16

/-- The tiles of `t`'s group whose accesses wait. -/
def pathWaiting (s : State) (t : Nat) : List Nat :=
  ((List.range 16).map (fun k => t / 16 * 16 + k)).filter (fun t => (pathRead s t).isSome || (pathWrite s t).isSome)

/-- The group path goes to tile `t`: none of the waiting tiles stands between the source served last and it, in round-robin order (R142). -/
def pathGoes (s : State) (t : Nat) : Bool :=
  let last := sparseGet 16 s.mem.pathTurn (t / 16)
  let far (u : Nat) : Nat := (pathSource s u + 16 - last) % 17
  (pathWaiting s t).all (fun u => decide (far t ≤ far u))

/-- A tile's read waits while an older write of it is on the path, and a write while an older read is: the path keeps their order. -/
def pathInOrder (s : State) (t : Nat) (write : Bool) : Bool :=
  match pathRead s t, pathWrite s t with
  | some r, some w => if write then decide (w.hc + 9 < r.ready) else decide (r.ready ≤ w.hc + 9)
  | _, _ => true

/-- A NoC request waits at port B of block `b`. -/
def nocAtBlock (s : State) (b : Nat) : Bool :=
  s.noc.reqs.any (fun r => servable s r && targetOf (locOf r.pa) == .block b && decide (reachTick s r ≤ s.now))

/-- A path request waits at port B of block `b`, at the front of its path. -/
def pathAtBlock (s : State) (b : Nat) : Bool :=
  (s.tiles.any (fun p => pathGoes s p.1 && (pathRead s p.1).any (fun r => (blockWord (0x1000000000 + r.addr)).1 == b))) ||
    s.mem.pathWrites.any (fun w => pathGoes s w.tile && (blockWord (0x1000000000 + w.addr)).1 == b)

/-- Path and NoC requests that wait at one port B alternate; the path goes first after reset (R142). -/
def portBTurn (s : State) (b : Nat) (path : Bool) : Bool :=
  let last := sparseGet false s.mem.pathLast b
  if path then !(last && nocAtBlock s b) else !(!last && pathAtBlock s b)

/-- Port B of block `b` serves the path, or the NoC, from tick `t` on, once it has accepted every word before. -/
def portBServed (s : State) (b : Nat) (path : Bool) (t : Nat) : State :=
  let s := settleMem (advanceTo s (max t (sparseGet 0 s.mem.portBFree b)))
  { s with mem := { s.mem with pathLast := sparseSet false s.mem.pathLast b path } }

/-- Port B of block `b` has accepted a word now, and accepts the next in the hc after it. -/
def portBTook (s : State) (b : Nat) : State := { s with mem := { s.mem with portBFree := sparsePut s.mem.portBFree b (s.now + hcs s 1) } }

/-- The path has served tile `t`. -/
def pathServed (s : State) (t : Nat) : State :=
  { s with mem := { s.mem with pathTurn := sparseSet 16 s.mem.pathTurn (t / 16) (pathSource s t) } }

/-- The block of a NoC request that port B can serve now: it has come to the memory die in its turn, and the path does not go first. -/
def nocBlock (s : State) (r : NocReq) : Option Nat :=
  match targetOf (locOf r.pa) with
  | .block b => if dieOpen s 1 && servable s r && portBTurn s b false then some b else none
  | _ => none

/-- Port B reads a 64-byte flit of a NoC request: its eight words in consecutive hop cycles, the last ready 4 hc after its acceptance, and 1 hc on the
Pane (R182). -/
def nocRead (s : State) (b : Nat) (r : NocReq) (finds : List Finding) : State :=
  let s0 := portBServed s b false (reachTick s r)
  let v := readWords s0 (r.pa + 64 * r.done) 8 r.init finds
  served (mapReq (portBTook v.2 b) r.init r.tag (fun r =>
    { r with respData := r.respData ++ [BitVec.ofNat 512 v.1.1], respPoison := if v.1.2 then r.respPoison ++ [r.done] else r.respPoison }))
    r.init r.tag r.len (if v.1.2 then Status.poisoned.code else 0) (hcs s 5)

/-- Port B serves the next 64-byte flit of a NoC read, or a tile's oldest unanswered MDRD. -/
def portBRead (p : BPort) (finds : List Finding) (s : State) : State :=
  match p with
  | .noc init tag =>
    let s := arrive s init tag
    match reqOf s init tag with
    | none => s
    | some r =>
      match nocBlock s r with
      | some b => if r.write then s else nocRead s b r finds
      | none => s
  | .path t =>
    let s := netAt s s.now
    match pathRead s t with
    | none => s
    | some r =>
      let pa := 0x1000000000 + r.addr
      let b := (blockWord pa).1
      if !panesOpen s || !pathGoes s t || !pathInOrder s t false || !portBTurn s b true then s
      else
        let s0 := takePoison (pathServed (portBServed s b true s.now) t) (.path t)
        let v := if inReserve s b then ((0, true), nocLogDeny s0.2 pa (0x80 + t / 64)) else readWords s0.2 pa 2 (0x80 + t / 64) finds
        let y := tileOf v.2 t
        setTile (portBTook v.2 b) t { y with reads := y.reads.map (fun q => if q = r then { r with data := some (v.1.2 || s0.1, BitVec.ofNat 128 v.1.1) } else q) }

/-- Writes the eight words of one flit under its byte enables, one each hc from now (R182, R184); true if one of them waits for its merge. -/
def writeFlit (s : State) (init tag pa : Nat) (be : Nat) (d : Nat) : State × Bool :=
  (List.range 8).foldl (fun a k =>
    let bw := blockWord (pa + 8 * k)
    let r := writeWord (wordTurn a.1 s.now k) (.noc init tag) bw.1 bw.2 (BitVec.ofNat 8 (be >>> (8 * k))) (BitVec.ofNat 64 (d >>> (64 * k)))
    (r.1, a.2 || r.2)) (s, false)

/-- Port B takes a flit of a NoC write; a poisoned one is not written (R215). Its status is ready 4 hc after the last word's acceptance, that of a
narrow write to a valid word with its merge (R182). -/
def nocWrite (s : State) (b : Nat) (r : NocReq) : State :=
  let s0 := portBServed s b false (reachTick s r)
  if r.badFlits.contains r.done then served (portBTook (wordTurn s0 s0.now 7) b) r.init r.tag r.len Status.poisoned.code (hcs s 5)
  else
    let be := if r.len = 1 then r.be.toNat else 2 ^ 64 - 1
    let v := writeFlit s0 r.init r.tag (r.pa + 64 * r.done) be (r.data.getD r.done 0).toNat
    let s1 := portBTook v.1 b
    if v.2 then mapReq s1 r.init r.tag (fun r => { r with done := r.done + 1, ready := max r.ready (s1.now + hcs s 5) })
    else served s1 r.init r.tag r.len 0 (hcs s 5)

/-- Port B takes the next flit of a NoC write, or the oldest released MDWR of a tile. -/
def portBWrite (p : BPort) (s : State) : State :=
  match p with
  | .noc init tag =>
    let s := arrive s init tag
    match reqOf s init tag with
    | none => s
    | some r =>
      match nocBlock s r with
      | some b => if !r.write || decide (r.len ≤ r.done) then s else nocWrite s b r
      | none => s
  | .path t =>
    let s := netAt s s.now
    match pathWrite s t with
    | none => s
    | some e =>
      let pa := 0x1000000000 + e.addr
      let bw := blockWord pa
      if !panesOpen s || !pathGoes s t || !pathInOrder s t true || !portBTurn s bw.1 true then s
      else
        let s0 := takePoison (pathServed (portBServed s bw.1 true s.now) t) (.path t)
        let s1 := { portBTook s0.2 bw.1 with mem := { (portBTook s0.2 bw.1).mem with pathWrites := s0.2.mem.pathWrites.erase e } }
        if inReserve s bw.1 then pathFailed (nocLogDeny s1 pa (0x80 + t / 64)) t pa Status.accessDenied.code
        else if s0.1 then pathFailed s1 t pa Status.poisoned.code
        else
          let s2 := (writeWord s1 (.path t) bw.1 bw.2 (BitVec.allOnes 8) (BitVec.ofNat 64 e.data.toNat)).1
          portBTook (writeWord (wordTurn s2 s1.now 1) (.path t) bw.1 (bw.2 + 1) (BitVec.allOnes 8) (BitVec.ofNat 64 (e.data.toNat >>> 64))).1 bw.1

/-! ## Retirement (R195 to R198) -/

/-- The spare of group `g` that serves block `b` now. -/
def servingSpare (s : State) (b : Nat) : Option Nat :=
  let g := b / 256
  (List.range 4).find? (fun k =>
    bit (s.rd MEM_SPARE_STAT.used g) k && !(bit (s.rd MEM_SPARE_STAT.retired g) k) &&
      s.rd { MEM_SPARE_MAP.spare0 with lo := 8 * k } g == b % 256)

/-- Spare `k` takes over block `b`: the map, the counts and the log show it. -/
def spareSwitch (s : State) (b k : Nat) : State :=
  let g := b / 256
  let s1 := match servingSpare s b with
    | some old => s.wrBit MEM_SPARE_STAT.retired old true g
    | none => s
  let s2 := ((s1.wrBit MEM_SPARE_STAT.used k true g).wr { MEM_SPARE_MAP.spare0 with lo := 8 * k } (b % 256) g).inc
    MEM_STATUS.spares_used
  let left := s2.mem.retiring.filter (fun r => r.1 != b)
  let s3 := { s2 with
    mem := { s2.mem with retiring := left, newer := s2.mem.newer.filter (fun k => k / 4096 != b) }
    safe := { s2.safe with lasted := s2.safe.lasted.filter (fun e => !(decide (winKey 2 (b * 4096) ≤ e.1) && decide (e.1 < winKey 2 (b * 4096 + 4096)))) } }
  let s4 := s3.wrb MEM_STATUS.retire_busy (!left.isEmpty)
  setDegraded (fault s4 .memBlockRetired b k (die := 1) (degraded := true)) dgMem true

/-- What the copy of a word makes of the pattern `f` that it finds (R188, R190, R196): a corrected word is as written; a new uncorrectable one is copied
as it is, a free value, with the marker, and has its entry in the fault log; one that the code takes for correctable is a wrong value, and one that
spells the marker reads as marked. A poisoned word, an invalid one and one that a newer write has replaced are not judged. -/
def copyWord (s : State) (b w : Nat) (f : WordFind) : State :=
  match memWord s b w with
  | none => s
  | some m =>
    if m.poison || s.mem.newer.contains (b * 4096 + w) then s
    else
      let fr := s.fresh 64
      match f with
      | .ok | .single => s
      | .double => fault (putWord fr.2 b w ⟨fr.1, true⟩) .memUncorrectable b (paDetail (wordPa b w) 0xFF) (die := 1)
      | .wrong => putWord fr.2 b w ⟨fr.1, false⟩
      | .marker => putWord fr.2 b w ⟨fr.1, true⟩

/-- The copy to the column spare has ended (R196); `bad` gives the patterns that the copy found in words. -/
def retirementSwitch (b : Nat) (bad : List (Fin 4096 × WordFind)) (s : State) : State :=
  match s.mem.retiring.find? (fun r => r.1 == b) with
  | none => s
  | some r =>
    let s1 := advanceTo s (r.2.2 + hcs s 4096)
    spareSwitch (bad.foldl (fun s p => copyWord s b p.1.val p.2) (settleMem s1)) b r.2.1

/-! ## Meanings -/

/-- PORT_A_READ (R181, R183, R188 to R190). -/
def execPortARead (block : Fin 4096) (word : Fin 4096) (find : Finding) (s : State) : Res :=
  .next (portARead block word find s)

/-- PORT_A_WRITE (R180, R184). -/
def execPortAWrite (block : Fin 4096) (word : Fin 4096) (be : Byte) (data : Word64) (s : State) : Res :=
  .next (portAWrite block word be data s)

/-- PORT_A_INVALIDATE (R180, R187). -/
def execPortAInvalidate (block : Fin 4096) (s : State) : Res :=
  .next (portAInvalidate block s)

/-- PORT_B_READ (R182): one flit of a NoC read or one MDRD, with what the check code finds in each word. -/
def execPortBRead (port : BPort) (finds : List Finding) (s : State) : Res := .next (portBRead port finds s)

/-- PORT_B_WRITE (R182). -/
def execPortBWrite (port : BPort) (s : State) : Res := .next (portBWrite port s)

/-- NARROW_WRITE_MERGE (R184, R185, R192). -/
def execNarrowWriteMerge (find : Finding) (s : State) : Res := .next (narrowMerge find s)

/-- RETIREMENT_SWITCH (R196, R197). -/
def execRetirementSwitch (block : Fin 4096) (bad : List (Fin 4096 × WordFind)) (s : State) : Res :=
  .next (retirementSwitch block bad s)

/-- HOST_BLOCK_INVALIDATE (R187). -/
def execHostBlockInvalidate (block : Fin 4096) (s : State) : Res :=
  .next (regWrite 0xC0010 s (fun s => if dieOpen s 1 then invalidate s block else s))

/-- HOST_INVALIDATE_ALL (R187). -/
def execHostInvalidateAll (s : State) : Res := .next (regWrite 0xC0010 s (fun s => if dieOpen s 1 then invalidateAll s else s))

/-- INVALIDATE_CLEAR_DONE (R187). -/
def execInvalidateClearDone (block : Fin 4096) (s : State) : Res := .next (clearDone block s)

end Sys2Proof.Machine
end

