-- ==== Sys2Proof/Machine/Dram.lean ====
section
/-! DEFINITION. The DDR5 controllers (chapter 09): the address map, the queues, the check code and its log, soft repair, alerts, retraining
and refresh. The encryption engine presents lines and takes their answers (Enc.lean). -/

namespace Sys2Proof.Machine

/-! ## Controllers -/

def ctrl (s : State) (c : Nat) : DramCtrl := if c = 0 then s.dram.c0 else s.dram.c1

def setCtrl (s : State) (c : Nat) (x : DramCtrl) : State :=
  { s with dram := if c = 0 then { s.dram with c0 := x } else { s.dram with c1 := x } }

def DramCtrl.sub (x : DramCtrl) (i : Nat) : DramSub := if i = 0 then x.sub0 else x.sub1

def DramCtrl.setSub (x : DramCtrl) (i : Nat) (y : DramSub) : DramCtrl :=
  if i = 0 then { x with sub0 := y } else { x with sub1 := y }

/-! ## Address mapping (R225, R226) -/

/-- The local address of a location. -/
def localAddr (s : State) (loc : Nat) : Nat :=
  if s.rdb DRC_MAP.interleaved then loc / 2 ^ 13 * 2 ^ 12 + loc % 2 ^ 12 else loc % 2 ^ 35

/-- The location of a local address of controller `c`. -/
def locOfLocal (s : State) (c la : Nat) : Nat :=
  if s.rdb DRC_MAP.interleaved then
    let l := la / 2 ^ 12 * 2 ^ 13 + la % 2 ^ 12
    l + b2n ((c == 1) != (bit l 20 != bit l 28)) * 2 ^ 12
  else la

/-- The first bit of the row field of controller `c`. -/
def rowLo (s : State) (c : Nat) : Nat :=
  if s.rdb DRC_STATUS.width_x8 c && !s.rdb DRC_STATUS.two_ranks c then 18 else 19

/-- The table of R226. -/
def rowOf (s : State) (loc : Nat) : RowAddr :=
  let c := ctrlOfLoc s loc
  let la := localAddr s loc
  { row := la / 2 ^ rowLo s c, bg := bits la 7 3, bank := bits la 10 2,
    rank := if s.rdb DRC_STATUS.two_ranks c then bits la 18 1 else 0, sub := bits la 6 1 }

/-- The row of log entry `e` of controller `c`. -/
def entryRow (s : State) (c e : Nat) : RowAddr :=
  { row := s.rd DRC_ELOG_LO.row c e, bg := s.rd DRC_ELOG_LO.bank_group c e, bank := s.rd DRC_ELOG_LO.bank c e,
    rank := s.rd DRC_ELOG_LO.rank c e, sub := s.rd DRC_ELOG_LO.subchannel c e }

/-- The sPPR resource of a row (R243). -/
def RowAddr.resource (r : RowAddr) : Nat := 16 * r.rank + 8 * r.sub + r.bg

/-- Column `k` of a row, as a line number. -/
def rowLine (s : State) (c : Nat) (r : RowAddr) (k : Nat) : Nat :=
  let la := r.row * 2 ^ rowLo s c + r.sub * 2 ^ 6 + r.bg * 2 ^ 7 + r.bank * 2 ^ 10 + k * 2 ^ 12 +
    (if s.rdb DRC_STATUS.two_ranks c then r.rank * 2 ^ 18 else 0)
  locOfLocal s c la / 64

/-! ## Stored lines -/

/-- The line as DRAM holds it. -/
def dramLine (s : State) (line : Nat) : DramLine :=
  (sparseFind s.dram.lines line).getD { data := Config.dramLine s.dram.epoch line, poison := false }

def putLine (s : State) (line : Nat) (x : DramLine) : State :=
  { s with dram := { s.dram with lines := sparsePut s.dram.lines line x } }

/-- Issued commands enter the retry buffer of subchannel `i`, which holds the last 32 (R236). -/
def noteCommands (s : State) (c i : Nat) (r : List DramReq) : State :=
  let x := ctrl s c
  let y := x.sub i
  let l := y.retry ++ r
  setCtrl s c (x.setSub i { y with retry := l.drop (l.length - 32) })

/-- A read or write issues: an ACT of its row, then RD or WR (R231). -/
def noteIssued (s : State) (c : Nat) (r : DramReq) : State :=
  noteCommands s c (r.line % 2) [{ r with op := .activate, data := 0 }, r]

/-- The bank of a line is held by a repair, or its subchannel has stopped for an alert or a full retraining (R236, R242). -/
def lineHeld (s : State) (line : Nat) : Bool :=
  let c := ctrlOfLoc s (line * 64)
  let x := ctrl s c
  let y := x.sub (line % 2)
  let r := rowOf s (line * 64)
  let held := match x.repair with
    | some (_, q) =>
      q.bg == r.bg && q.bank == r.bank && q.rank == r.rank && q.sub == r.sub
    | none => false
  held || y.alertSince.isSome || x.sub0.full.isSome || x.sub1.full.isSome

/-- The controller takes requests: it is ACTIVE, no subchannel retrains in full (R236), and it has left self-refresh (R246). -/
def ctrlAccepts (s : State) (c : Nat) : Bool :=
  s.rd DRC_STATUS.state c == drActive && (ctrl s c).sub0.full.isNone && (ctrl s c).sub1.full.isNone && decide ((ctrl s c).ready ≤ s.now)

/-- The write queue can take a write of `line`: it has room, or a pending write of the line whose data is replaced (R231, R234). -/
def writeRoom (s : State) (c line : Nat) : Bool :=
  decide ((ctrl s c).writes.length < 64) || (ctrl s c).writes.any (fun q => q.line == line)

/-- The pending writes `l` issue to DRAM in order. -/
def issueThese (s : State) (c : Nat) (l : List DramReq) : State :=
  let x := ctrl s c
  let s1 := l.foldl (fun s r => noteIssued (putLine s r.line ⟨r.data, false⟩) c r) s
  setCtrl s1 c { ctrl s1 c with writes := x.writes.filter (fun q => !l.contains q) }

/-- The oldest `n` pending writes whose banks are free issue to DRAM (R233, R242). -/
def issueWrites (s : State) (c n : Nat) : State :=
  issueThese s c (((ctrl s c).writes.filter (fun q => !lineHeld s q.line)).take n)

/-- A full-line write enters the write queue: over a pending write to its line it replaces the data in place (R234). A queue of 48 starts
a drain (R233). -/
def enqueueWrite (s : State) (c : Nat) (r : DramReq) : State :=
  let x := ctrl s c
  let w := if x.writes.any (fun q => q.line == r.line) then
      x.writes.map (fun q => if q.line == r.line then { q with data := r.data, init := r.init, tag := r.tag, pa := r.pa } else q)
    else x.writes ++ [r]
  setCtrl s c { x with writes := w, draining := x.draining || decide (48 ≤ w.length) }

/-- The write of the line that has been pending since tick `t`, and every older one, issue at once, those whose banks are free (R234). -/
def settleOlder (s : State) (c line t : Nat) : State :=
  match (ctrl s c).writes.findIdx? (fun q => q.line == line && decide (q.since ≤ t)) with
  | some i => issueThese s c (((ctrl s c).writes.take (i + 1)).filter (fun q => !lineHeld s q.line))
  | none => s

/-- Issues what a read that has waited since tick `t` must wait for: a running drain down to 16, then the older writes of its line (R233,
R234). -/
def settleLine (s : State) (c line t : Nat) : State :=
  let x := ctrl s c
  let s1 := if x.draining then
      let t := issueWrites s c (x.writes.length - 16)
      setCtrl t c { ctrl t c with draining := decide (16 < (ctrl t c).writes.length) }
    else s
  settleOlder s1 c line t

/-- A read enters the read queue; a pending write of its line, and every older one, issue at once (R231, R234). -/
def enqueueRead (s : State) (c : Nat) (q : DramReq) : State :=
  let s1 := settleOlder s c q.line s.now
  setCtrl s1 c { ctrl s1 c with reads := (ctrl s1 c).reads ++ [{ q with op := .read, since := s.now }] }

/-- The controller accepts another read. -/
def readRoom (s : State) (c : Nat) : Bool := ctrlAccepts s c && decide ((ctrl s c).reads.length < 64)

/-- One hc in which a controller has writes to issue and nothing before them: it is draining, or its read queue is empty (R232, R233). -/
def drainTick (s : State) (c : Nat) : State :=
  let x := ctrl s c
  if s.rd DRC_STATUS.state c ≠ drActive ∨ x.writes = [] ∨ !(x.draining || x.reads.isEmpty) then s
  else
    let s1 := issueWrites s c 1
    let y := ctrl s1 c
    setCtrl s1 c { y with draining := y.draining && decide (16 < y.writes.length) }

/-! ## The error log and soft repair (R241 to R244) -/

/-- The tick at which the window of log entry `e` closes. -/
def dlogClose (s : State) (c e : Nat) : Nat :=
  match sparseFind (ctrl s c).elogWin e with
  | some x => x.opened + x.length * 10 * msTicks
  | none => 0

/-- The entry a row takes: its own, a free one, or the one whose window closed earliest (R194, R241). -/
def dlogSlot (s : State) (c : Nat) (r : RowAddr) : Option (Nat × Bool) :=
  match (List.range 32).find? (fun e => s.rdb DRC_ELOG_LO.in_use c e && entryRow s c e == r) with
  | some e => some (e, false)
  | none =>
    match (List.range 32).find? (fun e => !s.rdb DRC_ELOG_LO.in_use c e) with
    | some e => some (e, true)
    | none => (minBy (dlogClose s c) ((List.range 32).filter (fun e => decide (dlogClose s c e ≤ s.now)))).map (fun e => (e, true))

/-- The entry's row is free to be repaired: its resource is unused, and no repair in progress takes it (R243, R553). -/
def resourceFree (s : State) (c e : Nat) : Bool :=
  let k := (entryRow s c e).resource
  !(bit (s.rd DRC_PPR.used c) k) && !((ctrl s c).repair.any (fun p => p.2.resource == k)) && !(sparseGet false s.safe.failedSpares (0x300000000 + c * 32 + k))

/-- Soft repair of an entry's row begins: its bank is held (R242). While another repair is in progress it waits. -/
def startRepair (s : State) (c e : Nat) : State :=
  let x := ctrl s c
  let p := (e, entryRow s c e)
  if x.repair.isNone then setCtrl s c { x with repair := some p }
  else if x.repairQ.contains p then s else setCtrl s c { x with repairQ := x.repairQ ++ [p] }

/-- The lasting row of an entry whose resource is in use stays in service (R243). -/
def pprExhausted (s : State) (c e : Nat) : State :=
  fault (s.wr DRC_PPR_STAT.exhausted 1 c) .spareExhausted (entryRow s c e).resource 3 (die := 0)

/-- The next repair that waits starts; one whose resource has been taken leaves its row in service. -/
def nextSoftRepair (s : State) (c : Nat) : State :=
  (ctrl s c).repairQ.foldl (fun s p =>
    let s1 := setCtrl s c { ctrl s c with repairQ := (ctrl s c).repairQ.erase p }
    if (ctrl s c).repair.isSome then s
    else if entryRow s c p.1 ≠ p.2 ∨ !sparseGet false (ctrl s c).lasted p.1 then s1
    else if resourceFree s1 c p.1 then startRepair s1 c p.1 else pprExhausted s1 c p.1) s

/-- A row has become lasting (R242, R243). -/
def rowLasting (s : State) (c e : Nat) : State :=
  let x := ctrl s c
  if sparseGet false x.lasted e then s
  else
    let s1 := setCtrl s c { x with lasted := sparseSet false x.lasted e true }
    if !resourceFree s1 c e then pprExhausted s1 c e
    else if s1.rdb DRC_CTRL.ppr_auto c then startRepair s1 c e
    else s1

/-- A corrected or uncorrectable read of the line at `loc` is counted, logged and acted on; one that finds no log entry counts only in
`untracked`. -/
def rowEvent (s : State) (c loc : Nat) (unc : Bool) (symbol : Nat) : State :=
  let r := rowOf s loc
  match dlogSlot s c r with
  | none => s.inc DRC_ERR_COUNTS.untracked 1 c
  | some (e, new) =>
    let s1 := if unc then s.inc DRC_ERR_COUNTS.uncorrectable 1 c else s.inc DRC_ERR_COUNTS.corrected 1 c
    let x := ctrl s1 c
    let win := windowAdd s1.now (s1.rd SAF_WIN.window 3) (s1.rd SAF_WIN.limit 3) (if new then none else sparseFind x.elogWin e)
    let total := if new then 1 else satAdd 8 (s1.rd DRC_ELOG_HI.total_hits c e) 1
    let s2 := setCtrl s1 c { x with elogWin := sparsePut x.elogWin e win, lasted := if new then sparseSet false x.lasted e false else x.lasted }
    let s3 := (((s2.wr DRC_ELOG_LO.row r.row c e).wr DRC_ELOG_LO.bank_group r.bg c e).wr DRC_ELOG_LO.bank r.bank c e).wr
      DRC_ELOG_LO.rank r.rank c e
    let s4 := ((s3.wr DRC_ELOG_LO.subchannel r.sub c e).wr DRC_ELOG_LO.in_use 1 c e).wrb DRC_ELOG_LO.uncorrectable unc c e
    let s5 := if new then s4.wr DRC_ELOG_LO.repaired 0 c e else s4
    let s6 := ((s5.wr DRC_ELOG_LO.window_hits (min win.count 31) c e).wr DRC_ELOG_HI.symbol (if unc then 0x3F else symbol) c e).wr
      DRC_ELOG_HI.total_hits total c e
    let s7 := if win.count = 1 then s6.wr DRC_ELOG_HI.window_start (timeSec (counter s6) / 4) c e else s6
    if win.limit ≤ win.count then rowLasting s7 c e else s7

/-! ## Reading a line (R234, R238 to R240) -/

/-- The symbols with an erroneous bit. -/
def badSymbols (e : BitVec 640) : List Nat := (List.range 40).filter (fun i => bits e.toNat (16 * i) 16 != 0)

/-- The bits of the line that the errors of the data symbols change: data DQ 8k + b carries bit b of bytes k, k + 4, ..., k + 60. -/
def lineErrors (e : BitVec 640) : BitVec 512 :=
  BitVec.ofNat 512 ((List.range 512).foldl (fun a p => a + b2n (e.getLsbD (16 * (8 * (p / 8 % 4) + p % 8) + p / 32)) * 2 ^ p) 0)

/-- What the decoder finds: no error; a correction, with the lowest symbol that it takes for erroneous and the bits that it leaves wrong; or an
uncorrectable line. -/
inductive LineCheck where
  | ok
  | corrected (symbol : Nat) (wrong : BitVec 512)
  | bad
  deriving DecidableEq, Repr

/-- The decoder of R238 on a line with the erroneous bits of `f`: up to 4 symbols are corrected, and more than 8 within two components are
detected; what it makes of others is the code's, of which the spec gives no more. -/
def lineCheck (s : State) (c : Nat) (f : LineFind) : LineCheck :=
  let l := badSymbols f.bad
  let w := if s.rdb DRC_STATUS.width_x8 c then 8 else 4
  if l = [] then .ok
  else if l.length ≤ 4 then .corrected (l.headD 0) 0
  else if 8 < l.length ∧ (l.map (· / w)).eraseDups.length ≤ 2 then .bad
  else match Config.lineCode f.bad with
    | none => .bad
    | some e => .corrected ((badSymbols e).headD 0x3F) (lineErrors (f.bad ^^^ e))

/-- What a checked line read delivers. -/
structure LineRead where
  data : BitVec 512
  poison : Bool
  deriving DecidableEq, Repr

/-- A read of a line through its check code, for a request at `pa` of `init` that has waited since tick `t`. It enters the retry buffer as it issues
(R236). An older pending write of the line that a held bank keeps from issuing gives its data. A corrected line is written back as a full write as it
was read, unless one is pending; an uncorrectable one delivers a free value and is marked, and a marked one is not counted again. -/
def readLine (s : State) (line : Nat) (f : LineFind) (pa init t : Nat) : LineRead × State :=
  let c := ctrlOfLoc s (line * 64)
  let rd (d : BitVec 512) (o : LineOp) : DramReq :=
    { init := init, tag := 0, pa := pa, line := line, op := o, data := d, be := BitVec.allOnes 64, qos := 1, since := s.now }
  let s1 := noteIssued s c (rd 0 .read)
  let x : DramLine := match (ctrl s1 c).writes.find? (fun q => q.line == line && decide (q.since ≤ t)) with
    | some q => { data := q.data, poison := false }
    | none => dramLine s1 line
  if x.poison then (⟨x.data, true⟩, s1)
  else
    match lineCheck s1 c f with
    | .ok => (⟨x.data, false⟩, s1)
    | .corrected symbol wrong =>
      let d := x.data ^^^ wrong
      let s2 := if (ctrl s1 c).writes.any (fun q => q.line == line) then s1 else enqueueWrite s1 c (rd d .write)
      (⟨d, false⟩, rowEvent s2 c (line * 64) false symbol)
    | .bad =>
      let fr := s1.fresh 512
      let s2 := noteIssued (putLine fr.2 line ⟨fr.1, true⟩) c (rd fr.1 .write)
      (⟨fr.1, true⟩,
        rowEvent (fault s2 .dramUncorrectable c (paDetail pa init) (die := 0)) c (line * 64) true 0x3F)

/-- The read that issues next (R232): one that has waited 2 µs, then time-critical, management, bulk; the oldest of each whose bank is free. -/
def nextRead (s : State) (c : Nat) : Option DramReq :=
  let l := (ctrl s c).reads.filter (fun r => !lineHeld s r.line)
  match l.find? (fun r => decide (r.since + 2 * usTicks ≤ s.now)) with
  | some r => some r
  | none =>
    match l.find? (fun r => r.qos == 0) with
    | some r => some r
    | none =>
      match l.find? (fun r => r.qos == 2) with
      | some r => some r
      | none => l.head?

/-! ## OFFLINE (R237) -/

/-- Requests still in the controller end: reads complete ACCESS_DENIED by `deny`, pending writes are lost and logged. -/
def goOffline (s : State) (c : Nat) (deny : State → DramReq → State) : State :=
  let x := ctrl s c
  let s1 := (setCtrl s c { x with reads := [], writes := [], draining := false, repair := none, repairQ := [],
                                  sub0 := { x.sub0 with full := none, retrain := false },
                                  sub1 := { x.sub1 with full := none, retrain := false } }).wr DRC_STATUS.state drOffline c
  let s2 := x.writes.foldl (fun s r => fault s .indeterminateWrite 0 (paDetail r.pa r.init) (die := 0)) s1
  let s3 := x.reads.foldl deny s2
  setDegraded (fault (s3.wr DRC_STATUS.retraining 0 c) .dramOffline c 0 (die := 0) (degraded := true)) dgDram true

/-! ## Training results (R228, R229) -/

/-- The strobe groups that read as group `g` does: on x8 components, groups 2k and 2k + 1 alike. -/
def alike (s : State) (c g : Nat) : List Nat := if s.rdb DRC_STATUS.width_x8 c then [g / 2 * 2, g / 2 * 2 + 1] else [g]

/-- margin_low of a strobe group. -/
def setMarginLow (s : State) (c g : Nat) : State := (alike s c g).foldl (fun s k => s.wrBit DRC_STATUS.margin_low k true c) s

/-- The widest run of passing steps of a sweep (R228): its first step and its length, the first run where several are as wide. -/
def widestRun (m : BitVec 128) : Nat × Nat :=
  ((List.range 128).foldl (fun (a : (Nat × Nat) × Nat) k =>
    if m.getLsbD k then (if a.1.2 < a.2 + 1 then ((k - a.2, a.2 + 1), a.2 + 1) else (a.1, a.2 + 1)) else (a.1, 0)) ((0, 0), 0)).1

/-- The centre of the widest run, rounded down (DESIGN CHOICE, log entry 137). -/
def runCentre (m : BitVec 128) : Nat := (widestRun m).1 + (widestRun m).2 / 2

/-- The length of the widest run; the field of 7 bits shows a run of all 128 steps as 127. -/
def runLength (m : BitVec 128) : Nat := (widestRun m).2

/-- The training result shown for one strobe group: the centre of the widest run and its length. -/
def showGroup (c : Nat) (t : GroupTrain) (s : State) (g : Nat) : State :=
  (((s.wr DRC_TRAIN.rd_delay (runCentre t.rd) c g).wr DRC_TRAIN.wr_delay (runCentre t.wr) c g).wr DRC_TRAIN.rd_eye
    (min 127 (runLength t.rd)) c g).wr DRC_TRAIN.wr_eye (min 127 (runLength t.wr)) c g

/-- A strobe group takes its training result; a run under 16 steps sets margin_low. -/
def takeGroup (s : State) (c g : Nat) (t : GroupTrain) : State :=
  let s1 := (alike s c g).foldl (showGroup c t) s
  if runLength t.rd < 16 ∨ runLength t.wr < 16 then setMarginLow s1 c g else s1

/-- No passing step was found. -/
def groupFails (t : GroupTrain) : Bool := t.rd == 0 || t.wr == 0

/-- A retraining of the DQ delays starts from its first quantum on both subchannels (R229). -/
def startRetrain (s : State) (c : Nat) : State :=
  if s.rd DRC_STATUS.state c = drActive then
    let x := ctrl s c
    (setCtrl s c { x with sub0 := { x.sub0 with retrain := true }, sub1 := { x.sub1 with retrain := true } }).wr
      DRC_STATUS.retraining 1 c
  else s

/-- DRC_STATUS.retraining follows the two subchannels. -/
def showRetrain (s : State) (c : Nat) : State :=
  let x := ctrl s c
  s.wrb DRC_STATUS.retraining
    (x.sub0.retrain || x.sub1.retrain || x.sub0.full.isSome || x.sub1.full.isSome) c

/-- One quantum: quanta of a subchannel are 20 µs apart and each lasts 1 µs; `res` is what it found for a group, `last` says that the
subchannel is done. -/
def retrainQuantum (c sub : Nat) (res : Option (Fin 10 × GroupTrain)) (last : Bool) (s : State) : State :=
  let x := ctrl s c
  let y := x.sub sub
  if !y.retrain ∨ s.rd DRC_STATUS.state c ≠ drActive then s
  else
    let s1 := advanceTo s (if y.quantumEnd = 0 then s.now else y.quantumEnd + 20 * usTicks)
    let s2 := advance s1 usTicks
    let s3 := setCtrl s2 c ((ctrl s2 c).setSub sub { y with retrain := !last, quantumEnd := s2.now })
    let s4 := match res with
      | none => s3
      | some (g, t) =>
        let k := 10 * sub + g.val
        if groupFails t then fault (setMarginLow s3 c k) .dramRetrainFailed c k (die := 0)
        else takeGroup s3 c k t
    showRetrain s4 c

/-! ## Refresh (R245) -/

/-- The refresh interval of a band and of the rate MR4 asks, in ticks: the shorter of the two. -/
def tRefi (s : State) (c : Nat) : Nat :=
  let of (k : Nat) : Nat := if k = 0 then 152100 else if k = 1 then 76050 else 38025
  let band := s.rd DRC_STATUS.band c
  min (of (if band ≤ 1 then 0 else band - 1)) (of (ctrl s c).mr4)

/-- The subchannel and rank pairs of a controller. -/
def rankPairs (s : State) (c : Nat) : Nat := if s.rdb DRC_STATUS.two_ranks c then 4 else 2

/-- REFab to the next subchannel and rank pair of the controller: each pair at its interval, the pairs staggered by a quarter of it (R245). REFab enters the
retry buffer of its subchannel (R236); the pairs alternate between the subchannels (DESIGN CHOICE, log entry 179). The band in force for refresh becomes
the Wicket's from then on. -/
def refresh (c : Nat) (s : State) : State :=
  if s.rd DRC_STATUS.state c ≠ drActive then s
  else
    let x := ctrl s c
    let p := x.refreshes % rankPairs s c
    let t := tRefi s c
    let s1 := advanceTo s (x.lastRefresh + (if p = 0 then t else p * (t / 4)))
    let ref : DramReq := { init := 0xFF, tag := 0, pa := 0, line := 0, op := .refresh, data := 0, be := 0, qos := 0, since := s1.now }
    let s1 := noteCommands s1 c (p % 2) [ref]
    (setCtrl s1 c { ctrl s1 c with refreshes := x.refreshes + 1, lastRefresh := if p = 0 then s1.now else x.lastRefresh }).wr
      DRC_STATUS.band (s.rd THM_STATUS.band) c

/-- tXS of JESD79-5 in nanoseconds: tRFC1 + 10 ns for 16 Gb and 32 Gb components (PRESUMED, log entry 138). -/
def tXsNs (s : State) (c : Nat) : Nat := if s.rdb DRC_STATUS.density_32gb c then 420 else 305

/-- A controller leaves self-refresh: after tXS it refreshes every rank once, and then accepts requests (R246). -/
def leaveSelfRefresh (s : State) (c : Nat) : State :=
  let x := ctrl s c
  let p := rankPairs s c
  (setCtrl s c { x with refreshes := (x.refreshes + p - 1) / p * p + p, lastRefresh := s.now + tXsNs s c * nsTicks,
                        ready := s.now + tXsNs s c * nsTicks }).wr DRC_STATUS.state drActive c

/-- The write queue of controller `c` is emptied, and with it empty the controller enters self-refresh (R57, R246); writes of a bank that a repair
or an alert holds wait for its release (R236, R242). -/
def selfRefresh (s : State) (c : Nat) : State :=
  let t := issueWrites s c 64
  let t := setCtrl t c { ctrl t c with draining := (ctrl t c).draining && decide (16 < (ctrl t c).writes.length) }
  if t.rd DRC_STATUS.state c = drActive ∧ (ctrl t c).writes = [] then t.wr DRC_STATUS.state drSelfRefresh c else t

/-- Banks have come free: a controller that the drain of a base-die reset keeps waiting goes on into self-refresh. -/
def drainOn (s : State) (c : Nat) : State :=
  match s.boot.d0 with
  | .drained _ => selfRefresh s c
  | _ => s

/-- The readings of MR4 from every fitted rank of both subchannels: 0 to 2 ask for a rate, of which the fastest counts; 3 reports a component
above its operating range. -/
def mr4Poll (c : Nat) (readings : List Nat) (s : State) : State :=
  if s.rd DRC_STATUS.state c ≠ drActive then s
  else
    let reading := (readings.take (rankPairs s c)).foldl max 0
    let s1 := setCtrl s c { ctrl s c with mr4 := min reading 2 }
    if reading = 3 then fault (s1.wr DRC_STATUS.dram_hot 1 c) .dramHot c 0 (die := 0) else s1

/-! ## Alerts (R236) -/

/-- ALERT_n asserts on a subchannel; one within a full retraining, which issues no command of the buffer, is only counted. -/
def alertOn (c sub : Nat) (crc : Bool) (s : State) : State :=
  let st := s.rd DRC_STATUS.state c
  let x := ctrl s c
  let y := x.sub sub
  if (st ≠ drActive ∧ st ≠ drSelfRefresh) ∨ y.alertSince.isSome then s
  else if y.full.isSome then s.inc DRC_ERR_COUNTS.alerts 1 c
  else
    let near := match y.alertEnd with | some e => decide (s.now ≤ e + usTicks) | none => false
    let run := if near then y.alertRun + 1 else 1
    let y1 := { y with alertSince := some s.now, alertRun := run, alertCrc := crc }
    (setCtrl s c (x.setSub sub y1)).inc DRC_ERR_COUNTS.alerts 1 c

/-- ALERT_n deasserts: the retry buffer is replayed in order, which stores the same data again and changes no
value; after a third consecutive alert the subchannel retrains in full. -/
def alertOff (c sub : Nat) (s : State) : State :=
  let x := ctrl s c
  let y := x.sub sub
  match y.alertSince with
  | none => s
  | some _ =>
    let y1 := { y with alertSince := none, alertEnd := some s.now,
                       full := if 3 ≤ y.alertRun then some s.now else none }
    drainOn (showRetrain (setCtrl s c (x.setSub sub y1)) c) c

/-! ## Soft repair (R242) -/

/-- PPR_NOW: the entry's row is repaired if it is lasting and a resource is free, else the write is refused. -/
def pprNow (c e : Nat) (s : State) : State :=
  let s0 := s.wr DRC_CTRL.ppr_entry e c
  let ok := s.rd DRC_STATUS.state c == drActive && s.rdb DRC_ELOG_LO.in_use c e && sparseGet false (ctrl s c).lasted e &&
    resourceFree s c e
  if ok then startRepair s0 c e else s0.wr DRC_CTRL.ppr_refused 1 c

/-- The repair ends: the row's lines, 128 on x4 components and 64 on x8, are back, those in `bad` with the poison marker, and the resource is in
use. The reads of step 2 that were corrected (`fixed`, with the symbol) and those in `bad` are events of the row (R241). A repair that waits
starts. -/
def repairDone (c : Nat) (bad : List (Fin 128)) (fixed : List (Fin 128 × Fin 40)) (s : State) : State :=
  match (ctrl s c).repair with
  | none => s
  | some (e, r) =>
    let cols := if s.rdb DRC_STATUS.width_x8 c then 64 else 128
    let loc (k : Fin 128) : Nat := rowLine s c r k.val * 64
    let s1 := (fixed.filter (fun p => decide (p.1.val < cols))).foldl (fun s p => rowEvent s c (loc p.1) false p.2.val) s
    let s2 := (bad.filter (fun k => decide (k.val < cols))).foldl (fun s k =>
      let x := dramLine s (loc k / 64)
      if x.poison then s
      else
        rowEvent (fault (putLine s (loc k / 64) ⟨x.data, true⟩) .dramUncorrectable c (paDetail (loc k) 0xFF) (die := 0)) c (loc k) true 0x3F) s1
    let x := ctrl s2 c
    let s3 := (setCtrl s2 c { x with repair := none, softRepairs := x.softRepairs ++ [(r.resource, r.bank, r.row)] }).wrBit DRC_PPR.used r.resource true c
    drainOn (nextSoftRepair (if entryRow s3 c e = r then s3.wr DRC_ELOG_LO.repaired 1 c e else s3) c) c

/-! ## Meanings -/

/-- DRAM_REFRESH (R245). -/
def execDramRefresh (ctl : Fin 2) (s : State) : Res := .next (refresh ctl s)

/-- MR4_POLL (R245): of each subchannel and rank pair, 0 to 2 ask 3.9, 1.95 or 0.975 µs; 3 reports a component above its operating range. -/
def execMr4Poll (ctl : Fin 2) (readings : Vector (Fin 4) 4) (s : State) : Res :=
  .next (mr4Poll ctl (readings.toList.map (fun r => r.val)) s)

/-- DRAM_ALERT (R236). -/
def execDramAlert (ctl : Fin 2) (sub : Fin 2) (crc : Bool) (s : State) : Res := .next (alertOn ctl sub crc s)

/-- DRAM_ALERT_DEASSERT (R236). -/
def execDramAlertDeassert (ctl : Fin 2) (sub : Fin 2) (s : State) : Res := .next (alertOff ctl sub s)

/-- RETRAIN_QUANTUM (R229). -/
def execRetrainQuantum (ctl : Fin 2) (sub : Fin 2) (result : Option (Fin 10 × GroupTrain)) (last : Bool) (s : State) : Res :=
  .next (retrainQuantum ctl sub result last s)

/-- DRAM_RETRAIN_REQUEST (R229). -/
def execDramRetrainRequest (ctl : Fin 2) (s : State) : Res := .next (regWrite (DRC_CTRL.retrain.offset ctl 0) s (fun s => startRetrain s ctl))

/-- PPR_NOW (R242). -/
def execPprNow (ctl : Fin 2) (entry : Fin 32) (s : State) : Res := .next (regWrite (DRC_CTRL.ppr_now.offset ctl 0) s (pprNow ctl entry))

/-- SPPR_REPAIR_COMPLETE (R242). -/
def execSpprRepairComplete (ctl : Fin 2) (bad : List (Fin 128)) (s : State) (fixed : List (Fin 128 × Fin 40) := []) : Res :=
  .next (repairDone ctl bad fixed s)

end Sys2Proof.Machine
end

