-- ==== Sys2Proof/Machine/Fabric.lean ====
section
/-! DEFINITION. The delay lock of the logic die's districts (R77 to R81). -/

namespace Sys2Proof.Machine

/-- The bit of district `d` in THM_DLOCK_UNLOCKEDk (R80). -/
def setUnlocked (s : State) (d : Nat) (b : Bool) : State :=
  if d < 64 then s.wrBit THM_DLOCK_UNLOCKED.bits (d % 32) b (d / 32) else s.wrBit THM_DLOCK_UNLOCKED2.bits (d - 64) b

/-- An unlock of district `d` (R77): it reads unlocked, is counted and logged; a slow one is a thermal event (R78). -/
def unlock (s : State) (d : Nat) (slow : Bool) : State :=
  let x := district s d
  let t := setDistrict s d { x with slow := slow, slowRun := 0, fastRun := 0, relockRun := 0, acquired := true }
  let t := (setUnlocked (t.wr THM_DLOCK_DISTRICT.locked 0 d) d true).inc THM_DLOCK_DISTRICT.unlock_events 1 d
  fault (t.wr (if slow then THM_DLOCK_DISTRICT.slow_unlock_seen else THM_DLOCK_DISTRICT.fast_unlock_seen) 1 d) .delayUnlock d (b2n slow)
    (die := 2)

/-- The body-bias code after a window with error `e`, in units of 0.1 % (R77). -/
def nextCode (code : Nat) (e : Int) : Nat :=
  if 6 ≤ e then min 63 (code + 1) else if e ≤ -6 then code - 1 else code

/-- One 1 us window of district `d` found the error `e`, in units of 0.1 %, positive when slow (R77). A district in an unlock of one sign is not
judged for the other before its relock (DESIGN CHOICE, log entry 134). The window whose end moves the code to 63 is the first of the 100 at that code
(DESIGN CHOICE, log entry 185). -/
def lockWindow (d : Nat) (e : Int) (s : State) : State :=
  let x := district s d
  if x.releasedAt.isNone then s
  else
    let code := nextCode (s.rd THM_DLOCK_DISTRICT.bias_code d) e
    let y := { x with
      at63 := if code = 63 then x.at63 + 1 else 0
      slowRun := if 25 < e then x.slowRun + 1 else 0
      fastRun := if e < -25 then x.fastRun + 1 else 0
      relockRun := if -20 ≤ e ∧ e ≤ 20 then x.relockRun + 1 else 0 }
    let t := (setDistrict s d y).wr THM_DLOCK_DISTRICT.bias_code code d
    let t := (t.wr THM_DLOCK_DISTRICT.freq_error (ofSigned 8 (max (-128) (min 127 e))) d).wrb THM_DLOCK_DISTRICT.at_limit
      (y.lockedOnce && decide (100 ≤ y.at63)) d
    if t.rdb THM_DLOCK_DISTRICT.locked d then
      if 4 ≤ y.slowRun then unlock t d true else if 4 ≤ y.fastRun then unlock t d false else t
    else if !x.acquired then
      if -25 ≤ e ∧ e ≤ 25 then ((setDistrict t d { y with acquired := true, lockedOnce := true }).wr THM_DLOCK_DISTRICT.locked 1 d).wrb THM_DLOCK_DISTRICT.at_limit
        (decide (100 ≤ y.at63)) d else t
    else if 1000 ≤ y.relockRun then
      setUnlocked (((setDistrict t d { y with slow := false, lockedOnce := true }).wr THM_DLOCK_DISTRICT.locked 1 d).wrb
        THM_DLOCK_DISTRICT.at_limit (decide (100 ≤ y.at63)) d) d false
    else t

/-- A district that has not locked 1 ms after the release is handled as an unlock by the sign of its error (R79); an error of exactly 0, of which the
spec says nothing, is taken as fast (DESIGN CHOICE, log entry 143). -/
def acquireTimeout (d : Nat) (s : State) : State :=
  let x := district s d
  match x.releasedAt with
  | some r =>
    if x.acquired then s
    else
      let t := advanceTo s (r + msTicks)
      unlock t d (decide (0 < toSigned 8 (t.rd THM_DLOCK_DISTRICT.freq_error d)))
  | none => s

/-- A reset of the logic die, or the loss of its power, ends every unlock event; nothing is locked until the release (R79). -/
def dlockReset (s : State) : State :=
  (List.range 80).foldl (fun t d =>
    let t := setDistrict t d { district t d with
      at63 := 0, slowRun := 0, fastRun := 0, relockRun := 0, acquired := false, lockedOnce := false, releasedAt := none, slow := false }
    setUnlocked ((t.wr THM_DLOCK_DISTRICT.locked 0 d).wr THM_DLOCK_DISTRICT.at_limit 0 d) d false) s

/-- The logic die is released: every district acquires lock (R79). -/
def dlockRelease (s : State) : State :=
  (List.range 80).foldl (fun t d => setDistrict t d { district t d with releasedAt := some s.now, acquired := false }) s

/-! ## Meanings -/

/-- DELAY_LOCK_WINDOW (R77, R78). -/
def execDelayLockWindow (district : Fin 80) (error : Int) (s : State) : Res := .next (lockWindow district error s)

/-- LOCK_ACQUIRE_TIMEOUT (R79). -/
def execLockAcquireTimeout (district : Fin 80) (s : State) : Res := .next (acquireTimeout district s)

end Sys2Proof.Machine
end

