-- ==== Sys2Proof/Machine/Enc.lean ====
section
/-! DEFINITION. Inline encryption (chapter 10): keys, regions and rights, the path of a DRAM request through the engine to its controller and
back, and sweeps. -/

namespace Sys2Proof.Machine

/-! ## Registers of the engine -/

/-- The state of key slot `m`: 0 EMPTY, 1 INSTALLED, 2 HELD (R249). -/
def slotState (s : State) (m : Nat) : Nat := bits (s.rd ENC_KEY_STATE.state (m / 16)) (2 * (m % 16)) 2

def setSlotState (s : State) (m v : Nat) : State :=
  let j := m / 16
  let lo := 2 * (m % 16)
  let w := s.rd ENC_KEY_STATE.state j
  s.wr ENC_KEY_STATE.state (w - bits w lo 2 * 2 ^ lo + v % 4 * 2 ^ lo) j

def rgEnabled (s : State) (n : Nat) : Bool := s.rdb ENC_REGION_CFG.enable n
def rgMode (s : State) (n : Nat) : Nat := s.rd ENC_REGION_CFG.mode n
def rgKey (s : State) (n : Nat) : Nat := s.rd ENC_REGION_CFG.key_id n
def rgBase (s : State) (n : Nat) : Nat := s.rd ENC_REGION_BASE.base n
def rgLimit (s : State) (n : Nat) : Nat := s.rd ENC_REGION_LIMIT.limit n
def rgState (s : State) (n : Nat) : Nat := s.rd ENC_REGION_STATUS.state n

/-! Region modes and states (R251, R272). -/
def moPlain : Nat := 0
def moXts : Nat := 1
def moWide : Nat := 2
def moNarrow : Nat := 3
def rsDisabled : Nat := 0
def rsInit : Nat := 1
def rsActive : Nat := 2
def rsRekeying : Nat := 3

/-- Lines of a region. -/
def rgLines (s : State) (n : Nat) : Nat := (rgLimit s n + 1 - rgBase s n) * 64

/-- 4 KiB blocks of an integrity region's metadata (R258). -/
def metaBlocks (mode blocks : Nat) : Nat :=
  if mode = moWide then (blocks + 3) / 4 else if mode = moNarrow then (blocks * 3 + 15) / 16 else 0

/-- The enabled region that holds a location. -/
def regionOf (s : State) (loc : Nat) : Option Nat :=
  (List.range 32).find? (fun n => rgEnabled s n && decide (rgBase s n ≤ loc / 4096) && decide (loc / 4096 ≤ rgLimit s n))

/-- The location lies in the tag area (R258), or in the metadata of the retained image (R310). -/
def inTagArea (s : State) (loc : Nat) : Bool :=
  (s.rd ENC_TAG_BASE.base != 0 && decide (s.rd ENC_TAG_BASE.base * 2 ^ 20 ≤ loc)) ||
    (rgEnabled s 31 && decide (0x14000000 ≤ loc) && decide (loc ≤ 0x18FFFFFF))

/-- The rights class of an initiator (R255). -/
def rightsClass (i : Nat) : Nat :=
  if i < 0x20 then 0 else if i < 0x40 then 1 else if i < 0x80 then 3 else if i < 0x90 then 4 else if i < 0xA0 then 5
  else if i = 0xA0 then 6 else 7

/-- The class of a request: a debug session's is class 2, though the Porter makes it. -/
def classOf (r : NocReq) : Nat := if r.owner == .debug then 2 else rightsClass (r.init % 256)

/-- The class of the outstanding request of an initiator and tag. -/
def classAt (s : State) (init tag : Nat) : Nat := (reqOf s init tag).elim (rightsClass (init % 256)) classOf

/-- The right that a class has under a key ID, the debug class only while its session is granted it (R285): 0 NONE, 1 READ, 2 READ_WRITE, 3 CIPHERTEXT. -/
def rightOf (s : State) (key cls : Nat) : Nat :=
  if cls = 2 ∧ !(s.rdb SEC_STATUS.debug_open && bit (s.rd SEC_STATUS.grants) 1) then 0 else bits (s.rd ENC_RIGHTS.rights key) (2 * cls) 2

/-! ## Failures and denials -/

/-- ENC_FAIL_PA and a fault-log entry record a counted failure or denial (R254, R263, R272). -/
def logFail (s : State) (pa init : Nat) (denial : Bool) (cls : Nat) : State :=
  let init := init % 256
  let s1 := (((s.wrb ENC_FAIL_PA_LO.kind denial).wr ENC_FAIL_PA_LO.pa_lo (pa / 64)).wr ENC_FAIL_PA_HI.pa_hi (pa / 2 ^ 32)).wr
    ENC_FAIL_PA_HI.initiator init
  fault s1 .encFailure init (pa % 2 ^ 56 + cls * 2 ^ 56 + b2n denial * 2 ^ 63) (die := 0)

/-- A denial under R254 or R255. -/
def logDenial (s : State) (pa init : Nat) (cls : Nat := rightsClass (init % 256)) : State :=
  logFail ((nocLogDeny s pa init).inc ENC_ERR_COUNTS.rights_denied) pa init true cls

/-- A tag failure that is counted (R263). -/
def logIntegrity (s : State) (pa init : Nat) (cls : Nat := rightsClass (init % 256)) : State :=
  logFail (s.inc ENC_ERR_COUNTS.integrity_fail) pa init false cls

/-! ## Sweep position and keys (R268) -/

/-- The running sweep of region `n`. -/
def runningSweep (s : State) (n : Nat) : Option Sweep :=
  match s.enc.sweeps with
  | w :: _ => if w.region = n then some w else none
  | [] => none

/-- Key ID and epoch under which line `j` of region `n` stands. -/
def lineKey (s : State) (n j : Nat) : Nat × Nat :=
  let now := (rgKey s n, s.rd ENC_REGION_EPOCH.epoch n)
  match runningSweep s n with
  | some w => if s.rd ENC_REGION_PROGRESS.line n ≤ j then (w.oldKey, w.oldEpoch) else now
  | none => now

/-- Key material of a slot; an unlisted slot holds zero. -/
def keyMat (s : State) (k : Nat) : BitVec 512 := sparseGet 0 s.enc.keys k

/-- The GCM key of a line (R257): slot bits [255:0], or for a narrow region the key derived for the epoch. -/
def gcmKey (s : State) (mode key epoch : Nat) : BitVec 256 :=
  let k := BitVec.ofNat 256 (keyMat s key).toNat
  if mode = moNarrow then
    let block (i : Nat) : BitVec 128 := BitVec.ofNat 128 (epoch % 2 ^ 32 + i * 2 ^ 32)
    BitVec.ofNat 256 ((aes256 k (block 0)).toNat + (aes256 k (block 1)).toNat * 2 ^ 128)
  else k

/-- The 96-bit IV of a line (R257): the counter field, then the line index. -/
def gcmIv (mode epoch counter line : Nat) : BitVec 96 :=
  let field := if mode = moNarrow then counter % 2 ^ 28 + epoch % 2 ^ 32 * 2 ^ 28 else counter % 2 ^ 64
  BitVec.ofNat 96 (field + line % 2 ^ 30 * 2 ^ 64)

def TagEntry.zero : TagEntry := { tag := 0, counter := 0 }

/-- The poison mark of a counter word (R259): bit 31 of a narrow one; a wide one that is all ones. -/
def marked (mode : Nat) (w : BitVec 64) : Bool := if mode = moNarrow then w.getLsbD 31 else w == BitVec.allOnes 64

/-- The counter word with the poison mark on it. -/
def markWord (mode : Nat) (w : BitVec 64) : BitVec 64 := if mode = moNarrow then w ||| 0x80000000 else BitVec.allOnes 64

/-- The counter in a counter word. -/
def counterIn (mode : Nat) (w : BitVec 64) : Nat := if mode = moNarrow then w.toNat % 2 ^ 28 else w.toNat

def tagEntry (s : State) (line : Nat) : TagEntry := sparseGet TagEntry.zero s.enc.tags line

def setTag (s : State) (line : Nat) (e : TagEntry) : State :=
  { s with enc := { s.enc with tags := sparseSet TagEntry.zero s.enc.tags line e } }

/-- Encrypts a line for region `n` at counter `ctr` under key and epoch `k`: the stored line and its tag entry (R256, R257). -/
def sealLine (s : State) (n line ctr : Nat) (k : Nat × Nat) (d : BitVec 512) : BitVec 512 × Option TagEntry :=
  let mode := rgMode s n
  if mode = moXts then (xtsSeal (keyMat s k.1) line d, none)
  else if mode = moPlain then (d, none)
  else
    let key := gcmKey s mode k.1 k.2
    let iv := gcmIv mode k.2 ctr line
    let c := d ^^^ gcmStream key iv
    (c, some { tag := gcmTag key iv c, counter := BitVec.ofNat 64 ctr })

/-- Decrypts a stored line of region `n` under key and epoch `k`; none where its tag differs (R263). -/
def openLine (s : State) (n line : Nat) (k : Nat × Nat) (c : BitVec 512) : Option (BitVec 512) :=
  let mode := rgMode s n
  if mode = moXts then some (xtsOpen (keyMat s k.1) line c)
  else if mode = moPlain then some c
  else
    let e := tagEntry s line
    let key := gcmKey s mode k.1 k.2
    let iv := gcmIv mode k.2 (counterIn mode e.counter) line
    if gcmTag key iv c = e.tag then some (c ^^^ gcmStream key iv) else none

/-- Region `n` keeps tag entries. -/
def rgIntegrity (s : State) (n : Nat) : Bool := rgMode s n == moWide || rgMode s n == moNarrow

/-- The tag entry of a line of region `n` carries the poison mark. -/
def lineMarked (s : State) (n line : Nat) : Bool := marked (rgMode s n) (tagEntry s line).counter

/-- The poison mark is put on a line's tag entry. -/
def markLine (s : State) (n line : Nat) : State :=
  setTag s line { tagEntry s line with counter := markWord (rgMode s n) (tagEntry s line).counter }

/-! ## Answers to the network -/

/-- The engine ends its operation for a request: one more line is served with status `st` and, for a read, data `d`,
`late` hc after its controller (R261). -/
def answerLine (s : State) (init tag : Nat) (st : Nat) (d : BitVec 512) (late : Nat := 0) : State :=
  let s1 := { s with enc := { s.enc with ops := s.enc.ops.filter (fun o => !(o.req.init == init && o.req.tag == tag)) } }
  match reqOf s1 init tag with
  | none => s1
  | some r =>
    let s2 := if r.write then s1
      else mapReq s1 init tag (fun r =>
        { r with respData := r.respData ++ [d], respPoison := if st = 0 then r.respPoison else r.respPoison ++ [r.done] })
    served s2 init tag r.len st (hcs s late)

/-- A line refused ACCESS_DENIED: zero data marked poisoned, and nothing written. -/
def denyLine (s : State) (r : DramReq) : State := answerLine s r.init r.tag Status.accessDenied.code 0

/-- The operation in the engine for a request. -/
def opOf (s : State) (init tag : Nat) : Option EncOp :=
  s.enc.ops.find? (fun o => o.req.init == init && o.req.tag == tag)

def mapOp (s : State) (init tag : Nat) (f : EncOp → EncOp) : State :=
  { s with enc := { s.enc with ops := s.enc.ops.map (fun o => if o.req.init == init && o.req.tag == tag then f o else o) } }

/-! ## Sweeps: queueing, start and end (R268 to R270) -/

/-- ENC_STATUS and the regions' sweep_queued show the sweeps. -/
def showSweeps (s : State) : State :=
  let q := s.enc.sweeps.drop 1
  let s1 := (s.wrb ENC_STATUS.sweep_busy (!s.enc.sweeps.isEmpty)).wr ENC_STATUS.sweeps_queued q.length
  let s2 := match s.enc.sweeps with | w :: _ => s1.wr ENC_STATUS.sweep_region w.region | [] => s1
  (List.range 32).foldl (fun s n => s.wrb ENC_REGION_STATUS.sweep_queued (q.any (fun w => w.region == n)) n) s2

/-- The sweep at the head of the queue starts: an epoch sweep raises the epoch; a rekey commits and installs the new key ID. -/
def startSweep (s : State) : State :=
  match s.enc.sweeps with
  | [] => s
  | w :: rest =>
    let n := w.region
    let ep := s.rd ENC_REGION_EPOCH.epoch n
    let w1 := { w with oldKey := rgKey s n, oldEpoch := ep, due := s.now }
    let s1 := ({ s with enc := { s.enc with sweeps := w1 :: rest } }).wr ENC_REGION_PROGRESS.line 0 n
    match w.kind with
    | .init => s1.wr ENC_REGION_EPOCH.epoch 0 n
    | .epoch => s1.wr ENC_REGION_EPOCH.epoch (ep + 1) n
    | .rekey id newKey =>
      ((((commit s1 id).wr ENC_REGION_CFG.key_id newKey n).wr ENC_REGION_STATUS.prev_key_id (rgKey s n) n).wr
        ENC_REGION_EPOCH.epoch 0 n).wr ENC_REGION_STATUS.state rsRekeying n

/-- A sweep is queued behind those that wait, and starts at once if none runs. -/
def queueSweep (s : State) (n : Nat) (k : SweepKind) : State :=
  let w : Sweep := { region := n, kind := k, oldKey := rgKey s n, oldEpoch := s.rd ENC_REGION_EPOCH.epoch n, due := s.now }
  let s1 := { s with enc := { s.enc with sweeps := s.enc.sweeps ++ [w] } }
  showSweeps (if s.enc.sweeps.isEmpty then startSweep s1 else s1)

/-- The region has a sweep queued or running. -/
def hasSweep (s : State) (n : Nat) : Bool := s.enc.sweeps.any (fun w => w.region == n)

/-- The running sweep has passed the last line: its region becomes ACTIVE, a REGION_REKEY completes, with which the region's lost metadata
ends (R267), and the next sweep starts. -/
def endSweep (s : State) : State :=
  match s.enc.sweeps with
  | [] => s
  | w :: rest =>
    let s1 := { s with enc := { s.enc with sweeps := rest } }
    let s2 := match w.kind with
      | .init => s1.wr ENC_REGION_STATUS.state rsActive w.region
      | .epoch => s1
      | .rekey id _ =>
        let found := s1.enc.metaLost.filter (fun p =>
          decide (p.1 < rgBase s w.region * 64) || decide (rgBase s w.region * 64 + rgLines s w.region ≤ p.1))
        let s1 := { s1 with enc := { s1.enc with metaLost := found } }
        finish ((s1.wr ENC_REGION_STATUS.state rsActive w.region).wr ENC_REGION_STATUS.prev_key_id 0 w.region) id .success
    showSweeps (startSweep s2)

/-- A counter has reached 0x800_0000: an epoch sweep is queued if none is queued or running; the last epoch is not left (R269). -/
def epochSweep (s : State) (n : Nat) : State :=
  if hasSweep s n then s
  else if s.rd ENC_REGION_EPOCH.epoch n = 0xFFFFFFFF then fault s .encEpochExhausted n 0 (die := 0)
  else queueSweep s n .epoch

/-! ## Metadata (R263, R267) -/

/-- The location of the tag entry of line `j` of region `n`, 8 bytes, in the region's metadata (R258). -/
def tagLoc (s : State) (n j : Nat) : Nat := s.rd ENC_REGION_META.meta n * 4096 + 8 * j

/-- The location of the counter of line `j`: behind the tags, 8 bytes in a wide region and 4 in a narrow one (R258). -/
def counterLoc (s : State) (n j : Nat) : Nat :=
  s.rd ENC_REGION_META.meta n * 4096 + rgLines s n * 8 + (if rgMode s n = moNarrow then 4 else 8) * j

/-- The 64 bytes of region `n`'s metadata at a location: eight tags, eight wide counters or sixteen narrow ones (R258, R259). -/
def metaData (s : State) (n loc : Nat) : BitVec 512 :=
  let line (j : Nat) : TagEntry := tagEntry s (rgBase s n * 64 + j)
  let pack (w : Nat) (f : Nat → BitVec 64) : BitVec 512 :=
    BitVec.ofNat 512 ((List.range (512 / w)).foldl (fun a i => a + (f i).toNat % 2 ^ w * 2 ^ (w * i)) 0)
  if loc < counterLoc s n 0 then pack 64 (fun i => (line ((loc - tagLoc s n 0) / 8 + i)).tag)
  else if rgMode s n = moNarrow then pack 32 (fun i => (line ((loc - counterLoc s n 0) / 4 + i)).counter)
  else pack 64 (fun i => (line ((loc - counterLoc s n 0) / 8 + i)).counter)

/-- The enabled integrity region whose metadata holds a location. -/
def metaRegion (s : State) (loc : Nat) : Option Nat :=
  (List.range 32).find? (fun n => rgEnabled s n && rgIntegrity s n && decide (tagLoc s n 0 ≤ loc) && decide (loc < counterLoc s n (rgLines s n)))

/-- The bytes of a cached metadata line: those of its region's entries, or what was kept of them when its region was disabled. -/
def cachedData (s : State) (e : CacheLine) : BitVec 512 :=
  match e.kept with
  | some d => d
  | none => match metaRegion s (e.line * 64) with | some n => metaData s n (e.line * 64) | none => 0

/-- The set of the tag cache that a metadata line goes into, and the cache with another one. -/
def cacheSet (s : State) (m : Nat) : List CacheLine := sparseGet [] s.enc.cache (m % 1024)
def setCache (s : State) (m : Nat) (l : List CacheLine) : State :=
  { s with enc := { s.enc with cache := sparseSet [] s.enc.cache (m % 1024) l } }

/-- The metadata line is in the tag cache. -/
def inCache (s : State) (m : Nat) : Bool := (cacheSet s m).any (fun p => p.line == m)

/-- A metadata line, by its location / 64, is used: it becomes the last used of its set in the tag cache, and where the set then holds nine, the
one used longest ago leaves, a dirty one as a full-line write (R260), which an OFFLINE controller discards (R237). None while that write has no
room. -/
def useMeta (s : State) (m : Nat) (dirty : Bool) : Option State :=
  let l := cacheSet s m
  let l1 := { line := m, dirty := dirty || l.any (fun p => p.line == m && p.dirty) } :: l.filter (fun p => p.line != m)
  let s1 := setCache s m (l1.take 8)
  match (l1.drop 8).head? with
  | none => some s1
  | some e =>
    let c := ctrlOfLoc s (e.line * 64)
    if !e.dirty || s.rd DRC_STATUS.state c == drOffline then some s1
    else if !ctrlAccepts s c || !writeRoom s c e.line then none
    else some (enqueueWrite s1 c { init := 0xFF, tag := 0, pa := e.line * 64, line := e.line, op := .write, data := cachedData s e,
                                   be := BitVec.allOnes 64, qos := 1, since := s.now })

/-- The metadata lines of line `j` of region `n`: its tag's and its counter's. -/
def metaLines (s : State) (n j : Nat) : List Nat := [tagLoc s n j / 64, counterLoc s n j / 64]

/-- Those of them that the tag cache does not hold. -/
def metaMissing (s : State) (n j : Nat) : List Nat := (metaLines s n j).filter (fun m => !inCache s m)

/-- The tag entry of line `j` of region `n` is used, its two metadata lines in the cache. -/
def useEntry (s : State) (n j : Nat) (dirty : Bool) : Option State :=
  (metaLines s n j).foldl (fun a m => a.bind (fun s => useMeta s m dirty)) (some s)

/-- The hc that the engine adds to a request of a mode, whose metadata was in the cache or not (R261). -/
def engineHc (mode : Nat) (hit : Bool) : Nat := if mode = moPlain then 2 else if mode = moXts then 14 else if hit then 20 else 44

/-- The cached metadata of a line has changed. -/
def dirtyMeta (s : State) (n line : Nat) : State :=
  (metaLines s n (line - rgBase s n * 64)).foldl (fun s m =>
    setCache s m ((cacheSet s m).map (fun p => if p.line = m then { p with dirty := true } else p))) s

/-- A region is disabled: what the cache holds dirty of its metadata is still to be written. -/
def keepMeta (s : State) (n : Nat) : State :=
  { s with enc := { s.enc with cache := s.enc.cache.map (fun p => (p.1, p.2.map (fun e =>
    if metaRegion s (e.line * 64) = some n then { e with kept := some (cachedData s e) } else e))) } }

/-- The lines of region `n` that a metadata line covers: those whose tag, or counter, lies in its 64 bytes. -/
def coveredLines (s : State) (n m : Nat) : List Nat :=
  let j := if m * 64 < counterLoc s n 0 then (m * 64 - tagLoc s n 0) / 8
    else (m * 64 - counterLoc s n 0) / (if rgMode s n = moNarrow then 4 else 8)
  let k := if m * 64 < counterLoc s n 0 || rgMode s n != moNarrow then 8 else 16
  (List.range k).map (fun i => rgBase s n * 64 + j + i)

/-- A metadata line reported POISONED: every line it covers is lost until a rekey, counted once. -/
def loseMeta (s : State) (n m pa init cls : Nat) : State :=
  let lost := (coveredLines s n m).foldl (fun x l => sparseSet false x l true) s.enc.metaLost
  logIntegrity { s with enc := { s.enc with metaLost := lost } } pa init cls

/-- A metadata line is read with the bits `d` changed (R238): so are the words of the entries in it. -/
def changeMeta (s : State) (n m : Nat) (d : BitVec 512) : State :=
  if d = 0 then s
  else
    let isTag := decide (m * 64 < counterLoc s n 0)
    let w := if !isTag && rgMode s n == moNarrow then 32 else 64
    (coveredLines s n m).zipIdx.foldl (fun s p =>
      let x := BitVec.ofNat 64 (bits d.toNat (w * p.2) w)
      let e := tagEntry s p.1
      setTag s p.1 (if isTag then { e with tag := e.tag ^^^ x } else { e with counter := e.counter ^^^ x })) s

/-- The line's metadata is lost. -/
def isMetaLost (s : State) (line : Nat) : Bool := sparseGet false s.enc.metaLost line

/-! ## A request at the engine (R254, R255, R262 to R266) -/

/-- What R254 and R255 decide of a line: refusal, or the key ID, the region and whether the stored line is delivered as it stands. -/
inductive Verdict where
  | deny
  | plain
  | region (n key : Nat) (stored : Bool)
  deriving DecidableEq, Repr

def resolve (s : State) (r : NocReq) (loc : Nat) : Verdict :=
  let named := if r.kidValid then r.kid else keyOf r.pa
  let cls := classOf r
  let may (key : Nat) (go : Bool → Verdict) : Verdict :=
    let right := rightOf s key cls
    if right = 0 ∨ (r.write ∧ right ≠ 2) then .deny else go (right == 3)
  if inTagArea s loc then .deny
  else
    match regionOf s loc with
    | none => if named = 0 then may 0 (fun _ => .plain) else .deny
    | some n =>
      if rgState s n ≠ rsActive ∧ rgState s n ≠ rsRekeying then .deny
      else
        let prev := s.rd ENC_REGION_STATUS.prev_key_id n
        let key := if named = 0 then rgKey s n else named
        let known := key == rgKey s n || (rgState s n == rsRekeying && key == prev)
        if !known || (key != 0 && slotState s key == 0) then .deny else may (rgKey s n) (fun c => .region n key c)

/-- The enabled bytes of `d` over `old`. -/
def mergeLine (be : BitVec 64) (d old : BitVec 512) : BitVec 512 :=
  BitVec.ofNat 512 ((List.range 64).foldl (fun acc i =>
    acc + (((if be.getLsbD i then d else old).toNat >>> (8 * i)) % 256) * 2 ^ (8 * i)) 0)

/-- A full-line write of plaintext `d` to line `line` of region `n`, sealed under the line's own key with its counter raised (R264); none
where the narrow counter is at its limit (R266). -/
def sealWrite (s : State) (n line : Nat) (d : BitVec 512) : Option (BitVec 512 × Option TagEntry) :=
  let k := lineKey s n (line - rgBase s n * 64)
  let ctr := counterIn (rgMode s n) (tagEntry s line).counter + 1
  if rgMode s n = moNarrow ∧ 0xFFFFFFF < ctr then none
  else some (sealLine s n line (if rgMode s n ≠ moNarrow ∧ 2 ^ 64 - 1 ≤ ctr then 0 else ctr) k d)

/-- A write waits for the sweep of its region, and counts once (R266). -/
def holdWrite (s : State) (init tag : Nat) : State :=
  if s.enc.held.contains (init, tag) then s
  else { s with enc := { s.enc with held := s.enc.held ++ [(init, tag)] } }.inc ENC_ERR_COUNTS.held_writes

/-- The engine's operation on a request ends with status `st`: what it has queued at the controllers for itself is dropped. -/
def endOp (s : State) (init tag st : Nat) (d : BitVec 512) (late : Nat := 0) : State :=
  let own (q : DramReq) : Bool := q.init == init && q.tag == tag && (q.use == .data || q.use == .part)
  let cut (x : DramCtrl) : DramCtrl := { x with reads := x.reads.filter (fun q => !own q) }
  answerLine { s with dram := { s.dram with c0 := cut s.dram.c0, c1 := cut s.dram.c1 } } init tag st d late

/-- A full-line write of an encrypted region whose tag entry can be read: it is sealed and goes to the controller, or waits for the sweep
(R264, R266). -/
def encWrite (s : State) (o : EncOp) (n : Nat) : State :=
  let init := o.req.init
  let tag := o.req.tag
  let s0 := { s with enc := { s.enc with ops := s.enc.ops.filter (fun o => !(o.req.init == init && o.req.tag == tag)) } }
  match sealWrite s n o.req.line o.req.data with
  | none => holdWrite s0 init tag
  | some (c, e) =>
    { s0 with enc := { s0.enc with
        held := s.enc.held.erase (init, tag),
        ops := s0.enc.ops ++ [{ o with req := { o.req with op := .write, data := c, be := BitVec.allOnes 64 }, merge := false, entry := e,
                                       stage := .toController, need := [], sealing := false }] } }

/-- An operation keeps later requests to its line waiting: it has still to enqueue its access to the controller (R262). -/
def holdsLine (o : EncOp) : Bool := o.stage == .toController || o.merge || o.sealing || !o.need.isEmpty

/-- The line is taken by an operation, or by the running sweep (R262, R268). -/
def lineBusy (s : State) (line : Nat) : Bool :=
  s.enc.ops.any (fun o => o.req.line == line && holdsLine o) ||
    (match s.enc.sweeps with
     | w :: _ => w.work.isSome && rgBase s w.region * 64 + s.rd ENC_REGION_PROGRESS.line w.region == line
     | [] => false)

/-- A metadata line is being read. -/
def metaReading (s : State) (m : Nat) : Bool :=
  (s.dram.c0.reads ++ s.dram.c1.reads).any (fun q => q.use == .metadata && q.line == m)

/-- The reads of metadata lines `l` that are not under way enter their controllers' read queues, those with room for them, for an access at `pa` of `init`
and `tag`; none where a controller refuses (R237, R261). -/
def readMeta (s : State) (l : List Nat) (pa init tag : Nat) (qos : Nat) : Option State :=
  l.foldl (fun a m => a.bind (fun s =>
    let c := ctrlOfLoc s (m * 64)
    if metaReading s m then some s
    else if s.rd DRC_STATUS.state c = drOffline then none
    else if !readRoom s c then some s
    else some (enqueueRead s c { init := init, tag := tag, pa := pa, line := m, op := .read, data := 0, be := BitVec.allOnes 64, qos := qos,
                                 since := s.now, use := .metadata }))) (some s)

/-- The metadata reads of an operation that waits for them enter the queues; a refused one ends it (R263). -/
def opMeta (s : State) (init tag : Nat) : State :=
  match opOf s init tag with
  | none => s
  | some o =>
    match readMeta s o.need o.req.pa init tag o.req.qos with
    | some t => t
    | none => endOp s init tag Status.accessDenied.code 0 o.late

/-- The work of the sweep on its line, changed by `f`. -/
def mapWork (s : State) (f : SweepWork → SweepWork) : State :=
  { s with enc := { s.enc with sweeps := s.enc.sweeps.map (fun (w : Sweep) => { w with work := w.work.map f }) } }

/-- A metadata line is poisoned: what waits for it ends INTEGRITY_FAIL (R263). -/
def metaBad (s : State) (q : DramReq) : State :=
  let s1 := match metaRegion s (q.line * 64) with
    | some n => loseMeta s n q.line q.pa q.init (classAt s q.init q.tag)
    | none => s
  let s2 := (s1.enc.ops.filter (fun o => o.need.contains q.line)).foldl (fun s o =>
    endOp s o.req.init o.req.tag Status.integrityFail.code 0 o.late) s1
  mapWork s2 (fun k => { k with need := k.need.erase q.line, lost := k.lost || k.need.contains q.line })

/-- A metadata line has been read: it enters the tag cache, and what waited for it goes on. None while the line that leaves the cache has no room. -/
def metaIn (s : State) (q : DramReq) : Option State :=
  let waits (o : EncOp) : Bool := o.need.contains q.line
  (useMeta s q.line (s.enc.ops.any (fun o => waits o && (o.req.op == .write || o.merge)))).map (fun s =>
    let s1 := mapWork { s with enc := { s.enc with ops := s.enc.ops.map (fun (o : EncOp) => { o with need := o.need.erase q.line }) } }
      (fun k => { k with need := k.need.erase q.line })
    (s1.enc.ops.filter (fun o => o.sealing && o.need.isEmpty)).foldl (fun s o =>
      match o.region with | some n => encWrite s o n | none => s) s1)

/-- A partial write to a plaintext line has read it: merged and enqueued as a full write, unless it is poisoned (R235). -/
def partDone (s : State) (q : DramReq) (r : LineRead) : State :=
  match opOf s q.init q.tag with
  | none => s
  | some o =>
    if r.poison then answerLine s q.init q.tag Status.poisoned.code 0 o.late
    else
      let w := { o.req with data := mergeLine o.req.be o.req.data r.data, be := BitVec.allOnes 64, since := s.now }
      answerLine (enqueueWrite s (ctrlOfLoc s (q.line * 64)) w) q.init q.tag 0 0 o.late

/-- What a read of a controller delivers goes to what it was for. -/
def readBack (s : State) (q : DramReq) (r : LineRead) : Option State :=
  match q.use with
  | .data => some (mapOp s q.init q.tag (fun o => { o with stage := .returned (if r.poison then Status.poisoned.code else 0) r.data }))
  | .part => some (partDone s q r)
  | .metadata =>
    if r.poison then some (metaBad s q)
    else metaIn (match metaRegion s (q.line * 64) with | some n => changeMeta s n q.line (r.data ^^^ (dramLine s q.line).data) | none => s) q
  | .sweep =>
    some (mapWork s (fun k => { k with data := some (r.data, r.poison) }))

/-- The next read of a controller issues and its data returns to the engine (R232, R234, R238 to R240). Reads wait while a drain goes on, where
held banks keep it from its end (R233). -/
def dramData (c : Nat) (f : LineFind) (s : State) : State :=
  if !ctrlAccepts s c then s
  else
    match nextRead s c with
    | none => s
    | some q =>
      let s0 := settleLine s c q.line q.since
      if (ctrl s0 c).draining then s0
      else
        let x := ctrl s0 c
        let r := readLine (setCtrl s0 c { x with reads := x.reads.erase q }) q.line f q.pa q.init q.since
        (readBack r.2 q r.1).getD s0

/-- The read that `p` picks out issues now, where it is the next of controller `c`. -/
def serveRead (c : Nat) (p : DramReq → Bool) (f : LineFind) (s : State) : State :=
  if (nextRead s c).any p then dramData c f s else s

/-- The metadata reads `l` issue now, each where it is the next of its controller, with what the code finds in a tag and in a counter line. -/
def serveMeta (n : Nat) (l : List Nat) (m : MetaFind) (s : State) : State :=
  l.foldl (fun s x =>
    serveRead (ctrlOfLoc s (x * 64)) (fun q => q.use == .metadata && q.line == x) (if x * 64 < counterLoc s n 0 then m.tag else m.counter) s) s

/-- The next line of a DRAM request that has come to its controller's router reaches the engine, with what is found in the metadata lines that it has
to read (R261). -/
def encRequest (init tag : Nat) (m : MetaFind) (s : State) : State :=
  let s := arrive s init tag
  match reqOf s init tag with
  | none => s
  | some r =>
    let loc := locOf r.pa + 64 * r.done
    let line := loc / 64
    if targetOf loc ≠ .dram ∨ !servable s r ∨ (opOf s init tag).isSome ∨ lineBusy s line then s
    else if r.write && r.badFlits.contains r.done then answerLine (advanceTo s (reachTick s r)) init tag Status.poisoned.code 0
    else
      let s := advanceTo s (reachTick s r)
      let pa := r.pa + 64 * r.done
      let d := r.data.getD r.done 0
      let part := r.write && r.len == 1 && r.be != BitVec.allOnes 64
      let be := if part then r.be else BitVec.allOnes 64
      let q : DramReq := { init := init, tag := tag, pa := pa, line := line, op := if r.write then .write else .read,
                           data := d, be := be, qos := r.qos, since := s.now }
      let put (s : State) (o : EncOp) : State := { s with enc := { s.enc with ops := s.enc.ops ++ [o] } }
      let op (key : Nat) (rg : Option Nat) (stored : Bool) : EncOp :=
        { req := q, key := key, region := rg, stored := stored, merge := false, entry := none, stage := .toController,
          late := engineHc moPlain true }
      match resolve s r loc with
      | .deny => answerLine (logDenial s pa init (classOf r)) init tag Status.accessDenied.code 0
      | .plain => put s (op 0 none false)
      | .region n key stored =>
        let integrity := rgIntegrity s n && !stored
        let j := line - rgBase s n * 64
        let need := if integrity then metaMissing s n j else []
        let o : EncOp := { op key (some n) stored with late := engineHc (rgMode s n) need.isEmpty, need := need }
        if integrity && isMetaLost s line then answerLine s init tag Status.integrityFail.code 0
        else
        let s := if integrity then ((metaLines s n j).filter (inCache s)).foldl (fun s m => (useMeta s m r.write).getD s) s else s
        let o : EncOp :=
          if !r.write || rgMode s n = moPlain then o
          else if part then { o with req := { q with op := .read }, merge := true }
          else { o with sealing := true }
        let s := put s o
        if need.isEmpty then (if o.sealing then encWrite s o n else s) else serveMeta n need m (opMeta s init tag)

/-! ## At the controller -/

/-- An operation's read enters its controller's read queue (R232), beside the reads of its metadata that had no room (R261); an OFFLINE controller denies
it (R237). -/
def dramRead (init tag : Nat) (s : State) : State :=
  let s := opMeta s init tag
  match opOf s init tag with
  | none => s
  | some o =>
    let c := ctrlOfLoc s (o.req.line * 64)
    if o.req.op ≠ .read ∨ o.stage ≠ .toController then s
    else if s.rd DRC_STATUS.state c = drOffline then denyLine s o.req
    else if !readRoom s c then s
    else mapOp (enqueueRead s c o.req) init tag (fun o => { o with stage := .queued })

/-- The tag entry of a write is installed, and an epoch sweep queued at 0x800_0000 (R264, R269). -/
def installTag (s : State) (o : EncOp) : State :=
  match o.entry, o.region with
  | some e, some n =>
    let s1 := setTag s o.req.line e
    if rgMode s1 n = moNarrow ∧ counterIn moNarrow e.counter = 0x8000000 then epochSweep s1 n else s1
  | _, _ => s

/-- An operation's full-line write enters the write queue and is acknowledged there (R233, R264), once it is sealed. -/
def dramWrite (init tag : Nat) (s : State) : State :=
  let s := opMeta s init tag
  match opOf s init tag with
  | none => s
  | some o =>
    let c := ctrlOfLoc s (o.req.line * 64)
    if o.req.op ≠ .write ∨ o.stage ≠ .toController ∨ o.sealing ∨ o.req.be ≠ BitVec.allOnes 64 then s
    else if s.rd DRC_STATUS.state c = drOffline then denyLine s o.req
    else if !ctrlAccepts s c ∨ !writeRoom s c o.req.line then s
    else answerLine (installTag (enqueueWrite s c { o.req with since := s.now }) o) init tag 0 0 o.late

/-- A partial write to a plaintext line: its read enters the read queue as any other (R232, R235), and issues at once where it is the next; once read,
the line is merged and enqueued as a full write. -/
def dramPartial (init tag : Nat) (f : LineFind) (s : State) : State :=
  match opOf s init tag with
  | none => s
  | some o =>
    let c := ctrlOfLoc s (o.req.line * 64)
    if o.req.op ≠ .write ∨ o.sealing ∨ o.req.be = BitVec.allOnes 64 then s
    else if o.stage = .toController ∧ s.rd DRC_STATUS.state c = drOffline then denyLine s o.req
    else
      let s1 := if o.stage = .toController ∧ readRoom s c then
          mapOp (enqueueRead s c { o.req with use := .part }) init tag (fun o => { o with stage := .queued })
        else s
      serveRead c (fun q => q.use == .part && q.init == init && q.tag == tag) f s1

/-- Data returned from the controller is decrypted and checked (R263), or merged and sealed for a partial write (R265). -/
def encReadComplete (init tag : Nat) (s : State) : State :=
  match opOf s init tag with
  | none => s
  | some o =>
    match o.stage with
    | .returned st c =>
      let line := o.req.line
      if !o.need.isEmpty then s
      else if st ≠ 0 then
        if o.merge then answerLine s init tag st 0 o.late
        else
          let fr := s.fresh 512
          answerLine fr.2 init tag st fr.1 o.late
      else if o.stored then answerLine s init tag 0 c o.late
      else
        match o.region with
        | none => answerLine s init tag 0 c o.late
        | some n =>
          if rgIntegrity s n && lineMarked s n line then answerLine s init tag Status.integrityFail.code 0 o.late
          else
            match openLine s n line (lineKey s n (line - rgBase s n * 64)) c with
            | none =>
              answerLine (logIntegrity (dirtyMeta (markLine s n line) n line) o.req.pa init (classAt s init tag)) init tag
                Status.integrityFail.code 0 o.late
            | some p =>
              if !o.merge then answerLine s init tag 0 p o.late
              else encWrite s { o with req := { o.req with data := mergeLine o.req.be o.req.data p } } n
    | _ => s

/-! ## Sweep lines (R268) -/

/-- The running sweep with its work on a line. -/
def setWork (s : State) (k : Option SweepWork) : State :=
  { s with enc := { s.enc with sweeps := match s.enc.sweeps with | w :: r => { w with work := k } :: r | [] => [] } }

/-- The line at which the running sweep stands. -/
def sweepAt (s : State) (w : Sweep) : Nat := rgBase s w.region * 64 + s.rd ENC_REGION_PROGRESS.line w.region

/-- The running sweep takes its next line into the engine when it is due, once no operation has it (R262, R268). An INIT sweep reads nothing of
it (DEDUCED, log entry 191). -/
def sweepTake (s : State) : State :=
  match s.enc.sweeps with
  | [] => s
  | w :: _ =>
    let c := ctrlOfLoc s (sweepAt s w * 64)
    if w.work.isSome ∨ !nocRunning s ∨ (!ctrlAccepts s c ∧ s.rd DRC_STATUS.state c ≠ drOffline) ∨ lineBusy s (sweepAt s w) then s
    else
      let s1 := advanceTo s w.due
      let j := s.rd ENC_REGION_PROGRESS.line w.region
      setWork s1 (some { need := if w.kind != .init && rgIntegrity s w.region && !isMetaLost s (sweepAt s w) then metaMissing s w.region j else [],
                         data := none, lost := isMetaLost s (sweepAt s w) })

/-- The reads of the running sweep's line enter the read queues, and issue where they are the next: its metadata with what `m` finds, its data with
`f`. -/
def sweepReads (f : LineFind) (m : MetaFind) (s : State) : State :=
  match s.enc.sweeps with
  | [] => s
  | w :: _ =>
    match w.work with
    | none => s
    | some k =>
      let line := sweepAt s w
      let c := ctrlOfLoc s (line * 64)
      if w.kind = .init ∨ s.rd DRC_STATUS.state c = drOffline then s
      else
        let s1 := match readMeta s k.need (line * 64) 0xFF 0 1 with
          | some t => t
          | none => setWork s (some { k with need := [], lost := true })
        let mine (q : DramReq) : Bool := q.use == .sweep && q.line == line
        let s2 := if k.data.isSome || (ctrl s1 c).reads.any mine || !readRoom s1 c then s1
          else enqueueRead s1 c { init := 0xFF, tag := 0, pa := line * 64, line := line, op := .read, data := 0, be := BitVec.allOnes 64, qos := 1,
                                  since := s.now, use := .sweep }
        serveRead c mine f (serveMeta w.region k.need m s2)

/-- The running sweep's line is rewritten, once what it needs has been read and the write queue has room, or its poison mark is; then the sweep goes to
the next line (R268). -/
def sweepStore (s : State) : State :=
  match s.enc.sweeps with
  | [] => s
  | w :: _ =>
    match w.work with
    | none => s
    | some k =>
      let n := w.region
      let line := sweepAt s w
      let c := ctrlOfLoc s (line * 64)
      let off := s.rd DRC_STATUS.state c == drOffline
      if !off && (!k.need.isEmpty || (w.kind != .init && k.data.isNone) || !ctrlAccepts s c || !writeRoom s c line) then s
      else
        match (if rgIntegrity s n then useEntry s n (line - rgBase s n * 64) true else some s) with
        | none => s
        | some s =>
        if !off && !writeRoom s c line then s
        else
        let store (s : State) (d : BitVec 512) : State :=
          let v := sealLine s n line 0 (rgKey s n, s.rd ENC_REGION_EPOCH.epoch n) d
          let s1 := enqueueWrite s c { init := 0xFF, tag := 0, pa := line * 64, line := line, op := .write, data := v.1, be := BitVec.allOnes 64,
                                       qos := 1, since := s.now }
          match v.2 with | some e => setTag s1 line e | none => s1
        let lost (s : State) : State :=
          if rgIntegrity s n then setTag s line { tag := 0, counter := markWord (rgMode s n) 0 } else s
        let d := k.data.getD (0, false)
        let s2 :=
          if off || k.lost || (rgIntegrity s n && w.kind != .init && lineMarked s n line) || d.2 then lost s
          else
            match (if w.kind = .init then some 0 else openLine s n line (w.oldKey, w.oldEpoch) d.1) with
            | some p => store s p
            | none => lost (logIntegrity s (line * 64) 0xFF)
        let s3 := if w.kind = .init then { s2 with enc := { s2.enc with metaLost := sparseSet false s2.enc.metaLost line false } } else s2
        let rate := max 1 (s.rd ENC_CTRL.sweep_rate)
        let s4 := { s3 with enc := { s3.enc with sweeps := { w with due := max s.now w.due + 256 * nsTicks / rate, work := none } :: s.enc.sweeps.drop 1 } }
        let j := s.rd ENC_REGION_PROGRESS.line n + 1
        let s5 := s4.wr ENC_REGION_PROGRESS.line j n
        if j < rgLines s n then s5 else endSweep s5

/-- The running sweep goes on with its line, or takes the next. -/
def sweepLine (f : LineFind) (m : MetaFind) (s : State) : State := sweepStore (sweepReads f m (sweepTake s))

/-! ## Regions (R251 to R253) -/

/-- Blocks `[a, b]` and `[c, d]` overlap. -/
def overlap (a b c d : Nat) : Bool := decide (a ≤ d) && decide (c ≤ b)

/-- The first check that region `n` fails when it is enabled with mode `mode` and key `key`; 0 where it passes (R252, R272). -/
def regionError (s : State) (n mode key : Nat) (reserved : Bool) : Nat :=
  let base := rgBase s n
  let limit := rgLimit s n
  let others := (List.range 32).filter (fun m => m != n && rgEnabled s m)
  let tag := s.rd ENC_TAG_BASE.base * 256
  let top := dramCapacity s / 4096
  let last' := if tag = 0 then top else min tag top
  let keyOk := if mode = moPlain then key == 0 else key != 0 && slotState s key == 1
  let mb := s.rd ENC_REGION_META.meta n
  let mEnd := mb + metaBlocks mode (limit + 1 - base) - 1
  let metaOk := tag != 0 && decide (tag ≤ mb) && decide (mEnd < top) &&
    others.all (fun m => !(rgIntegrity s m) ||
      !(overlap mb mEnd (s.rd ENC_REGION_META.meta m)
        (s.rd ENC_REGION_META.meta m + metaBlocks (rgMode s m) (rgLimit s m + 1 - rgBase s m) - 1)))
  if limit < base then 1
  else if others.any (fun m => overlap base limit (rgBase s m) (rgLimit s m)) then 2
  else if last' ≤ limit then 3
  else if !keyOk then 4
  else if ((mode == moWide || mode == moNarrow) && !metaOk) || (rgEnabled s 31 && overlap base limit 0x14000 0x18FFF) then 5
  else if reserved then 6
  else 0

/-- A write of ENC_REGION_CFG_n with enable = 1 (R252, R253, R272). -/
def regionEnable (n : Nat) (v : BitVec 32) (s : State) : State :=
  if s.rdb ENC_CTRL.lock ∨ rgEnabled s n then s.wr ENC_STATUS.refused 1
  else if n = 31 then s
  else
    let mode := bits v.toNat 1 2
    let key := bits v.toNat 8 6
    let reserved := bits v.toNat 3 5 != 0 || bits v.toNat 14 18 != 0
    let s1 := (s.wr ENC_REGION_CFG.mode mode n).wr ENC_REGION_CFG.key_id key n
    let e := regionError s1 n mode key reserved
    let s2 := s1.wr ENC_REGION_STATUS.error e n
    if e ≠ 0 then s2
    else
      let s3 := s2.wr ENC_REGION_CFG.enable 1 n
      if mode = moPlain then s3.wr ENC_REGION_STATUS.state rsActive n
      else queueSweep (s3.wr ENC_REGION_STATUS.state rsInit n) n .init

/-- A write of ENC_REGION_CFG_n with enable = 0. -/
def regionDisable (n : Nat) (v : BitVec 32) (s : State) : State :=
  if s.rdb ENC_CTRL.lock ∨ (rgEnabled s n ∧ (hasSweep s n ∨ n = 31)) then s.wr ENC_STATUS.refused 1
  else if n = 31 then s
  else if rgEnabled s n then
    ((keepMeta s n).wr ENC_REGION_CFG.enable 0 n).wr ENC_REGION_STATUS.state rsDisabled n
  else (s.wr ENC_REGION_CFG.mode (bits v.toNat 1 2) n).wr ENC_REGION_CFG.key_id (bits v.toNat 8 6) n

/-! ## Controllers that leave service (R236, R237, R312) -/

/-- The DRAM store of retained images is lost (R312). -/
def retainedLost (s : State) (c : Nat) : State :=
  if !rgEnabled s 31 then s
  else
    let s0 := { s with imgs := { s.imgs with ctx := s.imgs.ctx.map (fun (p : Nat × CtxImage) => (p.1, { p.2 with chain := [], oldChain := [], stagedChain := [] })) } }
    let s1 := (List.range 8).foldl (fun s n => s.wr CFG_CTX_IMAGE.retained_64k 0 n) s0
    fault (s1.wr CFG_RETAIN_STATUS.store_lost 1) .retainedStoreLost c 0 (die := 0)

/-- A read of an OFFLINE controller is refused: what it was for ends ACCESS_DENIED, and a sweep goes on without it (R237, R263). -/
def denyRead (s : State) (q : DramReq) : State :=
  match q.use with
  | .data | .part => denyLine s q
  | .metadata =>
    let s1 := (s.enc.ops.filter (fun o => o.need.contains q.line)).foldl (fun s o =>
      endOp s o.req.init o.req.tag Status.accessDenied.code 0 o.late) s
    mapWork s1 (fun k => { k with need := k.need.erase q.line, lost := k.lost || k.need.contains q.line })
  | .sweep => s

/-- The full retraining of a subchannel ends with what it found for its groups; a group with no passing step fails it (R228, R236). -/
def fullRetrainEnd (c : Nat) (res : List GroupTrain) (s : State) : State :=
  let x := ctrl s c
  let go (sub : Nat) : State :=
    if res.any groupFails then retainedLost (goOffline s c denyRead) c
    else
      let s1 := setCtrl s c (x.setSub sub { x.sub sub with full := none, alertRun := 0 })
      drainOn (showRetrain ((res.take 10).zipIdx.foldl (fun s p => takeGroup s c (10 * sub + p.2) p.1) s1) c) c
  if x.sub0.full.isSome then go 0 else if x.sub1.full.isSome then go 1 else s

/-! ## Meanings -/

/-- ENC_REQUEST (R254, R255, R262 to R266): the next line of the request of `init` and `tag`, with what the metadata read finds. -/
def execEncRequest (init : Nat) (tag : Fin 256) (metadata : MetaFind) (s : State) : Res :=
  .next (encRequest init tag metadata s)

/-- ENC_READ_COMPLETE (R263, R265). -/
def execEncReadComplete (init : Nat) (tag : Fin 256) (s : State) : Res := .next (encReadComplete init tag s)

/-- DRAM_READ_REQUEST (R232, R237). -/
def execDramReadRequest (init : Nat) (tag : Fin 256) (s : State) : Res := .next (dramRead init tag s)

/-- DRAM_WRITE_REQUEST (R233, R234, R237). -/
def execDramWriteRequest (init : Nat) (tag : Fin 256) (s : State) : Res := .next (dramWrite init tag s)

/-- DRAM_PARTIAL_WRITE (R235). -/
def execDramPartialWrite (init : Nat) (tag : Fin 256) (find : LineFind) (s : State) : Res :=
  .next (dramPartial init tag find s)

/-- DRAM_READ_DATA (R234, R238 to R242). -/
def execDramReadData (ctl : Fin 2) (find : LineFind) (s : State) : Res := .next (dramData ctl find s)

/-- DRAM_FULL_RETRAIN_END (R236, R237). -/
def execDramFullRetrainEnd (ctl : Fin 2) (groups : List GroupTrain) (s : State) : Res :=
  .next (fullRetrainEnd ctl groups s)

/-- ENC_REGION_ENABLE (R252, R253): a write of `value`, whose enable bit is 1, to ENC_REGION_CFG_n. -/
def execEncRegionEnable (region : Fin 32) (value : Word) (s : State) : Res := .next (regWrite (ENC_REGION_CFG.enable.offset region 0) s (regionEnable region value))

/-- ENC_REGION_DISABLE (R252). -/
def execEncRegionDisable (region : Fin 32) (value : Word) (s : State) : Res := .next (regWrite (ENC_REGION_CFG.enable.offset region 0) s (regionDisable region value))

/-- ENC_CONFIG_LOCK (R272). -/
def execEncConfigLock (s : State) : Res := .next (regWrite 0xB0000 s (fun s => s.wr ENC_CTRL.lock 1))

/-- SWEEP_LINE (R268 to R270), with what is found in the line and in its metadata lines. -/
def execSweepLine (find : LineFind) (s : State) (metadata : MetaFind := {}) : Res := .next (sweepLine find metadata s)

end Sys2Proof.Machine
end

