-- ==== Sys2Proof/Machine/Images.lean ====
section
/-! DEFINITION. Configuration images and loading (chapter 12). -/

namespace Sys2Proof.Machine

/-! Load phases (R316). -/
def phIdle : Nat := 0
def phChecking : Nat := 1
def phCopying : Nat := 2
def phStreaming : Nat := 3
def phVerifying : Nat := 4
def phPrograms : Nat := 5
def phRemap : Nat := 6

/-- Size of the signature block and of a padded key blob (R291, R301). -/
def sigBlock : Nat := 5360
def blobSize : Nat := 6568

/-! ## The header (R292) -/

def hdKind (h : List Byte) : Nat := field h 6 1
def hdFlags (h : List Byte) : Nat := field h 7 1
def hdEncrypted (h : List Byte) : Bool := (hdFlags h).testBit 0
def hdSigner (h : List Byte) : Nat := field h 13 1
def hdRects (h : List Byte) : Nat := field h 14 1
def hdSegs (h : List Byte) : Nat := field h 15 1
def hdPlain (h : List Byte) : Nat := field h 16 4
def hdStored (h : List Byte) : Nat := field h 20 4

/-- Bit `t` of dsp_set. -/
def hdDsp (h : List Byte) (t : Nat) : Bool := (field h (0xD0 + t / 8) 1).testBit (t % 8)

/-- A fabric tile lies in a rectangle of the header. -/
def inRects (h : List Byte) (t : Nat) : Bool :=
  (List.range (hdRects h)).any (fun k =>
    let r := slice h (0x90 + 4 * k) 4
    decide (field r 0 1 ≤ t % 64) && decide (t % 64 ≤ field r 2 1) && decide (field r 1 1 ≤ t / 64) && decide (t / 64 ≤ field r 3 1))

/-- A segment-table entry (R293). -/
structure Seg where
  type : Nat
  off : Nat
  size : Nat
  count : Nat
  deriving DecidableEq, Repr

def segAt (h : List Byte) (i : Nat) : Seg :=
  let o := 0x200 + 16 * i
  { type := field h o 1, off := field h (o + 4) 4, size := field h (o + 8) 4, count := field h (o + 12) 4 }

def segs (h : List Byte) : List Seg := (List.range (hdSegs h)).map (segAt h)

/-- The segment of a type, if the image has one. -/
def segOf (h : List Byte) (ty : Nat) : Option Seg := (segs h).find? (fun g => g.type == ty)

/-- The segment table is valid (R293): order, bounds, sizes, single types, required types, zero tail. -/
def segsOk (h : List Byte) (isPartial : Bool) : Bool :=
  let l := segs h
  let sizeOk (g : Seg) : Bool :=
    if g.type = 1 then g.size == 128 * g.count && decide (g.count ≤ 228352)
    else if g.type = 2 ∨ g.type = 3 then g.size == 4 * g.count
    else if g.type = 4 then g.count == 223 && g.size == 1784
    else if g.type = 6 then g.count == 1 && g.size == 8
    else true
  let has (ty : Nat) : Bool := l.any (fun g => g.type == ty)
  l.all (fun g => decide (1 ≤ g.type) && decide (g.type ≤ 6) && g.off % 8 == 0 && decide (0x400 + g.off + g.size ≤ hdPlain h) && sizeOk g) &&
    (List.range l.length).all (fun i => zeros h (0x201 + 16 * i) 3) &&
    (List.range (l.length - 1)).all (fun i => decide ((l.getD i ⟨0, 0, 0, 0⟩).off + (l.getD i ⟨0, 0, 0, 0⟩).size ≤ (l.getD (i + 1) ⟨0, 0, 0, 0⟩).off)) &&
    (List.range 7).all (fun ty => decide ((l.filter (fun g => g.type == ty)).length ≤ 1)) &&
    has 4 && (if isPartial then (!(has 2 || has 3) || has 1) else has 1 && has 2 && has 3) &&
    zeros h (0x200 + 16 * hdSegs h) (16 * (32 - hdSegs h))

/-- The stored size of an encrypted image (R300). -/
def storedOf (plain : Nat) : Nat := let p := plain - 0x400; 0x400 + p + 16 * ((p + 65535) / 65536)

/-- Magic, version, reserved bytes, counts, tables and kind are valid: the second check of R302. -/
def formOk (h : List Byte) (isPartial : Bool) : Bool :=
  slice h 0 4 == ascii "NDIM" && field h 4 2 == 1 && hdKind h == (if isPartial then 2 else 1) && decide (hdFlags h < 4) &&
    decide (field h 11 1 < 4) && decide (hdSigner h < 4) && decide (hdRects h ≤ 16) && decide (hdSegs h ≤ 32) && zeros h 0x18 8 &&
    zeros h 0x150 0xB0 && decide (0x400 ≤ hdPlain h) && hdStored h == (if hdEncrypted h then storedOf (hdPlain h) else hdPlain h) &&
    (if isPartial then (List.range (hdRects h)).all (fun k => decide (field h (0x92 + 4 * k) 1 ≤ 63) && decide (field h (0x93 + 4 * k) 1 ≤ 79))
     else hdRects h == 0 && zeros h 0x50 0x100) &&
    segsOk h isPartial

/-- Part, stepping, speed grade, fingerprint and size fit this device and the command: the third check of R302. -/
def fitOk (s : State) (h : List Byte) (length : Nat) : Bool :=
  field h 8 2 == 0x4E04 && field h 10 1 == 0xB0 && (field h 11 1).testBit (if s.grade2 then 0 else 1) &&
    (zeros h 0x20 32 || slice h 0x20 32 == fingerprint) && hdStored h % 8 == 0 && decide (hdStored h ≤ 29360128) &&
    (if hdEncrypted h then
       decide (hdStored h + sigBlock + 8 + blobSize ≤ length) && (length - hdStored h - sigBlock - 8) % blobSize == 0 &&
         decide ((length - hdStored h - sigBlock - 8) / blobSize ≤ 16)
     else length == hdStored h + sigBlock)

/-! ## The retained-image store (R309 to R312) -/

/-- The memory die has lost its contents: with them go the retained images that the reserve holds, and what a load has written of its image (R199,
R311). -/
def reserveLost (s : State) : State :=
  if !s.rdb CFG_RETAIN_STATUS.in_reserve then s
  else
    let s1 := { s with imgs := { s.imgs with ctx := s.imgs.ctx.map (fun (p : Nat × CtxImage) => (p.1, { p.2 with chain := [], oldChain := [], stagedChain := [] })), load := s.imgs.load.map (fun l => { l with storeLost := true }) } }
    showStore ((List.range 8).foldl (fun s n => s.wr CFG_CTX_IMAGE.retained_64k 0 n) s1)

/-- The frame as a chain gives it: of the newest image that writes it (R323). -/
def chainFrame (c : List RetImage) (f : Nat) : Option Frame :=
  c.foldl (fun a r => match sparseFind r.frames f with
    | some d => some d
    | none => if r.full then some 0 else a) none

/-! ## The load in progress -/

def loadPhase (s : State) : Nat := s.rd CFG_LOAD_STATUS.phase

def setLoad (s : State) (l : Load) (ph : Nat) : State :=
  { s with imgs := { s.imgs with load := some l } }.wr CFG_LOAD_STATUS.phase ph

/-- The load ends with a status that is not SUCCESS: the landing plane is discarded and nothing else has changed (R303, R305). -/
def endLoad (s : State) (l : Load) (st : Status) (r2 : Nat := 0) : State :=
  let t := dropRead s l.id
  let t := { t with imgs := { t.imgs with load := none },
                    ctxs := { t.ctxs with planes := dropPlane t.ctxs.planes 8, sigs := dropPlane t.ctxs.sigs 8 } }
  let t := ((t.wr CFG_LOAD_STATUS.phase phIdle).wr CFG_LOAD_STATUS.last_status st.code).wr CFG_CTX_STATUS.state (b2n (committed t l.ctx)) l.ctx
  finish t l.id st 0 r2

/-- Streaming begins (R303): the landing plane holds nothing of this image yet. -/
def startStream (s : State) (l : Load) : State :=
  readHost ((setLoad s { l with since := s.now } phStreaming).wr CFG_LOAD_POSITION.frame 0) l.id (l.addr + 0x400) (hdStored l.head + sigBlock - 0x400)

/-- The checks have passed: the target is LOADING, and a partial image copies the target plane first (R303). -/
def afterChecks (s : State) (l : Load) : State :=
  let t := s.wr CFG_CTX_STATUS.state 2 l.ctx
  let t := { t with ctxs := { t.ctxs with planes := dropPlane t.ctxs.planes 8, sigs := dropPlane t.ctxs.sigs 8 } }
  if l.isPartial then setLoad t { l with since := t.now } phCopying else startStream t l

/-- The checks of R302 on the header, in order. -/
def headerChecks (s : State) (l : Load) : Option Status :=
  let h := l.head
  let base := sparseFind s.imgs.ctx l.ctx
  let chain := if l.isPartial then (base.map (fun c => c.chain)).getD [] else []
  let sl := (ownerSlot s (hdSigner h)).state
  if l.length < 0x400 + sigBlock || !formOk h l.isPartial || !fitOk s h l.length then some .imageFormat
  else if !(field h 12 1).testBit l.ctx then some .invalidField
  else if sl = osRevoked ∨ sl = osTorn then some .keyRevoked
  else if l.isPartial ∧ base.isNone then some .notReady
  else if l.isPartial ∧ (base.map (fun c => c.digest.toNat)).getD 0 ≠ field h 0x50 64 then some .digestMismatch
  else if 8 ≤ chain.length ∨ 29360128 < chainSize chain + hdPlain h ∨ storeSize s < storeUsed s + hdPlain h ∨
      s.rdb CFG_RETAIN_STATUS.store_lost then some .notReady
  else none

/-- The header and the segment table have been read. -/
def headerRead (s : State) (l : Load) : State :=
  match headerChecks s l with
  | some st => endLoad s l st
  | none =>
    let t := s.wrb CFG_LOAD_STATUS.encrypted (hdEncrypted l.head)
    if hdEncrypted l.head then
      readHost (setLoad t l phChecking) l.id (l.addr + hdStored l.head + sigBlock) (l.length - hdStored l.head - sigBlock)
    else afterChecks t l

/-- The key-wrap section has been read: the first blob for this device is unwrapped (R301). -/
def wrapRead (s : State) (l : Load) : State :=
  let n := field l.wrap 0 4
  let mine := (List.range n).find? (fun i => slice l.wrap (8 + blobSize * i + 8) 32 == fingerprint)
  if l.wrap.length ≠ 8 + blobSize * n ∨ n = 0 ∨ !zeros l.wrap 4 4 then endLoad s l .imageFormat
  else
    match mine with
    | none => endLoad s l .imageFormat
    | some i =>
      match unwrapBlob s (slice l.wrap (8 + blobSize * i) 6565) 2 .imageFormat with
      | (.success, k) => afterChecks s { l with key := some (BitVec.ofNat 256 (field k 0 32)) }
      | (st, _) => endLoad s l st

/-! ## Streaming (R300, R303) -/

/-- Decrypts every chunk that has arrived whole: the payload plaintext, or none where a tag fails. -/
def decryptChunks : Nat → Load → Option Load
  | 0, l => some l
  | n + 1, l =>
    let p := hdPlain l.head - 0x400
    let o := l.chunks * 65552
    let len := min 65536 (p - 65536 * l.chunks)
    match l.key with
    | none => some l
    | some k =>
      if p ≤ 65536 * l.chunks ∨ l.stream.length < o + len + 16 then some l
      else
        match gcmOpen k (BitVec.ofNat 96 l.chunks)
            (slice l.head 0x40 16 ++ leBytes 1 (b2n (decide (p ≤ 65536 * (l.chunks + 1))))) (slice l.stream o len)
            (BitVec.ofNat 128 (field l.stream (o + len) 16)) with
        | none => none
        | some d => decryptChunks n { l with chunks := l.chunks + 1, plain := l.plain ++ slice d 0 len }

/-- Lines of the retained store that a load has written: the header's and segment table's, and those of the plaintext so far (R309). -/
def storeLines (l : Load) : Nat := if l.plain.isEmpty then 0 else 16 + l.plain.length / 64

/-- The load goes on with more plaintext, which the loader writes into the store line by line (R309, R310). -/
def streamOn (s : State) (old l : Load) : State := storeTraffic (setLoad s l phStreaming) 0xA1 (64 * (storeLines l - storeLines old))

/-- Stored bytes of the image arrive. -/
def streamBytes (s : State) (old : Load) (d : List Byte) : State :=
  let l := { old with stream := old.stream ++ d }
  if hdEncrypted l.head then
    match decryptChunks (d.length / 65552 + 2) l with
    | none => endLoad s l .integrityFail
    | some l => streamOn s old l
  else streamOn s old { l with plain := l.stream.take (hdPlain l.head - 0x400) }

/-- A read of the load has ended: header, key-wrap section, or the last of the stream. -/
def loadRead (s : State) (l : Load) (d : List Byte) : State :=
  if loadPhase s = phChecking then
    if l.head.isEmpty then headerRead s { l with head := d }
    else { setLoad s { l with wrap := d } phChecking with sec := { s.sec with ops := s.sec.ops ++ [.wrap l.id] } }
  else s

/-! ## Records (R294 to R297, R307) -/

/-- A frame lies inside the signed region of a partial image. -/
def frameAllowed (h : List Byte) (f : Nat) : Bool :=
  let district (d : Nat) : Bool :=
    (List.range 64).all (fun k => inRects h ((d / 8 * 8 + k / 8) * 64 + d % 8 * 8 + k % 8))
  if f < 225280 then inRects h (f / 44)
  else
    let p := f - 225280
    if p < 1280 then district (p / 16)
    else if p < 2304 then hdDsp h (p - 1280)
    else if p < 2816 then
      let g := (p - 2304) * 8 / 256
      (List.range 5).all (fun r => district (8 * (if g < 8 then r else r + 5) + g % 8))
    else false

/-- A frame goes into the landing plane with its signature under the target's number (R296, R318). -/
def landFrame (c : Nat) (d : Frame) (s : State) (f : Nat) : State :=
  { s with ctxs := { s.ctxs with planes := sparseSet 0 s.ctxs.planes (planeKey 8 f) d,
                                 sigs := sparsePut s.ctxs.sigs (planeKey 8 f) (frameSig c f d) } }

/-- The index entries of the positions `1024 k` that a record covers (R295). -/
def indexRecord (m : Sparse (Nat × Nat)) (base at_ pos n : Nat) : Sparse (Nat × Nat) :=
  (List.range 220).foldl (fun m k =>
    if pos ≤ 1024 * k ∧ 1024 * k < pos + n then sparsePut m (base + k) (at_, 1024 * k - pos) else m) m

/-- The load moves to its next segment. -/
def nextSeg (l : Load) : Load := { l with seg := l.seg + 1, at_ := 0, items := 0, pos := 0, last := none }

/-- A violation of the region ends the load (R307, R374). -/
def violation (s : State) (l : Load) (at' : Nat) (dsp : Bool) : State :=
  endLoad ((s.wr CFG_LOAD_VIOLATION.where at').wrb CFG_LOAD_VIOLATION.dsp dsp) l .regionViolation (at' + b2n dsp * 2 ^ 18)

/-- One frame record of segment `g`. A frame whose word crosses the relay poisoned is not written, and the loader, its requester, ends the load
POISONED (R16). -/
def frameRecord (s : State) (l : Load) (g : Seg) : State :=
  let limit := if g.type = 2 then 225280 else 3072
  let first := if g.type = 2 then 0 else 225280
  if l.items = g.count then
    if !l.isPartial && l.pos != limit then endLoad s l .imageFormat else setLoad s (nextSeg l) phStreaming
  else if l.plain.length < g.off + l.at_ + 4 then s
  else
    let w := field l.plain (g.off + l.at_) 4
    let v := bits w 0 18
    let kind := bits w 30 2
    let dict := (segOf l.head 1).getD { type := 1, off := 0, size := 0, count := 0 }
    let n := if kind = 0 then 1 else v
    if bits w 18 12 ≠ 0 ∨ kind = 3 ∨ (kind = 0 ∧ dict.count ≤ v) ∨ n = 0 ∨ (kind = 1 ∧ l.last = none) ∨ limit < l.pos + n then
      endLoad s l .imageFormat
    else if kind = 0 ∧ l.plain.length < dict.off + 128 * (v + 1) then s
    else
      let writes := kind ≠ 2 || !l.isPartial
      let d : Frame :=
        if kind = 0 then BitVec.ofNat 1024 (field l.plain (dict.off + 128 * v) 128) else if kind = 1 then l.last.getD 0 else 0
      let frames := (List.range n).map (fun i => first + l.pos + i)
      match (if writes && l.isPartial then frames.find? (fun f => !frameAllowed l.head f) else none) with
      | some f => violation s l f false
      | none =>
        let bad (f : Nat) : Bool := writes && s.stack.poisoned.any (fun w => match w with | .landing x => x.val == f | _ => false)
        let t := if writes then (frames.filter (fun f => !bad f)).foldl (fun s f => landFrame l.ctx d s f) s else s
        if frames.any bad then
          endLoad { t with stack := { t.stack with poisoned := t.stack.poisoned.filter (fun w => match w with | .landing _ => false | _ => true) } } l .poisoned
        else
        let l := { l with
          at_ := l.at_ + 4, items := l.items + 1, pos := l.pos + n, last := if writes then some d else l.last,
          index := indexRecord l.index (if g.type = 2 then 0 else 220) l.at_ l.pos n,
          written := if writes then l.written + n else l.written,
          frames := if writes then frames.foldl (fun m f => sparsePut m f d) l.frames else l.frames }
        (setLoad t l phStreaming).wr CFG_LOAD_POSITION.frame (first + l.pos)

/-- Two program ranges overlap. -/
def rangesMeet (a b : Nat × Nat) : Bool := decide (0 < a.2) && decide (0 < b.2) && decide (a.1 < b.1 + b.2) && decide (b.1 < a.1 + a.2)

/-- The range that context `c` has of a tile: of its latest version. -/
def latestRange (s : State) (x : Tile) (c : Nat) : Option (Nat × Nat) :=
  if sparseGet false s.ctxs.newVersion c then sparseFind x.newRanges c else sparseFind x.ranges c

/-- The range of the version of context `c` that the staged latches hold, or are taking. -/
def stagedRange (s : State) (x : Tile) (c : Nat) : Option (Nat × Nat) :=
  if stagedState s = stEmpty ∨ stagedCtx s ≠ c then none
  else if holdsOld s c then sparseFind x.oldRanges c
  else latestRange s x c

/-- A range of the target breaks R135 on tile `t`: it meets that of another COMMITTED context, or that of a version in either latch set. -/
def rangeTaken (s : State) (c t : Nat) (r : Nat × Nat) : Bool :=
  let x := tileOf s t
  (List.range 8).any (fun k =>
    (k != c && committed s k && (latestRange s x k).any (rangesMeet r)) || (activeCtx s == some k && (sparseFind x.ranges k).any (rangesMeet r)) ||
      (stagedRange s x k).any (rangesMeet r))

/-- One DSP_PROGRAMS entry (R297). -/
def programEntry (s : State) (l : Load) (g : Seg) : State :=
  let o := g.off + l.at_
  if l.items = g.count then
    if l.at_ ≠ g.size then endLoad s l .imageFormat else setLoad s (nextSeg l) phStreaming
  else if g.size < l.at_ + 24 then endLoad s l .imageFormat
  else if l.plain.length < o + 24 then s
  else
    let tile := field l.plain o 2
    let start := field l.plain (o + 2) 2
    let len := field l.plain (o + 4) 2
    let vecs := (List.range 8).map (fun k => field l.plain (o + 8 + 2 * k) 2)
    let prev := (l.progs.getLast?).map (fun p => p.tile)
    if g.size < l.at_ + 24 + 8 * len ∨ 1024 ≤ tile ∨ prev.any (fun p => decide (tile ≤ p)) ∨ !zeros l.plain (o + 6) 2 ∨ 2048 < start + len ∨
        vecs.any (fun v => bits v 11 4 != 0 || (v.testBit 15 && !(decide (start ≤ bits v 0 11) && decide (bits v 0 11 < start + len)))) then
      endLoad s l .imageFormat
    else if l.isPartial ∧ !hdDsp l.head tile then violation s l tile true
    else if rangeTaken s l.ctx tile (start, len) then endLoad s l .imageFormat
    else if l.plain.length < o + 24 + 8 * len then s
    else
      let p : TileProg :=
        { tile := tile, start := start, words := (List.range len).map (fun i => BitVec.ofNat 64 (field l.plain (o + 24 + 8 * i) 8)),
          vectors := vecs.map (fun v => (bits v 0 11, v.testBit 15)) }
      setLoad s { l with at_ := l.at_ + 24 + 8 * len, items := l.items + 1, progs := l.progs ++ [p] } phStreaming

/-- The next record or entry of the stream is decoded, once its bytes have arrived; segments of other types are passed over. -/
def imageRecord (s : State) : State :=
  match s.imgs.load with
  | none => s
  | some l =>
    if loadPhase s ≠ phStreaming ∨ !dieOpen s 2 ∨ !dieOpen s 3 then s
    else
      match (segs l.head)[l.seg]? with
      | none => s
      | some g =>
        if g.type = 2 ∨ g.type = 3 then frameRecord s l g
        else if g.type = 5 then programEntry s l g
        else if l.plain.length < g.off + g.size then s
        else setLoad s (nextSeg l) phStreaming

/-! ## Verification and commit (R303, R304, R308, R309) -/

/-- Every FRAME_INDEX entry is as recomputed (R295). -/
def indexOk (l : Load) : Bool :=
  match segOf l.head 4 with
  | none => false
  | some g => (List.range 223).all (fun k =>
      let e := sparseGet (0, 0) l.index k
      field l.plain (g.off + 8 * k) 4 == e.1 && field l.plain (g.off + 8 * k + 4) 4 == e.2)

/-- The digest of the stored image (R291). -/
def imageDigest (l : Load) : BitVec 512 := sha3_512 (l.head ++ l.stream.take (hdStored l.head - 0x400))

/-- What R281 checks of the image (R299). -/
def imageSigned (l : Load) : Signed :=
  let o := hdStored l.head - 0x400
  { slot := hdSigner l.head, domain := "NDL-IMAGE", digest := leBytes 64 (imageDigest l).toNat, edPub := slice l.stream o 32,
    mlPub := slice l.stream (o + 0x20) 1952, edSig := slice l.stream (o + 0x7C0) 64, mlSig := slice l.stream (o + 0x800) 3309 }

/-- A port A binding, block, tile and channel, that a context may have: the block lies in the tile's group and outside the reserve, and the channel
is no user PLL's (R89, R199). -/
def bindingOk (s : State) (b : Nat × Nat × Nat) : Bool :=
  let g := b.1 / 256
  let column := b.2.1 % 64 / 8
  let row := b.2.1 / 64 / 8
  g % 8 == column && decide (g < 8) == decide (row < 5) && !inReserve s b.1 && decide (s.rd CLK_GCH_SEL.source b.2.2 < 8)

/-- The frames of the context that the landing plane holds. -/
def landing (s : State) : Sparse Frame :=
  s.ctxs.planes.filterMap (fun e => if e.1 / 2 ^ 18 = 8 then some (e.1 % 2 ^ 18, e.2) else none)

/-- The port A bindings that the port frames of the landing plane spell (R70, R89): each is allowed, and no tile has more than 4. -/
def bindingsOk (s : State) : Bool :=
  let l := boundMemory (bindings (landing s))
  l.all (fun b => bindingOk s b && decide ((l.filter (fun c => c.2.1 == b.2.1)).length ≤ 4))

/-- The last stored byte has arrived and every record is decoded: the signature block and what is left of the plaintext go into the store (R309), the
index and the port A bindings are checked, and both signatures are verified (R89, R199, R303). `net` is how the last writes of the store come through the
network: one that fails ends the load POISONED (R215 to R217). -/
def streamEnd (net : NetWay) (s : State) : State :=
  match s.imgs.load with
  | none => s
  | some l =>
    if loadPhase s ≠ phStreaming ∨ l.stream.length ≠ hdStored l.head + sigBlock - 0x400 ∨ l.seg < hdSegs l.head then s
    else
      let t :=
        if net ≠ .ok then endLoad (wayCounts s 0xA1 s.now net) l .poisoned
        else if !indexOk l ∨ !bindingsOk s then endLoad s l .imageFormat
        else
          match dualVerify s (imageSigned l) none with
          | .success => setLoad s { l with verified := true, since := s.now } phVerifying
          | st => endLoad s l st
      storeTraffic t 0xA1 (64 * ((hdPlain l.head + sigBlock + 63) / 64 - storeLines l))

/-- The context's digest after the commit (R308). -/
def newDigest (s : State) (l : Load) : BitVec 512 :=
  match l.isPartial, sparseFind s.imgs.ctx l.ctx with
  | true, some c => sha3_512 (leBytes 64 c.digest.toNat ++ leBytes 64 (imageDigest l).toNat)
  | _, _ => imageDigest l

/-- The key mask after the commit (R298). -/
def newMask (s : State) (l : Load) : BitVec 64 :=
  match segOf l.head 6 with
  | some g => BitVec.ofNat 64 (field l.plain g.off 8)
  | none => if l.isPartial then ((sparseFind s.imgs.ctx l.ctx).map (fun c => c.keyMask)).getD 0 else 0

/-- The keyed tags of what the reserve holds, one for each 4 KiB, by a function that the spec does not give (R311; log entry 192). -/
def storeTags (l : List Byte) : List (BitVec 64) := (List.range ((l.length + 4095) / 4096)).map (fun k => Config.storeTag (slice l (4096 * k) 4096))

/-- What the context has beside its plane after the commit. -/
def newImage (s : State) (l : Load) : CtxImage :=
  let bytes := l.head ++ l.plain
  let sig := slice l.stream (hdStored l.head - 0x400) sigBlock
  let r : RetImage := { size := hdPlain l.head, full := !l.isPartial, frames := l.frames, bytes := bytes, sig := sig,
                        tags := if s.rdb CFG_RETAIN_STATUS.in_reserve then storeTags (bytes ++ sig) else [] }
  let old := sparseFind s.imgs.ctx l.ctx
  let oldC := (old.map (fun c => c.chain)).getD []
  let staged := stagedState s != stEmpty && stagedCtx s == l.ctx
  { digest := newDigest s l, keyMask := newMask s l,
    chain := if s.rdb CFG_RETAIN_STATUS.store_lost || l.storeLost then [] else if l.isPartial then oldC ++ [r] else [r],
    oldChain := if activeCtx s != some l.ctx then [] else if s.ctxs.activeOld then (old.map (fun c => c.oldChain)).getD [] else oldC,
    stagedChain := if !staged then [] else if holdsOld s l.ctx then (old.map (fun c => c.stagedChain)).getD [] else oldC,
    oldMask := if s.ctxs.activeOld && activeCtx s == some l.ctx then (old.map (fun c => c.oldMask)).getD 0
               else (old.map (fun c => c.keyMask)).getD 0 }

/-- The words of the image's programs are written into their ranges (R304). -/
def writePrograms (s : State) (l : Load) : State :=
  l.progs.foldl (fun s p =>
    let x := tileOf s p.tile
    setTile s p.tile { x with prog := (List.range p.words.length).foldl (fun m i => sparseSet 0 m (p.start + i) (p.words.getD i 0)) x.prog }) s

/-- The ranges and vectors of the new version are held apart until it is first active (R297, R304). -/
def newPrograms (s : State) (l : Load) : State :=
  let c := l.ctx
  let pend := sparseGet false s.ctxs.newVersion c
  let base (x : Tile) : Tile :=
    if !l.isPartial then
      { x with newVectors := x.newVectors.filter (fun v => v.1 / 8 != c), newRanges := sparseDel x.newRanges c }
    else if pend then x
    else
      { x with newVectors := (x.vectors.filter (fun v => v.1 / 8 == c)).foldl (fun m v => sparsePut m v.1 v.2) x.newVectors,
               newRanges := match sparseFind x.ranges c with
                 | some r => sparsePut x.newRanges c r
                 | none => x.newRanges }
  let s1 := { s with tiles := s.tiles.map (fun p => (p.1, base p.2)),
                     ctxs := { s.ctxs with newVersion := sparseSet false s.ctxs.newVersion c true } }
  l.progs.foldl (fun s p =>
    let x := tileOf s p.tile
    let vecs := (List.range 8).foldl (fun m k => sparsePut m (c * 8 + k) (p.vectors.getD k (0, false))) x.newVectors
    setTile s p.tile { x with newRanges := sparsePut x.newRanges c (p.start, p.words.length), newVectors := vecs }) s1

/-- The ranges of the version that the staged latches hold are kept while a new version of context `c` takes their place (R135). -/
def keepRanges (s : State) (c : Nat) : State :=
  if stagedState s = stEmpty ∨ stagedCtx s ≠ c ∨ holdsOld s c then s
  else
    { s with tiles := s.tiles.map (fun p => (p.1, { p.2 with oldRanges := putOpt p.2.oldRanges c (latestRange s p.2 c) })) }

/-- The latch copies of a context whose plane has been replaced (R104). -/
def supersede (s : State) (c : Nat) : State :=
  let s := keepRanges s c
  let s1 := if activeCtx s == some c && !s.ctxs.activeOld then
      { s with ctxs := { s.ctxs with activeOld := true, oldSigs := (s.ctxs.sigs.filter (fun p => p.1 / 2 ^ 18 == c)).map (fun p => (p.1 % 2 ^ 18, p.2)) } }
    else s
  let s2 := match s1.ctxs.staging with
    | some g => if g.ctx = c ∧ !g.oldPlane then
        { s1 with ctxs := { s1.ctxs with staging := some { g with oldPlane := true, old := planeFrames s1 c } } } else s1
    | none => s1
  if stagedCtx s2 = c ∧ (stagedState s2 = stReady ∨ stagedState s2 = stOutDirty ∨ stagedState s2 = stOutClean) then
    restage (setStaged s2 stSuperseded c) c
  else s2

/-- The landing plane is remapped as the target plane, and the old plane becomes the landing plane (R304): the commit point of the load. A store that has
been lost meanwhile ends it NOT_READY instead (R312). -/
def commitLoad (l : Load) (s : State) : State :=
  if s.rdb CFG_RETAIN_STATUS.store_lost then endLoad s l .notReady
  else
  let c := l.ctx
  let img := newImage s l
  let s1 := newPrograms (supersede s c) l
  let s2 := { s1 with
    ctxs := { s1.ctxs with planes := swapPlanes s1.ctxs.planes 8 c, sigs := movePlane s1.ctxs.sigs 8 c,
                           writtenBack := dropPlane s1.ctxs.writtenBack c },
    imgs := { s1.imgs with ctx := sparsePut s1.imgs.ctx c img, load := none } }
  let s3 := ((dropRepairs s2 c).wr CFG_CTX_STATUS.state 1 c).wrb CFG_CTX_IMAGE.debug_observe ((hdFlags l.head).testBit 1) c
  let s4 := (s3.wr CFG_CTX_IMAGE.chain_depth (img.chain.length - 1) c).wr CFG_CTX_IMAGE.retained_64k ((chainSize img.chain + 65535) / 65536) c
  let s5 := (s4.wr CFG_LOAD_STATUS.phase phIdle).wr CFG_LOAD_STATUS.last_status Status.success.code
  finish (showStore (dropOldChains s5)) l.id .success (img.digest.toNat % 2 ^ 64) l.written

/-- After any write-back of the target, the programs are written and the landing plane is remapped on one hc edge (R304, R104). -/
def planeRemap (s : State) : State :=
  match s.imgs.load with
  | none => s
  | some l =>
    if !l.verified ∨ !dieOpen s 2 ∨ !dieOpen s 3 then s
    else if s.rdb CFG_RETAIN_STATUS.store_lost then endLoad s l .notReady
    else if s.ctxs.wb.any (fun w => w.ctx == l.ctx) then (if loadPhase s = phVerifying then setLoad s l phPrograms else s)
    else
      let column (k : Nat) : Nat := ((l.progs.filter (fun p => p.tile / 64 == k)).map (fun p => p.words.length)).foldl (· + ·) 0
      let hc := ((List.range 16).map column).foldl max 0
      match trackOf s l.id with
      | none => s
      | some t =>
        if t.phase = .prepared then s
        else
          let s1 := writePrograms (advance s (hcs s (hc + 1))) l
          reachCommit (setLoad s1 l phRemap) t (commitLoad l)

/-- The 40 us copy of the target plane ends and streaming begins (R303). -/
def copyEnd (s : State) : State :=
  match s.imgs.load with
  | none => s
  | some l =>
    if loadPhase s ≠ phCopying then s
    else
      let s := advanceTo s (l.since + 40 * usTicks)
      let copy {α : Type} (m : Sparse α) : Sparse α :=
        (m.filter (fun p => p.1 / 2 ^ 18 == l.ctx)).foldr (fun p m => sparsePut m (planeKey 8 (p.1 % 2 ^ 18)) p.2) (dropPlane m 8)
      startStream { s with ctxs := { s.ctxs with planes := copy s.ctxs.planes, sigs := copy s.ctxs.sigs } } l

/-- A load starts (R302, R374). -/
def startLoad (isPartial : Bool) (t : Track) (s : State) : State :=
  let c := t.par 0x1C 1
  let len := t.par 0x18 4
  if 7 < c ∨ t.par 0x10 8 % 8 ≠ 0 then finish s t.id .invalidField
  else if s.rdb CFG_RETAIN_STATUS.store_lost then finish s t.id .notReady
  else if s.imgs.load.isSome then finish s t.id .busy
  else
    let l : Load :=
      { id := t.id, isPartial := isPartial, ctx := c, addr := t.par 0x10 8, length := len, head := [], wrap := [], stream := [], plain := [],
        chunks := 0, key := none, seg := 0, at_ := 0, items := 0, pos := 0, last := none, index := [], written := 0, frames := [],
        progs := [], since := s.now, verified := false }
    let s1 := (((setLoad s l phChecking).wrb CFG_LOAD_STATUS.partial isPartial).wr CFG_LOAD_STATUS.target c).wr CFG_LOAD_STATUS.encrypted 0
    if len = 0 then endLoad s1 l .imageFormat else readHost s1 t.id l.addr (min len 0x400)

/-! ## Meanings -/

/-- IMAGE_LOAD (R302, R374). -/
def execImageLoad (id : Nat) (s : State) : Res := .next (startCommand 0x10 id s (startLoad false))

/-- IMAGE_LOAD_PARTIAL (R302, R374). -/
def execImageLoadPartial (id : Nat) (s : State) : Res := .next (startCommand 0x11 id s (startLoad true))

end Sys2Proof.Machine
end

