-- ==== Sys2Proof/Machine/Integrity.lean ====
section
/-! DEFINITION. Configuration integrity (chapter 13): voting, latch checks, plane sweeps, repairs and the engines' own protection. -/

namespace Sys2Proof.Machine

/-- The device fault INTERNAL_FAULT (R330, R356): unit 1 both Privet engines, 2 a queue drain. A lead reports it and its cause sets at once; a
standalone device's cause sets 1 s later (R545). -/
def raiseInternalFault (s : State) (unit : Nat) : State :=
  let t := fault (s.wr INT_STATUS.internal_fault 1) .internalFault unit 0
  let t := { t with safe := { t.safe with internalFaultAt := some ((s.safe.internalFaultAt).getD s.now) } }
  if t.rd DEV_MODE.mode = modeLead then setCause (selfFault t 1) scInternalFault else t

/-! ## Engines (R321, R328 to R331) -/

/-- Engine states of R332. -/
def egSweeping : Nat := 0
def egSole : Nat := 1
def egFailed : Nat := 2
def egStopped : Nat := 3

def engine (s : State) (b : Bool) : Privet := if b then s.integ.b else s.integ.a
def setEngine (s : State) (b : Bool) (e : Privet) : State :=
  { s with integ := if b then { s.integ with b := e } else { s.integ with a := e } }

def engineState (s : State) (b : Bool) : Nat := s.rd (if b then INT_STATUS.engine_b else INT_STATUS.engine_a)
def setEngineState (s : State) (b : Bool) (v : Nat) : State := s.wr (if b then INT_STATUS.engine_b else INT_STATUS.engine_a) v

/-- The sweep period: 16 ms, 32 ms while sole (R321, R329). -/
def sweepPeriod (s : State) (b : Bool) : Nat := if engineState s b = egSole then 32 * msTicks else 16 * msTicks

/-- Frames of an engine's share (R321), of all nine planes while it is sole. -/
def shareSize (s : State) (b : Bool) : Nat := if engineState s b = egSole then 9 * frameCount else 4 * frameCount + 114176

/-- Plane and frame at position `p` of the share: 8 is the landing plane. -/
def shareFrame (s : State) (b : Bool) (p : Nat) : Nat × Nat :=
  if engineState s b = egSole then (p / frameCount, p % frameCount)
  else if p < 4 * frameCount then (p / frameCount + (if b then 4 else 0), p % frameCount)
  else (8, p - 4 * frameCount + (if b then 114176 else 0))

/-- The engine fails (R328, R329): the other becomes sole at its next sweep; with both failed INTERNAL_FAULT is raised and sweeps stop (R330). -/
def failEngine (s : State) (b : Bool) (flag : Row) : State :=
  if engineState s b = egFailed then s
  else
    let t := setEngineState (s.wr flag 1) b egFailed
    let t := setEngine t b { engine t b with sweeping := false }
    let flags (r : Row) : Nat := t.rd r
    let detail := if b then flags INT_SWEEP_B.kat_fail + 2 * flags INT_SWEEP_B.report_late + 4 * flags INT_SWEEP_B.count_mismatch
      else flags INT_SWEEP_A.kat_fail + 2 * flags INT_SWEEP_A.report_late + 4 * flags INT_SWEEP_A.count_mismatch
    let t := fault t .privetFailed (b2n b) detail (die := 3) (degraded := true)
    if engineState t (!b) = egFailed then raiseInternalFault t 1
    else setDegraded (t.wr INT_STATUS.diag_degraded 1) dgPrivet true

/-- A sweep of engine `b` begins; with the other engine failed it is sole, over all nine planes (R329). -/
def beginSweep (s : State) (b : Bool) : State :=
  let st := if engineState s (!b) = egFailed then egSole else egSweeping
  let t := if engineState s b = st then s else setEngineState s b st
  setEngine t b { engine t b with sweeping := true, pos := 0, last := t.now, start := t.now,
                                  report := if engineState s b = egStopped then t.now else (engine t b).report }

/-- The Wicket starts the next sweep of engine `b`: its control state is reloaded and its known-answer frame is checked (R321, R328). A sweep
still running runs on and the overrun is noted. -/
def sweepStart (b katOk : Bool) (s : State) : State :=
  if !dieOpen s 3 || engineState s b == egFailed then s
  else
    let e := engine s b
    let s := if engineState s b = egStopped then s else advanceTo s (e.start + sweepPeriod s b)
    if e.sweeping then s.wr INT_STATUS.sweep_overrun 1
    else if !katOk then failEngine s b (if b then INT_SWEEP_B.kat_fail else INT_SWEEP_A.kat_fail)
    else beginSweep s b

/-- The sweep has ended: the engine reports its count, `slip` where an upset has put it off the Wicket's record (R328). An overrun is noted where the next
sweep has fallen due; its start, by PRIVET_SWEEP_START, then comes at once (R321). -/
def sweepReport (b slip : Bool) (s : State) : State :=
  let e := engine s b
  if !e.sweeping || decide (e.pos < shareSize s b) then s
  else
    let n := (e.count + 1) % 2 ^ 24
    let t := setEngine s b { e with sweeping := false, count := n, record := n, report := s.now }
    let t := t.wr (if b then INT_SWEEP_B.sweeps else INT_SWEEP_A.sweeps) n
    if slip then failEngine t b (if b then INT_SWEEP_B.count_mismatch else INT_SWEEP_A.count_mismatch)
    else
      let t := { t with boot := if b then { t.boot with sweptB := true } else { t.boot with sweptA := true } }
      let t := if t.boot.sweptA && t.boot.sweptB then { t with boot := { t.boot with d3Unswept := false } } else t
      if e.start + sweepPeriod t b < t.now then t.wr INT_STATUS.sweep_overrun 1 else t

/-- No report within 17 ms of the last, 33 ms while sole (R328). -/
def reportLate (b : Bool) (s : State) : State :=
  if engineState s b = egFailed ∨ engineState s b = egStopped ∨ !dieOpen s 3 then s
  else
    let t := advanceTo s ((engine s b).report + sweepPeriod s b + msTicks)
    failEngine t b (if b then INT_SWEEP_B.report_late else INT_SWEEP_A.report_late)

/-! ## Mismatches (R317, R320, R322, R325) -/

/-- A repair is queued unless it already waits or 64 do (R325), or the frame is lost: it stays pending until a commit (R326). -/
def queueRepair (s : State) (r : Repair) : State :=
  if 64 ≤ s.integ.queue.length ∨
      s.integ.lost.any (fun q => q.ctx == r.ctx && q.frame == r.frame && q.latch == r.latch && q.staged == r.staged) ∨
      s.integ.queue.any (fun q => q.ctx == r.ctx && q.frame == r.frame && q.latch == r.latch && q.staged == r.staged) then s
  else showRepairs { s with integ := { s.integ with queue := s.integ.queue ++ [{ r with at_ := s.now }] } }

/-- The golden signature of a latch frame: of the version that the set holds (R104, R317). -/
def latchSig (s : State) (staged : Bool) (f : Nat) : BitVec 64 :=
  if !staged && s.ctxs.activeOld then sparseGet 0 s.ctxs.oldSigs f
  else sparseGet 0 s.ctxs.sigs (planeKey (if staged then stagedCtx s else s.rd CFG_LATCH_STATUS.active_ctx) f)

def latchFrame (s : State) (staged : Bool) (f : Nat) : Frame := sparseGet 0 (if staged then s.ctxs.staged else s.ctxs.active) f

def setLatch (s : State) (staged : Bool) (f : Nat) (d : Frame) : State :=
  { s with ctxs := if staged then { s.ctxs with staged := sparseSet 0 s.ctxs.staged f d }
                   else { s.ctxs with active := sparseSet 0 s.ctxs.active f d } }

/-! ## Repair (R323 to R327) -/

/-- The order of R325: frames that a staging waits for come first. -/
def repairRank (s : State) (r : Repair) : Nat :=
  if s.ctxs.staging.any (fun g => repairAwaited s g r) then 1 else if r.latch && !r.staged then 2 else if r.latch then 3 else 4

/-- The engine that covers plane `c` is in service (R323, R329). -/
def repairer (s : State) (c : Nat) : Bool :=
  engineState s (decide (4 ≤ c)) == egSweeping || engineState s false == egSole || engineState s true == egSole

/-- The chain from which a frame is rebuilt: of the version that the frame belongs to. -/
def repairChain (s : State) (r : Repair) : List RetImage :=
  match sparseFind s.imgs.ctx r.ctx with
  | some i => if r.latch && !r.staged && s.ctxs.activeOld then i.oldChain else if r.latch && r.staged && holdsOld s r.ctx then i.stagedChain else i.chain
  | none => []

/-- The frame matches the golden signature of the frame to repair. -/
def repairGood (s : State) (r : Repair) (d : Frame) : Bool :=
  frameSig r.ctx r.frame d == if r.latch then latchSig s r.staged r.frame else sparseGet 0 s.ctxs.sigs (planeKey r.ctx r.frame)

/-- The source inside the device that comes before the retained image: the context plane, or a latch copy of the context and version (R323). -/
def nearSource (s : State) (r : Repair) : Option (Nat × Frame) :=
  let latch (staged : Bool) : Option Frame := (some (latchFrame s staged r.frame)).filter (repairGood s r)
  if r.latch then
    if repairGood s r (planeFrame s r.ctx r.frame) then some (1, planeFrame s r.ctx r.frame) else none
  else
    let act := if activeCtx s == some r.ctx && !s.ctxs.activeOld then latch false else none
    let stg := if stagedCtx s == r.ctx && (stagedState s == stReady || stagedState s == stOutClean) then latch true else none
    (act.orElse (fun _ => stg)).map (fun d => (0, d))

/-- The keyed tags of a chain's images match, where the reserve holds them (R311). -/
def tagsOk (c : List RetImage) : Bool := c.all (fun i => i.tags.isEmpty || i.tags == storeTags (i.bytes ++ i.sig))

/-- The first source whose frame matches the golden signature (R323): its code of INT_LAST_REPAIR and the frame. The retained image is none where its
read fails (`readOk`) or a tag of the reserve does not match. -/
def repairSource (s : State) (r : Repair) (readOk : Bool := true) : Option (Nat × Frame) :=
  (nearSource s r).orElse (fun _ =>
    if readOk && tagsOk (repairChain s r) then ((chainFrame (repairChain s r) r.frame).filter (repairGood s r)).map (fun d => (2, d)) else none)

/-- The engine that repairs context `c` is B: the one that covers its plane, or the sole one (R323, R329). -/
def repairerB (s : State) (c : Nat) : Bool :=
  engineState s true == egSole || (engineState s false != egSole && decide (4 ≤ c))

/-- A frame whose retained image was lost with the memory-die reserve, and that no other source matches, waits for a new load (R199). -/
def repairWaits (s : State) (r : Repair) : Bool :=
  s.rdb CFG_RETAIN_STATUS.in_reserve && (repairChain s r).isEmpty && (repairSource s r).isNone

/-- The next repair to be served. -/
def nextRepair (s : State) : Option Repair :=
  let l := s.integ.queue.filter (fun r => repairer s r.ctx && !repairWaits s r)
  [1, 2, 3, 4].findSome? (fun k => l.find? (fun r => repairRank s r == k))

/-- INT_LAST_REPAIR. -/
def lastRepair (s : State) (r : Repair) (src : Nat) : State :=
  ((((s.wr INT_LAST_REPAIR.frame r.frame).wr INT_LAST_REPAIR.plane r.ctx).wrb INT_LAST_REPAIR.latch r.latch).wrb INT_LAST_REPAIR.staged
    (r.latch && r.staged)).wr INT_LAST_REPAIR.source src

/-- A repaired frame becomes lasting (R327). One more of the tile that takes the district's spare, or has it, is no further tile (R63); of a lasting
frame on the spare itself the spec states no action (DESIGN CHOICE, log entry 144). -/
def frameLasting (s : State) (r : Repair) : State :=
  if !r.latch then fault s .planeFrameLasting r.ctx r.frame (die := 3)
  else if 225280 ≤ r.frame then fault s .portFrameLasting r.ctx r.frame (die := 2)
  else
    let t := r.frame / 44
    let d := tileDistrict t
    let x := district s d
    if (x.spareUsed && x.spareTile == t) || x.sparePending == some t then s
    else if x.sparePending.isSome then fault s .spareExhausted d 0 (die := 2)
    else setDistrict s d { x with sparePending := some t }

/-- Engine `b` reads a frame from a chain of the store, the index entry and the records (R323); how many lines that takes depends on the image's
layout and is free. -/
def chainRead (s : State) (b : Bool) : State :=
  let n := s.fresh 16
  storeTraffic n.2 (if b then 0xA3 else 0xA2) (64 * (n.1.toNat + 1))

/-- The signature entry of the repair's frame takes `g`. -/
def putSig (s : State) (r : Repair) (g : BitVec 64) : State :=
  if r.latch && !r.staged && s.ctxs.activeOld then { s with ctxs := { s.ctxs with oldSigs := sparsePut s.ctxs.oldSigs r.frame g } }
  else { s with ctxs := { s.ctxs with sigs := sparsePut s.ctxs.sigs (planeKey r.ctx r.frame) g } }

/-- A signature entry with an uncorrectable error is recomputed from the retained image and counted as a repair (R317, R327); where no retained image
has the frame, the entry stays what the error has made of it, a free value. -/
def rebuildSig (s : State) (r : Repair) : State :=
  match chainFrame (repairChain s r) r.frame with
  | some d =>
    let t := lastRepair ((putSig s r (frameSig r.ctx r.frame d)).inc INT_COUNTS.plane_repairs) { r with latch := false } 2
    let c := countEvent t 1 (planeKey r.ctx r.frame)
    chainRead (if c.2 then frameLasting c.1 { r with latch := false } else c.1) (repairerB s r.ctx)
  | none => let f := s.fresh 64; putSig f.2 r f.1

/-- The frame is written, the repair is counted, and a frame repaired up to its limit becomes lasting; an injected event counts nowhere
(R556). -/
def repaired (s : State) (r : Repair) (src : Nat) (d : Frame) : State :=
  let t := if r.latch then setLatch s r.staged r.frame d
    else { s with ctxs := { s.ctxs with planes := sparseSet 0 s.ctxs.planes (planeKey r.ctx r.frame) d } }
  if r.injected then t
  else
    let t := lastRepair (t.inc (if r.latch then INT_COUNTS.latch_repairs else INT_COUNTS.plane_repairs)) r src
    let (t, lasting) := countEvent t 1 (planeKey r.ctx r.frame)
    if lasting then frameLasting t r else t

/-- A checker reads one latch frame (R320): `held` is what it holds where an upset has changed it, `written` marks distributed memory written
since it became active, `entryBad` an uncorrectable error of its signature entry. -/
def latchCheck (f : Nat) (staged : Bool) (held : Option Frame) (written : Bool) (entryBad : Bool) (s : State) : State :=
  let ctx := if staged then stagedCtx s else s.rd CFG_LATCH_STATUS.active_ctx
  let s := match held with
    | some d => setLatch s staged f d
    | none => s
  if !dieOpen s 2 || !dieOpen s 3 then s
  else if (if staged then stagedState s != stReady && stagedState s != stOutClean else (activeCtx s).isNone || ((written || s.ctxs.dirty.contains f) && isLutFrame f)) then s
  else if !staged && injArmed s 0x04 f then
    queueRepair (injectionLogged s s.now 2) { ctx := ctx, frame := f, latch := true, staged := false, injected := true }
  else
    let r : Repair := { ctx := ctx, frame := f, latch := true, staged := staged, injected := false }
    let s := if entryBad then rebuildSig s r else s
    if frameSig ctx f (latchFrame s staged f) = latchSig s staged f then s else queueRepair s r

/-- An engine reads its next frame (R321, R322). -/
def frameCheck (b : Bool) (held : Option Frame) (entryBad : Bool) (s : State) : State :=
  let e := engine s b
  if !dieOpen s 3 || !e.sweeping || !decide (e.pos < shareSize s b) then s
  else
    let (c, f) := shareFrame s b e.pos
    let s := advanceTo s (e.last + hcs s 36)
    let s := setEngine s b { e with pos := e.pos + 1, last := s.now }
    let s := match held with
      | some d => { s with ctxs := { s.ctxs with planes := sparseSet 0 s.ctxs.planes (planeKey c f) d } }
      | none => s
    if c = 8 then
      match s.imgs.load with
      | some l =>
        if phStreaming ≤ loadPhase s ∧ (sparseFind s.ctxs.sigs (planeKey 8 f)).any (fun g => entryBad || g != frameSig l.ctx f (planeFrame s 8 f)) then
          endLoad s l .integrityFail
        else s
      | none => s
    else if !committed s c then s
    else
      let s := if entryBad then rebuildSig s { ctx := c, frame := f, latch := false, staged := false, injected := false } else s
      if injArmed s 0x03 (f + c * 2 ^ 18) then
        queueRepair (injectionLogged s s.now 3) { ctx := c, frame := f, latch := false, staged := false, injected := true }
      else if frameSig c f (planeFrame s c f) = sparseGet 0 s.ctxs.sigs (planeKey c f) then s
      else queueRepair s { ctx := c, frame := f, latch := false, staged := false, injected := false }

/-- No source matches: the frame is lost (R326). -/
def repairLost (s : State) (r : Repair) : State :=
  let t := lastRepair (fault s .repairLost r.ctx r.frame (die := if r.latch then 2 else 3)) r 3
  let known := t.integ.lost.any (fun q => q.ctx == r.ctx && q.frame == r.frame && q.latch == r.latch && q.staged == r.staged)
  let t := if known then t else showRepairs { t with integ := { t.integ with lost := t.integ.lost ++ [r] } }
  let t := if activeCtx t != some r.ctx then t else if t.rd DEV_MODE.mode = modeShadow then shadowFault t 2 else selfFault t 2
  setCause t scLostFrame

/-- Distributed memory that was written back returns to the image's contents, under a new signature (R324). -/
def dmRevert (s : State) (r : Repair) (d : Frame) : State :=
  let k := planeKey r.ctx r.frame
  let t := { s with ctxs := { s.ctxs with sigs := sparsePut s.ctxs.sigs k (frameSig r.ctx r.frame d),
                                          planes := sparseSet 0 s.ctxs.planes k d, writtenBack := sparseSet false s.ctxs.writtenBack k false } }
  repaired (fault t .dmReverted r.ctx r.frame (die := 3)) r 2 d

/-- The repair writes the frame `d` of source `src`, or restores the image's contents of distributed memory that was written back (R323, R324). A
frame that crosses poisoned is not written, and its repair waits again (R16; DESIGN CHOICE, log entry 174). -/
def writeRepair (s : State) (r : Repair) (src : Nat) (d : Frame) : State :=
  let p := takePoison s (.repair (Fin.ofNat 228352 r.frame))
  if p.1 then queueRepair p.2 r
  else if src = 2 ∧ !r.latch ∧ sparseGet false s.ctxs.writtenBack (planeKey r.ctx r.frame) then dmRevert s r d
  else repaired s r src d

/-- The next queued repair is carried out; `net` is how its reads of the store come through the network (R215 to R217). -/
def frameRepair (net : NetWay) (s : State) : State :=
  if !dieOpen s 2 || !dieOpen s 3 then s
  else
    match nextRepair s with
    | none => s
    | some r =>
      let ok := net == .ok
      let t := showRepairs { s with integ := { s.integ with queue := s.integ.queue.erase r } }
      let t := if r.latch then t else repairEnded t r
      let chain := chainFrame (repairChain t r) r.frame
      let reads := (nearSource t r).isNone && chain.isSome
      let t := if reads then wayCounts t (if repairerB s r.ctx then 0xA3 else 0xA2) t.now net else t
      let u := match repairSource t r ok with
        | some (src, d) => writeRepair t r src d
        | none =>
          match chain with
          | some d =>
            if ok && tagsOk (repairChain t r) && sparseGet false t.ctxs.writtenBack (planeKey r.ctx r.frame) then writeRepair t r 2 d else repairLost t r
          | none => repairLost t r
      if reads then chainRead u (repairerB s r.ctx) else u

/-! ## Meanings -/

/-- VOTE_CORRECTION (R319): the copy is rewritten from the majority, so no value changes. -/
def execVoteCorrection (s : State) : Res := .next (if dieOpen s 2 then s.inc INT_COUNTS.vote_corrections else s)

/-- LATCH_CHECK_FRAME (R320, R317). -/
def execLatchCheckFrame (frame : Fin 228352) (staged : Bool) (held : Option Frame) (written : Bool) (s : State) (entryBad : Bool := false) : Res :=
  .next (latchCheck frame staged held written entryBad s)

/-- PRIVET_SWEEP_START (R321, R328). -/
def execPrivetSweepStart (engineB : Bool) (katOk : Bool) (s : State) : Res := .next (sweepStart engineB katOk s)

/-- PRIVET_FRAME_CHECK (R321, R322). -/
def execPrivetFrameCheck (engineB : Bool) (held : Option Frame) (entryBad : Bool) (s : State) : Res :=
  .next (frameCheck engineB held entryBad s)

/-- PRIVET_SWEEP_REPORT (R328, R329). -/
def execPrivetSweepReport (engineB : Bool) (slip : Bool) (s : State) : Res := .next (sweepReport engineB slip s)

/-- PRIVET_REPORT_LATE (R328). -/
def execPrivetReportLate (engineB : Bool) (s : State) : Res := .next (reportLate engineB s)

/-- FRAME_REPAIR (R323 to R327). -/
def execFrameRepair (s : State) (net : NetWay := .ok) : Res := .next (frameRepair net s)

end Sys2Proof.Machine
end

