-- ==== Sys2Proof/Machine/Security.lean ====
section
/-! DEFINITION. Identity, keys and attestation (chapter 11), and the key commands (R250, R270). -/

namespace Sys2Proof.Machine

/-! ## Debug sessions (R285 to R287) -/

/-- Seconds left in the open session, rounded up. -/
def debugRemain (s : State) : Nat :=
  match s.sec.expires with
  | some t => (t - s.now + secTicks - 1) / secTicks
  | none => 0

/-- A new nonce is drawn from the random source (R286). -/
def drawNonce (s : State) : State :=
  let (v, t) := s.fresh 128
  (List.range 4).foldl (fun t k => t.wr SEC_DEBUG_NONCE.bytes (bits v.toNat (32 * k) 32) k) t

/-- The nonce as its 16 bytes. -/
def nonceBytes (s : State) : List Byte := (List.range 4).flatMap (fun k => leBytes 4 (s.rd SEC_DEBUG_NONCE.bytes k))

/-- The session ends (R287): rights, test port and waiting captures go with it, and a new nonce is drawn. -/
def endSession (s : State) : State :=
  if s.sec.expires.isNone then s
  else
    let t := { s with sec := { s.sec with expires := none } }
    let t := (((t.wr SEC_STATUS.debug_open 0).wr SEC_STATUS.grants 0).wr SEC_STATUS.debug_signer 0).wr SEC_DEBUG_REMAIN.seconds 0
    let waiting := t.link.tracks.filter (fun u => u.op == 0x16 && u.phase == .started && !u.committed)
    drawNonce (waiting.foldl (fun t u => finish t u.id .accessDenied) t)

/-- The session's duration elapses (R287). -/
def sessionExpiry (s : State) : State :=
  match s.sec.expires with
  | some t => endSession (advanceTo s t)
  | none => s

/-- A token of DEBUG_UNLOCK is judged (R285, R286). -/
def debugToken (t : Track) (d : List Byte) (s : State) : State :=
  let dur := field d 0x38 4
  let grants := field d 0x3C 4
  if !(slice d 0 4 == ascii "NDDT" && field d 4 2 == 1 && decide (field d 6 1 < 4) && field d 7 1 == 0 && slice d 8 32 == fingerprint &&
       slice d 0x28 16 == nonceBytes s && decide (1 ≤ dur) && decide (dur ≤ 86400) && decide (grants < 8)) then finish s t.id .invalidField
  else
    match dualVerify s (signedAt d (field d 6 1) "NDL-TOKEN" 0x40 0x40) none with
    | .success =>
      let s1 := drawNonce { s with sec := { s.sec with expires := some (s.now + dur * secTicks) } }
      let s2 := ((s1.wr SEC_STATUS.debug_open 1).wr SEC_STATUS.grants grants).wr SEC_STATUS.debug_signer (field d 6 1)
      finish (commit (s2.wr SEC_DEBUG_REMAIN.seconds dur) t.id) t.id .success dur
    | st => finish s t.id st

/-- DEBUG_UNLOCK's end flag, and its token's address and length, as R399 wants them. -/
def Track.ends (t : Track) : Bool := (t.par 0x1C 1).testBit 0
def Track.tokenOk (t : Track) : Bool := t.par 0x10 8 % 8 == 0 && t.par 0x18 4 == 5421

/-- DEBUG_UNLOCK in its turn, with the token that it has read (R286, R399). -/
def debugRun (t : Track) (d : Option (List Byte)) (s : State) : State :=
  if t.ends then
    if t.par 0x10 8 ≠ 0 ∨ t.par 0x18 4 ≠ 0 then finish s t.id .invalidField else finish (commit (endSession s) t.id) t.id .success
  else if s.sec.debugDisabled then finish s t.id .modeForbids
  else
    match d with
    | some d => debugToken t d s
    | none => finish s t.id .invalidField

/-! ## Owner records (R277 to R280) -/

/-- Owner record kinds. -/
def okProgram : Nat := 1
def okRevoke : Nat := 2
def okDisable : Nat := 3

/-- SEC_STATUS follows the fuses. -/
def showFuses (s : State) : State := (s.wr SEC_STATUS.owner_slots (ownerSlotBits s)).wrb SEC_STATUS.debug_disabled s.sec.debugDisabled

/-- A fuse field is read by majority of its three copies (R274); none where all disagree. -/
def majority {α : Type} [DecidableEq α] (a b c : α) : Option α := if a = b ∨ a = c then some a else if b = c then some b else none

/-- The fields of owner slot `n` by majority. -/
def slotRead (s : State) (n : Nat) : Option OwnerSlot :=
  let k (i : Nat) : OwnerSlot := (s.sec.copies.toList.getD i FuseCopy.blank).slots.toList.getD n OwnerSlot.blank
  match majority (k 0).bits (k 1).bits (k 2).bits, majority (k 0).ed (k 1).ed (k 2).ed, majority (k 0).ml (k 1).ml (k 2).ml with
  | some b, some e, some m => some { bits := b, ed := e, ml := m }
  | _, _, _ => none

/-- The fuses as stage 0x01 reads them; none where a field's copies all disagree. -/
def fusesRead (s : State) : Option State :=
  let d (i : Nat) : Bool := (s.sec.copies.toList.getD i FuseCopy.blank).debugDisabled
  match slotRead s 0, slotRead s 1, slotRead s 2, slotRead s 3, majority (d 0) (d 1) (d 2) with
  | some a, some b, some c, some e, some x => some { s with sec := { s.sec with slots := #v[a, b, c, e], debugDisabled := x } }
  | _, _, _, _, _ => none

/-- The fuses and what was read of them take a value. -/
def setSlot (s : State) (n : Nat) (o : OwnerSlot) : State :=
  if h : n < 4 then
    showFuses { s with sec := { s.sec with slots := s.sec.slots.set n o,
                                           copies := s.sec.copies.map (fun (c : FuseCopy) => { c with slots := c.slots.set n o }) } }
  else s

/-- The status of an owner record by the checks of R279, in order. -/
def ownerChecks (s : State) (rec : Option (List Byte)) : Status :=
  let mode := s.rd DEV_MODE.mode
  if mode ≠ modeAssembly ∧ mode ≠ modeService then .modeForbids
  else
    match rec with
    | none => .poisoned
    | some d =>
      let kind := field d 6 1
      let target := field d 7 1
      let signer := field d 8 1
      let newEd := field d 0x30 32
      let newMl := field d 0x50 32
      if !(slice d 0 4 == ascii "NDOR" && field d 4 2 == 1 && decide (1 ≤ kind) && decide (kind ≤ 3) && zeros d 9 7 &&
           slice d 0x10 32 == fingerprint && decide (signer < 4) &&
           (kind == okProgram || (newEd == 0 && newMl == 0))) then .invalidField
      else
        let allBlank := (List.range 4).all (fun n => (ownerSlot s n).state == osBlank)
        let enrol := allBlank && kind == okProgram && target == 0 && signer == 0
        match dualVerify s (signedAt d signer "NDL-OWNER" 0x70 0x70) (if enrol then some (newEd, newMl) else none) with
        | .success =>
          let st := (ownerSlot s target).state
          let programmed := ((List.range 4).filter (fun n => (ownerSlot s n).state == osProgrammed)).length
          if kind = okProgram then (if target < 4 ∧ st = osBlank then .success else .invalidField)
          else if kind = okRevoke then (if target < 4 ∧ st = osProgrammed ∧ 1 < programmed then .success else .invalidField)
          else .success
        | st => st

/-- A record that has passed is fused (R280); `cut` is a power loss while the fuses are written, after which nothing else happens. -/
def ownerFuse (s : State) (d : List Byte) (cut : Bool) : State :=
  let kind := field d 6 1
  let n := field d 7 1
  let o := ownerSlot s n
  if kind = okProgram then
    let h : OwnerSlot := { bits := 0, ed := BitVec.ofNat 256 (field d 0x30 32), ml := BitVec.ofNat 256 (field d 0x50 32) }
    setSlot s n (if cut then h else { h with bits := 1 })
  else if kind = okRevoke then
    if cut then s
    else
      let t := setSlot s n { o with bits := 3 }
      if t.sec.expires.isSome && t.rd SEC_STATUS.debug_signer == n then endSession t else t
  else showFuses { s with sec := { s.sec with debugDisabled := true,
                                              copies := s.sec.copies.map (fun (c : FuseCopy) => { c with debugDisabled := true }) } }

/-- An owner record in its turn (R279, R280); `rec` is what host memory holds at SEC_OWNER_ADDR, none where the read fails. -/
def ownerApply (rec : Option (List Byte)) (cut : Bool) (s : State) : State :=
  let st := ownerChecks s rec
  let t := if st = .success then ownerFuse s (rec.getD []) cut else s
  if st = .success ∧ cut then t.wr SEC_OWNER_CTRL.busy 1
  else ((t.wr SEC_OWNER_CTRL.busy 0).wr SEC_OWNER_CTRL.result st.code).wr SEC_OWNER_CTRL.done 1

/-! ## Attestation (R288) -/

/-- The first byte of the report's flags. -/
def attestFlags (s : State) : Nat :=
  b2n (s.rdb DEV_MODE.degraded) + 2 * b2n (s.rdb DEV_MODE.safe_state) + 4 * b2n s.sec.expires.isSome +
    8 * (s.rd SEC_STATUS.grants % 2) + 16 * b2n (s.rd DEV_MODE.mode == modeLead || s.rd DEV_MODE.mode == modeShadow)

/-- The digest of the schedule table in force (R111); zero when none runs. -/
def scheduleDigest (s : State) : List Byte :=
  if running s then leBytes 64 ((bankOf s (runBank s)).elim 0 (fun k => (sha3_512 k.bytes).toNat)) else List.replicate 64 0

/-- The COMMITTED contexts as a bit map. -/
def committedBits (s : State) : Nat := (List.range 8).foldl (fun a c => a + b2n (committed s c) * 2 ^ c) 0

/-- The signed body of the report. -/
def attestBody (s : State) (nonce : List Byte) : List Byte :=
  let c := counter s
  ascii "NDAR" ++ leBytes 2 1 ++ leBytes 2 0x2F0 ++
  leBytes 1 4 ++ leBytes 1 1 ++ leBytes 1 0xB0 ++ leBytes 1 (if s.grade2 then 2 else 3) ++ leBytes 1 (s.rd DEV_MODE.mode) ++
  leBytes 1 (attestFlags s) ++ leBytes 1 (ownerSlotBits s) ++ leBytes 1 (committedBits s) ++
  leBytes 6 (timeSec c) ++ leBytes 4 (timeNs c) ++ leBytes 2 (timeFraction c) ++ leBytes 1 (s.rd CFG_LATCH_STATUS.active_ctx) ++
  leBytes 1 (b2n s.sec.debugDisabled) ++ leBytes 2 0 ++ nonce ++ fingerprint ++ leBytes 64 (ownerHash s).toNat ++
  (List.range 8).flatMap (fun k => leBytes 64 (((sparseFind s.imgs.ctx k).map (fun i => i.digest.toNat)).getD 0)) ++
  scheduleDigest s ++ leBytes 8 ((List.range 64).foldl (fun a k => a + b2n (slotState s k != 0) * 2 ^ k) 0) ++
  leBytes 4 (debugRemain s) ++ leBytes 4 0

/-- The report with its two signatures and padding; `rnd` is the random input of the second (FIPS 204). -/
def attestReport (s : State) (rnd : BitVec 256) (nonce : List Byte) : List Byte :=
  let body := attestBody s nonce
  let d := leBytes 64 (sha3_512 body).toNat
  body ++ slice (edSign (keySeed 1) (ascii "NDL-ATTEST" ++ d)) 0 64 ++
    slice (mldsaSign (keySeed 2) rnd d (ascii "NDL-ATTEST")) 0 3309 ++ List.replicate 3 0

/-- ATTEST (R288, R398). -/
def attest (t : Track) (s : State) : State :=
  let keys := (t.par 0x1C 1).testBit 0
  let need := if keys then 7296 else 4128
  if t.par 0x10 8 % 8 ≠ 0 ∨ t.par 0x18 4 < need then finish s t.id .invalidField
  else
    let (rnd, s) := s.fresh 256
    let rep := attestReport s rnd (leBytes 32 (t.par 0x20 32))
    let all := if keys then rep ++ slice edPub 0 32 ++ slice mldsaPub 0 1952 ++ slice mlkemPub 0 1184 else rep
    finish (writeHost (commit s t.id) (t.par 0x10 8) all) t.id .success need

/-! ## Key commands (R250, R383) -/

/-- The slot is the key of an enabled region, or the new or previous key of a queued or running sweep (R250). -/
def slotInUse (s : State) (m : Nat) : Bool :=
  (List.range 32).any (fun n => rgEnabled s n && rgMode s n != moPlain && rgKey s n == m) ||
    s.enc.sweeps.any (fun w => w.oldKey == m || (match w.kind with | .rekey _ k => k == m | _ => false))

/-- The slot is written with the key that the command holds: the commit point (R250). -/
def installKey (t : Track) (s : State) : State :=
  let m := t.par 0x10 1
  finish (setSlotState { s with enc := { s.enc with keys := sparsePut s.enc.keys m (BitVec.ofNat 512 (field t.data 0 64)) } } m 1) t.id .success

/-- The key is known: the slot is checked again and written. -/
def keyKnown (t : Track) (k : List Byte) (s : State) : State :=
  if slotInUse s (t.par 0x10 1) then finish s t.id .busy
  else reachCommit (holdData s t.id k) t (installKey { t with data := k })

/-- The blob of KEY_INSTALL has arrived. -/
def keyBlob (t : Track) (d : List Byte) (s : State) : State :=
  match unwrapBlob s d 1 .invalidField with
  | (.success, k) => keyKnown t k s
  | (st, _) => finish s t.id st

/-! ## The Porter's operations, one at a time (R282) -/

/-- The operation can be performed: it awaits no bytes. -/
def porterMay (s : State) : PorterOp → Bool
  | .command id _ => s.link.reads.all (fun r => r.id != id)
  | .recordRead => false
  | _ => true

/-- Performs an operation; a command that has ended meanwhile asks for nothing more. -/
def porterDo (s : State) : PorterOp → State
  | .record rec cut => ownerApply rec cut s
  | .recordRead => s
  | .wrap id => match s.imgs.load with
    | some l => if l.id = id ∧ loadPhase s = phChecking then wrapRead s l else s
    | none => s
  | .command id d => match trackOf s id with
    | none => s
    | some t =>
      if t.phase ≠ .started then s
      else if t.op = 0x70 then attest t s
      else if t.op = 0x71 then debugRun t d s
      else match d with
        | some d => keyBlob t d s
        | none => s

/-- The first of the accepted operations takes its turn: its execution time counts from now (R367). -/
def turnBegins (s : State) : State :=
  match s.sec.ops with
  | .command id _ :: _ => mapTrack s id (fun t => if t.phase = .started then { t with startTick := s.now } else t)
  | _ => s

/-- The accepted operations are performed in order, up to one that still awaits its bytes; at most `n` of them. -/
def porterRun : Nat → State → State
  | 0, s => s
  | n + 1, s =>
    match s.sec.ops with
    | [] => s
    | o :: rest => if porterMay s o then porterRun n (turnBegins (porterDo { s with sec := { s.sec with ops := rest } } o)) else s

/-- The operations whose turn has come. -/
def porterTurn (s : State) : State := porterRun s.sec.ops.length s

/-- An operation is accepted behind those that wait. -/
def porterAccept (s : State) (o : PorterOp) : State := porterTurn { s with sec := { s.sec with ops := s.sec.ops ++ [o] } }

/-- The bytes of a command's operation have arrived. -/
def porterData (s : State) (id : Nat) (d : List Byte) : State :=
  porterTurn { s with sec := { s.sec with ops := s.sec.ops.map (fun o => if o = .command id none then .command id (some d) else o) } }

/-- A go write to SEC_OWNER_CTRL with a record of kind `kind` (R279, R290): the record takes its turn. -/
def ownerRecord (kind : Nat) (confirm : Byte) (rec : Option (List Byte)) (cut : Bool) (s : State) : State :=
  if confirm ≠ 0x5A ∨ s.rdb SEC_OWNER_CTRL.busy ∨ !porterUp s then s
  else if rec.any (fun d => field d 6 1 != kind && decide (1 ≤ field d 6 1) && decide (field d 6 1 ≤ 3)) then s
  else porterAccept (s.wr SEC_OWNER_CTRL.busy 1) (.record rec cut)

/-- The handle of the read of an owner record, which no command has; the record's bytes (R280). -/
def ownerRead : Nat := 2 ^ 64
def ownerLength : Nat := 0x155D

/-- A REGISTER_WRITE of `v` to SEC_OWNER_CTRL: with go and confirm, the record at SEC_OWNER_ADDR is read from host memory (R279, R290). -/
def ownerGo (v : Nat) (s : State) : State :=
  if !v.testBit 0 ∨ bits v 24 8 ≠ 0x5A ∨ s.rdb SEC_OWNER_CTRL.busy ∨ !porterUp s then s
  else porterAccept (readHost (s.wr SEC_OWNER_CTRL.busy 1) ownerRead (s.rd SEC_OWNER_ADDR_LO.addr_lo + s.rd SEC_OWNER_ADDR_HI.addr_hi * 2 ^ 32)
    ownerLength) .recordRead

/-- Host memory has delivered the record, or the read has failed. -/
def ownerData (rec : Option (List Byte)) (s : State) : State :=
  let s1 := dropRead s ownerRead
  porterTurn { s1 with sec := { s1.sec with ops := s1.sec.ops.map (fun o => if o = .recordRead then .record rec false else o) } }

/-- DEBUG_UNLOCK is accepted: its token is read, and it takes its turn (R282, R286). -/
def debugUnlock (t : Track) (s : State) : State :=
  porterAccept (if !t.ends && t.tokenOk then readHost s t.id (t.par 0x10 8) (t.par 0x18 4) else s) (.command t.id none)

/-- KEY_INSTALL (R250, R383). -/
def keyInstall (t : Track) (s : State) : State :=
  let m := t.par 0x10 1
  let gen := (t.par 0x11 1).testBit 0
  let addr := t.par 0x18 8
  let len := t.par 0x20 4
  if m = 0 ∨ 62 < m ∨ (gen ∧ (addr ≠ 0 ∨ len ≠ 0)) ∨ (!gen ∧ (len ≠ 6565 ∨ addr % 8 ≠ 0)) then finish s t.id .invalidField
  else if slotInUse s m then finish s t.id .busy
  else if gen then
    let (v, s1) := s.fresh 512
    keyKnown t (leBytes 64 v.toNat) s1
  else porterAccept (readHost s t.id addr len) (.command t.id none)

/-- The slot is zeroised (R250). -/
def zeroiseSlot (s : State) (m : Nat) : State :=
  setSlotState { s with enc := { s.enc with keys := sparseDel s.enc.keys m } } m 0

/-- KEY_RETIRE (R250, R383). -/
def keyRetire (t : Track) (s : State) : State :=
  let m := t.par 0x10 1
  if m = 0 ∨ 62 < m then finish s t.id .invalidField
  else if slotInUse s m then finish s t.id .busy
  else reachCommit s t (fun s => finish (zeroiseSlot s m) t.id .success)

/-- REGION_REKEY's sweep is queued; its start is the commit point (R270). -/
def rekeyQueue (t : Track) (s : State) : State := queueSweep s (t.par 0x10 1) (.rekey t.id (t.par 0x11 1))

/-- REGION_REKEY (R270, R384). In a prepared change the queueing waits for the commit. -/
def regionRekey (t : Track) (s : State) : State :=
  let n := t.par 0x10 1
  let k := t.par 0x11 1
  if k = 0 ∨ 63 < k ∨ 30 < n then finish s t.id .invalidField
  else if !rgEnabled s n ∨ rgMode s n = moPlain then finish s t.id .invalidField
  else if hasSweep s n then finish s t.id .busy
  else if slotState s k ≠ 1 then finish s t.id .notReady
  else if t.pair.isSome then reachCommit s t (rekeyQueue t)
  else rekeyQueue t (mapTrack s t.id (fun t => { t with ahead := s.enc.sweeps.length }))

/-! ## Meanings -/

/-- OWNER_PROGRAM (R279, R280, R290). -/
def execOwnerProgram (confirm : Byte) (record : Option (List Byte)) (powerLoss : Bool) (s : State) : Res :=
  .next (regWrite 0x170088 s (ownerRecord okProgram confirm record powerLoss))

/-- OWNER_REVOKE (R279, R280, R290). -/
def execOwnerRevoke (confirm : Byte) (record : Option (List Byte)) (powerLoss : Bool) (s : State) : Res :=
  .next (regWrite 0x170088 s (ownerRecord okRevoke confirm record powerLoss))

/-- OWNER_DISABLE_DEBUG (R279, R280, R290). -/
def execOwnerDisableDebug (confirm : Byte) (record : Option (List Byte)) (s : State) : Res :=
  .next (regWrite 0x170088 s (ownerRecord okDisable confirm record false))

/-- DEBUG_SESSION_EXPIRY (R287). -/
def execDebugSessionExpiry (s : State) : Res := .next (sessionExpiry s)

/-- KEY_INSTALL (R250, R383). -/
def execKeyInstall (id : Nat) (s : State) : Res := .next (startCommand 0x30 id s keyInstall)

/-- KEY_RETIRE (R250, R383). -/
def execKeyRetire (id : Nat) (s : State) : Res := .next (startCommand 0x31 id s keyRetire)

/-- REGION_REKEY (R270, R384). -/
def execRegionRekey (id : Nat) (s : State) : Res := .next (startCommand 0x32 id s regionRekey)

/-- ATTEST (R288, R398). -/
def execAttest (id : Nat) (s : State) : Res := .next (startCommand 0x70 id s (fun t s => porterAccept s (.command t.id none)))

/-- DEBUG_UNLOCK (R286, R399). -/
def execDebugUnlock (id : Nat) (s : State) : Res := .next (startCommand 0x71 id s debugUnlock)

end Sys2Proof.Machine
end

