-- ==== Sys2Proof/Machine/Rings.lean ====
section
/-! DEFINITION. Rings and doorbells (chapter 14): queues and quotas, doorbells, fetch rounds and the sequence window, completions and their
interrupts, draining and the execution-time bounds of R367. -/

namespace Sys2Proof.Machine

/-! ## Functions and queues (R336, R337, R362) -/

def quotaBase (s : State) (f : Nat) : Nat := s.rd PCIE_FN_CFG.queue_base f
def quotaCount (s : State) (f : Nat) : Nat := s.rd PCIE_FN_CFG.queue_count f

/-- Most queues a function may have, and the doorbell pages of its BAR2 (R336, R337). -/
def functionLimit (f : Nat) : Nat := if f < 4 then 256 else 16

/-- The global number of local queue `k` of function `f`. -/
def globalQueue (s : State) (f k : Nat) : Option Nat :=
  if k < quotaCount s f ∧ k < functionLimit f then some (quotaBase s f + k) else none

def qState (s : State) (q : Nat) : Nat := s.rd HCI_Q_STATUS.state q
def qAdmin (s : State) (q : Nat) : Bool := s.rdb HCI_Q_STATUS.admin q
def qFunction (s : State) (q : Nat) : Nat := s.rd HCI_Q_STATUS.function q
def localIndex (s : State) (q : Nat) : Nat := q - quotaBase s (qFunction s q)

def queueOf (s : State) (q : Nat) : Option Queue := sparseFind s.link.queues q
def setQueue (s : State) (q : Nat) (x : Queue) : State := { s with link := { s.link with queues := sparsePut s.link.queues q x } }

/-- The commands of queue `q` that are fetched and not completed. -/
def queueTracks (s : State) (q : Nat) : List Track := s.link.tracks.filter (fun t => t.q == q && t.pair.isNone)

/-- HCI_Q_STATUS_q.outstanding follows the tracking table. -/
def showOutstanding (s : State) (q : Nat) : State := s.wr HCI_Q_STATUS.outstanding (queueTracks s q).length q

/-- A discarded access is counted (R9, R340). -/
def badAccess (s : State) : State := s.inc PCIE_ERR_COUNTS.bad_access

/-- A queue enters ERROR (R341); the first error stands. -/
def queueError (s : State) (q code : Nat) : State :=
  if qState s q = qError then s
  else raiseEvent ((s.wr HCI_Q_STATUS.state qError q).wr HCI_Q_STATUS.error code q) evQueueError

/-- Class Q: the queue's ring state and window are reset, and it is FREE (R357). -/
def classQ (s : State) (q : Nat) : State :=
  let t := { s with link := { s.link with queues := sparseDel s.link.queues q } }
  { t with regs := resetRegs .q (fun off _ => off == HCI_Q_STATUS.state.offset q 0) t.regs }

/-- A queue as it is enabled: `first` is its first sequence number (R349). -/
def newQueue (sqBase cqBase sqLog cqLog vector aggCount aggTime first : Nat) : Queue :=
  { sqBase := sqBase, cqBase := cqBase, sqLog := sqLog, cqLog := cqLog, sqTail := 0, sqHead := 0, cqHead := 0, cqTail := 0, phase := true,
    h := (first + 2 ^ 48 - 1) % 2 ^ 48, window := [], vector := vector, aggCount := aggCount, aggTime := aggTime, unsignalled := 0,
    oldest := 0, disabledBy := none, drainLimit := 0, deletePending := false, writesFailed := false }

/-- Queue `q` of function `f` is ENABLED. -/
def enableQueue (s : State) (q f : Nat) (admin : Bool) (x : Queue) : State :=
  (((setQueue s q x).wr HCI_Q_STATUS.state qEnabled q).wrb HCI_Q_STATUS.admin admin q).wr HCI_Q_STATUS.function f q

/-! ## Doorbells (R340) -/

/-- A write of an SQ tail. -/
def sqTail (f k v : Nat) (s : State) : State :=
  if !s.link.up then s
  else
    match (globalQueue s f k).bind (fun q => (queueOf s q).map (fun x => (q, x))) with
    | none => badAccess s
    | some (q, x) => if 2 ^ x.sqLog ≤ v then queueError s q 1 else setQueue s q { x with sqTail := v }

/-- A write of a CQ head: within the ring and the occupied span. -/
def cqHead (f k v : Nat) (s : State) : State :=
  if !s.link.up then s
  else
    match (globalQueue s f k).bind (fun q => (queueOf s q).map (fun x => (q, x))) with
    | none => badAccess s
    | some (q, x) =>
      let n := 2 ^ x.cqLog
      if n ≤ v ∨ (x.cqTail + n - x.cqHead) % n < (v + n - x.cqHead) % n then queueError s q 2 else setQueue s q { x with cqHead := v }

/-! ## The sequence window (R349 to R351) -/

/-- `a` is ahead of `b` (R349). -/
def ahead (a b : Nat) : Bool :=
  let d := (a + 2 ^ 48 - b) % 2 ^ 48
  decide (1 ≤ d) && decide (d ≤ 2 ^ 47)

/-- `a` lies in the window of the 1,024 numbers up to `h`. -/
def inWindow (a h : Nat) : Bool := decide ((h + 2 ^ 48 - a) % 2 ^ 48 < 1024)

def winEntry (x : Queue) (seq : Nat) : Option WinEntry := x.window.find? (fun w => w.seq == seq)

/-- The entry of a number replaced or added. -/
def putWin (x : Queue) (w : WinEntry) : Queue := { x with window := x.window.filter (fun v => v.seq != w.seq) ++ [w] }

/-- A number is marked executed at its fetch; H moves to one ahead of it, and the window with H. -/
def markSeq (x : Queue) (seq cid : Nat) : Queue :=
  let w : WinEntry := { seq := seq, executed := true, note := false, done := false, cid := cid, status := 0, result := 0 }
  if ahead seq x.h then putWin { x with h := seq, window := x.window.filter (fun v => inWindow v.seq seq) } w else putWin x w

/-! ## What R345 checks at the fetch -/

/-- Every opcode of R369. -/
def opcodes : List Nat :=
  [0x01, 0x02, 0x03, 0x04, 0x05, 0x06, 0x10, 0x11, 0x12, 0x13, 0x14, 0x15, 0x16, 0x20, 0x21, 0x22, 0x30, 0x31, 0x32, 0x40, 0x41, 0x42,
   0x43, 0x44, 0x50, 0x51, 0x52, 0x53, 0x54, 0x60, 0x61, 0x62, 0x63, 0x70, 0x71, 0x7F]

/-- The opcodes that functions other than PF0 may issue (R338). -/
def openOpcodes : List Nat := [0x01, 0x02, 0x03, 0x04, 0x05, 0x06, 0x20, 0x21, 0x22, 0x40, 0x61]

/-- The reserved bits of each command's parameters, as (first bit, width) from the start of the entry. -/
def reservedBits (op kind : Nat) : List (Nat × Nat) :=
  let b (o n : Nat) : Nat × Nat := (8 * o, 8 * n)
  let hi (o k : Nat) : Nat × Nat := (8 * o + k, 8 - k)
  match op with
  | 0x01 | 0x02 | 0x40 | 0x51 => [b 0x10 48]
  | 0x03 => [b 0x12 6, b 0x1E 34]
  | 0x04 => [b 0x2E 18]
  | 0x05 | 0x06 | 0x32 | 0x42 | 0x60 | 0x63 => [b 0x12 46]
  | 0x10 | 0x11 => [b 0x1D 35]
  | 0x12 | 0x15 => [b 0x11 47]
  | 0x13 => [hi 0x11 3, b 0x14 4, b 0x24 28]
  | 0x14 => [hi 0x1C 1, b 0x1D 3, b 0x2C 20]
  | 0x16 => [hi 0x14 1, b 0x15 3, b 0x24 4, b 0x34 12]
  | 0x20 => [hi 0x24 2, b 0x25 27]
  | 0x21 => [(8 * 0x24, 1), hi 0x24 2, b 0x25 27]
  | 0x22 => [b 0x1C 36]
  | 0x30 => [hi 0x11 1, b 0x12 6, b 0x24 28]
  | 0x31 => [b 0x11 47]
  | 0x41 => [hi 0x11 1, b 0x12 6, b 0x24 28] ++ (if kind = 0 then [b 0x20 4] else if kind = 2 then [b 0x1C 8] else [])
  | 0x43 => [hi 0x12 2, b 0x13 1, b 0x2C 20]
  | 0x44 => [hi 0x12 1, b 0x13 1, b 0x24 28]
  | 0x50 => [hi 0x12 1, b 0x13 5, b 0x1E 34]
  | 0x52 => [hi 0x10 1, b 0x11 47]
  | 0x53 => [b 0x15 3, b 0x20 32]
  | 0x54 => [b 0x15 43]
  | 0x61 => [b 0x1D 35]
  | 0x62 => [hi 0x1A 1, b 0x1B 37]
  | 0x70 => [hi 0x1C 1, b 0x1D 3]
  | 0x71 => [hi 0x1C 1, b 0x1D 35]
  | 0x7F => [hi 0x12 1, b 0x13 45]
  | _ => []

/-- The reserved bits of every entry (R344). -/
def headerReserved : List (Nat × Nat) := [(10, 6), (32, 32), (112, 16)]

def entryBits (e : Line) (o n : Nat) : Nat := bits e.toNat (8 * o) (8 * n)

/-- Every reserved field of the entry is zero. -/
def reservedZero (e : Line) : Bool :=
  (headerReserved ++ reservedBits (entryBits e 0 1) (entryBits e 0x10 1)).all (fun p => bits e.toNat p.1 p.2 == 0)

/-- Checks 2 to 4 of R345. -/
def entryRefusal (f : Nat) (e : Line) : Option Status :=
  let op := entryBits e 0 1
  if !opcodes.contains op then some .invalidOpcode
  else if f ≠ 0 ∧ !openOpcodes.contains op then some .accessDenied
  else if !reservedZero e then some .invalidField
  else none

/-! ## Fetching (R342, R345, R349, R48) -/

/-- The tracking entry of a fetched entry. -/
def newTrack (s : State) (q : Nat) (e : Line) (sqHead : Nat) : Track :=
  { id := s.link.nextId, q := q, seq := entryBits e 8 6, cid := entryBits e 2 2, op := entryBits e 0 1, irqNow := (entryBits e 1 1).testBit 0,
    fence := (entryBits e 1 1).testBit 1, entry := e, sqHead := sqHead, phase := .fetched, inWindow := false, committed := false,
    aborted := false, abortedBy := [], startTick := s.now, eventTick := none, overrun := false, status := 0, orig := 0, result := 0,
    result2 := 0, pair := none, data := [], ahead := 0 }

/-- The entry enters the tracking table. -/
def addTrack (s : State) (t : Track) : State :=
  { s with link := { s.link with tracks := s.link.tracks ++ [t], nextId := s.link.nextId + 1 } }

/-- Command `t` is finished with status `st` before it starts. -/
def Track.ended (t : Track) (st : Status) : Track := { t with phase := .finished, status := st.code }

/-- A fetched entry is checked: the window first, then opcode, permission and reserved fields. After MODE_SET DORMANT has committed, it is
cancelled unchecked. -/
def fetchEntry (s : State) (q : Nat) (e : Line) : State :=
  match queueOf s q with
  | none => s
  | some x =>
    let head := (x.sqHead + 1) % 2 ^ x.sqLog
    let x1 := { x with sqHead := head }
    let t := newTrack s q e head
    let put (x : Queue) (t : Track) : State := showOutstanding (addTrack (setQueue s q x) t) q
    if s.link.cancelAll then put x1 (t.ended .cancelled)
    else
      let mine (w : WinEntry) : State :=
        if w.executed then
          if w.done then
            put x1 { t with phase := .finished, status := Status.duplicate.code, orig := w.status, result := w.result, cid := w.cid }
          else put x1 { t with phase := .held }
        else start
      if ahead t.seq x.h then start
      else if !inWindow t.seq x.h then put x1 (t.ended .staleSequence)
      else
        match winEntry x t.seq with
        | some w => mine w
        | none => start
where
  /-- The number is marked, and the other checks decide whether the command may start. -/
  start : State :=
    match queueOf s q with
    | none => s
    | some x =>
      let head := (x.sqHead + 1) % 2 ^ x.sqLog
      let t := { newTrack s q e head with inWindow := true }
      let x1 := markSeq { x with sqHead := head } t.seq t.cid
      let t1 := match entryRefusal (qFunction s q) e with
        | some st => t.ended st
        | none => t
      showOutstanding (addTrack (setQueue s q x1) t1) q

/-- Queue `q` may be fetched: it is ENABLED and not empty, below both limits, and its completion ring has more free slots than it has
commands outstanding (R342). -/
def mayFetch (s : State) (q : Nat) : Bool :=
  match queueOf s q with
  | none => false
  | some x =>
    let n := 2 ^ x.cqLog
    let free := n - 1 - (x.cqTail + n - x.cqHead) % n
    let out := (queueTracks s q).length
    qState s q == qEnabled && x.sqHead != x.sqTail && decide (out < 64) && decide ((s.link.tracks.filter (fun t => t.pair.isNone)).length < 4096) && decide (out < free)

/-- One turn of a queue: up to `k` entries. -/
def fetchTurn (q : Nat) : Nat → List Line → State → State × List Line
  | 0, es, s => (s, es)
  | _ + 1, [], s => (s, [])
  | k + 1, e :: es, s => if mayFetch s q then fetchTurn q k es (fetchEntry s q e) else (s, e :: es)

/-- The HCI fetches: the link is up and not training, the Porter is ready, and no fence of the base die holds it. -/
def fetching (s : State) : Bool := s.link.up && !s.link.training && (if s.link.cancelAll then !s.boot.pmeAcked else porterUp s)

/-- One fetch round over the entries that the rings hold, in the order in which they are read (R342). -/
def fetchRound (es : List Line) (s : State) : State :=
  if !fetching s then s
  else
    let qs := s.link.queues.map (fun p => p.1)
    let others := qs.filter (fun q => !qAdmin s q)
    let order := qs.filter (fun q => qAdmin s q) ++ others.filter (fun q => decide (s.link.lastAq < q)) ++
      others.filter (fun q => decide (q ≤ s.link.lastAq))
    (order.foldl (fun (a : State × List Line) q =>
      if mayFetch a.1 q && !a.2.isEmpty then
        let r := fetchTurn q 8 a.2 a.1
        (if qAdmin a.1 q then r.1 else { r.1 with link := { r.1.link with lastAq := q } }, r.2)
      else a) (s, es)).1

/-! ## Draining (R356, R343) -/

/-- A queue that holds no command any more ends its disable, and the deletion of an admin queue follows. -/
def settleQueue (s : State) (q : Nat) : State :=
  match queueOf s q with
  | none => s
  | some x =>
    if !(queueTracks s q).isEmpty ∨ (qState s q ≠ qDisabling ∧ x.disabledBy = none ∧ !x.deletePending) then s
    else
      let s1 := if qState s q = qDisabling then s.wr HCI_Q_STATUS.state qDisabled q else s
      let s2 := setQueue s1 q { x with disabledBy := none, drainLimit := 0 }
      let s3 := match x.disabledBy with
        | some id => finish s2 id .success
        | none => s2
      if x.deletePending then (classQ s3 q).wr HCI_AQ_STATUS.ready 0 (qFunction s q) else s3

/-! ## Completions (R347, R348, R350, R351, R360, R361) -/

/-- The bytes of a completion entry. -/
def completionBytes (t : Track) (localQ : Nat) (phase : Bool) : List Byte :=
  leBytes 2 t.cid ++ leBytes 2 localQ ++ leBytes 1 t.orig ++ leBytes 3 0 ++ leBytes 6 t.seq ++ leBytes 2 0 ++ leBytes 8 t.result ++
    leBytes 4 t.result2 ++ leBytes 2 t.sqHead ++ leBytes 1 t.status ++ leBytes 1 (b2n phase)

/-- What the window keeps of a completed command; CANCELLED, and DIE_RESET under R59, unmark its number and leave a note (R351). -/
def noteDone (x : Queue) (t : Track) : Queue :=
  match t.inWindow, winEntry x t.seq with
  | true, some w =>
    let gone := t.status == Status.cancelled.code || t.reissue
    putWin x { w with executed := !gone, note := gone, done := true, cid := t.cid, status := t.status, result := t.result }
  | _, _ => x

/-- `t`, or, where a message has gone out since `s` and fails, `t` with the queue in ERROR (R341). -/
def msixSent (s t : State) (q : Nat) (fails : Bool) : State :=
  if fails && decide (s.outbox.length < t.outbox.length) then queueError { t with outbox := s.outbox } q 4 else t

/-- The written completion signals its vector, or waits for coalescing (R361). -/
def signalCompletion (s : State) (q : Nat) (t : Track) : State :=
  match queueOf s q with
  | none => s
  | some x =>
    let n := x.unsignalled + 1
    let now := qAdmin s q || x.aggTime == 0 || t.irqNow || decide (x.aggCount ≤ n) ||
      (t.status != Status.success.code && t.status != Status.duplicate.code)
    if now then signalVector (setQueue s q { x with unsignalled := 0 }) (qFunction s q) x.vector
    else setQueue s q { x with unsignalled := n, oldest := if x.unsignalled = 0 then s.now else x.oldest }

/-- One completion entry is written and its tracking entry freed; once writes fail, completions are discarded (R341). Where its MSI-X message fails,
the queue enters ERROR with the entry written. A lead sends a mirror record (R516). -/
def postEntry (s : State) (t : Track) (refused : Bool) (msixFails : Bool := false) : State :=
  let gone (s : State) : State := { s with link := { s.link with tracks := s.link.tracks.filter (fun u => u.id != t.id) } }
  match queueOf s t.q with
  | none => gone s
  | some x =>
    let x1 := noteDone x t
    if x.writesFailed then showOutstanding (gone (setQueue s t.q x1)) t.q
    else if refused then showOutstanding (gone (queueError (setQueue s t.q { x1 with writesFailed := true }) t.q 4)) t.q
    else
      let s1 := writeHost s (x.cqBase + 32 * x.cqTail) (completionBytes t (localIndex s t.q) x.phase)
      let wraps := x.cqTail + 1 == 2 ^ x.cqLog
      let x2 := { x1 with cqTail := if wraps then 0 else x.cqTail + 1, phase := if wraps then !x.phase else x.phase }
      let s2 := sendData (showOutstanding (gone (setQueue s1 t.q x2)) t.q)
        (.record (qFunction s t.q) (localIndex s t.q) t.seq t.cid t.status t.result t.result2 (if t.op = 0x43 then some t.entry else none))
      msixSent s2 (signalCompletion s2 t.q t) t.q msixFails

/-- A finished command may be posted: not an ABORT before its target (R354), and during a base-die reset DIE_RESET alone (R59). -/
def mayPost (s : State) (t : Track) : Bool :=
  t.phase == .finished && t.pair.isNone && s.link.up && !s.link.training && !(s.link.tracks.any (fun u => u.abortedBy.contains t.id)) &&
    (s.boot.d0 == .idle || t.status == Status.dieReset.code)

/-- The completion of command `id` is posted, and the duplicates held for it follow with its values (R350). -/
def completionPost (id : Nat) (refused msixFails : Bool) (s : State) : State :=
  match trackOf s id with
  | none => s
  | some t =>
    if !mayPost s t then s
    else
      let held := if t.inWindow then s.link.tracks.filter (fun u => u.q == t.q && u.seq == t.seq && u.phase == .held) else []
      let s1 := t.abortedBy.foldl (fun s a => mapTrack s a (fun u => { u with eventTick := some s.now })) s
      let s2 := held.foldl (fun s u =>
        postEntry s { u with status := Status.duplicate.code, orig := t.status, result := t.result, result2 := 0, cid := t.cid } refused msixFails)
          (postEntry s1 t refused msixFails)
      porterTurn (settleQueue s2 t.q)

/-- agg_time has passed since the oldest unsignalled completion (R361). -/
def coalesce (q : Nat) (msixFails : Bool) (s : State) : State :=
  match queueOf s q with
  | none => s
  | some x =>
    if x.unsignalled = 0 then s
    else
      let s1 := advanceTo s (x.oldest + x.aggTime * usTicks)
      msixSent s1 (signalVector (setQueue s1 q { x with unsignalled := 0 }) (qFunction s q) x.vector) q msixFails

/-- Vector `v` of function `f` is unmasked: a pending message is sent (R360). -/
def msixUnmask (f v : Nat) (s : State) : State :=
  if !s.link.up then s
  else
    let k := 32 * f + v
    let s1 := { s with link := { s.link with masked := sparseSet true s.link.masked k false } }
    if sparseGet false s.link.pendingMsix k then
      { s1 with link := { s1.link with pendingMsix := sparseSet false s1.link.pendingMsix k false }, outbox := s1.outbox ++ [msixMessage s f v] }
    else s1

/-- The word at offset `o` of function `f`'s BAR4: of the table's entry of a vector its address, its data or its mask, or the pending bits
(R336, R360). -/
def msixRead (s : State) (f o : Nat) : Nat :=
  let k := 32 * f + o / 16
  let e := sparseGet (0, 0) s.link.msix k
  if o < 512 then
    (if o % 16 = 0 then e.1 % 2 ^ 32 else if o % 16 = 4 then e.1 / 2 ^ 32 else if o % 16 = 8 then e.2 else b2n (sparseGet true s.link.masked k))
  else if o = 0x1000 then (List.range 32).foldl (fun a v => a + b2n (sparseGet false s.link.pendingMsix (32 * f + v)) * 2 ^ v) 0
  else 0

/-- A write of `v` to a word of BAR4; the pending bits are read only. -/
def msixWrite (f o v : Nat) (s : State) : State :=
  let k := 32 * f + o / 16
  let e := sparseGet (0, 0) s.link.msix k
  let put (x : Nat × Nat) : State := { s with link := { s.link with msix := sparseSet (0, 0) s.link.msix k x } }
  if 512 ≤ o then s
  else if o % 16 = 0 then put (e.1 / 2 ^ 32 * 2 ^ 32 + v, e.2)
  else if o % 16 = 4 then put (e.1 % 2 ^ 32 + v * 2 ^ 32, e.2)
  else if o % 16 = 8 then put (e.1, v)
  else if v.testBit 0 then { s with link := { s.link with masked := sparseSet true s.link.masked k true } }
  else msixUnmask f (o / 16) s

/-! ## Execution-time bounds (R367, R369) -/

/-- Raw link rate in units of 0.1 Gb/s. -/
def linkRate (s : State) : Nat :=
  let g := match s.rd PCIE_LINK_STATUS.speed with
    | 1 => 25 | 2 => 50 | 3 => 80 | 4 => 160 | 5 => 320 | _ => 0
  s.rd PCIE_LINK_STATUS.width * g

/-- Ticks of `n` bytes at 1 GB/s, scaled to the link. -/
def byteTicks (s : State) (n : Nat) : Nat := if linkRate s = 0 then n * nsTicks else n * nsTicks * 2560 / linkRate s

/-- Bytes of all moves of a DMA command. -/
def dmaTotal (s : State) (id : Nat) : Nat :=
  match s.dmas.find? (fun d => d.id == id) with
  | some d => (d.elems.map (fun e => e.len)).foldl (· + ·) 0
  | none => 0

/-- The bound of a command in ticks, from its start or, for a time-driven one, from its event. -/
def boundTicks (s : State) (t : Track) : Option Nat :=
  let us := usTicks
  match t.op with
  | 0x01 | 0x02 | 0x03 | 0x40 | 0x63 | 0x13 => some (10 * us)
  | 0x04 | 0x06 | 0x15 | 0x31 => some (20 * us)
  | 0x10 | 0x11 =>
    let stored := match s.imgs.load with
      | some l => if l.id = t.id ∧ l.head ≠ [] then hdStored l.head else t.par 0x18 4
      | none => t.par 0x18 4
    some (3 * msTicks + byteTicks s stored)
  | 0x12 => some (2 * msTicks)
  | 0x14 | 0x42 | 0x43 | 0x61 | 0x62 => some (100 * us)
  | 0x16 => some msTicks
  | 0x20 | 0x21 => some (msTicks + byteTicks s (t.par 0x20 4))
  | 0x22 => some (msTicks + byteTicks s (dmaTotal s t.id))
  | 0x30 => some (5 * msTicks)
  | 0x32 => some (msTicks + 64 * rgLines s (t.par 0x10 1) * 4 * nsTicks / max 1 (s.rd ENC_CTRL.sweep_rate) * (1 + t.ahead))
  | 0x41 => some (if (t.par 0x11 1).testBit 0 then 10100 * us else 100 * us)
  | 0x44 => some (10 * msTicks + 4096 * t.par 0x14 4 * us)
  | 0x50 => some secTicks
  | 0x51 | 0x70 | 0x71 => some (10 * msTicks)
  | 0x52 | 0x54 => some (20 * msTicks)
  | 0x53 => some (3 * msTicks + byteTicks s ((s.link.tracks.filter (fun u => u.pair.isSome && (u.op == 0x10 || u.op == 0x11))).map (fun u => u.par 0x18 4)).sum)
  | 0x60 => some (if t.par 0x10 1 = 0 then 1200 * msTicks else if t.par 0x10 1 = 1 then 10 * secTicks else injBound s (t.par 0x11 1))
  | 0x7F => some (1100 * us)
  | _ => none

/-- Commands that wait for an event, and the ABORT, whose bound runs from its target's completion. -/
def fromEvent (op : Nat) : Bool := op == 0x03 || op == 0x13 || op == 0x16

/-- The command's operation waits for others of the Porter (R282): its time does not run yet. -/
def waitsTurn (s : State) (id : Nat) : Bool := (s.sec.ops.drop 1).any (fun o => match o with | .command i _ => i == id | _ => false)

/-- The tick at which a started command exceeds its bound; none before the event of a time-driven one, or its turn. -/
def boundEnd (s : State) (t : Track) : Option Nat :=
  if t.phase = .fetched ∨ t.phase = .held ∨ t.pair.isSome ∨ waitsTurn s t.id then none
  else if fromEvent t.op then t.eventTick.bind (fun e => (boundTicks s t).map (fun b => e + b))
  else (boundTicks s t).map (fun b => t.startTick + b)

/-- COMMAND_OVERRUN is written once for a command that is past its bound. -/
def overrun (id : Nat) (s : State) : State :=
  match trackOf s id with
  | none => s
  | some t =>
    match boundEnd s t with
    | none => s
    | some e =>
      if t.overrun then s
      else fault (mapTrack (advanceTo s e) id (fun t => { t with overrun := true })) .commandOverrun (qFunction s t.q)
        (t.seq + t.op * 2 ^ 48)

/-! ## Disabling (R356) -/

/-- The queue stops fetching: what has not started is cancelled, an armed swap is disarmed, a waiting capture is cancelled, and the rest
drains. -/
def beginDisable (s : State) (q : Nat) (by' : Option Nat) : State :=
  match queueOf s q with
  | none => s
  | some x =>
    let mine := queueTracks s q
    let s1 := mine.foldl (fun s t =>
      if t.phase = .fetched then finish s t.id .cancelled
      else if t.op = 0x16 ∧ t.phase = .started ∧ !t.committed then finish s t.id .cancelled
      else
        match s.ctxs.armed with
        | some a => if a.id = t.id then finishTime (disarm s) t.id .swapSkipped (if a.immediate then counter s else a.target) else s
        | none => s) s
    let ends := (queueTracks s1 q).filterMap (fun t => if t.phase = .started then (boundTicks s1 t).map (fun b => t.startTick + b) else none)
    let limit := ends.foldl max s.now + 2 * msTicks
    let s2 := setQueue s1 q { x with disabledBy := by', drainLimit := limit }
    settleQueue (s2.wr HCI_Q_STATUS.state qDisabling q) q

/-- The drain limit passes with a command left: the disable fails, and the device fault is raised (R356). -/
def drainExpired (q : Nat) (s : State) : State :=
  match queueOf s q with
  | none => s
  | some x =>
    if x.drainLimit = 0 ∨ (queueTracks s q).isEmpty then s
    else
      let s1 := setQueue (advanceTo s x.drainLimit) q { x with disabledBy := none, drainLimit := 0 }
      let s2 := match x.disabledBy with
        | some id => finish s1 id .internalFault
        | none => s1
      raiseInternalFault s2 2

/-! ## Admin queues and quotas (R337, R343) -/

/-- HCI_AQ_CFG is written with enable = 1: the admin queue is ENABLED with its first number 0, or the error is reported. -/
def adminEnable (f sqLog cqLog : Nat) (s : State) : State :=
  if s.rdb HCI_AQ_STATUS.ready f then s
  else
    let s1 := (s.wr HCI_AQ_CFG.sq_size_log2 sqLog f).wr HCI_AQ_CFG.cq_size_log2 cqLog f
    if sqLog < 4 ∨ 16 < sqLog ∨ cqLog < 4 ∨ 16 < cqLog then s1.wr HCI_AQ_STATUS.error 1 f
    else
      match globalQueue s f 0 with
      | none => s1.wr HCI_AQ_STATUS.error 2 f
      | some q =>
        let sq := s.rd HCI_AQ_SQ_BASE_LO.base_lo f * 4096 + s.rd HCI_AQ_SQ_BASE_HI.base_hi f * 2 ^ 32
        let cq := s.rd HCI_AQ_CQ_BASE_LO.base_lo f * 4096 + s.rd HCI_AQ_CQ_BASE_HI.base_hi f * 2 ^ 32
        let s2 := enableQueue s1 q f true (newQueue sq cq sqLog cqLog 0 1 0 0)
        ((s2.wr HCI_AQ_CFG.enable 1 f).wr HCI_AQ_STATUS.error 0 f).wr HCI_AQ_STATUS.ready 1 f

/-- The function has a queue other than its admin queue that is not FREE. -/
def otherQueues (s : State) (f : Nat) : Bool :=
  (List.range (quotaCount s f)).any (fun k => k != 0 && qState s (quotaBase s f + k) != qFree)

/-- HCI_AQ_CFG is written with enable = 0: a disable followed by a deletion, refused while another queue of the function is not FREE. -/
def adminDisable (f : Nat) (s : State) : State :=
  if otherQueues s f then s.wr HCI_AQ_STATUS.error 4 f
  else
    let s1 := (s.wr HCI_AQ_CFG.enable 0 f).wr HCI_AQ_STATUS.error 0 f
    match (globalQueue s f 0).bind (fun q => (queueOf s1 q).map (fun x => (q, x))) with
    | none => s1
    | some (q, x) =>
      if x.deletePending then s1 else beginDisable (setQueue s1 q { x with deletePending := true }) q none

/-- A write of PCIE_FN_CFG_f is refused where the quota overlaps another's, exceeds the function's limit, or a queue of it is not FREE. -/
def quotaWrite (f base count : Nat) (s : State) : State :=
  let meets (g : Nat) : Bool :=
    g != f && decide (0 < quotaCount s g) && decide (0 < count) && decide (base < quotaBase s g + quotaCount s g) &&
      decide (quotaBase s g < base + count)
  let live := (List.range (quotaCount s f)).any (fun k => qState s (quotaBase s f + k) != qFree)
  if (List.range 64).any meets || decide (functionLimit f < count) || decide (256 < base + count) || live then
    s.wr PCIE_ERR_COUNTS.fn_cfg_refused 1
  else (s.wr PCIE_FN_CFG.queue_base base f).wr PCIE_FN_CFG.queue_count count f

/-! ## Meanings -/

/-- SQ_TAIL_DOORBELL (R340, R341): bits [15:0] of the write are the new tail. -/
def execSqTailDoorbell (function : Fin 64) (page : Fin 256) (value : Word) (s : State) : Res :=
  .next (sqTail function page (value.toNat % 65536) s)

/-- CQ_HEAD_DOORBELL (R340, R341). -/
def execCqHeadDoorbell (function : Fin 64) (page : Fin 256) (value : Word) (s : State) : Res :=
  .next (cqHead function page (value.toNat % 65536) s)

/-- COMMAND_FETCH (R342, R345, R349): one round over the entries that host memory holds. -/
def execCommandFetch (entries : List Line) (s : State) : Res := .next (fetchRound entries s)

/-- COMPLETION_POST (R347, R348, R350, R361). -/
def execCompletionPost (id : Nat) (refused : Bool) (s : State) (msixFails : Bool := false) : Res := .next (completionPost id refused msixFails s)

/-- COALESCING_TIMEOUT (R361). -/
def execCoalescingTimeout (queue : Fin 256) (s : State) (msixFails : Bool := false) : Res := .next (coalesce queue msixFails s)

/-- MSIX_UNMASK (R360). -/
def execMsixUnmask (function : Fin 64) (vector : Fin 32) (s : State) : Res := .next (msixUnmask function vector s)

/-- ADMIN_QUEUE_ENABLE (R343). -/
def execAdminQueueEnable (function : Fin 64) (sqLog : Fin 32) (cqLog : Fin 32) (s : State) : Res :=
  .next (hciWrite function 0x10 s (adminEnable function sqLog cqLog))

/-- ADMIN_QUEUE_DISABLE (R343). -/
def execAdminQueueDisable (function : Fin 64) (s : State) : Res := .next (hciWrite function 0x10 s (adminDisable function))

/-- FUNCTION_QUOTA_WRITE (R337). -/
def execFunctionQuotaWrite (function : Fin 64) (base : Fin 256) (count : Fin 512) (s : State) : Res :=
  .next (regWrite (PCIE_FN_CFG.queue_base.offset function 0) s (quotaWrite function base count))

/-- QUEUE_DRAIN_LIMIT (R356). -/
def execQueueDrainLimit (queue : Fin 256) (s : State) : Res := .next (drainExpired queue s)

/-- COMMAND_OVERRUN (R367). -/
def execCommandOverrun (id : Nat) (s : State) : Res := .next (overrun id s)

end Sys2Proof.Machine
end

