-- ==== Sys2Proof/Machine/SlowPath.lean ====
section
/-! DEFINITION. The rings of the slow path (R418): the requests that write received entries, and those that read a transmit entry and write its
header back. -/

namespace Sys2Proof.Machine

/-- PA of entry `k` of a slow-path ring. -/
def rxEntryPa (s : State) (n k : Nat) : Nat := s.rd FHL_SP_RX_BASE_LO.base_lo n * 2048 + s.rd FHL_SP_RX_BASE_HI.base_hi n * 2 ^ 32 + 2048 * k
def txEntryPa (s : State) (n k : Nat) : Nat := s.rd FHL_SP_TX_BASE_LO.base_lo n * 2048 + s.rd FHL_SP_TX_BASE_HI.base_hi n * 2 ^ 32 + 2048 * k

/-! ## Receive -/

/-- The write of the first waiting entry at the ring's tail begins, if none is in progress. -/
def rxNext (n : Nat) (s : State) : State :=
  let x := laneOf s n
  match x.rxSlow with
  | [] => s
  | e :: _ =>
    if x.rxLeft ≠ 0 then s
    else
      let w := writeBytes s (0x90 + n) (.slow n .rx) (rxEntryPa s n (s.rd FHL_SP_RX_TAIL.index n)) e
      setLane w.2 n { laneOf w.2 n with rxLeft := w.1, rxFail := false }

/-- One request of the entry is answered: after the last, RX_TAIL advances, or the frame is dropped and counted; the next entry follows. -/
def rxAnswered (n st : Nat) (s : State) : State :=
  let x := laneOf s n
  let fail := x.rxFail || st != 0
  if 1 < x.rxLeft then setLane s n { x with rxLeft := x.rxLeft - 1, rxFail := fail }
  else
    let s1 := setLane s n { x with rxSlow := x.rxSlow.drop 1, rxLeft := 0, rxFail := false }
    rxNext n (if fail then s1.inc FHL_RX_COUNTS.rx_overflow 1 n
      else s1.wr FHL_SP_RX_TAIL.index ((s.rd FHL_SP_RX_TAIL.index n + 1) % 2 ^ s.rd FHL_SP_RX_CFG.size_log2 n) n)

/-! ## Transmit -/

/-- The fields of an entry's header. -/
def SlowTx.len (x : SlowTx) : Nat := field x.bytes 0 2
def SlowTx.flags (x : SlowTx) : Nat := field x.bytes 2 1
def SlowTx.stepAt (x : SlowTx) : Nat := field x.bytes 0x18 2

/-- The frame of an entry. -/
def SlowTx.frame (x : SlowTx) : List Byte := slice x.bytes 32 x.len

/-- The header spells an invalid length, flags or offset (R418); a length under 14 bytes, which R418 does not name, counts as
invalid (DESIGN CHOICE, log entry 194). -/
def SlowTx.bad (x : SlowTx) : Bool :=
  decide (x.len < 14) || decide (2016 < x.len) || x.flags / 4 != 0 || (x.flags.testBit 1 && decide (x.len < x.stepAt + 10))

/-- The read of the ring's next entry begins. -/
def txStart (n : Nat) (s : State) : State :=
  let pa := txEntryPa s n (s.rd FHL_SP_TX_HEAD.index n)
  setLane (nocMake s (0x90 + n) (.slow n .head) false pa 1 none (BitVec.allOnes 64) []) n
    { laneOf s n with slowTx := some { pa := pa, bytes := [], fail := false, whole := false, sent := false } }

/-- A read of the entry is answered: the rest of its frame is read, up to 512 bytes at a time. -/
def txRead (n : Nat) (x : SlowTx) (r : NocReq) (s : State) : State :=
  let x1 : SlowTx := if r.status = 0 then { x with bytes := x.bytes ++ respBytes r 0 (64 * r.len) } else { x with fail := true }
  let got := x1.bytes.length
  if x1.fail || x1.bad || decide (32 + x1.len ≤ got) then setLane s n { laneOf s n with slowTx := some { x1 with whole := true } }
  else
    let s1 := setLane s n { laneOf s n with slowTx := some x1 }
    nocMake s1 (0x90 + n) (.slow n .body) false (x.pa + got) ((min (32 + x1.len - got) (512 - got % 512) + 63) / 64) none (BitVec.allOnes 64) []

/-- A ring access of lane `n` is answered. -/
def slowAnswered (n : Nat) (part : SlowPart) (r : NocReq) (s : State) : State :=
  match part, (laneOf s n).slowTx with
  | .rx, _ => rxAnswered n r.status s
  | .back, some _ =>
    (setLane s n { laneOf s n with slowTx := none }).wr FHL_SP_TX_HEAD.index
      ((s.rd FHL_SP_TX_HEAD.index n + 1) % 2 ^ s.rd FHL_SP_TX_CFG.size_log2 n) n
  | .head, some x => txRead n x r s
  | .body, some x => txRead n x r s
  | _, none => s

end Sys2Proof.Machine
end

