-- ==== Sys2Proof/Machine/Dma.lean ====
section
/-! DEFINITION. The DMA movers (R380 to R382), external accesses to the Thicket data memories (R129), and the arrival of NoC responses
(R216, R217, R221). -/

namespace Sys2Proof.Machine

/-! ## Moves (R380, R381) -/

/-- The status of a completion code. -/
def statusOf (c : Nat) : Status :=
  if c = 0x20 then .dieReset else if c = 0x22 then .poisoned else if c = 0x23 then .integrityFail else if c = 0x24 then .accessDenied
  else .success

/-- Two ranges of bytes overlap. -/
def bytesMeet (a b n : Nat) : Bool := decide (a < b + n) && decide (b < a + n)

/-- A move or fill that R380 or R365 refuses. -/
def elemBad (e : DmaElem) : Bool :=
  let side (host : Bool) (a : Nat) : Bool := if host then a % 8 != 0 else decide (2 ^ 56 ≤ a)
  e.bad || e.len == 0 || side e.dstHost e.dst ||
    (e.pattern.isNone && (side e.srcHost e.src || (e.srcHost && e.dstHost) ||
      (!e.srcHost && !e.dstHost && bytesMeet (e.src % 2 ^ 50) (e.dst % 2 ^ 50) e.len)))

/-- The bytes of the next piece of an element. -/
def pieceSize (e : DmaElem) (off : Nat) : Nat :=
  let left := e.len - off
  let d := if e.dstHost then min left 512 else deviceChunk (e.dst + off) left
  if e.pattern.isSome ∨ e.srcHost then d
  else min d (if e.dstHost then min left (512 - (e.src + off) % 512) else deviceChunk (e.src + off) left)

/-- The pattern's bytes at destination offsets `off` to `off + n` (R380). -/
def patternBytes (p : BitVec 64) (off n : Nat) : List Byte :=
  (List.range n).map (fun i => BitVec.ofNat 8 (p.toNat >>> (8 * ((off + i) % 8))))

def setDma (s : State) (d : Dma) : State :=
  { s with dmas := s.dmas.map (fun x => if x.id == d.id then d else x) }

def dmaOf (s : State) (id : Nat) : Option Dma := s.dmas.find? (fun d => d.id == id)

/-- The mover is free again. -/
def dropDma (s : State) (id : Nat) : State := { s with dmas := s.dmas.filter (fun d => d.id != id) }

/-- A DMA command ends: its result holds the bytes whose writes were issued, and a gather's result2 its element (R381, R382). Its mover is free for
a snapshot that waits. -/
def dmaEnd (s : State) (d : Dma) (st : Status) : State :=
  snapshotMoves (finish (dropDma (dropRead s d.id) d.id) d.id st d.issued (if d.gather then min d.idx (d.elems.length - 1) else 0))

/-- A device write of a piece: whole lines, or the enabled bytes of one. A lead mirrors it (R516). -/
def dmaWrite (s : State) (d : Dma) (pa : Nat) (bytes : List Byte) : State :=
  let s := sendData s (.write pa bytes)
  let o := pa % 64
  let lines := (o + bytes.length + 63) / 64
  let img := ofBytes bytes * 2 ^ (8 * o)
  let be := BitVec.ofNat 64 ((2 ^ bytes.length - 1) * 2 ^ o)
  nocMake s d.mover (.dma d.id d.off) true (pa / 64 * 64) lines none (if lines = 1 then be else BitVec.allOnes 64)
    ((List.range lines).map (fun i => BitVec.ofNat 512 (img >>> (512 * i))))

/-- A device read of a piece. -/
def dmaRead (s : State) (d : Dma) (pa n : Nat) : State :=
  nocMake s d.mover (.dma d.id d.off) false (pa / 64 * 64) ((pa % 64 + n + 63) / 64) none (BitVec.allOnes 64) []

/-- `n` more bytes of the element are done. -/
def Dma.step (d : Dma) (e : DmaElem) (n : Nat) : Dma :=
  let d := { d with wait := .none }
  if e.len ≤ d.off + n then { d with idx := d.idx + 1, off := 0 } else { d with off := d.off + n }

/-- The write of the next `n` bytes is issued; the last write of the command is its commit point (R353). -/
def issued (s : State) (d : Dma) (e : DmaElem) (n : Nat) : State × Dma :=
  let d1 := { d with issued := d.issued + n }
  (if d.elems.length = d.idx + 1 ∧ e.len ≤ d.off + n then commit s d.id else s, d1)

/-- A piece's bytes go to their destination. -/
def dmaPut (s : State) (d : Dma) (e : DmaElem) (bytes : List Byte) : State × Dma :=
  let n := bytes.length
  let r := issued s d e n
  if e.dstHost then (writeHost r.1 (e.dst + d.off) bytes, r.2.step e n)
  else (dmaWrite r.1 r.2 (e.dst + d.off) bytes, { r.2 with wait := .devWrite n })

/-- The mover goes on until it waits for an answer, for the movers to issue again, or the command ends; `k` bounds the pieces. A shadow writes to host
memory alone (R515). -/
def dmaGo : Nat → State → Dma → State
  | 0, s, d => setDma s d
  | k + 1, s, d =>
    match d.elems[d.idx]? with
    | none => dmaEnd s d .success
    | some e =>
      if !moversIssue s then setDma s d
      else if d.off = 0 ∧ elemBad e then dmaEnd s d .invalidField
      else if s.rd DEV_MODE.mode = modeShadow ∧ !e.dstHost then dmaEnd s d .modeForbids
      else
        let n := pieceSize e d.off
        match e.pattern with
        | some p =>
          let r := dmaPut s d e (patternBytes p d.off n)
          if r.2.wait = .none then dmaGo k r.1 r.2 else setDma r.1 r.2
        | none =>
          if e.srcHost then setDma (readHost s d.id (e.src + d.off) n) { d with wait := .hostRead n }
          else setDma (dmaRead s d (e.src + d.off) n) { d with wait := .devRead n }

/-- Pieces that a command can still have. -/
def Dma.fuel (d : Dma) : Nat := (d.elems.map (fun e => e.len + 1)).foldl (· + ·) 1

/-- What a mover does as it goes on. -/
def dmaRun (s : State) (d : Dma) : State := dmaGo d.fuel s d

/-- A mover is assigned to command `id`. -/
def assign (s : State) (id m : Nat) (gather : Bool) (es : List DmaElem) : State × Dma :=
  let d : Dma := { id := id, mover := m, elems := es, idx := 0, off := 0, issued := 0, wait := .none, gather := gather }
  ({ s with dmas := s.dmas ++ [d] }, d)

/-- The element that DMA_MOVE or DMA_FILL spells. -/
def moveOf (t : Track) (fill : Bool) : DmaElem :=
  let f := t.par 0x24 1
  if fill then
    { src := 0, dst := t.par 0x10 8, len := t.par 0x20 4, srcHost := false, dstHost := f.testBit 1,
      pattern := some (BitVec.ofNat 64 (t.par 0x18 8)), bad := false }
  else
    { src := t.par 0x10 8, dst := t.par 0x18 8, len := t.par 0x20 4, srcHost := f.testBit 0, dstHost := f.testBit 1, pattern := none,
      bad := false }

/-- DMA_MOVE and DMA_FILL on mover `m`. -/
def dmaMove (fill : Bool) (m : Nat) (t : Track) (s : State) : State :=
  let r := assign s t.id m false [moveOf t fill]
  dmaRun r.1 r.2

/-- DMA_GATHER: its list is read first (R381). -/
def dmaGather (m : Nat) (t : Track) (s : State) : State :=
  let n := t.par 0x18 4
  if n = 0 ∨ 4096 < n ∨ t.par 0x10 8 % 8 ≠ 0 then finish s t.id .invalidField
  else readHost (assign s t.id m true []).1 t.id (t.par 0x10 8) (24 * n)

/-- The elements of a gather list. -/
def gatherElems (l : List Byte) (n : Nat) : List DmaElem :=
  (List.range n).map (fun i =>
    let o := 24 * i
    let f := field l (o + 0x14) 1
    { src := field l o 8, dst := field l (o + 8) 8, len := field l (o + 0x10) 4, srcHost := f.testBit 0, dstHost := f.testBit 1,
      pattern := none, bad := f / 4 != 0 || !zeros l (o + 0x15) 3 })

/-- The bytes of a piece have come to the mover: it writes them and goes on, or holds them while the movers issue nothing (R57, R334). -/
def dmaBytes (s : State) (d : Dma) (e : DmaElem) (l : List Byte) : State :=
  if !moversIssue s then setDma s { d with wait := .held l }
  else
    let r := dmaPut s d e l
    if r.2.wait = .none then dmaRun r.1 r.2 else setDma r.1 r.2

/-- The movers issue again: each that held back goes on. -/
def resumeMovers (s : State) : State :=
  snapshotMoves (s.dmas.foldl (fun s x =>
    match dmaOf s x.id with
    | none => s
    | some d =>
      match d.wait, d.elems[d.idx]? with
      | .held l, some e => dmaBytes s d e l
      | .none, some _ => dmaRun s d
      | _, _ => s) s)

/-- The bytes of the TLPs before a failing one are written, piece by piece (R365, R382). -/
def dmaRest : Nat → State → Dma → DmaElem → List Byte → State × Dma
  | 0, s, d, _, _ => (s, d)
  | k + 1, s, d, e, l =>
    if l.isEmpty then (s, d)
    else
      let n := if e.dstHost then l.length else deviceChunk (e.dst + d.off) l.length
      let r := dmaPut s d e (l.take n)
      dmaRest k r.1 { r.2 with off := d.off + n } e (l.drop n)

/-- A DMA command waits for a free mover before it starts (R368). -/
def startDma (op id : Nat) (s : State) (body : Nat → Track → State → State) : State :=
  match freeMover s with
  | none => s
  | some m => startCommand op id s (body m)

/-- A host read of a DMA command has returned bytes `l`: the list of a gather, or a piece (R382). -/
def dmaHostData (id : Nat) (l : List Byte) (s : State) : State :=
  match dmaOf s id, trackOf s id with
  | some d, some t =>
    match d.wait, d.elems[d.idx]? with
    | .hostRead _, some e => dmaBytes s d e l
    | .none, none => if d.gather then dmaRun s { d with elems := gatherElems l (t.par 0x18 4) } else s
    | _, _ => s
  | _, _ => s

/-- The response to a DMA piece (R382). -/
def dmaResponse (id piece : Nat) (r : NocReq) (s : State) : State :=
  match dmaOf s id with
  | none => s
  | some d =>
    if piece ≠ d.off then s
    else
      match d.wait, d.elems[d.idx]? with
      | .devWrite n, some e => if r.status ≠ 0 then dmaEnd s d (statusOf r.status) else dmaRun s (d.step e n)
      | .devRead n, some e =>
        if r.status ≠ 0 then dmaEnd s d (statusOf r.status)
        else dmaBytes s d e (respBytes r ((e.src + d.off) % 64) n)
      | _, _ => s

/-! ## External accesses to X and Y (R31, R128, R129) -/

/-- Tile and first element of beat `b` of a request in the Thicket window, and whether it lies in Y. -/
def xyPlace (pa b : Nat) : Nat × Bool × Nat :=
  let o := pa % 2 ^ 50 - 0x1008000000 + 16 * b
  (o / 0x8000, decide (0x4000 ≤ o % 0x8000), o % 0x4000 / 4)

/-- The 16-byte beats that a request moves: of a length-1 write, those with an enabled byte. -/
def xyBeats (r : NocReq) : List Nat :=
  (List.range (4 * r.len)).filter (fun b => !(r.write && r.len == 1) || (r.be.toNat >>> (16 * b)) % 65536 != 0)

/-- The 128 bits that a beat reads from, or the memory after it has written the enabled bytes of `d`. -/
def xyRead (m : Sparse (BitVec 32)) (e : Nat) : Nat :=
  (List.range 4).foldl (fun a i => a + (sparseGet 0 m (e + i)).toNat * 2 ^ (32 * i)) 0
def xyWrite (m : Sparse (BitVec 32)) (e be d : Nat) : Sparse (BitVec 32) :=
  (List.range 4).foldl (fun m i =>
    let old := (sparseGet 0 m (e + i)).toNat
    let v := (List.range 4).foldl (fun a k =>
      a + (if be.testBit (4 * i + k) then bits d (32 * i + 8 * k) 8 else bits old (8 * k) 8) * 2 ^ (8 * k)) 0
    sparseSet 0 m (e + i) (BitVec.ofNat 32 v)) m

/-- A read beat joins the response. -/
def putBeat (l : List (BitVec 512)) (b d : Nat) : List (BitVec 512) :=
  let add (x : BitVec 512) : BitVec 512 := x ||| BitVec.ofNat 512 (d * 2 ^ (128 * (b % 4)))
  if l.length ≤ b / 4 then l ++ [add 0] else l.modify (b / 4) add

/-- The memory of tile `x` has a use in hc `h` by an instruction that has issued. -/
def xyUsed (x : Tile) (y : Bool) (h : Nat) : Bool := (if y then x.yUses else x.xUses).contains h

/-- The hc in which the next instruction of a running tile uses the memory, if it does and does not stall. -/
def xyNext (s : State) (t : Nat) (y : Bool) : Option Nat :=
  let x := tileOf s t
  let w := (sparseGet 0 x.prog x.pc).toNat
  let k := (if y then ySlot w else xSlot w).kind
  match topOf w with
  | some op =>
    if x.state = .run ∧ !outOfRange x ∧ (k = 1 ∨ k = 2) ∧ !stalls s t x op w then some (issueHc s x op w) else none
  | none => none

/-- The hc in which a beat that is ready from hc `r` takes the memory, and whether the tile stalls for it: the first hc from now in which no
instruction uses the memory; from 32 hc after `r`, the tile waits. None while the tile's own instruction comes first (R129). -/
def beatHc (s : State) (t : Nat) (y : Bool) (r : Nat) : Option (Nat × Bool) :=
  let a := max r (nowHc s)
  let x := tileOf s t
  let h := ((List.range' a ((if y then x.yUses else x.xUses).length + 1)).find? (fun h => !xyUsed x y h)).getD a
  if (xyNext s t y).any (fun n => decide (n ≤ h)) then (if r + 32 ≤ h then some (h, true) else none) else some (h, false)

/-- The hc from which the next beat of a request is ready: its arrival at the tile's column port, where a tile delivery holds it for the time of
R410, or the hc after the beat before it. -/
def beatReady (s : State) (r : NocReq) : Nat :=
  hcOf s (if r.done = 0 then max (reachTick s r) r.notBefore else r.ready) + b2n (r.done != 0)

/-- What a beat does in the hc in which it holds the memory; `ecc` and `ecc2` are what the check codes of its two words find in a read. -/
def xyAct (s : State) (r : NocReq) (b total : Nat) (ecc ecc2 : Ecc) : State :=
  let p := xyPlace r.pa b
  if r.write then
    let x := tileOf s p.1
    let bad := r.badFlits.contains (b / 4)
    let be := if r.len = 1 then (r.be.toNat >>> (16 * b)) % 65536 else 65535
    let d := ((r.data.getD (b / 4) 0).toNat >>> (128 * (b % 4))) % 2 ^ 128
    let t := if bad then s
      else if p.2.1 then setTile s p.1 { x with y := xyWrite x.y p.2.2 be d } else setTile s p.1 { x with x := xyWrite x.x p.2.2 be d }
    served t r.init r.tag total (if bad then Status.poisoned.code else 0)
  else
    let s := countEcc (countEcc s p.1 ecc) p.1 ecc2
    let x := tileOf s p.1
    let v := poisonLoad s false (ecc == .double) (ecc2 == .double) (BitVec.ofNat 128 (xyRead (if p.2.1 then x.y else x.x) p.2.2))
    let bad := ecc == .double || ecc2 == .double
    let t := mapReq v.2 r.init r.tag (fun r =>
      { r with respData := putBeat r.respData b v.1.toNat,
               respPoison := if bad && !r.respPoison.contains (b / 4) then r.respPoison ++ [b / 4] else r.respPoison })
    served t r.init r.tag total (if bad then Status.poisoned.code else 0)

/-- The next beat of an external access, in its turn; a tile that is copying holds it off. A write that enables no byte has no beat and is
acknowledged (R208). -/
def xyBeat (init tag : Nat) (ecc ecc2 : Ecc) (s : State) : State :=
  let s := arrive s init tag
  match reqOf s init tag with
  | none => s
  | some r =>
    let beats := xyBeats r
    match targetOf (locOf r.pa) with
    | .tile t0 =>
      if !servable s r ∨ !dieOpen s 2 ∨ (tileOf s t0).state = .copying then s
      else
        match beats[r.done]? with
        | none => served (advanceTo s (reachTick s r)) init tag 1 0
        | some b =>
          let p := xyPlace r.pa b
          match beatHc s p.1 p.2.1 (beatReady s r) with
          | none => s
          | some (h, stall) =>
            let s1 := advanceTo s (h * hcTicks s)
            let s2 := if stall then setTile s1 p.1 { tileOf s1 p.1 with hc := max (tileOf s1 p.1).hc (h + 1) } else s1
            xyAct s2 r b beats.length ecc ecc2
    | _ => s

/-! ## Responses (R208, R216 to R218, R221) -/

/-- The response is to a fabric port that the active context does not bind, whose channel is off or whose Shutters are closed, or whose design does not
take it: it waits in the port (R88, R97, R218). -/
def portWaits (s : State) (r : NocReq) (ready : Bool) : Bool :=
  r.owner == .fabric && decide (r.init < 256) && (!portClocked s r.init || !dieOpen s 2 || !baseOpen s || !ready || holdCycle s)

/-- A finished request is handed to whoever made it; a requester that a reset has taken gets nothing (R61). -/
def deliver (r : NocReq) (s : State) : State :=
  if 256 ≤ r.init then s
  else
    match r.owner with
    | .fabric | .debug =>
      { s with outbox := s.outbox ++ [.nocResponse r.init (responseHeader s r ((routeOf s r true).length - 1))
          (if carriesData r then r.respPoison else []) (if carriesData r then r.respData else [])] }
    | .tile t => if r.status = 0 then s else pathFailed s t r.pa r.status
    | .dma id piece => dmaResponse id piece r s
    | .slow n part => slowAnswered n part r s
    | .mirror => if r.status = 0 then s else { s.wr PRL_STATUS.fit 0 with pair := { s.pair with synced := false } }
    | .frame => s

/-- A request ends at its requester, with its latency in `bin`: it is counted, but for one that a base-die reset ended, whose count the reset has
cleared (R221), handed over, and frees its place at a fabric port's limit. -/
def concluded (s : State) (r : NocReq) (bin : Nat) : State :=
  let s1 := dropReq s r.init r.tag
  let t := deliver r (if r.inPort && r.refused && r.status == Status.dieReset.code then s1 else countReq s1 r bin r.status)
  if r.owner == .fabric then pump 16 r.init t else t

/-- The edge on which a fabric port hands the last flit of a response to its design (R88, R218); other requesters have it as it arrives. -/
def handTick (s : State) (r : NocReq) : Nat :=
  if r.owner == .fabric && decide (r.init < 256) then portTick s r.init s.now (respFlits r) else s.now

/-- A response reaches its requester, once its flits are at the end of their way: e2e_crc is checked, the request is counted, and its tag is free. In a
port that is not bound, or whose design does not take it (`ready` = 0), it waits in the buffer of 16 flits, and its latency keeps counting; a
later arrival delivers it (R218). -/
def responseArrival (init tag : Nat) (ready : Bool) (s : State) : State :=
  let s := arrive s init tag
  match reqOf s init tag with
  | none => s
  | some r =>
    if !r.answered ∨ (r.dropped ∧ !r.inPort) ∨ !(r.refused || r.inPort || allThere s r true) then s
    else
      let s := if r.refused || r.inPort then s else advanceTo s (lastHop r true + hcs s (initCross r.init))
      let r := asDelivered r
      let e := !r.inPort && carriesData r && sumFails r r.respData
      let s1 := if e then s.inc NOC_ERR_COUNTS.e2e_fail else s
      let r1 : NocReq := if e then
          { r with respPoison := List.range r.respData.length, status := worseStatus r.status Status.poisoned.code } else r
      if portWaits s1 r1 ready then
        if r.inPort then s else mapReq s1 init tag (fun _ => { r1 with inPort := true })
      else
        let at_ := if r.inPort then handTick s1 r1 else s1.now
        let s2 := advanceTo s1 (handTick s1 r1)
        concluded s2 r1 (if r.dropped then 15 else histBin ((at_ - r.issued) / hcTicks s))

/-- A request whose header was dropped times out 16,384 hc after its issue. -/
def requestTimeout (init tag : Nat) (s : State) : State :=
  match reqOf s init tag with
  | none => s
  | some r =>
    if !r.dropped ∨ r.inPort then s
    else
      let s1 := (advanceTo s (r.issued + hcs s 16384)).inc NOC_ERR_COUNTS.uncorrectable
      let r1 : NocReq := { r with answered := true, status := Status.poisoned.code, respData := if r.write then [] else List.replicate r.len 0,
                                  respPoison := if r.write then [] else List.range r.len }
      if portWaits s1 r1 true then mapReq s1 init tag (fun _ => { r1 with inPort := true }) else concluded s1 r1 15

/-! ## Meanings -/

/-- DMA_MOVE (R380, R382). -/
def execDmaMove (id : Nat) (s : State) : Res := .next (startDma 0x20 id s (dmaMove false))

/-- DMA_FILL (R380, R382). -/
def execDmaFill (id : Nat) (s : State) : Res := .next (startDma 0x21 id s (dmaMove true))

/-- DMA_GATHER (R381, R382). -/
def execDmaGather (id : Nat) (s : State) : Res := .next (startDma 0x22 id s dmaGather)

/-- EXTERNAL_XY_BEAT (R31, R128, R129). -/
def execExternalXyBeat (init : Nat) (tag : Fin 256) (ecc : Ecc) (ecc2 : Ecc) (s : State) : Res :=
  .next (xyBeat init tag ecc ecc2 s)

/-- NOC_REQUEST_TIMEOUT (R216). -/
def execNocRequestTimeout (init : Nat) (tag : Fin 256) (s : State) : Res := .next (requestTimeout init tag s)

end Sys2Proof.Machine
end

