-- ==== Sys2Proof/Machine/Sync.lean ====
section
/-! DEFINITION. What the lanes and the timing engine share: a lane's state and its recovered clock (R403, R422), and the selection among the
synchronous-Ethernet candidates (R452). -/

namespace Sys2Proof.Machine

/-! ## Lane state (R401, R403) -/

/-- States of R403. -/
def lnOff : Nat := 0
def lnAcquire : Nat := 1
def lnAlign : Nat := 2
def lnUp : Nat := 3
def lnDropped : Nat := 4

def laneState (s : State) (n : Nat) : Nat := s.rd FHL_LANE_STATUS.state n
def laneMode (s : State) (n : Nat) : Nat := s.rd FHL_LANE_STATUS.mode_in_use n

/-- READY of candidate `c` clears and its run of agreeing windows restarts. -/
def candidateReset (s : State) (c : Nat) : State := (s.wrBit CLK_CAND_READY.ready c false).wr CLK_CAND_COUNT.run 0 c

/-- Candidate `c` ceases to be valid or its missing-edge detector fires: READY clears (R432). On the backup oscillator every READY flag holds its
state (R443); a reset of the lanes still clears it (DEDUCED, log entry 195). -/
def candidateLost (s : State) (c : Nat) : State := if s.rdb CLK_WKT_TRIM.on_backup then s else candidateReset s c

/-- Lanes of the Bolryn Link that have entered or left use since `before`: the recovered clock of one that has left is no candidate (R512). -/
def settleLanes (before s : State) : State :=
  (List.range 8).foldl (fun t n =>
    if bolrynInUse s n then
      if bolrynInUse before n then t else { t with pair := { t.pair with useSince := sparsePut t.pair.useSince n t.now } }
    else if bolrynInUse before n then
      candidateLost { t with pair := { t.pair with useSince := sparseDel t.pair.useSince n } } (17 + n)
    else t) s

/-- FHL_LANE_STATUS_n.rclk_valid takes a value; a squelched clock is no candidate (R422, R432). -/
def setRclk (s : State) (n : Nat) (v : Bool) : State :=
  let t := s.wrb FHL_LANE_STATUS.rclk_valid v n
  if s.rdb FHL_LANE_STATUS.rclk_valid n && !v then candidateLost t (n + 1) else t

/-- The lane takes a state on the present tick; leaving UP counts a departure and unsettles its timestamps and clock (R403, R422). -/
def laneTo (s : State) (n st : Nat) : State :=
  let was := laneState s n
  let s1 := setLane s n { laneOf s n with since := s.now, wait := false, txEi := false, rxEi := false, back := 0 }
  let s2 := if was = lnUp ∧ st ≠ lnUp then s1.inc FHL_TX_COUNTS.link_down 1 n else s1
  let s3 := if st = lnUp then s2
    else (setRclk (s2.wr FHL_LANE_STATUS.ts_settled 0 n) n false).wr FHL_LANE_STATUS.in_ei 0 n
  s3.wr FHL_LANE_STATUS.state st n

/-- The dwell of a scan pauses while its lane is in electrical idle, from tick `now` on or until it (R407). -/
def Scan.pause (c : Scan) (ei : Bool) (now : Nat) : Scan :=
  match ei, c.idle with
  | true, none => { c with idle := some now }
  | false, some t => { c with start := c.start + (now - t), idle := none }
  | _, _ => c

/-- FHL_LANE_STATUS_n.in_ei, the recovered clock (R422) and the dwell of a scan of the lane (R407) follow electrical idle. -/
def showEi (s : State) (n : Nat) : State :=
  let x := laneOf s n
  let ei := x.txEi || x.rxEi
  let s1 := { s with fh := { s.fh with scans := s.fh.scans.map (fun (c : Scan) => if c.group = 0 ∧ c.lane = n then c.pause ei s.now else c) } }
  setRclk (s1.wrb FHL_LANE_STATUS.in_ei ei n) n (!ei && s.rdb FHL_LANE_STATUS.ts_settled n)

/-- A transmitter leaves electrical idle (R408). -/
def exitEi (s : State) (n : Nat) : State :=
  if (laneOf s n).txEi then showEi (setLane s n { laneOf s n with txEi := false }) n else s

/-- Every transmitter leaves electrical idle (R408): on a transition to LEAD, SHADOW, ASSEMBLY or SERVICE. -/
def exitAllEi (s : State) : State := (List.range 16).foldl exitEi s

/-! ## Synchronous Ethernet (R452) -/

def candReady (s : State) (c : Nat) : Bool := bit (s.rd CLK_CAND_READY.ready) c

/-- Lane `n` meets every condition of eligibility but the wait-to-restore time. -/
def seBase (s : State) (n : Nat) : Bool :=
  s.rdb FHL_LANE_STATUS.rclk_valid n && candReady s (n + 1) && decide (s.rd TIM_SYNCE_QL.rank n < 15) && !s.rdb TIM_SYNCE_QL.lockout n

/-- Eligibility of lane `n` brought up to date: one that was lost comes back after its wait-to-restore time, but for the selected one that returns
within its hold-off time, to which nothing changes (DEDUCED, log entry 196). -/
def seEligible (s : State) (n : Nat) : State :=
  if seBase s n then
    if s.rdb TIM_SYNCE_QL.eligible n || s.rdb TIM_SYNCE_QL.in_wtr n then s
    else
      let w := min 720 (s.rd TIM_SYNCE_CFG.wtr_s)
      let lost := sparseGet false s.tim.seLost n && !(s.tim.seHold.isSome && s.rd TIM_STATUS.synce_sel == n)
      let t := { s with tim := { s.tim with seLost := sparseSet false s.tim.seLost n false } }
      if lost && w != 0 then
        { t with tim := { t.tim with seWtr := sparsePut t.tim.seWtr n (t.now + w * secTicks) } }.wr TIM_SYNCE_QL.in_wtr 1 n
      else t.wr TIM_SYNCE_QL.eligible 1 n
  else if s.rdb TIM_SYNCE_QL.eligible n || s.rdb TIM_SYNCE_QL.in_wtr n then
    { (s.wr TIM_SYNCE_QL.eligible 0 n).wr TIM_SYNCE_QL.in_wtr 0 n with
      tim := { s.tim with seLost := sparseSet false s.tim.seLost n true, seWtr := sparseDel s.tim.seWtr n } }
  else s

/-- The best eligible lane: lowest rank, then prio, then number; 0x1F where none is eligible. -/
def seBest (s : State) : Nat :=
  let key (n : Nat) : Nat := s.rd TIM_SYNCE_QL.rank n * 256 + s.rd TIM_SYNCE_QL.prio n * 16 + n
  (List.range 16).foldl (fun b n =>
    if s.rdb TIM_SYNCE_QL.eligible n && (b == 0x1F || decide (key n < key b)) then n else b) 0x1F

/-- The selection becomes lane `n`: it leaves electrical idle (R408), and timing_state is raised at a change (R458). -/
def seSelect (s : State) (n : Nat) : State :=
  let t := { s with tim := { s.tim with seHold := none } }
  if s.rd TIM_STATUS.synce_sel = n then t
  else
    let t := raiseEvent ({ t with tim := { t.tim with seSlew := true } }.wr TIM_STATUS.synce_sel n) evTiming
    if n < 16 then exitEi t n else t

/-- Eligibility and selection follow the candidates; a selected one that is lost is held for hold_off_ms. -/
def synceUpdate (s : State) : State :=
  let t := (List.range 16).foldl seEligible s
  let sel := t.rd TIM_STATUS.synce_sel
  if sel < 16 ∧ !t.rdb TIM_SYNCE_QL.eligible sel then
    let h := min 1000 (t.rd TIM_SYNCE_CFG.hold_off_ms)
    if h = 0 then seSelect t (seBest t)
    else { t with tim := { t.tim with seHold := some (t.tim.seHold.getD (t.now + h * msTicks)) } }
  else seSelect t (seBest t)

end Sys2Proof.Machine
end

