-- ==== Sys2Proof/Machine/Lanes.lean ====
section
/-! DEFINITION. Fronthaul lanes (chapter 16): bring-up, electrical idle, frames and the classifier, slow path, dropped lanes and eye scans. -/

namespace Sys2Proof.Machine

/-- The lane is enabled in a mode with a transmitter. -/
def laneOn (s : State) (n : Nat) : Bool := s.rdb FHL_LANE_CFG.enable n && s.rd FHL_LANE_CFG.mode n != 0

/-- FHL_LANE_CFG_n asks for what R401 refuses. -/
def laneBad (s : State) (n : Nat) : Bool :=
  let m := s.rd FHL_LANE_CFG.mode n
  let f := s.rd FHL_LANE_CFG.max_frame n
  decide (4 < m) || (m == 4 && (n % 2 == 1 || s.rd FHL_LANE_CFG.mode (n + 1) != 0)) ||
    (n % 2 == 1 && m != 0 && laneOn s (n - 1) && s.rd FHL_LANE_CFG.mode (n - 1) == 4) || decide (f < 1518) || decide (9600 < f)

/-- An enabled lane starts its bring-up (R403, R404). -/
def startLane (s : State) (n : Nat) : State :=
  if !laneOn s n ∨ laneState s n = lnDropped then s
  else if laneBad s n then s.wr FHL_LANE_STATUS.cfg_error 1 n
  else (laneTo s n lnAcquire).wr FHL_LANE_STATUS.mode_in_use (s.rd FHL_LANE_CFG.mode n) n

/-- The fields of FHL_LANE_CFG_n that a write sets at any time. -/
def writeLaneOpen (s : State) (n v : Nat) : State :=
  let s1 := (s.wr FHL_LANE_CFG.ei_enable (bits v 5 1) n).wr FHL_LANE_CFG.rx_ei_tolerate (bits v 6 1) n
  ((s1.wr FHL_LANE_CFG.peak_manual (bits v 7 1) n).wr FHL_LANE_CFG.peak_code (bits v 8 4) n).wr FHL_LANE_CFG.tx_preset (bits v 12 3) n

/-- The fields that R401 holds while the lane is enabled: a write that would change them is ignored and sets refused. -/
def writeLaneHeld (s : State) (n v : Nat) : State :=
  if s.rdb FHL_LANE_CFG.enable n then
    if bits v 0 3 ≠ s.rd FHL_LANE_CFG.mode n ∨ bits v 3 1 ≠ s.rd FHL_LANE_CFG.fec n ∨ bits v 16 14 ≠ s.rd FHL_LANE_CFG.max_frame n then
      s.wr FHL_LANE_STATUS.refused 1 n
    else s
  else ((s.wr FHL_LANE_CFG.mode (bits v 0 3) n).wr FHL_LANE_CFG.fec (bits v 3 1) n).wr FHL_LANE_CFG.max_frame (bits v 16 14) n

/-- A write of FHL_LANE_CFG_n with enable = 1. -/
def laneEnable (n v : Nat) (s : State) : State :=
  let on := s.rdb FHL_LANE_CFG.enable n
  let s1 := (writeLaneOpen (writeLaneHeld s n v) n v).wr FHL_LANE_CFG.enable 1 n
  if on ∨ !porterUp s then s1 else startLane s1 n

/-- The eye scan of a lane ends early: the points finished so far are written, and it completes NOT_READY (R407). -/
def cutScan (s : State) (g n : Nat) : State :=
  match s.fh.scans.find? (fun c => c.group == g && c.lane == n) with
  | none => s
  | some c =>
    let s1 := { s with fh := { s.fh with scans := s.fh.scans.filter (fun d => d.id != c.id) } }
    let s2 := if g = 0 then s1.wr FHL_LANE_STATUS.scan_busy 0 n else s1
    match trackOf s c.id with
    | none => s2
    | some t =>
      let k := min 4096 ((c.idle.getD s.now - c.start) / max 1 (t.par 0x14 4 * usTicks))
      let r := (List.range k).foldl (fun (a : List Byte × State) _ => let f := a.2.fresh 16; (a.1 ++ leBytes 2 f.1.toNat, f.2)) ([], s2)
      finish (writeHost r.2 (t.par 0x18 8) r.1) c.id .notReady (2 * k)

/-- A write of FHL_LANE_CFG_n with enable = 0: the lane returns to OFF; a DROPPED lane stays dropped. -/
def laneDisable (n v : Nat) (s : State) : State :=
  let s1 := (writeLaneOpen (writeLaneHeld s n v) n v).wr FHL_LANE_CFG.enable 0 n
  if laneState s n = lnDropped then s1 else cutScan (laneTo s1 n lnOff) 0 n

/-- The peaking code of R405: the largest opening, the lower code on a tie. -/
def bestCode (heights : List Nat) : Nat :=
  (List.range 16).foldl (fun b c => if heights.getD b 0 < heights.getD c 0 then c else b) 0

/-- CDR lock and a settled equaliser: ACQUIRE goes to ALIGN with the code in use. -/
def cdrLock (n : Nat) (heights : List Nat) (s : State) : State :=
  if laneState s n ≠ lnAcquire ∨ (laneOf s n).wait ∨ (laneOf s n).looped ∨ !porterUp s then s
  else
    let code := if s.rdb FHL_LANE_CFG.peak_manual n then s.rd FHL_LANE_CFG.peak_code n else bestCode heights
    (laneTo s n lnAlign).wr FHL_LANE_STATUS.peak_in_use code n

def alignLock (n : Nat) (s : State) : State :=
  if laneState s n ≠ lnAlign ∨ (laneOf s n).wait ∨ !porterUp s then s else laneTo s n lnUp

/-- ACQUIRE not left within 2 ms, or ALIGN within 1 ms: the lane waits 10 ms. -/
def laneAcquireTimeout (n : Nat) (s : State) : State :=
  let x := laneOf s n
  let st := laneState s n
  if x.wait ∨ x.looped ∨ (st ≠ lnAcquire ∧ st ≠ lnAlign) then s
  else
    let s1 := advanceTo s (x.since + (if st = lnAcquire then 2 else 1) * msTicks)
    setLane s1 n { x with wait := true, since := s1.now }

def retryEnd (n : Nat) (s : State) : State :=
  let x := laneOf s n
  if !x.wait then s else laneTo (advanceTo s (x.since + 10 * msTicks)) n lnAcquire

/-- An UP lane loses its link: back to ACQUIRE. -/
def linkLoss (n : Nat) (s : State) : State :=
  if laneState s n ≠ lnUp then s else cutScan (laneTo s n lnAcquire) 0 n

/-- 1 ms after UP the timestamps settle and the recovered clock is valid (R421, R422). -/
def tsSettle (n : Nat) (s : State) : State :=
  if laneState s n ≠ lnUp ∨ s.rdb FHL_LANE_STATUS.ts_settled n then s
  else
    let s1 := advanceTo s ((laneOf s n).since + msTicks)
    showEi (s1.wr FHL_LANE_STATUS.ts_settled 1 n) n

/-! ## Electrical idle (R408, R409) -/

/-- ei_entry_ns in ticks. -/
def eiEntry (s : State) (n : Nat) : Nat := 10 * s.rd FHL_LANE_CFG2.ei_entry n * nsTicks

/-- A slow-path transmit entry is pending. -/
def txPending (s : State) (n : Nat) : Bool :=
  s.rdb FHL_SP_TX_CFG.enable n && s.rd FHL_SP_TX_HEAD.index n != s.rd FHL_SP_TX_TAIL.index n

/-- The tick at which the last frame given to a lane's transmitter is whole on the wire, or the present one. -/
def txEmptyAt (s : State) (n : Nat) : Nat := (laneOf s n).onWire.foldl (fun a e => max a e.1) s.now

/-- A transmitter with nothing to send for ei_entry_ns enters electrical idle, under the conditions of R408. -/
def eiEntryAt (n : Nat) (s : State) : State :=
  if s.rd DEV_MODE.mode = modeRun ∧ s.rdb FHL_LANE_CFG.ei_enable n ∧ laneState s n = lnUp ∧ (laneMode s n = 1 ∨ laneMode s n = 2) ∧
      s.rd TIM_STATUS.synce_sel ≠ n ∧ s.rd CLK_REF_STATUS.current ≠ n + 1 ∧ !txPending s n ∧ !(laneOf s n).txEi then
    let s1 := advanceTo s (txEmptyAt s n + eiEntry s n)
    showEi (setLane s1 n { laneOf s1 n with txEi := true }) n
  else s

/-- A receiver of an UP lane loses its signal: held with rx_ei_tolerate, else to ACQUIRE at once. -/
def rxSignalLoss (n : Nat) (s : State) : State :=
  if laneState s n ≠ lnUp then s
  else if s.rdb FHL_LANE_CFG.rx_ei_tolerate n then showEi (setLane s n { laneOf s n with rxEi := true, back := 0 }) n
  else linkLoss n s

/-- The signal returns and block lock is regained: in_ei clears. -/
def eiReturn (n : Nat) (s : State) : State :=
  if !(laneOf s n).rxEi then s else showEi (setLane s n { laneOf s n with rxEi := false, back := 0 }) n

/-- A returning signal has no block lock within 1 us: the lane goes to ACQUIRE. -/
def eiRelockTimeout (n : Nat) (s : State) : State :=
  if !(laneOf s n).rxEi then s else linkLoss n (advance s usTicks)

/-! ## Frames (R402, R411 to R417, R420) -/

/-- A timestamp in units of 2^-16 ns: the counter at capture, the frame's own offset and the lane's adjustment (R420). -/
def stamp (s : State) (off : Int) (adj : Nat) : Nat := ((counter s : Int) + off + toSigned 32 adj).toNat

/-- Big-endian field of `n` bytes at offset `o` of a frame; bytes past its end are 0. -/
def be (l : List Byte) (o n : Nat) : Nat := (slice l o n).foldl (fun a b => a * 256 + b.toNat) 0

/-- The key fields of R415. -/
structure ClsKey where
  dmac : Nat
  vlan : Nat
  etype : Nat
  msg : Nat
  eaxc : Nat
  deriving DecidableEq, Repr

def classKey (l : List Byte) : ClsKey :=
  let tagged := be l 12 2 == 0x8100
  let o := if tagged then 18 else 14
  let tci := be l 14 2
  { dmac := be l 0 6, vlan := if tagged then tci % 4096 + tci / 8192 * 4096 + 0x8000 else 0, etype := be l (o - 2) 2,
    msg := be l (o + 1) 1, eaxc := be l (o + 4) 2 }

/-- `a` and `b` agree in the bits of `m`. -/
def maskEq (a b m : Nat) : Bool := a &&& m == b &&& m

/-- Rule `r` of lane `n` is enabled and matches. -/
def ruleMatches (s : State) (n r : Nat) (k : ClsKey) : Bool :=
  let dv := s.rd FHL_RULE.dmac_val_lo n r + s.rd FHL_RULE.dmac_val_hi n r * 2 ^ 32
  let dm := s.rd FHL_RULE.dmac_mask_lo n r + s.rd FHL_RULE.dmac_mask_hi n r * 2 ^ 32
  s.rdb FHL_RULE.enable n r && maskEq k.dmac dv dm && maskEq k.etype (s.rd FHL_RULE.etype_val n r) (s.rd FHL_RULE.etype_mask n r) &&
    maskEq k.vlan (s.rd FHL_RULE.vlan_val n r) (s.rd FHL_RULE.vlan_mask n r) &&
    maskEq k.msg (s.rd FHL_RULE.msg_val n r) (s.rd FHL_RULE.msg_mask n r) &&
    maskEq k.eaxc (s.rd FHL_RULE.eaxc_val n r) (s.rd FHL_RULE.eaxc_mask n r)

/-- The rule that governs a frame: the lowest-numbered match. -/
def ruleOf (s : State) (n : Nat) (k : ClsKey) : Option Nat := (List.range 64).find? (fun r => ruleMatches s n r k)

/-- Bytes that a port's ingress buffer holds, and its size (R412). -/
def bufUsed (x : Lane) : Nat := (x.buf.map (fun f => f.data.length)).foldl (· + ·) 0
def bufSize (s : State) (n : Nat) : Nat := if s.rd FHL_LANE_CFG.mode n = 4 then 131072 else 65536

/-- Hop cycles from the pin to the first word at the stream port, and from that to the pin (R410). -/
def rxLatency (s : State) (n : Nat) : Nat :=
  match laneMode s n with | 1 => 98 | 2 => if s.rdb FHL_LANE_CFG.fec n then 744 else 54 | 3 => 474 | _ => 384
def txLatency (s : State) (n : Nat) : Nat :=
  match laneMode s n with | 1 => 92 | 2 => if s.rdb FHL_LANE_CFG.fec n then 190 else 50 | 3 => 160 | _ => 150

/-- What a received frame carries beside its bytes. -/
structure RxInfo where
  status : Nat             -- 0 good, 1 FCS or length, 2 cut, 3 PCS or FEC (R417)
  rule : Nat
  time : Nat               -- 2^-16 ns
  unsettled : Bool
  bad : Bool := false      -- FCS or PCS error (R418)
  deriving DecidableEq, Repr

/-- rx_meta (R411). -/
def rxMeta (i : RxInfo) : BitVec 64 :=
  BitVec.ofNat 64 (timeNs i.time + timeFraction i.time * 2 ^ 32 + i.rule % 64 * 2 ^ 48 + b2n i.unsettled * 2 ^ 54 + timeSec i.time % 256 * 2 ^ 56)

/-- The tick at which a frame's first bit was at the pin, `off` from the present counter. -/
def pinTick (s : State) (off : Int) : Nat := ((s.now : Int) + off * nsTicks / 65536).toNat

/-- Delivery to the stream port: the frame waits in the buffer until the port is bound and the design takes it, outside the hold cycle of a swap (R97, R100, R411, R412). -/
def toStream (s : State) (n : Nat) (l : List Byte) (i : RxInfo) (off : Int) (ready : Bool) : State :=
  let f : RxFrame := { ready := pinTick s off + hcs s (rxLatency s n), data := l, err := i.status != 0, info := rxMeta i }
  let x := laneOf s n
  let q := x.buf ++ [f]
  if ready && (sparseFind s.fh.bound n).any (channelLive s) && dieOpen s 2 && !holdCycle s then
    let s1 := setLane s n { x with buf := [] }
    { s1 with outbox := s1.outbox ++ q.map (fun f => .streamIn n (max s.now f.ready) f.data f.err f.info) }
  else setLane s n { x with buf := q }

/-- The ring of a rule from element `k` on, in runs that do not wrap: first element of each, and the bytes that go there. -/
def ringRuns (len k : Nat) (l : List Byte) : List (Nat × List Byte) :=
  let room := 4 * (len - k % len)
  if l.length ≤ room then [(k % len, l)] else [(k % len, l.take room), (0, l.drop room)]

/-- The delivery's requests reach X memory 18 hc after the frame's first word has reached the stream port, whatever the tile's distance (R6, R410):
those that come sooner are held at the column port (DESIGN CHOICE, log entry 168). -/
def deliverAt (before s : State) (t : Nat) : State :=
  let k := before.noc.waiting.length
  { s with noc := { s.noc with waiting := s.noc.waiting.take k ++ (s.noc.waiting.drop k).map (fun r => { r with notBefore := t }) } }

/-- Delivery into the rule's tile (R417): payload after the first four elements, then the header at them, in requests through the column port; `off`
is the frame's pin time less the present counter. -/
def toTile (s : State) (n r : Nat) (l : List Byte) (i : RxInfo) (off : Int) : State :=
  let len := s.rd FHL_RULE.ring_len n r
  if len = 0 then s
  else
    let t := s.rd FHL_RULE.tile n r
    let st := sparseGet (0, 0) s.fh.rings (64 * n + r)
    let w := st.1 % len
    let pay := l.drop (4 * s.rd FHL_RULE.strip_w n r)
    let elems := (pay.length + 3) / 4
    let fits := decide (elems + 4 ≤ len)
    let put (s : State) (k : Nat) (d : List Byte) : State :=
      (ringRuns len (w + k) d).foldl (fun s e =>
        (writeBytes s (0x90 + n) .frame (0x1008000000 + 0x8000 * t + 4 * (s.rd FHL_RULE.ring_base n r + e.1) % 0x8000) e.2).2) s
    let s1 := if fits then put s 4 pay else s
    let status := if fits then i.status else 4
    let head := leBytes 2 (if fits then pay.length else 0) ++ leBytes 1 status ++ leBytes 1 st.2 ++ leBytes 4 (timeNs i.time) ++
      leBytes 2 (timeFraction i.time) ++ leBytes 1 n ++ leBytes 1 (b2n i.unsettled) ++ leBytes 4 0
    let s2 := deliverAt s (put s1 0 head) (pinTick s off + hcs s (rxLatency s n + 18))
    let next := w + 4 + (if fits then (elems + 3) / 4 * 4 else 0)
    { s2 with fh := { s2.fh with rings := sparseSet (0, 0) s2.fh.rings (64 * n + r) (next % len, (st.2 + 1) % 256) } }

/-- The 32-byte header of a slow-path entry (R418). -/
def slowHeader (len flags status rule lane time off : Nat) : List Byte :=
  leBytes 2 len ++ leBytes 1 flags ++ leBytes 1 status ++ leBytes 1 rule ++ leBytes 1 lane ++ leBytes 2 0 ++ leBytes 2 (timeFraction time) ++
    leBytes 4 (timeNs time) ++ leBytes 6 (timeSec time) ++ leBytes 4 0 ++ leBytes 2 off ++ leBytes 6 0

/-- Delivery to the slow-path receive ring: dropped and counted where the ring, with the entries still being written, is full, or the frame too
long. -/
def toSlow (s : State) (n : Nat) (l : List Byte) (i : RxInfo) : State :=
  if !s.rdb FHL_SP_RX_CFG.enable n then s
  else
    let size := 2 ^ s.rd FHL_SP_RX_CFG.size_log2 n
    let x := laneOf s n
    let used := (s.rd FHL_SP_RX_TAIL.index n + size - s.rd FHL_SP_RX_HEAD.index n) % size + x.rxSlow.length
    if size ≤ used + 1 ∨ 2016 < l.length then s.inc FHL_RX_COUNTS.rx_overflow 1 n
    else
      let st := b2n i.bad + 128 * b2n i.unsettled
      rxNext n (setLane s n { x with rxSlow := x.rxSlow ++ [slowHeader l.length 0 st i.rule n i.time 0 ++ l] })

/-- A frame arrives on lane `n`: `l` is the frame without preamble and FCS, `fcs` and `pcs` say whether its FCS fails or the PCS or FEC reports
an error inside it, `off` is its pin time less the present counter, and `ready` whether the design takes words. -/
def frameReceived (n : Nat) (l : List Byte) (fcs pcs : Bool) (off : Int) (ready : Bool) (s : State) : State :=
  let maxF := s.rd FHL_LANE_CFG.max_frame n
  if laneState s n ≠ lnUp ∨ !s.boot.coreUp ∨ s.boot.d0 ≠ .idle then s
  else if be l 12 2 = 0x8808 ∧ be l 14 2 = 1 then s.inc FHL_RX_COUNTS.pause_discarded 1 n
  else if bufSize s n - bufUsed (laneOf s n) < maxF then s.inc FHL_RX_COUNTS.rx_overflow 1 n
  else
    let cut := decide (maxF < l.length + 4)
    let l1 := if cut then l.take maxF else l
    let status := if pcs then 3 else if cut then 2 else if fcs ∨ l.length + 4 < 64 then 1 else 0
    let s1 := if status = 0 then s else s.inc FHL_RX_COUNTS.rx_err 1 n
    let rule := ruleOf s n (classKey l1)
    let fr := s1.fresh 6
    let s2 := if rule.isSome then s1 else fr.2
    let i : RxInfo := { status := status, rule := rule.getD fr.1.toNat, time := stamp s off (s.rd FHL_TS_ADJ_RX.adj n),
                        unsettled := !s.rdb FHL_LANE_STATUS.ts_settled n, bad := fcs || pcs }
    let act := match rule with
      | some r => s.rd FHL_RULE.action n r
      | none => s.rd FHL_CLS_DEFAULT.action n
    let s3 := if act.testBit 0 then toStream s2 n l1 i off ready else s2
    let s4 := if act.testBit 1 then toSlow s3 n l1 i else s3
    match rule with
    | some r => if act.testBit 2 then toTile s4 n r l1 i off else s4
    | none => s4

/-! ## Egress (R402, R413, R414, R514, R525, R526) -/

/-- The source address of an egress frame is overwritten with the pair's MAC identity (R514). -/
def overwrite (s : State) (l : List Byte) : List Byte :=
  if s.pair.overwrite then l.take 6 ++ leBytes 6 s.pair.mac ++ l.drop 12 else l

/-- Ticks that `n` bytes take at a lane's MAC rate of 10, 25, 50 or 100 Gb/s (R401). -/
def macTicks (s : State) (lane n : Nat) : Nat :=
  let rate := match laneMode s lane with | 1 => 10 | 2 => 25 | 3 => 50 | _ => 100
  (8 * n * nsTicks + rate - 1) / rate

/-- A frame leaves the pins: the source address is overwritten and it is padded to 64 bytes with its FCS (R402). Its first
bit leaves after the latency of R410, 240 hc later out of electrical idle (R408), and after the frames before it with the gap of 12 bytes. -/
def transmit (s : State) (n : Nat) (l : List Byte) (bad : Bool) (stream : Bool) : State :=
  let l1 := overwrite s l
  let s1 := exitEi s n
  let x := laneOf s1 n
  let wire := x.onWire.filter (fun e => decide (s.now < e.1))
  let start := wire.foldl (fun a e => max a (e.1 + macTicks s n 12)) (s.now + hcs s (txLatency s n + if (laneOf s n).txEi then 240 else 0))
  let d := l1 ++ List.replicate (60 - l1.length) 0
  let s2 := setLane s1 n { x with onWire := wire ++ [(start + macTicks s n (d.length + 12), stream)] }
  { s2 with outbox := s2.outbox ++ [.egress n start d bad] }

/-- Stream-port egress is released (R414). -/
def egressOpen (s : State) : Bool :=
  (s.rd DEV_MODE.mode == modeRun || s.rd DEV_MODE.mode == modeLead) && !s.rdb DEV_MODE.safe_state

/-- In a pair, an accepted egress frame enters the output digest of the open unit, but not of a port whose lane is DROPPED on either device
(R525, R527). -/
def noteFrame (s : State) (n : Nat) (l : List Byte) : State :=
  if (s.rd DEV_MODE.mode = modeLead ∨ s.rd DEV_MODE.mode = modeShadow) ∧ laneState s n ≠ lnDropped ∧ !bit s.pair.partnerDrops n then
    { s with pair := { s.pair with frames := s.pair.frames ++ [(n, l)] } }
  else s

/-- An egress frame of stream port `n`, outside the hold cycle of a swap (R97); `underrun` says that the port's data ran out after these bytes. -/
def streamEgress (n : Nat) (l : List Byte) (underrun : Bool) (s : State) : State :=
  if !s.boot.coreUp ∨ s.boot.d0 ≠ .idle ∨ !dieOpen s 2 ∨ !(sparseFind s.fh.bound n).any (channelLive s) ∨ holdCycle s then s
  else
    let s1 := noteFrame s n l
    if laneState s n ≠ lnUp ∨ !egressOpen s then s1.inc FHL_TX_COUNTS.tx_discarded 1 n
    else
      let s2 := if underrun then s1.inc FHL_TX_COUNTS.underrun 1 n else s1
      if s.rd DEV_MODE.mode = modeLead ∧ !s.rdb PRL_STATUS.release ∧ s.pair.absentSince = none then
        let h : HeldFrame := { unit := s2.pair.unit, lane := n, data := l, bad := underrun, at_ := s.now }
        { s2 with pair := { s2.pair with held := s2.pair.held ++ [h] } }
      else transmit s2 n l underrun true

/-! ## Slow-path transmit (R418, R419) -/

/-- A write of SP_TX_TAIL publishes entries; a frame to send ends electrical idle. -/
def txTail (n v : Nat) (s : State) : State :=
  let s1 := s.wr FHL_SP_TX_TAIL.index v n
  if txPending s1 n then exitEi s1 n else s1

/-- The egress timestamp in the frame, big-endian (R419). -/
def putStep (l : List Byte) (off time : Nat) : List Byte :=
  l.take off ++ (leBytes 6 (timeSec time)).reverse ++ (leBytes 4 (timeNs time)).reverse ++ l.drop (off + 10)

/-- The status of a transmit entry that has been read (R418, R419). -/
def slowStatus (s : State) (n : Nat) (x : SlowTx) : Nat :=
  if x.fail then 4
  else if x.bad ∨ (x.flags.testBit 1 ∧ (classKey x.frame).etype ≠ 0x88F7) then 3
  else if s.rd DEV_MODE.mode = modeShadow ∨ laneState s n ≠ lnUp then 2
  else 1

/-- The transmit ring's next entry is read; once it is, it is sent and its header written back, and TX_HEAD advances with the answer. `off` is the
frame's pin time less the present counter, and `stepped` says that a step fell between its computation and the pin (R421). -/
def slowTransmit (n : Nat) (off : Int) (stepped : Bool) (s : State) : State :=
  if !txPending s n ∨ !s.boot.coreUp ∨ s.boot.d0 ≠ .idle then s
  else
    match (laneOf s n).slowTx with
    | none => txStart n s
    | some x =>
      if !x.whole ∨ x.sent then s
      else
        let step := x.flags.testBit 1
        let time := stamp s off (s.rd FHL_TS_ADJ_TX.adj n)
        let st := slowStatus s n x
        let s1 := if st = 1 then transmit s n (if step then putStep x.frame x.stepAt time else x.frame) false false else s
        let stamped := st == 1 && (x.flags.testBit 0 || step)
        let status := st + (if stamped then 64 * b2n stepped + 128 * b2n (!s.rdb FHL_LANE_STATUS.ts_settled n) else 0)
        let stampBytes := leBytes 2 (timeFraction time) ++ leBytes 4 (timeNs time) ++ leBytes 6 (timeSec time)
        let head := leBytes 3 0 ++ leBytes 1 status ++ leBytes 4 0 ++ stampBytes
        let be : BitVec 64 := if stamped then 0x000FFF08 else 8
        let s2 := setLane s1 n { laneOf s1 n with slowTx := some { x with sent := true } }
        nocMake s2 (0x90 + n) (.slow n .back) true x.pa 1 none be [BitVec.ofNat 512 (ofBytes head)]

/-! ## Dropping a lane (R423 to R425) -/

/-- The DROPPED fronthaul lanes, by bit. -/
def droppedLanes (s : State) : Nat := (List.range 16).foldl (fun a n => if laneState s n = lnDropped then a + 2 ^ n else a) 0

/-- What a drop leaves beside the state: the log, degraded, and a lead's report where its policy says so (R424, R529). -/
def noteDrop (s : State) (n : Nat) : State :=
  let s1 := setDegraded (fault (cutScan s 0 n) .laneDropped n 0 (die := 0) (degraded := true)) dgFronthaul true
  let mode := s1.rd DEV_MODE.mode
  let s2 := if mode = modeLead ∨ mode = modeShadow then sendControl s1 (.drops (droppedLanes s1)) else s1
  if s2.rdb PRL_CFG.takeover_on_lane && s2.rdb PRL_STATUS.fit && !bit s2.pair.partnerDrops n then selfFault s2 5 else s2

/-- The frames of lane `n` that are not yet whole on the wire are cut off (R424). -/
def cutLane (s : State) (n : Nat) : State :=
  let x := laneOf s n
  let k := (x.onWire.filter (fun e => decide (s.now < e.1))).length
  let s1 := setLane s n { x with onWire := [] }
  if k = 0 then s1 else { s1 with outbox := s1.outbox ++ [.egressCut n k] }

/-- A lane is DROPPED, and its transmitter turns off. -/
def dropLane (s : State) (n : Nat) : State := noteDrop (laneTo (cutLane s n) n lnDropped) n

/-- The lane whose MAC uses lane `n`: the even lane of a two-lane link. -/
def macOf (s : State) (n : Nat) : Nat := if n % 2 = 1 ∧ laneOn s (n - 1) ∧ s.rd FHL_LANE_CFG.mode (n - 1) = 4 then n - 1 else n

/-- Lane `n` is in service for the MAC of lane `m`. -/
def laneServes (s : State) (n m : Nat) : Bool :=
  let st := laneState s m
  (st == lnUp || st == lnAcquire || st == lnAlign) &&
    (if s.rd FHL_LANE_CFG.mode m = 4 ∧ laneMode s m = 3 then (n != m) == s.rdb FHL_LANE_STATUS.on_odd_lane m else true)

/-- One lane of a two-lane link is lasting: the other goes on as 50GBASE-R (R425). -/
def fallBack (s : State) (n m : Nat) : State :=
  let s1 := if n = m then noteDrop s n else dropLane s n
  ((laneTo (cutLane s1 m) m lnAcquire).wr FHL_LANE_STATUS.mode_in_use 3 m).wrb FHL_LANE_STATUS.on_odd_lane (n == m) m

/-- The frame being received when a lane is dropped ends at the stream port with rx_err; `l` is what had arrived of it, if any (R424). -/
def cutIngress (s : State) (m : Nat) (l : List Byte) : State := if l = [] then s else frameReceived m l false true 0 true s

/-- The end of a 1 s window with `corrected` codewords and `errors` uncorrectable codewords or errored blocks on lane `n`, while the frame `l` is
being received, if it is not empty. -/
def errorWindow (n corrected errors : Nat) (l : List Byte) (s : State) : State :=
  let m := macOf s n
  let mode := s.rd FHL_LANE_CFG.mode m
  let rs := decide (3 ≤ mode) || (mode == 2 && s.rdb FHL_LANE_CFG.fec m)
  let limit := laneLimit s (if rs then 0 else 1)
  if !laneServes s n m then s
  else
    let s1 := (s.inc FHL_FEC_COUNTS.corrected corrected n).inc FHL_FEC_COUNTS.uncorrectable errors n
    let s2 := cutIngress s1 m l
    if errors ≤ limit then s1
    else if mode ≠ 4 then dropLane s2 n
    else if laneMode s m = 3 then (if n = m then dropLane s2 m else dropLane (dropLane s2 n) m)
    else fallBack s2 n m

/-! ## Eye scans (R389, R406, R407) -/

/-- The slice of R549 that checks a lane's offset sampler. -/
def samplerSlice (g n : Nat) : Nat := (if g = 0 then 25 else if g = 1 then 41 else 49) + n

/-- The lane of a group is dropped, has no link, or its sampler has failed. -/
def noScan (s : State) (g n : Nat) : Bool :=
  sparseGet false s.safe.failedSamplers (samplerSlice g n) ||
    (if g = 0 then laneState s n != lnUp
     else if g = 1 then !s.link.up || bit (s.rd PCIE_LINK_STATUS.dropped) n
     else s.rd PRL_STATUS.link_state != 5 || bit (s.rd PRL_STATUS.dropped) n || sparseGet false s.pair.down n)

/-- EYE_SCAN. -/
def eyeScan (t : Track) (s : State) : State :=
  let g := t.par 0x10 1
  let n := t.par 0x11 1
  let intr := (t.par 0x12 1).testBit 0
  let dwell := t.par 0x14 4
  if 2 < g ∨ (if g = 0 then 16 else 8) ≤ n ∨ t.par 0x20 4 < 8192 ∨ dwell = 0 ∨ 1000 < dwell ∨ t.par 0x18 8 % 8 ≠ 0 then finish s t.id .invalidField
  else if intr ∧ s.rd DEV_MODE.mode ≠ modeService then finish s t.id .modeForbids
  else if noScan s g n then finish s t.id .notReady
  else if s.fh.scans.any (fun c => c.group == g) then finish s t.id .busy
  else
    let idle := if g = 0 ∧ s.rdb FHL_LANE_STATUS.in_ei n then some s.now else none
    let c : Scan := { id := t.id, group := g, lane := n, intrusive := intr, start := s.now, idle := idle }
    let s1 := commit s t.id
    let s2 := { s1 with fh := { s1.fh with scans := s1.fh.scans ++ [c] } }
    if g = 0 then
      let s3 := s2.wr FHL_LANE_STATUS.scan_busy 1 n
      if intr then setLane (laneTo s3 n lnAcquire) n { laneOf (laneTo s3 n lnAcquire) n with looped := true } else s3
    else s2

/-- The scan of a lane group finishes with the counts of its points, in phase-major order. -/
def eyeScanEnd (g : Nat) (points : List (BitVec 16)) (s : State) : State :=
  match s.fh.scans.find? (fun c => c.group == g) with
  | none => s
  | some c =>
    if c.idle.isSome then s
    else
    match trackOf s c.id with
    | none => { s with fh := { s.fh with scans := s.fh.scans.filter (fun d => d.id != c.id) } }
    | some t =>
      let s0 := advanceTo s (c.start + 4096 * t.par 0x14 4 * usTicks)
      let s1 := { s0 with fh := { s0.fh with scans := s0.fh.scans.filter (fun d => d.id != c.id) } }
      let s2 := if g = 0 then s1.wr FHL_LANE_STATUS.scan_busy 0 c.lane else s1
      let s3 := if g = 0 ∧ c.intrusive then startLane (setLane s2 c.lane { laneOf s2 c.lane with looped := false }) c.lane else s2
      let bytes := (List.range 4096).flatMap (fun k => leBytes 2 (points.getD k 0).toNat)
      finish (writeHost s3 (t.par 0x18 8) bytes) c.id .success 8192

/-! ## Meanings -/

/-- LANE_ENABLE (R401, R403, R405). -/
def execLaneEnable (lane : Fin 16) (value : Word) (s : State) : Res :=
  .next (regWrite (FHL_LANE_CFG.enable.offset lane 0) s (laneEnable lane value.toNat))

/-- LANE_DISABLE (R401, R403). -/
def execLaneDisable (lane : Fin 16) (value : Word) (s : State) : Res :=
  .next (regWrite (FHL_LANE_CFG.enable.offset lane 0) s (fun s => synceUpdate (laneDisable lane value.toNat s)))

/-- CDR_LOCK (R403, R405): `heights` are the eye heights measured at the 16 codes. -/
def execCdrLock (lane : Fin 16) (heights : List Nat) (s : State) : Res := .next (cdrLock lane heights s)

/-- LANE_ALIGN_LOCK (R403). -/
def execLaneAlignLock (lane : Fin 16) (s : State) : Res := .next (alignLock lane s)

/-- LANE_ACQUIRE_TIMEOUT (R403). -/
def execLaneAcquireTimeout (lane : Fin 16) (s : State) : Res := .next (laneAcquireTimeout lane s)

/-- LANE_RETRY_WAIT_END (R403, R405). -/
def execLaneRetryWaitEnd (lane : Fin 16) (s : State) : Res := .next (retryEnd lane s)

/-- LANE_LINK_LOSS (R403, R407, R422). -/
def execLaneLinkLoss (lane : Fin 16) (s : State) : Res := .next (synceUpdate (linkLoss lane s))

/-- TS_SETTLE (R421, R422). -/
def execTsSettle (lane : Fin 16) (s : State) : Res := .next (synceUpdate (tsSettle lane s))

/-- FRAME_RECEIVED (R402, R411, R412, R415 to R418, R420). -/
def execFrameReceived (lane : Fin 16) (frame : List Byte) (fcs : Bool) (pcs : Bool) (offset : Int) (ready : Bool) (s : State) : Res :=
  .next (frameReceived lane frame fcs pcs offset ready s)

/-- STREAM_EGRESS_FRAME (R402, R408, R413, R414, R514, R526). -/
def execStreamEgressFrame (lane : Fin 16) (frame : List Byte) (underrun : Bool) (s : State) : Res :=
  .next (streamEgress lane frame underrun s)

/-- SLOW_PATH_TX_TAIL (R408, R418). -/
def execSlowPathTxTail (lane : Fin 16) (value : Word) (s : State) : Res :=
  .next (regWrite (FHL_SP_TX_TAIL.index.offset lane 0) s (txTail lane value.toNat))

/-- SLOW_PATH_TRANSMIT (R414, R418 to R421). -/
def execSlowPathTransmit (lane : Fin 16) (offset : Int) (stepped : Bool) (s : State) : Res := .next (slowTransmit lane offset stepped s)

/-- EI_ENTRY (R408). -/
def execEiEntry (lane : Fin 16) (s : State) : Res := .next (eiEntryAt lane s)

/-- RX_SIGNAL_LOSS_EI (R409). -/
def execRxSignalLossEi (lane : Fin 16) (s : State) : Res := .next (synceUpdate (rxSignalLoss lane s))

/-- EI_SIGNAL_RETURN (R409). -/
def execEiSignalReturn (lane : Fin 16) (s : State) : Res := .next (synceUpdate (eiReturn lane s))

/-- EI_RELOCK_TIMEOUT (R409). -/
def execEiRelockTimeout (lane : Fin 16) (s : State) : Res := .next (synceUpdate (eiRelockTimeout lane s))

/-- FH_LANE_ERROR_WINDOW (R423 to R425): `receiving` is what has arrived of the frame that a drop ends. -/
def execFhLaneErrorWindow (lane : Fin 16) (corrected : Nat) (errors : Nat) (s : State) (receiving : List Byte := []) : Res :=
  .next (synceUpdate (errorWindow lane corrected errors receiving s))

/-- EYE_SCAN (R389, R406). -/
def execEyeScan (id : Nat) (s : State) : Res := .next (startCommand 0x44 id s eyeScan)

/-- EYE_SCAN_END (R406). -/
def execEyeScanEnd (group : Fin 3) (points : List (BitVec 16)) (s : State) : Res := .next (eyeScanEnd group points s)

end Sys2Proof.Machine
end

