-- ==== Sys2Proof/Machine/PinCells.lean ====
section
/-! DEFINITION. The cells of the general-purpose pins (chapter 20): their owners, what drives them, handovers and sleep states. -/

namespace Sys2Proof.Machine

/-- A cycle of the pin clock, 100 MHz (R492), and the first edge at or after tick `t`. -/
def pinCycle : Nat := 390
def pinEdge (t : Nat) : Nat := (t + pinCycle - 1) / pinCycle * pinCycle

/-- Bit `n % 32` of a register pair of the PIN block. -/
def pinBit (s : State) (r : Row) (n : Nat) : Bool := bit (s.rd r (n / 32)) (n % 32)

/-- Owners of R493. -/
inductive PinOwner where
  | faultN | thermWarn | clkout (k : Nat) | fabric | gpio
  deriving DecidableEq, Repr

/-- The code of PIN_OWNER_j. -/
def PinOwner.code : PinOwner → Nat
  | .gpio => 0 | .fabric => 1 | _ => 2

/-- The owner of pin `n` (R493). -/
def pinOwner (s : State) (n : Nat) : PinOwner :=
  if n = 47 ∧ s.rdb PIN_PERIPH_EN.fault_n then .faultN
  else if n = 46 ∧ s.rdb PIN_PERIPH_EN.therm_warn_n then .thermWarn
  else if 48 ≤ n ∧ n ≤ 51 ∧ bit (s.rd PIN_PERIPH_EN.clkout) (n - 48) then .clkout (n - 48)
  else if pinBit s PIN_FABRIC_EN.fabric n then .fabric
  else .gpio

def PinDrive.input : PinDrive := { level := false, oe := false }

def fabricDrive (s : State) (n : Nat) : PinDrive := sparseGet PinDrive.input s.pins.fabric n
def keptDrive (s : State) (n : Nat) : PinDrive := sparseGet PinDrive.input s.pins.kept n

/-! ## Clock outputs (R430, R431, R440, R494) -/

/-- CLKOUTk is above 200 MHz: its output stays low and clkout_refused is set. -/
def clkoutOver (s : State) (k : Nat) : Bool :=
  let src := s.rd PIN_CLKOUT.source k
  let d := max 1 (s.rd PIN_CLKOUT.divider k)
  if src ≤ 24 then decide (200000000 * d < candHz s src)
  else if 32 ≤ src ∧ src ≤ 39 then
    let u := src - 32
    decide (200000000 * d * (s.rd CLK_UPLL_CFG.m u * s.rd CLK_UPLL_CFG.o u) < upllInput s u * s.rd CLK_UPLL_CFG.n u)
  else false

/-- CLKOUTk drives its clock: the source is READY or locked, and the output not above 200 MHz (R432, R440, R494). -/
def clkoutRuns (s : State) (k : Nat) : Bool :=
  let src := s.rd PIN_CLKOUT.source k
  !clkoutOver s k && (if src ≤ 24 then bit (s.rd CLK_CAND_READY.ready) src
    else decide (32 ≤ src) && decide (src ≤ 39) && s.rdb CLK_UPLL_STATUS.locked (src - 32))

/-- What the owner of pin `n` drives (R493 to R496). A clock output names its clock, and is low while that does not run. -/
def ownerDrive (s : State) (n : Nat) : PinDrive :=
  match pinOwner s n with
  | .faultN => { level := !(s.rdb DEV_MODE.safe_state || s.rdb INT_STATUS.internal_fault), oe := true }
  | .thermWarn => { level := !s.rdb THM_STATUS.warning, oe := true }
  | .clkout k => { level := false, oe := true, clock := if clkoutRuns s k then some (s.rd PIN_CLKOUT.source k, max 1 (s.rd PIN_CLKOUT.divider k)) else none }
  | .fabric => fabricDrive s n
  | .gpio => { level := pinBit s PIN_OUT.out n, oe := pinBit s PIN_OE.oe n }

/-- A handover of pin `n` is in progress. -/
def handing (s : State) (n : Nat) : Bool := (sparseFind s.pins.hand n).isSome

/-- What drives pin `n`: the keeper in a handover or a sleep state, else the owner; a bank without a supply drives nothing (R491). -/
def pinDrive (s : State) (n : Nat) : PinDrive :=
  let d := if handing s n || s.pins.sleeping then keptDrive s n else ownerDrive s n
  if bit (s.rd PIN_STATUS.bank_fault) (n / 16) then { d with oe := false } else d

/-- PIN_OWNER_j shows the owners. -/
def showOwners (s : State) : State :=
  (List.range 4).foldl (fun t j =>
    let v := (List.range 16).foldl (fun a p =>
      a + (if handing s (16 * j + p) || s.pins.sleeping then 3 else (pinOwner s (16 * j + p)).code) * 4 ^ p) 0
    t.wr PIN_OWNER.owner v j) s

/-- Pin `n`, driven as `d` until now, starts a handover on the next pin-clock edge; one in progress starts its count afresh (R497). The level of a
clock on that edge is not stated. -/
def startHandover (s : State) (n : Nat) (d : PinDrive) : State :=
  let e := pinEdge s.now
  let f := s.fresh 1
  let held : PinDrive := if d.clock.isSome then { level := f.1 == 1#1, oe := d.oe } else d
  let s := if d.clock.isSome then f.2 else s
  let kept := if handing s n then s.pins.kept else sparseSet PinDrive.input s.pins.kept n held
  { s with pins := { s.pins with kept := kept, hand := sparsePut s.pins.hand n (e + 4 * pinCycle) } }

/-- A change `f` of the enables: every pin whose owner changes starts a handover (R497). Under a sleep state no owner drives. -/
def changeOwners (f : State → State) (s : State) : State :=
  let t := f s
  if s.pins.sleeping then t
  else
    showOwners ((List.range 64).foldl (fun t n => if pinOwner s n = pinOwner t n then t else startHandover t n (pinDrive s n)) t)

/-- The sleep state of pin `n` (R502), from what it was driven as. -/
def sleepDrive (s : State) (n : Nat) (d : PinDrive) : PinDrive :=
  match s.rd PIN_CFG.sleep n with
  | 0 => d
  | 1 => { level := false, oe := true }
  | 2 => { level := true, oe := true }
  | _ => PinDrive.input

/-- At power-down every pin changes owner to its sleep state (R502). -/
def sleepPins (s : State) : State :=
  let t := (List.range 64).foldl (fun t n => startHandover t n (pinDrive s n)) s
  showOwners { t with pins := { t.pins with sleeping := true } }

/-- After a wake, ownership returns through a handover as DEV_MODE first reads ASSEMBLY (R502). -/
def wakePins (s : State) : State :=
  if !s.pins.sleeping then s
  else
    let t := (List.range 64).foldl (fun t n => startHandover t n (keptDrive s n)) s
    showOwners { t with pins := { t.pins with sleeping := false } }

end Sys2Proof.Machine
end

