-- ==== Sys2Proof/Machine/Timing.lean ====
section
/-! DEFINITION. The time counter, the references, the timing engine and its holdover model, steps of the counter, and the timed outputs
(chapter 18). -/

namespace Sys2Proof.Machine

/-! ## Codes and limits -/

/-- Timing states (R455). -/
def tmFree : Nat := 0
def tmAcquiring : Nat := 1
def tmLocked : Nat := 2
def tmLearned : Nat := 3
def tmExtended : Nat := 4
def tmLost : Nat := 5

/-- A holdover state or REFERENCE_LOST. -/
def inOutage (st : Nat) : Bool := st == tmLearned || st == tmExtended || st == tmLost

/-- Nanoseconds in units of 2^-16 ns. -/
def ns16 (n : Nat) : Nat := n * 65536

/-- te_limit in ns (R471). -/
def teLimit (s : State) : Nat :=
  let v := s.rd TIM_HO_CFG.te_limit_ns
  if 100 ≤ v ∧ v ≤ 4000 then v else 1100

/-- A frequency offset held within ±500 ppm (R447). -/
def clampPpt (v : Int) : Int := max (-500000000) (min 500000000 v)

/-- A model of at least 4 h of learning (R456). -/
def modelUsable (s : State) : Bool := decide (14400 ≤ s.rd TIM_LEARNED.learned_s)

def setEng (s : State) (e : Engine) : State := { s with tim := { s.tim with eng := e } }

/-! ## Oscillator temperature (R459, R476, R477) -/

/-- The mean of the valid base-die sensors, in 0.01 °C. -/
def baseMean (s : State) : Option Int :=
  let v := (List.range 24).filter (fun n => s.rdb THM_SENSOR.valid n)
  if v.isEmpty then none
  else some ((v.map (fun n => toSigned 12 (s.rd THM_SENSOR.temp n))).foldl (· + ·) 0 * 25 / (2 * v.length))

/-- The oscillator temperature is read: OSC_TEMP, or the fallback while that is out of range. -/
def readOscTemp (s : State) : State :=
  let code := s.rd WKT_ADC.code 24
  let fb := decide (code < 200) || decide (3800 < code)
  let t : Int := if fb then (baseMean s).getD s.tim.temp else (code : Int) * 5 - 5000
  { s with tim := { s.tim with temp := t, fallback := fb } }

/-! ## The model (R459, R460) -/

/-- The 0.5 °C bin of a temperature in 0.01 °C, counted from −300 °C. -/
def tempBin (t : Int) : Nat := ((t + 30000) / 50).toNat
def binLow (b : Nat) : Int := (b : Int) * 50 - 30000

/-- Lowest and highest bin with at least 600 s of data: the learned range in 0.01 °C. -/
def learnedRange (s : State) : Option (Int × Int) :=
  let full := (s.tim.bins.filter (fun p => decide (600000000 ≤ p.2))).map (fun p => p.1)
  match full.head?, full.getLast? with
  | some a, some b => some (binLow a, binLow b + 50)
  | _, _ => none

/-- The temperature lies more than 2 °C outside the learned range. -/
def outsideRange (s : State) : Bool :=
  match learnedRange s with
  | some (lo, hi) => decide (s.tim.temp < lo - 200) || decide (hi + 200 < s.tim.temp)
  | none => false

/-- The mean learned temperature. -/
def meanTemp (s : State) : Int :=
  let total : Nat := s.tim.bins.foldl (fun (a : Nat) p => a + p.2) 0
  if total = 0 then s.tim.temp
  else (s.tim.bins.map (fun p => (binLow p.1 + 25) * (p.2 : Int))).foldl (· + ·) 0 / total

/-- f0 + c1 ΔT + c2 ΔT² + c3 ΔT³ + r dT/dt + a t_age, in ppt, with ΔT in °C (R459). -/
def predicted (s : State) (dT : Int) : Int :=
  let c (i : Nat) : Int := s.tim.fit.getD i 0
  let x := s.tim.temp - s.tim.fitMean
  c 0 + c 1 * x / 100 + c 2 * x * x / 10000 + c 3 * x * x * x / 1000000 + c 4 * dT / 10 +
    c 5 * (((s.now - s.tim.lastFit) / secTicks : Nat) : Int)

/-- A free signed value of `w` bits. -/
def freshInt (s : State) (w : Nat) : Int × State := let f := s.fresh w; (f.1.toInt, f.2)

/-- MODEL_REFIT: every 60 s. The coefficients that the fit gives are not stated; older data fades with a time constant of 7 days. -/
def refit (s : State) : State :=
  let s := advanceTo s (s.tim.lastFit + 60 * secTicks)
  if s.tim.bins.isEmpty then { s with tim := { s.tim with lastFit := s.now } }
  else
    let r := (List.range 6).foldl (fun (a : List Int × State) _ => let f := freshInt a.2 32; (a.1 ++ [f.1], f.2)) ([], s)
    let t := r.2
    let fade := t.tim.bins.filterMap (fun p => if p.2 - p.2 / 10080 = 0 then none else some (p.1, p.2 - p.2 / 10080))
    { t with tim := { t.tim with fit := r.1, fitMean := meanTemp t, lastFit := t.now, bins := fade } }

/-- The learned model is discarded (R459). -/
def discardModel (s : State) : State :=
  { s with tim := { s.tim with bins := [], fit := [], fitMean := 0, tenths := 0 } }.wr TIM_LEARNED.learned_s 0

/-- A tenth of a second LOCKED, with the time PLL on LOCAL_OSC, is learned. -/
def learn (s : State) : State :=
  if s.tim.eng.state ≠ tmLocked ∨ s.rd TIM_STATUS.time_pll_src ≠ 0 then s
  else
    let b := tempBin s.tim.temp
    let t := { s with tim := { s.tim with bins := sparseSet 0 s.tim.bins b (sparseGet 0 s.tim.bins b + 100000) } }
    if s.tim.tenths = 9 then { t with tim := { t.tim with tenths := 0 } }.inc TIM_LEARNED.learned_s
    else { t with tim := { t.tim with tenths := t.tim.tenths + 1 } }

/-! ## The bound (R461, R462, R465) -/

/-- One row of the table of R461: (hours, ns), ns for each further hour, and k_x. -/
structure BoundRow where
  points : List (Nat × Nat)
  slope : Nat
  kx : Nat
  deriving DecidableEq, Repr

def rowClass1 : BoundRow :=
  { points := [(0, 30), (1, 620), (2, 750), (4, 910), (8, 1100), (16, 1340), (24, 1500)], slope := 20, kx := 30 }
def rowClass2 : BoundRow :=
  { points := [(0, 30), (1, 900), (2, 1600), (4, 3000), (8, 6000), (16, 13000), (24, 21000)], slope := 1000, kx := 200 }
def rowClass3 : BoundRow :=
  { points := [(0, 30), (1, 8000), (2, 20000), (4, 50000), (8, 140000), (16, 420000), (24, 850000)], slope := 53750, kx := 2000 }
def rowSynce : BoundRow :=
  { points := [(0, 30), (1, 60), (2, 80), (4, 110), (8, 160), (16, 250), (24, 330)], slope := 10, kx := 0 }

def hourMs : Nat := 3600000

/-- The row at elapsed time `ms`, in 10^-6 ns. -/
def interp (slope ms : Nat) : List (Nat × Nat) → Nat
  | [] => 0
  | [(h, v)] => v * 1000000 + slope * 1000000 * (ms - h * hourMs) / hourMs
  | (h0, v0) :: (h1, v1) :: r =>
    if ms < h1 * hourMs then v0 * 1000000 + (v1 - v0) * 1000000 * (ms - h0 * hourMs) / ((h1 - h0) * hourMs)
    else interp slope ms ((h1, v1) :: r)

/-- The class row; class 0 is handled as class 3 (R460). -/
def classRow (s : State) : BoundRow :=
  let c := s.rd TIM_HO_CFG.osc_class
  if c = 1 then rowClass1 else if c = 2 then rowClass2 else rowClass3

/-- A SyncE candidate is enabled and selected. -/
def synceOn (s : State) : Bool := s.rdb TIM_REF_CFG.synce_enable && s.rd TIM_STATUS.synce_sel != 0x1F

/-- freq_assisted in state `st` (R453). -/
def assisted (s : State) (st : Nat) : Bool := inOutage st && synceOn s

/-- The least `r` with r * r ≥ n, below 2^64. -/
def ceilSqrt (n : Nat) : Nat :=
  let r := (List.range 64).foldl (fun r i => let c := r + 2 ^ (63 - i); if c * c ≤ n then c else r) 0
  if r * r = n then r else r + 1

/-- The factor q in 10^-6: `lost` for 4, else by learned_s; then the fallback's 1.5 and the range's 2. -/
def factorQ (s : State) (lost left : Bool) : Nat :=
  let l := s.rd TIM_LEARNED.learned_s
  let q := if lost ∨ l = 0 then 4000000 else max 1000000 (ceilSqrt (86400 * 1000000000000 / l))
  let q := if s.tim.fallback then q * 3 / 2 else q
  if left then q * 2 else q

/-- The bound grows over the outage up to now. -/
def growBound (s : State) (e : Engine) : Engine :=
  match e.outage with
  | none => e
  | some t0 =>
    let ms := (s.now - t0) / msTicks
    let left := e.left || outsideRange s
    let as := assisted s e.state
    let row := if as then rowSynce else classRow s
    let m := ms / 60000
    let dx := if e.minutes < m then ((s.tim.temp - e.minuteTemp).natAbs * 100 - 1667) else 0
    let onWicket := s.rd TIM_STATUS.time_pll_src = 2
    let grow :=
      if onWicket then 20 * 1000000 * (ms - e.counted)
      else (interp row.slope ms row.points - interp row.slope e.counted row.points) *
        (if as then 1000000 else factorQ s (e.state == tmLost) left) / 1000000 + row.kx * dx * 100
    { e with counted := ms, left := left, minutes := m, minuteTemp := if e.minutes < m then s.tim.temp else e.minuteTemp,
             excess := e.excess + dx, bound := e.bound + grow }

/-- The bound that an 8 h outage from now would reach, in ns (R462). -/
def predictedBound (s : State) : Nat :=
  let row := if s.rd TIM_STATUS.synce_sel ≠ 0x1F then rowSynce else classRow s
  let q := if s.rd TIM_STATUS.synce_sel ≠ 0x1F then 1000000 else factorQ s (!modelUsable s) (outsideRange s)
  let b := 30 * 1000000 + (interp row.slope (8 * hourMs) row.points - interp row.slope 0 row.points) * q / 1000000
  min 0xFFFFFFFF ((b + 999999) / 1000000)

/-- The bound in ns, as the register gives it. -/
def boundNs (e : Engine) : Nat := (e.bound + 999999) / 1000000

/-- The bound exceeds `ns`. -/
def boundOver (e : Engine) (ns : Nat) : Bool := decide (ns * 1000000 < e.bound)

/-! ## References (R449, R450, R454) -/

/-- PTP is valid: host software says so, and its last measurement is recent enough. -/
def ptpValid (s : State) : Bool :=
  s.rdb TIM_PTP_CTRL.ptp_valid && s.tim.ptp.offset.isSome &&
    decide (s.now ≤ s.tim.ptp.at_ + max 1 (s.rd TIM_SERVO_CFG.ptp_timeout_s) * secTicks)

def todFormat (s : State) : Nat := let f := s.rd TIM_REF_CFG.tod_format; if f = 3 then 0 else f

/-- The 1PPS input qualifies as far as its own signals go. -/
def ppsValid (s : State) : Bool :=
  s.rdb TIM_PPS_STATUS.pps_valid && (todFormat s == 0 || s.rdb TIM_PPS_STATUS.seconds_known) &&
    (todFormat s != 2 || s.rdb TIM_PPS_STATUS.time_valid)

/-- The unbroken validity of a reference brought up to date. -/
def RefMeas.note (r : RefMeas) (valid : Bool) (now : Nat) : RefMeas :=
  { r with since := if valid then some (r.since.getD now) else none }

def noteRefs (s : State) : State :=
  { s with tim := { s.tim with ptp := s.tim.ptp.note (ptpValid s) s.now, pps := s.tim.pps.note (ppsValid s) s.now } }

/-- A reference is qualified once it has been valid for reacq_holdoff_s. -/
def qualified (s : State) (r : RefMeas) : Bool :=
  r.since.any (fun t => decide (t + max 1 (s.rd TIM_HO_CFG.reacq_holdoff_s) * secTicks ≤ s.now))

/-- The device's own phase reference by R454: code and offset. -/
def ownRef (s : State) : Option (Nat × Int) :=
  let ptp := s.rdb TIM_REF_CFG.ptp_enable && qualified s s.tim.ptp
  let pps := s.rdb TIM_REF_CFG.pps_enable && qualified s s.tim.pps
  let one : Option (Nat × Int) := s.tim.ptp.offset.map (fun o => (1, o))
  let two : Option (Nat × Int) := s.tim.pps.offset.map (fun o => (2, o))
  if s.rdb TIM_REF_CFG.phase_primary then (if pps then two else if ptp then one else none)
  else (if ptp then one else if pps then two else none)

/-- The phase reference that the engine may follow: in SHADOW the pair transfer, while the partner's blocks arrive (R518, R522). -/
def phaseRef (s : State) : Option (Nat × Int) :=
  if s.rd DEV_MODE.mode = modeShadow then (if s.pair.heartbeat then some (3, s.pair.offset) else none) else ownRef s

/-- The last offset measured of reference `c`. -/
def lastOffset (s : State) (c : Nat) : Option Int :=
  if c = 1 then s.tim.ptp.offset else if c = 2 then s.tim.pps.offset else if c = 3 then some s.pair.offset else none

/-! ## The state machine (R456, R464) -/

def Engine.enter (e : Engine) (st : Nat) : Engine :=
  if e.state = st then e else { e with previous := e.state, state := st, inside := none, outside := none }

/-- A new outage begins (R462). -/
def loseRef (s : State) (e : Engine) : Engine :=
  { e.enter (if modelUsable s ∧ s.rd TIM_STATUS.time_pll_src = 0 then tmLearned else tmLost) with
    source := 0, outage := some s.now, counted := 0, bound := 30 * 1000000, minutes := 0, minuteTemp := s.tim.temp, excess := 0,
    left := false, disagree := false }

/-- The engine enters ACQUIRING on reference `r`. -/
def acquire (e : Engine) (r : Nat × Int) : Engine :=
  { e.enter tmAcquiring with entry := e.state, source := r.1, offset := r.2, disagree := false }

/-- One evaluation over the references: the engine after it, and a step that it asks for at the next frame boundary, with whether it enters
ACQUIRING by that step. `filtered` is the filtered offset of this evaluation. -/
def evaluate (s : State) (e : Engine) (ref : Option (Nat × Int)) (filtered : Int) : Engine × Option (Int × Bool) :=
  if e.state = tmFree then
    match ref with
    | none => (e, none)
    | some r => (acquire e r, if ns16 1000 < r.2.natAbs then some (-r.2, false) else none)
  else if e.state = tmAcquiring then
    match ref with
    | none =>
      if e.entry = tmLocked then (loseRef s e, none)
      else (growBound s { e.enter (if (e.entry = tmLearned ∨ e.entry = tmExtended) ∧ s.rd TIM_STATUS.time_pll_src ≠ 0 then tmLost else e.entry)
        with source := 0 }, none)
    | some r =>
      let e := { e with source := r.1, offset := filtered }
      if ns16 50 < filtered.natAbs then ({ e with inside := none }, none)
      else
        let t := e.inside.getD s.now
        if t + 60 * secTicks ≤ s.now then (e.enter tmLocked, none) else ({ e with inside := some t }, none)
  else if e.state = tmLocked then
    match ref with
    | none => (loseRef s e, none)
    | some r =>
      let jump := r.1 != e.source && (lastOffset s e.source).any (fun o => decide (ns16 50 < (r.2 - o).natAbs))
      let e := { e with source := r.1, offset := filtered }
      if jump then ({ e.enter tmAcquiring with entry := tmLocked }, none)
      else if filtered.natAbs ≤ ns16 250 then ({ e with outside := none }, none)
      else
        let t := e.outside.getD s.now
        if t + 10 * secTicks ≤ s.now then ({ e.enter tmAcquiring with entry := tmLocked }, none)
        else ({ e with outside := some t }, none)
  else
    let e := growBound s e
    let e := if e.state = tmLearned ∧ boundOver e (teLimit s) then e.enter tmExtended else e
    match ref with
    | none => (e, none)
    | some r =>
      if s.rdb TIM_STATUS.forced then (e, none)
      else if r.2.natAbs ≤ ns16 (teLimit s) then (acquire e r, none)
      else if s.rdb TIM_HO_CFG.step_policy then (e, some (-r.2, true))
      else ({ e with disagree := true }, none)

/-- time_error of an engine, with `extra` ns added to the value judged (R457, R555). -/
def timeError (s : State) (e : Engine) (extra : Nat := 0) : Bool :=
  if e.state = tmFree then true
  else if inOutage e.state then boundOver { e with bound := e.bound + extra * 1000000 } (teLimit s)
  else decide (ns16 (teLimit s) < e.offset.natAbs + ns16 extra)

/-- The time quality class of an engine (R458). -/
def tqClass (s : State) (e : Engine) : Nat :=
  let near (ns : Nat) : Bool := if e.state = tmAcquiring then decide (e.offset.natAbs ≤ ns16 ns) else !boundOver e ns
  if e.state = tmLocked then 0
  else if e.state = tmFree then 4
  else if e.state = tmLost then 3
  else if near 250 then 1
  else if (e.state = tmAcquiring ∨ e.state = tmLearned) ∧ near (teLimit s) then 2
  else 3

/-- The TIM registers show the engine, and timing_state is raised where state, class or time_error has changed (R458, R471). -/
def showTiming (s : State) (te : Bool) : State :=
  let e := s.tim.eng
  let changed := s.rd TIM_STATUS.state != e.state || s.rd TIM_STATUS.tq_class != tqClass s e || s.rdb TIM_STATUS.time_error != te
  let t := (((s.wr TIM_STATUS.state e.state).wr TIM_STATUS.previous e.previous).wr TIM_STATUS.tq_class (tqClass s e)).wrb TIM_STATUS.time_error te
  let t := (t.wr TIM_STATUS.phase_ref e.source).wrb TIM_STATUS.freq_assisted (assisted s e.state)
  let t := (t.wrb TIM_STATUS.model_usable (modelUsable s)).wr TIM_HO_BOUND.bound_ns (min 0xFFFFFFFF (boundNs e))
  let t := match e.outage with
    | some t0 => if inOutage e.state then t.wr TIM_HO_ELAPSED.seconds ((s.now - t0) / secTicks) else t
    | none => t
  if changed then raiseEvent t evTiming else t

/-- The value that TIME_ERROR reports: bound or offset in ns. -/
def errorNs (e : Engine) : Nat := if inOutage e.state then boundNs e else e.offset.natAbs / 65536

/-- The time_error cause follows (R545); the mute lifts only at a frame boundary. -/
def timeErrorCause (s : State) (te : Bool) : State := if te then setCause s scTimeError else endCause s scTimeError

/-- An adjustment waits for its frame boundary; a lead announces a step, and the shadow makes it on the same edge (R523). -/
def announceStep (s : State) (p : TimeStep) : State :=
  let t := { s with tim := { s.tim with steps := s.tim.steps ++ [p] } }
  if s.rd DEV_MODE.mode = modeLead ∧ p.kind ≠ 2 then sendControl t (.step p.kind p.value p.edge) else t

/-- An engine or shadow step waits for the next frame boundary. -/
def planStep (s : State) (d : Int) (engine pair : Bool) : State :=
  announceStep s { id := none, kind := 0, value := d, edge := frameBoundary (counter s + 1), engine := engine, pair := pair }

/-- The counter's frequency for the next 100 ms (R447, R452, R453, R460): the servo's, SyncE's or the model's prediction. The servo's and the
line's frequencies are not stated; slewing keeps within slew_max, a change of selection within 2 ppb/s, and the hold-off time holds it. -/
def steer (s : State) (dT : Int) : State :=
  let e := s.tim.eng
  let synce (s : State) : State :=
    if s.tim.seHold.isSome then s
    else
    let f := freshInt s 32
    let goal := clampPpt f.1
    let t := f.2
    if t.tim.seSlew then
      let next := t.tim.ppt + max (-200) (min 200 (goal - t.tim.ppt))
      { t with tim := { t.tim with ppt := next, seSlew := decide (next ≠ goal) } }
    else { t with tim := { t.tim with ppt := goal } }
  let servo (s : State) : State :=
    let f := freshInt s 32
    if e.state = tmAcquiring ∧ inOutage e.entry then
      let lim : Int := max 1 (s.rd TIM_SERVO_CFG.slew_max) * 1000
      { f.2 with tim := { f.2.tim with ppt := clampPpt (s.tim.base + max (-lim) (min lim f.1)) } }
    else { f.2 with tim := { f.2.tim with ppt := clampPpt f.1 } }
  if e.state = tmFree then (if synceOn s then synce s else s)
  else if e.state = tmAcquiring ∨ e.state = tmLocked then servo s
  else if synceOn s then synce s
  else if e.state = tmLost then { (freshInt s 32).2 with tim := { s.tim with ppt := clampPpt ((freshInt s 32).1 + s.tim.extra) } }
  else { s with tim := { s.tim with ppt := clampPpt (predicted s dT + s.tim.extra) } }

/-- The injected evaluation of mechanism 0x02 is detected (R555, R556): logged, with no policy cause. -/
def timeInjection (s : State) : State :=
  injectionEnd (fault s .timeError s.tim.eng.state (errorNs s.tim.eng + teLimit s + 1) (injected := true) (withheld := true)) s.now

/-- One evaluation of the timing engine, every 100 ms (R456 to R465). -/
def timingEvaluate (s : State) : State :=
  let s := advanceTo s (s.tim.lastEval + 100 * msTicks)
  let s := { s with tim := { s.tim with lastEval := s.now } }
  let was := s.tim.temp
  let s := synceUpdate (learn (noteRefs (readOscTemp s)))
  let f := freshInt s 48
  let s := f.2
  let old := s.tim.eng
  let r := evaluate s old (phaseRef s) f.1
  let shadow := s.rd DEV_MODE.mode = modeShadow
  let o := if shadow then (evaluate s s.tim.own (ownRef s) f.1).1 else r.1
  let base := if r.1.state = tmAcquiring ∧ old.state ≠ tmAcquiring then s.tim.ppt else s.tim.base
  let extra := if inOutage r.1.state then s.tim.extra else 0
  let s := { s with tim := { s.tim with eng := r.1, own := o, base := base, extra := extra } }
  let s := match r.2 with
    | some (d, acq) => if shadow ∨ s.tim.steps.any (fun p => p.engine) then s else planStep s d acq false
    | none => s
  let s := if r.1.disagree ∧ !old.disagree then raiseEvent (s.wr TIM_STATUS.ref_disagree 1) evTiming else s
  let s := steer s (s.tim.temp - was)
  let inj := injArmed s 0x02 0
  let real := timeError s s.tim.eng
  let new := real && !s.rdb TIM_STATUS.time_error
  let s := if new then fault s .timeError s.tim.eng.state (errorNs s.tim.eng) else s
  let s := if inj then timeInjection s else s
  timeErrorCause (showTiming s (real || inj && timeError s s.tim.eng (teLimit s + 1))) real

/-! ## PTP, 1PPS and time of day (R449 to R451) -/

/-- A write to TIM_PTP_MEAS_HI commits a measurement: the offset as it stood age_us ago, which a step since then has moved. -/
def ptpCommit (v : Nat) (s : State) : State :=
  let s := (s.wr TIM_PTP_MEAS_HI.offset_hi (bits v 0 16)).wr TIM_PTP_MEAS_HI.age_us (bits v 16 16)
  let stepped := s.tim.stepTick.any (fun t => decide (s.now < t + bits v 16 16 * usTicks))
  let off := toSigned 48 (s.rd TIM_PTP_MEAS_LO.offset_lo + bits v 0 16 * 2 ^ 32) + (if stepped then s.tim.lastStep else 0)
  let r := s.tim.ptp.note (ptpValid s) s.now
  let t := { s with tim := { s.tim with ptp := { r with offset := some off, at_ := s.now } } }
  (noteRefs t).inc TIM_PTP_CTRL.meas_count

/-- The nearest whole second of a counter value. -/
def nearestSecond (c : Nat) : Nat := (c + ns16 500000000) / ns16 1000000000

/-- A rising edge on PPS_IN, `width` ns wide, `sub` units of 2^-16 ns after the present hop cycle began. -/
def ppsRise (width sub : Nat) (s : State) : State :=
  if width < 100 then s
  else
    let ts := counter s + sub
    let sec := ns16 1000000000
    let good := s.tim.ppsEdge.any (fun e => decide ((((ts : Int) - e) - sec).natAbs ≤ ns16 10000)) &&
      decide (s.now ≤ s.tim.ppsTick + 1100 * msTicks)
    let run := if good then min 3 (s.tim.ppsRun + 1) else 1
    let known := s.rdb TIM_PPS_STATUS.seconds_known && s.tim.todSeen
    let edge := if s.tim.todSeen then s.tim.todLast.map (· + 1) else none
    let t := (s.wrb TIM_PPS_STATUS.pps_valid (run == 3)).wrb TIM_PPS_STATUS.seconds_known known
    let src : Int := (ts : Int) - toSigned 32 (s.rd TIM_PPS_ADJ.adj)
    let mark : Option Nat := if todFormat s = 0 then some (nearestSecond src.toNat) else if known then edge else none
    let m := match mark with
      | some k => { s.tim.pps with offset := some (src - k * sec), at_ := s.now }
      | none => s.tim.pps
    noteRefs { t with tim := { t.tim with ppsEdge := some ts, ppsTick := s.now, ppsRun := run, todEdge := edge, todSeen := false, pps := m } }

/-- No edge within 1.1 s of the last. -/
def ppsLost (s : State) : State :=
  if s.tim.ppsRun = 0 then s
  else
    let t := advanceTo s (s.tim.ppsTick + 1100 * msTicks)
    noteRefs ({ t with tim := { t.tim with ppsRun := 0 } }.wr TIM_PPS_STATUS.pps_valid 0)

/-- An accepted message says that the last edge was second `m`. -/
def todAccept (m : Nat) (s : State) : State :=
  let agree := s.tim.todEdge == some m
  let known := if s.tim.todSeen then s.rdb TIM_PPS_STATUS.seconds_known && s.tim.todLast == some m
    else agree
  noteRefs ({ s with tim := { s.tim with todLast := some m, todEdge := some m, todSeen := true } }.wrb TIM_PPS_STATUS.seconds_known known)

/-- A time-of-day message ends on TOD_RX: it is accepted, or discarded and counted. -/
def todMessage (msg : TodMessage) (s : State) : State :=
  let since := s.now - s.tim.ppsTick
  let late := s.tim.ppsEdge.isNone || decide (900 * msTicks < since)
  let bad := s.inc TIM_PPS_STATUS.tod_errors
  if todFormat s = 0 then s
  else
    match msg with
    | .zda ok utc =>
      if todFormat s ≠ 1 ∨ !ok ∨ late then bad
      else todAccept ((utc : Int) + toSigned 16 (s.rd TIM_TOD_CFG.utc_offset)).toNat s
    | .binary d =>
      let l := d.toList
      if todFormat s ≠ 2 ∨ late ∨ since < 10 * msTicks ∨ field l 0 2 ≠ 0x544E ∨ field l 2 1 ≠ 1 ∨ 8 ≤ field l 3 1 ∨ !zeros l 12 2 ∨
          crc 16 0x1021 0xFFFF (l.take 14) ≠ field l 14 2 then bad
      else
        let t := { s with tim := { s.tim with todFlags := field l 3 1 + field l 10 2 * 256 } }
        todAccept (field l 4 6 - 1) (t.wrb TIM_PPS_STATUS.time_valid ((field l 3 1).testBit 2))

/-! ## SyncE events (R452) -/

/-- The hold-off time ends without the selected candidate back: selection afresh. -/
def holdOffEnd (s : State) : State :=
  match s.tim.seHold with
  | none => s
  | some t =>
    let s := synceUpdate (advanceTo s t)
    if s.tim.seHold.isSome then seSelect s (seBest s) else s

/-- A wait-to-restore time ends. -/
def wtrEnd (n : Nat) (s : State) : State :=
  match sparseFind s.tim.seWtr n with
  | none => s
  | some t =>
    let s := advanceTo s t
    let s := { s with tim := { s.tim with seWtr := sparseDel s.tim.seWtr n } }.wr TIM_SYNCE_QL.in_wtr 0 n
    synceUpdate (if seBase s n then s.wr TIM_SYNCE_QL.eligible 1 n else s)

/-! ## The time PLL (R463, R465) -/

/-- The bound of an outage is brought up to now, before the time PLL takes another input. -/
def growOutage (s : State) : State := if inOutage s.tim.eng.state then setEng s (growBound s s.tim.eng) else s

/-- The time PLL loses its input: from LOCAL_OSC it moves to the core reference, or else to the Wicket oscillator; from a core reference that is
lost as well it moves to the Wicket oscillator, and the state stays (DEDUCED, log entry 197). -/
def timePllLoss (s : State) : State :=
  let src := s.rd TIM_STATUS.time_pll_src
  let c := s.rd CLK_REF_STATUS.current
  let core := c ≠ 0 ∧ candReady s c
  if src = 2 ∨ candReady s 0 ∨ (src = 1 ∧ core) then s
  else if src = 1 then (growOutage s).wr TIM_STATUS.time_pll_src 2
  else
    let s := noteRefs ((growOutage s).wr TIM_STATUS.time_pll_src (if core then 1 else 2))
    let e := s.tim.eng
    let ref := if s.rdb TIM_STATUS.forced then none else phaseRef s
    let e1 :=
      if e.state = tmLocked then
        match ref with
        | some _ => { e.enter tmAcquiring with entry := tmLocked }
        | none => loseRef s e
      else if e.state = tmLearned ∨ e.state = tmExtended then e.enter tmLost
      else e
    let t := setEng s e1
    let te := timeError t e1
    timeErrorCause (showTiming t te) te

/-- LOCAL_OSC is READY again: the time PLL returns at the first frame boundary. -/
def timePllReturn (s : State) : State :=
  if s.rd TIM_STATUS.time_pll_src = 0 ∨ !candReady s 0 then s
  else (growOutage (advanceToCounter s (frameBoundary (counter s)))).wr TIM_STATUS.time_pll_src 0

/-! ## Steps (R466, R467) -/

/-- The counter wraps at 2^48 seconds. -/
def counterSpan : Nat := 2 ^ 48 * 1000000000 * 65536

/-- The running schedule follows a step: the next entry is the first due at or after the new value. -/
def reschedule (s : State) : State :=
  match (if running s then bankOf s (runBank s) else none) with
  | none => s
  | some k =>
    let ns := ceilNs (counter s)
    let o := firstOrigin k ns
    let p := if o = ns then ns else o - k.period
    let i := (k.entries.takeWhile (fun e => decide (p + e.offset < ns))).length
    let t := if i < k.entries.length then { s with ctxs := { s.ctxs with originNs := p } }.wr CFG_SCHED_STATUS.next_entry i
      else { s with ctxs := { s.ctxs with originNs := p + k.period } }.wr CFG_SCHED_STATUS.next_entry 0
    scheduleStage t

/-- An armed swap whose target a forward step jumps over is taken as passed. -/
def jumpArmed (s : State) (old : Nat) : State :=
  match s.ctxs.armed with
  | some a =>
    if !a.waiting && !a.immediate && decide (old < a.target) && decide (a.target ≤ counter s) then
      { s with ctxs := { s.ctxs with armed := some { a with immediate := true } } }
    else s
  | none => s

/-- The counter value of an output's leading edge number `k`, after TIM_TOUT_ADJ (R468). -/
def toutLead (s : State) (n : Nat) (a : ToutArm) (k : Nat) : Nat :=
  ((a.start : Int) + ns16 (k * a.period) + toSigned 32 (s.rd TIM_TOUT_ADJ.adj n)).toNat

/-- The output still has leading edge number `k`. -/
def ToutArm.has (a : ToutArm) (k : Nat) : Bool :=
  if a.mode = 1 ∨ a.mode = 3 then k == 0 else a.mode == 2 && (a.count == 0 || decide (k < a.count))

/-- Outputs drive their armings in RUN or LEAD out of the safe state (R469). -/
def driving (s : State) : Bool := !s.rdb DEV_MODE.safe_state && (s.rd DEV_MODE.mode == modeRun || s.rd DEV_MODE.mode == modeLead)

def setTout (s : State) (n : Nat) (o : Tout) : State := { s with tim := { s.tim with touts := sparseSet Tout.off s.tim.touts n o } }
def toutOf (s : State) (n : Nat) : Tout := sparseGet Tout.off s.tim.touts n

/-- The level of an output on the present tick, unless it is muted. -/
def setLevel (s : State) (n : Nat) (v : Bool) : State :=
  if driving s then s.wrBit TIM_TOUT_STATUS.level n v else s

/-- The least pulse width: 4 ns (R468). -/
def widthNs (a : ToutArm) : Nat := max 4 a.width

/-- A leading edge takes place: the level changes, or the edge counts as muted. -/
def toutRise (s : State) (n : Nat) (o : Tout) : State :=
  let a := o.arm
  let t := setLevel s n a.active
  if a.mode = 3 then setTout t n { o with pulses := 1 }
  else setTout t n { o with pulses := o.pulses + 1, high := some (s.now + widthNs a * nsTicks) }

/-- An output after a step from `old`: a single pulse or level that was jumped over happens now; a periodic one continues at its next position
at or after the new value. -/
def stepTout (old : Nat) (s : State) (n : Nat) : State :=
  let o := toutOf s n
  let a := o.arm
  let c := counter s
  if (a.mode = 1 ∨ a.mode = 3) ∧ o.pulses = 0 ∧ old < toutLead s n a 0 ∧ toutLead s n a 0 ≤ c then toutRise s n o
  else if a.mode = 2 ∧ a.period ≠ 0 ∧ toutLead s n a 0 < c then
    let k := (c - toutLead s n a 0 + ns16 a.period - 1) / ns16 a.period
    let t := setTout s n { o with pulses := k }
    if o.high.isSome || a.has k then t else t.wrBit TIM_TOUT_STATUS.armed n false
  else if a.mode = 2 then setTout s n { o with pulses := 0 }
  else s

/-- The counter and its replica change by `d` on the present edge, with the effects of R466 and R467. -/
def applyStep (s : State) (d : Int) : State :=
  let old := counter s
  let fine := (((s.tim.fine : Int) + d * fineScale) % ((counterSpan * fineScale : Nat) : Int)).toNat
  let e := s.tim.eng
  let e := if e.state = tmLocked then { e.enter tmAcquiring with entry := tmLocked, offset := e.offset + d }
    else if e.state = tmAcquiring then { e with offset := e.offset + d, inside := none } else e
  let move (r : RefMeas) : RefMeas := { r with offset := r.offset.map (· + d) }
  let t := { s with tim := { s.tim with fine := fine, eng := e, lastStep := d, stepTick := some s.now, ptp := move s.tim.ptp, pps := move s.tim.pps } }
  let t := { t with tim := { t.tim with replica := t.tim.replica.map (fun _ => counter t) } }
  let t := (List.range 8).foldl (stepTout old) (jumpArmed (reschedule t) old)
  showTiming t (t.rdb TIM_STATUS.time_error)

/-- An adjustment takes effect, by kind and timing state (R466). -/
def applyAdjust (s : State) (p : TimeStep) : State :=
  let st := s.tim.eng.state
  if p.kind = 2 then
    if st = tmAcquiring ∨ st = tmLocked then (match p.id with | some id => finish s id .busy | none => s)
    else
      let t := if st = tmFree then { s with tim := { s.tim with ppt := p.value } }
        else { s with tim := { s.tim with ppt := clampPpt (s.tim.ppt - s.tim.extra + p.value), extra := p.value } }
      (match p.id with | some id => finish (commit t id) id .success | none => t)
  else
    let t := applyStep s (if p.kind = 1 then p.value - counter s else p.value)
    let t := if p.engine then
        { t with tim := { t.tim with eng := { t.tim.eng.enter tmAcquiring with entry := st, offset := 0, disagree := false } } } else t
    let t := if p.engine then showTiming t (t.rdb TIM_STATUS.time_error) else t
    let t := if p.pair then raiseEvent (t.inc PRL_COUNTS.steps) evPair else t
    (match p.id with | some id => finish (commit t id) id .success | none => t)

/-- The earliest pending adjustment takes effect on its step edge: the first swap-grid edge at or after its frame boundary. -/
def stepEdge (s : State) : State :=
  match s.tim.steps with
  | [] => s
  | p :: _ =>
    let q := s.tim.steps.foldl (fun (a : TimeStep) b => if b.edge < a.edge then b else a) p
    let s := { s with tim := { s.tim with steps := s.tim.steps.erase q } }
    let s := advanceToCounter s q.edge
    applyAdjust (if q.kind = 2 then s else advanceTo s (gridEdge s s.now)) q

/-! ## Timed outputs (R468, R469) -/

/-- A new arming takes the output. -/
def toutArm (s : State) (n : Nat) (a : ToutArm) : State :=
  let t := setTout s n { arm := a, pulses := 0, high := none, next := none }
  let t := t.wrBit TIM_TOUT_STATUS.armed n (a.mode != 0)
  let o : Tout := { arm := a, pulses := 0, high := none, next := none }
  t.wrBit TIM_TOUT_STATUS.level n (if driving t then o.idleLevel else a.safeLevel)

/-- The next edge of an output: the end of its present pulse, or its next leading edge. -/
def toutEdge (n : Nat) (s : State) : State :=
  let o := toutOf s n
  match o.high with
  | some t =>
    let s := advanceTo s t
    let o := { o with high := none }
    match o.next with
    | some a => toutArm (setTout s n o) n a
    | none =>
      let s := setLevel (setTout s n o) n (!o.arm.active)
      if o.arm.has o.pulses then s else s.wrBit TIM_TOUT_STATUS.armed n false
  | none =>
    if !o.arm.has o.pulses then s
    else toutRise (advanceToCounter s (toutLead s n o.arm o.pulses)) n o

/-- A parsed arming takes effect at the commit point, after a pulse that is then high has ended. -/
def toutCommit (s : State) (n : Nat) (a : ToutArm) : State :=
  let o := toutOf s n
  if o.high.isSome then setTout s n { o with next := some a } else toutArm s n a

/-- The arming that a command's parameters spell. -/
def armOf (t : Track) : ToutArm :=
  { mode := t.par 0x11 1, active := (t.par 0x12 1).testBit 0, safeLevel := (t.par 0x12 1).testBit 1, width := t.par 0x14 4,
    start := t.time 0x18, period := t.par 0x24 4, count := t.par 0x28 4 }

/-- TIMED_OUTPUT_SET (R388, R376 for a far start). -/
def timedOutputSet (t : Track) (s : State) : State :=
  let a := armOf t
  let n := t.par 0x10 1
  let bad := decide (7 < n) || decide (3 < a.mode) ||
    a.mode != 0 && (!timeOk (t.par 0x18 12) || decide (a.start ≤ counter s)) ||
    (a.mode == 1 || a.mode == 2) && a.width == 0 || a.mode == 2 && decide (a.period ≤ a.width)
  if bad then finish s t.id .invalidField else finish (toutCommit (commit s t.id) n a) t.id .success

/-! ## Time commands -/

/-- TIME_ADJUST (R386, R466). -/
def timeAdjust (t : Track) (s : State) : State :=
  let k := t.par 0x10 1
  let st := s.tim.eng.state
  let v : Int := if k = 0 then toSigned 64 (t.par 0x18 8) else if k = 1 then t.time 0x18 else toSigned 32 (t.par 0x18 4)
  if 2 < k ∨ (k = 1 ∧ !timeOk (t.par 0x18 12)) ∨ (k = 2 ∧ 500000000 < v.natAbs) then finish s t.id .invalidField
  else if k = 2 ∧ (st = tmAcquiring ∨ st = tmLocked) then finish s t.id .busy
  else
    let p : TimeStep := { id := some t.id, kind := k, value := v, edge := frameBoundary (counter s + 1), engine := false, pair := false }
    if (t.par 0x11 1).testBit 0 then announceStep s p
    else applyAdjust (if k = 2 then s else advanceTo s (gridEdge s s.now)) p

/-- What every HOLDOVER_CONTROL returns (R387). -/
def holdoverDone (s : State) (id : Nat) (st : Status) : State :=
  finish s id st (s.tim.eng.state + s.rd TIM_HO_CFG.osc_class * 16 + s.rd TIM_LEARNED.learned_s * 256) (predictedBound s)

/-- HOLDOVER_CONTROL (R387, R456, R459, R460, R462). -/
def holdoverControl (t : Track) (s : State) : State :=
  let a := t.par 0x10 1
  let c := t.par 0x11 1
  let s := readOscTemp s
  let go (s : State) : State := holdoverDone (commit s t.id) t.id .success
  if 4 < a ∨ (a ≠ 4 ∧ c ≠ 0) then finish s t.id .invalidField
  else if a ≠ 0 ∧ s.rd DEV_MODE.mode = modeShadow then finish s t.id .modeForbids
  else if a = 1 then
    if s.tim.eng.state = tmLocked ∧ modelUsable s then
      let e := { loseRef s s.tim.eng with state := tmLearned, previous := tmLocked }
      let u := setEng (s.wr TIM_STATUS.forced 1) e
      go (showTiming u (timeError u e))
    else finish s t.id .notReady
  else if a = 2 then
    if s.rdb TIM_STATUS.forced then go (s.wr TIM_STATUS.forced 0) else finish s t.id .invalidField
  else if a = 3 then
    if s.tim.eng.state = tmLearned ∨ s.tim.eng.state = tmExtended then finish s t.id .busy
    else
      let u := discardModel s
      go (showTiming u (u.rdb TIM_STATUS.time_error))
  else if a = 4 then (if 3 < c then finish s t.id .invalidField else go (s.wr TIM_HO_CFG.osc_class c))
  else go s

/-- TIME_READ (R385). -/
def timeRead (t : Track) (s : State) : State := finishTime (commit s t.id) t.id .success (counter s)

/-! ## Meanings -/

/-- TIME_READ (R385). -/
def execTimeRead (id : Nat) (s : State) : Res := .next (startCommand 0x40 id s timeRead)

/-- TIME_ADJUST (R386, R466). -/
def execTimeAdjust (id : Nat) (s : State) : Res := .next (startCommand 0x41 id s timeAdjust)

/-- HOLDOVER_CONTROL (R387). -/
def execHoldoverControl (id : Nat) (s : State) : Res := .next (startCommand 0x42 id s holdoverControl)

/-- TIMED_OUTPUT_SET (R388, R468). -/
def execTimedOutputSet (id : Nat) (s : State) : Res := .next (startCommand 0x43 id s timedOutputSet)

/-- TIME_PLL_REF_LOSS (R463, R465). -/
def execTimePllRefLoss (s : State) : Res := .next (timePllLoss s)

/-- TIME_PLL_RETURN (R463). -/
def execTimePllReturn (s : State) : Res := .next (timePllReturn s)

/-- REPLICA_REALIGN (R448): the replica exists while CORE runs. -/
def execReplicaRealign (s : State) : Res :=
  .next (if s.boot.coreUp then { s with tim := { s.tim with replica := some (counter s) } } else s)

/-- MODEL_REFIT (R459). -/
def execModelRefit (s : State) : Res := .next (refit s)

/-- PTP_MEASUREMENT_COMMIT (R449): a write of `value` to TIM_PTP_MEAS_HI. -/
def execPtpMeasurementCommit (value : Word) (s : State) : Res := .next (regWrite 0x50034 s (ptpCommit value.toNat))

/-- PPS_EDGE (R450). -/
def execPpsEdge (width : Nat) (sub : Fin 21845) (s : State) : Res := .next (ppsRise width sub s)

/-- PPS_TIMEOUT (R450). -/
def execPpsTimeout (s : State) : Res := .next (ppsLost s)

/-- TOD_MESSAGE (R451). -/
def execTodMessage (message : TodMessage) (s : State) : Res := .next (todMessage message s)

/-- SYNCE_HOLD_OFF_EXPIRY (R452). -/
def execSynceHoldOffExpiry (s : State) : Res := .next (holdOffEnd s)

/-- SYNCE_WTR_EXPIRY (R452). -/
def execSynceWtrExpiry (lane : Fin 16) (s : State) : Res := .next (wtrEnd lane s)

/-- TIME_STEP_EDGE (R466, R467, R522). -/
def execTimeStepEdge (s : State) : Res := .next (stepEdge s)

/-- TIMED_OUTPUT_EDGE (R468, R469). -/
def execTimedOutputEdge (output : Fin 8) (s : State) : Res := .next (toutEdge output s)

end Sys2Proof.Machine
end

