-- ==== Sys2Proof/Machine/Reset.lean ====
section
/-! DEFINITION. Resets (R52 to R61, R587 to R589), the end of commands that a reset or an abort catches (R353, R359), DORMANT and wake
(R48 to R51), and the PCIe link's own events (R335, R359). -/

namespace Sys2Proof.Machine

/-! ## Rolling commands back (R353, R41, R393) -/

/-- A command that has not reached its commit point ends with status `st`, its effects undone. -/
def rollbackOne (s : State) (t : Track) (st : Status) : State :=
  let s := dropRead s t.id
  if t.op = 0x10 ∨ t.op = 0x11 then
    match s.imgs.load with
    | some l => if l.id = t.id then endLoad s l st else finish s t.id st
    | none => finish s t.id st
  else if t.op = 0x12 then
    match s.ctxs.staging with
    | some g => if g.owner = .command t.id then abandonStaging s g st else finish s t.id st
    | none => finish s t.id st
  else if t.op = 0x20 ∨ t.op = 0x21 ∨ t.op = 0x22 then
    match dmaOf s t.id with
    | some d => dmaEnd s d st
    | none => finish s t.id st
  else if t.op = 0x32 then
    let mine (w : Sweep) : Bool := match w.kind with | .rekey id _ => id == t.id | _ => false
    finish (showSweeps { s with enc := { s.enc with sweeps := s.enc.sweeps.filter (fun w => !mine w) } }) t.id st
  else if t.op = 0x41 then
    finish { s with tim := { s.tim with steps := s.tim.steps.filter (fun p => p.id != some t.id) } } t.id st
  else if t.op = 0x50 then
    finish (sendControl (endTransition { s with pair := { s.pair with forming := none } }) .unform) t.id st
  else if t.op = 0x51 then
    finish (sendControl (endTransition { s with pair := { s.pair with dissolve := none } }) (.dissolve 0)) t.id st
  else if t.op = 0x52 then
    finish (sendControl { s with pair := { s.pair with takeover := none } } (.takeover 0)) t.id st
  else if t.op = 0x54 then
    finish (sendControl { s with pair := { s.pair with committing := none } } (.commit (t.par 0x10 4) false 0)) t.id st
  else if t.op = 0x7F then
    let s := if s.boot.transition.any (fun tr => tr.id == t.id) then endTransition s else s
    match s.ctxs.staging with
    | some g => if g.owner = .mode t.id then abandonStaging s g st else finish s t.id st
    | none => finish s t.id st
  else finish s t.id st

/-- Tracking entries without those that `p` names. -/
def dropTracks (s : State) (p : Track → Bool) : State := { s with link := { s.link with tracks := s.link.tracks.filter (fun t => !p t) } }

/-- A prepared or preparing change is rolled back: its listed commands receive no completion (R392, R393). A remap that only waits for its
write-back after the commit boundary goes on. -/
def unprepare (s : State) : State :=
  match s.pair.prepared with
  | none => s
  | some p =>
    if p.applied then
      p.tracks.foldl (fun s id => mapTrack s id (fun t => { t with pair := none, phase := .started }))
        { s with pair := { s.pair with prepared := none } }
    else
    let mine := s.link.tracks.filter (fun t => p.tracks.contains t.id)
    let t := mine.foldl (fun s t => rollbackOne s t .aborted) { s with pair := { s.pair with prepared := none } }
    dropTracks t (fun t => p.tracks.contains t.id)

/-- The same of any command of a ring. -/
def rollback (s : State) (t : Track) (st : Status) : State :=
  if t.op = 0x53 then
    finish (if s.pair.prepared.any (fun p => p.id == t.id) then sendControl (unprepare (dropRead s t.id)) (.failed (t.par 0x10 4) 0) else s) t.id st
  else rollbackOne s t st

/-! ## Causes (R55) -/

def ResetCause.row : ResetCause → Row
  | .powerOn => DEV_RESET_CAUSE.power_on | .porPin => DEV_RESET_CAUSE.por_pin | .aonSupply => DEV_RESET_CAUSE.aon_supply
  | .perst => DEV_RESET_CAUSE.perst | .refClockLoss => DEV_RESET_CAUSE.ref_clock_loss | .porterFault => DEV_RESET_CAUSE.porter_fault
  | .hostRequest => DEV_RESET_CAUSE.host_request

/-- DEV_RESET_CAUSE as a word. -/
def causeWord (s : State) : Nat :=
  [DEV_RESET_CAUSE.power_on, DEV_RESET_CAUSE.por_pin, DEV_RESET_CAUSE.aon_supply, DEV_RESET_CAUSE.perst, DEV_RESET_CAUSE.ref_clock_loss,
   DEV_RESET_CAUSE.porter_fault, DEV_RESET_CAUSE.host_request, DEV_RESET_CAUSE.thermal_entry, DEV_RESET_CAUSE.wake,
   DEV_RESET_CAUSE.wake_source, DEV_RESET_CAUSE.die_reset].foldl (fun a r => a + s.rd r * 2 ^ r.lo) 0

/-- The cause of a reset is recorded, in DEV_RESET_CAUSE and in the Wicket's history. -/
def recordCause (s : State) (c : ResetCause) : State :=
  let t := s.wr c.row 1
  history t .resetCause 0 (causeWord t)

/-- A class D reset of die `n` has ended. -/
def recordDie (s : State) (n : Nat) (host : Bool) : State :=
  let t := s.wrBit DEV_RESET_CAUSE.die_reset n true
  let t := if host then t.wr DEV_RESET_CAUSE.host_request 1 else t
  history t .resetCause 0 (causeWord t)

/-! ## Leaving a pair (R532, R534, R535) -/

/-- The pair commands that still wait complete PAIR_NOT_FORMED. -/
def endPairCommands (s : State) : State :=
  let ids := (s.pair.prepared.map (fun p => p.id)).toList ++ (s.pair.committing.bind (fun c => c.id)).toList ++
    (s.pair.takeover.bind (fun p => p.id)).toList ++ (s.pair.dissolve.bind (fun p => p.1)).toList
  ids.foldl (fun t id => finish (dropRead t id) id .pairNotFormed)
    (if s.pair.dissolve.any (fun p => p.1.isSome) then endTransition s else s)

/-- What a device keeps of the link and of its counts when its pair ends. -/
def Pair.linkOnly (p : Pair) : Pair :=
  { Pair.start with
    mac := p.mac, partner := p.partner, lastBlock := p.lastBlock, heartbeat := p.heartbeat, mismatches := p.mismatches,
    takeovers := p.takeovers, lastEdge := p.lastEdge, lastFault := p.lastFault, since := p.since, down := p.down, txTrain := p.txTrain,
    rxTrain := p.rxTrain, rxAt := p.rxAt, sentAt := p.sentAt, crcErrors := p.crcErrors, widthAt := p.widthAt, readapt := p.readapt,
    readaptAt := p.readaptAt, lastData := p.lastData, replay := p.replay, useSince := p.useSince, rxNak := p.rxNak }

/-- The device leaves its pair for RUN: a prepared change is abandoned, and what the pair compared is gone. `safe` latches the pair cause; the
overwrite of source addresses goes on only where the device leaves LEAD (R514). -/
def leavePair (s : State) (safe : Bool) : State :=
  let lead := s.rd DEV_MODE.mode = modeLead
  let t := unprepare (endPairCommands s)
  let t := { t with pair := { t.pair.linkOnly with overwrite := s.pair.overwrite && lead } }
  let t := ((t.wr PRL_STATUS.fit 0).wr PRL_STATUS.resync 0).wr PRL_STATUS.suspended 0
  let t := if safe then setCause t scPair else t
  raiseEvent (setMode t modeRun) evPair

/-- A resynchronisation begins: nothing is compared while it runs (R520, R527). -/
def startResync (s : State) : State :=
  { (s.wr PRL_STATUS.resync 1).wr PRL_STATUS.suspended 1 with
    pair := { s.pair with copying := true, frameFrom := none, dirty := false, unitSuspended := true } }

/-- A shadow becomes unfit and resynchronises, and tells its lead (R519, R520, R528, R534). -/
def shadowUnfit (s : State) : State :=
  if s.rd DEV_MODE.mode = modeShadow then
    let t := startResync { s with pair := { s.pair with synced := false, rounds := 0 } }
    sendControl (t.wr PRL_STATUS.fit 0) .resync
  else s

/-! ## Class F and the link (R335, R359) -/

/-- The VFs of PF `f` (R336). -/
def vfsOf (f : Nat) : List Nat := if 1 ≤ f ∧ f ≤ 3 then (List.range 20).map (fun v => 4 + 20 * (f - 1) + v) else []

/-- Steps 1 to 4 of R359 for one function. -/
def resetFunction (s : State) (f : Nat) : State :=
  let mine (t : Track) : Bool := t.pair.isNone && qFunction s t.q == f && decide (quotaBase s f ≤ t.q) &&
    decide (t.q < quotaBase s f + quotaCount s f)
  let s1 := (s.link.tracks.filter mine).foldl (fun u t =>
    if t.phase = .finished ∨ t.phase = .held then u
    else if t.phase = .fetched then u
    else if t.committed then (match dmaOf u t.id with | some d => dmaEnd u d .success | none => dropRead u t.id)
    else rollback u t .aborted) s
  let s2 := dropTracks s1 mine
  let s3 := ((List.range (quotaCount s f)).map (fun k => quotaBase s f + k)).foldl classQ s2
  let keep (m : Sparse Bool) : Sparse Bool := m.filter (fun p => p.1 / 32 != f)
  { s3 with
    link := { s3.link with masked := keep s3.link.masked, msix := s3.link.msix.filter (fun p => p.1 / 32 != f), pendingMsix := keep s3.link.pendingMsix }
    regs := resetRegs .f (fun off _ => decide (0x10000 + 0x100 * f ≤ off) && decide (off < 0x10100 + 0x100 * f)) s3.regs }

/-- A class F reset of function `f`, with the VFs of a PF. -/
def functionReset (f : Nat) (s : State) : State := (f :: vfsOf f).foldl resetFunction s

/-- The link goes down, and every function is reset at class F. -/
def linkDown (s : State) : State :=
  let t := (List.range 64).foldl resetFunction s
  let t := { t with link := { t.link with up := false, training := false, cancelAll := s.boot.dormantCommit.isSome } }
  let t := if t.link.reads.any (fun r => r.id == ownerRead) then ownerData none t else t
  (t.wr PCIE_LINK_STATUS.speed 0).wr PCIE_LINK_STATUS.width 0

/-! ## What a warm reset and a power-down clear (R49, R52, R587) -/

/-- A controller keeps its soft repair list and its log windows, which are held in AON (R230). -/
def DramCtrl.kept (x : DramCtrl) : DramCtrl :=
  { DramCtrl.zero with softRepairs := x.softRepairs, elogWin := x.elogWin, lasted := x.lasted }

/-- Everything outside AON returns to its state after reset; copies onto spares complete (R150, R196), and recovered candidates are not READY
(R433). -/
def clearDevice (s : State) : State :=
  let s := endSession s
  let s := (s.tiles.filter (fun p => p.2.state == .copying)).foldl (fun t p => spareTakes p.1 t) s
  let s := s.mem.retiring.foldl (fun t r => spareSwitch t r.1 r.2.1) s
  let s := (List.range 24).foldl (fun t c => candidateReset t (c + 1)) (dlockReset s)
  showFuses <| drawNonce { s with
    regs := resetRegs .w (fun _ _ => true) s.regs
    boot := { Boot.start with porHeld := false, cause := none, dormant := s.boot.dormant, refLostDormant := s.boot.refLostDormant,
                              thermalHold := s.boot.thermalHold, wakeN := s.boot.wakeN, stageSince := s.now }
    stack := { s.stack with skewBad := Stack.start.skewBad, uncorrectable := 0 }
    safe := { s.safe with injection := none, internalFaultAt := none, again := none, deferred := [], bistCmd := none, bistGroups := 0,
                          intrusive := none }
    ctxs := Contexts.start, tiles := [], mem := MemDie.start, noc := Noc.start
    dram := { lines := [], epoch := s.dram.epoch + 1, c0 := s.dram.c0.kept, c1 := s.dram.c1.kept }
    enc := Enc.start
    link := { Link.start with perst := s.link.perst, refclk := s.link.refclk, nextId := s.link.nextId }
    imgs := Images.start, integ := Integ.start, dmas := [], fh := Fh.start
    tim := { s.tim with replica := none, steps := s.tim.steps.filter (fun p => p.id.isNone && !p.pair) }
    pins := { s.pins with bound := [] }
    pair := Pair.start }

/-- SAF_DEGRADED is rebuilt from the spare maps (R544). -/
def rebuildDegraded (s : State) : State :=
  let s := if s.stack.spares.isEmpty then s else setDegraded s dgStack true
  let s := if s.districts.any (fun p => p.2.spareUsed) then setDegraded s dgDistrict true else s
  let s := if (List.range 16).any (fun c => s.rd DSP_COL_SPARE.used c != 0) then setDegraded s dgDsp true else s
  if s.rd MEM_STATUS.spares_used = 0 then s else setDegraded s dgMem true

/-- Boot enters stage `n` (R43). -/
def enterStage (s : State) (n : Nat) : State := { s.wr DEV_BOOT_STATUS.stage n with boot := { s.boot with stageSince := s.now } }

/-- Boot halts with a code: the stage stays, and CORE and the dies that it had released are in reset (R45). -/
def haltBoot (s : State) (code : Nat) : State :=
  showStack { s.wr DEV_BOOT_STATUS.halt_code code with boot := { s.boot with coreUp := false, dies := [.off, .off, .off] } }

/-- Boot is in stage `n` and has not halted. -/
def inStage (s : State) (n : Nat) : Bool :=
  !s.boot.porHeld && !s.boot.dormant && s.rd DEV_MODE.mode == modeBoot && s.rd DEV_BOOT_STATUS.stage == n &&
    s.rd DEV_BOOT_STATUS.halt_code == 0

/-- The mode becomes BOOT by a reset or a wake. -/
def modeToBoot (s : State) (from' : Nat) : State :=
  if from' = modeBoot then s else history (s.inc DEV_MODE.transitions) .modeChange 0 from'

/-- A warm reset (R52, R53, R54): it ends what is in progress and boot resumes at stage 0x04. A lead reports it, but for a failed core
reference, which stops its link (R437, R530). In DORMANT it is not acted on (R588). -/
def warmReset (s : State) (c : ResetCause) : State :=
  if s.boot.porHeld || s.boot.dormant then s
  else
    let from' := s.rd DEV_MODE.mode
    let s := if c = .refClockLoss then s else selfFault s 3
    let left := s.boot.leftPair || from' == modeShadow
    let s := recordCause (modeToBoot (clearDevice s) from') c
    let s := { s with boot := { s.boot with leftPair := left } }
    synceUpdate (showStack (mute (enterStage (rebuildDegraded s) 4)))

/-- A cold reset (R52): the whole device but its fuses and the levels of its inputs. -/
def coldReset (s : State) (c : ResetCause) : State :=
  showFuses <| drawNonce { State.reset with
    grade2 := s.grade2, boot := { Boot.start with cause := some c }, sec := { s.sec with expires := none, ops := [] },
    dram := { Dram.start with epoch := s.dram.epoch + 1 }, link := { Link.start with perst := s.link.perst, refclk := s.link.refclk },
    free := s.free, outbox := s.outbox, pending := s.pending }

/-! ## DORMANT (R48 to R51, R475, R485) -/

/-- A wake: boot resumes at stage 0x04 (R50); WAKE# is asserted on a pin or timer wake under an asserted PERST# (R51). -/
def doWake (s : State) (src : Nat) : State :=
  let wn := src != 0 && s.rdb DEV_DORMANT_CTRL.assert_wake_n && s.link.perst
  let t := { s with boot := { s.boot with dormant := false, thermalHold := false, wakeWaiting := none, dormantCommit := none, wakeN := wn,
                                          hostUp := !s.link.perst, refLostDormant := false } }
  let t := (t.wr DEV_RESET_CAUSE.wake 1).wr DEV_RESET_CAUSE.wake_source src
  let t := if s.boot.refLostDormant then t.wr DEV_RESET_CAUSE.ref_clock_loss 1 else t
  let t := t.wr WKT_WAKE_TIMER.seconds (t.rd WKT_WAKE_TIMER.seconds - (t.now - t.wkt.wakeTick) / secTicks)
  let t := history t .resetCause 0 (causeWord t)
  let t := modeToBoot (t.wr DEV_MODE.mode modeBoot) modeDormant
  enterStage (rebuildDegraded ((t.wr DRC_STATUS.state drDisabled 0).wr DRC_STATUS.state drDisabled 1)) 4

/-- Wake source `src` (0 PERST#, 1 pin pattern, 2 Wicket timer) is enabled. -/
def wakeEnabled (s : State) (src : Nat) : Bool :=
  if src = 0 then s.rdb DEV_DORMANT_CTRL.wake_perst
  else if src = 1 then s.rdb DEV_DORMANT_CTRL.wake_pin else s.rdb DEV_DORMANT_CTRL.wake_timer

/-- A wake event: in DORMANT it wakes the device, or is held after a thermal entry while the effective temperature is at or above 111 °C. -/
def wake (s : State) (src : Nat) : State :=
  if !s.boot.dormant || !wakeEnabled s src then s
  else if s.boot.thermalHold && decide (111 * tempUnit ≤ toSigned 12 (s.rd THM_STATUS.eff_temp)) then
    { s with boot := { s.boot with wakeWaiting := some (s.boot.wakeWaiting.getD src) } }
  else doWake s (s.boot.wakeWaiting.getD src)

/-- The armings of the timed outputs are discarded; each output keeps the safe level of its last (R469, R503). -/
def dropToutArms (s : State) : State :=
  { s with tim := { s.tim with touts := s.tim.touts.filterMap (fun (p : Nat × Tout) =>
      if p.2.arm.safeLevel then some (p.1, { Tout.off with arm := { Tout.off.arm with safeLevel := true } }) else none) } }.wr
    TIM_TOUT_STATUS.armed 0

/-- Power-down (R49): DRAM enters self-refresh (R246), every Shutter closes, D1 to D3, CORE and HOST lose their power and contents, and the pins take their sleep states. A
wake that came in between follows at once (R501). -/
def powerDown (s : State) (thermal : Bool) : State :=
  let from' := s.rd DEV_MODE.mode
  let waiting := s.boot.wakeWaiting
  let s := selfRefresh (selfRefresh (sleepPins s) 0) 1
  let slept := (List.range 2).filter (fun c => s.rd DRC_STATUS.state c == drSelfRefresh)
  let t := clearDevice { s with boot := { s.boot with dormant := true, thermalHold := thermal } }
  let t := { t with boot := { t.boot with hostUp := false, perstSeen := t.link.perst }, wkt := { t.wkt with wakeTick := t.now, estStart := false } }
  let t := history ((t.wr DEV_MODE.mode modeDormant).inc DEV_MODE.transitions) .modeChange 0 (from' + modeDormant * 256)
  let t := if thermal then t.wr DEV_RESET_CAUSE.thermal_entry 1 else t
  let t := slept.foldl (fun t c => t.wr DRC_STATUS.state drSelfRefresh c) (synceUpdate (showStack (mute (dropToutArms t))))
  match waiting with
  | some src => wake t src
  | none => t

/-- PME_Turn_Off: it is answered; with MODE_SET DORMANT committed, power-down follows (R48). -/
def pmeTurnOff (s : State) : State :=
  if !s.link.up then s
  else
    let t := { s with outbox := s.outbox ++ [.pmeToAck] }
    if s.boot.dormantCommit.isSome then { t with boot := { t.boot with pmeAcked := true } } else t

/-- The power-down that MODE_SET DORMANT leads to, at PME_TO_Ack or 100 ms after the completion. -/
def dormantPowerDown (s : State) : State :=
  match s.boot.dormantCommit with
  | none => s
  | some t0 => powerDown (if s.boot.pmeAcked then s else advanceTo s (t0 + 100 * msTicks)) false

/-- The wake timer's count of seconds reaches 0 in DORMANT (R475). -/
def wakeTimer (s : State) : State :=
  let n := s.rd WKT_WAKE_TIMER.seconds
  if !s.boot.dormant || n == 0 then s else wake ((advanceTo s (s.wkt.wakeTick + n * secTicks)).wr WKT_WAKE_TIMER.seconds 0) 2

/-! ## PERST# and the reference clock (R44, R50, R52, R335, R444) -/

/-- PERST# is asserted: a warm reset, or class F of every function and the link when perst_scope is 1; the cause is recorded (R55). -/
def perstAssert (s : State) : State :=
  let t := { s with link := { s.link with perst := true } }
  if s.link.perst then s
  else if s.boot.dormant then { t with boot := { t.boot with perstSeen := true } }
  else if s.boot.porHeld then t
  else if s.rdb DEV_RESET_CTRL.perst_scope then recordCause (linkDown t) .perst else warmReset t .perst

/-- PERST# is deasserted: HOST starts, WAKE# is released, and DORMANT ends where that source is enabled. -/
def perstDeassert (s : State) : State :=
  let t := { s with link := { s.link with perst := false }, boot := { s.boot with wakeN := false } }
  if s.boot.dormant then (if s.boot.perstSeen then wake t 0 else t) else { t with boot := { t.boot with hostUp := true } }

/-! ## Class D reset of the base die (R57 to R60) -/

/-- t = 0: the cause is latched, outputs mute and a lead reports; 1 hc later the fence rises. A reset in progress absorbs it. -/
def dieResetD0 (s : State) (c : Option ResetCause) : State :=
  if s.boot.porHeld || s.boot.dormant || !s.boot.coreUp || s.boot.d0 != .idle || s.rd DEV_MODE.mode == modeBoot then s
  else
    let s := selfFault s 3
    let s := { s with boot := { s.boot with recoverD0 := true, d0 := .fence s.now, d0Cause := c } }
    let s := cutEgress (advance (setCause s scRecovery) (hcs s 1)) true
    { s with noc := { s.noc with fenced := true } }

/-- Requests that the drain waits for. -/
def nocBusy (s : State) : Bool := s.noc.reqs.any (fun r => !r.inPort) || !s.enc.ops.isEmpty

/-- The end of the drain, at most 4 us after the fence. -/
def drainEnd (s : State) : State :=
  match s.boot.d0 with
  | .fence t =>
    let s := if nocBusy s then advanceTo s (t + 4 * usTicks) else s
    let s := selfRefresh (selfRefresh s 0) 1
    { s with boot := { s.boot with d0 := .drained s.now } }
  | _ => s

/-- A request that is still outstanding ends (R58): a write with flits delivered and no answer is of unknown fate. -/
def outstandingEnd (s : State) (r : NocReq) : State :=
  let t := if r.write && !r.inPort && (r.fwd.any (fun h => decide ((wayOf s r false).length ≤ h.at_)) || decide (0 < r.done)) then fault s .indeterminateWrite 0 (paDetail r.pa r.init) (die := 0) else s
  if 256 ≤ r.init ∨ portWaits s r true then t
  else
  match r.owner with
  | .fabric =>
    let q := refuseReq r Status.dieReset.code
    { t with outbox := t.outbox ++ [.nocResponse r.init (responseHeader t q ((wayOf t q true).length - 1)) [] []] }
  | .tile n => pathFailed t n r.pa Status.dieReset.code
  | _ => t

/-- A command caught by the reset (R59, R60, R558). Writes that a mover has handed over and the network has not taken were not issued. -/
def commandCaught (s : State) (t : Track) : State :=
  let free (s : State) : State :=
    match s.ctxs.staging with
    | some g => if g.owner = .command t.id ∨ g.owner = .mode t.id then
        { s with ctxs := { s.ctxs with staging := some { g with owner := .restage } } } else s
    | none => s
  let kept := s.noc.waiting.filter (fun r => match r.owner with | .dma id _ => id == t.id && r.write | _ => false)
  let s := { s with dmas := s.dmas.map (fun (d : Dma) => if d.id = t.id then { d with issued := d.issued - (kept.map reqBytes).sum } else d) }
  if t.phase = .finished ∨ t.phase = .held ∨ t.pair.isSome then s
  else if t.op = 0x60 then finish s t.id .dieReset (if t.par 0x10 1 = 2 then 0 else s.safe.bistGroups)
  else if t.committed ∧ kept = [] then
    match dmaOf s t.id with
    | some d => dmaEnd s d .success
    | none => s
  else if t.phase = .fetched then finish s t.id .dieReset
  else if t.op = 0x12 then finish (free s) t.id .dieReset
  else if t.op = 0x7F then finish (endTransition (free s)) t.id .dieReset
  else rollback s t .dieReset

/-- What waits in fabric ports that no context binds: responses that have arrived, and the DIE_RESET of requests that end now (R58, R218). -/
def portsHold (s : State) : List NocReq :=
  (s.noc.reqs.filter (fun r => portWaits s r true)).map (fun r => if r.inPort then r else { refuseReq r Status.dieReset.code with inPort := true })

/-- What CORE's reset takes from a controller: waiting reads and the retrainings in progress, whose bit it clears (R248). -/
def DramCtrl.coreLost (x : DramCtrl) : DramCtrl :=
  { x with reads := [], sub0 := { x.sub0 with retrain := false, full := none }, sub1 := { x.sub1 with retrain := false, full := none } }

/-- CORE enters reset: what it held is gone, and the fields of D0 take their reset values. -/
def clearCore (s : State) : State :=
  let s := (List.range 16).foldl (fun t n => if laneState t n = lnDropped then t else laneTo t n lnOff) s
  let s := (List.range 8).foldl (fun t n => cutScan t 2 n) ((List.range 16).foldl (fun t n => cutScan t 0 n) s)
  let link := s.rd PRL_STATUS.link_state
  let t := { s with
    regs := resetRegs .d (fun _ r => r.dies.contains .d0) s.regs
    noc := { Noc.start with bound := s.noc.bound, tx := s.noc.tx, reqs := portsHold s, waiting := s.noc.waiting.filter (fun r => match r.owner with | .tile _ => true | _ => false) }
    enc := { s.enc with ops := [], held := [], sweeps := s.enc.sweeps.map (fun (w : Sweep) => { w with work := none }) }
    sec := { s.sec with ops := s.sec.ops.filter (fun o => match o with | .record _ _ | .recordRead => true | _ => false) }
    dram := { s.dram with c0 := s.dram.c0.coreLost, c1 := s.dram.c1.coreLost }
    dmas := [], fh := { s.fh with lanes := [] }
    safe := { s.safe with injection := none, bistCmd := none, intrusive := none }
    tim := { s.tim with replica := none }
    pair := { s.pair with heartbeat := false, partner := none, absentSince := some s.now, closed := [], held := [], tx := [], replay := [],
                          since := s.now, frames := [] } }
  let t := t.wr SAF_INJ_STATUS.armed 0
  synceUpdate (shadowUnfit (settleLanes s (if link = 0 then t else t.wr PRL_STATUS.link_state 1)))

/-- 0.5 us after the drain: what is outstanding ends, the Shutters close and CORE is held in reset. -/
def outstandingReset (s : State) : State :=
  match s.boot.d0 with
  | .drained t =>
    let s := advanceTo s (t + 500 * nsTicks)
    let s := s.noc.reqs.foldl outstandingEnd s
    let s := s.link.tracks.foldl (fun s t =>
      mapTrack (commandCaught s t) t.id (fun u => { u with reissue := u.phase == .finished && t.phase != .finished && u.status == Status.dieReset.code })) s
    let s := clearCore (unprepare s)
    showStack { s with boot := { s.boot with d0 := .held s.now, coreUp := false } }
  | _ => s

/-- 1 us later CORE leaves reset. -/
def coreRelease (s : State) : State :=
  match s.boot.d0 with
  | .held t =>
    let s := advanceTo s (t + usTicks)
    showStack { s with boot := { s.boot with d0 := .released s.now, coreUp := true }, tim := { s.tim with replica := some (counter s) } }
  | _ => s

/-- Retraining of 20 us has ended: the Shutters open, DRAM leaves self-refresh, and other dies in training start theirs again (R54). Before its
first request a controller refreshes every rank once and waits tXS (R246). -/
def shuttersOpen (s : State) : State :=
  match s.boot.d0 with
  | .released t =>
    let s := advanceTo s (t + 20 * usTicks)
    let s := [0, 1].foldl (fun t c => if t.rd DRC_STATUS.state c = drSelfRefresh then leaveSelfRefresh t c else t) s
    let again (p : DiePhase) : DiePhase := match p with | .training _ => .training s.now | p => p
    let sw := match s.enc.sweeps with | w :: r => { w with due := s.now } :: r | [] => []
    pumpAll (showStack { s with
      boot := { s.boot with d0 := .opened s.now, dies := s.boot.dies.map again }
      noc := { s.noc with fenced := !dieOpen s 2 }
      enc := { s.enc with sweeps := sw } })
  | _ => s

/-- The restarted Porter is ready: recorded completions post, the lanes start, and the cause is recorded. -/
def porterReady (s : State) : State :=
  match s.boot.d0 with
  | .opened _ =>
    let host := s.boot.d0Cause == some .hostRequest
    let s := if s.boot.d0Cause = some .porterFault then s.wr DEV_RESET_CAUSE.porter_fault 1 else s
    let s := { s with boot := { s.boot with d0 := .idle, d0Cause := none } }
    let s := recordDie s 0 host
    let s := snapshotMoves s
    porterTurn ((List.range 16).foldl startLane s)
  | _ => s

/-! ## Class D resets of D1, D2 and D3 (R61, R589) -/

/-- A requester on the logic die: a fabric NoC port or a Thicket column port (R61, R220). -/
def onD2 (i : Nat) : Bool := decide (0x40 ≤ i) && decide (i < 0x90)

/-- Requests that D2 initiators have injected complete at their targets under an initiator number of their own, so that the tags are free;
requests of others toward D2 complete DIE_RESET, and responses that wait in its ports are lost (R61). -/
def reqsResetD2 (s : State) : State :=
  let ren (i : Nat) : Nat := if onD2 (i % 256) then i + 256 else i
  let dr (r : DramReq) : DramReq := { r with init := ren r.init }
  let nr (r : NocReq) : NocReq :=
    if onD2 (r.init % 256) then { r with init := r.init + 256 }
    else match targetOf (locOf r.pa) with
      | .tile _ => if r.answered then r else refuseReq r Status.dieReset.code
      | _ => r
  let lost (r : NocReq) : Bool :=
    r.inPort || (onD2 (r.init % 256) && (match targetOf (locOf r.pa) with | .tile _ => true | _ => false))
  let ctl (x : DramCtrl) : DramCtrl := { x with reads := x.reads.map dr, writes := x.writes.map dr }
  let pt (p : MemPort) : MemPort := match p with | .noc i t => .noc (ren i) t | p => p
  { s with
    noc := { s.noc with reqs := (s.noc.reqs.filter (fun r => !lost r)).map nr, tx := [], waiting := s.noc.waiting.filter (fun r => !onD2 r.init) }
    enc := { s.enc with ops := s.enc.ops.map (fun o => { o with req := dr o.req }), held := s.enc.held.map (fun p => (ren p.1, p.2)) }
    dram := { s.dram with c0 := ctl s.dram.c0, c1 := ctl s.dram.c1 }
    mem := { s.mem with updates := s.mem.updates.map (fun w => { w with port := pt w.port }) } }

/-- A load in progress ends with the reset (R305). -/
def loadReset (s : State) : State :=
  match s.imgs.load with
  | some l => endLoad s l .dieReset
  | none => s

/-- The fields of die `d` take their reset values. -/
def dieRegs (s : State) (d : Die) : State := { s with regs := resetRegs .d (fun _ r => r.dies.contains d) s.regs }

/-- The memory die: every word is invalid, and a retirement in progress completes (R52, R196). -/
def resetD1 (s : State) : State :=
  let s := s.mem.retiring.foldl (fun t r => spareSwitch t r.1 r.2.1) s
  shadowUnfit (reserveLost (dieRegs { s with mem := { MemDie.start with pathWrites := s.mem.pathWrites } } .d1))

/-- The Thicket's registers and memories are lost; each COMMITTED context still owns the program range that its image names (R135). -/
def tilesLost (s : State) : State :=
  let owned (x : Tile) : Sparse (Nat × Nat) := (List.range 8).filterMap (fun c => (latestRange s x c).map (fun r => (c, r)))
  (s.tiles.filter (fun p => !(owned p.2).isEmpty)).foldl (fun t p => setTile t p.1 { tileOf t p.1 with ranges := owned p.2 })
    { s with tiles := [], ctxs := { s.ctxs with newVersion := [] } }

/-- The logic die: latches, flip-flops and Thicket memories are lost (R61, R117, R590); a shadow leaves its pair (R534). -/
def resetD2 (s : State) : State :=
  let s := (s.tiles.filter (fun p => p.2.state == .copying)).foldl (fun t p => spareTakes p.1 t) s
  let s := dlockReset (ctxResetD2 (reqsResetD2 (loadReset s)))
  let s := dieRegs (tilesLost { s with noc := { s.noc with fenced := true }, mem := { s.mem with pathWrites := [] } }) .d2
  let s := setCause { s with boot := { s.boot with recoverD2 := true } } scRecovery
  if s.rd DEV_MODE.mode = modeShadow then leavePair s true else s

/-- The configuration die: the engines stop, and stagings wait for two full sweeps (R61, R329). -/
def resetD3 (s : State) : State :=
  let s := loadReset s
  let s := dieRegs { s with integ := { Integ.start with lost := s.integ.lost } } .d3
  let s := { s with
    boot := { s.boot with recoverD3 := true, d3Unswept := true, sweptA := false, sweptB := false }
    safe := { s.safe with internalFaultAt := none } }
  shadowUnfit (setCause (setDegraded s dgPrivet false) scRecovery)

/-- A class D reset of die `k` (1 to 3): its Shutters close on the hc of the cause (R589). One held in reset absorbs it (R54); one that lost its
power comes back by it. -/
def dieReset (k : Nat) (s : State) : State :=
  match s.boot.dies.getD (k - 1) .off with
  | .open_ | .training _ | .off =>
    if s.boot.porHeld || s.boot.dormant || s.rd DEV_MODE.mode == modeBoot then s
    else
      let s := selfFault s 3
      let s := if k = 1 then resetD1 s else if k = 2 then resetD2 s else resetD3 s
      setDie s k (.held s.now)
  | _ => s

/-- After 1 us, or once its cause has ended, the die is released and its groups train. -/
def dieRelease (k : Nat) (s : State) : State :=
  match s.boot.dies.getD (k - 1) .off with
  | .held t =>
    let s := advanceTo s (t + usTicks)
    setDie (if k = 2 then dlockRelease s else s) k (.training s.now)
  | _ => s

/-- How long one training of die `k`'s groups takes: 2 us, or 20 us with the Transoms of D2 (R19, R589). -/
def trainTime (k : Nat) : Nat := (if k = 2 then 20 else 2) * usTicks

/-- A group of die `k` has failed training three times and stays shut: the die behind it is handled as a die fault, a class D reset (R19, R52). -/
def trainingFails (k : Nat) (s : State) : State :=
  match s.boot.dies.getD (k - 1) .off with
  | .training t => if !baseOpen s then s else dieReset k (advanceTo s (t + 3 * trainTime k))
  | _ => s

/-- Training ends, after 2 us or, for D2, 20 us, and the Shutters open; not while the base die's are shut (R54). -/
def dieTrainedNow (k : Nat) (s : State) : State :=
  match s.boot.dies.getD (k - 1) .off with
  | .training t =>
    if !baseOpen s then s
    else
      let s := setDie (advanceTo s (t + trainTime k)) k .open_
      let s := if k = 2 then pumpAll { s with noc := { s.noc with fenced := !nocRunning s } } else s
      let s := if k = 3 then endRecovery { s with boot := { s.boot with recoverD3 := false } } else s
      let s := if k = 1 then advance s usTicks else s
      recordDie { s with boot := { s.boot with hostAsked := s.boot.hostAsked.filter (fun n => n != k) } } k (s.boot.hostAsked.contains k)
  | _ => s

/-! ## Requests (R56) -/

/-- A write of DEV_RESET_CTRL that asks for die resets `mask`, bit n for die n. -/
def dieResetRequest (mask : Nat) (confirm : Byte) (s : State) : State :=
  if !s.link.up || mask % 16 == 0 then s
  else if confirm ≠ 0xA5 ∨ (s.rd DEV_MODE.mode ≠ modeAssembly ∧ s.rd DEV_MODE.mode ≠ modeService) then s.wr DEV_RESET_CTRL.refused 1
  else
    let one (s : State) (k : Nat) : State :=
      if !bit mask k then s
      else if k = 0 then dieResetD0 s (some .hostRequest)
      else
        let t := dieReset k s
        if (s.boot.dies.getD (k - 1) .off) matches .held _ then t else { t with boot := { t.boot with hostAsked := k :: t.boot.hostAsked } }
    [1, 2, 3, 0].foldl one s

/-- A write of DEV_RESET_CTRL with warm_reset = 1. -/
def warmResetRequest (confirm : Byte) (s : State) : State :=
  if !s.link.up then s else if confirm = 0xA5 then warmReset s .hostRequest else s.wr DEV_RESET_CTRL.refused 1

/-- A lockstep mismatch of one Porter pair, or of both (R52); one found as the pairs start halts boot (R47). -/
def porterFault (both : Bool) (s : State) : State :=
  if inStage s 5 then haltBoot s 6
  else if !s.boot.coreUp then s
  else if both then warmReset s .porterFault else dieResetD0 s (some .porterFault)

/-! ## Meanings -/

/-- COLD_RESET (R52): from power-on, POR_N or VDD_AON. -/
def execColdReset (cause : Fin 3) (s : State) : Res :=
  .next (coldReset s (if cause = 0 then .powerOn else if cause = 1 then .porPin else .aonSupply))

/-- WARM_RESET (R52): from PERST#, a failed core reference, both Porter pairs or the host. -/
def execWarmReset (cause : Fin 4) (s : State) : Res :=
  .next (warmReset s (if cause = 0 then .perst else if cause = 1 then .refClockLoss else if cause = 2 then .porterFault else .hostRequest))

/-- PERST_ASSERT (R52, R335, R50). -/
def execPerstAssert (s : State) : Res := .next (perstAssert s)

/-- PERST_DEASSERT (R44, R50, R51). -/
def execPerstDeassert (s : State) : Res := .next (perstDeassert s)

/-- LINK_LOSS (R335). -/
def execLinkLoss (s : State) : Res := .next (if s.link.up then linkDown s else s)

/-- PCIE_REFCLK_LOSS (R444). -/
def execPcieRefclkLoss (s : State) : Res :=
  .next (let t := { s with link := { s.link with refclk := false } }; if s.boot.porHeld || s.boot.dormant then t else linkDown t)

/-- FUNCTION_LEVEL_RESET (R359). -/
def execFunctionLevelReset (function : Fin 64) (s : State) : Res := .next (if s.link.up then functionReset function s else s)

/-- PME_TURN_OFF (R48). -/
def execPmeTurnOff (s : State) : Res := .next (pmeTurnOff s)

/-- DORMANT_POWER_DOWN (R48, R49, R502, R587). -/
def execDormantPowerDown (s : State) : Res := .next (dormantPowerDown s)

/-- WAKE (R50, R51): source 0 PERST#, 1 pin pattern, 2 Wicket timer. -/
def execWake (source : Fin 3) (s : State) : Res := .next (wake s source)

/-- WAKE_TIMER_EXPIRY (R475). -/
def execWakeTimerExpiry (s : State) : Res := .next (wakeTimer s)

/-- PORTER_LOCKSTEP_FAULT (R52). -/
def execPorterLockstepFault (both : Bool) (s : State) : Res := .next (porterFault both s)

/-- DIE_RESET_REQUEST (R56). -/
def execDieResetRequest (mask : Fin 16) (confirm : Byte) (s : State) : Res := .next (dieResetRequest mask confirm s)

/-- WARM_RESET_REQUEST (R56). -/
def execWarmResetRequest (confirm : Byte) (s : State) : Res := .next (warmResetRequest confirm s)

/-- DIE_RESET_D0 (R57): a base-die fault that is die-fatal. -/
def execDieResetD0 (s : State) : Res := .next (dieResetD0 s none)

/-- D0_DRAIN_END (R57). -/
def execD0DrainEnd (s : State) : Res := .next (drainEnd s)

/-- D0_OUTSTANDING_DIE_RESET (R57 to R60). -/
def execD0OutstandingDieReset (s : State) : Res := .next (outstandingReset s)

/-- D0_RESET_RELEASE (R57). -/
def execD0ResetRelease (s : State) : Res := .next (coreRelease s)

/-- D0_SHUTTERS_OPEN (R57, R54, R19): `failed` names D1 (0) and D2 (1) where a group to that die has failed training three times. -/
def execD0ShuttersOpen (s : State) (failed : List (Fin 2) := []) : Res :=
  .next (match s.boot.d0 with
    | .released _ => failed.foldl (fun t k => dieReset (k.val + 1) t) (shuttersOpen s)
    | _ => s)

/-- PORTER_READY (R57, R59). -/
def execPorterReady (s : State) : Res := .next (porterReady s)

/-- DIE_RESET_UPPER (R61, R589): die D1, D2 or D3. -/
def execDieResetUpper (die : Fin 3) (s : State) : Res := .next (dieReset (die.val + 1) s)

/-- UPPER_DIE_RELEASE (R589, R79). -/
def execUpperDieRelease (die : Fin 3) (s : State) : Res := .next (dieRelease (die.val + 1) s)

/-- DIE_TRAINING_COMPLETE (R589, R27, R61, R19): the groups of the die have trained, or one has failed three times. -/
def execDieTrainingComplete (die : Fin 3) (s : State) (failed : Bool := false) : Res :=
  .next (if failed then trainingFails (die.val + 1) s else dieTrainedNow (die.val + 1) s)

end Sys2Proof.Machine
end

