-- ==== Sys2Proof/Machine/Clocks.lean ====
section
/-! DEFINITION. Clock sources and their monitors (chapter 17), and the skew of the stack (R23). -/

namespace Sys2Proof.Machine

/-! ## Candidates (R430 to R432) -/

/-- A candidate has a clock to count (R422, R431, R512): LOCAL_OSC, or a valid recovered clock. -/
def candClock (s : State) (c : Nat) : Bool :=
  if c = 0 then true
  else if c ≤ 16 then s.rdb FHL_LANE_STATUS.rclk_valid (c - 1)
  else bolrynInUse s (c - 17) && (sparseFind s.pair.useSince (c - 17)).any (fun t => decide (t + msTicks ≤ s.now))

/-- A count lies within 2 % of what is expected of a window. -/
def agrees (count expected : Nat) : Bool := decide (expected * 98 ≤ count * 100) && decide (count * 100 ≤ expected * 102)

/-! ## Failure of the core reference (R436, R588) -/

/-- CLK_MON_EVENTS [4:0]. -/
def monWord (s : State) : Nat :=
  s.rd CLK_MON_EVENTS.missing_edge + 2 * s.rd CLK_MON_EVENTS.freq_window + 4 * s.rd CLK_MON_EVENTS.pll_unlock +
    8 * s.rd CLK_MON_EVENTS.upll_unlock + 16 * s.rd CLK_MON_EVENTS.wicket_osc_fail

/-- The core reference is in use and watched. -/
def refWatched (s : State) : Bool := !s.boot.porHeld && (s.boot.coreUp || s.boot.dormant)

/-- The core reference has failed, or the hop clock of die `die` (R23): recorded with the die, and a warm reset follows outside DORMANT. -/
def refFailure (s : State) (die : Nat := 255) : State :=
  let c := s.rd CLK_REF_STATUS.current
  let t := fault (s.wr CLK_MON_EVENTS.failed_source c) .clockFailure c (monWord s) (die := die)
  if s.boot.dormant then { t with boot := { t.boot with refLostDormant := true } } else warmReset t .refClockLoss

/-- No edge for 8 us. The gated monitor of an injection is detected and logged, and nothing is reset (R555, R556). -/
def missingEdge (s : State) : State :=
  if !refWatched s then s
  else if injArmed s 0x01 0 then
    injectionEnd (fault s .clockFailure (s.rd CLK_REF_STATUS.current) (monWord (s.wr CLK_MON_EVENTS.missing_edge 1)) (injected := true)
      (withheld := true)) s.now
  else
    let t := candidateLost (s.wr CLK_MON_EVENTS.missing_edge 1) (s.rd CLK_REF_STATUS.current)
    refFailure (synceUpdate t)

/-- The hop, lane or a DRAM PLL loses lock; in DORMANT it is recorded and the wake names it (R588). -/
def pllUnlock (k : Nat) (s : State) : State :=
  if !refWatched s then s
  else
    let t := if k = 0 then s.wr CLK_REF_STATUS.hop_locked 0 else if k = 1 then s.wr CLK_REF_STATUS.lane_locked 0
      else s.wrBit CLK_REF_STATUS.dram_locked (k - 2) false
    refFailure (t.wr CLK_MON_EVENTS.pll_unlock 1)

/-! ## The Wicket oscillator (R442, R443) -/

/-- Codes of trim in 0.6 %, the clamp. -/
def trimClamp : Int := 30

/-- The trim moves to `v`, or to the clamp, which is reported. -/
def setTrim (s : State) (v : Int) : State :=
  let w := max (-trimClamp) (min trimClamp v)
  let t := s.wr CLK_WKT_TRIM.trim (ofSigned 8 w)
  if w = v then t else fault (t.wr CLK_WKT_TRIM.trim_limit 1) .trimLimit

/-- The trim source of the moment. -/
def trimSource (s : State) : Nat := if candReady s 0 then 1 else if s.rdb TIM_PPS_STATUS.pps_valid then 2 else 0

/-- The comparison of every second found the oscillator off by `codes` codes, positive when slow: the trim moves by one code at most. -/
def wicketTrim (codes : Int) (s : State) : State :=
  let src := trimSource s
  let t := s.wr CLK_WKT_TRIM.trim_source src
  if src = 0 ∨ s.boot.porHeld ∨ s.rdb CLK_WKT_TRIM.on_backup ∨ codes = 0 then t
  else setTrim t (toSigned 8 (s.rd CLK_WKT_TRIM.trim) + (if 0 < codes then 1 else -1))

/-- The initial trim, from the first judgement of LOCAL_OSC: the correction that its count shows, to the nearest code of 0.02 %. -/
def initialTrim (s : State) (count expected : Nat) : State :=
  let e : Int := (count : Int) - expected
  setTrim (s.wr CLK_WKT_TRIM.trim_source 1) (toSigned 8 (s.rd CLK_WKT_TRIM.trim) + (2 * e * 5000 + expected) / (2 * expected))

/-- The backup oscillator finds the Wicket oscillator off by `permille` parts per thousand: beyond 10 % it takes over. -/
def backupCheck (permille : Nat) (s : State) : State :=
  if permille ≤ 100 ∨ s.rdb CLK_WKT_TRIM.on_backup ∨ s.boot.porHeld then s
  else fault ((s.wr CLK_WKT_TRIM.on_backup 1).wr CLK_MON_EVENTS.wicket_osc_fail 1) .oscBackup

/-! ## Clock outputs (R494) -/

def clkoutCheck (s : State) : State :=
  if (List.range 4).any (fun k => bit (s.rd PIN_PERIPH_EN.clkout) k && clkoutOver s k) then s.wr PIN_STATUS.clkout_refused 1 else s

/-! ## Judgement and selection (R432, R433, R45, R46) -/

/-- The first entry of CLK_REF_PREF whose candidate is READY. -/
def preferred (s : State) : Option Nat :=
  [s.rd CLK_REF_PREF.pref0, s.rd CLK_REF_PREF.pref1, s.rd CLK_REF_PREF.pref2, s.rd CLK_REF_PREF.pref3].find?
    (fun c => decide (c ≤ 24) && candReady s c)

/-- A 1 ms window of candidate `c` ends with `count` edges. -/
def candWindow (c count : Nat) (s : State) : State :=
  if s.boot.porHeld || s.rdb CLK_WKT_TRIM.on_backup || !candClock s c then s
  else
    let expected := candHz s c / 1000
    let s := s.wr CLK_CAND_COUNT.count count c
    if expected ≠ 0 ∧ agrees count expected then
      let run := min 4 (s.rd CLK_CAND_COUNT.run c + 1)
      let t := s.wr CLK_CAND_COUNT.run run c
      if run < 4 then t
      else
        let t := synceUpdate (t.wrBit CLK_CAND_READY.ready c true)
        if c = 0 ∧ inStage t 3 then enterStage (initialTrim t count expected) 4 else t
    else
      let t := synceUpdate (candidateLost s c)
      if c = s.rd CLK_REF_STATUS.current ∧ refWatched s then refFailure (t.wr CLK_MON_EVENTS.freq_window 1) else t

/-- Stage 0x04 ends: the PLLs lock on the preferred reference and CORE is released, or 2 ms pass without lock. -/
def pllLock (locked : Bool) (s : State) : State :=
  match preferred s with
  | none => s
  | some c =>
    if !inStage s 4 then s
    else
      let s := s.wr CLK_REF_STATUS.current c
      if !locked then haltBoot (advanceTo s (s.boot.stageSince + 2 * msTicks)) 5
      else
        let s := ((s.wr CLK_REF_STATUS.hop_locked 1).wr CLK_REF_STATUS.lane_locked 1).wr CLK_REF_STATUS.dram_locked 3
        let s := { s with boot := { s.boot with coreUp := true }, tim := { s.tim with replica := some (counter s) } }
        showStack (enterStage s 5)

/-- One second without a READY reference: boot halts. -/
def readyTimeout (s : State) : State :=
  if (inStage s 3 && !candReady s 0) || (inStage s 4 && (preferred s).isNone) then haltBoot (advanceTo s (s.boot.stageSince + secTicks)) 4
  else s

/-! ## Switching (R434, R435) -/

/-- The status of a request is written. -/
def switchResult (s : State) (st : Status) : State := (s.wr CLK_REF_CTRL.result st.code).wr CLK_REF_CTRL.done 1

/-- A go write of CLK_REF_CTRL. -/
def refSwitch (c : Nat) (confirm : Byte) (s : State) : State :=
  let m := s.rd DEV_MODE.mode
  if confirm ≠ 0xC3 then s
  else if m ≠ modeAssembly ∧ m ≠ modeService then switchResult s .modeForbids
  else if s.rdb CLK_REF_STATUS.switching then switchResult s .busy
  else if 24 < c then switchResult s .invalidField
  else if !candReady s c then switchResult s .notReady
  else if c = s.rd CLK_REF_STATUS.current then switchResult s .success
  else
    let t := (s.wr CLK_REF_STATUS.current c).wr CLK_REF_STATUS.switching 1
    clkoutCheck (if 1 ≤ c ∧ c ≤ 16 then exitEi t (c - 1) else t)

/-- The PLLs are locked to the new reference. -/
def switchEnd (s : State) : State :=
  if s.rdb CLK_REF_STATUS.switching then switchResult (s.wr CLK_REF_STATUS.switching 0) .success else s

/-! ## User PLLs and global channels (R440, R441) -/

/-- The limits of R440 hold for user PLL `k` as configured. -/
def upllOk (s : State) (k : Nat) : Bool :=
  let m := s.rd CLK_UPLL_CFG.m k
  let n := s.rd CLK_UPLL_CFG.n k
  let o := s.rd CLK_UPLL_CFG.o k
  let f := upllInput s k
  decide (1 ≤ m) && decide (m ≤ 64) && decide (8 ≤ n) && decide (2 ≤ o) && decide (o ≤ 240) && decide (10000000 * m ≤ f) &&
    decide (f ≤ 100000000 * m) && decide (2400000000 * m ≤ f * n) && decide (f * n ≤ 6000000000 * m) && decide (10000000 * m * o ≤ f * n) &&
    decide (f * n ≤ 1500000000 * m * o)

/-- A write changes a field of CLK_UPLL_CFG_k other than enable. -/
def upllChanges (s : State) (k v : Nat) : Bool :=
  bits v 0 7 != s.rd CLK_UPLL_CFG.m k || bits v 7 10 != s.rd CLK_UPLL_CFG.n k || bits v 17 8 != s.rd CLK_UPLL_CFG.o k ||
    bits v 25 5 != s.rd CLK_UPLL_CFG.input k

def upllFields (s : State) (k v : Nat) : State :=
  (((s.wr CLK_UPLL_CFG.m (bits v 0 7) k).wr CLK_UPLL_CFG.n (bits v 7 10) k).wr CLK_UPLL_CFG.o (bits v 17 8) k).wr CLK_UPLL_CFG.input
    (bits v 25 5) k

/-- A write of CLK_UPLL_CFG_k with enable = 1. -/
def upllEnable (k v : Nat) (s : State) : State :=
  if s.rdb CLK_UPLL_CFG.enable k then (if upllChanges s k v then s.wr CLK_UPLL_STATUS.refused 1 k else s)
  else
    let t := upllFields s k v
    if upllOk t k then clkoutCheck (t.wr CLK_UPLL_CFG.enable 1 k) else t.wr CLK_UPLL_STATUS.cfg_error 1 k

/-- A write of CLK_UPLL_CFG_k with enable = 0. -/
def upllDisable (k v : Nat) (s : State) : State :=
  if !s.rdb CLK_UPLL_CFG.enable k then upllFields s k v
  else if upllChanges s k v || (List.range 32).any (fun c => s.rd CLK_GCH_SEL.source c == 8 + k) then s.wr CLK_UPLL_STATUS.refused 1 k
  else (s.wr CLK_UPLL_CFG.enable 0 k).wr CLK_UPLL_STATUS.locked 0 k

/-- The input of user PLL `k` is there: its candidate READY, or the core reference in use. -/
def upllHasInput (s : State) (k : Nat) : Bool :=
  let i := s.rd CLK_UPLL_CFG.input k
  if i = 0x1F then s.boot.coreUp else candReady s i

/-- Ticks in a period of what code `k` selects for a global channel; 0 for Off (R441). -/
def sourceTicks (s : State) (k : Nat) : Nat :=
  if k = 1 ∨ k = 2 ∨ k = 3 then hcs s (k + 1)
  else if k < 8 then 0
  else
    let u := k - 8
    let f := upllInput s u * s.rd CLK_UPLL_CFG.n u
    (secTicks * (s.rd CLK_UPLL_CFG.m u * s.rd CLK_UPLL_CFG.o u) + f - 1) / f

/-- Channel `c` takes source `k`: a change completes the present high phase, at most a period of the old source, and then stays low for the longer
of the two periods. -/
def channelSelect (c k : Nat) (s : State) : State :=
  let old := sourceTicks s (s.rd CLK_GCH_SEL.source c)
  let low := nowHc s + (old + max old (sourceTicks s k) + hcTicks s - 1) / hcTicks s
  let t := s.wr CLK_GCH_SEL.source k c
  if s.rd CLK_GCH_SEL.source c = k then t else { t with ctxs := { t.ctxs with chanFrom := sparseSet 0 t.ctxs.chanFrom c low } }

/-- User PLL `k` locks and its output starts, at a phase of its own. -/
def upllLock (k : Nat) (s : State) : State :=
  if s.rdb CLK_UPLL_CFG.enable k && upllHasInput s k then
    let f := s.fresh 64
    let t := { f.2 with ctxs := { f.2.ctxs with pllPhase := sparseSet 0 f.2.ctxs.pllPhase k f.1.toNat } }
    clkoutCheck (t.wr CLK_UPLL_STATUS.locked 1 k)
  else s

/-- Its input fails or it loses lock. -/
def upllFail (k : Nat) (s : State) : State :=
  if s.rdb CLK_UPLL_CFG.enable k then
    let t := ((s.wr CLK_UPLL_STATUS.locked 0 k).wr CLK_UPLL_STATUS.unlock_seen 1 k).wr CLK_MON_EVENTS.upll_unlock 1
    let i := s.rd CLK_UPLL_CFG.input k
    fault t .clockFailure (if i = 0x1F then s.rd CLK_REF_STATUS.current else i) (monWord t)
  else s

/-! ## Skew (R23) -/

/-- A sample of die `n`, `skew` ps off before trimming: the trim follows within ±20 ps; ten samples in a row with more than 8 ps left declare a
clock-distribution fault, handled as loss of the hop clock. -/
def skewSample (n : Nat) (skew : Int) (s : State) : State :=
  if !s.boot.coreUp || !dieTrained s n then s
  else
    let trim := max (-20) (min 20 (-skew))
    let run := if 8 < (skew + trim).natAbs then s.stack.skewBad.getD n 0 + 1 else 0
    let t := { s with stack := { s.stack with trim := s.stack.trim.set n trim, skewBad := s.stack.skewBad.set n run } }
    if run < 10 then t else refFailure (t.wrBit DEV_STACK_STATUS.skew_fault n true) n

/-! ## Meanings -/

/-- CLOCK_SKEW_SAMPLE (R23, R436). -/
def execClockSkewSample (die : Fin 4) (skew : Int) (s : State) : Res := .next (skewSample die skew s)

/-- CANDIDATE_WINDOW (R432, R433, R436, R442). -/
def execCandidateWindow (candidate : Fin 25) (count : Nat) (s : State) : Res := .next (candWindow candidate count s)

/-- CORE_REF_MISSING_EDGE (R436, R435). -/
def execCoreRefMissingEdge (s : State) : Res := .next (missingEdge s)

/-- CORE_PLL_UNLOCK (R436): the hop, lane, DRAM 0 or DRAM 1 PLL. -/
def execCorePllUnlock (pll : Fin 4) (s : State) : Res := .next (pllUnlock pll s)

/-- CORE_REFERENCE_SWITCH (R434, R435). -/
def execCoreReferenceSwitch (source : Fin 32) (confirm : Byte) (s : State) : Res :=
  .next (regWrite 0x40008 s (refSwitch source confirm))

/-- CORE_REF_SWITCH_END (R435). -/
def execCoreRefSwitchEnd (s : State) : Res := .next (switchEnd s)

/-- USER_PLL_ENABLE (R440). -/
def execUserPllEnable (pll : Fin 8) (value : Word) (s : State) : Res :=
  .next (regWrite (CLK_UPLL_CFG.enable.offset pll 0) s (upllEnable pll value.toNat))

/-- USER_PLL_DISABLE (R440). -/
def execUserPllDisable (pll : Fin 8) (value : Word) (s : State) : Res :=
  .next (regWrite (CLK_UPLL_CFG.enable.offset pll 0) s (upllDisable pll value.toNat))

/-- USER_PLL_LOCK (R440). -/
def execUserPllLock (pll : Fin 8) (s : State) : Res := .next (upllLock pll s)

/-- USER_PLL_INPUT_FAIL (R440). -/
def execUserPllInputFail (pll : Fin 8) (s : State) : Res := .next (upllFail pll s)

/-- GLOBAL_CHANNEL_SELECT (R441). -/
def execGlobalChannelSelect (channel : Fin 32) (source : Fin 16) (s : State) : Res :=
  .next (regWrite (CLK_GCH_SEL.source.offset channel 0) s (channelSelect channel source))

/-- WICKET_TRIM (R442). -/
def execWicketTrim (codes : Int) (s : State) : Res := .next (wicketTrim codes s)

/-- OSC_BACKUP_CHECK (R443). -/
def execOscBackupCheck (permille : Nat) (s : State) : Res := .next (backupCheck permille s)

/-- CORE_PLL_LOCK (R43, R45, R53, R433). -/
def execCorePllLock (locked : Bool) (s : State) : Res := .next (pllLock locked s)

/-- REFERENCE_READY_TIMEOUT (R46, R430, R433). -/
def execReferenceReadyTimeout (s : State) : Res := .next (readyTimeout s)

end Sys2Proof.Machine
end

