-- ==== Sys2Proof/Machine/Thermal.lean ====
section
/-! DEFINITION. The Wicket (chapter 19): the housekeeping round, the temperatures, thresholds and bands that follow from it, throttling, and the
Wicket's watchdog. -/

namespace Sys2Proof.Machine

/-! ## Sensors and channels (R472, R476, R477, R479) -/

/-- The housekeeping sequencer converts channel `c`: from boot stage 0x02, and the channels of R472 in DORMANT. -/
def channelRuns (s : State) (c : Nat) : Bool :=
  if s.boot.dormant then decide (c ≤ 4) || (decide (22 ≤ c) && decide (c ≤ 24)) || c == 30 || c == 31
  else decide (2 ≤ s.rd DEV_BOOT_STATUS.stage)

/-- The sensors of die `d` are readable: D0's always, the others' while their die's Shutters are open (R472, R479). -/
def dieReadable (s : State) (d : Nat) : Bool := d == 0 || (!s.boot.dormant && dieOpen s d)

/-- A reading of R479 lies in range, in units of 0.125 °C. -/
def readingInRange (v : Int) : Bool := decide (-440 ≤ v) && decide (v ≤ 1200)

/-- The last reading of sensor `n`. -/
def sensorTemp (s : State) (n : Nat) : Int := toSigned 12 (s.rd THM_SENSOR.temp n)

/-- The valid reading of a sensor of a die. -/
def sensor (s : State) (d k : Nat) : Option Int :=
  if s.rdb THM_SENSOR.valid (24 * d + k) then some (sensorTemp s (24 * d + k)) else none

/-- The operating range of a rail channel in codes (R573): bank supplies by the range that stage 0x02 identified (R491). -/
def railRange (s : State) (c : Nat) : Nat × Nat :=
  if c ≤ 1 then (1552, 1648)
  else if c ≤ 4 then (1455, 1545)
  else if c ≤ 13 then (if bit (s.rd PIN_STATUS.bank_1v8) (c - 10) then (1710, 1890) else (3135, 3465))
  else if c = 15 then (2328, 2472)
  else if c ≤ 17 then (1746, 1854)
  else if c ≤ 19 then (2134, 2266)
  else if c = 20 then (3492, 3708)
  else (3420, 3780)

/-- Channel `c` measures a rail that R477 judges. -/
def isRail (s : State) (c : Nat) : Bool :=
  decide (c ≤ 4) || (decide (10 ≤ c) && decide (c ≤ 21) &&
    !(decide (c ≤ 13) && bit (s.rd PIN_STATUS.bank_fault) (c - 10)))

/-- One conversion: the code, and for a rail its run of rounds out of limits; the third raises the alarm (R477). -/
def takeChannel (s : State) (c code : Nat) : State :=
  if !channelRuns s c then s
  else
    let t := s.wr WKT_ADC.code code c
    if !isRail s c then t
    else
      let r := railRange s c
      if r.1 ≤ code ∧ code ≤ r.2 then { t with wkt := { t.wkt with railRun := sparseDel t.wkt.railRun c } }
      else
        let run := min 3 (sparseGet 0 t.wkt.railRun c + 1)
        let t := { t with wkt := { t.wkt with railRun := sparseSet 0 t.wkt.railRun c run } }
        if run < 3 || t.rdb WKT_ADC.alarm c then t
        else fault (t.wr WKT_ADC.alarm 1 c) .railAlarm c code (die := 0)

/-- One sensor reading: a reading that leaves the range on a readable die sets sensor_invalid and is logged (R479). -/
def takeSensor (s : State) (n code : Nat) : State :=
  let d := n / 24
  if !dieReadable s d then s.wr THM_SENSOR.valid 0 n
  else
    let ok := readingInRange (toSigned 12 code)
    let was := readingInRange (sensorTemp s n)
    let t := (s.wr THM_SENSOR.temp code n).wrb THM_SENSOR.valid ok n
    if !ok && was then fault (t.wr THM_STATUS.sensor_invalid 1) .sensorInvalid n code (die := d) else t

/-- P_logic in units of 50 µW: channel 3 in 0.5 mV times channel 8 in 0.1 A (R478). -/
def logicPower (s : State) : Nat := s.rd WKT_ADC.code 3 * s.rd WKT_ADC.code 8

/-! ## The middle-die estimate (R480, R481) -/

/-- 10^-9 °C in one unit of 0.125 °C. -/
def tempNano : Int := 125000000

/-- R_TH of a zone in 0.1 °C/W. -/
def rTh (z : Nat) : Int := if 1 ≤ z % 4 ∧ z % 4 ≤ 2 ∧ 1 ≤ z / 4 ∧ z / 4 ≤ 3 then 20 else 16

/-- The share w_z of P_logic as a fraction; 1/20 while no activity is counted. -/
def zoneShare (a : Vector Nat 20) (z : Nat) : Nat × Nat :=
  let total := a.toList.foldl (fun x y => x + y) 0
  if total = 0 then (1, 20) else (a.toList.getD z 0, total)

/-- The base of zone `z` in 10^-9 °C: the dies on either side, or the base die. -/
def zoneBase (s : State) (z : Nat) : Option Int :=
  match sensor s 1 z, sensor s 3 z with
  | some t1, some t3 => some ((40 * t1 + 60 * t3) * tempNano / 100)
  | some t1, none => some (t1 * tempNano)
  | none, some t3 => some (t3 * tempNano)
  | none, none => (sensor s 0 z).map (fun t => t * tempNano)

/-- The estimate of zone `z` after one round, with `w` its share. -/
def nextEstimate (s : State) (z : Nat) (w : Nat × Nat) : Int :=
  let e := s.wkt.est.getD z 0
  match zoneBase s z with
  | none => e
  | some base =>
    let target := base + rTh z * ((s.wkt.power : Nat) : Int) * 5000 * (w.1 : Nat) / (w.2 : Nat)
    e + 95 * (target - e) / 1000

/-- The estimate of zone `z` as D2 is first released after being powered. -/
def firstEstimate (s : State) (z : Nat) : Int :=
  match sensor s 2 z with
  | some t => t * tempNano
  | none => (zoneBase s z).getD (s.wkt.est.getD z 0)

/-- An estimate in units of 0.125 °C. -/
def estTemp (e : Int) : Int := max (-2048) (min 2047 (e / tempNano))

/-- Plausibility of zone `z`: the third round in a row more than 6 °C above the valid measured value flags it (R481). -/
def plausible (s : State) (z : Nat) : State :=
  let e := s.wkt.est.getD z 0
  let beyond := match sensor s 2 z with | some m => decide (m * tempNano + 6000000000 < e) | none => false
  let was := s.rd THM_ZONE.run z
  let run := if beyond then min 3 (was + 1) else 0
  let t := s.wr THM_ZONE.run run z
  if run < 3 || was == 3 then t
  else
    let m := (sensor s 2 z).getD 0
    fault ((t.wr THM_ZONE.plausibility 1 z).wr THM_STATUS.plausibility_fault 1) .plausibility z (ofSigned 64 (e / tempNano - m)) (die := 2)

/-- The estimates of a round: they start at the first release of D2 and then follow R480. -/
def estimates (a : Vector Nat 20) (s : State) : State :=
  if s.boot.dormant then s
  else if !s.wkt.estStart && !dieOpen s 2 then s
  else
    let f := if s.wkt.estStart then (fun z => nextEstimate s z (zoneShare a z)) else firstEstimate s
    let t := { s with wkt := { s.wkt with est := (List.range 20).map f, estStart := true } }
    (List.range 20).foldl (fun t z =>
      let w := zoneShare a z
      plausible ((t.wr THM_ZONE.estimate (ofSigned 12 (estTemp (t.wkt.est.getD z 0))) z).wr THM_ZONE.share (min 255 (w.1 * 256 / w.2)) z) z) t

/-! ## Effective temperatures (R481, R482) -/

/-- The higher of two (temperature, source) pairs; the first stands on a tie. -/
def hotter (a : Option (Int × Nat)) (b : Int × Nat) : Option (Int × Nat) :=
  match a with
  | some x => if x.1 < b.1 then some b else some x
  | none => some b

/-- The valid reading of a sensor; `inj` is a sensor and the reading injected for it. -/
def sensorWith (s : State) (inj : Option (Nat × Int)) (d k : Nat) : Option Int :=
  match inj with
  | some (n, v) => if n = 24 * d + k then some v else sensor s d k
  | none => sensor s d k

/-- The effective temperature of a die and the source that sets it; none where the die is not powered or has no valid value. -/
def dieEff (s : State) (inj : Option (Nat × Int)) (d : Nat) : Option (Int × Nat) :=
  let direct (ks : List Nat) (a : Option (Int × Nat)) : Option (Int × Nat) :=
    ks.foldl (fun a k => match sensorWith s inj d k with | some t => hotter a (t, k) | none => a) a
  if s.boot.dormant && d != 0 then none
  else if d ≠ 2 then direct (List.range 24) none
  else if !s.wkt.estStart then none
  else
    let zone (a : Option (Int × Nat)) (z : Nat) : Option (Int × Nat) :=
      let e := estTemp (s.wkt.est.getD z 0)
      match sensorWith s inj 2 z with
      | some m => if m < e then hotter a (e, 24 + z) else hotter a (m, z)
      | none => hotter a (e, 24 + z)
    let a := direct [20, 21, 22, 23] ((List.range 20).foldl zone none)
    let floor (a : Option (Int × Nat)) (on : Bool) (v : Int) : Option (Int × Nat) :=
      match a with
      | some x => if on && decide (x.1 < v) then some (v, x.2) else some x
      | none => none
    floor (floor a ((List.range 80).any (fun n => (district s n).slow)) (105 * tempUnit))
      ((List.range 80).any (fun n => s.rdb THM_DLOCK_DISTRICT.at_limit n)) (100 * tempUnit)

/-- The effective junction temperature and its die. -/
def junction (s : State) (inj : Option (Nat × Int)) : Option (Int × Nat) :=
  (List.range 4).foldl (fun a d => match dieEff s inj d with | some x => hotter a (x.1, d) | none => a) none

/-- The temperature registers of a round. -/
def showTemps (s : State) (inj : Option (Nat × Int)) : State :=
  let t := (List.range 4).foldl (fun t d =>
    let t := t.wrb THM_DIE.valid (dieReadable s d) d
    match dieEff s inj d with
    | some x => (t.wr THM_DIE.eff_temp (ofSigned 12 x.1) d).wr THM_DIE.hottest x.2 d
    | none => t) s
  match junction s inj with
  | some x => (t.wr THM_STATUS.eff_temp (ofSigned 12 x.1)).wr THM_STATUS.hot_die x.2
  | none => t

/-- The effective junction temperature in force. -/
def effTemp (s : State) : Int := toSigned 12 (s.rd THM_STATUS.eff_temp)

/-! ## Throttling (R486, R487) -/

/-- Throttle states of R487. -/
def thIdle : Nat := 0
def thGrace : Nat := 1
def thWatch : Nat := 2
def thEnforcing : Nat := 3
def thReleasing : Nat := 4

def thState (s : State) : Nat := s.rd THM_THROTTLE_STATUS.state

/-- The throttle duty runs (R472). -/
def throttleRuns (s : State) : Bool := !s.boot.dormant && s.rd DEV_MODE.mode != modeBoot && !s.wkt.stalled && s.wkt.restart.isNone

/-- The throttle state changes to `n`, its timers start afresh, and throttle_request is raised. -/
def thTo (s : State) (n : Nat) : State :=
  let t := { s with wkt := { s.wkt with since := s.now, paused := none, pauseTotal := 0 } }
  raiseEvent ((t.wr THM_THROTTLE_STATUS.state n).wrb THM_STATUS.throttle_active (n != thIdle)) evThrottle

/-- Enforcement begins or resumes at step `k`. -/
def thEnforce (s : State) (k : Nat) : State := thTo (s.wr THM_STATUS.step k) thEnforcing

/-- What a round's effective temperature asks of the throttle state. -/
def throttleRound (s : State) : State :=
  let e := effTemp s
  let hot := decide (105 * tempUnit ≤ e)
  let cool := decide (e < 101 * tempUnit)
  if !throttleRuns s then s
  else if thState s = thIdle then
    if !hot then s
    else
      let t := (s.wr THM_THROTTLE_STATUS.request (s.rd THM_THROTTLE_STATUS.request + 1)).wr THM_THROTTLE_STATUS.acked 0
      thTo { t with wkt := { t.wkt with request := t.wkt.power } } thGrace
  else if thState s = thWatch then (if cool then thTo s thIdle else if hot then thEnforce s 1 else s)
  else if thState s = thEnforcing then (if cool then thTo s thReleasing else s)
  else if thState s = thReleasing then (if hot then thEnforce s (s.rd THM_STATUS.step) else s)
  else s

/-- The grace time t_g in ticks. -/
def graceTicks (s : State) : Nat := max 1 (min 500 (s.rd THM_THROTTLE_CFG.grace_ms)) * msTicks

/-- The grace time has run. -/
def graceExpiry (s : State) : State :=
  if !throttleRuns s || thState s != thGrace then s
  else
    let t := advanceTo s (s.wkt.since + s.wkt.pauseTotal + graceTicks s)
    if effTemp t < 101 * tempUnit then thTo t thIdle
    else if t.rdb THM_THROTTLE_STATUS.acked && decide (10 * t.wkt.power ≤ 9 * t.wkt.request) then thTo t thWatch
    else thEnforce t 1

/-- 10 ms of ENFORCING have run since the last step. -/
def stepDeepen (s : State) : State :=
  if !throttleRuns s || thState s != thEnforcing then s
  else
    let t := advanceTo s (s.wkt.since + 10 * msTicks)
    let t := { t with wkt := { t.wkt with since := t.now } }
    if 105 * tempUnit ≤ effTemp t then t.wr THM_STATUS.step (min 3 (t.rd THM_STATUS.step + 1)) else t

/-- 100 ms of RELEASING have run since the last step. -/
def stepRelease (s : State) : State :=
  if !throttleRuns s || thState s != thReleasing then s
  else
    let t := advanceTo s (s.wkt.since + 100 * msTicks)
    let t := { t with wkt := { t.wkt with since := t.now } }
    if effTemp t < 105 * tempUnit then
      let k := t.rd THM_STATUS.step - 1
      let t := t.wr THM_STATUS.step k
      if k = 0 then thTo t thIdle else t
    else t

/-! ## Thresholds and bands (R483 to R485, R489) -/

/-- Threshold `k` (0 warning, 1 throttle, 2 shut-down): level and release level, °C. -/
def thLevel (k : Nat) : Int := if k = 0 then 100 else if k = 1 then 105 else 115

/-- Threshold `k` is held. -/
def thHeld (s : State) (k : Nat) : Bool :=
  if k = 0 then s.rdb THM_STATUS.warning else if k = 1 then s.wkt.throttleHeld else s.wkt.shutHeld

def setHeld (s : State) (k : Nat) (b : Bool) : State :=
  if k = 0 then s.wrb THM_STATUS.warning b
  else if k = 1 then { s with wkt := { s.wkt with throttleHeld := b } }
  else { s with wkt := { s.wkt with shutHeld := b } }

/-- A crossing is recorded. -/
def thCrossing (s : State) (k : Nat) (reached : Bool) : State :=
  let t := history (setHeld s k reached) .thermalCrossing k (b2n reached + s.rd THM_STATUS.eff_temp * 65536)
  if reached && k == 0 then raiseEvent t evThermal else t

/-- Threshold `k` is evaluated. -/
def evalThreshold (s : State) (k : Nat) : State :=
  let e := effTemp s
  if !thHeld s k && decide (thLevel k * tempUnit ≤ e) then thCrossing s k true
  else if thHeld s k && decide (e < (thLevel k - 4) * tempUnit) then thCrossing s k false
  else s

/-- The lower boundary of a band in °C. -/
def bandFloor (b : Nat) : Int := if b = 1 then 0 else if b = 2 then 85 else 100

/-- The band of a temperature, from the band in force (R489). -/
def nextBand (b : Nat) (e : Int) : Nat :=
  let up := if 100 * tempUnit ≤ e then 3 else if 85 * tempUnit ≤ e then 2 else if 0 ≤ e then 1 else 0
  if b < up then up
  else
    let fall (b : Nat) : Nat := if b ≠ 0 ∧ e ≤ (bandFloor b - 2) * tempUnit then b - 1 else b
    fall (fall (fall b))

/-- The band in force follows: DRAM retrains (R229) and the lane pairs of an active Bolryn Link readapt one at a time (R511). -/
def takeBand (s : State) : State :=
  let b := nextBand (s.rd THM_STATUS.band) (effTemp s)
  if b = s.rd THM_STATUS.band then s
  else
    let t := startRetrain (startRetrain (history (s.wr THM_STATUS.band b) .bandChange b) 0) 1
    if !pairActive t then t
    else
      let u := { t with pair := { t.pair with readapt := (List.range 4).filter (lanePairUsable t), readaptAt := t.now } }
      settleLanes t (u.wr PRL_STATUS.width (linkWidth u))

/-- The shut-down of R485. -/
def shutDown (s : State) : State :=
  if s.boot.dormant then s else powerDown (selfFault (mute s) 3) true

/-- THERM_N, and the deferral of R50 ends at the release. -/
def thermPin (s : State) : State :=
  let e := effTemp s
  let t := { s with wkt := { s.wkt with thermN := decide (115 * tempUnit ≤ e) } }
  if e < 111 * tempUnit then
    match t.boot.wakeWaiting with
    | some src => if t.boot.dormant then wake t src else t
    | none => t
  else t

/-- The thresholds and the band of a round; in DORMANT the shut-down threshold alone. -/
def thEvaluate (s : State) : State :=
  let t := if s.boot.dormant then s else takeBand (evalThreshold (evalThreshold s 0) 1)
  let t := throttleRound (evalThreshold t 2)
  let t := thermPin t
  if t.wkt.shutHeld then shutDown t else t

/-! ## Fault injection into a sensor (R555, R556) -/

/-- The reading that an armed injection gives a sensor. -/
def injReading (s : State) : Option (Nat × Int) :=
  match s.safe.injection with
  | some i => if i.mech = 0x0B then
      some (24 * (i.target % 4) + bits i.target 2 5, (if i.variant = 0 then 100 else 115) * tempUnit) else none
  | none => none

/-- The round judged a second time with the injected reading: a threshold that it alone reaches is recorded as injected, its responses are
withheld, and the injection is detected at the threshold of its variant. -/
def injectedRound (s : State) : State :=
  match s.safe.injection, injReading s with
  | some i, some (n, v) =>
    if !dieReadable s (n / 24) then s
    else
      match junction s (some (n, v)) with
      | none => s
      | some x =>
        let level := if i.variant = 0 then 0 else 2
        if thHeld s level || decide (x.1 < thLevel level * tempUnit) then s
        else
          let e := x.1
          let one (t : State) (k : Nat) : State :=
            if thHeld s k || decide (e < thLevel k * tempUnit) then t
            else fault t .thermalCrossing k (1 + ofSigned 12 e * 65536) (injected := true) (withheld := true) (history := true)
          injectionEnd ((List.range 3).foldl one s) s.now
  | _, _ => s

/-! ## The round and the watchdog (R474, R476) -/

/-- A running grace time pauses while the core does not serve. -/
def pauseGrace (s : State) : State :=
  if thState s = thGrace ∧ s.wkt.paused = none then { s with wkt := { s.wkt with paused := some s.now } } else s

/-- It resumes at the point where it paused. -/
def resumeGrace (s : State) : State :=
  match s.wkt.paused with
  | some p => { s with wkt := { s.wkt with paused := none, pauseTotal := s.wkt.pauseTotal + (s.now - p) } }
  | none => s

/-- The hardware trip of R484 on the raw readings of die `d`. -/
def hwTrip (s : State) (d : Nat) (code : Nat → Nat) : Bool :=
  dieReadable s d && (List.range 24).any (fun k => decide (115 * tempUnit ≤ toSigned 12 (code (24 * d + k))))

/-- The policy causes of the round's alarms and flags, in every evaluation in which they stand (R545). -/
def roundCauses (s : State) : State :=
  let t := if (List.range 48).any (fun c => s.rdb WKT_ADC.alarm c) then setCause s scRailAlarm else s
  if t.rdb THM_STATUS.plausibility_fault then setCause t scPlausibility else t

/-- One housekeeping round ends: its conversions and readings, and, if the core served it, what follows from them. -/
def round (codes : Vector (BitVec 12) 48) (sensors : Vector (BitVec 12) 96) (a : Vector Nat 20) (served : Bool) (s : State) : State :=
  if s.boot.porHeld then s
  else
    let code (c : Nat) : Nat := (codes.toList.getD c 0).toNat
    let temp (n : Nat) : Nat := (sensors.toList.getD n 0).toNat
    let s := advanceTo s (s.wkt.lastRound + 2 * msTicks)
    let s := { s with wkt := { s.wkt with lastRound := s.now, round := s.wkt.round + 1 } }
    let s := (List.range 48).foldl (fun t c => takeChannel t c (code c)) s
    let s := (List.range 96).foldl (fun t n => takeSensor t n (temp n)) s
    let s := if s.boot.dormant then s else { s with wkt := { s.wkt with power := logicPower s } }
    let trip := (List.range 4).filter (fun d => hwTrip s d temp)
    let s := trip.foldl (fun t d => t.wr THM_DIE.hw_trip 1 d) s
    let s :=
      if !served || s.wkt.restart.isSome then { pauseGrace s with wkt := { (pauseGrace s).wkt with stalled := true } }
      else
        let t := { resumeGrace s with wkt := { (resumeGrace s).wkt with stalled := false, served := s.now } }
        let t := showTemps (estimates a t) none
        injectedRound (roundCauses (thEvaluate t))
    if trip.isEmpty then s else shutDown s

/-- The core has not served its watchdog for 10 ms: it restarts from ROM. -/
def watchdog (s : State) : State :=
  if s.boot.porHeld || s.wkt.restart.isSome || !s.wkt.stalled then s
  else
    let t := advanceTo s (s.wkt.served + 10 * msTicks)
    let t := fault ((t.wr THM_STATUS.wicket_restart 1).inc WKT_STATUS.restarts) .wicketRestart
    pauseGrace { t with wkt := { t.wkt with restart := some t.now } }

/-- The restart has ended, at most 1 ms later. -/
def restartEnd (s : State) : State :=
  match s.wkt.restart with
  | none => s
  | some _ => resumeGrace { s with wkt := { s.wkt with restart := none, stalled := false, served := s.now } }

/-! ## Meanings -/

/-- HOUSEKEEPING_ROUND (R472, R473, R476 to R485, R487, R489): the codes and readings of the round, the zones' activity counts, and whether the
core completed it. -/
def execHousekeepingRound (codes : Vector (BitVec 12) 48) (sensors : Vector (BitVec 12) 96) (activity : Vector Nat 20) (served : Bool)
    (s : State) : Res := .next (stepChange s (round codes sensors activity served s))

/-- THROTTLE_GRACE_EXPIRY (R486, R487). -/
def execThrottleGraceExpiry (s : State) : Res := .next (stepChange s (graceExpiry s))

/-- THROTTLE_STEP_DEEPEN (R486, R487). -/
def execThrottleStepDeepen (s : State) : Res := .next (stepChange s (stepDeepen s))

/-- THROTTLE_STEP_RELEASE (R486, R487). -/
def execThrottleStepRelease (s : State) : Res := .next (stepChange s (stepRelease s))

/-- WICKET_WATCHDOG_EXPIRY (R474). -/
def execWicketWatchdogExpiry (s : State) : Res := .next (watchdog s)

/-- WICKET_RESTART_END (R474). -/
def execWicketRestartEnd (s : State) : Res := .next (restartEnd s)

end Sys2Proof.Machine
end

