-- ==== Sys2Proof/Machine/Pins.lean ====
section
/-! DEFINITION. General-purpose pins as commands (chapter 20): changes of owner, handovers, sampled levels, debounce and the pattern matchers. -/

namespace Sys2Proof.Machine

/-! ## Pattern matchers (R500, R501) -/

/-- The number of bits set in a 16-bit mask. -/
def maskBits (m : Nat) : Nat := ((List.range 16).filter (fun i => bit m i)).length

/-- The test of matcher `m` on the debounced levels of its bank. -/
def matcherTest (s : State) (m : Nat) : Bool :=
  let b := s.rd PIN_MATCH_MASK.bank m
  let levels := bits (s.rd PIN_IN.level (b / 2)) (16 * (b % 2)) 16
  let mask := s.rd PIN_MATCH_MASK.mask m
  levels &&& mask == s.rd PIN_MATCH_VAL.value m &&& mask

/-- An event of matcher `m` (R501): counted, signalled while irq is 1, and a pin wake in DORMANT or on the way there. -/
def matcherEvent (m : Nat) (s : State) : State :=
  let t := (s.wr PIN_MATCH_STATUS.event 1 m).inc PIN_MATCH_STATUS.count 1 m
  let t := if t.rdb PIN_MATCH_CFG.irq m then signalVector t 0 (t.rd PIN_MATCH_CFG.vector m) else t
  if !t.rdb PIN_MATCH_CFG.wake m then t
  else if t.boot.dormant then wake t 1
  else if t.boot.dormantCommit.isSome && wakeEnabled t 1 then
    { t with boot := { t.boot with wakeWaiting := some (t.boot.wakeWaiting.getD 1) } }
  else t

/-- One edge of matcher `m`. -/
def matcherEdge (s : State) (m : Nat) : State :=
  if !s.rdb PIN_MATCH_CFG.enable m then s
  else
    let now := matcherTest s m
    let was := s.rdb PIN_MATCH_STATUS.match m
    let t := s.wrb PIN_MATCH_STATUS.match now m
    let hit := if s.rdb PIN_MATCH_CFG.mode m then now && !was else now && !s.rdb PIN_MATCH_STATUS.event m
    if hit then matcherEvent m t else t

/-- One edge of every matcher. -/
def matchersEdge (s : State) : State := (List.range 8).foldl matcherEdge s

/-- A write of PIN_MATCH_CFG_m: an enable with more than 8 mask bits leaves the matcher disabled. -/
def matcherConfig (m v : Nat) (s : State) : State :=
  let t := (((s.wr PIN_MATCH_CFG.mode (bits v 1 1) m).wr PIN_MATCH_CFG.irq (bits v 2 1) m).wr PIN_MATCH_CFG.wake (bits v 3 1) m).wr
    PIN_MATCH_CFG.vector (bits v 4 5) m
  if v % 2 = 0 then (t.wr PIN_MATCH_CFG.enable 0 m).wr PIN_MATCH_STATUS.match 0 m
  else if 8 < maskBits (t.rd PIN_MATCH_MASK.mask m) then
    ((t.wr PIN_MATCH_CFG.enable 0 m).wr PIN_MATCH_STATUS.match 0 m).wr PIN_MATCH_STATUS.cfg_error 1 m
  else if t.rdb PIN_MATCH_CFG.enable m then matcherEdge t m
  else
    let t := t.wr PIN_MATCH_CFG.enable 1 m
    if t.rdb PIN_MATCH_CFG.mode m then t.wrb PIN_MATCH_STATUS.match (matcherTest t m) m else matcherEdge t m

/-! ## Sampled levels and debounce (R492, R495, R498, R499) -/

/-- The debounced level of pin `n` takes a value. -/
def setPinIn (s : State) (n : Nat) (b : Bool) : State := s.wrBit PIN_IN.level (n % 32) b (n / 32)

/-- The visible level of pin `n` is `b` from now on: without debounce it passes through, else a count starts where it differs from the debounced
level. -/
def restartCount (s : State) (n : Nat) (b : Bool) : State :=
  let t := { s with pins := { s.pins with visible := sparseSet false s.pins.visible n b, steady := sparseDel s.pins.steady n } }
  if s.rd PIN_CFG.debounce_us n = 0 then setPinIn t n b
  else if pinBit s PIN_IN.level n = b then t
  else { t with pins := { t.pins with steady := sparsePut t.pins.steady n t.now } }

/-- Level `b` of pin `n` is the debounced one, or its count runs. -/
def pinCounts (s : State) (n : Nat) (b : Bool) : Bool := 
  pinBit s PIN_IN.level n == b || s.rd PIN_CFG.debounce_us n != 0 && (sparseFind s.pins.steady n).isSome

/-- A level is sampled at pin `n`: one that is already visible goes on being counted. -/
def takeVisible (s : State) (n : Nat) (b : Bool) : State :=
  if sparseGet false s.pins.visible n = b ∧ pinCounts s n b then s else restartCount s n b

/-- The level at pin `n`: what the device drives there, or the board's. An open-drain pin drives low only. -/
def pinLevel (s : State) (n : Nat) (board : Bool) : Bool :=
  let d := pinDrive s n
  if d.oe && !(d.level && s.rdb PIN_CFG.open_drain n) then d.level else board

/-- A value that the design presents on pin port `n` is taken on the next edge (R496); an unbound port's is not (R493), and in the hold cycle of a swap the port holds its level (R97). -/
def takePort (s : State) (n : Nat) (d : PinDrive) : State :=
  if (sparseFind s.pins.bound n).any (channelLive s) && dieOpen s 2 && !holdCycle s then
    let t := { s with pins := { s.pins with fabric := sparseSet PinDrive.input s.pins.fabric n d } }
    if pinOwner t n = .fabric ∧ !handing t n ∧ !t.pins.sleeping ∧ d.oe then { t with outbox := t.outbox ++ [.pin n d.level] } else t
  else s

/-- Pin ports and board levels change: all are sampled on one edge and visible two edges later, to readers and matchers as one. -/
def pinChange (ports : List (Fin 64 × Bool × Bool)) (levels : List (Fin 64 × Bool)) (s : State) : State :=
  if s.boot.porHeld then s
  else
    let s := advanceTo s (pinEdge s.now)
    let s := ports.foldl (fun (t : State) (p : Fin 64 × Bool × Bool) => takePort t p.1 { level := p.2.1, oe := p.2.2 }) s
    let s := advance s (2 * pinCycle)
    matchersEdge (levels.foldl (fun (t : State) (p : Fin 64 × Bool) => takeVisible t p.1 (pinLevel t p.1 p.2)) s)

/-- The tick at which the debounce count of pin `n` ends. -/
def debounceEnd (s : State) (n : Nat) : Option Nat :=
  (sparseFind s.pins.steady n).map (fun t => t + s.rd PIN_CFG.debounce_us n * 100 * pinCycle)

/-- The debounce count of pin `n` ends, with every other that ends on the same edge. -/
def debounceSettle (n : Nat) (s : State) : State :=
  match debounceEnd s n with
  | none => s
  | some e =>
    let t := advanceTo s e
    matchersEdge ((List.range 64).foldl (fun (t : State) (k : Nat) =>
      if debounceEnd s k = some e then
        setPinIn { t with pins := { t.pins with steady := sparseDel t.pins.steady k } } k (sparseGet false t.pins.visible k)
      else t) t)

/-- A change of debounce_us restarts the count of pin `n` (R499). -/
def debounceChange (s : State) (n : Nat) : State := restartCount s n (sparseGet false s.pins.visible n)

/-! ## Owners (R493, R497, R502) -/

/-- A write of PIN_FABRIC_EN_LO, PIN_FABRIC_EN_HI or PIN_PERIPH_EN. -/
def ownerWrite (r : Nat) (v : Nat) (s : State) : State :=
  if r < 2 then s.wr PIN_FABRIC_EN.fabric v r
  else ((s.wr PIN_PERIPH_EN.fault_n (bits v 0 1)).wr PIN_PERIPH_EN.therm_warn_n (bits v 1 1)).wr PIN_PERIPH_EN.clkout (bits v 2 4)

/-- The four cycles of a handover of pin `n` end: the new owner, or the sleep state, drives. `port` is what the design presents on the pin's
port. -/
def handoverEnd (n : Nat) (port : PinDrive) (s : State) : State :=
  match sparseFind s.pins.hand n with
  | none => s
  | some e =>
    let kept := keptDrive s n
    let t := advanceTo s e
    let t := { t with pins := { t.pins with hand := sparseDel t.pins.hand n } }
    let t :=
      if t.pins.sleeping then { t with pins := { t.pins with kept := sparseSet PinDrive.input t.pins.kept n (sleepDrive t n kept) } }
      else if pinOwner t n = .fabric then
        let d := if (sparseFind t.pins.bound n).any (channelLive t) && dieOpen t 2 && !holdCycle t then port else kept
        { t with pins := { t.pins with fabric := sparseSet PinDrive.input t.pins.fabric n d } }
      else t
    let d := pinDrive t n
    showOwners (if d.oe then { t with outbox := t.outbox ++ [.pin n d.level] } else t)

/-! ## Meanings -/

/-- PIN_OWNER_CHANGE (R493, R494, R497): a write of `value` to PIN_FABRIC_EN_LO (0), PIN_FABRIC_EN_HI (1) or PIN_PERIPH_EN (2). -/
def execPinOwnerChange (register : Fin 3) (value : Word) (s : State) : Res :=
  .next (regWrite (0x80100 + 4 * register.val) s (fun s => clkoutCheck (changeOwners (ownerWrite register value.toNat) s)))

/-- OWNER_HANDOVER_END (R497, R498, R502): with the level and output enable that the design presents on the pin's port. -/
def execOwnerHandoverEnd (pin : Fin 64) (level : Bool) (oe : Bool) (s : State) : Res :=
  .next (handoverEnd pin { level := level, oe := oe } s)

/-- PIN_INPUT_CHANGE (R492, R495, R496, R498, R499): levels at pins, and values (level, output enable) that the design presents on pin ports. -/
def execPinInputChange (levels : List (Fin 64 × Bool)) (ports : List (Fin 64 × Bool × Bool)) (s : State) : Res :=
  .next (pinChange ports levels s)

/-- DEBOUNCE_SETTLE (R499). -/
def execDebounceSettle (pin : Fin 64) (s : State) : Res := .next (debounceSettle pin s)

/-- MATCHER_ENABLE (R500): a write of `value` to PIN_MATCH_CFG of a matcher. -/
def execMatcherEnable (matcher : Fin 8) (value : Word) (s : State) : Res :=
  .next (regWrite (PIN_MATCH_CFG.enable.offset matcher 0) s (matcherConfig matcher value.toNat))

end Sys2Proof.Machine
end

