-- ==== Sys2Proof/Machine/Cells.lean ====
section
/-! DEFINITION. The logic fabric at work (R64 to R74, R82 to R87): cells, distributed memory, crossbars, clocks and reset networks, under the frames in
the active latches, hop cycle by hop cycle while no command waits. How a frame's bits spell modes and selects is not stated: the functions
`Config.cluster` to `Config.skySelect` give it (DESIGN CHOICE, log entry 145). -/

namespace Sys2Proof.Machine

/-! ## Configuration (R70) -/

/-- Frame `f` of a tile in the active latches; a tile that no context occupies holds zeros. -/
def tileFrame (s : State) (t f : Nat) : BitVec 1024 := sparseGet 0 s.ctxs.active (44 * t + f)

/-- The modes, options and L0 selects of a cluster; clusters are numbered 16 * tile + place in the tile. -/
def clusterConf (s : State) (cl : Nat) : ClusterConf := Config.cluster (tileFrame s (cl / 16) (16 + cl % 16))

def cellConf (s : State) (cl c : Nat) : CellConf := (clusterConf s cl).cells c

/-- The mask of cell `c` of a cluster: bits [64c + 63:64c] of its LUT frame (R69). -/
def lutMask (s : State) (cl c : Nat) : BitVec 64 := (tileFrame s (cl / 16) (cl % 16)).extractLsb' (64 * c) 64

/-- The 16 sky-route frames of a district, and the four frames of a tile's district outputs and entries. -/
def skyFrames (s : State) (d : Nat) : List (BitVec 1024) := (List.range 16).map (fun k => sparseGet 0 s.ctxs.active (225280 + 16 * d + k))
def edgeFrames (s : State) (t : Nat) : List (BitVec 1024) := (List.range 4).map (fun k => tileFrame s t (40 + k))

/-- Tile `i` of district `d` (R62); the 65th is the spare, which answers for the tile that it has taken (R63). -/
def districtTile (s : State) (d i : Nat) : Option Nat :=
  if i < 64 then some ((d / 8 * 8 + i / 8) * 64 + d % 8 * 8 + i % 8)
  else if (district s d).spareUsed then some (district s d).spareTile else none

/-! ## Wires (R64, R71 to R74, R87) -/

/-- A wire of the fabric: a cell's outputs O6, O5, QA, QB (0 to 3), an L0 output of a cluster (0 to 127 the cells' inputs A1 to A6, BX, BY; 128 up the
controls CE0, CE1, SR0, SR1, WE, WA[5:0], WCK0, WCK1, WAR0, WAR1), a cluster's and a tile's entries, a tile's outputs and district outputs, sky
outputs and entries, an input of an L2 crossbar, an input of the ports homed on a district, and an input of port A of a memory block. -/
inductive Node where
  | cell (cl c k : Nat)
  | pin (cl n : Nat)
  | clusterEntry (cl e : Nat)
  | tileOut (t n : Nat)
  | tileEntry (t e : Nat)
  | districtOut (d n : Nat)
  | skyOut (d n : Nat)
  | skyEntry (d e : Nat)
  | l2 (d code : Nat)
  | portIn (d w : Nat)
  | portA (b w : Nat)
  deriving DecidableEq, Repr

/-- Flip-flop `k` (0 FFA, 1 FFB) of a cell, at its place in the word of its tile (R315). -/
def ffBit (s : State) (cl c k : Nat) : Bool := (sparseGet 0 s.ctxs.ffs (cl / 16)).getLsbD (32 * (cl % 16) + 2 * c + k)

/-- The data wires that the ports homed on district `d` give it, in the order of R87: of 16 DSP tiles the two stream-outs; of four NoC ports 512 each,
of the fronthaul stream port 256, and of eight pin ports one each (R411). -/
def portWidth (d : Nat) : Nat := if d < 64 then 4096 else if d < 72 then 2304 else 2312

/-- DSP tile `i` of the 16 homed on district `d` (R87), by index (R120). -/
def homedTile (d i : Nat) : Nat := 64 * (2 * (d % 8) + i / 8) + 8 * (d / 8) + i % 8

/-- The entry that stands on a stream-out port of a DSP tile, and the data on port A of a block: what was delivered there last. -/
def streamStands (s : State) (tile port : Nat) : Option (BitVec 128) :=
  s.outbox.foldl (fun a o => match o with | .tileStream t p k data => if t = tile ∧ p = port ∧ k ≤ s.now then some data else a | _ => a) none
def portAStands (s : State) (b : Nat) : Option (BitVec 64) :=
  s.outbox.foldl (fun a o => match o with | .portData k t data _ => if k = b ∧ t ≤ s.now then some data else a | _ => a) none

/-- The level that the ports homed on district `d` give the fabric on wire `w`: stream-out data, the debounced level of a pin (R86, R87, R495), and
of the rest what comes from outside the fabric (log entry 145); 0 where no port has such a wire (R73). -/
def portLevel (s : State) (d w : Nat) : Bool :=
  let outside := Config.portWire d w (nowHc s)
  if portWidth d + Config.portSignals d ≤ w then false
  else if d < 64 ∧ w < 4096 then
    match streamStands s (homedTile d (w / 256)) (w / 128 % 2) with
    | some x => x.getLsbD (w % 128)
    | none => outside
  else if 2304 ≤ w ∧ w < portWidth d then let n := 8 * (d - 72) + (w - 2304); bit (s.rd PIN_IN.level (n / 32)) (n % 32)
  else outside

/-- The level on output wire `w` of port A of block `b`: its data, wires 0 to 63, and its signals. -/
def portALevel (s : State) (b w : Nat) : Bool :=
  match portAStands s b with
  | some x => if w < 64 then x.getLsbD w else Config.verticalWire b w (nowHc s)
  | none => Config.verticalWire b w (nowHc s)

/-- The LUT gives two functions of five inputs: in split mode, and in the organisations that read two bits at an address (R64, R67). -/
def twoBits : LutMode → Bool
  | .split | .cell32 | .cluster32 => true
  | _ => false

/-- Tile `i` of memory group `g` (R89): 320 tiles, row by row, then the spares of its five districts. -/
def groupTile (s : State) (g i : Nat) : Option Nat :=
  if i < 320 then some ((40 * (g / 8) + i / 8) * 64 + 8 * (g % 8) + i % 8) else if i < 325 then districtTile s (8 * (5 * (g / 8) + i - 320) + g % 8) 64 else none

/-- The cell output that a select of port A names: 1,024 to a tile of the block's group. -/
def verticalCell (s : State) (b w : Nat) : Option Node :=
  let code := Config.verticalSelect (sparseGet 0 s.ctxs.active (225280 + 2304 + b / 8)) (b % 8) w
  (groupTile s (b / 256) (code / 1024)).map (fun t => .cell (16 * t + code / 64 % 16) (code / 4 % 16) (code % 4))

/-- The level of a wire, through at most `n` stages of logic and routing; where a loop without a flip-flop goes on for ever it is a free value. A
select code that names no input gives 0 (R73). -/
def net (s : State) : Nat → Node → Bool
  | 0, _ => Config.loopLevel (nowHc s)
  | n + 1, .cell cl c k =>
    if k = 2 ∨ k = 3 then ffBit s cl c (k - 2)
    else
      let a := (List.range 5).foldl (fun a i => a + b2n (net s n (.pin cl (8 * c + i))) * 2 ^ i) 0
      let m := lutMask s cl c
      if k = 1 then m.getLsbD a
      else if twoBits (cellConf s cl c).mode then m.getLsbD (32 + a)
      else m.getLsbD (a + 32 * b2n (net s n (.pin cl (8 * c + 5))))
  | n + 1, .pin cl i =>
    match (clusterConf s cl).vertical i with
    | some (b, w) => portALevel s b.val w
    | none =>
      let code := (clusterConf s cl).l0 i
      if code < 64 then net s n (.cell cl (code / 4) (code % 4)) else if code < 88 then net s n (.clusterEntry cl (code - 64)) else false
  | n + 1, .clusterEntry cl e =>
    let t := cl / 16
    let code := Config.l1Select (tileFrame s t (32 + cl % 16 / 2)) (24 * (cl % 2) + e)
    if code < 512 then net s n (.tileOut t code) else if code < 576 then net s n (.tileEntry t (code - 512)) else false
  | n + 1, .tileOut t i =>
    let cl := 16 * t + i / 32
    let c := i / 2 % 16
    net s n (.cell cl c (if i % 2 = 0 then (cellConf s cl c).out0.val else (cellConf s cl c).out1.val))
  | n + 1, .tileEntry t e => net s n (.l2 (tileDistrict t) (Config.tileEntry (edgeFrames s t) e))
  | n + 1, .districtOut d i =>
    match districtTile s d (i / 64) with
    | some t => let code := Config.districtOut (edgeFrames s t) (i % 64); if code < 512 then net s n (.tileOut t code) else false
    | none => false
  | n + 1, .skyOut d i => net s n (.l2 d (Config.skyOutput (skyFrames s d) i))
  | n + 1, .skyEntry d e =>
    if !dieOpen s 3 then false
    else
      let code := Config.skySelect (skyFrames s d) e
      if code < 20480 then net s n (.skyOut (code / 256) (code % 256)) else false
  | n + 1, .l2 d code =>
    if code < 4160 then net s n (.districtOut d code)
    else if code < 4416 then net s n (.skyEntry d (code - 4160))
    else portLevel s d (code - 4416)
  | n + 1, .portIn d w => net s n (.l2 d (Config.portSelect (skyFrames s d) w))
  | n + 1, .portA b w => match verticalCell s b w with | some x => net s n x | none => false

/-- More than the wires that a path without a loop can pass. -/
def wires : Nat := 2 ^ 28

def level (s : State) (x : Node) : Bool := net s wires x

/-- Input `i` (A1 to A6, BX, BY) of a cell, and control `k` of a cluster. -/
def cellIn (s : State) (cl c i : Nat) : Bool := level s (.pin cl (8 * c + i))
def control (s : State) (cl k : Nat) : Bool := level s (.pin cl (128 + k))

/-! ## Clocks and resets (R82 to R86) -/

/-- What happens in one instant: the global channels that rise, the wire clocks that rise, by cluster, and those of them that break R83. -/
structure Edges where
  channel : Nat → Bool
  wire : Nat → Nat → Bool
  broken : Nat → Nat → Bool

/-- The edge of channel `c` that falls in hc `h`, counted from the swap grid (R82, R95); none while the channel stays low on its way to a new
source (R441). -/
def channelEdge (s : State) (c h : Nat) : Option Nat :=
  let p := channelHc s c
  let k := s.rd CLK_GCH_SEL.source c
  if h < sparseGet 0 s.ctxs.chanFrom c then none
  else if p ≠ 0 then (if h % p = 0 then some (h / p) else none)
  else if 8 ≤ k ∧ s.rdb CLK_UPLL_STATUS.locked (k - 8) then
    let n := pllEdges s (k - 8) (hcs s h)
    if n < pllEdges s (k - 8) (hcs s (h + 1)) then some (n + 1) else none
  else none

/-- A throttle step removes edge `n` of a channel (R486). -/
def edgeRemoved (step n : Nat) : Bool := step != 0 && keptHc step n != n

/-- Channel `c` rises in the present hc: its edge is not removed by the step that was enforced at the start of its group of 8. One that falls on a swap edge never is, and the next is removed in its place. -/
def channelRises (s : State) (c : Nat) : Bool :=
  let p := channelHc s c
  let step (n : Nat) : Nat := if p = 0 then throttleStep s else throttleAt s (n / 8 * 8 * p * hcTicks s)
  let swapAt (h : Nat) : Bool := s.ctxs.lastSwap.any (fun t => t / hcTicks s == h)
  match channelEdge s c (nowHc s) with
  | none => false
  | some n =>
    let after := p != 0 && swapAt (nowHc s - p) && edgeRemoved (step (n - 1)) (n - 1)
    swapAt (nowHc s) || !(edgeRemoved (step n) n || after)

/-- Global reset network `k` is asserted (R86). -/
def networkOn (s : State) (k : Nat) : Bool :=
  match sparseFind s.ctxs.ports.resets k with
  | none => false
  | some .die => !dieOpen s 2
  | some (.pin n) => bit (s.rd PIN_IN.level (n.val / 32)) (n.val % 32)
  | some (.wire n) => level s (.l2 (n / 2 ^ 16) (n % 2 ^ 16))

/-- The clock that a cluster's cells may take: CLKA, CLKB, WCK0 or WCK1; it rises. -/
def clockRises (s : State) (e : Edges) (cl clk : Nat) : Bool :=
  let k := clusterConf s cl
  if clk = 0 then e.channel k.clkA.val else if clk = 1 then e.channel k.clkB.val else e.wire cl (clk - 2)

/-- The reset of the cluster's choice `r` of two networks as its flip-flops on clock `clk` see it: asserted at once, released by the clock (R86). -/
def resetSeen (s : State) (cl r clk : Nat) : Bool :=
  networkOn s (if r = 0 then (clusterConf s cl).reset0.val else (clusterConf s cl).reset1.val) ||
    (sparseGet 0 s.ctxs.resetSync cl).getLsbD (4 * r + clk)

/-- The release stages of a cluster after the instant. -/
def resetNext (s : State) (e : Edges) (cl : Nat) : BitVec 8 :=
  BitVec.ofNat 8 ((List.range 8).foldl (fun a i =>
    let on := networkOn s (if i / 4 = 0 then (clusterConf s cl).reset0.val else (clusterConf s cl).reset1.val)
    let held := (sparseGet 0 s.ctxs.resetSync cl).getLsbD i
    a + b2n (on || (held && !clockRises s e cl (i % 4))) * 2 ^ i) 0)

/-- The asynchronous reset of a flip-flop. -/
def asyncReset (s : State) (cl clk : Nat) : ResetPick → Bool
  | .none => false
  | .network r => resetSeen s cl r.val clk
  | .wire k => control s cl (13 + k.val)

/-! ## Setup (R75 to R78, R82) -/

/-- Ticks from an edge of channel `a` to the next edge of channel `b` at the closest, where the two are timed together: divisions of the hop clock, or
one channel of a user PLL (R76, R82). -/
def edgeGap (s : State) (a b : Nat) : Option Nat :=
  let p := channelHc s a
  let q := channelHc s b
  if p ≠ 0 ∧ q ≠ 0 then some (hcs s (Nat.gcd p q))
  else if a = b ∧ p = 0 then let r := pllRate s (s.rd CLK_GCH_SEL.source a - 8); if r.1 = 0 then none else some (r.2 / r.1)
  else none

/-- A path of `ps` from an edge of channel `a` meets setup to channel `b`: its table delays, derated by 3 %, and 8 ps of skew (R76). -/
def meets (s : State) (a b ps : Nat) : Bool := (edgeGap s a b).any (fun g => decide ((ps * 103 + 800) * 39 ≤ g * 100000))

/-- The channel of cluster `cl`'s clock `k`, CLKA or CLKB; a wire clock is on none. -/
def clockChannel (s : State) (cl k : Nat) : Option Nat :=
  if k = 0 then some (clusterConf s cl).clkA.val else if k = 1 then some (clusterConf s cl).clkB.val else none

/-- The global channel that times the fabric's side of the port on wire `w` of district `d` (R88). -/
def portChannel (s : State) (d w : Nat) : Option Nat :=
  if d < 64 then (if w < 4096 then sparseFind s.ctxs.ports.dsp (4 * homedTile d (w / 256) + 2 + w / 128 % 2) else none)
  else if w < 2048 then sparseFind s.noc.bound (4 * (d - 64) + w / 512)
  else if w < 2304 then sparseFind s.fh.bound (d - 64)
  else if w < portWidth d then sparseFind s.pins.bound (8 * (d - 72) + (w - 2304))
  else none

/-- Every path into a wire, with `ps` from there to the capture on channel `b`, meets setup: it starts at a flip-flop, a memory or a port on a channel
that is timed with `b`, its delays are those of R75, and every district that it touches is locked (R76 to R78). `n` bounds the stages, as in `net`. -/
def pathsMeet (s : State) (b : Nat) : Nat → Nat → Node → Bool
  | 0, _, _ => false
  | n + 1, ps, .cell cl c k =>
    let x := cellConf s cl c
    let starts (clk d : Nat) : Bool := (clockChannel s cl clk).any (fun a => meets s a b (ps + 35 + d))
    s.rdb THM_DLOCK_DISTRICT.locked (tileDistrict (cl / 16)) &&
      (if k = 2 ∨ k = 3 then starts x.clock.val 0
      else
        let two := k == 1 || twoBits x.mode
        let d := if two then 70 else 85
        (x.mode == .lut6 || x.mode == .split || starts 0 85) &&
          (List.range (if two then 5 else 6)).all (fun i => pathsMeet s b n (ps + d) (.pin cl (8 * c + i))))
  | n + 1, ps, .pin cl i =>
    match (clusterConf s cl).vertical i with
    | some (k, _) => (sparseFind s.ctxs.ports.memory k.val).any (fun x => meets s x.2 b (ps + 140))
    | none =>
      let code := (clusterConf s cl).l0 i
      if code < 64 then pathsMeet s b n (ps + 55) (.cell cl (code / 4) (code % 4))
      else if code < 88 then pathsMeet s b n ps (.clusterEntry cl (code - 64)) else true
  | n + 1, ps, .clusterEntry cl e =>
    let t := cl / 16
    let code := Config.l1Select (tileFrame s t (32 + cl % 16 / 2)) (24 * (cl % 2) + e)
    if code < 512 then pathsMeet s b n (ps + 105) (.tileOut t code)
    else if code < 576 then pathsMeet s b n ps (.tileEntry t (code - 512)) else true
  | n + 1, ps, .tileOut t i =>
    let cl := 16 * t + i / 32
    let c := i / 2 % 16
    pathsMeet s b n ps (.cell cl c (if i % 2 = 0 then (cellConf s cl c).out0.val else (cellConf s cl c).out1.val))
  | n + 1, ps, .tileEntry t e => pathsMeet s b n ps (.l2 (tileDistrict t) (Config.tileEntry (edgeFrames s t) e))
  | n + 1, ps, .districtOut d i =>
    match districtTile s d (i / 64) with
    | some t =>
      let code := Config.districtOut (edgeFrames s t) (i % 64)
      if code < 512 then pathsMeet s b n ps (.tileOut t code) else true
    | none => true
  | n + 1, ps, .skyOut d i =>
    let code := Config.skyOutput (skyFrames s d) i
    if code < 4160 then pathsMeet s b n ps (.districtOut d code)
    else if code < 4416 then pathsMeet s b n ps (.skyEntry d (code - 4160))
    else (portChannel s d (code - 4416)).any (fun a => meets s a b ps)
  | n + 1, ps, .skyEntry d e =>
    if !dieOpen s 3 then true
    else
      let code := Config.skySelect (skyFrames s d) e
      if code < 20480 then pathsMeet s b n (ps + 410) (.skyOut (code / 256) (code % 256)) else true
  | n + 1, ps, .l2 d code =>
    if code < 4160 then pathsMeet s b n (ps + 180) (.districtOut d code)
    else if code < 4416 then pathsMeet s b n ps (.skyEntry d (code - 4160))
    else (portChannel s d (code - 4416)).any (fun a => meets s a b (ps + 180))
  | n + 1, ps, .portIn d w => pathsMeet s b n ps (.l2 d (Config.portSelect (skyFrames s d) w))
  | n + 1, ps, .portA k w => match verticalCell s k w with | some x => pathsMeet s b n (ps + 140) x | none => true

/-- What cluster `cl` captures from a wire on its clock `clk` has guaranteed setup, 20 ps (R76). A wire clock is outside the delay model (R85): what
it captures is taken settled (DESIGN CHOICE, log entry 182). -/
def setupMet (s : State) (cl clk : Nat) (x : Node) : Bool :=
  match clockChannel s cl clk with
  | some b => s.rdb THM_DLOCK_DISTRICT.locked (tileDistrict (cl / 16)) && pathsMeet s b wires 20 x
  | none => true

/-- A capture on a user-PLL channel within 1 ns after a swap edge may see a mixture of the two contexts' logic (R96). -/
def mixing (s : State) (cl clk : Nat) : Bool :=
  (clockChannel s cl clk).any (fun c => channelHc s c == 0) &&
    s.ctxs.lastSwap.any (fun t => decide (t ≤ s.now) && decide (s.now < t + 39 + hcTicks s))

/-- The control of a cluster under the context that the last swap took out. -/
def controlWas (s : State) (cl k : Nat) : Bool := control { s with ctxs := { s.ctxs with active := s.ctxs.staged } } cl k

/-- The next value of flip-flop `k` of a cell (R65). One that a broken wire clock clocks takes a free value (R83), and so does one that captures in a
mixture of two contexts that does not hold it (R96), or over a path without guaranteed setup, whose result is the design's risk (R78). -/
def ffNext (s : State) (e : Edges) (cl c k : Nat) : Bool :=
  let x := cellConf s cl c
  let f := if k = 0 then x.ffa else x.ffb
  let clk := x.clock.val
  let free := Config.free 1 (s.free + 32 * cl + 2 * c + k) == 1#1
  let d : Node := if f.d = 2 then .pin cl (8 * c + 6 + k) else .cell cl c f.d.val
  let controls : List Node := (f.sr.toList.map (fun n => Node.pin cl (130 + n.val))) ++ f.ce.toList.map (fun n => Node.pin cl (128 + n.val))
  let held := f.ce.any (fun n => !control s cl n.val && !controlWas s cl n.val) && !f.sr.any (fun n => control s cl (2 + n.val) || controlWas s cl (2 + n.val))
  if asyncReset s cl clk f.areset then f.resetValue
  else if 2 ≤ clk ∧ e.broken cl (clk - 2) then free
  else if !clockRises s e cl clk then ffBit s cl c k
  else if mixing s cl clk then (if held then ffBit s cl c k else free)
  else if !controls.all (setupMet s cl clk) then free
  else if f.sr.any (fun n => control s cl (2 + n.val)) then f.resetValue
  else if f.ce.any (fun n => !control s cl n.val) then ffBit s cl c k
  else if setupMet s cl clk d then level s d
  else free

/-! ## Distributed memory (R67 to R69) -/

/-- The bits that a write in memory mode sets in a cell's mask, with their values: CLKA has risen and WE is 1. -/
def cellWrites (s : State) (cl c : Nat) : List (Nat × Bool) :=
  let own (n : Nat) : Nat := (List.range n).foldl (fun a i => a + b2n (cellIn s cl c i) * 2 ^ i) 0
  let wa (n : Nat) : Nat := (List.range n).foldl (fun a i => a + b2n (control s cl (5 + i)) * 2 ^ i) 0
  let bx := cellIn s cl c 6
  let by_ := cellIn s cl c 7
  match (cellConf s cl c).mode with
  | .lut6 | .split => []
  | .cell64 => [(own 6, bx)]
  | .cell32 => [(own 5, bx), (32 + own 5, by_)]
  | .cluster64 => [(wa 6, bx)]
  | .cluster32 => [(wa 5, bx), (32 + wa 5, by_)]

/-- A write of cell `c` has guaranteed setup to the edge: its address, its data and WE (R68, R76). -/
def writeMeets (s : State) (cl c : Nat) : Bool :=
  let own (n : Nat) : List Node := (List.range n).map (fun i => .pin cl (8 * c + i))
  let wa (n : Nat) : List Node := (List.range n).map (fun i => .pin cl (133 + i))
  let bx : Node := .pin cl (8 * c + 6)
  let by_ : Node := .pin cl (8 * c + 7)
  let from_ := match (cellConf s cl c).mode with
    | .lut6 | .split => []
    | .cell64 => bx :: own 6
    | .cell32 => bx :: by_ :: own 5
    | .cluster64 => bx :: wa 6
    | .cluster32 => bx :: by_ :: wa 5
  !mixing s cl 0 && (Node.pin cl 132 :: from_).all (setupMet s cl 0)

/-- The cells of a cluster in memory mode write in the instant: CLKA has risen and WE is 1, or fails setup and may be. -/
def writesNow (s : State) (e : Edges) (cl : Nat) : Bool :=
  e.channel (clusterConf s cl).clkA.val && (control s cl 4 || mixing s cl 0 || !setupMet s cl 0 (.pin cl 132))

/-- The LUT frame of a cluster after the instant: the addressed bits of a write that fails setup are undefined, every other bit stands (R68). -/
def lutNext (s : State) (e : Edges) (cl : Nat) : BitVec 1024 :=
  let f := tileFrame s (cl / 16) (cl % 16)
  BitVec.ofNat 1024 ((List.range 16).foldl (fun f c =>
    if !writesNow s e cl then f
    else (cellWrites s cl c).foldl (fun (f : Nat) (w : Nat × Bool) =>
      let i := 64 * c + w.1
      let v := if writeMeets s cl c then w.2 else Config.free 1 (s.free + 2 ^ 22 + 1024 * cl + i) == 1#1
      if f.testBit i == v then f else f ^^^ 2 ^ i) f) f.toNat)

/-- The cluster writes its distributed memory in the instant. -/
def lutWritten (s : State) (e : Edges) (cl : Nat) : Bool :=
  writesNow s e cl && (List.range 16).any (fun c => !(cellWrites s cl c).isEmpty)

/-! ## An instant, and a hop cycle -/

/-- The clusters of the fabric. -/
def clusters : List Nat := List.range 81920

/-- Every flip-flop, mask and release stage takes its next value, all computed from the state before (R65, R67, R69). -/
def instant (s : State) (e : Edges) : State :=
  let ffs := (List.range 5120).foldl (fun m t =>
    sparseSet 0 m t (BitVec.ofNat 512 ((List.range 512).foldl (fun a i => a + b2n (ffNext s e (16 * t + i / 32) (i / 2 % 16) (i % 2)) * 2 ^ i) 0))) s.ctxs.ffs
  let written := clusters.filter (lutWritten s e)
  let at_ (cl : Nat) : Nat := 44 * (cl / 16) + cl % 16
  { s with
    free := s.free + 2 ^ 27
    ctxs := { s.ctxs with
      ffs := ffs
      active := written.foldl (fun m cl => sparseSet 0 m (at_ cl) (lutNext s e cl)) s.ctxs.active
      dirty := written.foldl (fun l cl => if l.contains (at_ cl) then l else l ++ [at_ cl]) s.ctxs.dirty
      resetSync := clusters.foldl (fun m cl => sparseSet 0 m cl (resetNext s e cl)) s.ctxs.resetSync } }

/-- Wire clock `i` as it was, and its level now. -/
def wireWas (s : State) (i : Nat) : WireClock := sparseGet {} s.ctxs.wck i
def wireNow (s : State) (i : Nat) : Bool := control s (i / 2) (11 + i % 2)

/-- What the change of wire clock `i` in this hc breaks (R83): a rise less than 2 hc after the last is faster than 1.5 GHz, and two changes in one hc
make a phase shorter than 300 ps. -/
def wireBreaks (s : State) (i : Nat) : Bool :=
  let w := wireWas s i
  if wireNow s i then w.rose.any (fun h => decide (nowHc s < h + 2)) || w.fell.any (fun h => decide (nowHc s ≤ h))
  else w.rose.any (fun h => decide (nowHc s ≤ h))

/-- The wire clocks that have changed since they were last looked at. -/
def wireEdges (s : State) : Edges :=
  let changed (i : Nat) : Bool := wireNow s i != (wireWas s i).level
  { channel := fun _ => false, wire := fun cl k => changed (2 * cl + k) && wireNow s (2 * cl + k),
    broken := fun cl k => changed (2 * cl + k) && wireBreaks s (2 * cl + k) }

/-- The wire clocks that have changed act, and those that they move in turn; `n` bounds the turns. -/
def ripple : Nat → State → State
  | 0, s => s
  | n + 1, s =>
    let changed := (List.range 163840).filter (fun i => wireNow s i != (wireWas s i).level)
    if changed.isEmpty then s
    else
      let note (w : WireClock) (b : Bool) : WireClock :=
        if b then { w with level := true, rose := some (nowHc s) } else { w with level := false, fell := some (nowHc s) }
      let t := instant s (wireEdges s)
      ripple n { t with ctxs := { t.ctxs with wck := changed.foldl (fun m i => sparsePut m i (note (wireWas s i) (wireNow s i))) t.ctxs.wck } }

/-- The wires of a pin port into the fabric's district: its level and its output enable, after the data of the other ports homed there (R87). -/
def pinPortWires (n : Nat) : Node × Node := (.portIn (72 + n / 8) (2304 + n % 8), .portIn (72 + n / 8) (2312 + n % 8))

/-- On an edge of the pin clock in the hop cycle that ends now, every bound pin port takes what the design presents on it (R87, R496). -/
def presentPins (s : State) : State :=
  if (s.now - 1) / pinCycle = (s.now - 1 - hcTicks s) / pinCycle then s
  else (List.range 64).foldl (fun t n =>
    if (sparseFind s.pins.bound n).isSome then takePort t n { level := level s (pinPortWires n).1, oe := level s (pinPortWires n).2 } else t) s

/-- The fabric in the hop cycle that ends now: what wires from outside have clocked, the edges of the global channels, then the wire clocks that these
move, and what it presents to the pins. It stands still while no context is active or the logic die is shut. -/
def fabricTick (s : State) : State :=
  if !dieOpen s 2 ∨ (activeCtx s).isNone then s
  else
    let s := ripple 64 s
    let rises := channelRises s
    presentPins (ripple 64 (instant s { channel := rises, wire := fun _ _ => false, broken := fun _ _ => false }))

/-- One hop cycle passes with no command: time and the time counter advance, the write queues drain as their rules say (R233), and the fabric is
clocked. -/
def idle (s : State) : State := fabricTick (drainTick (drainTick (advance s (hcTicks s)) 0) 1)

end Sys2Proof.Machine
end

