-- ==== Sys2Proof/Machine/Access.lean ====
section
/-! DEFINITION. Reads that a unit makes within one step: the user-state word at a symbol boundary (R525), and the Porter's read for an injection
(R555). Each acts on its target under the rules of the address map (R30 to R33) and of encryption (R254), and is counted (R221). -/

namespace Sys2Proof.Machine

/-- A read of `n` bytes within one line of a target, whose check code finds `f.word` in the word or `f.line` in the line: status and bytes. -/
def readLineOf (s : State) (r : NocReq) (n : Nat) (f : AccessFind) : (Nat × List Byte) × State :=
  let o := r.pa % 64
  match targetOf (locOf r.pa) with
  | .block _ =>
    if !dieOpen s 1 then ((Status.dieReset.code, []), s)
    else
      let v := readWords (settleMem s) (r.pa - o % 8) 1 r.init [f.word]
      ((if v.1.2 then Status.poisoned.code else 0, slice (leBytes 8 v.1.1) (o % 8) n), v.2)
  | .tile _ =>
    if !dieOpen s 2 then ((Status.dieReset.code, []), s)
    else
      let p := xyPlace (r.pa - o % 16) 0
      let x := tileOf s p.1
      ((0, slice (leBytes 16 (xyRead (if p.2.1 then x.y else x.x) p.2.2)) (o % 16) n), s)
  | .dram =>
    let c := ctrlOfLoc s (locOf r.pa)
    let st := s.rd DRC_STATUS.state c
    if resolve s r (locOf r.pa) = .deny then ((Status.accessDenied.code, []), logDenial s r.pa r.init)
    else if st = drOffline then ((Status.accessDenied.code, []), s)
    else if st ≠ drActive then ((Status.dieReset.code, []), s)
    else
      let v := readLine (settleLine s c (locOf r.pa / 64) s.now) (locOf r.pa / 64) f.line r.pa r.init s.now
      ((if v.1.poison then Status.poisoned.code else 0, slice (leBytes 64 v.1.data.toNat) o n), v.2)
  | _ => ((Status.accessDenied.code, []), s)

/-- Latency in hc of such a read in an empty network (R129, R182, R205); of DRAM it is within 195 hc at the controller
(R246), and free. -/
def readNowHc (s : State) (r : NocReq) : Nat × State :=
  match targetOf (locOf r.pa) with
  | .dram => let f := s.fresh 16; (quietHc s r (f.1.toNat % 196), f.2)
  | .block _ => (quietHc s r 11, s)
  | _ => (quietHc s r 4, s)

/-- What the network makes of a request with status `st` and its bytes (R215 to R217). A poisoned data flit, a header that loses half 0 and a sum that
fails end it POISONED; a header that loses both halves lets it time out. -/
def throughNet (s : State) (r : NocReq) (f : AccessFind) (st : Nat) (l : List Byte) : (Nat × List Byte) × State :=
  let s := if f.corrected = 0 then s else s.inc NOC_ERR_COUNTS.corrected f.corrected
  let t := wayCounts s r.init r.issued f.way
  match f.way with
  | .ok => ((st, l), t)
  | .data | .sum => ((worseStatus st Status.poisoned.code, l), t)
  | .header | .dropped => ((Status.poisoned.code, l.map (fun _ => 0)), t)

/-- A read within one step: its status, its bytes, and the state. -/
def readNow (s : State) (init pa n : Nat) (f : AccessFind) : (Nat × List Byte) × State :=
  let r : NocReq :=
    { init := init, tag := 0, owner := .fabric, qos := initClass s init, write := false, pa := pa, kidValid := false, kid := 0, len := 1,
      be := BitVec.allOnes 64, data := [], issued := s.now }
  if refusedByMap s r then
    ((Status.accessDenied.code, []), countReq (nocLogDeny s r.pa r.init) r (histBin (quietHc s r 0)) Status.accessDenied.code)
  else
    let performs := f.way != .header && f.way != .dropped
    let out := if performs then readLineOf s r n f else ((0, List.replicate n 0), s)
    let h := readNowHc out.2 r
    let v := throughNet h.2 r f out.1.1 out.1.2
    (v.1, countReq v.2 r (if f.way = .dropped then 15 else histBin h.1) v.1.1)

end Sys2Proof.Machine
end

