-- ==== Sys2Proof/Machine/Pair.lean ====
section
/-! DEFINITION. The Bolryn Link and pair operation (chapter 21), the pair commands (R390 to R393), and the steps of a load and of the timing
engine that a pair takes part in. -/

namespace Sys2Proof.Machine

/-! ## The link (R505, R508 to R512) -/

/-- Link states of R508. -/
def lkOff : Nat := 0
def lkDetect : Nat := 1
def lkTrain : Nat := 2
def lkLock : Nat := 3
def lkExchange : Nat := 4
def lkActive : Nat := 5

def linkState (s : State) : Nat := s.rd PRL_STATUS.link_state

/-- A command that waits for its partner ends with the link (R390, R393, R518). -/
def linkCommandsEnd (s : State) : State :=
  let t := match s.pair.forming with
    | some f => finish (endTransition { s with pair := { s.pair with forming := none } }) f.id .pairLinkDown
    | none => s
  match t.pair.prepared with
  | some p => if p.own && p.partner then t else finish (unprepare (dropRead t p.id)) p.id .pairLinkDown
  | none => t

/-- The link takes a state; leaving ACTIVE takes every lane out of use. -/
def linkTo (s : State) (st : Nat) : State :=
  let t := { s.wr PRL_STATUS.link_state st with pair := { s.pair with since := s.now, widthAt := none, readapt := [] } }
  if linkState s ≠ lkActive then t
  else
    let t := (List.range 8).foldl (fun t n => cutScan t 2 n) (linkCommandsEnd t)
    settleLanes s (((t.wr PRL_STATUS.width 0).wr PRL_STATUS.tx_sleep 0).wr PRL_STATUS.rx_sleep 0)

/-- After a change of its usable lanes: an ACTIVE link falls back to DETECT below two lane pairs, or announces its new width (R508, R509). -/
def linkLanes (s : State) : State :=
  if linkState s ≠ lkActive then s
  else
    let w := linkWidth s
    if w = 0 then linkTo s lkDetect
    else if w = s.rd PRL_STATUS.width then s
    else
      let tr := (s.pair.txTrain + 4) % 2 ^ 32
      sendControl { s with pair := { s.pair with widthAt := some (w, tr) } } (.width w tr)

/-- A write of PRL_CFG (R513, R536). -/
def linkEnable (v : Word) (s : State) : State :=
  let n := v.toNat
  let t := (s.wrb PRL_CFG.lead_yield (n.testBit 1)).wrb PRL_CFG.takeover_on_lane (n.testBit 2)
  if s.rd DEV_MODE.mode = modeLead ∨ s.rd DEV_MODE.mode = modeShadow then t
  else
    let t := t.wr PRL_CFG.partner_timeout_s (bits n 8 8)
    if s.rdb PRL_CFG.enable == n.testBit 0 then t
    else if !n.testBit 0 then linkTo (t.wr PRL_CFG.enable 0) lkOff
    else if !gridOk t then t.wr PRL_STATUS.cfg_error 1
    else linkTo (t.wr PRL_CFG.enable 1) lkDetect

/-- The link is enabled, its domain runs, and no intrusive test loops its lanes back (R553). -/
def linkRuns (s : State) : Bool := s.rdb PRL_CFG.enable && s.boot.coreUp && s.boot.d0 == .idle && s.safe.intrusive.isNone

/-- The present stage of the link ends well; `partner` is the width that the partner can use. A shadow that is to resynchronise says so once the
link is ACTIVE again (R534). -/
def linkStage (partner : Nat) (s : State) : State :=
  let st := linkState s
  if !linkRuns s ∨ linkWidth s = 0 ∨ st = lkOff ∨ st = lkActive then s
  else if st ≠ lkExchange then linkTo s (st + 1)
  else
    let w := min (linkWidth s) (if partner < 6 then 4 else if partner < 8 then 6 else 8)
    let t := settleLanes s ((linkTo s lkActive).wr PRL_STATUS.width w)
    let t := { t with pair := { t.pair with lastBlock := t.now, heartbeat := true, lastData := t.now } }.wr PRL_STATUS.partner_present 1
    if t.rd DEV_MODE.mode = modeShadow ∧ t.pair.copying then sendControl t .resync else t

/-- TRAIN, LOCK or EXCHANGE has not ended within its time. -/
def linkTimeout (s : State) : State :=
  let st := linkState s
  let lim := if st = lkTrain then 10 * msTicks else if st = lkLock then 2 * msTicks else msTicks
  if st = lkTrain ∨ st = lkLock ∨ st = lkExchange then linkTo (advanceTo s (s.pair.since + lim)) lkDetect else s

/-- A Bolryn lane is dropped until the next warm or cold reset (R509). -/
def dropBolryn (s : State) (n : Nat) : State :=
  if bit (s.rd PRL_STATUS.dropped) n then s
  else
    let t := cutScan (s.wrBit PRL_STATUS.dropped n true) 2 n
    setDegraded (fault t .laneDropped (0x200 + n) 0 (die := 0) (degraded := true)) dgBolryn true

/-- The end of a counting window with `codewords` uncorrectable codewords on lane `n` (R509). -/
def bolrynErrors (n codewords : Nat) (s : State) : State :=
  if linkState s ≠ lkActive ∨ codewords ≤ laneLimit s 3 then s
  else settleLanes s (linkLanes (dropBolryn s n))

/-- Lane `n` loses or regains its signal (R508, R512). -/
def bolrynSignal (n : Nat) (up : Bool) (s : State) : State :=
  settleLanes s (linkLanes { s with pair := { s.pair with down := sparseSet false s.pair.down n (!up) } })

/-- An announced width takes effect at its train (R509). -/
def widthChange (s : State) : State :=
  match s.pair.widthAt with
  | none => s
  | some (w, tr) =>
    let t := { s with pair := { s.pair with widthAt := none, txTrain := max s.pair.txTrain tr } }
    settleLanes s (t.wr PRL_STATUS.width w)

/-- The transmit direction has had nothing to send for 10 us (R510). -/
def directionSleep (s : State) : State :=
  if !pairActive s ∨ s.rdb PRL_STATUS.tx_sleep then s
  else sendControl ((advanceTo s (s.pair.lastData + 10 * usTicks)).wr PRL_STATUS.tx_sleep 1) .none

/-- The direction has woken for the data that waits (R510). -/
def directionWake (s : State) : State :=
  if !pairActive s ∨ s.pair.tx.isEmpty ∨ d0Fenced s then s
  else s.pair.tx.foldl putBlock ({ s with pair := { s.pair with tx := [] } }.wr PRL_STATUS.tx_sleep 0)

/-- A lane pair has readapted for 100 us, or failed to (R511). -/
def bandReadapt (ok : Bool) (s : State) : State :=
  match s.pair.readapt with
  | [] => s
  | k :: rest =>
    let s := advanceTo s (s.pair.readaptAt + 100 * usTicks)
    let t := { s with pair := { s.pair with readapt := rest, readaptAt := s.now } }
    if ok then settleLanes s (t.wr PRL_STATUS.width (linkWidth t))
    else settleLanes s (linkLanes (dropBolryn (dropBolryn t (2 * k)) (2 * k + 1)))

/-! ## Formation values (R517, R521) -/

/-- The word at PRL_UDIG; 0 disables its comparison (R525). -/
def udigPa (s : State) : Nat := s.rd PRL_UDIG_LO.pa_lo * 8 + s.rd PRL_UDIG_HI.pa_hi * 2 ^ 32

/-- The values that the devices compare; `command` holds the fields of PAIR_FORM. -/
def formValues (s : State) (command : Nat) : FormValues :=
  { rom := 0x0104, stepping := 0xB0, owner := ownerHash s,
    digests := (List.range 8).map (fun c => ((sparseFind s.imgs.ctx c).map (fun i => i.digest)).getD 0),
    schedule := BitVec.ofNat 512 (ofBytes (scheduleDigest s)),
    keys := BitVec.ofNat 64 ((List.range 64).foldl (fun a k => a + b2n (slotState s k != 0) * 2 ^ k) 0),
    command := command, grid := slotNs s + firstNs s * 2 ^ 24 + symNs s * 2 ^ 48 + udigPa s * 2 ^ 72,
    grade := if s.grade2 then 2 else 3 }

/-- The difference bits of R517: roles must be opposite, every other field equal. -/
def valueDiff (a b : FormValues) : Nat :=
  let low (v : FormValues) : Nat := v.command % 2 ^ 63
  let role (v : FormValues) : Bool := v.command.testBit 63
  b2n (a.rom != b.rom) + 2 * b2n (a.stepping != b.stepping) + 4 * b2n (a.owner != b.owner) + 8 * b2n (a.digests != b.digests) +
    16 * b2n (a.schedule != b.schedule) + 32 * b2n (a.keys != b.keys) + 64 * b2n (low a != low b || role a == role b) +
    128 * b2n (a.grid != b.grid) + 256 * b2n (a.grade != b.grade)

/-! ## Fitness (R519, R548) -/

/-- Every condition of R519, and no latched safe cause. -/
def fitNow (s : State) : Bool :=
  s.pair.synced && !s.pair.copying && !s.pair.far && s.pair.agrees && (List.range 10).all (fun b => decide (b < 3) || !causeSet s b)

/-- PRL_STATUS.fit of a shadow follows its conditions. -/
def updateFit (s : State) : State := if s.rd DEV_MODE.mode = modeShadow then s.wrb PRL_STATUS.fit (fitNow s) else s

/-- The values are compared again after a PAIR_COMMIT (R521). -/
def compareAgain (s : State) : State :=
  match s.pair.values, s.pair.heard, s.pair.compareAfter with
  | some a, some (b, _), true =>
    let ok := valueDiff a b == 0
    let t := { s with pair := { s.pair with compareAfter := false, heard := none, agrees := s.pair.agrees && ok } }
    updateFit (if ok then t else raiseEvent t evPair)
  | _, _, _ => s

/-! ## Boundaries (R513, R95) -/

/-- Time passes to counter value `c`; what falls there takes effect on the first swap-grid edge at or after it. -/
def toBoundary (s : State) (c : Nat) : State :=
  let t := advanceToCounter s c
  advanceTo t (gridEdge t t.now)

/-! ## PAIR_FORM (R390, R517, R518) -/

/-- The values of the two devices meet: a difference ends PAIR_FORM, or its commit point is the second frame boundary from now. -/
def formCompare (s : State) : State :=
  match s.pair.forming, s.pair.values, s.pair.heard with
  | some f, some a, some (b, at') =>
    if f.edge.isSome ∨ at' + secTicks < s.now then s
    else
      let d := valueDiff a b
      let t := { s with pair := { s.pair with heard := none } }
      if d = 0 then
        { t with pair := { t.pair with forming := some { f with edge := some (frameBoundary (counter s + 1) + 10000000 * 65536) } } }
      else finish (endTransition { t with pair := { t.pair with forming := none } }) f.id .pairMismatch 0 d
  | _, _, _ => s

/-- PAIR_FORM. -/
def pairForm (t : Track) (s : State) : State :=
  let role := t.par 0x10 1
  let rel := t.par 0x11 1
  if s.rd DEV_MODE.mode ≠ modeRun then finish s t.id .modeForbids
  else if 1 < role ∨ 1 < rel then finish s t.id .invalidField
  else if transitioning s then finish s t.id .busy
  else if !pairActive s then finish s t.id .pairLinkDown
  else if thermalLimit s then finish s t.id .thermalLimit
  else
    let v := formValues s (rel + t.par 0x12 1 * 2 + t.par 0x18 6 * 2 ^ 9 + role * 2 ^ 63)
    let tr : Transition := { dest := if role = 0 then modeLead else modeShadow, id := t.id, ctx := 0, since := s.now }
    let s1 := { s with
      pair := { s.pair with forming := some { id := t.id, role := role, since := s.now, edge := none }, values := some v },
      boot := { s.boot with transition := some tr } }
    formCompare (sendControl (s1.wr DEV_MODE.transition_busy 1) (.form v))

/-- The comparison units begin with the boundary on which a pair forms or changes roles. -/
def firstUnit (s : State) (ns : Nat) : State :=
  { s with pair := { s.pair with
    unit := 1, unitOpened := ns, unitBefore := ns, frames := [], closed := [], held := [], early := [], mismatch := none, ownReport := none,
    partnerReport := none, mirrors := [] } }

/-- The commit point of PAIR_FORM: both devices enter their roles, and the shadow begins a resynchronisation. -/
def formCommit (s : State) : State :=
  match s.pair.forming with
  | none => s
  | some f =>
    match f.edge, trackOf s f.id with
    | some e, some t =>
      let s := toBoundary s e
      let s := finishTime (endTransition (commit s f.id)) f.id .success e
      let s := { s with
        pair := { s.pair with forming := none, mac := t.par 0x18 6, overwrite := true, exchangeOk := (t.par 0x12 1).testBit 0, agrees := true,
                              far := false, synced := false, rounds := 0, offsets := [], averaged := s.now, tqRun := 0, lastExchange := none,
                              absentSince := none }
        tim := { s.tim with own := s.tim.eng } }
      let s := firstUnit (s.wr PRL_STATUS.release (t.par 0x11 1)) (e / 65536)
      let s := exitAllEi (setMode s (if f.role = 0 then modeLead else modeShadow))
      startResync (s.wr PRL_STATUS.fit 0)
    | _, _ => s

/-- No partner within 1 s (R517). -/
def formTimeout (s : State) : State :=
  match s.pair.forming with
  | some { id := id, edge := none, since := t0, .. } =>
    let s := advanceTo s (t0 + secTicks)
    finish (endTransition { s with pair := { s.pair with forming := none, heard := none } }) id .pairNotFormed
  | _ => s

/-! ## Takeover (R531, R532) -/

/-- A takeover is decided: the edge is the next symbol boundary, or an earlier one that is set already. -/
def decideTakeover (s : State) : State :=
  let e := nextSymbol s
  let next : Takeover := match s.pair.takeover with
    | some k => { k with edge := min k.edge e, own := true }
    | none => { id := none, edge := e, own := true }
  { s with pair := { s.pair with takeover := some next } }

/-- A self-fault report or heartbeat loss has reached the shadow. -/
def shadowActs (s : State) : State := if s.rdb PRL_STATUS.fit then decideTakeover s else leavePair s true

/-- The mirror window of a queue of the lead takes the place of the queue's own, with the later H (R531). -/
def adoptMirror (s : State) (p : Nat × Mirror) : State :=
  match globalQueue s (p.1 / 256) (p.1 % 256) with
  | none => s
  | some q =>
    match queueOf s q with
    | none => s
    | some x =>
      let h := if ahead p.2.h x.h then p.2.h else x.h
      setQueue s q { x with h := h, window := p.2.window.filter (fun w => inWindow w.seq h) }

/-- With no reference of its own, the engine of a new lead enters holdover (R456, R531). -/
def ownTime (s : State) : State :=
  let e := s.tim.eng
  if e.state = tmLocked ∧ (ownRef s).isNone then
    let e1 := loseRef s e
    let te := timeError s e1
    timeErrorCause (showTiming (setEng s e1) te) te
  else s

/-- On the takeover edge the shadow becomes lead: the mute of its mode cause lifts there (R531, R547). -/
def takeLead (s : State) (id : Option Nat) (edge : Nat) : State :=
  let s := match id with
    | some id => finishTime (commit s id) id .success edge
    | none => s
  let s := unprepare (endPairCommands s)
  let ms := s.pair.mirrors
  let s := setMode (exitAllEi s) modeLead
  let s := ms.foldl adoptMirror (liftIfClear s)
  let p := s.pair
  let s := { s with pair := { p.linkOnly with
    overwrite := true, exchangeOk := p.exchangeOk, values := p.values, agrees := p.agrees, absentSince := some s.now, unit := p.unit,
    unitOpened := p.unitOpened, unitBefore := p.unitBefore, takeovers := p.takeovers + 1, lastEdge := edge / 65536 } }
  let s := ((s.wr PRL_STATUS.fit 0).wr PRL_STATUS.resync 0).wr PRL_STATUS.suspended 0
  let s := raiseEvent (s.inc PRL_COUNTS.takeovers) evPair
  ownTime (sendControl s .none (notice := true))

/-- A commanded takeover whose shadow is not fit on its edge does not take place. -/
def notTaken (s : State) (k : Takeover) : State :=
  let t := { s with pair := { s.pair with takeover := none } }
  match k.id with
  | some i => finish t i .notReady
  | none => t

/-- The takeover edge, on either device: the symbol boundary on which a shadow takes over, or a lead leaves its role (R531 to R533). -/
def takeoverEdge (s : State) : State :=
  if s.rd DEV_MODE.mode = modeShadow then
    match s.pair.takeover with
    | none => s
    | some k =>
      let s := toBoundary s k.edge
      if s.rdb PRL_STATUS.fit then takeLead s k.id k.edge
      else if k.own then leavePair s true
      else notTaken s k
  else if s.rd DEV_MODE.mode = modeLead then
    match s.pair.yieldAt, s.pair.takeover with
    | none, none => s
    | some y, _ => leavePair (toBoundary s y) true
    | none, some k =>
      let s := toBoundary s k.edge
      if !s.rdb PRL_STATUS.fit then notTaken s k
      else
        match k.id with
        | some i => leavePair (finishTime (commit s i) i .success k.edge) true
        | none => leavePair s true
  else s

/-- No valid control block for 10 us (R531 to R534). -/
def heartbeatLoss (s : State) : State :=
  if !s.pair.heartbeat then s
  else
    let s := advanceTo s (s.pair.lastBlock + 10 * usTicks)
    let s := { s with pair := { s.pair with
      heartbeat := false, partner := none, absentSince := some (s.pair.absentSince.getD s.now) } }.wr PRL_STATUS.partner_present 0
    let s := if s.rd DEV_MODE.mode = modeLead then s.wr PRL_STATUS.fit 0 else s
    if s.rd DEV_MODE.mode = modeShadow then shadowActs s
    else if s.rd DEV_MODE.mode = modeLead ∧ s.rdb PRL_CFG.lead_yield then
      { s with pair := { s.pair with yieldAt := some (s.pair.yieldAt.getD (nextSymbol s)) } }
    else s

/-- The partner has been absent for partner_timeout_s (R534). -/
def partnerTimeout (s : State) : State :=
  let n := s.rd PRL_CFG.partner_timeout_s
  match s.pair.absentSince with
  | some t => if s.rd DEV_MODE.mode ≠ modeLead ∨ n = 0 then s else leavePair (advanceTo s (t + n * secTicks)) false
  | none => s

/-! ## Comparison (R525 to R528) -/

/-- CRC-64 of R525. -/
def crc64 (l : List Byte) : BitVec 64 := BitVec.ofNat 64 (crc 64 0x42F0E1EBA9EA3693 (2 ^ 64 - 1) l ^^^ (2 ^ 64 - 1))

/-- What the digest of a unit is taken over: its frames by ascending port, each with port and length. -/
def digestBytes (frames : List (Nat × List Byte)) : List Byte :=
  (List.range 16).flatMap (fun n =>
    (frames.filter (fun (p : Nat × List Byte) => p.1 == n)).flatMap (fun p => leBytes 1 n ++ leBytes 2 p.2.length ++ p.2))

/-- The end of the open unit, in time-counter ns: a symbol boundary, or 1 us where segments are compared. -/
def unitEnd (s : State) : Nat :=
  let b := nextSymbolNs s s.pair.unitOpened
  if s.rdb PRL_STATUS.release then b else min b (s.pair.unitOpened + 1000)

/-- The entries that count under R528, of a mismatched unit and the unit before it. -/
def reportsFault (s : State) (u : ClosedUnit) : Bool :=
  let counts (k : FaultKind) : Bool :=
    [.memUncorrectable, .dramUncorrectable, .nocHeaderDropped, .crossingUncorrectable, .dspHalted, .repairLost, .internalFault].contains k
  s.safe.log.any (fun e => counts e.kind && decide (u.since * 65536 ≤ e.time) && decide (e.time ≤ u.closed * 65536))

/-- A unit has mismatched: it is counted, and the fault reports are exchanged; in the frame after a resynchronisation it spoils the frame
(R520, R528). -/
def unitMismatch (s : State) (u : ClosedUnit) : State :=
  let t := raiseEvent ({ s with pair := { s.pair with mismatches := s.pair.mismatches + 1 } }.inc PRL_COUNTS.mismatches) evPair
  if t.pair.frameFrom.isSome then { t with pair := { t.pair with dirty := true } }
  else if t.pair.mismatch.isSome then t
  else
    let r := reportsFault t u
    sendControl { t with pair := { t.pair with mismatch := some u, ownReport := some r } } (.report r) (unit := u.unit)

/-- The verdict of a closed unit is known; the lead keeps it while frames of the unit are held. -/
def setVerdict (s : State) (n : Nat) (ok : Bool) : State :=
  let keep := s.pair.held.any (fun h => h.unit == n)
  let l := s.pair.closed.map (fun u => if u.unit == n then { u with verdict := some ok } else u)
  { s with pair := { s.pair with closed := if keep then l else l.filter (fun u => u.unit != n) } }

/-- The lead compares a unit with the shadow's digest and word, and returns the verdict (R526, R527). -/
def judge (s : State) (u : ClosedUnit) (d : BitVec 64) (w : Option (BitVec 64)) : State :=
  if u.suspended then setVerdict s u.unit true
  else
    let ok := u.digest == d && u.word == w
    let t := sendControl (setVerdict s u.unit ok) (.verdict ok) (unit := u.unit)
    if ok then t else unitMismatch t u

/-- A lane of either device is DROPPED, so that its port is not compared (R527). -/
def portsSuspended (s : State) : Bool := s.pair.partnerDrops != 0 || droppedLanes s != 0

/-- The user-state word at a symbol's end, read by the link initiator (R525). -/
def userWord (s : State) (f : AccessFind) : Option (BitVec 64) × State :=
  if udigPa s = 0 then (none, s)
  else
    let r := readNow s 0xA0 (udigPa s) 8 f
    (some (BitVec.ofNat 64 (ofBytes r.1.2)), r.2)

/-- The open unit closes. The shadow sends its digest; the lead judges it where the shadow's is already there. -/
def unitClose (f : AccessFind) (s : State) : State :=
  let mode := s.rd DEV_MODE.mode
  if (mode ≠ modeLead ∧ mode ≠ modeShadow) ∨ s.pair.unit = 0 then s
  else
    let e := unitEnd s
    let s := toBoundary s (e * 65536)
    let w := if e = nextSymbolNs s s.pair.unitOpened then userWord s f else (none, s)
    let s := w.2
    let d := crc64 (digestBytes s.pair.frames)
    let inj := mode = modeShadow ∧ s.pair.inject
    let u : ClosedUnit :=
      { unit := s.pair.unit, digest := if inj then d ^^^ 1 else d, word := w.1, suspended := s.pair.unitSuspended, since := s.pair.unitBefore,
        closed := e, verdict := if s.pair.unitSuspended then some true else none }
    let susp := s.pair.copying || s.pair.ctxDiffers
    let alone := s.pair.absentSince.isSome
    let early := s.pair.early.find? (fun p => p.1 == u.unit)
    let s := { s with pair := { s.pair with
      unit := s.pair.unit % (2 ^ 32 - 1) + 1, unitOpened := e, unitBefore := s.pair.unitOpened, frames := [], unitSuspended := susp || alone,
      inject := s.pair.inject && !inj, early := s.pair.early.filter (fun p => p.1 != u.unit),
      closed := s.pair.closed.drop (s.pair.closed.length - 63) ++ [u] } }
    let s := s.wrb PRL_STATUS.suspended (susp || portsSuspended s)
    if mode = modeShadow then sendControl s .none (unit := u.unit) (digest := u.digest) (word := u.word)
    else
      match early with
      | some (_, d, w) => judge s u d w
      | none => s

/-- The lead takes a digest. -/
def digestArrives (s : State) (n : Nat) (d : BitVec 64) (w : Option (BitVec 64)) : State :=
  match s.pair.closed.find? (fun u => u.unit == n) with
  | some u => if u.verdict.isNone then judge s u d w else setVerdict s n true
  | none =>
    if n = s.pair.unit then { s with pair := { s.pair with early := s.pair.early.filter (fun p => p.1 != n) ++ [(n, d, w)] } } else s

/-- The shadow takes a verdict. -/
def verdictArrives (s : State) (n : Nat) (ok : Bool) : State :=
  match s.pair.closed.find? (fun u => u.unit == n) with
  | none => s
  | some u =>
    let t := setVerdict s n ok
    if ok || u.suspended then t else unitMismatch t u

/-- 1.5 us after its acceptance, a held egress frame is released where its segment has matched or is suspended. A segment that mismatched, or whose
digest is late, is discarded (R526). -/
def segmentDue (s : State) : State :=
  match s.pair.held with
  | [] => s
  | h :: rest =>
    let s := advanceTo s (h.at_ + 1500 * nsTicks)
    let u := s.pair.closed.find? (fun u => u.unit == h.unit)
    let verdict := u.bind (fun u => u.verdict)
    if verdict = some true then
      let s := { s with pair := { s.pair with held := rest } }
      let s := if rest.any (fun x => x.unit == h.unit) then s else setVerdict s h.unit true
      if egressOpen s && laneState s h.lane == lnUp then transmit s h.lane h.data h.bad true else s.inc FHL_TX_COUNTS.tx_discarded 1 h.lane
    else
      let gone := s.pair.held.filter (fun x => x.unit == h.unit)
      let s := { s with pair := { s.pair with held := s.pair.held.filter (fun x => x.unit != h.unit) } }
      let s := gone.foldl (fun s x => s.inc FHL_TX_COUNTS.tx_discarded 1 x.lane) s
      if verdict.isNone then s.inc PRL_COUNTS.late_digests else setVerdict s h.unit false

/-- Both fault reports are known: the mismatch is resolved by the table of R528. -/
def resolveMismatch (s : State) : State :=
  match s.pair.mismatch, s.pair.ownReport, s.pair.partnerReport with
  | some u, some own, some other =>
    let mode := s.rd DEV_MODE.mode
    let lead := if mode = modeLead then own else other
    let shadow := if mode = modeLead then other else own
    let s := { s with pair := { s.pair with mismatch := none, ownReport := none, partnerReport := none } }
    if mode ≠ modeLead ∧ mode ≠ modeShadow then s
    else if lead && shadow then
      let t := fault s .pairDoubleFault 0 u.digest.toNat
      { t.wr PRL_STATUS.fit 0 with pair := { t.pair with synced := false } }
    else if lead then (if mode = modeShadow ∧ s.rdb PRL_STATUS.fit then decideTakeover s else s)
    else if mode = modeShadow then shadowUnfit s
    else (startResync s).wr PRL_STATUS.fit 0
  | _, _, _ => s

/-! ## Resynchronisation (R520) -/

/-- The writes that copy block `b` of the memory die: its valid words. -/
def blockCopies (s : State) (b : Nat) : List PairData :=
  (s.mem.words.filter (fun p => p.1 / 4096 == b)).map (fun p => .write (wordPa b (p.1 % 4096)) (leBytes 8 p.2.data.toNat))

/-- The writes that copy the X and Y memories of tile `t`. -/
def tileCopies (s : State) (t : Nat) : List PairData :=
  let x := tileOf s t
  let img (m : Sparse (BitVec 32)) : List Byte := (List.range 4096).flatMap (fun i => leBytes 4 (sparseGet 0 m i).toNat)
  let pa := 0x1008000000 + 0x8000 * t
  [.write pa (img x.x), .write (pa + 0x4000) (img x.y)]

/-- The writes of every enabled range of PRL_SYNC_r. -/
def syncCopies (s : State) : List PairData :=
  (List.range 16).flatMap (fun r =>
    if !s.rdb PRL_SYNC.enable r then []
    else
      let l := (List.range (s.rd PRL_SYNC.count r)).map (fun k => s.rd PRL_SYNC.first r + k)
      if s.rdb PRL_SYNC.kind r then (l.filter (fun t => decide (t < 1024))).flatMap (tileCopies s)
      else (l.filter (fun b => decide (b < 4096))).flatMap (blockCopies s))

/-- The copy has ended: comparison resumes, and the next whole frame decides. -/
def copyDone (s : State) : State :=
  if !s.pair.copying then s
  else
    let t := if s.rd DEV_MODE.mode = modeLead then (syncCopies s).foldl sendData s else s
    { t with pair := { t.pair with copying := false, dirty := false, frameFrom := some (frameBoundary (counter t + 1)) } }.wr PRL_STATUS.resync 0

/-- The whole frame after a copy has ended: the shadow is fit, or another round of at most three begins. -/
def frameDone (s : State) : State :=
  match s.pair.frameFrom with
  | none => s
  | some f =>
    let s := toBoundary s (f + 10000000 * 65536)
    let dirty := s.pair.dirty
    let s := { s with pair := { s.pair with frameFrom := none, dirty := false } }
    if s.rd DEV_MODE.mode ≠ modeShadow then s
    else if !dirty then updateFit { s with pair := { s.pair with synced := true, rounds := 0 } }
    else if 3 ≤ s.pair.rounds + 1 then
      raiseEvent (fault { s with pair := { s.pair with rounds := 0 } } .pairResyncFailed) evPair
    else sendControl (startResync { s with pair := { s.pair with rounds := s.pair.rounds + 1 } }) .resync

/-! ## Pair time and role exchange (R522 to R524) -/

/-- The offset that a control block and the one it echoes give (R522). -/
def blockOffset (s : State) (b : ControlBlock) (arrival : Nat) : Option Int :=
  (s.pair.sentAt.find? (fun p => p.1 == b.echoTrain)).map (fun p =>
    (((arrival : Int) - b.depart) - ((b.echoArrival : Int) - p.2)) / 2 - toSigned 32 (s.rd PRL_TT_ADJ.adj))

/-- The offsets of 1 ms are averaged, and the shadow slews or steps. -/
def timeAverage (s : State) : State :=
  if s.rd DEV_MODE.mode ≠ modeShadow then s
  else
    let s := advanceTo s (s.pair.averaged + msTicks)
    let l := s.pair.offsets
    let s := { s with pair := { s.pair with offsets := [], averaged := s.now } }
    if l.isEmpty then s
    else
      let m := l.foldl (· + ·) (0 : Int) / l.length
      let a := m.natAbs
      let near := decide (a ≤ 50 * 65536)
      let r := max (-(2 ^ 31 : Int)) (min (2 ^ 31 - 1) (m / 4096))
      let s := { s with pair := { s.pair with offset := m, far := if near then false else s.pair.far || decide (1100 * 65536 < a) } }
      let s := s.wr PRL_OFFSET.offset (ofSigned 32 r)
      updateFit (if near || s.tim.steps.any (fun p => p.pair) then s else planStep s (-m) false true)

/-- One evaluation of the timing engine; a shadow also judges its own references against the lead's class (R524). -/
def timingRound (s : State) : State :=
  let s := timingEvaluate s
  if s.rd DEV_MODE.mode ≠ modeShadow then s
  else
    let own := tqClass s s.tim.own
    let run := if s.pair.partner.any (fun p => decide (own < p.tq)) then s.pair.tqRun + 1 else 0
    let s := { s with pair := { s.pair with ownTq := own, tqRun := run } }
    if run < 10 ∨ !s.pair.exchangeOk ∨ !s.rdb PRL_STATUS.fit ∨ s.pair.exchange.isSome ∨
        s.pair.lastExchange.any (fun t => decide (s.now < t + 60 * secTicks)) then s
    else
      let e := frameBoundary (counter s + 1)
      sendControl { s with pair := { s.pair with exchange := some e, tqRun := 0 } } (.roles e)

/-- Lead and shadow exchange roles on their frame boundary; the shadow's mute lifts there (R524, R547). With a shadow that is no longer fit there,
neither changes its role (DEDUCED, log entry 198). -/
def roleExchange (s : State) : State :=
  match s.pair.exchange with
  | none => s
  | some e =>
    let s := toBoundary s e
    let s := { s with pair := { s.pair with exchange := none, lastExchange := some s.now, tqRun := 0 } }
    if !s.rdb PRL_STATUS.fit then s
    else if s.rd DEV_MODE.mode = modeShadow then
      let s := liftIfClear (setMode (exitAllEi s) modeLead)
      ownTime { s with pair := { s.pair with mirrors := [], offsets := [] } }
    else if s.rd DEV_MODE.mode = modeLead then
      let s := setMode (exitAllEi s) modeShadow
      let s := { s with
        pair := { s.pair with mirrors := [], held := [], offsets := [], averaged := s.now, offset := 0, far := false, synced := true }
        tim := { s.tim with own := s.tim.eng } }
      updateFit s
    else s

/-! ## Changes in a pair (R392, R393, R521) -/

/-- The opcodes that a change list may hold. -/
def listOpcodes : List Nat := [0x10, 0x11, 0x14, 0x15, 0x30, 0x31, 0x32]

/-- A change fails at entry `i` with status `st`: the partner hears of it, and every listed command is rolled back. -/
def prepareFails (s : State) (p : Prepared) (i : Nat) (st : Status) : State :=
  sendControl (finish (unprepare s) p.id st 0 i) (.failed p.change i)

/-- The status of a completion code of R363. -/
def statusOfCode (c : Nat) : Status :=
  ([.success, .alreadyComplete, .aborted, .duplicate, .cancelled, .invalidOpcode, .invalidField, .notReady, .busy, .modeForbids,
    .staleSequence, .authFailEd, .authFailMldsa, .authFailBoth, .digestMismatch, .regionViolation, .imageFormat, .keyRevoked, .dieReset,
    .poisoned, .integrityFail, .accessDenied, .swapLate, .swapSkipped, .pairMismatch, .pairNotFormed, .pairLinkDown, .thermalLimit,
    .internalFault] : List Status).find? (fun x => x.code == c) |>.getD .internalFault

/-- After any step of a listed command: a failure ends the change, and once all stand at their commit points the device has prepared. -/
def pairCheck (s : State) : State :=
  match s.pair.prepared with
  | none => s
  | some p =>
    let mine := s.link.tracks.filter (fun t => p.tracks.contains t.id)
    match mine.find? (fun t => t.phase == .finished) with
    | some t => prepareFails s p (t.pair.getD 0) (statusOfCode t.status)
    | none =>
      if p.own || mine.isEmpty || !mine.all (fun t => t.phase == .prepared) then s
      else
        let t := sendControl { s with pair := { s.pair with prepared := some { p with own := true } } } (.prepared p.change)
        if p.partner then finish (commit t p.id) p.id .success else t

/-- The partner has prepared a change. -/
def partnerReady (s : State) (change : Nat) : State :=
  match s.pair.prepared with
  | some p =>
    if p.change ≠ change then { s with pair := { s.pair with partnerPrepared := some change } }
    else
      let t := { s with pair := { s.pair with prepared := some { p with partner := true } } }
      if p.own then finish (commit t p.id) p.id .success else t
  | none => { s with pair := { s.pair with partnerPrepared := some change } }

/-- A change has failed on the partner. -/
def partnerUnready (s : State) (change i : Nat) : State :=
  match s.pair.prepared with
  | some p =>
    if p.change = change then finish (unprepare (dropRead s p.id)) p.id .pairMismatch 0 i
    else { s with pair := { s.pair with partnerFailed := some (change, i) } }
  | none => { s with pair := { s.pair with partnerFailed := some (change, i), partnerPrepared := none } }

/-- Neither LEAD nor SHADOW. -/
def unpaired (s : State) : Bool := s.rd DEV_MODE.mode != modeLead && s.rd DEV_MODE.mode != modeShadow

/-- PAIR_PREPARE: the list is read from host memory. -/
def pairPrepare (t : Track) (s : State) : State :=
  let change := t.par 0x10 4
  let n := t.par 0x14 1
  if unpaired s then finish s t.id .pairNotFormed
  else if !pairActive s then finish s t.id .pairLinkDown
  else if change = 0 ∨ n = 0 ∨ 16 < n ∨ t.par 0x18 8 % 8 ≠ 0 then finish s t.id .invalidField
  else if s.pair.prepared.isSome then finish s t.id .busy
  else
    match s.pair.partnerFailed with
    | some (c, i) =>
      if c = change then finish { s with pair := { s.pair with partnerFailed := none } } t.id .pairMismatch 0 i else go change n
    | none => go change n
where
  /-- The preparation begins. -/
  go (change n : Nat) : State :=
    let p : Prepared :=
      { id := t.id, change := change, tracks := [], own := false, partner := s.pair.partnerPrepared == some change, applied := false }
    readHost { s with pair := { s.pair with prepared := some p, partnerPrepared := none, partnerFailed := none } } t.id (t.par 0x18 8) (64 * n)

/-- A listed command starts: every check and step of it up to its commit point. -/
def listedStart (s : State) (t : Track) : State :=
  let t := { t with phase := .started, startTick := s.now }
  let s := mapTrack s t.id (fun _ => t)
  if t.op = 0x10 then startLoad false t s
  else if t.op = 0x11 then startLoad true t s
  else if t.op = 0x14 then scheduleSet t s
  else if t.op = 0x15 then contextRetire t s
  else if t.op = 0x30 then keyInstall t s
  else if t.op = 0x31 then keyRetire t s
  else regionRekey t s

/-- The change list has arrived. -/
def changeList (t : Track) (d : List Byte) (s : State) : State :=
  match s.pair.prepared with
  | none => s
  | some p =>
    let n := t.par 0x14 1
    let entries : List Line := (List.range n).map (fun i => BitVec.ofNat 512 (field d (64 * i) 64))
    let bad (e : Line) : Bool :=
      !listOpcodes.contains (entryBits e 0 1) || !reservedZero e || entryBits e 2 2 != 0 || entryBits e 8 6 != 0
    match (List.range n).find? (fun i => bad (entries.getD i 0)) with
    | some i => prepareFails s p i .invalidField
    | none =>
      let add (a : State × List Nat) (i : Nat) : State × List Nat :=
        let k := { newTrack a.1 256 (entries.getD i 0) 0 with pair := some i }
        (addTrack a.1 k, a.2 ++ [k.id])
      let r := (List.range n).foldl add (s, [])
      let s1 := { r.1 with pair := { r.1.pair with prepared := some { p with tracks := r.2 } } }
      let s2 := r.2.foldl (fun s id =>
        match trackOf s id with
        | some k => if s.pair.prepared.isSome then pairCheck (listedStart s k) else s
        | none => s) s1
      pairCheck s2

/-- A listed command reaches its commit point. -/
def listedCommit (s : State) (t : Track) : State :=
  if t.op = 0x10 ∨ t.op = 0x11 then (match s.imgs.load with | some l => if l.id = t.id then commitLoad l s else s | none => s)
  else if t.op = 0x14 then scheduleArm t s
  else if t.op = 0x15 then (if committed s (t.par 0x10 1) then retire t s else s)
  else if t.op = 0x30 then installKey t s
  else if t.op = 0x31 then zeroiseSlot s (t.par 0x10 1)
  else rekeyQueue t s

/-- The commit point must wait: an image remap for the write-back of its context (R304, R521). -/
def listedWaits (s : State) (t : Track) : Bool :=
  (t.op == 0x10 || t.op == 0x11) && s.imgs.load.any (fun l => l.id == t.id && s.ctxs.wb.any (fun w => w.ctx == l.ctx))

/-- Once nothing of the change is left to commit, the values are compared again (R521). -/
def changeDone (s : State) : State :=
  match s.pair.prepared with
  | none => s
  | some p =>
    if !p.tracks.isEmpty then s
    else
      let v := formValues s ((s.pair.values.map (fun v => v.command)).getD 0)
      let t := { s with pair := { s.pair with prepared := none, values := some v, compareAfter := true } }
      compareAgain (sendControl t (.form v))

/-- The listed commands that need not wait commit, in their order. -/
def commitListed (s : State) : State :=
  match s.pair.prepared with
  | none => s
  | some p =>
    let ready := p.tracks.filter (fun id => (trackOf s id).any (fun t => !listedWaits s t))
    let s1 := ready.foldl (fun s id => match trackOf s id with | some t => listedCommit (commit s id) t | none => s) s
    let left := p.tracks.filter (fun id => !ready.contains id)
    changeDone (dropTracks { s1 with pair := { s1.pair with prepared := some { p with tracks := left, applied := true } } } (fun t => ready.contains t.id))

/-- PAIR_COMMIT (R393). -/
def pairCommit (t : Track) (s : State) : State :=
  let change := t.par 0x10 4
  let a := t.par 0x14 1
  if s.rd DEV_MODE.mode = modeShadow then finish s t.id .modeForbids
  else if unpaired s then finish s t.id .pairNotFormed
  else if !pairActive s then finish s t.id .pairLinkDown
  else if 1 < a ∨ !(s.pair.prepared.any (fun p => p.change == change && p.own && p.partner)) then finish s t.id .invalidField
  else if s.pair.committing.isSome then finish s t.id .busy
  else
    let e := frameBoundary (counter s + 1)
    sendControl { s with pair := { s.pair with committing := some { id := some t.id, abandon := a == 1, edge := e } } } (.commit change (a == 1) e)

/-- The frame boundary of a PAIR_COMMIT, on both devices (R393, R521). -/
def commitBoundary (s : State) : State :=
  match s.pair.committing with
  | none => s
  | some c =>
    let s := toBoundary s c.edge
    let s := { s with pair := { s.pair with committing := none } }
    let s := match c.id with
      | some id => finishTime (commit s id) id .success c.edge
      | none => s
    if c.abandon then unprepare s else commitListed s

/-! ## PAIR_DISSOLVE and PAIR_TAKEOVER (R391, R535) -/

/-- PAIR_DISSOLVE. -/
def pairDissolve (t : Track) (s : State) : State :=
  if unpaired s then finish s t.id .pairNotFormed
  else if transitioning s then finish s t.id .busy
  else
    let e := frameBoundary (counter s + 1)
    let tr : Transition := { dest := modeRun, id := t.id, ctx := 0, since := s.now }
    let s1 := { s with pair := { s.pair with dissolve := some (some t.id, e) }, boot := { s.boot with transition := some tr } }
    sendControl (s1.wr DEV_MODE.transition_busy 1) (.dissolve e)

/-- The frame boundary of a PAIR_DISSOLVE: the lead keeps transmitting, the shadow is in the safe state (R535). -/
def dissolveBoundary (s : State) : State :=
  match s.pair.dissolve with
  | none => s
  | some (id, e) =>
    let s := toBoundary s e
    let s := match id with
      | some i => finish (commit (endTransition s) i) i .success
      | none => s
    let s := { s with pair := { s.pair with dissolve := none } }
    if unpaired s then s else leavePair s (s.rd DEV_MODE.mode == modeShadow)

/-- PAIR_TAKEOVER. One that comes while a dissolve or an exchange of roles is pending, for which R41 names no status, is taken (DESIGN CHOICE, log entry
183). -/
def pairTakeover (t : Track) (s : State) : State :=
  if unpaired s then finish s t.id .pairNotFormed
  else if !pairActive s then finish s t.id .pairLinkDown
  else if !s.rdb PRL_STATUS.fit then finish s t.id .notReady
  else if s.pair.takeover.isSome then finish s t.id .busy
  else
    let e := if (t.par 0x10 1).testBit 0 then frameBoundary (counter s + 1) else nextSymbol s
    sendControl { s with pair := { s.pair with takeover := some { id := some t.id, edge := e, own := false } } } (.takeover e)

/-! ## What the partner says (R507) -/

/-- The note of a control block, with the unit that it concerns. -/
def takeNote (s : State) (unit : Nat) : Note → State
  | .none => s
  | .width n tr => { s with pair := { s.pair with widthAt := some (min n (linkWidth s), tr) } }
  | .drops l => { s with pair := { s.pair with partnerDrops := l } }
  | .step k v e =>
    if s.rd DEV_MODE.mode ≠ modeShadow then s
    else { s with tim := { s.tim with steps := s.tim.steps ++ [{ id := none, kind := k, value := v, edge := e, engine := false, pair := false }] } }
  | .roles e => if s.rd DEV_MODE.mode = modeLead then { s with pair := { s.pair with exchange := some e } } else s
  | .takeover e =>
    if unpaired s then s
    else if e = 0 then { s with pair := { s.pair with takeover := s.pair.takeover.filter (fun k => k.own || k.id.isSome) } }
    else
      let edge := if counter s < e then e else nextSymbol s
      { s with pair := { s.pair with takeover := some (s.pair.takeover.getD { id := none, edge := edge, own := false }) } }
  | .dissolve e =>
    if unpaired s then s
    else { s with pair := { s.pair with dissolve := if e = 0 then none else some (s.pair.dissolve.getD (none, e)) } }
  | .unform =>
    { s with pair := { s.pair with forming := s.pair.forming.map (fun f => { f with edge := none }), heard := none } }
  | .resync => if s.rd DEV_MODE.mode = modeLead then (startResync s).wr PRL_STATUS.fit 0 else s
  | .form v =>
    let t := { s with pair := { s.pair with heard := some (v, s.now) } }
    if unpaired t then formCompare t else compareAgain t
  | .verdict ok => if s.rd DEV_MODE.mode = modeShadow then verdictArrives s unit ok else s
  | .report r => { s with pair := { s.pair with partnerReport := some r } }
  | .prepared c => partnerReady s c
  | .failed c i => partnerUnready s c i
  | .commit c ab e =>
    if e = 0 then { s with pair := { s.pair with committing := none } }
    else if s.pair.prepared.any (fun p => p.change == c) then
      { s with pair := { s.pair with committing := some { id := none, abandon := ab, edge := e } } }
    else s

/-- The data blocks that the partner reports as failed are sent again (R507). -/
def resend (s : State) (b : ControlBlock) : State :=
  let l := s.pair.replay.filter (fun p => p.1 == b.ackTrain)
  (List.range l.length).foldl (fun t i =>
    match l[i]? with
    | some p => if b.nak.toNat.testBit i then { t with outbox := t.outbox ++ [.dataBlock p.1 p.2] } else t
    | none => t) s

/-- A control block whose CRC holds: heartbeat, times, and what the partner says of itself; then its reports, digest and note. -/
def takeBlock (b : ControlBlock) (s : State) : State :=
  let mode := s.rd DEV_MODE.mode
  let at' := counter s
  let off := if mode = modeShadow ∧ b.role = 1 then (blockOffset s b at').toList else []
  let gone := mode = modeLead ∧ b.role ≠ 2
  let diff := if s.ctxs.lastSwapTime ≤ b.depart then b.ctx != s.rd CFG_LATCH_STATUS.active_ctx else s.pair.ctxDiffers
  let s := { s with pair := { s.pair with
    lastBlock := s.now, heartbeat := true, absentSince := if gone then some (s.pair.absentSince.getD s.now) else none,
    partner := some { role := b.role, width := b.width, tq := b.tq, step := b.step, ctx := b.ctx, fault := b.fault },
    rxTrain := b.train, rxNak := if b.train = s.pair.rxTrain then s.pair.rxNak else 0, rxAt := at', offsets := s.pair.offsets ++ off, ctxDiffers := diff, unitSuspended := s.pair.unitSuspended || diff } }
  let s := resend (settleLanes s ((s.wr PRL_STATUS.partner_present 1).wrb PRL_STATUS.rx_sleep b.sleep)) b
  let s := if diff && !unpaired s then s.wr PRL_STATUS.suspended 1 else s
  let s := if mode = modeLead ∧ b.role = 2 then s.wrb PRL_STATUS.fit b.fit else s
  if mode = modeLead ∧ b.takeover then leavePair s true
  else
    let s := if mode = modeLead ∧ b.role = 2 ∧ b.unit ≠ 0 ∧ b.note = .none then digestArrives s b.unit b.digest b.word else s
    let s := takeNote s b.unit b.note
    if mode = modeShadow ∧ b.selfFault ∧ b.role = 1 ∧ s.rd DEV_MODE.mode = modeShadow then
      shadowActs { s with pair := { s.pair with lastFault := b.fault } }
    else s

/-- A control block arrives. -/
def controlBlock (b : ControlBlock) (crcOk : Bool) (s : State) : State :=
  if !pairActive s then s
  else if crcOk then stepChange s (takeBlock b s)
  else { s with pair := { s.pair with crcErrors := s.pair.crcErrors + 1 } }

/-- A mirror record enters the mirror window of its queue (R516, R349 to R351). -/
def takeRecord (s : State) (f q seq cid status result : Nat) : State :=
  if status = Status.duplicate.code ∨ status = Status.staleSequence.code then s
  else
  let k := f * 256 + q
  let m : Mirror := (sparseFind s.pair.mirrors k).getD { h := (seq + 2 ^ 48 - 1) % 2 ^ 48, window := [] }
  let gone := status == Status.cancelled.code || status == Status.dieReset.code
  let w : WinEntry := { seq := seq, executed := !gone, note := gone, done := true, cid := cid, status := status, result := result }
  let h := if ahead seq m.h then seq else m.h
  let m1 : Mirror :=
    if !inWindow seq h then m
    else { h := h, window := (m.window.filter (fun v => inWindow v.seq h && v.seq != seq)) ++ [w] }
  { s with pair := { s.pair with mirrors := sparsePut s.pair.mirrors k m1 } }

/-- Data block `k` of a train arrives. One that fails FEC is reported for its train in the next control blocks, and comes again (R507). At a shadow a
block is a mirrored write, made by the link's initiator, or a mirror record (R506, R516). -/
def dataBlock (train k : Nat) (fec : Bool) (d : PairData) (s : State) : State :=
  if !pairActive s then s
  else
    let nak := if train = s.pair.rxTrain then s.pair.rxNak else 0
    let s := { s with pair := { s.pair with rxTrain := train, rxNak := if fec then nak else nak ||| BitVec.ofNat 24 (2 ^ k) } }
    if !fec ∨ s.rd DEV_MODE.mode ≠ modeShadow then s
    else
    match d with
    | .write pa l =>
      (writeBytes s 0xA0 .mirror pa l).2
    | .record f q seq cid status result _ arming =>
      let t := takeRecord s f q seq cid status result
      match arming with
      | some e => if status = Status.success.code then let k := newTrack t 256 e 0; toutCommit t (k.par 0x10 1) (armOf k) else t
      | none => t

/-- SAF_INJ_CFG.pair_inject is written on a shadow that is fit (R557); the register's other fields take their values. -/
def pairInject (v : Word) (s : State) : State :=
  let n := v.toNat
  let t := (s.wr SAF_INJ_CFG.target (bits n 0 24)).wr SAF_INJ_CFG.variant (bits n 24 2)
  if !n.testBit 26 then t
  else if s.rd DEV_MODE.mode = modeShadow ∧ s.rdb PRL_STATUS.fit then { t with pair := { t.pair with inject := true } }
  else t.wr SAF_CTRL.refused 1

/-! ## Meanings -/

/-- LANDING_PLANE_COPY_END (R303). -/
def execLandingPlaneCopyEnd (s : State) : Res := .next (copyEnd s)

/-- IMAGE_FRAME_RECORD (R294 to R297, R307). -/
def execImageFrameRecord (s : State) : Res := .next (pairCheck (imageRecord s))

/-- IMAGE_STREAM_END (R303). -/
def execImageStreamEnd (s : State) (net : NetWay := .ok) : Res := .next (pairCheck (streamEnd net s))

/-- LANDING_PLANE_REMAP (R304, R308, R309); in a pair's commit, on the first edge after the write-back (R521). -/
def execLandingPlaneRemap (s : State) : Res :=
  .next (match s.pair.prepared with
    | some p => if p.applied then commitListed s else pairCheck (planeRemap s)
    | none => planeRemap s)

/-- TIMING_EVALUATION (R456 to R465, R524). -/
def execTimingEvaluation (s : State) : Res := .next (timingRound s)

/-- PRL_LINK_ENABLE (R508, R513, R536): a write of `value` to PRL_CFG. -/
def execPrlLinkEnable (value : Word) (s : State) : Res := .next (regWrite 0x140000 s (linkEnable value))

/-- LINK_STAGE_DONE (R508): `partnerWidth` is what the identity exchange gives of the partner's width. -/
def execLinkStageDone (partnerWidth : Fin 9) (s : State) : Res := .next (linkStage partnerWidth s)

/-- LINK_STATE_TIMEOUT (R508). -/
def execLinkStateTimeout (s : State) : Res := .next (linkTimeout s)

/-- CONTROL_BLOCK_RECEIVED (R507, R517, R522 to R532). -/
def execControlBlockReceived (block : ControlBlock) (crcOk : Bool) (s : State) : Res := .next (controlBlock block crcOk s)

/-- DATA_BLOCK_RECEIVED (R506, R507, R516): the block's place in its train, and whether its FEC holds. -/
def execDataBlockReceived (train : Nat) (data : PairData) (s : State) (index : Fin 24 := 0) (fecOk : Bool := true) : Res :=
  .next (dataBlock train index fecOk data s)

/-- BOLRYN_LANE_ERROR_WINDOW (R509). -/
def execBolrynLaneErrorWindow (lane : Fin 8) (codewords : Nat) (s : State) : Res := .next (bolrynErrors lane codewords s)

/-- BOLRYN_LANE_SIGNAL_CHANGE (R508, R512). -/
def execBolrynLaneSignalChange (lane : Fin 8) (up : Bool) (s : State) : Res := .next (bolrynSignal lane up s)

/-- LINK_WIDTH_CHANGE (R509). -/
def execLinkWidthChange (s : State) : Res := .next (widthChange s)

/-- LINK_DIRECTION_SLEEP (R510). -/
def execLinkDirectionSleep (s : State) : Res := .next (directionSleep s)

/-- LINK_DIRECTION_WAKE (R510). -/
def execLinkDirectionWake (s : State) : Res := .next (directionWake s)

/-- BAND_READAPT (R511). -/
def execBandReadapt (ok : Bool) (s : State) : Res := .next (bandReadapt ok s)

/-- PAIR_FORM (R390, R517). -/
def execPairForm (id : Nat) (s : State) : Res := .next (startCommand 0x50 id s pairForm)

/-- PAIR_DISSOLVE (R391, R535). -/
def execPairDissolve (id : Nat) (s : State) : Res := .next (startCommand 0x51 id s pairDissolve)

/-- PAIR_TAKEOVER (R391). -/
def execPairTakeover (id : Nat) (s : State) : Res := .next (startCommand 0x52 id s pairTakeover)

/-- PAIR_PREPARE (R392). -/
def execPairPrepare (id : Nat) (s : State) : Res := .next (startCommand 0x53 id s pairPrepare)

/-- PAIR_COMMIT (R393). -/
def execPairCommit (id : Nat) (s : State) : Res := .next (startCommand 0x54 id s pairCommit)

/-- PAIR_FORM_COMMIT (R518, R519). -/
def execPairFormCommit (s : State) : Res := .next (formCommit s)

/-- PAIR_FORM_TIMEOUT (R517). -/
def execPairFormTimeout (s : State) : Res := .next (formTimeout s)

/-- DIGEST_UNIT_CLOSE (R525, R526). -/
def execDigestUnitClose (s : State) (find : AccessFind := {}) : Res := .next (unitClose find s)

/-- SEGMENT_RELEASE_DUE (R526). -/
def execSegmentReleaseDue (s : State) : Res := .next (segmentDue s)

/-- MISMATCH_RESOLUTION (R528). -/
def execMismatchResolution (s : State) : Res := .next (resolveMismatch s)

/-- RESYNC_COPY_END (R520). -/
def execResyncCopyEnd (s : State) : Res := .next (copyDone s)

/-- RESYNC_FRAME_END (R520). -/
def execResyncFrameEnd (s : State) : Res := .next (frameDone s)

/-- PAIR_TIME_AVERAGE (R522). -/
def execPairTimeAverage (s : State) : Res := .next (timeAverage s)

/-- ROLE_EXCHANGE (R524). -/
def execRoleExchange (s : State) : Res := .next (roleExchange s)

/-- HEARTBEAT_LOSS (R531 to R534). -/
def execHeartbeatLoss (s : State) : Res := .next (stepChange s (heartbeatLoss s))

/-- TAKEOVER_EDGE (R531 to R533). -/
def execTakeoverEdge (s : State) : Res := .next (takeoverEdge s)

/-- PARTNER_TIMEOUT (R534). -/
def execPartnerTimeout (s : State) : Res := .next (partnerTimeout s)

/-- DISSOLVE_BOUNDARY (R535). -/
def execDissolveBoundary (s : State) : Res := .next (dissolveBoundary s)

/-- PAIR_COMMIT_BOUNDARY (R393, R521). -/
def execPairCommitBoundary (s : State) : Res := .next (commitBoundary s)

/-- PAIR_INJECT (R557): a write of `value` to SAF_INJ_CFG. -/
def execPairInject (value : Word) (s : State) : Res := .next (regWrite 0x150020 s (pairInject value))

end Sys2Proof.Machine
end

