-- ==== Sys2Proof/Machine/Commands.lean ====
section
/-! DEFINITION. The queue and general commands (R370 to R373), flip-flop snapshots (R314, R379), telemetry and the fault log (R395 to R397), MODE_SET
(R39 to R42, R400), host-memory reads (R365) and the PCIe link's training and lanes (R44, R334). -/

namespace Sys2Proof.Machine

/-! ## General commands (R370) -/

/-- IDENTIFY. -/
def identify (t : Track) (s : State) : State :=
  let f := qFunction s t.q
  let r := 4 + 1 * 2 ^ 8 + 0xB0 * 2 ^ 16 + (if s.grade2 then 2 else 3) * 2 ^ 24 + 0x45 * 2 ^ 32 + f * 2 ^ 40 + quotaBase s f * 2 ^ 48 +
    s.rd PCIE_LINK_STATUS.width * 2 ^ 56 + s.rd PCIE_LINK_STATUS.speed * 2 ^ 60
  let r2 := quotaCount s f + s.rd DRC_MAP.capacity_gib * 2 ^ 9 + committedBits s * 2 ^ 16 + s.rd DEV_MODE.mode * 2 ^ 24 +
    s.rd DEV_MODE.degraded * 2 ^ 27 + s.rd DEV_MODE.safe_state * 2 ^ 28
  finish (commit s t.id) t.id .success r r2

/-! ## ABORT (R353 to R355, R371) -/

/-- The ABORT `t` meets a command still in the tracking table: the one that comes first of its latch and the commit mark decides. -/
def abortTarget (t u : Track) (s : State) : State :=
  let s1 := mapTrack s u.id (fun v => { v with abortedBy := v.abortedBy ++ [t.id] })
  let latch (s : State) : State := mapTrack s u.id (fun v => { v with aborted := true })
  if u.op = 0x03 then finish s t.id .invalidField
  else if u.phase = .finished ∨ u.committed then finish (commit s1 t.id) t.id .alreadyComplete
  else if u.phase = .fetched then finish (finish (latch (commit s1 t.id)) u.id .aborted) t.id .success
  else finish (rollback (latch (commit s1 t.id)) u .aborted) t.id .success

/-- ABORT. -/
def abort (t : Track) (s : State) : State :=
  match (globalQueue s (qFunction s t.q) (t.par 0x10 2)).bind (fun q => (queueOf s q).map (fun x => (q, x))) with
  | none => finish s t.id .invalidField
  | some (q, x) =>
    let seq := t.par 0x18 6
    if ahead seq x.h || !inWindow seq x.h then finish s t.id .invalidField
    else
    match s.link.tracks.find? (fun u => u.q == q && u.seq == seq && u.inWindow && u.phase != .held && u.pair.isNone) with
    | some u => abortTarget t u s
    | none =>
      match winEntry x seq with
      | some w => if w.executed || w.note then finish (commit s t.id) t.id .alreadyComplete else finish s t.id .invalidField
      | none => finish s t.id .invalidField

/-! ## Queue commands (R338, R356, R357, R372, R373) -/

/-- QUEUE_CREATE. -/
def queueCreate (t : Track) (s : State) : State :=
  let f := qFunction s t.q
  let k := t.par 0x10 2
  let size (n : Nat) : Bool := decide (4 ≤ n) && decide (n ≤ 16)
  if !qAdmin s t.q || k == 0 || !size (t.par 0x12 1) || !size (t.par 0x13 1) || decide (31 < t.par 0x14 1) || t.par 0x15 1 == 0 ||
      decide (1023 < t.par 0x16 2) || t.par 0x18 8 % 4096 != 0 || t.par 0x20 8 % 4096 != 0 then finish s t.id .invalidField
  else
    match globalQueue s f k with
    | none => finish s t.id .invalidField
    | some q =>
      if qState s q ≠ qFree then finish s t.id .busy
      else
        finish (commit (enableQueue s q f false (newQueue (t.par 0x18 8) (t.par 0x20 8) (t.par 0x12 1) (t.par 0x13 1) (t.par 0x14 1)
          (t.par 0x15 1) (t.par 0x16 2) (t.par 0x28 6))) t.id) t.id .success

/-- The queue that QUEUE_DISABLE or QUEUE_DELETE names: one of the function's own other than its admin queue. -/
def namedQueue (t : Track) (s : State) : Option Nat :=
  if !qAdmin s t.q then none
  else (globalQueue s (qFunction s t.q) (t.par 0x10 2)).bind (fun q => if qAdmin s q || t.par 0x10 2 == 0 then none else some q)

/-- QUEUE_DISABLE completes as the queue becomes DISABLED. -/
def queueDisable (t : Track) (s : State) : State :=
  match namedQueue t s with
  | none => finish s t.id .invalidField
  | some q =>
    if qState s q = qEnabled ∨ qState s q = qError then beginDisable (commit s t.id) q (some t.id) else finish s t.id .invalidField

/-- QUEUE_DELETE. -/
def queueDelete (t : Track) (s : State) : State :=
  match namedQueue t s with
  | none => finish s t.id .invalidField
  | some q =>
    if (qState s q = qDisabled ∨ qState s q = qError) ∧ (queueTracks s q).isEmpty then finish (commit (classQ s q) t.id) t.id .success
    else finish s t.id .busy

/-! ## Flip-flop snapshots (R314, R315, R379) -/

/-- Tiles of the rectangle. -/
def snapTiles (t : Track) : Nat := (t.par 0x12 1 + 1 - t.par 0x10 1) * (t.par 0x13 1 + 1 - t.par 0x11 1)

/-- Their indices in row-major order (R315). -/
def snapList (t : Track) : List Nat :=
  (List.range (t.par 0x13 1 + 1 - t.par 0x11 1)).flatMap (fun y =>
    (List.range (t.par 0x12 1 + 1 - t.par 0x10 1)).map (fun x => (t.par 0x11 1 + y) * 64 + t.par 0x10 1 + x))

/-- The active context permits snapshots. -/
def observable (s : State) : Bool := (activeCtx s).any (fun c => s.rdb CFG_CTX_IMAGE.debug_observe c)

/-- SNAPSHOT_FF is accepted, and waits for its capture edge. -/
def snapshot (t : Track) (s : State) : State :=
  let imm := (t.par 0x14 1).testBit 0
  if t.par 0x12 1 < t.par 0x10 1 ∨ t.par 0x13 1 < t.par 0x11 1 ∨ 63 < t.par 0x12 1 ∨ 79 < t.par 0x13 1 ∨ t.par 0x20 4 < 64 * snapTiles t ∨
      t.par 0x18 8 % 8 ≠ 0 ∨ !timeOk (t.par 0x28 12) ∨ (imm ∧ t.par 0x28 12 ≠ 0) ∨ (!imm ∧ farAhead s (t.time 0x28)) then
    finish s t.id .invalidField
  else if s.sec.expires.isNone || !bit (s.rd SEC_STATUS.grants) 0 || !observable s then finish s t.id .accessDenied
  else s

/-- The capture edge: the flip-flops of the rectangle hold `values`, one a tile in row-major order, which are copied and then move to the host through a
mover; they wait for one to be free, and for the base die's Porter (R59, R314). -/
def snapshotEdge (id : Nat) (values : List (BitVec 512)) (s : State) : State :=
  match trackOf s id with
  | none => s
  | some t =>
    if t.op ≠ 0x16 ∨ t.phase ≠ .started ∨ t.committed ∨ values.length ≠ snapTiles t then s
    else
      let s0 := if (t.par 0x14 1).testBit 0 then s else advanceToCounter s (t.time 0x28)
      let s1 := advanceTo s0 (gridEdge s0 s0.now)
      let s2 := mapTrack s1 id (fun t => { t with eventTick := some s1.now })
      if !observable s2 || !dieOpen s2 2 then finish s2 id .accessDenied
      else
        let d := values.flatMap (fun v => leBytes 64 v.toNat)
        let s3 := commit (setFfs s2 ((snapList t).zip values)) id
        snapshotMoves (mapTrack s3 id (fun t => { t with data := d, result2 := timeNs (counter s3) }))

/-! ## Telemetry and the fault log (R395 to R397) -/

/-- Byte fields of a telemetry page. -/
def signedLe (n : Nat) (v : Int) : List Byte := leBytes n (ofSigned (8 * n) v)

/-- Page 3 (R470). -/
def pageTiming (s : State) : List Byte :=
  let flags := b2n (s.rdb TIM_STATUS.time_error) + 2 * b2n (s.rdb TIM_STATUS.forced) + 4 * b2n (s.rdb TIM_STATUS.freq_assisted) +
    8 * b2n (s.rd TIM_STATUS.time_pll_src != 0) + 16 * b2n (s.rdb TIM_STATUS.model_usable) + 32 * b2n (s.rdb TIM_STATUS.ref_disagree) +
    64 * b2n s.tim.fallback
  let range := match learnedRange s with
    | some r => signedLe 2 r.1 ++ signedLe 2 r.2
    | none => leBytes 2 0x8000 ++ leBytes 2 0x8000
  leBytes 1 (s.rd TIM_STATUS.state) ++ leBytes 1 (s.rd TIM_STATUS.previous) ++ leBytes 1 (s.rd TIM_STATUS.tq_class) ++
    leBytes 1 (s.rd TIM_HO_CFG.osc_class) ++ leBytes 1 (s.rd TIM_STATUS.phase_ref) ++ leBytes 1 (s.rd TIM_STATUS.synce_sel) ++
    leBytes 1 flags ++ leBytes 1 0 ++ signedLe 8 s.tim.eng.offset ++ signedLe 4 s.tim.ppt ++ leBytes 4 (s.rd TIM_HO_BOUND.bound_ns) ++
    leBytes 4 (s.rd TIM_HO_ELAPSED.seconds) ++ leBytes 4 (s.rd TIM_LEARNED.learned_s) ++ signedLe 2 s.tim.temp ++ range ++
    leBytes 2 (min 0x7FFF (s.tim.eng.excess / 100)) ++ signedLe 8 s.tim.lastStep

/-- Page 4 (R537); without a partner its class is not stated. -/
def pagePair (s : State) : List Byte × State :=
  let u := s.fresh 8
  let tq : Nat × State := match s.pair.partner with
    | some p => (p.tq, s)
    | none => (u.1.toNat, u.2)
  let own := if s.rd DEV_MODE.mode = modeShadow then s.pair.ownTq else s.rd TIM_STATUS.tq_class
  (leBytes 1 (roleCode s) ++ leBytes 1 (s.rd PRL_STATUS.link_state) ++ leBytes 1 (s.rd PRL_STATUS.width) ++ leBytes 1 (s.rd PRL_STATUS.fit) ++
    leBytes 1 own ++ leBytes 1 tq.1 ++ leBytes 1 (s.rd PRL_STATUS.release) ++ leBytes 1 0 ++ signedLe 8 s.pair.offset ++
    leBytes 4 s.pair.mismatches ++ leBytes 4 s.pair.takeovers ++ leBytes 4 s.pair.lastEdge ++ leBytes 1 s.pair.lastFault ++ leBytes 3 0, tq.2)

/-- What pages 0 to 2 report: sensors and effective temperatures; ADC channels; lane states and error counts. -/
def readings (s : State) (page : Nat) : List Nat :=
  if page = 0 then
    (List.range 96).flatMap (fun n => [s.rd THM_SENSOR.temp n, s.rd THM_SENSOR.valid n]) ++ (List.range 4).map (fun d => s.rd THM_DIE.eff_temp d) ++
      [s.rd THM_STATUS.eff_temp]
  else if page = 1 then (List.range 48).map (fun c => s.rd WKT_ADC.code c)
  else (List.range 16).flatMap (fun n =>
    [laneState s n, laneMode s n, s.rd FHL_FEC_COUNTS.corrected n, s.rd FHL_FEC_COUNTS.uncorrectable n, s.rd FHL_TX_COUNTS.link_down n])

/-- The body of a telemetry page. -/
def pageOf (s : State) (page : Nat) : List Byte × State :=
  if page = 3 then (pageTiming s, s) else if page = 4 then pagePair s else (Config.pageBody page (readings s page), s)

/-- TELEMETRY_READ. -/
def telemetry (t : Track) (s : State) : State :=
  let page := t.par 0x1C 1
  let r := pageOf s page
  let c := counter s
  let all := leBytes 1 page ++ leBytes 1 1 ++ leBytes 2 r.1.length ++ leBytes 12 (time96 c) ++ r.1
  if 4 < page ∨ t.par 0x10 8 % 8 ≠ 0 ∨ t.par 0x18 4 < all.length then finish s t.id .invalidField
  else finish (writeHost (commit r.2 t.id) (t.par 0x10 8) all) t.id .success all.length

/-- The 32 bytes of a fault-log entry (R560). -/
def entryBytes (e : FaultEntry) : List Byte :=
  let flags := b2n e.injected + 2 * b2n e.withheld + 4 * b2n e.history + 8 * b2n e.setDegraded
  leBytes 4 e.seq ++ leBytes 2 e.kind.code ++ leBytes 1 e.kind.cls ++ leBytes 1 flags ++ leBytes 2 (timeFraction e.time) ++
    leBytes 4 (timeNs e.time) ++ leBytes 6 (timeSec e.time) ++ leBytes 1 e.die ++ leBytes 1 0 ++ leBytes 2 e.unit ++ leBytes 8 e.detail

/-- FAULT_LOG_READ. -/
def faultLogRead (t : Track) (s : State) : State :=
  let n := t.par 0x18 2
  if n = 0 ∨ 1024 < n ∨ t.par 0x10 8 % 8 ≠ 0 then finish s t.id .invalidField
  else
    let l := s.safe.log.take n
    let left := if (t.par 0x1A 1).testBit 0 then s.safe.log.drop n else s.safe.log
    let s1 := { s with safe := { s.safe with log := left } }.wr SAF_LOG_STATUS.entries left.length
    finish (writeHost (commit s1 t.id) (t.par 0x10 8) (l.flatMap entryBytes)) t.id .success l.length left.length

/-- THROTTLE_ACK. -/
def throttleAck (t : Track) (s : State) : State :=
  if thState s = thIdle ∨ t.par 0x10 2 ≠ s.rd THM_THROTTLE_STATUS.request then finish s t.id .invalidField
  else finish (commit (s.wr THM_THROTTLE_STATUS.acked 1) t.id) t.id .success

/-! ## MODE_SET (R39 to R42, R48, R400, R554) -/

/-- The pairs of R39 that MODE_SET may name. -/
def modePair (a b : Nat) : Bool :=
  (a == modeAssembly && (b == modeRun || b == modeService || b == modeDormant)) ||
    (a == modeRun && (b == modeAssembly || b == modeService || b == modeDormant)) || (a == modeService && b == modeAssembly)

/-- MODE_SET RUN: the named context is staged, unless it is READY, and swapped in (R42). -/
def modeRunSet (sd : SwapData) (t : Track) (s : State) : State :=
  let c := t.par 0x11 1
  let begun (s : State) : State :=
    { s with boot := { s.boot with transition := some { dest := modeRun, id := t.id, ctx := c, since := s.now } } }.wr DEV_MODE.transition_busy 1
  let ready := stagedState s == stReady && stagedCtx s == c && !stagedRepair s
  if thermalLimit s then finish s t.id .thermalLimit
  else if !committed s c || (s.rd TIM_STATUS.state == tmFree && !(t.par 0x12 1).testBit 0) then finish s t.id .notReady
  else if s.ctxs.staging.isSome || s.ctxs.armed.isSome || (running s && !ready) then finish s t.id .busy
  else if ready then runSwap (begun s) sd
  else if (stagingRefusal s c).isSome then finish s t.id .busy
  else startStaging (begun s) c (.mode t.id)

/-- Leaving SERVICE stops the intrusive tests and removes the loopbacks (R39). -/
def stopIntrusive (s : State) : State :=
  let scans := s.fh.scans.filter (fun c => c.intrusive)
  let s1 := scans.foldl (fun s c => cutScan s c.group c.lane) s
  let s2 := match s1.safe.intrusive with
    | some id => finish { s1 with safe := { s1.safe with intrusive := none } } id .aborted
    | none => s1
  (List.range 16).foldl (fun s n => if (laneOf s n).looped then startLane (setLane s n { laneOf s n with looped := false }) n else s) s2

/-- A wake source that can wake the device is enabled. -/
def wakeable (s : State) : Bool :=
  wakeEnabled s 0 || wakeEnabled s 1 || (wakeEnabled s 2 && s.rd WKT_WAKE_TIMER.seconds != 0)

/-- MODE_SET DORMANT: fetching stops, and power-down follows PME_Turn_Off (R48). -/
def modeDormantSet (t : Track) (s : State) : State :=
  if !wakeable s then finish s t.id .invalidField
  else if s.link.tracks.any (fun u => u.id != t.id) then finish s t.id .busy
  else
    let s1 := commit s t.id
    finish { s1 with link := { s1.link with cancelAll := true }, boot := { s1.boot with dormantCommit := some s1.now } } t.id .success

/-- MODE_SET, with what the fabric gives a swap edge. -/
def modeSet (sd : SwapData) (t : Track) (s : State) : State :=
  let m := t.par 0x10 1
  let now := s.rd DEV_MODE.mode
  if m = 0 ∨ 7 ≤ m then finish s t.id .invalidField
  else if m = modeLead ∨ m = modeShadow then finish s t.id .modeForbids
  else if (t.par 0x11 1 ≠ 0 ∨ t.par 0x12 1 ≠ 0) ∧ (now ≠ modeAssembly ∨ m ≠ modeRun ∨ 7 < t.par 0x11 1) then finish s t.id .invalidField
  else if transitioning s then finish s t.id .busy
  else if m = now then finish (commit s t.id) t.id .success
  else if !modePair now m then finish s t.id .modeForbids
  else if s.safe.injection.isSome then finish s t.id .busy
  else if m = modeRun then modeRunSet sd t s
  else if m = modeDormant then modeDormantSet t s
  else
    let s1 := exitAllEi (if now = modeService then stopIntrusive s else s)
    finish (commit (setMode s1 m) t.id) t.id .success

/-! ## Host-memory reads (R365, R341) -/

/-- All bytes of a command's read have arrived. -/
def readDone (t : Track) (d : List Byte) (s : State) : State :=
  if t.op = 0x10 ∨ t.op = 0x11 then
    match s.imgs.load with
    | some l => if l.id = t.id then porterTurn (loadRead s l d) else s
    | none => s
  else if t.op = 0x14 then scheduleTable t d s
  else if t.op = 0x20 ∨ t.op = 0x22 then dmaHostData t.id d s
  else if t.op = 0x30 ∨ t.op = 0x71 then porterData s t.id d
  else if t.op = 0x53 then changeList t d s
  else s

/-- A TLP with data: the bytes of an image stream are used as they come, all others when the read is whole. -/
def readData (r : HostRead) (t : Track) (d : List Byte) (s : State) : State :=
  let d := d.take (r.length - r.got.length)
  let got := r.got ++ d
  let s1 := if got.length = r.length then dropRead s r.id
    else { s with link := { s.link with reads := s.link.reads.map (fun x => if x.id == r.id then { x with got := got } else x) } }
  match s1.imgs.load with
  | some l =>
    if l.id = r.id ∧ loadPhase s1 = phStreaming then streamBytes s1 l d else if got.length = r.length then readDone t got s1 else s1
  | none => if got.length = r.length then readDone t got s1 else s1

/-- A TLP failed: the read ends the command POISONED. A DMA command has written the bytes of the TLPs before it (R382). -/
def readFails (r : HostRead) (t : Track) (s : State) : State :=
  let s1 := dropRead s r.id
  porterTurn <| match dmaOf s1 r.id, s1.imgs.load, s1.pair.prepared with
  | some d, _, _ =>
    match d.elems[d.idx]? with
    | some e => let p := dmaRest (r.got.length + 1) s1 d e r.got; dmaEnd p.1 p.2 .poisoned
    | none => dmaEnd s1 d .poisoned
  | none, some l, _ => if l.id = r.id then endLoad s1 l .poisoned else finish s1 t.id .poisoned
  | none, none, some p => if p.id = t.id then prepareFails s1 p 0 .poisoned else finish s1 t.id .poisoned
  | none, none, none => finish s1 t.id .poisoned

/-- A completion for a host-memory read. A ring's entries come with COMMAND_FETCH; its failed fetch puts the queue in ERROR (R341). -/
def readCompletion (g : HostTarget) (o : ReadOutcome) (s : State) : State :=
  if !s.link.up then s
  else
    match g with
    | .ring q =>
      match o, queueOf s q with
      | .data _, _ | _, none => s
      | _, some _ => queueError s q 3
    | .owner =>
      match s.link.reads.find? (fun r => r.id == ownerRead), o with
      | some r, .data d =>
        let got := r.got ++ d.take (r.length - r.got.length)
        if got.length = r.length then ownerData (some got) s
        else { s with link := { s.link with reads := s.link.reads.map (fun x => if x.id == ownerRead then { x with got := got } else x) } }
      | some _, _ => ownerData none s
      | none, _ => s
    | .command id =>
      match s.link.reads.find? (fun r => r.id == id), trackOf s id with
      | some r, some t =>
        match o with
        | .data d => pairCheck (readData r t d s)
        | _ => pairCheck (readFails r t s)
      | _, _ => s

/-! ## The PCIe link (R44, R333 to R335) -/

/-- The lanes of a link of width `w`, none of them dropped. -/
def lanesUsable (s : State) (w : Nat) (reversed : Bool) : Bool :=
  (List.range w).all (fun n => !bit (s.rd PCIE_LINK_STATUS.dropped) (if reversed then 7 - n else n))

/-- Training reaches L0. A link that retrains takes the widest width, up to its own, whose lanes are all undropped (R334). -/
def linkTrained (speed w : Nat) (reversed : Bool) (s : State) : State :=
  if s.boot.porHeld || s.boot.dormant || !s.boot.hostUp || s.link.perst || !s.link.refclk || speed == 0 || decide (5 < speed) ||
      !([1, 2, 4, 8].contains w) || !lanesUsable s w reversed ||
      (s.link.training && [8, 4, 2, 1].find? (fun v => decide (v ≤ s.rd PCIE_LINK_STATUS.width) && (lanesUsable s v false || lanesUsable s v true)) != some w)
    then s
  else
    let t := { s with link := { s.link with up := true, training := false } }
    resumeMovers (((t.wr PCIE_LINK_STATUS.speed speed).wr PCIE_LINK_STATUS.width w).wrb PCIE_LINK_STATUS.reversed reversed)

/-- A lane whose receiver errors exceed the limit in a 1 s window is dropped, and the link retrains; without lanes 0 and 7 it is lost. -/
def pcieErrors (n errors : Nat) (s : State) : State :=
  if !s.link.up || bit (s.rd PCIE_LINK_STATUS.dropped) n || decide (errors ≤ laneLimit s 2) then s
  else
    let t := setDegraded (fault ((cutScan s 1 n).wrBit PCIE_LINK_STATUS.dropped n true) .laneDropped (0x100 + n) 0 (die := 0) (degraded := true))
      dgPcie true
    let d := t.rd PCIE_LINK_STATUS.dropped
    if bit d 0 && bit d 7 then linkDown t
    else { t.inc PCIE_ERR_COUNTS.retrains with link := { t.link with training := true } }

/-! ## Meanings -/

/-- NOP (R370). -/
def execNop (id : Nat) (s : State) : Res := .next (startCommand 0x01 id s (fun t s => finish (commit s t.id) t.id .success))

/-- IDENTIFY (R370). -/
def execIdentify (id : Nat) (s : State) : Res := .next (startCommand 0x02 id s identify)

/-- ABORT (R353 to R355, R371). -/
def execAbort (id : Nat) (s : State) : Res := .next (startCommand 0x03 id s abort)

/-- QUEUE_CREATE (R338, R372). -/
def execQueueCreate (id : Nat) (s : State) : Res := .next (startCommand 0x04 id s queueCreate)

/-- QUEUE_DISABLE (R356, R373). -/
def execQueueDisable (id : Nat) (s : State) : Res := .next (startCommand 0x05 id s queueDisable)

/-- QUEUE_DELETE (R357, R373). -/
def execQueueDelete (id : Nat) (s : State) : Res := .next (startCommand 0x06 id s queueDelete)

/-- SNAPSHOT_FF (R314, R379). -/
def execSnapshotFf (id : Nat) (s : State) : Res := .next (startCommand 0x16 id s snapshot)

/-- SNAPSHOT_CAPTURE_EDGE (R314, R315). -/
def execSnapshotCaptureEdge (id : Nat) (values : List (BitVec 512)) (s : State) : Res := .next (snapshotEdge id values s)

/-- TELEMETRY_READ (R395, R470, R537). -/
def execTelemetryRead (id : Nat) (s : State) : Res := .next (startCommand 0x61 id s telemetry)

/-- FAULT_LOG_READ (R396, R560). -/
def execFaultLogRead (id : Nat) (s : State) : Res := .next (startCommand 0x62 id s faultLogRead)

/-- THROTTLE_ACK (R397, R486). -/
def execThrottleAck (id : Nat) (s : State) : Res := .next (startCommand 0x63 id s throttleAck)

/-- MODE_SET (R39 to R42, R48, R400). -/
def execModeSet (id : Nat) (swap : SwapData) (s : State) : Res := .next (startCommand 0x7F id s (modeSet swap))

/-- HOST_READ_COMPLETION (R365, R341). -/
def execHostReadCompletion (target : HostTarget) (outcome : ReadOutcome) (s : State) : Res := .next (readCompletion target outcome s)

/-- A read that gets no completion times out between 50 ms and 65 ms after its request (R333); at what moment of them is a free value. When a ring was read
the model does not hold (DESIGN CHOICE, log entry 190). -/
def timedOut (g : HostTarget) (s : State) : State :=
  let late (id : Nat) : State :=
    match s.link.reads.find? (fun r => r.id == id) with
    | some r => let f := s.fresh 32; advanceTo f.2 (r.at_ + 50 * msTicks + f.1.toNat % (15 * msTicks + 1))
    | none => s
  if !s.link.up then s
  else match g with
    | .ring _ => s
    | .owner => late ownerRead
    | .command id => if (trackOf s id).isSome then late id else s

/-- COMPLETION_TIMEOUT (R333, R341, R365). -/
def execCompletionTimeout (target : HostTarget) (s : State) : Res := .next (readCompletion target .abort (timedOut target s))

/-- LINK_TRAINING_COMPLETE (R44, R334). -/
def execLinkTrainingComplete (speed : Fin 8) (width : Fin 16) (reversed : Bool) (s : State) : Res := .next (linkTrained speed width reversed s)

/-- PCIE_LANE_ERROR_WINDOW (R334, R541). -/
def execPcieLaneErrorWindow (lane : Fin 8) (errors : Nat) (s : State) : Res := .next (pcieErrors lane errors s)

end Sys2Proof.Machine
end

