-- ==== Sys2Proof/Machine/Boot.lean ====
section
/-! DEFINITION. The boot sequence (R43 to R47): its stages from the deassertion of POR_N to ASSEMBLY. The stages 0x03 and 0x04 stand in Clocks.lean. -/

namespace Sys2Proof.Machine

/-! ## Stages 0x01 and 0x02 -/

/-- POR_N is deasserted: the straps are sampled (R224, R430), the cause of the reset is recorded (R55) and stage 0x01 runs; `halt` is 1 where a ROM
table fails and 2 where a fuse field that the model does not hold does. The owner slots and debug_disabled are read by majority (R274). -/
def porDeassert (fsel rate halt : Nat) (s : State) : State :=
  if !s.boot.porHeld then s
  else
    let cause := s.boot.cause.getD .powerOn
    let t := { s with boot := { s.boot with porHeld := false, cause := none } }
    let t := ((t.wr CLK_WKT_TRIM.fsel fsel).wr DRC_MAP.rate rate).wrb DRC_MAP.strap_no_dram (rate == 3)
    let t := enterStage (recordCause t cause) 1
    if halt ≠ 0 then haltBoot t halt
    else match fusesRead t with
      | none => haltBoot t 2
      | some t => enterStage (showFuses t) 2

/-- A channel's last code lies within limits. -/
def codeIn (s : State) (c : Nat) (r : Nat × Nat) : Bool := decide (r.1 ≤ s.rd WKT_ADC.code c) && decide (s.rd WKT_ADC.code c ≤ r.2)

/-- The supply of bank `b` is identified (R491): 1.8 V, 3.3 V, or a fault. -/
def identifyBank (s : State) (b : Nat) : State :=
  let low := codeIn s (10 + b) (1710, 1890)
  (s.wrBit PIN_STATUS.bank_1v8 b low).wrBit PIN_STATUS.bank_fault b (!low && !codeIn s (10 + b) (3135, 3465))

/-- Stage 0x02 ends with a housekeeping round: every rail but the bank supplies must lie within its limits (R43). -/
def railCheck (s : State) : State :=
  if !inStage s 2 || s.wkt.round == 0 then s
  else
    let t := (List.range 4).foldl identifyBank s
    if ([0, 1, 2, 3, 4] ++ (List.range 8).map (· + 14)).all (fun c => codeIn t c (railRange t c)) then enterStage t 3 else haltBoot t 3

/-! ## Stages 0x05 to 0x07 -/

/-- The Porter's pairs start and verify their tables, and the device keys are derived (R275): `result` is 1 where a ROM table fails and 2 where UDS is
not reconstructed. The fingerprint and the fuses are shown, and a debug nonce is drawn (R286, R290). -/
def porterStart (result : Nat) (s : State) : State :=
  if !inStage s 5 then s
  else if result ≠ 0 then haltBoot s result
  else
    let t := (List.range 8).foldl (fun t k => t.wr SEC_FINGERPRINT.bytes (field fingerprint (4 * k) 4) k) (showFuses (drawNonce s))
    enterStage t 6

/-- D1, D2 and D3 are released in that order and train; `failed` is the first die whose groups fail three times (R46). -/
def dieTraining (failed : Option Nat) (s : State) : State :=
  if !inStage s 6 then s
  else
    let opened := failed.getD 3
    let t := advance (if 2 ≤ opened then dlockRelease s else s) (20 * usTicks)
    let t := (List.range opened).foldl (fun t k => setDie t (k + 1) .open_) t
    match failed with
    | some k => haltBoot t (7 + k)
    | none => enterStage { t with noc := { t.noc with fenced := false } } 7

/-- The store of retained images (R310, R311): region 31 under slot 63, or the memory-die reserve. -/
def openStore (s : State) : State :=
  if (List.range 2).any (fun c => s.rd DRC_STATUS.state c == drActive) then
    let (k, t) := s.fresh 512
    let t := setSlotState { t with enc := { t.enc with keys := sparsePut t.enc.keys 63 k } } 63 2
    let t := ((t.wr ENC_REGION_BASE.base 0 31).wr ENC_REGION_LIMIT.limit 0x13FFF 31).wr ENC_REGION_META.meta 0x14000 31
    let t := ((t.wr ENC_REGION_CFG.mode moWide 31).wr ENC_REGION_CFG.key_id 63 31).wr ENC_REGION_CFG.enable 1 31
    showStore (t.wr ENC_REGION_STATUS.state rsActive 31)
  else
    showStore (((s.wr MEM_STATUS.reserve_base 3072).wr MEM_STATUS.reserve_active 1).wr CFG_RETAIN_STATUS.in_reserve 1)

/-- Stage 0x07: the memory die is invalid, planes and signatures are cleared, and the Thicket memories are zero. Without DRAM, stage 0x08 is skipped. -/
def stackClear (s : State) : State :=
  if !inStage s 7 then s
  else
    let t := { s with
      mem := { s.mem with words := [], updates := [], clearing := [] }
      ctxs := { s.ctxs with planes := [], sigs := [] }
      tiles := s.tiles.map (fun (p : Nat × Tile) => (p.1, { p.2 with x := [], y := [], prog := [], vectors := [], newVectors := [], ranges := [], newRanges := [] })) }
    let t := { t with tiles := t.tiles.filter (fun (p : Nat × Tile) => p.2 != Tile.zero) }
    if t.rdb DRC_MAP.strap_no_dram then enterStage (openStore t) 0xFF else enterStage ((t.wr DRC_STATUS.state drTraining 0).wr DRC_STATUS.state drTraining 1) 8

/-! ## Stage 0x08 (R223 to R228, R244, R310) -/

/-- GiB of a supported arrangement (R223); 0 for any other. -/
def fitCapacity (x8 twoRanks dense : Bool) : Nat :=
  if !x8 then (if twoRanks || dense then 0 else 32)
  else if twoRanks then (if dense then 0 else 32)
  else if dense then 32 else 16

/-- Controller `c` is disabled, and boot goes on (R45). -/
def disableCtrl (s : State) (c : Nat) : State :=
  (s.wr DRC_STATUS.state drDisabled c).wr (if c = 0 then DEV_BOOT_STATUS.dram0_disabled else DEV_BOOT_STATUS.dram1_disabled) 1

/-- A listed repair that fails to reapply is dropped (R244). The entry names the row's place in the log; where the row has none, a free value. -/
def dropRepair (c : Nat) (s : State) (res : Nat) : State :=
  let x := ctrl s c
  match x.softRepairs.find? (fun p => p.1 == res) with
  | none => s
  | some p =>
    let t := (setCtrl s c { x with softRepairs := x.softRepairs.filter (fun p => p.1 != res) }).wrBit DRC_PPR.used res false c
    match (List.range 32).find? (fun e =>
      s.rdb DRC_ELOG_LO.in_use c e && (entryRow s c e).resource == res && (entryRow s c e).bank == p.2.1 && (entryRow s c e).row == p.2.2) with
    | some e => fault t .dramRepairDropped c e (die := 0)
    | none => fault (t.fresh 64).2 .dramRepairDropped c (t.fresh 64).1.toNat (die := 0)

/-- Controller `c` trains: the state after it, and its capacity in GiB. `drop` are the repair resources that fail to reapply. -/
def trainCtrl (s : State) (c : Nat) (fit : DramFit) (drop : List (Fin 32)) : State × Nat :=
  match fit with
  | .failed => (disableCtrl s c, 0)
  | .unsupported => (disableCtrl (s.wr DRC_STATUS.unsupported_config 1 c) c, 0)
  | .trained x8 two dense groups =>
    let cap := fitCapacity x8 two dense
    if cap = 0 then (disableCtrl (s.wr DRC_STATUS.unsupported_config 1 c) c, 0)
    else
      let t := ((s.wrb DRC_STATUS.width_x8 x8 c).wrb DRC_STATUS.two_ranks two c).wrb DRC_STATUS.density_32gb dense c
      let t := groups.toList.zipIdx.foldl (fun t p => takeGroup t c p.2 p.1) t
      if groups.toList.any groupFails then (disableCtrl t c, 0)
      else ((drop.foldl (fun t r => dropRepair c t r.val) (t.wr DRC_STATUS.band (t.rd THM_STATUS.band) c)).wr DRC_STATUS.state drActive c, cap)

/-- Stage 0x08 ends: both controllers have trained in parallel, and the map is fixed (R225). -/
def ddrTraining (fit0 fit1 : DramFit) (drop0 drop1 : List (Fin 32)) (s : State) : State :=
  if !inStage s 8 then s
  else
    let (s0, c0) := trainCtrl s 0 fit0 drop0
    let (s1, c1) := trainCtrl s0 1 fit1 drop1
    let both := c0 != 0 && c1 != 0
    let cap := if both then 2 * min c0 c1 else c0 + c1
    let t := ((s1.wrb DRC_MAP.interleaved both).wrb DRC_MAP.capacity_mismatch (both && c0 != c1)).wr DRC_MAP.capacity_gib cap
    enterStage (openStore t) 0xFF

/-- DEV_MODE reads ASSEMBLY: pins that sleep wake, and enabled lanes start. -/
def bootComplete (s : State) : State :=
  if inStage s 0xFF then (List.range 16).foldl startLane (wakePins (setMode s modeAssembly)) else s

/-! ## Meanings -/

/-- POR_N_DEASSERT (R43, R224, R430): the straps LOCAL_OSC_FSEL and DDR_RATE, and how stage 0x01 ends. -/
def execPorNDeassert (fsel : Fin 8) (rate : Fin 4) (halt : Fin 3) (s : State) : Res := .next (porDeassert fsel rate halt s)

/-- BOOT_RAIL_CHECK (R43, R491). -/
def execBootRailCheck (s : State) : Res := .next (railCheck s)

/-- PORTER_START (R43, R275). -/
def execPorterStart (result : Fin 3) (s : State) : Res := .next (porterStart result s)

/-- DIE_RELEASE_TRAINING (R43, R46, R79). -/
def execDieReleaseTraining (failed : Option (Fin 3)) (s : State) : Res := .next (dieTraining (failed.map (fun k => k.val)) s)

/-- STACK_CLEAR (R43). -/
def execStackClear (s : State) : Res := .next (stackClear s)

/-- DDR_TRAINING (R223 to R228, R244, R310). -/
def execDdrTraining (fit0 : DramFit) (fit1 : DramFit) (drop0 : List (Fin 32)) (drop1 : List (Fin 32)) (s : State) : Res :=
  .next (ddrTraining fit0 fit1 drop0 drop1 s)

/-- BOOT_COMPLETE (R43). -/
def execBootComplete (s : State) : Res := .next (bootComplete s)

end Sys2Proof.Machine
end

