-- ==== Sys2Proof/Machine/Bist.lean ====
section
/-! DEFINITION. Self-test and the safety policy (R540 to R563): analog slices, BIST_RUN, fault injection, and host software's hold on the safe state. -/

namespace Sys2Proof.Machine

/-! ## Analog slices (R549 to R552) -/

/-- The group of a slice. -/
def sliceGroup (n : Nat) : Nat :=
  if n < 13 then 0 else if n < 17 then 1 else if n < 25 then 2 else if n < 41 then 3 else if n < 49 then 4 else if n < 57 then 5
  else if n < 73 then 6 else if n < 89 then 7 else 8

/-- The lane whose offset sampler a slice checks: group of R406 and lane. -/
def sliceLane (n : Nat) : Option (Nat × Nat) :=
  if sliceGroup n = 3 then some (0, n - 25) else if sliceGroup n = 4 then some (1, n - 41) else if sliceGroup n = 5 then some (2, n - 49) else none

/-- The lane of a slice is under an eye scan. -/
def sliceScanned (s : State) (n : Nat) : Bool :=
  match sliceLane n with
  | some l => s.fh.scans.any (fun c => c.group == l.1 && c.lane == l.2)
  | none => false

/-- The subject of a slice is absent (R552). -/
def sliceAbsent (s : State) (n : Nat) : Bool :=
  match sliceLane n with
  | some (0, l) => laneState s l == lnOff || laneState s l == lnDropped
  | some (1, l) => !s.link.up || bit (s.rd PCIE_LINK_STATUS.dropped) l
  | some (_, l) => s.rd PRL_STATUS.link_state == lkOff || bit (s.rd PRL_STATUS.dropped) l
  | none =>
    if 5 ≤ n ∧ n < 13 then !s.rdb CLK_UPLL_CFG.enable (n - 5)
    else if 89 ≤ n then s.rd DRC_STATUS.state ((n - 89) / 4) != drActive else false

/-- A cycle is complete after slice 96 (R550). -/
def endCycle (s : State) : State :=
  if s.safe.slice < 97 ∨ s.safe.again.isSome then s
  else { s with safe := { s.safe with slice := 0, repeats := 0 } }.wr BIST_STATUS.cycles ((s.rd BIST_STATUS.cycles + 1) % 65536)

/-- A running BIST_RUN set 0 counts a slice that was decided, and completes after 97 places of the cycle (R394). -/
def bistCount (s : State) (ran moved : Bool) : State :=
  match s.safe.bistCmd with
  | none => s
  | some b =>
    let c := { b with run := b.run + b2n ran, decided := b.decided + b2n moved }
    if c.decided < 97 then { s with safe := { s.safe with bistCmd := some c } }
    else finish { s with safe := { s.safe with bistCmd := none } } b.id .success s.safe.bistGroups c.run

/-- Slice `n` is decided; the cycle goes on behind its place. -/
def settleSlice (s : State) (n : Nat) (ran : Bool) : State :=
  let moved := s.safe.slice == n
  let t := { s with safe := { s.safe with again := none, slice := if moved then n + 1 else s.safe.slice } }
  endCycle (bistCount t ran moved)

/-- The failed spare channels of the groups of slice `n` are treated as in use (R551). -/
def failChannels (s : State) (spares : List (Nat × Nat × Nat)) : State :=
  spares.foldl (fun s p =>
    let g := groupKey p.1 p.2.1
    if s.stack.failed.contains (g, p.2.2) || decide (groupSpares p.1 ≤ p.2.2) then s
    else countFull s { s with stack := { s.stack with failed := s.stack.failed ++ [(g, p.2.2)] } } g) s

/-- A slice fails: BIST_FAIL, the bit of its group, the bist_fail cause, and what it finds failing (R551). -/
def sliceFails (s : State) (n : Nat) (sig : Word) (spares : List (Nat × Nat × Nat)) : State :=
  let g := sliceGroup n
  let t := (fault s .bistFail n sig.toNat).wrBit BIST_STATUS.failed g true
  let t := { t with safe := { t.safe with
    bistGroups := putBit t.safe.bistGroups g true
    failedSamplers := if (sliceLane n).isSome then sparseSet false t.safe.failedSamplers n true else t.safe.failedSamplers } }
  setCause (if g = 6 ∨ g = 7 then failChannels t spares else t) scBistFail

/-- A slice is skipped (R552). -/
def skipSlice (s : State) (n : Nat) : State := settleSlice (s.inc BIST_STATUS.skipped) n false

/-- The signature that the ROM holds for slice `n` in the band in force. -/
def romSignature (s : State) (n : Nat) : Word := Config.bistRom n (s.rd THM_STATUS.band)

/-- Slice `n` runs and finds `sig`. -/
def runSlice (s : State) (n : Nat) (sig : Word) (spares : List (Nat × Nat × Nat)) : State :=
  if sliceAbsent s n then skipSlice s n
  else if injArmed s 0x0C n then
    if sig = ~~~romSignature s n then settleSlice s n true
    else settleSlice (injectionEnd (fault s .bistFail n sig.toNat (injected := true) (withheld := true)) s.now (2 ^ sliceGroup n) 1) n true
  else if sig = romSignature s n then settleSlice s n true
  else if s.safe.again ≠ some n ∧ s.safe.repeats < 2 then
    { s with safe := { s.safe with again := some n, repeats := s.safe.repeats + 1 } }
  else settleSlice (sliceFails s n sig spares) n true

/-- Slices whose lane is under an eye scan are deferred, and skipped where they still are from the cycle before (R552); `fuel` bounds them. -/
def passScans : Nat → State → State
  | 0, s => s
  | k + 1, s =>
    let n := s.safe.slice
    if !sliceScanned s n then s
    else if s.safe.deferred.contains n then passScans k (skipSlice s n)
    else passScans k (settleSlice { s with safe := { s.safe with deferred := s.safe.deferred ++ [n] } } n false)

/-- The next slot of 10 ms (R550): a repeat, a deferred slice whose scan has ended, or the next of the cycle. -/
def bistSlice (sig : Word) (spares : List (Nat × Nat × Nat)) (s : State) : State :=
  if s.rd DEV_MODE.mode = modeBoot ∨ s.boot.dormant then s
  else
    let t := advanceTo s (s.safe.lastSlice + 10 * msTicks)
    let t := { t with safe := { t.safe with lastSlice := t.now } }
    match t.safe.again with
    | some n => runSlice t n sig spares
    | none =>
      match t.safe.deferred.find? (fun n => !sliceScanned t n) with
      | some n => runSlice { t with safe := { t.safe with deferred := t.safe.deferred.filter (fun m => m != n) } } n sig spares
      | none =>
        let u := passScans 33 t
        runSlice u u.safe.slice sig spares

/-! ## Fault injection (R554 to R556) -/

/-- The highest variant of a mechanism for a target. -/
def injVariants (mech target : Nat) : Nat :=
  if mech = 0x05 ∨ mech = 0x06 ∨ mech = 0x07 ∨ mech = 0x09 ∨ mech = 0x0B then 1 else if mech = 0x0A ∧ target = 3 then 1 else 0

/-- The target is one that R555 permits, and meets its condition. -/
def injTarget (s : State) (mech target : Nat) : Bool :=
  match mech with
  | 0x01 => target == 0
  | 0x02 => target == 0
  | 0x03 => decide (target % 2 ^ 18 < frameCount) && decide (target / 2 ^ 18 < 8) && committed s (target / 2 ^ 18)
  | 0x04 => decide (target < frameCount)
  | 0x05 => (memWord s (target % 4096) (target / 4096)).isSome && !inReserve s (target % 4096)
  | 0x06 => decide (target * 4096 < dramCapacity s) && (regionOf s (target * 4096)).isNone
  | 0x07 => decide (target < 2 ^ 23)
  | 0x08 => decide (target < 1024)
  | 0x09 => decide (target < 48)
  | 0x0A => decide (target < 4)
  | 0x0B => decide (target < 128) && decide (target / 4 < 24)
  | 0x0C => decide (target < 97)
  | _ => false

/-- The PA that the Porter reads for the mechanisms 0x05 to 0x07. -/
def injPa (mech target : Nat) : Nat :=
  if mech = 0x05 then wordPa (target % 4096) (target / 4096)
  else if mech = 0x06 then target * 4096
  else 0x1008000000 + target % 1024 * 0x8000 + bits target 10 1 * 0x4000 + bits target 11 12 * 4

/-- The Porter's read of the mechanisms 0x05 to 0x07 finds the injected error; write-backs are withheld. -/
def injRead (s : State) (mech target variant : Nat) (f : AccessFind) : State :=
  let pa := injPa mech target
  let r := readNow (advance s (hcTicks s)) 0x20 pa (if mech = 0x06 then 64 else if mech = 0x05 then 8 else 4) f
  let t := r.2
  if r.1.1 ≠ 0 ∧ r.1.1 ≠ Status.poisoned.code then t
  else if variant = 1 ∧ mech = 0x05 then
    injectionEnd (fault t .memUncorrectable (target % 4096) (paDetail pa 0x20) (die := 1) (injected := true) (withheld := true)) t.now
  else if variant = 1 ∧ mech = 0x06 then
    injectionEnd (fault t .dramUncorrectable (ctrlOfLoc t pa) (paDetail pa 0x20) (die := 0) (injected := true) (withheld := true)) t.now
  else injectionLogged t t.now (if mech = 0x05 then 1 else if mech = 0x06 then 0 else 2)

/-- BIST_RUN set 2 arms an injection. -/
def injectRun (f : AccessFind) (t : Track) (s : State) : State :=
  let mech := t.par 0x11 1
  let target := s.rd SAF_INJ_CFG.target
  let variant := s.rd SAF_INJ_CFG.variant
  if s.safe.injection.isSome then finish s t.id .busy
  else if !injTarget s mech target ∨ injVariants mech target < variant then finish s t.id .invalidField
  else
    let s1 := commit s t.id
    let s2 := { s1 with safe := { s1.safe with
      injection := some { mech := mech, target := target, variant := variant, id := t.id, since := s1.now } } }
    let s3 := (((s2.wr SAF_INJ_STATUS.armed 1).wr SAF_INJ_STATUS.mechanism mech).wr SAF_INJ_STATUS.detected 0).wr SAF_INJ_STATUS.missed 0
    if mech = 0x05 ∨ mech = 0x06 ∨ mech = 0x07 then injRead s3 mech target variant f else s3

/-- The bound of the armed injection passes without detection (R554). -/
def injectionTimeout (s : State) : State :=
  match s.safe.injection with
  | none => s
  | some i => let t := advanceTo s (i.since + injBound s i.mech + 1); injectionEnd t t.now

/-! ## BIST_RUN sets 0 and 1 (R394, R553) -/

/-- The enabled lanes go into internal serial loopback. -/
def loopLanes (s : State) : State :=
  let loop (s : State) (n : Nat) : State :=
    if !laneOn s n ∨ laneState s n = lnDropped then s
    else
      let t := laneTo (cutScan s 0 n) n lnAcquire
      setLane t n { laneOf t n with looped := true }
  let t := (List.range 16).foldl loop s
  if t.rd PRL_STATUS.link_state = lkOff then t else linkTo t lkDetect

def bistRun (f : AccessFind) (t : Track) (s : State) : State :=
  let set := t.par 0x10 1
  if 2 < set ∨ (set < 2 ∧ t.par 0x11 1 ≠ 0) then finish s t.id .invalidField
  else if (set = 1 ∧ s.rd DEV_MODE.mode ≠ modeService) ∨ (set = 2 ∧ s.rd DEV_MODE.mode ≠ modeService ∧ s.rd DEV_MODE.mode ≠ modeAssembly) then
    finish s t.id .modeForbids
  else if 0 < set ∧ thermalLimit s then finish s t.id .thermalLimit
  else if set = 2 then injectRun f t s
  else
    let s1 := commit s t.id
    let s2 := { s1 with safe := { s1.safe with bistGroups := 0 } }
    if set = 0 then { s2 with safe := { s2.safe with bistCmd := some { id := t.id, run := 0, decided := 0 } } }
    else loopLanes { s2 with safe := { s2.safe with intrusive := some t.id } }

/-- A BIST_RUN of set 0 or 1 waits unstarted while another runs. -/
def bistBusy (s : State) (id : Nat) : Bool :=
  (s.safe.bistCmd.isSome || s.safe.intrusive.isSome) && (match trackOf s id with | some t => decide (t.par 0x10 1 < 2) | none => false)

/-- The key and the fault-log places of a failed spare (R562). -/
def spareKey : SpareFail → Nat × Nat × Nat
  | .district d => (d.val, d.val, 0)
  | .dsp c q => (0x100000000 + c.val * 4 + q.val, c.val * 4 + q.val, 1)
  | .mem g k => (0x200000000 + g.val * 4 + k.val, g.val, 2)

/-- A spare that is in use is not tested. -/
def spareUnused (s : State) : SpareFail → Bool
  | .district d => !(sparseFind s.districts d.val).any (fun x => x.spareUsed)
  | .dsp c q => !(bit (s.rd DSP_COL_SPARE.used c.val) q.val)
  | .mem g k => !(bit (s.rd MEM_SPARE_STAT.used g.val) k.val)

/-- A spare that fails its pattern test is recorded, once. -/
def failSpare (s : State) (x : SpareFail) : State :=
  let k := spareKey x
  if !spareUnused s x || sparseGet false s.safe.failedSpares k.1 then s
  else fault { s with safe := { s.safe with failedSpares := sparseSet false s.safe.failedSpares k.1 true } } .spareFailed k.2.1 k.2.2

/-- The intrusive tests end: every slice is judged, failed spares are recorded and the lanes return to ACQUIRE. -/
def intrusiveEnd (sigs : Vector Word 97) (spares : List SpareFail) (channels : List (Nat × Nat × Nat)) (s : State) : State :=
  match s.safe.intrusive with
  | none => s
  | some id =>
    let s1 := match trackOf s id with | some t => advanceTo s (t.startTick + secTicks) | none => s
    let runs := (List.range 97).filter (fun n => !sliceAbsent s1 n)
    let judge (s : State) (n : Nat) : State :=
      if sigs.toArray.getD n 0 = romSignature s n then s else sliceFails s n (sigs.toArray.getD n 0) channels
    let s2 := spares.foldl failSpare (runs.foldl judge s1)
    let groups := runs.foldl (fun g n => if sigs.toArray.getD n 0 = romSignature s1 n then g else putBit g (sliceGroup n) true) 0
    let s3 := { s2 with safe := { s2.safe with intrusive := none } }
    let back (s : State) (n : Nat) : State :=
      if (laneOf s n).looped then startLane (setLane s n { laneOf s n with looped := false }) n else s
    finish ((List.range 16).foldl back s3) id .success groups runs.length

/-! ## Safe causes (R545 to R548) -/

/-- A tile has halted under R148 and has no spare to take. -/
def haltedForGood (s : State) : Bool := s.tiles.any (fun p => p.2.state == .halted && p.2.resumeCkpt && !p.2.lasting)

/-- The condition of a cause holds now (R545). -/
def causeCondition (s : State) (b : Nat) : Bool :=
  if b = scTimeError then s.rdb TIM_STATUS.time_error
  else if b = scInternalFault then
    match s.safe.internalFaultAt with
    | some t => s.rd DEV_MODE.mode == modeLead || decide (t + secTicks ≤ s.now)
    | none => false
  else if b = scRailAlarm then (List.range 48).any (fun c => s.rdb WKT_ADC.alarm c)
  else if b = scPlausibility then s.rdb THM_STATUS.plausibility_fault
  else if b = scLostFrame then s.rd INT_STATUS.lost_frames != 0
  else if b = scDspHalt then haltedForGood s
  else if b = scBistFail then s.rd BIST_STATUS.failed != 0
  else false

/-- 1 s after INTERNAL_FAULT its cause sets, unless the device leads (R330, R545). -/
def internalFaultDelay (s : State) : State :=
  match s.safe.internalFaultAt with
  | some t =>
    if s.rd DEV_MODE.mode = modeLead then s
    else setCause (advanceTo s (t + secTicks)) scInternalFault
  | none => s

/-- A write of SAF_SAFE_CAUSE: each latched bit written with 1 clears if its condition is gone or its policy bit is 0 (R547). A shadow regains its
fit with the last latched cause (R548). -/
def clearCauses (v : Word) (s : State) : State :=
  let one (s : State) (b : Nat) : State :=
    if v.toNat.testBit b && causeSet s b && (!causeCondition s b || !policyAllows s b) then endCause s b else s
  updateFit ([3, 4, 5, 6, 7, 8, 9].foldl one s)

/-- The mute lifts at the first 10 ms frame boundary at which no cause is set (R547); R60's recovery ends when every configured lane is UP. -/
def muteLift (s : State) : State :=
  let t := advanceToCounter s (frameBoundary (counter s))
  let up := (List.range 16).all (fun n => !laneOn t n || laneState t n == lnUp || laneState t n == lnDropped)
  let t := if t.boot.recoverD0 && t.boot.d0 == .idle && up then endRecovery { t with boot := { t.boot with recoverD0 := false } } else t
  if noCause t && t.rdb DEV_MODE.safe_state then unmute t else t

/-! ## The registers of the safety policy (R543) -/

/-- A refused write. -/
def safRefuse (s : State) : State := s.wr SAF_CTRL.refused 1

/-- The causes of the policy bits after a write of them: a condition that holds sets its cause, and an unlatched cause without its bit ends. -/
def applyPolicy (s : State) : State :=
  let one (s : State) (b : Nat) : State := if causeCondition s b then setCause s b else s
  let t := if policyAllows s scTimeError then s else endCause s scTimeError
  [2, 3, 4, 5, 6, 7, 8].foldl one t

/-- A write of SAF_CTRL. -/
def writeCtrl (v : Nat) (s : State) : State :=
  let bitsNow := [2, 3, 4, 5, 6, 7, 8].foldl (fun a b => a + b2n (policyAllows s b) * 2 ^ (b + 6)) 0
  if s.rdb SAF_CTRL.lock ∧ bitsNow ≠ bits v 8 7 * 256 then safRefuse s
  else
    let t := if v.testBit 1 then s.wr SAF_CTRL.refused 0 else s
    let t := if v.testBit 0 then t.wr SAF_CTRL.lock 1 else t
    let t := (List.range 7).foldl (fun t k => t.wr (policyRow (k + 2)) (bits v (8 + k) 1)) t
    applyPolicy t

/-- The highest limit of SAF_WIN_k (R542). -/
def winLimit (k : Nat) : Nat := if k = 2 then 7 else if k = 3 then 31 else 255

/-- A write of SAF_WIN_k. -/
def writeWindow (k v : Nat) (s : State) : State :=
  let w := bits v 0 24
  let l := bits v 24 8
  if w = 0 ∨ l = 0 ∨ winLimit k < l ∨ (s.rdb SAF_CTRL.lock ∧ (w ≠ s.rd SAF_WIN.window k ∨ l ≠ s.rd SAF_WIN.limit k)) then safRefuse s
  else (s.wr SAF_WIN.window w k).wr SAF_WIN.limit l k

/-- A write of SAF_LANE_LIM: a change applies from the next 1 s window, so the value before it is kept. -/
def writeLaneLim (v : Nat) (s : State) : State :=
  if (List.range 4).any (fun k => bits v (8 * k) 8 == 0) ∨
      (s.rdb SAF_CTRL.lock ∧ (List.range 4).any (fun k => bits v (8 * k) 8 != s.rd (laneLimRow k))) then safRefuse s
  else
    let one (s : State) (k : Nat) : State :=
      let old := s.rd (laneLimRow k)
      let s1 := if bits v (8 * k) 8 = old ∨ (sparseFind s.safe.laneLims k).any (fun p => decide (s.now < p.2 + secTicks)) then s
        else { s with safe := { s.safe with laneLims := sparsePut s.safe.laneLims k (old, s.now) } }
      s1.wr (laneLimRow k) (bits v (8 * k) 8)
    (List.range 4).foldl one s

/-- A write of one of the registers: 0 SAF_CTRL, 1 SAF_LANE_LIM, 2 to 6 SAF_WIN_0 to SAF_WIN_4. -/
def safWrite (r v : Nat) (s : State) : State := if r = 0 then writeCtrl v s else if r = 1 then writeLaneLim v s else writeWindow (r - 2) v s

/-- The offset of one of them. -/
def safOffset (r : Nat) : Nat := if r = 0 then 0x150000 else if r = 1 then 0x150010 else 0x150100 + 4 * (r - 2)

/-! ## Meanings -/

/-- INTERNAL_FAULT_SAFE_DELAY (R330, R545). -/
def execInternalFaultSafeDelay (s : State) : Res := .next (internalFaultDelay s)

/-- BIST_RUN (R394, R549 to R558). -/
def execBistRun (id : Nat) (s : State) (find : AccessFind := {}) : Res :=
  .next (if bistBusy s id then s else startCommand 0x60 id s (bistRun find))

/-- BIST_SLICE (R550 to R552): the signature that the slice finds, and the spare channels (kind, group and spare) that it finds failing. -/
def execBistSlice (signature : Word) (spares : List (Fin 6 × Fin 65536 × Fin 8)) (s : State) : Res :=
  .next (bistSlice signature (spares.map (fun (p : Fin 6 × Fin 65536 × Fin 8) => (p.1.val, p.2.1.val, p.2.2.val))) s)

/-- INTRUSIVE_BIST_END (R553): the signatures of the slices, the spares found failing, and the spare channels that fail. -/
def execIntrusiveBistEnd (signatures : Vector Word 97) (spares : List SpareFail) (channels : List (Fin 6 × Fin 65536 × Fin 8)) (s : State) : Res :=
  .next (intrusiveEnd signatures spares (channels.map (fun (p : Fin 6 × Fin 65536 × Fin 8) => (p.1.val, p.2.1.val, p.2.2.val))) s)

/-- INJECTION_TIMEOUT (R554). -/
def execInjectionTimeout (s : State) : Res := .next (injectionTimeout s)

/-- SAFE_CAUSE_CLEAR (R547). -/
def execSafeCauseClear (value : Word) (s : State) : Res := .next (regWrite 0x150004 s (clearCauses value))

/-- MUTE_LIFT (R60, R547). -/
def execMuteLift (s : State) : Res := .next (muteLift s)

/-- SAF_CONFIG_WRITE (R543). -/
def execSafConfigWrite (register : Fin 7) (value : Word) (s : State) : Res :=
  .next (regWrite (safOffset register) s (safWrite register value.toNat))

end Sys2Proof.Machine
end

