-- ==== Sys2Proof/Machine/Regs.lean ====
section
/-! DEFINITION. Accesses of host software to BAR0 (R9 to R11, R564 to R569): what a register reads, what a write of it does, and the accesses that
reach no register. -/

namespace Sys2Proof.Machine

/-! ## The map (R564 to R567, R572) -/

/-- The window of swap-event records (R119). -/
def inSwapWindow (off : Nat) : Bool := decide (0xD1000 ≤ off) && decide (off < 0xD2000)

/-- The offset names a register: one of a row of the map, without the initiator IDs that R220 does not assign, or a word of the swap-event window. -/
def assigned (off : Nat) : Bool :=
  off % 4 == 0 && (inSwapWindow off ||
    (!(decide (0x92080 ≤ off) && decide (off < 0x93000)) && allRows.any (fun r => (r.inst off).isSome)))

/-- The register-space offset that an access by function `fn` at `off` of its own BAR0 reaches (R565). -/
def reaches (fn off : Nat) : Option Nat :=
  if fn = 0 then (if assigned off then some off else none)
  else if off < 0x18 ∧ off % 4 = 0 then some (0x10000 + 0x100 * fn + off) else none

/-- An access to no register is counted and recorded (R566). -/
def unassignedAccess (s : State) (off fn : Nat) (write : Bool) : State :=
  (recordAccess s off fn write false).inc PCIE_BLOCKED_COUNT.unassigned

/-! ## Reads -/

/-- The fields of the register at `off` as they stand. -/
def fieldsAt (s : State) (off : Nat) : Nat :=
  allRows.foldl (fun a r =>
    match r.inst off with
    | some (i, j) => if r.acc = .wo then a else a + s.rd r i j * 2 ^ r.lo
    | none => a) 0

/-- DSP_TILE_STATUS_t shows the tile (R155). -/
def tileStatus (x : Tile) : Nat := x.state.code + b2n x.inBlock * 8 + x.ctx % 8 * 16 + x.exc % 256 * 256

/-- What the register at `off` reads, apart from captures. -/
def regValue (s : State) (off : Nat) : Nat :=
  let t := time96 (counter s)
  if off = 4 then fieldsAt s off + (if s.grade2 then 2 else 3) * 2 ^ 24
  else if off = 0x10 then fieldsAt (s.wrb DEV_MODE.transition_busy (transitioning s)) off
  else if off = 0xD0000 then
    fieldsAt ((s.wrb CFG_LATCH_STATUS.repair_wait ((stagingWaits s).getD (s.rdb CFG_LATCH_STATUS.repair_wait))).wr
      CFG_LATCH_STATUS.frames_staged ((stagedUnits s).getD (s.rd CFG_LATCH_STATUS.frames_staged))) off
  else if off = 0x50004 then t % 2 ^ 32
  else if off = 0x50008 then t / 2 ^ 32 % 2 ^ 32
  else if off = 0x5000C then t / 2 ^ 64
  else if off = 0x170004 then debugRemain s
  else if inSwapWindow off then ((sparseGet 0 s.ctxs.swapLog ((off - 0xD1000) / 16)).toNat >>> (8 * (off % 16))) % 2 ^ 32
  else
    match DSP_TILE_STATUS.spare.inst off with
    | some (t, _) => fieldsAt s off + tileStatus (tileOf s t)
    | none => fieldsAt s off

/-- A read of the register at `off`: its value, with a captured half given once, and its effect: RC fields clear, and the low half of a capture
pair captures the rest (R10, R568). -/
def readReg (s : State) (off : Nat) : Nat × State :=
  let v := regValue s off
  let cleared := allRows.foldl (fun t r =>
    match r.inst off with
    | some (i, j) => if r.acc = .rc then t.wr r 0 i j else t
    | none => t) s
  if off = 0x90010 then (v, { s with noc := { s.noc with denyCap := some (regValue s 0x90014) } })
  else if off = 0x90014 then (s.noc.denyCap.getD v, { s with noc := { s.noc with denyCap := none } })
  else if off = 0xB0018 then (v, { s with enc := { s.enc with failCap := some (regValue s 0xB001C) } })
  else if off = 0xB001C then (s.enc.failCap.getD v, { s with enc := { s.enc with failCap := none } })
  else if off = 0x50004 then (v, { s with tim := { s.tim with latched := time96 (counter s) / 2 ^ 32, captured := 3 } })
  else if off = 0x50008 then
    (if bit s.tim.captured 0 then s.tim.latched % 2 ^ 32 else v, { s with tim := { s.tim with captured := putBit s.tim.captured 0 false } })
  else if off = 0x5000C then
    (if bit s.tim.captured 1 then s.tim.latched / 2 ^ 32 else v, { s with tim := { s.tim with captured := putBit s.tim.captured 1 false } })
  else
    match NOC_BYTES_LO.bytes_lo.inst off, NOC_BYTES_HI.bytes_hi.inst off with
    | some (i, _), _ => (v, { s with noc := { s.noc with bytesCap := sparsePut s.noc.bytesCap i (regValue s (off + 4)) } })
    | none, some (i, _) => ((sparseFind s.noc.bytesCap i).getD v, { s with noc := { s.noc with bytesCap := sparseDel s.noc.bytesCap i } })
    | none, none => (v, cleared)

/-- One 32-bit read by function `fn`. -/
def read32 (s : State) (fn off : Nat) : Nat × State :=
  match reaches fn off with
  | none => (0, unassignedAccess s off fn false)
  | some r => if blockAnswers s r then readReg s r else (2 ^ 32 - 1, blockedAccess s off fn false)

/-- The device answers a read. -/
def answerRead (s : State) (fn off v : Nat) : State := { s with outbox := s.outbox ++ [.readData fn off v] }

/-- A naturally aligned read of 32 or 64 bits, the lower address first (R9, R568). -/
def hostRead (fn off : Nat) (wide : Bool) (s : State) : State :=
  if !s.link.up ∨ off % (if wide then 8 else 4) ≠ 0 then s
  else
    let a := read32 s fn off
    if wide then
      let b := read32 a.2 fn (off + 4)
      answerRead b.2 fn off (a.1 + b.1 * 2 ^ 32)
    else answerRead a.2 fn off a.1

/-! ## Writes (R10) -/

/-- Each field of the register at `off` takes its part of `v` by its access type. -/
def writeFields (off v : Nat) (s : State) : State :=
  allRows.foldl (fun t r =>
    match r.inst off with
    | some (i, j) =>
      let b := bits v r.lo r.width
      match r.acc with
      | .rw => t.wr r b i j
      | .w1c => t.wr r (t.rd r i j - Nat.land (t.rd r i j) b) i j
      | .w1s => t.wr r (Nat.lor (t.rd r i j) b) i j
      | _ => t
    | none => t) s

/-- The `W1C` and plain fields of a register that also takes requests, with what a request does after them. -/
def thenAct (off v : Nat) (act : Bool) (f : State → State) (s : State) : State :=
  let t := writeFields off v s
  if act then f t else t

/-- The registers of the HOST domain. -/
def writeDev (off v : Nat) (s : State) : State :=
  if off = 0x1C then
    thenAct off v (v.testBit 8 || bits v 4 4 != 0)
      (fun s => if v.testBit 8 then warmResetRequest (BitVec.ofNat 8 (v / 2 ^ 24)) s
                else dieResetRequest (bits v 4 4) (BitVec.ofNat 8 (v / 2 ^ 24)) s) s
  else if 0x10000 ≤ off ∧ off < 0x18000 then
    let f := (off - 0x10000) / 0x100
    if off % 0x100 = 0x10 then
      if v.testBit 16 then adminEnable f (bits v 0 5) (bits v 8 5) s
      else
        adminDisable f (if s.rdb HCI_AQ_STATUS.ready f then s
          else (s.wr HCI_AQ_CFG.sq_size_log2 (bits v 0 5) f).wr HCI_AQ_CFG.cq_size_log2 (bits v 8 5) f)
    else if s.rdb HCI_AQ_STATUS.ready f then s
    else writeFields off v s
  else
    match PCIE_FN_CFG.queue_base.inst off with
    | some (f, _) => quotaWrite f (bits v 0 8) (bits v 8 9) s
    | none => writeFields off v s

/-- A pin whose drive a write has changed shows it. -/
def showDrives (before s : State) : State :=
  (List.range 64).foldl (fun t n =>
    if pinDrive before n != pinDrive s n && (pinDrive s n).oe then { t with outbox := t.outbox ++ [.pin n (pinDrive s n).level] } else t) s

/-- The registers of the PIN block (R494, R495, R497, R499, R500). -/
def writePins (off v : Nat) (s : State) : State :=
  if off < 0x80100 then
    let n := (off - 0x80000) / 4
    let t := writeFields off v s
    showDrives s (if t.rd PIN_CFG.debounce_us n = s.rd PIN_CFG.debounce_us n then t else debounceChange t n)
  else if off ≤ 0x80108 then clkoutCheck (changeOwners (ownerWrite ((off - 0x80100) / 4) v) s)
  else if off < 0x80180 then clkoutCheck (showDrives s (writeFields off v s))
  else if off < 0x80200 then writeFields off v s
  else
    let m := (off - 0x80200) / 16
    if off % 16 = 8 then matcherConfig m v s
    else if off % 16 = 12 then matchersEdge (writeFields off v s)
    else if s.rdb PIN_MATCH_CFG.enable m then s
    else writeFields off v s

/-- The registers of the AON domain. -/
def writeAon (off v : Nat) (s : State) : State :=
  if off = 0x40008 then thenAct off v (v.testBit 8) (refSwitch (bits v 0 5) (BitVec.ofNat 8 (v / 2 ^ 24))) s
  else if off = 0x50034 then ptpCommit v s
  else if off = 0x50030 then s.wr TIM_PTP_MEAS_LO.offset_lo v
  else if 0x50020 ≤ off ∧ off < 0x50200 then synceUpdate (noteRefs (writeFields off v s))
  else if 0x80000 ≤ off ∧ off < 0x90000 then writePins off v s
  else if off = 0x150000 ∨ off = 0x150010 ∨ (0x150100 ≤ off ∧ off < 0x150114) then
    safWrite (if off = 0x150000 then 0 else if off = 0x150010 then 1 else (off - 0x150100) / 4 + 2) v s
  else if off = 0x150004 then clearCauses (BitVec.ofNat 32 v) s
  else if off = 0x150020 then pairInject (BitVec.ofNat 32 v) s
  else
    match CLK_UPLL_CFG.enable.inst off with
    | some (k, _) => if v.testBit 30 then upllEnable k v s else upllDisable k v s
    | none =>
      match CLK_GCH_SEL.source.inst off with
      | some (c, _) => channelSelect c (bits v 0 4) s
      | none => writeFields off v s

/-- The registers of the ENC block (R252, R258, R272). -/
def writeEnc (off v : Nat) (s : State) : State :=
  let refuse := s.wr ENC_STATUS.refused 1
  let locked := s.rdb ENC_CTRL.lock
  if off = 0xB0008 then
    if locked ∨ (bits v 0 16 ≠ s.rd ENC_TAG_BASE.base ∧ (List.range 32).any (fun n => rgEnabled s n && rgIntegrity s n)) then refuse
    else writeFields off v s
  else if 0xB0100 ≤ off ∧ off < 0xB0200 then
    if locked then refuse else if off = 0xB01FC then s else writeFields off v s
  else if 0xB1000 ≤ off then
    let n := (off - 0xB1000) / 0x20
    if off % 0x20 = 8 then (if v.testBit 0 then regionEnable n (BitVec.ofNat 32 v) s else regionDisable n (BitVec.ofNat 32 v) s)
    else if locked ∨ (rgEnabled s n ∧ (off % 0x20 = 0 ∨ off % 0x20 = 4 ∨ off % 0x20 = 0xC)) then refuse
    else if n = 31 then s
    else writeFields off v s
  else writeFields off v s

/-- The registers of the FHL block (R401, R418, R427). -/
def writeFhl (off v : Nat) (s : State) : State :=
  let n := (off - 0x100000) / 0x4000
  let o := off % 0x4000
  if o = 0 then synceUpdate (if v.testBit 4 then laneEnable n v s else laneDisable n v s)
  else if o = 0x60 then txTail n (bits v 0 10) s
  else if o = 0x48 ∧ s.rdb FHL_SP_RX_CFG.enable n then s.wr FHL_SP_RX_CFG.enable (bits v 4 1) n
  else if o = 0x5C ∧ s.rdb FHL_SP_TX_CFG.enable n then s.wr FHL_SP_TX_CFG.enable (bits v 4 1) n
  else if 0x1000 ≤ o ∧ o % 0x40 ≠ 0x24 ∧ s.rdb FHL_RULE.enable n ((o - 0x1000) / 0x40) then s.wr FHL_LANE_STATUS.refused 1 n
  else writeFields off v s

/-- The registers of the CORE domain. -/
def writeCore (off v : Nat) (s : State) : State :=
  if off = 0x170088 then thenAct off v true (ownerGo v) s
  else if off = 0x90000 then thenAct off v (v.testBit 1) statClear s
  else if 0xB0000 ≤ off ∧ off < 0xC0000 then writeEnc off v s
  else if off = 0xC0010 then (if dieOpen s 1 then (if v.testBit 12 then invalidateAll s else invalidate s (bits v 0 12)) else s)
  else if off = 0xF0200 then
    if !dieOpen s 2 then s
    else if v.testBit 10 then (List.range 1024).foldl (fun s t => setTile s t (raiseTileEvent (tileOf s t) 6)) s
    else setTile s (bits v 0 10) (raiseTileEvent (tileOf s (bits v 0 10)) 6)
  else if 0x100000 ≤ off ∧ off < 0x140000 then writeFhl off v s
  else if off = 0x140000 then linkEnable (BitVec.ofNat 32 v) s
  else
    match DRC_CTRL.retrain.inst off with
    | some (c, _) =>
      let t := thenAct off v (v.testBit 1) (fun s => startRetrain s c) s
      if v.testBit 9 then pprNow c (bits v 4 5) t else t
    | none => writeFields off v s

/-- What a write of `v` to the register at `off` does. -/
def writeReg (off v : Nat) (s : State) : State :=
  if off < 0x40000 then writeDev off v s else if coreBlock off then writeCore off v s else writeAon off v s

/-- One 32-bit write by function `fn`. -/
def write32 (fn off v : Nat) (s : State) : State :=
  match reaches fn off with
  | none => unassignedAccess s off fn true
  | some r =>
    if 0x10000 ≤ r ∧ (s.rd DEV_MODE.mode = 0 ∨ !blockAnswers s r) then blockedAccess s off fn true
    else writeReg r v s

/-- A naturally aligned write of 32 or 64 bits, the lower address first. -/
def hostWrite (fn off v : Nat) (wide : Bool) (s : State) : State :=
  if !s.link.up ∨ off % (if wide then 8 else 4) ≠ 0 then s
  else
    let t := write32 fn off (v % 2 ^ 32) s
    if wide then write32 fn (off + 4) (v / 2 ^ 32) t else t

/-! ## BAR2 and BAR4 (R336, R340, R565) -/

/-- A naturally aligned write to the doorbell pages (BAR2) or to the MSI-X structures (BAR4). A doorbell takes 32 bits alone. -/
def barWrite (bar : Nat) (fn off v : Nat) (wide : Bool) (s : State) : State :=
  if !s.link.up ∨ off % (if wide then 8 else 4) ≠ 0 then s
  else if bar = 1 then
    (if wide then badAccess s
    else if off % 0x1000 = 0 then sqTail fn (off / 0x1000) (v % 65536) s
    else if off % 0x1000 = 8 then cqHead fn (off / 0x1000) (v % 65536) s
    else badAccess s)
  else
    let t := msixWrite fn off (v % 2 ^ 32) s
    if wide then msixWrite fn (off + 4) (v / 2 ^ 32) t else t

/-- A read there: a doorbell reads 0. -/
def barRead (bar : Nat) (fn off : Nat) (wide : Bool) (s : State) : State :=
  if !s.link.up ∨ off % (if wide then 8 else 4) ≠ 0 then s
  else if bar = 1 then answerRead s fn off 0
  else answerRead s fn off (msixRead s fn off + (if wide then msixRead s fn (off + 4) * 2 ^ 32 else 0))

/-! ## Accesses that reach no register -/

/-- An access of `bytes` bytes that R9 does not allow: a read is answered with all ones in every byte. A doorbell write of another width than 32 bits is
discarded and counted, and a doorbell read gives 0 (R340); of BAR4 the spec says nothing of other widths: they do nothing and read 0 (DESIGN CHOICE, log
entry 180). -/
def badWidth (bar : Nat) (fn off bytes : Nat) (write : Bool) (s : State) : State :=
  if !s.link.up ∨ bytes = 0 ∨ ((bytes = 4 ∨ (bytes = 8 ∧ bar ≠ 1)) ∧ off % bytes = 0) then s
  else
    let t := if bar = 0 ∨ (bar = 1 ∧ write) then badAccess s else s
    if write then t else answerRead t fn off (if bar = 0 then 2 ^ (8 * bytes) - 1 else 0)

/-! ## The register space at router 25 (R30, R32, R208) -/

/-- The words of `n` lines of the register space from offset `off`, read in rising order of their offsets; an offset with no register and a block that
does not answer read 0 (DESIGN CHOICE, log entry 178). -/
def readSpace (off n : Nat) (s : State) : List Nat × State :=
  (List.range (16 * n)).foldl (fun a k =>
    let o := off + 4 * k
    let v := if assigned o && blockAnswers a.2 o then readReg a.2 o else (0, a.2)
    (a.1 ++ [v.1], v.2)) ([], s)

/-- Line `d` written at offset `off` under the byte enables `be`: each word that is wholly enabled is a register write (DESIGN CHOICE, log entry
178). -/
def writeSpace (off : Nat) (be : BitVec 64) (d : BitVec 512) (s : State) : State :=
  (List.range 16).foldl (fun s k =>
    let o := off + 4 * k
    if bits be.toNat (4 * k) 4 = 15 ∧ assigned o ∧ blockAnswers s o ∧ !(0x10000 ≤ o ∧ s.rd DEV_MODE.mode = 0) then writeReg o (bits d.toNat (32 * k) 32) s
    else s) s

/-- The line of sixteen 32-bit words, the first lowest. -/
def lineOf (l : List Nat) : BitVec 512 := BitVec.ofNat 512 (l.foldr (fun w a => w + a * 2 ^ 32) 0)

/-- A request of the Porter to the register space is performed as it reaches router 25 (R32, R208); a poisoned flit is not written (R215). -/
def serveRegs (init tag : Nat) (s : State) : State :=
  let t := arrive s init tag
  match reqOf t init tag with
  | none => s
  | some r =>
    if targetOf (locOf r.pa) ≠ .regs ∨ !servable t r then s
    else
      let t := advanceTo t (reachTick t r)
      let off := locOf r.pa - 0x1010000000
      let done (st : Nat) (d : List (BitVec 512)) (s : State) : State :=
        mapReq s init tag (fun r => { r with answered := true, status := st, ready := s.now, done := r.len, respData := d })
      if r.write then
        done (if r.badFlits.isEmpty then 0 else Status.poisoned.code) []
          ((List.range r.len).foldl (fun s k =>
            if r.badFlits.contains k then s
            else writeSpace (off + 64 * k) (if r.len = 1 then r.be else BitVec.allOnes 64) (r.data.getD k 0) s) t)
      else
        let v := readSpace off r.len t
        done 0 ((List.range r.len).map (fun k => lineOf ((v.1.drop (16 * k)).take 16))) v.2

/-! ## Meanings -/

/-- NOC_FLIT_HOP (R203 to R206, R208, R210, R212, R215 to R217). -/
def execNocFlitHop (init : Nat) (tag : Fin 256) (router : Fin 48) (find : FlitFind) (s : State) : Res :=
  .next (flitHop init tag router find (serveRegs init tag s))

/-- NOC_RESPONSE_ARRIVAL (R208, R217, R221). -/
def execNocResponseArrival (init : Nat) (tag : Fin 256) (ready : Bool) (s : State) : Res :=
  .next (responseArrival init tag ready (serveRegs init tag s))

/-- REGISTER_WRITE (R10, R336, R340, R568): a write of `value`, 64 bits where `wide`, by `function` at `offset` of its BAR0, BAR2 or BAR4. -/
def execRegisterWrite (function : Fin 64) (offset : BitVec 24) (value : Word64) (wide : Bool) (s : State) (bar : Fin 3 := 0) : Res :=
  .next (if bar = 0 then hostWrite function offset.toNat value.toNat wide s else barWrite bar function offset.toNat value.toNat wide s)

/-- RC_COUNTER_READ (R10, R11, R336, R340): a read of BAR0, BAR2 or BAR4. -/
def execRcCounterRead (function : Fin 64) (offset : BitVec 24) (wide : Bool) (s : State) (bar : Fin 3 := 0) : Res :=
  .next (if bar = 0 then hostRead function offset.toNat wide s else barRead bar function offset.toNat wide s)

/-- CAPTURE_PAIR_READ (R222, R568): a read of either half. -/
def execCapturePairRead (function : Fin 64) (offset : BitVec 24) (wide : Bool) (s : State) : Res := .next (hostRead function offset.toNat wide s)

/-- BAD_WIDTH_ACCESS (R9). -/
def execBadWidthAccess (function : Fin 64) (offset : BitVec 24) (bytes : Nat) (write : Bool) (s : State) (bar : Fin 3 := 0) : Res :=
  .next (badWidth bar function offset.toNat bytes write s)

/-- UNASSIGNED_ACCESS (R566): an access that is correct in width and reaches no register. -/
def execUnassignedAccess (function : Fin 64) (offset : BitVec 24) (write : Bool) (s : State) : Res :=
  .next (if !s.link.up ∨ offset.toNat % 4 ≠ 0 ∨ (reaches function offset.toNat).isSome then s
    else if write then write32 function offset.toNat 0 s else hostRead function offset.toNat false s)

/-- BLOCKED_ACCESS (R44, R567): an access to a register whose domain is stopped, or a write before ASSEMBLY. -/
def execBlockedAccess (function : Fin 64) (offset : BitVec 24) (write : Bool) (s : State) : Res :=
  .next (if !s.link.up then s
    else match reaches function offset.toNat with
      | none => s
      | some r =>
        if write then (if 0x10000 ≤ r ∧ (s.rd DEV_MODE.mode = 0 ∨ !blockAnswers s r) then write32 function offset.toNat 0 s else s)
        else if blockAnswers s r then s else hostRead function offset.toNat false s)

end Sys2Proof.Machine
end

