-- ==== Sys2Proof/Machine/Dispatch.lean ====
section
/-! DEFINITION. The commands of the block, each dispatched to its meaning. -/

namespace Sys2Proof.Machine

def exec (i : Instr) (s : State) : Host.Outcome State Fault Refusal :=
  match i with
  | .coldReset cause => Sys2Proof.Machine.execColdReset cause s
  | .porNDeassert fsel rate halt => Sys2Proof.Machine.execPorNDeassert fsel rate halt s
  | .bootRailCheck => Sys2Proof.Machine.execBootRailCheck s
  | .corePllLock locked => Sys2Proof.Machine.execCorePllLock locked s
  | .porterStart result => Sys2Proof.Machine.execPorterStart result s
  | .dieReleaseTraining failed => Sys2Proof.Machine.execDieReleaseTraining failed s
  | .stackClear => Sys2Proof.Machine.execStackClear s
  | .ddrTraining fit0 fit1 drop0 drop1 => Sys2Proof.Machine.execDdrTraining fit0 fit1 drop0 drop1 s
  | .bootComplete => Sys2Proof.Machine.execBootComplete s
  | .warmReset cause => Sys2Proof.Machine.execWarmReset cause s
  | .perstAssert => Sys2Proof.Machine.execPerstAssert s
  | .perstDeassert => Sys2Proof.Machine.execPerstDeassert s
  | .linkLoss => Sys2Proof.Machine.execLinkLoss s
  | .pcieRefclkLoss => Sys2Proof.Machine.execPcieRefclkLoss s
  | .functionLevelReset function => Sys2Proof.Machine.execFunctionLevelReset function s
  | .pmeTurnOff => Sys2Proof.Machine.execPmeTurnOff s
  | .dormantPowerDown => Sys2Proof.Machine.execDormantPowerDown s
  | .wake source => Sys2Proof.Machine.execWake source s
  | .wakeTimerExpiry => Sys2Proof.Machine.execWakeTimerExpiry s
  | .porterLockstepFault both => Sys2Proof.Machine.execPorterLockstepFault both s
  | .dieResetRequest mask confirm => Sys2Proof.Machine.execDieResetRequest mask confirm s
  | .warmResetRequest confirm => Sys2Proof.Machine.execWarmResetRequest confirm s
  | .dieResetD0 => Sys2Proof.Machine.execDieResetD0 s
  | .d0DrainEnd => Sys2Proof.Machine.execD0DrainEnd s
  | .d0OutstandingDieReset => Sys2Proof.Machine.execD0OutstandingDieReset s
  | .d0ResetRelease => Sys2Proof.Machine.execD0ResetRelease s
  | .d0ShuttersOpen failed => Sys2Proof.Machine.execD0ShuttersOpen s failed
  | .porterReady => Sys2Proof.Machine.execPorterReady s
  | .dieResetUpper die => Sys2Proof.Machine.execDieResetUpper die s
  | .dieTrainingComplete die failed => Sys2Proof.Machine.execDieTrainingComplete die s failed
  | .neighbourPowerLoss die lane => Sys2Proof.Machine.execNeighbourPowerLoss die s lane
  | .crossingWord kind group bad word back => Sys2Proof.Machine.execCrossingWord kind group bad word s back
  | .channelSpareSwitch => Sys2Proof.Machine.execChannelSpareSwitch s
  | .clockSkewSample die skew => Sys2Proof.Machine.execClockSkewSample die skew s
  | .delayLockWindow district error => Sys2Proof.Machine.execDelayLockWindow district error s
  | .lockAcquireTimeout district => Sys2Proof.Machine.execLockAcquireTimeout district s
  | .stagingComplete swap => Sys2Proof.Machine.execStagingComplete swap s
  | .stagingTimeout => Sys2Proof.Machine.execStagingTimeout s
  | .commandSwapDue swap => Sys2Proof.Machine.execCommandSwapDue swap s
  | .scheduleEntryDue swap => Sys2Proof.Machine.execScheduleEntryDue swap s
  | .lateSwapReady swap => Sys2Proof.Machine.execLateSwapReady swap s
  | .lateLimitExpiry => Sys2Proof.Machine.execLateLimitExpiry s
  | .scheduleBankTakeover => Sys2Proof.Machine.execScheduleBankTakeover s
  | .writeBackFrame => Sys2Proof.Machine.execWriteBackFrame s
  | .thicketNop tile finds => Sys2Proof.Machine.execThicketNop tile finds s
  | .wait tile finds => Sys2Proof.Machine.execWait tile finds s
  | .br tile finds => Sys2Proof.Machine.execBr tile finds s
  | .loop tile finds => Sys2Proof.Machine.execLoop tile finds s
  | .blkBegin tile finds => Sys2Proof.Machine.execBlkBegin tile finds s
  | .blkCommit tile finds => Sys2Proof.Machine.execBlkCommit tile finds s
  | .timer tile finds => Sys2Proof.Machine.execTimer tile finds s
  | .mac tile finds => Sys2Proof.Machine.execMac tile finds s
  | .macj tile finds => Sys2Proof.Machine.execMacj tile finds s
  | .msb tile finds => Sys2Proof.Machine.execMsb tile finds s
  | .mul tile finds => Sys2Proof.Machine.execMul tile finds s
  | .mulj tile finds => Sys2Proof.Machine.execMulj tile finds s
  | .pack tile finds => Sys2Proof.Machine.execPack tile finds s
  | .aclr tile finds => Sys2Proof.Machine.execAclr tile finds s
  | .aload tile finds => Sys2Proof.Machine.execAload tile finds s
  | .bexNext tile finds => Sys2Proof.Machine.execBexNext tile finds s
  | .bexClr tile finds => Sys2Proof.Machine.execBexClr tile finds s
  | .vadd tile finds => Sys2Proof.Machine.execVadd tile finds s
  | .vsub tile finds => Sys2Proof.Machine.execVsub tile finds s
  | .vaddmj tile finds => Sys2Proof.Machine.execVaddmj tile finds s
  | .vsubmj tile finds => Sys2Proof.Machine.execVsubmj tile finds s
  | .vconj tile finds => Sys2Proof.Machine.execVconj tile finds s
  | .vshr tile finds => Sys2Proof.Machine.execVshr tile finds s
  | .vmov tile finds => Sys2Proof.Machine.execVmov tile finds s
  | .vperm tile finds => Sys2Proof.Machine.execVperm tile finds s
  | .spop tile finds => Sys2Proof.Machine.execSpop tile finds s
  | .spush tile finds => Sys2Proof.Machine.execSpush tile finds s
  | .lpop tile finds => Sys2Proof.Machine.execLpop tile finds s
  | .lpush tile finds => Sys2Proof.Machine.execLpush tile finds s
  | .mdrd tile finds => Sys2Proof.Machine.execMdrd tile finds s
  | .mdwr tile finds => Sys2Proof.Machine.execMdwr tile finds s
  | .nwr tile finds => Sys2Proof.Machine.execNwr tile finds s
  | .setr tile finds => Sys2Proof.Machine.execSetr tile finds s
  | .setrv tile finds => Sys2Proof.Machine.execSetrv tile finds s
  | .getr tile finds => Sys2Proof.Machine.execGetr tile finds s
  | .entryVectorTaken tile => Sys2Proof.Machine.execEntryVectorTaken tile s
  | .tileTimerExpiry tile => Sys2Proof.Machine.execTileTimerExpiry tile s
  | .residueCheckFail tile => Sys2Proof.Machine.execResidueCheckFail tile s
  | .mdrdDataReturn tile => Sys2Proof.Machine.execMdrdDataReturn tile s
  | .linkArrival tile => Sys2Proof.Machine.execLinkArrival tile s
  | .streamInPush tile port data => Sys2Proof.Machine.execStreamInPush tile port data s
  | .stagingBufferRelease tile => Sys2Proof.Machine.execStagingBufferRelease tile s
  | .blockWatchdog tile => Sys2Proof.Machine.execBlockWatchdog tile s
  | .externalXyBeat init tag ecc ecc2 => Sys2Proof.Machine.execExternalXyBeat init tag ecc ecc2 s
  | .tileSubstitutionStart tile => Sys2Proof.Machine.execTileSubstitutionStart tile s
  | .copyingComplete tile => Sys2Proof.Machine.execCopyingComplete tile s
  | .tileKick tile => Sys2Proof.Machine.execTileKick tile s
  | .tileKickAll => Sys2Proof.Machine.execTileKickAll s
  | .portARead block word find => Sys2Proof.Machine.execPortARead block word find s
  | .portAWrite block word be data => Sys2Proof.Machine.execPortAWrite block word be data s
  | .portAInvalidate block => Sys2Proof.Machine.execPortAInvalidate block s
  | .portBRead port finds => Sys2Proof.Machine.execPortBRead port finds s
  | .portBWrite port => Sys2Proof.Machine.execPortBWrite port s
  | .narrowWriteMerge find => Sys2Proof.Machine.execNarrowWriteMerge find s
  | .retirementSwitch block bad => Sys2Proof.Machine.execRetirementSwitch block bad s
  | .hostBlockInvalidate block => Sys2Proof.Machine.execHostBlockInvalidate block s
  | .hostInvalidateAll => Sys2Proof.Machine.execHostInvalidateAll s
  | .invalidateClearDone block => Sys2Proof.Machine.execInvalidateClearDone block s
  | .nocRequestInject init pkt tap => Sys2Proof.Machine.execNocRequestInject init pkt s tap
  | .nocFlitHop init tag router find => Sys2Proof.Machine.execNocFlitHop init tag router find s
  | .nocRequestTimeout init tag => Sys2Proof.Machine.execNocRequestTimeout init tag s
  | .nocResponseArrival init tag ready => Sys2Proof.Machine.execNocResponseArrival init tag ready s
  | .nocStatClear => Sys2Proof.Machine.execNocStatClear s
  | .dramReadRequest init tag => Sys2Proof.Machine.execDramReadRequest init tag s
  | .dramWriteRequest init tag => Sys2Proof.Machine.execDramWriteRequest init tag s
  | .dramPartialWrite init tag find => Sys2Proof.Machine.execDramPartialWrite init tag find s
  | .dramReadData ctl find => Sys2Proof.Machine.execDramReadData ctl find s
  | .dramRefresh ctl => Sys2Proof.Machine.execDramRefresh ctl s
  | .mr4Poll ctl readings => Sys2Proof.Machine.execMr4Poll ctl readings s
  | .dramAlert ctl sub crc => Sys2Proof.Machine.execDramAlert ctl sub crc s
  | .dramFullRetrainEnd ctl groups => Sys2Proof.Machine.execDramFullRetrainEnd ctl groups s
  | .retrainQuantum ctl sub result last => Sys2Proof.Machine.execRetrainQuantum ctl sub result last s
  | .dramRetrainRequest ctl => Sys2Proof.Machine.execDramRetrainRequest ctl s
  | .pprNow ctl entry => Sys2Proof.Machine.execPprNow ctl entry s
  | .spprRepairComplete ctl bad fixed => Sys2Proof.Machine.execSpprRepairComplete ctl bad s fixed
  | .encRegionEnable region value => Sys2Proof.Machine.execEncRegionEnable region value s
  | .encRegionDisable region value => Sys2Proof.Machine.execEncRegionDisable region value s
  | .encConfigLock => Sys2Proof.Machine.execEncConfigLock s
  | .encRequest init tag metadata => Sys2Proof.Machine.execEncRequest init tag metadata s
  | .encReadComplete init tag => Sys2Proof.Machine.execEncReadComplete init tag s
  | .sweepLine find metadata => Sys2Proof.Machine.execSweepLine find s metadata
  | .ownerProgram confirm record powerLoss => Sys2Proof.Machine.execOwnerProgram confirm record powerLoss s
  | .ownerRevoke confirm record powerLoss => Sys2Proof.Machine.execOwnerRevoke confirm record powerLoss s
  | .ownerDisableDebug confirm record => Sys2Proof.Machine.execOwnerDisableDebug confirm record s
  | .debugSessionExpiry => Sys2Proof.Machine.execDebugSessionExpiry s
  | .imageFrameRecord => Sys2Proof.Machine.execImageFrameRecord s
  | .imageStreamEnd net => Sys2Proof.Machine.execImageStreamEnd s net
  | .landingPlaneRemap => Sys2Proof.Machine.execLandingPlaneRemap s
  | .snapshotCaptureEdge id values => Sys2Proof.Machine.execSnapshotCaptureEdge id values s
  | .voteCorrection => Sys2Proof.Machine.execVoteCorrection s
  | .latchCheckFrame frame staged held written entryBad => Sys2Proof.Machine.execLatchCheckFrame frame staged held written s entryBad
  | .privetSweepStart engineB katOk => Sys2Proof.Machine.execPrivetSweepStart engineB katOk s
  | .privetFrameCheck engineB held entryBad => Sys2Proof.Machine.execPrivetFrameCheck engineB held entryBad s
  | .privetSweepReport engineB slip => Sys2Proof.Machine.execPrivetSweepReport engineB slip s
  | .privetReportLate engineB => Sys2Proof.Machine.execPrivetReportLate engineB s
  | .frameRepair net => Sys2Proof.Machine.execFrameRepair s net
  | .internalFaultSafeDelay => Sys2Proof.Machine.execInternalFaultSafeDelay s
  | .sqTailDoorbell function page value => Sys2Proof.Machine.execSqTailDoorbell function page value s
  | .cqHeadDoorbell function page value => Sys2Proof.Machine.execCqHeadDoorbell function page value s
  | .commandFetch entries => Sys2Proof.Machine.execCommandFetch entries s
  | .completionPost id refused msixFails => Sys2Proof.Machine.execCompletionPost id refused s msixFails
  | .coalescingTimeout queue msixFails => Sys2Proof.Machine.execCoalescingTimeout queue s msixFails
  | .msixUnmask function vector => Sys2Proof.Machine.execMsixUnmask function vector s
  | .adminQueueEnable function sqLog cqLog => Sys2Proof.Machine.execAdminQueueEnable function sqLog cqLog s
  | .adminQueueDisable function => Sys2Proof.Machine.execAdminQueueDisable function s
  | .functionQuotaWrite function base count => Sys2Proof.Machine.execFunctionQuotaWrite function base count s
  | .queueDrainLimit queue => Sys2Proof.Machine.execQueueDrainLimit queue s
  | .commandOverrun id => Sys2Proof.Machine.execCommandOverrun id s
  | .pcieLaneErrorWindow lane errors => Sys2Proof.Machine.execPcieLaneErrorWindow lane errors s
  | .nop id => Sys2Proof.Machine.execNop id s
  | .identify id => Sys2Proof.Machine.execIdentify id s
  | .abort id => Sys2Proof.Machine.execAbort id s
  | .queueCreate id => Sys2Proof.Machine.execQueueCreate id s
  | .queueDisable id => Sys2Proof.Machine.execQueueDisable id s
  | .queueDelete id => Sys2Proof.Machine.execQueueDelete id s
  | .imageLoad id => Sys2Proof.Machine.execImageLoad id s
  | .imageLoadPartial id => Sys2Proof.Machine.execImageLoadPartial id s
  | .contextStage id => Sys2Proof.Machine.execContextStage id s
  | .contextSwapAt id => Sys2Proof.Machine.execContextSwapAt id s
  | .scheduleSet id => Sys2Proof.Machine.execScheduleSet id s
  | .contextRetire id => Sys2Proof.Machine.execContextRetire id s
  | .snapshotFf id => Sys2Proof.Machine.execSnapshotFf id s
  | .dmaMove id => Sys2Proof.Machine.execDmaMove id s
  | .dmaFill id => Sys2Proof.Machine.execDmaFill id s
  | .dmaGather id => Sys2Proof.Machine.execDmaGather id s
  | .keyInstall id => Sys2Proof.Machine.execKeyInstall id s
  | .keyRetire id => Sys2Proof.Machine.execKeyRetire id s
  | .regionRekey id => Sys2Proof.Machine.execRegionRekey id s
  | .timeRead id => Sys2Proof.Machine.execTimeRead id s
  | .timeAdjust id => Sys2Proof.Machine.execTimeAdjust id s
  | .holdoverControl id => Sys2Proof.Machine.execHoldoverControl id s
  | .timedOutputSet id => Sys2Proof.Machine.execTimedOutputSet id s
  | .eyeScan id => Sys2Proof.Machine.execEyeScan id s
  | .pairForm id => Sys2Proof.Machine.execPairForm id s
  | .pairDissolve id => Sys2Proof.Machine.execPairDissolve id s
  | .pairTakeover id => Sys2Proof.Machine.execPairTakeover id s
  | .pairPrepare id => Sys2Proof.Machine.execPairPrepare id s
  | .pairCommit id => Sys2Proof.Machine.execPairCommit id s
  | .bistRun id find => Sys2Proof.Machine.execBistRun id s find
  | .telemetryRead id => Sys2Proof.Machine.execTelemetryRead id s
  | .faultLogRead id => Sys2Proof.Machine.execFaultLogRead id s
  | .throttleAck id => Sys2Proof.Machine.execThrottleAck id s
  | .attest id => Sys2Proof.Machine.execAttest id s
  | .debugUnlock id => Sys2Proof.Machine.execDebugUnlock id s
  | .modeSet id swap => Sys2Proof.Machine.execModeSet id swap s
  | .laneEnable lane value => Sys2Proof.Machine.execLaneEnable lane value s
  | .laneDisable lane value => Sys2Proof.Machine.execLaneDisable lane value s
  | .cdrLock lane heights => Sys2Proof.Machine.execCdrLock lane heights s
  | .laneAlignLock lane => Sys2Proof.Machine.execLaneAlignLock lane s
  | .laneAcquireTimeout lane => Sys2Proof.Machine.execLaneAcquireTimeout lane s
  | .laneRetryWaitEnd lane => Sys2Proof.Machine.execLaneRetryWaitEnd lane s
  | .laneLinkLoss lane => Sys2Proof.Machine.execLaneLinkLoss lane s
  | .tsSettle lane => Sys2Proof.Machine.execTsSettle lane s
  | .frameReceived lane frame fcs pcs offset ready => Sys2Proof.Machine.execFrameReceived lane frame fcs pcs offset ready s
  | .streamEgressFrame lane frame underrun => Sys2Proof.Machine.execStreamEgressFrame lane frame underrun s
  | .slowPathTxTail lane value => Sys2Proof.Machine.execSlowPathTxTail lane value s
  | .slowPathTransmit lane offset stepped => Sys2Proof.Machine.execSlowPathTransmit lane offset stepped s
  | .eiEntry lane => Sys2Proof.Machine.execEiEntry lane s
  | .rxSignalLossEi lane => Sys2Proof.Machine.execRxSignalLossEi lane s
  | .eiRelockTimeout lane => Sys2Proof.Machine.execEiRelockTimeout lane s
  | .fhLaneErrorWindow lane corrected errors receiving => Sys2Proof.Machine.execFhLaneErrorWindow lane corrected errors s receiving
  | .eyeScanEnd group points => Sys2Proof.Machine.execEyeScanEnd group points s
  | .candidateWindow candidate count => Sys2Proof.Machine.execCandidateWindow candidate count s
  | .coreRefMissingEdge => Sys2Proof.Machine.execCoreRefMissingEdge s
  | .corePllUnlock pll => Sys2Proof.Machine.execCorePllUnlock pll s
  | .coreReferenceSwitch source confirm => Sys2Proof.Machine.execCoreReferenceSwitch source confirm s
  | .coreRefSwitchEnd => Sys2Proof.Machine.execCoreRefSwitchEnd s
  | .userPllEnable pll value => Sys2Proof.Machine.execUserPllEnable pll value s
  | .userPllDisable pll value => Sys2Proof.Machine.execUserPllDisable pll value s
  | .userPllLock pll => Sys2Proof.Machine.execUserPllLock pll s
  | .userPllInputFail pll => Sys2Proof.Machine.execUserPllInputFail pll s
  | .globalChannelSelect channel source => Sys2Proof.Machine.execGlobalChannelSelect channel source s
  | .wicketTrim codes => Sys2Proof.Machine.execWicketTrim codes s
  | .oscBackupCheck permille => Sys2Proof.Machine.execOscBackupCheck permille s
  | .timePllRefLoss => Sys2Proof.Machine.execTimePllRefLoss s
  | .timePllReturn => Sys2Proof.Machine.execTimePllReturn s
  | .replicaRealign => Sys2Proof.Machine.execReplicaRealign s
  | .timingEvaluation => Sys2Proof.Machine.execTimingEvaluation s
  | .modelRefit => Sys2Proof.Machine.execModelRefit s
  | .ptpMeasurementCommit value => Sys2Proof.Machine.execPtpMeasurementCommit value s
  | .ppsEdge width sub => Sys2Proof.Machine.execPpsEdge width sub s
  | .ppsTimeout => Sys2Proof.Machine.execPpsTimeout s
  | .todMessage message => Sys2Proof.Machine.execTodMessage message s
  | .synceHoldOffExpiry => Sys2Proof.Machine.execSynceHoldOffExpiry s
  | .synceWtrExpiry lane => Sys2Proof.Machine.execSynceWtrExpiry lane s
  | .timeStepEdge => Sys2Proof.Machine.execTimeStepEdge s
  | .timedOutputEdge output => Sys2Proof.Machine.execTimedOutputEdge output s
  | .housekeepingRound codes sensors activity served => Sys2Proof.Machine.execHousekeepingRound codes sensors activity served s
  | .throttleGraceExpiry => Sys2Proof.Machine.execThrottleGraceExpiry s
  | .throttleStepDeepen => Sys2Proof.Machine.execThrottleStepDeepen s
  | .throttleStepRelease => Sys2Proof.Machine.execThrottleStepRelease s
  | .wicketWatchdogExpiry => Sys2Proof.Machine.execWicketWatchdogExpiry s
  | .wicketRestartEnd => Sys2Proof.Machine.execWicketRestartEnd s
  | .pinOwnerChange register value => Sys2Proof.Machine.execPinOwnerChange register value s
  | .ownerHandoverEnd pin level oe => Sys2Proof.Machine.execOwnerHandoverEnd pin level oe s
  | .pinInputChange levels ports => Sys2Proof.Machine.execPinInputChange levels ports s
  | .debounceSettle pin => Sys2Proof.Machine.execDebounceSettle pin s
  | .matcherEnable matcher value => Sys2Proof.Machine.execMatcherEnable matcher value s
  | .prlLinkEnable value => Sys2Proof.Machine.execPrlLinkEnable value s
  | .linkStageDone partnerWidth => Sys2Proof.Machine.execLinkStageDone partnerWidth s
  | .linkStateTimeout => Sys2Proof.Machine.execLinkStateTimeout s
  | .controlBlockReceived block crcOk => Sys2Proof.Machine.execControlBlockReceived block crcOk s
  | .dataBlockReceived train data index fecOk => Sys2Proof.Machine.execDataBlockReceived train data s index fecOk
  | .bolrynLaneErrorWindow lane codewords => Sys2Proof.Machine.execBolrynLaneErrorWindow lane codewords s
  | .linkWidthChange => Sys2Proof.Machine.execLinkWidthChange s
  | .linkDirectionSleep => Sys2Proof.Machine.execLinkDirectionSleep s
  | .linkDirectionWake => Sys2Proof.Machine.execLinkDirectionWake s
  | .bandReadapt ok => Sys2Proof.Machine.execBandReadapt ok s
  | .pairFormCommit => Sys2Proof.Machine.execPairFormCommit s
  | .pairFormTimeout => Sys2Proof.Machine.execPairFormTimeout s
  | .digestUnitClose find => Sys2Proof.Machine.execDigestUnitClose s find
  | .segmentReleaseDue => Sys2Proof.Machine.execSegmentReleaseDue s
  | .mismatchResolution => Sys2Proof.Machine.execMismatchResolution s
  | .resyncCopyEnd => Sys2Proof.Machine.execResyncCopyEnd s
  | .resyncFrameEnd => Sys2Proof.Machine.execResyncFrameEnd s
  | .pairTimeAverage => Sys2Proof.Machine.execPairTimeAverage s
  | .roleExchange => Sys2Proof.Machine.execRoleExchange s
  | .heartbeatLoss => Sys2Proof.Machine.execHeartbeatLoss s
  | .takeoverEdge => Sys2Proof.Machine.execTakeoverEdge s
  | .partnerTimeout => Sys2Proof.Machine.execPartnerTimeout s
  | .dissolveBoundary => Sys2Proof.Machine.execDissolveBoundary s
  | .pairCommitBoundary => Sys2Proof.Machine.execPairCommitBoundary s
  | .pairInject value => Sys2Proof.Machine.execPairInject value s
  | .bistSlice signature spares => Sys2Proof.Machine.execBistSlice signature spares s
  | .injectionTimeout => Sys2Proof.Machine.execInjectionTimeout s
  | .safeCauseClear value => Sys2Proof.Machine.execSafeCauseClear value s
  | .muteLift => Sys2Proof.Machine.execMuteLift s
  | .safConfigWrite register value => Sys2Proof.Machine.execSafConfigWrite register value s
  | .registerWrite function offset value wide bar => Sys2Proof.Machine.execRegisterWrite function offset value wide s bar
  | .rcCounterRead function offset wide bar => Sys2Proof.Machine.execRcCounterRead function offset wide s bar
  | .capturePairRead function offset wide => Sys2Proof.Machine.execCapturePairRead function offset wide s
  | .badWidthAccess function offset bytes write bar => Sys2Proof.Machine.execBadWidthAccess function offset bytes write s bar
  | .unassignedAccess function offset write => Sys2Proof.Machine.execUnassignedAccess function offset write s
  | .blockedAccess function offset write => Sys2Proof.Machine.execBlockedAccess function offset write s
  | .linkTrainingComplete speed width reversed => Sys2Proof.Machine.execLinkTrainingComplete speed width reversed s
  | .hostReadCompletion target outcome => Sys2Proof.Machine.execHostReadCompletion target outcome s
  | .completionTimeout target => Sys2Proof.Machine.execCompletionTimeout target s
  | .runStagingTimeout => Sys2Proof.Machine.execRunStagingTimeout s
  | .referenceReadyTimeout => Sys2Proof.Machine.execReferenceReadyTimeout s
  | .upperDieRelease die => Sys2Proof.Machine.execUpperDieRelease die s
  | .bolrynLaneSignalChange lane up => Sys2Proof.Machine.execBolrynLaneSignalChange lane up s
  | .eiSignalReturn lane => Sys2Proof.Machine.execEiSignalReturn lane s
  | .dramAlertDeassert ctl sub => Sys2Proof.Machine.execDramAlertDeassert ctl sub s
  | .intrusiveBistEnd signatures spares channels => Sys2Proof.Machine.execIntrusiveBistEnd signatures spares channels s
  | .landingPlaneCopyEnd => Sys2Proof.Machine.execLandingPlaneCopyEnd s

end Sys2Proof.Machine
end

