-- ==== Sys2Proof/Safety.lean ====
section
/-! DEFINITION. The terms that claims use: a command that completes, what a command leaves as it was, and the safety properties that every
step keeps. -/

namespace Sys2Proof.Machine

/-- Command `c` completes in state `s`, and `p` holds of the next state. -/
def Answers (c : Instr) (s : State) (p : State → Prop) : Prop := ∃ t, exec c s = .next t ∧ p t

/-- Every register field whose key is not among `ks` is in `t` as it was in `s`. -/
def SameRegs (ks : List Nat) (s t : State) : Prop := t.regs.filter (fun e => !ks.contains e.1) = s.regs.filter (fun e => !ks.contains e.1)

/-- Nothing of the machine but the register fields with keys `ks` has changed from `s` to `t`. -/
def OnlyRegs (ks : List Nat) (s t : State) : Prop := t = { s with regs := t.regs } ∧ SameRegs ks s t

/-- The keys of the fields of one instance of some rows. -/
def keys (rs : List Row) (i : Nat := 0) (j : Nat := 0) : List Nat := rs.map (fun r => r.key i j)

/-- The keys of the fields of the first `n` instances of some rows. -/
def allKeys (rs : List Row) (n : Nat) : List Nat := (List.range n).flatMap (fun i => keys rs i)

/-- The cause bit of device event `k` in HCI_EVT_CAUSE. -/
def evtKey (k : Nat) : Nat := 0x18000 * 32 + k

/-- The fields that an entry of the fault log may change (R559, R362). -/
def logKeys : List Nat := evtKey evFaultLog :: keys [SAF_LOG_STATUS.entries, SAF_LOG_STATUS.lost]

/-- The fields that a record of the Wicket's history may change (R473). -/
def historyKeys : List Nat := WKT_STATUS.history.key 0 0 :: logKeys

/-- The fields that transmit mute shows (R546). -/
def muteKeys : List Nat := keys [DEV_MODE.safe_state, TIM_TOUT_STATUS.level] ++ allKeys [FHL_LANE_STATUS.egress_muted] 16

/-- A word that crosses a Transom as a flit, which the network checks (R16). -/
def isFlit : CrossWord → Bool
  | .noc _ _ _ _ => true
  | _ => false

/-- The fields that DEV_STACK_STATUS shows of the dies (R28). -/
def shutterKeys : List Nat := keys [DEV_STACK_STATUS.shutter_closed, DEV_STACK_STATUS.die_in_reset]

/-- The fields that one bit of SAF_DEGRADED brings with it (R544). -/
def degradedKeys (b : Nat) : List Nat := [({ SAF_DEGRADED.stack_channel with lo := b } : Row).key 0 0, DEV_MODE.degraded.key 0 0]

/-- The fields that the selection among the SyncE candidates may change (R408, R432, R452, R458). -/
def synceKeys : List Nat :=
  allKeys [TIM_SYNCE_QL.eligible, TIM_SYNCE_QL.in_wtr, FHL_LANE_STATUS.in_ei, FHL_LANE_STATUS.rclk_valid] 16 ++
    allKeys [CLK_CAND_COUNT.run] 17 ++ keys [TIM_STATUS.synce_sel, CLK_CAND_READY.ready] ++ [evtKey evTiming]

/-- The fields that the state of lane `n` brings with it (R403, R422, R432). -/
def laneKeys (n : Nat) : List Nat :=
  keys [FHL_LANE_STATUS.state, FHL_LANE_STATUS.in_ei, FHL_LANE_STATUS.ts_settled, FHL_LANE_STATUS.rclk_valid, FHL_TX_COUNTS.link_down] n ++
    keys [CLK_CAND_READY.ready] ++ [CLK_CAND_COUNT.run.key (n + 1) 0]

/-- A lane just after it has taken a state at tick `now` (R403). -/
def Lane.fresh (x : Lane) (now : Nat) : Lane := { x with since := now, wait := false, txEi := false, rxEi := false, back := 0 }

/-- Nothing has changed from `s` to `t` but lane `n`, the clocks and selection that follow a lane, and register fields. -/
def OnlyLane (n : Nat) (s t : State) : Prop :=
  t = { s with now := t.now, tim := t.tim, regs := t.regs, fh := { s.fh with lanes := t.fh.lanes },
               link := { s.link with pendingMsix := t.link.pendingMsix }, outbox := t.outbox } ∧
    (∀ m, m < 16 → m ≠ n → laneOf t m = laneOf s m ∨ laneOf t m = { laneOf s m with txEi := false }) ∧
    t.tim.touts = s.tim.touts ∧ t.tim.eng = s.tim.eng ∧ t.tim.steps = s.tim.steps

/-! ## The pair -/

/-- The control block that left last. -/
def lastBlockSent (t : State) : Option ControlBlock :=
  match t.outbox.getLast? with
  | some (.controlBlock b) => some b
  | _ => none

/-- The note of that block (R507). -/
def lastNote (t : State) : Option Note := (lastBlockSent t).map (fun b => b.note)

/-- The device has left its pair for RUN (R530 to R535): not fit, nothing compared or copied any more, the event raised. -/
def LeftPair (s t : State) : Prop :=
  t.rd DEV_MODE.mode = modeRun ∧ t.rd DEV_MODE.previous_mode = s.rd DEV_MODE.mode ∧ t.rd PRL_STATUS.fit = 0 ∧ t.rd PRL_STATUS.resync = 0 ∧
    t.rd HCI_EVT_CAUSE.pair_event = 1 ∧ t.pair.partner = s.pair.partner ∧ t.pair.mac = s.pair.mac ∧ t.pair.prepared = none ∧
    t.pair.takeover = none ∧ t.pair.held = [] ∧ t.pair.copying = false ∧ t.pair.selfFault = none

/-! ## Host commands -/

/-- Command `id` of opcode `op`, tracked as `u`, may start: it is the next of its queue, the Porter runs and its mode allows it; it is not part of
a prepared change (R346, R369, R392). -/
abbrev Startable (s : State) (id op : Nat) (u : Track) : Prop :=
  trackOf s id = some u ∧ u.op = op ∧ porterUp s = true ∧ mayStart s u = true ∧ modeAllows s op = true ∧ u.pair = none

/-- Command `id` has ended with status `st`. -/
def ended (s : State) (id : Nat) (st : Status) : Bool := (trackOf s id).any (fun u => u.phase == .finished && u.status == st.code)

/-- Command `id` has ended with status `st`, result `r` and result2 `r2`. -/
def endedWith (s : State) (id : Nat) (st : Status) (r r2 : Nat) : Bool :=
  (trackOf s id).any (fun u => u.phase == .finished && u.status == st.code && u.result == r && u.result2 == r2)

/-- Command `id` runs and has not ended. -/
def underWay (s : State) (id : Nat) : Bool := (trackOf s id).any (fun u => u.phase == .started)

/-- Nothing has changed from `s` to `t` but the tracking entry of command `id`. -/
def OnlyTrack (id : Nat) (s t : State) : Prop :=
  t = { s with link := { s.link with tracks := t.link.tracks } } ∧
    t.link.tracks.filter (fun u => u.id != id) = s.link.tracks.filter (fun u => u.id != id)

/-! ## Thicket instructions -/

/-- The check codes find nothing wrong in the words that an instruction reads. -/
def clean : Finds := { fetch := .ok, x := .ok, x2 := .ok, y := .ok, y2 := .ok }

/-- The instruction word that the program counter of `tile` names. -/
def wordAt (s : State) (tile : Nat) : Nat := (sparseGet 0 (tileOf s tile).prog (tileOf s tile).pc).toNat

/-- Register `V n` of `tile`. -/
def vAt (s : State) (tile n : Nat) : BitVec 128 := sparseGet 0 (tileOf s tile).regs.v n

/-- Accumulator `n` of `tile`. -/
def accAt (s : State) (tile n : Nat) : BitVec 384 := sparseGet 0 (tileOf s tile).regs.acc n

/-- The next instruction of `tile` is `op` and is free to issue: the tile runs and takes no vector and no spare first, and the word lies in its program
range, meets no exception and does not stall (R138, R150, R155, R165, R174). -/
abbrev Issues (s : State) (tile : Nat) (op : TOp) : Prop :=
  (tileOf s tile).state = .run ∧ ((tileOf s tile).swapPending = true → (tileOf s tile).betweenBlocks = false) ∧
    ((tileOf s tile).lasting = true → (tileOf s tile).betweenBlocks = true → spareGone s tile = true) ∧ outOfRange (tileOf s tile) = false ∧
    topOf (wordAt s tile) = some op ∧ staticExc s tile (tileOf s tile) op (wordAt s tile) = none ∧
    blockLimit s tile (tileOf s tile) op (wordAt s tile) = false ∧ stalls s tile (tileOf s tile) op (wordAt s tile) = false ∧
    ((tileOf s tile).inBlock = true → issueHc s (tileOf s tile) op (wordAt s tile) ≤ (tileOf s tile).blockHc + 65536) ∧ s.safe.injection = none

/-- Nothing but `tile` has changed from `s` to `t`, free values apart. -/
def OnlyTile (tile : Nat) (s t : State) : Prop :=
  t = { s with tiles := t.tiles, free := t.free } ∧ ∀ n, n < 1024 → n ≠ tile → tileOf t n = tileOf s n

/-- The memory slots of word `w` act on a tile, from `x` to `y`: stores into X and Y memory, loads into V registers (R131, R133, R167, R168). -/
def SlotsAct (w : Nat) (x y : Tile) : Prop :=
  y.x = (if (xSlot w).kind = 2 then storeValue x.x (xSlot w) (agAddr x.regs (xSlot w).gen) (sparseGet 0 x.regs.v (xSlot w).v) else x.x) ∧
    y.y = (if (ySlot w).kind = 2 then storeValue x.y (ySlot w) (agAddr x.regs (ySlot w).gen) (sparseGet 0 x.regs.v (ySlot w).v) else x.y) ∧
    ((xSlot w).kind = 1 → sparseGet 0 y.regs.v (xSlot w).v =
      loadValue x.x (xSlot w) (agAddr x.regs (xSlot w).gen) (fM8 w) (bexPreshift x.regs)) ∧
    ((ySlot w).kind = 1 → sparseGet 0 y.regs.v (ySlot w).v =
      loadValue x.y (ySlot w) (agAddr x.regs (ySlot w).gen) (fM8 w) (bexPreshift x.regs))

/-- The generators after the slots' updates (R131, R132). -/
def GensAct (w : Nat) (x y : Tile) : Prop :=
  y.regs.ag = (slotUpdates x.regs w).ag ∧ y.regs.ag4 = (slotUpdates x.regs w).ag4 ∧ y.regs.ag5 = (slotUpdates x.regs w).ag5

/-- The V registers and accumulators that the instruction does not write keep their values (R157). -/
def DataKept (op : TOp) (w : Nat) (x y : Tile) : Prop :=
  (∀ n, n < 16 → destV op w ≠ some n → ((xSlot w).kind = 1 → (xSlot w).v ≠ n) → ((ySlot w).kind = 1 → (ySlot w).v ≠ n) →
      sparseGet 0 y.regs.v n = sparseGet 0 x.regs.v n) ∧
    ∀ n, n < 4 → (op.writesAcc = true → fD w ≠ n) → sparseGet 0 y.regs.acc n = sparseGet 0 x.regs.acc n

/-- The exponent registers keep their values, the headroom too unless stores are tracked (R133). -/
def ExpKept (x y : Tile) : Prop :=
  y.regs.expTotal = x.regs.expTotal ∧ y.regs.bexMode = x.regs.bexMode ∧ (bexTrack x.regs = false → y.regs.headroom = x.regs.headroom)

/-- The next address is the one after, outside the end of a loop (R155, R160). -/
def FallsThrough (x y : Tile) : Prop :=
  (∀ f ∈ x.loops, f.last ≠ x.pc) → y.pc = (x.pc + 1) % 2048 ∧ y.loops = x.loops ∧ y.regs.loop0 = x.regs.loop0 ∧ y.regs.loop1 = x.regs.loop1

/-- What an instruction that works on registers does beside its own result (R155 to R172): nothing but its tile changes, and of that tile
only what the operation, the slots and the program flow write; it takes its issue slot. -/
def RegisterOp (s t : State) (tile : Nat) (op : TOp) : Prop :=
  OnlyTile tile s t ∧ SlotsAct (wordAt s tile) (tileOf s tile) (tileOf t tile) ∧ DataKept op (wordAt s tile) (tileOf s tile) (tileOf t tile) ∧
    (tileOf t tile).hc = issueHc s (tileOf s tile) op (wordAt s tile) + 1 ∧
    tileOf t tile = { tileOf s tile with
      regs := (tileOf t tile).regs, x := (tileOf t tile).x, y := (tileOf t tile).y, pc := (tileOf t tile).pc, loops := (tileOf t tile).loops,
      hc := (tileOf t tile).hc, lastHc := issueHc s (tileOf s tile) op (wordAt s tile), xUses := (tileOf t tile).xUses,
      yUses := (tileOf t tile).yUses, vReady := (tileOf t tile).vReady, accReady := (tileOf t tile).accReady, checkAt := (tileOf t tile).checkAt }

/-- The arithmetic operations: a register operation that moves the generators only by its slots and falls through. -/
def ArithOp (s t : State) (tile : Nat) (op : TOp) : Prop :=
  RegisterOp s t tile op ∧ GensAct (wordAt s tile) (tileOf s tile) (tileOf t tile) ∧ ExpKept (tileOf s tile) (tileOf t tile) ∧
    FallsThrough (tileOf s tile) (tileOf t tile)

/-- Accumulator `fD` holds, part by part, `f` saturated, and `sat` is set when a part saturates (R124, R126). -/
def AccResult (s t : State) (tile : Nat) (f : Nat → Int) : Prop :=
  (∀ p, p < partN (fM8 (wordAt s tile)) →
      accPart (accW (fM8 (wordAt s tile))) (accAt t tile (fD (wordAt s tile))) p = (satTo (accW (fM8 (wordAt s tile))) (f p)).1) ∧
    (tileOf t tile).regs.sat = ((tileOf s tile).regs.sat ||
      (List.range (partN (fM8 (wordAt s tile)))).any (fun p => (satTo (accW (fM8 (wordAt s tile))) (f p)).2))

/-- `V fD` holds, part by part, `f` saturated, and `sat` is set when a part saturates, or where `also` says so (R125, R126, R164). -/
def VecResult (s t : State) (tile : Nat) (f : Nat → Int) (also : Bool := false) : Prop :=
  (∀ p, p < partN (fM8 (wordAt s tile)) →
      vPart (partW (fM8 (wordAt s tile))) (vAt t tile (fD (wordAt s tile))) p = (satTo (partW (fM8 (wordAt s tile))) (f p)).1) ∧
    (tileOf t tile).regs.sat = ((tileOf s tile).regs.sat ||
      (List.range (partN (fM8 (wordAt s tile)))).any (fun p => (satTo (partW (fM8 (wordAt s tile))) (f p)).2) || also)

/-- Part `p` of operand a, and the real and imaginary part of the operand-b element that serves it (R157). -/
def aPart (s : State) (tile p : Nat) : Int := vPart (partW (fM8 (wordAt s tile))) (vAt s tile (fA (wordAt s tile))) p

def bRe (s : State) (tile p : Nat) : Int :=
  vPart (partW (fM8 (wordAt s tile))) (vAt s tile (fB (wordAt s tile))) (2 * bLane (wordAt s tile) (p / 2))

def bIm (s : State) (tile p : Nat) : Int :=
  vPart (partW (fM8 (wordAt s tile))) (vAt s tile (fB (wordAt s tile))) (2 * bLane (wordAt s tile) (p / 2) + 1)

/-- The imaginary part of -j*b, saturated, with whether it saturates: the rotation negates the real part (R164). -/
def turnedIm (s : State) (tile p : Nat) : Int × Bool := satTo (partW (fM8 (wordAt s tile))) (-(bRe s tile p))

/-- Some rotation of VADDMJ or VSUBMJ saturates. -/
def turnSat (s : State) (tile : Nat) : Bool :=
  (List.range (partN (fM8 (wordAt s tile)))).any (fun p => p % 2 == 1 && (turnedIm s tile p).2)

/-- Part `p` of a*b, or of a*conj(b) (R123). -/
def prod (s : State) (tile : Nat) (conj : Bool) (p : Nat) : Int :=
  productPart (wordAt s tile) conj (vAt s tile (fA (wordAt s tile))) (vAt s tile (fB (wordAt s tile))) p

/-- Part `p` of accumulator `fD`. -/
def accWas (s : State) (tile p : Nat) : Int := accPart (accW (fM8 (wordAt s tile))) (accAt s tile (fD (wordAt s tile))) p

/-- A tile operation of the block, port and memory-die groups: its outputs go into the staging buffer inside a block (R144, R165). -/
def Staged (s t : State) (tile : Nat) (k : OutKind) (d : BitVec 128) : Prop :=
  (tileOf t tile).staging = (tileOf s tile).staging ++ [{ kind := k, data := d }] ∧ (tileOf t tile).blockOuts = (tileOf s tile).blockOuts + 1

/-! ## The memory die -/

/-- The valid words of the memory die as they stand at the end of the `n`th hop cycle from now, this one being the first, without further accesses. -/
def wordsAfter (s : State) (n : Nat) : Sparse MemWord := (settleTo (2 * s.mem.updates.length) (hcOf s s.now + n) s).mem.words

/-! ## Invariants -/

/-- The owner is never locked out (R279): while a slot is REVOKED, some slot is PROGRAMMED. -/
def OwnerKept (s : State) : Prop :=
  (∃ n, n < 4 ∧ (ownerSlot s n).state = osRevoked) → ∃ n, n < 4 ∧ (ownerSlot s n).state = osProgrammed

/-- The fault log holds at most 512 entries (R559). -/
def LogBounded (s : State) : Prop := s.safe.log.length ≤ 512

end Sys2Proof.Machine
end

