-- ==== Sys2Proof/Certificates/Slice0/Obligations.lean ====
section
/-! DEFINITION. The statements: what the commands, the machine and its invariants do, by the rules of the spec. -/

open Sys2Proof Sys2Proof.Machine

/-- On a queue with a command c at its front, step answers what exec answers for c in the state with the rest of the queue. (01_stack.md) -/
def Obligations.StepRunsFrontCommand : Prop :=
  ∀ (s : State) (c : Instr) (rest : List Instr), s.pending = c :: rest → step s = exec c { s with pending := rest }

/-- With nothing queued, a step answers a state one hop cycle later: 13 ticks of 1/39 ns on grade 3 and 15 on grade 2; no register changes while no
  controller has anything to write, and only the time, and what the controllers do, differ. (00_scope.md, 09_dram_controller.md) -/
def Obligations.IdleStepPassesTime : Prop :=
  (∀ (s : State), s.pending = [] → ∃ t, step s = .next t ∧ t.now = s.now + (if s.grade2 then 15 else 13) ∧ t.pending = [] ∧ counter s ≤ counter t ∧
    t.boot = s.boot ∧ t.mem = s.mem ∧ t.sec = s.sec ∧ t.pair = s.pair ∧ t.tiles = s.tiles) ∧
  (∀ (s : State), s.pending = [] → (ctrl s 0).writes = [] → (ctrl s 1).writes = [] → ∃ t, step s = .next t ∧ t.regs = s.regs ∧ t.dram.lines =
    s.dram.lines ∧ t.outbox = s.outbox)

/-- Right after reset the device is in BOOT and in the safe state, DEV_ID and DEV_REV identify it, every die is held in reset with its Shutters
  closed, the PERST# wake source is enabled, the time counter is 0 in FREERUN, the fault log is empty, and no core reference but entry 0 of
  CLK_REF_PREF is preferred. (02_modes_and_start_up.md, 23_register_map.md) -/
def Obligations.ResetLeavesRegisters : Prop :=
  State.reset.rd DEV_MODE.mode = modeBoot ∧ State.reset.rd DEV_MODE.safe_state = 1 ∧ State.reset.rd DEV_ID.part_id = 0x4E04 ∧ State.reset.rd
    DEV_ID.family = 1 ∧ State.reset.rd DEV_REV.stepping = 0xB0 ∧ State.reset.rd DEV_STACK_STATUS.shutter_closed = 0xF ∧ State.reset.rd
    DEV_STACK_STATUS.die_in_reset = 0xF ∧ State.reset.rd DEV_DORMANT_CTRL.wake_perst = 1 ∧ State.reset.rd CLK_REF_PREF.pref0 = 0 ∧ State.reset.rd
    CLK_REF_PREF.pref1 = 0x1F ∧ counter State.reset = 0 ∧ State.reset.tim.eng.state = 0 ∧ State.reset.safe.log = [] ∧ State.reset.pending = []

/-- The state after reset meets the owner invariant and the bound of the fault log. (11_security_and_attestation.md,
  22_faults_safety_and_self_test.md) -/
def Obligations.ResetKeepsOwnerAndLog : Prop :=
  OwnerKept State.reset ∧ LogBounded State.reset

/-- In every state in which a REVOKED owner slot implies a PROGRAMMED one, every step that answers a next state keeps this, so that the owner is
  never locked out, whatever command runs. (11_security_and_attestation.md) -/
def Obligations.OwnerNeverLockedOut : Prop :=
  ∀ (s : State) (t : State), OwnerKept s → step s = .next t → OwnerKept t

/-- In every state whose fault log holds at most 512 entries, every step that answers a next state leaves it with at most 512.
  (22_faults_safety_and_self_test.md) -/
def Obligations.FaultLogStaysBounded : Prop :=
  ∀ (s : State) (t : State), LogBounded s → step s = .next t → LogBounded t

/-- POR_N_DEASSERT samples the straps, records the cause, reads the fuses by majority and enters stage 0x02, or halts in stage 0x01 with code 0x01
  or 0x02. BOOT_RAIL_CHECK enters stage 0x03 where every rail lies within its limits and else halts with code 0x03; it identifies the bank
  supplies. CORE_PLL_LOCK takes the first READY preference as the core reference and releases CORE into stage 0x05, or halts with code 0x05 2 ms
  after the stage began. REFERENCE_READY_TIMEOUT halts with code 0x04 1 s after it began. Nothing else changes. (02_modes_and_start_up.md,
  17_clocks.md, 20_pins.md) -/
def Obligations.BootStagesOneToFour : Prop :=
  (∀ (s : State) (fsel : Fin 8) (rate : Fin 4) (halt : Fin 3), s.boot.porHeld = true → Answers (.porNDeassert fsel rate halt) s fun t =>
    t.boot.porHeld = false ∧ t.rd CLK_WKT_TRIM.fsel = fsel.val ∧ t.rd DRC_MAP.rate = rate.val ∧ t.rd DEV_BOOT_STATUS.stage = (if halt.val = 0 ∧
    (fusesRead s).isSome = true then 2 else 1) ∧ (halt.val ≠ 0 → t.rd DEV_BOOT_STATUS.halt_code = halt.val ∧ t.sec = s.sec) ∧ (halt.val = 0 →
    fusesRead s = none → t.rd DEV_BOOT_STATUS.halt_code = 2 ∧ t.sec = s.sec) ∧ (halt.val = 0 → ∀ u ∈ fusesRead s, t.sec = u.sec ∧ t.rd
    SEC_STATUS.owner_slots = ownerSlotBits u % 2 ^ SEC_STATUS.owner_slots.width ∧ t.rd SEC_STATUS.debug_disabled = b2n u.sec.debugDisabled) ∧ t.rd
    (s.boot.cause.getD .powerOn).row = 1 ∧ SameRegs (keys [CLK_WKT_TRIM.fsel, DRC_MAP.rate, DRC_MAP.strap_no_dram, DEV_BOOT_STATUS.stage,
    DEV_BOOT_STATUS.halt_code, SEC_STATUS.owner_slots, SEC_STATUS.debug_disabled, (s.boot.cause.getD .powerOn).row] ++ shutterKeys ++ historyKeys) s
    t ∧ t = { s with sec := t.sec, regs := t.regs, boot := t.boot, safe := t.safe, link := t.link, wkt := t.wkt, outbox := t.outbox }) ∧
  (∀ (s : State), inStage s 2 = true → s.wkt.round ≠ 0 → Answers (.bootRailCheck) s fun t => (((∀ c ∈ [0, 1, 2, 3, 4] ++ (List.range 8).map (· + 14),
    codeIn s c (railRange s c) = true) ∧ t.rd DEV_BOOT_STATUS.stage = 3) ∨ ((∃ c ∈ [0, 1, 2, 3, 4] ++ (List.range 8).map (· + 14), codeIn s c
    (railRange s c) = false) ∧ t.rd DEV_BOOT_STATUS.halt_code = 3 ∧ t.rd DEV_BOOT_STATUS.stage = 2)) ∧ (∀ b : Nat, b < 4 → bit (t.rd
    PIN_STATUS.bank_1v8) b = codeIn s (10 + b) (1710, 1890)) ∧ OnlyRegs (keys [DEV_BOOT_STATUS.stage, DEV_BOOT_STATUS.halt_code, PIN_STATUS.bank_1v8,
    PIN_STATUS.bank_fault] ++ shutterKeys) { s with boot := t.boot } t) ∧
  (∀ (s : State) (c : Nat) (locked : Bool), preferred s = some c → inStage s 4 = true → Answers (.corePllLock locked) s fun t => t.rd
    CLK_REF_STATUS.current = c ∧ (if locked then t.rd DEV_BOOT_STATUS.stage = 5 ∧ t.boot.coreUp = true ∧ t.rd CLK_REF_STATUS.hop_locked = 1 ∧
    t.tim.replica = some (counter s) ∧ t.now = s.now else t.rd DEV_BOOT_STATUS.stage = 4 ∧ t.rd DEV_BOOT_STATUS.halt_code = 5 ∧ t.boot.coreUp = false
    ∧ t.now = max s.now (s.boot.stageSince + 2 * msTicks)) ∧ OnlyRegs (keys [CLK_REF_STATUS.current, CLK_REF_STATUS.hop_locked,
    CLK_REF_STATUS.lane_locked, CLK_REF_STATUS.dram_locked, DEV_BOOT_STATUS.stage, DEV_BOOT_STATUS.halt_code] ++ shutterKeys)
    { s with now := t.now, boot := t.boot, tim := t.tim } t) ∧
  (∀ (s : State), (inStage s 3 && !candReady s 0) || (inStage s 4 && (preferred s).isNone) = true → Answers (.referenceReadyTimeout) s fun t => t.rd
    DEV_BOOT_STATUS.halt_code = 4 ∧ t.boot.coreUp = false ∧ t.now = max s.now (s.boot.stageSince + secTicks) ∧ OnlyRegs (keys
    [DEV_BOOT_STATUS.halt_code] ++ shutterKeys) { s with now := t.now, boot := t.boot, tim := t.tim } t)

/-- PORTER_START shows the fuses and the fingerprint, draws a nonce and enters stage 0x06, or halts with the code of what failed.
  DIE_RELEASE_TRAINING opens D1 to D3 20 us later and enters stage 0x07, or halts naming the die. STACK_CLEAR empties the planes, the signature
  table, the memory die and the Thicket memories and enters stage 0x08, or opens the image store and enters 0xFF without DRAM. DDR_TRAINING
  enters stage 0xFF, with a controller that fails disabled and one that trains active. BOOT_COMPLETE makes DEV_MODE read ASSEMBLY after BOOT.
  What else of the machine each leaves alone stands beside it. (02_modes_and_start_up.md, 09_dram_controller.md, 11_security_and_attestation.md) -/
def Obligations.BootStagesFiveToEnd : Prop :=
  (∀ (s : State) (result : Fin 3), inStage s 5 = true → Answers (.porterStart result) s fun t => (if result.val = 0 then t.rd DEV_BOOT_STATUS.stage =
    6 ∧ t.rd SEC_STATUS.owner_slots = ownerSlotBits s ∧ t.rd SEC_STATUS.debug_disabled = b2n s.sec.debugDisabled ∧ (∀ k : Nat, k < 8 → t.rd
    SEC_FINGERPRINT.bytes k = field fingerprint (4 * k) 4 % 2 ^ 32) ∧ t.free = s.free + 1 else t.rd DEV_BOOT_STATUS.halt_code = result.val ∧ t.rd
    DEV_BOOT_STATUS.stage = 5 ∧ t.free = s.free) ∧ OnlyRegs (keys [DEV_BOOT_STATUS.stage, DEV_BOOT_STATUS.halt_code, SEC_STATUS.owner_slots,
    SEC_STATUS.debug_disabled] ++ allKeys [SEC_FINGERPRINT.bytes] 8 ++ allKeys [SEC_DEBUG_NONCE.bytes] 4 ++ shutterKeys)
    { s with boot := t.boot, free := t.free } t) ∧
  (∀ (s : State) (failed : Option (Fin 3)), inStage s 6 = true → Answers (.dieReleaseTraining failed) s fun t => t.now = s.now + 20 * usTicks ∧
    (failed = none → t.rd DEV_BOOT_STATUS.stage = 7 ∧ t.noc.fenced = false ∧ (∀ n : Nat, n < 3 → n < t.boot.dies.length → t.boot.dies.getD n .off =
    .open_)) ∧ (∀ k : Fin 3, failed = some k → t.rd DEV_BOOT_STATUS.halt_code = 7 + k.val ∧ t.rd DEV_BOOT_STATUS.stage = 6 ∧ t.noc = s.noc) ∧
    OnlyRegs (keys [DEV_BOOT_STATUS.stage, DEV_BOOT_STATUS.halt_code] ++ shutterKeys)
    { s with now := t.now, boot := t.boot, districts := t.districts, noc := t.noc, tim := t.tim } t) ∧
  (∀ (s : State), inStage s 7 = true → Answers (.stackClear) s fun t => t.rd DEV_BOOT_STATUS.stage = (if s.rdb DRC_MAP.strap_no_dram then 0xFF else
    8) ∧ t.mem = { s.mem with words := [], updates := [], clearing := [] } ∧ t.ctxs = { s.ctxs with planes := [], sigs := [] } ∧ (∀ p ∈ t.tiles,
    p.2.x = [] ∧ p.2.y = [] ∧ p.2.prog = []) ∧ t.boot = { s.boot with stageSince := s.now } ∧ (s.rdb DRC_MAP.strap_no_dram = false → t.enc = s.enc ∧
    t.free = s.free ∧ SameRegs (keys [DEV_BOOT_STATUS.stage, DRC_STATUS.state] ++ allKeys [DRC_STATUS.state] 2) s t) ∧ t =
    { s with regs := t.regs, boot := t.boot, ctxs := t.ctxs, tiles := t.tiles, mem := t.mem, enc := t.enc, free := t.free }) ∧
  (∀ (s : State) (fit0 : DramFit) (fit1 : DramFit) (drop0 : List (Fin 32)) (drop1 : List (Fin 32)), inStage s 8 = true → Answers (.ddrTraining fit0
    fit1 drop0 drop1) s fun t => t.rd DEV_BOOT_STATUS.stage = 0xFF ∧ (fit0 = .failed → t.rd DEV_BOOT_STATUS.dram0_disabled = 1 ∧ t.rd
    DRC_STATUS.state 0 = drDisabled) ∧ (fit1 = .failed → t.rd DEV_BOOT_STATUS.dram1_disabled = 1 ∧ t.rd DRC_STATUS.state 1 = drDisabled) ∧ (fit0 =
    .failed ∧ fit1 = .failed → t.rd DRC_MAP.capacity_gib = 0 ∧ t.rd DRC_MAP.interleaved = 0) ∧ t =
    { s with regs := t.regs, boot := t.boot, safe := t.safe, dram := t.dram, enc := t.enc, link := t.link, free := t.free, outbox := t.outbox }) ∧
  (∀ (s : State) (x : Bool) (two : Bool) (dense : Bool) (g : Vector GroupTrain 20) (fit : DramFit) (drop0 : List (Fin 32)) (drop1 : List (Fin 32)),
    inStage s 8 = true → fitCapacity x two dense ≠ 0 → g.toList.any groupFails = false → Answers (.ddrTraining (.trained x two dense g) fit drop0
    drop1) s fun t => t.rd DEV_BOOT_STATUS.stage = 0xFF ∧ t.rd DRC_STATUS.state 0 = drActive ∧ t.rd DRC_STATUS.width_x8 0 = b2n x ∧ t.rd
    DRC_STATUS.two_ranks 0 = b2n two ∧ t.rd DRC_STATUS.density_32gb 0 = b2n dense ∧ fitCapacity x two dense ≤ t.rd DRC_MAP.capacity_gib ∧ (fit =
    .failed → t.rd DRC_MAP.capacity_gib = fitCapacity x two dense ∧ t.rd DRC_MAP.interleaved = 0)) ∧
  (∀ (s : State) (x : Bool) (two : Bool) (dense : Bool) (g : Vector GroupTrain 20) (fit : DramFit) (drop0 : List (Fin 32)) (drop1 : List (Fin 32)),
    inStage s 8 = true → fitCapacity x two dense ≠ 0 → g.toList.any groupFails = false → Answers (.ddrTraining fit (.trained x two dense g) drop0
    drop1) s fun t => t.rd DEV_BOOT_STATUS.stage = 0xFF ∧ t.rd DRC_STATUS.state 1 = drActive ∧ t.rd DRC_STATUS.width_x8 1 = b2n x ∧ t.rd
    DRC_STATUS.two_ranks 1 = b2n two ∧ t.rd DRC_STATUS.density_32gb 1 = b2n dense ∧ fitCapacity x two dense ≤ t.rd DRC_MAP.capacity_gib ∧ (fit =
    .failed → t.rd DRC_MAP.capacity_gib = fitCapacity x two dense ∧ t.rd DRC_MAP.interleaved = 0)) ∧
  (∀ (s : State), inStage s 0xFF = true → Answers (.bootComplete) s fun t => t.rd DEV_MODE.mode = modeAssembly ∧ t.rd DEV_MODE.previous_mode =
    modeBoot ∧ t.rd DEV_MODE.transitions = satAdd 16 (s.rd DEV_MODE.transitions) 1 ∧ t.rd DEV_BOOT_STATUS.stage = 0xFF ∧ t =
    { s with regs := t.regs, safe := t.safe, link := t.link, fh := t.fh, wkt := t.wkt, pins := t.pins, pair := t.pair, outbox := t.outbox })

/-- COLD_RESET returns every register field to its reset value and empties the machine, and keeps the owner slots, the debug fuse, the grade and the
  queue. WARM_RESET, WARM_RESET_REQUEST with its confirm byte, and a fault of both Porter pairs return the device to stage 0x04 of BOOT muted,
  with CORE down, the memory die invalid, no context, no tile state, every region unconfigured in the model's engine and the link's queues gone,
  and record their cause; the time counter and the owner slots are kept. A request without the confirm byte only sets refused.
  (02_modes_and_start_up.md, 11_security_and_attestation.md) -/
def Obligations.WarmAndColdReset : Prop :=
  (∀ (s : State) (cause : Fin 3), Answers (.coldReset cause) s fun t => SameRegs (keys [SEC_STATUS.owner_slots, SEC_STATUS.debug_disabled] ++ allKeys
    [SEC_DEBUG_NONCE.bytes] 4) { s with regs := [] } t ∧ t.free = s.free + 1 ∧ t.sec.slots = s.sec.slots ∧ t.sec.debugDisabled = s.sec.debugDisabled
    ∧ t.sec.expires = none ∧ t.grade2 = s.grade2 ∧ t.pending = s.pending ∧ t.mem = MemDie.start ∧ t.ctxs = Contexts.start ∧ t.tiles = [] ∧ t.safe =
    Safety.start ∧ t.tim = Tim.start ∧ t.boot =
    { Boot.start with cause := some (if cause = 0 then .powerOn else if cause = 1 then .porPin else .aonSupply) }) ∧
  (∀ (s : State) (cause : Fin 4), s.boot.porHeld = false → s.boot.dormant = false → Answers (.warmReset cause) s fun t => t.rd DEV_MODE.mode =
    modeBoot ∧ t.rd DEV_BOOT_STATUS.stage = 4 ∧ t.rd DEV_MODE.safe_state = 1 ∧ t.boot.coreUp = false ∧ t.rd (if cause = 0 then DEV_RESET_CAUSE.perst
    else if cause = 1 then DEV_RESET_CAUSE.ref_clock_loss else if cause = 2 then DEV_RESET_CAUSE.porter_fault else DEV_RESET_CAUSE.host_request) = 1
    ∧ t.ctxs = Contexts.start ∧ t.tiles = [] ∧ t.mem = MemDie.start ∧ t.enc = Enc.start ∧ t.imgs = Images.start ∧ t.integ = Integ.start ∧ t.dmas = []
    ∧ t.sec.slots = s.sec.slots ∧ t.sec.expires = none ∧ t.tim.fine = s.tim.fine ∧ t.now = s.now ∧ t.grade2 = s.grade2 ∧ t.pending = s.pending) ∧
  (∀ (s : State) (confirm : Byte), s.link.up = true → s.boot.porHeld = false → s.boot.dormant = false → Answers (.warmResetRequest confirm) s fun t
    => if confirm = 0xA5 then t.rd DEV_BOOT_STATUS.stage = 4 ∧ t.rd DEV_MODE.mode = modeBoot ∧ t.rd DEV_RESET_CAUSE.host_request = 1 ∧ t.link.up =
    false ∧ t.mem = MemDie.start ∧ t.sec.slots = s.sec.slots ∧ t.tim.fine = s.tim.fine else t.rd DEV_RESET_CTRL.refused = 1 ∧ OnlyRegs (keys
    [DEV_RESET_CTRL.refused]) s t) ∧
  (∀ (s : State) (both : Bool), inStage s 5 = false → s.boot.coreUp = true → s.boot.porHeld = false → s.boot.dormant = false → s.boot.d0 = .idle →
    s.rd DEV_MODE.mode ≠ modeBoot → Answers (.porterLockstepFault both) s fun t => if both then t.rd DEV_BOOT_STATUS.stage = 4 ∧ t.rd DEV_MODE.mode =
    modeBoot ∧ t.rd DEV_RESET_CAUSE.porter_fault = 1 ∧ t.sec.slots = s.sec.slots else t.boot.d0 = .fence s.now ∧ t.boot.d0Cause = some .porterFault ∧
    t.noc.fenced = true ∧ t.rd DEV_MODE.mode = s.rd DEV_MODE.mode ∧ t.noc.reqs = s.noc.reqs ∧ t.mem = s.mem ∧ t.ctxs = s.ctxs ∧ t.tiles = s.tiles ∧
    t.link.tracks = s.link.tracks ∧ t.sec = s.sec)

/-- PERST_ASSERT of a high PERST# in DORMANT is only remembered; with perst_scope 0 it is a warm reset, with 1 the loss of the link. PERST_DEASSERT
  outside DORMANT starts HOST and releases WAKE#. LINK_LOSS, and PCIE_REFCLK_LOSS of a running device, take the link down with speed and width
  0. FUNCTION_LEVEL_RESET masks every vector of its function and clears its admin queue's registers. But for that warm reset, which empties the
  memory die, none of them touches the memory die, the tiles or the network; none touches the owner slots. (02_modes_and_start_up.md,
  14_host_rings.md, 17_clocks.md) -/
def Obligations.LinkAndFunctionResets : Prop :=
  (∀ (s : State), s.boot.porHeld = false → s.link.perst = false → Answers (.perstAssert) s fun t => t.link.perst = true ∧ t.sec.slots = s.sec.slots ∧
    (if s.boot.dormant then t = { s with link := { s.link with perst := true }, boot := { s.boot with perstSeen := true } } else if s.rdb
    DEV_RESET_CTRL.perst_scope then t.link.up = false ∧ t.mem = s.mem ∧ t.tiles = s.tiles ∧ t.noc = s.noc ∧ t.sec = s.sec else t.rd
    DEV_BOOT_STATUS.stage = 4 ∧ t.rd DEV_RESET_CAUSE.perst = 1 ∧ t.mem = MemDie.start)) ∧
  (∀ (s : State), s.boot.dormant = false → Answers (.perstDeassert) s fun t => t =
    { s with link := { s.link with perst := false }, boot := { s.boot with wakeN := false, hostUp := true } }) ∧
  (∀ (s : State), s.link.up = true → Answers (.linkLoss) s fun t => t.link.up = false ∧ t.link.training = false ∧ t.rd PCIE_LINK_STATUS.speed = 0 ∧
    t.rd PCIE_LINK_STATUS.width = 0 ∧ (∀ v : Nat, v < 32 → sparseGet true t.link.masked v = true) ∧ t =
    { s with regs := t.regs, boot := t.boot, ctxs := t.ctxs, enc := t.enc, link := t.link, imgs := t.imgs, integ := t.integ, dmas := t.dmas, tim := t.tim, pair := t.pair, outbox := t.outbox })
    ∧
  (∀ (s : State), s.boot.porHeld = false → s.boot.dormant = false → Answers (.pcieRefclkLoss) s fun t => t.link.refclk = false ∧ t.link.up = false ∧
    t.rd PCIE_LINK_STATUS.speed = 0 ∧ t.rd PCIE_LINK_STATUS.width = 0 ∧ t =
    { s with regs := t.regs, boot := t.boot, ctxs := t.ctxs, enc := t.enc, link := t.link, imgs := t.imgs, integ := t.integ, dmas := t.dmas, tim := t.tim, pair := t.pair, outbox := t.outbox })
    ∧
  (∀ (s : State) (f : Fin 64), s.link.up = true → Answers (.functionLevelReset f) s fun t => (∀ v : Nat, v < 32 → sparseGet true t.link.masked (32 *
    f.val + v) = true ∧ sparseGet false t.link.pendingMsix (32 * f.val + v) = false) ∧ t.rd HCI_AQ_CFG.enable f = 0 ∧ t.rd HCI_AQ_STATUS.ready f = 0
    ∧ t.link.up = true ∧ t =
    { s with regs := t.regs, boot := t.boot, ctxs := t.ctxs, enc := t.enc, link := t.link, imgs := t.imgs, integ := t.integ, dmas := t.dmas, tim := t.tim, pair := t.pair, outbox := t.outbox })

/-- PME_TURN_OFF is answered, and remembered where DORMANT has committed. DORMANT_POWER_DOWN makes the mode DORMANT with every Shutter closed, HOST
  and CORE off, the memory die invalid and the pins asleep; AON state stays. WAKE by an enabled source, and WAKE_TIMER_EXPIRY at its time,
  resume boot at stage 0x04 with the source recorded. (02_modes_and_start_up.md, 19_wicket_and_thermal.md) -/
def Obligations.DormantAndWake : Prop :=
  (∀ (s : State), s.link.up = true → Answers (.pmeTurnOff) s fun t => t =
    { s with outbox := s.outbox ++ [.pmeToAck], boot := if s.boot.dormantCommit.isSome then { s.boot with pmeAcked := true } else s.boot }) ∧
  (∀ (s : State) (t0 : Nat), s.boot.dormantCommit = some t0 → s.boot.wakeWaiting = none → Answers (.dormantPowerDown) s fun t => t.rd DEV_MODE.mode =
    modeDormant ∧ t.boot.dormant = true ∧ t.boot.hostUp = false ∧ t.boot.coreUp = false ∧ t.pins.sleeping = true ∧ t.mem = MemDie.start ∧ t.tiles =
    [] ∧ t.ctxs = Contexts.start ∧ t.sec.slots = s.sec.slots ∧ t.now = (if s.boot.pmeAcked then s.now else max s.now (t0 + 100 * msTicks)) ∧
    t.wkt.wakeTick = t.now ∧ t.rd DEV_STACK_STATUS.shutter_closed = 0xF ∧ t.grade2 = s.grade2 ∧ t.pending = s.pending) ∧
  (∀ (s : State) (source : Fin 3), s.boot.dormant = true → wakeEnabled s source = true → s.boot.thermalHold = false → s.boot.wakeWaiting = none →
    Answers (.wake source) s fun t => t.boot.dormant = false ∧ t.rd DEV_MODE.mode = modeBoot ∧ t.rd DEV_BOOT_STATUS.stage = 4 ∧ t.rd
    DEV_RESET_CAUSE.wake = 1 ∧ t.rd DEV_RESET_CAUSE.wake_source = source.val ∧ t.boot.hostUp = !s.link.perst ∧ t =
    { s with regs := t.regs, boot := t.boot, safe := t.safe, link := t.link, wkt := t.wkt, outbox := t.outbox }) ∧
  (∀ (s : State), s.boot.dormant = true → s.rd WKT_WAKE_TIMER.seconds ≠ 0 → s.rdb DEV_DORMANT_CTRL.wake_timer = true → s.boot.thermalHold = false →
    s.boot.wakeWaiting = none → Answers (.wakeTimerExpiry) s fun t => t.now = max s.now (s.wkt.wakeTick + s.rd WKT_WAKE_TIMER.seconds * secTicks) ∧
    t.boot.dormant = false ∧ t.rd WKT_WAKE_TIMER.seconds = 0 ∧ t.rd DEV_BOOT_STATUS.stage = 4 ∧ t.rd DEV_RESET_CAUSE.wake_source = 2 ∧ t =
    { s with now := t.now, regs := t.regs, boot := t.boot, safe := t.safe, link := t.link, tim := t.tim, wkt := t.wkt, outbox := t.outbox })

/-- DIE_RESET_D0 raises the fence 1 hc after its cause and mutes by the recovery cause where it was clear. D0_DRAIN_END follows at the latest 4 us
  after the fence, D0_OUTSTANDING_DIE_RESET 0.5 us later holds CORE with nothing outstanding and every mover free, D0_RESET_RELEASE 1 us later
  runs CORE, D0_SHUTTERS_OPEN opens the Shutters after 20 us of training, and PORTER_READY ends the reset and records it. The planes, the memory
  die and the tiles are not touched. (02_modes_and_start_up.md) -/
def Obligations.BaseDieReset : Prop :=
  (∀ (s : State), s.boot.porHeld = false → s.boot.dormant = false → s.boot.coreUp = true → s.boot.d0 = .idle → s.rd DEV_MODE.mode ≠ modeBoot →
    Answers (.dieResetD0) s fun t => t.boot.d0 = .fence s.now ∧ t.boot.recoverD0 = true ∧ t.noc.fenced = true ∧ causeSet t scRecovery = true ∧
    (causeSet s scRecovery = false → t.rd DEV_MODE.safe_state = 1) ∧ t.now = s.now + hcTicks s ∧ t =
    { s with now := t.now, tim := t.tim, regs := t.regs, boot := t.boot, safe := t.safe, noc := { s.noc with fenced := true }, fh := t.fh, link := t.link, pair := t.pair, outbox := t.outbox })
    ∧
  (∀ (s : State) (t0 : Nat), s.boot.d0 = .fence t0 → Answers (.d0DrainEnd) s fun t => t.boot.d0 = .drained t.now ∧ t.now = (if nocBusy s then max
    s.now (t0 + 4 * usTicks) else s.now) ∧ (∀ c : Nat, c < 2 → t.rd DRC_STATUS.state c ≠ drActive) ∧ (ctrl t 0).writes = [] ∧ OnlyRegs (allKeys
    [DRC_STATUS.state] 2) { s with now := t.now, boot := t.boot, dram := t.dram, tim := t.tim } t) ∧
  (∀ (s : State) (t0 : Nat), s.boot.d0 = .drained t0 → Answers (.d0OutstandingDieReset) s fun t => t.boot.coreUp = false ∧ t.boot.d0 = .held t.now ∧
    t.now = max s.now (t0 + 500 * nsTicks) ∧ (∀ r ∈ t.noc.reqs, r.owner = .fabric ∧ r.inPort = true) ∧ t.enc.ops = [] ∧ t.dmas = [] ∧ t.fh.lanes = []
    ∧ t.safe.injection = none ∧ (ctrl t 0).reads = [] ∧ (ctrl t 1).reads = [] ∧ t =
    { s with now := t.now, regs := t.regs, boot := t.boot, safe := t.safe, ctxs := t.ctxs, noc := t.noc, dram := t.dram, enc := t.enc, link := t.link, imgs := t.imgs, integ := t.integ, dmas := [], fh := t.fh, tim := t.tim, pair := t.pair, free := t.free, outbox := t.outbox, sec := { s.sec with ops := t.sec.ops } })
    ∧
  (∀ (s : State) (t0 : Nat), s.boot.d0 = .held t0 → Answers (.d0ResetRelease) s fun t => t.boot.coreUp = true ∧ t.boot.d0 = .released t.now ∧ t.now =
    max s.now (t0 + usTicks) ∧ t.tim.replica = some (counter t) ∧ OnlyRegs shutterKeys { s with now := t.now, boot := t.boot, tim := t.tim } t) ∧
  (∀ (s : State) (t0 : Nat), s.boot.d0 = .released t0 → s.noc.tx = [] → Answers (.d0ShuttersOpen []) s fun t => t.boot.d0 = .opened t.now ∧ t.now =
    max s.now (t0 + 20 * usTicks) ∧ (∀ c : Nat, c < 2 → s.rd DRC_STATUS.state c = drSelfRefresh → t.rd DRC_STATUS.state c = drActive) ∧ t.noc =
    { s.noc with fenced := !dieOpen s 2 } ∧ OnlyRegs (allKeys [DRC_STATUS.state] 2 ++ shutterKeys)
    { s with now := t.now, boot := t.boot, noc := t.noc, dram := t.dram, enc := t.enc, tim := t.tim } t) ∧
  (∀ (s : State) (t0 : Nat), s.boot.d0 = .opened t0 → Answers (.porterReady) s fun t => t.boot.d0 = .idle ∧ bit (t.rd DEV_RESET_CAUSE.die_reset) 0 =
    true ∧ (s.boot.d0Cause = some .porterFault → t.rd DEV_RESET_CAUSE.porter_fault = 1) ∧ t =
    { s with regs := t.regs, boot := t.boot, safe := t.safe, link := t.link, fh := t.fh, wkt := t.wkt, outbox := t.outbox })

/-- DIE_RESET_UPPER holds an open die: D1 loses its memory, D2 its latches and tiles, D3 its engines. UPPER_DIE_RELEASE releases it after 1 us,
  DIE_TRAINING_COMPLETE opens it after its training and records the reset. A group that fails three trainings resets the die again.
  NEIGHBOUR_POWER_LOSS shuts it within 4 hc where a lane reads SHUT or the invalid encoding. DIE_RESET_REQUEST without its confirm byte, or
  outside ASSEMBLY and SERVICE, only sets refused; with it, the named dies are reset. (02_modes_and_start_up.md, 01_stack.md) -/
def Obligations.UpperDieResets : Prop :=
  (∀ (s : State) (die : Fin 3), s.boot.dies.getD die .off = .open_ → s.boot.dies.length = 3 → s.boot.porHeld = false → s.boot.dormant = false → s.rd
    DEV_MODE.mode ≠ modeBoot → Answers (.dieResetUpper die) s fun t => t.boot.dies.getD die .off = .held s.now ∧ (die.val = 0 → t.mem.words = []) ∧
    (die.val = 1 → t.tiles = [] ∧ t.ctxs.active = [] ∧ t.ctxs.staged = [] ∧ t.boot.recoverD2 = true ∧ t.noc.fenced = true) ∧ (die.val = 2 →
    t.integ.queue = [] ∧ t.boot.d3Unswept = true) ∧ (die.val = 0 → t.ctxs = s.ctxs ∧ t.tiles = s.tiles ∧ t.dram = s.dram ∧ t.noc = s.noc) ∧ (die.val
    = 1 → t.mem.words = s.mem.words ∧ t.dram.lines = s.dram.lines) ∧ (die.val = 2 → t.mem = s.mem ∧ t.tiles = s.tiles ∧ t.dram = s.dram) ∧ t.stack =
    s.stack ∧ t.sec = s.sec ∧ t.free = s.free ∧ t.pending = s.pending ∧ t.now = s.now) ∧
  (∀ (s : State) (die : Fin 3) (t0 : Nat), s.boot.dies.getD die .off = .held t0 → Answers (.upperDieRelease die) s fun t => t.now = max s.now (t0 +
    usTicks) ∧ t.boot.dies = s.boot.dies.set die (.training t.now) ∧ OnlyRegs shutterKeys
    { s with now := t.now, boot := t.boot, districts := t.districts, tim := t.tim } t) ∧
  (∀ (s : State) (die : Fin 3) (t0 : Nat), s.boot.dies.getD die .off = .training t0 → baseOpen s = true → s.noc.tx = [] → Answers
    (.dieTrainingComplete die false) s fun t => t.boot.dies = s.boot.dies.set die .open_ ∧ bit (t.rd DEV_RESET_CAUSE.die_reset) (die + 1) = true ∧
    (s.boot.hostAsked.contains (die.val + 1) = true → t.rd DEV_RESET_CAUSE.host_request = 1) ∧ t.now = max s.now (t0 + (if die = 1 then 20 else 2) *
    usTicks) + (if die = 0 then usTicks else 0) ∧ t =
    { s with now := t.now, regs := t.regs, boot := t.boot, safe := t.safe, noc := t.noc, link := t.link, tim := t.tim, wkt := t.wkt, outbox := t.outbox })
    ∧
  (∀ (s : State) (die : Fin 3) (t0 : Nat), s.boot.dies.getD die .off = .training t0 → baseOpen s = true → s.boot.porHeld = false → s.boot.dormant =
    false → s.rd DEV_MODE.mode ≠ modeBoot → Answers (.dieTrainingComplete die true) s fun t => t.boot.dies.getD die .off = .held (max s.now (t0 + 3 *
    ((if die = 1 then 20 else 2) * usTicks))) ∧ t.now = max s.now (t0 + 3 * ((if die = 1 then 20 else 2) * usTicks)) ∧ (die.val = 0 → t.mem.words =
    []) ∧ (die.val = 1 → t.tiles = []) ∧ t.sec = s.sec ∧ t.pending = s.pending) ∧
  (∀ (s : State) (die : Fin 3) (lane : Fin 4), dieOpen s (die + 1) = true → Answers (.neighbourPowerLoss die lane) s fun t => if lane = 0 ∨ lane = 3
    then t.boot.dies = s.boot.dies.set die .off ∧ t.now = s.now + 4 * hcTicks s ∧ t.noc = { s.noc with fenced := s.noc.fenced || decide (die = 1) } ∧
    OnlyRegs shutterKeys { s with now := t.now, boot := t.boot, noc := t.noc, tim := t.tim } t else t = s) ∧
  (∀ (s : State) (mask : Fin 16) (confirm : Byte), s.link.up = true → mask.val ≠ 0 → confirm ≠ 0xA5 ∨ (s.rd DEV_MODE.mode ≠ modeAssembly ∧ s.rd
    DEV_MODE.mode ≠ modeService) → Answers (.dieResetRequest mask confirm) s fun t => t.rd DEV_RESET_CTRL.refused = 1 ∧ OnlyRegs (keys
    [DEV_RESET_CTRL.refused]) s t) ∧
  (∀ (s : State) (mask : Fin 16), s.link.up = true → s.boot.coreUp = true → s.boot.d0 = .idle → s.boot.dies = [.open_, .open_, .open_] →
    s.boot.porHeld = false → s.boot.dormant = false → s.rd DEV_MODE.mode = modeAssembly ∨ s.rd DEV_MODE.mode = modeService → mask.val ≠ 0 → Answers
    (.dieResetRequest mask 0xA5) s fun t => (∀ k : Nat, k < 3 → (t.boot.dies.getD k .off = .held s.now ↔ bit mask (k + 1) = true)) ∧ (t.boot.d0 =
    .fence s.now ↔ bit mask 0 = true) ∧ t.sec = s.sec ∧ t.now = s.now + (if bit mask 0 then hcTicks s else 0) ∧ t.pending = s.pending)

/-- With no injection armed: a Pane or control-Transom word without a bad channel changes nothing; one bad channel, in either direction, adds one
  error to the window of what carries that channel (R17); a control word with two bad channels is counted as an uncorrectable crossing and
  logged; a word of another kind with two is noted as poisoned, once, under what it carries, or changes nothing where it carries none of them.
  CHANNEL_SPARE_SWITCH takes the oldest copy: 64 hc after it began the spare is in use and the device degraded. A skew sample of 28 ps or less,
  that is the 20 ps of the trim and 8 ps, leaves trim = -skew clamped to 20 ps and no bad run; a larger one after nine or more is a loss of the
  reference, which a warm reset follows. In a locked district a window of at most 2.5 % moves the bias code as nextCode and leaves it locked; a
  slow one after three or more unlocks it slowly. A district not locked 1 ms after its release is unlocked, slowly where its error is above 0
  (that an error of exactly 0 is taken as fast is the model's choice, log entry 143). (01_stack.md, 03_fabric_cells_and_routing.md) -/
def Obligations.StackAndDelayLock : Prop :=
  (∀ (s : State) (kind : Fin 5) (group : Fin 65536) (word : CrossWord) (back : Bool), s.safe.injection = none → isFlit word = false → Answers
    (.crossingWord kind group [] word back) s fun t => t = s) ∧
  (∀ (s : State) (kind : Fin 5) (group : Fin 65536) (ch : Fin 272) (word : CrossWord) (back : Bool), s.safe.injection = none → isFlit word = false →
    dieTrained s (groupDies kind).1 = true → dieTrained s (groupDies kind).2 = true → ch.val < groupChannels kind → Answers (.crossingWord kind group
    [ch] word back) s fun t => sparseFind t.safe.windows (winKey 0 (channelKey s kind group (channelNo back ch))) = some (windowAdd s.now (s.rd
    SAF_WIN.window 0) (s.rd SAF_WIN.limit 0) (sparseFind s.safe.windows (winKey 0 (channelKey s kind group (channelNo back ch))))) ∧ t.stack.spares =
    s.stack.spares ∧ t.rd NOC_ERR_COUNTS.corrected = (if kind.val = gkNoc then satAdd 32 (s.rd NOC_ERR_COUNTS.corrected) 1 else s.rd
    NOC_ERR_COUNTS.corrected) ∧ SameRegs (keys [NOC_ERR_COUNTS.corrected] ++ logKeys) s t ∧ t =
    { s with regs := t.regs, stack := t.stack, safe := t.safe, link := t.link, outbox := t.outbox }) ∧
  (∀ (s : State) (group : Fin 65536) (c1 : Fin 272) (c2 : Fin 272) (word : CrossWord) (back : Bool), s.safe.injection = none → isFlit word = false →
    dieTrained s 0 = true → dieTrained s 2 = true → c1.val < 39 → c2.val < 39 → c1 ≠ c2 → Answers (.crossingWord 4 group [c1, c2] word back) s fun t
    => t.stack = { s.stack with uncorrectable := s.stack.uncorrectable + 1 } ∧ (t.safe.log.getLast?.map (fun e => e.kind)) = some
    .crossingUncorrectable ∧ SameRegs logKeys s t ∧ t =
    { s with regs := t.regs, stack := t.stack, safe := t.safe, link := t.link, outbox := t.outbox }) ∧
  (∀ (s : State) (kind : Fin 4) (group : Fin 65536) (c1 : Fin 272) (c2 : Fin 272) (word : CrossWord) (back : Bool), s.safe.injection = none → isFlit
    word = false → dieTrained s (groupDies kind).1 = true → dieTrained s (groupDies kind).2 = true → c1.val < groupChannels kind → c2.val <
    groupChannels kind → c1 ≠ c2 → Answers (.crossingWord kind.castSucc group [c1, c2] word back) s fun t => t =
    { s with stack := { s.stack with poisoned := if word = .other ∨ s.stack.poisoned.contains word = true then s.stack.poisoned else s.stack.poisoned ++ [word] } })
    ∧
  (∀ (s : State) (g : Nat) (k : Nat) (ch : Nat) (t0 : Nat) (rest : List (Nat × Nat × Nat × Nat)), s.stack.copying = (g, k, ch, t0) :: rest → Answers
    (.channelSpareSwitch) s fun t => t.now = max s.now (t0 + 64 * hcTicks s) ∧ t.stack.copying = rest ∧ t.stack.spares = s.stack.spares ++ [(g, k,
    ch)] ∧ t.rd DEV_STACK_STATUS.spares_in_use = satAdd 8 (s.rd DEV_STACK_STATUS.spares_in_use) 1 % 256 ∧ t.rd DEV_MODE.degraded = 1 ∧ SameRegs (keys
    [DEV_STACK_STATUS.spares_in_use, DEV_STACK_STATUS.groups_exhausted] ++ degradedKeys dgStack ++ logKeys) s t ∧ t =
    { s with now := t.now, regs := t.regs, stack := t.stack, safe := t.safe, link := t.link, tim := t.tim, outbox := t.outbox }) ∧
  (∀ (s : State) (die : Fin 4) (skew : Int), s.boot.coreUp = true → dieTrained s die = true → -28 ≤ skew ∧ skew ≤ 28 → Answers (.clockSkewSample die
    skew) s fun t => t =
    { s with stack := { s.stack with trim := s.stack.trim.set die (max (-20) (min 20 (-skew))), skewBad := s.stack.skewBad.set die 0 } }) ∧
  (∀ (s : State) (die : Fin 4) (skew : Int), s.boot.coreUp = true → s.boot.porHeld = false → s.boot.dormant = false → dieTrained s die = true → skew
    < -28 ∨ 28 < skew → 9 ≤ s.stack.skewBad.getD die 0 → Answers (.clockSkewSample die skew) s fun t => t.rd DEV_BOOT_STATUS.stage = 4 ∧ t.rd
    DEV_RESET_CAUSE.ref_clock_loss = 1 ∧ bit (t.rd DEV_STACK_STATUS.skew_fault) die = true ∧ t.sec.slots = s.sec.slots ∧ t.tim.fine = s.tim.fine) ∧
  (∀ (s : State) (d : Fin 80) (e : Int), (district s d).releasedAt.isSome = true → s.rdb THM_DLOCK_DISTRICT.locked d = true → -25 ≤ e ∧ e ≤ 25 →
    Answers (.delayLockWindow d e) s fun t => t.rd THM_DLOCK_DISTRICT.bias_code d = nextCode (s.rd THM_DLOCK_DISTRICT.bias_code d) e % 64 ∧ t.rdb
    THM_DLOCK_DISTRICT.locked d = true ∧ (district t d).slowRun = 0 ∧ (district t d).fastRun = 0 ∧ OnlyRegs (keys [THM_DLOCK_DISTRICT.bias_code,
    THM_DLOCK_DISTRICT.freq_error, THM_DLOCK_DISTRICT.at_limit] d) { s with districts := t.districts } t) ∧
  (∀ (s : State) (d : Fin 80) (e : Int), (district s d).releasedAt.isSome = true → s.rdb THM_DLOCK_DISTRICT.locked d = true → 25 < e → 3 ≤ (district
    s d).slowRun → Answers (.delayLockWindow d e) s fun t => t.rd THM_DLOCK_DISTRICT.locked d = 0 ∧ t.rd THM_DLOCK_DISTRICT.slow_unlock_seen d = 1 ∧
    (district t d).slow = true ∧ (t.safe.log.getLast?.map (fun x => x.kind)) = some .delayUnlock ∧ t =
    { s with regs := t.regs, safe := t.safe, districts := t.districts, link := t.link, outbox := t.outbox }) ∧
  (∀ (s : State) (d : Fin 80) (r : Nat), (district s d).releasedAt = some r → (district s d).acquired = false → Answers (.lockAcquireTimeout d) s fun
    t => t.now = max s.now (r + msTicks) ∧ t.rd THM_DLOCK_DISTRICT.locked d = 0 ∧ (district t d).acquired = true ∧ (district t d).slow = decide (0 <
    toSigned 8 (s.rd THM_DLOCK_DISTRICT.freq_error d)) ∧ t =
    { s with now := t.now, regs := t.regs, safe := t.safe, districts := t.districts, link := t.link, tim := t.tim, outbox := t.outbox })

/-- A window that agrees advances the candidate's run; the fourth in a row of LOCAL_OSC in stage 0x03 makes it READY and enters stage 0x04; one that
  disagrees clears both. Each shows its count. A missing edge of the reference, or an unlocked PLL, is recorded: outside DORMANT a warm reset
  follows. CORE_REFERENCE_SWITCH takes a READY source in ASSEMBLY or SERVICE under its confirm byte, is refused with MODE_FORBIDS elsewhere and
  ignored without the byte; CORE_REF_SWITCH_END reports SUCCESS. (17_clocks.md, 02_modes_and_start_up.md) -/
def Obligations.CandidatesAndReference : Prop :=
  (∀ (s : State) (c : Fin 25) (count : Nat), s.boot.porHeld = false → s.rdb CLK_WKT_TRIM.on_backup = false → candClock s c = true → candHz s c / 1000
    ≠ 0 → agrees count (candHz s c / 1000) = true → s.rd CLK_CAND_COUNT.run c < 3 → Answers (.candidateWindow c count) s fun t => t.rd
    CLK_CAND_COUNT.run c = s.rd CLK_CAND_COUNT.run c + 1 ∧ t.rd CLK_CAND_COUNT.count c = count % 2 ^ 20 ∧ OnlyRegs (keys [CLK_CAND_COUNT.count,
    CLK_CAND_COUNT.run] c) s t) ∧
  (∀ (s : State) (count : Nat), inStage s 3 = true → s.rdb CLK_WKT_TRIM.on_backup = false → localHz s ≠ 0 → agrees count (localHz s / 1000) = true →
    3 ≤ s.rd CLK_CAND_COUNT.run 0 → Answers (.candidateWindow 0 count) s fun t => t.rd DEV_BOOT_STATUS.stage = 4 ∧ candReady t 0 = true ∧ t.rd
    CLK_CAND_COUNT.run 0 = 4 ∧ t.boot = { s.boot with stageSince := s.now } ∧ t.sec = s.sec ∧ t.mem = s.mem) ∧
  (∀ (s : State) (c : Fin 25) (count : Nat), s.boot.porHeld = false → s.rdb CLK_WKT_TRIM.on_backup = false → candClock s c = true → candHz s c / 1000
    = 0 ∨ agrees count (candHz s c / 1000) = false → c.val ≠ s.rd CLK_REF_STATUS.current → Answers (.candidateWindow c count) s fun t => t.rd
    CLK_CAND_COUNT.run c = 0 ∧ t.rd CLK_CAND_COUNT.count c = count % 2 ^ 20 ∧ candReady t c = false ∧ t =
    { s with regs := t.regs, link := t.link, fh := t.fh, tim := t.tim, outbox := t.outbox }) ∧
  (∀ (s : State), refWatched s = true → s.safe.injection = none → s.boot.dormant = true → Answers (.coreRefMissingEdge) s fun t => t.boot =
    { s.boot with refLostDormant := true } ∧ t.rd CLK_MON_EVENTS.missing_edge = 1 ∧ t.rd CLK_MON_EVENTS.failed_source = s.rd CLK_REF_STATUS.current %
    32 ∧ t.mem = s.mem ∧ t.sec = s.sec ∧ t.pins = s.pins ∧ t.now = s.now) ∧
  (∀ (s : State), refWatched s = true → s.safe.injection = none → s.boot.dormant = false → Answers (.coreRefMissingEdge) s fun t => t.rd
    DEV_BOOT_STATUS.stage = 4 ∧ t.rd DEV_MODE.mode = modeBoot ∧ t.rd DEV_RESET_CAUSE.ref_clock_loss = 1 ∧ t.rd CLK_MON_EVENTS.missing_edge = 1 ∧
    t.sec.slots = s.sec.slots ∧ t.tim.fine = s.tim.fine) ∧
  (∀ (s : State) (pll : Fin 4), refWatched s = true → s.boot.dormant = false → Answers (.corePllUnlock pll) s fun t => t.rd DEV_BOOT_STATUS.stage = 4
    ∧ t.rd DEV_MODE.mode = modeBoot ∧ t.rd DEV_RESET_CAUSE.ref_clock_loss = 1 ∧ t.rd CLK_MON_EVENTS.pll_unlock = 1 ∧ t.sec.slots = s.sec.slots ∧
    t.tim.fine = s.tim.fine) ∧
  (∀ (s : State) (pll : Fin 4), refWatched s = true → s.boot.dormant = true → Answers (.corePllUnlock pll) s fun t => t.boot =
    { s.boot with refLostDormant := true } ∧ t.rd CLK_MON_EVENTS.pll_unlock = 1 ∧ t.rd CLK_MON_EVENTS.failed_source = s.rd CLK_REF_STATUS.current %
    32 ∧ t.mem = s.mem ∧ t.sec = s.sec ∧ t.pins = s.pins ∧ t.now = s.now) ∧
  (∀ (s : State) (c : Fin 32), s.link.up = true → blockAnswers s 0x40008 = true → s.rd DEV_MODE.mode = modeAssembly ∨ s.rd DEV_MODE.mode =
    modeService → s.rdb CLK_REF_STATUS.switching = false → c.val ≤ 24 → candReady s c = true → c.val ≠ s.rd CLK_REF_STATUS.current → Answers
    (.coreReferenceSwitch c 0xC3) s fun t => t.rd CLK_REF_STATUS.current = c.val ∧ t.rd CLK_REF_STATUS.switching = 1 ∧ t =
    { s with regs := t.regs, fh := t.fh }) ∧
  (∀ (s : State) (c : Fin 32) (confirm : Byte), s.link.up = true → blockAnswers s 0x40008 = true → s.rd DEV_MODE.mode ≠ modeBoot → s.rd DEV_MODE.mode
    ≠ modeAssembly → s.rd DEV_MODE.mode ≠ modeService → Answers (.coreReferenceSwitch c confirm) s fun t => if confirm = 0xC3 then t.rd
    CLK_REF_CTRL.result = Status.modeForbids.code ∧ t.rd CLK_REF_CTRL.done = 1 ∧ OnlyRegs (keys [CLK_REF_CTRL.result, CLK_REF_CTRL.done]) s t else t
    = s) ∧
  (∀ (s : State), s.rdb CLK_REF_STATUS.switching = true → Answers (.coreRefSwitchEnd) s fun t => t.rd CLK_REF_STATUS.switching = 0 ∧ t.rd
    CLK_REF_CTRL.result = Status.success.code ∧ t.rd CLK_REF_CTRL.done = 1 ∧ OnlyRegs (keys [CLK_REF_STATUS.switching, CLK_REF_CTRL.result,
    CLK_REF_CTRL.done]) s t)

/-- USER_PLL_ENABLE stores the fields and enables a PLL that meets the limits, and otherwise sets cfg_error; USER_PLL_DISABLE stops one that no
  channel uses; a lock shows, and a failed input clears it and is recorded. GLOBAL_CHANNEL_SELECT stores its source. WICKET_TRIM moves the trim
  by one code towards the reference, and a check more than 10 % off puts the oscillator on its backup. (17_clocks.md) -/
def Obligations.UserPllsAndOscillator : Prop :=
  (∀ (s : State) (k : Fin 8) (v : Word), s.link.up = true → s.rd DEV_MODE.mode ≠ modeBoot → blockAnswers s (CLK_UPLL_CFG.enable.offset k 0) = true →
    s.rdb CLK_UPLL_CFG.enable k = false → Answers (.userPllEnable k v) s fun t => t.rd CLK_UPLL_CFG.m k = bits v.toNat 0 7 ∧ t.rd CLK_UPLL_CFG.n k =
    bits v.toNat 7 10 ∧ t.rd CLK_UPLL_CFG.o k = bits v.toNat 17 8 ∧ t.rd CLK_UPLL_CFG.input k = bits v.toNat 25 5 ∧ (if upllOk t k then t.rd
    CLK_UPLL_CFG.enable k = 1 else t.rd CLK_UPLL_STATUS.cfg_error k = 1 ∧ t.rd CLK_UPLL_CFG.enable k = s.rd CLK_UPLL_CFG.enable k) ∧ OnlyRegs (keys
    [CLK_UPLL_CFG.m, CLK_UPLL_CFG.n, CLK_UPLL_CFG.o, CLK_UPLL_CFG.input, CLK_UPLL_CFG.enable, CLK_UPLL_STATUS.cfg_error] k ++ keys
    [PIN_STATUS.clkout_refused]) s t) ∧
  (∀ (s : State) (k : Fin 8) (v : Word), s.link.up = true → s.rd DEV_MODE.mode ≠ modeBoot → blockAnswers s (CLK_UPLL_CFG.enable.offset k 0) = true →
    s.rdb CLK_UPLL_CFG.enable k = true → upllChanges s k v.toNat = false → ((List.range 32).any (fun c => s.rd CLK_GCH_SEL.source c == 8 + k)) =
    false → Answers (.userPllDisable k v) s fun t => t.rd CLK_UPLL_CFG.enable k = 0 ∧ t.rd CLK_UPLL_STATUS.locked k = 0 ∧ OnlyRegs (keys
    [CLK_UPLL_CFG.enable, CLK_UPLL_STATUS.locked] k) s t) ∧
  (∀ (s : State) (k : Fin 8), s.rdb CLK_UPLL_CFG.enable k = true → upllHasInput s k = true → Answers (.userPllLock k) s fun t => t.rd
    CLK_UPLL_STATUS.locked k = 1 ∧ SameRegs (CLK_UPLL_STATUS.locked.key k 0 :: keys [PIN_STATUS.clkout_refused]) s t ∧ t =
    { s with regs := t.regs, free := s.free + 1, ctxs := { s.ctxs with pllPhase := sparseSet 0 s.ctxs.pllPhase k (s.fresh 64).1.toNat } }) ∧
  (∀ (s : State) (k : Fin 8), s.rdb CLK_UPLL_CFG.enable k = true → Answers (.userPllInputFail k) s fun t => t.rd CLK_UPLL_STATUS.locked k = 0 ∧ t.rd
    CLK_UPLL_STATUS.unlock_seen k = 1 ∧ t.rd CLK_MON_EVENTS.upll_unlock = 1 ∧ (t.safe.log.getLast?.map (fun e => e.kind)) = some .clockFailure ∧
    SameRegs (keys [CLK_UPLL_STATUS.locked, CLK_UPLL_STATUS.unlock_seen] k ++ keys [CLK_MON_EVENTS.upll_unlock] ++ logKeys) s t ∧ t =
    { s with regs := t.regs, safe := t.safe, link := t.link, outbox := t.outbox }) ∧
  (∀ (s : State) (c : Fin 32) (src : Fin 16), s.link.up = true → s.rd DEV_MODE.mode ≠ modeBoot → blockAnswers s (CLK_GCH_SEL.source.offset c 0) =
    true → Answers (.globalChannelSelect c src) s fun t => t.rd CLK_GCH_SEL.source c = src.val ∧ (s.rd CLK_GCH_SEL.source c = src.val → t.ctxs =
    s.ctxs) ∧ t = { s with regs := t.regs, ctxs := { s.ctxs with chanFrom := t.ctxs.chanFrom } } ∧ SameRegs (keys [CLK_GCH_SEL.source] c) s t) ∧
  (∀ (s : State) (codes : Int), trimSource s ≠ 0 → s.boot.porHeld = false → s.rdb CLK_WKT_TRIM.on_backup = false → codes ≠ 0 → -29 ≤ toSigned 8 (s.rd
    CLK_WKT_TRIM.trim) ∧ toSigned 8 (s.rd CLK_WKT_TRIM.trim) ≤ 29 → Answers (.wicketTrim codes) s fun t => toSigned 8 (t.rd CLK_WKT_TRIM.trim) =
    toSigned 8 (s.rd CLK_WKT_TRIM.trim) + (if 0 < codes then 1 else -1) ∧ t.rd CLK_WKT_TRIM.trim_source = trimSource s ∧ OnlyRegs (keys
    [CLK_WKT_TRIM.trim, CLK_WKT_TRIM.trim_source]) s t) ∧
  (∀ (s : State) (permille : Nat), 100 < permille → s.rdb CLK_WKT_TRIM.on_backup = false → s.boot.porHeld = false → Answers (.oscBackupCheck
    permille) s fun t => t.rd CLK_WKT_TRIM.on_backup = 1 ∧ t.rd CLK_MON_EVENTS.wicket_osc_fail = 1 ∧ (t.safe.log.getLast?.map (fun e => e.kind)) =
    some .oscBackup ∧ SameRegs (keys [CLK_WKT_TRIM.on_backup, CLK_MON_EVENTS.wicket_osc_fail] ++ logKeys) s t ∧ t =
    { s with regs := t.regs, safe := t.safe, link := t.link, outbox := t.outbox })

/-- A staging that completes gives the staged latches its plane's frames, READY, no earlier than 54,000 hc after its start; for MODE_SET RUN the
  swap follows and the mode is RUN. A due immediate swap that is ready makes the staged content active on a grid edge, at least 60,000 hc after
  the last swap, and every tile sees it; a swap that is not ready waits. A due schedule entry that is ready swaps on its edge, one that is not
  is skipped by its policy and counted. A LATE swap completes SWAP_LATE, or is skipped at its limit. Flip-flops are carried by every swap.
  (04_contexts.md) -/
def Obligations.SwapsExchangeLatches : Prop :=
  (∀ (swap : SwapData) (s : State) (g : Staging) (id : Nat), s.ctxs.staging = some g → g.owner = .command id → underWay s id = true → dieOpen s 2 =
    true → dieOpen s 3 = true → g.oldPlane = false → planeLost s g.ctx = false → repairNeeded s g = false → s.ctxs.wb = none → s.stack.poisoned = []
    → Answers (.stagingComplete swap) s fun t => t.ctxs.staged = planeFrames s g.ctx ∧ t.ctxs.staging = none ∧ t.ctxs.active = s.ctxs.active ∧ t.rd
    CFG_LATCH_STATUS.staged_state = stReady ∧ t.rd CFG_LATCH_STATUS.staged_ctx = g.ctx % 8 ∧ t.rd CFG_LATCH_STATUS.frames_staged = 14272 ∧ g.start +
    54000 * hcTicks s ≤ t.now ∧ ended t id .success = true ∧ t.ctxs.planes = s.ctxs.planes ∧ (∀ i : Nat, i < 1024 → tileOf t i =
    { tileOf s i with oldRanges := (tileOf t i).oldRanges }) ∧ t =
    { s with now := t.now, regs := t.regs, safe := t.safe, districts := t.districts, ctxs := t.ctxs, imgs := { s.imgs with ctx := t.imgs.ctx }, tiles := t.tiles, link := t.link, tim := t.tim, outbox := t.outbox })
    ∧
  (∀ (swap : SwapData) (s : State) (g : Staging) (id : Nat) (tr : Transition), s.ctxs.staging = some g → g.owner = .mode id → g.oldPlane = false →
    s.boot.transition = some tr → dieOpen s 2 = true → dieOpen s 3 = true → planeLost s g.ctx = false → repairNeeded s g = false → s.ctxs.wb = none →
    s.stack.poisoned = [] → baseFenced s = false → Answers (.stagingComplete swap) s fun t => t.rd DEV_MODE.mode = modeRun ∧ t.ctxs.active =
    planeFrames s g.ctx ∧ t.rd CFG_LATCH_STATUS.active_ctx = g.ctx % 8 ∧ t.rd CFG_LATCH_STATUS.active_valid = 1 ∧ t.ctxs.lastSwap = some t.now ∧
    t.boot.transition = none ∧ (swap.ffs = [] → t.ctxs.ffs = s.ctxs.ffs) ∧ t.sec = s.sec ∧ t.mem = s.mem ∧ t.dram = s.dram) ∧
  (∀ (s : State) (swap : SwapData) (a : ArmedSwap), s.ctxs.armed = some a → a.waiting = false → a.immediate = true → swapReady s a.ctx = true →
    underWay s a.id = true → Answers (.commandSwapDue swap) s fun t => t.ctxs.active = s.ctxs.staged ∧ (swap.ffs = [] → t.ctxs.ffs = s.ctxs.ffs) ∧
    (swap.dirty = [] → t.ctxs.staged = s.ctxs.active) ∧ t.rd CFG_LATCH_STATUS.active_ctx = s.rd CFG_LATCH_STATUS.staged_ctx % 8 ∧ t.rd
    CFG_LATCH_STATUS.active_valid = 1 ∧ t.ctxs.armed = none ∧ t.ctxs.lastSwap = some t.now ∧ t.now % (12 * hcTicks s) = 0 ∧ s.now ≤ t.now ∧ (∀ l ∈
    s.ctxs.lastSwap, l + 60000 * hcTicks s ≤ t.now) ∧ (∀ i : Nat, i < 1024 → (tileOf t i).swapPending = true) ∧ ended t a.id .success = true ∧ t =
    { s with now := t.now, regs := t.regs, boot := { s.boot with recoverD2 := false }, ctxs := t.ctxs, tiles := t.tiles, noc := { s.noc with bound := t.noc.bound }, link := t.link, imgs := t.imgs, integ := t.integ, fh := { s.fh with bound := t.fh.bound }, tim := t.tim, pins := { s.pins with bound := t.pins.bound } })
    ∧
  (∀ (s : State) (swap : SwapData) (a : ArmedSwap), s.ctxs.armed = some a → a.waiting = false → a.skip = false → swapReady s a.ctx = false → Answers
    (.commandSwapDue swap) s fun t => t.ctxs = { s.ctxs with armed := some { a with waiting := true } } ∧ OnlyRegs []
    { s with now := t.now, ctxs := t.ctxs, tim := t.tim } t) ∧
  (∀ (s : State) (swap : SwapData) (i : Nat) (e : SchedEntry) (due : Nat), nextDue s = some (i, e, due) → armedOrigin s = none → s.ctxs.late = none →
    activeCtx s ≠ some e.ctx → swapReady s e.ctx = true → swapEdge (advanceToCounter s (due * 65536)) (advanceToCounter s (due * 65536)).now =
    gridEdge s (advanceToCounter s (due * 65536)).now → Answers (.scheduleEntryDue swap) s fun t => t.ctxs.active = s.ctxs.staged ∧ (swap.ffs = [] →
    t.ctxs.ffs = s.ctxs.ffs) ∧ t.rd CFG_LATCH_STATUS.active_ctx = s.rd CFG_LATCH_STATUS.staged_ctx % 8 ∧ t.ctxs.lastSwap = some t.now ∧ t.now =
    gridEdge s (advanceToCounter s (due * 65536)).now ∧ t.now % (12 * hcTicks s) = 0 ∧ t.ctxs.planes = s.ctxs.planes ∧ t.mem = s.mem ∧ t.sec = s.sec
    ∧ t.dram = s.dram) ∧
  (∀ (s : State) (swap : SwapData) (i : Nat) (e : SchedEntry) (due : Nat), nextDue s = some (i, e, due) → armedOrigin s = none → s.ctxs.late = none →
    activeCtx s ≠ some e.ctx → swapReady s e.ctx = false → e.skip = true → Answers (.scheduleEntryDue swap) s fun t => t.ctxs.active = s.ctxs.active
    ∧ t.ctxs.lastSwap = s.ctxs.lastSwap ∧ t.now = (advanceToCounter s (due * 65536)).now ∧ t.rd CFG_SWAP_COUNTS.skipped = satAdd 16 (s.rd
    CFG_SWAP_COUNTS.skipped) 1 % 2 ^ 16 ∧ t.ctxs.planes = s.ctxs.planes ∧ t.tiles = s.tiles ∧ t.mem = s.mem ∧ t.sec = s.sec) ∧
  (∀ (s : State) (swap : SwapData) (a : ArmedSwap), s.ctxs.armed = some a → a.waiting = true → a.immediate = false → a.limitUs = 0 → swapReady s
    a.ctx = true → underWay s a.id = true → Answers (.lateSwapReady swap) s fun t => t.ctxs.active = s.ctxs.staged ∧ (swap.ffs = [] → t.ctxs.ffs =
    s.ctxs.ffs) ∧ t.ctxs.armed = none ∧ t.ctxs.lastSwap = some t.now ∧ t.now % (12 * hcTicks s) = 0 ∧ ended t a.id .swapLate = true ∧ t.ctxs.planes =
    s.ctxs.planes ∧ t.mem = s.mem ∧ t.sec = s.sec) ∧
  (∀ (s : State) (a : ArmedSwap), s.ctxs.armed = some a → a.waiting = true → a.immediate = false → a.limitUs ≠ 0 → (∀ c ∈ commandLimit s, ∀ d ∈
    scheduleLimit s, c ≤ d) → underWay s a.id = true → Answers (.lateLimitExpiry) s fun t => t.ctxs = { s.ctxs with armed := none } ∧ ended t a.id
    .swapSkipped = true ∧ t.now = (advanceToCounter s (a.target + a.limitUs * 1000 * 65536)).now ∧ OnlyTrack a.id
    { s with now := t.now, regs := t.regs, ctxs := t.ctxs, tim := t.tim } t ∧ SameRegs (keys [CFG_LATCH_STATUS.swap_armed]) s t)

/-- A staging not complete after 2 ms is abandoned with an entry and its command ends INTERNAL_FAULT; MODE_SET RUN whose staging takes longer than 1
  ms ends SWAP_SKIPPED with the mode kept. An armed bank takes over at its origin and starts with entry 0. A write-back slot puts a dirty frame
  and its new signature into the outgoing context's plane, 200 hc a slot, and leaves every other frame alone. (04_contexts.md,
  15_command_set.md, 02_modes_and_start_up.md) -/
def Obligations.StagingTimeoutsTakeoverWriteBack : Prop :=
  (∀ (s : State) (g : Staging) (id : Nat), s.ctxs.staging = some g → g.owner = .command id → underWay s id = true → Answers (.stagingTimeout) s fun t
    => t.ctxs.staging = none ∧ t.ctxs.staged = [] ∧ t.rd CFG_LATCH_STATUS.staged_state = stEmpty ∧ ended t id .internalFault = true ∧ t.now = max
    s.now (g.start + 2 * msTicks) ∧ t.ctxs.active = s.ctxs.active ∧ t.ctxs.planes = s.ctxs.planes ∧ (t.safe.log.getLast?.map (fun e => e.kind)) =
    some .stagingAbandoned ∧ t =
    { s with now := t.now, regs := t.regs, safe := t.safe, ctxs := t.ctxs, imgs := { s.imgs with ctx := t.imgs.ctx }, tiles := t.tiles, link := t.link, integ := t.integ, tim := t.tim, outbox := t.outbox }
    ∧ (∀ i : Nat, i < 1024 → tileOf t i = { tileOf s i with oldRanges := (tileOf t i).oldRanges })) ∧
  (∀ (s : State) (g : Staging) (id : Nat) (tr : Transition), s.boot.transition = some tr → s.ctxs.staging = some g → g.owner = .mode id → underWay s
    id = true → Answers (.runStagingTimeout) s fun t => t.boot = { s.boot with transition := none } ∧ t.rd DEV_MODE.transition_busy = 0 ∧ t.rd
    DEV_MODE.mode = s.rd DEV_MODE.mode ∧ t.ctxs.staging = none ∧ t.ctxs.staged = [] ∧ ended t id .swapSkipped = true ∧ t.now = max s.now (tr.since +
    msTicks) ∧ t.ctxs.active = s.ctxs.active ∧ t =
    { s with now := t.now, regs := t.regs, boot := t.boot, ctxs := t.ctxs, imgs := { s.imgs with ctx := t.imgs.ctx }, tiles := t.tiles, link := t.link, integ := t.integ, tim := t.tim }
    ∧ (∀ i : Nat, i < 1024 → tileOf t i = { tileOf s i with oldRanges := (tileOf t i).oldRanges })) ∧
  (∀ (s : State) (o : Nat) (k : Bank), armedOrigin s = some o → nextDue s = none → bankOf s (idleBank s) = some k → k.entries ≠ [] → Answers
    (.scheduleBankTakeover) s fun t => t.rd CFG_SCHED_STATUS.running_bank = idleBank s ∧ t.rd CFG_SCHED_STATUS.bank_armed = 0 ∧ t.rd
    CFG_SCHED_STATUS.running = 1 ∧ t.rd CFG_SCHED_STATUS.next_entry = 0 ∧ t.ctxs.originNs = o ∧ t.now = (advanceToCounter s (o * 65536)).now ∧
    t.ctxs.active = s.ctxs.active ∧ t.ctxs.planes = s.ctxs.planes ∧ (∀ i : Nat, i < 1024 → tileOf t i =
    { tileOf s i with oldRanges := (tileOf t i).oldRanges }) ∧ t =
    { s with now := t.now, regs := t.regs, ctxs := t.ctxs, imgs := { s.imgs with ctx := t.imgs.ctx }, tiles := t.tiles, link := t.link, integ := t.integ, tim := t.tim, outbox := t.outbox })
    ∧
  (∀ (s : State) (w : WriteBack) (f : Nat) (d : Frame), s.ctxs.wb = some w → w.left = [(f, d)] → isLutFrame f = true → dieOpen s 2 = true → dieOpen s
    3 = true → Answers (.writeBackFrame) s fun t => t.ctxs.wb = none ∧ planeFrame t w.ctx f = d ∧ sparseFind t.ctxs.sigs (planeKey w.ctx f) = some
    (frameSig w.ctx f d) ∧ t.now = max s.now (w.edge + 200 * (w.slot + 1) * hcTicks s) ∧ t.ctxs.planes.filter (fun p => p.1 != planeKey w.ctx f) =
    s.ctxs.planes.filter (fun p => p.1 != planeKey w.ctx f) ∧ t.ctxs.active = s.ctxs.active ∧ t.ctxs.staged = s.ctxs.staged ∧ t =
    { s with now := t.now, regs := t.regs, ctxs := t.ctxs, tim := t.tim })

/-- An issued MAC, MACJ, MSB, MUL or MULJ writes each part of accumulator d with the saturated sum, difference or product of a and the element of b
  (conjugated for MACJ and MULJ); PACK writes V d with the accumulator shifted, rounded half up and saturated; ACLR clears it; ALOAD loads it,
  shifted. TST.sat is set when a part saturates. The slots act with it, and nothing else of the device changes. (05_dsp_tiles.md,
  06_dsp_instruction_set.md) -/
def Obligations.MacGroupWritesItsAccumulator : Prop :=
  (∀ (s : State) (tile : Fin 1024), Issues s tile .mac → Answers (.mac tile clean) s fun t => ArithOp s t tile .mac ∧ AccResult s t tile (fun p =>
    accWas s tile p + prod s tile false p)) ∧
  (∀ (s : State) (tile : Fin 1024), Issues s tile .macj → Answers (.macj tile clean) s fun t => ArithOp s t tile .macj ∧ AccResult s t tile (fun p =>
    accWas s tile p + prod s tile true p)) ∧
  (∀ (s : State) (tile : Fin 1024), Issues s tile .msb → Answers (.msb tile clean) s fun t => ArithOp s t tile .msb ∧ AccResult s t tile (fun p =>
    accWas s tile p - prod s tile false p)) ∧
  (∀ (s : State) (tile : Fin 1024), Issues s tile .mul → Answers (.mul tile clean) s fun t => ArithOp s t tile .mul ∧ AccResult s t tile (fun p =>
    prod s tile false p)) ∧
  (∀ (s : State) (tile : Fin 1024), Issues s tile .mulj → Answers (.mulj tile clean) s fun t => ArithOp s t tile .mulj ∧ AccResult s t tile (fun p =>
    prod s tile true p)) ∧
  (∀ (s : State) (tile : Fin 1024), Issues s tile .pack → Answers (.pack tile clean) s fun t => ArithOp s t tile .pack ∧ VecResult s t tile (fun p =>
    shrRound (accPart (accW (fM8 (wordAt s tile))) (accAt s tile (fA (wordAt s tile))) p) (bits (wordAt s tile) 32 6))) ∧
  (∀ (s : State) (tile : Fin 1024), Issues s tile .aclr → Answers (.aclr tile clean) s fun t => ArithOp s t tile .aclr ∧ accAt t tile (fD (wordAt s
    tile)) = 0 ∧ (tileOf t tile).regs.sat = (tileOf s tile).regs.sat) ∧
  (∀ (s : State) (tile : Fin 1024), Issues s tile .aload → Answers (.aload tile clean) s fun t => ArithOp s t tile .aload ∧ AccResult s t tile (fun p
    => aPart s tile p * 2 ^ bits (wordAt s tile) 32 5))

/-- An issued VADD, VSUB, VADDMJ, VSUBMJ, VCONJ or VSHR writes each part of V d with the saturated result of its lanes, VADDMJ adding -j*b and
  VSUBMJ subtracting it, the rotation saturating by itself; VMOV copies a and VPERM moves its four elements as its selectors say. BEX.NEXT turns
  the headroom below the guard into the preshift and adds it to the exponent total, at most 255; BEX.CLR clears both and the headroom. The slots
  act with it, and nothing else of the device changes. (05_dsp_tiles.md, 06_dsp_instruction_set.md) -/
def Obligations.VectorUnitWritesItsRegister : Prop :=
  (∀ (s : State) (tile : Fin 1024), Issues s tile .vadd → Answers (.vadd tile clean) s fun t => ArithOp s t tile .vadd ∧ VecResult s t tile (fun p =>
    aPart s tile p + if p % 2 = 0 then bRe s tile p else bIm s tile p)) ∧
  (∀ (s : State) (tile : Fin 1024), Issues s tile .vsub → Answers (.vsub tile clean) s fun t => ArithOp s t tile .vsub ∧ VecResult s t tile (fun p =>
    aPart s tile p - if p % 2 = 0 then bRe s tile p else bIm s tile p)) ∧
  (∀ (s : State) (tile : Fin 1024), Issues s tile .vaddmj → Answers (.vaddmj tile clean) s fun t => ArithOp s t tile .vaddmj ∧ VecResult s t tile
    (fun p => if p % 2 = 0 then aPart s tile p + bIm s tile p else aPart s tile p + (turnedIm s tile p).1) (turnSat s tile)) ∧
  (∀ (s : State) (tile : Fin 1024), Issues s tile .vsubmj → Answers (.vsubmj tile clean) s fun t => ArithOp s t tile .vsubmj ∧ VecResult s t tile
    (fun p => if p % 2 = 0 then aPart s tile p - bIm s tile p else aPart s tile p - (turnedIm s tile p).1) (turnSat s tile)) ∧
  (∀ (s : State) (tile : Fin 1024), Issues s tile .vconj → Answers (.vconj tile clean) s fun t => ArithOp s t tile .vconj ∧ VecResult s t tile (fun p
    => if p % 2 = 0 then aPart s tile p else -aPart s tile p)) ∧
  (∀ (s : State) (tile : Fin 1024), Issues s tile .vshr → Answers (.vshr tile clean) s fun t => ArithOp s t tile .vshr ∧ VecResult s t tile (fun p =>
    shrRound (aPart s tile p) (bits (wordAt s tile) 32 4))) ∧
  (∀ (s : State) (tile : Fin 1024), Issues s tile .vmov → Answers (.vmov tile clean) s fun t => ArithOp s t tile .vmov ∧ vAt t tile (fD (wordAt s
    tile)) = vAt s tile (fA (wordAt s tile)) ∧ (tileOf t tile).regs.sat = (tileOf s tile).regs.sat) ∧
  (∀ (s : State) (tile : Fin 1024), Issues s tile .vperm → Answers (.vperm tile clean) s fun t => ArithOp s t tile .vperm ∧ (∀ k : Nat, k < 4 → vElem
    (vAt t tile (fD (wordAt s tile))) k = vElem (vAt s tile (fA (wordAt s tile))) (bits (wordAt s tile) (32 + 2 * k) 2)) ∧ (tileOf t tile).regs.sat =
    (tileOf s tile).regs.sat) ∧
  (∀ (s : State) (tile : Fin 1024), Issues s tile .bexNext → Answers (.bexNext tile clean) s fun t => RegisterOp s t tile .bexNext ∧ GensAct (wordAt
    s tile) (tileOf s tile) (tileOf t tile) ∧ FallsThrough (tileOf s tile) (tileOf t tile) ∧ ((xSlot (wordAt s tile)).kind ≠ 2 → (ySlot (wordAt s
    tile)).kind ≠ 2 → bexPreshift (tileOf t tile).regs = (bexGuard (tileOf s tile).regs - (tileOf s tile).regs.headroom) % 16 ∧ (tileOf t
    tile).regs.expTotal = min 255 ((tileOf s tile).regs.expTotal + (bexGuard (tileOf s tile).regs - (tileOf s tile).regs.headroom)) ∧ (tileOf t
    tile).regs.headroom = 15)) ∧
  (∀ (s : State) (tile : Fin 1024), Issues s tile .bexClr → Answers (.bexClr tile clean) s fun t => RegisterOp s t tile .bexClr ∧ GensAct (wordAt s
    tile) (tileOf s tile) (tileOf t tile) ∧ FallsThrough (tileOf s tile) (tileOf t tile) ∧ bexPreshift (tileOf t tile).regs = 0 ∧ (tileOf t
    tile).regs.expTotal = 0 ∧ (tileOf t tile).regs.headroom = 15 ∧ bexGuard (tileOf t tile).regs = bexGuard (tileOf s tile).regs)

/-- An issued NOP only lets its slots act; a BR whose condition holds (against its negate bit) goes to its target with one bubble and ends the loops
  around which it leaves, another falls through; LOOP sets its counter unless from_reg, enters its body, or skips it with a bubble for a count
  of 0; the last instruction of a body goes back with the counter decremented while it is above 1; WAIT makes the tile IDLE; TIMER arms or
  clears the tile timer. SETR and SETRV write a special register by its rule, GETR reads one into element 0 of V b. (06_dsp_instruction_set.md,
  05_dsp_tiles.md) -/
def Obligations.TileFlowAndSpecialRegisters : Prop :=
  (∀ (s : State) (tile : Fin 1024), Issues s tile .nop → Answers (.thicketNop tile clean) s fun t => ArithOp s t tile .nop ∧ (tileOf t tile).regs.sat
    = (tileOf s tile).regs.sat) ∧
  (∀ (s : State) (tile : Fin 1024) (f : LoopFrame) (rest : List LoopFrame), Issues s tile .nop → (tileOf s tile).loops = f :: rest → f.last = (tileOf
    s tile).pc → f.lc < 2 → 1 < loopCount (tileOf s tile).regs f.lc → Answers (.thicketNop tile clean) s fun t => RegisterOp s t tile .nop ∧ (tileOf
    t tile).pc = f.first ∧ (tileOf t tile).loops = f :: rest ∧ loopCount (tileOf t tile).regs f.lc = loopCount (tileOf s tile).regs f.lc - 1 ∧
    loopCount (tileOf t tile).regs (1 - f.lc) = loopCount (tileOf s tile).regs (1 - f.lc)) ∧
  (∀ (s : State) (tile : Fin 1024), Issues s tile .wait → Answers (.wait tile clean) s fun t => OnlyTile tile s t ∧ SlotsAct (wordAt s tile) (tileOf
    s tile) (tileOf t tile) ∧ DataKept .wait (wordAt s tile) (tileOf s tile) (tileOf t tile) ∧ GensAct (wordAt s tile) (tileOf s tile) (tileOf t
    tile) ∧ (tileOf t tile).state = .idle ∧ (tileOf t tile).inHandler = false ∧ (tileOf t tile).prog = (tileOf s tile).prog ∧ (tileOf t tile).staging
    = (tileOf s tile).staging ∧ (tileOf t tile).ckpt = (tileOf s tile).ckpt ∧ (tileOf t tile).swapPending = (tileOf s tile).swapPending ∧ (tileOf t
    tile).events = (tileOf s tile).events ∧ (tileOf t tile).timer = (tileOf s tile).timer) ∧
  (∀ (s : State) (tile : Fin 1024), Issues s tile .br → Answers (.br tile clean) s fun t => GensAct (wordAt s tile) (tileOf s tile) (tileOf t tile) ∧
    ((xSlot (wordAt s tile)).kind ≠ 2 → (ySlot (wordAt s tile)).kind ≠ 2 → ((brCond (tileOf s tile) (fD (wordAt s tile)) ≠ bit (wordAt s tile) 51 →
    (tileOf t tile).pc = bits (wordAt s tile) 32 11 ∧ (tileOf t tile).hc = issueHc s (tileOf s tile) .br (wordAt s tile) + 2 ∧ (tileOf t tile).loops
    = (tileOf s tile).loops.filter (fun f => decide (f.first ≤ bits (wordAt s tile) 32 11 ∧ bits (wordAt s tile) 32 11 ≤ f.last))) ∧ (brCond (tileOf
    s tile) (fD (wordAt s tile)) = bit (wordAt s tile) 51 → RegisterOp s t tile .br ∧ FallsThrough (tileOf s tile) (tileOf t tile)))) ∧ OnlyTile tile
    s t ∧ SlotsAct (wordAt s tile) (tileOf s tile) (tileOf t tile) ∧ DataKept .br (wordAt s tile) (tileOf s tile) (tileOf t tile) ∧ ExpKept (tileOf s
    tile) (tileOf t tile)) ∧
  (∀ (s : State) (tile : Fin 1024), Issues s tile .loop → Answers (.loop tile clean) s fun t => OnlyTile tile s t ∧ SlotsAct (wordAt s tile) (tileOf
    s tile) (tileOf t tile) ∧ DataKept .loop (wordAt s tile) (tileOf s tile) (tileOf t tile) ∧ GensAct (wordAt s tile) (tileOf s tile) (tileOf t
    tile) ∧ (bit (wordAt s tile) 54 = false → bits (wordAt s tile) 38 16 ≠ 0 → loopCount (tileOf t tile).regs (b2n (bit (wordAt s tile) 55)) = bits
    (wordAt s tile) 38 16 ∧ (tileOf t tile).pc = ((tileOf s tile).pc + 1) % 2048 ∧ (tileOf t tile).hc = issueHc s (tileOf s tile) .loop (wordAt s
    tile) + 1 ∧ (tileOf t tile).loops =
    { lc := b2n (bit (wordAt s tile) 55), first := (tileOf s tile).pc + 1, last := (tileOf s tile).pc + (if bits (wordAt s tile) 32 6 = 0 then 64 else bits (wordAt s tile) 32 6) }
    :: (tileOf s tile).loops) ∧ (bit (wordAt s tile) 54 = false → bits (wordAt s tile) 38 16 = 0 → (tileOf t tile).pc = ((tileOf s tile).pc + 1 + (if
    bits (wordAt s tile) 32 6 = 0 then 64 else bits (wordAt s tile) 32 6)) % 2048 ∧ (tileOf t tile).loops = (tileOf s tile).loops ∧ (tileOf t
    tile).hc = issueHc s (tileOf s tile) .loop (wordAt s tile) + 2) ∧ (bit (wordAt s tile) 54 = true → (tileOf t tile).regs.loop0 = (tileOf s
    tile).regs.loop0 ∧ (tileOf t tile).regs.loop1 = (tileOf s tile).regs.loop1)) ∧
  (∀ (s : State) (tile : Fin 1024), Issues s tile .timer → Answers (.timer tile clean) s fun t => OnlyTile tile s t ∧ SlotsAct (wordAt s tile)
    (tileOf s tile) (tileOf t tile) ∧ DataKept .timer (wordAt s tile) (tileOf s tile) (tileOf t tile) ∧ GensAct (wordAt s tile) (tileOf s tile)
    (tileOf t tile) ∧ FallsThrough (tileOf s tile) (tileOf t tile) ∧ (tileOf t tile).timer = (if bits (wordAt s tile) 32 16 = 0 then none else some
    (issueHc s (tileOf s tile) .timer (wordAt s tile) + bits (wordAt s tile) 32 16)) ∧ (tileOf t tile).state = .run ∧ (tileOf t tile).events =
    (tileOf s tile).events ∧ (tileOf t tile).staging = (tileOf s tile).staging) ∧
  (∀ (s : State) (tile : Fin 1024), Issues s tile .setr → Answers (.setr tile clean) s fun t => RegisterOp s t tile .setr ∧ ((xSlot (wordAt s
    tile)).kind = 0 → (ySlot (wordAt s tile)).kind = 0 → (∀ f ∈ (tileOf s tile).loops, f.last ≠ (tileOf s tile).pc) → (tileOf t tile).regs =
    writeSpecial (tileOf s tile).regs (fSel (wordAt s tile)) (fImm16 (wordAt s tile)))) ∧
  (∀ (s : State) (tile : Fin 1024), Issues s tile .setrv → Answers (.setrv tile clean) s fun t => RegisterOp s t tile .setrv ∧ ((xSlot (wordAt s
    tile)).kind = 0 → (ySlot (wordAt s tile)).kind = 0 → (∀ f ∈ (tileOf s tile).loops, f.last ≠ (tileOf s tile).pc) → (tileOf t tile).regs =
    writeSpecial (tileOf s tile).regs (fSel (wordAt s tile)) ((vAt s tile (fB (wordAt s tile))).toNat % 65536))) ∧
  (∀ (s : State) (tile : Fin 1024), Issues s tile .getr → Answers (.getr tile clean) s fun t => ArithOp s t tile .getr ∧ vAt t tile (fB (wordAt s
    tile)) = BitVec.ofNat 128 (readSpecial (tileOf s tile) (fSel (wordAt s tile))))

/-- BLK.BEGIN opens a block: it copies the registers into the checkpoint and takes its slack. BLK.COMMIT closes it: the staged outputs become
  committed, the tentative pops final. SPOP and LPOP deliver the oldest entry of their FIFO, tentatively inside a block. SPUSH, LPUSH, MDWR and
  NWR stage one output inside a block; outside they deliver it: to the fabric, on its 2 hc way to the neighbour, to the group path, or as a NoC
  write of initiator 0x80 + column. MDRD starts a read that is ready 9 hc after issue. (05_dsp_tiles.md, 06_dsp_instruction_set.md) -/
def Obligations.BlocksAndPorts : Prop :=
  (∀ (s : State) (tile : Fin 1024), Issues s tile .blkBegin → Answers (.blkBegin tile clean) s fun t => OnlyTile tile s t ∧ SlotsAct (wordAt s tile)
    (tileOf s tile) (tileOf t tile) ∧ GensAct (wordAt s tile) (tileOf s tile) (tileOf t tile) ∧ ExpKept (tileOf s tile) (tileOf t tile) ∧
    FallsThrough (tileOf s tile) (tileOf t tile) ∧ DataKept .blkBegin (wordAt s tile) (tileOf s tile) (tileOf t tile) ∧ (tileOf t tile).ckpt =
    (tileOf s tile).regs ∧ (tileOf t tile).inBlock = true ∧ (tileOf t tile).blockPc = (tileOf s tile).pc ∧ (tileOf t tile).blockHc = issueHc s
    (tileOf s tile) .blkBegin (wordAt s tile) ∧ (tileOf t tile).slack = bits (wordAt s tile) 32 16 ∧ (tileOf t tile).blockOuts = 0 ∧ (tileOf t
    tile).staging = (tileOf s tile).staging ∧ (tileOf t tile).streamIn0 = (tileOf s tile).streamIn0 ∧ (tileOf t tile).state = .run) ∧
  (∀ (s : State) (tile : Fin 1024), Issues s tile .blkCommit → Answers (.blkCommit tile clean) s fun t => OnlyTile tile s t ∧ SlotsAct (wordAt s
    tile) (tileOf s tile) (tileOf t tile) ∧ GensAct (wordAt s tile) (tileOf s tile) (tileOf t tile) ∧ ExpKept (tileOf s tile) (tileOf t tile) ∧
    FallsThrough (tileOf s tile) (tileOf t tile) ∧ DataKept .blkCommit (wordAt s tile) (tileOf s tile) (tileOf t tile) ∧ (tileOf t tile).inBlock =
    false ∧ (tileOf t tile).blockOuts = 0 ∧ (tileOf t tile).staging = (tileOf s tile).staging ∧ (tileOf t tile).attempts = 0 ∧ (tileOf t
    tile).streamIn0.q = (tileOf s tile).streamIn0.q.drop (tileOf s tile).streamIn0.popped ∧ (tileOf t tile).linkUp.q = (tileOf s tile).linkUp.q.drop
    (tileOf s tile).linkUp.popped ∧ (tileOf t tile).streamIn1.popped = 0 ∧ (tileOf t tile).linkDown.popped = 0) ∧
  (∀ (s : State) (tile : Fin 1024), Issues s tile .spop → (tileOf s tile).inBlock = false → Answers (.spop tile clean) s fun t => OnlyTile tile s t ∧
    SlotsAct (wordAt s tile) (tileOf s tile) (tileOf t tile) ∧ GensAct (wordAt s tile) (tileOf s tile) (tileOf t tile) ∧ ExpKept (tileOf s tile)
    (tileOf t tile) ∧ FallsThrough (tileOf s tile) (tileOf t tile) ∧ DataKept .spop (wordAt s tile) (tileOf s tile) (tileOf t tile) ∧ vAt t tile (fD
    (wordAt s tile)) = ((tileOf s tile).fifo (b2n (fBc (wordAt s tile)))).q.getD ((tileOf s tile).fifo (b2n (fBc (wordAt s tile)))).popped 0 ∧
    ((tileOf t tile).fifo (b2n (fBc (wordAt s tile)))).q = ((tileOf s tile).fifo (b2n (fBc (wordAt s tile)))).q.drop 1 ∧ (tileOf t tile).fifo (1 -
    b2n (fBc (wordAt s tile))) = (tileOf s tile).fifo (1 - b2n (fBc (wordAt s tile))) ∧ (tileOf t tile).linkUp = (tileOf s tile).linkUp ∧ (tileOf t
    tile).linkDown = (tileOf s tile).linkDown ∧ (tileOf t tile).staging = (tileOf s tile).staging) ∧
  (∀ (s : State) (tile : Fin 1024), Issues s tile .spop → (tileOf s tile).inBlock = true → Answers (.spop tile clean) s fun t => OnlyTile tile s t ∧
    SlotsAct (wordAt s tile) (tileOf s tile) (tileOf t tile) ∧ GensAct (wordAt s tile) (tileOf s tile) (tileOf t tile) ∧ ExpKept (tileOf s tile)
    (tileOf t tile) ∧ FallsThrough (tileOf s tile) (tileOf t tile) ∧ vAt t tile (fD (wordAt s tile)) = ((tileOf s tile).fifo (b2n (fBc (wordAt s
    tile)))).q.getD ((tileOf s tile).fifo (b2n (fBc (wordAt s tile)))).popped 0 ∧ (tileOf t tile).fifo (b2n (fBc (wordAt s tile))) =
    { (tileOf s tile).fifo (b2n (fBc (wordAt s tile))) with popped := ((tileOf s tile).fifo (b2n (fBc (wordAt s tile)))).popped + 1 } ∧ (tileOf t
    tile).ckpt = (tileOf s tile).ckpt) ∧
  (∀ (s : State) (tile : Fin 1024), Issues s tile .lpop → (tileOf s tile).inBlock = false → Answers (.lpop tile clean) s fun t => OnlyTile tile s t ∧
    SlotsAct (wordAt s tile) (tileOf s tile) (tileOf t tile) ∧ GensAct (wordAt s tile) (tileOf s tile) (tileOf t tile) ∧ ExpKept (tileOf s tile)
    (tileOf t tile) ∧ FallsThrough (tileOf s tile) (tileOf t tile) ∧ DataKept .lpop (wordAt s tile) (tileOf s tile) (tileOf t tile) ∧ vAt t tile (fD
    (wordAt s tile)) = ((tileOf s tile).fifo (2 + b2n (fBc (wordAt s tile)))).q.getD ((tileOf s tile).fifo (2 + b2n (fBc (wordAt s tile)))).popped 0
    ∧ ((tileOf t tile).fifo (2 + b2n (fBc (wordAt s tile)))).q = ((tileOf s tile).fifo (2 + b2n (fBc (wordAt s tile)))).q.drop 1 ∧ (tileOf t
    tile).streamIn0 = (tileOf s tile).streamIn0 ∧ (tileOf t tile).streamIn1 = (tileOf s tile).streamIn1 ∧ (tileOf t tile).fifo (3 - b2n (fBc (wordAt
    s tile))) = (tileOf s tile).fifo (3 - b2n (fBc (wordAt s tile)))) ∧
  (∀ (s : State) (tile : Fin 1024), Issues s tile .lpop → (tileOf s tile).inBlock = true → Answers (.lpop tile clean) s fun t => OnlyTile tile s t ∧
    SlotsAct (wordAt s tile) (tileOf s tile) (tileOf t tile) ∧ GensAct (wordAt s tile) (tileOf s tile) (tileOf t tile) ∧ ExpKept (tileOf s tile)
    (tileOf t tile) ∧ FallsThrough (tileOf s tile) (tileOf t tile) ∧ vAt t tile (fD (wordAt s tile)) = ((tileOf s tile).fifo (2 + b2n (fBc (wordAt s
    tile)))).q.getD ((tileOf s tile).fifo (2 + b2n (fBc (wordAt s tile)))).popped 0 ∧ (tileOf t tile).fifo (2 + b2n (fBc (wordAt s tile))) =
    { (tileOf s tile).fifo (2 + b2n (fBc (wordAt s tile))) with popped := ((tileOf s tile).fifo (2 + b2n (fBc (wordAt s tile)))).popped + 1 }) ∧
  (∀ (s : State) (tile : Fin 1024), Issues s tile .spush → (tileOf s tile).inBlock = false → Answers (.spush tile clean) s fun t => t =
    { s with tiles := t.tiles, free := t.free, outbox := t.outbox, ctxs := { s.ctxs with ports := { s.ctxs.ports with outs := t.ctxs.ports.outs } } }
    ∧ (∀ n : Nat, n < 1024 → n ≠ tile → tileOf t n = tileOf s n) ∧ SlotsAct (wordAt s tile) (tileOf s tile) (tileOf t tile) ∧ GensAct (wordAt s tile)
    (tileOf s tile) (tileOf t tile) ∧ ExpKept (tileOf s tile) (tileOf t tile) ∧ FallsThrough (tileOf s tile) (tileOf t tile) ∧ t.outbox = s.outbox ++
    [.tileStream tile (b2n (fBc (wordAt s tile))) (streamTakes s tile (b2n (fBc (wordAt s tile))) (issueHc s (tileOf s tile) .spush (wordAt s tile)))
    (vAt s tile (fA (wordAt s tile)))] ∧ (∀ k : Nat, k < 4096 → sparseGet [] t.ctxs.ports.outs k = if k = 4 * (tile : Nat) + 2 + (b2n (fBc (wordAt s
    tile))) then streamHeld s k ((issueHc s (tileOf s tile) .spush (wordAt s tile)) * hcTicks s) ++ [streamTakes s tile (b2n (fBc (wordAt s tile)))
    (issueHc s (tileOf s tile) .spush (wordAt s tile))] else sparseGet [] s.ctxs.ports.outs k) ∧ (tileOf t tile).staging = (tileOf s tile).staging) ∧
  (∀ (s : State) (tile : Fin 1024), Issues s tile .spush → (tileOf s tile).inBlock = true → Answers (.spush tile clean) s fun t => OnlyTile tile s t
    ∧ SlotsAct (wordAt s tile) (tileOf s tile) (tileOf t tile) ∧ GensAct (wordAt s tile) (tileOf s tile) (tileOf t tile) ∧ ExpKept (tileOf s tile)
    (tileOf t tile) ∧ FallsThrough (tileOf s tile) (tileOf t tile) ∧ Staged s t tile (.streamOut (b2n (fBc (wordAt s tile)))) (vAt s tile (fA (wordAt
    s tile)))) ∧
  (∀ (s : State) (tile : Fin 1024), Issues s tile .lpush → (tileOf s tile).inBlock = false → Answers (.lpush tile clean) s fun t => t =
    { s with tiles := t.tiles, free := t.free } ∧ (∀ n : Nat, n < 1024 → n ≠ tile → n ≠ neighbour tile (fBc (wordAt s tile)) → tileOf t n = tileOf s
    n) ∧ SlotsAct (wordAt s tile) (tileOf s tile) (tileOf t tile) ∧ GensAct (wordAt s tile) (tileOf s tile) (tileOf t tile) ∧ ExpKept (tileOf s tile)
    (tileOf t tile) ∧ FallsThrough (tileOf s tile) (tileOf t tile) ∧ tileOf t (neighbour tile (fBc (wordAt s tile))) =
    { tileOf s (neighbour tile (fBc (wordAt s tile))) with arriving := (tileOf s (neighbour tile (fBc (wordAt s tile)))).arriving ++ [(!fBc (wordAt s tile), vAt s tile (fA (wordAt s tile)), issueHc s (tileOf s tile) .lpush (wordAt s tile) + 2)] })
    ∧
  (∀ (s : State) (tile : Fin 1024), Issues s tile .lpush → (tileOf s tile).inBlock = true → Answers (.lpush tile clean) s fun t => OnlyTile tile s t
    ∧ SlotsAct (wordAt s tile) (tileOf s tile) (tileOf t tile) ∧ GensAct (wordAt s tile) (tileOf s tile) (tileOf t tile) ∧ ExpKept (tileOf s tile)
    (tileOf t tile) ∧ FallsThrough (tileOf s tile) (tileOf t tile) ∧ Staged s t tile (.linkOut (fBc (wordAt s tile))) (vAt s tile (fA (wordAt s
    tile)))) ∧
  (∀ (s : State) (tile : Fin 1024), Issues s tile .mdrd → Answers (.mdrd tile clean) s fun t => OnlyTile tile s t ∧ SlotsAct (wordAt s tile) (tileOf
    s tile) (tileOf t tile) ∧ GensAct (wordAt s tile) (tileOf s tile) (tileOf t tile) ∧ ExpKept (tileOf s tile) (tileOf t tile) ∧ FallsThrough
    (tileOf s tile) (tileOf t tile) ∧ (tileOf t tile).reads = (tileOf s tile).reads ++
    [{ v := fD (wordAt s tile), addr := tile / 64 * 256 * 0x8000 + (vElem (vAt s tile (fA (wordAt s tile))) 0).toNat, ready := issueHc s (tileOf s tile) .mdrd (wordAt s tile) + 9, data := none }]
    ∧ (tileOf t tile).staging = (tileOf s tile).staging ∧ (∀ n : Nat, n < 16 → (((wordAt s tile) / 2 ^ 30) % 4 ≠ 1 ∧ ((wordAt s tile) / 2 ^ 14) % 4 ≠
    1) → vAt t tile n = vAt s tile n)) ∧
  (∀ (s : State) (tile : Fin 1024), Issues s tile .mdwr → (tileOf s tile).inBlock = false → Answers (.mdwr tile clean) s fun t => t =
    { s with tiles := t.tiles, free := t.free, mem := t.mem } ∧ (∀ n : Nat, n < 1024 → n ≠ tile → tileOf t n = tileOf s n) ∧ SlotsAct (wordAt s tile)
    (tileOf s tile) (tileOf t tile) ∧ GensAct (wordAt s tile) (tileOf s tile) (tileOf t tile) ∧ ExpKept (tileOf s tile) (tileOf t tile) ∧
    FallsThrough (tileOf s tile) (tileOf t tile) ∧ t.mem =
    { s.mem with pathWrites := s.mem.pathWrites ++ [{ tile := tile, addr := tile / 64 * 256 * 0x8000 + (vElem (vAt s tile (fA (wordAt s tile))) 0).toNat, data := vAt s tile (fB (wordAt s tile)), hc := issueHc s (tileOf s tile) .mdwr (wordAt s tile) }] })
    ∧
  (∀ (s : State) (tile : Fin 1024), Issues s tile .mdwr → (tileOf s tile).inBlock = true → Answers (.mdwr tile clean) s fun t => OnlyTile tile s t ∧
    SlotsAct (wordAt s tile) (tileOf s tile) (tileOf t tile) ∧ GensAct (wordAt s tile) (tileOf s tile) (tileOf t tile) ∧ ExpKept (tileOf s tile)
    (tileOf t tile) ∧ FallsThrough (tileOf s tile) (tileOf t tile) ∧ Staged s t tile (.memWrite (tile / 64 * 256 * 0x8000 + (vElem (vAt s tile (fA
    (wordAt s tile))) 0).toNat)) (vAt s tile (fB (wordAt s tile)))) ∧
  (∀ (s : State) (tile : Fin 1024), Issues s tile .nwr → (tileOf s tile).inBlock = false → Answers (.nwr tile clean) s fun t => t =
    { s with tiles := t.tiles, free := t.free, noc := t.noc } ∧ (∀ n : Nat, n < 1024 → n ≠ tile → tileOf t n = tileOf s n) ∧ SlotsAct (wordAt s tile)
    (tileOf s tile) (tileOf t tile) ∧ GensAct (wordAt s tile) (tileOf s tile) (tileOf t tile) ∧ ExpKept (tileOf s tile) (tileOf t tile) ∧
    FallsThrough (tileOf s tile) (tileOf t tile) ∧ t.noc = { s.noc with waiting := t.noc.waiting } ∧ t.noc.waiting.dropLast = s.noc.waiting ∧
    t.noc.waiting.length = s.noc.waiting.length + 1 ∧ (∀ r ∈ t.noc.waiting.getLast?, r.init = 0x80 + (tile : Nat) / 64 ∧ r.owner = .tile tile ∧
    r.write = true ∧ r.len = 1 ∧ r.pa = ((vElem (vAt s tile (fA (wordAt s tile))) 1).toNat % 2 ^ 24 * 2 ^ 32 + (vElem (vAt s tile (fA (wordAt s
    tile))) 0).toNat) / 64 * 64 ∧ r.data = [BitVec.ofNat 512 ((vAt s tile (fB (wordAt s tile))).toNat <<< (128 * ((vElem (vAt s tile (fA (wordAt s
    tile))) 0).toNat / 16 % 4)))])) ∧
  (∀ (s : State) (tile : Fin 1024), Issues s tile .nwr → (tileOf s tile).inBlock = true → Answers (.nwr tile clean) s fun t => OnlyTile tile s t ∧
    SlotsAct (wordAt s tile) (tileOf s tile) (tileOf t tile) ∧ GensAct (wordAt s tile) (tileOf s tile) (tileOf t tile) ∧ ExpKept (tileOf s tile)
    (tileOf t tile) ∧ FallsThrough (tileOf s tile) (tileOf t tile) ∧ Staged s t tile (.nocWrite ((vElem (vAt s tile (fA (wordAt s tile))) 1).toNat %
    2 ^ 24 * 2 ^ 32 + (vElem (vAt s tile (fA (wordAt s tile))) 0).toNat)) (vAt s tile (fB (wordAt s tile))))

/-- A tile with swap_pending between blocks takes EV0 of the active context; without one, the pending enabled event first in order. The timer raises
  EV5. MDRD data reaches its register at its hc. A link write arrives in its FIFO and a stream entry joins a FIFO with room, raising the FIFO's
  event where it was empty; a full FIFO takes nothing. A committed output leaves the staging buffer. A block that runs beyond 65,536 hc raises
  its exception. A kick makes EV6 pending. An external write beat writes its enabled bytes. (05_dsp_tiles.md) -/
def Obligations.VectorsEventsAndPorts : Prop :=
  (∀ (s : State) (tile : Fin 1024) (c : Nat) (a : Nat), activeCtx s = some c → (tileOf s tile).state = .run → (tileOf s tile).swapPending = true →
    (tileOf s tile).betweenBlocks = true → vectorOf (tileOf s tile) c 0 = some a → Answers (.entryVectorTaken tile) s fun t => t =
    { s with regs := t.regs, tiles := t.tiles } ∧ SameRegs [DSP_TILE_STATUS.swap_entry_hc.key tile 0] s t ∧ (∀ n : Nat, n < 1024 → n ≠ tile → tileOf
    t n = tileOf s n) ∧ (tileOf t tile) =
    { (tileOf s tile) with state := .run, pc := a % 2048, loops := [], hc := max (nowHc s + 1) ((tileOf s tile).lastHc + 2), resumeCkpt := false, swapPending := false, ctx := c }
    ∧ t.rd DSP_TILE_STATUS.swap_entry_hc tile = min (max (tileOf t tile).hc (nowHc s) - (tileOf s tile).edgeTick / hcTicks s) 65535) ∧
  (∀ (s : State) (tile : Fin 1024) (c : Nat) (a : Nat) (ev : Nat), activeCtx s = some c → (tileOf s tile).state = .idle → (tileOf s tile).swapPending
    = false → ev ∈ [1, 2, 3, 4, 5, 6] → sparseGet false (tileOf s tile).events ev = true → vectorOf (tileOf s tile) c ev = some a → (∀ e : Nat, e < 7
    → (1 ≤ e ∧ e < ev) → sparseGet false (tileOf s tile).events e = false) → Answers (.entryVectorTaken tile) s fun t => t =
    { s with tiles := t.tiles } ∧ (∀ n : Nat, n < 1024 → n ≠ tile → tileOf t n = tileOf s n) ∧ (tileOf t tile) =
    { (tileOf s tile) with state := .run, pc := a % 2048, loops := [], hc := max (nowHc s + 1) (tileOf s tile).hc, ctx := c, events := (tileOf t tile).events, resumeCkpt := false }
    ∧ sparseGet false (tileOf t tile).events ev = false ∧ (∀ e : Nat, e < 7 → e ≠ ev → sparseGet false (tileOf t tile).events e = sparseGet false
    (tileOf s tile).events e)) ∧
  (∀ (s : State) (tile : Fin 1024) (n : Nat), (tileOf s tile).timer = some n → Answers (.tileTimerExpiry tile) s fun t => t =
    { s with now := t.now, tim := t.tim, tiles := t.tiles } ∧ (∀ n : Nat, n < 1024 → n ≠ tile → tileOf t n = tileOf s n) ∧ (tileOf t tile) =
    { (tileOf s tile) with timer := none, events := (tileOf t tile).events } ∧ sparseGet false (tileOf t tile).events 5 = true ∧ (∀ e : Nat, e < 8 →
    e ≠ 5 → sparseGet false (tileOf t tile).events e = sparseGet false (tileOf s tile).events e) ∧ t.now = max s.now (n * hcTicks s)) ∧
  (∀ (s : State) (tile : Fin 1024) (r : TileRead) (rest : List TileRead) (d : Vec), (tileOf s tile).reads = r :: rest → r.data = some (false, d) →
    (tileOf s tile).state ≠ .copying → Answers (.mdrdDataReturn tile) s fun t => t = { s with now := t.now, tim := t.tim, tiles := t.tiles } ∧ (∀ n :
    Nat, n < 1024 → n ≠ tile → tileOf t n = tileOf s n) ∧ vAt t tile r.v = d ∧ (∀ n : Nat, n < 16 → n ≠ r.v → vAt t tile n = vAt s tile n) ∧ (tileOf
    t tile).reads = rest ∧ t.now = max s.now (r.ready * hcTicks s) ∧ (tileOf t tile) =
    { (tileOf s tile) with regs := { (tileOf s tile).regs with v := (tileOf t tile).regs.v }, ckpt := (tileOf t tile).ckpt, reads := rest, vReady := (tileOf t tile).vReady })
    ∧
  (∀ (s : State) (tile : Fin 1024) (d : Vec) (n : Nat) (rest : List (Bool × Vec × Nat)), (tileOf s tile).arriving = (false, d, n) :: rest → (tileOf s
    tile).state ≠ .copying → Answers (.linkArrival tile) s fun t => t = { s with now := t.now, tim := t.tim, tiles := t.tiles } ∧ (∀ n : Nat, n <
    1024 → n ≠ tile → tileOf t n = tileOf s n) ∧ (tileOf t tile) =
    { (tileOf s tile) with arriving := rest, linkUp := { (tileOf s tile).linkUp with q := (tileOf s tile).linkUp.q ++ [d] }, events := (tileOf t tile).events }
    ∧ t.now = max s.now (n * hcTicks s) ∧ ((tileOf s tile).linkUp.avail = 0 → sparseGet false (tileOf t tile).events 3 = true) ∧ ((tileOf s
    tile).linkUp.avail ≠ 0 → (tileOf t tile).events = (tileOf s tile).events)) ∧
  (∀ (s : State) (tile : Fin 1024) (port : Bool) (d : Vec), ((tileOf s tile).fifo (b2n port)).q.length < 16 → (tileOf s tile).state ≠ .copying →
    dieOpen s 2 = true → dspBound s tile (b2n port) = true → holdCycle s = false → Answers (.streamInPush tile port d) s fun t => t =
    { s with tiles := t.tiles } ∧ (∀ n : Nat, n < 1024 → n ≠ tile → tileOf t n = tileOf s n) ∧ ((tileOf t tile).fifo (b2n port)).q = ((tileOf s
    tile).fifo (b2n port)).q ++ [d] ∧ (tileOf t tile).fifo (1 - b2n port) = (tileOf s tile).fifo (1 - b2n port) ∧ (((tileOf s tile).fifo (b2n
    port)).avail = 0 → sparseGet false (tileOf t tile).events (b2n port + 1) = true) ∧ (tileOf t tile).regs = (tileOf s tile).regs ∧ (tileOf t
    tile).state = (tileOf s tile).state) ∧
  (∀ (s : State) (tile : Fin 1024) (port : Bool) (d : Vec), 16 ≤ ((tileOf s tile).fifo (b2n port)).q.length → Answers (.streamInPush tile port d) s
    fun t => t = s) ∧
  (∀ (s : State) (tile : Fin 1024) (p : Nat) (d : Vec), (tileOf s tile).staging = [{ kind := .streamOut p, data := d }] → (tileOf s tile).blockOuts =
    0 → (tileOf s tile).state ≠ .copying → p < 2 → (tileOf s tile).relHc ≤ nowHc s → streamRoom s tile p (nowHc s) = true → Answers
    (.stagingBufferRelease tile) s fun t => t =
    { s with tiles := t.tiles, outbox := s.outbox ++ [.tileStream tile p (streamTakes s tile p (nowHc s)) d], ctxs := { s.ctxs with ports := { s.ctxs.ports with outs := t.ctxs.ports.outs } } }
    ∧ (∀ k : Nat, k < 4096 → sparseGet [] t.ctxs.ports.outs k = if k = 4 * (tile : Nat) + 2 + p then streamHeld s k ((nowHc s) * hcTicks s) ++
    [streamTakes s tile p (nowHc s)] else sparseGet [] s.ctxs.ports.outs k) ∧ (∀ n : Nat, n < 1024 → n ≠ tile → tileOf t n = tileOf s n) ∧ (tileOf t
    tile) = { (tileOf s tile) with staging := [], relHc := nowHc s + 1 }) ∧
  (∀ (s : State) (tile : Fin 1024), (tileOf s tile).state = .run → (tileOf s tile).inBlock = true → vectorOf (tileOf s tile) (tileOf s tile).ctx 7 =
    none → Answers (.blockWatchdog tile) s fun t => (∀ n : Nat, n < 1024 → n ≠ tile → tileOf t n = tileOf s n) ∧ (tileOf t tile).state = .halted ∧
    (tileOf t tile).exc = 7 ∧ (tileOf t tile).inBlock = false ∧ (tileOf t tile).regs = (tileOf s tile).ckpt ∧ (tileOf t tile).staging = (tileOf s
    tile).staging.take ((tileOf s tile).staging.length - (tileOf s tile).blockOuts) ∧ t.now = max s.now (((tileOf s tile).blockHc + 65537) * hcTicks
    s) ∧ t = { s with now := t.now, tim := t.tim, tiles := t.tiles, regs := t.regs, safe := t.safe, link := t.link, outbox := t.outbox } ∧ SameRegs
    logKeys s t) ∧
  (∀ (s : State) (tile : Fin 1024), s.link.up = true → s.rd DEV_MODE.mode ≠ 0 → s.boot.coreUp = true → dieOpen s 2 = true → Answers (.tileKick tile)
    s fun t => t = { s with tiles := t.tiles } ∧ (∀ n : Nat, n < 1024 → n ≠ tile → tileOf t n = tileOf s n) ∧ (tileOf t tile) =
    { (tileOf s tile) with events := (tileOf t tile).events } ∧ sparseGet false (tileOf t tile).events 6 = true ∧ (∀ e : Nat, e < 6 → sparseGet false
    (tileOf t tile).events e = sparseGet false (tileOf s tile).events e)) ∧
  (∀ (s : State), s.link.up = true → s.rd DEV_MODE.mode ≠ 0 → s.boot.coreUp = true → dieOpen s 2 = true → Answers (.tileKickAll) s fun t => t =
    { s with tiles := t.tiles } ∧ (∀ n : Nat, n < 1024 → sparseGet false (tileOf t n).events 6 = true ∧ tileOf t n =
    { tileOf s n with events := (tileOf t n).events } ∧ ∀ e : Nat, e < 6 → sparseGet false (tileOf t n).events e = sparseGet false (tileOf s
    n).events e)) ∧
  (∀ (s : State) (init : Nat) (tag : Fin 256) (ecc : Ecc) (ecc2 : Ecc) (r : NocReq) (n : Nat) (b : Nat) (h : Nat) (stall : Bool), reqOf s init tag =
    some r → r.write = true → r.len = 1 → targetOf (locOf r.pa) = .tile n → (xyPlace r.pa b).1 < 1024 → (xyBeats r)[r.done]? = some b → servable s r
    = true → dieOpen s 2 = true → (tileOf s n).state ≠ .copying → r.badFlits = [] → beatHc s (xyPlace r.pa b).1 (xyPlace r.pa b).2.1 (beatReady s r)
    = some (h, stall) → Answers (.externalXyBeat init tag ecc ecc2) s fun t => t =
    { s with now := t.now, tim := t.tim, tiles := t.tiles, noc := { s.noc with reqs := t.noc.reqs } } ∧ t.now = max s.now (h * hcTicks s) ∧ (∀ m :
    Nat, m < 1024 → m ≠ (xyPlace r.pa b).1 → tileOf t m = tileOf s m) ∧ ((xyPlace r.pa b).2.1 = false → (tileOf t (xyPlace r.pa b).1).x = xyWrite
    (tileOf s (xyPlace r.pa b).1).x (xyPlace r.pa b).2.2 ((r.be.toNat >>> (16 * b)) % 65536) (((r.data.getD (b / 4) 0).toNat >>> (128 * (b % 4))) % 2
    ^ 128) ∧ (tileOf t (xyPlace r.pa b).1).y = (tileOf s (xyPlace r.pa b).1).y) ∧ ((xyPlace r.pa b).2.1 = true → (tileOf t (xyPlace r.pa b).1).y =
    xyWrite (tileOf s (xyPlace r.pa b).1).y (xyPlace r.pa b).2.2 ((r.be.toNat >>> (16 * b)) % 65536) (((r.data.getD (b / 4) 0).toNat >>> (128 * (b %
    4))) % 2 ^ 128) ∧ (tileOf t (xyPlace r.pa b).1).x = (tileOf s (xyPlace r.pa b).1).x) ∧ (tileOf t (xyPlace r.pa b).1).regs = (tileOf s (xyPlace
    r.pa b).1).regs ∧ (tileOf t (xyPlace r.pa b).1).hc = (if stall then max (tileOf s (xyPlace r.pa b).1).hc (h + 1) else (tileOf s (xyPlace r.pa
    b).1).hc) ∧ (∀ q ∈ reqOf t init tag, q.done = r.done + 1 ∧ q.status = r.status))

/-- A residue failure inside a block, its window not yet full, abandons the block: registers back at the checkpoint, staged outputs and pops undone,
  the program counter at its BLK.BEGIN, one replay counted; the third in a row halts the tile. Outside a block it raises exception 8, which is
  not logged. A lasting idle tile with a drained buffer and a free spare starts copying; 3,200 hc later the spare serves it, shown and logged. A
  word whose group and op name nothing raises the illegal-instruction exception, which is logged and halts a tile without an EV7 vector; a
  program counter out of range raises exception 0x0C. (05_dsp_tiles.md, 06_dsp_instruction_set.md, 22_faults_safety_and_self_test.md) -/
def Obligations.ReplaySpareAndExceptions : Prop :=
  (∀ (s : State) (tile : Fin 1024), (tileOf s tile).inBlock = true → (tileOf s tile).state = .run → (tileOf s tile).attempts = 0 → (countEvent s 4
    tile).2 = false → (tileOf s tile).slack = 0 → Answers (.residueCheckFail tile) s fun t => (∀ n : Nat, n < 1024 → n ≠ tile → tileOf t n = tileOf s
    n) ∧ (tileOf t tile) =
    { abandonBlock (tileOf s tile) with attempts := 1, cost := (tileOf t tile).cost, pc := (tileOf s tile).blockPc, hc := max (tileOf s tile).hc (nowHc s) + 4, slackNoted := (tileOf s tile).slackNoted }
    ∧ (tileOf t tile).regs = (tileOf s tile).ckpt ∧ (tileOf t tile).state = .run ∧ (tileOf t tile).inBlock = false ∧ (tileOf t tile).streamIn0.popped
    = 0 ∧ (tileOf t tile).linkDown.popped = 0 ∧ (tileOf t tile).staging = (tileOf s tile).staging.take ((tileOf s tile).staging.length - (tileOf s
    tile).blockOuts) ∧ t.rd DSP_TILE_REPLAY.replays tile = satAdd 16 ((countEvent s 4 tile).1.rd DSP_TILE_REPLAY.replays tile) 1 ∧ t =
    { s with tiles := t.tiles, regs := t.regs, safe := { s.safe with windows := t.safe.windows } } ∧ SameRegs [DSP_TILE_REPLAY.replays.key tile 0] s
    t) ∧
  (∀ (s : State) (tile : Fin 1024), (tileOf s tile).inBlock = true → (tileOf s tile).state = .run → (tileOf s tile).attempts = 2 → (countEvent s 4
    tile).2 = false → (tileOf s tile).slack = 0 → spareGone s tile = false → Answers (.residueCheckFail tile) s fun t => (∀ n : Nat, n < 1024 → n ≠
    tile → tileOf t n = tileOf s n) ∧ (tileOf t tile).state = .halted ∧ (tileOf t tile).resumeCkpt = true ∧ (tileOf t tile).lasting = true ∧ (tileOf
    t tile).regs = (tileOf s tile).ckpt ∧ (tileOf t tile).inBlock = false ∧ (t.safe.log.getLast?.map (fun e => (e.kind, e.unit))) = some (.dspHalted,
    (tile : Nat)) ∧ t.rd SAF_SAFE_CAUSE.dsp_halt = s.rd SAF_SAFE_CAUSE.dsp_halt ∧ SameRegs logKeys s t ∧ t =
    { s with tiles := t.tiles, regs := t.regs, safe := t.safe, link := t.link, outbox := t.outbox }) ∧
  (∀ (s : State) (tile : Fin 1024), (tileOf s tile).inBlock = false → (tileOf s tile).state = .run → (countEvent s 4 tile).2 = false → vectorOf
    (tileOf s tile) (tileOf s tile).ctx 7 = none → Answers (.residueCheckFail tile) s fun t => (∀ n : Nat, n < 1024 → n ≠ tile → tileOf t n = tileOf
    s n) ∧ (tileOf t tile) = { (tileOf s tile) with exc := 8, attempts := 0, cost := 0, slackNoted := false, resumeCkpt := false, state := .halted }
    ∧ t.safe.log = s.safe.log ∧ t = { s with tiles := t.tiles, safe := { s.safe with windows := t.safe.windows } }) ∧
  (∀ (s : State) (tile : Fin 1024), (tileOf s tile).lasting = true → (tileOf s tile).betweenBlocks = true → (∀ p ∈ s.tiles, p.1 / 16 = tile / 16 →
    p.1 ≠ tile → p.2.lasting = false) → (tileOf s tile).staging = [] → (tileOf s tile).state ≠ .copying → spareGone s tile = false → Answers
    (.tileSubstitutionStart tile) s fun t => t = { s with tiles := t.tiles } ∧ (∀ n : Nat, n < 1024 → n ≠ tile → tileOf t n = tileOf s n) ∧ (tileOf t
    tile) = { (tileOf s tile) with state := .copying, before := (tileOf s tile).state, copyAt := s.now }) ∧
  (∀ (s : State) (tile : Fin 1024), (tileOf s tile).state = .copying → (tileOf s tile).resumeCkpt = false → Answers (.copyingComplete tile) s fun t
    => (∀ n : Nat, n < 1024 → n ≠ tile → tileOf t n = tileOf s n) ∧ (tileOf t tile) =
    { (tileOf s tile) with state := (tileOf s tile).before, lasting := false, hc := (tileOf t tile).hc } ∧ t.now = max s.now ((tileOf s tile).copyAt
    + 3200 * hcTicks s) ∧ t.rd DSP_TILE_STATUS.spare tile = 1 ∧ bit (t.rd DSP_COL_SPARE.used (tile / 64)) (tile % 64 / 16) = true ∧
    (t.safe.log.getLast?.map (fun e => (e.kind, e.unit, e.setDegraded))) = some (.dspSpared, (tile : Nat), true) ∧ t.rd SAF_DEGRADED.dsp_spare = 1 ∧
    t.rd DEV_MODE.degraded = 1) ∧
  (∀ (s : State) (tile : Fin 1024) (f : Finds), (tileOf s tile).state = .run → (tileOf s tile).swapPending = false → outOfRange (tileOf s tile) =
    false → f.fetch ≠ .double → topOf (wordAt s tile) = none → (tileOf s tile).inBlock = false → vectorOf (tileOf s tile) (tileOf s tile).ctx 7 =
    none → Answers (.thicketNop tile f) s fun t => (∀ n : Nat, n < 1024 → n ≠ tile → tileOf t n = tileOf s n) ∧ (tileOf t tile) =
    { (tileOf s tile) with exc := 1, attempts := 0, cost := 0, slackNoted := false, resumeCkpt := false, state := .halted } ∧
    (t.safe.log.getLast?.map (fun e => (e.kind, e.unit, e.detail))) = some (.dspException, (tile : Nat), 1)) ∧
  (∀ (s : State) (tile : Fin 1024) (f : Finds) (a : Nat), (tileOf s tile).state = .run → (tileOf s tile).swapPending = false → (tileOf s
    tile).inHandler = false → outOfRange (tileOf s tile) = true → (tileOf s tile).inBlock = false → vectorOf (tileOf s tile) (tileOf s tile).ctx 7 =
    some a → Answers (.thicketNop tile f) s fun t => (∀ n : Nat, n < 1024 → n ≠ tile → tileOf t n = tileOf s n) ∧ (tileOf t tile) =
    { (tileOf s tile) with exc := 12, pc := a % 2048, loops := [], hc := max (nowHc s + 1) ((tileOf s tile).lastHc + 2), attempts := 0, cost := 0, slackNoted := false, resumeCkpt := false, inHandler := true, swapPending := false }
    ∧ (t.safe.log.getLast?.map (fun e => (e.kind, e.unit, e.detail))) = some (.dspException, (tile : Nat), 12))

/-- A full write to a poisoned word, by port A on an edge of its channel or by port B for the network, leaves the word at its effect with the new
  data and no poison, whatever it held; every other word of the die is left alone. (R191) -/
def Obligations.FullWriteClearsPoison : Prop :=
  (∀ (s : State) (b : Fin 4096) (w : Fin 4096) (d : Word64) (m : MemWord), memWord s b w = some m → m.poison = true → portAServes s b = true →
    portASample s b = s → s.mem.updates = [] → s.stack.poisoned = [] → Answers (.portAWrite b w 0xFF d) s fun t => wordsAfter t 2 = sparsePut
    s.mem.words (b.val * 4096 + w.val) { data := d, poison := false } ∧ t =
    { s with mem := { s.mem with updates := t.mem.updates, portAt := t.mem.portAt, newer := t.mem.newer } }) ∧
  (∀ (s : State) (init : Nat) (tag : Fin 256) (r : NocReq) (b : Nat) (w : Nat) (m : MemWord), reqOf s init tag = some r → r.write = true → r.len = 8
    → r.done = 0 → r.badFlits = [] → nocBlock s r = some b → blockWord r.pa = (b, w) → r.pa % 64 = 0 → memWord s b w = some m → m.poison = true →
    s.mem.updates = [] → Answers (.portBWrite (.noc init tag)) s fun t => wordsAfter t 2 = (List.range 8).foldl (fun l k => sparsePut l (b * 4096 + w
    + k) { data := BitVec.ofNat 64 ((r.data.getD 0 0).toNat >>> (64 * k)), poison := false }) s.mem.words ∧ t =
    { s with now := t.now, tim := t.tim, mem := { s.mem with words := t.mem.words, updates := t.mem.updates, newer := t.mem.newer, pathLast := t.mem.pathLast, portBFree := t.mem.portBFree }, noc := { s.noc with reqs := t.noc.reqs } })

/-- Port A takes a request on an edge of its channel. A read of an invalid word gives zero, unpoisoned, and counts nothing; a read of a valid word
  gives its data with the port's own pending writes on top, and changes nothing. A full write, or a narrow write to an invalid word, makes the
  word valid at the end of the next hop cycle (disabled bytes 0); a narrow write to a valid word merges its enabled bytes 3 hc after it was
  accepted (one with no byte enabled writes nothing), and every other word is left alone. A narrow write whose read half is poisoned writes
  nothing and port A sees werr, on its first edge from 4 hc on. (07_memory_layer.md) -/
def Obligations.MemoryDieWordsAndMerges : Prop :=
  (∀ (s : State) (b : Fin 4096) (w : Fin 4096) (f : Finding), memWord s b w = none → portAServes s b = true → portASample s b = s → s.mem.updates =
    [] → s.stack.poisoned = [] → f.ecc ≠ .double → Answers (.portARead b w f) s fun t => sparseFind t.mem.portAt b = some s.now ∧ t =
    { s with mem := { s.mem with portAt := t.mem.portAt }, outbox := s.outbox ++ [.portData b (portAEdge s b s.now) 0 false] }) ∧
  (∀ (s : State) (b : Fin 4096) (w : Fin 4096) (m : MemWord) (y : MemWord), memWord s b w = some m → portAServes s b = true → portASample s b = s →
    s.stack.poisoned = [] → ownWrites s true b w (some m) = some y → Answers (.portARead b w { ecc := .ok, place := 0 }) s fun t => sparseFind
    t.mem.portAt b = some s.now ∧ t =
    { s with mem := { s.mem with portAt := t.mem.portAt }, outbox := s.outbox ++ [.portData b (portAEdge s b s.now) y.data y.poison] }) ∧
  (∀ (s : State) (b : Fin 4096) (w : Fin 4096) (be : Byte) (d : Word64), memWord s b w = none → be ≠ 0 → portAServes s b = true → portASample s b = s
    → s.mem.updates = [] → s.stack.poisoned = [] → Answers (.portAWrite b w be d) s fun t => wordsAfter t 2 = sparsePut s.mem.words (b.val * 4096 +
    w.val) { data := mergeBytes be d 0, poison := false } ∧ t =
    { s with mem := { s.mem with updates := t.mem.updates, portAt := t.mem.portAt, newer := t.mem.newer } }) ∧
  (∀ (s : State) (b : Fin 4096) (w : Fin 4096) (be : Byte) (d : Word64) (m : MemWord), memWord s b w = some m → m.poison = false → be ≠ 0 → be ≠
    BitVec.allOnes 8 → portAServes s b = true → portASample s b = s → s.mem.updates = [] → s.stack.poisoned = [] → Answers (.portAWrite b w be d) s
    fun t => t = { s with mem := { s.mem with updates := t.mem.updates, portAt := t.mem.portAt, newer := t.mem.newer } } ∧ wordsAfter t 3 =
    s.mem.words ∧ wordsAfter t 4 = sparsePut s.mem.words (b.val * 4096 + w.val) { data := mergeBytes be d m.data, poison := false }) ∧
  (∀ (s : State) (b : Fin 4096) (w : Fin 4096) (d : Word64), portAServes s b = true → portASample s b = s → s.mem.updates = [] → s.stack.poisoned =
    [] → Answers (.portAWrite b w 0 d) s fun t => t = { s with mem := { s.mem with portAt := t.mem.portAt, newer := t.mem.newer } }) ∧
  (∀ (s : State) (n : MemUpdate) (m : MemWord), s.mem.updates = [n] → n.kind = .merge none → n.port = .portA → s.now ≤ n.since + 3 * hcTicks s →
    memWord s n.block n.word = some m → m.poison = false → Answers (.narrowWriteMerge { ecc := .ok, place := 0 }) s fun t => t.now = n.since + 3 *
    hcTicks s ∧ wordsAfter t 1 = sparsePut s.mem.words (n.block * 4096 + n.word) { data := mergeBytes n.be n.data m.data, poison := false } ∧ t =
    { s with now := t.now, tim := t.tim, mem := { s.mem with updates := t.mem.updates } }) ∧
  (∀ (s : State) (n : MemUpdate) (m : MemWord) (f : Finding), s.mem.updates = [n] → n.kind = .merge none → n.port = .portA → s.now ≤ n.since + 3 *
    hcTicks s → memWord s n.block n.word = some m → m.poison = true → f.ecc ≠ .double → Answers (.narrowWriteMerge f) s fun t => t.mem =
    { s.mem with updates := [] } ∧ t.outbox = s.outbox ++ [.werr n.block (portAEdge s n.block n.since)] ∧ t =
    { s with now := t.now, tim := t.tim, mem := t.mem, outbox := t.outbox })

/-- A bulk invalidate by port A or the host makes every word of its block invalid and leaves other blocks alone; inval_busy reads 1 until the block
  has cleared, 3,000 hc later. Port B accepts a word an hc: it reads a flit, or the 16 bytes of an MDRD, and writes the oldest MDWR of a tile.
  Once its copy has run 4,096 hc, a retiring block is served by its spare, with its contents kept: the map, the counts, SAF_DEGRADED and the log
  show it. (07_memory_layer.md) -/
def Obligations.InvalidationPortBAndRetirement : Prop :=
  (∀ (s : State) (b : Fin 4096), portAServes s b = true → portASample s b = s → s.mem.updates = [] → sparseFind s.mem.portAt b ≠ some s.now → Answers
    (.portAInvalidate b) s fun t => wordsAfter t 1 = s.mem.words.filter (fun e => e.1 / 4096 != b.val) ∧ sparseFind t.mem.clearing b = some s.now ∧
    (∀ c : Nat, c < 4096 → c ≠ b → sparseFind t.mem.clearing c = sparseFind s.mem.clearing c) ∧ t.rd MEM_STATUS.inval_busy = 1 ∧ t =
    { s with regs := t.regs, mem := { s.mem with updates := t.mem.updates, invalEdge := t.mem.invalEdge, clearing := t.mem.clearing } } ∧ SameRegs
    (keys [MEM_STATUS.inval_busy]) s t) ∧
  (∀ (s : State) (b : Fin 4096), dieOpen s 1 = true → (inReserve s b) = false → s.mem.updates = [] → s.link.up = true → s.rd DEV_MODE.mode ≠ 0 →
    s.boot.coreUp = true → Answers (.hostBlockInvalidate b) s fun t => wordsAfter t 1 = s.mem.words.filter (fun e => e.1 / 4096 != b.val) ∧
    sparseFind t.mem.clearing b = some s.now ∧ (∀ c : Nat, c < 4096 → c ≠ b → sparseFind t.mem.clearing c = sparseFind s.mem.clearing c) ∧ t.rd
    MEM_STATUS.inval_busy = 1 ∧ t =
    { s with regs := t.regs, mem := { s.mem with updates := t.mem.updates, invalEdge := t.mem.invalEdge, clearing := t.mem.clearing } } ∧ SameRegs
    (keys [MEM_STATUS.inval_busy]) s t) ∧
  (∀ (s : State), dieOpen s 1 = true → s.mem.updates = [] → s.rd MEM_STATUS.reserve_active = 0 → s.link.up = true → s.rd DEV_MODE.mode ≠ 0 →
    s.boot.coreUp = true → Answers (.hostInvalidateAll) s fun t => (wordsAfter t 1).filter (fun e => decide (e.1 / 4096 < 4096)) = [] ∧ (∀ c : Nat, c
    < 4096 → sparseFind t.mem.clearing c = some s.now) ∧ t.rd MEM_STATUS.inval_busy = 1 ∧ t =
    { s with regs := t.regs, mem := { s.mem with updates := t.mem.updates, clearing := t.mem.clearing } } ∧ SameRegs (keys [MEM_STATUS.inval_busy]) s
    t) ∧
  (∀ (s : State) (b : Fin 4096) (n : Nat), sparseFind s.mem.clearing b = some n → Answers (.invalidateClearDone b) s fun t => t.now = max s.now (n +
    3000 * hcTicks s) ∧ sparseFind t.mem.clearing b = none ∧ (∀ c : Nat, c < 4096 → c ≠ b → sparseFind t.mem.clearing c = sparseFind s.mem.clearing
    c) ∧ (t.rd MEM_STATUS.inval_busy = 1 ↔ t.mem.clearing ≠ []) ∧ t =
    { s with now := t.now, tim := t.tim, regs := t.regs, mem := { s.mem with clearing := t.mem.clearing } }) ∧
  (∀ (s : State) (init : Nat) (tag : Fin 256) (r : NocReq) (b : Nat) (m : Nat → MemWord), reqOf s init tag = some r → r.write = false → r.done = 0 →
    r.respData = [] → nocBlock s r = some b → blockWord r.pa = (b, 0) → r.pa % 64 = 0 → s.mem.updates = [] → (∀ k : Nat, k < 8 → memWord s b k = some
    (m k)) → (∀ k : Nat, k < 8 → (m k).poison = false) → Answers (.portBRead (.noc init tag) []) s fun t => t =
    { s with now := t.now, tim := t.tim, mem := { s.mem with pathLast := t.mem.pathLast, portBFree := t.mem.portBFree }, noc := { s.noc with reqs := t.noc.reqs } }
    ∧ t.now = max (max s.now (reachTick s r)) (sparseGet 0 s.mem.portBFree b) + 7 * hcTicks s ∧ (∀ q ∈ reqOf t init tag, q.done = 1 ∧ q.status =
    r.status ∧ q.respPoison = r.respPoison ∧ (∀ k : Nat, k < 8 → q.respData.head?.map (fun d => BitVec.ofNat 64 (d.toNat >>> (64 * k))) = some (m
    k).data))) ∧
  (∀ (s : State) (tile : Fin 1024) (r : TileRead) (b : Nat) (w : Nat) (x : MemWord) (y : MemWord), (tileOf s tile).reads = [r] → r.data = none →
    blockWord (0x1000000000 + r.addr) = (b, w) → blockWord (0x1000000000 + r.addr + 8) = (b, w + 1) → inReserve s b = false → panesOpen s = true →
    pathGoes s tile = true → pathInOrder s tile false = true → portBTurn s b true = true → s.mem.updates = [] → s.stack.poisoned = [] → memWord s b w
    = some x → memWord s b (w + 1) = some y → x.poison = false → y.poison = false → Answers (.portBRead (.path tile) []) s fun t => t =
    { s with now := t.now, tim := t.tim, tiles := t.tiles, mem := { s.mem with pathTurn := t.mem.pathTurn, pathLast := t.mem.pathLast, portBFree := t.mem.portBFree } }
    ∧ t.now = max s.now (sparseGet 0 s.mem.portBFree b) + hcTicks s ∧ sparseGet false t.mem.pathLast b = true ∧ sparseGet 16 t.mem.pathTurn (tile /
    16) = pathSource s tile ∧ (∀ n : Nat, n < 1024 → n ≠ tile → tileOf t n = tileOf s n) ∧ tileOf t tile =
    { tileOf s tile with reads := [{ r with data := some (false, y.data ++ x.data) }] }) ∧
  (∀ (s : State) (tile : Fin 1024) (e : PathWrite) (b : Nat) (w : Nat), s.mem.pathWrites = [e] → e.tile = tile → blockWord (0x1000000000 + e.addr) =
    (b, w) → inReserve s b = false → panesOpen s = true → pathGoes s tile = true → pathInOrder s tile true = true → portBTurn s b true = true →
    s.mem.updates = [] → s.stack.poisoned = [] → Answers (.portBWrite (.path tile)) s fun t => wordsAfter t 2 = sparsePut (sparsePut s.mem.words (b *
    4096 + w) { data := BitVec.ofNat 64 e.data.toNat, poison := false }) (b * 4096 + w + 1)
    { data := BitVec.ofNat 64 (e.data.toNat >>> 64), poison := false } ∧ t.now = max s.now (sparseGet 0 s.mem.portBFree b) + hcTicks s ∧ t =
    { s with now := t.now, tim := t.tim, mem := { s.mem with updates := t.mem.updates, newer := t.mem.newer, pathWrites := [], pathTurn := t.mem.pathTurn, pathLast := t.mem.pathLast, portBFree := t.mem.portBFree } })
    ∧
  (∀ (s : State) (b : Fin 4096) (k : Nat) (n : Nat), s.mem.updates = [] → s.mem.retiring = [((b : Nat), k, n)] → k < 4 → servingSpare s b = none →
    Answers (.retirementSwitch b []) s fun t => t.now = max s.now (n + 4096 * hcTicks s) ∧ t.mem = { s.mem with retiring := [] } ∧ bit (t.rd
    MEM_SPARE_STAT.used (b / 256)) k = true ∧ t.rd { MEM_SPARE_MAP.spare0 with lo := 8 * k } (b / 256) = b % 256 ∧ t.rd MEM_STATUS.retire_busy = 0 ∧
    (t.safe.log.getLast?.map (fun e => (e.kind, e.unit, e.detail, e.setDegraded))) = some (.memBlockRetired, (b : Nat), k, true) ∧ t.rd
    SAF_DEGRADED.mem_block = 1 ∧ t =
    { s with now := t.now, tim := t.tim, regs := t.regs, mem := t.mem, safe := t.safe, link := t.link, outbox := t.outbox })

/-- An engine's waiting request, or the packet of an open fabric port on the edges of its channel, that meets no check enters the network unchanged
  but for its tag, class and time; a malformed one is answered ACCESS_DENIED and NOC_DENY_PA logs it; a port at its limit holds the packet. A
  granted flit reaches the next router of its way at the tick its hops, its channel and its class give, where no other flit is ejected by then;
  one half corrected is counted, a header with half 0 lost is counted and logged and marks its request lost, a data flit with half 1 in error is
  poisoned. The response to a read reaches the design on the edges of its port's channel, frees its tag and is counted in its latency bin; in a
  port without a clock it waits. A dropped request times out 16,384 hc after issue. NOC_STAT_CLEAR zeroes every counter. (08_network_on_chip.md,
  00_scope.md) -/
def Obligations.NetworkRequestsAndResponses : Prop :=
  (∀ (s : State) (init : Fin 256) (pkt : List Line) (r : NocReq) (rest : List NocReq), nocRunning s = true → isFabricPort init = false → (init.val =
    0x20 → pkt = []) → s.noc.waiting = r :: rest → r.init = init → outstanding s init < 64 → crosses4K r = false → refusedByMap s r = false →
    keyMasked s r = false → Answers (.nocRequestInject init pkt) s fun t => t =
    { s with noc := { s.noc with waiting := rest, reqs := s.noc.reqs ++ [{ r with tag := freeTag s init, qos := initClass s init, issued := s.now }] } })
    ∧
  (∀ (s : State) (init : Fin 256) (pkt : List Line), nocRunning s = true → isFabricPort init = true → portStatus s init = 0 → portClocked s init =
    true → holdCycle s = false → packetWhole pkt = true → txHeld s init + pkt.length ≤ 16 → s.noc.tx.any (fun e => e.1 == init.val) = false → (reqOf
    s init (packetOf pkt).tag.toNat) = none → outstanding s init < 32 → packetMalformed (packetOf pkt) = false → crosses4K (reqOfPacket s init
    (packetOf pkt)) = false → refusedByMap s (reqOfPacket s init (packetOf pkt)) = false → keyMasked s (reqOfPacket s init (packetOf pkt)) = false →
    Answers (.nocRequestInject init pkt) s fun t => t.now = max s.now (portTick s init s.now pkt.length) ∧ t =
    { s with now := t.now, tim := t.tim, noc := { s.noc with reqs := s.noc.reqs ++ [{ reqOfPacket s init (packetOf pkt) with issued := t.now }] } })
    ∧
  (∀ (s : State) (init : Fin 256) (pkt : List Line), nocRunning s = true → isFabricPort init = true → portStatus s init = 0 → portClocked s init =
    true → holdCycle s = false → packetWhole pkt = true → txHeld s init + pkt.length ≤ 16 → s.noc.tx.any (fun e => e.1 == init.val) = false → (reqOf
    s init (packetOf pkt).tag.toNat) = none → outstanding s init < 32 → packetMalformed (packetOf pkt) = true → Answers (.nocRequestInject init pkt)
    s fun t => t.now = max s.now (portTick s init s.now pkt.length) ∧ t =
    { s with now := t.now, tim := t.tim, regs := t.regs, noc := { s.noc with reqs := s.noc.reqs ++ [refuseReq { reqOfPacket s init (packetOf pkt) with issued := t.now } Status.accessDenied.code] } }
    ∧ t.rd NOC_DENY_PA_LO.pa_lo = (packetOf pkt).pa.toNat % 2 ^ 32 ∧ t.rd NOC_DENY_PA_HI.pa_hi = (packetOf pkt).pa.toNat / 2 ^ 32 ∧ t.rd
    NOC_DENY_PA_HI.initiator = init ∧ SameRegs (keys [NOC_DENY_PA_LO.pa_lo, NOC_DENY_PA_HI.pa_hi, NOC_DENY_PA_HI.initiator]) s t) ∧
  (∀ (s : State) (init : Fin 256) (pkt : List Line), nocRunning s = true → isFabricPort init = true → portStatus s init = 0 → portClocked s init =
    true → holdCycle s = false → packetWhole pkt = true → txHeld s init + pkt.length ≤ 16 → s.noc.tx.any (fun e => e.1 == init.val) = false → 32 ≤
    outstanding s init → Answers (.nocRequestInject init pkt) s fun t => t.now = max s.now (portTick s init s.now pkt.length) ∧ t =
    { s with now := t.now, tim := t.tim, noc := { s.noc with tx := s.noc.tx ++ [((init : Nat), pkt)] } }) ∧
  (∀ (s : State) (init : Nat) (tag : Fin 256) (r : NocReq) (router : Fin 48) (f : Flit), reqOf s init tag = some r → r.dropped = false → r.refused =
    false → r.inPort = false → nextFlit s r router = some f → granted s (flits s) (hopTick s f router) f = true → netAt s s.now = s → netAt s
    (hopTick s f router) = s → s.safe.injection = none → r.lost = false → r.sum = none → f.resp = r.answered → Answers (.nocFlitHop init tag router
    { half0 := 0, half1 := 0 }) s fun t => t.now = hopTick s f router ∧ reqOf t init tag ≠ none ∧ t.noc =
    { s.noc with reqs := t.noc.reqs, links := t.noc.links, turns := t.noc.turns } ∧ (∀ q ∈ reqOf t init tag, hopOf q r.answered f.k =
    { at_ := f.hop.at_ + 1, tick := t.now } ∧ ∀ k : Nat, k < 9 → k ≠ f.k → hopOf q r.answered k = hopOf r r.answered k) ∧ t =
    { s with now := t.now, tim := t.tim, noc := t.noc }) ∧
  (∀ (s : State) (init : Nat) (tag : Fin 256) (r : NocReq) (router : Fin 48) (f : Flit) (find : FlitFind), reqOf s init tag = some r → r.dropped =
    false → r.refused = false → r.inPort = false → nextFlit s r router = some f → granted s (flits s) (hopTick s f router) f = true → netAt s s.now =
    s → netAt s (hopTick s f router) = s → s.safe.injection = none → r.lost = false → r.sum = none → f.resp = r.answered → halfFind find.half0 =
    .corrected → halfFind find.half1 = .ok → Answers (.nocFlitHop init tag router find) s fun t => t.now = hopTick s f router ∧ reqOf t init tag ≠
    none ∧ t.noc = { s.noc with reqs := t.noc.reqs, links := t.noc.links, turns := t.noc.turns } ∧ (∀ q ∈ reqOf t init tag, hopOf q r.answered f.k =
    { at_ := f.hop.at_ + 1, tick := t.now } ∧ ∀ k : Nat, k < 9 → k ≠ f.k → hopOf q r.answered k = hopOf r r.answered k) ∧ t.rd
    NOC_ERR_COUNTS.corrected = satAdd NOC_ERR_COUNTS.corrected.width (s.rd NOC_ERR_COUNTS.corrected) 1 % 2 ^ NOC_ERR_COUNTS.corrected.width ∧ t =
    { s with now := t.now, tim := t.tim, regs := t.regs, noc := t.noc } ∧ SameRegs (keys [NOC_ERR_COUNTS.corrected]) s t) ∧
  (∀ (s : State) (init : Nat) (tag : Fin 256) (r : NocReq) (router : Fin 48) (f : Flit) (find : FlitFind), reqOf s init tag = some r → r.dropped =
    false → r.refused = false → r.inPort = false → nextFlit s r router = some f → granted s (flits s) (hopTick s f router) f = true → netAt s s.now =
    s → netAt s (hopTick s f router) = s → s.safe.injection = none → r.lost = false → r.sum = none → f.resp = false → r.answered = false → f.k = 0 →
    halfFind find.half0 = .bad → halfFind find.half1 = .ok → Answers (.nocFlitHop init tag router find) s fun t => (∀ q ∈ reqOf t init tag, q.lost =
    true ∧ q.answered = false) ∧ t.rd NOC_ERR_COUNTS.uncorrectable = satAdd NOC_ERR_COUNTS.uncorrectable.width (s.rd NOC_ERR_COUNTS.uncorrectable) 1
    % 2 ^ NOC_ERR_COUNTS.uncorrectable.width ∧ (t.safe.log.getLast?.map (fun e => (e.kind, e.unit, e.detail))) = some (.nocHeaderDropped, (router :
    Nat), 1) ∧ SameRegs (NOC_ERR_COUNTS.uncorrectable.key 0 0 :: logKeys) s t ∧ t =
    { s with now := t.now, tim := t.tim, regs := t.regs, safe := t.safe, link := t.link, outbox := t.outbox, noc := { s.noc with reqs := t.noc.reqs, links := t.noc.links, turns := t.noc.turns } })
    ∧
  (∀ (s : State) (init : Nat) (tag : Fin 256) (r : NocReq) (router : Fin 48) (f : Flit) (find : FlitFind), reqOf s init tag = some r → r.dropped =
    false → r.refused = false → r.inPort = false → nextFlit s r router = some f → granted s (flits s) (hopTick s f router) f = true → netAt s s.now =
    s → netAt s (hopTick s f router) = s → s.safe.injection = none → r.lost = false → r.sum = none → f.resp = false → r.answered = false → f.k ≠ 0 →
    r.badFlits = [] → halfFind find.half0 = .ok → halfFind find.half1 = .bad → Answers (.nocFlitHop init tag router find) s fun t => t.now = hopTick
    s f router ∧ reqOf t init tag ≠ none ∧ t.noc = { s.noc with reqs := t.noc.reqs, links := t.noc.links, turns := t.noc.turns } ∧ (∀ q ∈ reqOf t
    init tag, hopOf q r.answered f.k = { at_ := f.hop.at_ + 1, tick := t.now } ∧ ∀ k : Nat, k < 9 → k ≠ f.k → hopOf q r.answered k = hopOf r
    r.answered k) ∧ (∀ q ∈ reqOf t init tag, q.badFlits = [f.k - 1] ∧ q.answered = false) ∧ t = { s with now := t.now, tim := t.tim, noc := t.noc })
    ∧
  (∀ (s : State) (init : Nat) (tag : Fin 256) (r : NocReq), reqOf s init tag = some r → arrive s init tag = s → serveRegs init tag s = s → r.answered
    = true → r.dropped = false → (r.refused = true ∨ r.inPort = true) → r.status = 0 → r.lost = false → r.owner = .fabric → r.write = false → r.sum =
    none → portWaits s r true = false → r.init < 256 → s.noc.tx = [] → s.rd NOC_STAT_CTRL.freeze = 0 → Answers (.nocResponseArrival init tag true) s
    fun t => t.now = max s.now (handTick s r) ∧ t.outbox = s.outbox ++ [.nocResponse r.init (responseHeader s r ((routeOf s r true).length - 1))
    r.respPoison r.respData] ∧ reqOf t init tag = none ∧ t.rd NOC_HIST.count r.init (histBin (((if r.inPort then handTick s r else s.now) - r.issued)
    / hcTicks s)) = satAdd NOC_HIST.count.width (s.rd NOC_HIST.count r.init (histBin (((if r.inPort then handTick s r else s.now) - r.issued) /
    hcTicks s))) 1 % 2 ^ NOC_HIST.count.width ∧ SameRegs [NOC_HIST.count.key r.init (histBin (((if r.inPort then handTick s r else s.now) - r.issued)
    / hcTicks s)), NOC_BYTES_LO.bytes_lo.key r.init 0, NOC_BYTES_HI.bytes_hi.key r.init 0] s t ∧ t =
    { s with now := t.now, tim := t.tim, regs := t.regs, outbox := t.outbox, noc := { s.noc with reqs := t.noc.reqs } }) ∧
  (∀ (s : State) (init : Nat) (tag : Fin 256) (r : NocReq), reqOf s init tag = some r → arrive s init tag = s → serveRegs init tag s = s → r.answered
    = true → r.dropped = false → r.refused = false → r.inPort = false → allThere s r true = true → r.status = 0 → r.lost = false → r.owner = .fabric
    → r.write = false → r.sum = none → r.init < 256 → portClocked s r.init = false → Answers (.nocResponseArrival init tag true) s fun t => (∀ q ∈
    reqOf t init tag, q = { r with inPort := true }) ∧ reqOf t init tag ≠ none ∧ t.now = max s.now (lastHop r true + initCross r.init * hcTicks s) ∧
    t = { s with now := t.now, tim := t.tim, noc := { s.noc with reqs := t.noc.reqs } }) ∧
  (∀ (s : State) (init : Nat) (tag : Fin 256) (r : NocReq), reqOf s init tag = some r → r.dropped = true → r.inPort = false → r.owner = .fabric →
    r.write = false → r.len = 1 → r.init < 256 → portClocked s r.init = true → dieOpen s 2 = true → baseOpen s = true → s.ctxs.lastSwap = none →
    s.noc.tx = [] → Answers (.nocRequestTimeout init tag) s fun t => t.now = max s.now (r.issued + 16384 * hcTicks s) ∧ t.outbox = s.outbox ++
    [.nocResponse r.init (responseHeader s { r with answered := true, status := Status.poisoned.code, respData := [0], respPoison := [0] } ((routeOf
    s r true).length - 1)) [0] [0]] ∧ reqOf t init tag = none ∧ t.rd NOC_ERR_COUNTS.uncorrectable = satAdd NOC_ERR_COUNTS.uncorrectable.width (s.rd
    NOC_ERR_COUNTS.uncorrectable) 1 % 2 ^ NOC_ERR_COUNTS.uncorrectable.width ∧ t =
    { s with now := t.now, tim := t.tim, regs := t.regs, outbox := t.outbox, noc := { s.noc with reqs := t.noc.reqs } }) ∧
  (∀ (s : State), s.link.up = true → s.rd DEV_MODE.mode ≠ 0 → s.boot.coreUp = true → Answers (.nocStatClear) s fun t => (∀ i ∈ initIds, t.rd
    NOC_BYTES_LO.bytes_lo i = 0 ∧ t.rd NOC_BYTES_HI.bytes_hi i = 0 ∧ ∀ k : Nat, k < 16 → t.rd NOC_HIST.count i k = 0) ∧ t = { s with regs := t.regs }
    ∧ SameRegs (initIds.flatMap (fun i => [NOC_BYTES_LO.bytes_lo.key i 0, NOC_BYTES_HI.bytes_hi.key i 0] ++ (List.range 16).map (fun k =>
    NOC_HIST.count.key i k))) s t)

/-- A read enters its controller's read queue, at most 64; an OFFLINE controller answers ACCESS_DENIED. A full-line write enters the write queue, in
  place of a pending write to its line, and is acknowledged there. A partial write reads its line through the pending writes, merges its enabled
  bytes and enqueues the whole line. The read that issues first returns its line: data as written, poison as marked; pending writes of its line
  that are older are issued before it, and every other line keeps its value. (09_dram_controller.md) -/
def Obligations.DramRequestsAndData : Prop :=
  (∀ (s : State) (init : Nat) (tag : Fin 256) (o : EncOp) (r : NocReq), opOf s init tag = some o → reqOf s init tag = some r → o.stage =
    .toController → o.need = [] → o.sealing = false → o.req.op = .read → (ctrl s (ctrlOfLoc s (o.req.line * 64))).writes.any (fun q => q.line ==
    o.req.line) = false → ctrlAccepts s (ctrlOfLoc s (o.req.line * 64)) = true → (ctrl s (ctrlOfLoc s (o.req.line * 64))).reads.length < 64 → Answers
    (.dramReadRequest init tag) s fun t => (ctrl t (ctrlOfLoc s (o.req.line * 64))).reads = (ctrl s (ctrlOfLoc s (o.req.line * 64))).reads ++
    [{ o.req with op := .read, since := s.now }] ∧ (∀ q ∈ opOf t init tag, q = { o with stage := .queued }) ∧ t.dram.lines = s.dram.lines ∧
    t.dram.epoch = s.dram.epoch ∧ ctrl t (1 - (ctrlOfLoc s (o.req.line * 64))) = ctrl s (1 - (ctrlOfLoc s (o.req.line * 64))) ∧ t =
    { s with dram := t.dram, enc := { s.enc with ops := t.enc.ops } }) ∧
  (∀ (s : State) (init : Nat) (tag : Fin 256) (o : EncOp) (r : NocReq), opOf s init tag = some o → reqOf s init tag = some r → o.stage =
    .toController → o.need = [] → o.sealing = false → o.req.op = .read → o.req.init = init → o.req.tag = tag → r.write = false → s.rd
    DRC_STATUS.state (ctrlOfLoc s (o.req.line * 64)) = drOffline → Answers (.dramReadRequest init tag) s fun t => (∀ q ∈ reqOf t init tag, q.done =
    r.done + 1 ∧ q.status = worseStatus r.status Status.accessDenied.code ∧ q.respPoison = r.respPoison ++ [r.done] ∧ q.respData = r.respData ++ [0])
    ∧ opOf t init tag = none ∧ t.dram = s.dram ∧ t = { s with enc := { s.enc with ops := t.enc.ops }, noc := { s.noc with reqs := t.noc.reqs } }) ∧
  (∀ (s : State) (init : Nat) (tag : Fin 256) (o : EncOp) (r : NocReq), opOf s init tag = some o → reqOf s init tag = some r → o.stage =
    .toController → o.need = [] → o.sealing = false → o.req.op = .write → o.req.be = BitVec.allOnes 64 → o.entry = none → r.write = true →
    ctrlAccepts s (ctrlOfLoc s (o.req.line * 64)) = true → writeRoom s (ctrlOfLoc s (o.req.line * 64)) o.req.line = true → Answers (.dramWriteRequest
    init tag) s fun t => ((ctrl t (ctrlOfLoc s (o.req.line * 64))).writes.any (fun q => q.line == o.req.line && q.data == o.req.data)) = true ∧ (∀ q
    ∈ (ctrl s (ctrlOfLoc s (o.req.line * 64))).writes, q.line ≠ o.req.line → q ∈ (ctrl t (ctrlOfLoc s (o.req.line * 64))).writes) ∧ t.dram.lines =
    s.dram.lines ∧ (∀ q ∈ reqOf t init tag, q.done = r.done + 1 ∧ q.status = r.status) ∧ opOf t init tag = none ∧ t =
    { s with dram := t.dram, enc := { s.enc with ops := t.enc.ops, tags := t.enc.tags }, noc := { s.noc with reqs := t.noc.reqs } }) ∧
  (∀ (s : State) (init : Nat) (tag : Fin 256) (o : EncOp) (r : NocReq), opOf s init tag = some o → reqOf s init tag = some r → o.stage =
    .toController → o.need = [] → o.sealing = false → o.req.op = .write → o.req.be ≠ BitVec.allOnes 64 → r.write = true → ctrlAccepts s (ctrlOfLoc s
    (o.req.line * 64)) = true → (ctrl s (ctrlOfLoc s (o.req.line * 64))).reads = [] → o.req.init = init → o.req.tag = tag → lineHeld s o.req.line =
    false → (ctrl s 0).writes = [] → (ctrl s 1).writes = [] → (dramLine s o.req.line).poison = false → Answers (.dramPartialWrite init tag
    { bad := 0 }) s fun t => (ctrl t (ctrlOfLoc s (o.req.line * 64))).writes.map (fun q => (q.line, q.data)) = [(o.req.line, mergeLine o.req.be
    o.req.data (dramLine s o.req.line).data)] ∧ t.dram.lines = s.dram.lines ∧ (∀ q ∈ reqOf t init tag, q.done = r.done + 1 ∧ q.status = r.status) ∧
    opOf t init tag = none ∧ t =
    { s with dram := t.dram, enc := { s.enc with ops := t.enc.ops, tags := t.enc.tags }, noc := { s.noc with reqs := t.noc.reqs } }) ∧
  (∀ (s : State) (ctl : Fin 2) (q : DramReq), ctrlAccepts s ctl = true → nextRead s ctl = some q → q.use = .data → ctrlOfLoc s (q.line * 64) = ctl →
    (ctrl s ctl).writes = [] → (opOf s q.init q.tag).isSome = true → Answers (.dramReadData ctl { bad := 0 }) s fun t => (ctrl t ctl).reads = (ctrl s
    ctl).reads.erase q ∧ (∀ x ∈ opOf t q.init q.tag, x.stage = .returned (if (dramLine s q.line).poison then Status.poisoned.code else 0) (dramLine s
    q.line).data) ∧ t.dram.lines = s.dram.lines ∧ ctrl t (1 - ctl) = ctrl s (1 - ctl) ∧ t =
    { s with dram := t.dram, enc := { s.enc with ops := t.enc.ops } }) ∧
  (∀ (s : State) (ctl : Fin 2) (q : DramReq) (w : DramReq), ctrlAccepts s ctl = true → nextRead s ctl = some q → q.use = .data → ctrlOfLoc s (q.line
    * 64) = ctl → (ctrl s ctl).writes = [w] → (ctrl s ctl).draining = false → w.line = q.line → w.since ≤ q.since → (opOf s q.init q.tag).isSome =
    true → Answers (.dramReadData ctl { bad := 0 }) s fun t => (ctrl t ctl).writes = [] ∧ dramLine t q.line = { data := w.data, poison := false } ∧
    (∀ x ∈ opOf t q.init q.tag, x.stage = .returned 0 w.data) ∧ t.dram.lines.filter (fun e => e.1 != q.line) = s.dram.lines.filter (fun e => e.1 !=
    q.line))

/-- REFab rounds come at the refresh interval; an MR4 reading sets the rate asked for and logs a hot component. An alert stops its subchannel and is
  counted; its end changes no value, and a third consecutive one starts a full retraining. A retraining request starts the quanta of both
  subchannels; a quantum takes 1 us, 20 us after the last, stores its group's result, and the last ends it. A full retraining without a passing
  step makes the controller OFFLINE, loses its requests and logs it; one that passes ends. PPR_NOW repairs the row of a lasting entry or is
  refused; the end of a repair puts the row on its spare, lines found uncorrectable in it poisoned. (09_dram_controller.md) -/
def Obligations.DramMaintenance : Prop :=
  (∀ (s : State) (ctl : Fin 2), s.rd DRC_STATUS.state ctl = drActive → Answers (.dramRefresh ctl) s fun t => t.now = max s.now ((ctrl s
    ctl).lastRefresh + (if (ctrl s ctl).refreshes % rankPairs s ctl = 0 then tRefi s ctl else (ctrl s ctl).refreshes % rankPairs s ctl * (tRefi s ctl
    / 4))) ∧ ctrl t ctl =
    { ctrl s ctl with sub0 := (ctrl t ctl).sub0, sub1 := (ctrl t ctl).sub1, refreshes := (ctrl s ctl).refreshes + 1, lastRefresh := if (ctrl s ctl).refreshes % rankPairs s ctl = 0 then t.now else (ctrl s ctl).lastRefresh }
    ∧ (∀ i : Nat, i < 2 → (ctrl t ctl).sub i = { (ctrl s ctl).sub i with retry := ((ctrl t ctl).sub i).retry }) ∧ (((ctrl t ctl).sub ((ctrl s
    ctl).refreshes % rankPairs s ctl % 2)).retry.getLast?.map (fun q => q.op)) = some .refresh ∧ ctrl t (1 - ctl) = ctrl s (1 - ctl) ∧ t.rd
    DRC_STATUS.band ctl = s.rd THM_STATUS.band % 2 ^ DRC_STATUS.band.width ∧ t =
    { s with now := t.now, tim := t.tim, regs := t.regs, dram := { s.dram with c0 := t.dram.c0, c1 := t.dram.c1 } } ∧ SameRegs [DRC_STATUS.band.key
    ctl 0] s t) ∧
  (∀ (s : State) (ctl : Fin 2) (a : Fin 4) (b : Fin 4) (reading : Fin 4), s.rd DRC_STATUS.state ctl = drActive → s.rd DRC_STATUS.two_ranks ctl = 0 →
    reading.val = max a.val b.val → Answers (.mr4Poll ctl #v[a, b, 3, 3]) s fun t => ctrl t ctl = { ctrl s ctl with mr4 := min reading 2 } ∧ ctrl t
    (1 - ctl) = ctrl s (1 - ctl) ∧ (reading = 3 → t.rd DRC_STATUS.dram_hot ctl = 1 ∧ (t.safe.log.getLast?.map (fun e => (e.kind, e.unit))) = some
    (.dramHot, (ctl : Nat))) ∧ (reading ≠ 3 → t = { s with dram := t.dram }) ∧ t.dram.lines = s.dram.lines ∧ SameRegs (DRC_STATUS.dram_hot.key ctl 0
    :: logKeys) s t) ∧
  (∀ (s : State) (ctl : Fin 2) (sub : Fin 2) (crc : Bool), s.rd DRC_STATUS.state ctl = drActive → ((ctrl s ctl).sub sub).alertSince = none → ((ctrl s
    ctl).sub sub).full = none → Answers (.dramAlert ctl sub crc) s fun t => ((ctrl t ctl).sub sub).alertSince = some s.now ∧ ((ctrl t ctl).sub
    sub).alertCrc = crc ∧ ((ctrl t ctl).sub sub).alertRun = (if (((ctrl s ctl).sub sub).alertEnd.any (fun e => decide (s.now ≤ e + usTicks))) then
    ((ctrl s ctl).sub sub).alertRun + 1 else 1) ∧ ((ctrl t ctl).sub sub).retry = ((ctrl s ctl).sub sub).retry ∧ (ctrl t ctl).sub (1 - sub) = (ctrl s
    ctl).sub (1 - sub) ∧ ctrl t (1 - ctl) = ctrl s (1 - ctl) ∧ t.rd DRC_ERR_COUNTS.alerts ctl = satAdd DRC_ERR_COUNTS.alerts.width (s.rd
    DRC_ERR_COUNTS.alerts ctl) 1 % 2 ^ DRC_ERR_COUNTS.alerts.width ∧ t = { s with regs := t.regs, dram := t.dram } ∧ SameRegs
    [DRC_ERR_COUNTS.alerts.key ctl 0] s t ∧ t.dram.lines = s.dram.lines) ∧
  (∀ (s : State) (ctl : Fin 2) (sub : Fin 2) (n : Nat), ((ctrl s ctl).sub sub).alertSince = some n → s.boot.d0 = .idle → Answers (.dramAlertDeassert
    ctl sub) s fun t => (ctrl t ctl).sub sub =
    { ((ctrl s ctl).sub sub) with alertSince := none, alertEnd := some s.now, full := if 3 ≤ ((ctrl s ctl).sub sub).alertRun then some s.now else none }
    ∧ ctrl t (1 - ctl) = ctrl s (1 - ctl) ∧ t.dram.lines = s.dram.lines ∧ OnlyRegs [DRC_STATUS.retraining.key ctl 0] { s with dram := t.dram } t) ∧
  (∀ (s : State) (ctl : Fin 2), s.link.up = true → s.rd DEV_MODE.mode ≠ 0 → s.boot.coreUp = true → s.rd DRC_STATUS.state ctl = drActive → Answers
    (.dramRetrainRequest ctl) s fun t => (∀ i : Nat, i < 2 → (ctrl t ctl).sub i = { (ctrl s ctl).sub i with retrain := true }) ∧ ctrl t (1 - ctl) =
    ctrl s (1 - ctl) ∧ t.rd DRC_STATUS.retraining ctl = 1 ∧ OnlyRegs [DRC_STATUS.retraining.key ctl 0] { s with dram := t.dram } t ∧ t.dram.lines =
    s.dram.lines) ∧
  (∀ (s : State) (ctl : Fin 2) (sub : Fin 2) (g : Fin 10) (r : GroupTrain) (last : Bool), s.rd DRC_STATUS.state ctl = drActive → ((ctrl s ctl).sub
    sub).retrain = true → ((ctrl s ctl).sub sub).quantumEnd ≠ 0 → groupFails r = false → s.rd DRC_STATUS.width_x8 ctl = 0 → Answers (.retrainQuantum
    ctl sub (some (g, r)) last) s fun t => t.now = max s.now (((ctrl s ctl).sub sub).quantumEnd + 20 * usTicks) + usTicks ∧ ((ctrl t ctl).sub sub) =
    { ((ctrl s ctl).sub sub) with retrain := !last, quantumEnd := t.now } ∧ t.rd DRC_TRAIN.rd_delay ctl (10 * sub + g) = runCentre r.rd % 2 ^
    DRC_TRAIN.rd_delay.width ∧ t.rd DRC_TRAIN.wr_eye ctl (10 * sub + g) = min 127 (runLength r.wr) % 2 ^ DRC_TRAIN.wr_eye.width ∧ ctrl t (1 - ctl) =
    ctrl s (1 - ctl) ∧ t.dram.lines = s.dram.lines ∧ t = { s with now := t.now, tim := t.tim, regs := t.regs, dram := t.dram } ∧ SameRegs
    ([DRC_STATUS.retraining.key ctl 0, DRC_STATUS.margin_low.key ctl 0] ++ keys [DRC_TRAIN.rd_delay, DRC_TRAIN.wr_delay, DRC_TRAIN.rd_eye,
    DRC_TRAIN.wr_eye] ctl (10 * sub + g)) s t) ∧
  (∀ (s : State) (ctl : Fin 2) (g : List GroupTrain) (n : Nat), (ctrl s ctl).sub0.full = some n → g.any groupFails = true → s.rd
    ENC_REGION_CFG.enable 31 = 0 → (ctrl s ctl).reads = [] → (ctrl s ctl).writes = [] → Answers (.dramFullRetrainEnd ctl g) s fun t => t.rd
    DRC_STATUS.state ctl = drOffline ∧ (t.safe.log.getLast?.map (fun e => (e.kind, e.unit, e.setDegraded))) = some (.dramOffline, (ctl : Nat), true)
    ∧ t.rd SAF_DEGRADED.dram_offline = 1 ∧ (ctrl t ctl).repair = none ∧ (ctrl t ctl).sub0.full = none ∧ ctrl t (1 - ctl) = ctrl s (1 - ctl) ∧
    t.dram.lines = s.dram.lines ∧ t = { s with regs := t.regs, safe := t.safe, link := t.link, outbox := t.outbox, dram := t.dram }) ∧
  (∀ (s : State) (ctl : Fin 2) (g : List GroupTrain) (n : Nat), (ctrl s ctl).sub0.full = some n → g.any groupFails = false → Answers
    (.dramFullRetrainEnd ctl g) s fun t => (ctrl t ctl).sub0.full = none ∧ (ctrl t ctl).sub0.alertRun = 0 ∧ (s.boot.d0 = .idle → t.rd
    DRC_STATUS.state ctl = s.rd DRC_STATUS.state ctl ∧ t.dram.lines = s.dram.lines) ∧ ctrl t (1 - ctl) = ctrl s (1 - ctl) ∧ t =
    { s with regs := t.regs, dram := t.dram }) ∧
  (∀ (s : State) (ctl : Fin 2) (e : Fin 32), s.link.up = true → s.rd DEV_MODE.mode ≠ 0 → s.boot.coreUp = true → s.rd DRC_STATUS.state ctl = drActive
    → s.rd DRC_ELOG_LO.in_use ctl e = 1 → sparseGet false (ctrl s ctl).lasted e = true → resourceFree s ctl e = true → (ctrl s ctl).repair = none →
    Answers (.pprNow ctl e) s fun t => ctrl t ctl = { ctrl s ctl with repair := some ((e : Nat), entryRow s ctl e) } ∧ ctrl t (1 - ctl) = ctrl s (1 -
    ctl) ∧ t.dram.lines = s.dram.lines ∧ OnlyRegs [DRC_CTRL.ppr_entry.key ctl 0] { s with dram := t.dram } t) ∧
  (∀ (s : State) (ctl : Fin 2) (e : Fin 32), s.link.up = true → s.rd DEV_MODE.mode ≠ 0 → s.boot.coreUp = true → sparseGet false (ctrl s ctl).lasted e
    = false → Answers (.pprNow ctl e) s fun t => t.rd DRC_CTRL.ppr_refused ctl = 1 ∧ t.dram = s.dram ∧ OnlyRegs (keys [DRC_CTRL.ppr_entry,
    DRC_CTRL.ppr_refused] ctl) s t) ∧
  (∀ (s : State) (ctl : Fin 2) (e : Nat) (r : RowAddr), (ctrl s ctl).repair = some (e, r) → (ctrl s ctl).repairQ = [] → s.boot.d0 = .idle → entryRow
    s ctl e = r → Answers (.spprRepairComplete ctl []) s fun t => (ctrl t ctl) =
    { ctrl s ctl with repair := none, softRepairs := (ctrl s ctl).softRepairs ++ [(r.resource, r.bank, r.row)] } ∧ bit (t.rd DRC_PPR.used ctl)
    r.resource = true ∧ t.rd DRC_ELOG_LO.repaired ctl e = 1 ∧ t.dram.lines = s.dram.lines ∧ ctrl t (1 - ctl) = ctrl s (1 - ctl) ∧ t =
    { s with regs := t.regs, dram := t.dram } ∧ SameRegs [DRC_PPR.used.key ctl 0, DRC_ELOG_LO.repaired.key ctl e] s t) ∧
  (∀ (s : State) (ctl : Fin 2) (e : Nat) (r : RowAddr) (bad : List (Fin 128)), (ctrl s ctl).repair = some (e, r) → (ctrl s ctl).repairQ = [] →
    s.boot.d0 = .idle → Answers (.spprRepairComplete ctl bad) s fun t => (ctrl t ctl).repair.isSome = false ∧ bit (t.rd DRC_PPR.used ctl) r.resource
    = true ∧ (∀ k ∈ bad, k.val < 64 → (dramLine t (rowLine s ctl r k)).poison = true) ∧ t.dram.lines.filter (fun x => !(bad.any (fun k => rowLine s
    ctl r k == x.1))) = s.dram.lines.filter (fun x => !(bad.any (fun k => rowLine s ctl r k == x.1))) ∧ t.mem = s.mem ∧ t.sec = s.sec)

/-- Enabling a plain region that passes every check makes it ACTIVE; one with encryption becomes INIT and its initialisation sweep is queued; one
  that fails a check stays disabled with the check's number in its error field; a locked configuration, or an enabled region, refuses. Disabling
  clears enable unless a sweep of the region is queued or runs. The lock is set by the host. (10_inline_encryption.md) -/
def Obligations.RegionsAreConfigured : Prop :=
  (∀ (s : State) (region : Fin 32) (value : Word), s.link.up = true → s.rd DEV_MODE.mode ≠ 0 → s.boot.coreUp = true → region ≠ 31 → s.rd
    ENC_CTRL.lock = 0 → s.rd ENC_REGION_CFG.enable region = 0 → bits value.toNat 1 2 = moPlain → regionError ((s.wr ENC_REGION_CFG.mode (bits
    value.toNat 1 2) region).wr ENC_REGION_CFG.key_id (bits value.toNat 8 6) region) region (bits value.toNat 1 2) (bits value.toNat 8 6) (bits
    value.toNat 3 5 != 0 || bits value.toNat 14 18 != 0) = 0 → Answers (.encRegionEnable region value) s fun t => t.rd ENC_REGION_CFG.enable region =
    1 ∧ t.rd ENC_REGION_STATUS.state region = rsActive ∧ t.rd ENC_REGION_STATUS.error region = 0 ∧ t.rd ENC_REGION_CFG.mode region = moPlain ∧ t.rd
    ENC_REGION_CFG.key_id region = bits value.toNat 8 6 ∧ OnlyRegs (keys [ENC_REGION_CFG.mode, ENC_REGION_CFG.key_id, ENC_REGION_STATUS.error,
    ENC_REGION_CFG.enable, ENC_REGION_STATUS.state] region) s t) ∧
  (∀ (s : State) (region : Fin 32) (value : Word), s.link.up = true → s.rd DEV_MODE.mode ≠ 0 → s.boot.coreUp = true → region ≠ 31 → s.rd
    ENC_CTRL.lock = 0 → s.rd ENC_REGION_CFG.enable region = 0 → bits value.toNat 1 2 ≠ moPlain → s.enc.sweeps = [] → regionError ((s.wr
    ENC_REGION_CFG.mode (bits value.toNat 1 2) region).wr ENC_REGION_CFG.key_id (bits value.toNat 8 6) region) region (bits value.toNat 1 2) (bits
    value.toNat 8 6) (bits value.toNat 3 5 != 0 || bits value.toNat 14 18 != 0) = 0 → Answers (.encRegionEnable region value) s fun t => t.rd
    ENC_REGION_CFG.enable region = 1 ∧ t.rd ENC_REGION_STATUS.state region = rsInit ∧ t.rd ENC_REGION_PROGRESS.line region = 0 ∧ t.rd
    ENC_REGION_EPOCH.epoch region = 0 ∧ t.rd ENC_STATUS.sweep_busy = 1 ∧ t.rd ENC_STATUS.sweep_region = region ∧ t.enc.sweeps.map (fun w =>
    (w.region, w.kind)) = [((region : Nat), .init)] ∧ t = { s with regs := t.regs, enc := { s.enc with sweeps := t.enc.sweeps } } ∧ SameRegs (keys
    [ENC_REGION_CFG.mode, ENC_REGION_CFG.key_id, ENC_REGION_STATUS.error, ENC_REGION_CFG.enable, ENC_REGION_STATUS.state] region ++ keys
    [ENC_REGION_PROGRESS.line, ENC_REGION_EPOCH.epoch] region ++ keys [ENC_STATUS.sweep_busy, ENC_STATUS.sweeps_queued, ENC_STATUS.sweep_region] ++
    allKeys [ENC_REGION_STATUS.sweep_queued] 32) s t) ∧
  (∀ (s : State) (region : Fin 32) (value : Word), s.link.up = true → s.rd DEV_MODE.mode ≠ 0 → s.boot.coreUp = true → region ≠ 31 → s.rd
    ENC_CTRL.lock = 0 → s.rd ENC_REGION_CFG.enable region = 0 → regionError ((s.wr ENC_REGION_CFG.mode (bits value.toNat 1 2) region).wr
    ENC_REGION_CFG.key_id (bits value.toNat 8 6) region) region (bits value.toNat 1 2) (bits value.toNat 8 6) (bits value.toNat 3 5 != 0 || bits
    value.toNat 14 18 != 0) ≠ 0 → Answers (.encRegionEnable region value) s fun t => t.rd ENC_REGION_CFG.enable region = 0 ∧ t.rd
    ENC_REGION_STATUS.error region = regionError ((s.wr ENC_REGION_CFG.mode (bits value.toNat 1 2) region).wr ENC_REGION_CFG.key_id (bits value.toNat
    8 6) region) region (bits value.toNat 1 2) (bits value.toNat 8 6) (bits value.toNat 3 5 != 0 || bits value.toNat 14 18 != 0) ∧ t.enc = s.enc ∧
    OnlyRegs (keys [ENC_REGION_CFG.mode, ENC_REGION_CFG.key_id, ENC_REGION_STATUS.error] region) s t) ∧
  (∀ (s : State) (region : Fin 32) (value : Word), s.link.up = true → s.rd DEV_MODE.mode ≠ 0 → s.boot.coreUp = true → region ≠ 31 → s.rd
    ENC_CTRL.lock = 1 ∨ s.rd ENC_REGION_CFG.enable region = 1 → Answers (.encRegionEnable region value) s fun t => t.rd ENC_STATUS.refused = 1 ∧
    OnlyRegs (keys [ENC_STATUS.refused]) s t) ∧
  (∀ (s : State) (region : Fin 32) (value : Word), s.link.up = true → s.rd DEV_MODE.mode ≠ 0 → s.boot.coreUp = true → region ≠ 31 → s.rd
    ENC_CTRL.lock = 0 → s.rd ENC_REGION_CFG.enable region = 1 → hasSweep s region = false → Answers (.encRegionDisable region value) s fun t => t.rd
    ENC_REGION_CFG.enable region = 0 ∧ t.rd ENC_REGION_STATUS.state region = rsDisabled ∧ t =
    { s with regs := t.regs, enc := { s.enc with cache := (keepMeta s region).enc.cache } } ∧ SameRegs (keys [ENC_REGION_CFG.enable,
    ENC_REGION_STATUS.state] region) s t) ∧
  (∀ (s : State) (region : Fin 32) (value : Word), s.link.up = true → s.rd DEV_MODE.mode ≠ 0 → s.boot.coreUp = true → region ≠ 31 → s.rd
    ENC_CTRL.lock = 0 → s.rd ENC_REGION_CFG.enable region = 1 → hasSweep s region = true → Answers (.encRegionDisable region value) s fun t => t.rd
    ENC_STATUS.refused = 1 ∧ OnlyRegs (keys [ENC_STATUS.refused]) s t) ∧
  (∀ (s : State), s.link.up = true → s.rd DEV_MODE.mode ≠ 0 → s.boot.coreUp = true → Answers (.encConfigLock) s fun t => t.rd ENC_CTRL.lock = 1 ∧
    OnlyRegs (keys [ENC_CTRL.lock]) s t)

/-- A line that rights or regions deny is answered ACCESS_DENIED and logged as a denial; a plaintext line goes to its controller as it stands, a
  read of an encrypted line for decryption under its key. Returned data of a plaintext line is delivered as it is, of an XTS line decrypted
  under its slot, of an integrity line only if its tag agrees; else it is poisoned, counted and answered INTEGRITY_FAIL. The running
  initialisation sweep writes a sealed line of zeros with counter 0 at its due time, and its last line makes the region ACTIVE.
  (10_inline_encryption.md, 09_dram_controller.md) -/
def Obligations.EncryptionEngineServesLines : Prop :=
  (∀ (s : State) (init : Nat) (tag : Fin 256) (r : NocReq) (metadata : MetaFind), reqOf s init tag = some r → opOf s init tag = none → servable s r =
    true → targetOf (locOf r.pa + 64 * r.done) = .dram → s.enc.ops = [] → r.badFlits = [] → arrive s init tag = s → lineBusy s ((locOf r.pa + 64 *
    r.done) / 64) = false → resolve s r (locOf r.pa + 64 * r.done) = .deny → Answers (.encRequest init tag metadata) s fun t => (∀ q ∈ reqOf t init
    tag, q.done = r.done + 1 ∧ q.status = worseStatus r.status Status.accessDenied.code) ∧ t.rd NOC_DENY_PA_HI.initiator = init ∧ t.rd
    ENC_FAIL_PA_LO.kind = 1 ∧ t.rd ENC_ERR_COUNTS.rights_denied = satAdd ENC_ERR_COUNTS.rights_denied.width (s.rd ENC_ERR_COUNTS.rights_denied) 1 % 2
    ^ ENC_ERR_COUNTS.rights_denied.width ∧ (t.safe.log.getLast?.map (fun e => (e.kind, e.unit))) = some (.encFailure, (init : Nat)) ∧ t.dram = s.dram
    ∧ t.enc.tags = s.enc.tags ∧ t =
    { s with now := t.now, tim := t.tim, regs := t.regs, safe := t.safe, link := t.link, outbox := t.outbox, enc := { s.enc with ops := t.enc.ops }, noc := { s.noc with reqs := t.noc.reqs } })
    ∧
  (∀ (s : State) (init : Nat) (tag : Fin 256) (r : NocReq) (metadata : MetaFind), reqOf s init tag = some r → opOf s init tag = none → servable s r =
    true → targetOf (locOf r.pa + 64 * r.done) = .dram → s.enc.ops = [] → r.badFlits = [] → arrive s init tag = s → lineBusy s ((locOf r.pa + 64 *
    r.done) / 64) = false → r.write = false → resolve s r (locOf r.pa + 64 * r.done) = .plain → Answers (.encRequest init tag metadata) s fun t =>
    t.now = max s.now (reachTick s r) ∧ t = { s with now := t.now, tim := t.tim, enc := { s.enc with ops := t.enc.ops } } ∧ t.enc.ops.map (fun o =>
    (o.req.pa, o.req.line, o.req.op, o.region, o.stage)) = [(r.pa + 64 * r.done, (locOf r.pa + 64 * r.done) / 64, .read, none, .toController)]) ∧
  (∀ (s : State) (init : Nat) (tag : Fin 256) (r : NocReq) (metadata : MetaFind) (n : Nat) (key : Nat), reqOf s init tag = some r → opOf s init tag =
    none → servable s r = true → targetOf (locOf r.pa + 64 * r.done) = .dram → s.enc.ops = [] → r.badFlits = [] → arrive s init tag = s → lineBusy s
    ((locOf r.pa + 64 * r.done) / 64) = false → r.write = false → resolve s r (locOf r.pa + 64 * r.done) = .region n key false → rgIntegrity s n =
    false → Answers (.encRequest init tag metadata) s fun t => t.now = max s.now (reachTick s r) ∧ t =
    { s with now := t.now, tim := t.tim, enc := { s.enc with ops := t.enc.ops } } ∧ t.enc.ops.map (fun o => (o.req.line, o.req.op, o.key, o.region,
    o.stored)) = [((locOf r.pa + 64 * r.done) / 64, .read, key, some n, false)]) ∧
  (∀ (s : State) (init : Nat) (tag : Fin 256) (r : NocReq) (o : EncOp) (d : Line), reqOf s init tag = some r → opOf s init tag = some o → r.write =
    false → o.stage = .returned 0 d → o.need = [] → o.stored = false → o.region = none → Answers (.encReadComplete init tag) s fun t => (∀ q ∈ reqOf
    t init tag, q.respData = r.respData ++ [d] ∧ q.respPoison = r.respPoison ∧ q.done = r.done + 1 ∧ q.status = r.status) ∧ opOf t init tag = none ∧
    t = { s with enc := { s.enc with ops := t.enc.ops }, noc := { s.noc with reqs := t.noc.reqs } }) ∧
  (∀ (s : State) (init : Nat) (tag : Fin 256) (r : NocReq) (o : EncOp) (d : Line) (n : Nat), reqOf s init tag = some r → opOf s init tag = some o →
    r.write = false → o.stage = .returned 0 d → o.need = [] → o.stored = false → o.merge = false → o.region = some n → rgMode s n = moXts → Answers
    (.encReadComplete init tag) s fun t => (∀ q ∈ reqOf t init tag, q.respData = r.respData ++ [xtsOpen (keyMat s (lineKey s n (o.req.line - rgBase s
    n * 64)).1) o.req.line d] ∧ q.status = r.status) ∧ opOf t init tag = none ∧ t =
    { s with enc := { s.enc with ops := t.enc.ops }, noc := { s.noc with reqs := t.noc.reqs } }) ∧
  (∀ (s : State) (init : Nat) (tag : Fin 256) (r : NocReq) (o : EncOp) (d : Line) (n : Nat), reqOf s init tag = some r → opOf s init tag = some o →
    r.write = false → o.stage = .returned 0 d → o.need = [] → o.stored = false → o.region = some n → rgIntegrity s n = true → Answers
    (.encReadComplete init tag) s fun t => (openLine s n o.req.line (lineKey s n (o.req.line - rgBase s n * 64)) d = none → lineMarked s n o.req.line
    = false → (∀ q ∈ reqOf t init tag, q.status = worseStatus r.status Status.integrityFail.code ∧ q.respData = r.respData ++ [0]) ∧ lineMarked t n
    o.req.line = true ∧ t.rd ENC_ERR_COUNTS.integrity_fail = satAdd ENC_ERR_COUNTS.integrity_fail.width (s.rd ENC_ERR_COUNTS.integrity_fail) 1 % 2 ^
    ENC_ERR_COUNTS.integrity_fail.width) ∧ (lineMarked s n o.req.line = true → (∀ q ∈ reqOf t init tag, q.status = worseStatus r.status
    Status.integrityFail.code) ∧ t.regs = s.regs) ∧ t.dram = s.dram) ∧
  (∀ (s : State) (f : LineFind) (m : MetaFind) (w : Sweep) (rest : List Sweep), s.enc.sweeps = w :: rest → w.kind = .init → nocRunning s = true →
    w.region < 32 → w.work = none → ctrlAccepts s (ctrlOfLoc s ((rgBase s w.region * 64 + s.rd ENC_REGION_PROGRESS.line w.region) * 64)) = true →
    lineBusy s (rgBase s w.region * 64 + s.rd ENC_REGION_PROGRESS.line w.region) = false → s.enc.cache = [] → (ctrl s (ctrlOfLoc s ((rgBase s
    w.region * 64 + s.rd ENC_REGION_PROGRESS.line w.region) * 64))).writes = [] → s.rd ENC_REGION_PROGRESS.line w.region + 1 < rgLines s w.region →
    Answers (.sweepLine f m) s fun t => t.now = max s.now w.due ∧ t.rd ENC_REGION_PROGRESS.line w.region = (s.rd ENC_REGION_PROGRESS.line w.region +
    1) % 2 ^ ENC_REGION_PROGRESS.line.width ∧ (ctrl t (ctrlOfLoc s ((rgBase s w.region * 64 + s.rd ENC_REGION_PROGRESS.line w.region) *
    64))).writes.map (fun q => (q.line, q.data)) = [(rgBase s w.region * 64 + s.rd ENC_REGION_PROGRESS.line w.region, (sealLine s w.region (rgBase s
    w.region * 64 + s.rd ENC_REGION_PROGRESS.line w.region) 0 (rgKey s w.region, s.rd ENC_REGION_EPOCH.epoch w.region) 0).1)] ∧ (rgIntegrity s
    w.region = true → (tagEntry t (rgBase s w.region * 64 + s.rd ENC_REGION_PROGRESS.line w.region)).counter = 0) ∧ t.enc.sweeps =
    { w with due := t.now + 256 * nsTicks / max 1 (s.rd ENC_CTRL.sweep_rate) } :: rest ∧ SameRegs (keys [ENC_REGION_PROGRESS.line] w.region) s t ∧ t
    = { s with now := t.now, tim := t.tim, regs := t.regs, dram := t.dram, enc := t.enc }) ∧
  (∀ (s : State) (f : LineFind) (m : MetaFind) (w : Sweep), s.enc.sweeps = [w] → w.kind = .init → nocRunning s = true → w.region < 32 → w.work = none
    → ctrlAccepts s (ctrlOfLoc s ((rgBase s w.region * 64 + s.rd ENC_REGION_PROGRESS.line w.region) * 64)) = true → lineBusy s (rgBase s w.region *
    64 + s.rd ENC_REGION_PROGRESS.line w.region) = false → s.enc.cache = [] → (ctrl s (ctrlOfLoc s ((rgBase s w.region * 64 + s.rd
    ENC_REGION_PROGRESS.line w.region) * 64))).writes = [] → rgLines s w.region = s.rd ENC_REGION_PROGRESS.line w.region + 1 → Answers (.sweepLine f
    m) s fun t => t.rd ENC_REGION_STATUS.state w.region = rsActive ∧ t.enc.sweeps = [] ∧ t.rd ENC_STATUS.sweep_busy = 0 ∧ t.enc.keys = s.enc.keys ∧ t
    = { s with now := t.now, tim := t.tim, regs := t.regs, dram := t.dram, enc := t.enc })

/-- A go write with its confirmation, for a record that meets every check (its two signatures among them), fuses it: PROGRAM gives the named blank
  slot its key digests and the state PROGRAMMED, REVOKE makes a programmed slot REVOKED, DISABLE_DEBUG sets the fuse; every other slot is
  unchanged, result is SUCCESS and done is 1. A record that fails a check changes no fuse, and result names the status. SEC_STATUS follows the
  fuses. A go write without the confirmation byte does nothing. (11_security_and_attestation.md) -/
def Obligations.OwnerRecordsAreFused : Prop :=
  (∀ (s : State) (confirm : Byte) (d : List Byte), s.link.up = true → s.rd DEV_MODE.mode ≠ 0 → s.boot.coreUp = true → s.sec.ops = [] → confirm = 0x5A
    → s.rd SEC_OWNER_CTRL.busy = 0 → porterUp s = true → field d 6 1 = okProgram → Answers (.ownerProgram confirm (some d) false) s fun t =>
    (ownerChecks s (some d) ≠ .success → t.rd SEC_OWNER_CTRL.result = (ownerChecks s (some d)).code ∧ t.rd SEC_OWNER_CTRL.done = 1 ∧ OnlyRegs (keys
    [SEC_OWNER_CTRL.result, SEC_OWNER_CTRL.done]) s t) ∧ (ownerChecks s (some d) = .success → ownerSlot t (field d 7 1) =
    { bits := 1, ed := BitVec.ofNat 256 (field d 0x30 32), ml := BitVec.ofNat 256 (field d 0x50 32) } ∧ (∀ m : Nat, m < 4 → m ≠ (field d 7 1) →
    ownerSlot t m = ownerSlot s m) ∧ t.rd SEC_OWNER_CTRL.result = Status.success.code ∧ t.rd SEC_OWNER_CTRL.done = 1 ∧ t.rd SEC_STATUS.owner_slots =
    ownerSlotBits t % 256 ∧ SameRegs (keys [SEC_OWNER_CTRL.result, SEC_OWNER_CTRL.done, SEC_STATUS.owner_slots, SEC_STATUS.debug_disabled]) s t ∧ t =
    { s with regs := t.regs, sec := { s.sec with slots := t.sec.slots } })) ∧
  (∀ (s : State) (confirm : Byte) (d : List Byte), s.link.up = true → s.rd DEV_MODE.mode ≠ 0 → s.boot.coreUp = true → s.sec.ops = [] → confirm = 0x5A
    → s.rd SEC_OWNER_CTRL.busy = 0 → porterUp s = true → field d 6 1 = okRevoke → s.rd SEC_STATUS.debug_open = 0 → s.sec.expires = none → Answers
    (.ownerRevoke confirm (some d) false) s fun t => (ownerChecks s (some d) ≠ .success → t.rd SEC_OWNER_CTRL.result = (ownerChecks s (some d)).code
    ∧ t.rd SEC_OWNER_CTRL.done = 1 ∧ OnlyRegs (keys [SEC_OWNER_CTRL.result, SEC_OWNER_CTRL.done]) s t) ∧ (ownerChecks s (some d) = .success →
    ownerSlot t (field d 7 1) = { ownerSlot s (field d 7 1) with bits := 3 } ∧ (∀ m : Nat, m < 4 → m ≠ (field d 7 1) → ownerSlot t m = ownerSlot s m)
    ∧ t.rd SEC_OWNER_CTRL.result = Status.success.code ∧ t.rd SEC_OWNER_CTRL.done = 1 ∧ t.rd SEC_STATUS.owner_slots = ownerSlotBits t % 256 ∧
    SameRegs (keys [SEC_OWNER_CTRL.result, SEC_OWNER_CTRL.done, SEC_STATUS.owner_slots, SEC_STATUS.debug_disabled]) s t ∧ t =
    { s with regs := t.regs, sec := { s.sec with slots := t.sec.slots } })) ∧
  (∀ (s : State) (confirm : Byte) (d : List Byte), s.link.up = true → s.rd DEV_MODE.mode ≠ 0 → s.boot.coreUp = true → s.sec.ops = [] → confirm = 0x5A
    → s.rd SEC_OWNER_CTRL.busy = 0 → porterUp s = true → field d 6 1 = okDisable → Answers (.ownerDisableDebug confirm (some d)) s fun t =>
    (ownerChecks s (some d) ≠ .success → t.rd SEC_OWNER_CTRL.result = (ownerChecks s (some d)).code ∧ t.rd SEC_OWNER_CTRL.done = 1 ∧ OnlyRegs (keys
    [SEC_OWNER_CTRL.result, SEC_OWNER_CTRL.done]) s t) ∧ (ownerChecks s (some d) = .success → t.sec = { s.sec with debugDisabled := true } ∧ t.rd
    SEC_OWNER_CTRL.result = Status.success.code ∧ t.rd SEC_OWNER_CTRL.done = 1 ∧ t.rd SEC_STATUS.debug_disabled = 1 ∧ SameRegs (keys
    [SEC_OWNER_CTRL.result, SEC_OWNER_CTRL.done, SEC_STATUS.owner_slots, SEC_STATUS.debug_disabled]) s t ∧ t =
    { s with regs := t.regs, sec := t.sec })) ∧
  (∀ (s : State) (confirm : Byte) (d : Option (List Byte)) (cut : Bool), confirm ≠ 0x5A → s.link.up = true → s.rd DEV_MODE.mode ≠ 0 → s.boot.coreUp =
    true → Answers (.ownerProgram confirm d cut) s fun t => t = s) ∧
  (∀ (s : State) (confirm : Byte) (cut : Bool), s.link.up = true → s.rd DEV_MODE.mode ≠ 0 → s.boot.coreUp = true → s.sec.ops = [] → confirm = 0x5A →
    s.rd SEC_OWNER_CTRL.busy = 0 → porterUp s = true → s.rd DEV_MODE.mode = modeRun → Answers (.ownerRevoke confirm none cut) s fun t => t.rd
    SEC_OWNER_CTRL.result = Status.modeForbids.code ∧ t.rd SEC_OWNER_CTRL.done = 1 ∧ OnlyRegs (keys [SEC_OWNER_CTRL.result, SEC_OWNER_CTRL.done]) s
    t)

/-- A debug session ends at its time: rights and debug_open clear and a new nonce is drawn, a free value. DEBUG_UNLOCK with close ends the session
  and completes SUCCESS; with a token it reads the host memory that it names. ATTEST writes the report to host memory and gives its length.
  KEY_INSTALL with generate fills an idle slot with a random key, a free value, and makes it INSTALLED; KEY_RETIRE empties a slot; both complete
  BUSY for a slot in use. REGION_REKEY of an idle encrypted region starts its sweep: the region is REKEYING under its new key, the previous one
  shown. (11_security_and_attestation.md, 10_inline_encryption.md, 15_command_set.md) -/
def Obligations.DebugSessionsAttestationAndKeys : Prop :=
  (∀ (s : State) (n : Nat), s.sec.expires = some n → s.link.tracks = [] → Answers (.debugSessionExpiry) s fun t => t.sec =
    { s.sec with expires := none } ∧ t.now = max s.now n ∧ t.rd SEC_STATUS.debug_open = 0 ∧ t.rd SEC_STATUS.grants = 0 ∧ (∀ k : Nat, k < 4 → t.rd
    SEC_DEBUG_NONCE.bytes k = bits (Config.free 128 s.free).toNat (32 * k) 32) ∧ SameRegs (keys [SEC_STATUS.debug_open, SEC_STATUS.grants,
    SEC_STATUS.debug_signer, SEC_DEBUG_REMAIN.seconds] ++ allKeys [SEC_DEBUG_NONCE.bytes] 4) s t ∧ t =
    { s with now := t.now, tim := t.tim, regs := t.regs, sec := t.sec, free := s.free + 1, link := t.link } ∧ t.link = s.link) ∧
  (∀ (s : State) (id : Nat) (u : Track) (n : Nat), Startable s id 0x71 u → (u.par 0x1C 1).testBit 0 = true → u.par 0x10 8 = 0 → u.par 0x18 4 = 0 →
    s.sec.expires = some n → s.sec.ops = [] → s.link.tracks = [u] → Answers (.debugUnlock id) s fun t => ended t id .success = true ∧ t.sec =
    { s.sec with expires := none } ∧ t.rd SEC_STATUS.debug_open = 0 ∧ t.rd SEC_STATUS.grants = 0 ∧ (∀ k : Nat, k < 4 → t.rd SEC_DEBUG_NONCE.bytes k =
    bits (Config.free 128 s.free).toNat (32 * k) 32) ∧ t =
    { s with regs := t.regs, sec := t.sec, free := s.free + 1, link := { s.link with tracks := t.link.tracks } }) ∧
  (∀ (s : State) (id : Nat) (u : Track), Startable s id 0x71 u → (u.par 0x1C 1).testBit 0 = false → s.sec.ops = [] → u.par 0x10 8 % 8 = 0 → u.par
    0x18 4 = 5421 → Answers (.debugUnlock id) s fun t => underWay t id = true ∧ t.sec = { s.sec with ops := [.command id none] } ∧ t.outbox =
    s.outbox ++ [.hostRead id (u.par 0x10 8) 5421] ∧ t.link.reads = s.link.reads ++
    [{ id := id, addr := u.par 0x10 8, length := 5421, got := [], at_ := s.now }] ∧ OnlyTrack id
    { s with outbox := t.outbox, sec := t.sec, link := { s.link with reads := t.link.reads } } t) ∧
  (∀ (s : State) (id : Nat) (u : Track), Startable s id 0x70 u → (u.par 0x1C 1).testBit 0 = false → s.sec.ops = [] → s.link.up = true → u.par 0x10 8
    % 8 = 0 → 4128 ≤ u.par 0x18 4 → Answers (.attest id) s fun t => endedWith t id .success 4128 0 = true ∧ t.outbox = s.outbox ++ [.hostWrite (u.par
    0x10 8) (attestReport s (s.fresh 256).1 (leBytes 32 (u.par 0x20 32)))] ∧ OnlyTrack id { s with outbox := t.outbox, free := s.free + 1 } t) ∧
  (∀ (s : State) (id : Nat) (u : Track), Startable s id 0x30 u → u.par 0x10 1 ≠ 0 → u.par 0x10 1 ≤ 62 → (u.par 0x11 1).testBit 0 = true → u.par 0x18
    8 = 0 → u.par 0x20 4 = 0 → slotInUse s (u.par 0x10 1) = false → Answers (.keyInstall id) s fun t => ended t id .success = true ∧ slotState t
    (u.par 0x10 1) = 1 ∧ keyMat t (u.par 0x10 1) = Config.free 512 s.free ∧ (∀ m : Nat, m < 64 → m ≠ u.par 0x10 1 → slotState t m = slotState s m ∧
    keyMat t m = keyMat s m) ∧ OnlyTrack id { s with regs := t.regs, free := s.free + 1, enc := { s.enc with keys := t.enc.keys } } t ∧ SameRegs
    [ENC_KEY_STATE.state.key (u.par 0x10 1 / 16) 0] s t) ∧
  (∀ (s : State) (id : Nat) (u : Track), Startable s id 0x31 u → u.par 0x10 1 ≠ 0 → u.par 0x10 1 ≤ 62 → slotInUse s (u.par 0x10 1) = false → Answers
    (.keyRetire id) s fun t => ended t id .success = true ∧ slotState t (u.par 0x10 1) = 0 ∧ keyMat t (u.par 0x10 1) = 0 ∧ (∀ m : Nat, m < 64 → m ≠
    u.par 0x10 1 → slotState t m = slotState s m ∧ keyMat t m = keyMat s m) ∧ OnlyTrack id
    { s with regs := t.regs, enc := { s.enc with keys := t.enc.keys } } t ∧ SameRegs [ENC_KEY_STATE.state.key (u.par 0x10 1 / 16) 0] s t) ∧
  (∀ (s : State) (id : Nat) (u : Track), Startable s id 0x31 u → u.par 0x10 1 ≠ 0 → u.par 0x10 1 ≤ 62 → slotInUse s (u.par 0x10 1) = true → Answers
    (.keyRetire id) s fun t => ended t id .busy = true ∧ OnlyTrack id s t) ∧
  (∀ (s : State) (id : Nat) (u : Track), Startable s id 0x32 u → u.par 0x11 1 ≠ 0 → u.par 0x11 1 ≤ 63 → u.par 0x10 1 ≤ 30 → rgEnabled s (u.par 0x10
    1) = true → rgMode s (u.par 0x10 1) ≠ moPlain → s.enc.sweeps = [] → slotState s (u.par 0x11 1) = 1 → Answers (.regionRekey id) s fun t =>
    underWay t id = true ∧ rgState t (u.par 0x10 1) = rsRekeying ∧ rgKey t (u.par 0x10 1) = u.par 0x11 1 ∧ t.rd ENC_REGION_STATUS.prev_key_id (u.par
    0x10 1) = rgKey s (u.par 0x10 1) ∧ t.rd ENC_REGION_EPOCH.epoch (u.par 0x10 1) = 0 ∧ t.rd ENC_REGION_PROGRESS.line (u.par 0x10 1) = 0 ∧ t.rd
    ENC_STATUS.sweep_busy = 1 ∧ t.enc.sweeps.map (fun w => (w.region, w.kind, w.oldKey)) = [(u.par 0x10 1, .rekey id (u.par 0x11 1), rgKey s (u.par
    0x10 1))] ∧ OnlyTrack id { s with regs := t.regs, enc := { s.enc with sweeps := t.enc.sweeps } } t)

/-- A load with valid parameters, the retained store intact and no load in progress starts: phase CHECKING, the header is read from host memory and
  no plane has changed; with a load in progress it completes BUSY. A dictionary record of a full image writes its frame, with its signature, at
  the next position of the landing plane and nowhere else; a repeat record writes the last frame again. A partial image's write outside its
  region ends the load REGION_VIOLATION and discards the landing plane. At the end of the stream both signatures decide: the load goes on to its
  programs, or ends with their status. What is left of the stored image then counts as the loader's bytes on the network, unless counting is
  frozen (that whole lines are counted as they are written is the model's reading, log entry 146). (12_configuration_images.md,
  15_command_set.md) -/
def Obligations.ImageLoadsStream : Prop :=
  (∀ (s : State) (id : Nat) (u : Track), Startable s id 0x10 u → u.par 0x1C 1 ≤ 7 → u.par 0x10 8 % 8 = 0 → s.rd CFG_RETAIN_STATUS.store_lost = 0 →
    s.imgs.load = none → 0x400 + sigBlock ≤ u.par 0x18 4 → Answers (.imageLoad id) s fun t => underWay t id = true ∧ t.rd CFG_LOAD_STATUS.phase =
    phChecking ∧ t.rd CFG_LOAD_STATUS.target = u.par 0x1C 1 ∧ t.rd CFG_LOAD_STATUS.partial = 0 ∧ t.imgs.load.map (fun l => (l.id, l.ctx, l.isPartial,
    l.addr, l.length)) = some (id, u.par 0x1C 1, false, u.par 0x10 8, u.par 0x18 4) ∧ t.outbox = s.outbox ++ [.hostRead id (u.par 0x10 8) 0x400] ∧
    t.ctxs = s.ctxs ∧ OnlyTrack id
    { s with regs := t.regs, imgs := { s.imgs with load := t.imgs.load }, outbox := t.outbox, link := { s.link with reads := t.link.reads } } t ∧
    SameRegs (keys [CFG_LOAD_STATUS.phase, CFG_LOAD_STATUS.partial, CFG_LOAD_STATUS.target, CFG_LOAD_STATUS.encrypted]) s t) ∧
  (∀ (s : State) (id : Nat) (u : Track), Startable s id 0x11 u → u.par 0x1C 1 ≤ 7 → u.par 0x10 8 % 8 = 0 → s.rd CFG_RETAIN_STATUS.store_lost = 0 →
    s.imgs.load = none → 0x400 + sigBlock ≤ u.par 0x18 4 → Answers (.imageLoadPartial id) s fun t => underWay t id = true ∧ t.rd
    CFG_LOAD_STATUS.phase = phChecking ∧ t.rd CFG_LOAD_STATUS.target = u.par 0x1C 1 ∧ t.rd CFG_LOAD_STATUS.partial = 1 ∧ t.imgs.load.map (fun l =>
    (l.id, l.ctx, l.isPartial, l.addr, l.length)) = some (id, u.par 0x1C 1, true, u.par 0x10 8, u.par 0x18 4) ∧ t.outbox = s.outbox ++ [.hostRead id
    (u.par 0x10 8) 0x400] ∧ t.ctxs = s.ctxs ∧ OnlyTrack id
    { s with regs := t.regs, imgs := { s.imgs with load := t.imgs.load }, outbox := t.outbox, link := { s.link with reads := t.link.reads } } t ∧
    SameRegs (keys [CFG_LOAD_STATUS.phase, CFG_LOAD_STATUS.partial, CFG_LOAD_STATUS.target, CFG_LOAD_STATUS.encrypted]) s t) ∧
  (∀ (s : State) (id : Nat) (u : Track) (l : Load), Startable s id 0x10 u → u.par 0x1C 1 ≤ 7 → u.par 0x10 8 % 8 = 0 → s.rd
    CFG_RETAIN_STATUS.store_lost = 0 → s.imgs.load = some l → Answers (.imageLoad id) s fun t => ended t id .busy = true ∧ OnlyTrack id s t) ∧
  (∀ (s : State) (l : Load) (g : Seg) (dict : Seg), s.pair.prepared = none → s.imgs.load = some l → loadPhase s = phStreaming → dieOpen s 2 = true →
    dieOpen s 3 = true → l.isPartial = false → (segs l.head)[l.seg]? = some g → g.type = 2 → l.items ≠ g.count → g.off + l.at_ + 4 ≤ l.plain.length →
    segOf l.head 1 = some dict → field l.plain (g.off + l.at_) 4 < dict.count → dict.count ≤ 228352 → l.pos < 225280 → dict.off + 128 * (field
    l.plain (g.off + l.at_) 4 + 1) ≤ l.plain.length → Answers (.imageFrameRecord) s fun t => planeFrame t 8 l.pos = BitVec.ofNat 1024 (field l.plain
    (dict.off + 128 * field l.plain (g.off + l.at_) 4) 128) ∧ sparseFind t.ctxs.sigs (planeKey 8 l.pos) = some (frameSig l.ctx l.pos (planeFrame t 8
    l.pos)) ∧ t.ctxs.planes.filter (fun p => p.1 != planeKey 8 l.pos) = s.ctxs.planes.filter (fun p => p.1 != planeKey 8 l.pos) ∧ t.rd
    CFG_LOAD_POSITION.frame = (l.pos + 1) % 2 ^ CFG_LOAD_POSITION.frame.width ∧ t.imgs.load.map (fun m => (m.pos, m.items, m.at_, m.written, m.seg))
    = some (l.pos + 1, l.items + 1, l.at_ + 4, l.written + 1, l.seg) ∧ t =
    { s with regs := t.regs, ctxs := { s.ctxs with planes := t.ctxs.planes, sigs := t.ctxs.sigs }, imgs := { s.imgs with load := t.imgs.load } } ∧
    SameRegs (keys [CFG_LOAD_STATUS.phase, CFG_LOAD_POSITION.frame]) s t) ∧
  (∀ (s : State) (l : Load) (g : Seg) (d : Frame), s.pair.prepared = none → s.imgs.load = some l → loadPhase s = phStreaming → dieOpen s 2 = true →
    dieOpen s 3 = true → l.isPartial = false → (segs l.head)[l.seg]? = some g → g.type = 2 → l.items ≠ g.count → g.off + l.at_ + 4 ≤ l.plain.length →
    field l.plain (g.off + l.at_) 4 = 0x40000001 → l.last = some d → l.pos < 225280 → Answers (.imageFrameRecord) s fun t => planeFrame t 8 l.pos = d
    ∧ t.ctxs.planes.filter (fun p => p.1 != planeKey 8 l.pos) = s.ctxs.planes.filter (fun p => p.1 != planeKey 8 l.pos) ∧ t.imgs.load.map (fun m =>
    (m.pos, m.items, m.written)) = some (l.pos + 1, l.items + 1, l.written + 1)) ∧
  (∀ (s : State) (l : Load) (g : Seg) (d : Frame), s.pair.prepared = none → s.imgs.load = some l → loadPhase s = phStreaming → dieOpen s 2 = true →
    dieOpen s 3 = true → l.isPartial = true → (segs l.head)[l.seg]? = some g → g.type = 2 → l.items ≠ g.count → g.off + l.at_ + 4 ≤ l.plain.length →
    field l.plain (g.off + l.at_) 4 = 0x40000001 → l.last = some d → l.pos < 225280 → frameAllowed l.head l.pos = false → underWay s l.id = true →
    Answers (.imageFrameRecord) s fun t => ended t l.id .regionViolation = true ∧ t.imgs.load = none ∧ t.rd CFG_LOAD_VIOLATION.where = l.pos ∧ t.rd
    CFG_LOAD_STATUS.phase = phIdle ∧ t.rd CFG_LOAD_STATUS.last_status = Status.regionViolation.code ∧ (∀ f : Nat, f < 64 → planeFrame t 8 f = 0) ∧
    t.ctxs.planes.filter (fun p => p.1 / 2 ^ 18 != 8) = s.ctxs.planes.filter (fun p => p.1 / 2 ^ 18 != 8) ∧ OnlyTrack l.id
    { s with regs := t.regs, ctxs := { s.ctxs with planes := t.ctxs.planes, sigs := t.ctxs.sigs }, imgs := { s.imgs with load := none }, link := { s.link with reads := t.link.reads } }
    t) ∧
  (∀ (s : State) (l : Load), s.pair.prepared = none → s.imgs.load = some l → loadPhase s = phStreaming → l.stream.length + 0x400 = hdStored l.head +
    sigBlock → hdSegs l.head ≤ l.seg → indexOk l = true → underWay s l.id = true → Answers (.imageStreamEnd) s fun t => (dualVerify s (imageSigned l)
    none = .success → t.imgs.load = some { l with verified := true, since := s.now } ∧ t.rd CFG_LOAD_STATUS.phase = phPrograms ∧ t.ctxs = s.ctxs) ∧
    (dualVerify s (imageSigned l) none ≠ .success → ended t l.id (dualVerify s (imageSigned l) none) = true ∧ t.imgs.load = none ∧ t.rd
    CFG_LOAD_STATUS.phase = phIdle) ∧ t.ctxs.planes.filter (fun p => p.1 / 2 ^ 18 != 8) = s.ctxs.planes.filter (fun p => p.1 / 2 ^ 18 != 8) ∧
    (nocRunning s = true → s.rdb NOC_STAT_CTRL.freeze = false → t.rd NOC_BYTES_LO.bytes_lo 0xA1 = (s.rd NOC_BYTES_LO.bytes_lo 0xA1 + 64 * ((hdPlain
    l.head + sigBlock + 63) / 64 - storeLines l)) % 2 ^ 32) ∧ (s.rdb NOC_STAT_CTRL.freeze = true → t.rd NOC_BYTES_LO.bytes_lo 0xA1 = s.rd
    NOC_BYTES_LO.bytes_lo 0xA1) ∧ t =
    { s with regs := t.regs, ctxs := { s.ctxs with planes := t.ctxs.planes, sigs := t.ctxs.sigs }, imgs := { s.imgs with load := t.imgs.load }, link := { s.link with reads := t.link.reads, tracks := t.link.tracks }, free := t.free })

/-- The copy of a partial image's target plane takes 40 us and gives the landing plane every frame of the target; streaming then begins. A verified
  load whose target no latch set holds makes the landing plane the target's plane, frame for frame, with every other plane unchanged: the
  context is COMMITTED, holds the new digest, key mask and chain, and the command completes SUCCESS. A snapshot that debug rights and the active
  image permit waits for its capture edge; there the values go to host memory and the command completes with their length; without the rights it
  ends ACCESS_DENIED. (12_configuration_images.md, 04_contexts.md) -/
def Obligations.PlanesRemapAndSnapshots : Prop :=
  (∀ (s : State) (l : Load), s.imgs.load = some l → loadPhase s = phCopying → l.ctx < 8 → Answers (.landingPlaneCopyEnd) s fun t => (∀ f : Nat, f <
    frameCount → planeFrame t 8 f = planeFrame s l.ctx f) ∧ t.ctxs.planes.filter (fun p => p.1 / 2 ^ 18 != 8) = s.ctxs.planes.filter (fun p => p.1 /
    2 ^ 18 != 8) ∧ t.now = max s.now (l.since + 40 * usTicks) ∧ t.rd CFG_LOAD_STATUS.phase = phStreaming ∧ t.outbox = s.outbox ++ [.hostRead l.id
    (l.addr + 0x400) (hdStored l.head + sigBlock - 0x400)] ∧ t =
    { s with now := t.now, tim := t.tim, regs := t.regs, ctxs := { s.ctxs with planes := t.ctxs.planes, sigs := t.ctxs.sigs }, imgs := { s.imgs with load := t.imgs.load }, outbox := t.outbox, link := { s.link with reads := t.link.reads } })
    ∧
  (∀ (s : State) (l : Load) (u : Track), s.pair.prepared = none → s.imgs.load = some l → l.verified = true → l.ctx < 8 → s.ctxs.wb = none → dieOpen s
    2 = true → dieOpen s 3 = true → s.rdb CFG_RETAIN_STATUS.store_lost = false → l.progs = [] → trackOf s l.id = some u → u.phase = .started → u.pair
    = none → activeCtx s ≠ some l.ctx → s.ctxs.staging = none → s.rd CFG_LATCH_STATUS.staged_state = stEmpty → Answers (.landingPlaneRemap) s fun t
    => (∀ f : Nat, f < frameCount → planeFrame t l.ctx f = planeFrame s 8 f) ∧ (∀ f : Nat, f < frameCount → planeFrame t 8 f = planeFrame s l.ctx f)
    ∧ t.ctxs.planes.filter (fun p => p.1 / 2 ^ 18 != 8 && p.1 / 2 ^ 18 != l.ctx) = s.ctxs.planes.filter (fun p => p.1 / 2 ^ 18 != 8 && p.1 / 2 ^ 18
    != l.ctx) ∧ t.rd CFG_CTX_STATUS.state l.ctx = 1 ∧ sparseFind t.imgs.ctx l.ctx = some (newImage s l) ∧ t.imgs.load = none ∧ t.now = s.now +
    hcTicks s ∧ endedWith t l.id .success ((newDigest s l).toNat % 2 ^ 64) (l.written % 2 ^ 32) = true ∧ t.ctxs.active = s.ctxs.active ∧
    t.ctxs.staged = s.ctxs.staged ∧ t.rd CFG_LOAD_STATUS.phase = phIdle ∧ t.rd CFG_LOAD_STATUS.last_status = Status.success.code) ∧
  (∀ (s : State) (id : Nat) (u : Track), Startable s id 0x16 u → u.par 0x10 1 ≤ u.par 0x12 1 → u.par 0x11 1 ≤ u.par 0x13 1 → u.par 0x12 1 ≤ 63 →
    u.par 0x13 1 ≤ 79 → 64 * snapTiles u ≤ u.par 0x20 4 → u.par 0x18 8 % 8 = 0 → (u.par 0x14 1).testBit 0 = true → u.par 0x28 12 = 0 →
    s.sec.expires.isSome = true → bit (s.rd SEC_STATUS.grants) 0 = true → observable s = true → Answers (.snapshotFf id) s fun t => underWay t id =
    true ∧ OnlyTrack id s t) ∧
  (∀ (s : State) (id : Nat) (u : Track), Startable s id 0x16 u → u.par 0x10 1 ≤ u.par 0x12 1 → u.par 0x11 1 ≤ u.par 0x13 1 → u.par 0x12 1 ≤ 63 →
    u.par 0x13 1 ≤ 79 → 64 * snapTiles u ≤ u.par 0x20 4 → u.par 0x18 8 % 8 = 0 → (u.par 0x14 1).testBit 0 = true → u.par 0x28 12 = 0 → s.sec.expires
    = none → Answers (.snapshotFf id) s fun t => ended t id .accessDenied = true ∧ OnlyTrack id s t) ∧
  (∀ (s : State) (id : Nat) (u : Track) (values : List (BitVec 512)), trackOf s id = some u → u.op = 0x16 → u.phase = .started → u.committed = false
    → values.length = snapTiles u → u.par 0x12 1 ≤ 63 → (u.par 0x14 1).testBit 0 = true → observable s = true → dieOpen s 2 = true → porterUp s =
    true → s.link.up = true → moversIssue s = true → (freeMover s).isSome = true → (∀ v ∈ s.link.tracks, v.op = 0x16 → v.committed = true → v.phase ≠
    .started) → Answers (.snapshotCaptureEdge id values) s fun t => t.outbox = s.outbox ++ [.hostWrite (u.par 0x18 8) (values.flatMap (fun v =>
    leBytes 64 v.toNat))] ∧ t.now = max s.now (gridEdge s s.now) ∧ ended t id .success = true ∧ (∀ x ∈ trackOf t id, x.result = (64 * snapTiles u) %
    2 ^ 64) ∧ (∀ k : Nat, k < values.length → sparseGet 0 t.ctxs.ffs ((snapList u).getD k 0) = values.getD k 0) ∧ OnlyTrack id
    { s with now := t.now, tim := t.tim, outbox := t.outbox, ctxs := { s.ctxs with ffs := t.ctxs.ffs } } t)

/-- A vote correction is counted and changes no value. A latch check, and a plane check of a committed context, compare a frame with its golden
  signature: agreement changes nothing, a mismatch queues one repair, unless it already waits or 64 do. The next repair writes the frame from
  the first source whose signature agrees, shows the source, counts it and leaves every other frame alone; with no source the frame is lost,
  logged and the lost_frame cause set where its policy allows. A check takes 36 hc of its engine and its place moves on.
  (13_configuration_integrity.md, 22_faults_safety_and_self_test.md) -/
def Obligations.LatchesAndPlanesAreCheckedAndRepaired : Prop :=
  (∀ (s : State), dieOpen s 2 = true → Answers (.voteCorrection) s fun t => OnlyRegs (keys [INT_COUNTS.vote_corrections]) s t ∧ t.rd
    INT_COUNTS.vote_corrections = satAdd INT_COUNTS.vote_corrections.width (s.rd INT_COUNTS.vote_corrections) 1 % 2 ^
    INT_COUNTS.vote_corrections.width) ∧
  (∀ (s : State) (frame : Fin 228352), dieOpen s 2 = true → dieOpen s 3 = true → (activeCtx s).isSome = true → s.safe.injection = none → Answers
    (.latchCheckFrame frame false none false) s fun t => (frameSig (s.rd CFG_LATCH_STATUS.active_ctx) frame (latchFrame s false frame) = latchSig s
    false frame → t = s) ∧ (frameSig (s.rd CFG_LATCH_STATUS.active_ctx) frame (latchFrame s false frame) ≠ latchSig s false frame → s.integ.queue =
    [] → t.integ.queue =
    [{ ctx := s.rd CFG_LATCH_STATUS.active_ctx, frame := frame, latch := true, staged := false, injected := false, at_ := t.now }]) ∧
    t.integ.queue.length ≤ s.integ.queue.length + 1 ∧ t = { s with regs := t.regs, integ := { s.integ with queue := t.integ.queue } } ∧ SameRegs
    (keys [INT_STATUS.repair_queue, INT_STATUS.lost_frames] ++ allKeys [CFG_CTX_STATUS.repairs_pending] 8) s t) ∧
  (∀ (s : State) (frame : Fin 228352) (d : Frame), dieOpen s 2 = true → dieOpen s 3 = true → (activeCtx s).isSome = true → s.safe.injection = none →
    isLutFrame frame = true → Answers (.latchCheckFrame frame false (some d) true) s fun t => latchFrame t false frame = d ∧ t =
    { s with ctxs := { s.ctxs with active := t.ctxs.active } } ∧ t.ctxs.active.filter (fun e => e.1 != (frame : Nat)) = s.ctxs.active.filter (fun e
    => e.1 != (frame : Nat))) ∧
  (∀ (s : State) (engineB : Bool) (held : Option Frame) (c : Nat) (f : Nat), (engine s engineB).sweeping = true → (engine s engineB).pos < shareSize
    s engineB → shareFrame s engineB (engine s engineB).pos = (c, f) → c < 8 → committed s c = true → dieOpen s 3 = true → s.safe.injection = none →
    s.integ.queue = [] → Answers (.privetFrameCheck engineB held false) s fun t => planeFrame t c f = held.getD (planeFrame s c f) ∧ engine t engineB
    = { engine s engineB with pos := (engine s engineB).pos + 1, last := t.now } ∧ engine t (!engineB) = engine s (!engineB) ∧ t.now = max s.now
    ((engine s engineB).last + 36 * hcTicks s) ∧ (frameSig c f (planeFrame t c f) = sparseGet 0 s.ctxs.sigs (planeKey c f) → t.integ.queue = [] ∧
    t.regs = s.regs) ∧ (frameSig c f (planeFrame t c f) ≠ sparseGet 0 s.ctxs.sigs (planeKey c f) → t.integ.queue =
    [{ ctx := c, frame := f, latch := false, staged := false, injected := false, at_ := t.now }]) ∧ t.ctxs.planes.filter (fun e => e.1 != planeKey c
    f) = s.ctxs.planes.filter (fun e => e.1 != planeKey c f) ∧ t =
    { s with now := t.now, tim := t.tim, regs := t.regs, integ := t.integ, ctxs := { s.ctxs with planes := t.ctxs.planes } }) ∧
  (∀ (s : State) (r : Repair), dieOpen s 2 = true → dieOpen s 3 = true → nextRepair s = some r → r.latch = true → r.injected = false → (countEvent s
    1 (planeKey r.ctx r.frame)).2 = false → s.ctxs.writtenBack = [] → s.rd DEV_MODE.mode ≠ modeLead → Answers (.frameRepair) s fun t => t.integ.queue
    = s.integ.queue.erase r ∧ (∀ p, repairSource s r = some p → latchFrame t r.staged r.frame = p.2 ∧ t.rd INT_LAST_REPAIR.source = p.1 ∧ t.rd
    INT_LAST_REPAIR.latch = 1 ∧ t.rd INT_COUNTS.latch_repairs = satAdd INT_COUNTS.latch_repairs.width (s.rd INT_COUNTS.latch_repairs) 1 % 2 ^
    INT_COUNTS.latch_repairs.width ∧ t.integ.lost = s.integ.lost) ∧ (repairSource s r = none → (t.integ.lost.any (fun q => q.ctx == r.ctx && q.frame
    == r.frame)) = true ∧ t.rd INT_LAST_REPAIR.source = 3 ∧ (policyAllows s scLostFrame = true → causeSet t scLostFrame = true) ∧ t.ctxs = s.ctxs) ∧
    t.ctxs.planes = s.ctxs.planes ∧ (∀ g : Nat, g < frameCount → g ≠ r.frame → latchFrame t false g = latchFrame s false g ∧ latchFrame t true g =
    latchFrame s true g))

/-- A sweep starts at its period when the known-answer frame passes; the engine that fails it, that reports late or that is off its count, is
  FAILED: the flag, the log and SAF_DEGRADED show it, the other engine becomes sole at its next sweep, and with both failed INTERNAL_FAULT is
  raised. A finished sweep is counted. One second after INTERNAL_FAULT the internal_fault cause sets on a device that does not lead, and mutes
  it (a shadow or standalone device alike: the model's reading, log entry 14). (13_configuration_integrity.md,
  22_faults_safety_and_self_test.md) -/
def Obligations.PrivetEnginesSweep : Prop :=
  (∀ (s : State) (engineB : Bool), dieOpen s 3 = true → engineState s engineB = egSweeping → engineState s (!engineB) ≠ egFailed → (engine s
    engineB).sweeping = false → Answers (.privetSweepStart engineB true) s fun t => engine t engineB =
    { engine s engineB with sweeping := true, pos := 0, last := t.now, start := t.now } ∧ engine t (!engineB) = engine s (!engineB) ∧ t.now = max
    s.now ((engine s engineB).start + 16 * msTicks) ∧ t = { s with now := t.now, tim := t.tim, integ := t.integ } ∧ t.integ.queue = s.integ.queue) ∧
  (∀ (s : State) (engineB : Bool), dieOpen s 3 = true → engineState s engineB = egSweeping → engineState s (!engineB) = egFailed → (engine s
    engineB).sweeping = false → Answers (.privetSweepStart engineB true) s fun t => engineState t engineB = egSole ∧ engine t engineB =
    { engine s engineB with sweeping := true, pos := 0, last := t.now, start := t.now } ∧ engine t (!engineB) = engine s (!engineB) ∧ t.now = max
    s.now ((engine s engineB).start + 16 * msTicks) ∧ t = { s with now := t.now, tim := t.tim, regs := t.regs, integ := t.integ } ∧ SameRegs [if
    engineB then INT_STATUS.engine_b.key 0 0 else INT_STATUS.engine_a.key 0 0] s t) ∧
  (∀ (s : State) (engineB : Bool), dieOpen s 3 = true → engineState s engineB = egSweeping → engineState s (!engineB) = egSweeping → (engine s
    engineB).sweeping = false → Answers (.privetSweepStart engineB false) s fun t => engineState t engineB = egFailed ∧ engineState t (!engineB) =
    egSweeping ∧ t.rd (if engineB then INT_SWEEP_B.kat_fail else INT_SWEEP_A.kat_fail) = 1 ∧ (t.safe.log.getLast?.map (fun e => (e.kind, e.unit,
    e.setDegraded))) = some (.privetFailed, b2n engineB, true) ∧ t.rd SAF_DEGRADED.privet_sole = 1 ∧ t.rd INT_STATUS.internal_fault = s.rd
    INT_STATUS.internal_fault ∧ t =
    { s with now := t.now, tim := t.tim, regs := t.regs, safe := t.safe, link := t.link, outbox := t.outbox, integ := t.integ }) ∧
  (∀ (s : State) (engineB : Bool), (engine s engineB).sweeping = true → shareSize s engineB ≤ (engine s engineB).pos → s.now < (engine s
    engineB).start + sweepPeriod s engineB → Answers (.privetSweepReport engineB false) s fun t => (engine t engineB) =
    { engine s engineB with sweeping := false, count := ((engine s engineB).count + 1) % 2 ^ 24, record := ((engine s engineB).count + 1) % 2 ^ 24, report := s.now }
    ∧ t.rd (if engineB then INT_SWEEP_B.sweeps else INT_SWEEP_A.sweeps) = ((engine s engineB).count + 1) % 2 ^ 24 ∧ engine t (!engineB) = engine s
    (!engineB) ∧ t =
    { s with regs := t.regs, integ := t.integ, boot := { s.boot with sweptA := t.boot.sweptA, sweptB := t.boot.sweptB, d3Unswept := t.boot.d3Unswept } }
    ∧ SameRegs [(if engineB then INT_SWEEP_B.sweeps else INT_SWEEP_A.sweeps).key 0 0] s t) ∧
  (∀ (s : State) (engineB : Bool), dieOpen s 3 = true → engineState s engineB = egSole → engineState s (!engineB) = egFailed → s.rd DEV_MODE.mode ≠
    modeLead → Answers (.privetReportLate engineB) s fun t => engineState t engineB = egFailed ∧ engineState t (!engineB) = egFailed ∧ t.now = max
    s.now ((engine s engineB).report + 33 * msTicks) ∧ t.rd (if engineB then INT_SWEEP_B.report_late else INT_SWEEP_A.report_late) = 1 ∧ t.rd
    INT_STATUS.internal_fault = 1 ∧ t.safe.internalFaultAt.isSome = true ∧ (t.safe.log.getLast?.map (fun e => (e.kind, e.unit))) = some
    (.internalFault, 1) ∧ t.ctxs = s.ctxs) ∧
  (∀ (s : State) (n : Nat), s.safe.internalFaultAt = some n → s.rd DEV_MODE.mode ≠ modeLead → s.rd DEV_MODE.mode ≠ modeShadow → causeSet s
    scInternalFault = false → Answers (.internalFaultSafeDelay) s fun t => (policyAllows s scInternalFault = true → causeSet t scInternalFault = true
    ∧ t.rd DEV_MODE.safe_state = 1 ∧ (∀ k : Nat, k < 16 → t.rd FHL_LANE_STATUS.egress_muted k = 1) ∧ (t.safe.log.getLast?.map (fun e => (e.kind,
    e.unit))) = some (.safeCause, scInternalFault)) ∧ (policyAllows s scInternalFault = false → OnlyRegs [] { s with now := t.now, tim := t.tim } t)
    ∧ t.now = max s.now (n + secTicks) ∧ SameRegs ((causeRow scInternalFault).key 0 0 :: muteKeys ++ logKeys) s t)

/-- A slice that finds its ROM signature moves the cycle on and nothing else; one that does not repeats, at most twice a cycle, then fails: its
  group's bit and the log show it and the bist_fail cause sets where its policy allows; an absent slice is skipped and counted. BIST_RUN set 0
  counts a cycle; set 1 loops the enabled lanes back until its end, which reports the failed groups; set 2 arms an injection that ends missed at
  its bound. (22_faults_safety_and_self_test.md, 15_command_set.md) -/
def Obligations.SelfTestSlicesAndInjection : Prop :=
  (∀ (s : State) (sig : Word) (n : Nat), s.rd DEV_MODE.mode ≠ modeBoot → s.boot.dormant = false → s.safe.again = none → s.safe.deferred = [] →
    s.safe.slice = n → n < 96 → sliceScanned s n = false → sliceAbsent s n = false → s.safe.injection = none → s.safe.bistCmd = none → Answers
    (.bistSlice sig []) s fun t => (sig = romSignature s n → t =
    { s with now := t.now, tim := t.tim, safe := { s.safe with slice := n + 1, lastSlice := t.now } }) ∧ (sig ≠ romSignature s n → s.safe.repeats < 2
    → t = { s with now := t.now, tim := t.tim, safe := { s.safe with again := some n, repeats := s.safe.repeats + 1, lastSlice := t.now } }) ∧ (sig ≠
    romSignature s n → 2 ≤ s.safe.repeats → t.rd BIST_STATUS.failed = putBit (s.rd BIST_STATUS.failed) (sliceGroup n) true ∧ (t.safe.log.any (fun e
    => e.kind == .bistFail && e.unit == n)) = true ∧ (policyAllows s scBistFail = true → causeSet t scBistFail = true) ∧ t.safe.slice = n + 1 ∧
    SameRegs (degradedKeys 0 ++ keys [BIST_STATUS.failed, PRL_STATUS.fit] ++ [(causeRow scBistFail).key 0 0] ++ muteKeys ++ logKeys) s t) ∧ t.now =
    max s.now (s.safe.lastSlice + 10 * msTicks) ∧ t.stack = s.stack ∧ t.link.tracks = s.link.tracks) ∧
  (∀ (s : State) (sig : Word) (n : Nat), s.rd DEV_MODE.mode ≠ modeBoot → s.boot.dormant = false → s.safe.again = none → s.safe.deferred = [] →
    s.safe.slice = n → n < 96 → sliceScanned s n = false → s.safe.injection = none → s.safe.bistCmd = none → sliceAbsent s n = true → Answers
    (.bistSlice sig []) s fun t => t.rd BIST_STATUS.skipped = satAdd 7 (s.rd BIST_STATUS.skipped) 1 % 2 ^ 7 ∧ t =
    { s with now := t.now, tim := t.tim, regs := t.regs, safe := { s.safe with slice := n + 1, lastSlice := t.now } } ∧ SameRegs (keys
    [BIST_STATUS.skipped]) s t) ∧
  (∀ (s : State) (id : Nat) (u : Track), Startable s id 0x60 u → u.par 0x10 2 = 0 → s.safe.bistCmd = none → s.safe.intrusive = none → Answers
    (.bistRun id) s fun t => t.safe = { s.safe with bistGroups := 0, bistCmd := some { id := id, run := 0, decided := 0 } } ∧ underWay t id = true ∧
    OnlyTrack id { s with safe := t.safe } t) ∧
  (∀ (s : State) (id : Nat) (u : Track), Startable s id 0x60 u → u.par 0x10 2 = 1 → s.safe.bistCmd = none → s.safe.intrusive = none → s.rd
    DEV_MODE.mode = modeService → thermalLimit s = false → Answers (.bistRun id) s fun t => t.safe =
    { s.safe with bistGroups := 0, intrusive := some id } ∧ underWay t id = true ∧ (∀ n : Nat, n < 16 → (laneOn s n = true → laneState s n ≠
    lnDropped → (laneOf t n).looped = true ∧ laneState t n = lnAcquire) ∧ ((laneOn s n = false ∨ laneState s n = lnDropped) → laneOf t n = laneOf s
    n)) ∧ (s.rd PRL_STATUS.link_state ≠ lkOff → t.rd PRL_STATUS.link_state = lkDetect) ∧ t.stack = s.stack ∧ t.mem = s.mem ∧ t.sec = s.sec ∧ t.ctxs =
    s.ctxs) ∧
  (∀ (s : State) (id : Nat) (u : Track) (mech : Nat), Startable s id 0x60 u → u.par 0x10 1 = 2 → u.par 0x11 1 = mech → mech = 1 ∨ mech = 2 ∨ mech = 3
    ∨ mech = 4 ∨ (8 ≤ mech ∧ mech ≤ 12) → s.rd DEV_MODE.mode = modeService ∨ s.rd DEV_MODE.mode = modeAssembly → thermalLimit s = false →
    s.safe.injection = none → injTarget s mech (s.rd SAF_INJ_CFG.target) = true → s.rd SAF_INJ_CFG.variant ≤ injVariants mech (s.rd
    SAF_INJ_CFG.target) → Answers (.bistRun id) s fun t => t.safe =
    { s.safe with injection := some { mech := mech, target := s.rd SAF_INJ_CFG.target, variant := s.rd SAF_INJ_CFG.variant, id := id, since := s.now } }
    ∧ t.rd SAF_INJ_STATUS.armed = 1 ∧ t.rd SAF_INJ_STATUS.mechanism = mech ∧ t.rd SAF_INJ_STATUS.detected = 0 ∧ t.rd SAF_INJ_STATUS.missed = 0 ∧
    underWay t id = true ∧ OnlyTrack id { s with safe := t.safe, regs := t.regs } t ∧ SameRegs (keys [SAF_INJ_STATUS.armed, SAF_INJ_STATUS.mechanism,
    SAF_INJ_STATUS.detected, SAF_INJ_STATUS.missed]) s t) ∧
  (∀ (s : State) (i : Injection), s.safe.injection = some i → underWay s i.id = true → Answers (.injectionTimeout) s fun t => t.safe =
    { s.safe with injection := none } ∧ t.rd SAF_INJ_STATUS.armed = 0 ∧ t.rd SAF_INJ_STATUS.missed = 1 ∧ ended t i.id .internalFault = true ∧ t.now =
    max s.now (i.since + injBound s i.mech + 1) ∧ OnlyTrack i.id { s with now := t.now, tim := t.tim, safe := t.safe, regs := t.regs } t ∧ SameRegs
    (keys [SAF_INJ_STATUS.armed, SAF_INJ_STATUS.missed]) s t) ∧
  (∀ (s : State) (id : Nat) (u : Track) (sigs : Vector Word 97), s.safe.intrusive = some id → trackOf s id = some u → u.phase = .started → Answers
    (.intrusiveBistEnd sigs [] []) s fun t => t.safe.intrusive = none ∧ ended t id .success = true ∧ t.now = max s.now (u.startTick + secTicks) ∧ ((∀
    n : Nat, n < 97 → sliceAbsent s n = true ∨ sigs.toArray.getD n 0 = romSignature s n) → endedWith t id .success 0 (((List.range 97).filter (fun n
    => !sliceAbsent s n)).length) = true ∧ t.rd BIST_STATUS.failed = s.rd BIST_STATUS.failed ∧ t.safe.log = s.safe.log) ∧ (∀ n : Nat, n < 97 →
    sliceAbsent s n = false → sigs.toArray.getD n 0 ≠ romSignature s n → bit (t.rd BIST_STATUS.failed) (sliceGroup n) = true) ∧ t.stack = s.stack ∧
    t.mem = s.mem ∧ t.sec = s.sec ∧ t.ctxs = s.ctxs ∧ t.tiles = s.tiles)

/-- A write of SAF_SAFE_CAUSE clears each latched bit written with 1 whose condition is gone or whose policy bit is 0, and no other cause. At a 10
  ms frame boundary with no cause set the mute lifts: safe_state 0 (the model's reading of it, log entry 5), every lane's egress released. A
  window, the lane limits or an unlocked SAF_CTRL take an allowed value; a value not allowed, or a change under the lock, changes nothing but
  the refused bit. (22_faults_safety_and_self_test.md, 23_register_map.md) -/
def Obligations.SafeStateAndItsPolicy : Prop :=
  (∀ (s : State) (v : Word), s.link.up = true → s.rd DEV_MODE.mode ≠ 0 → blockAnswers s 0x150004 = true → Answers (.safeCauseClear v) s fun t => (∀ b
    : Nat, b < 10 → causeSet t b = (causeSet s b && !(decide (3 ≤ b) && v.toNat.testBit b && (!causeCondition s b || !policyAllows s b)))) ∧ t =
    { s with regs := t.regs } ∧ SameRegs ((causeRow 3).key 0 0 :: (causeRow 4).key 0 0 :: (causeRow 5).key 0 0 :: (causeRow 6).key 0 0 :: (causeRow
    7).key 0 0 :: (causeRow 8).key 0 0 :: (causeRow 9).key 0 0 :: keys [PRL_STATUS.fit]) s t) ∧
  (∀ (s : State), s.boot.recoverD0 = false → noCause s = true → Answers (.muteLift) s fun t => t.rd DEV_MODE.safe_state = 0 ∧ (s.rd
    DEV_MODE.safe_state = 1 → ∀ n : Nat, n < 16 → t.rd FHL_LANE_STATUS.egress_muted n = 0) ∧ counter s ≤ counter t ∧ t.now = (advanceToCounter s
    (frameBoundary (counter s))).now ∧ t = { s with now := t.now, tim := t.tim, regs := t.regs } ∧ SameRegs muteKeys s t) ∧
  (∀ (s : State), s.boot.recoverD0 = false → noCause s = false → Answers (.muteLift) s fun t => t.regs = s.regs ∧ t =
    { s with now := t.now, tim := t.tim }) ∧
  (∀ (s : State) (k : Fin 5) (v : Word) (r : Fin 7), s.link.up = true → s.rd DEV_MODE.mode ≠ 0 → blockAnswers s 0x150004 = true → (r : Nat) = k + 2 →
    v.toNat % 2 ^ 24 ≠ 0 → v.toNat / 2 ^ 24 ≠ 0 → v.toNat / 2 ^ 24 ≤ winLimit k → s.rd SAF_CTRL.lock = 0 → Answers (.safConfigWrite r v) s fun t =>
    t.rd SAF_WIN.window k = v.toNat % 2 ^ 24 ∧ t.rd SAF_WIN.limit k = v.toNat / 2 ^ 24 ∧ OnlyRegs [SAF_WIN.window.key k 0, SAF_WIN.limit.key k 0] s
    t) ∧
  (∀ (s : State) (k : Fin 5) (v : Word) (r : Fin 7), s.link.up = true → s.rd DEV_MODE.mode ≠ 0 → blockAnswers s 0x150004 = true → (r : Nat) = k + 2 →
    v.toNat % 2 ^ 24 = 0 ∨ v.toNat / 2 ^ 24 = 0 ∨ winLimit k < v.toNat / 2 ^ 24 ∨ (s.rd SAF_CTRL.lock = 1 ∧ v.toNat % 2 ^ 24 ≠ s.rd SAF_WIN.window k)
    → Answers (.safConfigWrite r v) s fun t => t.rd SAF_CTRL.refused = 1 ∧ OnlyRegs (keys [SAF_CTRL.refused]) s t) ∧
  (∀ (s : State) (v : Word), s.link.up = true → s.rd DEV_MODE.mode ≠ 0 → blockAnswers s 0x150004 = true → s.rd SAF_CTRL.lock = 0 → (∀ k : Nat, k < 4
    → bits v.toNat (8 * k) 8 ≠ 0) → Answers (.safConfigWrite 1 v) s fun t => (∀ k : Nat, k < 4 → t.rd (laneLimRow k) = bits v.toNat (8 * k) 8 ∧
    (s.safe.laneLims = [] → laneLimit t k = s.rd (laneLimRow k))) ∧ t =
    { s with regs := t.regs, safe := { s.safe with laneLims := t.safe.laneLims } } ∧ SameRegs (keys [SAF_LANE_LIM.fh_codewords,
    SAF_LANE_LIM.fh_blocks, SAF_LANE_LIM.pcie_errors, SAF_LANE_LIM.bolryn_codewords]) s t) ∧
  (∀ (s : State) (v : Word), s.link.up = true → s.rd DEV_MODE.mode ≠ 0 → blockAnswers s 0x150004 = true → s.rd SAF_CTRL.lock = 0 → (∀ b : Nat, b < 9
    → causeCondition s b = false) → Answers (.safConfigWrite 0 v) s fun t => (∀ k : Nat, k < 7 → t.rd (policyRow (k + 2)) = bits v.toNat (8 + k) 1) ∧
    t.rd SAF_CTRL.lock = b2n (v.toNat.testBit 0) ∧ t = { s with regs := t.regs } ∧ SameRegs ((causeRow scTimeError).key 0 0 :: keys [SAF_CTRL.lock,
    SAF_CTRL.refused, SAF_CTRL.time_error, SAF_CTRL.internal_fault, SAF_CTRL.rail_alarm, SAF_CTRL.plausibility, SAF_CTRL.lost_frame,
    SAF_CTRL.dsp_halt, SAF_CTRL.bist_fail]) s t)

/-- A doorbell within its ring moves the tail or head of its own queue alone; one outside puts the queue in ERROR with its cause. A fetched entry
  moves the ring head, marks its sequence number and enters the tracking table, ready to start, or ended with the first refusal of R345. A
  failed ring read puts the queue in ERROR; a failed read of a command ends it POISONED, a timeout likewise, 50 ms to 65 ms after the request. A
  coalescing timeout signals the queue's vector, and a message that fails puts the queue in ERROR; an unmasked vector sends its pending message.
  (14_host_rings.md) -/
def Obligations.DoorbellsFetchesAndHostReads : Prop :=
  (∀ (s : State) (f : Fin 64) (k : Fin 256) (v : Word) (q : Nat) (x : Queue), s.link.up = true → globalQueue s f k = some q → queueOf s q = some x →
    v.toNat % 65536 < 2 ^ x.sqLog → Answers (.sqTailDoorbell f k v) s fun t => queueOf t q = some { x with sqTail := v.toNat % 65536 } ∧ (∀ p : Nat,
    p < 256 → p ≠ q → queueOf t p = queueOf s p) ∧ t = { s with link := { s.link with queues := t.link.queues } }) ∧
  (∀ (s : State) (f : Fin 64) (k : Fin 256) (v : Word) (q : Nat) (x : Queue), s.link.up = true → globalQueue s f k = some q → queueOf s q = some x →
    2 ^ x.sqLog ≤ v.toNat % 65536 → qState s q ≠ qError → q < 256 → Answers (.sqTailDoorbell f k v) s fun t => t.rd HCI_Q_STATUS.state q = qError ∧
    t.rd HCI_Q_STATUS.error q = 1 ∧ t.rd HCI_EVT_CAUSE.queue_error = 1 ∧ t.link.queues = s.link.queues ∧ t =
    { s with regs := t.regs, link := { s.link with pendingMsix := t.link.pendingMsix }, outbox := t.outbox } ∧ SameRegs ([HCI_Q_STATUS.state.key q 0,
    HCI_Q_STATUS.error.key q 0] ++ [evtKey evQueueError]) s t) ∧
  (∀ (s : State) (f : Fin 64) (k : Fin 256) (v : Word) (q : Nat) (x : Queue), s.link.up = true → globalQueue s f k = some q → queueOf s q = some x →
    (v.toNat % 65536 < 2 ^ x.cqLog ∧ (v.toNat % 65536 + 2 ^ x.cqLog - x.cqHead) % 2 ^ x.cqLog ≤ (x.cqTail + 2 ^ x.cqLog - x.cqHead) % 2 ^ x.cqLog) →
    Answers (.cqHeadDoorbell f k v) s fun t => queueOf t q = some { x with cqHead := v.toNat % 65536 } ∧ (∀ p : Nat, p < 256 → p ≠ q → queueOf t p =
    queueOf s p) ∧ t = { s with link := { s.link with queues := t.link.queues } }) ∧
  (∀ (s : State) (f : Fin 64) (k : Fin 256) (v : Word) (q : Nat) (x : Queue), s.link.up = true → globalQueue s f k = some q → queueOf s q = some x →
    ¬(v.toNat % 65536 < 2 ^ x.cqLog ∧ (v.toNat % 65536 + 2 ^ x.cqLog - x.cqHead) % 2 ^ x.cqLog ≤ (x.cqTail + 2 ^ x.cqLog - x.cqHead) % 2 ^ x.cqLog) →
    qState s q ≠ qError → q < 256 → Answers (.cqHeadDoorbell f k v) s fun t => t.rd HCI_Q_STATUS.state q = qError ∧ t.rd HCI_Q_STATUS.error q = 2 ∧
    t.rd HCI_EVT_CAUSE.queue_error = 1 ∧ t.link.queues = s.link.queues ∧ t =
    { s with regs := t.regs, link := { s.link with pendingMsix := t.link.pendingMsix }, outbox := t.outbox } ∧ SameRegs ([HCI_Q_STATUS.state.key q 0,
    HCI_Q_STATUS.error.key q 0] ++ [evtKey evQueueError]) s t) ∧
  (∀ (s : State) (q : Nat) (x : Queue) (e : Line), fetching s = true → s.link.cancelAll = false → queueOf s q = some x → q < 256 → mayFetch s q =
    true → (∀ p ∈ s.link.queues, p.1 ≠ q → mayFetch s p.1 = false) → ahead (entryBits e 8 6) x.h = true → entryRefusal (qFunction s q) e = none →
    Answers (.commandFetch [e]) s fun t => t.link.tracks = s.link.tracks ++ [{ newTrack s q e ((x.sqHead + 1) % 2 ^ x.sqLog) with inWindow := true }]
    ∧ t.link.nextId = s.link.nextId + 1 ∧ (queueOf t q).map (fun y => (y.sqHead, y.h, y.sqTail, y.cqTail)) = some ((x.sqHead + 1) % 2 ^ x.sqLog,
    entryBits e 8 6, x.sqTail, x.cqTail) ∧ (∀ y ∈ queueOf t q, (winEntry y (entryBits e 8 6)).map (fun w => w.executed) = some true) ∧ t.rd
    HCI_Q_STATUS.outstanding q = (queueTracks t q).length % 2 ^ HCI_Q_STATUS.outstanding.width ∧ (∀ p : Nat, p < 256 → p ≠ q → queueOf t p = queueOf
    s p) ∧ t =
    { s with regs := t.regs, link := { s.link with queues := t.link.queues, tracks := t.link.tracks, nextId := t.link.nextId, lastAq := t.link.lastAq } }
    ∧ SameRegs [HCI_Q_STATUS.outstanding.key q 0] s t) ∧
  (∀ (s : State) (q : Nat) (x : Queue) (e : Line) (st : Status), fetching s = true → s.link.cancelAll = false → queueOf s q = some x → q < 256 →
    mayFetch s q = true → (∀ p ∈ s.link.queues, p.1 ≠ q → mayFetch s p.1 = false) → ahead (entryBits e 8 6) x.h = true → entryRefusal (qFunction s q)
    e = some st → Answers (.commandFetch [e]) s fun t => t.link.tracks = s.link.tracks ++
    [{ newTrack s q e ((x.sqHead + 1) % 2 ^ x.sqLog) with inWindow := true, phase := .finished, status := st.code }] ∧ t.link.nextId = s.link.nextId
    + 1 ∧ (queueOf t q).map (fun y => (y.sqHead, y.h, y.sqTail, y.cqTail)) = some ((x.sqHead + 1) % 2 ^ x.sqLog, entryBits e 8 6, x.sqTail, x.cqTail)
    ∧ (∀ y ∈ queueOf t q, (winEntry y (entryBits e 8 6)).map (fun w => w.executed) = some true) ∧ t.rd HCI_Q_STATUS.outstanding q = (queueTracks t
    q).length % 2 ^ HCI_Q_STATUS.outstanding.width ∧ (∀ p : Nat, p < 256 → p ≠ q → queueOf t p = queueOf s p) ∧ t =
    { s with regs := t.regs, link := { s.link with queues := t.link.queues, tracks := t.link.tracks, nextId := t.link.nextId, lastAq := t.link.lastAq } }
    ∧ SameRegs [HCI_Q_STATUS.outstanding.key q 0] s t) ∧
  (∀ (s : State) (q : Fin 256) (x : Queue) (o : ReadOutcome), s.link.up = true → queueOf s q = some x → o = .unsupported ∨ o = .abort ∨ o = .poisoned
    → qState s q ≠ qError → Answers (.hostReadCompletion (.ring q) o) s fun t => t.rd HCI_Q_STATUS.state q = qError ∧ t.rd HCI_Q_STATUS.error q = 3 ∧
    t.rd HCI_EVT_CAUSE.queue_error = 1 ∧ t.link.queues = s.link.queues ∧ t =
    { s with regs := t.regs, link := { s.link with pendingMsix := t.link.pendingMsix }, outbox := t.outbox } ∧ SameRegs ([HCI_Q_STATUS.state.key q 0,
    HCI_Q_STATUS.error.key q 0] ++ [evtKey evQueueError]) s t) ∧
  (∀ (s : State) (r : HostRead) (u : Track) (d : List Byte), s.link.up = true → s.link.reads.find? (fun a => a.id == r.id) = some r → trackOf s r.id
    = some u → u.phase = .started → s.pair.prepared = none → s.imgs.load = none → s.dmas = [] → r.got.length + d.length < r.length → s.link.reads =
    [r] → Answers (.hostReadCompletion (.command r.id) (.data d)) s fun t => t =
    { s with link := { s.link with reads := [{ r with got := r.got ++ d }] } }) ∧
  (∀ (s : State) (r : HostRead) (u : Track), s.link.up = true → s.link.reads.find? (fun a => a.id == r.id) = some r → trackOf s r.id = some u →
    u.phase = .started → s.pair.prepared = none → s.imgs.load = none → s.dmas = [] → Answers (.completionTimeout (.command r.id)) s fun t => ended t
    r.id .poisoned = true ∧ t.link.reads = s.link.reads.filter (fun a => a.id != r.id) ∧ max s.now (r.at_ + 50 * msTicks) ≤ t.now ∧ t.now ≤ max s.now
    (r.at_ + 65 * msTicks) ∧ OnlyTrack r.id { s with now := t.now, tim := t.tim, free := t.free, link := { s.link with reads := t.link.reads } } t) ∧
  (∀ (s : State) (q : Fin 256) (x : Queue), s.link.up = true → queueOf s q = some x → qState s q ≠ qError → Answers (.completionTimeout (.ring q)) s
    fun t => t.rd HCI_Q_STATUS.state q = qError ∧ t.rd HCI_Q_STATUS.error q = 3 ∧ t.rd HCI_EVT_CAUSE.queue_error = 1 ∧ t.link.queues = s.link.queues
    ∧ t = { s with regs := t.regs, link := { s.link with pendingMsix := t.link.pendingMsix }, outbox := t.outbox } ∧ SameRegs
    ([HCI_Q_STATUS.state.key q 0, HCI_Q_STATUS.error.key q 0] ++ [evtKey evQueueError]) s t) ∧
  (∀ (s : State) (q : Fin 256) (x : Queue), queueOf s q = some x → x.unsignalled ≠ 0 → s.link.up = true → Answers (.coalescingTimeout q) s fun t =>
    queueOf t q = some { x with unsignalled := 0 } ∧ t.now = max s.now (x.oldest + x.aggTime * usTicks) ∧ t.link.tracks = s.link.tracks ∧ t.regs =
    s.regs ∧ (sparseGet true s.link.masked (32 * qFunction s q + x.vector) = false → t.outbox = s.outbox ++ [msixMessage s (qFunction s q) x.vector])
    ∧ (sparseGet true s.link.masked (32 * qFunction s q + x.vector) = true → t.outbox = s.outbox ∧ sparseGet false t.link.pendingMsix (32 * qFunction
    s q + x.vector) = true) ∧ t =
    { s with now := t.now, tim := t.tim, link := { s.link with queues := t.link.queues, pendingMsix := t.link.pendingMsix }, outbox := t.outbox }) ∧
  (∀ (s : State) (q : Fin 256) (x : Queue), queueOf s q = some x → x.unsignalled ≠ 0 → s.link.up = true → sparseGet true s.link.masked (32 *
    qFunction s q + x.vector) = false → qState s q ≠ qError → Answers (.coalescingTimeout q true) s fun t => queueOf t q = some
    { x with unsignalled := 0 } ∧ t.rd HCI_Q_STATUS.state q = qError ∧ t.rd HCI_Q_STATUS.error q = 4 ∧ t.rd HCI_EVT_CAUSE.queue_error = 1 ∧
    t.link.tracks = s.link.tracks ∧ t.mem = s.mem ∧ t.ctxs = s.ctxs) ∧
  (∀ (s : State) (f : Fin 64) (v : Fin 32), s.link.up = true → Answers (.msixUnmask f v) s fun t => sparseGet true t.link.masked (32 * (f : Nat) + v)
    = false ∧ (sparseGet false s.link.pendingMsix (32 * (f : Nat) + v) = true → t.outbox = s.outbox ++ [msixMessage s f v] ∧ sparseGet false
    t.link.pendingMsix (32 * (f : Nat) + v) = false) ∧ (sparseGet false s.link.pendingMsix (32 * (f : Nat) + v) = false → t.outbox = s.outbox) ∧ (∀ k
    : Nat, k < 2048 → k ≠ 32 * (f : Nat) + v → sparseGet true t.link.masked k = sparseGet true s.link.masked k) ∧ t =
    { s with link := { s.link with masked := t.link.masked, pendingMsix := t.link.pendingMsix }, outbox := t.outbox })

/-- A completion is written to its ring slot with its phase, the slot moves on and the command leaves the table; a refused write puts the queue in
  ERROR and the completion is lost, a failed message puts it there with the entry written. A command past its bound is logged once. An admin
  queue is enabled on its own queue, or the error says why not; its disable frees an empty one. A quota in conflict is refused. Training brings
  the link up; a lane beyond its limit is dropped, logged, and the link retrains. (14_host_rings.md, 15_command_set.md,
  22_faults_safety_and_self_test.md) -/
def Obligations.CompletionsQueuesAndTheLink : Prop :=
  (∀ (s : State) (u : Track) (x : Queue), trackOf s u.id = some u → mayPost s u = true → u.abortedBy = [] → queueOf s u.q = some x → u.q < 256 →
    x.writesFailed = false → (∀ v ∈ s.link.tracks, v.phase ≠ .held) → qState s u.q ≠ qDisabling → x.disabledBy = none → x.deletePending = false →
    s.rd DEV_MODE.mode ≠ modeLead → Answers (.completionPost u.id false) s fun t => t.link.tracks = s.link.tracks.filter (fun v => v.id != u.id) ∧
    t.outbox.take (s.outbox.length + 1) = s.outbox ++ [.hostWrite (x.cqBase + 32 * x.cqTail) (completionBytes u (localIndex s u.q) x.phase)] ∧
    (queueOf t u.q).map (fun y => (y.cqTail, y.phase, y.sqHead, y.cqHead)) = some (if x.cqTail + 1 = 2 ^ x.cqLog then 0 else x.cqTail + 1, if
    x.cqTail + 1 = 2 ^ x.cqLog then !x.phase else x.phase, x.sqHead, x.cqHead) ∧ t.rd HCI_Q_STATUS.outstanding u.q = (queueTracks t u.q).length % 2 ^
    HCI_Q_STATUS.outstanding.width ∧ t =
    { s with regs := t.regs, link := { s.link with queues := t.link.queues, tracks := t.link.tracks, pendingMsix := t.link.pendingMsix }, outbox := t.outbox }
    ∧ SameRegs [HCI_Q_STATUS.outstanding.key u.q 0] s t) ∧
  (∀ (s : State) (u : Track) (x : Queue), trackOf s u.id = some u → mayPost s u = true → u.abortedBy = [] → queueOf s u.q = some x → u.q < 256 →
    x.writesFailed = false → (∀ v ∈ s.link.tracks, v.phase ≠ .held) → qState s u.q ≠ qDisabling → x.disabledBy = none → x.deletePending = false →
    qState s u.q ≠ qError → Answers (.completionPost u.id true) s fun t => t.link.tracks = s.link.tracks.filter (fun v => v.id != u.id) ∧ t.rd
    HCI_Q_STATUS.state u.q = qError ∧ t.rd HCI_Q_STATUS.error u.q = 4 ∧ t.rd HCI_EVT_CAUSE.queue_error = 1 ∧ (queueOf t u.q).map (fun y => (y.cqTail,
    y.writesFailed)) = some (x.cqTail, true) ∧ t =
    { s with regs := t.regs, link := { s.link with queues := t.link.queues, tracks := t.link.tracks, pendingMsix := t.link.pendingMsix }, outbox := t.outbox })
    ∧
  (∀ (s : State) (u : Track) (x : Queue), trackOf s u.id = some u → mayPost s u = true → u.abortedBy = [] → queueOf s u.q = some x → u.q < 256 →
    x.writesFailed = false → (∀ v ∈ s.link.tracks, v.phase ≠ .held) → qState s u.q ≠ qDisabling → x.disabledBy = none → x.deletePending = false →
    qState s u.q ≠ qError → s.rd DEV_MODE.mode ≠ modeLead → u.irqNow = true → sparseGet true s.link.masked (32 * qFunction s u.q + x.vector) = false
    → Answers (.completionPost u.id false true) s fun t => t.link.tracks = s.link.tracks.filter (fun v => v.id != u.id) ∧ t.rd HCI_Q_STATUS.state u.q
    = qError ∧ t.rd HCI_Q_STATUS.error u.q = 4 ∧ t.rd HCI_EVT_CAUSE.queue_error = 1 ∧ t.outbox.take (s.outbox.length + 1) = s.outbox ++ [.hostWrite
    (x.cqBase + 32 * x.cqTail) (completionBytes u (localIndex s u.q) x.phase)] ∧ (queueOf t u.q).map (fun y => (y.cqTail, y.writesFailed)) = some (if
    x.cqTail + 1 = 2 ^ x.cqLog then 0 else x.cqTail + 1, false)) ∧
  (∀ (s : State) (u : Track) (e : Nat), trackOf s u.id = some u → boundEnd s u = some e → u.overrun = false → Answers (.commandOverrun u.id) s fun t
    => (trackOf t u.id) = some { u with overrun := true } ∧ t.now = max s.now e ∧ (t.safe.log.getLast?.map (fun l => (l.kind, l.unit, l.detail))) =
    some (.commandOverrun, qFunction s u.q % 65536, (u.seq + u.op * 2 ^ 48) % 2 ^ 64) ∧ t =
    { s with now := t.now, tim := t.tim, regs := t.regs, safe := { s.safe with log := t.safe.log, nextSeq := t.safe.nextSeq }, link := { s.link with tracks := t.link.tracks, pendingMsix := t.link.pendingMsix }, outbox := t.outbox }
    ∧ SameRegs logKeys s t) ∧
  (∀ (s : State) (q : Fin 256) (x : Queue), queueOf s q = some x → x.drainLimit ≠ 0 → queueTracks s q ≠ [] → Answers (.queueDrainLimit q) s fun t =>
    (queueOf t q).map (fun y => (y.drainLimit, y.disabledBy, y.sqTail, y.cqTail)) = some (0, none, x.sqTail, x.cqTail) ∧ max s.now x.drainLimit ≤
    t.now ∧ (∀ id ∈ x.disabledBy, underWay s id = true → ended t id .internalFault = true) ∧ t.safe.internalFaultAt.isSome = true ∧ t.rd
    INT_STATUS.internal_fault = 1 ∧ t.ctxs = s.ctxs ∧ t.mem = s.mem ∧ t.sec = s.sec) ∧
  (∀ (s : State) (f : Fin 64) (a : Fin 32) (b : Fin 32) (q : Nat), s.link.up = true → s.rd DEV_MODE.mode ≠ 0 → s.rd HCI_AQ_STATUS.ready f = 0 → 4 ≤
    (a : Nat) → (a : Nat) ≤ 16 → 4 ≤ (b : Nat) → (b : Nat) ≤ 16 → globalQueue s f 0 = some q → q < 256 → Answers (.adminQueueEnable f a b) s fun t =>
    t.rd HCI_AQ_STATUS.ready f = 1 ∧ t.rd HCI_AQ_STATUS.error f = 0 ∧ t.rd HCI_AQ_CFG.enable f = 1 ∧ t.rd HCI_Q_STATUS.state q = qEnabled ∧ t.rd
    HCI_Q_STATUS.admin q = 1 ∧ t.rd HCI_Q_STATUS.function q = f ∧ (queueOf t q).map (fun y => (y.sqLog, y.cqLog, y.sqHead, y.sqTail, y.cqHead,
    y.cqTail, y.phase, y.sqBase)) = some ((a : Nat), (b : Nat), 0, 0, 0, 0, true, s.rd HCI_AQ_SQ_BASE_LO.base_lo f * 4096 + s.rd
    HCI_AQ_SQ_BASE_HI.base_hi f * 2 ^ 32) ∧ t = { s with regs := t.regs, link := { s.link with queues := t.link.queues } } ∧ SameRegs
    ([HCI_AQ_CFG.sq_size_log2.key f 0, HCI_AQ_CFG.cq_size_log2.key f 0, HCI_AQ_CFG.enable.key f 0, HCI_AQ_STATUS.ready.key f 0,
    HCI_AQ_STATUS.error.key f 0, HCI_Q_STATUS.state.key q 0, HCI_Q_STATUS.admin.key q 0, HCI_Q_STATUS.function.key q 0]) s t) ∧
  (∀ (s : State) (f : Fin 64) (a : Fin 32) (b : Fin 32), s.link.up = true → s.rd DEV_MODE.mode ≠ 0 → s.rd HCI_AQ_STATUS.ready f = 0 → (a : Nat) < 4 ∨
    16 < (a : Nat) ∨ (b : Nat) < 4 ∨ 16 < (b : Nat) → Answers (.adminQueueEnable f a b) s fun t => t.rd HCI_AQ_STATUS.error f = 1 ∧ OnlyRegs
    ([HCI_AQ_CFG.sq_size_log2.key f 0, HCI_AQ_CFG.cq_size_log2.key f 0, HCI_AQ_STATUS.error.key f 0]) s t) ∧
  (∀ (s : State) (f : Fin 64) (q : Nat) (x : Queue), s.link.up = true → s.rd DEV_MODE.mode ≠ 0 → otherQueues s f = false → globalQueue s f 0 = some q
    → q < 256 → queueOf s q = some x → x.deletePending = false → x.disabledBy = none → queueTracks s q = [] → Answers (.adminQueueDisable f) s fun t
    => t.rd HCI_AQ_CFG.enable f = 0 ∧ t.rd HCI_AQ_STATUS.ready (qFunction s q) = 0 ∧ t.rd HCI_AQ_STATUS.error f = 0 ∧ t.rd HCI_Q_STATUS.state q =
    qFree ∧ queueOf t q = none ∧ t = { s with regs := t.regs, link := { s.link with queues := t.link.queues } }) ∧
  (∀ (s : State) (f : Fin 64), s.link.up = true → s.rd DEV_MODE.mode ≠ 0 → otherQueues s f = true → Answers (.adminQueueDisable f) s fun t => t.rd
    HCI_AQ_STATUS.error f = 4 ∧ OnlyRegs [HCI_AQ_STATUS.error.key f 0] s t) ∧
  (∀ (s : State) (f : Fin 64) (b : Fin 256) (c : Fin 512), s.link.up = true → s.rd DEV_MODE.mode ≠ 0 → (∀ g : Nat, g < 64 → g ≠ (f : Nat) →
    quotaCount s g = 0 ∨ (c : Nat) = 0 ∨ quotaBase s g + quotaCount s g ≤ b ∨ (b : Nat) + c ≤ quotaBase s g) → (c : Nat) ≤ functionLimit f → (b :
    Nat) + c ≤ 256 → (∀ k : Nat, k < quotaCount s f → qState s (quotaBase s f + k) = qFree) → blockAnswers s 0x20100 = true → blockAnswers s
    (PCIE_FN_CFG.queue_base.offset f 0) = true → Answers (.functionQuotaWrite f b c) s fun t => t.rd PCIE_FN_CFG.queue_base f = b ∧ t.rd
    PCIE_FN_CFG.queue_count f = c ∧ OnlyRegs [PCIE_FN_CFG.queue_base.key f 0, PCIE_FN_CFG.queue_count.key f 0] s t) ∧
  (∀ (s : State) (f : Fin 64) (b : Fin 256) (c : Fin 512), s.link.up = true → s.rd DEV_MODE.mode ≠ 0 → functionLimit f < (c : Nat) ∨ 256 < (b : Nat)
    + c → blockAnswers s (PCIE_FN_CFG.queue_base.offset f 0) = true → Answers (.functionQuotaWrite f b c) s fun t => t.rd
    PCIE_ERR_COUNTS.fn_cfg_refused = 1 ∧ OnlyRegs (keys [PCIE_ERR_COUNTS.fn_cfg_refused]) s t) ∧
  (∀ (s : State) (sp : Fin 8) (w : Fin 16) (r : Bool), s.boot.porHeld = false → s.boot.dormant = false → s.boot.hostUp = true → s.link.perst = false
    → s.link.refclk = true → 1 ≤ (sp : Nat) → (sp : Nat) ≤ 5 → (w : Nat) = 1 ∨ (w : Nat) = 2 ∨ (w : Nat) = 4 ∨ (w : Nat) = 8 → lanesUsable s w r =
    true → (s.link.training = true → [8, 4, 2, 1].find? (fun v => decide (v ≤ s.rd PCIE_LINK_STATUS.width) && (lanesUsable s v false || lanesUsable s
    v true)) = some (w : Nat)) → Answers (.linkTrainingComplete sp w r) s fun t => t.link.up = true ∧ t.link.training = false ∧ t.rd
    PCIE_LINK_STATUS.speed = sp ∧ t.rd PCIE_LINK_STATUS.width = w ∧ t.rd PCIE_LINK_STATUS.reversed = b2n r ∧ t.now = s.now ∧ t.ctxs = s.ctxs ∧ t.sec
    = s.sec) ∧
  (∀ (s : State) (sp : Fin 8) (w : Fin 16) (r : Bool), s.boot.porHeld = false → s.boot.dormant = false → s.boot.hostUp = true → s.link.perst = false
    → s.link.refclk = true → 1 ≤ (sp : Nat) → (sp : Nat) ≤ 5 → (w : Nat) = 1 ∨ (w : Nat) = 2 ∨ (w : Nat) = 4 ∨ (w : Nat) = 8 → lanesUsable s w r =
    true → (s.link.training = true → [8, 4, 2, 1].find? (fun v => decide (v ≤ s.rd PCIE_LINK_STATUS.width) && (lanesUsable s v false || lanesUsable s
    v true)) = some (w : Nat)) → s.dmas = [] → (∀ v ∈ s.link.tracks, v.op = 0x16 → v.committed = true → v.phase ≠ .started) → Answers
    (.linkTrainingComplete sp w r) s fun t => t.link = { s.link with up := true, training := false } ∧ t.rd PCIE_LINK_STATUS.speed = sp ∧ t.rd
    PCIE_LINK_STATUS.width = w ∧ t.rd PCIE_LINK_STATUS.reversed = b2n r ∧ t = { s with regs := t.regs, link := t.link } ∧ SameRegs (keys
    [PCIE_LINK_STATUS.speed, PCIE_LINK_STATUS.width, PCIE_LINK_STATUS.reversed]) s t) ∧
  (∀ (s : State) (n : Fin 8) (e : Nat), s.link.up = true → bit (s.rd PCIE_LINK_STATUS.dropped) n = false → laneLimit s 2 < e → bit (s.rd
    PCIE_LINK_STATUS.dropped) (7 - n) = false → s.fh.scans = [] → Answers (.pcieLaneErrorWindow n e) s fun t => t.rd PCIE_LINK_STATUS.dropped =
    putBit (s.rd PCIE_LINK_STATUS.dropped) n true % 2 ^ 8 ∧ t.rd PCIE_ERR_COUNTS.retrains = satAdd 8 (s.rd PCIE_ERR_COUNTS.retrains) 1 % 2 ^ 8 ∧
    t.link.training = true ∧ t.link.up = true ∧ t.rd SAF_DEGRADED.pcie_lane = 1 ∧ t.rd DEV_MODE.degraded = 1 ∧ (t.safe.log.getLast?.map (fun l =>
    (l.kind, l.unit, l.setDegraded))) = some (.laneDropped, 0x100 + (n : Nat), true) ∧ t.link.tracks = s.link.tracks ∧ t.link.queues = s.link.queues
    ∧ SameRegs (degradedKeys 5 ++ keys [PCIE_LINK_STATUS.dropped, PCIE_ERR_COUNTS.retrains] ++ logKeys) s t)

/-- NOP completes SUCCESS and does nothing else. IDENTIFY completes SUCCESS with every field of R370's table: the release, stepping and grades, the
  submitting function and its quota, the link's width and speed, the DRAM capacity, the COMMITTED contexts, and the device's mode, degraded and
  safe-state bits. TIME_READ returns the time counter of the hop cycle in which it executes, its low 64 bits in result and the rest in result2.
  None of them changes anything but its own tracking entry. (R370, R385) -/
def Obligations.GeneralCommandsAndTimeRead : Prop :=
  (∀ (s : State) (id : Nat) (u : Track), Startable s id 0x01 u → Answers (.nop id) s fun t => ended t id .success = true ∧ OnlyTrack id s t) ∧
  (∀ (s : State) (id : Nat) (u : Track), Startable s id 0x02 u → Answers (.identify id) s fun t => endedWith t id .success ((4 + 1 * 2 ^ 8 + 0xB0 * 2
    ^ 16 + (if s.grade2 then 2 else 3) * 2 ^ 24 + 0x45 * 2 ^ 32 + qFunction s u.q * 2 ^ 40 + s.rd PCIE_FN_CFG.queue_base (qFunction s u.q) * 2 ^ 48 +
    s.rd PCIE_LINK_STATUS.width * 2 ^ 56 + s.rd PCIE_LINK_STATUS.speed * 2 ^ 60) % 2 ^ 64) ((s.rd PCIE_FN_CFG.queue_count (qFunction s u.q) + s.rd
    DRC_MAP.capacity_gib * 2 ^ 9 + (b2n (committed s 0) + 2 * b2n (committed s 1) + 4 * b2n (committed s 2) + 8 * b2n (committed s 3) + 16 * b2n
    (committed s 4) + 32 * b2n (committed s 5) + 64 * b2n (committed s 6) + 128 * b2n (committed s 7)) * 2 ^ 16 + s.rd DEV_MODE.mode * 2 ^ 24 + s.rd
    DEV_MODE.degraded * 2 ^ 27 + s.rd DEV_MODE.safe_state * 2 ^ 28) % 2 ^ 32) = true ∧ OnlyTrack id s t) ∧
  (∀ (s : State) (id : Nat) (u : Track), Startable s id 0x40 u → Answers (.timeRead id) s fun t => endedWith t id .success ((timeFraction (counter s)
    + timeNs (counter s) * 2 ^ 16 + timeSec (counter s) % 2 ^ 48 * 2 ^ 48) % 2 ^ 64) ((timeFraction (counter s) + timeNs (counter s) * 2 ^ 16 +
    timeSec (counter s) % 2 ^ 48 * 2 ^ 48) / 2 ^ 64) = true ∧ OnlyTrack id s t)

/-- ABORT of a command that has not started ends the target ABORTED and the ABORT SUCCESS; of a committed or ended one, ALREADY_COMPLETE and the
  target goes on; of a number that was never accepted, INVALID_FIELD. QUEUE_CREATE enables a FREE queue with its rings, vector and first number
  and leaves other queues alone. QUEUE_DISABLE of an empty queue leaves it DISABLED and completes; with commands outstanding it drains.
  QUEUE_DELETE of an empty disabled queue frees it. (15_command_set.md, 14_host_rings.md) -/
def Obligations.QueueCommandsAndAbort : Prop :=
  (∀ (s : State) (id : Nat) (u : Track) (q : Nat) (x : Queue) (v : Track), Startable s id 0x03 u → globalQueue s (qFunction s u.q) (u.par 0x10 2) =
    some q → queueOf s q = some x → s.link.tracks.find? (fun w => w.q == q && w.seq == u.par 0x18 6 && w.inWindow && w.phase != .held &&
    w.pair.isNone) = some v → ahead (u.par 0x18 6) x.h = false → inWindow (u.par 0x18 6) x.h = true → v.op ≠ 0x03 → v.id ≠ id → trackOf s v.id = some
    v → v.phase = .fetched → v.committed = false → Answers (.abort id) s fun t => ended t id .success = true ∧ ended t v.id .aborted = true ∧ (∀ w ∈
    trackOf t v.id, w.abortedBy = v.abortedBy ++ [id] ∧ w.aborted = true) ∧ t = { s with link := { s.link with tracks := t.link.tracks } } ∧
    t.link.tracks.filter (fun w => w.id != id && w.id != v.id) = s.link.tracks.filter (fun w => w.id != id && w.id != v.id)) ∧
  (∀ (s : State) (id : Nat) (u : Track) (q : Nat) (x : Queue) (v : Track), Startable s id 0x03 u → globalQueue s (qFunction s u.q) (u.par 0x10 2) =
    some q → queueOf s q = some x → s.link.tracks.find? (fun w => w.q == q && w.seq == u.par 0x18 6 && w.inWindow && w.phase != .held &&
    w.pair.isNone) = some v → ahead (u.par 0x18 6) x.h = false → inWindow (u.par 0x18 6) x.h = true → v.op ≠ 0x03 → v.id ≠ id → trackOf s v.id = some
    v → v.phase = .finished ∨ v.committed = true → Answers (.abort id) s fun t => ended t id .alreadyComplete = true ∧ trackOf t v.id = some
    { v with abortedBy := v.abortedBy ++ [id] } ∧ t = { s with link := { s.link with tracks := t.link.tracks } } ∧ t.link.tracks.filter (fun w =>
    w.id != id && w.id != v.id) = s.link.tracks.filter (fun w => w.id != id && w.id != v.id)) ∧
  (∀ (s : State) (id : Nat) (u : Track), Startable s id 0x03 u → globalQueue s (qFunction s u.q) (u.par 0x10 2) = none → Answers (.abort id) s fun t
    => ended t id .invalidField = true ∧ OnlyTrack id s t) ∧
  (∀ (s : State) (id : Nat) (u : Track) (q : Nat), Startable s id 0x04 u → qAdmin s u.q = true → u.par 0x10 2 ≠ 0 → globalQueue s (qFunction s u.q)
    (u.par 0x10 2) = some q → q < 256 → qState s q = qFree → 4 ≤ u.par 0x12 1 ∧ u.par 0x12 1 ≤ 16 → 4 ≤ u.par 0x13 1 ∧ u.par 0x13 1 ≤ 16 → u.par 0x14
    1 ≤ 31 → u.par 0x15 1 ≠ 0 → u.par 0x16 2 ≤ 1023 → u.par 0x18 8 % 4096 = 0 → u.par 0x20 8 % 4096 = 0 → Answers (.queueCreate id) s fun t => t.rd
    HCI_Q_STATUS.state q = qEnabled ∧ t.rd HCI_Q_STATUS.admin q = 0 ∧ t.rd HCI_Q_STATUS.function q = qFunction s u.q % 64 ∧ (∀ y ∈ queueOf t q,
    (y.sqBase, y.cqBase, y.sqLog, y.cqLog, y.vector, y.aggCount, y.aggTime) = (u.par 0x18 8, u.par 0x20 8, u.par 0x12 1, u.par 0x13 1, u.par 0x14 1,
    u.par 0x15 1, u.par 0x16 2) ∧ (y.h + 1) % 2 ^ 48 = u.par 0x28 6 ∧ (y.sqTail, y.sqHead, y.cqHead, y.cqTail, y.phase, y.window) = (0, 0, 0, 0,
    true, [])) ∧ (queueOf t q).isSome = true ∧ (∀ p : Nat, p < 256 → p ≠ q → queueOf t p = queueOf s p) ∧ ended t id .success = true ∧ OnlyTrack id
    { s with regs := t.regs, link := { s.link with queues := t.link.queues } } t ∧ SameRegs [HCI_Q_STATUS.state.key q 0, HCI_Q_STATUS.admin.key q 0,
    HCI_Q_STATUS.function.key q 0] s t) ∧
  (∀ (s : State) (id : Nat) (u : Track) (q : Nat) (x : Queue), Startable s id 0x05 u → qAdmin s u.q = true → u.par 0x10 2 ≠ 0 → globalQueue s
    (qFunction s u.q) (u.par 0x10 2) = some q → qAdmin s q = false → q < 256 → qState s q = qEnabled ∨ qState s q = qError → queueOf s q = some x →
    queueTracks s q = [] → Answers (.queueDisable id) s fun t => t.rd HCI_Q_STATUS.state q = qDisabled ∧ ended t id .success = true ∧ (queueOf t
    q).map (fun y => (y.disabledBy, y.drainLimit, y.sqTail, y.cqTail, y.h)) = some (none, 0, x.sqTail, x.cqTail, x.h) ∧ (∀ p : Nat, p < 256 → p ≠ q →
    queueOf t p = queueOf s p) ∧ OnlyTrack id { s with regs := t.regs, link := { s.link with queues := t.link.queues } } t ∧ SameRegs
    [HCI_Q_STATUS.state.key q 0] s t) ∧
  (∀ (s : State) (id : Nat) (u : Track) (q : Nat) (x : Queue) (v : Track), Startable s id 0x05 u → qAdmin s u.q = true → u.par 0x10 2 ≠ 0 →
    globalQueue s (qFunction s u.q) (u.par 0x10 2) = some q → qAdmin s q = false → q < 256 → qState s q = qEnabled ∨ qState s q = qError → queueOf s
    q = some x → queueTracks s q = [v] → v.phase = .started → v.op ≠ 0x16 → s.ctxs.armed = none → Answers (.queueDisable id) s fun t => t.rd
    HCI_Q_STATUS.state q = qDisabling ∧ underWay t id = true ∧ trackOf t v.id = trackOf s v.id ∧ (queueOf t q).map (fun y => (y.disabledBy, y.sqTail,
    y.cqTail, y.h)) = some (some id, x.sqTail, x.cqTail, x.h) ∧ (∀ p : Nat, p < 256 → p ≠ q → queueOf t p = queueOf s p) ∧ OnlyTrack id
    { s with regs := t.regs, link := { s.link with queues := t.link.queues } } t ∧ SameRegs [HCI_Q_STATUS.state.key q 0] s t) ∧
  (∀ (s : State) (id : Nat) (u : Track) (q : Nat), Startable s id 0x06 u → qAdmin s u.q = true → u.par 0x10 2 ≠ 0 → globalQueue s (qFunction s u.q)
    (u.par 0x10 2) = some q → qAdmin s q = false → q < 256 → qState s q = qDisabled ∨ qState s q = qError → queueTracks s q = [] → Answers
    (.queueDelete id) s fun t => t.rd HCI_Q_STATUS.state q = qFree ∧ queueOf t q = none ∧ ended t id .success = true ∧ (∀ p : Nat, p < 256 → p ≠ q →
    queueOf t p = queueOf s p) ∧ OnlyTrack id { s with regs := t.regs, link := { s.link with queues := t.link.queues } } t)

/-- CONTEXT_STAGE of a COMMITTED context starts its staging, which ends the command; of an EMPTY one it completes NOT_READY. CONTEXT_SWAP_AT arms
  its swap. SCHEDULE_SET reads its table from the host. CONTEXT_RETIRE of a COMMITTED context empties its plane, leaves every other plane alone
  and returns 1; of an EMPTY one it returns 0 and changes nothing. MODE_SET to ASSEMBLY or SERVICE changes the mode, counts it and mutes; to RUN
  it starts the staging; to the present mode it does nothing. (15_command_set.md, 04_contexts.md, 02_modes_and_start_up.md) -/
def Obligations.ContextCommandsAndModeSet : Prop :=
  (∀ (s : State) (id : Nat) (u : Track), Startable s id 0x12 u → u.par 0x10 1 ≤ 7 → running s = false → s.ctxs.staging = none → s.ctxs.armed = none →
    ¬(stagedState s = stReady ∧ stagedCtx s = u.par 0x10 1) → committed s (u.par 0x10 1) = true → s.boot.d3Unswept = false → dieOpen s 2 = true →
    s.integ.queue = [] → Answers (.contextStage id) s fun t => t.ctxs.staging = some
    { ctx := u.par 0x10 1, start := s.now, owner := .command id, oldPlane := false } ∧ t.rd CFG_LATCH_STATUS.staged_state = stStaging ∧ t.rd
    CFG_LATCH_STATUS.staged_ctx = u.par 0x10 1 ∧ t.rd CFG_LATCH_STATUS.frames_staged = 0 ∧ underWay t id = true ∧ t.ctxs =
    { s.ctxs with staging := t.ctxs.staging, refused := false } ∧ (∀ i : Nat, i < 1024 → tileOf t i =
    { tileOf s i with oldRanges := (tileOf t i).oldRanges }) ∧ t.imgs.ctx.map (fun p => (p.1, p.2.chain, p.2.digest, p.2.keyMask)) = s.imgs.ctx.map
    (fun p => (p.1, p.2.chain, p.2.digest, p.2.keyMask)) ∧ OnlyTrack id
    { s with regs := t.regs, ctxs := t.ctxs, imgs := { s.imgs with ctx := t.imgs.ctx }, tiles := t.tiles } t) ∧
  (∀ (s : State) (id : Nat) (u : Track), Startable s id 0x12 u → u.par 0x10 1 ≤ 7 → stageBusy s = false → committed s (u.par 0x10 1) = false →
    Answers (.contextStage id) s fun t => ended t id .notReady = true ∧ OnlyTrack id s t) ∧
  (∀ (s : State) (id : Nat) (u : Track), Startable s id 0x13 u → u.par 0x10 1 ≤ 7 → (u.par 0x11 1).testBit 2 = false → (u.par 0x11 1).testBit 0 =
    false → timeOk (u.par 0x18 12) = true → ((u.par 0x11 1).testBit 1 = true → u.par 0x12 2 = 0) → farAhead s (u.time 0x18) = false → running s =
    false → s.ctxs.armed = none → stagedCtx s = u.par 0x10 1 → stagedState s = stStaging ∨ stagedState s = stReady ∨ stagedState s = stOutDirty ∨
    stagedState s = stOutClean → Answers (.contextSwapAt id) s fun t => t.ctxs =
    { s.ctxs with armed := some { id := id, ctx := u.par 0x10 1, immediate := decide (u.time 0x18 ≤ counter s), target := u.time 0x18, skip := (u.par 0x11 1).testBit 1, limitUs := u.par 0x12 2, waiting := false } }
    ∧ t.rd CFG_LATCH_STATUS.swap_armed = 1 ∧ underWay t id = true ∧ OnlyTrack id { s with regs := t.regs, ctxs := t.ctxs } t ∧ SameRegs (keys
    [CFG_LATCH_STATUS.swap_armed]) s t) ∧
  (∀ (s : State) (id : Nat) (u : Track), Startable s id 0x14 u → 16 ≤ u.par 0x18 4 ∧ u.par 0x18 4 ≤ 528 → u.par 0x10 8 % 8 = 0 → (u.par 0x1C
    1).testBit 0 = true → u.par 0x20 12 = 0 → bankArmed s = false → s.ctxs.armed = none → s.ctxs.staging = none → Answers (.scheduleSet id) s fun t
    => t.link.reads = s.link.reads ++ [{ id := id, addr := u.par 0x10 8, length := u.par 0x18 4, got := [], at_ := s.now }] ∧ t.outbox = s.outbox ++
    [.hostRead id (u.par 0x10 8) (u.par 0x18 4)] ∧ underWay t id = true ∧ OnlyTrack id
    { s with link := { s.link with reads := t.link.reads }, outbox := t.outbox } t) ∧
  (∀ (s : State) (id : Nat) (u : Track), Startable s id 0x15 u → u.par 0x10 1 ≤ 7 → retireBusy s (u.par 0x10 1) = false → committed s (u.par 0x10 1)
    = true → Answers (.contextRetire id) s fun t => committed t (u.par 0x10 1) = false ∧ t.rd CFG_CTX_STATUS.state (u.par 0x10 1) = 0 ∧ (∀ f : Nat, f
    < frameCount → planeFrame t (u.par 0x10 1) f = 0) ∧ (∀ c : Nat, c < 8 → c ≠ u.par 0x10 1 → planeFrames t c = planeFrames s c ∧ committed t c =
    committed s c) ∧ endedWith t id .success 1 0 = true ∧ t.ctxs.active = s.ctxs.active ∧ t =
    { s with regs := t.regs, ctxs := t.ctxs, tiles := t.tiles, link := { s.link with tracks := t.link.tracks }, imgs := { s.imgs with ctx := t.imgs.ctx }, integ := { s.integ with queue := t.integ.queue, lost := t.integ.lost } })
    ∧
  (∀ (s : State) (id : Nat) (u : Track), Startable s id 0x15 u → u.par 0x10 1 ≤ 7 → retireBusy s (u.par 0x10 1) = false → committed s (u.par 0x10 1)
    = false → Answers (.contextRetire id) s fun t => endedWith t id .success 0 0 = true ∧ OnlyTrack id s t) ∧
  (∀ (s : State) (id : Nat) (u : Track) (swap : SwapData), Startable s id 0x7F u → u.par 0x10 1 = modeAssembly ∨ u.par 0x10 1 = modeService →
    modePair (s.rd DEV_MODE.mode) (u.par 0x10 1) = true → s.rd DEV_MODE.mode ≠ modeService → u.par 0x11 2 = 0 → s.safe.injection = none →
    transitioning s = false → Answers (.modeSet id swap) s fun t => t.rd DEV_MODE.mode = u.par 0x10 1 ∧ t.rd DEV_MODE.previous_mode = s.rd
    DEV_MODE.mode ∧ t.rd DEV_MODE.transitions = satAdd DEV_MODE.transitions.width (s.rd DEV_MODE.transitions) 1 % 2 ^ DEV_MODE.transitions.width ∧
    causeSet t scMode = true ∧ (causeSet s scMode = false → t.rd DEV_MODE.safe_state = 1 ∧ (∀ n : Nat, n < 16 → t.rd FHL_LANE_STATUS.egress_muted n =
    1)) ∧ ended t id .success = true ∧ (t.safe.log.any (fun e => e.kind == .modeChange && e.history)) = true ∧ t.ctxs = s.ctxs ∧ t.mem = s.mem ∧
    t.sec = s.sec ∧ t.imgs = s.imgs ∧ t.boot = s.boot) ∧
  (∀ (s : State) (id : Nat) (u : Track) (swap : SwapData), Startable s id 0x7F u → u.par 0x10 1 = modeRun → s.rd DEV_MODE.mode = modeAssembly → u.par
    0x11 1 ≤ 7 → committed s (u.par 0x11 1) = true → s.rd TIM_STATUS.state ≠ tmFree ∨ (u.par 0x12 1).testBit 0 = true → thermalLimit s = false →
    s.safe.injection = none → s.ctxs.staging = none → s.ctxs.armed = none → running s = false → stagedState s = stEmpty → stagingRefusal s (u.par
    0x11 1) = none → s.integ.queue = [] → transitioning s = false → Answers (.modeSet id swap) s fun t => t.boot =
    { s.boot with transition := some { dest := modeRun, id := id, ctx := u.par 0x11 1, since := s.now } } ∧ t.rd DEV_MODE.transition_busy = 1 ∧ t.rd
    DEV_MODE.mode = modeAssembly ∧ t.ctxs.staging = some { ctx := u.par 0x11 1, start := s.now, owner := .mode id, oldPlane := false } ∧ t.rd
    CFG_LATCH_STATUS.staged_state = stStaging ∧ underWay t id = true ∧ (∀ i : Nat, i < 1024 → tileOf t i =
    { tileOf s i with oldRanges := (tileOf t i).oldRanges }) ∧ t.imgs.ctx.map (fun p => (p.1, p.2.chain, p.2.digest, p.2.keyMask)) = s.imgs.ctx.map
    (fun p => (p.1, p.2.chain, p.2.digest, p.2.keyMask)) ∧ OnlyTrack id
    { s with regs := t.regs, boot := t.boot, ctxs := t.ctxs, imgs := { s.imgs with ctx := t.imgs.ctx }, tiles := t.tiles } t) ∧
  (∀ (s : State) (id : Nat) (u : Track) (swap : SwapData), Startable s id 0x7F u → u.par 0x10 1 = s.rd DEV_MODE.mode → u.par 0x10 1 = modeAssembly ∨
    u.par 0x10 1 = modeRun ∨ u.par 0x10 1 = modeService → u.par 0x11 2 = 0 → transitioning s = false → Answers (.modeSet id swap) s fun t => ended t
    id .success = true ∧ OnlyTrack id s t)

/-- A DMA command takes the lowest free mover. DMA_MOVE from host memory asks the host for its first piece; from the device it makes the read of its
  first piece; a pattern piece of DMA_FILL to the host is written and the command ends with its count; DMA_GATHER reads its list. TELEMETRY_READ
  writes its page, its length the result. FAULT_LOG_READ writes the oldest entries and removes them where consume asks for it. THROTTLE_ACK of
  the outstanding request acknowledges it; another number is INVALID_FIELD. (15_command_set.md, 22_faults_safety_and_self_test.md,
  19_wicket_and_thermal.md) -/
def Obligations.DmaAndReportCommands : Prop :=
  (∀ (s : State) (id : Nat) (u : Track) (m : Nat), Startable s id 0x20 u → moversIssue s = true → freeMover s = some m → dmaOf s id = none → (u.par
    0x24 1).testBit 0 = true → (u.par 0x24 1).testBit 1 = false → u.par 0x20 4 ≠ 0 → u.par 0x10 8 % 8 = 0 → u.par 0x18 8 < 2 ^ 56 → s.rd
    DEV_MODE.mode ≠ modeShadow → Answers (.dmaMove id) s fun t => t.dmas = s.dmas ++
    [{ id := id, mover := m, elems := [{ src := u.par 0x10 8, dst := u.par 0x18 8, len := u.par 0x20 4, srcHost := true, dstHost := false, pattern := none, bad := false }], idx := 0, off := 0, issued := 0, wait := .hostRead (deviceChunk (u.par 0x18 8) (u.par 0x20 4)), gather := false }]
    ∧ t.outbox = s.outbox ++ [.hostRead id (u.par 0x10 8) (deviceChunk (u.par 0x18 8) (u.par 0x20 4))] ∧ t.link.reads = s.link.reads ++
    [{ id := id, addr := u.par 0x10 8, length := deviceChunk (u.par 0x18 8) (u.par 0x20 4), got := [], at_ := s.now }] ∧ underWay t id = true ∧
    OnlyTrack id { s with dmas := t.dmas, outbox := t.outbox, link := { s.link with reads := t.link.reads } } t) ∧
  (∀ (s : State) (id : Nat) (u : Track) (m : Nat), Startable s id 0x20 u → moversIssue s = true → freeMover s = some m → dmaOf s id = none → u.par
    0x24 1 % 4 = 2 → u.par 0x20 4 ≠ 0 → u.par 0x18 8 % 8 = 0 → u.par 0x10 8 < 2 ^ 56 → Answers (.dmaMove id) s fun t => t.dmas.length = s.dmas.length
    + 1 ∧ (∀ d ∈ dmaOf t id, d.mover = m ∧ d.issued = 0 ∧ d.wait = .devRead (pieceSize (moveOf u false) 0)) ∧ (∀ r ∈ t.noc.waiting.getLast?, r.init =
    m ∧ r.write = false ∧ r.pa = u.par 0x10 8 / 64 * 64) ∧ t.noc.waiting.length = s.noc.waiting.length + 1 ∧ underWay t id = true ∧ OnlyTrack id
    { s with dmas := t.dmas, noc := { s.noc with waiting := t.noc.waiting } } t) ∧
  (∀ (s : State) (id : Nat) (u : Track) (m : Nat), Startable s id 0x21 u → moversIssue s = true → freeMover s = some m → dmaOf s id = none → (u.par
    0x24 1).testBit 1 = true → u.par 0x20 4 ≠ 0 → u.par 0x20 4 ≤ 512 → u.par 0x10 8 % 8 = 0 → s.link.up = true → s.link.reads = [] → Answers
    (.dmaFill id) s fun t => t.outbox = s.outbox ++ [.hostWrite (u.par 0x10 8) ((List.range (u.par 0x20 4)).map (fun i => BitVec.ofNat 8 (u.par 0x18
    8 >>> (8 * (i % 8)))))] ∧ endedWith t id .success (u.par 0x20 4) 0 = true ∧ t.dmas = s.dmas ∧ OnlyTrack id { s with outbox := t.outbox } t) ∧
  (∀ (s : State) (id : Nat) (u : Track) (m : Nat), Startable s id 0x22 u → moversIssue s = true → freeMover s = some m → dmaOf s id = none → 1 ≤
    u.par 0x18 4 ∧ u.par 0x18 4 ≤ 4096 → u.par 0x10 8 % 8 = 0 → Answers (.dmaGather id) s fun t => t.dmas = s.dmas ++
    [{ id := id, mover := m, elems := [], idx := 0, off := 0, issued := 0, wait := .none, gather := true }] ∧ t.link.reads = s.link.reads ++
    [{ id := id, addr := u.par 0x10 8, length := 24 * u.par 0x18 4, got := [], at_ := s.now }] ∧ t.outbox = s.outbox ++ [.hostRead id (u.par 0x10 8)
    (24 * u.par 0x18 4)] ∧ underWay t id = true ∧ OnlyTrack id
    { s with dmas := t.dmas, outbox := t.outbox, link := { s.link with reads := t.link.reads } } t) ∧
  (∀ (s : State) (id : Nat) (u : Track), Startable s id 0x61 u → u.par 0x1C 1 = 3 ∨ u.par 0x1C 1 = 4 → u.par 0x10 8 % 8 = 0 → 16 + (pageOf s (u.par
    0x1C 1)).1.length ≤ u.par 0x18 4 → s.link.up = true → Answers (.telemetryRead id) s fun t => t.outbox = s.outbox ++ [.hostWrite (u.par 0x10 8)
    (leBytes 1 (u.par 0x1C 1) ++ leBytes 1 1 ++ leBytes 2 (pageOf s (u.par 0x1C 1)).1.length ++ leBytes 12 (time96 (counter s)) ++ (pageOf s (u.par
    0x1C 1)).1)] ∧ endedWith t id .success (16 + (pageOf s (u.par 0x1C 1)).1.length) 0 = true ∧ OnlyTrack id
    { s with outbox := t.outbox, free := t.free } t) ∧
  (∀ (s : State) (id : Nat) (u : Track), Startable s id 0x62 u → 1 ≤ u.par 0x18 2 ∧ u.par 0x18 2 ≤ 1024 → u.par 0x10 8 % 8 = 0 → s.link.up = true →
    s.safe.log.length ≤ 512 → Answers (.faultLogRead id) s fun t => t.outbox = s.outbox ++ [.hostWrite (u.par 0x10 8) ((s.safe.log.take (u.par 0x18
    2)).flatMap entryBytes)] ∧ t.safe = { s.safe with log := if (u.par 0x1A 1).testBit 0 then s.safe.log.drop (u.par 0x18 2) else s.safe.log } ∧ t.rd
    SAF_LOG_STATUS.entries = t.safe.log.length ∧ endedWith t id .success (s.safe.log.take (u.par 0x18 2)).length t.safe.log.length = true ∧ OnlyTrack
    id { s with outbox := t.outbox, safe := t.safe, regs := t.regs } t ∧ SameRegs (keys [SAF_LOG_STATUS.entries]) s t) ∧
  (∀ (s : State) (id : Nat) (u : Track), Startable s id 0x63 u → thState s ≠ thIdle → u.par 0x10 2 = s.rd THM_THROTTLE_STATUS.request → Answers
    (.throttleAck id) s fun t => t.rd THM_THROTTLE_STATUS.acked = 1 ∧ ended t id .success = true ∧ OnlyTrack id { s with regs := t.regs } t ∧
    SameRegs (keys [THM_THROTTLE_STATUS.acked]) s t) ∧
  (∀ (s : State) (id : Nat) (u : Track), Startable s id 0x63 u → thState s = thIdle ∨ u.par 0x10 2 ≠ s.rd THM_THROTTLE_STATUS.request → Answers
    (.throttleAck id) s fun t => ended t id .invalidField = true ∧ OnlyTrack id s t)

/-- TIME_ADJUST adds its value to the counter, or sets it, on the next swap-grid edge; in FREERUN it sets the frequency; with at_frame it waits for
  the next frame boundary. HOLDOVER_CONTROL reports the state, class, learned time and the bound of an 8 h outage; it sets the class, or forces
  the model's holdover. TIMED_OUTPUT_SET arms its output at its idle level. EYE_SCAN of an UP lane starts, and leaves the lane in service unless
  it is intrusive. (15_command_set.md, 18_timing_and_holdover.md, 16_fronthaul_lanes.md) -/
def Obligations.TimeAndScanCommands : Prop :=
  (∀ (s : State) (id : Nat) (u : Track), Startable s id 0x41 u → u.par 0x10 1 = 0 → (u.par 0x11 1).testBit 0 = false → running s = false →
    s.ctxs.armed = none → Answers (.timeAdjust id) s fun t => (counter t : Int) = ((counter (advanceTo s (gridEdge s s.now)) : Int) + toSigned 64
    (u.par 0x18 8)) % (counterSpan : Int) ∧ t.now = (advanceTo s (gridEdge s s.now)).now ∧ ended t id .success = true ∧ t.tim.lastStep = toSigned 64
    (u.par 0x18 8) ∧ t.tim.ppt = s.tim.ppt ∧ OnlyTrack id
    { s with now := t.now, tim := t.tim, regs := t.regs, link := { s.link with pendingMsix := t.link.pendingMsix }, outbox := t.outbox } t) ∧
  (∀ (s : State) (id : Nat) (u : Track), Startable s id 0x41 u → u.par 0x10 1 = 1 → (u.par 0x11 1).testBit 0 = false → timeOk (u.par 0x18 12) = true
    → running s = false → s.ctxs.armed = none → Answers (.timeAdjust id) s fun t => counter t = u.time 0x18 ∧ t.now = (advanceTo s (gridEdge s
    s.now)).now ∧ ended t id .success = true ∧ t.tim.ppt = s.tim.ppt ∧ t.ctxs = s.ctxs ∧ t.mem = s.mem) ∧
  (∀ (s : State) (id : Nat) (u : Track), Startable s id 0x41 u → u.par 0x10 1 = 2 → (u.par 0x11 1).testBit 0 = false → (toSigned 32 (u.par 0x18
    4)).natAbs ≤ 500000000 → s.tim.eng.state = tmFree → Answers (.timeAdjust id) s fun t => t.tim = { s.tim with ppt := toSigned 32 (u.par 0x18 4) }
    ∧ ended t id .success = true ∧ OnlyTrack id { s with tim := t.tim } t) ∧
  (∀ (s : State) (id : Nat) (u : Track), Startable s id 0x41 u → u.par 0x10 1 = 0 → (u.par 0x11 1).testBit 0 = true → s.rd DEV_MODE.mode ≠ modeLead →
    Answers (.timeAdjust id) s fun t => t.tim =
    { s.tim with steps := s.tim.steps ++ [{ id := some id, kind := 0, value := toSigned 64 (u.par 0x18 8), edge := frameBoundary (counter s + 1), engine := false, pair := false }] }
    ∧ underWay t id = true ∧ OnlyTrack id { s with tim := t.tim } t) ∧
  (∀ (s : State) (id : Nat) (u : Track), Startable s id 0x42 u → u.par 0x10 1 = 4 → u.par 0x11 1 ≤ 3 → s.rd DEV_MODE.mode ≠ modeShadow → s.rd
    TIM_LEARNED.learned_s < 2 ^ 32 → s.tim.eng.state < 8 → Answers (.holdoverControl id) s fun t => t.rd TIM_HO_CFG.osc_class = u.par 0x11 1 ∧
    endedWith t id .success (s.tim.eng.state + u.par 0x11 1 * 16 + s.rd TIM_LEARNED.learned_s * 256) (predictedBound t) = true ∧ OnlyTrack id
    { s with regs := t.regs, tim := { s.tim with temp := t.tim.temp, fallback := t.tim.fallback } } t ∧ SameRegs (keys [TIM_HO_CFG.osc_class]) s t) ∧
  (∀ (s : State) (id : Nat) (u : Track), Startable s id 0x42 u → u.par 0x10 1 = 1 → u.par 0x11 1 = 0 → s.rd DEV_MODE.mode ≠ modeShadow →
    s.tim.eng.state = tmLocked → modelUsable s = true → s.rd TIM_STATUS.time_pll_src = 0 → Answers (.holdoverControl id) s fun t => t.tim.eng.state =
    tmLearned ∧ t.tim.eng.previous = tmLocked ∧ t.tim.eng.outage = some s.now ∧ t.tim.eng.bound = 30000000 ∧ t.rd TIM_STATUS.forced = 1 ∧ t.rd
    TIM_STATUS.state = tmLearned ∧ ended t id .success = true ∧ t.tim.fine = s.tim.fine ∧ t.now = s.now ∧ OnlyTrack id
    { s with regs := t.regs, tim := t.tim, link := { s.link with pendingMsix := t.link.pendingMsix }, outbox := t.outbox } t) ∧
  (∀ (s : State) (id : Nat) (u : Track), Startable s id 0x42 u → u.par 0x10 1 = 1 → u.par 0x11 1 = 0 → s.rd DEV_MODE.mode ≠ modeShadow →
    s.tim.eng.state ≠ tmLocked ∨ modelUsable s = false → Answers (.holdoverControl id) s fun t => ended t id .notReady = true ∧ OnlyTrack id
    { s with tim := { s.tim with temp := t.tim.temp, fallback := t.tim.fallback } } t) ∧
  (∀ (s : State) (id : Nat) (u : Track), Startable s id 0x43 u → u.par 0x10 1 ≤ 7 → 1 ≤ u.par 0x11 1 ∧ u.par 0x11 1 ≤ 3 → timeOk (u.par 0x18 12) =
    true → counter s < u.time 0x18 → (u.par 0x11 1 ≠ 3 → u.par 0x14 4 ≠ 0) → (u.par 0x11 1 = 2 → u.par 0x14 4 < u.par 0x24 4) → (toutOf s (u.par 0x10
    1)).high = none → Answers (.timedOutputSet id) s fun t => toutOf t (u.par 0x10 1) =
    { arm := { mode := u.par 0x11 1, active := (u.par 0x12 1).testBit 0, safeLevel := (u.par 0x12 1).testBit 1, width := u.par 0x14 4, start := u.time 0x18, period := u.par 0x24 4, count := u.par 0x28 4 }, pulses := 0, high := none, next := none }
    ∧ bit (t.rd TIM_TOUT_STATUS.armed) (u.par 0x10 1) = true ∧ bit (t.rd TIM_TOUT_STATUS.level) (u.par 0x10 1) = (if driving s then !(u.par 0x12
    1).testBit 0 else (u.par 0x12 1).testBit 1) ∧ (∀ n : Nat, n < 8 → n ≠ u.par 0x10 1 → toutOf t n = toutOf s n) ∧ ended t id .success = true ∧
    OnlyTrack id { s with regs := t.regs, tim := { s.tim with touts := t.tim.touts } } t ∧ SameRegs (keys [TIM_TOUT_STATUS.armed,
    TIM_TOUT_STATUS.level]) s t) ∧
  (∀ (s : State) (id : Nat) (u : Track) (n : Nat), Startable s id 0x44 u → u.par 0x10 1 = 0 → u.par 0x11 1 = n → n < 16 → (u.par 0x12 1).testBit 0 =
    false → 8192 ≤ u.par 0x20 4 → 1 ≤ u.par 0x14 4 ∧ u.par 0x14 4 ≤ 1000 → u.par 0x18 8 % 8 = 0 → noScan s 0 n = false → s.fh.scans = [] → Answers
    (.eyeScan id) s fun t => t.fh = { s.fh with scans := [{ id := id, group := 0, lane := n, intrusive := false, start := s.now }] } ∧ t.rd
    FHL_LANE_STATUS.scan_busy n = 1 ∧ laneState t n = lnUp ∧ underWay t id = true ∧ OnlyTrack id { s with fh := t.fh, regs := t.regs } t ∧ SameRegs
    [FHL_LANE_STATUS.scan_busy.key n 0] s t) ∧
  (∀ (s : State) (id : Nat) (u : Track), Startable s id 0x44 u → u.par 0x10 1 = 0 → u.par 0x11 1 < 16 → (u.par 0x12 1).testBit 0 = false → 8192 ≤
    u.par 0x20 4 → 1 ≤ u.par 0x14 4 ∧ u.par 0x14 4 ≤ 1000 → u.par 0x18 8 % 8 = 0 → noScan s 0 (u.par 0x11 1) = true → Answers (.eyeScan id) s fun t
    => ended t id .notReady = true ∧ OnlyTrack id s t)

/-- A lane enabled in an allowed mode goes to ACQUIRE, CDR lock takes it to ALIGN with the best peaking code, alignment to UP, and 1 ms later its
  timestamps have settled. A lane not through in time waits 10 ms and tries again. A disabled lane is OFF, unless DROPPED; an UP lane without a
  link goes to ACQUIRE and the departure is counted. A silent transmitter enters electrical idle; a tolerated loss of signal holds the lane UP
  until it returns, or relock fails. Other lanes keep their state. (16_fronthaul_lanes.md, 18_timing_and_holdover.md) -/
def Obligations.LanesComeUpAndGoDown : Prop :=
  (∀ (s : State) (n : Fin 16) (v : Word), s.link.up = true → s.rd DEV_MODE.mode ≠ 0 → s.boot.coreUp = true → s.rd FHL_LANE_CFG.enable n = 0 →
    porterUp s = true → 1 ≤ bits v.toNat 0 3 ∧ bits v.toNat 0 3 ≤ 3 → 1518 ≤ bits v.toNat 16 14 ∧ bits v.toNat 16 14 ≤ 9600 → s.rd FHL_LANE_CFG.mode
    (n - 1) ≠ 4 → laneState s n ≠ lnDropped → Answers (.laneEnable n v) s fun t => laneState t n = lnAcquire ∧ laneOf t n = (laneOf s n).fresh s.now
    ∧ t.rd FHL_LANE_CFG.enable n = 1 ∧ t.rd FHL_LANE_CFG.mode n = bits v.toNat 0 3 ∧ t.rd FHL_LANE_CFG.max_frame n = bits v.toNat 16 14 ∧ t.rd
    FHL_LANE_STATUS.mode_in_use n = bits v.toNat 0 3 ∧ t = { s with regs := t.regs, fh := { s.fh with lanes := t.fh.lanes } } ∧ (∀ m : Nat, m < 16 →
    m ≠ (n : Nat) → laneOf t m = laneOf s m) ∧ SameRegs (laneKeys n ++ keys [FHL_LANE_CFG.mode, FHL_LANE_CFG.fec, FHL_LANE_CFG.enable,
    FHL_LANE_CFG.ei_enable, FHL_LANE_CFG.rx_ei_tolerate, FHL_LANE_CFG.peak_manual, FHL_LANE_CFG.peak_code, FHL_LANE_CFG.tx_preset,
    FHL_LANE_CFG.max_frame, FHL_LANE_STATUS.mode_in_use] n) s t) ∧
  (∀ (s : State) (n : Fin 16) (v : Word), s.link.up = true → s.rd DEV_MODE.mode ≠ 0 → s.boot.coreUp = true → laneState s n ≠ lnDropped → s.fh.scans =
    [] → Answers (.laneDisable n v) s fun t => laneState t n = lnOff ∧ t.rd FHL_LANE_CFG.enable n = 0 ∧ (s.rd FHL_LANE_CFG.enable n = 1 → t.rd
    FHL_LANE_CFG.mode n = s.rd FHL_LANE_CFG.mode n) ∧ OnlyLane n s t ∧ SameRegs (laneKeys n ++ synceKeys ++ keys [FHL_LANE_CFG.mode,
    FHL_LANE_CFG.fec, FHL_LANE_CFG.enable, FHL_LANE_CFG.ei_enable, FHL_LANE_CFG.rx_ei_tolerate, FHL_LANE_CFG.peak_manual, FHL_LANE_CFG.peak_code,
    FHL_LANE_CFG.tx_preset, FHL_LANE_CFG.max_frame, FHL_LANE_STATUS.refused] n) s t) ∧
  (∀ (s : State) (n : Fin 16) (h : List Nat), laneState s n = lnAcquire → (laneOf s n).wait = false → (laneOf s n).looped = false → porterUp s = true
    → Answers (.cdrLock n h) s fun t => laneState t n = lnAlign ∧ laneOf t n = (laneOf s n).fresh s.now ∧ (s.rd FHL_LANE_CFG.peak_manual n = 1 → t.rd
    FHL_LANE_STATUS.peak_in_use n = s.rd FHL_LANE_CFG.peak_code n % 16) ∧ (s.rd FHL_LANE_CFG.peak_manual n ≠ 1 → ∀ c : Nat, c < 16 → h.getD c 0 ≤
    h.getD (t.rd FHL_LANE_STATUS.peak_in_use n) 0 ∧ (c < t.rd FHL_LANE_STATUS.peak_in_use n → h.getD c 0 < h.getD (t.rd FHL_LANE_STATUS.peak_in_use
    n) 0)) ∧ t = { s with regs := t.regs, fh := { s.fh with lanes := t.fh.lanes } } ∧ (∀ m : Nat, m < 16 → m ≠ (n : Nat) → laneOf t m = laneOf s m) ∧
    SameRegs (laneKeys n ++ keys [FHL_LANE_STATUS.peak_in_use] n) s t) ∧
  (∀ (s : State) (n : Fin 16), laneState s n = lnAlign → (laneOf s n).wait = false → porterUp s = true → Answers (.laneAlignLock n) s fun t =>
    laneState t n = lnUp ∧ laneOf t n = (laneOf s n).fresh s.now ∧ t = { s with regs := t.regs, fh := { s.fh with lanes := t.fh.lanes } } ∧ (∀ m :
    Nat, m < 16 → m ≠ (n : Nat) → laneOf t m = laneOf s m) ∧ SameRegs (laneKeys n ++ []) s t) ∧
  (∀ (s : State) (n : Fin 16), laneState s n = lnAcquire ∨ laneState s n = lnAlign → (laneOf s n).wait = false → (laneOf s n).looped = false →
    Answers (.laneAcquireTimeout n) s fun t => t.now = max s.now ((laneOf s n).since + (if laneState s n = lnAcquire then 2 else 1) * msTicks) ∧
    laneOf t n = { laneOf s n with wait := true, since := t.now } ∧ laneState t n = laneState s n ∧ t =
    { s with now := t.now, tim := t.tim, fh := { s.fh with lanes := t.fh.lanes } } ∧ (∀ m : Nat, m < 16 → m ≠ (n : Nat) → laneOf t m = laneOf s m)) ∧
  (∀ (s : State) (n : Fin 16), (laneOf s n).wait = true → Answers (.laneRetryWaitEnd n) s fun t => laneState t n = lnAcquire ∧ t.now = max s.now
    ((laneOf s n).since + 10 * msTicks) ∧ laneOf t n = (laneOf s n).fresh t.now ∧ t =
    { s with now := t.now, tim := t.tim, regs := t.regs, fh := { s.fh with lanes := t.fh.lanes } } ∧ (∀ m : Nat, m < 16 → m ≠ (n : Nat) → laneOf t m
    = laneOf s m) ∧ SameRegs (laneKeys n ++ []) s t) ∧
  (∀ (s : State) (n : Fin 16), laneState s n = lnUp → s.fh.scans = [] → Answers (.laneLinkLoss n) s fun t => laneState t n = lnAcquire ∧ laneOf t n =
    (laneOf s n).fresh s.now ∧ t.rd FHL_TX_COUNTS.link_down n = satAdd 8 (s.rd FHL_TX_COUNTS.link_down n) 1 % 2 ^ 8 ∧ t.rd FHL_LANE_STATUS.ts_settled
    n = 0 ∧ OnlyLane n s t ∧ SameRegs (laneKeys n ++ synceKeys) s t) ∧
  (∀ (s : State) (n : Fin 16), laneState s n = lnUp → s.rd FHL_LANE_STATUS.ts_settled n = 0 → (laneOf s n).txEi = false → (laneOf s n).rxEi = false →
    Answers (.tsSettle n) s fun t => t.rd FHL_LANE_STATUS.ts_settled n = 1 ∧ t.rd FHL_LANE_STATUS.rclk_valid n = 1 ∧ t.rd FHL_LANE_STATUS.in_ei n = 0
    ∧ laneState t n = lnUp ∧ t.now = max s.now ((laneOf s n).since + msTicks) ∧ OnlyLane n s t ∧ SameRegs (laneKeys n ++ synceKeys) s t) ∧
  (∀ (s : State) (n : Fin 16), s.rd DEV_MODE.mode = modeRun → s.rd FHL_LANE_CFG.ei_enable n = 1 → laneState s n = lnUp → laneMode s n = 1 ∨ laneMode
    s n = 2 → s.rd TIM_STATUS.synce_sel ≠ n → s.rd CLK_REF_STATUS.current ≠ (n : Nat) + 1 → txPending s n = false → (laneOf s n).txEi = false →
    Answers (.eiEntry n) s fun t => laneOf t n = { laneOf s n with txEi := true } ∧ t.rd FHL_LANE_STATUS.in_ei n = 1 ∧ t.rd
    FHL_LANE_STATUS.rclk_valid n = 0 ∧ laneState t n = lnUp ∧ t.now = txEmptyAt s n + 10 * s.rd FHL_LANE_CFG2.ei_entry n * nsTicks ∧ (∀ e ∈ (laneOf s
    n).onWire, e.1 + 10 * s.rd FHL_LANE_CFG2.ei_entry n * nsTicks ≤ t.now) ∧ t =
    { s with now := t.now, tim := t.tim, regs := t.regs, fh := { s.fh with lanes := t.fh.lanes, scans := t.fh.scans } } ∧ (∀ m : Nat, m < 16 → m ≠ (n
    : Nat) → laneOf t m = laneOf s m) ∧ SameRegs (laneKeys n ++ []) s t) ∧
  (∀ (s : State) (n : Fin 16), laneState s n = lnUp → s.rd FHL_LANE_CFG.rx_ei_tolerate n = 1 → Answers (.rxSignalLossEi n) s fun t => laneState t n =
    lnUp ∧ (laneOf t n).rxEi = true ∧ t.rd FHL_LANE_STATUS.in_ei n = 1 ∧ t.rd FHL_LANE_STATUS.rclk_valid n = 0 ∧ OnlyLane n
    { s with fh := { s.fh with scans := t.fh.scans } } t ∧ SameRegs (laneKeys n ++ synceKeys) s t) ∧
  (∀ (s : State) (n : Fin 16), laneState s n = lnUp → s.rd FHL_LANE_CFG.rx_ei_tolerate n ≠ 1 → s.fh.scans = [] → Answers (.rxSignalLossEi n) s fun t
    => laneState t n = lnAcquire ∧ laneOf t n = (laneOf s n).fresh s.now ∧ OnlyLane n s t ∧ SameRegs (laneKeys n ++ synceKeys) s t) ∧
  (∀ (s : State) (n : Fin 16), (laneOf s n).rxEi = true → (laneOf s n).txEi = false → Answers (.eiSignalReturn n) s fun t => (laneOf t n).rxEi =
    false ∧ t.rd FHL_LANE_STATUS.in_ei n = 0 ∧ laneState t n = laneState s n ∧ OnlyLane n { s with fh := { s.fh with scans := t.fh.scans } } t ∧
    SameRegs (laneKeys n ++ synceKeys) s t) ∧
  (∀ (s : State) (n : Fin 16), (laneOf s n).rxEi = true → laneState s n = lnUp → s.fh.scans = [] → Answers (.eiRelockTimeout n) s fun t => laneState
    t n = lnAcquire ∧ t.now = s.now + usTicks ∧ laneOf t n = (laneOf s n).fresh t.now ∧ OnlyLane n s t ∧ SameRegs (laneKeys n ++ synceKeys) s t)

/-- A good frame is handed to the bound stream port of its lane with its timestamp and rule, by the lowest matching rule or the default; pause
  frames are discarded and a full buffer drops the frame, both counted. A delivery to a tile is written by requests of the lane for that tile,
  which reach X memory 18 hc after the first word's time at the stream port. An egress frame leaves padded to 64 bytes, after its lane's latency
  and after the frame before it with the gap of 12 bytes, or is discarded and counted while egress is muted or the lane not UP. A published
  slow-path entry is read, then sent, or not where it is invalid, and its status written back; with the answer to that write the head moves on.
  A lane beyond its error limit is DROPPED, logged and degraded. A finished scan writes its 4,096 points and ends. (16_fronthaul_lanes.md,
  22_faults_safety_and_self_test.md) -/
def Obligations.FramesScansAndLaneErrors : Prop :=
  (∀ (s : State) (n : Fin 16) (l : List Byte) (off : Int), laneState s n = lnUp → s.boot.coreUp = true → s.boot.d0 = .idle → ¬(be l 12 2 = 0x8808 ∧
    be l 14 2 = 1) → s.rd FHL_LANE_CFG.max_frame n ≤ bufSize s n - bufUsed (laneOf s n) → 60 ≤ l.length → l.length + 4 ≤ s.rd FHL_LANE_CFG.max_frame
    n → ruleOf s n (classKey l) = none → s.rd FHL_CLS_DEFAULT.action n = 1 → (sparseFind s.fh.bound n).any (channelLive s) = true → dieOpen s 2 =
    true → holdCycle s = false → Answers (.frameReceived n l false false off true) s fun t => t.outbox = s.outbox ++ (laneOf s n).buf.map (fun f =>
    .streamIn n (max s.now f.ready) f.data f.err f.info) ++ [.streamIn n (max s.now (((s.now : Int) + off * nsTicks / 65536).toNat + rxLatency s n *
    hcTicks s)) l false (rxMeta
    { status := 0, rule := (s.fresh 6).1.toNat, time := stamp s off (s.rd FHL_TS_ADJ_RX.adj n), unsettled := !s.rdb FHL_LANE_STATUS.ts_settled n })]
    ∧ (laneOf t n) = { laneOf s n with buf := [] } ∧ t = { s with fh := { s.fh with lanes := t.fh.lanes }, outbox := t.outbox, free := t.free } ∧ (∀
    m : Nat, m < 16 → m ≠ (n : Nat) → laneOf t m = laneOf s m)) ∧
  (∀ (s : State) (n : Fin 16) (l : List Byte) (off : Int) (r : Nat), laneState s n = lnUp → s.boot.coreUp = true → s.boot.d0 = .idle → ¬(be l 12 2 =
    0x8808 ∧ be l 14 2 = 1) → s.rd FHL_LANE_CFG.max_frame n ≤ bufSize s n - bufUsed (laneOf s n) → 60 ≤ l.length → l.length + 4 ≤ s.rd
    FHL_LANE_CFG.max_frame n → ruleOf s n (classKey l) = some r → s.rd FHL_RULE.action n r = 1 → Answers (.frameReceived n l false false off false) s
    fun t => (laneOf t n).buf = (laneOf s n).buf ++
    [{ ready := ((s.now : Int) + off * nsTicks / 65536).toNat + rxLatency s n * hcTicks s, data := l, err := false, info := rxMeta { status := 0, rule := r, time := stamp s off (s.rd FHL_TS_ADJ_RX.adj n), unsettled := !s.rdb FHL_LANE_STATUS.ts_settled n } }]
    ∧ t = { s with fh := { s.fh with lanes := t.fh.lanes } } ∧ (∀ m : Nat, m < 16 → m ≠ (n : Nat) → laneOf t m = laneOf s m)) ∧
  (∀ (s : State) (n : Fin 16) (l : List Byte) (off : Int) (r : Nat) (ready : Bool), laneState s n = lnUp → s.boot.coreUp = true → s.boot.d0 = .idle →
    ¬(be l 12 2 = 0x8808 ∧ be l 14 2 = 1) → s.rd FHL_LANE_CFG.max_frame n ≤ bufSize s n - bufUsed (laneOf s n) → 60 ≤ l.length → l.length + 4 ≤ s.rd
    FHL_LANE_CFG.max_frame n → ruleOf s n (classKey l) = some r → s.rd FHL_RULE.action n r = 4 → s.rd FHL_RULE.ring_len n r ≠ 0 → s.rd
    FHL_RULE.ring_base n r + s.rd FHL_RULE.ring_len n r ≤ 8192 → s.rd FHL_RULE.tile n r < 1024 → Answers (.frameReceived n l false false off ready) s
    fun t => (t.noc.waiting.take s.noc.waiting.length = s.noc.waiting ∧ s.noc.waiting.length < t.noc.waiting.length ∧ ∀ x ∈ t.noc.waiting.drop
    s.noc.waiting.length, x.init = 0x90 + n.val ∧ x.owner = .frame ∧ x.write = true ∧ x.kidValid = false ∧ targetOf (locOf x.pa) = .tile (s.rd
    FHL_RULE.tile n r) ∧ x.notBefore = ((s.now : Int) + off * nsTicks / 65536).toNat + (rxLatency s n + 18) * hcTicks s) ∧ t =
    { s with noc := { s.noc with waiting := t.noc.waiting }, fh := { s.fh with rings := t.fh.rings } }) ∧
  (∀ (s : State) (n : Fin 16) (l : List Byte) (off : Int) (fcs : Bool) (pcs : Bool) (ready : Bool), laneState s n = lnUp → s.boot.coreUp = true →
    s.boot.d0 = .idle → (be l 12 2 = 0x8808 ∧ be l 14 2 = 1) → Answers (.frameReceived n l fcs pcs off ready) s fun t => t.rd
    FHL_RX_COUNTS.pause_discarded n = satAdd FHL_RX_COUNTS.pause_discarded.width (s.rd FHL_RX_COUNTS.pause_discarded n) 1 % 2 ^
    FHL_RX_COUNTS.pause_discarded.width ∧ OnlyRegs [FHL_RX_COUNTS.pause_discarded.key n 0] s t) ∧
  (∀ (s : State) (n : Fin 16) (l : List Byte) (off : Int) (fcs : Bool) (pcs : Bool) (ready : Bool), laneState s n = lnUp → s.boot.coreUp = true →
    s.boot.d0 = .idle → ¬(be l 12 2 = 0x8808 ∧ be l 14 2 = 1) → ¬(s.rd FHL_LANE_CFG.max_frame n ≤ bufSize s n - bufUsed (laneOf s n)) → Answers
    (.frameReceived n l fcs pcs off ready) s fun t => t.rd FHL_RX_COUNTS.rx_overflow n = satAdd FHL_RX_COUNTS.rx_overflow.width (s.rd
    FHL_RX_COUNTS.rx_overflow n) 1 % 2 ^ FHL_RX_COUNTS.rx_overflow.width ∧ OnlyRegs [FHL_RX_COUNTS.rx_overflow.key n 0] s t) ∧
  (∀ (s : State) (n : Fin 16) (l : List Byte) (under : Bool), s.boot.coreUp = true → s.boot.d0 = .idle → dieOpen s 2 = true → (sparseFind s.fh.bound
    n).any (channelLive s) = true → holdCycle s = false → laneState s n = lnUp → s.rd DEV_MODE.mode = modeRun → s.rd DEV_MODE.safe_state ≠ 1 →
    (laneOf s n).txEi = false → (laneOf s n).onWire = [] → Answers (.streamEgressFrame n l under) s fun t => t.outbox = s.outbox ++ [.egress n (s.now
    + txLatency s n * hcTicks s) (overwrite s l ++ List.replicate (60 - (overwrite s l).length) 0) under] ∧ laneOf t n =
    { laneOf s n with onWire := [(s.now + txLatency s n * hcTicks s + macTicks s n ((overwrite s l ++ List.replicate (60 - (overwrite s l).length) 0).length + 12), true)] }
    ∧ (∀ m : Nat, m < 16 → m ≠ (n : Nat) → laneOf t m = laneOf s m) ∧ (s.pair.overwrite = false → overwrite s l = l) ∧ (under = true → t.rd
    FHL_TX_COUNTS.underrun n = satAdd FHL_TX_COUNTS.underrun.width (s.rd FHL_TX_COUNTS.underrun n) 1 % 2 ^ FHL_TX_COUNTS.underrun.width) ∧ t =
    { s with regs := t.regs, fh := { s.fh with lanes := t.fh.lanes }, outbox := t.outbox } ∧ SameRegs (if under then [FHL_TX_COUNTS.underrun.key n 0]
    else []) s t) ∧
  (∀ (s : State) (n : Fin 16) (l : List Byte) (under : Bool) (e : Nat) (b : Bool), s.boot.coreUp = true → s.boot.d0 = .idle → dieOpen s 2 = true →
    (sparseFind s.fh.bound n).any (channelLive s) = true → holdCycle s = false → laneState s n = lnUp → s.rd DEV_MODE.mode = modeRun → s.rd
    DEV_MODE.safe_state ≠ 1 → (laneOf s n).txEi = false → (laneOf s n).onWire = [(e, b)] → s.now < e → Answers (.streamEgressFrame n l under) s fun t
    => t.outbox = s.outbox ++ [.egress n (max (s.now + txLatency s n * hcTicks s) (e + macTicks s n 12)) (overwrite s l ++ List.replicate (60 -
    (overwrite s l).length) 0) under] ∧ laneOf t n =
    { laneOf s n with onWire := [(e, b)] ++ [(max (s.now + txLatency s n * hcTicks s) (e + macTicks s n 12) + macTicks s n ((overwrite s l ++ List.replicate (60 - (overwrite s l).length) 0).length + 12), true)] }
    ∧ (∀ m : Nat, m < 16 → m ≠ (n : Nat) → laneOf t m = laneOf s m) ∧ (s.pair.overwrite = false → overwrite s l = l) ∧ (under = true → t.rd
    FHL_TX_COUNTS.underrun n = satAdd FHL_TX_COUNTS.underrun.width (s.rd FHL_TX_COUNTS.underrun n) 1 % 2 ^ FHL_TX_COUNTS.underrun.width) ∧ t =
    { s with regs := t.regs, fh := { s.fh with lanes := t.fh.lanes }, outbox := t.outbox } ∧ SameRegs (if under then [FHL_TX_COUNTS.underrun.key n 0]
    else []) s t) ∧
  (∀ (s : State) (n : Fin 16) (l : List Byte) (under : Bool), s.boot.coreUp = true → s.boot.d0 = .idle → dieOpen s 2 = true → (sparseFind s.fh.bound
    n).any (channelLive s) = true → holdCycle s = false → laneState s n ≠ lnUp ∨ egressOpen s = false → Answers (.streamEgressFrame n l under) s fun
    t => t.rd FHL_TX_COUNTS.tx_discarded n = satAdd FHL_TX_COUNTS.tx_discarded.width (s.rd FHL_TX_COUNTS.tx_discarded n) 1 % 2 ^
    FHL_TX_COUNTS.tx_discarded.width ∧ t.outbox = s.outbox ∧ t = { s with regs := t.regs, pair := { s.pair with frames := t.pair.frames } } ∧
    SameRegs [FHL_TX_COUNTS.tx_discarded.key n 0] s t) ∧
  (∀ (s : State) (n : Fin 16) (v : Word), s.link.up = true → s.rd DEV_MODE.mode ≠ 0 → s.boot.coreUp = true → (laneOf s n).txEi = false → Answers
    (.slowPathTxTail n v) s fun t => t.rd FHL_SP_TX_TAIL.index n = v.toNat % 2 ^ 10 ∧ OnlyRegs [FHL_SP_TX_TAIL.index.key n 0] s t) ∧
  (∀ (s : State) (n : Fin 16) (off : Int) (st : Bool), txPending s n = true → s.boot.coreUp = true → s.boot.d0 = .idle → (laneOf s n).slowTx = none →
    Answers (.slowPathTransmit n off st) s fun t => laneOf t n =
    { laneOf s n with slowTx := some { pa := txEntryPa s n (s.rd FHL_SP_TX_HEAD.index n), bytes := [], fail := false, whole := false, sent := false } }
    ∧ (∀ m : Nat, m < 16 → m ≠ (n : Nat) → laneOf t m = laneOf s m) ∧ t =
    { s with fh := { s.fh with lanes := t.fh.lanes }, noc := { s.noc with waiting := s.noc.waiting ++ [{ init := 0x90 + (n : Nat), tag := 0, owner := .slow n .head, qos := 0, write := false, pa := txEntryPa s n (s.rd FHL_SP_TX_HEAD.index n), kidValid := false, kid := 0, len := 1, be := BitVec.allOnes 64, data := [] }] } })
    ∧
  (∀ (s : State) (n : Fin 16) (off : Int) (x : SlowTx), txPending s n = true → s.boot.coreUp = true → s.boot.d0 = .idle → (laneOf s n).slowTx = some
    x → x.whole = true → x.sent = false → x.flags = 0 → slowStatus s n x = 1 → (laneOf s n).txEi = false → (laneOf s n).onWire = [] → Answers
    (.slowPathTransmit n off false) s fun t => t.outbox = s.outbox ++ [.egress n (s.now + txLatency s n * hcTicks s) (overwrite s x.frame ++
    List.replicate (60 - (overwrite s x.frame).length) 0) false] ∧ (laneOf t n).slowTx = some { x with sent := true } ∧ (∀ m : Nat, m < 16 → m ≠ (n :
    Nat) → laneOf t m = laneOf s m) ∧ t.noc = { s.noc with waiting := t.noc.waiting } ∧ t.noc.waiting.dropLast = s.noc.waiting ∧ t.noc.waiting.length
    = s.noc.waiting.length + 1 ∧ (∀ r ∈ t.noc.waiting.getLast?, r.init = 0x90 + (n : Nat) ∧ r.owner = .slow n .back ∧ r.write = true ∧ r.pa = x.pa ∧
    r.len = 1 ∧ r.be = 8 ∧ r.data.map (fun d => bits d.toNat 24 8) = [1]) ∧ t =
    { s with fh := { s.fh with lanes := t.fh.lanes }, noc := t.noc, outbox := t.outbox }) ∧
  (∀ (s : State) (n : Fin 16) (off : Int) (st : Bool) (x : SlowTx), txPending s n = true → s.boot.coreUp = true → s.boot.d0 = .idle → (laneOf s
    n).slowTx = some x → x.whole = true → x.sent = false → slowStatus s n x ≠ 1 → Answers (.slowPathTransmit n off st) s fun t => laneOf t n =
    { laneOf s n with slowTx := some { x with sent := true } } ∧ (∀ m : Nat, m < 16 → m ≠ (n : Nat) → laneOf t m = laneOf s m) ∧ t.noc =
    { s.noc with waiting := t.noc.waiting } ∧ t.noc.waiting.dropLast = s.noc.waiting ∧ t.noc.waiting.length = s.noc.waiting.length + 1 ∧ (∀ r ∈
    t.noc.waiting.getLast?, r.init = 0x90 + (n : Nat) ∧ r.owner = .slow n .back ∧ r.write = true ∧ r.pa = x.pa ∧ r.len = 1 ∧ r.be = 8 ∧ r.data.map
    (fun d => bits d.toNat 24 8) = [slowStatus s n x]) ∧ t = { s with fh := { s.fh with lanes := t.fh.lanes }, noc := t.noc }) ∧
  (∀ (s : State) (n : Fin 16) (init : Nat) (tag : Fin 256) (r : NocReq) (x : SlowTx), reqOf s init tag = some r → r.answered = true → r.dropped =
    false → r.refused = true → r.owner = .slow n .back → r.init < 256 → (laneOf s n).slowTx = some x → Answers (.nocResponseArrival init tag true) s
    fun t => (laneOf t n) = { laneOf s n with slowTx := none } ∧ t.rd FHL_SP_TX_HEAD.index n = (s.rd FHL_SP_TX_HEAD.index n + 1) % 2 ^ s.rd
    FHL_SP_TX_CFG.size_log2 n % 2 ^ FHL_SP_TX_HEAD.index.width ∧ reqOf t init tag = none ∧ t.outbox = s.outbox ∧ t.mem = s.mem ∧ t.dram = s.dram) ∧
  (∀ (s : State) (n : Fin 16) (corrected : Nat) (e : Nat), laneState s n = lnUp → s.rd FHL_LANE_CFG.mode n = 1 → macOf s n = n → (laneOf s n).onWire
    = [] → laneLimit s 1 < e → s.fh.scans = [] → s.rd DEV_MODE.mode = modeRun → s.rd PRL_STATUS.fit = 0 → Answers (.fhLaneErrorWindow n corrected e
    []) s fun t => laneState t n = lnDropped ∧ t.rd FHL_FEC_COUNTS.corrected n = satAdd 16 (s.rd FHL_FEC_COUNTS.corrected n) corrected % 2 ^ 16 ∧
    t.rd FHL_FEC_COUNTS.uncorrectable n = satAdd 16 (s.rd FHL_FEC_COUNTS.uncorrectable n) e % 2 ^ 16 ∧ (t.safe.log.getLast?.map (fun l => (l.kind,
    l.unit, l.setDegraded))) = some (.laneDropped, (n : Nat), true) ∧ t.rd SAF_DEGRADED.fronthaul_lane = 1 ∧ t.rd DEV_MODE.degraded = 1 ∧ OnlyLane n
    { s with safe := t.safe } t ∧ SameRegs (laneKeys n ++ synceKeys ++ degradedKeys 4 ++ keys [FHL_FEC_COUNTS.corrected,
    FHL_FEC_COUNTS.uncorrectable] n ++ logKeys) s t) ∧
  (∀ (s : State) (n : Fin 16) (corrected : Nat) (e : Nat) (l : List Byte), laneState s n = lnUp → s.rd FHL_LANE_CFG.mode n = 1 → macOf s n = n →
    laneLimit s 1 < e → Answers (.fhLaneErrorWindow n corrected e l) s fun t => laneState t n = lnDropped ∧ (laneOf t n).onWire = [] ∧ t.rd
    SAF_DEGRADED.fronthaul_lane = 1) ∧
  (∀ (s : State) (n : Fin 16) (corrected : Nat) (e : Nat) (l : List Byte), laneState s n = lnUp → s.rd FHL_LANE_CFG.mode n = 1 → macOf s n = n → e ≤
    laneLimit s 1 → Answers (.fhLaneErrorWindow n corrected e l) s fun t => laneState t n = lnUp ∧ t.safe = s.safe ∧ OnlyLane n s t ∧ SameRegs
    (synceKeys ++ keys [FHL_FEC_COUNTS.corrected, FHL_FEC_COUNTS.uncorrectable] n) s t) ∧
  (∀ (s : State) (g : Fin 3) (p : List (BitVec 16)) (c : Scan) (u : Track), s.fh.scans = [c] → c.group = g → c.intrusive = false → trackOf s c.id =
    some u → u.phase = .started → s.link.up = true → Answers (.eyeScanEnd g p) s fun t => t.fh = { s.fh with scans := [] } ∧ t.outbox = s.outbox ++
    [.hostWrite (u.par 0x18 8) ((List.range 4096).flatMap (fun k => leBytes 2 (p.getD k 0).toNat))] ∧ endedWith t c.id .success 8192 0 = true ∧ t.now
    = max s.now (c.start + 4096 * u.par 0x14 4 * usTicks) ∧ ((g : Nat) = 0 → t.rd FHL_LANE_STATUS.scan_busy c.lane = 0) ∧ OnlyTrack c.id
    { s with now := t.now, tim := t.tim, regs := t.regs, fh := t.fh, outbox := t.outbox } t ∧ SameRegs [FHL_LANE_STATUS.scan_busy.key c.lane 0] s t)

/-- A round stores every channel code and every reading of a readable die, valid when in range. A served round sets the effective temperature to the
  hottest valid value, the warning from 100 °C until below 96 °C, and the band by its boundaries; one not served stalls. At the end of the grace
  time the throttle goes to IDLE below 101 °C, to WATCH if acknowledged and power fell to 90 %, else enforces step 1. Steps deepen while hot and
  release while cool. The watchdog restarts a stalled core, logged. (19_wicket_and_thermal.md) -/
def Obligations.HousekeepingAndThrottling : Prop :=
  (∀ (s : State) (c : Vector (BitVec 12) 48) (x : Vector (BitVec 12) 96) (a : Vector Nat 20), s.boot.porHeld = false → s.boot.dormant = false → 2 ≤
    s.rd DEV_BOOT_STATUS.stage → (∀ n : Nat, n < 96 → toSigned 12 (x.toList.getD n 0).toNat < 115 * tempUnit) → s.rd THM_STATUS.band < 4 → Answers
    (.housekeepingRound c x a true) s fun t => (t.wkt.shutHeld = false → s.wkt.restart = none → (∀ k : Nat, k < 48 → t.rd WKT_ADC.code k =
    (c.toList.getD k 0).toNat) ∧ (∀ n : Nat, n < 96 → (dieReadable s (n / 24) = true → t.rd THM_SENSOR.temp n = (x.toList.getD n 0).toNat ∧ (t.rd
    THM_SENSOR.valid n = 1 ↔ readingInRange (toSigned 12 (x.toList.getD n 0).toNat) = true)) ∧ (dieReadable s (n / 24) = false → t.rd
    THM_SENSOR.valid n = 0)) ∧ (∀ e ∈ junction t none, t.rd THM_STATUS.eff_temp = ofSigned 12 e.1 ∧ t.rd THM_STATUS.hot_die = e.2) ∧ (100 * tempUnit
    ≤ effTemp t → t.rd THM_STATUS.warning = 1) ∧ (effTemp t < 96 * tempUnit → t.rd THM_STATUS.warning ≠ 1) ∧ t.rd THM_STATUS.band = nextBand (s.rd
    THM_STATUS.band) (effTemp t) ∧ t.wkt.served = t.now ∧ t.wkt.stalled = false ∧ t.wkt.power = (c.toList.getD 3 0).toNat * (c.toList.getD 8 0).toNat
    ∧ t.now = max s.now (s.wkt.lastRound + 2 * msTicks) ∧ t.ctxs = s.ctxs ∧ t.mem = s.mem ∧ t.sec = s.sec)) ∧
  (∀ (s : State) (c : Vector (BitVec 12) 48) (x : Vector (BitVec 12) 96) (a : Vector Nat 20), s.boot.porHeld = false → s.boot.dormant = false → 2 ≤
    s.rd DEV_BOOT_STATUS.stage → (∀ n : Nat, n < 96 → toSigned 12 (x.toList.getD n 0).toNat < 115 * tempUnit) → Answers (.housekeepingRound c x a
    false) s fun t => (∀ k : Nat, k < 48 → t.rd WKT_ADC.code k = (c.toList.getD k 0).toNat) ∧ (∀ n : Nat, n < 96 → (dieReadable s (n / 24) = true →
    t.rd THM_SENSOR.temp n = (x.toList.getD n 0).toNat ∧ (t.rd THM_SENSOR.valid n = 1 ↔ readingInRange (toSigned 12 (x.toList.getD n 0).toNat) =
    true)) ∧ (dieReadable s (n / 24) = false → t.rd THM_SENSOR.valid n = 0)) ∧ t.wkt.stalled = true ∧ t.wkt.round = s.wkt.round + 1 ∧ t.wkt.lastRound
    = t.now ∧ t.wkt.served = s.wkt.served ∧ t.rd THM_STATUS.eff_temp = s.rd THM_STATUS.eff_temp ∧ t.rd THM_STATUS.band = s.rd THM_STATUS.band ∧ t.now
    = max s.now (s.wkt.lastRound + 2 * msTicks) ∧ t =
    { s with now := t.now, tim := t.tim, wkt := t.wkt, regs := t.regs, safe := { s.safe with log := t.safe.log, nextSeq := t.safe.nextSeq }, link := { s.link with pendingMsix := t.link.pendingMsix }, outbox := t.outbox })
    ∧
  (∀ (s : State), throttleRuns s = true → thState s = thGrace → Answers (.throttleGraceExpiry) s fun t => t.rd THM_THROTTLE_STATUS.state = (if
    effTemp s < 101 * tempUnit then thIdle else if s.rd THM_THROTTLE_STATUS.acked = 1 ∧ 10 * s.wkt.power ≤ 9 * s.wkt.request then thWatch else
    thEnforcing) ∧ (t.rd THM_THROTTLE_STATUS.state = thEnforcing → t.rd THM_STATUS.step = 1) ∧ t.now = max s.now (s.wkt.since + s.wkt.pauseTotal +
    graceTicks s) ∧ t.rd HCI_EVT_CAUSE.throttle_request = 1 ∧ t =
    { s with now := t.now, tim := t.tim, wkt := t.wkt, regs := t.regs, link := { s.link with pendingMsix := t.link.pendingMsix }, outbox := t.outbox }
    ∧ SameRegs (keys [THM_THROTTLE_STATUS.state, THM_STATUS.throttle_active, THM_STATUS.step] ++ [evtKey evThrottle]) s t) ∧
  (∀ (s : State), throttleRuns s = true → thState s = thEnforcing → Answers (.throttleStepDeepen) s fun t => t.rd THM_STATUS.step = (if 105 *
    tempUnit ≤ effTemp s then min 3 (s.rd THM_STATUS.step + 1) else s.rd THM_STATUS.step) ∧ thState t = thEnforcing ∧ t.now = max s.now (s.wkt.since
    + 10 * msTicks) ∧ t.wkt = { s.wkt with since := t.now, stepWas := t.wkt.stepWas, stepFrom := t.wkt.stepFrom } ∧ t.outbox = s.outbox ∧ t =
    { s with now := t.now, tim := t.tim, wkt := t.wkt, regs := t.regs, link := { s.link with pendingMsix := t.link.pendingMsix }, outbox := t.outbox }
    ∧ SameRegs (keys [THM_THROTTLE_STATUS.state, THM_STATUS.throttle_active, THM_STATUS.step] ++ [evtKey evThrottle]) s t) ∧
  (∀ (s : State), throttleRuns s = true → thState s = thReleasing → effTemp s < 105 * tempUnit → s.rd THM_STATUS.step < 4 → Answers
    (.throttleStepRelease) s fun t => t.rd THM_STATUS.step = s.rd THM_STATUS.step - 1 ∧ thState t = (if s.rd THM_STATUS.step ≤ 1 then thIdle else
    thReleasing) ∧ t.now = max s.now (s.wkt.since + 100 * msTicks) ∧ t =
    { s with now := t.now, tim := t.tim, wkt := t.wkt, regs := t.regs, link := { s.link with pendingMsix := t.link.pendingMsix }, outbox := t.outbox }
    ∧ SameRegs (keys [THM_THROTTLE_STATUS.state, THM_STATUS.throttle_active, THM_STATUS.step] ++ [evtKey evThrottle]) s t) ∧
  (∀ (s : State), s.boot.porHeld = false → s.wkt.restart = none → s.wkt.stalled = true → Answers (.wicketWatchdogExpiry) s fun t => t.rd
    THM_STATUS.wicket_restart = 1 ∧ t.rd WKT_STATUS.restarts = satAdd WKT_STATUS.restarts.width (s.rd WKT_STATUS.restarts) 1 % 2 ^
    WKT_STATUS.restarts.width ∧ t.now = max s.now (s.wkt.served + 10 * msTicks) ∧ t.wkt.restart = some t.now ∧ (t.safe.log.getLast?.map (fun e =>
    e.kind)) = some .wicketRestart ∧ t =
    { s with now := t.now, tim := t.tim, wkt := t.wkt, regs := t.regs, safe := { s.safe with log := t.safe.log, nextSeq := t.safe.nextSeq }, link := { s.link with pendingMsix := t.link.pendingMsix }, outbox := t.outbox }
    ∧ SameRegs (keys [THM_STATUS.wicket_restart, WKT_STATUS.restarts] ++ logKeys) s t) ∧
  (∀ (s : State) (n : Nat), s.wkt.restart = some n → Answers (.wicketRestartEnd) s fun t => t.wkt.restart = none ∧ t.wkt.stalled = false ∧
    t.wkt.served = s.now ∧ t.wkt.paused = none ∧ (∀ p ∈ s.wkt.paused, t.wkt.pauseTotal = s.wkt.pauseTotal + (s.now - p)) ∧ t =
    { s with wkt := t.wkt })

/-- A change of the owner enables starts a handover of four pin-clock cycles on exactly the pins whose owner changes. At its end the new owner
  drives; a pin handed to the fabric takes what the bound design presents. A sampled level without debounce is readable two edges later; with
  debounce it waits until it has been steady, then reads. A matcher whose mask has more than 8 bits stays disabled with cfg_error; one enabled
  in event mode whose test holds records its event. (20_pins.md) -/
def Obligations.PinsOwnersLevelsAndMatchers : Prop :=
  (∀ (s : State) (r : Fin 3) (v : Word), s.link.up = true → s.rd DEV_MODE.mode ≠ 0 → blockAnswers s 0x80100 = true → s.pins.sleeping = false →
    blockAnswers s (0x80100 + 4 * (r : Nat)) = true → Answers (.pinOwnerChange r v) s fun t => ((r : Nat) < 2 → t.rd PIN_FABRIC_EN.fabric r = v.toNat
    % 2 ^ PIN_FABRIC_EN.fabric.width) ∧ ((r : Nat) = 2 → t.rd PIN_PERIPH_EN.fault_n = v.toNat % 2) ∧ (∀ n : Nat, n < 64 → (pinOwner t n = pinOwner s
    n → sparseFind t.pins.hand n = sparseFind s.pins.hand n) ∧ (pinOwner t n ≠ pinOwner s n → sparseFind t.pins.hand n = some (pinEdge s.now + 4 *
    pinCycle) ∧ (handing s n = false → keptDrive t n = pinDrive s n))) ∧ t =
    { s with regs := t.regs, pins := { s.pins with hand := t.pins.hand, kept := t.pins.kept } } ∧ SameRegs (allKeys [PIN_FABRIC_EN.fabric] 2 ++
    allKeys [PIN_OWNER.owner] 4 ++ keys [PIN_PERIPH_EN.fault_n, PIN_PERIPH_EN.therm_warn_n, PIN_PERIPH_EN.clkout, PIN_STATUS.clkout_refused]) s t) ∧
  (∀ (s : State) (n : Fin 64) (lv : Bool) (oe : Bool) (e : Nat), sparseFind s.pins.hand n = some e → s.pins.sleeping = false → Answers
    (.ownerHandoverEnd n lv oe) s fun t => sparseFind t.pins.hand n = none ∧ t.now = max s.now e ∧ (∀ k : Nat, k < 64 → k ≠ (n : Nat) → sparseFind
    t.pins.hand k = sparseFind s.pins.hand k ∧ fabricDrive t k = fabricDrive s k) ∧ (pinOwner s n = .fabric → (sparseFind s.pins.bound n).any
    (channelLive s) = true → dieOpen s 2 = true → holdCycle t = false → fabricDrive t n = { level := lv, oe := oe }) ∧ t.outbox = (if (pinDrive t
    n).oe then s.outbox ++ [.pin n (pinDrive t n).level] else s.outbox) ∧ t =
    { s with now := t.now, tim := t.tim, regs := t.regs, pins := { s.pins with hand := t.pins.hand, fabric := t.pins.fabric }, outbox := t.outbox } ∧
    SameRegs (allKeys [PIN_OWNER.owner] 4) s t) ∧
  (∀ (s : State) (n : Fin 64) (b : Bool), s.boot.porHeld = false → s.rd PIN_CFG.debounce_us n = 0 → (∀ m : Nat, m < 8 → s.rd PIN_MATCH_CFG.enable m =
    0) → Answers (.pinInputChange [(n, b)] []) s fun t => pinBit t PIN_IN.level n = pinLevel s n b ∧ (∀ k : Nat, k < 64 → k ≠ (n : Nat) → pinBit t
    PIN_IN.level k = pinBit s PIN_IN.level k) ∧ sparseGet false t.pins.visible n = pinLevel s n b ∧ t.now = pinEdge s.now + 2 * pinCycle ∧ t =
    { s with now := t.now, tim := t.tim, regs := t.regs, pins := { s.pins with visible := t.pins.visible, steady := t.pins.steady } } ∧ SameRegs
    [PIN_IN.level.key ((n : Nat) / 32) 0] s t) ∧
  (∀ (s : State) (n : Fin 64) (b : Bool), s.boot.porHeld = false → s.rd PIN_CFG.debounce_us n ≠ 0 → pinBit s PIN_IN.level n ≠ pinLevel s n b →
    sparseGet false s.pins.visible n ≠ pinLevel s n b ∨ sparseFind s.pins.steady n = none → (∀ m : Nat, m < 8 → s.rd PIN_MATCH_CFG.enable m = 0) →
    Answers (.pinInputChange [(n, b)] []) s fun t => sparseFind t.pins.steady n = some t.now ∧ sparseGet false t.pins.visible n = pinLevel s n b ∧
    t.now = pinEdge s.now + 2 * pinCycle ∧ t =
    { s with now := t.now, tim := t.tim, pins := { s.pins with visible := t.pins.visible, steady := t.pins.steady } }) ∧
  (∀ (s : State) (n : Fin 64) (b : Bool) (k : Nat), s.boot.porHeld = false → s.rd PIN_CFG.debounce_us n ≠ 0 → sparseGet false s.pins.visible n =
    pinLevel s n b → sparseFind s.pins.steady n = some k → (∀ m : Nat, m < 8 → s.rd PIN_MATCH_CFG.enable m = 0) → Answers (.pinInputChange [(n, b)]
    []) s fun t => sparseFind t.pins.steady n = some k ∧ t.now = pinEdge s.now + 2 * pinCycle ∧ t = { s with now := t.now, tim := t.tim }) ∧
  (∀ (s : State) (n : Fin 64) (e : Nat), s.pins.steady = [((n : Nat), e)] → (∀ m : Nat, m < 8 → s.rd PIN_MATCH_CFG.enable m = 0) → Answers
    (.debounceSettle n) s fun t => pinBit t PIN_IN.level n = sparseGet false s.pins.visible n ∧ (∀ k : Nat, k < 64 → k ≠ (n : Nat) → pinBit t
    PIN_IN.level k = pinBit s PIN_IN.level k) ∧ t.pins = { s.pins with steady := [] } ∧ t.now = max s.now (e + s.rd PIN_CFG.debounce_us n * 100 *
    pinCycle) ∧ t = { s with now := t.now, tim := t.tim, regs := t.regs, pins := t.pins } ∧ SameRegs [PIN_IN.level.key ((n : Nat) / 32) 0] s t) ∧
  (∀ (s : State) (m : Fin 8) (v : Word), s.link.up = true → s.rd DEV_MODE.mode ≠ 0 → blockAnswers s 0x80100 = true → v.toNat % 2 = 1 → 8 < maskBits
    (s.rd PIN_MATCH_MASK.mask m) → Answers (.matcherEnable m v) s fun t => t.rd PIN_MATCH_CFG.enable m = 0 ∧ t.rd PIN_MATCH_STATUS.cfg_error m = 1 ∧
    OnlyRegs (keys [PIN_MATCH_CFG.enable, PIN_MATCH_CFG.mode, PIN_MATCH_CFG.irq, PIN_MATCH_CFG.wake, PIN_MATCH_CFG.vector, PIN_MATCH_STATUS.match,
    PIN_MATCH_STATUS.event, PIN_MATCH_STATUS.count, PIN_MATCH_STATUS.cfg_error] m) s t) ∧
  (∀ (s : State) (m : Fin 8) (v : Word), s.link.up = true → s.rd DEV_MODE.mode ≠ 0 → blockAnswers s 0x80100 = true → v.toNat % 2 = 1 → bits v.toNat 1
    3 = 0 → maskBits (s.rd PIN_MATCH_MASK.mask m) ≤ 8 → s.rd PIN_MATCH_CFG.enable m = 0 → s.rd PIN_MATCH_STATUS.event m = 0 → Answers (.matcherEnable
    m v) s fun t => t.rd PIN_MATCH_CFG.enable m = 1 ∧ t.rd PIN_MATCH_STATUS.match m = b2n (matcherTest s m) ∧ t.rd PIN_MATCH_STATUS.event m = b2n
    (matcherTest s m) ∧ t.rd PIN_MATCH_STATUS.count m = (if matcherTest s m = true then satAdd PIN_MATCH_STATUS.count.width (s.rd
    PIN_MATCH_STATUS.count m) 1 % 2 ^ PIN_MATCH_STATUS.count.width else s.rd PIN_MATCH_STATUS.count m) ∧ OnlyRegs (keys [PIN_MATCH_CFG.enable,
    PIN_MATCH_CFG.mode, PIN_MATCH_CFG.irq, PIN_MATCH_CFG.wake, PIN_MATCH_CFG.vector, PIN_MATCH_STATUS.match, PIN_MATCH_STATUS.event,
    PIN_MATCH_STATUS.count, PIN_MATCH_STATUS.cfg_error] m) s t)

/-- An enabled link with a valid grid goes to DETECT, with an invalid one it stays off with cfg_error; each stage that ends well moves it on, and
  the exchange makes it ACTIVE with the lower of the two widths; a stage out of time falls back to DETECT. A lane beyond its limit is dropped,
  logged and degraded; fewer than two usable lane pairs take the link to DETECT. An announced width takes effect at its train. An idle direction
  sleeps, and wakes for its data. A lane pair readapts in 100 us. (21_pair_operation.md, 23_register_map.md, 17_clocks.md) -/
def Obligations.BolrynLinkComesUpAndNarrows : Prop :=
  (∀ (s : State) (v : Word), s.link.up = true → s.rd DEV_MODE.mode ≠ 0 → s.boot.coreUp = true → s.rd DEV_MODE.mode ≠ modeLead → s.rd DEV_MODE.mode ≠
    modeShadow → v.toNat.testBit 0 = true → s.rd PRL_CFG.enable = 0 → gridOk s = true → linkState s ≠ lkActive → Answers (.prlLinkEnable v) s fun t
    => t.rd PRL_CFG.enable = 1 ∧ linkState t = lkDetect ∧ t.rd PRL_CFG.lead_yield = b2n (v.toNat.testBit 1) ∧ t.rd PRL_CFG.takeover_on_lane = b2n
    (v.toNat.testBit 2) ∧ t.rd PRL_CFG.partner_timeout_s = bits v.toNat 8 8 ∧ t.pair = { s.pair with since := s.now, widthAt := none, readapt := [] }
    ∧ t = { s with pair := t.pair, regs := t.regs } ∧ SameRegs (keys [PRL_CFG.enable, PRL_CFG.lead_yield, PRL_CFG.takeover_on_lane,
    PRL_CFG.partner_timeout_s, PRL_STATUS.link_state]) s t) ∧
  (∀ (s : State) (v : Word), s.link.up = true → s.rd DEV_MODE.mode ≠ 0 → s.boot.coreUp = true → s.rd DEV_MODE.mode ≠ modeLead → s.rd DEV_MODE.mode ≠
    modeShadow → v.toNat.testBit 0 = true → s.rd PRL_CFG.enable = 0 → gridOk s = false → Answers (.prlLinkEnable v) s fun t => t.rd PRL_CFG.enable =
    0 ∧ t.rd PRL_STATUS.cfg_error = 1 ∧ OnlyRegs (keys [PRL_CFG.lead_yield, PRL_CFG.takeover_on_lane, PRL_CFG.partner_timeout_s,
    PRL_STATUS.cfg_error]) s t) ∧
  (∀ (s : State) (p : Fin 9), linkRuns s = true → linkWidth s ≠ 0 → linkState s = lkDetect ∨ linkState s = lkTrain ∨ linkState s = lkLock → Answers
    (.linkStageDone p) s fun t => linkState t = linkState s + 1 ∧ t.pair = { s.pair with since := s.now, widthAt := none, readapt := [] } ∧ t =
    { s with pair := t.pair, regs := t.regs } ∧ SameRegs (keys [PRL_STATUS.link_state]) s t) ∧
  (∀ (s : State) (p : Fin 9), linkRuns s = true → linkWidth s ≠ 0 → linkState s = lkExchange → s.rd DEV_MODE.mode ≠ modeShadow → Answers
    (.linkStageDone p) s fun t => linkState t = lkActive ∧ t.rd PRL_STATUS.width = min (linkWidth s) (if (p : Nat) < 6 then 4 else if (p : Nat) < 8
    then 6 else 8) ∧ t.rd PRL_STATUS.partner_present = 1 ∧ t.pair =
    { s.pair with since := s.now, widthAt := none, readapt := [], lastBlock := s.now, heartbeat := true, lastData := s.now, useSince := t.pair.useSince }
    ∧ (∀ n : Nat, n < 8 → bolrynInUse s n = false → bolrynInUse t n = true → sparseFind t.pair.useSince n = some s.now) ∧ t =
    { s with pair := t.pair, regs := t.regs } ∧ SameRegs (keys [PRL_STATUS.link_state, PRL_STATUS.width, PRL_STATUS.partner_present]) s t) ∧
  (∀ (s : State), linkState s = lkTrain ∨ linkState s = lkLock ∨ linkState s = lkExchange → Answers (.linkStateTimeout) s fun t => linkState t =
    lkDetect ∧ t.now = max s.now (s.pair.since + (if linkState s = lkTrain then 10 else if linkState s = lkLock then 2 else 1) * msTicks) ∧ t.pair =
    { s.pair with since := t.now, widthAt := none, readapt := [] } ∧ t = { s with now := t.now, tim := t.tim, pair := t.pair, regs := t.regs } ∧
    SameRegs (keys [PRL_STATUS.link_state]) s t) ∧
  (∀ (s : State) (n : Fin 8) (e : Nat), linkState s = lkActive → laneLimit s 3 < e → bit (s.rd PRL_STATUS.dropped) n = false → s.fh.scans = [] →
    Answers (.bolrynLaneErrorWindow n e) s fun t => bit (t.rd PRL_STATUS.dropped) n = true ∧ (∀ k : Nat, k < 8 → k ≠ (n : Nat) → bit (t.rd
    PRL_STATUS.dropped) k = bit (s.rd PRL_STATUS.dropped) k) ∧ (t.safe.log.any (fun l => l.kind == .laneDropped && l.unit == 0x200 + (n : Nat) &&
    l.setDegraded)) = true ∧ t.rd SAF_DEGRADED.bolryn_lane = 1 ∧ t.rd DEV_MODE.degraded = 1 ∧ (linkWidth t = 0 → linkState t = lkDetect) ∧ (linkWidth
    t ≠ 0 → linkState t = lkActive ∧ (linkWidth t ≠ s.rd PRL_STATUS.width → (t.pair.widthAt.map (fun p => p.1)) = some (linkWidth t) ∧ lastNote t =
    some (.width (linkWidth t) ((s.pair.txTrain + 4) % 2 ^ 32)))) ∧ t.mem = s.mem ∧ t.ctxs = s.ctxs ∧ t.sec = s.sec) ∧
  (∀ (s : State) (n : Fin 8) (up : Bool), linkState s ≠ lkActive → Answers (.bolrynLaneSignalChange n up) s fun t => t.pair =
    { s.pair with down := t.pair.down } ∧ sparseGet false t.pair.down n = !up ∧ (∀ k : Nat, k < 8 → k ≠ (n : Nat) → sparseGet false t.pair.down k =
    sparseGet false s.pair.down k) ∧ t = { s with pair := t.pair }) ∧
  (∀ (s : State) (n : Fin 8), linkState s = lkActive → lanePairUsable s (n / 2) = true → linkWidth s = 8 → s.rd PRL_STATUS.width = 8 → s.pair.readapt
    = [] → Answers (.bolrynLaneSignalChange n false) s fun t => sparseGet false t.pair.down n = true ∧ linkWidth t = 6 ∧ linkState t = lkActive ∧
    t.pair.widthAt = some (6, (s.pair.txTrain + 4) % 2 ^ 32) ∧ lastNote t = some (.width 6 ((s.pair.txTrain + 4) % 2 ^ 32)) ∧ t =
    { s with pair := t.pair, regs := t.regs, outbox := t.outbox } ∧ SameRegs (keys [CLK_CAND_READY.ready] ++ allKeys [CLK_CAND_COUNT.run] 25) s t) ∧
  (∀ (s : State) (w : Nat) (tr : Nat), s.pair.widthAt = some (w, tr) → Answers (.linkWidthChange) s fun t => t.rd PRL_STATUS.width = w % 2 ^
    PRL_STATUS.width.width ∧ t.pair = { s.pair with widthAt := none, txTrain := max s.pair.txTrain tr } ∧ t =
    { s with pair := t.pair, regs := t.regs } ∧ SameRegs ((keys [CLK_CAND_READY.ready] ++ allKeys [CLK_CAND_COUNT.run] 25) ++ keys
    [PRL_STATUS.width]) s t) ∧
  (∀ (s : State), pairActive s = true → s.rd PRL_STATUS.tx_sleep = 0 → Answers (.linkDirectionSleep) s fun t => t.rd PRL_STATUS.tx_sleep = 1 ∧ t.now
    = max s.now (s.pair.lastData + 10 * usTicks) ∧ ((lastBlockSent t).map (fun b => (b.sleep, b.note))) = some (true, .none) ∧ t =
    { s with now := t.now, tim := t.tim, pair := { s.pair with txTrain := t.pair.txTrain, sentAt := t.pair.sentAt }, regs := t.regs, outbox := t.outbox }
    ∧ SameRegs (keys [PRL_STATUS.tx_sleep]) s t) ∧
  (∀ (s : State) (d : PairData), pairActive s = true → s.pair.tx = [d] → d0Fenced s = false → Answers (.linkDirectionWake) s fun t => t.rd
    PRL_STATUS.tx_sleep = 0 ∧ t.outbox = s.outbox ++ [.dataBlock s.pair.txTrain d] ∧ t.pair =
    { s.pair with tx := [], replay := t.pair.replay, lastData := s.now } ∧ t.pair.replay.getLast? = some (s.pair.txTrain, d) ∧ t =
    { s with pair := t.pair, regs := t.regs, outbox := t.outbox } ∧ SameRegs (keys [PRL_STATUS.tx_sleep]) s t) ∧
  (∀ (s : State) (k : Nat) (rest : List Nat), s.pair.readapt = k :: rest → Answers (.bandReadapt true) s fun t => t.now = max s.now (s.pair.readaptAt
    + 100 * usTicks) ∧ t.pair = { s.pair with readapt := rest, readaptAt := t.now, useSince := t.pair.useSince } ∧ t.rd PRL_STATUS.width = linkWidth
    t ∧ t = { s with now := t.now, tim := t.tim, pair := t.pair, regs := t.regs } ∧ SameRegs ((keys [CLK_CAND_READY.ready] ++ allKeys
    [CLK_CAND_COUNT.run] 25) ++ keys [PRL_STATUS.width]) s t)

/-- PAIR_FORM in RUN on an ACTIVE link begins a transition to LEAD or SHADOW and sends its formation values; on any other mode it is MODE_FORBIDS,
  without a link PAIR_LINK_DOWN. PAIR_DISSOLVE, PAIR_TAKEOVER and PAIR_COMMIT set the frame or symbol boundary at which they act and announce it
  to the partner. PAIR_PREPARE reads its list from the host. Outside a pair each is PAIR_NOT_FORMED. pair_inject is taken by a fit shadow alone,
  else refused shows it. (15_command_set.md, 21_pair_operation.md, 22_faults_safety_and_self_test.md) -/
def Obligations.PairCommandsBegin : Prop :=
  (∀ (s : State) (id : Nat) (u : Track), Startable s id 0x50 u → s.rd DEV_MODE.mode = modeRun → u.par 0x10 1 ≤ 1 → u.par 0x11 1 ≤ 1 → transitioning s
    = false → pairActive s = true → thermalLimit s = false → s.pair.heard = none → Answers (.pairForm id) s fun t => t.pair.forming = some
    { id := id, role := u.par 0x10 1, since := s.now, edge := none } ∧ t.pair.values.isSome = true ∧ lastNote t = t.pair.values.map Note.form ∧
    t.boot = { s.boot with transition := some { dest := if u.par 0x10 1 = 0 then modeLead else modeShadow, id := id, ctx := 0, since := s.now } } ∧
    t.rd DEV_MODE.transition_busy = 1 ∧ underWay t id = true ∧ t.rd DEV_MODE.mode = modeRun ∧ t.pair =
    { s.pair with forming := t.pair.forming, values := t.pair.values, txTrain := t.pair.txTrain, sentAt := t.pair.sentAt } ∧ OnlyTrack id
    { s with boot := t.boot, regs := t.regs, pair := t.pair, outbox := t.outbox } t ∧ SameRegs (keys [DEV_MODE.transition_busy]) s t) ∧
  (∀ (s : State) (id : Nat) (u : Track), Startable s id 0x50 u → s.rd DEV_MODE.mode = modeRun → u.par 0x10 1 ≤ 1 → u.par 0x11 1 ≤ 1 → transitioning s
    = false → pairActive s = false → Answers (.pairForm id) s fun t => ended t id .pairLinkDown = true ∧ OnlyTrack id s t) ∧
  (∀ (s : State) (id : Nat) (u : Track), Startable s id 0x51 u → s.rd DEV_MODE.mode = modeLead ∨ s.rd DEV_MODE.mode = modeShadow → transitioning s =
    false → pairActive s = true → Answers (.pairDissolve id) s fun t => t.pair.dissolve = some (some id, (frameBoundary (counter s + 1))) ∧ lastNote
    t = some (.dissolve (frameBoundary (counter s + 1))) ∧ t.boot =
    { s.boot with transition := some { dest := modeRun, id := id, ctx := 0, since := s.now } } ∧ t.rd DEV_MODE.transition_busy = 1 ∧ underWay t id =
    true ∧ t.pair = { s.pair with dissolve := t.pair.dissolve, txTrain := t.pair.txTrain, sentAt := t.pair.sentAt } ∧ OnlyTrack id
    { s with boot := t.boot, regs := t.regs, pair := t.pair, outbox := t.outbox } t ∧ SameRegs (keys [DEV_MODE.transition_busy]) s t) ∧
  (∀ (s : State) (id : Nat) (u : Track), Startable s id 0x52 u → s.rd DEV_MODE.mode = modeLead ∨ s.rd DEV_MODE.mode = modeShadow → pairActive s =
    true → s.rd PRL_STATUS.fit = 1 → s.pair.takeover = none → Answers (.pairTakeover id) s fun t => t.pair.takeover = some
    { id := id, edge := if (u.par 0x10 1).testBit 0 then (frameBoundary (counter s + 1)) else nextSymbol s, own := false } ∧ lastNote t = some
    (.takeover (if (u.par 0x10 1).testBit 0 then (frameBoundary (counter s + 1)) else nextSymbol s)) ∧ underWay t id = true ∧ t.pair =
    { s.pair with takeover := t.pair.takeover, txTrain := t.pair.txTrain, sentAt := t.pair.sentAt } ∧ OnlyTrack id
    { s with pair := t.pair, outbox := t.outbox } t) ∧
  (∀ (s : State) (id : Nat) (u : Track), Startable s id 0x53 u → s.rd DEV_MODE.mode = modeLead ∨ s.rd DEV_MODE.mode = modeShadow → pairActive s =
    true → u.par 0x10 4 ≠ 0 → 1 ≤ u.par 0x14 1 ∧ u.par 0x14 1 ≤ 16 → u.par 0x18 8 % 8 = 0 → s.pair.prepared = none → s.pair.partnerFailed = none →
    Answers (.pairPrepare id) s fun t => t.pair =
    { s.pair with prepared := some { id := id, change := u.par 0x10 4, tracks := [], own := false, partner := s.pair.partnerPrepared == some (u.par 0x10 4), applied := false }, partnerPrepared := none }
    ∧ t.link.reads = s.link.reads ++ [{ id := id, addr := u.par 0x18 8, length := 64 * u.par 0x14 1, got := [], at_ := s.now }] ∧ t.outbox = s.outbox
    ++ [.hostRead id (u.par 0x18 8) (64 * u.par 0x14 1)] ∧ underWay t id = true ∧ OnlyTrack id
    { s with link := { s.link with reads := t.link.reads }, pair := t.pair, outbox := t.outbox } t) ∧
  (∀ (s : State) (id : Nat) (u : Track) (p : Prepared), Startable s id 0x54 u → s.rd DEV_MODE.mode = modeLead → pairActive s = true → u.par 0x14 1 ≤
    1 → s.pair.prepared = some p → p.change = u.par 0x10 4 → p.own = true → p.partner = true → s.pair.committing = none → Answers (.pairCommit id) s
    fun t => t.pair.committing = some { id := some id, abandon := u.par 0x14 1 == 1, edge := (frameBoundary (counter s + 1)) } ∧ lastNote t = some
    (.commit (u.par 0x10 4) (u.par 0x14 1 == 1) (frameBoundary (counter s + 1))) ∧ underWay t id = true ∧ t.pair =
    { s.pair with committing := t.pair.committing, txTrain := t.pair.txTrain, sentAt := t.pair.sentAt } ∧ OnlyTrack id
    { s with pair := t.pair, outbox := t.outbox } t) ∧
  (∀ (s : State) (id : Nat) (u : Track), Startable s id 0x54 u → unpaired s = true → Answers (.pairCommit id) s fun t => ended t id .pairNotFormed =
    true ∧ OnlyTrack id s t) ∧
  (∀ (s : State) (v : Word), s.link.up = true → s.rd DEV_MODE.mode ≠ 0 → blockAnswers s 0x150020 = true → v.toNat.testBit 26 = true → s.rd
    DEV_MODE.mode = modeShadow → s.rd PRL_STATUS.fit = 1 → Answers (.pairInject v) s fun t => t.pair = { s.pair with inject := true } ∧ t.rd
    SAF_INJ_CFG.target = v.toNat % 2 ^ 24 ∧ t.rd SAF_INJ_CFG.variant = bits v.toNat 24 2 ∧ t = { s with pair := t.pair, regs := t.regs } ∧ SameRegs
    (keys [SAF_INJ_CFG.target, SAF_INJ_CFG.variant]) s t) ∧
  (∀ (s : State) (v : Word), s.link.up = true → s.rd DEV_MODE.mode ≠ 0 → blockAnswers s 0x150020 = true → v.toNat.testBit 26 = true → s.rd
    DEV_MODE.mode ≠ modeShadow ∨ s.rd PRL_STATUS.fit ≠ 1 → Answers (.pairInject v) s fun t => t.rd SAF_CTRL.refused = 1 ∧ OnlyRegs (keys
    [SAF_INJ_CFG.target, SAF_INJ_CFG.variant, SAF_CTRL.refused]) s t)

/-- A control block whose CRC holds renews the heartbeat and the partner's state; one that fails is only counted. A lead takes its shadow's fitness;
  a fit shadow whose lead reports a self-fault decides to take over. A data block that fails its check is only reported for its train; one that
  holds, at a shadow, makes the write of its bytes a request of the link's initiator, or enters its mirror record. On its boundary PAIR_FORM
  makes LEAD or SHADOW, with comparison from unit 1 and a resynchronisation; without a partner in 1 s it ends PAIR_NOT_FORMED. A commit applies
  or abandons its change; a dissolution returns both devices to RUN. (21_pair_operation.md, 15_command_set.md) -/
def Obligations.PairFormsDissolvesAndListens : Prop :=
  (∀ (s : State) (b : ControlBlock), pairActive s = true → unpaired s = true → b.note = .none → b.nak = 0 → Answers (.controlBlockReceived b true) s
    fun t => t.pair.lastBlock = s.now ∧ t.pair.heartbeat = true ∧ t.pair.rxTrain = b.train ∧ t.pair.rxAt = counter s ∧ t.pair.partner = some
    { role := b.role, width := b.width, tq := b.tq, step := b.step, ctx := b.ctx, fault := b.fault } ∧ t.rd PRL_STATUS.partner_present = 1 ∧ t.rd
    PRL_STATUS.rx_sleep = b2n b.sleep ∧ t.pair.absentSince = none ∧ t.pair.forming = s.pair.forming ∧ t.pair.prepared = s.pair.prepared ∧ t =
    { s with pair := t.pair, regs := t.regs } ∧ SameRegs (keys [PRL_STATUS.partner_present, PRL_STATUS.rx_sleep, PRL_STATUS.fit,
    PRL_STATUS.suspended]) s t) ∧
  (∀ (s : State) (b : ControlBlock), pairActive s = true → Answers (.controlBlockReceived b false) s fun t => t =
    { s with pair := { s.pair with crcErrors := s.pair.crcErrors + 1 } }) ∧
  (∀ (s : State) (b : ControlBlock), pairActive s = true → s.rd DEV_MODE.mode = modeLead → b.role = 2 → b.unit = 0 → b.takeover = false → b.note =
    .none → b.nak = 0 → Answers (.controlBlockReceived b true) s fun t => t.pair.lastBlock = s.now ∧ t.pair.heartbeat = true ∧ t.pair.rxTrain =
    b.train ∧ t.pair.rxAt = counter s ∧ t.pair.partner = some
    { role := b.role, width := b.width, tq := b.tq, step := b.step, ctx := b.ctx, fault := b.fault } ∧ t.rd PRL_STATUS.partner_present = 1 ∧ t.rd
    PRL_STATUS.rx_sleep = b2n b.sleep ∧ t.rd PRL_STATUS.fit = b2n b.fit ∧ t.pair.absentSince = none ∧ t = { s with pair := t.pair, regs := t.regs } ∧
    SameRegs (keys [PRL_STATUS.partner_present, PRL_STATUS.rx_sleep, PRL_STATUS.fit, PRL_STATUS.suspended]) s t) ∧
  (∀ (s : State) (b : ControlBlock), pairActive s = true → s.rd DEV_MODE.mode = modeShadow → b.role = 1 → b.selfFault = true → b.note = .none → b.nak
    = 0 → s.rd PRL_STATUS.fit = 1 → s.pair.takeover = none → Answers (.controlBlockReceived b true) s fun t => t.pair.lastBlock = s.now ∧
    t.pair.heartbeat = true ∧ t.pair.rxTrain = b.train ∧ t.pair.rxAt = counter s ∧ t.pair.partner = some
    { role := b.role, width := b.width, tq := b.tq, step := b.step, ctx := b.ctx, fault := b.fault } ∧ t.rd PRL_STATUS.partner_present = 1 ∧ t.rd
    PRL_STATUS.rx_sleep = b2n b.sleep ∧ t.pair.takeover = some { id := none, edge := nextSymbol s, own := true } ∧ t.pair.lastFault = b.fault ∧ t =
    { s with pair := t.pair, regs := t.regs } ∧ SameRegs (keys [PRL_STATUS.partner_present, PRL_STATUS.rx_sleep, PRL_STATUS.fit,
    PRL_STATUS.suspended]) s t) ∧
  (∀ (s : State) (train : Nat) (k : Fin 24) (b : Fin 4096) (w : Fin 4096) (d : Word64), pairActive s = true → s.rd DEV_MODE.mode = modeShadow →
    Answers (.dataBlockReceived train (.write (wordPa b w) (leBytes 8 d.toNat)) k true) s fun t => t =
    { s with pair := { s.pair with rxTrain := train, rxNak := if train = s.pair.rxTrain then s.pair.rxNak else 0 }, noc := { s.noc with waiting := s.noc.waiting ++ [{ init := 0xA0, tag := 0, owner := .mirror, qos := 0, write := true, pa := wordPa b w, kidValid := false, kid := 0, len := 1, be := BitVec.ofNat 64 (0xFF * 2 ^ (8 * (w.val % 8))), data := [BitVec.ofNat 512 (d.toNat * 2 ^ (64 * (w.val % 8)))] }] } })
    ∧
  (∀ (s : State) (train : Nat) (k : Fin 24) (d : PairData), pairActive s = true → Answers (.dataBlockReceived train d k false) s fun t => t =
    { s with pair := { s.pair with rxTrain := train, rxNak := (if train = s.pair.rxTrain then s.pair.rxNak else 0) ||| BitVec.ofNat 24 (2 ^ k.val) } })
    ∧
  (∀ (s : State) (train : Nat) (k : Fin 24) (f : Nat) (q : Nat) (seq : Nat) (cid : Nat) (st : Nat) (r : Nat) (r2 : Nat), pairActive s = true → s.rd
    DEV_MODE.mode = modeShadow → sparseFind s.pair.mirrors (f * 256 + q) = none → st ≠ Status.cancelled.code → st ≠ Status.dieReset.code → seq < 2 ^
    48 → Answers (.dataBlockReceived train (.record f q seq cid st r r2 none) k true) s fun t => t.pair =
    { s.pair with rxTrain := train, rxNak := if train = s.pair.rxTrain then s.pair.rxNak else 0, mirrors := t.pair.mirrors } ∧ sparseFind
    t.pair.mirrors (f * 256 + q) = some
    { h := seq, window := [{ seq := seq, executed := true, note := false, done := true, cid := cid, status := st, result := r }] } ∧ t =
    { s with pair := t.pair }) ∧
  (∀ (s : State) (f : Forming) (e : Nat) (u : Track), s.pair.forming = some f → f.edge = some e → trackOf s f.id = some u → u.phase = .started →
    f.role ≤ 1 → s.rd DEV_MODE.mode = modeRun → Answers (.pairFormCommit) s fun t => t.rd DEV_MODE.mode = (if f.role = 0 then modeLead else
    modeShadow) ∧ t.rd DEV_MODE.previous_mode = modeRun ∧ t.rd DEV_MODE.transition_busy = 0 ∧ ended t f.id .success = true ∧ t.now = (toBoundary s
    e).now ∧ t.pair.forming = none ∧ t.pair.mac = u.par 0x18 6 ∧ t.pair.overwrite = true ∧ t.pair.unit = 1 ∧ t.pair.frames = [] ∧ t.pair.copying =
    true ∧ t.pair.unitSuspended = true ∧ t.pair.agrees = true ∧ t.rd PRL_STATUS.fit = 0 ∧ t.rd PRL_STATUS.resync = 1 ∧ t.rd PRL_STATUS.release =
    u.par 0x11 1 % 2 ^ PRL_STATUS.release.width ∧ t.boot = { s.boot with transition := none } ∧ (f.role = 1 → causeSet t scMode = true) ∧ (f.role = 0
    → causeSet t scMode = false) ∧ t.ctxs = s.ctxs ∧ t.mem = s.mem ∧ t.sec = s.sec) ∧
  (∀ (s : State) (f : Forming), s.pair.forming = some f → f.edge = none → underWay s f.id = true → Answers (.pairFormTimeout) s fun t => ended t f.id
    .pairNotFormed = true ∧ t.now = max s.now (f.since + secTicks) ∧ t.pair = { s.pair with forming := none, heard := none } ∧ t.boot =
    { s.boot with transition := none } ∧ t.rd DEV_MODE.transition_busy = 0 ∧ t.rd DEV_MODE.mode = s.rd DEV_MODE.mode ∧ OnlyTrack f.id
    { s with now := t.now, tim := t.tim, boot := t.boot, regs := t.regs, pair := t.pair } t ∧ SameRegs (keys [DEV_MODE.transition_busy]) s t) ∧
  (∀ (s : State) (id : Nat) (e : Nat) (p : Prepared), s.pair.committing = some { id := some id, abandon := true, edge := e } → underWay s id = true →
    s.pair.prepared = some p → p.tracks = [] → p.applied = false → Answers (.pairCommitBoundary) s fun t => t.pair =
    { s.pair with committing := none, prepared := none } ∧ ended t id .success = true ∧ t.now = (toBoundary s e).now ∧ t.ctxs = s.ctxs ∧ t.regs =
    s.regs ∧ t.mem = s.mem ∧ t.sec = s.sec ∧ t.imgs = s.imgs) ∧
  (∀ (s : State) (k : Track) (e : Nat) (p : Prepared), s.pair.committing = some { id := none, abandon := false, edge := e } → s.pair.prepared = some
    p → p.tracks = [k.id] → trackOf s k.id = some k → k.op = 0x15 → k.par 0x10 1 ≤ 7 → committed s (k.par 0x10 1) = true → activeCtx s ≠ some (k.par
    0x10 1) → Answers (.pairCommitBoundary) s fun t => committed t (k.par 0x10 1) = false ∧ (∀ f : Nat, f < frameCount → planeFrame t (k.par 0x10 1)
    f = 0) ∧ (∀ c : Nat, c < 8 → c ≠ k.par 0x10 1 → planeFrames t c = planeFrames s c) ∧ t.pair.committing = none ∧ t.pair.prepared = none ∧
    t.link.tracks = s.link.tracks.filter (fun w => w.id != k.id) ∧ t.now = (toBoundary s e).now ∧ t.mem = s.mem ∧ t.sec = s.sec) ∧
  (∀ (s : State) (i : Nat) (e : Nat), s.pair.dissolve = some (some i, e) → underWay s i = true → s.rd DEV_MODE.mode = modeLead ∨ s.rd DEV_MODE.mode =
    modeShadow → s.pair.prepared = none → s.pair.committing = none → s.pair.takeover = none → Answers (.dissolveBoundary) s fun t => LeftPair s t ∧
    ended t i .success = true ∧ t.now = (toBoundary s e).now ∧ t.rd DEV_MODE.transition_busy = 0 ∧ t.boot = { s.boot with transition := none } ∧
    (s.rd DEV_MODE.mode = modeShadow → causeSet t scPair = true ∧ (causeSet s scPair = false → t.rd DEV_MODE.safe_state = 1)) ∧ (s.rd DEV_MODE.mode =
    modeLead → causeSet t scPair = causeSet s scPair ∧ t.rd DEV_MODE.safe_state = s.rd DEV_MODE.safe_state ∧ t.pair.overwrite = s.pair.overwrite) ∧
    t.ctxs = s.ctxs ∧ t.mem = s.mem ∧ t.sec = s.sec)

/-- A unit that closes gives its frames' digest: a shadow sends it, bit 0 inverted once under injection; a lead that has the shadow's returns
  agreement, or counts a mismatch. A matched held segment is released after 1.5 us, another is discarded, counted late if its verdict is
  missing. A mismatch is a double fault if both devices report a fault, a takeover by a fit shadow if the lead alone does, else a
  resynchronisation. A copy sends every range of PRL_SYNC; a clean frame after it makes the shadow fit, three spoilt ones give up.
  (21_pair_operation.md) -/
def Obligations.UnitsAreComparedAndReleased : Prop :=
  (∀ (s : State), s.pair.unit ≠ 0 → udigPa s = 0 → pairActive s = true → s.rd DEV_MODE.mode = modeShadow → Answers (.digestUnitClose) s fun t =>
    (lastBlockSent t).map (fun b => (b.unit, b.digest, b.word)) = some (s.pair.unit, if s.pair.inject then crc64 (digestBytes s.pair.frames) ^^^ 1
    else crc64 (digestBytes s.pair.frames), none) ∧ t.pair.inject = false ∧ t.pair.closed.getLast? = some
    { unit := s.pair.unit, digest := if s.pair.inject then crc64 (digestBytes s.pair.frames) ^^^ 1 else crc64 (digestBytes s.pair.frames), word := none, suspended := s.pair.unitSuspended, since := s.pair.unitBefore, closed := unitEnd s, verdict := if s.pair.unitSuspended then some true else none }
    ∧ t.pair.unit = s.pair.unit % (2 ^ 32 - 1) + 1 ∧ t.pair.unitOpened = unitEnd s ∧ t.pair.unitBefore = s.pair.unitOpened ∧ t.pair.frames = [] ∧
    t.now = (toBoundary s (unitEnd s * 65536)).now ∧ t.ctxs = s.ctxs ∧ t.mem = s.mem ∧ t.sec = s.sec ∧ t.fh = s.fh ∧ SameRegs (keys
    [PRL_STATUS.suspended]) s t) ∧
  (∀ (s : State) (d : BitVec 64), s.pair.unit ≠ 0 → udigPa s = 0 → pairActive s = true → s.rd DEV_MODE.mode = modeLead → s.pair.unitSuspended = false
    → s.pair.early = [(s.pair.unit, d, none)] → s.pair.mismatch = none → s.pair.frameFrom = none → s.pair.closed = [] → Answers (.digestUnitClose) s
    fun t => (crc64 (digestBytes s.pair.frames) = d → lastNote t = some (.verdict true) ∧ t.pair.mismatches = s.pair.mismatches ∧ t.pair.mismatch =
    none) ∧ (crc64 (digestBytes s.pair.frames) ≠ d → t.rd PRL_COUNTS.mismatches = satAdd PRL_COUNTS.mismatches.width (s.rd PRL_COUNTS.mismatches) 1 %
    2 ^ PRL_COUNTS.mismatches.width ∧ t.pair.mismatches = s.pair.mismatches + 1 ∧ t.rd HCI_EVT_CAUSE.pair_event = 1 ∧ t.pair.mismatch = some
    { unit := s.pair.unit, digest := crc64 (digestBytes s.pair.frames), word := none, suspended := s.pair.unitSuspended, since := s.pair.unitBefore, closed := unitEnd s, verdict := if s.pair.unitSuspended then some true else none }
    ∧ lastNote t = t.pair.ownReport.map Note.report) ∧ t.pair.early = [] ∧ t.pair.unit = s.pair.unit % (2 ^ 32 - 1) + 1 ∧ t.pair.unitOpened = unitEnd
    s ∧ t.pair.unitBefore = s.pair.unitOpened ∧ t.pair.frames = [] ∧ t.now = (toBoundary s (unitEnd s * 65536)).now ∧ t.ctxs = s.ctxs ∧ t.mem = s.mem
    ∧ t.sec = s.sec ∧ t.fh = s.fh) ∧
  (∀ (s : State) (h : HeldFrame) (c : ClosedUnit), s.pair.held = [h] → s.pair.closed.find? (fun x => x.unit == h.unit) = some c → c.verdict = some
    true → egressOpen s = true → laneState s h.lane = lnUp → (laneOf s h.lane).txEi = false → (laneOf s h.lane).onWire = [] → Answers
    (.segmentReleaseDue) s fun t => t.pair.held = [] ∧ t.outbox = s.outbox ++ [.egress h.lane (t.now + txLatency s h.lane * hcTicks s) (overwrite s
    h.data ++ List.replicate (60 - (overwrite s h.data).length) 0) h.bad] ∧ t.now = max s.now (h.at_ + 1500 * nsTicks) ∧ t.regs = s.regs ∧ (laneOf t
    h.lane).onWire.length = 1 ∧ t =
    { s with now := t.now, tim := t.tim, fh := { s.fh with lanes := t.fh.lanes }, pair := { s.pair with held := [], closed := t.pair.closed }, outbox := t.outbox })
    ∧
  (∀ (s : State) (h : HeldFrame) (c : ClosedUnit), s.pair.held = [h] → s.pair.closed.find? (fun x => x.unit == h.unit) = some c → c.verdict ≠ some
    true → Answers (.segmentReleaseDue) s fun t => t.pair.held = [] ∧ t.outbox = s.outbox ∧ t.rd FHL_TX_COUNTS.tx_discarded h.lane = satAdd
    FHL_TX_COUNTS.tx_discarded.width (s.rd FHL_TX_COUNTS.tx_discarded h.lane) 1 % 2 ^ FHL_TX_COUNTS.tx_discarded.width ∧ (c.verdict = none → t.rd
    PRL_COUNTS.late_digests = satAdd PRL_COUNTS.late_digests.width (s.rd PRL_COUNTS.late_digests) 1 % 2 ^ PRL_COUNTS.late_digests.width) ∧ t.now =
    max s.now (h.at_ + 1500 * nsTicks) ∧ t =
    { s with now := t.now, tim := t.tim, regs := t.regs, pair := { s.pair with held := [], closed := t.pair.closed } } ∧ SameRegs
    ([FHL_TX_COUNTS.tx_discarded.key h.lane 0] ++ keys [PRL_COUNTS.late_digests]) s t) ∧
  (∀ (s : State) (c : ClosedUnit) (own : Bool) (other : Bool), s.pair.mismatch = some c → s.pair.ownReport = some own → s.pair.partnerReport = some
    other → s.rd DEV_MODE.mode = modeShadow → s.rd PRL_STATUS.fit = 1 → s.pair.takeover = none → pairActive s = true → Answers (.mismatchResolution)
    s fun t => (own = true → other = true → (t.safe.log.getLast?.map (fun e => e.kind)) = some .pairDoubleFault ∧ t.rd PRL_STATUS.fit = 0 ∧
    t.pair.synced = false ∧ t.pair.takeover = none) ∧ (own = false → other = true → t.pair.takeover = some
    { id := none, edge := nextSymbol s, own := true } ∧ t.rd PRL_STATUS.fit = 1) ∧ (other = false → t.rd PRL_STATUS.fit = 0 ∧ t.rd PRL_STATUS.resync
    = 1 ∧ t.pair.copying = true ∧ lastNote t = some .resync ∧ t.pair.takeover = none) ∧ t.pair.mismatch = none ∧ t.pair.ownReport = none ∧
    t.pair.partnerReport = none ∧ t.now = s.now ∧ t.ctxs = s.ctxs ∧ t.mem = s.mem ∧ t.sec = s.sec ∧ t.fh = s.fh) ∧
  (∀ (s : State), s.pair.copying = true → s.rd DEV_MODE.mode = modeShadow → Answers (.resyncCopyEnd) s fun t => t.pair =
    { s.pair with copying := false, dirty := false, frameFrom := some (frameBoundary (counter s + 1)) } ∧ t.rd PRL_STATUS.resync = 0 ∧ t =
    { s with pair := t.pair, regs := t.regs } ∧ SameRegs (keys [PRL_STATUS.resync]) s t) ∧
  (∀ (s : State), s.pair.copying = true → s.rd DEV_MODE.mode = modeLead → pairActive s = true → s.rd PRL_STATUS.tx_sleep = 0 → d0Fenced s = false →
    Answers (.resyncCopyEnd) s fun t => t.pair.copying = false ∧ t.pair.frameFrom = some (frameBoundary (counter s + 1)) ∧ t.rd PRL_STATUS.resync = 0
    ∧ t.outbox = s.outbox ++ (syncCopies s).map (fun d => .dataBlock s.pair.txTrain d) ∧ t =
    { s with pair := t.pair, regs := t.regs, outbox := t.outbox } ∧ SameRegs (keys [PRL_STATUS.resync]) s t) ∧
  (∀ (s : State) (f : Nat), s.pair.frameFrom = some f → s.rd DEV_MODE.mode = modeShadow → s.pair.dirty = false → Answers (.resyncFrameEnd) s fun t =>
    t.pair = { s.pair with frameFrom := none, synced := true, rounds := 0 } ∧ t.rd PRL_STATUS.fit = b2n (fitNow t) ∧ t.now = (toBoundary s (f +
    10000000 * 65536)).now ∧ t = { s with now := t.now, tim := t.tim, pair := t.pair, regs := t.regs } ∧ SameRegs (keys [PRL_STATUS.fit]) s t) ∧
  (∀ (s : State) (f : Nat), s.pair.frameFrom = some f → s.rd DEV_MODE.mode = modeShadow → s.pair.dirty = true → pairActive s = true → Answers
    (.resyncFrameEnd) s fun t => (s.pair.rounds < 2 → t.pair.copying = true ∧ t.pair.rounds = s.pair.rounds + 1 ∧ lastNote t = some .resync ∧ t.rd
    PRL_STATUS.resync = 1) ∧ (2 ≤ s.pair.rounds → t.pair.rounds = 0 ∧ (t.safe.log.getLast?.map (fun e => e.kind)) = some .pairResyncFailed ∧ t.rd
    HCI_EVT_CAUSE.pair_event = 1) ∧ t.pair.frameFrom = none ∧ t.pair.synced = s.pair.synced ∧ t.now = (toBoundary s (f + 10000000 * 65536)).now ∧
    t.ctxs = s.ctxs ∧ t.mem = s.mem ∧ t.sec = s.sec ∧ t.fh = s.fh)

/-- A shadow averages its offsets every 1 ms, and steps its counter at the next frame boundary when more than 50 ns away. Roles exchange on their
  frame boundary when the shadow is fit. After 10 us without a valid block the partner is absent: a fit shadow decides to take over on the next
  symbol boundary, one that is not fit leaves the pair in the safe state. On the edge a fit shadow becomes LEAD, counted, with its mute lifted;
  a lead that yields goes to RUN in the safe state. A lead whose partner stays absent leaves the pair. (21_pair_operation.md,
  18_timing_and_holdover.md) -/
def Obligations.TakeoversAndPairTime : Prop :=
  (∀ (s : State), s.rd DEV_MODE.mode = modeShadow → s.pair.offsets ≠ [] → (s.tim.steps.any (fun p => p.pair)) = false → Answers (.pairTimeAverage) s
    fun t => t.pair.offset = (s.pair.offsets.foldl (· + ·) (0 : Int) / s.pair.offsets.length) ∧ t.pair.offsets = [] ∧ t.now = max s.now
    (s.pair.averaged + msTicks) ∧ t.pair.averaged = t.now ∧ ((s.pair.offsets.foldl (· + ·) (0 : Int) / s.pair.offsets.length).natAbs ≤ 50 * 65536 →
    t.tim.steps = s.tim.steps ∧ t.pair.far = false) ∧ (50 * 65536 < (s.pair.offsets.foldl (· + ·) (0 : Int) / s.pair.offsets.length).natAbs →
    t.tim.steps = s.tim.steps ++
    [{ id := none, kind := 0, value := -(s.pair.offsets.foldl (· + ·) (0 : Int) / s.pair.offsets.length), edge := frameBoundary (counter t + 1), engine := false, pair := true }])
    ∧ (1100 * 65536 < (s.pair.offsets.foldl (· + ·) (0 : Int) / s.pair.offsets.length).natAbs → t.pair.far = true) ∧ t.rd PRL_STATUS.fit = b2n
    (fitNow t) ∧ t = { s with now := t.now, tim := t.tim, pair := t.pair, regs := t.regs, outbox := t.outbox } ∧ SameRegs (keys [PRL_STATUS.fit,
    PRL_OFFSET.offset]) s t) ∧
  (∀ (s : State) (e : Nat), s.pair.exchange = some e → s.rd DEV_MODE.mode = modeShadow → s.rd PRL_STATUS.fit = 1 → s.tim.eng.state ≠ tmLocked → (∀ b
    : Nat, b < 10 → b ≠ scMode → causeSet s b = false) → Answers (.roleExchange) s fun t => t.rd DEV_MODE.mode = modeLead ∧ t.rd
    DEV_MODE.previous_mode = modeShadow ∧ t.pair.exchange = none ∧ t.pair.lastExchange = some t.now ∧ t.pair.mirrors = [] ∧ t.now = (toBoundary s
    e).now ∧ causeSet t scMode = false ∧ t.rd DEV_MODE.safe_state ≠ 1 ∧ t.ctxs = s.ctxs ∧ t.mem = s.mem ∧ t.sec = s.sec ∧ t.imgs = s.imgs) ∧
  (∀ (s : State) (e : Nat), s.pair.exchange = some e → s.rd DEV_MODE.mode = modeLead → s.rd PRL_STATUS.fit = 1 → Answers (.roleExchange) s fun t =>
    t.rd DEV_MODE.mode = modeShadow ∧ t.rd DEV_MODE.previous_mode = modeLead ∧ t.pair.exchange = none ∧ t.pair.held = [] ∧ t.now = (toBoundary s
    e).now ∧ causeSet t scMode = true ∧ (causeSet s scMode = false → t.rd DEV_MODE.safe_state = 1) ∧ t.ctxs = s.ctxs ∧ t.mem = s.mem ∧ t.sec = s.sec
    ∧ t.imgs = s.imgs) ∧
  (∀ (s : State) (e : Nat), s.pair.exchange = some e → s.rd DEV_MODE.mode = modeLead ∨ s.rd DEV_MODE.mode = modeShadow → s.rd PRL_STATUS.fit = 0 →
    Answers (.roleExchange) s fun t => t.rd DEV_MODE.mode = s.rd DEV_MODE.mode ∧ t.pair.exchange = none ∧ t.now = (toBoundary s e).now ∧ t =
    { s with now := t.now, tim := t.tim, pair := t.pair }) ∧
  (∀ (s : State), s.pair.heartbeat = true → s.rd DEV_MODE.mode = modeShadow → s.rd PRL_STATUS.fit = 1 → s.pair.takeover = none → Answers
    (.heartbeatLoss) s fun t => t.pair.heartbeat = false ∧ t.pair.partner = none ∧ t.now = max s.now (s.pair.lastBlock + 10 * usTicks) ∧ t.rd
    PRL_STATUS.partner_present = 0 ∧ t.pair.takeover = some { id := none, edge := nextSymbol t, own := true } ∧ t =
    { s with now := t.now, tim := t.tim, regs := t.regs, pair := t.pair } ∧ SameRegs (keys [PRL_STATUS.partner_present]) s t) ∧
  (∀ (s : State), s.pair.heartbeat = true → s.rd DEV_MODE.mode = modeShadow → s.rd PRL_STATUS.fit ≠ 1 → s.pair.takeover = none → s.pair.prepared =
    none → s.pair.committing = none → s.pair.dissolve = none → Answers (.heartbeatLoss) s fun t => t.rd DEV_MODE.mode = modeRun ∧ t.rd PRL_STATUS.fit
    = 0 ∧ t.rd PRL_STATUS.partner_present = 0 ∧ t.rd HCI_EVT_CAUSE.pair_event = 1 ∧ causeSet t scPair = true ∧ (causeSet s scPair = false → t.rd
    DEV_MODE.safe_state = 1) ∧ t.pair.heartbeat = false ∧ t.now = max s.now (s.pair.lastBlock + 10 * usTicks) ∧ t.ctxs = s.ctxs ∧ t.mem = s.mem ∧
    t.sec = s.sec) ∧
  (∀ (s : State), s.pair.heartbeat = true → s.rd DEV_MODE.mode = modeLead → s.rd PRL_CFG.lead_yield = 0 → Answers (.heartbeatLoss) s fun t => t.rd
    DEV_MODE.mode = modeLead ∧ t.rd PRL_STATUS.fit = 0 ∧ t.rd PRL_STATUS.partner_present = 0 ∧ t.pair =
    { s.pair with heartbeat := false, partner := none, absentSince := some (s.pair.absentSince.getD t.now) } ∧ t =
    { s with now := t.now, tim := t.tim, regs := t.regs, pair := t.pair } ∧ SameRegs (keys [PRL_STATUS.fit, PRL_STATUS.partner_present]) s t) ∧
  (∀ (s : State) (k : Takeover), s.pair.takeover = some k → k.id = none → s.rd DEV_MODE.mode = modeShadow → s.rd PRL_STATUS.fit = 1 → s.tim.eng.state
    ≠ tmLocked → s.pair.mirrors = [] → (∀ b : Nat, b < 10 → b ≠ scMode → causeSet s b = false) → s.pair.prepared = none → s.pair.committing = none →
    s.pair.dissolve = none → Answers (.takeoverEdge) s fun t => t.rd DEV_MODE.mode = modeLead ∧ t.rd DEV_MODE.previous_mode = modeShadow ∧ t.rd
    PRL_STATUS.fit = 0 ∧ t.rd PRL_COUNTS.takeovers = satAdd PRL_COUNTS.takeovers.width (s.rd PRL_COUNTS.takeovers) 1 % 2 ^ PRL_COUNTS.takeovers.width
    ∧ t.pair.takeovers = s.pair.takeovers + 1 ∧ t.pair.overwrite = true ∧ t.pair.mac = s.pair.mac ∧ t.pair.takeover = none ∧ t.rd
    HCI_EVT_CAUSE.pair_event = 1 ∧ causeSet t scMode = false ∧ t.rd DEV_MODE.safe_state ≠ 1 ∧ t.now = (toBoundary s k.edge).now ∧ ((lastBlockSent
    t).map (fun b => b.takeover) = some true ∨ pairActive s = false) ∧ t.ctxs = s.ctxs ∧ t.mem = s.mem ∧ t.sec = s.sec) ∧
  (∀ (s : State) (y : Nat), s.pair.yieldAt = some y → s.rd DEV_MODE.mode = modeLead → s.pair.takeover = none → s.pair.prepared = none →
    s.pair.committing = none → s.pair.dissolve = none → Answers (.takeoverEdge) s fun t => LeftPair s t ∧ causeSet t scPair = true ∧ (causeSet s
    scPair = false → t.rd DEV_MODE.safe_state = 1) ∧ t.pair.overwrite = s.pair.overwrite ∧ t.now = (toBoundary s y).now ∧ t.ctxs = s.ctxs ∧ t.mem =
    s.mem ∧ t.sec = s.sec) ∧
  (∀ (s : State) (n : Nat), s.pair.absentSince = some n → s.rd DEV_MODE.mode = modeLead → s.rd PRL_CFG.partner_timeout_s ≠ 0 → s.pair.takeover = none
    → s.pair.prepared = none → s.pair.committing = none → s.pair.dissolve = none → Answers (.partnerTimeout) s fun t => LeftPair s t ∧ causeSet t
    scPair = causeSet s scPair ∧ t.rd DEV_MODE.safe_state = s.rd DEV_MODE.safe_state ∧ t.pair.overwrite = s.pair.overwrite ∧ t.now = max s.now (n +
    s.rd PRL_CFG.partner_timeout_s * secTicks) ∧ t.ctxs = s.ctxs ∧ t.mem = s.mem ∧ t.sec = s.sec)

/-- A write to TIM_PTP_MEAS_HI commits the 48-bit offset and counts it. A 1PPS pulse under 100 ns changes nothing; a wider one is timestamped, and
  the input is valid from the third edge spaced 1 s within 10 us and no later than 1.1 s. Without an edge it becomes invalid. An accepted
  message numbers its edge, and seconds_known follows its agreement with the count of edges; a late or bad one is counted. The hold-off time
  ends in a selection afresh, the wait-to-restore time in eligibility. (18_timing_and_holdover.md) -/
def Obligations.ReferencesAreMeasuredAndNumbered : Prop :=
  (∀ (s : State) (v : Word), s.link.up = true → s.rd DEV_MODE.mode ≠ 0 → blockAnswers s 0x50034 = true → Answers (.ptpMeasurementCommit v) s fun t =>
    t.tim.ptp.offset = some (toSigned 48 (s.rd TIM_PTP_MEAS_LO.offset_lo + v.toNat % 2 ^ 16 * 2 ^ 32) + (if s.tim.stepTick.any (fun k => decide
    (s.now < k + bits v.toNat 16 16 * usTicks)) then s.tim.lastStep else 0)) ∧ t.tim.ptp.at_ = s.now ∧ (s.rd TIM_PTP_CTRL.ptp_valid = 0 →
    t.tim.ptp.since = none) ∧ (s.rd TIM_PTP_CTRL.ptp_valid = 1 → t.tim.ptp.since.isSome = true) ∧ t.rd TIM_PTP_CTRL.meas_count = satAdd
    TIM_PTP_CTRL.meas_count.width (s.rd TIM_PTP_CTRL.meas_count) 1 % 2 ^ TIM_PTP_CTRL.meas_count.width ∧ t =
    { s with tim := { s.tim with ptp := t.tim.ptp, pps := t.tim.pps }, regs := t.regs } ∧ SameRegs (keys [TIM_PTP_MEAS_HI.offset_hi,
    TIM_PTP_MEAS_HI.age_us, TIM_PTP_CTRL.meas_count]) s t) ∧
  (∀ (s : State) (w : Nat) (sub : Fin 21845), w < 100 → Answers (.ppsEdge w sub) s fun t => t = s) ∧
  (∀ (s : State) (w : Nat) (sub : Fin 21845) (e : Nat), 100 ≤ w → s.tim.ppsEdge = some e → Answers (.ppsEdge w sub) s fun t => t.tim.ppsEdge = some
    (counter s + sub.val) ∧ t.tim.ppsTick = s.now ∧ ((1000000000 * 65536 - 10000 * 65536 ≤ (counter s : Int) + sub.val - e ∧ (counter s : Int) +
    sub.val - e ≤ 1000000000 * 65536 + 10000 * 65536) ∧ s.now ≤ s.tim.ppsTick + 1100 * msTicks → t.tim.ppsRun = min 3 (s.tim.ppsRun + 1)) ∧
    (¬((1000000000 * 65536 - 10000 * 65536 ≤ (counter s : Int) + sub.val - e ∧ (counter s : Int) + sub.val - e ≤ 1000000000 * 65536 + 10000 * 65536)
    ∧ s.now ≤ s.tim.ppsTick + 1100 * msTicks) → t.tim.ppsRun = 1) ∧ (t.rd TIM_PPS_STATUS.pps_valid = 1 ↔ t.tim.ppsRun = 3) ∧ (s.tim.todSeen = false →
    t.rd TIM_PPS_STATUS.seconds_known = 0) ∧ (s.tim.todSeen = true → t.rd TIM_PPS_STATUS.seconds_known = b2n (s.rdb TIM_PPS_STATUS.seconds_known)) ∧
    (todFormat s = 0 → t.tim.pps.at_ = s.now ∧ t.tim.pps.offset = some (((counter s : Int) + sub.val - toSigned 32 (s.rd TIM_PPS_ADJ.adj)) -
    nearestSecond ((counter s : Int) + sub.val - toSigned 32 (s.rd TIM_PPS_ADJ.adj)).toNat * (1000000000 * 65536 : Nat))) ∧ t.tim.todSeen = false ∧
    t.tim.eng = s.tim.eng ∧ t.tim.fine = s.tim.fine ∧ t.tim.ppt = s.tim.ppt ∧ t = { s with tim := t.tim, regs := t.regs } ∧ SameRegs (keys
    [TIM_PPS_STATUS.pps_valid, TIM_PPS_STATUS.seconds_known]) s t) ∧
  (∀ (s : State), s.tim.ppsRun ≠ 0 → Answers (.ppsTimeout) s fun t => t.rd TIM_PPS_STATUS.pps_valid = 0 ∧ t.tim.ppsRun = 0 ∧ t.tim.pps.since = none ∧
    t.now = max s.now (s.tim.ppsTick + 1100 * msTicks) ∧ t.tim.eng = s.tim.eng ∧ t = { s with now := t.now, tim := t.tim, regs := t.regs } ∧ SameRegs
    (keys [TIM_PPS_STATUS.pps_valid]) s t) ∧
  (∀ (s : State) (ok : Bool) (utc : Nat), todFormat s = 1 → ok = false ∨ s.tim.ppsEdge = none ∨ 900 * msTicks < (s.now - s.tim.ppsTick) → Answers
    (.todMessage (.zda ok utc)) s fun t => t.rd TIM_PPS_STATUS.tod_errors = satAdd TIM_PPS_STATUS.tod_errors.width (s.rd TIM_PPS_STATUS.tod_errors) 1
    % 2 ^ TIM_PPS_STATUS.tod_errors.width ∧ OnlyRegs (keys [TIM_PPS_STATUS.tod_errors]) s t) ∧
  (∀ (s : State) (utc : Nat) (m : Nat), todFormat s = 1 → s.tim.ppsEdge.isSome = true → (s.now - s.tim.ppsTick) ≤ 900 * msTicks → ((utc : Int) +
    toSigned 16 (s.rd TIM_TOD_CFG.utc_offset)).toNat = m → Answers (.todMessage (.zda true utc)) s fun t => t.tim.todLast = some m ∧ t.tim.todEdge =
    some m ∧ t.tim.todSeen = true ∧ (s.tim.todSeen = false → (t.rd TIM_PPS_STATUS.seconds_known = 1 ↔ s.tim.todEdge = some m)) ∧ (s.tim.todSeen =
    true → s.tim.todLast ≠ some m → t.rd TIM_PPS_STATUS.seconds_known = 0) ∧ t.tim =
    { s.tim with ptp := t.tim.ptp, pps := t.tim.pps, todLast := t.tim.todLast, todEdge := t.tim.todEdge, todSeen := true, todFlags := t.tim.todFlags }
    ∧ t.tim.todFlags = s.tim.todFlags ∧ t = { s with tim := t.tim, regs := t.regs } ∧ SameRegs (keys [TIM_PPS_STATUS.seconds_known]) s t) ∧
  (∀ (s : State) (d : Vector (BitVec 8) 16) (m : Nat), todFormat s = 2 → s.tim.ppsEdge.isSome = true → 10 * msTicks ≤ (s.now - s.tim.ppsTick) →
    (s.now - s.tim.ppsTick) ≤ 900 * msTicks → d.toList.take 3 = [0x4E, 0x54, 1] → (d.toList.getD 3 0).toNat < 8 → d.toList.getD 12 0 = 0 →
    d.toList.getD 13 0 = 0 → crc 16 0x1021 0xFFFF (d.toList.take 14) = field d.toList 14 2 → field d.toList 4 6 = m + 1 → Answers (.todMessage
    (.binary d)) s fun t => t.tim.todLast = some m ∧ t.tim.todEdge = some m ∧ t.tim.todSeen = true ∧ (s.tim.todSeen = false → (t.rd
    TIM_PPS_STATUS.seconds_known = 1 ↔ s.tim.todEdge = some m)) ∧ (s.tim.todSeen = true → s.tim.todLast ≠ some m → t.rd TIM_PPS_STATUS.seconds_known
    = 0) ∧ t.rd TIM_PPS_STATUS.time_valid = (d.toList.getD 3 0).toNat / 4 % 2 ∧ t.tim =
    { s.tim with ptp := t.tim.ptp, pps := t.tim.pps, todLast := t.tim.todLast, todEdge := t.tim.todEdge, todSeen := true, todFlags := t.tim.todFlags }
    ∧ t = { s with tim := t.tim, regs := t.regs } ∧ SameRegs (keys [TIM_PPS_STATUS.seconds_known, TIM_PPS_STATUS.time_valid]) s t) ∧
  (∀ (s : State) (d : Vector (BitVec 8) 16), todFormat s = 2 → (s.now - s.tim.ppsTick) < 10 * msTicks ∨ 900 * msTicks < (s.now - s.tim.ppsTick) ∨
    d.toList.getD 12 0 ≠ 0 ∨ crc 16 0x1021 0xFFFF (d.toList.take 14) ≠ field d.toList 14 2 → Answers (.todMessage (.binary d)) s fun t => t.rd
    TIM_PPS_STATUS.tod_errors = satAdd TIM_PPS_STATUS.tod_errors.width (s.rd TIM_PPS_STATUS.tod_errors) 1 % 2 ^ TIM_PPS_STATUS.tod_errors.width ∧
    OnlyRegs (keys [TIM_PPS_STATUS.tod_errors]) s t) ∧
  (∀ (s : State) (e : Nat), s.tim.seHold = some e → s.rd TIM_STATUS.synce_sel < 16 → s.rd TIM_SYNCE_QL.eligible (s.rd TIM_STATUS.synce_sel) = 0 →
    seBase s (s.rd TIM_STATUS.synce_sel) = false → Answers (.synceHoldOffExpiry) s fun t => t.tim.seHold = none ∧ t.rd TIM_STATUS.synce_sel = seBest
    t ∧ (t.rd TIM_STATUS.synce_sel ≠ s.rd TIM_STATUS.synce_sel → t.rd HCI_EVT_CAUSE.timing_state = 1 ∧ t.tim.seSlew = true) ∧ t.now = max s.now e ∧ t
    =
    { s with now := t.now, tim := t.tim, regs := t.regs, fh := { s.fh with lanes := t.fh.lanes }, link := { s.link with pendingMsix := t.link.pendingMsix }, outbox := t.outbox }
    ∧ SameRegs synceKeys s t ∧ t.tim.touts = s.tim.touts ∧ t.tim.eng = s.tim.eng ∧ t.tim.steps = s.tim.steps ∧ t.tim.ppt = s.tim.ppt) ∧
  (∀ (s : State) (n : Fin 16) (e : Nat), sparseFind s.tim.seWtr n = some e → Answers (.synceWtrExpiry n) s fun t => t.rd TIM_SYNCE_QL.in_wtr n = 0 ∧
    (t.rd TIM_SYNCE_QL.eligible n = 1 ↔ seBase s n = true) ∧ sparseFind t.tim.seWtr n = none ∧ t.now = max s.now e ∧ t =
    { s with now := t.now, tim := t.tim, regs := t.regs, fh := { s.fh with lanes := t.fh.lanes }, link := { s.link with pendingMsix := t.link.pendingMsix }, outbox := t.outbox }
    ∧ SameRegs synceKeys s t ∧ t.tim.touts = s.tim.touts ∧ t.tim.eng = s.tim.eng ∧ t.tim.steps = s.tim.steps ∧ t.tim.ppt = s.tim.ppt)

/-- With no reference enabled an evaluation keeps FREERUN, an unusable model's outage begins at LOCKED's loss as REFERENCE_LOST, else as HOLDOVER
  with a bound of 30 ns; it always shows state and class. The time PLL leaves a LOCAL_OSC that is not READY for the core reference or the Wicket
  oscillator, leaves a core reference that is lost as well for the Wicket oscillator (log entry 197), and returns at a frame boundary; the bound
  of an outage is brought up to the move. The replica takes the counter. A refit fades the bins every 60 s. A step moves counter and replica
  together on its edge; an output's edge changes its level while driving. (18_timing_and_holdover.md) -/
def Obligations.TimingEngineStepsAndOutputs : Prop :=
  (∀ (s : State), s.rd DEV_MODE.mode = modeRun → policyAllows s scTimeError = false → s.safe.injection = none → s.rd TIM_STATUS.time_error = 1 →
    s.tim.steps.all (fun p => !p.engine) = true → s.tim.eng.state = tmFree → s.rd TIM_REF_CFG.ptp_enable = 0 ∧ s.rd TIM_REF_CFG.pps_enable = 0 →
    Answers (.timingEvaluation) s fun t => t.tim.eng = s.tim.eng ∧ t.rd TIM_STATUS.state = t.tim.eng.state % 8 ∧ t.rd TIM_STATUS.tq_class = tqClass t
    t.tim.eng ∧ t.rd TIM_STATUS.time_error = b2n (timeError t t.tim.eng) ∧ t.tim.steps = s.tim.steps ∧ t =
    { s with now := t.now, tim := t.tim, regs := t.regs, free := t.free, link := { s.link with pendingMsix := t.link.pendingMsix }, outbox := t.outbox, fh := { s.fh with lanes := t.fh.lanes } }
    ∧ SameRegs (synceKeys ++ keys [TIM_STATUS.state, TIM_STATUS.previous, TIM_STATUS.tq_class, TIM_STATUS.time_error, TIM_STATUS.phase_ref,
    TIM_STATUS.freq_assisted, TIM_STATUS.model_usable, TIM_HO_BOUND.bound_ns, TIM_HO_ELAPSED.seconds] ++ [evtKey evTiming] ++ keys
    [TIM_LEARNED.learned_s, TIM_STATUS.ref_disagree] ++ keys [SAF_SAFE_CAUSE.time_error]) s t ∧ t.tim.lastEval = t.now ∧ t.now = max s.now
    (s.tim.lastEval + 100 * msTicks) ∧ t.tim.touts = s.tim.touts) ∧
  (∀ (s : State), s.rd DEV_MODE.mode = modeRun → policyAllows s scTimeError = false → s.safe.injection = none → s.rd TIM_STATUS.time_error = 1 →
    s.tim.steps.all (fun p => !p.engine) = true → s.tim.eng.state = tmLocked → s.rd TIM_REF_CFG.ptp_enable = 0 ∧ s.rd TIM_REF_CFG.pps_enable = 0 →
    Answers (.timingEvaluation) s fun t => t.tim.eng.state = (if modelUsable t = true ∧ s.rd TIM_STATUS.time_pll_src = 0 then tmLearned else tmLost)
    ∧ t.tim.eng.previous = tmLocked ∧ t.tim.eng.bound = 30 * 1000000 ∧ t.tim.eng.outage = some t.now ∧ t.tim.eng.source = 0 ∧ t.rd
    TIM_HO_BOUND.bound_ns = 30 ∧ t.rd TIM_STATUS.state = t.tim.eng.state % 8 ∧ t.rd TIM_STATUS.tq_class = tqClass t t.tim.eng ∧ t.rd
    TIM_STATUS.time_error = b2n (timeError t t.tim.eng) ∧ t.tim.steps = s.tim.steps ∧ t =
    { s with now := t.now, tim := t.tim, regs := t.regs, free := t.free, link := { s.link with pendingMsix := t.link.pendingMsix }, outbox := t.outbox, fh := { s.fh with lanes := t.fh.lanes } }
    ∧ SameRegs (synceKeys ++ keys [TIM_STATUS.state, TIM_STATUS.previous, TIM_STATUS.tq_class, TIM_STATUS.time_error, TIM_STATUS.phase_ref,
    TIM_STATUS.freq_assisted, TIM_STATUS.model_usable, TIM_HO_BOUND.bound_ns, TIM_HO_ELAPSED.seconds] ++ [evtKey evTiming] ++ keys
    [TIM_LEARNED.learned_s, TIM_STATUS.ref_disagree] ++ keys [SAF_SAFE_CAUSE.time_error]) s t ∧ t.tim.lastEval = t.now ∧ t.now = max s.now
    (s.tim.lastEval + 100 * msTicks) ∧ t.tim.touts = s.tim.touts) ∧
  (∀ (s : State), s.rd TIM_STATUS.time_pll_src = 0 → candReady s 0 = false → policyAllows s scTimeError = false → s.tim.eng.state ≠ tmLearned →
    s.tim.eng.state ≠ tmExtended → s.rdb TIM_STATUS.forced = false → phaseRef s = none → Answers (.timePllRefLoss) s fun t => t.rd
    TIM_STATUS.time_pll_src = (if s.rd CLK_REF_STATUS.current ≠ 0 ∧ candReady s (s.rd CLK_REF_STATUS.current) = true then 1 else 2) ∧
    (s.tim.eng.state = tmLocked → t.tim.eng.state = tmLost ∧ t.tim.eng.outage = some s.now ∧ t.tim.eng.bound = 30 * 1000000) ∧ (s.tim.eng.state =
    tmLost → t.tim.eng = growBound s s.tim.eng) ∧ (s.tim.eng.state ≠ tmLocked → s.tim.eng.state ≠ tmLost → t.tim.eng = s.tim.eng) ∧ t.rd
    TIM_STATUS.state = t.tim.eng.state % 8 ∧ t.rd TIM_STATUS.tq_class = tqClass t t.tim.eng ∧ t.rd TIM_STATUS.time_error = b2n (timeError t
    t.tim.eng) ∧ t.tim = { s.tim with eng := t.tim.eng, ptp := t.tim.ptp, pps := t.tim.pps } ∧ t =
    { s with tim := t.tim, regs := t.regs, link := { s.link with pendingMsix := t.link.pendingMsix }, outbox := t.outbox } ∧ SameRegs (keys
    [TIM_STATUS.state, TIM_STATUS.previous, TIM_STATUS.tq_class, TIM_STATUS.time_error, TIM_STATUS.phase_ref, TIM_STATUS.freq_assisted,
    TIM_STATUS.model_usable, TIM_HO_BOUND.bound_ns, TIM_HO_ELAPSED.seconds] ++ [evtKey evTiming] ++ keys [TIM_STATUS.time_pll_src] ++ keys
    [SAF_SAFE_CAUSE.time_error]) s t) ∧
  (∀ (s : State), s.rd TIM_STATUS.time_pll_src = 1 → candReady s 0 = false → s.rd CLK_REF_STATUS.current = 0 ∨ candReady s (s.rd
    CLK_REF_STATUS.current) = false → Answers (.timePllRefLoss) s fun t => t.rd TIM_STATUS.time_pll_src = 2 ∧ t.tim.eng = (if inOutage
    s.tim.eng.state then growBound s s.tim.eng else s.tim.eng) ∧ t.tim = { s.tim with eng := t.tim.eng } ∧ t =
    { s with tim := t.tim, regs := t.regs } ∧ SameRegs (keys [TIM_STATUS.time_pll_src]) s t) ∧
  (∀ (s : State), s.rd TIM_STATUS.time_pll_src ≠ 0 → candReady s 0 = true → -500000000 ≤ s.tim.ppt → Answers (.timePllReturn) s fun t => t.rd
    TIM_STATUS.time_pll_src = 0 ∧ frameBoundary (counter s) ≤ counter t ∧ s.now ≤ t.now ∧ t.tim.eng = (if inOutage s.tim.eng.state then growBound
    (advanceToCounter s (frameBoundary (counter s))) s.tim.eng else s.tim.eng) ∧ t.tim = { s.tim with fine := t.tim.fine, eng := t.tim.eng } ∧ t =
    { s with now := t.now, tim := t.tim, regs := t.regs } ∧ SameRegs (keys [TIM_STATUS.time_pll_src]) s t) ∧
  (∀ (s : State), s.boot.coreUp = true → Answers (.replicaRealign) s fun t => t = { s with tim := { s.tim with replica := some (counter s) } }) ∧
  (∀ (s : State), s.tim.bins ≠ [] → Answers (.modelRefit) s fun t => t.now = max s.now (s.tim.lastFit + 60 * secTicks) ∧ t.tim.lastFit = t.now ∧
    t.tim.fit.length = 6 ∧ t.tim.bins.map (fun p => p.1) = (s.tim.bins.filter (fun p => p.2 - p.2 / 10080 != 0)).map (fun p => p.1) ∧ (∀ p ∈
    t.tim.bins, (s.tim.bins.any (fun q => q.1 == p.1 && q.2 - q.2 / 10080 == p.2)) = true) ∧ t.tim.fitMean = meanTemp s ∧ t.tim =
    { s.tim with fine := t.tim.fine, bins := t.tim.bins, fit := t.tim.fit, fitMean := t.tim.fitMean, lastFit := t.tim.lastFit } ∧ t =
    { s with now := t.now, tim := t.tim, free := t.free }) ∧
  (∀ (s : State) (p : TimeStep), s.tim.steps = [p] → p.id = none → p.kind = 0 → p.engine = false → p.pair = false → s.tim.ppt = 0 → 0 ≤ p.value →
    p.value < 1000000000 * 65536 → counter s < 2 ^ 90 → running s = false → s.ctxs.armed = none → s.tim.touts = [] → p.edge ≤ counter s → Answers
    (.timeStepEdge) s fun t => counter t = counter (advanceTo s (gridEdge s s.now)) + p.value.toNat ∧ t.tim.lastStep = p.value ∧
    (s.tim.replica.isSome = true → t.tim.replica = some (counter t)) ∧ t.tim.steps = [] ∧ (s.tim.eng.state = tmLocked → t.tim.eng.state =
    tmAcquiring) ∧ (s.tim.eng.state ≠ tmLocked → t.tim.eng.state = s.tim.eng.state ∧ t.tim.eng.bound = s.tim.eng.bound) ∧ t.now = max s.now (gridEdge
    s s.now) ∧ t.tim.touts = [] ∧ t =
    { s with now := t.now, tim := t.tim, regs := t.regs, link := { s.link with pendingMsix := t.link.pendingMsix }, outbox := t.outbox } ∧ SameRegs
    (keys [TIM_STATUS.state, TIM_STATUS.previous, TIM_STATUS.tq_class, TIM_STATUS.time_error, TIM_STATUS.phase_ref, TIM_STATUS.freq_assisted,
    TIM_STATUS.model_usable, TIM_HO_BOUND.bound_ns, TIM_HO_ELAPSED.seconds] ++ [evtKey evTiming]) s t) ∧
  (∀ (s : State) (n : Fin 8) (o : Tout) (h : Nat), toutOf s n = o → o.high = some h → o.next = none → Answers (.timedOutputEdge n) s fun t => toutOf
    t n = { o with high := none } ∧ (driving s = true → bit (t.rd TIM_TOUT_STATUS.level) n = !o.arm.active) ∧ (driving s = false → t.rd
    TIM_TOUT_STATUS.level = s.rd TIM_TOUT_STATUS.level) ∧ (o.arm.has o.pulses = false → bit (t.rd TIM_TOUT_STATUS.armed) n = false) ∧ t.now = max
    s.now h ∧ (∀ k : Nat, k < 8 → k ≠ (n : Nat) → toutOf t k = toutOf s k ∧ bit (t.rd TIM_TOUT_STATUS.level) k = bit (s.rd TIM_TOUT_STATUS.level) k ∧
    bit (t.rd TIM_TOUT_STATUS.armed) k = bit (s.rd TIM_TOUT_STATUS.armed) k) ∧ t.tim = { s.tim with fine := t.tim.fine, touts := t.tim.touts } ∧ t =
    { s with now := t.now, tim := t.tim, regs := t.regs } ∧ SameRegs (keys [TIM_TOUT_STATUS.level, TIM_TOUT_STATUS.armed]) s t) ∧
  (∀ (s : State) (n : Fin 8) (o : Tout), toutOf s n = o → o.high = none → o.arm.has o.pulses = true → o.arm.mode ≠ 3 → Answers (.timedOutputEdge n) s
    fun t => toutOf t n = { o with pulses := o.pulses + 1, high := some (t.now + max 4 o.arm.width * nsTicks) } ∧ (driving s = true → bit (t.rd
    TIM_TOUT_STATUS.level) n = o.arm.active) ∧ (driving s = false → t.rd TIM_TOUT_STATUS.level = s.rd TIM_TOUT_STATUS.level) ∧ t.now = s.now +
    ticksUntil s (toutLead s n o.arm o.pulses) ∧ (∀ k : Nat, k < 8 → k ≠ (n : Nat) → toutOf t k = toutOf s k ∧ bit (t.rd TIM_TOUT_STATUS.level) k =
    bit (s.rd TIM_TOUT_STATUS.level) k) ∧ t.tim = { s.tim with fine := t.tim.fine, touts := t.tim.touts } ∧ t =
    { s with now := t.now, tim := t.tim, regs := t.regs } ∧ SameRegs (keys [TIM_TOUT_STATUS.level]) s t)

/-- A write sets an RW field, clears exactly the W1C bits it writes 1 to, and leaves an RO register; a 64-bit write acts as two, lower address
  first. A read of an RC counter answers its value and clears it, and no other field; a wide read answers both registers. A read of the low half
  of a capture pair captures the high half for its next read. A wrong width or alignment answers all ones and is counted; an unassigned offset
  reads 0, a stopped block all ones, each counted and recorded. (01_stack.md, 02_modes_and_start_up.md, 23_register_map.md,
  08_network_on_chip.md) -/
def Obligations.RegisterAccessesActByType : Prop :=
  (∀ (s : State) (v : Word64), s.link.up = true → Answers (.registerWrite 0 0xC v false) s fun t => t.rd DEV_SCRATCH.scratch = v.toNat % 2 ^ 32 ∧
    OnlyRegs (keys [DEV_SCRATCH.scratch]) s t) ∧
  (∀ (s : State) (v : Word64), s.link.up = true → s.rd DEV_MODE.mode ≠ 0 → Answers (.registerWrite 0 0x18000 v false) s fun t => (∀ k : Nat, k < 7 →
    t.rd { HCI_EVT_CAUSE.swap_event with lo := k } = (if v.toNat.testBit k = true then s.rd { HCI_EVT_CAUSE.swap_event with lo := k } - s.rd
    { HCI_EVT_CAUSE.swap_event with lo := k } % 2 else s.rd { HCI_EVT_CAUSE.swap_event with lo := k }) % 2) ∧ OnlyRegs ((List.range 7).map evtKey) s
    t) ∧
  (∀ (s : State) (v : Word64), s.link.up = true → s.rd DEV_MODE.mode ≠ 0 → blockAnswers s 0x50010 = true → Answers (.registerWrite 0 0x50010 v false)
    s fun t => t = s) ∧
  (∀ (s : State) (off : BitVec 24) (v : Word64), s.link.up = true → off.toNat % 8 = 0 → Answers (.registerWrite 0 off v true) s fun t => t = write32
    0 (off.toNat + 4) (v.toNat / 2 ^ 32) (write32 0 off.toNat (v.toNat % 2 ^ 32) s)) ∧
  (∀ (s : State), s.link.up = true → Answers (.rcCounterRead 0 0x20004 false) s fun t => t.outbox = s.outbox ++ [.readData 0 0x20004 (s.rd
    PCIE_BLOCKED_COUNT.unassigned + s.rd PCIE_BLOCKED_COUNT.blocked * 2 ^ 16)] ∧ t.rd PCIE_BLOCKED_COUNT.unassigned = 0 ∧ t.rd
    PCIE_BLOCKED_COUNT.blocked = 0 ∧ t = { s with regs := t.regs, outbox := t.outbox } ∧ SameRegs (keys [PCIE_BLOCKED_COUNT.unassigned,
    PCIE_BLOCKED_COUNT.blocked]) s t) ∧
  (∀ (s : State), s.link.up = true → blockAnswers s 0x50038 = true → Answers (.rcCounterRead 0 0x50038 false) s fun t => t.outbox = s.outbox ++
    [.readData 0 0x50038 (s.rd TIM_PTP_CTRL.ptp_valid + s.rd TIM_PTP_CTRL.meas_count * 2 ^ 16)] ∧ t.rd TIM_PTP_CTRL.meas_count = 0 ∧ t =
    { s with regs := t.regs, outbox := t.outbox } ∧ SameRegs (keys [TIM_PTP_CTRL.meas_count]) s t) ∧
  (∀ (s : State) (n : Fin 16), s.link.up = true → s.boot.coreUp = true → Answers (.rcCounterRead 0 (BitVec.ofNat 24 (0x100018 + 0x4000 * (n : Nat)))
    false) s fun t => t.outbox = s.outbox ++ [.readData 0 (0x100018 + 0x4000 * (n : Nat)) (s.rd FHL_FEC_COUNTS.corrected n + s.rd
    FHL_FEC_COUNTS.uncorrectable n * 2 ^ 16)] ∧ t.rd FHL_FEC_COUNTS.corrected n = 0 ∧ t.rd FHL_FEC_COUNTS.uncorrectable n = 0 ∧ t =
    { s with regs := t.regs, outbox := t.outbox } ∧ SameRegs (keys [FHL_FEC_COUNTS.corrected, FHL_FEC_COUNTS.uncorrectable] n) s t) ∧
  (∀ (s : State), s.link.up = true → Answers (.rcCounterRead 0 0x20000 true) s fun t => t.outbox = s.outbox ++ [.readData 0 0x20000 (regValue s
    0x20000 + (s.rd PCIE_BLOCKED_COUNT.unassigned + s.rd PCIE_BLOCKED_COUNT.blocked * 2 ^ 16) * 2 ^ 32)] ∧ t.rd PCIE_BLOCKED_COUNT.unassigned = 0 ∧
    t.rd PCIE_BLOCKED_COUNT.blocked = 0 ∧ t = { s with regs := t.regs, outbox := t.outbox } ∧ SameRegs (keys [PCIE_BLOCKED_COUNT.unassigned,
    PCIE_BLOCKED_COUNT.blocked]) s t) ∧
  (∀ (s : State), s.link.up = true → s.boot.coreUp = true → Answers (.capturePairRead 0 0x90010 false) s fun t => t.outbox = s.outbox ++ [.readData 0
    0x90010 (s.rd NOC_DENY_PA_LO.pa_lo)] ∧ t.noc.denyCap = some (s.rd NOC_DENY_PA_HI.pa_hi + s.rd NOC_DENY_PA_HI.initiator * 2 ^ 24) ∧ t =
    { s with noc := { s.noc with denyCap := t.noc.denyCap }, outbox := t.outbox }) ∧
  (∀ (s : State) (v : Nat), s.link.up = true → s.boot.coreUp = true → s.noc.denyCap = some v → Answers (.capturePairRead 0 0x90014 false) s fun t =>
    t.outbox = s.outbox ++ [.readData 0 0x90014 (v)] ∧ t = { s with noc := { s.noc with denyCap := none }, outbox := t.outbox }) ∧
  (∀ (s : State), s.link.up = true → s.boot.coreUp = true → Answers (.capturePairRead 0 0xB0018 true) s fun t => t.outbox = s.outbox ++ [.readData 0
    0xB0018 (s.rd ENC_FAIL_PA_LO.kind + s.rd ENC_FAIL_PA_LO.pa_lo * 2 ^ 6 + (s.rd ENC_FAIL_PA_HI.pa_hi + s.rd ENC_FAIL_PA_HI.initiator * 2 ^ 24) * 2
    ^ 32)] ∧ t = { s with enc := { s.enc with failCap := none }, outbox := t.outbox }) ∧
  (∀ (s : State), s.link.up = true → blockAnswers s 0x50004 = true → Answers (.capturePairRead 0 0x50004 false) s fun t => t.outbox = s.outbox ++
    [.readData 0 0x50004 (time96 (counter s) % 2 ^ 32)] ∧ t.tim.latched = time96 (counter s) / 2 ^ 32 ∧ t.tim.captured = 3 ∧ t =
    { s with tim := { s.tim with latched := t.tim.latched, captured := 3 }, outbox := t.outbox }) ∧
  (∀ (s : State) (f : Fin 64) (off : BitVec 24) (b : Fin 9) (w : Bool), s.link.up = true → (b : Nat) ≠ 0 → (b : Nat) ≠ 4 ∨ off.toNat % 4 ≠ 0 → (b :
    Nat) ≠ 8 ∨ off.toNat % 8 ≠ 0 → Answers (.badWidthAccess f off b w) s fun t => t.outbox = (if w = true then s.outbox else s.outbox ++ [.readData f
    off.toNat (2 ^ (8 * (b : Nat)) - 1)]) ∧ t.rd PCIE_ERR_COUNTS.bad_access = satAdd 16 (s.rd PCIE_ERR_COUNTS.bad_access) 1 % 2 ^ 16 ∧ t =
    { s with regs := t.regs, outbox := t.outbox } ∧ SameRegs (keys [PCIE_ERR_COUNTS.bad_access]) s t) ∧
  (∀ (s : State) (f : Fin 64) (off : BitVec 24) (w : Bool), s.link.up = true → off.toNat % 4 = 0 → reaches f off.toNat = none → Answers
    (.unassignedAccess f off w) s fun t => t.outbox = (if w = true then s.outbox else s.outbox ++ [.readData f off.toNat 0]) ∧ t.rd
    PCIE_BLOCKED_ACCESS.offset = off.toNat ∧ t.rd PCIE_BLOCKED_ACCESS.function = f ∧ t.rd PCIE_BLOCKED_ACCESS.write = b2n w ∧ t.rd
    PCIE_BLOCKED_ACCESS.kind = 0 ∧ t.rd PCIE_BLOCKED_COUNT.unassigned = satAdd 16 (s.rd PCIE_BLOCKED_COUNT.unassigned) 1 % 2 ^ 16 ∧ t =
    { s with regs := t.regs, outbox := t.outbox } ∧ SameRegs (keys [PCIE_BLOCKED_ACCESS.offset, PCIE_BLOCKED_ACCESS.function,
    PCIE_BLOCKED_ACCESS.write, PCIE_BLOCKED_ACCESS.kind] ++ keys [PCIE_BLOCKED_COUNT.unassigned]) s t) ∧
  (∀ (s : State) (off : BitVec 24), s.link.up = true → off.toNat % 4 = 0 → assigned off.toNat = true → blockAnswers s off.toNat = false → Answers
    (.blockedAccess 0 off false) s fun t => t.outbox = s.outbox ++ [.readData 0 off.toNat (2 ^ 32 - 1)] ∧ t.rd PCIE_BLOCKED_ACCESS.offset = off.toNat
    ∧ t.rd PCIE_BLOCKED_ACCESS.function = 0 ∧ t.rd PCIE_BLOCKED_ACCESS.write = b2n false ∧ t.rd PCIE_BLOCKED_ACCESS.kind = 1 ∧ t.rd
    PCIE_BLOCKED_COUNT.blocked = satAdd 16 (s.rd PCIE_BLOCKED_COUNT.blocked) 1 % 2 ^ 16 ∧ t = { s with regs := t.regs, outbox := t.outbox } ∧
    SameRegs (keys [PCIE_BLOCKED_ACCESS.offset, PCIE_BLOCKED_ACCESS.function, PCIE_BLOCKED_ACCESS.write, PCIE_BLOCKED_ACCESS.kind] ++ keys
    [PCIE_BLOCKED_COUNT.blocked]) s t) ∧
  (∀ (s : State) (off : BitVec 24), s.link.up = true → 0x10000 ≤ off.toNat → assigned off.toNat = true → s.rd DEV_MODE.mode = 0 ∨ blockAnswers s
    off.toNat = false → Answers (.blockedAccess 0 off true) s fun t => t.rd PCIE_BLOCKED_ACCESS.offset = off.toNat ∧ t.rd
    PCIE_BLOCKED_ACCESS.function = 0 ∧ t.rd PCIE_BLOCKED_ACCESS.write = b2n true ∧ t.rd PCIE_BLOCKED_ACCESS.kind = 1 ∧ t.rd
    PCIE_BLOCKED_COUNT.blocked = satAdd 16 (s.rd PCIE_BLOCKED_COUNT.blocked) 1 % 2 ^ 16 ∧ OnlyRegs (keys [PCIE_BLOCKED_ACCESS.offset,
    PCIE_BLOCKED_ACCESS.function, PCIE_BLOCKED_ACCESS.write, PCIE_BLOCKED_ACCESS.kind] ++ keys [PCIE_BLOCKED_COUNT.blocked]) s t)

/-- Whatever command is given in whatever state, exec answers a next state, and so does step on every queue: no command of the table faults or is
  refused. (00_scope.md, 23_register_map.md) -/
def Obligations.EveryCommandCompletes : Prop :=
  (∀ (i : Instr) (s : State), ∃ t, exec i s = .next t) ∧
  (∀ (s : State), ∃ t, step s = .next t)
end

