-- ==== Sys2Proof/Laws/Sparse.lean ====
section
/-! SUPPORT. Laws of the sparse maps: a read after a write, and that every operation keeps the canonical form. -/

namespace Sys2Proof.Machine

variable {α : Type}

theorem sparseFind_put_same (m : Sparse α) (n : Nat) (v : α) : sparseFind (sparsePut m n v) n = some v := by
  induction m with
  | nil => simp [sparsePut, sparseFind]
  | cons p m ih =>
    obtain ⟨k, w⟩ := p
    unfold sparsePut
    split
    · simp [sparseFind]
    · split
      · simp [sparseFind]
      · simp [sparseFind, *]

theorem sparseFind_put_ne (m : Sparse α) (n q : Nat) (v : α) (h : n ≠ q) : sparseFind (sparsePut m n v) q = sparseFind m q := by
  induction m with
  | nil => simp [sparsePut, sparseFind, h]
  | cons p m ih =>
    obtain ⟨k, w⟩ := p
    unfold sparsePut
    split
    · rename_i e; subst e; simp [sparseFind, h]
    · split
      · simp [sparseFind, h]
      · simp [sparseFind, ih]

theorem sparseFind_del_same (m : Sparse α) (n : Nat) : sparseFind (sparseDel m n) n = none := by
  induction m with
  | nil => simp [sparseDel, sparseFind]
  | cons p m ih =>
    obtain ⟨k, w⟩ := p
    unfold sparseDel
    split
    · exact ih
    · simp [sparseFind, *]

theorem sparseFind_del_ne (m : Sparse α) (n q : Nat) (h : n ≠ q) : sparseFind (sparseDel m n) q = sparseFind m q := by
  induction m with
  | nil => simp [sparseDel, sparseFind]
  | cons p m ih =>
    obtain ⟨k, w⟩ := p
    unfold sparseDel
    split
    · rename_i e; subst e; simp [sparseFind, h, ih]
    · simp [sparseFind, ih]

/-- A read after a write to the same key gives the value written. -/
@[simp] theorem sparseGet_set_same [DecidableEq α] (d : α) (m : Sparse α) (n : Nat) (v : α) : sparseGet d (sparseSet d m n v) n = v := by
  unfold sparseGet sparseSet
  split
  · rename_i h; simp [sparseFind_del_same, h]
  · simp [sparseFind_put_same]

/-- A write leaves every other key alone. -/
theorem sparseGet_set_ne [DecidableEq α] (d e : α) (m : Sparse α) (n q : Nat) (v : α) (h : n ≠ q) :
    sparseGet e (sparseSet d m n v) q = sparseGet e m q := by
  unfold sparseGet sparseSet
  split
  · rw [sparseFind_del_ne m n q h]
  · rw [sparseFind_put_ne m n q v h]

/-! ## The canonical form -/

theorem sparseRises_weaken (m : Sparse α) (a b : Nat) (h : a ≤ b) (r : sparseRises b m = true) : sparseRises a m = true := by
  cases m with
  | nil => rfl
  | cons p m =>
    obtain ⟨k, w⟩ := p
    simp only [sparseRises, Bool.and_eq_true, decide_eq_true_eq] at r ⊢
    exact ⟨Nat.le_trans h r.1, r.2⟩

theorem sparseRises_put (m : Sparse α) (a n : Nat) (v : α) (h : a ≤ n) (r : sparseRises a m = true) :
    sparseRises a (sparsePut m n v) = true := by
  induction m generalizing a with
  | nil => simp [sparsePut, sparseRises, h]
  | cons p m ih =>
    obtain ⟨k, w⟩ := p
    simp only [sparseRises, Bool.and_eq_true, decide_eq_true_eq] at r
    unfold sparsePut
    split
    · rename_i e; subst e; simp [sparseRises, h, r.2]
    · split
      · rename_i l; simp [sparseRises, h, r.2]; omega
      · simp only [sparseRises, Bool.and_eq_true, decide_eq_true_eq]
        exact ⟨r.1, ih (k + 1) (by omega) r.2⟩

theorem sparseRises_del (m : Sparse α) (a n : Nat) (r : sparseRises a m = true) : sparseRises a (sparseDel m n) = true := by
  induction m generalizing a with
  | nil => simp [sparseDel, sparseRises]
  | cons p m ih =>
    obtain ⟨k, w⟩ := p
    simp only [sparseRises, Bool.and_eq_true, decide_eq_true_eq] at r
    unfold sparseDel
    split
    · exact ih a (sparseRises_weaken m a (k + 1) (by omega) r.2)
    · simp only [sparseRises, Bool.and_eq_true, decide_eq_true_eq]
      exact ⟨r.1, ih (k + 1) r.2⟩

theorem sparseMem_put (m : Sparse α) (n : Nat) (v : α) (p : Nat × α) (h : p ∈ sparsePut m n v) : p = (n, v) ∨ p ∈ m := by
  induction m with
  | nil => simpa [sparsePut] using h
  | cons q m ih =>
    obtain ⟨k, w⟩ := q
    unfold sparsePut at h
    split at h
    · simp only [List.mem_cons] at h ⊢; tauto
    · split at h
      · simp only [List.mem_cons] at h ⊢; tauto
      · simp only [List.mem_cons] at h ⊢
        rcases h with h | h
        · exact .inr (.inl h)
        · rcases ih h with h | h
          · exact .inl h
          · exact .inr (.inr h)

theorem sparseMem_del (m : Sparse α) (n : Nat) (p : Nat × α) (h : p ∈ sparseDel m n) : p ∈ m := by
  induction m with
  | nil => simp [sparseDel] at h
  | cons q m ih =>
    obtain ⟨k, w⟩ := q
    unfold sparseDel at h
    split at h
    · exact List.mem_cons_of_mem _ (ih h)
    · rcases List.mem_cons.mp h with h | h
      · exact h ▸ List.mem_cons_self ..
      · exact List.mem_cons_of_mem _ (ih h)

/-- Every write keeps the canonical form. -/
theorem sparseWf_set [DecidableEq α] (d : α) (m : Sparse α) (n : Nat) (v : α) (h : sparseWf d m = true) : sparseWf d (sparseSet d m n v) = true := by
  simp only [sparseWf, Bool.and_eq_true, List.all_eq_true, decide_eq_true_eq] at h ⊢
  unfold sparseSet
  split
  · exact ⟨sparseRises_del m 0 n h.1, fun p hp => h.2 p (sparseMem_del m n p hp)⟩
  · rename_i hv
    refine ⟨sparseRises_put m 0 n v (Nat.zero_le _) h.1, fun p hp => ?_⟩
    rcases sparseMem_put m n v p hp with e | e
    · subst e; exact hv
    · exact h.2 p e

theorem sparseWf_del [DecidableEq α] (d : α) (m : Sparse α) (n : Nat) (h : sparseWf d m = true) : sparseWf d (sparseDel m n) = true := by
  simp only [sparseWf, Bool.and_eq_true, List.all_eq_true, decide_eq_true_eq] at h ⊢
  exact ⟨sparseRises_del m 0 n h.1, fun p hp => h.2 p (sparseMem_del m n p hp)⟩

theorem sparseWf_nil [DecidableEq α] (d : α) : sparseWf d [] = true := by simp [sparseWf, sparseRises]

end Sys2Proof.Machine
end

