-- ==== Sys2Proof/Laws/State.lean ====
section
/-! SUPPORT. What the shared operations leave alone: one lemma for each field of the state and each operation, true by unfolding it. -/

namespace Sys2Proof.Machine

variable (s : State)

/-! ## Register writes change `regs` alone -/

@[simp] theorem wr_now (r : Row) (v i j : Nat) : (s.wr r v i j).now = s.now := rfl
@[simp] theorem wr_grade2 (r : Row) (v i j : Nat) : (s.wr r v i j).grade2 = s.grade2 := rfl
@[simp] theorem wr_boot (r : Row) (v i j : Nat) : (s.wr r v i j).boot = s.boot := rfl
@[simp] theorem wr_stack (r : Row) (v i j : Nat) : (s.wr r v i j).stack = s.stack := rfl
@[simp] theorem wr_safe (r : Row) (v i j : Nat) : (s.wr r v i j).safe = s.safe := rfl
@[simp] theorem wr_districts (r : Row) (v i j : Nat) : (s.wr r v i j).districts = s.districts := rfl
@[simp] theorem wr_ctxs (r : Row) (v i j : Nat) : (s.wr r v i j).ctxs = s.ctxs := rfl
@[simp] theorem wr_tiles (r : Row) (v i j : Nat) : (s.wr r v i j).tiles = s.tiles := rfl
@[simp] theorem wr_mem (r : Row) (v i j : Nat) : (s.wr r v i j).mem = s.mem := rfl
@[simp] theorem wr_noc (r : Row) (v i j : Nat) : (s.wr r v i j).noc = s.noc := rfl
@[simp] theorem wr_dram (r : Row) (v i j : Nat) : (s.wr r v i j).dram = s.dram := rfl
@[simp] theorem wr_enc (r : Row) (v i j : Nat) : (s.wr r v i j).enc = s.enc := rfl
@[simp] theorem wr_link (r : Row) (v i j : Nat) : (s.wr r v i j).link = s.link := rfl
@[simp] theorem wr_sec (r : Row) (v i j : Nat) : (s.wr r v i j).sec = s.sec := rfl
@[simp] theorem wr_imgs (r : Row) (v i j : Nat) : (s.wr r v i j).imgs = s.imgs := rfl
@[simp] theorem wr_integ (r : Row) (v i j : Nat) : (s.wr r v i j).integ = s.integ := rfl
@[simp] theorem wr_dmas (r : Row) (v i j : Nat) : (s.wr r v i j).dmas = s.dmas := rfl
@[simp] theorem wr_fh (r : Row) (v i j : Nat) : (s.wr r v i j).fh = s.fh := rfl
@[simp] theorem wr_tim (r : Row) (v i j : Nat) : (s.wr r v i j).tim = s.tim := rfl
@[simp] theorem wr_wkt (r : Row) (v i j : Nat) : (s.wr r v i j).wkt = s.wkt := rfl
@[simp] theorem wr_pins (r : Row) (v i j : Nat) : (s.wr r v i j).pins = s.pins := rfl
@[simp] theorem wr_pair (r : Row) (v i j : Nat) : (s.wr r v i j).pair = s.pair := rfl
@[simp] theorem wr_free (r : Row) (v i j : Nat) : (s.wr r v i j).free = s.free := rfl
@[simp] theorem wr_outbox (r : Row) (v i j : Nat) : (s.wr r v i j).outbox = s.outbox := rfl
@[simp] theorem wr_pending (r : Row) (v i j : Nat) : (s.wr r v i j).pending = s.pending := rfl

@[simp] theorem wrb_now (r : Row) (b : Bool) (i j : Nat) : (s.wrb r b i j).now = s.now := rfl
@[simp] theorem wrb_grade2 (r : Row) (b : Bool) (i j : Nat) : (s.wrb r b i j).grade2 = s.grade2 := rfl
@[simp] theorem wrb_boot (r : Row) (b : Bool) (i j : Nat) : (s.wrb r b i j).boot = s.boot := rfl
@[simp] theorem wrb_stack (r : Row) (b : Bool) (i j : Nat) : (s.wrb r b i j).stack = s.stack := rfl
@[simp] theorem wrb_safe (r : Row) (b : Bool) (i j : Nat) : (s.wrb r b i j).safe = s.safe := rfl
@[simp] theorem wrb_districts (r : Row) (b : Bool) (i j : Nat) : (s.wrb r b i j).districts = s.districts := rfl
@[simp] theorem wrb_ctxs (r : Row) (b : Bool) (i j : Nat) : (s.wrb r b i j).ctxs = s.ctxs := rfl
@[simp] theorem wrb_tiles (r : Row) (b : Bool) (i j : Nat) : (s.wrb r b i j).tiles = s.tiles := rfl
@[simp] theorem wrb_mem (r : Row) (b : Bool) (i j : Nat) : (s.wrb r b i j).mem = s.mem := rfl
@[simp] theorem wrb_noc (r : Row) (b : Bool) (i j : Nat) : (s.wrb r b i j).noc = s.noc := rfl
@[simp] theorem wrb_dram (r : Row) (b : Bool) (i j : Nat) : (s.wrb r b i j).dram = s.dram := rfl
@[simp] theorem wrb_enc (r : Row) (b : Bool) (i j : Nat) : (s.wrb r b i j).enc = s.enc := rfl
@[simp] theorem wrb_link (r : Row) (b : Bool) (i j : Nat) : (s.wrb r b i j).link = s.link := rfl
@[simp] theorem wrb_sec (r : Row) (b : Bool) (i j : Nat) : (s.wrb r b i j).sec = s.sec := rfl
@[simp] theorem wrb_imgs (r : Row) (b : Bool) (i j : Nat) : (s.wrb r b i j).imgs = s.imgs := rfl
@[simp] theorem wrb_integ (r : Row) (b : Bool) (i j : Nat) : (s.wrb r b i j).integ = s.integ := rfl
@[simp] theorem wrb_dmas (r : Row) (b : Bool) (i j : Nat) : (s.wrb r b i j).dmas = s.dmas := rfl
@[simp] theorem wrb_fh (r : Row) (b : Bool) (i j : Nat) : (s.wrb r b i j).fh = s.fh := rfl
@[simp] theorem wrb_tim (r : Row) (b : Bool) (i j : Nat) : (s.wrb r b i j).tim = s.tim := rfl
@[simp] theorem wrb_wkt (r : Row) (b : Bool) (i j : Nat) : (s.wrb r b i j).wkt = s.wkt := rfl
@[simp] theorem wrb_pins (r : Row) (b : Bool) (i j : Nat) : (s.wrb r b i j).pins = s.pins := rfl
@[simp] theorem wrb_pair (r : Row) (b : Bool) (i j : Nat) : (s.wrb r b i j).pair = s.pair := rfl
@[simp] theorem wrb_free (r : Row) (b : Bool) (i j : Nat) : (s.wrb r b i j).free = s.free := rfl
@[simp] theorem wrb_outbox (r : Row) (b : Bool) (i j : Nat) : (s.wrb r b i j).outbox = s.outbox := rfl
@[simp] theorem wrb_pending (r : Row) (b : Bool) (i j : Nat) : (s.wrb r b i j).pending = s.pending := rfl

@[simp] theorem inc_now (r : Row) (k i j : Nat) : (s.inc r k i j).now = s.now := rfl
@[simp] theorem inc_grade2 (r : Row) (k i j : Nat) : (s.inc r k i j).grade2 = s.grade2 := rfl
@[simp] theorem inc_boot (r : Row) (k i j : Nat) : (s.inc r k i j).boot = s.boot := rfl
@[simp] theorem inc_stack (r : Row) (k i j : Nat) : (s.inc r k i j).stack = s.stack := rfl
@[simp] theorem inc_safe (r : Row) (k i j : Nat) : (s.inc r k i j).safe = s.safe := rfl
@[simp] theorem inc_districts (r : Row) (k i j : Nat) : (s.inc r k i j).districts = s.districts := rfl
@[simp] theorem inc_ctxs (r : Row) (k i j : Nat) : (s.inc r k i j).ctxs = s.ctxs := rfl
@[simp] theorem inc_tiles (r : Row) (k i j : Nat) : (s.inc r k i j).tiles = s.tiles := rfl
@[simp] theorem inc_mem (r : Row) (k i j : Nat) : (s.inc r k i j).mem = s.mem := rfl
@[simp] theorem inc_noc (r : Row) (k i j : Nat) : (s.inc r k i j).noc = s.noc := rfl
@[simp] theorem inc_dram (r : Row) (k i j : Nat) : (s.inc r k i j).dram = s.dram := rfl
@[simp] theorem inc_enc (r : Row) (k i j : Nat) : (s.inc r k i j).enc = s.enc := rfl
@[simp] theorem inc_link (r : Row) (k i j : Nat) : (s.inc r k i j).link = s.link := rfl
@[simp] theorem inc_sec (r : Row) (k i j : Nat) : (s.inc r k i j).sec = s.sec := rfl
@[simp] theorem inc_imgs (r : Row) (k i j : Nat) : (s.inc r k i j).imgs = s.imgs := rfl
@[simp] theorem inc_integ (r : Row) (k i j : Nat) : (s.inc r k i j).integ = s.integ := rfl
@[simp] theorem inc_dmas (r : Row) (k i j : Nat) : (s.inc r k i j).dmas = s.dmas := rfl
@[simp] theorem inc_fh (r : Row) (k i j : Nat) : (s.inc r k i j).fh = s.fh := rfl
@[simp] theorem inc_tim (r : Row) (k i j : Nat) : (s.inc r k i j).tim = s.tim := rfl
@[simp] theorem inc_wkt (r : Row) (k i j : Nat) : (s.inc r k i j).wkt = s.wkt := rfl
@[simp] theorem inc_pins (r : Row) (k i j : Nat) : (s.inc r k i j).pins = s.pins := rfl
@[simp] theorem inc_pair (r : Row) (k i j : Nat) : (s.inc r k i j).pair = s.pair := rfl
@[simp] theorem inc_free (r : Row) (k i j : Nat) : (s.inc r k i j).free = s.free := rfl
@[simp] theorem inc_outbox (r : Row) (k i j : Nat) : (s.inc r k i j).outbox = s.outbox := rfl
@[simp] theorem inc_pending (r : Row) (k i j : Nat) : (s.inc r k i j).pending = s.pending := rfl

@[simp] theorem wrBit_now (r : Row) (n : Nat) (b : Bool) (i j : Nat) : (s.wrBit r n b i j).now = s.now := rfl
@[simp] theorem wrBit_grade2 (r : Row) (n : Nat) (b : Bool) (i j : Nat) : (s.wrBit r n b i j).grade2 = s.grade2 := rfl
@[simp] theorem wrBit_boot (r : Row) (n : Nat) (b : Bool) (i j : Nat) : (s.wrBit r n b i j).boot = s.boot := rfl
@[simp] theorem wrBit_stack (r : Row) (n : Nat) (b : Bool) (i j : Nat) : (s.wrBit r n b i j).stack = s.stack := rfl
@[simp] theorem wrBit_safe (r : Row) (n : Nat) (b : Bool) (i j : Nat) : (s.wrBit r n b i j).safe = s.safe := rfl
@[simp] theorem wrBit_districts (r : Row) (n : Nat) (b : Bool) (i j : Nat) : (s.wrBit r n b i j).districts = s.districts := rfl
@[simp] theorem wrBit_ctxs (r : Row) (n : Nat) (b : Bool) (i j : Nat) : (s.wrBit r n b i j).ctxs = s.ctxs := rfl
@[simp] theorem wrBit_tiles (r : Row) (n : Nat) (b : Bool) (i j : Nat) : (s.wrBit r n b i j).tiles = s.tiles := rfl
@[simp] theorem wrBit_mem (r : Row) (n : Nat) (b : Bool) (i j : Nat) : (s.wrBit r n b i j).mem = s.mem := rfl
@[simp] theorem wrBit_noc (r : Row) (n : Nat) (b : Bool) (i j : Nat) : (s.wrBit r n b i j).noc = s.noc := rfl
@[simp] theorem wrBit_dram (r : Row) (n : Nat) (b : Bool) (i j : Nat) : (s.wrBit r n b i j).dram = s.dram := rfl
@[simp] theorem wrBit_enc (r : Row) (n : Nat) (b : Bool) (i j : Nat) : (s.wrBit r n b i j).enc = s.enc := rfl
@[simp] theorem wrBit_link (r : Row) (n : Nat) (b : Bool) (i j : Nat) : (s.wrBit r n b i j).link = s.link := rfl
@[simp] theorem wrBit_sec (r : Row) (n : Nat) (b : Bool) (i j : Nat) : (s.wrBit r n b i j).sec = s.sec := rfl
@[simp] theorem wrBit_imgs (r : Row) (n : Nat) (b : Bool) (i j : Nat) : (s.wrBit r n b i j).imgs = s.imgs := rfl
@[simp] theorem wrBit_integ (r : Row) (n : Nat) (b : Bool) (i j : Nat) : (s.wrBit r n b i j).integ = s.integ := rfl
@[simp] theorem wrBit_dmas (r : Row) (n : Nat) (b : Bool) (i j : Nat) : (s.wrBit r n b i j).dmas = s.dmas := rfl
@[simp] theorem wrBit_fh (r : Row) (n : Nat) (b : Bool) (i j : Nat) : (s.wrBit r n b i j).fh = s.fh := rfl
@[simp] theorem wrBit_tim (r : Row) (n : Nat) (b : Bool) (i j : Nat) : (s.wrBit r n b i j).tim = s.tim := rfl
@[simp] theorem wrBit_wkt (r : Row) (n : Nat) (b : Bool) (i j : Nat) : (s.wrBit r n b i j).wkt = s.wkt := rfl
@[simp] theorem wrBit_pins (r : Row) (n : Nat) (b : Bool) (i j : Nat) : (s.wrBit r n b i j).pins = s.pins := rfl
@[simp] theorem wrBit_pair (r : Row) (n : Nat) (b : Bool) (i j : Nat) : (s.wrBit r n b i j).pair = s.pair := rfl
@[simp] theorem wrBit_free (r : Row) (n : Nat) (b : Bool) (i j : Nat) : (s.wrBit r n b i j).free = s.free := rfl
@[simp] theorem wrBit_outbox (r : Row) (n : Nat) (b : Bool) (i j : Nat) : (s.wrBit r n b i j).outbox = s.outbox := rfl
@[simp] theorem wrBit_pending (r : Row) (n : Nat) (b : Bool) (i j : Nat) : (s.wrBit r n b i j).pending = s.pending := rfl

/-! ## Time changes `now` and the counter alone -/

@[simp] theorem advance_grade2 (d : Nat) : (advance s d).grade2 = s.grade2 := rfl
@[simp] theorem advance_regs (d : Nat) : (advance s d).regs = s.regs := rfl
@[simp] theorem advance_boot (d : Nat) : (advance s d).boot = s.boot := rfl
@[simp] theorem advance_stack (d : Nat) : (advance s d).stack = s.stack := rfl
@[simp] theorem advance_safe (d : Nat) : (advance s d).safe = s.safe := rfl
@[simp] theorem advance_districts (d : Nat) : (advance s d).districts = s.districts := rfl
@[simp] theorem advance_ctxs (d : Nat) : (advance s d).ctxs = s.ctxs := rfl
@[simp] theorem advance_tiles (d : Nat) : (advance s d).tiles = s.tiles := rfl
@[simp] theorem advance_mem (d : Nat) : (advance s d).mem = s.mem := rfl
@[simp] theorem advance_noc (d : Nat) : (advance s d).noc = s.noc := rfl
@[simp] theorem advance_dram (d : Nat) : (advance s d).dram = s.dram := rfl
@[simp] theorem advance_enc (d : Nat) : (advance s d).enc = s.enc := rfl
@[simp] theorem advance_link (d : Nat) : (advance s d).link = s.link := rfl
@[simp] theorem advance_sec (d : Nat) : (advance s d).sec = s.sec := rfl
@[simp] theorem advance_imgs (d : Nat) : (advance s d).imgs = s.imgs := rfl
@[simp] theorem advance_integ (d : Nat) : (advance s d).integ = s.integ := rfl
@[simp] theorem advance_dmas (d : Nat) : (advance s d).dmas = s.dmas := rfl
@[simp] theorem advance_fh (d : Nat) : (advance s d).fh = s.fh := rfl
@[simp] theorem advance_wkt (d : Nat) : (advance s d).wkt = s.wkt := rfl
@[simp] theorem advance_pins (d : Nat) : (advance s d).pins = s.pins := rfl
@[simp] theorem advance_pair (d : Nat) : (advance s d).pair = s.pair := rfl
@[simp] theorem advance_free (d : Nat) : (advance s d).free = s.free := rfl
@[simp] theorem advance_outbox (d : Nat) : (advance s d).outbox = s.outbox := rfl
@[simp] theorem advance_pending (d : Nat) : (advance s d).pending = s.pending := rfl

@[simp] theorem advanceTo_grade2 (t : Nat) : (advanceTo s t).grade2 = s.grade2 := by unfold advanceTo; split <;> rfl
@[simp] theorem advanceTo_regs (t : Nat) : (advanceTo s t).regs = s.regs := by unfold advanceTo; split <;> rfl
@[simp] theorem advanceTo_boot (t : Nat) : (advanceTo s t).boot = s.boot := by unfold advanceTo; split <;> rfl
@[simp] theorem advanceTo_stack (t : Nat) : (advanceTo s t).stack = s.stack := by unfold advanceTo; split <;> rfl
@[simp] theorem advanceTo_safe (t : Nat) : (advanceTo s t).safe = s.safe := by unfold advanceTo; split <;> rfl
@[simp] theorem advanceTo_districts (t : Nat) : (advanceTo s t).districts = s.districts := by unfold advanceTo; split <;> rfl
@[simp] theorem advanceTo_ctxs (t : Nat) : (advanceTo s t).ctxs = s.ctxs := by unfold advanceTo; split <;> rfl
@[simp] theorem advanceTo_tiles (t : Nat) : (advanceTo s t).tiles = s.tiles := by unfold advanceTo; split <;> rfl
@[simp] theorem advanceTo_mem (t : Nat) : (advanceTo s t).mem = s.mem := by unfold advanceTo; split <;> rfl
@[simp] theorem advanceTo_noc (t : Nat) : (advanceTo s t).noc = s.noc := by unfold advanceTo; split <;> rfl
@[simp] theorem advanceTo_dram (t : Nat) : (advanceTo s t).dram = s.dram := by unfold advanceTo; split <;> rfl
@[simp] theorem advanceTo_enc (t : Nat) : (advanceTo s t).enc = s.enc := by unfold advanceTo; split <;> rfl
@[simp] theorem advanceTo_link (t : Nat) : (advanceTo s t).link = s.link := by unfold advanceTo; split <;> rfl
@[simp] theorem advanceTo_sec (t : Nat) : (advanceTo s t).sec = s.sec := by unfold advanceTo; split <;> rfl
@[simp] theorem advanceTo_imgs (t : Nat) : (advanceTo s t).imgs = s.imgs := by unfold advanceTo; split <;> rfl
@[simp] theorem advanceTo_integ (t : Nat) : (advanceTo s t).integ = s.integ := by unfold advanceTo; split <;> rfl
@[simp] theorem advanceTo_dmas (t : Nat) : (advanceTo s t).dmas = s.dmas := by unfold advanceTo; split <;> rfl
@[simp] theorem advanceTo_fh (t : Nat) : (advanceTo s t).fh = s.fh := by unfold advanceTo; split <;> rfl
@[simp] theorem advanceTo_wkt (t : Nat) : (advanceTo s t).wkt = s.wkt := by unfold advanceTo; split <;> rfl
@[simp] theorem advanceTo_pins (t : Nat) : (advanceTo s t).pins = s.pins := by unfold advanceTo; split <;> rfl
@[simp] theorem advanceTo_pair (t : Nat) : (advanceTo s t).pair = s.pair := by unfold advanceTo; split <;> rfl
@[simp] theorem advanceTo_free (t : Nat) : (advanceTo s t).free = s.free := by unfold advanceTo; split <;> rfl
@[simp] theorem advanceTo_outbox (t : Nat) : (advanceTo s t).outbox = s.outbox := by unfold advanceTo; split <;> rfl
@[simp] theorem advanceTo_pending (t : Nat) : (advanceTo s t).pending = s.pending := by unfold advanceTo; split <;> rfl

@[simp] theorem advance_now (d : Nat) : (advance s d).now = s.now + d := rfl

/-- Time never runs back. -/
theorem advanceTo_now (t : Nat) : (advanceTo s t).now = max s.now t := by
  unfold advanceTo; split
  · simp only [advance_now]; omega
  · omega

/-! ## Outcomes of commands change the tracking entries alone -/

@[simp] theorem mapTrack_now (id : Nat) (g : Track → Track) : (mapTrack s id g).now = s.now := rfl
@[simp] theorem mapTrack_grade2 (id : Nat) (g : Track → Track) : (mapTrack s id g).grade2 = s.grade2 := rfl
@[simp] theorem mapTrack_regs (id : Nat) (g : Track → Track) : (mapTrack s id g).regs = s.regs := rfl
@[simp] theorem mapTrack_boot (id : Nat) (g : Track → Track) : (mapTrack s id g).boot = s.boot := rfl
@[simp] theorem mapTrack_stack (id : Nat) (g : Track → Track) : (mapTrack s id g).stack = s.stack := rfl
@[simp] theorem mapTrack_safe (id : Nat) (g : Track → Track) : (mapTrack s id g).safe = s.safe := rfl
@[simp] theorem mapTrack_districts (id : Nat) (g : Track → Track) : (mapTrack s id g).districts = s.districts := rfl
@[simp] theorem mapTrack_ctxs (id : Nat) (g : Track → Track) : (mapTrack s id g).ctxs = s.ctxs := rfl
@[simp] theorem mapTrack_tiles (id : Nat) (g : Track → Track) : (mapTrack s id g).tiles = s.tiles := rfl
@[simp] theorem mapTrack_mem (id : Nat) (g : Track → Track) : (mapTrack s id g).mem = s.mem := rfl
@[simp] theorem mapTrack_noc (id : Nat) (g : Track → Track) : (mapTrack s id g).noc = s.noc := rfl
@[simp] theorem mapTrack_dram (id : Nat) (g : Track → Track) : (mapTrack s id g).dram = s.dram := rfl
@[simp] theorem mapTrack_enc (id : Nat) (g : Track → Track) : (mapTrack s id g).enc = s.enc := rfl
@[simp] theorem mapTrack_sec (id : Nat) (g : Track → Track) : (mapTrack s id g).sec = s.sec := rfl
@[simp] theorem mapTrack_imgs (id : Nat) (g : Track → Track) : (mapTrack s id g).imgs = s.imgs := rfl
@[simp] theorem mapTrack_integ (id : Nat) (g : Track → Track) : (mapTrack s id g).integ = s.integ := rfl
@[simp] theorem mapTrack_dmas (id : Nat) (g : Track → Track) : (mapTrack s id g).dmas = s.dmas := rfl
@[simp] theorem mapTrack_fh (id : Nat) (g : Track → Track) : (mapTrack s id g).fh = s.fh := rfl
@[simp] theorem mapTrack_tim (id : Nat) (g : Track → Track) : (mapTrack s id g).tim = s.tim := rfl
@[simp] theorem mapTrack_wkt (id : Nat) (g : Track → Track) : (mapTrack s id g).wkt = s.wkt := rfl
@[simp] theorem mapTrack_pins (id : Nat) (g : Track → Track) : (mapTrack s id g).pins = s.pins := rfl
@[simp] theorem mapTrack_pair (id : Nat) (g : Track → Track) : (mapTrack s id g).pair = s.pair := rfl
@[simp] theorem mapTrack_free (id : Nat) (g : Track → Track) : (mapTrack s id g).free = s.free := rfl
@[simp] theorem mapTrack_outbox (id : Nat) (g : Track → Track) : (mapTrack s id g).outbox = s.outbox := rfl
@[simp] theorem mapTrack_pending (id : Nat) (g : Track → Track) : (mapTrack s id g).pending = s.pending := rfl

@[simp] theorem finish_now (id : Nat) (st : Status) (r r2 : Nat) : (finish s id st r r2).now = s.now := rfl
@[simp] theorem commit_now (id : Nat) : (commit s id).now = s.now := rfl
@[simp] theorem finish_grade2 (id : Nat) (st : Status) (r r2 : Nat) : (finish s id st r r2).grade2 = s.grade2 := rfl
@[simp] theorem commit_grade2 (id : Nat) : (commit s id).grade2 = s.grade2 := rfl
@[simp] theorem finish_regs (id : Nat) (st : Status) (r r2 : Nat) : (finish s id st r r2).regs = s.regs := rfl
@[simp] theorem commit_regs (id : Nat) : (commit s id).regs = s.regs := rfl
@[simp] theorem finish_boot (id : Nat) (st : Status) (r r2 : Nat) : (finish s id st r r2).boot = s.boot := rfl
@[simp] theorem commit_boot (id : Nat) : (commit s id).boot = s.boot := rfl
@[simp] theorem finish_stack (id : Nat) (st : Status) (r r2 : Nat) : (finish s id st r r2).stack = s.stack := rfl
@[simp] theorem commit_stack (id : Nat) : (commit s id).stack = s.stack := rfl
@[simp] theorem finish_safe (id : Nat) (st : Status) (r r2 : Nat) : (finish s id st r r2).safe = s.safe := rfl
@[simp] theorem commit_safe (id : Nat) : (commit s id).safe = s.safe := rfl
@[simp] theorem finish_districts (id : Nat) (st : Status) (r r2 : Nat) : (finish s id st r r2).districts = s.districts := rfl
@[simp] theorem commit_districts (id : Nat) : (commit s id).districts = s.districts := rfl
@[simp] theorem finish_ctxs (id : Nat) (st : Status) (r r2 : Nat) : (finish s id st r r2).ctxs = s.ctxs := rfl
@[simp] theorem commit_ctxs (id : Nat) : (commit s id).ctxs = s.ctxs := rfl
@[simp] theorem finish_tiles (id : Nat) (st : Status) (r r2 : Nat) : (finish s id st r r2).tiles = s.tiles := rfl
@[simp] theorem commit_tiles (id : Nat) : (commit s id).tiles = s.tiles := rfl
@[simp] theorem finish_mem (id : Nat) (st : Status) (r r2 : Nat) : (finish s id st r r2).mem = s.mem := rfl
@[simp] theorem commit_mem (id : Nat) : (commit s id).mem = s.mem := rfl
@[simp] theorem finish_noc (id : Nat) (st : Status) (r r2 : Nat) : (finish s id st r r2).noc = s.noc := rfl
@[simp] theorem commit_noc (id : Nat) : (commit s id).noc = s.noc := rfl
@[simp] theorem finish_dram (id : Nat) (st : Status) (r r2 : Nat) : (finish s id st r r2).dram = s.dram := rfl
@[simp] theorem commit_dram (id : Nat) : (commit s id).dram = s.dram := rfl
@[simp] theorem finish_enc (id : Nat) (st : Status) (r r2 : Nat) : (finish s id st r r2).enc = s.enc := rfl
@[simp] theorem commit_enc (id : Nat) : (commit s id).enc = s.enc := rfl
@[simp] theorem finish_sec (id : Nat) (st : Status) (r r2 : Nat) : (finish s id st r r2).sec = s.sec := rfl
@[simp] theorem commit_sec (id : Nat) : (commit s id).sec = s.sec := rfl
@[simp] theorem finish_imgs (id : Nat) (st : Status) (r r2 : Nat) : (finish s id st r r2).imgs = s.imgs := rfl
@[simp] theorem commit_imgs (id : Nat) : (commit s id).imgs = s.imgs := rfl
@[simp] theorem finish_integ (id : Nat) (st : Status) (r r2 : Nat) : (finish s id st r r2).integ = s.integ := rfl
@[simp] theorem commit_integ (id : Nat) : (commit s id).integ = s.integ := rfl
@[simp] theorem finish_dmas (id : Nat) (st : Status) (r r2 : Nat) : (finish s id st r r2).dmas = s.dmas := rfl
@[simp] theorem commit_dmas (id : Nat) : (commit s id).dmas = s.dmas := rfl
@[simp] theorem finish_fh (id : Nat) (st : Status) (r r2 : Nat) : (finish s id st r r2).fh = s.fh := rfl
@[simp] theorem commit_fh (id : Nat) : (commit s id).fh = s.fh := rfl
@[simp] theorem finish_tim (id : Nat) (st : Status) (r r2 : Nat) : (finish s id st r r2).tim = s.tim := rfl
@[simp] theorem commit_tim (id : Nat) : (commit s id).tim = s.tim := rfl
@[simp] theorem finish_wkt (id : Nat) (st : Status) (r r2 : Nat) : (finish s id st r r2).wkt = s.wkt := rfl
@[simp] theorem commit_wkt (id : Nat) : (commit s id).wkt = s.wkt := rfl
@[simp] theorem finish_pins (id : Nat) (st : Status) (r r2 : Nat) : (finish s id st r r2).pins = s.pins := rfl
@[simp] theorem commit_pins (id : Nat) : (commit s id).pins = s.pins := rfl
@[simp] theorem finish_pair (id : Nat) (st : Status) (r r2 : Nat) : (finish s id st r r2).pair = s.pair := rfl
@[simp] theorem commit_pair (id : Nat) : (commit s id).pair = s.pair := rfl
@[simp] theorem finish_free (id : Nat) (st : Status) (r r2 : Nat) : (finish s id st r r2).free = s.free := rfl
@[simp] theorem commit_free (id : Nat) : (commit s id).free = s.free := rfl
@[simp] theorem finish_outbox (id : Nat) (st : Status) (r r2 : Nat) : (finish s id st r r2).outbox = s.outbox := rfl
@[simp] theorem commit_outbox (id : Nat) : (commit s id).outbox = s.outbox := rfl
@[simp] theorem finish_pending (id : Nat) (st : Status) (r r2 : Nat) : (finish s id st r r2).pending = s.pending := rfl
@[simp] theorem commit_pending (id : Nat) : (commit s id).pending = s.pending := rfl

@[simp] theorem fresh_regs (w : Nat) : (s.fresh w).2.regs = s.regs := rfl

end Sys2Proof.Machine
end

