-- ==== Sys2Proof/Laws/Ops.lean ====
section
/-! SUPPORT. What the shared operations do: register fields, the fault log, counting windows and completions. -/

namespace Sys2Proof.Machine

variable (s : State)

/-! ## Register fields -/

/-- A field reads what was written to it, cut to its width. -/
@[simp] theorem rd_wr_same (r : Row) (v i j : Nat) : (s.wr r v i j).rd r i j = v % 2 ^ r.width := by
  simp [State.rd, State.wr]

/-- A write leaves every field with another key as it was. -/
theorem rd_wr_ne (r q : Row) (v i j k l : Nat) (h : r.key i j ≠ q.key k l) : (s.wr r v i j).rd q k l = s.rd q k l := by
  simp [State.rd, State.wr, sparseGet_set_ne _ _ _ _ _ _ h]

@[simp] theorem rd_wrb_same (r : Row) (b : Bool) (i j : Nat) (h : 1 ≤ r.width) : (s.wrb r b i j).rd r i j = b2n b := by
  have hp : (2 : Nat) ≤ 2 ^ r.width := by
    calc (2 : Nat) = 2 ^ 1 := rfl
      _ ≤ 2 ^ r.width := Nat.pow_le_pow_right (by decide) h
  unfold State.wrb
  rw [rd_wr_same]
  apply Nat.mod_eq_of_lt
  cases b
  · simp [b2n]
  · simp only [b2n, if_true]; omega

/-- A saturating counter moves up by what is counted, and never past its width. -/
theorem rd_inc_same (r : Row) (k i j : Nat) : (s.inc r k i j).rd r i j = satAdd r.width (s.rd r i j) k % 2 ^ r.width := by
  simp [State.inc]

/-! ## The canonical form of the registers -/

/-- The register map is in canonical form as far as order goes: keys strictly rising. -/
def RegsRise : Prop := sparseRises 0 s.regs = true

theorem regsRise_wr (r : Row) (v i j : Nat) (h : RegsRise s) : RegsRise (s.wr r v i j) := by
  unfold RegsRise State.wr sparseSet
  dsimp only
  split
  · exact sparseRises_del s.regs 0 _ h
  · exact sparseRises_put s.regs 0 _ _ (Nat.zero_le _) h

/-! ## The fault log -/

/-- What the log holds after one more entry: a full log loses its oldest. -/
theorem appendFault_safe (e : FaultEntry) : (appendFault s e).safe =
    { s.safe with log := (if 512 ≤ s.safe.log.length then s.safe.log.drop (s.safe.log.length - 511) else s.safe.log) ++ [e],
                  nextSeq := (s.safe.nextSeq + 1) % 2 ^ 32 } := by
  by_cases h : 512 ≤ s.safe.log.length <;> simp [appendFault, h]

/-- The log never exceeds 512 entries. -/
theorem appendFault_log_le (e : FaultEntry) (h : s.safe.log.length ≤ 512) : (appendFault s e).safe.log.length ≤ 512 := by
  rw [appendFault_safe]
  dsimp only
  split <;> simp <;> omega

/-- The newest entry is the one appended. -/
theorem appendFault_last (e : FaultEntry) : (appendFault s e).safe.log.getLast? = some e := by
  rw [appendFault_safe]; simp

/-- Numbers run on. -/
theorem appendFault_nextSeq (e : FaultEntry) : (appendFault s e).safe.nextSeq = (s.safe.nextSeq + 1) % 2 ^ 32 := by
  rw [appendFault_safe]

/-! ## Completions -/

/-- A command that has finished keeps its outcome. -/
theorem finish_keeps (id : Nat) (st : Status) (r r2 : Nat) (t : Track) (h : t ∈ (finish s id st r r2).link.tracks)
    (u : Track) (hu : u ∈ s.link.tracks) (hf : u.phase = .finished) (hid : u.id = t.id) (hn : (s.link.tracks.map (fun x => x.id)).Nodup) :
    t = u := by
  simp only [finish, mapTrack, List.mem_map] at h
  obtain ⟨v, hv, rfl⟩ := h
  have hvid : v.id = u.id := by
    split at hid
    · split at hid <;> simp_all
    · simp_all
  have : v = u := List.inj_on_of_nodup_map hn hv hu hvid
  subst this
  simp [hf]

end Sys2Proof.Machine
end

