-- ==== Sys2Proof/Laws/Units.lean ====
section
/-! SUPPORT. The units of the state read after a write: the unit written, every other unit, and the fields that the write leaves alone. -/

namespace Sys2Proof.Machine

variable (s : State)

/-! ## Districts -/

@[simp] theorem district_setDistrict_same (n : Nat) (x : District) : district (setDistrict s n x) n = x := sparseGet_set_same _ _ _ _
theorem district_setDistrict_ne (n k : Nat) (x : District) (h : n ≠ k) : district (setDistrict s n x) k = district s k := sparseGet_set_ne _ _ _ _ _ _ h

@[simp] theorem setDistrict_now (n : Nat) (x : District) : (setDistrict s n x).now = s.now := rfl
@[simp] theorem setDistrict_grade2 (n : Nat) (x : District) : (setDistrict s n x).grade2 = s.grade2 := rfl
@[simp] theorem setDistrict_boot (n : Nat) (x : District) : (setDistrict s n x).boot = s.boot := rfl
@[simp] theorem setDistrict_stack (n : Nat) (x : District) : (setDistrict s n x).stack = s.stack := rfl
@[simp] theorem setDistrict_safe (n : Nat) (x : District) : (setDistrict s n x).safe = s.safe := rfl
@[simp] theorem setDistrict_ctxs (n : Nat) (x : District) : (setDistrict s n x).ctxs = s.ctxs := rfl
@[simp] theorem setDistrict_tiles (n : Nat) (x : District) : (setDistrict s n x).tiles = s.tiles := rfl
@[simp] theorem setDistrict_mem (n : Nat) (x : District) : (setDistrict s n x).mem = s.mem := rfl
@[simp] theorem setDistrict_noc (n : Nat) (x : District) : (setDistrict s n x).noc = s.noc := rfl
@[simp] theorem setDistrict_dram (n : Nat) (x : District) : (setDistrict s n x).dram = s.dram := rfl
@[simp] theorem setDistrict_enc (n : Nat) (x : District) : (setDistrict s n x).enc = s.enc := rfl
@[simp] theorem setDistrict_link (n : Nat) (x : District) : (setDistrict s n x).link = s.link := rfl
@[simp] theorem setDistrict_sec (n : Nat) (x : District) : (setDistrict s n x).sec = s.sec := rfl
@[simp] theorem setDistrict_imgs (n : Nat) (x : District) : (setDistrict s n x).imgs = s.imgs := rfl
@[simp] theorem setDistrict_integ (n : Nat) (x : District) : (setDistrict s n x).integ = s.integ := rfl
@[simp] theorem setDistrict_dmas (n : Nat) (x : District) : (setDistrict s n x).dmas = s.dmas := rfl
@[simp] theorem setDistrict_fh (n : Nat) (x : District) : (setDistrict s n x).fh = s.fh := rfl
@[simp] theorem setDistrict_tim (n : Nat) (x : District) : (setDistrict s n x).tim = s.tim := rfl
@[simp] theorem setDistrict_wkt (n : Nat) (x : District) : (setDistrict s n x).wkt = s.wkt := rfl
@[simp] theorem setDistrict_pins (n : Nat) (x : District) : (setDistrict s n x).pins = s.pins := rfl
@[simp] theorem setDistrict_pair (n : Nat) (x : District) : (setDistrict s n x).pair = s.pair := rfl
@[simp] theorem setDistrict_free (n : Nat) (x : District) : (setDistrict s n x).free = s.free := rfl
@[simp] theorem setDistrict_outbox (n : Nat) (x : District) : (setDistrict s n x).outbox = s.outbox := rfl
@[simp] theorem setDistrict_pending (n : Nat) (x : District) : (setDistrict s n x).pending = s.pending := rfl
@[simp] theorem setDistrict_regs (n : Nat) (x : District) : (setDistrict s n x).regs = s.regs := rfl

/-! ## Tiles of the Thicket -/

@[simp] theorem tileOf_setTile_same (n : Nat) (x : Tile) : tileOf (setTile s n x) n = x := sparseGet_set_same _ _ _ _
theorem tileOf_setTile_ne (n k : Nat) (x : Tile) (h : n ≠ k) : tileOf (setTile s n x) k = tileOf s k := sparseGet_set_ne _ _ _ _ _ _ h

@[simp] theorem setTile_now (n : Nat) (x : Tile) : (setTile s n x).now = s.now := rfl
@[simp] theorem setTile_grade2 (n : Nat) (x : Tile) : (setTile s n x).grade2 = s.grade2 := rfl
@[simp] theorem setTile_boot (n : Nat) (x : Tile) : (setTile s n x).boot = s.boot := rfl
@[simp] theorem setTile_stack (n : Nat) (x : Tile) : (setTile s n x).stack = s.stack := rfl
@[simp] theorem setTile_safe (n : Nat) (x : Tile) : (setTile s n x).safe = s.safe := rfl
@[simp] theorem setTile_districts (n : Nat) (x : Tile) : (setTile s n x).districts = s.districts := rfl
@[simp] theorem setTile_ctxs (n : Nat) (x : Tile) : (setTile s n x).ctxs = s.ctxs := rfl
@[simp] theorem setTile_mem (n : Nat) (x : Tile) : (setTile s n x).mem = s.mem := rfl
@[simp] theorem setTile_noc (n : Nat) (x : Tile) : (setTile s n x).noc = s.noc := rfl
@[simp] theorem setTile_dram (n : Nat) (x : Tile) : (setTile s n x).dram = s.dram := rfl
@[simp] theorem setTile_enc (n : Nat) (x : Tile) : (setTile s n x).enc = s.enc := rfl
@[simp] theorem setTile_link (n : Nat) (x : Tile) : (setTile s n x).link = s.link := rfl
@[simp] theorem setTile_sec (n : Nat) (x : Tile) : (setTile s n x).sec = s.sec := rfl
@[simp] theorem setTile_imgs (n : Nat) (x : Tile) : (setTile s n x).imgs = s.imgs := rfl
@[simp] theorem setTile_integ (n : Nat) (x : Tile) : (setTile s n x).integ = s.integ := rfl
@[simp] theorem setTile_dmas (n : Nat) (x : Tile) : (setTile s n x).dmas = s.dmas := rfl
@[simp] theorem setTile_fh (n : Nat) (x : Tile) : (setTile s n x).fh = s.fh := rfl
@[simp] theorem setTile_tim (n : Nat) (x : Tile) : (setTile s n x).tim = s.tim := rfl
@[simp] theorem setTile_wkt (n : Nat) (x : Tile) : (setTile s n x).wkt = s.wkt := rfl
@[simp] theorem setTile_pins (n : Nat) (x : Tile) : (setTile s n x).pins = s.pins := rfl
@[simp] theorem setTile_pair (n : Nat) (x : Tile) : (setTile s n x).pair = s.pair := rfl
@[simp] theorem setTile_free (n : Nat) (x : Tile) : (setTile s n x).free = s.free := rfl
@[simp] theorem setTile_outbox (n : Nat) (x : Tile) : (setTile s n x).outbox = s.outbox := rfl
@[simp] theorem setTile_pending (n : Nat) (x : Tile) : (setTile s n x).pending = s.pending := rfl
@[simp] theorem setTile_regs (n : Nat) (x : Tile) : (setTile s n x).regs = s.regs := rfl

/-! ## Fronthaul lanes -/

@[simp] theorem laneOf_setLane_same (n : Nat) (x : Lane) : laneOf (setLane s n x) n = x := sparseGet_set_same _ _ _ _
theorem laneOf_setLane_ne (n k : Nat) (x : Lane) (h : n ≠ k) : laneOf (setLane s n x) k = laneOf s k := sparseGet_set_ne _ _ _ _ _ _ h

@[simp] theorem setLane_now (n : Nat) (x : Lane) : (setLane s n x).now = s.now := rfl
@[simp] theorem setLane_grade2 (n : Nat) (x : Lane) : (setLane s n x).grade2 = s.grade2 := rfl
@[simp] theorem setLane_boot (n : Nat) (x : Lane) : (setLane s n x).boot = s.boot := rfl
@[simp] theorem setLane_stack (n : Nat) (x : Lane) : (setLane s n x).stack = s.stack := rfl
@[simp] theorem setLane_safe (n : Nat) (x : Lane) : (setLane s n x).safe = s.safe := rfl
@[simp] theorem setLane_districts (n : Nat) (x : Lane) : (setLane s n x).districts = s.districts := rfl
@[simp] theorem setLane_ctxs (n : Nat) (x : Lane) : (setLane s n x).ctxs = s.ctxs := rfl
@[simp] theorem setLane_tiles (n : Nat) (x : Lane) : (setLane s n x).tiles = s.tiles := rfl
@[simp] theorem setLane_mem (n : Nat) (x : Lane) : (setLane s n x).mem = s.mem := rfl
@[simp] theorem setLane_noc (n : Nat) (x : Lane) : (setLane s n x).noc = s.noc := rfl
@[simp] theorem setLane_dram (n : Nat) (x : Lane) : (setLane s n x).dram = s.dram := rfl
@[simp] theorem setLane_enc (n : Nat) (x : Lane) : (setLane s n x).enc = s.enc := rfl
@[simp] theorem setLane_link (n : Nat) (x : Lane) : (setLane s n x).link = s.link := rfl
@[simp] theorem setLane_sec (n : Nat) (x : Lane) : (setLane s n x).sec = s.sec := rfl
@[simp] theorem setLane_imgs (n : Nat) (x : Lane) : (setLane s n x).imgs = s.imgs := rfl
@[simp] theorem setLane_integ (n : Nat) (x : Lane) : (setLane s n x).integ = s.integ := rfl
@[simp] theorem setLane_dmas (n : Nat) (x : Lane) : (setLane s n x).dmas = s.dmas := rfl
@[simp] theorem setLane_tim (n : Nat) (x : Lane) : (setLane s n x).tim = s.tim := rfl
@[simp] theorem setLane_wkt (n : Nat) (x : Lane) : (setLane s n x).wkt = s.wkt := rfl
@[simp] theorem setLane_pins (n : Nat) (x : Lane) : (setLane s n x).pins = s.pins := rfl
@[simp] theorem setLane_pair (n : Nat) (x : Lane) : (setLane s n x).pair = s.pair := rfl
@[simp] theorem setLane_free (n : Nat) (x : Lane) : (setLane s n x).free = s.free := rfl
@[simp] theorem setLane_outbox (n : Nat) (x : Lane) : (setLane s n x).outbox = s.outbox := rfl
@[simp] theorem setLane_pending (n : Nat) (x : Lane) : (setLane s n x).pending = s.pending := rfl
@[simp] theorem setLane_regs (n : Nat) (x : Lane) : (setLane s n x).regs = s.regs := rfl

/-! ## Tags of metadata lines -/

@[simp] theorem tagEntry_setTag_same (n : Nat) (x : TagEntry) : tagEntry (setTag s n x) n = x := sparseGet_set_same _ _ _ _
theorem tagEntry_setTag_ne (n k : Nat) (x : TagEntry) (h : n ≠ k) : tagEntry (setTag s n x) k = tagEntry s k := sparseGet_set_ne _ _ _ _ _ _ h

@[simp] theorem setTag_now (n : Nat) (x : TagEntry) : (setTag s n x).now = s.now := rfl
@[simp] theorem setTag_grade2 (n : Nat) (x : TagEntry) : (setTag s n x).grade2 = s.grade2 := rfl
@[simp] theorem setTag_boot (n : Nat) (x : TagEntry) : (setTag s n x).boot = s.boot := rfl
@[simp] theorem setTag_stack (n : Nat) (x : TagEntry) : (setTag s n x).stack = s.stack := rfl
@[simp] theorem setTag_safe (n : Nat) (x : TagEntry) : (setTag s n x).safe = s.safe := rfl
@[simp] theorem setTag_districts (n : Nat) (x : TagEntry) : (setTag s n x).districts = s.districts := rfl
@[simp] theorem setTag_ctxs (n : Nat) (x : TagEntry) : (setTag s n x).ctxs = s.ctxs := rfl
@[simp] theorem setTag_tiles (n : Nat) (x : TagEntry) : (setTag s n x).tiles = s.tiles := rfl
@[simp] theorem setTag_mem (n : Nat) (x : TagEntry) : (setTag s n x).mem = s.mem := rfl
@[simp] theorem setTag_noc (n : Nat) (x : TagEntry) : (setTag s n x).noc = s.noc := rfl
@[simp] theorem setTag_dram (n : Nat) (x : TagEntry) : (setTag s n x).dram = s.dram := rfl
@[simp] theorem setTag_link (n : Nat) (x : TagEntry) : (setTag s n x).link = s.link := rfl
@[simp] theorem setTag_sec (n : Nat) (x : TagEntry) : (setTag s n x).sec = s.sec := rfl
@[simp] theorem setTag_imgs (n : Nat) (x : TagEntry) : (setTag s n x).imgs = s.imgs := rfl
@[simp] theorem setTag_integ (n : Nat) (x : TagEntry) : (setTag s n x).integ = s.integ := rfl
@[simp] theorem setTag_dmas (n : Nat) (x : TagEntry) : (setTag s n x).dmas = s.dmas := rfl
@[simp] theorem setTag_fh (n : Nat) (x : TagEntry) : (setTag s n x).fh = s.fh := rfl
@[simp] theorem setTag_tim (n : Nat) (x : TagEntry) : (setTag s n x).tim = s.tim := rfl
@[simp] theorem setTag_wkt (n : Nat) (x : TagEntry) : (setTag s n x).wkt = s.wkt := rfl
@[simp] theorem setTag_pins (n : Nat) (x : TagEntry) : (setTag s n x).pins = s.pins := rfl
@[simp] theorem setTag_pair (n : Nat) (x : TagEntry) : (setTag s n x).pair = s.pair := rfl
@[simp] theorem setTag_free (n : Nat) (x : TagEntry) : (setTag s n x).free = s.free := rfl
@[simp] theorem setTag_outbox (n : Nat) (x : TagEntry) : (setTag s n x).outbox = s.outbox := rfl
@[simp] theorem setTag_pending (n : Nat) (x : TagEntry) : (setTag s n x).pending = s.pending := rfl
@[simp] theorem setTag_regs (n : Nat) (x : TagEntry) : (setTag s n x).regs = s.regs := rfl

/-! ## DRAM controllers -/

@[simp] theorem ctrl_setCtrl_same (c : Nat) (x : DramCtrl) : ctrl (setCtrl s c x) c = x := by
  unfold ctrl setCtrl; by_cases h : c = 0 <;> simp [h]
/-- Controller 0 is one key, every other number names controller 1. -/
theorem ctrl_setCtrl_ne (c k : Nat) (x : DramCtrl) (h : (c = 0) ≠ (k = 0)) : ctrl (setCtrl s c x) k = ctrl s k := by
  unfold ctrl setCtrl; by_cases h1 : c = 0 <;> by_cases h2 : k = 0 <;> simp_all

@[simp] theorem setCtrl_now (c : Nat) (x : DramCtrl) : (setCtrl s c x).now = s.now := rfl
@[simp] theorem setCtrl_grade2 (c : Nat) (x : DramCtrl) : (setCtrl s c x).grade2 = s.grade2 := rfl
@[simp] theorem setCtrl_boot (c : Nat) (x : DramCtrl) : (setCtrl s c x).boot = s.boot := rfl
@[simp] theorem setCtrl_stack (c : Nat) (x : DramCtrl) : (setCtrl s c x).stack = s.stack := rfl
@[simp] theorem setCtrl_safe (c : Nat) (x : DramCtrl) : (setCtrl s c x).safe = s.safe := rfl
@[simp] theorem setCtrl_districts (c : Nat) (x : DramCtrl) : (setCtrl s c x).districts = s.districts := rfl
@[simp] theorem setCtrl_ctxs (c : Nat) (x : DramCtrl) : (setCtrl s c x).ctxs = s.ctxs := rfl
@[simp] theorem setCtrl_tiles (c : Nat) (x : DramCtrl) : (setCtrl s c x).tiles = s.tiles := rfl
@[simp] theorem setCtrl_mem (c : Nat) (x : DramCtrl) : (setCtrl s c x).mem = s.mem := rfl
@[simp] theorem setCtrl_noc (c : Nat) (x : DramCtrl) : (setCtrl s c x).noc = s.noc := rfl
@[simp] theorem setCtrl_enc (c : Nat) (x : DramCtrl) : (setCtrl s c x).enc = s.enc := rfl
@[simp] theorem setCtrl_link (c : Nat) (x : DramCtrl) : (setCtrl s c x).link = s.link := rfl
@[simp] theorem setCtrl_sec (c : Nat) (x : DramCtrl) : (setCtrl s c x).sec = s.sec := rfl
@[simp] theorem setCtrl_imgs (c : Nat) (x : DramCtrl) : (setCtrl s c x).imgs = s.imgs := rfl
@[simp] theorem setCtrl_integ (c : Nat) (x : DramCtrl) : (setCtrl s c x).integ = s.integ := rfl
@[simp] theorem setCtrl_dmas (c : Nat) (x : DramCtrl) : (setCtrl s c x).dmas = s.dmas := rfl
@[simp] theorem setCtrl_fh (c : Nat) (x : DramCtrl) : (setCtrl s c x).fh = s.fh := rfl
@[simp] theorem setCtrl_tim (c : Nat) (x : DramCtrl) : (setCtrl s c x).tim = s.tim := rfl
@[simp] theorem setCtrl_wkt (c : Nat) (x : DramCtrl) : (setCtrl s c x).wkt = s.wkt := rfl
@[simp] theorem setCtrl_pins (c : Nat) (x : DramCtrl) : (setCtrl s c x).pins = s.pins := rfl
@[simp] theorem setCtrl_pair (c : Nat) (x : DramCtrl) : (setCtrl s c x).pair = s.pair := rfl
@[simp] theorem setCtrl_free (c : Nat) (x : DramCtrl) : (setCtrl s c x).free = s.free := rfl
@[simp] theorem setCtrl_outbox (c : Nat) (x : DramCtrl) : (setCtrl s c x).outbox = s.outbox := rfl
@[simp] theorem setCtrl_pending (c : Nat) (x : DramCtrl) : (setCtrl s c x).pending = s.pending := rfl
@[simp] theorem setCtrl_regs (c : Nat) (x : DramCtrl) : (setCtrl s c x).regs = s.regs := rfl

/-! ## Words of the memory die -/

@[simp] theorem memWord_putWord_same (b w : Nat) (m : MemWord) : memWord (putWord s b w m) b w = some m := sparseFind_put_same _ _ _
/-- Within a block's 4,096 words, a write leaves every other word of every block alone. -/
theorem memWord_putWord_ne (b w c v : Nat) (m : MemWord) (hw : w < 4096) (hv : v < 4096) (h : ¬ (b = c ∧ w = v)) :
    memWord (putWord s b w m) c v = memWord s c v :=
  sparseFind_put_ne _ _ _ _ (by omega)

@[simp] theorem putWord_now (b w : Nat) (m : MemWord) : (putWord s b w m).now = s.now := rfl
@[simp] theorem putWord_grade2 (b w : Nat) (m : MemWord) : (putWord s b w m).grade2 = s.grade2 := rfl
@[simp] theorem putWord_boot (b w : Nat) (m : MemWord) : (putWord s b w m).boot = s.boot := rfl
@[simp] theorem putWord_stack (b w : Nat) (m : MemWord) : (putWord s b w m).stack = s.stack := rfl
@[simp] theorem putWord_safe (b w : Nat) (m : MemWord) : (putWord s b w m).safe = s.safe := rfl
@[simp] theorem putWord_districts (b w : Nat) (m : MemWord) : (putWord s b w m).districts = s.districts := rfl
@[simp] theorem putWord_ctxs (b w : Nat) (m : MemWord) : (putWord s b w m).ctxs = s.ctxs := rfl
@[simp] theorem putWord_tiles (b w : Nat) (m : MemWord) : (putWord s b w m).tiles = s.tiles := rfl
@[simp] theorem putWord_noc (b w : Nat) (m : MemWord) : (putWord s b w m).noc = s.noc := rfl
@[simp] theorem putWord_dram (b w : Nat) (m : MemWord) : (putWord s b w m).dram = s.dram := rfl
@[simp] theorem putWord_enc (b w : Nat) (m : MemWord) : (putWord s b w m).enc = s.enc := rfl
@[simp] theorem putWord_link (b w : Nat) (m : MemWord) : (putWord s b w m).link = s.link := rfl
@[simp] theorem putWord_sec (b w : Nat) (m : MemWord) : (putWord s b w m).sec = s.sec := rfl
@[simp] theorem putWord_imgs (b w : Nat) (m : MemWord) : (putWord s b w m).imgs = s.imgs := rfl
@[simp] theorem putWord_integ (b w : Nat) (m : MemWord) : (putWord s b w m).integ = s.integ := rfl
@[simp] theorem putWord_dmas (b w : Nat) (m : MemWord) : (putWord s b w m).dmas = s.dmas := rfl
@[simp] theorem putWord_fh (b w : Nat) (m : MemWord) : (putWord s b w m).fh = s.fh := rfl
@[simp] theorem putWord_tim (b w : Nat) (m : MemWord) : (putWord s b w m).tim = s.tim := rfl
@[simp] theorem putWord_wkt (b w : Nat) (m : MemWord) : (putWord s b w m).wkt = s.wkt := rfl
@[simp] theorem putWord_pins (b w : Nat) (m : MemWord) : (putWord s b w m).pins = s.pins := rfl
@[simp] theorem putWord_pair (b w : Nat) (m : MemWord) : (putWord s b w m).pair = s.pair := rfl
@[simp] theorem putWord_free (b w : Nat) (m : MemWord) : (putWord s b w m).free = s.free := rfl
@[simp] theorem putWord_outbox (b w : Nat) (m : MemWord) : (putWord s b w m).outbox = s.outbox := rfl
@[simp] theorem putWord_pending (b w : Nat) (m : MemWord) : (putWord s b w m).pending = s.pending := rfl
@[simp] theorem putWord_regs (b w : Nat) (m : MemWord) : (putWord s b w m).regs = s.regs := rfl

end Sys2Proof.Machine
end

