-- ==== Sys2Proof/Tests/Slice0.lean ====
section
/-! SUPPORT. Tests of the model, and a concrete state that meets the hypotheses of each clause of the statements. -/

section Slice0Tests

open Sys2Proof Sys2Proof.Machine

set_option Elab.async false

/-- The device at boot stage `n`, nothing trained or running. -/
def stageAt (n : Nat) : State :=
  { State.reset.wr DEV_BOOT_STATUS.stage n with boot := { Boot.start with porHeld := false, cause := none } }

/-- A running device in mode `m`: every die open, the link up. -/
def runIn (m : Nat) : State :=
  { State.reset.wr DEV_MODE.mode m with
    boot := { Boot.start with porHeld := false, cause := none, coreUp := true, dies := [.open_, .open_, .open_] }
    link := { Link.start with up := true, perst := false }
    noc := { Noc.start with fenced := false } }

/-- A fetched command of opcode `op`. -/
def cmd (op : Nat) (entry : BitVec 512) : Track :=
  { id := 7, q := 0, seq := 1, cid := 1, op := op, irqNow := false, fence := false, entry := entry, sqHead := 1, phase := .fetched,
    inWindow := true, committed := false, aborted := false, abortedBy := [], startTick := 0, eventTick := none, overrun := false,
    status := 0, orig := 0, result := 0, result2 := 0, pair := none, data := [], ahead := 0 }

/-- The same command while it executes. -/
def begun (op : Nat) (entry : BitVec 512) : Track := { cmd op entry with phase := .started }

/-- `s` with one command tracked. -/
def tracking (s : State) (u : Track) : State := { s with link := { s.link with tracks := [u] } }

/-- No fabric content at a swap. -/
def noSwap : SwapData := { dirty := [], ffs := [] }

/-- A committed image without frames. -/
def plainImage : CtxImage := { digest := 0, keyMask := 0, chain := [], oldChain := [], oldMask := 0 }

/-- Context 2 is staged and READY on a device that runs context 1. -/
def staged2 : State :=
  { ((((runIn modeRun).wr CFG_LATCH_STATUS.staged_state stReady).wr CFG_LATCH_STATUS.staged_ctx 2).wr CFG_LATCH_STATUS.active_valid 1).wr
      CFG_LATCH_STATUS.active_ctx 1 with
    imgs := { ctx := [(1, plainImage), (2, plainImage)], load := none }
    ctxs := { Contexts.start with staged := [(5, 1)], active := [(4, 1)] } }

/-- An instruction word: group, op and mode bit, d, a, b and the low 44 bits. -/
def tword (group op m8 d a b low : Nat) : BitVec 64 :=
  BitVec.ofNat 64 (group * 2 ^ 60 + op * 2 ^ 57 + m8 * 2 ^ 56 + d * 2 ^ 52 + a * 2 ^ 48 + b * 2 ^ 44 + low)

/-- A tile that runs word `w` at program address 0 of context 0, with some register contents. -/
def tileWith (w : BitVec 64) : Tile :=
  { Tile.zero with
    state := .run, prog := [(0, w)], ranges := [(0, 0, 16)], vectors := [(0, 8, true), (7, 12, true)]
    regs := { TileRegs.zero with v := [(1, 0x00010002000300047FFF8000FFFF0001), (2, 0x7FFF7FFF00050006000700080009000A)], acc := [(1, 5)] } }

/-- A running device whose tile 3 runs word `w`. -/
def onTile (w : BitVec 64) : State := { runIn modeRun with tiles := [(3, tileWith w)] }

/-- A NoC write of 4 bytes at 0x1008000010, in X memory of tile 0, whose flits have come to their router. -/
def xyReq : NocReq :=
  { init := 5, tag := 6, owner := .fabric, qos := 0, write := true, pa := 0x1008000000, kidValid := false, kid := 0, len := 1, be := 0xF0000,
    data := [BitVec.ofNat 512 (0xABCD * 2 ^ 128)], fwd := List.replicate 9 { at_ := 16, tick := 0 } }

/-- A NoC write of eight lines to block 5 of the memory die. -/
def memReq : NocReq := { xyReq with pa := 0x1000028000, len := 8, be := 0, data := [77] }

/-- A running device whose design is bound to port A of block 5, on channel 0. -/
def memUp (words : Sparse MemWord) (updates : List MemUpdate) : State :=
  { (runIn modeRun).wr CLK_GCH_SEL.source 1 0 with
    mem := { MemDie.start with words := words, updates := updates }
    ctxs := { Contexts.start with ports := { Contexts.start.ports with memory := [(5, (0, 0))] } } }

/-- A read of one DRAM line at 0x1000 by fabric port 3, and the engine's operation for it. -/
def dramReq : NocReq := { xyReq with init := 0x43, write := false, pa := 0x1000, be := 0, data := [] }
def lineReq : DramReq := { init := 0x43, tag := 6, pa := 0x1000, line := 0x40, op := .read, data := 0, be := BitVec.allOnes 64, qos := 0, since := 0 }
def lineOp : EncOp := { req := lineReq, key := 0, region := none, stored := false, merge := false, entry := none, stage := .toController }

/-- A running device with 32 GiB behind controller 0. -/
def dramUp : State := ((runIn modeRun).wr DRC_STATUS.state drActive).wr DRC_MAP.capacity_gib 32

/-- The same with a request outstanding and an operation in the engine. -/
def dramBusy (r : NocReq) (o : EncOp) : State := { dramUp with noc := { dramUp.noc with reqs := [r] }, enc := { dramUp.enc with ops := [o] } }

/-- A packet that reads one line at 0x1000 under tag 6. -/
def readPacket : List Line := [headerFlit 1 0 1 0 0 6 0 0 0x1000 0 0 0 0 0]

/-- A stored image's head with a segment table: type, offset, size and count of each segment. -/
def headOf (l : List (Nat × Nat × Nat × Nat)) : List Byte :=
  List.replicate 15 0 ++ [BitVec.ofNat 8 l.length] ++ List.replicate 496 0 ++
    l.flatMap (fun g => leBytes 4 g.1 ++ leBytes 4 g.2.1 ++ leBytes 4 g.2.2.1 ++ leBytes 4 g.2.2.2)

/-- A load of context 3 by command 7. -/
def loadOf (head plain : List Byte) : Load :=
  { id := 7, isPartial := false, ctx := 3, addr := 64, length := 9000, head := head, wrap := [], stream := [], plain := plain, chunks := 0, key := none,
    seg := 0, at_ := 0, items := 0, pos := 0, last := none, index := [], written := 0, frames := [], progs := [], since := 5, verified := false }

/-- A device that streams that load in phase `ph`. -/
def loading (ph : Nat) (l : Load) : State :=
  { (tracking (runIn modeRun) (begun 0x10 0)).wr CFG_LOAD_STATUS.phase ph with imgs := { State.reset.imgs with load := some l } }

/-- An enabled queue with rings of 16 entries, one entry published. -/
def aQueue : Queue := { newQueue 0x10000 0x20000 4 4 3 2 9 1 with sqTail := 1, h := 3 }

/-- A running device whose PF0 owns queues 0 to 3; queue 0 is its admin queue and queue 1 is enabled. -/
def queued : State :=
  (((((((runIn modeRun).wr PCIE_FN_CFG.queue_count 4 0).wr HCI_AQ_STATUS.ready 1 0).wr HCI_Q_STATUS.state qEnabled 0).wr HCI_Q_STATUS.admin 1 0).wr
      HCI_Q_STATUS.state qEnabled 1).wr CFG_LATCH_STATUS.active_ctx 0) |> fun s =>
    { s with link := { s.link with queues := [(0, { aQueue with sqTail := 0 }), (1, aQueue)] } }

/-- A command of queue 1 that has ended. -/
def doneCmd : Track := { cmd 1 0 with q := 1, phase := .finished, inWindow := true }

/-- The same state with `u` tracked. -/
def queuedWith (u : Track) : State := { queued with link := { queued.link with tracks := [u] } }

/-- `queued` with a fetched command of the admin queue. -/
def adminCmd (s : State) (op : Nat) (entry : BitVec 512) : State := { s with link := { s.link with tracks := s.link.tracks ++ [cmd op entry] } }

/-- A running device whose lane 5 is enabled in mode 1 and in state `st`. -/
def laneIn (st : Nat) : State := (((runIn modeRun).wr FHL_LANE_CFG.enable 1 5).wr FHL_LANE_CFG.mode 1 5).wr FHL_LANE_STATUS.state st 5

/-- The same state with lane 5 as `x`. -/
def withLane (s : State) (x : Lane) : State := { s with fh := { s.fh with lanes := [(5, x)], bound := [(5, 7)] } }.wr CLK_GCH_SEL.source 1 7

/-- A frame of 70 bytes. -/
def aFrame : List Byte := (List.range 70).map (fun k => BitVec.ofNat 8 (k + 1))

/-- The codes and readings of a quiet round: nominal rails, every sensor at 40 °C. -/
def quietCodes : Vector (BitVec 12) 48 := Vector.replicate 48 1500
def quietTemps : Vector (BitVec 12) 96 := Vector.replicate 96 320

/-- A running device that throttles in state `st` at step `k`, with an effective temperature of `e` °C. -/
def throttling (st k e : Nat) : State :=
  (((runIn modeRun).wr THM_THROTTLE_STATUS.state st).wr THM_STATUS.step k).wr THM_STATUS.eff_temp (8 * e)

/-- A running device past the first boot stages. -/
def aonUp : State := (runIn modeRun).wr DEV_BOOT_STATUS.stage 4

/-- A device in mode `m` whose Bolryn Link is ACTIVE on 8 lanes, on a symbol grid of R513. -/
def paired (m : Nat) : State :=
  (((((runIn m).wr PRL_STATUS.link_state 5).wr PRL_STATUS.width 8).wr PRL_SYM_SLOT.slot_ns 500000).wr PRL_SYM_FIRST.first_ns 0).wr PRL_SYM_LEN.sym_ns 5000

/-- The same with the pair as `p`. -/
def pairedAs (m : Nat) (p : Pair) : State := { paired m with pair := p }

/-- A control block that says nothing. -/
def aBlock : ControlBlock :=
  { role := 0, width := 8, fit := false, selfFault := false, takeover := false, sleep := false, train := 9, ackTrain := 0, nak := 0, depart := 0,
    echoTrain := 0, echoArrival := 0, digest := 0, unit := 0, word := none, fault := 0, tq := 4, step := 0, ctx := 0, note := .none }

/-- A partner that leads, or shadows. -/
def partnerAs (role : Nat) : Partner := { role := role, width := 8, tq := 4, step := 0, ctx := 0, fault := 0 }

/-- A binary time-of-day message that names second 9, its time valid (R451). -/
def aTod : Vector (BitVec 8) 16 :=
  let b : List (BitVec 8) := [0x4E, 0x54, 1, 4, 9, 0, 0, 0, 0, 0, 37, 0, 0, 0]
  let c := crc 16 0x1021 0xFFFF b
  Vector.ofFn (fun k => (b ++ leBytes 2 c).getD k 0)

/-- A timed output of mode `m` after `k` pulses. -/
def aTout (m k : Nat) (high : Option Nat) : Tout :=
  { arm := { mode := m, active := true, safeLevel := false, width := 2, start := 655360, period := 100, count := 1 }, pulses := k, high := high, next := none }

/-- Lane 5 is UP and its slow-path transmitter has one entry to send, as far as `x` says. -/
def slowTx (x : Option SlowTx) : State :=
  withLane (((laneIn 3).wr FHL_SP_TX_CFG.enable 1 5).wr FHL_SP_TX_TAIL.index 1 5 |>.wr FHL_SP_TX_CFG.size_log2 4 5 |>.wr FHL_SP_TX_BASE_HI.base_hi 0x10 5)
    { Lane.zero with slowTx := x }

/-- An entry with a frame of `n` bytes that has been read. -/
def anEntry (n : Nat) : SlowTx :=
  { pa := 0x1000000000, bytes := leBytes 2 n ++ List.replicate 6 0 ++ List.replicate 56 3, fail := false, whole := true, sent := false }

/-- States and operands that meet the hypotheses of each clause of `Obligations.StepRunsFrontCommand`. -/
theorem test_StepRunsFrontCommand_met :
    ∃ s : State, ∃ c : Instr, ∃ rest : List Instr, s.pending = c :: rest :=
    ⟨{ State.reset with pending := [.nop 0, .stackClear] }, .nop 0, [.stackClear], by decide +kernel⟩

/-- States and operands that meet the hypotheses of each clause of `Obligations.IdleStepPassesTime`. -/
theorem test_IdleStepPassesTime_met :
    (∃ s : State, s.pending = []) ∧
    (∃ s : State, s.pending = [] ∧ (ctrl s 0).writes = [] ∧ (ctrl s 1).writes = []) :=
    ⟨⟨State.reset, by decide +kernel⟩,
     ⟨State.reset, by decide +kernel⟩⟩

/-- States and operands that meet the hypotheses of each clause of `Obligations.BootStagesOneToFour`. -/
theorem test_BootStagesOneToFour_met :
    (∃ s : State, ∃ _fsel : Fin 8, ∃ _rate : Fin 4, ∃ _halt : Fin 3, s.boot.porHeld = true) ∧
    (∃ s : State, ∃ _fsel : Fin 8, ∃ _rate : Fin 4, ∃ _halt : Fin 3, s.boot.porHeld = true) ∧
    (∃ s : State, inStage s 2 = true ∧ s.wkt.round ≠ 0) ∧
    (∃ s : State, ∃ c : Nat, ∃ _locked : Bool, preferred s = some c ∧ inStage s 4 = true) ∧
    (∃ s : State, ∃ c : Nat, ∃ _locked : Bool, preferred s = some c ∧ inStage s 4 = true) ∧
    (∃ s : State, ((inStage s 3 && !candReady s 0) || (inStage s 4 && (preferred s).isNone) = true)) ∧
    (∃ s : State, ((inStage s 3 && !candReady s 0) || (inStage s 4 && (preferred s).isNone) = true)) :=
    ⟨⟨State.reset, 3, 1, 0, by decide +kernel⟩,
     ⟨State.reset, 0, 0, 2, by decide +kernel⟩,
     ⟨{ stageAt 2 with wkt := { Wkt.start with round := 1 } }, by decide +kernel⟩,
     ⟨(stageAt 4).wr CLK_CAND_READY.ready 1, 0, true, by decide +kernel⟩,
     ⟨(stageAt 4).wr CLK_CAND_READY.ready 1, 0, false, by decide +kernel⟩,
     ⟨stageAt 3, by decide +kernel⟩,
     ⟨stageAt 4, by decide +kernel⟩⟩

/-- States and operands that meet the hypotheses of each clause of `Obligations.BootStagesFiveToEnd`. -/
theorem test_BootStagesFiveToEnd_met :
    (∃ s : State, ∃ _result : Fin 3, inStage s 5 = true) ∧
    (∃ s : State, ∃ _failed : Option (Fin 3), inStage s 6 = true) ∧
    (∃ s : State, ∃ _failed : Option (Fin 3), inStage s 6 = true) ∧
    (∃ s : State, inStage s 7 = true) ∧
    (∃ s : State, inStage s 7 = true) ∧
    (∃ s : State, ∃ _fit0 : DramFit, ∃ _fit1 : DramFit, ∃ _drop0 : List (Fin 32), ∃ _drop1 : List (Fin 32), inStage s 8 = true) ∧
    (∃ s : State, ∃ x : Bool, ∃ two : Bool, ∃ dense : Bool, ∃ g : Vector GroupTrain 20, ∃ _fit : DramFit, ∃ _drop0 : List (Fin 32), ∃ _drop1 : List
      (Fin 32), inStage s 8 = true ∧ fitCapacity x two dense ≠ 0 ∧ g.toList.any groupFails = false) ∧
    (∃ s : State, ∃ x : Bool, ∃ two : Bool, ∃ dense : Bool, ∃ g : Vector GroupTrain 20, ∃ _fit : DramFit, ∃ _drop0 : List (Fin 32), ∃ _drop1 : List
      (Fin 32), inStage s 8 = true ∧ fitCapacity x two dense ≠ 0 ∧ g.toList.any groupFails = false) ∧
    (∃ s : State, inStage s 0xFF = true) :=
    ⟨⟨stageAt 5, 1, by decide +kernel⟩,
     ⟨stageAt 6, none, by decide +kernel⟩,
     ⟨stageAt 6, some 1, by decide +kernel⟩,
     ⟨stageAt 7, by decide +kernel⟩,
     ⟨(stageAt 7).wr DRC_MAP.strap_no_dram 1, by decide +kernel⟩,
     ⟨stageAt 8, .failed, .failed, [], [], by decide +kernel⟩,
     ⟨stageAt 8, true, false, true, Vector.replicate 20 { rd := 0x1FFFF, wr := 0x1FFFFF }, .failed, [], [3], by decide +kernel⟩,
     ⟨stageAt 8, true, false, true, Vector.replicate 20 { rd := 0x1FFFF, wr := 0x1FFFFF }, .failed, [], [3], by decide +kernel⟩,
     ⟨stageAt 0xFF, by decide +kernel⟩⟩

/-- States and operands that meet the hypotheses of each clause of `Obligations.WarmAndColdReset`. -/
theorem test_WarmAndColdReset_met :
    (∃ s : State, ∃ _cause : Fin 4, s.boot.porHeld = false ∧ s.boot.dormant = false) ∧
    (∃ s : State, ∃ _confirm : Byte, s.link.up = true ∧ s.boot.porHeld = false ∧ s.boot.dormant = false) ∧
    (∃ s : State, ∃ _confirm : Byte, s.link.up = true ∧ s.boot.porHeld = false ∧ s.boot.dormant = false) ∧
    (∃ s : State, ∃ _both : Bool, inStage s 5 = false ∧ s.boot.coreUp = true ∧ s.boot.porHeld = false ∧ s.boot.dormant = false ∧ s.boot.d0 = .idle ∧
      s.rd DEV_MODE.mode ≠ modeBoot) ∧
    (∃ s : State, ∃ _both : Bool, inStage s 5 = false ∧ s.boot.coreUp = true ∧ s.boot.porHeld = false ∧ s.boot.dormant = false ∧ s.boot.d0 = .idle ∧
      s.rd DEV_MODE.mode ≠ modeBoot) :=
    ⟨⟨runIn modeRun, 1, by decide +kernel⟩,
     ⟨runIn modeRun, 0xA5, by decide +kernel⟩,
     ⟨runIn modeRun, 0xA4, by decide +kernel⟩,
     ⟨runIn modeRun, true, by decide +kernel⟩,
     ⟨runIn modeRun, false, by decide +kernel⟩⟩

/-- States and operands that meet the hypotheses of each clause of `Obligations.LinkAndFunctionResets`. -/
theorem test_LinkAndFunctionResets_met :
    (∃ s : State, s.boot.porHeld = false ∧ s.link.perst = false) ∧
    (∃ s : State, s.boot.porHeld = false ∧ s.link.perst = false) ∧
    (∃ s : State, s.boot.dormant = false) ∧
    (∃ s : State, s.link.up = true) ∧
    (∃ s : State, s.boot.porHeld = false ∧ s.boot.dormant = false) ∧
    (∃ s : State, ∃ _f : Fin 64, s.link.up = true) :=
    ⟨⟨runIn modeRun, by decide +kernel⟩,
     ⟨(runIn modeRun).wr DEV_RESET_CTRL.perst_scope 1, by decide +kernel⟩,
     ⟨State.reset, by decide +kernel⟩,
     ⟨runIn modeRun, by decide +kernel⟩,
     ⟨runIn modeRun, by decide +kernel⟩,
     ⟨runIn modeRun, 3, by decide +kernel⟩⟩

/-- States and operands that meet the hypotheses of each clause of `Obligations.DormantAndWake`. -/
theorem test_DormantAndWake_met :
    (∃ s : State, s.link.up = true) ∧
    (∃ s : State, ∃ t0 : Nat, s.boot.dormantCommit = some t0 ∧ s.boot.wakeWaiting = none) ∧
    (∃ s : State, ∃ source : Fin 3, s.boot.dormant = true ∧ wakeEnabled s source = true ∧ s.boot.thermalHold = false ∧ s.boot.wakeWaiting = none) ∧
    (∃ s : State, s.boot.dormant = true ∧ s.rd WKT_WAKE_TIMER.seconds ≠ 0 ∧ s.rdb DEV_DORMANT_CTRL.wake_timer = true ∧ s.boot.thermalHold = false ∧
      s.boot.wakeWaiting = none) :=
    ⟨⟨runIn modeRun, by decide +kernel⟩,
     ⟨{ runIn modeRun with boot := { (runIn modeRun).boot with dormantCommit := some 0 } }, 0, by decide +kernel⟩,
     ⟨{ runIn modeDormant with boot := { Boot.start with porHeld := false, dormant := true } }, 0, by decide +kernel⟩,
     ⟨{ ((runIn modeDormant).wr DEV_DORMANT_CTRL.wake_timer 1).wr WKT_WAKE_TIMER.seconds 5 with boot := { Boot.start with porHeld := false, dormant := true } },
      by decide +kernel⟩⟩

/-- States and operands that meet the hypotheses of each clause of `Obligations.BaseDieReset`. -/
theorem test_BaseDieReset_met :
    (∃ s : State, s.boot.porHeld = false ∧ s.boot.dormant = false ∧ s.boot.coreUp = true ∧ s.boot.d0 = .idle ∧ s.rd DEV_MODE.mode ≠ modeBoot) ∧
    (∃ s : State, ∃ t0 : Nat, s.boot.d0 = .fence t0) ∧
    (∃ s : State, ∃ t0 : Nat, s.boot.d0 = .drained t0) ∧
    (∃ s : State, ∃ t0 : Nat, s.boot.d0 = .held t0) ∧
    (∃ s : State, ∃ t0 : Nat, s.boot.d0 = .released t0 ∧ s.noc.tx = []) ∧
    (∃ s : State, ∃ t0 : Nat, s.boot.d0 = .opened t0) :=
    ⟨⟨runIn modeRun, by decide +kernel⟩,
     ⟨{ runIn modeRun with boot := { (runIn modeRun).boot with d0 := .fence 0 } }, 0, by decide +kernel⟩,
     ⟨{ runIn modeRun with boot := { (runIn modeRun).boot with d0 := .drained 0 } }, 0, by decide +kernel⟩,
     ⟨{ runIn modeRun with boot := { (runIn modeRun).boot with d0 := .held 0, coreUp := false } }, 0, by decide +kernel⟩,
     ⟨{ runIn modeRun with boot := { (runIn modeRun).boot with d0 := .released 0 } }, 0, by decide +kernel⟩,
     ⟨{ runIn modeRun with boot := { (runIn modeRun).boot with d0 := .opened 0 } }, 0, by decide +kernel⟩⟩

/-- States and operands that meet the hypotheses of each clause of `Obligations.UpperDieResets`. -/
theorem test_UpperDieResets_met :
    (∃ s : State, ∃ die : Fin 3, s.boot.dies.getD die .off = .open_ ∧ s.boot.dies.length = 3 ∧ s.boot.porHeld = false ∧ s.boot.dormant = false ∧ s.rd
      DEV_MODE.mode ≠ modeBoot) ∧
    (∃ s : State, ∃ die : Fin 3, s.boot.dies.getD die .off = .open_ ∧ s.boot.dies.length = 3 ∧ s.boot.porHeld = false ∧ s.boot.dormant = false ∧ s.rd
      DEV_MODE.mode ≠ modeBoot) ∧
    (∃ s : State, ∃ die : Fin 3, s.boot.dies.getD die .off = .open_ ∧ s.boot.dies.length = 3 ∧ s.boot.porHeld = false ∧ s.boot.dormant = false ∧ s.rd
      DEV_MODE.mode ≠ modeBoot) ∧
    (∃ s : State, ∃ die : Fin 3, ∃ t0 : Nat, s.boot.dies.getD die .off = .held t0) ∧
    (∃ s : State, ∃ die : Fin 3, ∃ t0 : Nat, s.boot.dies.getD die .off = .training t0 ∧ baseOpen s = true ∧ s.noc.tx = []) ∧
    (∃ s : State, ∃ die : Fin 3, ∃ t0 : Nat, s.boot.dies.getD die .off = .training t0 ∧ baseOpen s = true ∧ s.boot.porHeld = false ∧ s.boot.dormant =
      false ∧ s.rd DEV_MODE.mode ≠ modeBoot) ∧
    (∃ s : State, ∃ die : Fin 3, ∃ _lane : Fin 4, dieOpen s (die + 1) = true) ∧
    (∃ s : State, ∃ die : Fin 3, ∃ _lane : Fin 4, dieOpen s (die + 1) = true) ∧
    (∃ s : State, ∃ die : Fin 3, ∃ _lane : Fin 4, dieOpen s (die + 1) = true) ∧
    (∃ s : State, ∃ mask : Fin 16, ∃ confirm : Byte, s.link.up = true ∧ mask.val ≠ 0 ∧ (confirm ≠ 0xA5 ∨ (s.rd DEV_MODE.mode ≠ modeAssembly ∧ s.rd
      DEV_MODE.mode ≠ modeService))) ∧
    (∃ s : State, ∃ mask : Fin 16, s.link.up = true ∧ s.boot.coreUp = true ∧ s.boot.d0 = .idle ∧ s.boot.dies = [.open_, .open_, .open_] ∧
      s.boot.porHeld = false ∧ s.boot.dormant = false ∧ (s.rd DEV_MODE.mode = modeAssembly ∨ s.rd DEV_MODE.mode = modeService) ∧ mask.val ≠ 0) :=
    ⟨⟨runIn modeRun, 0, by decide +kernel⟩,
     ⟨runIn modeRun, 1, by decide +kernel⟩,
     ⟨runIn modeRun, 2, by decide +kernel⟩,
     ⟨{ runIn modeRun with boot := { (runIn modeRun).boot with dies := [.open_, .held 0, .open_] } }, 1, 0, by decide +kernel⟩,
     ⟨{ runIn modeRun with boot := { (runIn modeRun).boot with dies := [.open_, .training 0, .open_] } }, 1, 0, by decide +kernel⟩,
     ⟨{ runIn modeRun with boot := { (runIn modeRun).boot with dies := [.open_, .training 0, .open_] } }, 1, 0, by decide +kernel⟩,
     ⟨runIn modeRun, 2, 0, by decide +kernel⟩,
     ⟨runIn modeRun, 1, 3, by decide +kernel⟩,
     ⟨runIn modeRun, 1, 2, by decide +kernel⟩,
     ⟨runIn modeRun, 1, 0xA5, by decide +kernel⟩,
     ⟨runIn modeAssembly, 5, by decide +kernel⟩⟩

/-- States and operands that meet the hypotheses of each clause of `Obligations.StackAndDelayLock`. -/
theorem test_StackAndDelayLock_met :
    (∃ s : State, ∃ _kind : Fin 5, ∃ _group : Fin 65536, ∃ word : CrossWord, ∃ _back : Bool, s.safe.injection = none ∧ isFlit word = false) ∧
    (∃ s : State, ∃ kind : Fin 5, ∃ _group : Fin 65536, ∃ ch : Fin 272, ∃ word : CrossWord, ∃ _back : Bool, s.safe.injection = none ∧ isFlit word =
      false ∧ dieTrained s (groupDies kind).1 = true ∧ dieTrained s (groupDies kind).2 = true ∧ ch.val < groupChannels kind) ∧
    (∃ s : State, ∃ kind : Fin 5, ∃ _group : Fin 65536, ∃ ch : Fin 272, ∃ word : CrossWord, ∃ _back : Bool, s.safe.injection = none ∧ isFlit word =
      false ∧ dieTrained s (groupDies kind).1 = true ∧ dieTrained s (groupDies kind).2 = true ∧ ch.val < groupChannels kind) ∧
    (∃ s : State, ∃ _group : Fin 65536, ∃ c1 : Fin 272, ∃ c2 : Fin 272, ∃ word : CrossWord, ∃ _back : Bool, s.safe.injection = none ∧ isFlit word =
      false ∧ dieTrained s 0 = true ∧ dieTrained s 2 = true ∧ c1.val < 39 ∧ c2.val < 39 ∧ c1 ≠ c2) ∧
    (∃ s : State, ∃ kind : Fin 4, ∃ _group : Fin 65536, ∃ c1 : Fin 272, ∃ c2 : Fin 272, ∃ word : CrossWord, ∃ _back : Bool, s.safe.injection = none ∧
      isFlit word = false ∧ dieTrained s (groupDies kind).1 = true ∧ dieTrained s (groupDies kind).2 = true ∧ c1.val < groupChannels kind ∧ c2.val <
      groupChannels kind ∧ c1 ≠ c2) ∧
    (∃ s : State, ∃ kind : Fin 4, ∃ _group : Fin 65536, ∃ c1 : Fin 272, ∃ c2 : Fin 272, ∃ word : CrossWord, ∃ _back : Bool, s.safe.injection = none ∧
      isFlit word = false ∧ dieTrained s (groupDies kind).1 = true ∧ dieTrained s (groupDies kind).2 = true ∧ c1.val < groupChannels kind ∧ c2.val <
      groupChannels kind ∧ c1 ≠ c2) ∧
    (∃ s : State, ∃ kind : Fin 4, ∃ _group : Fin 65536, ∃ c1 : Fin 272, ∃ c2 : Fin 272, ∃ word : CrossWord, ∃ _back : Bool, s.safe.injection = none ∧
      isFlit word = false ∧ dieTrained s (groupDies kind).1 = true ∧ dieTrained s (groupDies kind).2 = true ∧ c1.val < groupChannels kind ∧ c2.val <
      groupChannels kind ∧ c1 ≠ c2) ∧
    (∃ s : State, ∃ g : Nat, ∃ k : Nat, ∃ ch : Nat, ∃ t0 : Nat, ∃ rest : List (Nat × Nat × Nat × Nat), s.stack.copying = (g, k, ch, t0) :: rest) ∧
    (∃ s : State, ∃ die : Fin 4, ∃ skew : Int, s.boot.coreUp = true ∧ dieTrained s die = true ∧ -28 ≤ skew ∧ skew ≤ 28) ∧
    (∃ s : State, ∃ die : Fin 4, ∃ skew : Int, s.boot.coreUp = true ∧ s.boot.porHeld = false ∧ s.boot.dormant = false ∧ dieTrained s die = true ∧
      (skew < -28 ∨ 28 < skew) ∧ 9 ≤ s.stack.skewBad.getD die 0) ∧
    (∃ s : State, ∃ d : Fin 80, ∃ e : Int, (district s d).releasedAt.isSome = true ∧ s.rdb THM_DLOCK_DISTRICT.locked d = true ∧ -25 ≤ e ∧ e ≤ 25) ∧
    (∃ s : State, ∃ d : Fin 80, ∃ e : Int, (district s d).releasedAt.isSome = true ∧ s.rdb THM_DLOCK_DISTRICT.locked d = true ∧ 25 < e ∧ 3 ≤
      (district s d).slowRun) ∧
    (∃ s : State, ∃ d : Fin 80, ∃ r : Nat, (district s d).releasedAt = some r ∧ (district s d).acquired = false) :=
    ⟨⟨runIn modeRun, 1, 0, .other, false, by decide +kernel⟩,
     ⟨runIn modeRun, 1, 0, 5, .other, false, by decide +kernel⟩,
     ⟨runIn modeRun, 3, 7, 271, .other, true, by decide +kernel⟩,
     ⟨runIn modeRun, 0, 5, 6, .other, true, by decide +kernel⟩,
     ⟨runIn modeRun, 0, 3, 5, 6, .path 9, false, by decide +kernel⟩,
     ⟨runIn modeRun, 2, 3, 5, 6, .repair 9, true, by decide +kernel⟩,
     ⟨runIn modeRun, 3, 3, 5, 6, .other, true, by decide +kernel⟩,
     ⟨{ runIn modeRun with stack := { Stack.start with copying := [(3, 1, 5, 0)] } }, 3, 1, 5, 0, [], by decide +kernel⟩,
     ⟨runIn modeRun, 2, 25, by decide +kernel⟩,
     ⟨{ runIn modeRun with stack := { Stack.start with skewBad := [0, 0, 9, 0] } }, 2, 29, by decide +kernel⟩,
     ⟨{ (runIn modeRun).wr THM_DLOCK_DISTRICT.locked 1 4 with districts := [(4, { District.zero with releasedAt := some 0, acquired := true })] }, 4,
      10, by decide +kernel⟩,
     ⟨{ (runIn modeRun).wr THM_DLOCK_DISTRICT.locked 1 4 with districts := [(4, { District.zero with releasedAt := some 0, acquired := true, slowRun := 3 })] },
      4, 30, by decide +kernel⟩,
     ⟨{ runIn modeRun with districts := [(4, { District.zero with releasedAt := some 0 })] }, 4, 0, by decide +kernel⟩⟩

/-- States and operands that meet the hypotheses of each clause of `Obligations.CandidatesAndReference`. -/
theorem test_CandidatesAndReference_met :
    (∃ s : State, ∃ c : Fin 25, ∃ count : Nat, s.boot.porHeld = false ∧ s.rdb CLK_WKT_TRIM.on_backup = false ∧ candClock s c = true ∧ candHz s c /
      1000 ≠ 0 ∧ agrees count (candHz s c / 1000) = true ∧ s.rd CLK_CAND_COUNT.run c < 3) ∧
    (∃ s : State, ∃ count : Nat, inStage s 3 = true ∧ s.rdb CLK_WKT_TRIM.on_backup = false ∧ localHz s ≠ 0 ∧ agrees count (localHz s / 1000) = true ∧
      3 ≤ s.rd CLK_CAND_COUNT.run 0) ∧
    (∃ s : State, ∃ c : Fin 25, ∃ count : Nat, s.boot.porHeld = false ∧ s.rdb CLK_WKT_TRIM.on_backup = false ∧ candClock s c = true ∧ (candHz s c /
      1000 = 0 ∨ agrees count (candHz s c / 1000) = false) ∧ c.val ≠ s.rd CLK_REF_STATUS.current) ∧
    (∃ s : State, refWatched s = true ∧ s.safe.injection = none ∧ s.boot.dormant = true) ∧
    (∃ s : State, refWatched s = true ∧ s.safe.injection = none ∧ s.boot.dormant = false) ∧
    (∃ s : State, ∃ _pll : Fin 4, refWatched s = true ∧ s.boot.dormant = false) ∧
    (∃ s : State, ∃ _pll : Fin 4, refWatched s = true ∧ s.boot.dormant = true) ∧
    (∃ s : State, ∃ c : Fin 32, s.link.up = true ∧ blockAnswers s 0x40008 = true ∧ (s.rd DEV_MODE.mode = modeAssembly ∨ s.rd DEV_MODE.mode =
      modeService) ∧ s.rdb CLK_REF_STATUS.switching = false ∧ c.val ≤ 24 ∧ candReady s c = true ∧ c.val ≠ s.rd CLK_REF_STATUS.current) ∧
    (∃ s : State, ∃ _c : Fin 32, ∃ _confirm : Byte, s.link.up = true ∧ blockAnswers s 0x40008 = true ∧ s.rd DEV_MODE.mode ≠ modeBoot ∧ s.rd
      DEV_MODE.mode ≠ modeAssembly ∧ s.rd DEV_MODE.mode ≠ modeService) ∧
    (∃ s : State, ∃ _c : Fin 32, ∃ _confirm : Byte, s.link.up = true ∧ blockAnswers s 0x40008 = true ∧ s.rd DEV_MODE.mode ≠ modeBoot ∧ s.rd
      DEV_MODE.mode ≠ modeAssembly ∧ s.rd DEV_MODE.mode ≠ modeService) ∧
    (∃ s : State, s.rdb CLK_REF_STATUS.switching = true) :=
    ⟨⟨stageAt 3, 0, 10000, by decide +kernel⟩,
     ⟨(stageAt 3).wr CLK_CAND_COUNT.run 3, 9999, by decide +kernel⟩,
     ⟨((runIn modeRun).wr CLK_CAND_READY.ready 9).wr FHL_LANE_STATUS.rclk_valid 1 2, 3, 90000, by decide +kernel⟩,
     ⟨{ runIn modeDormant with boot := { Boot.start with porHeld := false, dormant := true } }, by decide +kernel⟩,
     ⟨runIn modeRun, by decide +kernel⟩,
     ⟨runIn modeRun, 2, by decide +kernel⟩,
     ⟨{ runIn modeDormant with boot := { Boot.start with porHeld := false, dormant := true } }, 2, by decide +kernel⟩,
     ⟨((runIn modeAssembly).wr DEV_BOOT_STATUS.stage 255).wr CLK_CAND_READY.ready 9, 3, by decide +kernel⟩,
     ⟨(runIn modeRun).wr DEV_BOOT_STATUS.stage 255, 3, 0xC3, by decide +kernel⟩,
     ⟨(runIn modeRun).wr DEV_BOOT_STATUS.stage 255, 3, 0, by decide +kernel⟩,
     ⟨(runIn modeAssembly).wr CLK_REF_STATUS.switching 1, by decide +kernel⟩⟩

/-- States and operands that meet the hypotheses of each clause of `Obligations.UserPllsAndOscillator`. -/
theorem test_UserPllsAndOscillator_met :
    (∃ s : State, ∃ k : Fin 8, ∃ _v : Word, s.link.up = true ∧ s.rd DEV_MODE.mode ≠ modeBoot ∧ blockAnswers s (CLK_UPLL_CFG.enable.offset k 0) = true
      ∧ s.rdb CLK_UPLL_CFG.enable k = false) ∧
    (∃ s : State, ∃ k : Fin 8, ∃ _v : Word, s.link.up = true ∧ s.rd DEV_MODE.mode ≠ modeBoot ∧ blockAnswers s (CLK_UPLL_CFG.enable.offset k 0) = true
      ∧ s.rdb CLK_UPLL_CFG.enable k = false) ∧
    (∃ s : State, ∃ k : Fin 8, ∃ v : Word, s.link.up = true ∧ s.rd DEV_MODE.mode ≠ modeBoot ∧ blockAnswers s (CLK_UPLL_CFG.enable.offset k 0) = true
      ∧ s.rdb CLK_UPLL_CFG.enable k = true ∧ upllChanges s k v.toNat = false ∧ ((List.range 32).any (fun c => s.rd CLK_GCH_SEL.source c == 8 + k)) =
      false) ∧
    (∃ s : State, ∃ k : Fin 8, s.rdb CLK_UPLL_CFG.enable k = true ∧ upllHasInput s k = true) ∧
    (∃ s : State, ∃ k : Fin 8, s.rdb CLK_UPLL_CFG.enable k = true) ∧
    (∃ s : State, ∃ c : Fin 32, ∃ _src : Fin 16, s.link.up = true ∧ s.rd DEV_MODE.mode ≠ modeBoot ∧ blockAnswers s (CLK_GCH_SEL.source.offset c 0) =
      true) ∧
    (∃ s : State, ∃ codes : Int, trimSource s ≠ 0 ∧ s.boot.porHeld = false ∧ s.rdb CLK_WKT_TRIM.on_backup = false ∧ codes ≠ 0 ∧ -29 ≤ toSigned 8
      (s.rd CLK_WKT_TRIM.trim) ∧ toSigned 8 (s.rd CLK_WKT_TRIM.trim) ≤ 29) ∧
    (∃ s : State, ∃ permille : Nat, 100 < permille ∧ s.rdb CLK_WKT_TRIM.on_backup = false ∧ s.boot.porHeld = false) :=
    ⟨⟨(runIn modeRun).wr DEV_BOOT_STATUS.stage 255, 3, 0, by decide +kernel⟩,
     ⟨(runIn modeRun).wr DEV_BOOT_STATUS.stage 255, 3, 0x400a3202, by decide +kernel⟩,
     ⟨((runIn modeRun).wr DEV_BOOT_STATUS.stage 255).wr CLK_UPLL_CFG.enable 1 3, 3, 0x3E040401, by decide +kernel⟩,
     ⟨(runIn modeRun).wr CLK_UPLL_CFG.enable 1 3, 3, by decide +kernel⟩,
     ⟨(runIn modeRun).wr CLK_UPLL_CFG.enable 1 3, 3, by decide +kernel⟩,
     ⟨(runIn modeRun).wr DEV_BOOT_STATUS.stage 255, 3, 9, by decide +kernel⟩,
     ⟨(runIn modeRun).wr CLK_CAND_READY.ready 1, 12, by decide +kernel⟩,
     ⟨runIn modeRun, 101, by decide +kernel⟩⟩

/-- States and operands that meet the hypotheses of each clause of `Obligations.SwapsExchangeLatches`. -/
theorem test_SwapsExchangeLatches_met :
    (∃ _swap : SwapData, ∃ s : State, ∃ g : Staging, ∃ id : Nat, s.ctxs.staging = some g ∧ g.owner = .command id ∧ underWay s id = true ∧ dieOpen s 2
      = true ∧ dieOpen s 3 = true ∧ g.oldPlane = false ∧ planeLost s g.ctx = false ∧ repairNeeded s g = false ∧ s.ctxs.wb = none ∧ s.stack.poisoned =
      []) ∧
    (∃ _swap : SwapData, ∃ s : State, ∃ g : Staging, ∃ id : Nat, ∃ tr : Transition, s.ctxs.staging = some g ∧ g.owner = .mode id ∧ g.oldPlane = false
      ∧ s.boot.transition = some tr ∧ dieOpen s 2 = true ∧ dieOpen s 3 = true ∧ planeLost s g.ctx = false ∧ repairNeeded s g = false ∧ s.ctxs.wb =
      none ∧ s.stack.poisoned = [] ∧ baseFenced s = false) ∧
    (∃ s : State, ∃ _swap : SwapData, ∃ a : ArmedSwap, s.ctxs.armed = some a ∧ a.waiting = false ∧ a.immediate = true ∧ swapReady s a.ctx = true ∧
      underWay s a.id = true) ∧
    (∃ s : State, ∃ _swap : SwapData, ∃ a : ArmedSwap, s.ctxs.armed = some a ∧ a.waiting = false ∧ a.skip = false ∧ swapReady s a.ctx = false) ∧
    (∃ s : State, ∃ _swap : SwapData, ∃ i : Nat, ∃ e : SchedEntry, ∃ due : Nat, nextDue s = some (i, e, due) ∧ armedOrigin s = none ∧ s.ctxs.late =
      none ∧ activeCtx s ≠ some e.ctx ∧ swapReady s e.ctx = true ∧ swapEdge (advanceToCounter s (due * 65536)) (advanceToCounter s (due * 65536)).now
      = gridEdge s (advanceToCounter s (due * 65536)).now) ∧
    (∃ s : State, ∃ _swap : SwapData, ∃ i : Nat, ∃ e : SchedEntry, ∃ due : Nat, nextDue s = some (i, e, due) ∧ armedOrigin s = none ∧ s.ctxs.late =
      none ∧ activeCtx s ≠ some e.ctx ∧ swapReady s e.ctx = false ∧ e.skip = true) ∧
    (∃ s : State, ∃ _swap : SwapData, ∃ a : ArmedSwap, s.ctxs.armed = some a ∧ a.waiting = true ∧ a.immediate = false ∧ a.limitUs = 0 ∧ swapReady s
      a.ctx = true ∧ underWay s a.id = true) ∧
    (∃ s : State, ∃ a : ArmedSwap, s.ctxs.armed = some a ∧ a.waiting = true ∧ a.immediate = false ∧ a.limitUs ≠ 0 ∧ ((∀ c ∈ commandLimit s, ∀ d ∈
      scheduleLimit s, c ≤ d)) ∧ underWay s a.id = true) :=
    ⟨⟨noSwap,
      { tracking (runIn modeRun) (begun 0x12 0) with ctxs := { Contexts.start with planes := [(planeKey 3 7, 1)], staging := some { ctx := 3, start := 0, owner := .command 7, oldPlane := false } } },
      { ctx := 3, start := 0, owner := .command 7, oldPlane := false }, 7, by decide +kernel⟩,
     ⟨noSwap,
      { tracking (runIn modeAssembly) (begun 0x7F 0) with boot := { (runIn modeAssembly).boot with transition := some { dest := modeRun, id := 7, ctx := 3, since := 0 } }, ctxs := { Contexts.start with planes := [(planeKey 3 7, 1)], staging := some { ctx := 3, start := 0, owner := .mode 7, oldPlane := false } } },
      { ctx := 3, start := 0, owner := .mode 7, oldPlane := false }, 7, { dest := modeRun, id := 7, ctx := 3, since := 0 }, by decide +kernel⟩,
     ⟨{ tracking staged2 (begun 0x13 0) with ctxs := { staged2.ctxs with armed := some { id := 7, ctx := 2, immediate := true, target := 0, skip := false, limitUs := 0, waiting := false } } },
      noSwap, { id := 7, ctx := 2, immediate := true, target := 0, skip := false, limitUs := 0, waiting := false }, by decide +kernel⟩,
     ⟨{ staged2 with ctxs := { staged2.ctxs with armed := some { id := 7, ctx := 3, immediate := true, target := 0, skip := false, limitUs := 0, waiting := false } } },
      noSwap, { id := 7, ctx := 3, immediate := true, target := 0, skip := false, limitUs := 0, waiting := false }, by decide +kernel⟩,
     ⟨{ staged2.wr CFG_SCHED_STATUS.running 1 with ctxs := { staged2.ctxs with banks := [(0, { bytes := [], period := 10000000, phase := 0, entries := [{ offset := 0, ctx := 2, skip := false, report := false, limitUs := 0 }], start := 0 })] } },
      noSwap, 0, { offset := 0, ctx := 2, skip := false, report := false, limitUs := 0 }, 0, by decide +kernel⟩,
     ⟨{ staged2.wr CFG_SCHED_STATUS.running 1 with ctxs := { staged2.ctxs with banks := [(0, { bytes := [], period := 10000000, phase := 0, entries := [{ offset := 0, ctx := 4, skip := true, report := false, limitUs := 0 }], start := 0 })] } },
      noSwap, 0, { offset := 0, ctx := 4, skip := true, report := false, limitUs := 0 }, 0, by decide +kernel⟩,
     ⟨{ tracking staged2 (begun 0x13 0) with ctxs := { staged2.ctxs with armed := some { id := 7, ctx := 2, immediate := false, target := 0, skip := false, limitUs := 0, waiting := true } } },
      noSwap, { id := 7, ctx := 2, immediate := false, target := 0, skip := false, limitUs := 0, waiting := true }, by decide +kernel⟩,
     ⟨{ tracking staged2 (begun 0x13 0) with ctxs := { staged2.ctxs with armed := some { id := 7, ctx := 2, immediate := false, target := 0, skip := false, limitUs := 5, waiting := true } } },
      { id := 7, ctx := 2, immediate := false, target := 0, skip := false, limitUs := 5, waiting := true }, by decide +kernel⟩⟩

/-- States and operands that meet the hypotheses of each clause of `Obligations.StagingTimeoutsTakeoverWriteBack`. -/
theorem test_StagingTimeoutsTakeoverWriteBack_met :
    (∃ s : State, ∃ g : Staging, ∃ id : Nat, s.ctxs.staging = some g ∧ g.owner = .command id ∧ underWay s id = true) ∧
    (∃ s : State, ∃ g : Staging, ∃ id : Nat, ∃ tr : Transition, s.boot.transition = some tr ∧ s.ctxs.staging = some g ∧ g.owner = .mode id ∧ underWay
      s id = true) ∧
    (∃ s : State, ∃ o : Nat, ∃ k : Bank, armedOrigin s = some o ∧ nextDue s = none ∧ bankOf s (idleBank s) = some k ∧ k.entries ≠ []) ∧
    (∃ s : State, ∃ w : WriteBack, ∃ f : Nat, ∃ d : Frame, s.ctxs.wb = some w ∧ w.left = [(f, d)] ∧ isLutFrame f = true ∧ dieOpen s 2 = true ∧
      dieOpen s 3 = true) :=
    ⟨⟨{ tracking (runIn modeRun) (begun 0x12 0) with ctxs := { Contexts.start with staging := some { ctx := 3, start := 0, owner := .command 7, oldPlane := false } } },
      { ctx := 3, start := 0, owner := .command 7, oldPlane := false }, 7, by decide +kernel⟩,
     ⟨{ tracking (runIn modeAssembly) (begun 0x7F 0) with boot := { (runIn modeAssembly).boot with transition := some { dest := modeRun, id := 7, ctx := 3, since := 0 } }, ctxs := { Contexts.start with staging := some { ctx := 3, start := 0, owner := .mode 7, oldPlane := false } } },
      { ctx := 3, start := 0, owner := .mode 7, oldPlane := false }, 7, { dest := modeRun, id := 7, ctx := 3, since := 0 }, by decide +kernel⟩,
     ⟨{ staged2.wr CFG_SCHED_STATUS.bank_armed 1 with ctxs := { staged2.ctxs with banks := [(0, { bytes := [], period := 10000000, phase := 0, entries := [{ offset := 0, ctx := 2, skip := false, report := false, limitUs := 0 }], start := 5 })] } },
      10000000,
      { bytes := [], period := 10000000, phase := 0, entries := [{ offset := 0, ctx := 2, skip := false, report := false, limitUs := 0 }], start := 5 },
      by decide +kernel⟩,
     ⟨{ staged2 with ctxs := { staged2.ctxs with wb := some { ctx := 1, edge := 0, left := [(50, 9)], slot := 0 } } },
      { ctx := 1, edge := 0, left := [(50, 9)], slot := 0 }, 50, 9, by decide +kernel⟩⟩

/-- States and operands that meet the hypotheses of each clause of `Obligations.MacGroupWritesItsAccumulator`. -/
theorem test_MacGroupWritesItsAccumulator_met :
    (∃ s : State, ∃ tile : Fin 1024, Issues s tile .mac) ∧
    (∃ s : State, ∃ tile : Fin 1024, Issues s tile .macj) ∧
    (∃ s : State, ∃ tile : Fin 1024, Issues s tile .msb) ∧
    (∃ s : State, ∃ tile : Fin 1024, Issues s tile .mul) ∧
    (∃ s : State, ∃ tile : Fin 1024, Issues s tile .mulj) ∧
    (∃ s : State, ∃ tile : Fin 1024, Issues s tile .pack) ∧
    (∃ s : State, ∃ tile : Fin 1024, Issues s tile .aclr) ∧
    (∃ s : State, ∃ tile : Fin 1024, Issues s tile .aload) :=
    ⟨⟨onTile (tword 1 0 0 1 1 2 0), 3, by decide +kernel⟩,
     ⟨onTile (tword 1 1 0 1 1 2 0), 3, by decide +kernel⟩,
     ⟨onTile (tword 1 2 0 1 1 2 0), 3, by decide +kernel⟩,
     ⟨onTile (tword 1 3 1 1 1 2 0), 3, by decide +kernel⟩,
     ⟨onTile (tword 1 4 0 1 1 2 0), 3, by decide +kernel⟩,
     ⟨onTile (tword 2 0 0 5 1 0 0x200000000), 3, by decide +kernel⟩,
     ⟨onTile (tword 2 1 0 1 0 0 0), 3, by decide +kernel⟩,
     ⟨onTile (tword 2 2 0 1 2 0 0x500000000), 3, by decide +kernel⟩⟩

/-- States and operands that meet the hypotheses of each clause of `Obligations.VectorUnitWritesItsRegister`. -/
theorem test_VectorUnitWritesItsRegister_met :
    (∃ s : State, ∃ tile : Fin 1024, Issues s tile .vadd) ∧
    (∃ s : State, ∃ tile : Fin 1024, Issues s tile .vsub) ∧
    (∃ s : State, ∃ tile : Fin 1024, Issues s tile .vaddmj) ∧
    (∃ s : State, ∃ tile : Fin 1024, Issues s tile .vsubmj) ∧
    (∃ s : State, ∃ tile : Fin 1024, Issues s tile .vconj) ∧
    (∃ s : State, ∃ tile : Fin 1024, Issues s tile .vshr) ∧
    (∃ s : State, ∃ tile : Fin 1024, Issues s tile .vmov) ∧
    (∃ s : State, ∃ tile : Fin 1024, Issues s tile .vperm) ∧
    (∃ s : State, ∃ tile : Fin 1024, Issues s tile .bexNext) ∧
    (∃ s : State, ∃ tile : Fin 1024, Issues s tile .bexClr) :=
    ⟨⟨onTile (tword 3 0 0 5 1 2 0), 3, by decide +kernel⟩,
     ⟨onTile (tword 3 1 0 5 1 2 0), 3, by decide +kernel⟩,
     ⟨onTile (tword 3 2 1 5 1 2 0), 3, by decide +kernel⟩,
     ⟨onTile (tword 3 3 0 5 1 2 0x090000004050), 3, by decide +kernel⟩,
     ⟨onTile (tword 3 4 0 5 1 0 0), 3, by decide +kernel⟩,
     ⟨onTile (tword 3 5 0 5 1 0 0x300000000), 3, by decide +kernel⟩,
     ⟨onTile (tword 3 6 0 5 1 0 0), 3, by decide +kernel⟩,
     ⟨onTile (tword 3 7 0 5 1 0 0x1B00000000), 3, by decide +kernel⟩,
     ⟨onTile (tword 2 3 0 0 0 0 0), 3, by decide +kernel⟩,
     ⟨onTile (tword 2 4 0 0 0 0 0), 3, by decide +kernel⟩⟩

/-- States and operands that meet the hypotheses of each clause of `Obligations.TileFlowAndSpecialRegisters`. -/
theorem test_TileFlowAndSpecialRegisters_met :
    (∃ s : State, ∃ tile : Fin 1024, Issues s tile .nop) ∧
    (∃ s : State, ∃ tile : Fin 1024, ∃ f : LoopFrame, ∃ rest : List LoopFrame, Issues s tile .nop ∧ (tileOf s tile).loops = f :: rest ∧ f.last =
      (tileOf s tile).pc ∧ f.lc < 2 ∧ 1 < loopCount (tileOf s tile).regs f.lc) ∧
    (∃ s : State, ∃ tile : Fin 1024, Issues s tile .wait) ∧
    (∃ s : State, ∃ tile : Fin 1024, Issues s tile .br) ∧
    (∃ s : State, ∃ tile : Fin 1024, Issues s tile .br) ∧
    (∃ s : State, ∃ tile : Fin 1024, Issues s tile .loop) ∧
    (∃ s : State, ∃ tile : Fin 1024, Issues s tile .loop) ∧
    (∃ s : State, ∃ tile : Fin 1024, Issues s tile .loop) ∧
    (∃ s : State, ∃ tile : Fin 1024, Issues s tile .timer) ∧
    (∃ s : State, ∃ tile : Fin 1024, Issues s tile .setr) ∧
    (∃ s : State, ∃ tile : Fin 1024, Issues s tile .setr) ∧
    (∃ s : State, ∃ tile : Fin 1024, Issues s tile .setrv) ∧
    (∃ s : State, ∃ tile : Fin 1024, Issues s tile .getr) :=
    ⟨⟨onTile (tword 0 0 0 0 0 0 0), 3, by decide +kernel⟩,
     ⟨{ runIn modeRun with tiles := [(3, { tileWith (tword 0 0 0 0 0 0 0) with loops := [{ lc := 1, first := 5, last := 0 }], regs := { TileRegs.zero with loop1 := 3 } })] },
      3, { lc := 1, first := 5, last := 0 }, [], by decide +kernel⟩,
     ⟨onTile (tword 0 1 0 0 0 0 0), 3, by decide +kernel⟩,
     ⟨onTile (tword 0 2 0 0 0 0 0x900000000), 3, by decide +kernel⟩,
     ⟨onTile (tword 0 2 0 0 8 0 0x900000000), 3, by decide +kernel⟩,
     ⟨onTile (tword 0 3 0 8 1 0 0x300000000), 3, by decide +kernel⟩,
     ⟨onTile (tword 0 3 0 0 0 0 0x300000000), 3, by decide +kernel⟩,
     ⟨onTile (tword 0 3 0 4 0 0 0x300000000), 3, by decide +kernel⟩,
     ⟨onTile (tword 0 6 0 0 0 0 0x500000000), 3, by decide +kernel⟩,
     ⟨onTile (BitVec.ofNat 64 (0x5000000700000000 + 0x19 * 2 ^ 50)), 3, by decide +kernel⟩,
     ⟨onTile (BitVec.ofNat 64 (0x5000000700000000 + 0x05 * 2 ^ 50)), 3, by decide +kernel⟩,
     ⟨onTile (BitVec.ofNat 64 (0x5200000000000000 + 0x1A * 2 ^ 50 + 2 ^ 44)), 3, by decide +kernel⟩,
     ⟨onTile (BitVec.ofNat 64 (0x5400000000000000 + 0x1C * 2 ^ 50 + 2 ^ 44)), 3, by decide +kernel⟩⟩

/-- States and operands that meet the hypotheses of each clause of `Obligations.BlocksAndPorts`. -/
theorem test_BlocksAndPorts_met :
    (∃ s : State, ∃ tile : Fin 1024, Issues s tile .blkBegin) ∧
    (∃ s : State, ∃ tile : Fin 1024, Issues s tile .blkCommit) ∧
    (∃ s : State, ∃ tile : Fin 1024, Issues s tile .spop ∧ (tileOf s tile).inBlock = false) ∧
    (∃ s : State, ∃ tile : Fin 1024, Issues s tile .spop ∧ (tileOf s tile).inBlock = true) ∧
    (∃ s : State, ∃ tile : Fin 1024, Issues s tile .lpop ∧ (tileOf s tile).inBlock = false) ∧
    (∃ s : State, ∃ tile : Fin 1024, Issues s tile .lpop ∧ (tileOf s tile).inBlock = true) ∧
    (∃ s : State, ∃ tile : Fin 1024, Issues s tile .spush ∧ (tileOf s tile).inBlock = false) ∧
    (∃ s : State, ∃ tile : Fin 1024, Issues s tile .spush ∧ (tileOf s tile).inBlock = true) ∧
    (∃ s : State, ∃ tile : Fin 1024, Issues s tile .lpush ∧ (tileOf s tile).inBlock = false) ∧
    (∃ s : State, ∃ tile : Fin 1024, Issues s tile .lpush ∧ (tileOf s tile).inBlock = true) ∧
    (∃ s : State, ∃ tile : Fin 1024, Issues s tile .mdrd) ∧
    (∃ s : State, ∃ tile : Fin 1024, Issues s tile .mdwr ∧ (tileOf s tile).inBlock = false) ∧
    (∃ s : State, ∃ tile : Fin 1024, Issues s tile .mdwr ∧ (tileOf s tile).inBlock = true) ∧
    (∃ s : State, ∃ tile : Fin 1024, Issues s tile .nwr ∧ (tileOf s tile).inBlock = false) ∧
    (∃ s : State, ∃ tile : Fin 1024, Issues s tile .nwr ∧ (tileOf s tile).inBlock = true) :=
    ⟨⟨{ runIn modeRun with tiles := [(3, { tileWith (tword 0 4 0 0 0 0 0x500000000) with hc := 4 })] }, 3, by decide +kernel⟩,
     ⟨{ runIn modeRun with tiles := [(3, { tileWith (tword 0 5 0 0 0 0 0) with inBlock := true, blockOuts := 1, staging := [{ kind := .streamOut 0, data := 5 }] })] },
      3, by decide +kernel⟩,
     ⟨{ runIn modeRun with tiles := [(3, { tileWith (tword 4 0 0 5 0 0 0x80000000000) with streamIn1 := { q := [77, 78], popped := 0, freed := [] } })] },
      3, by decide +kernel⟩,
     ⟨{ runIn modeRun with tiles := [(3, { tileWith (tword 4 0 0 5 0 0 0) with inBlock := true, streamIn0 := { q := [77, 78], popped := 1, freed := [] } })] },
      3, by decide +kernel⟩,
     ⟨{ runIn modeRun with tiles := [(3, { tileWith (tword 4 2 0 5 0 0 0) with linkUp := { q := [77, 78], popped := 0, freed := [] } })] }, 3,
      by decide +kernel⟩,
     ⟨{ runIn modeRun with tiles := [(3, { tileWith (tword 4 2 0 5 0 0 0x80000000000) with inBlock := true, linkDown := { q := [77, 78], popped := 1, freed := [] } })] },
      3, by decide +kernel⟩,
     ⟨{ ((runIn modeRun).wr CLK_GCH_SEL.source 2 0) with ctxs := { Contexts.start with ports := { Contexts.start.ports with dsp := [(14, 0)] } }, tiles := [(3, { tileWith (tword 4 1 0 0 1 0 0) with hc := 4 })] },
      3, by decide +kernel⟩,
     ⟨{ runIn modeRun with tiles := [(3, { tileWith (tword 4 1 0 0 1 0 0) with inBlock := true })] }, 3, by decide +kernel⟩,
     ⟨{ runIn modeRun with tiles := [(3, { tileWith (tword 4 3 0 0 1 0 0x80000000000) with hc := 4 })] }, 3, by decide +kernel⟩,
     ⟨{ runIn modeRun with tiles := [(3, { tileWith (tword 4 3 0 0 1 0 0) with inBlock := true })] }, 3, by decide +kernel⟩,
     ⟨{ runIn modeRun with tiles := [(3, { tileWith (tword 4 4 0 5 4 0 0) with hc := 4 })] }, 3, by decide +kernel⟩,
     ⟨{ runIn modeRun with tiles := [(3, { tileWith (tword 4 5 0 0 4 1 0) with hc := 4 })] }, 3, by decide +kernel⟩,
     ⟨{ runIn modeRun with tiles := [(3, { tileWith (tword 4 5 0 0 4 1 0) with inBlock := true })] }, 3, by decide +kernel⟩,
     ⟨{ runIn modeRun with tiles := [(3, { tileWith (tword 4 6 0 0 4 1 0) with hc := 4 })] }, 3, by decide +kernel⟩,
     ⟨{ runIn modeRun with tiles := [(3, { tileWith (tword 4 6 0 0 4 1 0) with inBlock := true })] }, 3, by decide +kernel⟩⟩

/-- States and operands that meet the hypotheses of each clause of `Obligations.VectorsEventsAndPorts`. -/
theorem test_VectorsEventsAndPorts_met :
    (∃ s : State, ∃ tile : Fin 1024, ∃ c : Nat, ∃ a : Nat, activeCtx s = some c ∧ (tileOf s tile).state = .run ∧ (tileOf s tile).swapPending = true ∧
      (tileOf s tile).betweenBlocks = true ∧ vectorOf (tileOf s tile) c 0 = some a) ∧
    (∃ s : State, ∃ tile : Fin 1024, ∃ c : Nat, ∃ a : Nat, ∃ ev : Nat, activeCtx s = some c ∧ (tileOf s tile).state = .idle ∧ (tileOf s
      tile).swapPending = false ∧ ev ∈ [1, 2, 3, 4, 5, 6] ∧ sparseGet false (tileOf s tile).events ev = true ∧ vectorOf (tileOf s tile) c ev = some a
      ∧ ((∀ e : Nat, e < 7 → (1 ≤ e ∧ e < ev) → sparseGet false (tileOf s tile).events e = false))) ∧
    (∃ s : State, ∃ tile : Fin 1024, ∃ n : Nat, (tileOf s tile).timer = some n) ∧
    (∃ s : State, ∃ tile : Fin 1024, ∃ r : TileRead, ∃ rest : List TileRead, ∃ d : Vec, (tileOf s tile).reads = r :: rest ∧ r.data = some (false, d)
      ∧ (tileOf s tile).state ≠ .copying) ∧
    (∃ s : State, ∃ tile : Fin 1024, ∃ d : Vec, ∃ n : Nat, ∃ rest : List (Bool × Vec × Nat), (tileOf s tile).arriving = (false, d, n) :: rest ∧
      (tileOf s tile).state ≠ .copying) ∧
    (∃ s : State, ∃ tile : Fin 1024, ∃ port : Bool, ∃ _d : Vec, ((tileOf s tile).fifo (b2n port)).q.length < 16 ∧ (tileOf s tile).state ≠ .copying ∧
      dieOpen s 2 = true ∧ dspBound s tile (b2n port) = true ∧ holdCycle s = false) ∧
    (∃ s : State, ∃ tile : Fin 1024, ∃ port : Bool, ∃ _d : Vec, 16 ≤ ((tileOf s tile).fifo (b2n port)).q.length) ∧
    (∃ s : State, ∃ tile : Fin 1024, ∃ p : Nat, ∃ d : Vec, (tileOf s tile).staging = [{ kind := .streamOut p, data := d }] ∧ (tileOf s
      tile).blockOuts = 0 ∧ (tileOf s tile).state ≠ .copying ∧ p < 2 ∧ (tileOf s tile).relHc ≤ nowHc s ∧ streamRoom s tile p (nowHc s) = true) ∧
    (∃ s : State, ∃ tile : Fin 1024, (tileOf s tile).state = .run ∧ (tileOf s tile).inBlock = true ∧ vectorOf (tileOf s tile) (tileOf s tile).ctx 7 =
      none) ∧
    (∃ s : State, ∃ _tile : Fin 1024, s.link.up = true ∧ s.rd DEV_MODE.mode ≠ 0 ∧ s.boot.coreUp = true ∧ dieOpen s 2 = true) ∧
    (∃ s : State, s.link.up = true ∧ s.rd DEV_MODE.mode ≠ 0 ∧ s.boot.coreUp = true ∧ dieOpen s 2 = true) ∧
    (∃ s : State, ∃ init : Nat, ∃ tag : Fin 256, ∃ _ecc : Ecc, ∃ _ecc2 : Ecc, ∃ r : NocReq, ∃ n : Nat, ∃ b : Nat, ∃ h : Nat, ∃ stall : Bool, reqOf s
      init tag = some r ∧ r.write = true ∧ r.len = 1 ∧ targetOf (locOf r.pa) = .tile n ∧ (xyPlace r.pa b).1 < 1024 ∧ (xyBeats r)[r.done]? = some b ∧
      servable s r = true ∧ dieOpen s 2 = true ∧ (tileOf s n).state ≠ .copying ∧ r.badFlits = [] ∧ beatHc s (xyPlace r.pa b).1 (xyPlace r.pa b).2.1
      (beatReady s r) = some (h, stall)) :=
    ⟨⟨{ (runIn modeRun).wr CFG_LATCH_STATUS.active_valid 1 with tiles := [(3, { tileWith 0 with swapPending := true })] }, 3, 0, 8,
      by decide +kernel⟩,
     ⟨{ (runIn modeRun).wr CFG_LATCH_STATUS.active_valid 1 with tiles := [(3, { tileWith 0 with state := .idle, events := [(2, true), (5, true)], vectors := [(2, 9, true)] })] },
      3, 0, 9, 2, by decide +kernel⟩,
     ⟨{ runIn modeRun with tiles := [(3, { tileWith 0 with timer := some 44 })] }, 3, 44, by decide +kernel⟩,
     ⟨{ runIn modeRun with tiles := [(3, { tileWith 0 with reads := [{ v := 6, addr := 0, ready := 12, data := some (false, 99) }] })] }, 3,
      { v := 6, addr := 0, ready := 12, data := some (false, 99) }, [], 99, by decide +kernel⟩,
     ⟨{ runIn modeRun with tiles := [(3, { tileWith 0 with arriving := [(false, 7, 9)] })] }, 3, 7, 9, [], by decide +kernel⟩,
     ⟨{ ((runIn modeRun).wr CLK_GCH_SEL.source 1 7) with ctxs := { Contexts.start with ports := { Contexts.start.ports with dsp := [(13, 7), (15, 7)] } }, tiles := [(3, { tileWith 0 with hc := 2 })] },
      3, true, 5, by decide +kernel⟩,
     ⟨{ runIn modeRun with tiles := [(3, { tileWith 0 with streamIn0 := { q := List.replicate 16 1, popped := 0, freed := [] } })] }, 3, false, 5,
      by decide +kernel⟩,
     ⟨{ ((runIn modeRun).wr CLK_GCH_SEL.source 1 7) with ctxs := { Contexts.start with ports := { Contexts.start.ports with dsp := [(13, 7), (15, 7)] } }, tiles := [(3, { tileWith 0 with staging := [{ kind := .streamOut 1, data := 6 }] })] },
      3, 1, 6, by decide +kernel⟩,
     ⟨{ runIn modeRun with tiles := [(3, { tileWith 0 with inBlock := true, vectors := [], staging := [{ kind := .streamOut 1, data := 6 }], blockOuts := 1 })] },
      3, by decide +kernel⟩,
     ⟨runIn modeRun, 3, by decide +kernel⟩,
     ⟨runIn modeRun, by decide +kernel⟩,
     ⟨{ runIn modeRun with noc := { (runIn modeRun).noc with reqs := [xyReq] } }, 5, 6, .ok, .ok, xyReq, 0, 1, 1, false, by decide +kernel⟩⟩

/-- States and operands that meet the hypotheses of each clause of `Obligations.ReplaySpareAndExceptions`. -/
theorem test_ReplaySpareAndExceptions_met :
    (∃ s : State, ∃ tile : Fin 1024, (tileOf s tile).inBlock = true ∧ (tileOf s tile).state = .run ∧ (tileOf s tile).attempts = 0 ∧ (countEvent s 4
      tile).2 = false ∧ (tileOf s tile).slack = 0) ∧
    (∃ s : State, ∃ tile : Fin 1024, (tileOf s tile).inBlock = true ∧ (tileOf s tile).state = .run ∧ (tileOf s tile).attempts = 2 ∧ (countEvent s 4
      tile).2 = false ∧ (tileOf s tile).slack = 0 ∧ spareGone s tile = false) ∧
    (∃ s : State, ∃ tile : Fin 1024, (tileOf s tile).inBlock = false ∧ (tileOf s tile).state = .run ∧ (countEvent s 4 tile).2 = false ∧ vectorOf
      (tileOf s tile) (tileOf s tile).ctx 7 = none) ∧
    (∃ s : State, ∃ tile : Fin 1024, (tileOf s tile).lasting = true ∧ (tileOf s tile).betweenBlocks = true ∧ ((∀ p ∈ s.tiles, p.1 / 16 = tile / 16 →
      p.1 ≠ tile → p.2.lasting = false)) ∧ (tileOf s tile).staging = [] ∧ (tileOf s tile).state ≠ .copying ∧ spareGone s tile = false) ∧
    (∃ s : State, ∃ tile : Fin 1024, (tileOf s tile).state = .copying ∧ (tileOf s tile).resumeCkpt = false) ∧
    (∃ s : State, ∃ tile : Fin 1024, ∃ f : Finds, (tileOf s tile).state = .run ∧ (tileOf s tile).swapPending = false ∧ outOfRange (tileOf s tile) =
      false ∧ f.fetch ≠ .double ∧ topOf (wordAt s tile) = none ∧ (tileOf s tile).inBlock = false ∧ vectorOf (tileOf s tile) (tileOf s tile).ctx 7 =
      none) ∧
    (∃ s : State, ∃ tile : Fin 1024, ∃ _f : Finds, ∃ a : Nat, (tileOf s tile).state = .run ∧ (tileOf s tile).swapPending = false ∧ (tileOf s
      tile).inHandler = false ∧ outOfRange (tileOf s tile) = true ∧ (tileOf s tile).inBlock = false ∧ vectorOf (tileOf s tile) (tileOf s tile).ctx 7
      = some a) :=
    ⟨⟨{ runIn modeRun with tiles := [(3, { tileWith 0 with inBlock := true, blockPc := 3, pc := 6 })] }, 3, by decide +kernel⟩,
     ⟨{ runIn modeRun with tiles := [(3, { tileWith 0 with inBlock := true, attempts := 2 })] }, 3, by decide +kernel⟩,
     ⟨{ runIn modeRun with tiles := [(3, { tileWith 0 with vectors := [] })] }, 3, by decide +kernel⟩,
     ⟨{ runIn modeRun with tiles := [(3, { tileWith 0 with lasting := true })] }, 3, by decide +kernel⟩,
     ⟨{ runIn modeRun with tiles := [(3, { tileWith 0 with state := .copying, before := .run, copyAt := 5 })] }, 3, by decide +kernel⟩,
     ⟨{ runIn modeRun with tiles := [(3, { tileWith 0 with prog := [(0, tword 6 0 0 0 0 0 0)], vectors := [] })] }, 3, clean, by decide +kernel⟩,
     ⟨{ runIn modeRun with tiles := [(3, { tileWith 0 with ranges := [] })] }, 3, clean, 12, by decide +kernel⟩⟩

/-- States and operands that meet the hypotheses of each clause of `Obligations.FullWriteClearsPoison`. -/
theorem test_FullWriteClearsPoison_met :
    (∃ s : State, ∃ b : Fin 4096, ∃ w : Fin 4096, ∃ _d : Word64, ∃ m : MemWord, memWord s b w = some m ∧ m.poison = true ∧ portAServes s b = true ∧
      portASample s b = s ∧ s.mem.updates = [] ∧ s.stack.poisoned = []) ∧
    (∃ s : State, ∃ init : Nat, ∃ tag : Fin 256, ∃ r : NocReq, ∃ b : Nat, ∃ w : Nat, ∃ m : MemWord, reqOf s init tag = some r ∧ r.write = true ∧
      r.len = 8 ∧ r.done = 0 ∧ r.badFlits = [] ∧ nocBlock s r = some b ∧ blockWord r.pa = (b, w) ∧ r.pa % 64 = 0 ∧ memWord s b w = some m ∧ m.poison
      = true ∧ s.mem.updates = []) :=
    ⟨⟨memUp [(4096 * 5 + 7, { data := 9, poison := true })] [], 5, 7, 33, { data := 9, poison := true }, by decide +kernel⟩,
     ⟨{ memUp [(4096 * 5, { data := 9, poison := true })] [] with noc := { (runIn modeRun).noc with reqs := [memReq] } }, 5, 6, memReq, 5, 0,
      { data := 9, poison := true }, by decide +kernel⟩⟩

/-- States and operands that meet the hypotheses of each clause of `Obligations.MemoryDieWordsAndMerges`. -/
theorem test_MemoryDieWordsAndMerges_met :
    (∃ s : State, ∃ b : Fin 4096, ∃ w : Fin 4096, ∃ f : Finding, memWord s b w = none ∧ portAServes s b = true ∧ portASample s b = s ∧ s.mem.updates
      = [] ∧ s.stack.poisoned = [] ∧ f.ecc ≠ .double) ∧
    (∃ s : State, ∃ b : Fin 4096, ∃ w : Fin 4096, ∃ m : MemWord, ∃ y : MemWord, memWord s b w = some m ∧ portAServes s b = true ∧ portASample s b = s
      ∧ s.stack.poisoned = [] ∧ ownWrites s true b w (some m) = some y) ∧
    (∃ s : State, ∃ b : Fin 4096, ∃ w : Fin 4096, ∃ m : MemWord, ∃ y : MemWord, memWord s b w = some m ∧ portAServes s b = true ∧ portASample s b = s
      ∧ s.stack.poisoned = [] ∧ ownWrites s true b w (some m) = some y) ∧
    (∃ s : State, ∃ b : Fin 4096, ∃ w : Fin 4096, ∃ be : Byte, ∃ _d : Word64, memWord s b w = none ∧ be ≠ 0 ∧ portAServes s b = true ∧ portASample s
      b = s ∧ s.mem.updates = [] ∧ s.stack.poisoned = []) ∧
    (∃ s : State, ∃ b : Fin 4096, ∃ w : Fin 4096, ∃ be : Byte, ∃ _d : Word64, ∃ m : MemWord, memWord s b w = some m ∧ m.poison = false ∧ be ≠ 0 ∧ be
      ≠ BitVec.allOnes 8 ∧ portAServes s b = true ∧ portASample s b = s ∧ s.mem.updates = [] ∧ s.stack.poisoned = []) ∧
    (∃ s : State, ∃ b : Fin 4096, ∃ _w : Fin 4096, ∃ _d : Word64, portAServes s b = true ∧ portASample s b = s ∧ s.mem.updates = [] ∧
      s.stack.poisoned = []) ∧
    (∃ s : State, ∃ n : MemUpdate, ∃ m : MemWord, s.mem.updates = [n] ∧ n.kind = .merge none ∧ n.port = .portA ∧ s.now ≤ n.since + 3 * hcTicks s ∧
      memWord s n.block n.word = some m ∧ m.poison = false) ∧
    (∃ s : State, ∃ n : MemUpdate, ∃ m : MemWord, ∃ f : Finding, s.mem.updates = [n] ∧ n.kind = .merge none ∧ n.port = .portA ∧ s.now ≤ n.since + 3 *
      hcTicks s ∧ memWord s n.block n.word = some m ∧ m.poison = true ∧ f.ecc ≠ .double) :=
    ⟨⟨memUp [] [], 5, 7, { ecc := .ok, place := 0 }, by decide +kernel⟩,
     ⟨memUp [(4096 * 5 + 7, { data := 9, poison := true })] [], 5, 7, { data := 9, poison := true }, { data := 9, poison := true },
      by decide +kernel⟩,
     ⟨memUp [(4096 * 5 + 7, { data := 9, poison := false })]
      [{ kind := .full, port := .portA, block := 5, word := 7, be := 6, data := 0x112233, since := 0 }], 5, 7, { data := 9, poison := false },
      { data := 0x112233, poison := false }, by decide +kernel⟩,
     ⟨memUp [] [], 5, 7, 3, 0x11223344, by decide +kernel⟩,
     ⟨memUp [(4096 * 5 + 7, { data := 9, poison := false })] [], 5, 7, 3, 0x11223344, { data := 9, poison := false }, by decide +kernel⟩,
     ⟨memUp [(4096 * 5 + 7, { data := 9, poison := false })] [], 5, 7, 4, by decide +kernel⟩,
     ⟨memUp [(4096 * 5 + 7, { data := 9, poison := false })]
      [{ kind := .merge none, port := .portA, block := 5, word := 7, be := 6, data := 0x112233, since := 0 }],
      { kind := .merge none, port := .portA, block := 5, word := 7, be := 6, data := 0x112233, since := 0 }, { data := 9, poison := false },
      by decide +kernel⟩,
     ⟨memUp [(4096 * 5 + 7, { data := 9, poison := true })]
      [{ kind := .merge none, port := .portA, block := 5, word := 7, be := 6, data := 0x112233, since := 0 }],
      { kind := .merge none, port := .portA, block := 5, word := 7, be := 6, data := 0x112233, since := 0 }, { data := 9, poison := true },
      { ecc := .ok, place := 0 }, by decide +kernel⟩⟩

/-- States and operands that meet the hypotheses of each clause of `Obligations.InvalidationPortBAndRetirement`. -/
theorem test_InvalidationPortBAndRetirement_met :
    (∃ s : State, ∃ b : Fin 4096, portAServes s b = true ∧ portASample s b = s ∧ s.mem.updates = [] ∧ sparseFind s.mem.portAt b ≠ some s.now) ∧
    (∃ s : State, ∃ b : Fin 4096, dieOpen s 1 = true ∧ (inReserve s b) = false ∧ s.mem.updates = [] ∧ s.link.up = true ∧ s.rd DEV_MODE.mode ≠ 0 ∧
      s.boot.coreUp = true) ∧
    (∃ s : State, dieOpen s 1 = true ∧ s.mem.updates = [] ∧ s.rd MEM_STATUS.reserve_active = 0 ∧ s.link.up = true ∧ s.rd DEV_MODE.mode ≠ 0 ∧
      s.boot.coreUp = true) ∧
    (∃ s : State, ∃ b : Fin 4096, ∃ n : Nat, sparseFind s.mem.clearing b = some n) ∧
    (∃ s : State, ∃ init : Nat, ∃ tag : Fin 256, ∃ r : NocReq, ∃ b : Nat, ∃ m : Nat → MemWord, reqOf s init tag = some r ∧ r.write = false ∧ r.done =
      0 ∧ r.respData = [] ∧ nocBlock s r = some b ∧ blockWord r.pa = (b, 0) ∧ r.pa % 64 = 0 ∧ s.mem.updates = [] ∧ ((∀ k : Nat, k < 8 → memWord s b k
      = some (m k))) ∧ ((∀ k : Nat, k < 8 → (m k).poison = false))) ∧
    (∃ s : State, ∃ tile : Fin 1024, ∃ r : TileRead, ∃ b : Nat, ∃ w : Nat, ∃ x : MemWord, ∃ y : MemWord, (tileOf s tile).reads = [r] ∧ r.data = none
      ∧ blockWord (0x1000000000 + r.addr) = (b, w) ∧ blockWord (0x1000000000 + r.addr + 8) = (b, w + 1) ∧ inReserve s b = false ∧ panesOpen s = true
      ∧ pathGoes s tile = true ∧ pathInOrder s tile false = true ∧ portBTurn s b true = true ∧ s.mem.updates = [] ∧ s.stack.poisoned = [] ∧ memWord s
      b w = some x ∧ memWord s b (w + 1) = some y ∧ x.poison = false ∧ y.poison = false) ∧
    (∃ s : State, ∃ tile : Fin 1024, ∃ e : PathWrite, ∃ b : Nat, ∃ w : Nat, s.mem.pathWrites = [e] ∧ e.tile = tile ∧ blockWord (0x1000000000 +
      e.addr) = (b, w) ∧ inReserve s b = false ∧ panesOpen s = true ∧ pathGoes s tile = true ∧ pathInOrder s tile true = true ∧ portBTurn s b true =
      true ∧ s.mem.updates = [] ∧ s.stack.poisoned = []) ∧
    (∃ s : State, ∃ b : Fin 4096, ∃ k : Nat, ∃ n : Nat, s.mem.updates = [] ∧ s.mem.retiring = [((b : Nat), k, n)] ∧ k < 4 ∧ servingSpare s b = none)
      :=
    ⟨⟨memUp [(4096 * 5 + 7, { data := 9, poison := true })] [], 5, by decide +kernel⟩,
     ⟨memUp [(4096 * 5 + 7, { data := 9, poison := true })] [], 5, by decide +kernel⟩,
     ⟨memUp [(4096 * 5 + 7, { data := 9, poison := true })] [], by decide +kernel⟩,
     ⟨{ runIn modeRun with mem := { State.reset.mem with clearing := [(3, 9), (5, 8)] } }, 5, 8, by decide +kernel⟩,
     ⟨{ memUp ((List.range 8).map (fun k => (20480 + k, ⟨BitVec.ofNat 64 (k + 3), false⟩))) [] with noc := { (runIn modeRun).noc with reqs := [{ memReq with write := false }] } },
      5, 6, { memReq with write := false }, 5, fun k => ⟨BitVec.ofNat 64 (k + 3), false⟩, by decide +kernel⟩,
     ⟨{ runIn modeRun with mem := { State.reset.mem with words := [(2, ⟨5, false⟩), (3, ⟨6, false⟩)] }, tiles := [(3, { Tile.zero with reads := [{ v := 1, addr := 16, ready := 0, data := none }] })] },
      3, { v := 1, addr := 16, ready := 0, data := none }, 0, 2, ⟨5, false⟩, ⟨6, false⟩, by decide +kernel⟩,
     ⟨{ memUp [] [] with mem := { MemDie.start with pathWrites := [{ tile := 3, addr := 16, data := 5, hc := 0 }] } }, 3,
      { tile := 3, addr := 16, data := 5, hc := 0 }, 0, 2, by decide +kernel⟩,
     ⟨{ runIn modeRun with mem := { State.reset.mem with retiring := [(300, 2, 8)] } }, 300, 2, 8, by decide +kernel⟩⟩

/-- States and operands that meet the hypotheses of each clause of `Obligations.NetworkRequestsAndResponses`. -/
theorem test_NetworkRequestsAndResponses_met :
    (∃ s : State, ∃ init : Fin 256, ∃ pkt : List Line, ∃ r : NocReq, ∃ rest : List NocReq, nocRunning s = true ∧ isFabricPort init = false ∧
      ((init.val = 0x20 → pkt = [])) ∧ s.noc.waiting = r :: rest ∧ r.init = init ∧ outstanding s init < 64 ∧ crosses4K r = false ∧ refusedByMap s r =
      false ∧ keyMasked s r = false) ∧
    (∃ s : State, ∃ init : Fin 256, ∃ pkt : List Line, nocRunning s = true ∧ isFabricPort init = true ∧ portStatus s init = 0 ∧ portClocked s init =
      true ∧ holdCycle s = false ∧ packetWhole pkt = true ∧ txHeld s init + pkt.length ≤ 16 ∧ s.noc.tx.any (fun e => e.1 == init.val) = false ∧
      (reqOf s init (packetOf pkt).tag.toNat) = none ∧ outstanding s init < 32 ∧ packetMalformed (packetOf pkt) = false ∧ crosses4K (reqOfPacket s
      init (packetOf pkt)) = false ∧ refusedByMap s (reqOfPacket s init (packetOf pkt)) = false ∧ keyMasked s (reqOfPacket s init (packetOf pkt)) =
      false) ∧
    (∃ s : State, ∃ init : Fin 256, ∃ pkt : List Line, nocRunning s = true ∧ isFabricPort init = true ∧ portStatus s init = 0 ∧ portClocked s init =
      true ∧ holdCycle s = false ∧ packetWhole pkt = true ∧ txHeld s init + pkt.length ≤ 16 ∧ s.noc.tx.any (fun e => e.1 == init.val) = false ∧
      (reqOf s init (packetOf pkt).tag.toNat) = none ∧ outstanding s init < 32 ∧ packetMalformed (packetOf pkt) = true) ∧
    (∃ s : State, ∃ init : Fin 256, ∃ pkt : List Line, nocRunning s = true ∧ isFabricPort init = true ∧ portStatus s init = 0 ∧ portClocked s init =
      true ∧ holdCycle s = false ∧ packetWhole pkt = true ∧ txHeld s init + pkt.length ≤ 16 ∧ s.noc.tx.any (fun e => e.1 == init.val) = false ∧ 32 ≤
      outstanding s init) ∧
    (∃ s : State, ∃ init : Nat, ∃ tag : Fin 256, ∃ r : NocReq, ∃ router : Fin 48, ∃ f : Flit, reqOf s init tag = some r ∧ r.dropped = false ∧
      r.refused = false ∧ r.inPort = false ∧ nextFlit s r router = some f ∧ granted s (flits s) (hopTick s f router) f = true ∧ netAt s s.now = s ∧
      netAt s (hopTick s f router) = s ∧ s.safe.injection = none ∧ r.lost = false ∧ r.sum = none ∧ f.resp = r.answered) ∧
    (∃ s : State, ∃ init : Nat, ∃ tag : Fin 256, ∃ r : NocReq, ∃ router : Fin 48, ∃ f : Flit, reqOf s init tag = some r ∧ r.dropped = false ∧
      r.refused = false ∧ r.inPort = false ∧ nextFlit s r router = some f ∧ granted s (flits s) (hopTick s f router) f = true ∧ netAt s s.now = s ∧
      netAt s (hopTick s f router) = s ∧ s.safe.injection = none ∧ r.lost = false ∧ r.sum = none ∧ f.resp = r.answered) ∧
    (∃ s : State, ∃ init : Nat, ∃ tag : Fin 256, ∃ r : NocReq, ∃ router : Fin 48, ∃ f : Flit, ∃ find : FlitFind, reqOf s init tag = some r ∧
      r.dropped = false ∧ r.refused = false ∧ r.inPort = false ∧ nextFlit s r router = some f ∧ granted s (flits s) (hopTick s f router) f = true ∧
      netAt s s.now = s ∧ netAt s (hopTick s f router) = s ∧ s.safe.injection = none ∧ r.lost = false ∧ r.sum = none ∧ f.resp = r.answered ∧ halfFind
      find.half0 = .corrected ∧ halfFind find.half1 = .ok) ∧
    (∃ s : State, ∃ init : Nat, ∃ tag : Fin 256, ∃ r : NocReq, ∃ router : Fin 48, ∃ f : Flit, ∃ find : FlitFind, reqOf s init tag = some r ∧
      r.dropped = false ∧ r.refused = false ∧ r.inPort = false ∧ nextFlit s r router = some f ∧ granted s (flits s) (hopTick s f router) f = true ∧
      netAt s s.now = s ∧ netAt s (hopTick s f router) = s ∧ s.safe.injection = none ∧ r.lost = false ∧ r.sum = none ∧ f.resp = r.answered ∧ halfFind
      find.half0 = .corrected ∧ halfFind find.half1 = .ok) ∧
    (∃ s : State, ∃ init : Nat, ∃ tag : Fin 256, ∃ r : NocReq, ∃ router : Fin 48, ∃ f : Flit, ∃ find : FlitFind, reqOf s init tag = some r ∧
      r.dropped = false ∧ r.refused = false ∧ r.inPort = false ∧ nextFlit s r router = some f ∧ granted s (flits s) (hopTick s f router) f = true ∧
      netAt s s.now = s ∧ netAt s (hopTick s f router) = s ∧ s.safe.injection = none ∧ r.lost = false ∧ r.sum = none ∧ f.resp = false ∧ r.answered =
      false ∧ f.k = 0 ∧ halfFind find.half0 = .bad ∧ halfFind find.half1 = .ok) ∧
    (∃ s : State, ∃ init : Nat, ∃ tag : Fin 256, ∃ r : NocReq, ∃ router : Fin 48, ∃ f : Flit, ∃ find : FlitFind, reqOf s init tag = some r ∧
      r.dropped = false ∧ r.refused = false ∧ r.inPort = false ∧ nextFlit s r router = some f ∧ granted s (flits s) (hopTick s f router) f = true ∧
      netAt s s.now = s ∧ netAt s (hopTick s f router) = s ∧ s.safe.injection = none ∧ r.lost = false ∧ r.sum = none ∧ f.resp = false ∧ r.answered =
      false ∧ f.k ≠ 0 ∧ r.badFlits = [] ∧ halfFind find.half0 = .ok ∧ halfFind find.half1 = .bad) ∧
    (∃ s : State, ∃ init : Nat, ∃ tag : Fin 256, ∃ r : NocReq, reqOf s init tag = some r ∧ arrive s init tag = s ∧ serveRegs init tag s = s ∧
      r.answered = true ∧ r.dropped = false ∧ ((r.refused = true ∨ r.inPort = true)) ∧ r.status = 0 ∧ r.lost = false ∧ r.owner = .fabric ∧ r.write =
      false ∧ r.sum = none ∧ portWaits s r true = false ∧ r.init < 256 ∧ s.noc.tx = [] ∧ s.rd NOC_STAT_CTRL.freeze = 0) ∧
    (∃ s : State, ∃ init : Nat, ∃ tag : Fin 256, ∃ r : NocReq, reqOf s init tag = some r ∧ arrive s init tag = s ∧ serveRegs init tag s = s ∧
      r.answered = true ∧ r.dropped = false ∧ r.refused = false ∧ r.inPort = false ∧ allThere s r true = true ∧ r.status = 0 ∧ r.lost = false ∧
      r.owner = .fabric ∧ r.write = false ∧ r.sum = none ∧ r.init < 256 ∧ portClocked s r.init = false) ∧
    (∃ s : State, ∃ init : Nat, ∃ tag : Fin 256, ∃ r : NocReq, reqOf s init tag = some r ∧ r.dropped = true ∧ r.inPort = false ∧ r.owner = .fabric ∧
      r.write = false ∧ r.len = 1 ∧ r.init < 256 ∧ portClocked s r.init = true ∧ dieOpen s 2 = true ∧ baseOpen s = true ∧ s.ctxs.lastSwap = none ∧
      s.noc.tx = []) ∧
    (∃ s : State, s.link.up = true ∧ s.rd DEV_MODE.mode ≠ 0 ∧ s.boot.coreUp = true) :=
    ⟨⟨{ dramUp with noc := { dramUp.noc with waiting := [{ dramReq with init := 5 }] } }, 5, readPacket, { dramReq with init := 5 }, [],
      by decide +kernel⟩,
     ⟨{ (dramUp.wr CLK_GCH_SEL.source 1 2) with noc := { dramUp.noc with bound := [(3, 2)] } }, 0x43, readPacket, by decide +kernel⟩,
     ⟨{ (dramUp.wr CLK_GCH_SEL.source 1 2) with noc := { dramUp.noc with bound := [(3, 2)] } }, 0x43, [headerFlit 1 0 9 0 0 6 0 0 0x1000 0 0 0 0 0],
      by decide +kernel⟩,
     ⟨{ (dramUp.wr CLK_GCH_SEL.source 1 2) with noc := { dramUp.noc with bound := [(3, 2)], reqs := List.replicate 32 dramReq } }, 0x43, readPacket,
      by decide +kernel⟩,
     ⟨{ dramUp with noc := { dramUp.noc with reqs := [{ dramReq with fwd := [] }] } }, 0x43, 6, { dramReq with fwd := [] }, 32,
      { req := { dramReq with fwd := [] }, resp := false, k := 0, hop := { at_ := 0, tick := 0 } }, by decide +kernel⟩,
     ⟨{ dramUp with noc := { dramUp.noc with reqs := [{ dramReq with write := true, data := [7], fwd := [⟨2, 0⟩, ⟨0, 0⟩] }] } }, 0x43, 6,
      { dramReq with write := true, data := [7], fwd := [⟨2, 0⟩, ⟨0, 0⟩] }, 32,
      { req := { dramReq with write := true, data := [7], fwd := [⟨2, 0⟩, ⟨0, 0⟩] }, resp := false, k := 1, hop := { at_ := 0, tick := 0 } },
      by decide +kernel⟩,
     ⟨{ dramUp with noc := { dramUp.noc with reqs := [{ dramReq with fwd := [] }] } }, 0x43, 6, { dramReq with fwd := [] }, 32,
      { req := { dramReq with fwd := [] }, resp := false, k := 0, hop := { at_ := 0, tick := 0 } }, ⟨1, 0⟩, by decide +kernel⟩,
     ⟨{ dramUp with noc := { dramUp.noc with reqs := [{ dramReq with write := true, data := [7], fwd := [⟨2, 0⟩, ⟨0, 0⟩] }] } }, 0x43, 6,
      { dramReq with write := true, data := [7], fwd := [⟨2, 0⟩, ⟨0, 0⟩] }, 32,
      { req := { dramReq with write := true, data := [7], fwd := [⟨2, 0⟩, ⟨0, 0⟩] }, resp := false, k := 1, hop := { at_ := 0, tick := 0 } }, ⟨2, 0⟩,
      by decide +kernel⟩,
     ⟨{ dramUp with noc := { dramUp.noc with reqs := [{ dramReq with fwd := [] }] } }, 0x43, 6, { dramReq with fwd := [] }, 32,
      { req := { dramReq with fwd := [] }, resp := false, k := 0, hop := { at_ := 0, tick := 0 } }, ⟨3, 0⟩, by decide +kernel⟩,
     ⟨{ dramUp with noc := { dramUp.noc with reqs := [{ dramReq with write := true, data := [7], fwd := [⟨2, 0⟩, ⟨0, 0⟩] }] } }, 0x43, 6,
      { dramReq with write := true, data := [7], fwd := [⟨2, 0⟩, ⟨0, 0⟩] }, 32,
      { req := { dramReq with write := true, data := [7], fwd := [⟨2, 0⟩, ⟨0, 0⟩] }, resp := false, k := 1, hop := { at_ := 0, tick := 0 } }, ⟨0, 3⟩,
      by decide +kernel⟩,
     ⟨{ (dramUp.wr CLK_GCH_SEL.source 1 2) with noc := { dramUp.noc with bound := [(3, 2)], reqs := [{ dramReq with answered := true, respData := [7], inPort := true }] } },
      0x43, 6, { dramReq with answered := true, respData := [7], inPort := true }, by decide +kernel⟩,
     ⟨{ dramUp with noc := { dramUp.noc with reqs := [{ dramReq with answered := true, respData := [7], back := List.replicate 2 ⟨40, 0⟩ }] } },
      0x43, 6, { dramReq with answered := true, respData := [7], back := List.replicate 2 ⟨40, 0⟩ }, by decide +kernel⟩,
     ⟨{ (dramUp.wr CLK_GCH_SEL.source 1 2) with noc := { dramUp.noc with bound := [(3, 2)], reqs := [{ dramReq with dropped := true }] } }, 0x43, 6,
      { dramReq with dropped := true }, by decide +kernel⟩,
     ⟨dramUp.wr NOC_HIST.count 9 5 3, by decide +kernel⟩⟩

/-- States and operands that meet the hypotheses of each clause of `Obligations.DramRequestsAndData`. -/
theorem test_DramRequestsAndData_met :
    (∃ s : State, ∃ init : Nat, ∃ tag : Fin 256, ∃ o : EncOp, ∃ r : NocReq, opOf s init tag = some o ∧ reqOf s init tag = some r ∧ o.stage =
      .toController ∧ o.need = [] ∧ o.sealing = false ∧ o.req.op = .read ∧ (ctrl s (ctrlOfLoc s (o.req.line * 64))).writes.any (fun q => q.line ==
      o.req.line) = false ∧ ctrlAccepts s (ctrlOfLoc s (o.req.line * 64)) = true ∧ (ctrl s (ctrlOfLoc s (o.req.line * 64))).reads.length < 64) ∧
    (∃ s : State, ∃ init : Nat, ∃ tag : Fin 256, ∃ o : EncOp, ∃ r : NocReq, opOf s init tag = some o ∧ reqOf s init tag = some r ∧ o.stage =
      .toController ∧ o.need = [] ∧ o.sealing = false ∧ o.req.op = .read ∧ o.req.init = init ∧ o.req.tag = tag ∧ r.write = false ∧ s.rd
      DRC_STATUS.state (ctrlOfLoc s (o.req.line * 64)) = drOffline) ∧
    (∃ s : State, ∃ init : Nat, ∃ tag : Fin 256, ∃ o : EncOp, ∃ r : NocReq, opOf s init tag = some o ∧ reqOf s init tag = some r ∧ o.stage =
      .toController ∧ o.need = [] ∧ o.sealing = false ∧ o.req.op = .write ∧ o.req.be = BitVec.allOnes 64 ∧ o.entry = none ∧ r.write = true ∧
      ctrlAccepts s (ctrlOfLoc s (o.req.line * 64)) = true ∧ writeRoom s (ctrlOfLoc s (o.req.line * 64)) o.req.line = true) ∧
    (∃ s : State, ∃ init : Nat, ∃ tag : Fin 256, ∃ o : EncOp, ∃ r : NocReq, opOf s init tag = some o ∧ reqOf s init tag = some r ∧ o.stage =
      .toController ∧ o.need = [] ∧ o.sealing = false ∧ o.req.op = .write ∧ o.req.be ≠ BitVec.allOnes 64 ∧ r.write = true ∧ ctrlAccepts s (ctrlOfLoc
      s (o.req.line * 64)) = true ∧ (ctrl s (ctrlOfLoc s (o.req.line * 64))).reads = [] ∧ o.req.init = init ∧ o.req.tag = tag ∧ lineHeld s o.req.line
      = false ∧ (ctrl s 0).writes = [] ∧ (ctrl s 1).writes = [] ∧ (dramLine s o.req.line).poison = false) ∧
    (∃ s : State, ∃ ctl : Fin 2, ∃ q : DramReq, ctrlAccepts s ctl = true ∧ nextRead s ctl = some q ∧ q.use = .data ∧ ctrlOfLoc s (q.line * 64) = ctl
      ∧ (ctrl s ctl).writes = [] ∧ (opOf s q.init q.tag).isSome = true) ∧
    (∃ s : State, ∃ ctl : Fin 2, ∃ q : DramReq, ∃ w : DramReq, ctrlAccepts s ctl = true ∧ nextRead s ctl = some q ∧ q.use = .data ∧ ctrlOfLoc s
      (q.line * 64) = ctl ∧ (ctrl s ctl).writes = [w] ∧ (ctrl s ctl).draining = false ∧ w.line = q.line ∧ w.since ≤ q.since ∧ (opOf s q.init
      q.tag).isSome = true) :=
    ⟨⟨dramBusy dramReq lineOp, 0x43, 6, lineOp, dramReq, by decide +kernel⟩,
     ⟨(dramBusy dramReq lineOp).wr DRC_STATUS.state drOffline, 0x43, 6, lineOp, dramReq, by decide +kernel⟩,
     ⟨dramBusy { dramReq with write := true } { lineOp with req := { lineReq with op := .write, data := 5 } }, 0x43, 6,
      { lineOp with req := { lineReq with op := .write, data := 5 } }, { dramReq with write := true }, by decide +kernel⟩,
     ⟨{ dramBusy { dramReq with write := true } { lineOp with req := { lineReq with op := .write, data := 5, be := 3 } } with dram := { dramUp.dram with lines := [(0x40, ⟨9, false⟩)] } },
      0x43, 6, { lineOp with req := { lineReq with op := .write, data := 5, be := 3 } }, { dramReq with write := true }, by decide +kernel⟩,
     ⟨{ dramBusy dramReq { lineOp with stage := .queued } with dram := { dramUp.dram with lines := [(0x40, ⟨9, true⟩)], c0 := { dramUp.dram.c0 with reads := [lineReq] } } },
      0, lineReq, by decide +kernel⟩,
     ⟨{ dramBusy dramReq { lineOp with stage := .queued } with dram := { dramUp.dram with c0 := { dramUp.dram.c0 with reads := [lineReq], writes := [{ lineReq with op := .write, data := 44 }] } } },
      0, lineReq, { lineReq with op := .write, data := 44 }, by decide +kernel⟩⟩

/-- States and operands that meet the hypotheses of each clause of `Obligations.DramMaintenance`. -/
theorem test_DramMaintenance_met :
    (∃ s : State, ∃ ctl : Fin 2, s.rd DRC_STATUS.state ctl = drActive) ∧
    (∃ s : State, ∃ ctl : Fin 2, ∃ a : Fin 4, ∃ b : Fin 4, ∃ reading : Fin 4, s.rd DRC_STATUS.state ctl = drActive ∧ s.rd DRC_STATUS.two_ranks ctl =
      0 ∧ reading.val = max a.val b.val) ∧
    (∃ s : State, ∃ ctl : Fin 2, ∃ a : Fin 4, ∃ b : Fin 4, ∃ reading : Fin 4, s.rd DRC_STATUS.state ctl = drActive ∧ s.rd DRC_STATUS.two_ranks ctl =
      0 ∧ reading.val = max a.val b.val) ∧
    (∃ s : State, ∃ ctl : Fin 2, ∃ sub : Fin 2, ∃ _crc : Bool, s.rd DRC_STATUS.state ctl = drActive ∧ ((ctrl s ctl).sub sub).alertSince = none ∧
      ((ctrl s ctl).sub sub).full = none) ∧
    (∃ s : State, ∃ ctl : Fin 2, ∃ sub : Fin 2, ∃ n : Nat, ((ctrl s ctl).sub sub).alertSince = some n ∧ s.boot.d0 = .idle) ∧
    (∃ s : State, ∃ ctl : Fin 2, ∃ sub : Fin 2, ∃ n : Nat, ((ctrl s ctl).sub sub).alertSince = some n ∧ s.boot.d0 = .idle) ∧
    (∃ s : State, ∃ ctl : Fin 2, s.link.up = true ∧ s.rd DEV_MODE.mode ≠ 0 ∧ s.boot.coreUp = true ∧ s.rd DRC_STATUS.state ctl = drActive) ∧
    (∃ s : State, ∃ ctl : Fin 2, ∃ sub : Fin 2, ∃ _g : Fin 10, ∃ r : GroupTrain, ∃ _last : Bool, s.rd DRC_STATUS.state ctl = drActive ∧ ((ctrl s
      ctl).sub sub).retrain = true ∧ ((ctrl s ctl).sub sub).quantumEnd ≠ 0 ∧ groupFails r = false ∧ s.rd DRC_STATUS.width_x8 ctl = 0) ∧
    (∃ s : State, ∃ ctl : Fin 2, ∃ g : List GroupTrain, ∃ n : Nat, (ctrl s ctl).sub0.full = some n ∧ g.any groupFails = true ∧ s.rd
      ENC_REGION_CFG.enable 31 = 0 ∧ (ctrl s ctl).reads = [] ∧ (ctrl s ctl).writes = []) ∧
    (∃ s : State, ∃ ctl : Fin 2, ∃ g : List GroupTrain, ∃ n : Nat, (ctrl s ctl).sub0.full = some n ∧ g.any groupFails = false) ∧
    (∃ s : State, ∃ ctl : Fin 2, ∃ e : Fin 32, s.link.up = true ∧ s.rd DEV_MODE.mode ≠ 0 ∧ s.boot.coreUp = true ∧ s.rd DRC_STATUS.state ctl =
      drActive ∧ s.rd DRC_ELOG_LO.in_use ctl e = 1 ∧ sparseGet false (ctrl s ctl).lasted e = true ∧ resourceFree s ctl e = true ∧ (ctrl s ctl).repair
      = none) ∧
    (∃ s : State, ∃ ctl : Fin 2, ∃ e : Fin 32, s.link.up = true ∧ s.rd DEV_MODE.mode ≠ 0 ∧ s.boot.coreUp = true ∧ sparseGet false (ctrl s ctl).lasted
      e = false) ∧
    (∃ s : State, ∃ ctl : Fin 2, ∃ e : Nat, ∃ r : RowAddr, (ctrl s ctl).repair = some (e, r) ∧ (ctrl s ctl).repairQ = [] ∧ s.boot.d0 = .idle ∧
      entryRow s ctl e = r) ∧
    (∃ s : State, ∃ ctl : Fin 2, ∃ e : Nat, ∃ r : RowAddr, ∃ _bad : List (Fin 128), (ctrl s ctl).repair = some (e, r) ∧ (ctrl s ctl).repairQ = [] ∧
      s.boot.d0 = .idle) :=
    ⟨⟨dramUp, 0, by decide +kernel⟩,
     ⟨dramUp, 0, 1, 0, 1, by decide +kernel⟩,
     ⟨dramUp, 0, 2, 3, 3, by decide +kernel⟩,
     ⟨dramUp, 0, 1, true, by decide +kernel⟩,
     ⟨{ dramUp with dram := { dramUp.dram with c0 := { dramUp.dram.c0 with sub1 := { retry := [], alertSince := some 5, alertEnd := none, alertRun := 1, alertCrc := false, full := none, retrain := false, quantumEnd := 0 } } } },
      0, 1, 5, by decide +kernel⟩,
     ⟨{ dramUp with dram := { dramUp.dram with c0 := { dramUp.dram.c0 with sub1 := { retry := [], alertSince := some 5, alertEnd := none, alertRun := 3, alertCrc := false, full := none, retrain := false, quantumEnd := 0 } } } },
      0, 1, 5, by decide +kernel⟩,
     ⟨dramUp, 0, by decide +kernel⟩,
     ⟨{ dramUp with dram := { dramUp.dram with c0 := { dramUp.dram.c0 with sub1 := { retry := [], alertSince := none, alertEnd := none, alertRun := 0, alertCrc := false, full := none, retrain := true, quantumEnd := 7 } } } },
      0, 1, 4, { rd := 0xFFFFF00, wr := 0x1FFFFF }, true, by decide +kernel⟩,
     ⟨{ dramUp with dram := { dramUp.dram with c0 := { dramUp.dram.c0 with sub0 := { retry := [], alertSince := none, alertEnd := none, alertRun := 3, alertCrc := false, full := some 3, retrain := false, quantumEnd := 0 } } } },
      0, [{ rd := 0, wr := 0x1FFFFF }], 3, by decide +kernel⟩,
     ⟨{ dramUp with dram := { dramUp.dram with c0 := { dramUp.dram.c0 with sub0 := { retry := [], alertSince := none, alertEnd := none, alertRun := 3, alertCrc := false, full := some 3, retrain := false, quantumEnd := 0 } } } },
      0, List.replicate 10 { rd := 0x1FFFF, wr := 0x1FFFFF }, 3, by decide +kernel⟩,
     ⟨{ dramUp.wr DRC_ELOG_LO.in_use 1 0 5 with dram := { dramUp.dram with c0 := { dramUp.dram.c0 with lasted := [(5, true)] } } }, 0, 5,
      by decide +kernel⟩,
     ⟨dramUp, 0, 5, by decide +kernel⟩,
     ⟨{ dramUp.wr DRC_ELOG_LO.in_use 1 0 5 with dram := { dramUp.dram with c0 := { dramUp.dram.c0 with repair := some (5, entryRow dramUp 0 5) } } },
      0, 5, entryRow dramUp 0 5, by decide +kernel⟩,
     ⟨{ dramUp.wr DRC_ELOG_LO.in_use 1 0 5 with dram := { dramUp.dram with c0 := { dramUp.dram.c0 with repair := some (5, entryRow dramUp 0 5) } } },
      0, 5, entryRow dramUp 0 5, [3], by decide +kernel⟩⟩

/-- States and operands that meet the hypotheses of each clause of `Obligations.RegionsAreConfigured`. -/
theorem test_RegionsAreConfigured_met :
    (∃ s : State, ∃ region : Fin 32, ∃ value : Word, s.link.up = true ∧ s.rd DEV_MODE.mode ≠ 0 ∧ s.boot.coreUp = true ∧ region ≠ 31 ∧ s.rd
      ENC_CTRL.lock = 0 ∧ s.rd ENC_REGION_CFG.enable region = 0 ∧ bits value.toNat 1 2 = moPlain ∧ (regionError ((s.wr ENC_REGION_CFG.mode (bits
      value.toNat 1 2) region).wr ENC_REGION_CFG.key_id (bits value.toNat 8 6) region) region (bits value.toNat 1 2) (bits value.toNat 8 6) (bits
      value.toNat 3 5 != 0 || bits value.toNat 14 18 != 0) = 0)) ∧
    (∃ s : State, ∃ region : Fin 32, ∃ value : Word, s.link.up = true ∧ s.rd DEV_MODE.mode ≠ 0 ∧ s.boot.coreUp = true ∧ region ≠ 31 ∧ s.rd
      ENC_CTRL.lock = 0 ∧ s.rd ENC_REGION_CFG.enable region = 0 ∧ bits value.toNat 1 2 ≠ moPlain ∧ s.enc.sweeps = [] ∧ (regionError ((s.wr
      ENC_REGION_CFG.mode (bits value.toNat 1 2) region).wr ENC_REGION_CFG.key_id (bits value.toNat 8 6) region) region (bits value.toNat 1 2) (bits
      value.toNat 8 6) (bits value.toNat 3 5 != 0 || bits value.toNat 14 18 != 0) = 0)) ∧
    (∃ s : State, ∃ region : Fin 32, ∃ value : Word, s.link.up = true ∧ s.rd DEV_MODE.mode ≠ 0 ∧ s.boot.coreUp = true ∧ region ≠ 31 ∧ s.rd
      ENC_CTRL.lock = 0 ∧ s.rd ENC_REGION_CFG.enable region = 0 ∧ (regionError ((s.wr ENC_REGION_CFG.mode (bits value.toNat 1 2) region).wr
      ENC_REGION_CFG.key_id (bits value.toNat 8 6) region) region (bits value.toNat 1 2) (bits value.toNat 8 6) (bits value.toNat 3 5 != 0 || bits
      value.toNat 14 18 != 0) ≠ 0)) ∧
    (∃ s : State, ∃ region : Fin 32, ∃ _value : Word, s.link.up = true ∧ s.rd DEV_MODE.mode ≠ 0 ∧ s.boot.coreUp = true ∧ region ≠ 31 ∧ (s.rd
      ENC_CTRL.lock = 1 ∨ s.rd ENC_REGION_CFG.enable region = 1)) ∧
    (∃ s : State, ∃ region : Fin 32, ∃ _value : Word, s.link.up = true ∧ s.rd DEV_MODE.mode ≠ 0 ∧ s.boot.coreUp = true ∧ region ≠ 31 ∧ (s.rd
      ENC_CTRL.lock = 1 ∨ s.rd ENC_REGION_CFG.enable region = 1)) ∧
    (∃ s : State, ∃ region : Fin 32, ∃ _value : Word, s.link.up = true ∧ s.rd DEV_MODE.mode ≠ 0 ∧ s.boot.coreUp = true ∧ region ≠ 31 ∧ s.rd
      ENC_CTRL.lock = 0 ∧ s.rd ENC_REGION_CFG.enable region = 1 ∧ hasSweep s region = false) ∧
    (∃ s : State, ∃ region : Fin 32, ∃ _value : Word, s.link.up = true ∧ s.rd DEV_MODE.mode ≠ 0 ∧ s.boot.coreUp = true ∧ region ≠ 31 ∧ s.rd
      ENC_CTRL.lock = 0 ∧ s.rd ENC_REGION_CFG.enable region = 1 ∧ hasSweep s region = true) ∧
    (∃ s : State, s.link.up = true ∧ s.rd DEV_MODE.mode ≠ 0 ∧ s.boot.coreUp = true) :=
    ⟨⟨((dramUp.wr ENC_REGION_BASE.base 16 2).wr ENC_REGION_LIMIT.limit 17 2), 2, 1, by decide +kernel⟩,
     ⟨((dramUp.wr ENC_REGION_BASE.base 16 2).wr ENC_REGION_LIMIT.limit 17 2).wr ENC_KEY_STATE.state 4, 2, 0x103, by decide +kernel⟩,
     ⟨((dramUp.wr ENC_REGION_BASE.base 16 2).wr ENC_REGION_LIMIT.limit 17 2), 2, 3, by decide +kernel⟩,
     ⟨((dramUp.wr ENC_REGION_BASE.base 16 2).wr ENC_REGION_LIMIT.limit 17 2).wr ENC_CTRL.lock 1, 2, 3, by decide +kernel⟩,
     ⟨((dramUp.wr ENC_REGION_BASE.base 16 2).wr ENC_REGION_LIMIT.limit 17 2).wr ENC_REGION_CFG.enable 1 2, 2, 3, by decide +kernel⟩,
     ⟨((dramUp.wr ENC_REGION_BASE.base 16 2).wr ENC_REGION_LIMIT.limit 17 2).wr ENC_REGION_CFG.enable 1 2, 2, 0, by decide +kernel⟩,
     ⟨{ ((dramUp.wr ENC_REGION_BASE.base 16 2).wr ENC_REGION_LIMIT.limit 17 2).wr ENC_REGION_CFG.enable 1 2 with enc := { dramUp.enc with sweeps := [{ region := 2, kind := .init, oldKey := 0, oldEpoch := 0, due := 0 }] } },
      2, 0, by decide +kernel⟩,
     ⟨dramUp, by decide +kernel⟩⟩

/-- States and operands that meet the hypotheses of each clause of `Obligations.EncryptionEngineServesLines`. -/
theorem test_EncryptionEngineServesLines_met :
    (∃ s : State, ∃ init : Nat, ∃ tag : Fin 256, ∃ r : NocReq, ∃ _metadata : MetaFind, reqOf s init tag = some r ∧ opOf s init tag = none ∧ servable
      s r = true ∧ targetOf (locOf r.pa + 64 * r.done) = .dram ∧ s.enc.ops = [] ∧ r.badFlits = [] ∧ arrive s init tag = s ∧ lineBusy s ((locOf r.pa +
      64 * r.done) / 64) = false ∧ resolve s r (locOf r.pa + 64 * r.done) = .deny) ∧
    (∃ s : State, ∃ init : Nat, ∃ tag : Fin 256, ∃ r : NocReq, ∃ _metadata : MetaFind, reqOf s init tag = some r ∧ opOf s init tag = none ∧ servable
      s r = true ∧ targetOf (locOf r.pa + 64 * r.done) = .dram ∧ s.enc.ops = [] ∧ r.badFlits = [] ∧ arrive s init tag = s ∧ lineBusy s ((locOf r.pa +
      64 * r.done) / 64) = false ∧ r.write = false ∧ resolve s r (locOf r.pa + 64 * r.done) = .plain) ∧
    (∃ s : State, ∃ init : Nat, ∃ tag : Fin 256, ∃ r : NocReq, ∃ _metadata : MetaFind, ∃ n : Nat, ∃ key : Nat, reqOf s init tag = some r ∧ opOf s
      init tag = none ∧ servable s r = true ∧ targetOf (locOf r.pa + 64 * r.done) = .dram ∧ s.enc.ops = [] ∧ r.badFlits = [] ∧ arrive s init tag = s
      ∧ lineBusy s ((locOf r.pa + 64 * r.done) / 64) = false ∧ r.write = false ∧ resolve s r (locOf r.pa + 64 * r.done) = .region n key false ∧
      rgIntegrity s n = false) ∧
    (∃ s : State, ∃ init : Nat, ∃ tag : Fin 256, ∃ r : NocReq, ∃ o : EncOp, ∃ d : Line, reqOf s init tag = some r ∧ opOf s init tag = some o ∧
      r.write = false ∧ o.stage = .returned 0 d ∧ o.need = [] ∧ o.stored = false ∧ o.region = none) ∧
    (∃ s : State, ∃ init : Nat, ∃ tag : Fin 256, ∃ r : NocReq, ∃ o : EncOp, ∃ d : Line, ∃ n : Nat, reqOf s init tag = some r ∧ opOf s init tag = some
      o ∧ r.write = false ∧ o.stage = .returned 0 d ∧ o.need = [] ∧ o.stored = false ∧ o.merge = false ∧ o.region = some n ∧ rgMode s n = moXts) ∧
    (∃ s : State, ∃ init : Nat, ∃ tag : Fin 256, ∃ r : NocReq, ∃ o : EncOp, ∃ d : Line, ∃ n : Nat, reqOf s init tag = some r ∧ opOf s init tag = some
      o ∧ r.write = false ∧ o.stage = .returned 0 d ∧ o.need = [] ∧ o.stored = false ∧ o.region = some n ∧ rgIntegrity s n = true) ∧
    (∃ s : State, ∃ _f : LineFind, ∃ _m : MetaFind, ∃ w : Sweep, ∃ rest : List Sweep, s.enc.sweeps = w :: rest ∧ w.kind = .init ∧ nocRunning s = true
      ∧ w.region < 32 ∧ w.work = none ∧ ctrlAccepts s (ctrlOfLoc s ((rgBase s w.region * 64 + s.rd ENC_REGION_PROGRESS.line w.region) * 64)) = true ∧
      lineBusy s (rgBase s w.region * 64 + s.rd ENC_REGION_PROGRESS.line w.region) = false ∧ s.enc.cache = [] ∧ (ctrl s (ctrlOfLoc s ((rgBase s
      w.region * 64 + s.rd ENC_REGION_PROGRESS.line w.region) * 64))).writes = [] ∧ s.rd ENC_REGION_PROGRESS.line w.region + 1 < rgLines s w.region)
      ∧
    (∃ s : State, ∃ _f : LineFind, ∃ _m : MetaFind, ∃ w : Sweep, s.enc.sweeps = [w] ∧ w.kind = .init ∧ nocRunning s = true ∧ w.region < 32 ∧ w.work =
      none ∧ ctrlAccepts s (ctrlOfLoc s ((rgBase s w.region * 64 + s.rd ENC_REGION_PROGRESS.line w.region) * 64)) = true ∧ lineBusy s (rgBase s
      w.region * 64 + s.rd ENC_REGION_PROGRESS.line w.region) = false ∧ s.enc.cache = [] ∧ (ctrl s (ctrlOfLoc s ((rgBase s w.region * 64 + s.rd
      ENC_REGION_PROGRESS.line w.region) * 64))).writes = [] ∧ rgLines s w.region = s.rd ENC_REGION_PROGRESS.line w.region + 1) :=
    ⟨⟨{ dramUp with noc := { dramUp.noc with reqs := [{ dramReq with kidValid := true, kid := 5 }] } }, 0x43, 6,
      { dramReq with kidValid := true, kid := 5 }, {}, by decide +kernel⟩,
     ⟨{ dramUp.wr ENC_RIGHTS.rights 0xFFFF with noc := { dramUp.noc with reqs := [dramReq] } }, 0x43, 6, dramReq, {}, by decide +kernel⟩,
     ⟨{ (((((dramUp.wr ENC_REGION_LIMIT.limit 17 2).wr ENC_REGION_CFG.enable 1 2).wr ENC_REGION_CFG.mode 1 2).wr ENC_REGION_CFG.key_id 3 2).wr ENC_KEY_STATE.state 64).wr ENC_REGION_STATUS.state rsActive 2 |>.wr ENC_RIGHTS.rights 0xAAAA 3 with noc := { dramUp.noc with reqs := [dramReq] } },
      0x43, 6, dramReq, {}, 2, 3, by decide +kernel⟩,
     ⟨dramBusy dramReq { lineOp with stage := .returned 0 77 }, 0x43, 6, dramReq, { lineOp with stage := .returned 0 77 }, 77, by decide +kernel⟩,
     ⟨(dramBusy dramReq { lineOp with stage := .returned 0 77, region := some 2 }).wr ENC_REGION_CFG.mode 1 2, 0x43, 6, dramReq,
      { lineOp with stage := .returned 0 77, region := some 2 }, 77, 2, by decide +kernel⟩,
     ⟨(dramBusy dramReq { lineOp with stage := .returned 0 77, region := some 2 }).wr ENC_REGION_CFG.mode 2 2, 0x43, 6, dramReq,
      { lineOp with stage := .returned 0 77, region := some 2 }, 77, 2, by decide +kernel⟩,
     ⟨{ ((((dramUp.wr ENC_REGION_BASE.base 16 2).wr ENC_REGION_LIMIT.limit 17 2).wr ENC_REGION_CFG.enable 1 2).wr ENC_REGION_CFG.mode 2 2).wr ENC_REGION_PROGRESS.line 5 2 with enc := { dramUp.enc with sweeps := [{ region := 2, kind := .init, oldKey := 0, oldEpoch := 0, due := 9 }] } },
      {}, {}, { region := 2, kind := .init, oldKey := 0, oldEpoch := 0, due := 9 }, [], by decide +kernel⟩,
     ⟨{ ((((dramUp.wr ENC_REGION_BASE.base 16 2).wr ENC_REGION_LIMIT.limit 17 2).wr ENC_REGION_CFG.enable 1 2).wr ENC_REGION_CFG.mode 2 2).wr ENC_REGION_PROGRESS.line 127 2 with enc := { dramUp.enc with sweeps := [{ region := 2, kind := .init, oldKey := 0, oldEpoch := 0, due := 9 }] } },
      {}, {}, { region := 2, kind := .init, oldKey := 0, oldEpoch := 0, due := 9 }, by decide +kernel⟩⟩

/-- States and operands that meet the hypotheses of each clause of `Obligations.OwnerRecordsAreFused`. -/
theorem test_OwnerRecordsAreFused_met :
    (∃ s : State, ∃ confirm : Byte, ∃ d : List Byte, s.link.up = true ∧ s.rd DEV_MODE.mode ≠ 0 ∧ s.boot.coreUp = true ∧ s.sec.ops = [] ∧ confirm =
      0x5A ∧ s.rd SEC_OWNER_CTRL.busy = 0 ∧ porterUp s = true ∧ field d 6 1 = okProgram) ∧
    (∃ s : State, ∃ confirm : Byte, ∃ d : List Byte, s.link.up = true ∧ s.rd DEV_MODE.mode ≠ 0 ∧ s.boot.coreUp = true ∧ s.sec.ops = [] ∧ confirm =
      0x5A ∧ s.rd SEC_OWNER_CTRL.busy = 0 ∧ porterUp s = true ∧ field d 6 1 = okRevoke ∧ s.rd SEC_STATUS.debug_open = 0 ∧ s.sec.expires = none) ∧
    (∃ s : State, ∃ confirm : Byte, ∃ d : List Byte, s.link.up = true ∧ s.rd DEV_MODE.mode ≠ 0 ∧ s.boot.coreUp = true ∧ s.sec.ops = [] ∧ confirm =
      0x5A ∧ s.rd SEC_OWNER_CTRL.busy = 0 ∧ porterUp s = true ∧ field d 6 1 = okDisable) ∧
    (∃ s : State, ∃ confirm : Byte, ∃ _d : Option (List Byte), ∃ _cut : Bool, confirm ≠ 0x5A ∧ s.link.up = true ∧ s.rd DEV_MODE.mode ≠ 0 ∧
      s.boot.coreUp = true) ∧
    (∃ s : State, ∃ confirm : Byte, ∃ _cut : Bool, s.link.up = true ∧ s.rd DEV_MODE.mode ≠ 0 ∧ s.boot.coreUp = true ∧ s.sec.ops = [] ∧ confirm = 0x5A
      ∧ s.rd SEC_OWNER_CTRL.busy = 0 ∧ porterUp s = true ∧ s.rd DEV_MODE.mode = modeRun) :=
    ⟨⟨runIn modeService, 0x5A, [0, 0, 0, 0, 0, 0, 1], by decide +kernel⟩,
     ⟨runIn modeService, 0x5A, [0, 0, 0, 0, 0, 0, 2], by decide +kernel⟩,
     ⟨runIn modeService, 0x5A, [0, 0, 0, 0, 0, 0, 3], by decide +kernel⟩,
     ⟨runIn modeService, 0, none, false, by decide +kernel⟩,
     ⟨runIn modeRun, 0x5A, false, by decide +kernel⟩⟩

/-- States and operands that meet the hypotheses of each clause of `Obligations.DebugSessionsAttestationAndKeys`. -/
theorem test_DebugSessionsAttestationAndKeys_met :
    (∃ s : State, ∃ n : Nat, s.sec.expires = some n ∧ s.link.tracks = []) ∧
    (∃ s : State, ∃ id : Nat, ∃ u : Track, ∃ n : Nat, Startable s id 0x71 u ∧ (u.par 0x1C 1).testBit 0 = true ∧ u.par 0x10 8 = 0 ∧ u.par 0x18 4 = 0 ∧
      s.sec.expires = some n ∧ s.sec.ops = [] ∧ s.link.tracks = [u]) ∧
    (∃ s : State, ∃ id : Nat, ∃ u : Track, Startable s id 0x71 u ∧ (u.par 0x1C 1).testBit 0 = false ∧ s.sec.ops = [] ∧ u.par 0x10 8 % 8 = 0 ∧ u.par
      0x18 4 = 5421) ∧
    (∃ s : State, ∃ id : Nat, ∃ u : Track, Startable s id 0x70 u ∧ (u.par 0x1C 1).testBit 0 = false ∧ s.sec.ops = [] ∧ s.link.up = true ∧ u.par 0x10
      8 % 8 = 0 ∧ 4128 ≤ u.par 0x18 4) ∧
    (∃ s : State, ∃ id : Nat, ∃ u : Track, Startable s id 0x30 u ∧ u.par 0x10 1 ≠ 0 ∧ u.par 0x10 1 ≤ 62 ∧ (u.par 0x11 1).testBit 0 = true ∧ u.par
      0x18 8 = 0 ∧ u.par 0x20 4 = 0 ∧ slotInUse s (u.par 0x10 1) = false) ∧
    (∃ s : State, ∃ id : Nat, ∃ u : Track, Startable s id 0x31 u ∧ u.par 0x10 1 ≠ 0 ∧ u.par 0x10 1 ≤ 62 ∧ slotInUse s (u.par 0x10 1) = false) ∧
    (∃ s : State, ∃ id : Nat, ∃ u : Track, Startable s id 0x31 u ∧ u.par 0x10 1 ≠ 0 ∧ u.par 0x10 1 ≤ 62 ∧ slotInUse s (u.par 0x10 1) = true) ∧
    (∃ s : State, ∃ id : Nat, ∃ u : Track, Startable s id 0x32 u ∧ u.par 0x11 1 ≠ 0 ∧ u.par 0x11 1 ≤ 63 ∧ u.par 0x10 1 ≤ 30 ∧ rgEnabled s (u.par 0x10
      1) = true ∧ rgMode s (u.par 0x10 1) ≠ moPlain ∧ s.enc.sweeps = [] ∧ slotState s (u.par 0x11 1) = 1) :=
    ⟨⟨{ runIn modeRun with sec := { State.reset.sec with expires := some 500 } }, 500, by decide +kernel⟩,
     ⟨{ tracking (runIn modeRun) (cmd 0x71 (BitVec.ofNat 512 (2 ^ 224))) with sec := { State.reset.sec with expires := some 500 } }, 7, cmd 0x71
      (BitVec.ofNat 512 (2 ^ 224)), 500, by decide +kernel⟩,
     ⟨tracking (runIn modeRun) (cmd 0x71 (BitVec.ofNat 512 (5421 * 2 ^ 192 + 64 * 2 ^ 128))), 7, cmd 0x71 (BitVec.ofNat 512 (5421 * 2 ^ 192 + 64 * 2
      ^ 128)), by decide +kernel⟩,
     ⟨tracking (runIn modeRun) (cmd 0x70 (BitVec.ofNat 512 (5421 * 2 ^ 192 + 64 * 2 ^ 128))), 7, cmd 0x70 (BitVec.ofNat 512 (5421 * 2 ^ 192 + 64 * 2
      ^ 128)), by decide +kernel⟩,
     ⟨tracking (runIn modeRun) (cmd 0x30 (BitVec.ofNat 512 (5 * 2 ^ 128 + 1 * 2 ^ 136))), 7, cmd 0x30 (BitVec.ofNat 512 (5 * 2 ^ 128 + 1 * 2 ^ 136)),
      by decide +kernel⟩,
     ⟨tracking (runIn modeRun) (cmd 0x31 (BitVec.ofNat 512 (5 * 2 ^ 128))), 7, cmd 0x31 (BitVec.ofNat 512 (5 * 2 ^ 128)), by decide +kernel⟩,
     ⟨{ tracking ((((runIn modeRun).wr ENC_REGION_CFG.enable 1 2).wr ENC_REGION_CFG.mode 1 2).wr ENC_REGION_CFG.key_id 5 2) (cmd 0x31 (BitVec.ofNat 512 (5 * 2 ^ 128))) with now := 1 },
      7, cmd 0x31 (BitVec.ofNat 512 (5 * 2 ^ 128)), by decide +kernel⟩,
     ⟨{ tracking (((((runIn modeRun).wr ENC_REGION_CFG.enable 1 2).wr ENC_REGION_CFG.mode 1 2).wr ENC_REGION_CFG.key_id 5 2).wr ENC_KEY_STATE.state 0x1000) (cmd 0x32 (BitVec.ofNat 512 (2 * 2 ^ 128 + 6 * 2 ^ 136))) with now := 1 },
      7, cmd 0x32 (BitVec.ofNat 512 (2 * 2 ^ 128 + 6 * 2 ^ 136)), by decide +kernel⟩⟩

/-- States and operands that meet the hypotheses of each clause of `Obligations.ImageLoadsStream`. -/
theorem test_ImageLoadsStream_met :
    (∃ s : State, ∃ id : Nat, ∃ u : Track, Startable s id 0x10 u ∧ u.par 0x1C 1 ≤ 7 ∧ u.par 0x10 8 % 8 = 0 ∧ s.rd CFG_RETAIN_STATUS.store_lost = 0 ∧
      s.imgs.load = none ∧ 0x400 + sigBlock ≤ u.par 0x18 4) ∧
    (∃ s : State, ∃ id : Nat, ∃ u : Track, Startable s id 0x11 u ∧ u.par 0x1C 1 ≤ 7 ∧ u.par 0x10 8 % 8 = 0 ∧ s.rd CFG_RETAIN_STATUS.store_lost = 0 ∧
      s.imgs.load = none ∧ 0x400 + sigBlock ≤ u.par 0x18 4) ∧
    (∃ s : State, ∃ id : Nat, ∃ u : Track, ∃ l : Load, Startable s id 0x10 u ∧ u.par 0x1C 1 ≤ 7 ∧ u.par 0x10 8 % 8 = 0 ∧ s.rd
      CFG_RETAIN_STATUS.store_lost = 0 ∧ s.imgs.load = some l) ∧
    (∃ s : State, ∃ l : Load, ∃ g : Seg, ∃ dict : Seg, s.pair.prepared = none ∧ s.imgs.load = some l ∧ loadPhase s = phStreaming ∧ dieOpen s 2 = true
      ∧ dieOpen s 3 = true ∧ l.isPartial = false ∧ (segs l.head)[l.seg]? = some g ∧ g.type = 2 ∧ l.items ≠ g.count ∧ g.off + l.at_ + 4 ≤
      l.plain.length ∧ segOf l.head 1 = some dict ∧ field l.plain (g.off + l.at_) 4 < dict.count ∧ dict.count ≤ 228352 ∧ l.pos < 225280 ∧ dict.off +
      128 * (field l.plain (g.off + l.at_) 4 + 1) ≤ l.plain.length) ∧
    (∃ s : State, ∃ l : Load, ∃ g : Seg, ∃ d : Frame, s.pair.prepared = none ∧ s.imgs.load = some l ∧ loadPhase s = phStreaming ∧ dieOpen s 2 = true
      ∧ dieOpen s 3 = true ∧ l.isPartial = false ∧ (segs l.head)[l.seg]? = some g ∧ g.type = 2 ∧ l.items ≠ g.count ∧ g.off + l.at_ + 4 ≤
      l.plain.length ∧ field l.plain (g.off + l.at_) 4 = 0x40000001 ∧ l.last = some d ∧ l.pos < 225280) ∧
    (∃ s : State, ∃ l : Load, ∃ g : Seg, ∃ d : Frame, s.pair.prepared = none ∧ s.imgs.load = some l ∧ loadPhase s = phStreaming ∧ dieOpen s 2 = true
      ∧ dieOpen s 3 = true ∧ l.isPartial = true ∧ (segs l.head)[l.seg]? = some g ∧ g.type = 2 ∧ l.items ≠ g.count ∧ g.off + l.at_ + 4 ≤
      l.plain.length ∧ field l.plain (g.off + l.at_) 4 = 0x40000001 ∧ l.last = some d ∧ l.pos < 225280 ∧ frameAllowed l.head l.pos = false ∧ underWay
      s l.id = true) ∧
    (∃ s : State, ∃ l : Load, s.pair.prepared = none ∧ s.imgs.load = some l ∧ loadPhase s = phStreaming ∧ l.stream.length + 0x400 = hdStored l.head +
      sigBlock ∧ hdSegs l.head ≤ l.seg ∧ indexOk l = true ∧ underWay s l.id = true) :=
    ⟨⟨tracking (runIn modeRun) (cmd 0x10 (BitVec.ofNat 512 (3 * 2 ^ 224 + 9000 * 2 ^ 192 + 64 * 2 ^ 128))), 7, cmd 0x10 (BitVec.ofNat 512 (3 * 2 ^
      224 + 9000 * 2 ^ 192 + 64 * 2 ^ 128)), by decide +kernel⟩,
     ⟨tracking (runIn modeRun) (cmd 0x11 (BitVec.ofNat 512 (3 * 2 ^ 224 + 9000 * 2 ^ 192 + 64 * 2 ^ 128))), 7, cmd 0x11 (BitVec.ofNat 512 (3 * 2 ^
      224 + 9000 * 2 ^ 192 + 64 * 2 ^ 128)), by decide +kernel⟩,
     ⟨{ tracking (runIn modeRun) (cmd 0x10 (BitVec.ofNat 512 (64 * 2 ^ 128))) with imgs := { State.reset.imgs with load := some (loadOf [] []) } },
      7, cmd 0x10 (BitVec.ofNat 512 (64 * 2 ^ 128)), loadOf [] [], by decide +kernel⟩,
     ⟨loading phStreaming (loadOf (headOf [(2, 136, 8, 2), (1, 0, 128, 1)]) (List.replicate 128 7 ++ List.replicate 8 0 ++ [0, 0, 0, 0, 2, 0, 0,
      0x40])), loadOf (headOf [(2, 136, 8, 2), (1, 0, 128, 1)]) (List.replicate 128 7 ++ List.replicate 8 0 ++ [0, 0, 0, 0, 2, 0, 0, 0x40]), ⟨2, 136,
      8, 2⟩, ⟨1, 0, 128, 1⟩, by decide +kernel⟩,
     ⟨loading phStreaming { loadOf (headOf [(2, 0, 8, 2)]) [1, 0, 0, 0x40] with last := some 99, pos := 5 },
      { loadOf (headOf [(2, 0, 8, 2)]) [1, 0, 0, 0x40] with last := some 99, pos := 5 }, ⟨2, 0, 8, 2⟩, 99, by decide +kernel⟩,
     ⟨loading phStreaming { loadOf (headOf [(2, 0, 8, 2)]) [1, 0, 0, 0x40] with last := some 99, pos := 5, isPartial := true },
      { loadOf (headOf [(2, 0, 8, 2)]) [1, 0, 0, 0x40] with last := some 99, pos := 5, isPartial := true }, ⟨2, 0, 8, 2⟩, 99, by decide +kernel⟩,
     ⟨loading phStreaming { loadOf (headOf [(4, 0, 0, 0)]) [] with seg := 1, stream := List.replicate 4336 0 },
      { loadOf (headOf [(4, 0, 0, 0)]) [] with seg := 1, stream := List.replicate 4336 0 },
      rfl, rfl, by decide +kernel, by simp only [loadOf, List.length_replicate]; decide +kernel, by decide +kernel, by decide +kernel, by decide +kernel⟩⟩

/-- States and operands that meet the hypotheses of each clause of `Obligations.PlanesRemapAndSnapshots`. -/
theorem test_PlanesRemapAndSnapshots_met :
    (∃ s : State, ∃ l : Load, s.imgs.load = some l ∧ loadPhase s = phCopying ∧ l.ctx < 8) ∧
    (∃ s : State, ∃ l : Load, ∃ u : Track, s.pair.prepared = none ∧ s.imgs.load = some l ∧ l.verified = true ∧ l.ctx < 8 ∧ s.ctxs.wb = none ∧ dieOpen
      s 2 = true ∧ dieOpen s 3 = true ∧ s.rdb CFG_RETAIN_STATUS.store_lost = false ∧ l.progs = [] ∧ trackOf s l.id = some u ∧ u.phase = .started ∧
      u.pair = none ∧ activeCtx s ≠ some l.ctx ∧ s.ctxs.staging = none ∧ s.rd CFG_LATCH_STATUS.staged_state = stEmpty) ∧
    (∃ s : State, ∃ id : Nat, ∃ u : Track, Startable s id 0x16 u ∧ u.par 0x10 1 ≤ u.par 0x12 1 ∧ u.par 0x11 1 ≤ u.par 0x13 1 ∧ u.par 0x12 1 ≤ 63 ∧
      u.par 0x13 1 ≤ 79 ∧ 64 * snapTiles u ≤ u.par 0x20 4 ∧ u.par 0x18 8 % 8 = 0 ∧ (u.par 0x14 1).testBit 0 = true ∧ u.par 0x28 12 = 0 ∧
      s.sec.expires.isSome = true ∧ bit (s.rd SEC_STATUS.grants) 0 = true ∧ observable s = true) ∧
    (∃ s : State, ∃ id : Nat, ∃ u : Track, Startable s id 0x16 u ∧ u.par 0x10 1 ≤ u.par 0x12 1 ∧ u.par 0x11 1 ≤ u.par 0x13 1 ∧ u.par 0x12 1 ≤ 63 ∧
      u.par 0x13 1 ≤ 79 ∧ 64 * snapTiles u ≤ u.par 0x20 4 ∧ u.par 0x18 8 % 8 = 0 ∧ (u.par 0x14 1).testBit 0 = true ∧ u.par 0x28 12 = 0 ∧
      s.sec.expires = none) ∧
    (∃ s : State, ∃ id : Nat, ∃ u : Track, ∃ values : List (BitVec 512), trackOf s id = some u ∧ u.op = 0x16 ∧ u.phase = .started ∧ u.committed =
      false ∧ values.length = snapTiles u ∧ u.par 0x12 1 ≤ 63 ∧ (u.par 0x14 1).testBit 0 = true ∧ observable s = true ∧ dieOpen s 2 = true ∧ porterUp
      s = true ∧ s.link.up = true ∧ moversIssue s = true ∧ (freeMover s).isSome = true ∧ ((∀ v ∈ s.link.tracks, v.op = 0x16 → v.committed = true →
      v.phase ≠ .started))) :=
    ⟨⟨{ loading phCopying (loadOf [] []) with ctxs := { Contexts.start with planes := [(planeKey 3 5, 1), (planeKey 3 9, 2), (planeKey 8 1, 4)] } },
      loadOf [] [], by decide +kernel⟩,
     ⟨{ loading phPrograms { loadOf [] [] with verified := true } with ctxs := { Contexts.start with planes := [(planeKey 3 5, 1), (planeKey 4 9, 2), (planeKey 8 1, 4)] } },
      { loadOf [] [] with verified := true }, begun 0x10 0, by decide +kernel⟩,
     ⟨{ ((((tracking (runIn modeRun) (cmd 0x16 (BitVec.ofNat 512 (1 * 2 ^ 160 + 64 * 2 ^ 192 + 64 * 2 ^ 256)))).wr CFG_LATCH_STATUS.active_valid 1).wr CFG_CTX_IMAGE.debug_observe 1).wr SEC_STATUS.grants 1) with sec := { State.reset.sec with expires := some 100000000 } },
      7, cmd 0x16 (BitVec.ofNat 512 (1 * 2 ^ 160 + 64 * 2 ^ 192 + 64 * 2 ^ 256)), by decide +kernel⟩,
     ⟨tracking (runIn modeRun) (cmd 0x16 (BitVec.ofNat 512 (1 * 2 ^ 160 + 64 * 2 ^ 192 + 64 * 2 ^ 256))), 7, cmd 0x16 (BitVec.ofNat 512 (1 * 2 ^ 160
      + 64 * 2 ^ 192 + 64 * 2 ^ 256)), by decide +kernel⟩,
     ⟨{ ((((tracking (runIn modeRun) (begun 0x16 (BitVec.ofNat 512 (1 * 2 ^ 160 + 64 * 2 ^ 192 + 64 * 2 ^ 256)))).wr CFG_LATCH_STATUS.active_valid 1).wr CFG_CTX_IMAGE.debug_observe 1).wr SEC_STATUS.grants 1) with sec := { State.reset.sec with expires := some 100000000 } },
      7, begun 0x16 (BitVec.ofNat 512 (1 * 2 ^ 160 + 64 * 2 ^ 192 + 64 * 2 ^ 256)), [5], by decide +kernel⟩⟩

/-- States and operands that meet the hypotheses of each clause of `Obligations.LatchesAndPlanesAreCheckedAndRepaired`. -/
theorem test_LatchesAndPlanesAreCheckedAndRepaired_met :
    (∃ s : State, dieOpen s 2 = true) ∧
    (∃ s : State, ∃ _frame : Fin 228352, dieOpen s 2 = true ∧ dieOpen s 3 = true ∧ (activeCtx s).isSome = true ∧ s.safe.injection = none) ∧
    (∃ s : State, ∃ frame : Fin 228352, ∃ _d : Frame, dieOpen s 2 = true ∧ dieOpen s 3 = true ∧ (activeCtx s).isSome = true ∧ s.safe.injection = none
      ∧ isLutFrame frame = true) ∧
    (∃ s : State, ∃ engineB : Bool, ∃ _held : Option Frame, ∃ c : Nat, ∃ f : Nat, (engine s engineB).sweeping = true ∧ (engine s engineB).pos <
      shareSize s engineB ∧ shareFrame s engineB (engine s engineB).pos = (c, f) ∧ c < 8 ∧ committed s c = true ∧ dieOpen s 3 = true ∧
      s.safe.injection = none ∧ s.integ.queue = []) ∧
    (∃ s : State, ∃ r : Repair, dieOpen s 2 = true ∧ dieOpen s 3 = true ∧ nextRepair s = some r ∧ r.latch = true ∧ r.injected = false ∧ (countEvent s
      1 (planeKey r.ctx r.frame)).2 = false ∧ s.ctxs.writtenBack = [] ∧ s.rd DEV_MODE.mode ≠ modeLead) :=
    ⟨⟨runIn modeRun, by decide +kernel⟩,
     ⟨{ ((((runIn modeRun).wr INT_STATUS.engine_a egSweeping).wr CFG_LATCH_STATUS.active_valid 1).wr CFG_LATCH_STATUS.active_ctx 3) with ctxs := { Contexts.start with active := [(9, 1)] }, integ := { State.reset.integ with queue := [{ ctx := 3, frame := 9, latch := true, staged := false, injected := false }] } },
      9, by decide +kernel⟩,
     ⟨{ ((((runIn modeRun).wr INT_STATUS.engine_a egSweeping).wr CFG_LATCH_STATUS.active_valid 1).wr CFG_LATCH_STATUS.active_ctx 3) with ctxs := { Contexts.start with active := [(9, 1)] }, integ := { State.reset.integ with queue := [{ ctx := 3, frame := 9, latch := true, staged := false, injected := false }] } },
      9, 44, by decide +kernel⟩,
     ⟨{ { runIn modeRun with integ := { State.reset.integ with a := { sweeping := true, pos := 7, last := 5, start := 3, count := 4, record := 4, report := 6 } } } with imgs := { State.reset.imgs with ctx := [(0, plainImage)] } },
      false, none, 0, 7, by decide +kernel⟩,
     ⟨{ { ((((runIn modeRun).wr INT_STATUS.engine_a egSweeping).wr CFG_LATCH_STATUS.active_valid 1).wr CFG_LATCH_STATUS.active_ctx 3) with ctxs := { Contexts.start with active := [(9, 1)] }, integ := { State.reset.integ with queue := [{ ctx := 3, frame := 9, latch := true, staged := false, injected := false }] } } with imgs := { State.reset.imgs with ctx := [] } },
      { ctx := 3, frame := 9, latch := true, staged := false, injected := false }, by decide +kernel⟩⟩

/-- States and operands that meet the hypotheses of each clause of `Obligations.PrivetEnginesSweep`. -/
theorem test_PrivetEnginesSweep_met :
    (∃ s : State, ∃ engineB : Bool, dieOpen s 3 = true ∧ engineState s engineB = egSweeping ∧ engineState s (!engineB) ≠ egFailed ∧ (engine s
      engineB).sweeping = false) ∧
    (∃ s : State, ∃ engineB : Bool, dieOpen s 3 = true ∧ engineState s engineB = egSweeping ∧ engineState s (!engineB) = egFailed ∧ (engine s
      engineB).sweeping = false) ∧
    (∃ s : State, ∃ engineB : Bool, dieOpen s 3 = true ∧ engineState s engineB = egSweeping ∧ engineState s (!engineB) = egSweeping ∧ (engine s
      engineB).sweeping = false) ∧
    (∃ s : State, ∃ engineB : Bool, (engine s engineB).sweeping = true ∧ shareSize s engineB ≤ (engine s engineB).pos ∧ s.now < (engine s
      engineB).start + sweepPeriod s engineB) ∧
    (∃ s : State, ∃ engineB : Bool, dieOpen s 3 = true ∧ engineState s engineB = egSole ∧ engineState s (!engineB) = egFailed ∧ s.rd DEV_MODE.mode ≠
      modeLead) ∧
    (∃ s : State, ∃ n : Nat, s.safe.internalFaultAt = some n ∧ s.rd DEV_MODE.mode ≠ modeLead ∧ s.rd DEV_MODE.mode ≠ modeShadow ∧ causeSet s
      scInternalFault = false) :=
    ⟨⟨{ runIn modeRun with integ := { State.reset.integ with a := { sweeping := false, pos := 0, last := 5, start := 3, count := 4, record := 4, report := 6 } } }.wr
      INT_STATUS.engine_a egSweeping, false, by decide +kernel⟩,
     ⟨{ runIn modeRun with integ := { State.reset.integ with a := { sweeping := false, pos := 0, last := 5, start := 3, count := 4, record := 4, report := 6 } } }.wr
      INT_STATUS.engine_a egSweeping |>.wr INT_STATUS.engine_b egFailed, false, by decide +kernel⟩,
     ⟨{ runIn modeRun with integ := { State.reset.integ with a := { sweeping := false, pos := 0, last := 5, start := 3, count := 4, record := 4, report := 6 } } }.wr
      INT_STATUS.engine_a egSweeping |>.wr INT_STATUS.engine_b egSweeping, false, by decide +kernel⟩,
     ⟨{ runIn modeRun with integ := { State.reset.integ with a := { sweeping := true, pos := 5000000, last := 5, start := 3, count := 4, record := 4, report := 6 } } },
      false, by decide +kernel⟩,
     ⟨{ runIn modeRun with integ := { State.reset.integ with a := { sweeping := false, pos := 0, last := 5, start := 3, count := 4, record := 4, report := 6 } } }.wr
      INT_STATUS.engine_a egSole |>.wr INT_STATUS.engine_b egFailed, false, by decide +kernel⟩,
     ⟨{ runIn modeRun with safe := { State.reset.safe with internalFaultAt := some 5 } }, 5, by decide +kernel⟩⟩

/-- States and operands that meet the hypotheses of each clause of `Obligations.SelfTestSlicesAndInjection`. -/
theorem test_SelfTestSlicesAndInjection_met :
    (∃ s : State, ∃ _sig : Word, ∃ n : Nat, s.rd DEV_MODE.mode ≠ modeBoot ∧ s.boot.dormant = false ∧ s.safe.again = none ∧ s.safe.deferred = [] ∧
      s.safe.slice = n ∧ n < 96 ∧ sliceScanned s n = false ∧ sliceAbsent s n = false ∧ s.safe.injection = none ∧ s.safe.bistCmd = none) ∧
    (∃ s : State, ∃ _sig : Word, ∃ n : Nat, s.rd DEV_MODE.mode ≠ modeBoot ∧ s.boot.dormant = false ∧ s.safe.again = none ∧ s.safe.deferred = [] ∧
      s.safe.slice = n ∧ n < 96 ∧ sliceScanned s n = false ∧ sliceAbsent s n = false ∧ s.safe.injection = none ∧ s.safe.bistCmd = none) ∧
    (∃ s : State, ∃ _sig : Word, ∃ n : Nat, s.rd DEV_MODE.mode ≠ modeBoot ∧ s.boot.dormant = false ∧ s.safe.again = none ∧ s.safe.deferred = [] ∧
      s.safe.slice = n ∧ n < 96 ∧ sliceScanned s n = false ∧ s.safe.injection = none ∧ s.safe.bistCmd = none ∧ sliceAbsent s n = true) ∧
    (∃ s : State, ∃ id : Nat, ∃ u : Track, Startable s id 0x60 u ∧ u.par 0x10 2 = 0 ∧ s.safe.bistCmd = none ∧ s.safe.intrusive = none) ∧
    (∃ s : State, ∃ id : Nat, ∃ u : Track, Startable s id 0x60 u ∧ u.par 0x10 2 = 1 ∧ s.safe.bistCmd = none ∧ s.safe.intrusive = none ∧ s.rd
      DEV_MODE.mode = modeService ∧ thermalLimit s = false) ∧
    (∃ s : State, ∃ id : Nat, ∃ u : Track, ∃ mech : Nat, Startable s id 0x60 u ∧ u.par 0x10 1 = 2 ∧ u.par 0x11 1 = mech ∧ (mech = 1 ∨ mech = 2 ∨ mech
      = 3 ∨ mech = 4 ∨ (8 ≤ mech ∧ mech ≤ 12)) ∧ (s.rd DEV_MODE.mode = modeService ∨ s.rd DEV_MODE.mode = modeAssembly) ∧ thermalLimit s = false ∧
      s.safe.injection = none ∧ injTarget s mech (s.rd SAF_INJ_CFG.target) = true ∧ s.rd SAF_INJ_CFG.variant ≤ injVariants mech (s.rd
      SAF_INJ_CFG.target)) ∧
    (∃ s : State, ∃ i : Injection, s.safe.injection = some i ∧ underWay s i.id = true) ∧
    (∃ s : State, ∃ id : Nat, ∃ u : Track, ∃ _sigs : Vector Word 97, s.safe.intrusive = some id ∧ trackOf s id = some u ∧ u.phase = .started) :=
    ⟨⟨runIn modeRun, 77, 0, by decide +kernel⟩,
     ⟨{ runIn modeRun with safe := { Safety.start with slice := 60, repeats := 2 } }, 77, 60, by decide +kernel⟩,
     ⟨{ runIn modeRun with safe := { Safety.start with slice := 30 } }, 77, 30, by decide +kernel⟩,
     ⟨tracking (runIn modeRun) (cmd 0x60 (BitVec.ofNat 512 (0))), 7, cmd 0x60 (BitVec.ofNat 512 (0)), by decide +kernel⟩,
     ⟨tracking ((runIn modeService).wr FHL_LANE_CFG.enable 1) (cmd 0x60 (BitVec.ofNat 512 (1 * 2 ^ 128))), 7, cmd 0x60 (BitVec.ofNat 512 (1 * 2 ^
      128)), by decide +kernel⟩,
     ⟨tracking (runIn modeService) (cmd 0x60 (BitVec.ofNat 512 (2 * 2 ^ 128 + 2 ^ 136))), 7, cmd 0x60 (BitVec.ofNat 512 (2 * 2 ^ 128 + 2 ^ 136)), 1,
      by decide +kernel⟩,
     ⟨{ tracking (runIn modeService) (begun 0x60 0) with safe := { Safety.start with injection := some { mech := 1, target := 0, variant := 0, id := 7, since := 3 } } },
      { mech := 1, target := 0, variant := 0, id := 7, since := 3 }, by decide +kernel⟩,
     ⟨{ tracking (runIn modeService) (begun 0x60 0) with safe := { Safety.start with intrusive := some 7 } }, 7, begun 0x60 0, Vector.replicate 97 5,
      by decide +kernel⟩⟩

/-- States and operands that meet the hypotheses of each clause of `Obligations.SafeStateAndItsPolicy`. -/
theorem test_SafeStateAndItsPolicy_met :
    (∃ s : State, ∃ _v : Word, s.link.up = true ∧ s.rd DEV_MODE.mode ≠ 0 ∧ blockAnswers s 0x150004 = true) ∧
    (∃ s : State, s.boot.recoverD0 = false ∧ noCause s = true) ∧
    (∃ s : State, s.boot.recoverD0 = false ∧ noCause s = false) ∧
    (∃ s : State, ∃ k : Fin 5, ∃ v : Word, ∃ r : Fin 7, s.link.up = true ∧ s.rd DEV_MODE.mode ≠ 0 ∧ blockAnswers s 0x150004 = true ∧ (r : Nat) = k +
      2 ∧ v.toNat % 2 ^ 24 ≠ 0 ∧ v.toNat / 2 ^ 24 ≠ 0 ∧ v.toNat / 2 ^ 24 ≤ winLimit k ∧ s.rd SAF_CTRL.lock = 0) ∧
    (∃ s : State, ∃ k : Fin 5, ∃ v : Word, ∃ r : Fin 7, s.link.up = true ∧ s.rd DEV_MODE.mode ≠ 0 ∧ blockAnswers s 0x150004 = true ∧ (r : Nat) = k +
      2 ∧ (v.toNat % 2 ^ 24 = 0 ∨ v.toNat / 2 ^ 24 = 0 ∨ winLimit k < v.toNat / 2 ^ 24 ∨ (s.rd SAF_CTRL.lock = 1 ∧ v.toNat % 2 ^ 24 ≠ s.rd
      SAF_WIN.window k))) ∧
    (∃ s : State, ∃ k : Fin 5, ∃ v : Word, ∃ r : Fin 7, s.link.up = true ∧ s.rd DEV_MODE.mode ≠ 0 ∧ blockAnswers s 0x150004 = true ∧ (r : Nat) = k +
      2 ∧ (v.toNat % 2 ^ 24 = 0 ∨ v.toNat / 2 ^ 24 = 0 ∨ winLimit k < v.toNat / 2 ^ 24 ∨ (s.rd SAF_CTRL.lock = 1 ∧ v.toNat % 2 ^ 24 ≠ s.rd
      SAF_WIN.window k))) ∧
    (∃ s : State, ∃ v : Word, s.link.up = true ∧ s.rd DEV_MODE.mode ≠ 0 ∧ blockAnswers s 0x150004 = true ∧ s.rd SAF_CTRL.lock = 0 ∧ ((∀ k : Nat, k <
      4 → bits v.toNat (8 * k) 8 ≠ 0))) ∧
    (∃ s : State, ∃ _v : Word, s.link.up = true ∧ s.rd DEV_MODE.mode ≠ 0 ∧ blockAnswers s 0x150004 = true ∧ s.rd SAF_CTRL.lock = 0 ∧ ((∀ b : Nat, b <
      9 → causeCondition s b = false))) :=
    ⟨⟨{ (runIn modeRun).wr DEV_BOOT_STATUS.stage 4 with pending := [] }.wr SAF_SAFE_CAUSE.lost_frame 1, 0xFFFFFFFF, by decide +kernel⟩,
     ⟨mute ((runIn modeRun).wr SAF_SAFE_CAUSE.mode 0), by decide +kernel⟩,
     ⟨runIn modeRun, by decide +kernel⟩,
     ⟨{ (runIn modeRun).wr DEV_BOOT_STATUS.stage 4 with pending := [] }, 2, 0x07000123, 4, by decide +kernel⟩,
     ⟨{ (runIn modeRun).wr DEV_BOOT_STATUS.stage 4 with pending := [] }, 2, 0x08000123, 4, by decide +kernel⟩,
     ⟨{ (runIn modeRun).wr DEV_BOOT_STATUS.stage 4 with pending := [] }.wr SAF_CTRL.lock 1, 2, 0x07000123, 4, by decide +kernel⟩,
     ⟨{ (runIn modeRun).wr DEV_BOOT_STATUS.stage 4 with pending := [] }, 0x05060708, by decide +kernel⟩,
     ⟨{ (runIn modeRun).wr DEV_BOOT_STATUS.stage 4 with pending := [] }.wr TIM_STATUS.time_error 0, 0x00005501, by decide +kernel⟩⟩

/-- States and operands that meet the hypotheses of each clause of `Obligations.DoorbellsFetchesAndHostReads`. -/
theorem test_DoorbellsFetchesAndHostReads_met :
    (∃ s : State, ∃ f : Fin 64, ∃ k : Fin 256, ∃ v : Word, ∃ q : Nat, ∃ x : Queue, s.link.up = true ∧ globalQueue s f k = some q ∧ queueOf s q = some
      x ∧ v.toNat % 65536 < 2 ^ x.sqLog) ∧
    (∃ s : State, ∃ f : Fin 64, ∃ k : Fin 256, ∃ v : Word, ∃ q : Nat, ∃ x : Queue, s.link.up = true ∧ globalQueue s f k = some q ∧ queueOf s q = some
      x ∧ 2 ^ x.sqLog ≤ v.toNat % 65536 ∧ qState s q ≠ qError ∧ q < 256) ∧
    (∃ s : State, ∃ f : Fin 64, ∃ k : Fin 256, ∃ v : Word, ∃ q : Nat, ∃ x : Queue, s.link.up = true ∧ globalQueue s f k = some q ∧ queueOf s q = some
      x ∧ (v.toNat % 65536 < 2 ^ x.cqLog ∧ (v.toNat % 65536 + 2 ^ x.cqLog - x.cqHead) % 2 ^ x.cqLog ≤ (x.cqTail + 2 ^ x.cqLog - x.cqHead) % 2 ^
      x.cqLog)) ∧
    (∃ s : State, ∃ f : Fin 64, ∃ k : Fin 256, ∃ v : Word, ∃ q : Nat, ∃ x : Queue, s.link.up = true ∧ globalQueue s f k = some q ∧ queueOf s q = some
      x ∧ ¬(v.toNat % 65536 < 2 ^ x.cqLog ∧ (v.toNat % 65536 + 2 ^ x.cqLog - x.cqHead) % 2 ^ x.cqLog ≤ (x.cqTail + 2 ^ x.cqLog - x.cqHead) % 2 ^
      x.cqLog) ∧ qState s q ≠ qError ∧ q < 256) ∧
    (∃ s : State, ∃ q : Nat, ∃ x : Queue, ∃ e : Line, fetching s = true ∧ s.link.cancelAll = false ∧ queueOf s q = some x ∧ q < 256 ∧ mayFetch s q =
      true ∧ ((∀ p ∈ s.link.queues, p.1 ≠ q → mayFetch s p.1 = false)) ∧ ahead (entryBits e 8 6) x.h = true ∧ entryRefusal (qFunction s q) e = none)
      ∧
    (∃ s : State, ∃ q : Nat, ∃ x : Queue, ∃ e : Line, ∃ st : Status, fetching s = true ∧ s.link.cancelAll = false ∧ queueOf s q = some x ∧ q < 256 ∧
      mayFetch s q = true ∧ ((∀ p ∈ s.link.queues, p.1 ≠ q → mayFetch s p.1 = false)) ∧ ahead (entryBits e 8 6) x.h = true ∧ entryRefusal (qFunction
      s q) e = some st) ∧
    (∃ s : State, ∃ q : Fin 256, ∃ x : Queue, ∃ o : ReadOutcome, s.link.up = true ∧ queueOf s q = some x ∧ (o = .unsupported ∨ o = .abort ∨ o =
      .poisoned) ∧ qState s q ≠ qError) ∧
    (∃ s : State, ∃ r : HostRead, ∃ u : Track, ∃ d : List Byte, s.link.up = true ∧ s.link.reads.find? (fun a => a.id == r.id) = some r ∧ trackOf s
      r.id = some u ∧ u.phase = .started ∧ s.pair.prepared = none ∧ s.imgs.load = none ∧ s.dmas = [] ∧ r.got.length + d.length < r.length ∧
      s.link.reads = [r]) ∧
    (∃ s : State, ∃ r : HostRead, ∃ u : Track, s.link.up = true ∧ s.link.reads.find? (fun a => a.id == r.id) = some r ∧ trackOf s r.id = some u ∧
      u.phase = .started ∧ s.pair.prepared = none ∧ s.imgs.load = none ∧ s.dmas = []) ∧
    (∃ s : State, ∃ q : Fin 256, ∃ x : Queue, s.link.up = true ∧ queueOf s q = some x ∧ qState s q ≠ qError) ∧
    (∃ s : State, ∃ q : Fin 256, ∃ x : Queue, queueOf s q = some x ∧ x.unsignalled ≠ 0 ∧ s.link.up = true) ∧
    (∃ s : State, ∃ q : Fin 256, ∃ x : Queue, queueOf s q = some x ∧ x.unsignalled ≠ 0 ∧ s.link.up = true ∧ sparseGet true s.link.masked (32 *
      qFunction s q + x.vector) = false ∧ qState s q ≠ qError) ∧
    (∃ s : State, ∃ _f : Fin 64, ∃ _v : Fin 32, s.link.up = true) :=
    ⟨⟨queued, 0, 1, 7, 1, aQueue, by decide +kernel⟩,
     ⟨queued, 0, 1, 16, 1, aQueue, by decide +kernel⟩,
     ⟨{ queued with link := { queued.link with queues := [(1, { aQueue with cqTail := 5 })] } }, 0, 1, 5, 1, { aQueue with cqTail := 5 },
      by decide +kernel⟩,
     ⟨queued, 0, 1, 1, 1, aQueue, by decide +kernel⟩,
     ⟨queued, 1, aQueue, BitVec.ofNat 512 (0x1 + 9 * 2 ^ 16 + 5 * 2 ^ 64), by decide +kernel⟩,
     ⟨queued, 1, aQueue, BitVec.ofNat 512 (0xee + 9 * 2 ^ 16 + 5 * 2 ^ 64), .invalidOpcode, by decide +kernel⟩,
     ⟨queued, 1, aQueue, .abort, by decide +kernel⟩,
     ⟨{ tracking (runIn modeRun) (begun 0x30 0) with link := { (tracking (runIn modeRun) (begun 0x30 0)).link with reads := [{ id := 7, addr := 4096, length := 96, got := [1, 2] }] } },
      { id := 7, addr := 4096, length := 96, got := [1, 2] }, begun 0x30 0, [3, 4], by decide +kernel⟩,
     ⟨{ tracking (runIn modeRun) (begun 0x30 0) with link := { (tracking (runIn modeRun) (begun 0x30 0)).link with reads := [{ id := 7, addr := 4096, length := 96, got := [1, 2] }] } },
      { id := 7, addr := 4096, length := 96, got := [1, 2] }, begun 0x30 0, by decide +kernel⟩,
     ⟨queued, 1, aQueue, by decide +kernel⟩,
     ⟨{ queued with link := { queued.link with queues := [(1, { aQueue with unsignalled := 1, oldest := 5 })] } }, 1,
      { aQueue with unsignalled := 1, oldest := 5 }, by decide +kernel⟩,
     ⟨{ queued with link := { queued.link with masked := [(3, false)], queues := [(1, { aQueue with unsignalled := 1, oldest := 5 })] } }, 1,
      { aQueue with unsignalled := 1, oldest := 5 }, by decide +kernel⟩,
     ⟨{ runIn modeRun with link := { (runIn modeRun).link with pendingMsix := [(35, true)] } }, 1, 3, by decide +kernel⟩⟩

/-- States and operands that meet the hypotheses of each clause of `Obligations.CompletionsQueuesAndTheLink`. -/
theorem test_CompletionsQueuesAndTheLink_met :
    (∃ s : State, ∃ u : Track, ∃ x : Queue, trackOf s u.id = some u ∧ mayPost s u = true ∧ u.abortedBy = [] ∧ queueOf s u.q = some x ∧ u.q < 256 ∧
      x.writesFailed = false ∧ ((∀ v ∈ s.link.tracks, v.phase ≠ .held)) ∧ qState s u.q ≠ qDisabling ∧ x.disabledBy = none ∧ x.deletePending = false ∧
      s.rd DEV_MODE.mode ≠ modeLead) ∧
    (∃ s : State, ∃ u : Track, ∃ x : Queue, trackOf s u.id = some u ∧ mayPost s u = true ∧ u.abortedBy = [] ∧ queueOf s u.q = some x ∧ u.q < 256 ∧
      x.writesFailed = false ∧ ((∀ v ∈ s.link.tracks, v.phase ≠ .held)) ∧ qState s u.q ≠ qDisabling ∧ x.disabledBy = none ∧ x.deletePending = false ∧
      qState s u.q ≠ qError) ∧
    (∃ s : State, ∃ u : Track, ∃ x : Queue, trackOf s u.id = some u ∧ mayPost s u = true ∧ u.abortedBy = [] ∧ queueOf s u.q = some x ∧ u.q < 256 ∧
      x.writesFailed = false ∧ ((∀ v ∈ s.link.tracks, v.phase ≠ .held)) ∧ qState s u.q ≠ qDisabling ∧ x.disabledBy = none ∧ x.deletePending = false ∧
      qState s u.q ≠ qError ∧ s.rd DEV_MODE.mode ≠ modeLead ∧ u.irqNow = true ∧ sparseGet true s.link.masked (32 * qFunction s u.q + x.vector) =
      false) ∧
    (∃ s : State, ∃ u : Track, ∃ e : Nat, trackOf s u.id = some u ∧ boundEnd s u = some e ∧ u.overrun = false) ∧
    (∃ s : State, ∃ q : Fin 256, ∃ x : Queue, queueOf s q = some x ∧ x.drainLimit ≠ 0 ∧ queueTracks s q ≠ []) ∧
    (∃ s : State, ∃ f : Fin 64, ∃ a : Fin 32, ∃ b : Fin 32, ∃ q : Nat, s.link.up = true ∧ s.rd DEV_MODE.mode ≠ 0 ∧ s.rd HCI_AQ_STATUS.ready f = 0 ∧ 4
      ≤ (a : Nat) ∧ (a : Nat) ≤ 16 ∧ 4 ≤ (b : Nat) ∧ (b : Nat) ≤ 16 ∧ globalQueue s f 0 = some q ∧ q < 256) ∧
    (∃ s : State, ∃ f : Fin 64, ∃ a : Fin 32, ∃ b : Fin 32, s.link.up = true ∧ s.rd DEV_MODE.mode ≠ 0 ∧ s.rd HCI_AQ_STATUS.ready f = 0 ∧ ((a : Nat) <
      4 ∨ 16 < (a : Nat) ∨ (b : Nat) < 4 ∨ 16 < (b : Nat))) ∧
    (∃ s : State, ∃ f : Fin 64, ∃ a : Fin 32, ∃ b : Fin 32, s.link.up = true ∧ s.rd DEV_MODE.mode ≠ 0 ∧ s.rd HCI_AQ_STATUS.ready f = 0 ∧ ((a : Nat) <
      4 ∨ 16 < (a : Nat) ∨ (b : Nat) < 4 ∨ 16 < (b : Nat))) ∧
    (∃ s : State, ∃ f : Fin 64, ∃ q : Nat, ∃ x : Queue, s.link.up = true ∧ s.rd DEV_MODE.mode ≠ 0 ∧ otherQueues s f = false ∧ globalQueue s f 0 =
      some q ∧ q < 256 ∧ queueOf s q = some x ∧ x.deletePending = false ∧ x.disabledBy = none ∧ queueTracks s q = []) ∧
    (∃ s : State, ∃ f : Fin 64, s.link.up = true ∧ s.rd DEV_MODE.mode ≠ 0 ∧ otherQueues s f = true) ∧
    (∃ s : State, ∃ f : Fin 64, ∃ b : Fin 256, ∃ c : Fin 512, s.link.up = true ∧ s.rd DEV_MODE.mode ≠ 0 ∧ ((∀ g : Nat, g < 64 → g ≠ (f : Nat) →
      quotaCount s g = 0 ∨ (c : Nat) = 0 ∨ quotaBase s g + quotaCount s g ≤ b ∨ (b : Nat) + c ≤ quotaBase s g)) ∧ (c : Nat) ≤ functionLimit f ∧ (b :
      Nat) + c ≤ 256 ∧ ((∀ k : Nat, k < quotaCount s f → qState s (quotaBase s f + k) = qFree)) ∧ blockAnswers s 0x20100 = true ∧ blockAnswers s
      (PCIE_FN_CFG.queue_base.offset f 0) = true) ∧
    (∃ s : State, ∃ f : Fin 64, ∃ b : Fin 256, ∃ c : Fin 512, s.link.up = true ∧ s.rd DEV_MODE.mode ≠ 0 ∧ ((∀ g : Nat, g < 64 → g ≠ (f : Nat) →
      quotaCount s g = 0 ∨ (c : Nat) = 0 ∨ quotaBase s g + quotaCount s g ≤ b ∨ (b : Nat) + c ≤ quotaBase s g)) ∧ (c : Nat) ≤ functionLimit f ∧ (b :
      Nat) + c ≤ 256 ∧ ((∀ k : Nat, k < quotaCount s f → qState s (quotaBase s f + k) = qFree)) ∧ blockAnswers s 0x20100 = true ∧ blockAnswers s
      (PCIE_FN_CFG.queue_base.offset f 0) = true) ∧
    (∃ s : State, ∃ f : Fin 64, ∃ b : Fin 256, ∃ c : Fin 512, s.link.up = true ∧ s.rd DEV_MODE.mode ≠ 0 ∧ (functionLimit f < (c : Nat) ∨ 256 < (b :
      Nat) + c) ∧ blockAnswers s (PCIE_FN_CFG.queue_base.offset f 0) = true) ∧
    (∃ s : State, ∃ f : Fin 64, ∃ b : Fin 256, ∃ c : Fin 512, s.link.up = true ∧ s.rd DEV_MODE.mode ≠ 0 ∧ (functionLimit f < (c : Nat) ∨ 256 < (b :
      Nat) + c) ∧ blockAnswers s (PCIE_FN_CFG.queue_base.offset f 0) = true) ∧
    (∃ s : State, ∃ sp : Fin 8, ∃ w : Fin 16, ∃ r : Bool, s.boot.porHeld = false ∧ s.boot.dormant = false ∧ s.boot.hostUp = true ∧ s.link.perst =
      false ∧ s.link.refclk = true ∧ 1 ≤ (sp : Nat) ∧ (sp : Nat) ≤ 5 ∧ ((w : Nat) = 1 ∨ (w : Nat) = 2 ∨ (w : Nat) = 4 ∨ (w : Nat) = 8) ∧ lanesUsable
      s w r = true ∧ ((s.link.training = true → [8, 4, 2, 1].find? (fun v => decide (v ≤ s.rd PCIE_LINK_STATUS.width) && (lanesUsable s v false ||
      lanesUsable s v true)) = some (w : Nat)))) ∧
    (∃ s : State, ∃ sp : Fin 8, ∃ w : Fin 16, ∃ r : Bool, s.boot.porHeld = false ∧ s.boot.dormant = false ∧ s.boot.hostUp = true ∧ s.link.perst =
      false ∧ s.link.refclk = true ∧ 1 ≤ (sp : Nat) ∧ (sp : Nat) ≤ 5 ∧ ((w : Nat) = 1 ∨ (w : Nat) = 2 ∨ (w : Nat) = 4 ∨ (w : Nat) = 8) ∧ lanesUsable
      s w r = true ∧ ((s.link.training = true → [8, 4, 2, 1].find? (fun v => decide (v ≤ s.rd PCIE_LINK_STATUS.width) && (lanesUsable s v false ||
      lanesUsable s v true)) = some (w : Nat))) ∧ s.dmas = [] ∧ ((∀ v ∈ s.link.tracks, v.op = 0x16 → v.committed = true → v.phase ≠ .started))) ∧
    (∃ s : State, ∃ n : Fin 8, ∃ e : Nat, s.link.up = true ∧ bit (s.rd PCIE_LINK_STATUS.dropped) n = false ∧ laneLimit s 2 < e ∧ bit (s.rd
      PCIE_LINK_STATUS.dropped) (7 - n) = false ∧ s.fh.scans = []) :=
    ⟨⟨queuedWith doneCmd, doneCmd, aQueue, by decide +kernel⟩,
     ⟨queuedWith doneCmd, doneCmd, aQueue, by decide +kernel⟩,
     ⟨(queuedWith { doneCmd with irqNow := true }) |> fun s => { s with link := { s.link with masked := [(3, false)] } },
      { doneCmd with irqNow := true }, aQueue, by decide +kernel⟩,
     ⟨queuedWith { doneCmd with phase := .started }, { doneCmd with phase := .started }, 10 * usTicks, by decide +kernel⟩,
     ⟨{ queuedWith doneCmd with link := { (queuedWith doneCmd).link with queues := [(1, { aQueue with drainLimit := 77 })] } }, 1,
      { aQueue with drainLimit := 77 }, by decide +kernel⟩,
     ⟨queued.wr HCI_AQ_STATUS.ready 0, 0, 4, 16, 0, by decide +kernel⟩,
     ⟨queued.wr HCI_AQ_STATUS.ready 0, 0, 3, 16, by decide +kernel⟩,
     ⟨queued.wr HCI_AQ_STATUS.ready 0, 0, 4, 17, by decide +kernel⟩,
     ⟨queued.wr HCI_Q_STATUS.state 0 1, 0, 0, { aQueue with sqTail := 0 }, by decide +kernel⟩,
     ⟨queued, 0, by decide +kernel⟩,
     ⟨queued, 5, 8, 16, by decide +kernel⟩,
     ⟨queued, 5, 240, 16, by decide +kernel⟩,
     ⟨queued, 5, 8, 17, by decide +kernel⟩,
     ⟨queued, 5, 250, 8, by decide +kernel⟩,
     ⟨{ runIn modeRun with link := { (runIn modeRun).link with up := false } }, 5, 8, false, by decide +kernel⟩,
     ⟨{ runIn modeRun with link := { (runIn modeRun).link with up := false } }, 5, 8, false, by decide +kernel⟩,
     ⟨runIn modeRun, 3, 65, by decide +kernel⟩⟩

/-- States and operands that meet the hypotheses of each clause of `Obligations.GeneralCommandsAndTimeRead`. -/
theorem test_GeneralCommandsAndTimeRead_met :
    (∃ s : State, ∃ id : Nat, ∃ u : Track, Startable s id 0x01 u) ∧
    (∃ s : State, ∃ id : Nat, ∃ u : Track, Startable s id 0x02 u) ∧
    (∃ s : State, ∃ id : Nat, ∃ u : Track, Startable s id 0x40 u) :=
    ⟨⟨tracking (runIn modeRun) (cmd 1 (BitVec.ofNat 512 (0))), 7, cmd 1 (BitVec.ofNat 512 (0)), by decide +kernel⟩,
     ⟨adminCmd (queued) 2 (BitVec.ofNat 512 (0)), 7, cmd 2 (BitVec.ofNat 512 (0)), by decide +kernel⟩,
     ⟨tracking (runIn modeRun) (cmd 0x40 (BitVec.ofNat 512 (0))), 7, cmd 0x40 (BitVec.ofNat 512 (0)), by decide +kernel⟩⟩

/-- States and operands that meet the hypotheses of each clause of `Obligations.QueueCommandsAndAbort`. -/
theorem test_QueueCommandsAndAbort_met :
    (∃ s : State, ∃ id : Nat, ∃ u : Track, ∃ q : Nat, ∃ x : Queue, ∃ v : Track, Startable s id 0x03 u ∧ globalQueue s (qFunction s u.q) (u.par 0x10
      2) = some q ∧ queueOf s q = some x ∧ s.link.tracks.find? (fun w => w.q == q && w.seq == u.par 0x18 6 && w.inWindow && w.phase != .held &&
      w.pair.isNone) = some v ∧ ahead (u.par 0x18 6) x.h = false ∧ inWindow (u.par 0x18 6) x.h = true ∧ v.op ≠ 0x03 ∧ v.id ≠ id ∧ trackOf s v.id =
      some v ∧ v.phase = .fetched ∧ v.committed = false) ∧
    (∃ s : State, ∃ id : Nat, ∃ u : Track, ∃ q : Nat, ∃ x : Queue, ∃ v : Track, Startable s id 0x03 u ∧ globalQueue s (qFunction s u.q) (u.par 0x10
      2) = some q ∧ queueOf s q = some x ∧ s.link.tracks.find? (fun w => w.q == q && w.seq == u.par 0x18 6 && w.inWindow && w.phase != .held &&
      w.pair.isNone) = some v ∧ ahead (u.par 0x18 6) x.h = false ∧ inWindow (u.par 0x18 6) x.h = true ∧ v.op ≠ 0x03 ∧ v.id ≠ id ∧ trackOf s v.id =
      some v ∧ (v.phase = .finished ∨ v.committed = true)) ∧
    (∃ s : State, ∃ id : Nat, ∃ u : Track, Startable s id 0x03 u ∧ globalQueue s (qFunction s u.q) (u.par 0x10 2) = none) ∧
    (∃ s : State, ∃ id : Nat, ∃ u : Track, ∃ q : Nat, Startable s id 0x04 u ∧ qAdmin s u.q = true ∧ u.par 0x10 2 ≠ 0 ∧ globalQueue s (qFunction s
      u.q) (u.par 0x10 2) = some q ∧ q < 256 ∧ qState s q = qFree ∧ 4 ≤ u.par 0x12 1 ∧ u.par 0x12 1 ≤ 16 ∧ 4 ≤ u.par 0x13 1 ∧ u.par 0x13 1 ≤ 16 ∧
      u.par 0x14 1 ≤ 31 ∧ u.par 0x15 1 ≠ 0 ∧ u.par 0x16 2 ≤ 1023 ∧ u.par 0x18 8 % 4096 = 0 ∧ u.par 0x20 8 % 4096 = 0) ∧
    (∃ s : State, ∃ id : Nat, ∃ u : Track, ∃ q : Nat, ∃ x : Queue, Startable s id 0x05 u ∧ qAdmin s u.q = true ∧ u.par 0x10 2 ≠ 0 ∧ globalQueue s
      (qFunction s u.q) (u.par 0x10 2) = some q ∧ qAdmin s q = false ∧ q < 256 ∧ (qState s q = qEnabled ∨ qState s q = qError) ∧ queueOf s q = some x
      ∧ queueTracks s q = []) ∧
    (∃ s : State, ∃ id : Nat, ∃ u : Track, ∃ q : Nat, ∃ x : Queue, ∃ v : Track, Startable s id 0x05 u ∧ qAdmin s u.q = true ∧ u.par 0x10 2 ≠ 0 ∧
      globalQueue s (qFunction s u.q) (u.par 0x10 2) = some q ∧ qAdmin s q = false ∧ q < 256 ∧ (qState s q = qEnabled ∨ qState s q = qError) ∧
      queueOf s q = some x ∧ queueTracks s q = [v] ∧ v.phase = .started ∧ v.op ≠ 0x16 ∧ s.ctxs.armed = none) ∧
    (∃ s : State, ∃ id : Nat, ∃ u : Track, ∃ q : Nat, Startable s id 0x06 u ∧ qAdmin s u.q = true ∧ u.par 0x10 2 ≠ 0 ∧ globalQueue s (qFunction s
      u.q) (u.par 0x10 2) = some q ∧ qAdmin s q = false ∧ q < 256 ∧ (qState s q = qDisabled ∨ qState s q = qError) ∧ queueTracks s q = []) :=
    ⟨⟨adminCmd (queuedWith { doneCmd with id := 8, seq := 3, phase := .fetched, op := 1, committed := false }) 3 (BitVec.ofNat 512 (1 * 2 ^ 128 + 3 *
      2 ^ 192)), 7, cmd 3 (BitVec.ofNat 512 (1 * 2 ^ 128 + 3 * 2 ^ 192)), 1, aQueue,
      { doneCmd with id := 8, seq := 3, phase := .fetched, op := 1, committed := false }, by decide +kernel⟩,
     ⟨adminCmd (queuedWith { doneCmd with id := 8, seq := 3, phase := .started, op := 0x31, committed := true }) 3 (BitVec.ofNat 512 (1 * 2 ^ 128 + 3
      * 2 ^ 192)), 7, cmd 3 (BitVec.ofNat 512 (1 * 2 ^ 128 + 3 * 2 ^ 192)), 1, aQueue,
      { doneCmd with id := 8, seq := 3, phase := .started, op := 0x31, committed := true }, by decide +kernel⟩,
     ⟨adminCmd (queued) 3 (BitVec.ofNat 512 (9 * 2 ^ 128)), 7, cmd 3 (BitVec.ofNat 512 (9 * 2 ^ 128)), by decide +kernel⟩,
     ⟨adminCmd (queued) 4 (BitVec.ofNat 512 (2 * 2 ^ 128 + 4 * 2 ^ 144 + 5 * 2 ^ 152 + 1 * 2 ^ 168 + 16 * 2 ^ 200 + 32 * 2 ^ 264)), 7, cmd 4
      (BitVec.ofNat 512 (2 * 2 ^ 128 + 4 * 2 ^ 144 + 5 * 2 ^ 152 + 1 * 2 ^ 168 + 16 * 2 ^ 200 + 32 * 2 ^ 264)), 2, by decide +kernel⟩,
     ⟨adminCmd (queued) 5 (BitVec.ofNat 512 (1 * 2 ^ 128)), 7, cmd 5 (BitVec.ofNat 512 (1 * 2 ^ 128)), 1, aQueue, by decide +kernel⟩,
     ⟨adminCmd (queuedWith { doneCmd with id := 8, phase := .started }) 5 (BitVec.ofNat 512 (1 * 2 ^ 128)), 7, cmd 5 (BitVec.ofNat 512 (1 * 2 ^
      128)), 1, aQueue, { doneCmd with id := 8, phase := .started }, by decide +kernel⟩,
     ⟨adminCmd (queued.wr HCI_Q_STATUS.state qDisabled 1) 6 (BitVec.ofNat 512 (1 * 2 ^ 128)), 7, cmd 6 (BitVec.ofNat 512 (1 * 2 ^ 128)), 1,
      by decide +kernel⟩⟩

/-- States and operands that meet the hypotheses of each clause of `Obligations.ContextCommandsAndModeSet`. -/
theorem test_ContextCommandsAndModeSet_met :
    (∃ s : State, ∃ id : Nat, ∃ u : Track, Startable s id 0x12 u ∧ u.par 0x10 1 ≤ 7 ∧ running s = false ∧ s.ctxs.staging = none ∧ s.ctxs.armed = none
      ∧ ¬(stagedState s = stReady ∧ stagedCtx s = u.par 0x10 1) ∧ committed s (u.par 0x10 1) = true ∧ s.boot.d3Unswept = false ∧ dieOpen s 2 = true ∧
      s.integ.queue = []) ∧
    (∃ s : State, ∃ id : Nat, ∃ u : Track, Startable s id 0x12 u ∧ u.par 0x10 1 ≤ 7 ∧ stageBusy s = false ∧ committed s (u.par 0x10 1) = false) ∧
    (∃ s : State, ∃ id : Nat, ∃ u : Track, Startable s id 0x13 u ∧ u.par 0x10 1 ≤ 7 ∧ (u.par 0x11 1).testBit 2 = false ∧ (u.par 0x11 1).testBit 0 =
      false ∧ timeOk (u.par 0x18 12) = true ∧ (((u.par 0x11 1).testBit 1 = true → u.par 0x12 2 = 0)) ∧ farAhead s (u.time 0x18) = false ∧ running s =
      false ∧ s.ctxs.armed = none ∧ stagedCtx s = u.par 0x10 1 ∧ (stagedState s = stStaging ∨ stagedState s = stReady ∨ stagedState s = stOutDirty ∨
      stagedState s = stOutClean)) ∧
    (∃ s : State, ∃ id : Nat, ∃ u : Track, Startable s id 0x14 u ∧ 16 ≤ u.par 0x18 4 ∧ u.par 0x18 4 ≤ 528 ∧ u.par 0x10 8 % 8 = 0 ∧ (u.par 0x1C
      1).testBit 0 = true ∧ u.par 0x20 12 = 0 ∧ bankArmed s = false ∧ s.ctxs.armed = none ∧ s.ctxs.staging = none) ∧
    (∃ s : State, ∃ id : Nat, ∃ u : Track, Startable s id 0x15 u ∧ u.par 0x10 1 ≤ 7 ∧ retireBusy s (u.par 0x10 1) = false ∧ committed s (u.par 0x10
      1) = true) ∧
    (∃ s : State, ∃ id : Nat, ∃ u : Track, Startable s id 0x15 u ∧ u.par 0x10 1 ≤ 7 ∧ retireBusy s (u.par 0x10 1) = false ∧ committed s (u.par 0x10
      1) = false) ∧
    (∃ s : State, ∃ id : Nat, ∃ u : Track, ∃ _swap : SwapData, Startable s id 0x7F u ∧ (u.par 0x10 1 = modeAssembly ∨ u.par 0x10 1 = modeService) ∧
      modePair (s.rd DEV_MODE.mode) (u.par 0x10 1) = true ∧ s.rd DEV_MODE.mode ≠ modeService ∧ u.par 0x11 2 = 0 ∧ s.safe.injection = none ∧
      transitioning s = false) ∧
    (∃ s : State, ∃ id : Nat, ∃ u : Track, ∃ _swap : SwapData, Startable s id 0x7F u ∧ u.par 0x10 1 = modeRun ∧ s.rd DEV_MODE.mode = modeAssembly ∧
      u.par 0x11 1 ≤ 7 ∧ committed s (u.par 0x11 1) = true ∧ (s.rd TIM_STATUS.state ≠ tmFree ∨ (u.par 0x12 1).testBit 0 = true) ∧ thermalLimit s =
      false ∧ s.safe.injection = none ∧ s.ctxs.staging = none ∧ s.ctxs.armed = none ∧ running s = false ∧ stagedState s = stEmpty ∧ stagingRefusal s
      (u.par 0x11 1) = none ∧ s.integ.queue = [] ∧ transitioning s = false) ∧
    (∃ s : State, ∃ id : Nat, ∃ u : Track, ∃ _swap : SwapData, Startable s id 0x7F u ∧ u.par 0x10 1 = s.rd DEV_MODE.mode ∧ (u.par 0x10 1 =
      modeAssembly ∨ u.par 0x10 1 = modeRun ∨ u.par 0x10 1 = modeService) ∧ u.par 0x11 2 = 0 ∧ transitioning s = false) :=
    ⟨⟨tracking ({ runIn modeRun with imgs := { State.reset.imgs with ctx := [(2, plainImage)] } }) (cmd 0x12 (BitVec.ofNat 512 (2 * 2 ^ 128))), 7,
      cmd 0x12 (BitVec.ofNat 512 (2 * 2 ^ 128)), by decide +kernel⟩,
     ⟨tracking (runIn modeRun) (cmd 0x12 (BitVec.ofNat 512 (2 * 2 ^ 128))), 7, cmd 0x12 (BitVec.ofNat 512 (2 * 2 ^ 128)), by decide +kernel⟩,
     ⟨tracking (staged2) (cmd 0x13 (BitVec.ofNat 512 (2 * 2 ^ 128 + 1 * 2 ^ 216))), 7, cmd 0x13 (BitVec.ofNat 512 (2 * 2 ^ 128 + 1 * 2 ^ 216)),
      by decide +kernel⟩,
     ⟨tracking (runIn modeRun) (cmd 0x14 (BitVec.ofNat 512 (64 * 2 ^ 128 + 24 * 2 ^ 192 + 1 * 2 ^ 224))), 7, cmd 0x14 (BitVec.ofNat 512 (64 * 2 ^ 128
      + 24 * 2 ^ 192 + 1 * 2 ^ 224)), by decide +kernel⟩,
     ⟨tracking ({ staged2 with imgs := { State.reset.imgs with ctx := [(3, plainImage)] } }) (cmd 0x15 (BitVec.ofNat 512 (3 * 2 ^ 128))), 7, cmd 0x15
      (BitVec.ofNat 512 (3 * 2 ^ 128)), by decide +kernel⟩,
     ⟨tracking (runIn modeRun) (cmd 0x15 (BitVec.ofNat 512 (3 * 2 ^ 128))), 7, cmd 0x15 (BitVec.ofNat 512 (3 * 2 ^ 128)), by decide +kernel⟩,
     ⟨tracking ((runIn modeRun).wr SAF_SAFE_CAUSE.mode 0) (cmd 0x7F (BitVec.ofNat 512 (1 * 2 ^ 128))), 7, cmd 0x7F (BitVec.ofNat 512 (1 * 2 ^ 128)),
      noSwap, by decide +kernel⟩,
     ⟨tracking ({ runIn modeAssembly with imgs := { State.reset.imgs with ctx := [(3, plainImage)] } }) (cmd 0x7F (BitVec.ofNat 512 (2 * 2 ^ 128 + 3
      * 2 ^ 136 + 1 * 2 ^ 144))), 7, cmd 0x7F (BitVec.ofNat 512 (2 * 2 ^ 128 + 3 * 2 ^ 136 + 1 * 2 ^ 144)), noSwap, by decide +kernel⟩,
     ⟨tracking (runIn modeRun) (cmd 0x7F (BitVec.ofNat 512 (2 * 2 ^ 128))), 7, cmd 0x7F (BitVec.ofNat 512 (2 * 2 ^ 128)), noSwap, by decide +kernel⟩⟩

/-- States and operands that meet the hypotheses of each clause of `Obligations.DmaAndReportCommands`. -/
theorem test_DmaAndReportCommands_met :
    (∃ s : State, ∃ id : Nat, ∃ u : Track, ∃ m : Nat, Startable s id 0x20 u ∧ moversIssue s = true ∧ freeMover s = some m ∧ dmaOf s id = none ∧
      (u.par 0x24 1).testBit 0 = true ∧ (u.par 0x24 1).testBit 1 = false ∧ u.par 0x20 4 ≠ 0 ∧ u.par 0x10 8 % 8 = 0 ∧ u.par 0x18 8 < 2 ^ 56 ∧ s.rd
      DEV_MODE.mode ≠ modeShadow) ∧
    (∃ s : State, ∃ id : Nat, ∃ u : Track, ∃ m : Nat, Startable s id 0x20 u ∧ moversIssue s = true ∧ freeMover s = some m ∧ dmaOf s id = none ∧ u.par
      0x24 1 % 4 = 2 ∧ u.par 0x20 4 ≠ 0 ∧ u.par 0x18 8 % 8 = 0 ∧ u.par 0x10 8 < 2 ^ 56) ∧
    (∃ s : State, ∃ id : Nat, ∃ u : Track, ∃ m : Nat, Startable s id 0x21 u ∧ moversIssue s = true ∧ freeMover s = some m ∧ dmaOf s id = none ∧
      (u.par 0x24 1).testBit 1 = true ∧ u.par 0x20 4 ≠ 0 ∧ u.par 0x20 4 ≤ 512 ∧ u.par 0x10 8 % 8 = 0 ∧ s.link.up = true ∧ s.link.reads = []) ∧
    (∃ s : State, ∃ id : Nat, ∃ u : Track, ∃ m : Nat, Startable s id 0x22 u ∧ moversIssue s = true ∧ freeMover s = some m ∧ dmaOf s id = none ∧ 1 ≤
      u.par 0x18 4 ∧ u.par 0x18 4 ≤ 4096 ∧ u.par 0x10 8 % 8 = 0) ∧
    (∃ s : State, ∃ id : Nat, ∃ u : Track, Startable s id 0x61 u ∧ (u.par 0x1C 1 = 3 ∨ u.par 0x1C 1 = 4) ∧ u.par 0x10 8 % 8 = 0 ∧ 16 + (pageOf s
      (u.par 0x1C 1)).1.length ≤ u.par 0x18 4 ∧ s.link.up = true) ∧
    (∃ s : State, ∃ id : Nat, ∃ u : Track, Startable s id 0x62 u ∧ 1 ≤ u.par 0x18 2 ∧ u.par 0x18 2 ≤ 1024 ∧ u.par 0x10 8 % 8 = 0 ∧ s.link.up = true ∧
      s.safe.log.length ≤ 512) ∧
    (∃ s : State, ∃ id : Nat, ∃ u : Track, Startable s id 0x63 u ∧ thState s ≠ thIdle ∧ u.par 0x10 2 = s.rd THM_THROTTLE_STATUS.request) ∧
    (∃ s : State, ∃ id : Nat, ∃ u : Track, Startable s id 0x63 u ∧ (thState s = thIdle ∨ u.par 0x10 2 ≠ s.rd THM_THROTTLE_STATUS.request)) :=
    ⟨⟨tracking (runIn modeRun) (cmd 0x20 (BitVec.ofNat 512 (64 * 2 ^ 128 + 4096 * 2 ^ 192 + 1000 * 2 ^ 256 + 1 * 2 ^ 288))), 7, cmd 0x20
      (BitVec.ofNat 512 (64 * 2 ^ 128 + 4096 * 2 ^ 192 + 1000 * 2 ^ 256 + 1 * 2 ^ 288)), 0, by decide +kernel⟩,
     ⟨tracking (runIn modeRun) (cmd 0x20 (BitVec.ofNat 512 (4096 * 2 ^ 128 + 4096 * 2 ^ 192 + 1000 * 2 ^ 256 + 2 * 2 ^ 288))), 7, cmd 0x20
      (BitVec.ofNat 512 (4096 * 2 ^ 128 + 4096 * 2 ^ 192 + 1000 * 2 ^ 256 + 2 * 2 ^ 288)), 0, by decide +kernel⟩,
     ⟨tracking (runIn modeRun) (cmd 0x21 (BitVec.ofNat 512 (64 * 2 ^ 128 + 1234605616436508552 * 2 ^ 192 + 20 * 2 ^ 256 + 2 * 2 ^ 288))), 7, cmd 0x21
      (BitVec.ofNat 512 (64 * 2 ^ 128 + 1234605616436508552 * 2 ^ 192 + 20 * 2 ^ 256 + 2 * 2 ^ 288)), 0, by decide +kernel⟩,
     ⟨tracking (runIn modeRun) (cmd 0x22 (BitVec.ofNat 512 (64 * 2 ^ 128 + 4 * 2 ^ 192))), 7, cmd 0x22 (BitVec.ofNat 512 (64 * 2 ^ 128 + 4 * 2 ^
      192)), 0, by decide +kernel⟩,
     ⟨tracking (runIn modeRun) (cmd 0x61 (BitVec.ofNat 512 (64 * 2 ^ 128 + 500 * 2 ^ 192 + 3 * 2 ^ 224))), 7, cmd 0x61 (BitVec.ofNat 512 (64 * 2 ^
      128 + 500 * 2 ^ 192 + 3 * 2 ^ 224)), by decide +kernel⟩,
     ⟨tracking (runIn modeRun) (cmd 0x62 (BitVec.ofNat 512 (64 * 2 ^ 128 + 5 * 2 ^ 192 + 1 * 2 ^ 208))), 7, cmd 0x62 (BitVec.ofNat 512 (64 * 2 ^ 128
      + 5 * 2 ^ 192 + 1 * 2 ^ 208)), by decide +kernel⟩,
     ⟨tracking (((runIn modeRun).wr THM_THROTTLE_STATUS.state 1).wr THM_THROTTLE_STATUS.request 5) (cmd 0x63 (BitVec.ofNat 512 (5 * 2 ^ 128))), 7,
      cmd 0x63 (BitVec.ofNat 512 (5 * 2 ^ 128)), by decide +kernel⟩,
     ⟨tracking (runIn modeRun) (cmd 0x63 (BitVec.ofNat 512 (5 * 2 ^ 128))), 7, cmd 0x63 (BitVec.ofNat 512 (5 * 2 ^ 128)), by decide +kernel⟩⟩

/-- States and operands that meet the hypotheses of each clause of `Obligations.TimeAndScanCommands`. -/
theorem test_TimeAndScanCommands_met :
    (∃ s : State, ∃ id : Nat, ∃ u : Track, Startable s id 0x41 u ∧ u.par 0x10 1 = 0 ∧ (u.par 0x11 1).testBit 0 = false ∧ running s = false ∧
      s.ctxs.armed = none) ∧
    (∃ s : State, ∃ id : Nat, ∃ u : Track, Startable s id 0x41 u ∧ u.par 0x10 1 = 1 ∧ (u.par 0x11 1).testBit 0 = false ∧ timeOk (u.par 0x18 12) =
      true ∧ running s = false ∧ s.ctxs.armed = none) ∧
    (∃ s : State, ∃ id : Nat, ∃ u : Track, Startable s id 0x41 u ∧ u.par 0x10 1 = 2 ∧ (u.par 0x11 1).testBit 0 = false ∧ (toSigned 32 (u.par 0x18
      4)).natAbs ≤ 500000000 ∧ s.tim.eng.state = tmFree) ∧
    (∃ s : State, ∃ id : Nat, ∃ u : Track, Startable s id 0x41 u ∧ u.par 0x10 1 = 0 ∧ (u.par 0x11 1).testBit 0 = true ∧ s.rd DEV_MODE.mode ≠
      modeLead) ∧
    (∃ s : State, ∃ id : Nat, ∃ u : Track, Startable s id 0x42 u ∧ u.par 0x10 1 = 4 ∧ u.par 0x11 1 ≤ 3 ∧ s.rd DEV_MODE.mode ≠ modeShadow ∧ s.rd
      TIM_LEARNED.learned_s < 2 ^ 32 ∧ s.tim.eng.state < 8) ∧
    (∃ s : State, ∃ id : Nat, ∃ u : Track, Startable s id 0x42 u ∧ u.par 0x10 1 = 1 ∧ u.par 0x11 1 = 0 ∧ s.rd DEV_MODE.mode ≠ modeShadow ∧
      s.tim.eng.state = tmLocked ∧ modelUsable s = true ∧ s.rd TIM_STATUS.time_pll_src = 0) ∧
    (∃ s : State, ∃ id : Nat, ∃ u : Track, Startable s id 0x42 u ∧ u.par 0x10 1 = 1 ∧ u.par 0x11 1 = 0 ∧ s.rd DEV_MODE.mode ≠ modeShadow ∧
      (s.tim.eng.state ≠ tmLocked ∨ modelUsable s = false)) ∧
    (∃ s : State, ∃ id : Nat, ∃ u : Track, Startable s id 0x43 u ∧ u.par 0x10 1 ≤ 7 ∧ 1 ≤ u.par 0x11 1 ∧ u.par 0x11 1 ≤ 3 ∧ timeOk (u.par 0x18 12) =
      true ∧ counter s < u.time 0x18 ∧ ((u.par 0x11 1 ≠ 3 → u.par 0x14 4 ≠ 0)) ∧ ((u.par 0x11 1 = 2 → u.par 0x14 4 < u.par 0x24 4)) ∧ (toutOf s
      (u.par 0x10 1)).high = none) ∧
    (∃ s : State, ∃ id : Nat, ∃ u : Track, ∃ n : Nat, Startable s id 0x44 u ∧ u.par 0x10 1 = 0 ∧ u.par 0x11 1 = n ∧ n < 16 ∧ (u.par 0x12 1).testBit 0
      = false ∧ 8192 ≤ u.par 0x20 4 ∧ 1 ≤ u.par 0x14 4 ∧ u.par 0x14 4 ≤ 1000 ∧ u.par 0x18 8 % 8 = 0 ∧ noScan s 0 n = false ∧ s.fh.scans = []) ∧
    (∃ s : State, ∃ id : Nat, ∃ u : Track, Startable s id 0x44 u ∧ u.par 0x10 1 = 0 ∧ u.par 0x11 1 < 16 ∧ (u.par 0x12 1).testBit 0 = false ∧ 8192 ≤
      u.par 0x20 4 ∧ 1 ≤ u.par 0x14 4 ∧ u.par 0x14 4 ≤ 1000 ∧ u.par 0x18 8 % 8 = 0 ∧ noScan s 0 (u.par 0x11 1) = true) :=
    ⟨⟨tracking (runIn modeRun) (cmd 0x41 (BitVec.ofNat 512 (65536 * 2 ^ 192))), 7, cmd 0x41 (BitVec.ofNat 512 (65536 * 2 ^ 192)), by decide +kernel⟩,
     ⟨tracking (runIn modeRun) (cmd 0x41 (BitVec.ofNat 512 (1 * 2 ^ 128 + 32069058560 * 2 ^ 192))), 7, cmd 0x41 (BitVec.ofNat 512 (1 * 2 ^ 128 +
      32069058560 * 2 ^ 192)), by decide +kernel⟩,
     ⟨tracking (runIn modeRun) (cmd 0x41 (BitVec.ofNat 512 (2 * 2 ^ 128 + 1000 * 2 ^ 192))), 7, cmd 0x41 (BitVec.ofNat 512 (2 * 2 ^ 128 + 1000 * 2 ^
      192)), by decide +kernel⟩,
     ⟨tracking (runIn modeRun) (cmd 0x41 (BitVec.ofNat 512 (1 * 2 ^ 136 + 1000 * 2 ^ 192))), 7, cmd 0x41 (BitVec.ofNat 512 (1 * 2 ^ 136 + 1000 * 2 ^
      192)), by decide +kernel⟩,
     ⟨tracking (runIn modeRun) (cmd 0x42 (BitVec.ofNat 512 (4 * 2 ^ 128 + 2 * 2 ^ 136))), 7, cmd 0x42 (BitVec.ofNat 512 (4 * 2 ^ 128 + 2 * 2 ^ 136)),
      by decide +kernel⟩,
     ⟨tracking ({ (runIn modeRun).wr TIM_LEARNED.learned_s 20000 with tim := { Tim.start with eng := { Engine.start with state := 2 } } }) (cmd 0x42
      (BitVec.ofNat 512 (1 * 2 ^ 128))), 7, cmd 0x42 (BitVec.ofNat 512 (1 * 2 ^ 128)), by decide +kernel⟩,
     ⟨tracking (runIn modeRun) (cmd 0x42 (BitVec.ofNat 512 (1 * 2 ^ 128))), 7, cmd 0x42 (BitVec.ofNat 512 (1 * 2 ^ 128)), by decide +kernel⟩,
     ⟨tracking (runIn modeRun) (cmd 0x43 (BitVec.ofNat 512 (7 * 2 ^ 128 + 1 * 2 ^ 136 + 1 * 2 ^ 144 + 100 * 2 ^ 160 + 5000 * 2 ^ 208))), 7, cmd 0x43
      (BitVec.ofNat 512 (7 * 2 ^ 128 + 1 * 2 ^ 136 + 1 * 2 ^ 144 + 100 * 2 ^ 160 + 5000 * 2 ^ 208)), by decide +kernel⟩,
     ⟨tracking ((runIn modeRun).wr FHL_LANE_STATUS.state 3 5) (cmd 0x44 (BitVec.ofNat 512 (5 * 2 ^ 136 + 10 * 2 ^ 160 + 64 * 2 ^ 192 + 8192 * 2 ^
      256))), 7, cmd 0x44 (BitVec.ofNat 512 (5 * 2 ^ 136 + 10 * 2 ^ 160 + 64 * 2 ^ 192 + 8192 * 2 ^ 256)), 5, by decide +kernel⟩,
     ⟨tracking (runIn modeRun) (cmd 0x44 (BitVec.ofNat 512 (5 * 2 ^ 136 + 10 * 2 ^ 160 + 64 * 2 ^ 192 + 8192 * 2 ^ 256))), 7, cmd 0x44 (BitVec.ofNat
      512 (5 * 2 ^ 136 + 10 * 2 ^ 160 + 64 * 2 ^ 192 + 8192 * 2 ^ 256)), by decide +kernel⟩⟩

/-- States and operands that meet the hypotheses of each clause of `Obligations.LanesComeUpAndGoDown`. -/
theorem test_LanesComeUpAndGoDown_met :
    (∃ s : State, ∃ n : Fin 16, ∃ v : Word, s.link.up = true ∧ s.rd DEV_MODE.mode ≠ 0 ∧ s.boot.coreUp = true ∧ s.rd FHL_LANE_CFG.enable n = 0 ∧
      porterUp s = true ∧ 1 ≤ bits v.toNat 0 3 ∧ bits v.toNat 0 3 ≤ 3 ∧ 1518 ≤ bits v.toNat 16 14 ∧ bits v.toNat 16 14 ≤ 9600 ∧ s.rd
      FHL_LANE_CFG.mode (n - 1) ≠ 4 ∧ laneState s n ≠ lnDropped) ∧
    (∃ s : State, ∃ n : Fin 16, ∃ _v : Word, s.link.up = true ∧ s.rd DEV_MODE.mode ≠ 0 ∧ s.boot.coreUp = true ∧ laneState s n ≠ lnDropped ∧
      s.fh.scans = []) ∧
    (∃ s : State, ∃ n : Fin 16, ∃ _h : List Nat, laneState s n = lnAcquire ∧ (laneOf s n).wait = false ∧ (laneOf s n).looped = false ∧ porterUp s =
      true) ∧
    (∃ s : State, ∃ n : Fin 16, laneState s n = lnAlign ∧ (laneOf s n).wait = false ∧ porterUp s = true) ∧
    (∃ s : State, ∃ n : Fin 16, (laneState s n = lnAcquire ∨ laneState s n = lnAlign) ∧ (laneOf s n).wait = false ∧ (laneOf s n).looped = false) ∧
    (∃ s : State, ∃ n : Fin 16, (laneState s n = lnAcquire ∨ laneState s n = lnAlign) ∧ (laneOf s n).wait = false ∧ (laneOf s n).looped = false) ∧
    (∃ s : State, ∃ n : Fin 16, (laneOf s n).wait = true) ∧
    (∃ s : State, ∃ n : Fin 16, laneState s n = lnUp ∧ s.fh.scans = []) ∧
    (∃ s : State, ∃ n : Fin 16, laneState s n = lnUp ∧ s.rd FHL_LANE_STATUS.ts_settled n = 0 ∧ (laneOf s n).txEi = false ∧ (laneOf s n).rxEi = false)
      ∧
    (∃ s : State, ∃ n : Fin 16, s.rd DEV_MODE.mode = modeRun ∧ s.rd FHL_LANE_CFG.ei_enable n = 1 ∧ laneState s n = lnUp ∧ (laneMode s n = 1 ∨
      laneMode s n = 2) ∧ s.rd TIM_STATUS.synce_sel ≠ n ∧ s.rd CLK_REF_STATUS.current ≠ (n : Nat) + 1 ∧ txPending s n = false ∧ (laneOf s n).txEi =
      false) ∧
    (∃ s : State, ∃ n : Fin 16, laneState s n = lnUp ∧ s.rd FHL_LANE_CFG.rx_ei_tolerate n = 1) ∧
    (∃ s : State, ∃ n : Fin 16, laneState s n = lnUp ∧ s.rd FHL_LANE_CFG.rx_ei_tolerate n ≠ 1 ∧ s.fh.scans = []) ∧
    (∃ s : State, ∃ n : Fin 16, (laneOf s n).rxEi = true ∧ (laneOf s n).txEi = false) ∧
    (∃ s : State, ∃ n : Fin 16, (laneOf s n).rxEi = true ∧ laneState s n = lnUp ∧ s.fh.scans = []) :=
    ⟨⟨runIn modeRun, 5, 0x05EE0011, by decide +kernel⟩,
     ⟨laneIn 3, 5, 0x25800001, by decide +kernel⟩,
     ⟨withLane (laneIn 1) ({ Lane.zero with since := 5 }), 5, [1, 2, 9, 9, 3], by decide +kernel⟩,
     ⟨withLane (laneIn 2) ({ Lane.zero with since := 5 }), 5, by decide +kernel⟩,
     ⟨withLane (laneIn 1) ({ Lane.zero with since := 5 }), 5, by decide +kernel⟩,
     ⟨withLane (laneIn 2) ({ Lane.zero with since := 5 }), 5, by decide +kernel⟩,
     ⟨withLane (laneIn 2) ({ Lane.zero with since := 5, wait := true }), 5, by decide +kernel⟩,
     ⟨withLane (laneIn 3) ({ Lane.zero with since := 5 }), 5, by decide +kernel⟩,
     ⟨withLane (laneIn 3) ({ Lane.zero with since := 5 }), 5, by decide +kernel⟩,
     ⟨withLane (((laneIn 3).wr FHL_LANE_CFG.ei_enable 1 5).wr FHL_LANE_STATUS.mode_in_use 1 5) { Lane.zero with since := 5 }, 5, by decide +kernel⟩,
     ⟨(laneIn 3).wr FHL_LANE_CFG.rx_ei_tolerate 1 5, 5, by decide +kernel⟩,
     ⟨laneIn 3, 5, by decide +kernel⟩,
     ⟨withLane (laneIn 3) ({ Lane.zero with rxEi := true }), 5, by decide +kernel⟩,
     ⟨withLane (laneIn 3) ({ Lane.zero with rxEi := true }), 5, by decide +kernel⟩⟩

/-- States and operands that meet the hypotheses of each clause of `Obligations.FramesScansAndLaneErrors`. -/
theorem test_FramesScansAndLaneErrors_met :
    (∃ s : State, ∃ n : Fin 16, ∃ l : List Byte, ∃ _off : Int, laneState s n = lnUp ∧ s.boot.coreUp = true ∧ s.boot.d0 = .idle ∧ ¬(be l 12 2 = 0x8808
      ∧ be l 14 2 = 1) ∧ s.rd FHL_LANE_CFG.max_frame n ≤ bufSize s n - bufUsed (laneOf s n) ∧ 60 ≤ l.length ∧ l.length + 4 ≤ s.rd
      FHL_LANE_CFG.max_frame n ∧ ruleOf s n (classKey l) = none ∧ s.rd FHL_CLS_DEFAULT.action n = 1 ∧ (sparseFind s.fh.bound n).any (channelLive s) =
      true ∧ dieOpen s 2 = true ∧ holdCycle s = false) ∧
    (∃ s : State, ∃ n : Fin 16, ∃ l : List Byte, ∃ _off : Int, ∃ r : Nat, laneState s n = lnUp ∧ s.boot.coreUp = true ∧ s.boot.d0 = .idle ∧ ¬(be l 12
      2 = 0x8808 ∧ be l 14 2 = 1) ∧ s.rd FHL_LANE_CFG.max_frame n ≤ bufSize s n - bufUsed (laneOf s n) ∧ 60 ≤ l.length ∧ l.length + 4 ≤ s.rd
      FHL_LANE_CFG.max_frame n ∧ ruleOf s n (classKey l) = some r ∧ s.rd FHL_RULE.action n r = 1) ∧
    (∃ s : State, ∃ n : Fin 16, ∃ l : List Byte, ∃ _off : Int, ∃ r : Nat, ∃ _ready : Bool, laneState s n = lnUp ∧ s.boot.coreUp = true ∧ s.boot.d0 =
      .idle ∧ ¬(be l 12 2 = 0x8808 ∧ be l 14 2 = 1) ∧ s.rd FHL_LANE_CFG.max_frame n ≤ bufSize s n - bufUsed (laneOf s n) ∧ 60 ≤ l.length ∧ l.length +
      4 ≤ s.rd FHL_LANE_CFG.max_frame n ∧ ruleOf s n (classKey l) = some r ∧ s.rd FHL_RULE.action n r = 4 ∧ s.rd FHL_RULE.ring_len n r ≠ 0 ∧ s.rd
      FHL_RULE.ring_base n r + s.rd FHL_RULE.ring_len n r ≤ 8192 ∧ s.rd FHL_RULE.tile n r < 1024) ∧
    (∃ s : State, ∃ n : Fin 16, ∃ l : List Byte, ∃ _off : Int, ∃ _fcs : Bool, ∃ _pcs : Bool, ∃ _ready : Bool, laneState s n = lnUp ∧ s.boot.coreUp =
      true ∧ s.boot.d0 = .idle ∧ (be l 12 2 = 0x8808 ∧ be l 14 2 = 1)) ∧
    (∃ s : State, ∃ n : Fin 16, ∃ l : List Byte, ∃ _off : Int, ∃ _fcs : Bool, ∃ _pcs : Bool, ∃ _ready : Bool, laneState s n = lnUp ∧ s.boot.coreUp =
      true ∧ s.boot.d0 = .idle ∧ ¬(be l 12 2 = 0x8808 ∧ be l 14 2 = 1) ∧ ¬(s.rd FHL_LANE_CFG.max_frame n ≤ bufSize s n - bufUsed (laneOf s n))) ∧
    (∃ s : State, ∃ n : Fin 16, ∃ _l : List Byte, ∃ _under : Bool, s.boot.coreUp = true ∧ s.boot.d0 = .idle ∧ dieOpen s 2 = true ∧ (sparseFind
      s.fh.bound n).any (channelLive s) = true ∧ holdCycle s = false ∧ laneState s n = lnUp ∧ s.rd DEV_MODE.mode = modeRun ∧ s.rd DEV_MODE.safe_state
      ≠ 1 ∧ (laneOf s n).txEi = false ∧ (laneOf s n).onWire = []) ∧
    (∃ s : State, ∃ n : Fin 16, ∃ _l : List Byte, ∃ _under : Bool, ∃ e : Nat, ∃ b : Bool, s.boot.coreUp = true ∧ s.boot.d0 = .idle ∧ dieOpen s 2 =
      true ∧ (sparseFind s.fh.bound n).any (channelLive s) = true ∧ holdCycle s = false ∧ laneState s n = lnUp ∧ s.rd DEV_MODE.mode = modeRun ∧ s.rd
      DEV_MODE.safe_state ≠ 1 ∧ (laneOf s n).txEi = false ∧ (laneOf s n).onWire = [(e, b)] ∧ s.now < e) ∧
    (∃ s : State, ∃ n : Fin 16, ∃ _l : List Byte, ∃ _under : Bool, s.boot.coreUp = true ∧ s.boot.d0 = .idle ∧ dieOpen s 2 = true ∧ (sparseFind
      s.fh.bound n).any (channelLive s) = true ∧ holdCycle s = false ∧ (laneState s n ≠ lnUp ∨ egressOpen s = false)) ∧
    (∃ s : State, ∃ n : Fin 16, ∃ _v : Word, s.link.up = true ∧ s.rd DEV_MODE.mode ≠ 0 ∧ s.boot.coreUp = true ∧ (laneOf s n).txEi = false) ∧
    (∃ s : State, ∃ n : Fin 16, ∃ _off : Int, ∃ _st : Bool, txPending s n = true ∧ s.boot.coreUp = true ∧ s.boot.d0 = .idle ∧ (laneOf s n).slowTx =
      none) ∧
    (∃ s : State, ∃ n : Fin 16, ∃ _off : Int, ∃ x : SlowTx, txPending s n = true ∧ s.boot.coreUp = true ∧ s.boot.d0 = .idle ∧ (laneOf s n).slowTx =
      some x ∧ x.whole = true ∧ x.sent = false ∧ x.flags = 0 ∧ slowStatus s n x = 1 ∧ (laneOf s n).txEi = false ∧ (laneOf s n).onWire = []) ∧
    (∃ s : State, ∃ n : Fin 16, ∃ _off : Int, ∃ _st : Bool, ∃ x : SlowTx, txPending s n = true ∧ s.boot.coreUp = true ∧ s.boot.d0 = .idle ∧ (laneOf s
      n).slowTx = some x ∧ x.whole = true ∧ x.sent = false ∧ slowStatus s n x ≠ 1) ∧
    (∃ s : State, ∃ n : Fin 16, ∃ init : Nat, ∃ tag : Fin 256, ∃ r : NocReq, ∃ x : SlowTx, reqOf s init tag = some r ∧ r.answered = true ∧ r.dropped
      = false ∧ r.refused = true ∧ r.owner = .slow n .back ∧ r.init < 256 ∧ (laneOf s n).slowTx = some x) ∧
    (∃ s : State, ∃ n : Fin 16, ∃ _corrected : Nat, ∃ e : Nat, laneState s n = lnUp ∧ s.rd FHL_LANE_CFG.mode n = 1 ∧ macOf s n = n ∧ (laneOf s
      n).onWire = [] ∧ laneLimit s 1 < e ∧ s.fh.scans = [] ∧ s.rd DEV_MODE.mode = modeRun ∧ s.rd PRL_STATUS.fit = 0) ∧
    (∃ s : State, ∃ n : Fin 16, ∃ _corrected : Nat, ∃ e : Nat, ∃ _l : List Byte, laneState s n = lnUp ∧ s.rd FHL_LANE_CFG.mode n = 1 ∧ macOf s n = n
      ∧ laneLimit s 1 < e) ∧
    (∃ s : State, ∃ n : Fin 16, ∃ _corrected : Nat, ∃ e : Nat, ∃ _l : List Byte, laneState s n = lnUp ∧ s.rd FHL_LANE_CFG.mode n = 1 ∧ macOf s n = n
      ∧ e ≤ laneLimit s 1) ∧
    (∃ s : State, ∃ g : Fin 3, ∃ _p : List (BitVec 16), ∃ c : Scan, ∃ u : Track, s.fh.scans = [c] ∧ c.group = g ∧ c.intrusive = false ∧ trackOf s
      c.id = some u ∧ u.phase = .started ∧ s.link.up = true) :=
    ⟨⟨(withLane (laneIn 3) Lane.zero).wr FHL_CLS_DEFAULT.action 1 5, 5, aFrame, -3, by decide +kernel⟩,
     ⟨((laneIn 3).wr FHL_RULE.enable 1 5 7).wr FHL_RULE.action 1 5 7, 5, aFrame, 9, 7, by decide +kernel⟩,
     ⟨((((laneIn 3).wr FHL_RULE.enable 1 5 7).wr FHL_RULE.action 4 5 7).wr FHL_RULE.ring_len 64 5 7).wr FHL_RULE.tile 9 5 7, 5, aFrame, 9, 7, true,
      by decide +kernel⟩,
     ⟨laneIn 3, 5, List.replicate 12 1 ++ [0x88, 8, 0, 1] ++ aFrame, 0, false, false, true, by decide +kernel⟩,
     ⟨withLane (laneIn 3) { Lane.zero with buf := List.replicate 60 { ready := 0, data := List.replicate 1000 0, err := false, info := 0 } }, 5,
      aFrame, 0, false, false, true, by decide +kernel⟩,
     ⟨withLane ((laneIn 3).wr DEV_MODE.safe_state 0) Lane.zero, 5, aFrame, true, by decide +kernel⟩,
     ⟨withLane ((laneIn 3).wr DEV_MODE.safe_state 0) { Lane.zero with onWire := [(10 ^ 12, true)] }, 5, aFrame, false, 10 ^ 12, true,
      by decide +kernel⟩,
     ⟨withLane (laneIn 1) Lane.zero, 5, aFrame, true, by decide +kernel⟩,
     ⟨laneIn 3, 5, 9, by decide +kernel⟩,
     ⟨slowTx none, 5, 0, false, by decide +kernel⟩,
     ⟨slowTx (some (anEntry 20)), 5, 0, anEntry 20, by decide +kernel⟩,
     ⟨slowTx (some (anEntry 13)), 5, 0, false, anEntry 13, by decide +kernel⟩,
     ⟨{ slowTx (some (anEntry 20)) with noc := { (runIn modeRun).noc with reqs := [{ xyReq with init := 0x95, owner := .slow 5 .back, answered := true, refused := true }] } },
      5, 0x95, 6, { xyReq with init := 0x95, owner := .slow 5 .back, answered := true, refused := true }, anEntry 20, by decide +kernel⟩,
     ⟨laneIn 3, 5, 7, 65, by decide +kernel⟩,
     ⟨withLane (laneIn 3) { Lane.zero with onWire := [(9, true)] }, 5, 7, 65, [1, 2], by decide +kernel⟩,
     ⟨laneIn 3, 5, 7, 64, [1, 2], by decide +kernel⟩,
     ⟨{ tracking (laneIn 3) (begun 0x44 0) with fh := { Fh.start with scans := [{ id := 7, group := 0, lane := 5, intrusive := false, start := 0 }] } },
      0, [1, 2], { id := 7, group := 0, lane := 5, intrusive := false, start := 0 }, begun 0x44 0, by decide +kernel⟩⟩

/-- States and operands that meet the hypotheses of each clause of `Obligations.HousekeepingAndThrottling`. -/
theorem test_HousekeepingAndThrottling_met :
    (∃ s : State, ∃ _c : Vector (BitVec 12) 48, ∃ x : Vector (BitVec 12) 96, ∃ _a : Vector Nat 20, s.boot.porHeld = false ∧ s.boot.dormant = false ∧
      2 ≤ s.rd DEV_BOOT_STATUS.stage ∧ ((∀ n : Nat, n < 96 → toSigned 12 (x.toList.getD n 0).toNat < 115 * tempUnit)) ∧ s.rd THM_STATUS.band < 4) ∧
    (∃ s : State, ∃ _c : Vector (BitVec 12) 48, ∃ x : Vector (BitVec 12) 96, ∃ _a : Vector Nat 20, s.boot.porHeld = false ∧ s.boot.dormant = false ∧
      2 ≤ s.rd DEV_BOOT_STATUS.stage ∧ ((∀ n : Nat, n < 96 → toSigned 12 (x.toList.getD n 0).toNat < 115 * tempUnit))) ∧
    (∃ s : State, throttleRuns s = true ∧ thState s = thGrace) ∧
    (∃ s : State, throttleRuns s = true ∧ thState s = thEnforcing) ∧
    (∃ s : State, throttleRuns s = true ∧ thState s = thReleasing ∧ effTemp s < 105 * tempUnit ∧ s.rd THM_STATUS.step < 4) ∧
    (∃ s : State, throttleRuns s = true ∧ thState s = thReleasing ∧ effTemp s < 105 * tempUnit ∧ s.rd THM_STATUS.step < 4) ∧
    (∃ s : State, s.boot.porHeld = false ∧ s.wkt.restart = none ∧ s.wkt.stalled = true) ∧
    (∃ s : State, ∃ n : Nat, s.wkt.restart = some n) :=
    ⟨⟨aonUp, quietCodes, quietTemps, Vector.replicate 20 0, by decide +kernel⟩,
     ⟨aonUp, quietCodes, quietTemps, Vector.replicate 20 0, by decide +kernel⟩,
     ⟨throttling 1 0 106, by decide +kernel⟩,
     ⟨throttling 3 1 106, by decide +kernel⟩,
     ⟨throttling 4 2 100, by decide +kernel⟩,
     ⟨throttling 4 1 100, by decide +kernel⟩,
     ⟨{ runIn modeRun with wkt := { Wkt.start with stalled := true } }, by decide +kernel⟩,
     ⟨{ runIn modeRun with wkt := { Wkt.start with restart := some 5, paused := some 2 } }, 5, by decide +kernel⟩⟩

/-- States and operands that meet the hypotheses of each clause of `Obligations.PinsOwnersLevelsAndMatchers`. -/
theorem test_PinsOwnersLevelsAndMatchers_met :
    (∃ s : State, ∃ r : Fin 3, ∃ _v : Word, s.link.up = true ∧ s.rd DEV_MODE.mode ≠ 0 ∧ blockAnswers s 0x80100 = true ∧ s.pins.sleeping = false ∧
      blockAnswers s (0x80100 + 4 * (r : Nat)) = true) ∧
    (∃ s : State, ∃ n : Fin 64, ∃ _lv : Bool, ∃ _oe : Bool, ∃ e : Nat, sparseFind s.pins.hand n = some e ∧ s.pins.sleeping = false) ∧
    (∃ s : State, ∃ n : Fin 64, ∃ _b : Bool, s.boot.porHeld = false ∧ s.rd PIN_CFG.debounce_us n = 0 ∧ ((∀ m : Nat, m < 8 → s.rd PIN_MATCH_CFG.enable
      m = 0))) ∧
    (∃ s : State, ∃ n : Fin 64, ∃ b : Bool, s.boot.porHeld = false ∧ s.rd PIN_CFG.debounce_us n ≠ 0 ∧ pinBit s PIN_IN.level n ≠ pinLevel s n b ∧
      (sparseGet false s.pins.visible n ≠ pinLevel s n b ∨ sparseFind s.pins.steady n = none) ∧ ((∀ m : Nat, m < 8 → s.rd PIN_MATCH_CFG.enable m =
      0))) ∧
    (∃ s : State, ∃ n : Fin 64, ∃ b : Bool, ∃ k : Nat, s.boot.porHeld = false ∧ s.rd PIN_CFG.debounce_us n ≠ 0 ∧ sparseGet false s.pins.visible n =
      pinLevel s n b ∧ sparseFind s.pins.steady n = some k ∧ ((∀ m : Nat, m < 8 → s.rd PIN_MATCH_CFG.enable m = 0))) ∧
    (∃ s : State, ∃ n : Fin 64, ∃ e : Nat, s.pins.steady = [((n : Nat), e)] ∧ ((∀ m : Nat, m < 8 → s.rd PIN_MATCH_CFG.enable m = 0))) ∧
    (∃ s : State, ∃ m : Fin 8, ∃ v : Word, s.link.up = true ∧ s.rd DEV_MODE.mode ≠ 0 ∧ blockAnswers s 0x80100 = true ∧ v.toNat % 2 = 1 ∧ 8 < maskBits
      (s.rd PIN_MATCH_MASK.mask m)) ∧
    (∃ s : State, ∃ m : Fin 8, ∃ v : Word, s.link.up = true ∧ s.rd DEV_MODE.mode ≠ 0 ∧ blockAnswers s 0x80100 = true ∧ v.toNat % 2 = 1 ∧ bits v.toNat
      1 3 = 0 ∧ maskBits (s.rd PIN_MATCH_MASK.mask m) ≤ 8 ∧ s.rd PIN_MATCH_CFG.enable m = 0 ∧ s.rd PIN_MATCH_STATUS.event m = 0) :=
    ⟨⟨aonUp, 0, 9, by decide +kernel⟩,
     ⟨{ aonUp with pins := { Pins.start with hand := [(9, 77)], bound := [(9, 7)] } }, 9, true, true, 77, by decide +kernel⟩,
     ⟨aonUp, 40, true, by decide +kernel⟩,
     ⟨aonUp.wr PIN_CFG.debounce_us 5 40, 40, true, by decide +kernel⟩,
     ⟨{ aonUp.wr PIN_CFG.debounce_us 5 40 with pins := { aonUp.pins with visible := [(40, true)], steady := [(40, 7)] } }, 40, true, 7,
      by decide +kernel⟩,
     ⟨{ aonUp.wr PIN_CFG.debounce_us 5 40 with pins := { Pins.start with visible := [(40, true)], steady := [(40, 8)] } }, 40, 8, by decide +kernel⟩,
     ⟨aonUp.wr PIN_MATCH_MASK.mask 0x1FF 3, 3, 1, by decide +kernel⟩,
     ⟨aonUp, 3, 1, by decide +kernel⟩⟩

/-- States and operands that meet the hypotheses of each clause of `Obligations.BolrynLinkComesUpAndNarrows`. -/
theorem test_BolrynLinkComesUpAndNarrows_met :
    (∃ s : State, ∃ v : Word, s.link.up = true ∧ s.rd DEV_MODE.mode ≠ 0 ∧ s.boot.coreUp = true ∧ s.rd DEV_MODE.mode ≠ modeLead ∧ s.rd DEV_MODE.mode ≠
      modeShadow ∧ v.toNat.testBit 0 = true ∧ s.rd PRL_CFG.enable = 0 ∧ gridOk s = true ∧ linkState s ≠ lkActive) ∧
    (∃ s : State, ∃ v : Word, s.link.up = true ∧ s.rd DEV_MODE.mode ≠ 0 ∧ s.boot.coreUp = true ∧ s.rd DEV_MODE.mode ≠ modeLead ∧ s.rd DEV_MODE.mode ≠
      modeShadow ∧ v.toNat.testBit 0 = true ∧ s.rd PRL_CFG.enable = 0 ∧ gridOk s = false) ∧
    (∃ s : State, ∃ _p : Fin 9, linkRuns s = true ∧ linkWidth s ≠ 0 ∧ (linkState s = lkDetect ∨ linkState s = lkTrain ∨ linkState s = lkLock)) ∧
    (∃ s : State, ∃ _p : Fin 9, linkRuns s = true ∧ linkWidth s ≠ 0 ∧ linkState s = lkExchange ∧ s.rd DEV_MODE.mode ≠ modeShadow) ∧
    (∃ s : State, (linkState s = lkTrain ∨ linkState s = lkLock ∨ linkState s = lkExchange)) ∧
    (∃ s : State, (linkState s = lkTrain ∨ linkState s = lkLock ∨ linkState s = lkExchange)) ∧
    (∃ s : State, ∃ n : Fin 8, ∃ e : Nat, linkState s = lkActive ∧ laneLimit s 3 < e ∧ bit (s.rd PRL_STATUS.dropped) n = false ∧ s.fh.scans = []) ∧
    (∃ s : State, ∃ _n : Fin 8, ∃ _up : Bool, linkState s ≠ lkActive) ∧
    (∃ s : State, ∃ n : Fin 8, linkState s = lkActive ∧ lanePairUsable s (n / 2) = true ∧ linkWidth s = 8 ∧ s.rd PRL_STATUS.width = 8 ∧
      s.pair.readapt = []) ∧
    (∃ s : State, ∃ w : Nat, ∃ tr : Nat, s.pair.widthAt = some (w, tr)) ∧
    (∃ s : State, pairActive s = true ∧ s.rd PRL_STATUS.tx_sleep = 0) ∧
    (∃ s : State, ∃ d : PairData, pairActive s = true ∧ s.pair.tx = [d] ∧ d0Fenced s = false) ∧
    (∃ s : State, ∃ k : Nat, ∃ rest : List Nat, s.pair.readapt = k :: rest) :=
    ⟨⟨(paired modeRun).wr PRL_STATUS.link_state 0, 0x0503, by decide +kernel⟩,
     ⟨(paired modeRun).wr PRL_SYM_LEN.sym_ns 1999, 1, by decide +kernel⟩,
     ⟨((paired modeRun).wr PRL_STATUS.link_state 2).wr PRL_CFG.enable 1, 8, by decide +kernel⟩,
     ⟨((paired modeRun).wr PRL_STATUS.link_state 4).wr PRL_CFG.enable 1, 6, by decide +kernel⟩,
     ⟨(paired modeRun).wr PRL_STATUS.link_state 3, by decide +kernel⟩,
     ⟨(paired modeRun).wr PRL_STATUS.link_state 2, by decide +kernel⟩,
     ⟨paired modeRun, 3, 9, by decide +kernel⟩,
     ⟨(paired modeRun).wr PRL_STATUS.link_state 1, 3, false, by decide +kernel⟩,
     ⟨paired modeRun, 3, by decide +kernel⟩,
     ⟨pairedAs modeRun { Pair.start with widthAt := some (6, 40) }, 6, 40, by decide +kernel⟩,
     ⟨paired modeRun, by decide +kernel⟩,
     ⟨pairedAs modeLead { Pair.start with tx := [.write 0x1000000000 [1, 2]] }, .write 0x1000000000 [1, 2], by decide +kernel⟩,
     ⟨pairedAs modeRun { Pair.start with readapt := [1, 2] }, 1, [2], by decide +kernel⟩⟩

/-- States and operands that meet the hypotheses of each clause of `Obligations.PairCommandsBegin`. -/
theorem test_PairCommandsBegin_met :
    (∃ s : State, ∃ id : Nat, ∃ u : Track, Startable s id 0x50 u ∧ s.rd DEV_MODE.mode = modeRun ∧ u.par 0x10 1 ≤ 1 ∧ u.par 0x11 1 ≤ 1 ∧ transitioning
      s = false ∧ pairActive s = true ∧ thermalLimit s = false ∧ s.pair.heard = none) ∧
    (∃ s : State, ∃ id : Nat, ∃ u : Track, Startable s id 0x50 u ∧ s.rd DEV_MODE.mode = modeRun ∧ u.par 0x10 1 ≤ 1 ∧ u.par 0x11 1 ≤ 1 ∧ transitioning
      s = false ∧ pairActive s = false) ∧
    (∃ s : State, ∃ id : Nat, ∃ u : Track, Startable s id 0x51 u ∧ (s.rd DEV_MODE.mode = modeLead ∨ s.rd DEV_MODE.mode = modeShadow) ∧ transitioning
      s = false ∧ pairActive s = true) ∧
    (∃ s : State, ∃ id : Nat, ∃ u : Track, Startable s id 0x52 u ∧ (s.rd DEV_MODE.mode = modeLead ∨ s.rd DEV_MODE.mode = modeShadow) ∧ pairActive s =
      true ∧ s.rd PRL_STATUS.fit = 1 ∧ s.pair.takeover = none) ∧
    (∃ s : State, ∃ id : Nat, ∃ u : Track, Startable s id 0x53 u ∧ (s.rd DEV_MODE.mode = modeLead ∨ s.rd DEV_MODE.mode = modeShadow) ∧ pairActive s =
      true ∧ u.par 0x10 4 ≠ 0 ∧ 1 ≤ u.par 0x14 1 ∧ u.par 0x14 1 ≤ 16 ∧ u.par 0x18 8 % 8 = 0 ∧ s.pair.prepared = none ∧ s.pair.partnerFailed = none) ∧
    (∃ s : State, ∃ id : Nat, ∃ u : Track, ∃ p : Prepared, Startable s id 0x54 u ∧ s.rd DEV_MODE.mode = modeLead ∧ pairActive s = true ∧ u.par 0x14 1
      ≤ 1 ∧ s.pair.prepared = some p ∧ p.change = u.par 0x10 4 ∧ p.own = true ∧ p.partner = true ∧ s.pair.committing = none) ∧
    (∃ s : State, ∃ id : Nat, ∃ u : Track, Startable s id 0x54 u ∧ unpaired s = true) ∧
    (∃ s : State, ∃ v : Word, s.link.up = true ∧ s.rd DEV_MODE.mode ≠ 0 ∧ blockAnswers s 0x150020 = true ∧ v.toNat.testBit 26 = true ∧ s.rd
      DEV_MODE.mode = modeShadow ∧ s.rd PRL_STATUS.fit = 1) ∧
    (∃ s : State, ∃ v : Word, s.link.up = true ∧ s.rd DEV_MODE.mode ≠ 0 ∧ blockAnswers s 0x150020 = true ∧ v.toNat.testBit 26 = true ∧ (s.rd
      DEV_MODE.mode ≠ modeShadow ∨ s.rd PRL_STATUS.fit ≠ 1)) :=
    ⟨⟨tracking (paired modeRun) (cmd 0x50 (BitVec.ofNat 512 (1 * 2 ^ 128))), 7, cmd 0x50 (BitVec.ofNat 512 (1 * 2 ^ 128)), by decide +kernel⟩,
     ⟨tracking (runIn modeRun) (cmd 0x50 (BitVec.ofNat 512 (1 * 2 ^ 128))), 7, cmd 0x50 (BitVec.ofNat 512 (1 * 2 ^ 128)), by decide +kernel⟩,
     ⟨tracking (paired modeShadow) (cmd 0x51 (BitVec.ofNat 512 (0))), 7, cmd 0x51 (BitVec.ofNat 512 (0)), by decide +kernel⟩,
     ⟨tracking ((paired modeLead).wr PRL_STATUS.fit 1) (cmd 0x52 (BitVec.ofNat 512 (0))), 7, cmd 0x52 (BitVec.ofNat 512 (0)), by decide +kernel⟩,
     ⟨tracking (paired modeLead) (cmd 0x53 (BitVec.ofNat 512 (5 * 2 ^ 128 + 2 * 2 ^ 160 + 64 * 2 ^ 192))), 7, cmd 0x53 (BitVec.ofNat 512 (5 * 2 ^ 128
      + 2 * 2 ^ 160 + 64 * 2 ^ 192)), by decide +kernel⟩,
     ⟨tracking (pairedAs modeLead
      { Pair.start with prepared := some { id := 6, change := 5, tracks := [], own := true, partner := true, applied := false } }) (cmd 0x54
      (BitVec.ofNat 512 (5 * 2 ^ 128))), 7, cmd 0x54 (BitVec.ofNat 512 (5 * 2 ^ 128)),
      { id := 6, change := 5, tracks := [], own := true, partner := true, applied := false }, by decide +kernel⟩,
     ⟨tracking (paired modeRun) (cmd 0x54 (BitVec.ofNat 512 (5 * 2 ^ 128))), 7, cmd 0x54 (BitVec.ofNat 512 (5 * 2 ^ 128)), by decide +kernel⟩,
     ⟨((paired modeShadow).wr PRL_STATUS.fit 1).wr DEV_BOOT_STATUS.stage 4, 0x04000009, by decide +kernel⟩,
     ⟨(paired modeRun).wr DEV_BOOT_STATUS.stage 4, 0x04000009, by decide +kernel⟩⟩

/-- States and operands that meet the hypotheses of each clause of `Obligations.PairFormsDissolvesAndListens`. -/
theorem test_PairFormsDissolvesAndListens_met :
    (∃ s : State, ∃ b : ControlBlock, pairActive s = true ∧ unpaired s = true ∧ b.note = .none ∧ b.nak = 0) ∧
    (∃ s : State, ∃ _b : ControlBlock, pairActive s = true) ∧
    (∃ s : State, ∃ b : ControlBlock, pairActive s = true ∧ s.rd DEV_MODE.mode = modeLead ∧ b.role = 2 ∧ b.unit = 0 ∧ b.takeover = false ∧ b.note =
      .none ∧ b.nak = 0) ∧
    (∃ s : State, ∃ b : ControlBlock, pairActive s = true ∧ s.rd DEV_MODE.mode = modeShadow ∧ b.role = 1 ∧ b.selfFault = true ∧ b.note = .none ∧
      b.nak = 0 ∧ s.rd PRL_STATUS.fit = 1 ∧ s.pair.takeover = none) ∧
    (∃ s : State, ∃ _train : Nat, ∃ _k : Fin 24, ∃ _b : Fin 4096, ∃ _w : Fin 4096, ∃ _d : Word64, pairActive s = true ∧ s.rd DEV_MODE.mode =
      modeShadow) ∧
    (∃ s : State, ∃ _train : Nat, ∃ _k : Fin 24, ∃ _d : PairData, pairActive s = true) ∧
    (∃ s : State, ∃ _train : Nat, ∃ _k : Fin 24, ∃ f : Nat, ∃ q : Nat, ∃ seq : Nat, ∃ _cid : Nat, ∃ st : Nat, ∃ _r : Nat, ∃ _r2 : Nat, pairActive s =
      true ∧ s.rd DEV_MODE.mode = modeShadow ∧ sparseFind s.pair.mirrors (f * 256 + q) = none ∧ st ≠ Status.cancelled.code ∧ st ≠
      Status.dieReset.code ∧ seq < 2 ^ 48) ∧
    (∃ s : State, ∃ f : Forming, ∃ e : Nat, ∃ u : Track, s.pair.forming = some f ∧ f.edge = some e ∧ trackOf s f.id = some u ∧ u.phase = .started ∧
      f.role ≤ 1 ∧ s.rd DEV_MODE.mode = modeRun) ∧
    (∃ s : State, ∃ f : Forming, s.pair.forming = some f ∧ f.edge = none ∧ underWay s f.id = true) ∧
    (∃ s : State, ∃ id : Nat, ∃ e : Nat, ∃ p : Prepared, s.pair.committing = some { id := some id, abandon := true, edge := e } ∧ underWay s id =
      true ∧ s.pair.prepared = some p ∧ p.tracks = [] ∧ p.applied = false) ∧
    (∃ s : State, ∃ k : Track, ∃ e : Nat, ∃ p : Prepared, s.pair.committing = some { id := none, abandon := false, edge := e } ∧ s.pair.prepared =
      some p ∧ p.tracks = [k.id] ∧ trackOf s k.id = some k ∧ k.op = 0x15 ∧ k.par 0x10 1 ≤ 7 ∧ committed s (k.par 0x10 1) = true ∧ activeCtx s ≠ some
      (k.par 0x10 1)) ∧
    (∃ s : State, ∃ i : Nat, ∃ e : Nat, s.pair.dissolve = some (some i, e) ∧ underWay s i = true ∧ (s.rd DEV_MODE.mode = modeLead ∨ s.rd
      DEV_MODE.mode = modeShadow) ∧ s.pair.prepared = none ∧ s.pair.committing = none ∧ s.pair.takeover = none) ∧
    (∃ s : State, ∃ i : Nat, ∃ e : Nat, s.pair.dissolve = some (some i, e) ∧ underWay s i = true ∧ (s.rd DEV_MODE.mode = modeLead ∨ s.rd
      DEV_MODE.mode = modeShadow) ∧ s.pair.prepared = none ∧ s.pair.committing = none ∧ s.pair.takeover = none) :=
    ⟨⟨paired modeRun, aBlock, by decide +kernel⟩,
     ⟨paired modeRun, aBlock, by decide +kernel⟩,
     ⟨paired modeLead, { aBlock with role := 2, fit := true }, by decide +kernel⟩,
     ⟨(paired modeShadow).wr PRL_STATUS.fit 1, { aBlock with role := 1, selfFault := true, fault := 4 }, by decide +kernel⟩,
     ⟨paired modeShadow, 3, 2, 5, 8, 0x1122334455667788, by decide +kernel⟩,
     ⟨paired modeShadow, 3, 2, .write 64 [5], by decide +kernel⟩,
     ⟨paired modeShadow, 3, 2, 0, 1, 5, 6, 0, 7, 8, by decide +kernel⟩,
     ⟨{ tracking (paired modeRun) (begun 0x50 0) with pair := { Pair.start with forming := some { id := 7, role := 1, since := 3, edge := some 655360000000 } } },
      { id := 7, role := 1, since := 3, edge := some 655360000000 }, 655360000000, begun 0x50 0, by decide +kernel⟩,
     ⟨{ tracking (paired modeRun) (begun 0x50 0) with pair := { Pair.start with forming := some { id := 7, role := 1, since := 3, edge := none } } },
      { id := 7, role := 1, since := 3, edge := none }, by decide +kernel⟩,
     ⟨{ tracking (paired modeLead) (begun 0x54 0) with pair := { Pair.start with committing := some { id := some 7, abandon := true, edge := 5 }, prepared := some { id := 6, change := 5, tracks := [], own := true, partner := true, applied := false } } },
      7, 5, { id := 6, change := 5, tracks := [], own := true, partner := true, applied := false }, by decide +kernel⟩,
     ⟨{ tracking (paired modeShadow) { begun 0x15 (BitVec.ofNat 512 (3 * 2 ^ 128)) with pair := some 0, phase := .prepared } with imgs := { State.reset.imgs with ctx := [(3, plainImage)] }, pair := { Pair.start with committing := some { id := none, abandon := false, edge := 5 }, prepared := some { id := 6, change := 5, tracks := [7], own := true, partner := true, applied := false } } },
      { begun 0x15 (BitVec.ofNat 512 (3 * 2 ^ 128)) with pair := some 0, phase := .prepared }, 5,
      { id := 6, change := 5, tracks := [7], own := true, partner := true, applied := false }, by decide +kernel⟩,
     ⟨{ tracking (paired modeShadow) (begun 0x51 0) with pair := { Pair.start with dissolve := some (some 7, 5) } }, 7, 5, by decide +kernel⟩,
     ⟨{ tracking (paired modeLead) (begun 0x51 0) with pair := { Pair.start with dissolve := some (some 7, 5) } }, 7, 5, by decide +kernel⟩⟩

/-- States and operands that meet the hypotheses of each clause of `Obligations.UnitsAreComparedAndReleased`. -/
theorem test_UnitsAreComparedAndReleased_met :
    (∃ s : State, s.pair.unit ≠ 0 ∧ udigPa s = 0 ∧ pairActive s = true ∧ s.rd DEV_MODE.mode = modeShadow) ∧
    (∃ s : State, s.pair.unit ≠ 0 ∧ udigPa s = 0 ∧ pairActive s = true ∧ s.rd DEV_MODE.mode = modeShadow) ∧
    (∃ s : State, ∃ d : BitVec 64, s.pair.unit ≠ 0 ∧ udigPa s = 0 ∧ pairActive s = true ∧ s.rd DEV_MODE.mode = modeLead ∧ s.pair.unitSuspended =
      false ∧ s.pair.early = [(s.pair.unit, d, none)] ∧ s.pair.mismatch = none ∧ s.pair.frameFrom = none ∧ s.pair.closed = []) ∧
    (∃ s : State, ∃ d : BitVec 64, s.pair.unit ≠ 0 ∧ udigPa s = 0 ∧ pairActive s = true ∧ s.rd DEV_MODE.mode = modeLead ∧ s.pair.unitSuspended =
      false ∧ s.pair.early = [(s.pair.unit, d, none)] ∧ s.pair.mismatch = none ∧ s.pair.frameFrom = none ∧ s.pair.closed = []) ∧
    (∃ s : State, ∃ h : HeldFrame, ∃ c : ClosedUnit, s.pair.held = [h] ∧ s.pair.closed.find? (fun x => x.unit == h.unit) = some c ∧ c.verdict = some
      true ∧ egressOpen s = true ∧ laneState s h.lane = lnUp ∧ (laneOf s h.lane).txEi = false ∧ (laneOf s h.lane).onWire = []) ∧
    (∃ s : State, ∃ h : HeldFrame, ∃ c : ClosedUnit, s.pair.held = [h] ∧ s.pair.closed.find? (fun x => x.unit == h.unit) = some c ∧ c.verdict ≠ some
      true) ∧
    (∃ s : State, ∃ h : HeldFrame, ∃ c : ClosedUnit, s.pair.held = [h] ∧ s.pair.closed.find? (fun x => x.unit == h.unit) = some c ∧ c.verdict ≠ some
      true) ∧
    (∃ s : State, ∃ c : ClosedUnit, ∃ own : Bool, ∃ other : Bool, s.pair.mismatch = some c ∧ s.pair.ownReport = some own ∧ s.pair.partnerReport =
      some other ∧ s.rd DEV_MODE.mode = modeShadow ∧ s.rd PRL_STATUS.fit = 1 ∧ s.pair.takeover = none ∧ pairActive s = true) ∧
    (∃ s : State, ∃ c : ClosedUnit, ∃ own : Bool, ∃ other : Bool, s.pair.mismatch = some c ∧ s.pair.ownReport = some own ∧ s.pair.partnerReport =
      some other ∧ s.rd DEV_MODE.mode = modeShadow ∧ s.rd PRL_STATUS.fit = 1 ∧ s.pair.takeover = none ∧ pairActive s = true) ∧
    (∃ s : State, ∃ c : ClosedUnit, ∃ own : Bool, ∃ other : Bool, s.pair.mismatch = some c ∧ s.pair.ownReport = some own ∧ s.pair.partnerReport =
      some other ∧ s.rd DEV_MODE.mode = modeShadow ∧ s.rd PRL_STATUS.fit = 1 ∧ s.pair.takeover = none ∧ pairActive s = true) ∧
    (∃ s : State, s.pair.copying = true ∧ s.rd DEV_MODE.mode = modeShadow) ∧
    (∃ s : State, s.pair.copying = true ∧ s.rd DEV_MODE.mode = modeLead ∧ pairActive s = true ∧ s.rd PRL_STATUS.tx_sleep = 0 ∧ d0Fenced s = false) ∧
    (∃ s : State, ∃ f : Nat, s.pair.frameFrom = some f ∧ s.rd DEV_MODE.mode = modeShadow ∧ s.pair.dirty = false) ∧
    (∃ s : State, ∃ f : Nat, s.pair.frameFrom = some f ∧ s.rd DEV_MODE.mode = modeShadow ∧ s.pair.dirty = true ∧ pairActive s = true) ∧
    (∃ s : State, ∃ f : Nat, s.pair.frameFrom = some f ∧ s.rd DEV_MODE.mode = modeShadow ∧ s.pair.dirty = true ∧ pairActive s = true) :=
    ⟨⟨pairedAs modeShadow { Pair.start with unit := 1, frames := [(5, [1, 2, 3])] }, by decide +kernel⟩,
     ⟨pairedAs modeShadow { Pair.start with unit := 1, inject := true }, by decide +kernel⟩,
     ⟨pairedAs modeLead { Pair.start with unit := 1, early := [(1, 5, none)] }, 5, by decide +kernel⟩,
     ⟨pairedAs modeLead { Pair.start with unit := 1, early := [(1, crc64 [], none)] }, crc64 [], by decide +kernel⟩,
     ⟨{ ((paired modeLead).wr FHL_LANE_STATUS.state 3 5).wr DEV_MODE.safe_state 0 with pair := { Pair.start with held := [{ unit := 3, lane := 5, data := [1, 2], bad := false, at_ := 4 }], closed := [{ unit := 3, digest := 9, word := none, suspended := false, since := 0, closed := 5, verdict := some true }] } },
      { unit := 3, lane := 5, data := [1, 2], bad := false, at_ := 4 },
      { unit := 3, digest := 9, word := none, suspended := false, since := 0, closed := 5, verdict := some true }, by decide +kernel⟩,
     ⟨pairedAs modeLead
      { Pair.start with held := [{ unit := 3, lane := 5, data := [1, 2], bad := false, at_ := 4 }], closed := [{ unit := 3, digest := 9, word := none, suspended := false, since := 0, closed := 5, verdict := none }] },
      { unit := 3, lane := 5, data := [1, 2], bad := false, at_ := 4 },
      { unit := 3, digest := 9, word := none, suspended := false, since := 0, closed := 5, verdict := none }, by decide +kernel⟩,
     ⟨pairedAs modeLead
      { Pair.start with held := [{ unit := 3, lane := 5, data := [1, 2], bad := false, at_ := 4 }], closed := [{ unit := 3, digest := 9, word := none, suspended := false, since := 0, closed := 5, verdict := some false }] },
      { unit := 3, lane := 5, data := [1, 2], bad := false, at_ := 4 },
      { unit := 3, digest := 9, word := none, suspended := false, since := 0, closed := 5, verdict := some false }, by decide +kernel⟩,
     ⟨{ (paired modeShadow).wr PRL_STATUS.fit 1 with pair := { Pair.start with mismatch := some { unit := 3, digest := 9, word := none, suspended := false, since := 0, closed := 5, verdict := none }, ownReport := some true, partnerReport := some true } },
      { unit := 3, digest := 9, word := none, suspended := false, since := 0, closed := 5, verdict := none }, true, true, by decide +kernel⟩,
     ⟨{ (paired modeShadow).wr PRL_STATUS.fit 1 with pair := { Pair.start with mismatch := some { unit := 3, digest := 9, word := none, suspended := false, since := 0, closed := 5, verdict := none }, ownReport := some false, partnerReport := some true } },
      { unit := 3, digest := 9, word := none, suspended := false, since := 0, closed := 5, verdict := none }, false, true, by decide +kernel⟩,
     ⟨{ (paired modeShadow).wr PRL_STATUS.fit 1 with pair := { Pair.start with mismatch := some { unit := 3, digest := 9, word := none, suspended := false, since := 0, closed := 5, verdict := none }, ownReport := some true, partnerReport := some false } },
      { unit := 3, digest := 9, word := none, suspended := false, since := 0, closed := 5, verdict := none }, true, false, by decide +kernel⟩,
     ⟨pairedAs modeShadow { Pair.start with copying := true }, by decide +kernel⟩,
     ⟨{ pairedAs modeLead { Pair.start with copying := true } with mem := { State.reset.mem with words := [(7, ⟨5, false⟩)] } } |>.wr PRL_SYNC.enable
      1 0 |>.wr PRL_SYNC.count 1 0, by decide +kernel⟩,
     ⟨pairedAs modeShadow { Pair.start with frameFrom := some 5, agrees := true }, 5, by decide +kernel⟩,
     ⟨pairedAs modeShadow { Pair.start with frameFrom := some 5, dirty := true }, 5, by decide +kernel⟩,
     ⟨pairedAs modeShadow { Pair.start with frameFrom := some 5, dirty := true, rounds := 2 }, 5, by decide +kernel⟩⟩

/-- States and operands that meet the hypotheses of each clause of `Obligations.TakeoversAndPairTime`. -/
theorem test_TakeoversAndPairTime_met :
    (∃ s : State, s.rd DEV_MODE.mode = modeShadow ∧ s.pair.offsets ≠ [] ∧ (s.tim.steps.any (fun p => p.pair)) = false) ∧
    (∃ s : State, s.rd DEV_MODE.mode = modeShadow ∧ s.pair.offsets ≠ [] ∧ (s.tim.steps.any (fun p => p.pair)) = false) ∧
    (∃ s : State, ∃ e : Nat, s.pair.exchange = some e ∧ s.rd DEV_MODE.mode = modeShadow ∧ s.rd PRL_STATUS.fit = 1 ∧ s.tim.eng.state ≠ tmLocked ∧ ((∀
      b : Nat, b < 10 → b ≠ scMode → causeSet s b = false))) ∧
    (∃ s : State, ∃ e : Nat, s.pair.exchange = some e ∧ s.rd DEV_MODE.mode = modeLead ∧ s.rd PRL_STATUS.fit = 1) ∧
    (∃ s : State, ∃ e : Nat, s.pair.exchange = some e ∧ (s.rd DEV_MODE.mode = modeLead ∨ s.rd DEV_MODE.mode = modeShadow) ∧ s.rd PRL_STATUS.fit = 0)
      ∧
    (∃ s : State, ∃ e : Nat, s.pair.exchange = some e ∧ (s.rd DEV_MODE.mode = modeLead ∨ s.rd DEV_MODE.mode = modeShadow) ∧ s.rd PRL_STATUS.fit = 0)
      ∧
    (∃ s : State, s.pair.heartbeat = true ∧ s.rd DEV_MODE.mode = modeShadow ∧ s.rd PRL_STATUS.fit = 1 ∧ s.pair.takeover = none) ∧
    (∃ s : State, s.pair.heartbeat = true ∧ s.rd DEV_MODE.mode = modeShadow ∧ s.rd PRL_STATUS.fit ≠ 1 ∧ s.pair.takeover = none ∧ s.pair.prepared =
      none ∧ s.pair.committing = none ∧ s.pair.dissolve = none) ∧
    (∃ s : State, s.pair.heartbeat = true ∧ s.rd DEV_MODE.mode = modeLead ∧ s.rd PRL_CFG.lead_yield = 0) ∧
    (∃ s : State, ∃ k : Takeover, s.pair.takeover = some k ∧ k.id = none ∧ s.rd DEV_MODE.mode = modeShadow ∧ s.rd PRL_STATUS.fit = 1 ∧
      s.tim.eng.state ≠ tmLocked ∧ s.pair.mirrors = [] ∧ ((∀ b : Nat, b < 10 → b ≠ scMode → causeSet s b = false)) ∧ s.pair.prepared = none ∧
      s.pair.committing = none ∧ s.pair.dissolve = none) ∧
    (∃ s : State, ∃ y : Nat, s.pair.yieldAt = some y ∧ s.rd DEV_MODE.mode = modeLead ∧ s.pair.takeover = none ∧ s.pair.prepared = none ∧
      s.pair.committing = none ∧ s.pair.dissolve = none) ∧
    (∃ s : State, ∃ n : Nat, s.pair.absentSince = some n ∧ s.rd DEV_MODE.mode = modeLead ∧ s.rd PRL_CFG.partner_timeout_s ≠ 0 ∧ s.pair.takeover =
      none ∧ s.pair.prepared = none ∧ s.pair.committing = none ∧ s.pair.dissolve = none) :=
    ⟨⟨pairedAs modeShadow { Pair.start with offsets := [3, 4] }, by decide +kernel⟩,
     ⟨pairedAs modeShadow { Pair.start with offsets := [100000000, 4] }, by decide +kernel⟩,
     ⟨{ mute ((paired modeShadow).wr PRL_STATUS.fit 1) with pair := { Pair.start with exchange := some 5 } }, 5, by decide +kernel⟩,
     ⟨{ (paired modeLead).wr PRL_STATUS.fit 1 with pair := { Pair.start with exchange := some 5 } }, 5, by decide +kernel⟩,
     ⟨{ paired modeShadow with pair := { Pair.start with exchange := some 5 } }, 5, by decide +kernel⟩,
     ⟨pairedAs modeLead { Pair.start with exchange := some 5 }, 5, by decide +kernel⟩,
     ⟨{ (paired modeShadow).wr PRL_STATUS.fit 1 with pair := { Pair.start with heartbeat := true } }, by decide +kernel⟩,
     ⟨pairedAs modeShadow { Pair.start with heartbeat := true }, by decide +kernel⟩,
     ⟨pairedAs modeLead { Pair.start with heartbeat := true }, by decide +kernel⟩,
     ⟨{ mute ((paired modeShadow).wr PRL_STATUS.fit 1) with pair := { Pair.start with takeover := some { id := none, edge := 5, own := true } } },
      { id := none, edge := 5, own := true }, by decide +kernel⟩,
     ⟨pairedAs modeLead { Pair.start with yieldAt := some 5 }, 5, by decide +kernel⟩,
     ⟨{ (paired modeLead).wr PRL_CFG.partner_timeout_s 5 with pair := { Pair.start with absentSince := some 8 } }, 8, by decide +kernel⟩⟩

/-- States and operands that meet the hypotheses of each clause of `Obligations.ReferencesAreMeasuredAndNumbered`. -/
theorem test_ReferencesAreMeasuredAndNumbered_met :
    (∃ s : State, ∃ _v : Word, s.link.up = true ∧ s.rd DEV_MODE.mode ≠ 0 ∧ blockAnswers s 0x50034 = true) ∧
    (∃ s : State, ∃ _v : Word, s.link.up = true ∧ s.rd DEV_MODE.mode ≠ 0 ∧ blockAnswers s 0x50034 = true) ∧
    (∃ _s : State, ∃ w : Nat, ∃ _sub : Fin 21845, w < 100) ∧
    (∃ s : State, ∃ w : Nat, ∃ _sub : Fin 21845, ∃ e : Nat, 100 ≤ w ∧ s.tim.ppsEdge = some e) ∧
    (∃ s : State, ∃ w : Nat, ∃ _sub : Fin 21845, ∃ e : Nat, 100 ≤ w ∧ s.tim.ppsEdge = some e) ∧
    (∃ s : State, s.tim.ppsRun ≠ 0) ∧
    (∃ s : State, ∃ ok : Bool, ∃ _utc : Nat, todFormat s = 1 ∧ (ok = false ∨ s.tim.ppsEdge = none ∨ 900 * msTicks < (s.now - s.tim.ppsTick))) ∧
    (∃ s : State, ∃ ok : Bool, ∃ _utc : Nat, todFormat s = 1 ∧ (ok = false ∨ s.tim.ppsEdge = none ∨ 900 * msTicks < (s.now - s.tim.ppsTick))) ∧
    (∃ s : State, ∃ utc : Nat, ∃ m : Nat, todFormat s = 1 ∧ s.tim.ppsEdge.isSome = true ∧ (s.now - s.tim.ppsTick) ≤ 900 * msTicks ∧ ((utc : Int) +
      toSigned 16 (s.rd TIM_TOD_CFG.utc_offset)).toNat = m) ∧
    (∃ s : State, ∃ utc : Nat, ∃ m : Nat, todFormat s = 1 ∧ s.tim.ppsEdge.isSome = true ∧ (s.now - s.tim.ppsTick) ≤ 900 * msTicks ∧ ((utc : Int) +
      toSigned 16 (s.rd TIM_TOD_CFG.utc_offset)).toNat = m) ∧
    (∃ s : State, ∃ d : Vector (BitVec 8) 16, ∃ m : Nat, todFormat s = 2 ∧ s.tim.ppsEdge.isSome = true ∧ 10 * msTicks ≤ (s.now - s.tim.ppsTick) ∧
      (s.now - s.tim.ppsTick) ≤ 900 * msTicks ∧ d.toList.take 3 = [0x4E, 0x54, 1] ∧ (d.toList.getD 3 0).toNat < 8 ∧ d.toList.getD 12 0 = 0 ∧
      d.toList.getD 13 0 = 0 ∧ crc 16 0x1021 0xFFFF (d.toList.take 14) = field d.toList 14 2 ∧ field d.toList 4 6 = m + 1) ∧
    (∃ s : State, ∃ d : Vector (BitVec 8) 16, todFormat s = 2 ∧ ((s.now - s.tim.ppsTick) < 10 * msTicks ∨ 900 * msTicks < (s.now - s.tim.ppsTick) ∨
      d.toList.getD 12 0 ≠ 0 ∨ crc 16 0x1021 0xFFFF (d.toList.take 14) ≠ field d.toList 14 2)) ∧
    (∃ s : State, ∃ d : Vector (BitVec 8) 16, todFormat s = 2 ∧ ((s.now - s.tim.ppsTick) < 10 * msTicks ∨ 900 * msTicks < (s.now - s.tim.ppsTick) ∨
      d.toList.getD 12 0 ≠ 0 ∨ crc 16 0x1021 0xFFFF (d.toList.take 14) ≠ field d.toList 14 2)) ∧
    (∃ s : State, ∃ e : Nat, s.tim.seHold = some e ∧ s.rd TIM_STATUS.synce_sel < 16 ∧ s.rd TIM_SYNCE_QL.eligible (s.rd TIM_STATUS.synce_sel) = 0 ∧
      seBase s (s.rd TIM_STATUS.synce_sel) = false) ∧
    (∃ s : State, ∃ e : Nat, s.tim.seHold = some e ∧ s.rd TIM_STATUS.synce_sel < 16 ∧ s.rd TIM_SYNCE_QL.eligible (s.rd TIM_STATUS.synce_sel) = 0 ∧
      seBase s (s.rd TIM_STATUS.synce_sel) = false) ∧
    (∃ s : State, ∃ n : Fin 16, ∃ e : Nat, sparseFind s.tim.seWtr n = some e) ∧
    (∃ s : State, ∃ n : Fin 16, ∃ e : Nat, sparseFind s.tim.seWtr n = some e) :=
    ⟨⟨(aonUp.wr TIM_PTP_CTRL.ptp_valid 1).wr TIM_PTP_MEAS_LO.offset_lo 0xFFFF0000, 0x0005FFFF, by decide +kernel⟩,
     ⟨aonUp, 7, by decide +kernel⟩,
     ⟨aonUp, 99, 5, by decide +kernel⟩,
     ⟨{ aonUp with now := 39000000000, tim := { aonUp.tim with fine := 65536000000000 * fineScale, ppsEdge := some 0, ppsRun := 2 } }, 100, 9, 0,
      by decide +kernel⟩,
     ⟨{ aonUp with tim := { aonUp.tim with ppsEdge := some 3, todSeen := true, todLast := some 4, ppsRun := 3 } }, 200, 9, 3, by decide +kernel⟩,
     ⟨{ aonUp with tim := { aonUp.tim with ppsEdge := some 3, ppsRun := 3 } }, by decide +kernel⟩,
     ⟨aonUp.wr TIM_REF_CFG.tod_format 1, false, 8, by decide +kernel⟩,
     ⟨{ aonUp.wr TIM_REF_CFG.tod_format 1 with now := 36000000000, tim := { aonUp.tim with ppsEdge := some 3 } }, true, 8, by decide +kernel⟩,
     ⟨{ aonUp.wr TIM_REF_CFG.tod_format 1 with tim := { aonUp.tim with ppsEdge := some 3, todEdge := some 137 } }, 100, 137, by decide +kernel⟩,
     ⟨{ aonUp.wr TIM_REF_CFG.tod_format 1 with tim := { aonUp.tim with ppsEdge := some 3, todSeen := true, todLast := some 138 } }, 100, 137,
      by decide +kernel⟩,
     ⟨{ aonUp.wr TIM_REF_CFG.tod_format 2 with now := 500000000, tim := { aonUp.tim with ppsEdge := some 3, todEdge := some 8 } }, aTod, 8,
      by decide +kernel⟩,
     ⟨{ aonUp.wr TIM_REF_CFG.tod_format 2 with tim := { aonUp.tim with ppsEdge := some 3 } }, aTod, by decide +kernel⟩,
     ⟨{ aonUp.wr TIM_REF_CFG.tod_format 2 with now := 500000000, tim := { aonUp.tim with ppsEdge := some 3 } }, Vector.replicate 16 7,
      by decide +kernel⟩,
     ⟨{ aonUp.wr TIM_STATUS.synce_sel 4 with tim := { aonUp.tim with seHold := some 77 } }, 77, by decide +kernel⟩,
     ⟨{ (aonUp.wr TIM_STATUS.synce_sel 4).wr FHL_LANE_STATUS.rclk_valid 1 9 |>.wr CLK_CAND_READY.ready 0x400 |>.wr TIM_SYNCE_QL.rank 2 9 with tim := { aonUp.tim with seHold := some 77 } },
      77, by decide +kernel⟩,
     ⟨{ (aonUp.wr FHL_LANE_STATUS.rclk_valid 1 9 |>.wr CLK_CAND_READY.ready 0x400 |>.wr TIM_SYNCE_QL.rank 2 9).wr TIM_SYNCE_QL.in_wtr 1 9 with tim := { aonUp.tim with seWtr := [(9, 55)] } },
      9, 55, by decide +kernel⟩,
     ⟨{ aonUp.wr TIM_SYNCE_QL.in_wtr 1 9 with tim := { aonUp.tim with seWtr := [(9, 55)] } }, 9, 55, by decide +kernel⟩⟩

/-- States and operands that meet the hypotheses of each clause of `Obligations.TimingEngineStepsAndOutputs`. -/
theorem test_TimingEngineStepsAndOutputs_met :
    (∃ s : State, s.rd DEV_MODE.mode = modeRun ∧ policyAllows s scTimeError = false ∧ s.safe.injection = none ∧ s.rd TIM_STATUS.time_error = 1 ∧
      s.tim.steps.all (fun p => !p.engine) = true ∧ s.tim.eng.state = tmFree ∧ s.rd TIM_REF_CFG.ptp_enable = 0 ∧ s.rd TIM_REF_CFG.pps_enable = 0) ∧
    (∃ s : State, s.rd DEV_MODE.mode = modeRun ∧ policyAllows s scTimeError = false ∧ s.safe.injection = none ∧ s.rd TIM_STATUS.time_error = 1 ∧
      s.tim.steps.all (fun p => !p.engine) = true ∧ s.tim.eng.state = tmLocked ∧ s.rd TIM_REF_CFG.ptp_enable = 0 ∧ s.rd TIM_REF_CFG.pps_enable = 0) ∧
    (∃ s : State, s.rd DEV_MODE.mode = modeRun ∧ policyAllows s scTimeError = false ∧ s.safe.injection = none ∧ s.rd TIM_STATUS.time_error = 1 ∧
      s.tim.steps.all (fun p => !p.engine) = true ∧ s.tim.eng.state = tmLocked ∧ s.rd TIM_REF_CFG.ptp_enable = 0 ∧ s.rd TIM_REF_CFG.pps_enable = 0) ∧
    (∃ s : State, s.rd TIM_STATUS.time_pll_src = 0 ∧ candReady s 0 = false ∧ policyAllows s scTimeError = false ∧ s.tim.eng.state ≠ tmLearned ∧
      s.tim.eng.state ≠ tmExtended ∧ (s.rdb TIM_STATUS.forced = false → phaseRef s = none)) ∧
    (∃ s : State, s.rd TIM_STATUS.time_pll_src = 0 ∧ candReady s 0 = false ∧ policyAllows s scTimeError = false ∧ s.tim.eng.state ≠ tmLearned ∧
      s.tim.eng.state ≠ tmExtended ∧ (s.rdb TIM_STATUS.forced = false → phaseRef s = none)) ∧
    (∃ s : State, s.rd TIM_STATUS.time_pll_src = 0 ∧ candReady s 0 = false ∧ policyAllows s scTimeError = false ∧ s.tim.eng.state ≠ tmLearned ∧
      s.tim.eng.state ≠ tmExtended ∧ (s.rdb TIM_STATUS.forced = false → phaseRef s = none)) ∧
    (∃ s : State, s.rd TIM_STATUS.time_pll_src = 1 ∧ candReady s 0 = false ∧ (s.rd CLK_REF_STATUS.current = 0 ∨ candReady s (s.rd
      CLK_REF_STATUS.current) = false)) ∧
    (∃ s : State, s.rd TIM_STATUS.time_pll_src = 1 ∧ candReady s 0 = false ∧ (s.rd CLK_REF_STATUS.current = 0 ∨ candReady s (s.rd
      CLK_REF_STATUS.current) = false)) ∧
    (∃ s : State, s.rd TIM_STATUS.time_pll_src ≠ 0 ∧ candReady s 0 = true ∧ -500000000 ≤ s.tim.ppt) ∧
    (∃ s : State, s.boot.coreUp = true) ∧
    (∃ s : State, s.tim.bins ≠ []) ∧
    (∃ s : State, ∃ p : TimeStep, s.tim.steps = [p] ∧ p.id = none ∧ p.kind = 0 ∧ p.engine = false ∧ p.pair = false ∧ s.tim.ppt = 0 ∧ 0 ≤ p.value ∧
      p.value < 1000000000 * 65536 ∧ counter s < 2 ^ 90 ∧ running s = false ∧ s.ctxs.armed = none ∧ s.tim.touts = [] ∧ p.edge ≤ counter s) ∧
    (∃ s : State, ∃ n : Fin 8, ∃ o : Tout, ∃ h : Nat, toutOf s n = o ∧ o.high = some h ∧ o.next = none) ∧
    (∃ s : State, ∃ n : Fin 8, ∃ o : Tout, toutOf s n = o ∧ o.high = none ∧ o.arm.has o.pulses = true ∧ o.arm.mode ≠ 3) ∧
    (∃ s : State, ∃ n : Fin 8, ∃ o : Tout, toutOf s n = o ∧ o.high = none ∧ o.arm.has o.pulses = true ∧ o.arm.mode ≠ 3) :=
    ⟨⟨aonUp.wr SAF_CTRL.time_error 0, by decide +kernel⟩,
     ⟨{ aonUp.wr SAF_CTRL.time_error 0 with tim := { aonUp.tim with eng := { aonUp.tim.eng with state := tmLocked } } }, by decide +kernel⟩,
     ⟨{ (aonUp.wr SAF_CTRL.time_error 0).wr TIM_LEARNED.learned_s 14400 with tim := { aonUp.tim with eng := { aonUp.tim.eng with state := tmLocked } } },
      by decide +kernel⟩,
     ⟨aonUp.wr SAF_CTRL.time_error 0, by decide +kernel⟩,
     ⟨{ aonUp.wr SAF_CTRL.time_error 0 |>.wr CLK_REF_STATUS.current 3 |>.wr CLK_CAND_READY.ready 8 with tim := { aonUp.tim with eng := { aonUp.tim.eng with state := tmLocked } } },
      by decide +kernel⟩,
     ⟨{ aonUp.wr SAF_CTRL.time_error 0 with now := 39000000000, tim := { aonUp.tim with eng := { aonUp.tim.eng with state := tmLost, outage := some 0, bound := 30000000 } } },
      by decide +kernel⟩,
     ⟨aonUp.wr TIM_STATUS.time_pll_src 1, by decide +kernel⟩,
     ⟨{ (aonUp.wr TIM_STATUS.time_pll_src 1).wr CLK_REF_STATUS.current 4 with now := 39000000000, tim := { aonUp.tim with eng := { aonUp.tim.eng with state := tmLost, outage := some 0, bound := 30000000 } } },
      by decide +kernel⟩,
     ⟨(aonUp.wr TIM_STATUS.time_pll_src 2).wr CLK_CAND_READY.ready 1, by decide +kernel⟩,
     ⟨runIn modeRun, by decide +kernel⟩,
     ⟨{ aonUp with tim := { aonUp.tim with bins := [(650, 600000000), (651, 7)] } }, by decide +kernel⟩,
     ⟨{ aonUp with tim := { aonUp.tim with replica := some 4, steps := [{ id := none, kind := 0, value := 655360000, edge := 0, engine := false, pair := false }] } },
      { id := none, kind := 0, value := 655360000, edge := 0, engine := false, pair := false }, by decide +kernel⟩,
     ⟨{ (aonUp.wr TIM_TOUT_STATUS.level 9).wr TIM_TOUT_STATUS.armed 9 with tim := { aonUp.tim with touts := [(3, aTout 1 1 (some 50))] } }, 3, aTout
      1 1 (some 50), 50, by decide +kernel⟩,
     ⟨{ (aonUp.wr TIM_TOUT_STATUS.level 1).wr DEV_MODE.safe_state 0 with tim := { aonUp.tim with touts := [(3, aTout 2 0 none)] } }, 3, aTout 2 0
      none, by decide +kernel⟩,
     ⟨{ (aonUp.wr TIM_TOUT_STATUS.level 1).wr DEV_MODE.safe_state 1 with tim := { aonUp.tim with touts := [(3, aTout 2 0 none)] } }, 3, aTout 2 0
      none, by decide +kernel⟩⟩

/-- States and operands that meet the hypotheses of each clause of `Obligations.RegisterAccessesActByType`. -/
theorem test_RegisterAccessesActByType_met :
    (∃ s : State, ∃ _v : Word64, s.link.up = true) ∧
    (∃ s : State, ∃ _v : Word64, s.link.up = true ∧ s.rd DEV_MODE.mode ≠ 0) ∧
    (∃ s : State, ∃ _v : Word64, s.link.up = true ∧ s.rd DEV_MODE.mode ≠ 0 ∧ blockAnswers s 0x50010 = true) ∧
    (∃ s : State, ∃ off : BitVec 24, ∃ _v : Word64, s.link.up = true ∧ off.toNat % 8 = 0) ∧
    (∃ s : State, ∃ off : BitVec 24, ∃ _v : Word64, s.link.up = true ∧ off.toNat % 8 = 0) ∧
    (∃ s : State, s.link.up = true) ∧
    (∃ s : State, s.link.up = true ∧ blockAnswers s 0x50038 = true) ∧
    (∃ s : State, ∃ _n : Fin 16, s.link.up = true ∧ s.boot.coreUp = true) ∧
    (∃ s : State, s.link.up = true) ∧
    (∃ s : State, s.link.up = true ∧ s.boot.coreUp = true) ∧
    (∃ s : State, ∃ v : Nat, s.link.up = true ∧ s.boot.coreUp = true ∧ s.noc.denyCap = some v) ∧
    (∃ s : State, s.link.up = true ∧ s.boot.coreUp = true) ∧
    (∃ s : State, s.link.up = true ∧ blockAnswers s 0x50004 = true) ∧
    (∃ s : State, ∃ _f : Fin 64, ∃ off : BitVec 24, ∃ b : Fin 9, ∃ _w : Bool, s.link.up = true ∧ (b : Nat) ≠ 0 ∧ ((b : Nat) ≠ 4 ∨ off.toNat % 4 ≠ 0)
      ∧ ((b : Nat) ≠ 8 ∨ off.toNat % 8 ≠ 0)) ∧
    (∃ s : State, ∃ _f : Fin 64, ∃ off : BitVec 24, ∃ b : Fin 9, ∃ _w : Bool, s.link.up = true ∧ (b : Nat) ≠ 0 ∧ ((b : Nat) ≠ 4 ∨ off.toNat % 4 ≠ 0)
      ∧ ((b : Nat) ≠ 8 ∨ off.toNat % 8 ≠ 0)) ∧
    (∃ s : State, ∃ _f : Fin 64, ∃ off : BitVec 24, ∃ b : Fin 9, ∃ _w : Bool, s.link.up = true ∧ (b : Nat) ≠ 0 ∧ ((b : Nat) ≠ 4 ∨ off.toNat % 4 ≠ 0)
      ∧ ((b : Nat) ≠ 8 ∨ off.toNat % 8 ≠ 0)) ∧
    (∃ s : State, ∃ f : Fin 64, ∃ off : BitVec 24, ∃ _w : Bool, s.link.up = true ∧ off.toNat % 4 = 0 ∧ reaches f off.toNat = none) ∧
    (∃ s : State, ∃ f : Fin 64, ∃ off : BitVec 24, ∃ _w : Bool, s.link.up = true ∧ off.toNat % 4 = 0 ∧ reaches f off.toNat = none) ∧
    (∃ s : State, ∃ f : Fin 64, ∃ off : BitVec 24, ∃ _w : Bool, s.link.up = true ∧ off.toNat % 4 = 0 ∧ reaches f off.toNat = none) ∧
    (∃ s : State, ∃ off : BitVec 24, s.link.up = true ∧ off.toNat % 4 = 0 ∧ assigned off.toNat = true ∧ blockAnswers s off.toNat = false) ∧
    (∃ s : State, ∃ off : BitVec 24, s.link.up = true ∧ off.toNat % 4 = 0 ∧ assigned off.toNat = true ∧ blockAnswers s off.toNat = false) ∧
    (∃ s : State, ∃ off : BitVec 24, s.link.up = true ∧ 0x10000 ≤ off.toNat ∧ assigned off.toNat = true ∧ (s.rd DEV_MODE.mode = 0 ∨ blockAnswers s
      off.toNat = false)) ∧
    (∃ s : State, ∃ off : BitVec 24, s.link.up = true ∧ 0x10000 ≤ off.toNat ∧ assigned off.toNat = true ∧ (s.rd DEV_MODE.mode = 0 ∨ blockAnswers s
      off.toNat = false)) :=
    ⟨⟨runIn modeRun, 0xFFFFFFFF12345678, by decide +kernel⟩,
     ⟨((runIn modeRun).wr HCI_EVT_CAUSE.swap_event 1).wr HCI_EVT_CAUSE.fault_log 1, 5, by decide +kernel⟩,
     ⟨aonUp, 9, by decide +kernel⟩,
     ⟨aonUp, 8, 0x1234567800000000, by decide +kernel⟩,
     ⟨aonUp, 0x80180, 0xFFFFFFFFFFFFFFFF, by decide +kernel⟩,
     ⟨((runIn modeRun).wr PCIE_BLOCKED_COUNT.unassigned 5).wr PCIE_BLOCKED_COUNT.blocked 3, by decide +kernel⟩,
     ⟨(aonUp.wr TIM_PTP_CTRL.ptp_valid 1).wr TIM_PTP_CTRL.meas_count 6, by decide +kernel⟩,
     ⟨(laneIn 3).wr FHL_FEC_COUNTS.corrected 8 5, 5, by decide +kernel⟩,
     ⟨(runIn modeRun).wr PCIE_BLOCKED_COUNT.unassigned 5, by decide +kernel⟩,
     ⟨((runIn modeRun).wr NOC_DENY_PA_LO.pa_lo 7).wr NOC_DENY_PA_HI.pa_hi 3, by decide +kernel⟩,
     ⟨{ runIn modeRun with noc := { (runIn modeRun).noc with denyCap := some 77 } }, 77, by decide +kernel⟩,
     ⟨((runIn modeRun).wr ENC_FAIL_PA_LO.pa_lo 7).wr ENC_FAIL_PA_HI.pa_hi 3, by decide +kernel⟩,
     ⟨{ aonUp with tim := { aonUp.tim with fine := 777777 * fineScale } }, by decide +kernel⟩,
     ⟨runIn modeRun, 3, 6, 4, false, by decide +kernel⟩,
     ⟨runIn modeRun, 0, 4, 8, true, by decide +kernel⟩,
     ⟨runIn modeRun, 0, 4, 1, false, by decide +kernel⟩,
     ⟨runIn modeRun, 0, 0x28, false, by decide +kernel⟩,
     ⟨runIn modeRun, 0, 0x92100, true, by decide +kernel⟩,
     ⟨stageAt 0 |> fun s => { s with link := { s.link with up := true } }, 5, 0x18, true, by decide +kernel⟩,
     ⟨{ runIn modeRun with boot := { Boot.start with coreUp := false } }, 0x90000, by decide +kernel⟩,
     ⟨{ aonUp with boot := { Boot.start with coreUp := false } }, 0xD1000, by decide +kernel⟩,
     ⟨{ stageAt 2 with link := { (stageAt 2).link with up := true } }, 0x50020, by decide +kernel⟩,
     ⟨{ runIn modeRun with boot := { Boot.start with coreUp := false } }, 0x90000, by decide +kernel⟩⟩

/-! ## The two invariants: a state in which a command that bears on them runs -/

/-- Slot 0 is REVOKED and slot 1 PROGRAMMED, and a revocation waits. -/
def revoking : State :=
  { runIn modeService with
    sec := { aonUp.sec with slots := #v[⟨3, 5, 6⟩, ⟨1, 7, 8⟩, ⟨0, 0, 0⟩, ⟨0, 0, 0⟩] }, pending := [.ownerRevoke 0x5A (some [0, 0, 0, 0, 0, 0, 2]) false] }

/-- A full log, and a command that logs. -/
def loggingFull : State :=
  { { runIn modeRun with wkt := { Wkt.start with stalled := true } } with
    safe := { State.reset.safe with log := List.replicate 512 ⟨0, .resetCause, false, false, true, false, 0, 255, 0, 0⟩ }, pending := [.wicketWatchdogExpiry] }

/-- The command answers a next state of which `p` holds. -/
def after (o : Res) (p : State → Bool) : Bool :=
  match o with
  | .next t => p t
  | _ => false

theorem test_OwnerNeverLockedOut_met : ∃ s t : State, (ownerSlot s 0).state = osRevoked ∧ OwnerKept s ∧ step s = .next t :=
  ⟨revoking, _, by decide +kernel, fun _ => ⟨1, by decide +kernel⟩, rfl⟩

theorem test_FaultLogStaysBounded_met : ∃ s t : State, s.safe.log.length = 512 ∧ LogBounded s ∧ step s = .next t :=
  ⟨loggingFull, _, by decide +kernel, by unfold LogBounded; decide +kernel, rfl⟩

/-! ## WellFormed: each check refuses an ill-formed term -/

theorem test_wf_named_twice :
    (Instr.ddrTraining .failed .failed [3, 3] []).wf = false ∧ (Instr.ddrTraining .failed .failed [] [3, 3]).wf = false ∧
      (Instr.crossingWord 0 5 [1, 1] .other).wf = false ∧ (Instr.retirementSwitch 9 [(2, .wrong), (2, .wrong)]).wf = false ∧
      (Instr.spprRepairComplete 1 [7, 7]).wf = false ∧ (Instr.pinInputChange [(3, true), (3, false)] []).wf = false ∧
      (Instr.pinInputChange [] [(3, true, true), (3, false, true)]).wf = false ∧
      (Instr.intrusiveBistEnd (Vector.replicate 97 0) [.district 1, .district 1] []).wf = false := by decide +kernel

theorem test_wf_swap_data :
    (Instr.stagingComplete { noSwap with dirty := [(4, 1), (4, 2)] }).wf = false ∧ (Instr.commandSwapDue { noSwap with ffs := [(4, 1), (4, 1)] }).wf = false ∧
      (Instr.modeSet 7 { noSwap with ffs := [(5, 1), (5, 2)] }).wf = false := by decide +kernel

theorem test_wf_lengths :
    (Instr.portBRead (.path 3) (List.replicate 9 ⟨.ok, 0⟩)).wf = false ∧ (Instr.nocRequestInject 5 (List.replicate 10 0)).wf = false ∧
      (Instr.commandFetch (List.replicate 9 0)).wf = false ∧ (Instr.cdrLock 5 []).wf = false ∧ (Instr.badWidthAccess 0 4 0 true).wf = false := by
  decide +kernel

theorem test_wf_long_lists :
    (∀ l : List (BitVec 16), 4096 < l.length → (Instr.eyeScanEnd 0 l).wf = false) ∧
      ∀ l : List (BitVec 512), 5120 < l.length → (Instr.snapshotCaptureEdge 7 l).wf = false := by
  constructor <;> intro l h <;> simp only [Instr.wf, decide_eq_false_iff_not] <;> omega

/-! ## Worked cases of the spec -/

/-- The worked case of 01_stack.md: tile (3, 17), 0x120 bytes into Y memory. -/
theorem test_tile_address : xyPlace 0x100868C120 0 = (209, true, 0x120 / 4) := by decide

/-- The worked case of 01_stack.md: block 1,234 of the memory die, and the key ID of a soft-bit buffer. -/
theorem test_block_and_key : blockWord 0x1002690000 = (1234, 0) ∧ keyOf 0x14000240001000 = 5 ∧ locOf 0x14000240001000 = 0x240001000 := by decide

/-- The worked case of 07_memory_layer.md: the merge of a narrow write with the word that a full write has left. -/
theorem test_narrow_merge :
    after (execNarrowWriteMerge ⟨.ok, 0⟩ (memUp [(1234 * 4096 + 8, ⟨0x1111222233334444, false⟩)]
        [{ kind := .merge none, port := .portA, block := 1234, word := 8, be := 0x0F, data := 0xAAAABBBB, since := 0 },
         { kind := .full, port := .noc 5 6, block := 1234, word := 8, be := 0xFF, data := 0x5555666677778888, since := 0 }]))
      (fun t => sparseFind (wordsAfter t 1) (1234 * 4096 + 8) == some ⟨0x55556666AAAABBBB, false⟩) = true := by decide +kernel

/-- The worked case of 08_network_on_chip.md: a latency of 26 hc falls into bin 2. -/
theorem test_latency_bin : histBin 26 = 2 ∧ NOC_BYTES_LO.bytes_lo.offset 0x65 0 = 0x094288 := by decide

/-- The worked case of 09_dram_controller.md: controller, row, bank group and subchannel of a location, on two interleaved x8 controllers with
two ranks. -/
theorem test_dram_row :
    let s := (dramUp.wr DRC_MAP.interleaved 1).wr DRC_STATUS.two_ranks 1 1 |>.wr DRC_STATUS.width_x8 1 1
    ctrlOfLoc s 0x240001000 = 1 ∧ localAddr s 0x240001000 = 0x120000000 ∧ rowOf s 0x240001000 = { row := 9216, bg := 0, bank := 0, rank := 0, sub := 0 } ∧
      (rowOf s (locOfLocal s 1 0x120000080)).bg = 1 := by decide +kernel

/-- The worked case of 10_inline_encryption.md: 256 MiB in mode 3 take 48 MiB of metadata, and the line index of the nonce. -/
theorem test_region_metadata : metaBlocks moNarrow 65536 = 12288 ∧ gcmIv moNarrow 1 7 (0x240001000 / 64) = 0x09000040_0000000010000007 := by decide

/-- The worked case of 23_register_map.md: offsets of registers in families. -/
theorem test_register_offsets :
    DSP_TILE_STATUS.spare.offset 357 0 = 0x0F1594 ∧ NOC_HIST.count.offset 0x65 2 = 0x0942C8 ∧ ENC_REGION_CFG.enable.offset 3 0 = 0x0B1068 ∧
      FHL_RULE.enable.offset 9 62 = 0x125F80 + 0x24 := by decide

/-- The worked case of 23_register_map.md: a read of DRC_STATUS_1 while CORE is in reset. -/
theorem test_blocked_read :
    after (execBlockedAccess 0 0x0A2000 false { runIn modeRun with boot := { Boot.start with coreUp := false } })
      (fun t => regValue t 0x2000C == 0x800A2000 && t.rd PCIE_BLOCKED_COUNT.blocked == 1 && t.outbox == [.readData 0 0x0A2000 0xFFFFFFFF]) = true := by
  decide +kernel

/-- The worked case of 22_faults_safety_and_self_test.md: the bytes of fault-log entry 531. -/
theorem test_fault_entry_bytes :
    entryBytes ⟨531, .memUncorrectable, true, true, false, false, (1000 * 1000000000 + 250000000) * 65536, 1, 1234, 0x1002690040 + 0x20 * 2 ^ 56⟩ =
      [0x13, 0x02, 0, 0, 0x40, 0, 3, 3, 0, 0, 0x80, 0xB2, 0xE6, 0x0E, 0xE8, 0x03, 0, 0, 0, 0, 1, 0, 0xD2, 0x04, 0x40, 0, 0x69, 0x02, 0x10, 0, 0, 0x20] := by
  decide +kernel

/-- The worked case of 06_dsp_instruction_set.md: the word 0x349570008A100000 is VADDMJ with d 9, a 5, b 7 and a store of V8, and lane 1. -/
theorem test_vaddmj :
    topOf 0x349570008A100000 = some .vaddmj ∧
      after (execVaddmj 3 clean { runIn modeRun with tiles := [(3, { tileWith 0x349570008A100000 with regs := { TileRegs.zero with v := [(5, 4866 * 2 ^ 32), (7, 3900 * 2 ^ 48)] } })] })
        (fun t => vPart 16 (vAt t 3 9) 2 == 8766 && vPart 16 (vAt t 3 9) 3 == 0) = true := by decide +kernel

/-- The same worked case: the twiddle product of lane 1. -/
theorem test_mul_twiddle :
    after (execMul 3 clean { runIn modeRun with tiles := [(3, { tileWith (tword 1 3 0 0 9 12 0) with
      regs := { TileRegs.zero with v := [(9, 8766 * 2 ^ 32), (12, 30274 * 2 ^ 32 + (65536 - 12540) * 2 ^ 48)] } })] })
      (fun t => accPart 48 (accAt t 3 0) 2 == 265381884 && accPart 48 (accAt t 3 0) 3 == -109925640) = true := by decide +kernel

/-- The same worked case: PACK with shift 15. -/
theorem test_pack_twiddle :
    after (execPack 3 clean { runIn modeRun with tiles := [(3, { tileWith (tword 2 0 0 9 0 0 (15 * 2 ^ 32)) with
      regs := { TileRegs.zero with acc := [(0, 265381884 * 2 ^ 96 + (2 ^ 48 - 109925640) * 2 ^ 144)] } })] })
      (fun t => vPart 16 (vAt t 3 9) 2 == 8099 && vPart 16 (vAt t 3 9) 3 == -3355) = true := by decide +kernel

/-- The worked case of 04_contexts.md: the schedule table of the TDD pattern passes R110, and fails where a gap is below 20,000 ns. -/
theorem test_schedule_table :
    let table (second : Nat) : List Byte := leBytes 4 2500000 ++ leBytes 4 0 ++ leBytes 1 4 ++ List.replicate 7 0 ++ leBytes 8 0 ++
      leBytes 8 (1857292 + 2 ^ 24) ++ leBytes 8 (second + 2 * 2 ^ 24 + 2 ^ 27) ++ leBytes 8 (2000000 + 2 ^ 24)
    tableOk State.reset (table 1964323) 48 = true ∧ tableOk State.reset (table 1870000) 48 = false := by decide +kernel

/-- The worked case of 12_configuration_images.md: the frames that rectangle (8, 16) to (15, 23) and DSP tiles 144 to 151 permit. -/
theorem test_frames_permitted :
    let h : List Byte := List.replicate 14 0 ++ [1, 0] ++ List.replicate 48 0 ++ [8, 16, 15, 23] ++ List.replicate (0xD0 - 68 + 18) 0 ++ [0xFF]
    hdDsp h 144 = true ∧ hdDsp h 151 = true ∧ hdDsp h 152 = false := by decide +kernel

/-- The worked case of 17_clocks.md: the counts that agree with 156.25 MHz lie within 2 %. -/
theorem test_reference_window : agrees 153125 156250 = true ∧ agrees 159375 156250 = true ∧ agrees 153124 156250 = false ∧ agrees 159376 156250 = false := by
  decide

/-- The worked case of 18_timing_and_holdover.md: the class 1 row at 1,342.4 s, at 4 h, and 9,852.6 s after 4 h. -/
theorem test_holdover_row :
    interp 20 1342300 rowClass1.points < 250 * 1000000 ∧ 250 * 1000000 < interp 20 1342400 rowClass1.points ∧
      interp 20 (4 * hourMs) rowClass1.points = 910 * 1000000 ∧ interp 20 (4 * hourMs + 9852700) rowClass1.points > 1040 * 1000000 ∧
      interp 20 (4 * hourMs + 9852600) rowClass1.points ≤ 1040 * 1000000 := by decide

/-- The worked case of 19_wicket_and_thermal.md: the estimate of zone 9 after one round is 106.6 - 10.6 * 0.905 °C. -/
theorem test_zone_estimate :
    let s := ((((runIn modeRun).wr THM_SENSOR.temp 656 33).wr THM_SENSOR.valid 1 33).wr THM_SENSOR.temp 704 81).wr THM_SENSOR.valid 1 81
    nextEstimate { s with wkt := { Wkt.start with est := List.replicate 20 96000000000, power := 2800000 } } 9 (3, 40) = 97007000000 := by decide +kernel

/-- R125: saturation of a part at either end. -/
theorem test_saturation : satTo 16 40000 = (32767, true) ∧ satTo 16 (-32768) = (-32768, false) ∧ satTo 8 (-129) = (-128, true) := by decide

end Slice0Tests
end

section
/-! Settles O25. Port B serves a network write in the network as it has become by then (`arrive`): flits of other packets that stood in their last
routers are ejected first, and the records of links and turns in the network follow them. The frame of the second clause leaves all of the network
but its requests as it was, and so fails beside such a packet. The refutation is of this frame: it says nothing against the words that the write
leaves in the die. -/

namespace Sys2Proof.Machine

/-- A write of eight flits to block 5 by fabric port 0, whose flits have come to the memory die, one in each hop cycle. -/
def arrivedWrite : NocReq :=
  { init := 0x40, tag := 6, owner := .fabric, qos := 0, write := true, pa := 0x1000028000, kidValid := false, kid := 0, len := 8,
    be := BitVec.allOnes 64, data := List.replicate 8 77, fwd := (List.range 9).map (fun k => { at_ := 3, tick := 200 + 13 * k }) }

/-- A read of block 1,024, in another quadrant, by fabric port 4: its one flit stands in router 26, the last of its way. -/
def passingRead : NocReq :=
  { init := 0x44, tag := 0, owner := .fabric, qos := 0, write := false, pa := 0x1002000000, kidValid := false, kid := 0, len := 1,
    be := 0, data := [], fwd := [{ at_ := 3, tick := 300 }] }

/-- In RUN with every die open, word 0 of block 5 is poisoned, and both requests are outstanding. -/
def writeBesideRead : State :=
  { State.reset.wr DEV_MODE.mode modeRun with
    now := 400
    boot := { Boot.start with porHeld := false, cause := none, coreUp := true, dies := [.open_, .open_, .open_] }
    mem := { MemDie.start with words := [(4096 * 5, { data := 9, poison := true })] }
    noc := { Noc.start with fenced := false, reqs := [arrivedWrite, passingRead] } }

/-- PORT_B_WRITE is port B's write. -/
theorem exec_portBWrite (p : BPort) (s : State) : exec (.portBWrite p) s = .next (portBWrite p s) := rfl

/-- The write stands at port B of block 5, which can serve it now, and its first word there is poisoned. -/
theorem writeBesideRead_applies :
    reqOf writeBesideRead 0x40 6 = some arrivedWrite ∧ nocBlock writeBesideRead arrivedWrite = some 5 ∧
      blockWord arrivedWrite.pa = (5, 0) ∧ memWord writeBesideRead 5 0 = some { data := 9, poison := true } := by decide +kernel

/-- Port B's write lets the read's flit leave router 26 for the memory die, 1 hc after it came there: the link records it. -/
theorem links_after_writeBesideRead :
    (portBWrite (.noc 0x40 6) writeBesideRead).noc.links = [(linkKey 26 (unitNode 3) 0x44, 313)] := by decide +kernel

/-- Refutes O25: the write by port B ejects the flit of another request, which the network's links record. -/
theorem not_fullWriteClearsPoison : ¬ Obligations.FullWriteClearsPoison := by
  unfold Obligations.FullWriteClearsPoison
  rintro ⟨-, byPortB⟩
  obtain ⟨hreq, hblock, hword, hmem⟩ := writeBesideRead_applies
  obtain ⟨t, hexec, -, hframe⟩ :=
    byPortB writeBesideRead 0x40 6 arrivedWrite 5 0 _ hreq rfl rfl rfl rfl hblock hword rfl hmem rfl rfl
  obtain rfl : portBWrite (.noc 0x40 6) writeBesideRead = t := by
    rw [exec_portBWrite] at hexec
    exact Host.Outcome.next.inj hexec
  have hlinks : (portBWrite (.noc 0x40 6) writeBesideRead).noc.links = [] := congrArg (fun t => t.noc.links) hframe
  rw [links_after_writeBesideRead] at hlinks
  exact List.cons_ne_nil _ _ hlinks

end Sys2Proof.Machine
end

section
/-! Settles O43. NOP, IDENTIFY and TIME_READ complete in the step that starts them: they start, set their commit mark and record their outcome
(R345, R354). Each of the three writes the command's own tracking entry, so what an outcome reads of the machine it reads as it was before. -/

namespace Sys2Proof.Machine

variable {s t t' : State} {id op : Nat} {u : Track} {f : Track → Track}

/-! ## The tracking entry of a command -/

theorem id_of_trackOf (h : trackOf s id = some u) : u.id = id := by
  simpa using List.find?_some h

/-- The entry of handle `id` after a change that keeps handles is the changed entry. -/
theorem trackOf_mapTrack_same (hf : ∀ v, (f v).id = v.id) (h : trackOf s id = some u) : trackOf (mapTrack s id f) id = some (f u) := by
  have hpred : ((fun v : Track => v.id == id) ∘ fun v => if v.id == id then f v else v) = fun v => v.id == id := by
    funext v
    dsimp only [Function.comp]
    split <;> simp [hf]
  have hfind : s.link.tracks.find? (fun v => v.id == id) = some u := h
  simp only [trackOf, mapTrack, List.find?_map, hpred, hfind]
  simp [id_of_trackOf h]

/-! ## Changes of one tracking entry (R59) -/

theorem onlyTrack_mapTrack (hf : ∀ v, (f v).id = v.id) : OnlyTrack id s (mapTrack s id f) := by
  refine ⟨rfl, ?_⟩
  show (s.link.tracks.map _).filter _ = _
  induction s.link.tracks with
  | nil => rfl
  | cons v vs ih => by_cases hv : v.id = id <;> simpa [hv, hf] using ih

theorem OnlyTrack.trans (h : OnlyTrack id s t) (h' : OnlyTrack id t t') : OnlyTrack id s t' := by
  obtain ⟨hframe, hothers⟩ := h
  obtain ⟨hframe', hothers'⟩ := h'
  exact ⟨by rw [hframe', hframe], hothers'.trans hothers⟩

theorem onlyTrack_commit : OnlyTrack id s (commit s id) := onlyTrack_mapTrack fun _ => rfl

theorem onlyTrack_finish (st : Status) (r r2 : Nat) : OnlyTrack id s (finish s id st r r2) :=
  onlyTrack_mapTrack fun v => by split <;> rfl

/-! ## A command that starts -/

/-- Command `id` has just started: its entry says so, and when. -/
def startTrack (s : State) (id : Nat) : State := mapTrack s id (fun v => { v with phase := .started, startTick := s.now })

/-- A command that may start executes its body, with the entry it had. -/
theorem startCommand_of_startable (h : Startable s id op u) (body : Track → State → State) :
    startCommand op id s body = body u (startTrack s id) := by
  obtain ⟨htrack, hop, hup, hmay, hmode, -⟩ := h
  simp [startCommand, htrack, hop, hup, hmay, hmode, startTrack]

theorem onlyTrack_startTrack : OnlyTrack id s (startTrack s id) := onlyTrack_mapTrack fun _ => rfl

theorem trackOf_startTrack (h : trackOf s id = some u) : trackOf (startTrack s id) id = some { u with phase := .started, startTick := s.now } :=
  trackOf_mapTrack_same (fun _ => rfl) h

@[simp] theorem counter_startTrack : counter (startTrack s id) = counter s := rfl

/-! ## A command that completes -/

theorem trackOf_commit (h : trackOf s id = some u) : trackOf (commit s id) id = some { u with committed := true } :=
  trackOf_mapTrack_same (fun _ => rfl) h

/-- The outcome recorded of a command that runs: the status, and the results cut to 64 and 32 bits. -/
theorem endedWith_finish (h : trackOf s id = some u) (hrun : u.phase ≠ .finished) (st : Status) (r r2 : Nat) :
    endedWith (finish s id st r r2) id st (r % 2 ^ 64) (r2 % 2 ^ 32) = true := by
  have hafter := trackOf_mapTrack_same (f := fun v => if v.phase = .finished then v
    else { v with phase := .finished, status := st.code, result := r % 2 ^ 64, result2 := r2 % 2 ^ 32,
                  eventTick := some (v.eventTick.getD s.now) }) (fun v => by split <;> rfl) h
  simp only [endedWith, finish, hafter, if_neg hrun]
  simp

theorem ended_of_endedWith {st : Status} {r r2 : Nat} (h : endedWith s id st r r2 = true) : ended s id st = true := by
  simp only [endedWith, ended, Option.any_eq_true, Bool.and_eq_true] at h ⊢
  obtain ⟨v, hv, ⟨hst, -⟩, -⟩ := h
  exact ⟨v, hv, hst⟩

/-- A command that starts, commits and finishes in one step ends with its outcome and changes nothing but its tracking entry. -/
theorem endedWith_onlyTrack_of_completes (h : trackOf s id = some u) (st : Status) (r r2 : Nat) :
    endedWith (finish (commit (startTrack s id) id) id st r r2) id st (r % 2 ^ 64) (r2 % 2 ^ 32) = true ∧
      OnlyTrack id s (finish (commit (startTrack s id) id) id st r r2) :=
  ⟨endedWith_finish (trackOf_commit (trackOf_startTrack h)) (by simp) st r r2,
   onlyTrack_startTrack.trans (onlyTrack_commit.trans (onlyTrack_finish st r r2))⟩

/-! ## NOP, IDENTIFY and TIME_READ (R370, R385) -/

theorem exec_nop (h : Startable s id 0x01 u) : exec (.nop id) s = .next (finish (commit (startTrack s id) id) id .success) := by
  have hexec : exec (.nop id) s = .next (startCommand 0x01 id s fun v s => finish (commit s v.id) v.id .success) := rfl
  rw [hexec, startCommand_of_startable h, id_of_trackOf h.1]

/-- The COMMITTED contexts, one bit for each. -/
theorem committedBits_eq (s : State) : committedBits s =
    b2n (committed s 0) + 2 * b2n (committed s 1) + 4 * b2n (committed s 2) + 8 * b2n (committed s 3) + 16 * b2n (committed s 4) +
      32 * b2n (committed s 5) + 64 * b2n (committed s 6) + 128 * b2n (committed s 7) := by
  simp only [committedBits, List.range, List.range.loop, List.foldl]
  omega

/-- IDENTIFY's first result, before it is cut to 64 bits (R370). -/
def identifyResult (s : State) (q : Nat) : Nat :=
  4 + 1 * 2 ^ 8 + 0xB0 * 2 ^ 16 + (if s.grade2 then 2 else 3) * 2 ^ 24 + 0x45 * 2 ^ 32 + qFunction s q * 2 ^ 40 +
    s.rd PCIE_FN_CFG.queue_base (qFunction s q) * 2 ^ 48 + s.rd PCIE_LINK_STATUS.width * 2 ^ 56 + s.rd PCIE_LINK_STATUS.speed * 2 ^ 60

/-- IDENTIFY's second result, before it is cut to 32 bits (R370). -/
def identifyResult2 (s : State) (q : Nat) : Nat :=
  s.rd PCIE_FN_CFG.queue_count (qFunction s q) + s.rd DRC_MAP.capacity_gib * 2 ^ 9 +
    (b2n (committed s 0) + 2 * b2n (committed s 1) + 4 * b2n (committed s 2) + 8 * b2n (committed s 3) + 16 * b2n (committed s 4) +
      32 * b2n (committed s 5) + 64 * b2n (committed s 6) + 128 * b2n (committed s 7)) * 2 ^ 16 +
    s.rd DEV_MODE.mode * 2 ^ 24 + s.rd DEV_MODE.degraded * 2 ^ 27 + s.rd DEV_MODE.safe_state * 2 ^ 28

@[simp] theorem identifyResult_startTrack (q : Nat) : identifyResult (startTrack s id) q = identifyResult s q := rfl
@[simp] theorem identifyResult2_startTrack (q : Nat) : identifyResult2 (startTrack s id) q = identifyResult2 s q := rfl

theorem identify_eq (v : Track) (s : State) :
    identify v s = finish (commit s v.id) v.id .success (identifyResult s v.q) (identifyResult2 s v.q) := by
  rw [identify, committedBits_eq]
  rfl

theorem exec_identify (h : Startable s id 0x02 u) : exec (.identify id) s =
    .next (finish (commit (startTrack s id) id) id .success (identifyResult s u.q) (identifyResult2 s u.q)) := by
  have hexec : exec (.identify id) s = .next (startCommand 0x02 id s identify) := rfl
  rw [hexec, startCommand_of_startable h, identify_eq, id_of_trackOf h.1, identifyResult_startTrack, identifyResult2_startTrack]

theorem exec_timeRead (h : Startable s id 0x40 u) : exec (.timeRead id) s =
    .next (finish (commit (startTrack s id) id) id .success (time96 (counter s) % 2 ^ 64) (time96 (counter s) / 2 ^ 64)) := by
  have hexec : exec (.timeRead id) s = .next (startCommand 0x40 id s timeRead) := rfl
  rw [hexec, startCommand_of_startable h, timeRead, finishTime, id_of_trackOf h.1, counter_startTrack]

/-- A TIME96 has 96 bits (R366). -/
theorem time96_lt (c : Nat) : time96 c < 2 ^ 96 := by
  have hfraction : timeFraction c < 65536 := Nat.mod_lt _ (by decide)
  have hns : timeNs c < 1000000000 := Nat.mod_lt _ (by decide)
  have hsec : timeSec c % 2 ^ 48 < 2 ^ 48 := Nat.mod_lt _ (by decide)
  unfold time96
  omega

/-- Settles O43: the outcome of each command is that of one that starts, commits and finishes in its step. -/
theorem generalCommandsAndTimeRead : Obligations.GeneralCommandsAndTimeRead := by
  refine ⟨fun s id u h => ?_, fun s id u h => ?_, fun s id u h => ?_⟩
  · obtain ⟨hended, honly⟩ := endedWith_onlyTrack_of_completes h.1 .success 0 0
    exact ⟨_, exec_nop h, ended_of_endedWith hended, honly⟩
  · exact ⟨_, exec_identify h, endedWith_onlyTrack_of_completes h.1 .success (identifyResult s u.q) (identifyResult2 s u.q)⟩
  · have hhigh : time96 (counter s) / 2 ^ 64 % 2 ^ 32 = time96 (counter s) / 2 ^ 64 :=
      Nat.mod_eq_of_lt (Nat.div_lt_of_lt_mul (time96_lt _))
    have hdone := endedWith_onlyTrack_of_completes h.1 .success (time96 (counter s) % 2 ^ 64) (time96 (counter s) / 2 ^ 64)
    rw [Nat.mod_mod, hhigh] at hdone
    exact ⟨_, exec_timeRead h, hdone⟩

end Sys2Proof.Machine
end

section
set_option Elab.async false
/-! Settles O1, O3, O4 and O5. The owner invariant speaks of the slots as they were read; POR_N_DEASSERT reads the fuses anew (R274), and no
hypothesis of O5 ties what was read to what is fused. The refutation is of that gap: on a device whose fuses and read slots agree it says
nothing. -/

namespace Sys2Proof.Machine

/-- Settles O1: on a queue with a front, `step` is `exec` by its definition. -/
theorem stepRunsFrontCommand : Obligations.StepRunsFrontCommand := by
  intro s c rest hpending
  unfold step
  rw [hpending]

/-- Settles O3: every field of the state after reset is a closed value. -/
theorem resetLeavesRegisters : Obligations.ResetLeavesRegisters := by
  unfold Obligations.ResetLeavesRegisters
  decide +kernel

/-- No owner slot is REVOKED after reset. -/
theorem reset_no_revoked : ¬ ∃ n, n < 4 ∧ (ownerSlot State.reset n).state = osRevoked := by decide +kernel

/-- Settles O4: after reset no slot is REVOKED and the log is empty. -/
theorem resetKeepsOwnerAndLog : Obligations.ResetKeepsOwnerAndLog :=
  ⟨fun hrevoked => absurd hrevoked reset_no_revoked, Nat.zero_le 512⟩

/-- POR_N is about to be deasserted on a device that has slot 0 fused as REVOKED and every other slot BLANK, none of them read yet. -/
def revokedFuses : State :=
  { State.reset with
    sec := { Sec.start with copies := Vector.replicate 3 { FuseCopy.blank with slots := FuseCopy.blank.slots.set 0 { bits := 3, ed := 0, ml := 0 } } }
    pending := [.porNDeassert 0 0 0] }

/-- The state after the step: stage 0x01 has read the slots. -/
def revokedRead : State := porDeassert 0 0 0 { revokedFuses with pending := [] }

theorem step_revokedFuses : step revokedFuses = .next revokedRead := rfl

theorem revokedFuses_ownerKept : OwnerKept revokedFuses := fun hrevoked =>
  absurd hrevoked (by decide +kernel : ¬ ∃ n, n < 4 ∧ (ownerSlot revokedFuses n).state = osRevoked)

theorem revokedRead_slots :
    (ownerSlot revokedRead 0).state = osRevoked ∧ ¬ ∃ n, n < 4 ∧ (ownerSlot revokedRead n).state = osProgrammed := by decide +kernel

/-- Refutes O5: reading fuses that hold a REVOKED slot and no PROGRAMMED one makes the slots so. -/
theorem not_ownerNeverLockedOut : ¬ Obligations.OwnerNeverLockedOut := by
  intro h
  obtain ⟨hrevoked, hnone⟩ := revokedRead_slots
  exact hnone (h revokedFuses revokedRead revokedFuses_ownerKept step_revokedFuses ⟨0, by decide, hrevoked⟩)

end Sys2Proof.Machine
end

section
set_option Elab.async false
/-! Refutations of statements about the boot and the stack. Each gives a state that meets the hypotheses of one clause and breaks its conclusion. -/

namespace Sys2Proof.Machine

/-- What a command answers in a state is the one next state that `exec` gives it. -/
theorem Answers.of_exec {c : Instr} {s t : State} {p : State → Prop} (h : Answers c s p) (hexec : exec c s = .next t) : p t := by
  obtain ⟨u, hu, hp⟩ := h
  cases hexec.symm.trans hu
  exact hp

/-- The reset of the base die is at its end while an owner record waits for its turn. -/
def recordWaits : State :=
  { runIn modeRun with
    boot := { (runIn modeRun).boot with d0 := .opened 0 }
    sec := { Sec.start with ops := [.record none false] } }

/-- The restarted Porter performs the waiting record, so the list of its operations empties. -/
theorem porterReady_performs_record : (porterReady recordWaits).sec.ops ≠ recordWaits.sec.ops := by decide +kernel

/-- Refutes O12: PORTER_READY takes the waiting operations of the Porter off `sec.ops`, which its frame says stays. -/
theorem not_baseDieReset : ¬ Obligations.BaseDieReset := by
  unfold Obligations.BaseDieReset
  rintro ⟨-, -, -, -, -, hready⟩
  obtain ⟨-, -, -, hframe⟩ := (hready recordWaits 0 rfl).of_exec (t := porterReady recordWaits) rfl
  exact porterReady_performs_record (by rw [hframe])

/-- Tile 3 of a running device has the program range that the image of context 0 names. -/
def rangedTile : State := { runIn modeRun with tiles := [(3, { Tile.zero with ranges := [(0, 0, 16)] })] }

/-- The reset of D2 leaves each tile the program ranges of the committed contexts (R135). -/
theorem resetUpper_keeps_ranges : (dieReset 2 rangedTile).tiles ≠ [] := by decide +kernel

/-- Refutes O13: a reset of D2 does not empty the tiles, for a tile keeps its program ranges. -/
theorem not_upperDieResets : ¬ Obligations.UpperDieResets := by
  unfold Obligations.UpperDieResets
  rintro ⟨hreset, -⟩
  obtain ⟨-, -, htiles, -⟩ := (hreset rangedTile 1 rfl rfl rfl rfl (by decide +kernel)).of_exec rfl
  exact resetUpper_keeps_ranges (htiles rfl).1

/-- The corrected halves of the NoC have been counted up to the last value that the field can show. -/
def correctedFull : State := (runIn modeRun).wr NOC_ERR_COUNTS.corrected 65535

/-- Refutes O14: the field `corrected` has 16 bits (R221) and saturates at 65,535, where the statement adds with 32 bits. -/
theorem not_stackAndDelayLock : ¬ Obligations.StackAndDelayLock := by
  unfold Obligations.StackAndDelayLock
  rintro ⟨-, hone, -⟩
  obtain ⟨-, -, hcount, -⟩ := (hone correctedFull 3 7 5 .other false rfl rfl (by decide +kernel) (by decide +kernel) (by decide)).of_exec rfl
  exact absurd hcount (by decide +kernel)

end Sys2Proof.Machine
end

section
set_option Elab.async false
/-! Refutations of statements about the boot, the contexts, security and the safe state, by the means of the section before. -/

namespace Sys2Proof.Machine

/-- Boot ends on a device whose pins sleep, pin 48 kept as the clock output that drove it. -/
def wakesWithClock : State :=
  { stageAt 0xFF with pins := { Pins.start with sleeping := true, kept := [(48, { PinDrive.input with clock := some (0, 1) })] } }

/-- The level of a clock that is handed over is a free value (R497). -/
theorem bootComplete_draws_level : (bootComplete wakesWithClock).free ≠ wakesWithClock.free := by decide +kernel

/-- Refutes O8: at BOOT_COMPLETE the pins wake, and the handover of a clock output draws a free level, where the frame keeps `free`. -/
theorem not_bootStagesFiveToEnd : ¬ Obligations.BootStagesFiveToEnd := by
  unfold Obligations.BootStagesFiveToEnd
  rintro ⟨-, -, -, -, -, -, hboot⟩
  obtain ⟨-, -, -, -, hframe⟩ := (hboot wakesWithClock (by decide +kernel)).of_exec (t := bootComplete wakesWithClock) rfl
  exact bootComplete_draws_level (by rw [hframe])

/-- A schedule entry that is skipped if its context is not READY. -/
def skippedEntry : SchedEntry := { offset := 0, ctx := 4, skip := true, report := false, limitUs := 0 }

/-- The entry after it. -/
def nextEntry : SchedEntry := { offset := 1000, ctx := 3, skip := true, report := false, limitUs := 0 }

/-- Context 1 runs; the staged latches hold a superseded version of context 2, of which tile 5 still has the program range; entry 0 is due. -/
def supersededStaged : State :=
  { (staged2.wr CFG_SCHED_STATUS.running 1).wr CFG_LATCH_STATUS.staged_state stSuperseded with
    imgs := { ctx := [(1, plainImage), (2, plainImage), (3, plainImage)], load := none }
    tiles := [(5, { Tile.zero with oldRanges := [(2, 0, 16)] })]
    ctxs := { staged2.ctxs with banks := [(0, { bytes := [], period := 10000000, phase := 0, entries := [skippedEntry, nextEntry], start := 0 })] } }

/-- The staging for the next entry replaces the superseded version, and its program ranges go with it (R112, R135). -/
theorem skip_drops_oldRanges : (entryDue noSwap supersededStaged).tiles ≠ supersededStaged.tiles := by decide +kernel

/-- Refutes O17: after a skipped entry the next staging starts, which drops the old program ranges of the tiles. -/
theorem not_swapsExchangeLatches : ¬ Obligations.SwapsExchangeLatches := by
  unfold Obligations.SwapsExchangeLatches
  rintro ⟨-, -, -, -, -, hskip, -⟩
  obtain ⟨-, -, -, -, -, htiles, -⟩ := (hskip supersededStaged noSwap 0 skippedEntry 0 (by decide +kernel) (by decide +kernel) rfl
    (by decide +kernel) (by decide +kernel) rfl).of_exec (t := entryDue noSwap supersededStaged) rfl
  exact skip_drops_oldRanges htiles

/-- The last frame of a write-back, whose word crossed the stack poisoned. -/
def lastDirty : WriteBack := { ctx := 1, edge := 0, left := [(50, 9)], slot := 0 }

/-- A device that writes that frame back. -/
def poisonedWriteBack : State :=
  { staged2 with
    ctxs := { staged2.ctxs with wb := some lastDirty }
    stack := { staged2.stack with poisoned := [.writeBack 50] } }

/-- A frame that crosses poisoned is not written and waits for a later slot (R16). -/
theorem writeBack_waits : (writeBack poisonedWriteBack).ctxs.wb ≠ none := by decide +kernel

/-- Refutes O18: the write-back of the last frame does not end where its word crosses poisoned. -/
theorem not_stagingTimeoutsTakeoverWriteBack : ¬ Obligations.StagingTimeoutsTakeoverWriteBack := by
  unfold Obligations.StagingTimeoutsTakeoverWriteBack
  rintro ⟨-, -, -, hslot⟩
  obtain ⟨hended, -⟩ := (hslot poisonedWriteBack lastDirty 50 9 rfl rfl (by decide +kernel) (by decide +kernel) (by decide +kernel)).of_exec
    (t := writeBack poisonedWriteBack) rfl
  exact writeBack_waits hended

/-- A running device whose register store lists `busy` of SEC_OWNER_CTRL at its reset value. -/
def listedBusy : State := { runIn modeRun with regs := sparsePut (runIn modeRun).regs (SEC_OWNER_CTRL.busy.key 0 0) 0 }

/-- The state after a REVOKE record that RUN forbids: `busy` went to 1 and back to 0, which takes its entry out of the store. -/
def listedBusyAfter : State := ownerRecord okRevoke 0x5A none false listedBusy

theorem ownerRevoke_drops_busy : ¬ SameRegs (keys [SEC_OWNER_CTRL.result, SEC_OWNER_CTRL.done]) listedBusy listedBusyAfter := by
  unfold SameRegs
  decide +kernel

/-- Refutes O33: an owner write sets and clears `busy`, which no clause lists among the fields that change. The store lists no field at its
reset value after a write, so an entry that stood there is gone. -/
theorem not_ownerRecordsAreFused : ¬ Obligations.OwnerRecordsAreFused := by
  unfold Obligations.OwnerRecordsAreFused
  rintro ⟨-, -, -, -, hforbidden⟩
  obtain ⟨-, -, -, hsame⟩ := (hforbidden listedBusy 0x5A false rfl (by decide +kernel) rfl rfl rfl (by decide +kernel) (by decide +kernel)
    (by decide +kernel)).of_exec (t := listedBusyAfter) rfl
  exact ownerRevoke_drops_busy hsame

/-- DEBUG_UNLOCK with close. -/
def closeCmd : Track := cmd 0x71 (BitVec.ofNat 512 (2 ^ 224))

/-- It is fetched in an open session, while a host read under its number is outstanding. -/
def closeWhileReading : State :=
  let s := tracking (runIn modeRun) closeCmd
  { s with
    sec := { s.sec with expires := some 500 }
    link := { s.link with reads := [{ id := 7, addr := 0, length := 8, got := [], at_ := 0 }] } }

/-- The Porter does not perform a command whose bytes are outstanding. -/
theorem debugUnlock_waits : ended (startCommand 0x71 7 closeWhileReading debugUnlock) 7 .success ≠ true := by decide +kernel

/-- Refutes O34: with a read of its number outstanding, DEBUG_UNLOCK with close waits in the Porter's list and does not end. -/
theorem not_debugSessionsAttestationAndKeys : ¬ Obligations.DebugSessionsAttestationAndKeys := by
  unfold Obligations.DebugSessionsAttestationAndKeys
  rintro ⟨-, hclose, -⟩
  obtain ⟨hended, -⟩ := (hclose closeWhileReading 7 closeCmd 500 (by decide +kernel) (by decide +kernel) (by decide +kernel) (by decide +kernel)
    rfl rfl rfl).of_exec (t := startCommand 0x71 7 closeWhileReading debugUnlock) rfl
  exact debugUnlock_waits hended

/-- A running device has raised INTERNAL_FAULT while lane 5 still sends a frame of its stream port. -/
def faultWhileSending : State :=
  { runIn modeRun with
    safe := { Safety.start with internalFaultAt := some 5 }
    fh := { Fh.start with lanes := [(5, { Lane.zero with onWire := [(10 ^ 15, true)] })] } }

/-- The mute cuts the frame, and tx_discarded counts it (R58, R414). -/
theorem internalFaultDelay_counts_discarded :
    ¬ SameRegs ((causeRow scInternalFault).key 0 0 :: muteKeys ++ logKeys) faultWhileSending (internalFaultDelay faultWhileSending) := by
  unfold SameRegs
  decide +kernel

/-- Refutes O38: the mute that the cause brings cuts a frame on the wire, which tx_discarded counts; the frame of the clause omits that field. -/
theorem not_privetEnginesSweep : ¬ Obligations.PrivetEnginesSweep := by
  unfold Obligations.PrivetEnginesSweep
  rintro ⟨-, -, -, -, -, hdelay⟩
  obtain ⟨-, -, -, hsame⟩ := (hdelay faultWhileSending 5 rfl (by decide +kernel) (by decide +kernel) (by decide +kernel)).of_exec
    (t := internalFaultDelay faultWhileSending) rfl
  exact internalFaultDelay_counts_discarded hsame

/-- No cause is set, and the register store holds 3 in the one bit of safe_state. -/
def wideSafeState : State :=
  let s := (runIn modeRun).wr SAF_SAFE_CAUSE.mode 0
  { s with regs := sparsePut s.regs (DEV_MODE.safe_state.key 0 0) 3 }

theorem muteLift_keeps_wide : (muteLift wideSafeState).rd DEV_MODE.safe_state ≠ 0 := by decide +kernel

/-- Refutes O40: no hypothesis says that the store holds 0 or 1 in safe_state, and the mute lifts from 1 alone. -/
theorem not_safeStateAndItsPolicy : ¬ Obligations.SafeStateAndItsPolicy := by
  unfold Obligations.SafeStateAndItsPolicy
  rintro ⟨-, hlift, -⟩
  obtain ⟨hclear, -⟩ := (hlift wideSafeState rfl (by decide +kernel)).of_exec (t := muteLift wideSafeState) rfl
  exact muteLift_keeps_wide hclear

end Sys2Proof.Machine
end

section
set_option Elab.async false
/-! Refutations of statements about queues, lanes, pins and the Bolryn Link. -/

namespace Sys2Proof.Machine

/-- QUEUE_DISABLE of queue 1. -/
def disableCmd : Track := cmd 5 (BitVec.ofNat 512 (1 * 2 ^ 128))

/-- Queue 1, enabled and empty, is to be deleted when it has drained (as a function reset marks an admin queue). -/
def markedQueue : Queue := { aQueue with deletePending := true }

/-- A device on which the admin queue disables it. -/
def disablesMarked : State :=
  let s := adminCmd queued 5 (BitVec.ofNat 512 (1 * 2 ^ 128))
  { s with link := { s.link with queues := [(0, { aQueue with sqTail := 0 }), (1, markedQueue)] } }

/-- A drained queue with a deletion pending becomes FREE (R357). -/
theorem queueDisable_frees_marked : (startCommand 5 7 disablesMarked queueDisable).rd HCI_Q_STATUS.state 1 ≠ qDisabled := by decide +kernel

/-- Refutes O44: an empty queue whose deletion is pending does not stay DISABLED but becomes FREE. -/
theorem not_queueCommandsAndAbort : ¬ Obligations.QueueCommandsAndAbort := by
  unfold Obligations.QueueCommandsAndAbort
  rintro ⟨-, -, -, -, hdisable, -⟩
  obtain ⟨hstate, -⟩ := (hdisable disablesMarked 7 disableCmd 1 markedQueue (by decide +kernel) (by decide +kernel) (by decide +kernel)
    (by decide +kernel) (by decide +kernel) (by decide) (by decide +kernel) (by decide +kernel) (by decide +kernel)).of_exec
    (t := startCommand 5 7 disablesMarked queueDisable) rfl
  exact queueDisable_frees_marked hstate

/-- EYE_SCAN of lane 5, not intrusive. -/
def scanEntry : BitVec 512 := BitVec.ofNat 512 (5 * 2 ^ 136 + 10 * 2 ^ 160 + 64 * 2 ^ 192 + 8192 * 2 ^ 256)

/-- Lane 5 is UP and its receiver tolerates an electrical idle that lasts. -/
def idleLane : State := tracking (((runIn modeRun).wr FHL_LANE_STATUS.state 3 5).wr FHL_LANE_STATUS.in_ei 1 5) (cmd 0x44 scanEntry)

/-- The scan of an idle lane starts paused (R407). -/
theorem eyeScan_starts_paused :
    (startCommand 0x44 7 idleLane eyeScan).fh.scans ≠ [{ id := 7, group := 0, lane := 5, intrusive := false, start := idleLane.now }] := by
  decide +kernel

/-- Refutes O47: a scan that starts on a lane in electrical idle notes the pause of its dwell, where the statement has none. -/
theorem not_timeAndScanCommands : ¬ Obligations.TimeAndScanCommands := by
  unfold Obligations.TimeAndScanCommands
  rintro ⟨-, -, -, -, -, -, -, -, hscan, -⟩
  obtain ⟨hfh, -⟩ := (hscan idleLane 7 (cmd 0x44 scanEntry) 5 (by decide +kernel) (by decide +kernel) (by decide +kernel) (by decide)
    (by decide +kernel) (by decide +kernel) (by decide +kernel) (by decide +kernel) (by decide +kernel) rfl).of_exec
    (t := startCommand 0x44 7 idleLane eyeScan) rfl
  exact eyeScan_starts_paused (by rw [hfh])

/-- Lane 5 has come UP during a scan of it whose dwell is still paused. -/
def pausedScan : State :=
  let s := withLane (laneIn 3) { Lane.zero with since := 5 }
  { s with fh := { s.fh with scans := [{ id := 7, group := 0, lane := 5, intrusive := false, start := 0, idle := some 3 }] } }

/-- The dwell of the scan goes on when the lane is shown out of electrical idle (R407). -/
theorem tsSettle_resumes_scan : (synceUpdate (tsSettle 5 pausedScan)).fh.scans ≠ pausedScan.fh.scans := by decide +kernel

/-- Refutes O48: as the timestamps settle, a paused scan of the lane resumes, where the frame lets nothing but the lane change. -/
theorem not_lanesComeUpAndGoDown : ¬ Obligations.LanesComeUpAndGoDown := by
  unfold Obligations.LanesComeUpAndGoDown
  rintro ⟨-, -, -, -, -, -, -, hsettle, -⟩
  obtain ⟨-, -, -, -, -, ⟨hframe, -⟩, -⟩ := (hsettle pausedScan 5 (by decide +kernel) (by decide +kernel) (by decide +kernel)
    (by decide +kernel)).of_exec (t := synceUpdate (tsSettle 5 pausedScan)) rfl
  exact tsSettle_resumes_scan (by rw [hframe])

/-- Pin 48 is the output of CLKOUT0, which runs. -/
def clockOut : State := (aonUp.wr PIN_PERIPH_EN.clkout 1).wr CLK_CAND_READY.ready 1

/-- The state after a write that takes the pin from CLKOUT0. -/
def clockTaken : State := clkoutCheck (changeOwners (ownerWrite 2 0) clockOut)

/-- The level at which a clock stands as its handover starts is a free value (R497). -/
theorem clockTaken_draws_level : clockTaken.free ≠ clockOut.free := by decide +kernel

/-- Refutes O51: the handover of a running clock output draws a free level, where the frame keeps `free`. -/
theorem not_pinsOwnersLevelsAndMatchers : ¬ Obligations.PinsOwnersLevelsAndMatchers := by
  unfold Obligations.PinsOwnersLevelsAndMatchers
  rintro ⟨howner, -⟩
  obtain ⟨-, -, -, hframe, -⟩ := (howner clockOut 2 0 rfl (by decide +kernel) (by decide +kernel) rfl (by decide +kernel)).of_exec
    (t := regWrite 0x80108 clockOut (fun s => clkoutCheck (changeOwners (ownerWrite 2 0) s))) rfl
  exact clockTaken_draws_level (by rw [show clockTaken.free = (regWrite 0x80108 clockOut (fun s => clkoutCheck (changeOwners (ownerWrite 2 0) s))).free by decide +kernel, hframe])

/-- An ACTIVE link of 4 lanes is to widen to 6. -/
def widening : State := { (paired modeRun).wr PRL_STATUS.width 4 with pair := { Pair.start with widthAt := some (6, 40) } }

/-- Lanes 4 and 5 enter use, and the moment is noted. -/
theorem widthChange_notes_use : (widthChange widening).pair.useSince ≠ widening.pair.useSince := by decide +kernel

/-- Refutes O52: a wider link notes since when its further lanes are in use, where the statement says that nothing else of `pair` changes. -/
theorem not_bolrynLinkComesUpAndNarrows : ¬ Obligations.BolrynLinkComesUpAndNarrows := by
  unfold Obligations.BolrynLinkComesUpAndNarrows
  rintro ⟨-, -, -, -, -, -, -, -, hwidth, -⟩
  obtain ⟨-, hpair, -⟩ := (hwidth widening 6 40 rfl).of_exec (t := widthChange widening) rfl
  exact widthChange_notes_use (by rw [hpair])

/-- Slice 0 has been repeated twice and its slot is due; a failed self-test mutes; lane 5 still sends a frame of its stream port. -/
def sliceWhileSending : State :=
  { (runIn modeRun).wr SAF_CTRL.bist_fail 1 with
    now := 10 * msTicks
    safe := { Safety.start with repeats := 2 }
    fh := { Fh.start with lanes := [(5, { Lane.zero with onWire := [(10 ^ 15, true)] })] } }

/-- The same with its slot begun. -/
def sliceSlot : State := { sliceWhileSending with safe := { sliceWhileSending.safe with lastSlice := sliceWhileSending.now } }

/-- A signature other than the ROM's. -/
def wrongSignature : Word := romSignature sliceWhileSending 0 + 1

theorem wrongSignature_ne : wrongSignature ≠ romSignature sliceWhileSending 0 := by simp [wrongSignature]

/-- The band is the same at the slot, and with it the ROM's signature. -/
theorem romSignature_sliceSlot : romSignature sliceSlot 0 = romSignature sliceWhileSending 0 :=
  congrArg (Config.bistRom 0) (by decide +kernel)

/-- A present slice that repeats no more fails with a signature other than the ROM's. -/
theorem runSlice_fails {s : State} {n : Nat} {sig : Word} {spares : List (Nat × Nat × Nat)} (hpresent : sliceAbsent s n = false)
    (hinj : injArmed s 0x0C n = false) (hsig : sig ≠ romSignature s n) (hrepeats : 2 ≤ s.safe.repeats) :
    runSlice s n sig spares = settleSlice (sliceFails s n sig spares) n true := by
  simp [runSlice, hpresent, hinj, hsig, Nat.not_lt.mpr hrepeats]

/-- Where its slot is due, and no slice waits to be repeated or was deferred, the next slice of the cycle runs. -/
theorem bistSlice_next {s : State} {sig : Word} {spares : List (Nat × Nat × Nat)} (hmode : s.rd DEV_MODE.mode ≠ modeBoot)
    (hdormant : s.boot.dormant = false) (hdue : advanceTo s (s.safe.lastSlice + 10 * msTicks) = s) (hagain : s.safe.again = none)
    (hdeferred : s.safe.deferred = [])
    (hscan : sliceScanned { s with safe := { s.safe with lastSlice := s.now } } s.safe.slice = false) :
    bistSlice sig spares s = runSlice { s with safe := { s.safe with lastSlice := s.now } } s.safe.slice sig spares := by
  unfold bistSlice
  rw [if_neg (by simp [hmode, hdormant]), hdue]
  simp_all [passScans]

theorem bistSlice_fails : bistSlice wrongSignature [] sliceWhileSending = settleSlice (sliceFails sliceSlot 0 wrongSignature []) 0 true := by
  rw [bistSlice_next (by decide +kernel) rfl (by decide +kernel) rfl rfl (by decide +kernel)]
  exact runSlice_fails (by decide +kernel) (by decide +kernel) (romSignature_sliceSlot ▸ wrongSignature_ne) (by decide +kernel)

/-- The mute cuts the frame, and tx_discarded counts it (R58, R414). -/
theorem sliceFails_counts_discarded :
    ¬ SameRegs (degradedKeys 0 ++ keys [BIST_STATUS.failed, PRL_STATUS.fit] ++ [(causeRow scBistFail).key 0 0] ++ muteKeys ++ logKeys)
      sliceWhileSending (settleSlice (sliceFails sliceSlot 0 wrongSignature []) 0 true) := by
  unfold SameRegs
  decide +kernel

/-- Refutes O39: the mute that the cause brings cuts a frame on the wire, which tx_discarded counts; the clause omits that field. -/
theorem not_selfTestSlicesAndInjection : ¬ Obligations.SelfTestSlicesAndInjection := by
  unfold Obligations.SelfTestSlicesAndInjection
  rintro ⟨hslice, -⟩
  obtain ⟨-, -, hfail, -⟩ := (hslice sliceWhileSending wrongSignature 0 (by decide +kernel) rfl rfl rfl rfl (by decide) (by decide +kernel)
    (by decide +kernel) rfl rfl).of_exec (t := bistSlice wrongSignature [] sliceWhileSending) rfl
  obtain ⟨-, -, -, -, hsame⟩ := hfail wrongSignature_ne (by decide)
  exact sliceFails_counts_discarded (bistSlice_fails ▸ hsame)

end Sys2Proof.Machine
end

section
set_option Elab.async false
/-! Refutations of statements about the network, the host rings and the pair. -/

namespace Sys2Proof.Machine

/-- A read whose packet is one flit, listed with the place of a second one. -/
def longWay : NocReq := { dramReq with fwd := [⟨0, 0⟩, ⟨5, 0⟩] }

/-- A device with this read outstanding. -/
def longWayBusy : State := { dramUp with noc := { dramUp.noc with reqs := [longWay] } }

/-- Its only flit. -/
def longWayFlit : Flit := { req := longWay, resp := false, k := 0, hop := ⟨0, 0⟩ }

/-- A hop writes the places of the packet's flits anew, and no others. -/
theorem flitHop_trims_places :
    (reqOf (flitHop 0x43 6 32 { half0 := 0, half1 := 0 } longWayBusy) 0x43 (6 : Fin 256)).map (fun q => hopOf q longWay.answered 1) ≠
      some (hopOf longWay longWay.answered 1) := by decide +kernel

/-- Refutes O28: a hop lists the places of as many flits as the packet has, where the statement keeps nine. -/
theorem not_networkRequestsAndResponses : ¬ Obligations.NetworkRequestsAndResponses := by
  unfold Obligations.NetworkRequestsAndResponses
  rintro ⟨-, -, -, -, hhop, -⟩
  obtain ⟨-, hsome, -, hplaces, -⟩ := (hhop longWayBusy 0x43 6 longWay 32 longWayFlit (by decide +kernel) rfl rfl rfl (by decide +kernel)
    (by decide +kernel) (by decide +kernel) (by decide +kernel) rfl rfl rfl rfl).of_exec
    (t := flitHop 0x43 6 32 { half0 := 0, half1 := 0 } longWayBusy) rfl
  obtain ⟨q, hq⟩ := Option.ne_none_iff_exists'.mp hsome
  exact flitHop_trims_places (by rw [hq, Option.map_some, (hplaces q hq).2 1 (by decide) (by decide)])

/-- A read of command 7 awaits its data, and an owner record waits for its turn in the Porter. -/
def readWhileRecord : State :=
  let s := tracking (runIn modeRun) (begun 0x30 0)
  { s with
    link := { s.link with reads := [{ id := 7, addr := 4096, length := 96, got := [1, 2] }] }
    sec := { s.sec with ops := [.record none false] } }

/-- The state in which the read times out. -/
def readWhileRecordLate : State := timedOut (.command 7) readWhileRecord

/-- A read that a tracked command awaits times out at a moment of the 15 ms that is a free value. -/
theorem timedOut_command {s : State} {id : Nat} {r : HostRead} (hup : s.link.up = true) (htracked : (trackOf s id).isSome = true)
    (hread : s.link.reads.find? (fun a => a.id == id) = some r) :
    timedOut (.command id) s = advanceTo (s.fresh 32).2 (r.at_ + 50 * msTicks + (s.fresh 32).1.toNat % (15 * msTicks + 1)) := by
  simp [timedOut, hup, htracked, hread]

/-- The Porter performs the record after the read has failed, whenever that is. -/
theorem readCompletion_performs_record :
    (readCompletion (.command 7) .abort readWhileRecordLate).sec.ops ≠ readWhileRecord.sec.ops := by
  unfold readWhileRecordLate
  rw [timedOut_command rfl (by decide +kernel) (r := { id := 7, addr := 4096, length := 96, got := [1, 2] }) (by decide +kernel)]
  unfold advanceTo
  split
  · decide +kernel
  · decide +kernel

/-- Refutes O41: after a read that times out the Porter takes its next operation, where the frame keeps `sec`. -/
theorem not_doorbellsFetchesAndHostReads : ¬ Obligations.DoorbellsFetchesAndHostReads := by
  unfold Obligations.DoorbellsFetchesAndHostReads
  rintro ⟨-, -, -, -, -, -, -, -, htimeout, -⟩
  obtain ⟨-, -, -, -, hframe, -⟩ := (htimeout readWhileRecord { id := 7, addr := 4096, length := 96, got := [1, 2] } (begun 0x30 0) rfl
    (by decide +kernel) (by decide +kernel) rfl rfl rfl rfl).of_exec (t := readCompletion (.command 7) .abort readWhileRecordLate) rfl
  exact readCompletion_performs_record (by rw [hframe])

/-- A command of queue 1 has ended while an owner record waits for its turn in the Porter. -/
def postWhileRecord : State := { queuedWith doneCmd with sec := { State.reset.sec with ops := [.record none false] } }

theorem completionPost_performs_record : (completionPost 7 true false postWhileRecord).sec.ops ≠ postWhileRecord.sec.ops := by decide +kernel

/-- Refutes O42: as a completion is posted the Porter takes its next operation, where the frame keeps `sec`. -/
theorem not_completionsQueuesAndTheLink : ¬ Obligations.CompletionsQueuesAndTheLink := by
  unfold Obligations.CompletionsQueuesAndTheLink
  rintro ⟨-, hrefused, -⟩
  obtain ⟨-, -, -, -, -, hframe⟩ := (hrefused postWhileRecord doneCmd aQueue (by decide +kernel) (by decide +kernel) rfl (by decide +kernel)
    (by decide) rfl (by decide +kernel) (by decide +kernel) rfl rfl (by decide +kernel)).of_exec (t := completionPost 7 true false postWhileRecord) rfl
  exact completionPost_performs_record (by rw [hframe])

/-- A device whose ACTIVE Bolryn Link gives its eight recovered clocks as candidates. -/
def linkCandidates : State := (paired modeRun).wr CLK_CAND_READY.ready (0xFF * 2 ^ 17)

/-- A control block says that the partner's transmitter goes to sleep. -/
def sleepBlock : ControlBlock := { aBlock with sleep := true }

/-- The recovered clocks of a direction that sleeps are lost as candidates (R512). -/
theorem controlBlock_loses_candidates :
    ¬ SameRegs (keys [PRL_STATUS.partner_present, PRL_STATUS.rx_sleep, PRL_STATUS.fit, PRL_STATUS.suspended]) linkCandidates
      (controlBlock sleepBlock true linkCandidates) := by
  unfold SameRegs
  decide +kernel

/-- Refutes O54: a block that announces sleep takes the link's recovered clocks from the candidates, whose registers the clause does not list. -/
theorem not_pairFormsDissolvesAndListens : ¬ Obligations.PairFormsDissolvesAndListens := by
  unfold Obligations.PairFormsDissolvesAndListens
  rintro ⟨hblock, -⟩
  obtain ⟨-, -, -, -, -, -, -, -, -, -, -, hsame⟩ := (hblock linkCandidates sleepBlock (by decide +kernel) (by decide +kernel) rfl rfl).of_exec
    (t := controlBlock sleepBlock true linkCandidates) rfl
  exact controlBlock_loses_candidates hsame

end Sys2Proof.Machine
end

section
set_option Elab.async false
/-! Refutation of the statement about link and function resets. -/

namespace Sys2Proof.Machine

/-- An owner record is being read from host memory. -/
def recordRead : State :=
  { runIn modeRun with
    link := { (runIn modeRun).link with up := true, reads := [{ id := ownerRead, addr := 0, length := ownerLength, got := [] }] }
    sec := { Sec.start with ops := [.recordRead] } }

/-- With the link goes the read of the record, and the record takes its turn without its bytes (R280). -/
theorem linkDown_ends_record : (linkDown recordRead).sec.ops ≠ recordRead.sec.ops := by decide +kernel

/-- Refutes O10: the loss of the link ends the read of an owner record, so `sec.ops` empties, which the frame says stays. -/
theorem not_linkAndFunctionResets : ¬ Obligations.LinkAndFunctionResets := by
  unfold Obligations.LinkAndFunctionResets
  rintro ⟨-, -, hloss, -⟩
  obtain ⟨-, -, -, -, -, hframe⟩ := (hloss recordRead rfl).of_exec (t := linkDown recordRead) rfl
  exact linkDown_ends_record (by rw [hframe])

end Sys2Proof.Machine
end

section
set_option Elab.async false
/-! Refutation of the statement about latch and plane checks. -/

namespace Sys2Proof.Machine

/-- Frame 7 of context 0 is lost, its golden signature being another than that of the frame; an engine comes to it on its sweep. -/
def lostPlaneFrame : State :=
  { runIn modeRun with
    ctxs := { Contexts.start with planes := [(planeKey 0 7, 5)], sigs := [(planeKey 0 7, ~~~(frameSig 0 7 5))] }
    integ := { State.reset.integ with
      a := { sweeping := true, pos := 7, last := 5, start := 3, count := 4, record := 4, report := 6 }
      lost := [{ ctx := 0, frame := 7, latch := false, staged := false, injected := false }] }
    imgs := { State.reset.imgs with ctx := [(0, plainImage)] } }

/-- The state in which the engine has read the frame. -/
def frameRead : State :=
  let s := advanceTo lostPlaneFrame (5 + hcs lostPlaneFrame 36)
  setEngine s false { engine lostPlaneFrame false with pos := 8, last := s.now }

/-- Whether the signature agrees or not, the engine goes on and queues nothing. -/
theorem frameCheck_skips_lost : frameCheck false none false lostPlaneFrame = frameRead := by
  have hlost : ∀ r : Repair, r.ctx = 0 → r.frame = 7 → r.latch = false → r.staged = false → queueRepair frameRead r = frameRead := by
    intro r hctx hframe hlatch hstaged
    have hany : frameRead.integ.lost.any (fun q => q.ctx == r.ctx && q.frame == r.frame && q.latch == r.latch && q.staged == r.staged) = true := by
      rw [hctx, hframe, hlatch, hstaged]
      decide +kernel
    exact if_pos (.inr (.inl hany))
  have hreach : frameCheck false none false lostPlaneFrame =
      if frameSig 0 7 (planeFrame frameRead 0 7) = sparseGet 0 frameRead.ctxs.sigs (planeKey 0 7) then frameRead
      else queueRepair frameRead { ctx := 0, frame := 7, latch := false, staged := false, injected := false } := by
    have hshare : shareFrame lostPlaneFrame false (engine lostPlaneFrame false).pos = (0, 7) := by decide +kernel
    have hcommitted : committed frameRead 0 = true := by decide +kernel
    have harmed : injArmed frameRead 3 (7 + 0 * 2 ^ 18) = false := by decide +kernel
    unfold frameCheck
    rw [if_neg (by decide +kernel), hshare]
    show (if (0 : Nat) = 8 then _ else if (!committed frameRead 0) = true then _ else _) = _
    rw [if_neg (by decide), if_neg (by simp [hcommitted])]
    show (if injArmed frameRead 3 (7 + 0 * 2 ^ 18) = true then _ else _) = _
    rw [harmed, if_neg (by decide)]
    rfl
  rw [hreach, hlost _ rfl rfl rfl rfl, ite_self]

/-- Refutes O37: a lost frame stays pending until a commit (R326), so its mismatch queues no repair. -/
theorem not_latchesAndPlanesAreCheckedAndRepaired : ¬ Obligations.LatchesAndPlanesAreCheckedAndRepaired := by
  unfold Obligations.LatchesAndPlanesAreCheckedAndRepaired
  rintro ⟨-, -, -, hcheck, -⟩
  obtain ⟨-, -, -, -, -, hqueue, -⟩ := (hcheck lostPlaneFrame false none 0 7 (by decide +kernel) (by decide +kernel) (by decide +kernel)
    (by decide) (by decide +kernel) (by decide +kernel) (by decide +kernel) (by decide +kernel)).of_exec
    (t := frameRead) (congrArg Host.Outcome.next frameCheck_skips_lost)
  have hframe : planeFrame frameRead 0 7 = 5 := by decide +kernel
  have hsig : sparseGet 0 lostPlaneFrame.ctxs.sigs (planeKey 0 7) = ~~~(frameSig 0 7 5) := rfl
  have hempty : frameRead.integ.queue = [] := by decide +kernel
  rw [hframe, hsig, hempty] at hqueue
  have hne : frameSig 0 7 5 ≠ ~~~(frameSig 0 7 5) := by
    generalize frameSig 0 7 5 = g
    intro h
    have hbit := congrArg (fun x : BitVec 64 => x.getLsbD 0) h
    simp at hbit
  cases hqueue hne

end Sys2Proof.Machine
end

section
set_option Elab.async false
/-! Refutation of the statement about the DMA commands. -/

namespace Sys2Proof.Machine

/-- The fields of a DMA_FILL of 20 bytes of host memory. -/
def fillEntry : BitVec 512 := BitVec.ofNat 512 (64 * 2 ^ 128 + 1234605616436508552 * 2 ^ 192 + 20 * 2 ^ 256 + 2 * 2 ^ 288)

/-- SNAPSHOT_FF of another queue, at its commit point: its values wait for a mover. -/
def heldSnapshot : Track := { cmd 0x16 (BitVec.ofNat 512 0) with id := 8, q := 1, phase := .started, committed := true }

/-- A device that starts the DMA_FILL while the snapshot waits. -/
def fillBesideSnapshot : State :=
  let s := tracking (runIn modeRun) (cmd 0x21 fillEntry)
  { s with link := { s.link with tracks := s.link.tracks ++ [heldSnapshot] } }

/-- The mover that the DMA_FILL frees moves the snapshot's values at once, and its command ends as well (R59, R314). -/
theorem dmaFill_frees_mover : (startDma 0x21 7 fillBesideSnapshot (dmaMove true)).link.tracks.filter (fun u => u.id != 7) ≠
    fillBesideSnapshot.link.tracks.filter (fun u => u.id != 7) := by decide +kernel

/-- Refutes O46: as a DMA_FILL ends, a snapshot that waits for a mover completes in the same step. -/
theorem not_dmaAndReportCommands : ¬ Obligations.DmaAndReportCommands := by
  unfold Obligations.DmaAndReportCommands
  rintro ⟨-, -, hfill, -⟩
  obtain ⟨-, -, -, -, hothers⟩ := (hfill fillBesideSnapshot 7 (cmd 0x21 fillEntry) 0 (by decide +kernel) (by decide +kernel) (by decide +kernel)
    (by decide +kernel) (by decide +kernel) (by decide +kernel) (by decide +kernel) (by decide +kernel) (by decide +kernel) (by decide +kernel)).of_exec
    (t := startDma 0x21 7 fillBesideSnapshot (dmaMove true)) rfl
  exact dmaFill_frees_mover hothers

end Sys2Proof.Machine
end

section
set_option Elab.async false
/-! Refutation of the statement about the references. -/

namespace Sys2Proof.Machine

/-- The hold-off time of lane 4 ends; lane 9 is the best one, its transmitter in electrical idle and the dwell of its scan paused. -/
def holdOffBesideScan : State :=
  { (aonUp.wr TIM_STATUS.synce_sel 4).wr FHL_LANE_STATUS.rclk_valid 1 9 |>.wr CLK_CAND_READY.ready 0x400 |>.wr TIM_SYNCE_QL.rank 2 9 with
    tim := { aonUp.tim with seHold := some 77 }
    fh := { aonUp.fh with
      lanes := [(9, { Lane.zero with txEi := true })]
      scans := [{ id := 7, group := 0, lane := 9, intrusive := false, start := 0, idle := some 3 }] } }

/-- The selected lane leaves electrical idle (R408), and the dwell of its scan goes on (R407). -/
theorem holdOffEnd_resumes_scan : (holdOffEnd holdOffBesideScan).fh.scans ≠ holdOffBesideScan.fh.scans := by decide +kernel

/-- Refutes O57: the selection after a hold-off time resumes a paused scan, where the frame lets nothing of `fh` but the lanes change. -/
theorem not_referencesAreMeasuredAndNumbered : ¬ Obligations.ReferencesAreMeasuredAndNumbered := by
  unfold Obligations.ReferencesAreMeasuredAndNumbered
  rintro ⟨-, -, -, -, -, -, -, -, hhold, -⟩
  obtain ⟨-, -, -, -, hframe, -⟩ := (hhold holdOffBesideScan 77 rfl (by decide +kernel) (by decide +kernel) (by decide +kernel)).of_exec
    (t := holdOffEnd holdOffBesideScan) rfl
  exact holdOffEnd_resumes_scan (by rw [hframe])

end Sys2Proof.Machine
end

section
set_option Elab.async false
/-! Refutation of the statement about the timing engine. -/

namespace Sys2Proof.Machine

/-- A running device in FREERUN. Lane 9 is the best reference, its transmitter in electrical idle and the dwell of its scan paused. -/
def evaluatedBesideScan : State :=
  let s := (runIn modeRun).wr SAF_CTRL.time_error 0 |>.wr TIM_STATUS.time_error 1 |>.wr FHL_LANE_STATUS.rclk_valid 1 9
    |>.wr CLK_CAND_READY.ready 0x400 |>.wr TIM_SYNCE_QL.rank 2 9
  { s with
    fh := { s.fh with
      lanes := [(9, { Lane.zero with txEi := true })]
      scans := [{ id := 7, group := 0, lane := 9, intrusive := false, start := 0, idle := some 3 }] } }

/-- The newly selected lane leaves electrical idle (R408), and the dwell of its scan goes on (R407). -/
theorem timingRound_resumes_scan : (timingRound evaluatedBesideScan).fh.scans ≠ evaluatedBesideScan.fh.scans := by decide +kernel

/-- Refutes O58: an evaluation that selects a lane resumes a paused scan of it, where the frame lets nothing of `fh` but the lanes change. -/
theorem not_timingEngineStepsAndOutputs : ¬ Obligations.TimingEngineStepsAndOutputs := by
  unfold Obligations.TimingEngineStepsAndOutputs
  rintro ⟨heval, -⟩
  obtain ⟨-, -, -, -, -, hframe, -⟩ := (heval evaluatedBesideScan (by decide +kernel) (by decide +kernel) (by decide +kernel) (by decide +kernel)
    (by decide +kernel) (by decide +kernel) (by decide +kernel)).of_exec (t := timingRound evaluatedBesideScan) rfl
  exact timingRound_resumes_scan (by rw [hframe])

end Sys2Proof.Machine
end

section
set_option Elab.async false
/-! Refutation of the statement about DRAM maintenance. -/

namespace Sys2Proof.Machine

/-- A row of a rank that no controller has: its resource is beyond the 32 bits of DRC_PPR.used. -/
def strayRow : RowAddr := { row := 0, bg := 0, bank := 0, rank := 9, sub := 0 }

/-- A soft repair of that row is in progress. -/
def strayRepair : State := { dramUp with dram := { dramUp.dram with c0 := { dramUp.dram.c0 with repair := some (5, strayRow) } } }

/-- No bit of DRC_PPR.used shows the resource. -/
theorem repairDone_hides_stray : bit ((repairDone 0 [] [] strayRepair).rd DRC_PPR.used 0) strayRow.resource = false := by decide +kernel

/-- Refutes O30: the repair of a row whose resource has no bit in DRC_PPR.used does not show there. -/
theorem not_dramMaintenance : ¬ Obligations.DramMaintenance := by
  unfold Obligations.DramMaintenance
  rintro ⟨-, -, -, -, -, -, -, -, -, -, -, hend⟩
  obtain ⟨-, hused, -⟩ := (hend strayRepair 0 5 strayRow [] rfl rfl rfl).of_exec (t := repairDone 0 [] [] strayRepair) rfl
  exact Bool.noConfusion (hused.symm.trans repairDone_hides_stray)

end Sys2Proof.Machine
end

section
set_option Elab.async false
/-! Refutation of the statement about the streams of image loads. -/

namespace Sys2Proof.Machine

/-- A load whose next record repeats its last frame at position 5. -/
def repeatLoad : Load := { loadOf (headOf [(2, 0, 8, 2)]) [1, 0, 0, 0x40] with last := some 99, pos := 5 }

/-- A device that decodes that record, the word of frame 5 poisoned on its way through the relay. -/
def poisonedLanding : State :=
  let s := loading phStreaming repeatLoad
  { s with stack := { s.stack with poisoned := [.landing 5] } }

/-- The poisoned frame is not written: the load ends POISONED (R16). -/
theorem imageRecord_ends_poisoned : (pairCheck (imageRecord poisonedLanding)).imgs.load.isNone = true := by decide +kernel

/-- Refutes O35: a frame whose word crosses the relay poisoned ends the load instead of going into the landing plane. -/
theorem not_imageLoadsStream : ¬ Obligations.ImageLoadsStream := by
  unfold Obligations.ImageLoadsStream
  rintro ⟨-, -, -, -, hrepeat, -⟩
  obtain ⟨-, -, hload⟩ := (hrepeat poisonedLanding repeatLoad ⟨2, 0, 8, 2⟩ 99 rfl rfl (by decide +kernel) (by decide +kernel) (by decide +kernel) rfl
    (by decide +kernel) rfl (by decide +kernel) (by decide +kernel) (by decide +kernel) rfl (by decide +kernel)).of_exec
    (t := pairCheck (imageRecord poisonedLanding)) rfl
  have hsome := congrArg Option.isNone hload
  rw [Option.isNone_map, imageRecord_ends_poisoned] at hsome
  exact Bool.noConfusion hsome

end Sys2Proof.Machine
end

section
set_option Elab.async false
/-! Refutation of the statement about planes and snapshots. -/

namespace Sys2Proof.Machine

/-- SNAPSHOT_FF of one tile, started. -/
def oneTileSnapshot : Track := begun 0x16 (BitVec.ofNat 512 (1 * 2 ^ 160 + 64 * 2 ^ 192 + 64 * 2 ^ 256))

/-- A device whose tracking table lists that snapshot twice. -/
def twiceTracked : State :=
  let s := (((tracking (runIn modeRun) oneTileSnapshot).wr CFG_LATCH_STATUS.active_valid 1).wr CFG_CTX_IMAGE.debug_observe 1).wr SEC_STATUS.grants 1
  { s with sec := { s.sec with expires := some 100000000 }, link := { s.link with tracks := [oneTileSnapshot, oneTileSnapshot] } }

/-- The capture edge moves the values once for each of the two entries. -/
theorem snapshotEdge_writes_twice : (snapshotEdge 7 [5] twiceTracked).outbox.length = twiceTracked.outbox.length + 2 := by decide +kernel

/-- Refutes O36: a snapshot listed twice in the tracking table writes its values to the host twice. -/
theorem not_planesRemapAndSnapshots : ¬ Obligations.PlanesRemapAndSnapshots := by
  unfold Obligations.PlanesRemapAndSnapshots
  rintro ⟨-, -, -, -, hedge⟩
  obtain ⟨hout, -⟩ := (hedge twiceTracked 7 oneTileSnapshot [5] rfl rfl rfl rfl (by decide +kernel) (by decide +kernel) (by decide +kernel)
    (by decide +kernel) (by decide +kernel) (by decide +kernel) (by decide +kernel) (by decide +kernel) (by decide +kernel)
    (by decide +kernel)).of_exec (t := snapshotEdge 7 [5] twiceTracked) rfl
  have hlength := congrArg List.length hout
  rw [snapshotEdge_writes_twice, List.length_append, List.length_singleton] at hlength
  omega

end Sys2Proof.Machine
end

section
set_option Elab.async false
/-! Refutation of the statement about invalidates, port B and block retirement. -/

namespace Sys2Proof.Machine

/-- Block 300 is copied to its spare 2, and its word 0 has been written since the copy began. -/
def writtenDuringCopy : State :=
  { runIn modeRun with mem := { State.reset.mem with retiring := [(300, 2, 8)], newer := [300 * 4096] } }

/-- The switch to the spare forgets the word: the list of words newer than the copy is empty (R196). -/
theorem retirementSwitch_forgets_newer : (retirementSwitch 300 [] writtenDuringCopy).mem.newer = [] := by decide +kernel

/-- Refutes O27: a block with a word written during its copy also loses that word from the list of newer words as its spare takes over. -/
theorem not_invalidationPortBAndRetirement : ¬ Obligations.InvalidationPortBAndRetirement := by
  unfold Obligations.InvalidationPortBAndRetirement
  rintro ⟨-, -, -, -, -, -, -, hswitch⟩
  obtain ⟨-, hmem, -⟩ := (hswitch writtenDuringCopy 300 2 8 rfl rfl (by decide) (by decide +kernel)).of_exec
    (t := retirementSwitch 300 [] writtenDuringCopy) rfl
  have hnewer := congrArg MemDie.newer hmem
  rw [retirementSwitch_forgets_newer] at hnewer
  exact List.cons_ne_nil _ _ hnewer.symm

end Sys2Proof.Machine
end

section
set_option Elab.async false
/-! Refutation of the statement about the lines of the encryption engine. -/

namespace Sys2Proof.Machine

/-- A request of an initiator whose number has more than 8 bits. -/
def wideInitReq : NocReq := { dramReq with init := 0x143, kidValid := true, kid := 5 }

/-- A device in which that request has come to the engine. -/
def wideInitAtEngine : State := { dramUp with noc := { dramUp.noc with reqs := [wideInitReq] } }

/-- NOC_DENY_PA_HI shows the low 8 bits of the initiator. -/
theorem encRequest_shows_low_bits : (encRequest 0x143 6 {} wideInitAtEngine).rd NOC_DENY_PA_HI.initiator = 0x43 := by decide +kernel

/-- Refutes O32: a denial of an initiator number of 9 bits does not show it whole. -/
theorem not_encryptionEngineServesLines : ¬ Obligations.EncryptionEngineServesLines := by
  unfold Obligations.EncryptionEngineServesLines
  rintro ⟨hdeny, -⟩
  obtain ⟨-, hinit, -⟩ := (hdeny wideInitAtEngine 0x143 6 wideInitReq {} (by decide +kernel) (by decide +kernel) (by decide +kernel)
    (by decide +kernel) rfl rfl (by decide +kernel) (by decide +kernel) (by decide +kernel)).of_exec (t := encRequest 0x143 6 {} wideInitAtEngine) rfl
  rw [encRequest_shows_low_bits] at hinit
  exact absurd hinit (by decide)

end Sys2Proof.Machine
end

section
set_option Elab.async false
/-! Refutation of the statement about frames, scans and lane errors. -/

namespace Sys2Proof.Machine

/-- A scan of lane 5 that pauses while the lane is in electrical idle. -/
def stalledScan : Scan := { id := 7, group := 0, lane := 5, intrusive := false, start := 0, idle := some 0 }

/-- A device with that scan under way. -/
def scanStalled : State :=
  let s := tracking (laneIn 3) (begun 0x44 0)
  { s with fh := { s.fh with scans := [stalledScan] } }

/-- A paused scan does not finish (R407). -/
theorem eyeScanEnd_keeps_paused : (eyeScanEnd 0 [1, 2] scanStalled).fh.scans.length = 1 := by decide +kernel

/-- Refutes O49: a scan paused by its lane's electrical idle stays where it is. -/
theorem not_framesScansAndLaneErrors : ¬ Obligations.FramesScansAndLaneErrors := by
  unfold Obligations.FramesScansAndLaneErrors
  rintro ⟨-, -, -, -, -, -, -, -, -, -, -, -, -, -, -, -, hscan⟩
  obtain ⟨hfh, -⟩ := (hscan scanStalled 0 [1, 2] stalledScan (begun 0x44 0) rfl rfl rfl rfl rfl (by decide +kernel)).of_exec
    (t := eyeScanEnd 0 [1, 2] scanStalled) rfl
  have hlength := congrArg (fun f : Fh => f.scans.length) hfh
  simp only [eyeScanEnd_keeps_paused] at hlength
  exact absurd hlength (by decide)

end Sys2Proof.Machine
end

section
set_option Elab.async false
/-! Refutation of the statement about takeovers and pair time. -/

namespace Sys2Proof.Machine

/-- A lead whose partner asks for throttle step 3, and that then loses its heartbeat. -/
def throttledByPartner : State :=
  pairedAs modeLead { Pair.start with heartbeat := true, partner := some { role := 2, width := 8, tq := 0, step := 3, ctx := 0, fault := 0 } }

/-- The step of the partner no longer counts, so that the change of the enforced step is noted in the Wicket's state (R529). -/
theorem heartbeatLoss_changes_step : (stepChange throttledByPartner (heartbeatLoss throttledByPartner)).wkt.stepWas = 3 := by decide +kernel

/-- Refutes O56: with the heartbeat a lead also loses the throttle step of its partner, and the Wicket's state follows it. -/
theorem not_takeoversAndPairTime : ¬ Obligations.TakeoversAndPairTime := by
  unfold Obligations.TakeoversAndPairTime
  rintro ⟨-, -, -, -, -, -, hlead, -⟩
  obtain ⟨-, -, -, -, hkept, -⟩ := (hlead throttledByPartner (by decide +kernel) (by decide +kernel) (by decide +kernel)).of_exec
    (t := stepChange throttledByPartner (heartbeatLoss throttledByPartner)) rfl
  have hwkt : (stepChange throttledByPartner (heartbeatLoss throttledByPartner)).wkt = throttledByPartner.wkt := by rw [hkept]
  have hstep := congrArg Wkt.stepWas hwkt
  rw [heartbeatLoss_changes_step] at hstep
  exact absurd hstep (by decide)

end Sys2Proof.Machine
end

section
set_option Elab.async false
/-! Refutation of the statement about replays, column spares and tile exceptions. -/

namespace Sys2Proof.Machine

/-- Tile 3 stands between blocks at a word that names no instruction, waiting for its column's free spare. -/
def illegalAtSubstitution : State :=
  { runIn modeRun with tiles := [(3, { tileWith 0 with prog := [(0, tword 6 0 0 0 0 0 0)], vectors := [], lasting := true })] }

/-- A tile that waits for its substitution issues nothing (R150), so that it is not halted. -/
theorem thicketNop_waits_for_substitution : (tileOf (issue .nop 3 clean illegalAtSubstitution) 3).state = .run := by decide +kernel

/-- Refutes O24: the clause of an illegal word does not leave out the tile that waits for its spare and takes no exception meanwhile. -/
theorem not_replaySpareAndExceptions : ¬ Obligations.ReplaySpareAndExceptions := by
  unfold Obligations.ReplaySpareAndExceptions
  rintro ⟨-, -, -, -, -, hillegal, -⟩
  obtain ⟨-, htile, -⟩ := (hillegal illegalAtSubstitution 3 clean (by decide +kernel) (by decide +kernel) (by decide +kernel) (by decide)
    (by decide +kernel) (by decide +kernel) (by decide +kernel)).of_exec (t := issue .nop 3 clean illegalAtSubstitution) rfl
  have hstate := congrArg Tile.state htile
  rw [show ((3 : Fin 1024) : Nat) = 3 from rfl, thicketNop_waits_for_substitution] at hstate
  exact absurd hstate (by decide)

end Sys2Proof.Machine
end

section
set_option Elab.async false
/-! Refutation of the statement about entry vectors, events, FIFOs, releases and external beats. -/

namespace Sys2Proof.Machine

/-- A write for the same tile whose flits stand in the last router of their way. -/
def followingReq : NocReq := { xyReq with tag := 7, fwd := List.replicate 9 { at_ := 3, tick := 0 } }

/-- Two writes for X memory of tile 0: the first is at its target, the flits of the second have waited for ejection since tick 0. -/
def twoWritesAtTile : State :=
  { runIn modeRun with now := 1000, noc := { (runIn modeRun).noc with reqs := [xyReq, followingReq] } }

/-- Before the beat acts, the router ejects the other packet, whose use of the link is noted (R212). -/
theorem externalXyBeat_moves_other_packet : (xyBeat 5 6 .ok .ok twoWritesAtTile).noc.links.length = 1 := by decide +kernel

/-- Refutes O23: with a beat the network moves on to the present, and another packet leaves its last router, where the frame keeps the links. -/
theorem not_vectorsEventsAndPorts : ¬ Obligations.VectorsEventsAndPorts := by
  unfold Obligations.VectorsEventsAndPorts
  rintro ⟨-, -, -, -, -, -, -, -, -, -, -, hbeat⟩
  obtain ⟨hkept, -⟩ := (hbeat twoWritesAtTile 5 6 .ok .ok xyReq 0 1 76 false (by decide +kernel) rfl rfl (by decide +kernel)
    (by decide +kernel) (by decide +kernel) (by decide +kernel) (by decide +kernel) (by decide +kernel) rfl (by decide +kernel)).of_exec
    (t := xyBeat 5 6 .ok .ok twoWritesAtTile) rfl
  have hlinks : (xyBeat 5 6 .ok .ok twoWritesAtTile).noc.links = twoWritesAtTile.noc.links := by rw [hkept]
  have hlength := congrArg List.length hlinks
  rw [externalXyBeat_moves_other_packet] at hlength
  exact absurd hlength (by decide)

end Sys2Proof.Machine
end

section
set_option Elab.async false
/-! Frames: which parts of the state, and which register fields, an operation may change. -/
namespace Sys2Proof.Machine

/-- The parts of the state. -/
inductive Part where
  | now | grade2 | regs | boot | stack | safe | districts | ctxs | tiles | mem | noc | dram | enc | link | sec | imgs | integ | dmas | fh | tim
  | wkt | pins | pair | free | outbox | pending
  deriving DecidableEq

/-- The state whose parts `ps` are those of `t` and whose other parts are those of `s`. -/
def State.over (ps : List Part) (s t : State) : State :=
  { now := if .now ∈ ps then t.now else s.now
    grade2 := if .grade2 ∈ ps then t.grade2 else s.grade2
    regs := if .regs ∈ ps then t.regs else s.regs
    boot := if .boot ∈ ps then t.boot else s.boot
    stack := if .stack ∈ ps then t.stack else s.stack
    safe := if .safe ∈ ps then t.safe else s.safe
    districts := if .districts ∈ ps then t.districts else s.districts
    ctxs := if .ctxs ∈ ps then t.ctxs else s.ctxs
    tiles := if .tiles ∈ ps then t.tiles else s.tiles
    mem := if .mem ∈ ps then t.mem else s.mem
    noc := if .noc ∈ ps then t.noc else s.noc
    dram := if .dram ∈ ps then t.dram else s.dram
    enc := if .enc ∈ ps then t.enc else s.enc
    link := if .link ∈ ps then t.link else s.link
    sec := if .sec ∈ ps then t.sec else s.sec
    imgs := if .imgs ∈ ps then t.imgs else s.imgs
    integ := if .integ ∈ ps then t.integ else s.integ
    dmas := if .dmas ∈ ps then t.dmas else s.dmas
    fh := if .fh ∈ ps then t.fh else s.fh
    tim := if .tim ∈ ps then t.tim else s.tim
    wkt := if .wkt ∈ ps then t.wkt else s.wkt
    pins := if .pins ∈ ps then t.pins else s.pins
    pair := if .pair ∈ ps then t.pair else s.pair
    free := if .free ∈ ps then t.free else s.free
    outbox := if .outbox ∈ ps then t.outbox else s.outbox
    pending := if .pending ∈ ps then t.pending else s.pending }

/-- Nothing of the state but its parts `ps` has changed from `s` to `t`. -/
def OnlyParts (ps : List Part) (s t : State) : Prop := t = s.over ps t

variable {s t u : State} {ps qs : List Part}

theorem OnlyParts.refl : OnlyParts ps s s := by simp [OnlyParts, State.over]

theorem onlyParts_iff : OnlyParts ps s t ↔
    (.now ∈ ps ∨ t.now = s.now) ∧ (.grade2 ∈ ps ∨ t.grade2 = s.grade2) ∧ (.regs ∈ ps ∨ t.regs = s.regs) ∧ (.boot ∈ ps ∨ t.boot = s.boot) ∧
    (.stack ∈ ps ∨ t.stack = s.stack) ∧ (.safe ∈ ps ∨ t.safe = s.safe) ∧ (.districts ∈ ps ∨ t.districts = s.districts) ∧
    (.ctxs ∈ ps ∨ t.ctxs = s.ctxs) ∧ (.tiles ∈ ps ∨ t.tiles = s.tiles) ∧ (.mem ∈ ps ∨ t.mem = s.mem) ∧ (.noc ∈ ps ∨ t.noc = s.noc) ∧
    (.dram ∈ ps ∨ t.dram = s.dram) ∧ (.enc ∈ ps ∨ t.enc = s.enc) ∧ (.link ∈ ps ∨ t.link = s.link) ∧ (.sec ∈ ps ∨ t.sec = s.sec) ∧
    (.imgs ∈ ps ∨ t.imgs = s.imgs) ∧ (.integ ∈ ps ∨ t.integ = s.integ) ∧ (.dmas ∈ ps ∨ t.dmas = s.dmas) ∧ (.fh ∈ ps ∨ t.fh = s.fh) ∧
    (.tim ∈ ps ∨ t.tim = s.tim) ∧ (.wkt ∈ ps ∨ t.wkt = s.wkt) ∧ (.pins ∈ ps ∨ t.pins = s.pins) ∧ (.pair ∈ ps ∨ t.pair = s.pair) ∧
    (.free ∈ ps ∨ t.free = s.free) ∧ (.outbox ∈ ps ∨ t.outbox = s.outbox) ∧ (.pending ∈ ps ∨ t.pending = s.pending) := by
  have hpart : ∀ {α : Type} (p : Part) (a b : α), a = (if p ∈ ps then a else b) ↔ p ∈ ps ∨ a = b := by
    intro α p a b
    by_cases hp : p ∈ ps <;> simp [hp]
  cases s; cases t
  simp only [OnlyParts, State.over, State.mk.injEq, hpart]

theorem OnlyParts.mono (h : OnlyParts qs s t) (hq : qs ⊆ ps) : OnlyParts ps s t := by
  rw [onlyParts_iff] at h ⊢
  have hpart : ∀ {p : Part} {a : Prop}, p ∈ qs ∨ a → p ∈ ps ∨ a := Or.imp_left (@hq _)
  obtain ⟨h1, h2, h3, h4, h5, h6, h7, h8, h9, h10, h11, h12, h13, h14, h15, h16, h17, h18, h19, h20, h21, h22, h23, h24, h25, h26⟩ := h
  exact ⟨hpart h1, hpart h2, hpart h3, hpart h4, hpart h5, hpart h6, hpart h7, hpart h8, hpart h9, hpart h10, hpart h11, hpart h12, hpart h13,
    hpart h14, hpart h15, hpart h16, hpart h17, hpart h18, hpart h19, hpart h20, hpart h21, hpart h22, hpart h23, hpart h24, hpart h25, hpart h26⟩

theorem OnlyParts.trans (h : OnlyParts ps s t) (h' : OnlyParts ps t u) : OnlyParts ps s u := by
  have hover : s.over ps u = (s.over ps t).over ps u := by
    unfold State.over
    congr 1 <;> split <;> rfl
  unfold OnlyParts at h h' ⊢
  rw [hover, ← h, ← h']


/-- A last change, and the changes before it. -/
theorem OnlyParts.after (h' : OnlyParts qs t u) (h : OnlyParts ps s t) (hq : qs ⊆ ps := by decide) : OnlyParts ps s u :=
  h.trans (h'.mono hq)

theorem onlyParts_ite {c : Prop} [Decidable c] (ht : c → OnlyParts ps s t) (hu : ¬ c → OnlyParts ps s u) :
    OnlyParts ps s (if c then t else u) := by
  split
  · exact ht ‹_›
  · exact hu ‹_›

theorem onlyParts_foldl {α : Type} {f : State → α → State} (hf : ∀ s a, OnlyParts ps s (f s a)) {l : List α} (h : OnlyParts ps s t) :
    OnlyParts ps s (l.foldl f t) := by
  induction l generalizing t with
  | nil => exact h
  | cons a l ih => exact ih (h.trans (hf t a))

/-! ## Register fields -/

variable {ks ls : List Nat}

theorem sparseFind_filter {α : Type} (m : Sparse α) (p : Nat → Bool) (n : Nat) (hn : p n = true) :
    sparseFind (m.filter fun e => p e.1) n = sparseFind m n := by
  induction m with
  | nil => rfl
  | cons e m ih =>
    obtain ⟨k, v⟩ := e
    by_cases hk : k = n
    · subst hk; simp [hn, sparseFind]
    · cases hp : p k <;> simp [hp, sparseFind, hk, ih]

theorem filter_sparsePut {α : Type} (m : Sparse α) (p : Nat → Bool) (n : Nat) (v : α) (hn : p n = false) :
    (sparsePut m n v).filter (fun e => p e.1) = m.filter fun e => p e.1 := by
  induction m with
  | nil => simp [sparsePut, hn]
  | cons e m ih =>
    obtain ⟨k, w⟩ := e
    unfold sparsePut
    split
    · next hk => subst hk; simp [hn]
    · split
      · simp [hn]
      · simp [List.filter_cons, ih]

theorem filter_sparseDel {α : Type} (m : Sparse α) (p : Nat → Bool) (n : Nat) (hn : p n = false) :
    (sparseDel m n).filter (fun e => p e.1) = m.filter fun e => p e.1 := by
  induction m with
  | nil => rfl
  | cons e m ih =>
    obtain ⟨k, w⟩ := e
    unfold sparseDel
    split
    · next hk => subst hk; simp [hn, ih]
    · simp [List.filter_cons, ih]

theorem SameRegs.refl : SameRegs ks s s := rfl

theorem sameRegs_of_regs_eq (h : t.regs = s.regs) : SameRegs ks s t := by unfold SameRegs; rw [h]

theorem SameRegs.trans (h : SameRegs ks s t) (h' : SameRegs ks t u) : SameRegs ks s u := Eq.trans h' h

theorem SameRegs.mono (h : SameRegs ls s t) (hl : ls ⊆ ks) : SameRegs ks s t := by
  have hfilter : ∀ m : Sparse Nat, m.filter (fun e => !ks.contains e.1) =
      (m.filter fun e => !ls.contains e.1).filter fun e => !ks.contains e.1 := by
    intro m
    rw [List.filter_filter]
    refine List.filter_congr fun e _ => ?_
    by_cases he : e.1 ∈ ls
    · simp [he, hl he]
    · simp [he]
  unfold SameRegs at h ⊢
  rw [hfilter, h, ← hfilter]

theorem sameRegs_wr (r : Row) (v i j : Nat) : SameRegs [r.key i j] s (s.wr r v i j) := by
  have hkey : (fun k : Nat => !([r.key i j].contains k)) (r.key i j) = false := by simp
  unfold SameRegs State.wr sparseSet
  dsimp only
  split
  · exact filter_sparseDel _ (fun k : Nat => !([r.key i j].contains k)) _ hkey
  · exact filter_sparsePut _ (fun k : Nat => !([r.key i j].contains k)) _ _ hkey

/-- A field whose key may not change reads as before. -/
theorem SameRegs.rd (h : SameRegs ks s t) {r : Row} {i j : Nat} (hk : r.key i j ∉ ks) : t.rd r i j = s.rd r i j := by
  have hkey : (fun k : Nat => !(ks.contains k)) (r.key i j) = true := by simpa using hk
  unfold SameRegs at h
  unfold State.rd sparseGet
  rw [← sparseFind_filter t.regs (fun k : Nat => !(ks.contains k)) _ hkey, h,
    sparseFind_filter s.regs (fun k : Nat => !(ks.contains k)) _ hkey]

/-- Nothing has changed from `s` to `t` but the parts `ps` of the state and, of the register fields, those with keys `ks`. -/
structure Changes (ps : List Part) (ks : List Nat) (s t : State) : Prop where
  parts : OnlyParts ps s t
  sameRegs : SameRegs ks s t

theorem Changes.refl : Changes ps ks s s := ⟨.refl, .refl⟩

theorem Changes.mono (h : Changes qs ls s t) (hp : qs ⊆ ps := by decide) (hk : ls ⊆ ks := by decide) : Changes ps ks s t :=
  ⟨h.parts.mono hp, h.sameRegs.mono hk⟩

theorem Changes.trans (h : Changes ps ks s t) (h' : Changes ps ks t u) : Changes ps ks s u :=
  ⟨h.parts.trans h'.parts, h.sameRegs.trans h'.sameRegs⟩

/-- A last change, and the changes before it. -/
theorem Changes.after (h' : Changes qs ls t u) (h : Changes ps ks s t) (hp : qs ⊆ ps := by decide) (hk : ls ⊆ ks := by decide) :
    Changes ps ks s u :=
  h.trans (h'.mono hp hk)

/-- The same, where the keys depend on an index. -/
theorem Changes.after' (h' : Changes qs ls t u) (h : Changes ps ks s t) (hp : qs ⊆ ps := by decide)
    (hk : ls ⊆ ks := by simp +contextual [keys, List.subset_def]) : Changes ps ks s u :=
  .after h' h hp hk

theorem Changes.rd (h : Changes ps ks s t) {r : Row} {i j : Nat} (hk : r.key i j ∉ ks := by decide) : t.rd r i j = s.rd r i j :=
  h.sameRegs.rd hk

theorem Changes.rdb (h : Changes ps ks s t) {r : Row} {i j : Nat} (hk : r.key i j ∉ ks := by decide) : t.rdb r i j = s.rdb r i j := by
  unfold State.rdb; rw [h.rd hk]

/-- A change of one part other than the registers. -/
theorem changes_part (h : OnlyParts ps s t) (hr : Part.regs ∉ ps := by decide) : Changes ps [] s t := by
  have hregs : t.regs = s.regs := (onlyParts_iff.mp h).2.2.1.resolve_left hr
  exact ⟨h, sameRegs_of_regs_eq hregs⟩

theorem changes_wr (s : State) (r : Row) (v i j : Nat) : Changes [.regs] [r.key i j] s (s.wr r v i j) := ⟨rfl, sameRegs_wr r v i j⟩

theorem changes_ite {c : Prop} [Decidable c] (ht : c → Changes ps ks s t) (hu : ¬ c → Changes ps ks s u) :
    Changes ps ks s (if c then t else u) := by
  split
  · exact ht ‹_›
  · exact hu ‹_›

theorem changes_foldl_mem {α : Type} {f : State → α → State} {l : List α} (hf : ∀ s, ∀ a ∈ l, Changes ps ks s (f s a))
    (h : Changes ps ks s t) : Changes ps ks s (l.foldl f t) := by
  induction l generalizing t with
  | nil => exact h
  | cons a l ih => exact ih (fun s b hb => hf s b (List.mem_cons_of_mem a hb)) (h.trans (hf t a List.mem_cons_self))

theorem changes_foldl {α : Type} {f : State → α → State} (hf : ∀ s a, Changes ps ks s (f s a)) {l : List α} (h : Changes ps ks s t) :
    Changes ps ks s (l.foldl f t) :=
  changes_foldl_mem (fun s a _ => hf s a) h

/-! ## Events and the fault log -/

theorem changes_signalVector (s : State) (f v : Nat) : Changes [.link, .outbox] [] s (signalVector s f v) := by
  unfold signalVector
  split
  · exact changes_part rfl
  · split
    · exact .refl
    · exact changes_part rfl

theorem changes_raiseEvent (s : State) (k : Nat) : Changes [.regs, .link, .outbox] [evtKey k] s (raiseEvent s k) := by
  have hwr : Changes [.regs, .link, .outbox] [evtKey k] s (s.wr { HCI_EVT_CAUSE.swap_event with base := 0x18000, lo := k } 1) :=
    (changes_wr ..).mono (by decide) (by simp [Row.key, Row.offset, evtKey, HCI_EVT_CAUSE.swap_event])
  unfold raiseEvent
  dsimp only
  split
  · exact .after (changes_signalVector ..) hwr (by decide) (by simp)
  · exact hwr
 
theorem changes_appendFault (s : State) (e : FaultEntry) :
    Changes [.regs, .safe] (keys [SAF_LOG_STATUS.entries, SAF_LOG_STATUS.lost]) s (appendFault s e) := by
  unfold appendFault
  exact changes_ite (fun _ => .after (changes_wr ..) (.after (changes_wr ..) (.after (changes_part (ps := [.safe]) rfl) .refl)))
    (fun _ => .after (changes_wr ..) (.after (changes_part (ps := [.safe]) rfl) .refl))

theorem changes_wrb (s : State) (r : Row) (b : Bool) (i j : Nat) : Changes [.regs] [r.key i j] s (s.wrb r b i j) := changes_wr ..
theorem changes_inc (s : State) (r : Row) (k i j : Nat) : Changes [.regs] [r.key i j] s (s.inc r k i j) := changes_wr ..
theorem changes_wrBit (s : State) (r : Row) (n : Nat) (b : Bool) (i j : Nat) : Changes [.regs] [r.key i j] s (s.wrBit r n b i j) := changes_wr ..

theorem changes_fault (s : State) (k : FaultKind) (unit detail die : Nat) (injected withheld hist degraded : Bool) :
    Changes [.regs, .safe, .link, .outbox] logKeys s (fault s k unit detail die injected withheld hist degraded) := by
  unfold fault
  exact changes_ite (fun _ => .after (changes_raiseEvent ..) (.after (changes_appendFault ..) .refl))
    (fun _ => .after (changes_appendFault ..) .refl)

/-! ## The mute (R546) -/

/-- The key of a field of item `n` of some rows is among those of their first items. -/
theorem key_mem_allKeys {rs : List Row} {r : Row} (hr : r ∈ rs) {n m : Nat} (hn : n < m) : r.key n 0 ∈ allKeys rs m :=
  List.mem_flatMap.mpr ⟨n, List.mem_range.mpr hn, List.mem_map.mpr ⟨r, hr, rfl⟩⟩

theorem changes_setEgressMuted (s : State) (b : Bool) :
    Changes [.regs] (allKeys [FHL_LANE_STATUS.egress_muted] 16) s (setEgressMuted s b) :=
  changes_foldl_mem (fun _ n hn => .after (changes_wrb ..) .refl
    (hk := by simpa using key_mem_allKeys List.mem_cons_self (List.mem_range.mp hn))) .refl

theorem changes_setLane (s : State) (n : Nat) (x : Lane) : Changes [.fh] [] s (setLane s n x) := by
  unfold setLane
  exact .after (changes_part (ps := [.fh]) rfl) .refl

theorem changes_cutEgress (s : State) (all : Bool) :
    Changes [.regs, .fh, .outbox] (allKeys [FHL_TX_COUNTS.tx_discarded] 16) s (cutEgress s all) := by
  refine changes_foldl_mem (fun s n hn => ?_) .refl
  have hkey : [FHL_TX_COUNTS.tx_discarded.key n 0] ⊆ allKeys [FHL_TX_COUNTS.tx_discarded] 16 := by
    simpa using key_mem_allKeys List.mem_cons_self (List.mem_range.mp hn)
  exact changes_ite (fun _ => .after (changes_setLane ..) .refl) (fun _ => .after (changes_inc ..)
    (.after (changes_part (ps := [.outbox]) rfl) (.after (changes_setLane ..) .refl)) (hk := hkey))

theorem changes_setToutLevels (s : State) (f : Tout → Bool) : Changes [.regs] (keys [TIM_TOUT_STATUS.level]) s (setToutLevels s f) :=
  changes_foldl (fun _ _ => .after (changes_wrBit ..) .refl) .refl

/-- The fields that a mute may change: what shows it, and the counts of the frames that it cuts (R58, R546). -/
def mutedKeys : List Nat := muteKeys ++ allKeys [FHL_TX_COUNTS.tx_discarded] 16

theorem changes_mute (s : State) : Changes [.regs, .fh, .outbox] mutedKeys s (mute s) :=
  .after (changes_setToutLevels ..) (.after (changes_setEgressMuted ..) (.after (changes_cutEgress ..) (.after (changes_wr ..) .refl)))

theorem changes_unmute (s : State) : Changes [.regs] muteKeys s (unmute s) :=
  .after (changes_setToutLevels ..) (.after (changes_setEgressMuted ..) (.after (changes_wr ..) .refl))

theorem changes_setDegraded (s : State) (b : Nat) (v : Bool) : Changes [.regs] (degradedKeys b) s (setDegraded s b v) := by
  unfold setDegraded
  exact .after (changes_wrb ..) (.after (changes_wrb ..) .refl (hk := by simp [degradedKeys])) (hk := by simp [degradedKeys])

end Sys2Proof.Machine
end

section
set_option Elab.async false
/-! What the model's operations may change: the parts of the state, and the keys of the register fields. -/

namespace Sys2Proof.Machine

theorem changes_advance (s : State) (d : Nat) :
    Changes [.now, .tim] [] s (advance s d) := by
  unfold advance
  exact .after (changes_part (ps := [.now, .tim]) rfl) .refl

theorem changes_advanceTo (s : State) (t : Nat) :
    Changes [.now, .tim] [] s (advanceTo s t) := by
  unfold advanceTo
  exact changes_ite (fun _ => (.after (changes_advance ..) .refl)) (fun _ => .refl)

theorem changes_advanceToCounter (s : State) (c : Nat) :
    Changes [.now, .tim] [] s (advanceToCounter s c) := by
  unfold advanceToCounter
  exact .after (changes_advance ..) .refl

theorem changes_recordAccess (s : State) (off : Nat) (fn : Nat) (write : Bool) (stopped : Bool) :
    Changes [.regs] (keys [PCIE_BLOCKED_ACCESS.kind, PCIE_BLOCKED_ACCESS.write, PCIE_BLOCKED_ACCESS.function, PCIE_BLOCKED_ACCESS.offset]) s
      (recordAccess s off fn write stopped) := by
  unfold recordAccess
  exact .after' (changes_wrb ..) (.after' (changes_wrb ..) (.after' (changes_wr ..) (.after' (changes_wr ..) .refl)))

theorem changes_blockedAccess (s : State) (off : Nat) (fn : Nat) (write : Bool) :
    Changes [.regs] (keys [PCIE_BLOCKED_COUNT.blocked, PCIE_BLOCKED_ACCESS.kind, PCIE_BLOCKED_ACCESS.write, PCIE_BLOCKED_ACCESS.function,
      PCIE_BLOCKED_ACCESS.offset]) s (blockedAccess s off fn write) := by
  unfold blockedAccess
  exact .after' (changes_inc ..) (.after' (changes_recordAccess ..) .refl)

theorem changes_mapTrack (s : State) (id : Nat) (f : Track → Track) :
    Changes [.link] [] s (mapTrack s id f) := by
  unfold mapTrack
  exact .after (changes_part (ps := [.link]) rfl) .refl

theorem changes_finish (s : State) (id : Nat) (st : Status) (result : Nat) (result2 : Nat) :
    Changes [.link] [] s (finish s id st result result2) := by
  unfold finish
  exact .after (changes_mapTrack ..) .refl

theorem changes_commit (s : State) (id : Nat) :
    Changes [.link] [] s (commit s id) := by
  unfold commit
  exact .after (changes_mapTrack ..) .refl

theorem changes_stepChange (s : State) (before : State) :
    Changes [.wkt] [] s (stepChange before s) := by
  unfold stepChange
  exact changes_ite (fun _ => .refl) (fun _ => (.after (changes_part (ps := [.wkt]) rfl) .refl))

theorem changes_sendControl (s : State) (note : Note) (unit : Nat) (digest : BitVec 64) (word : Option (BitVec 64)) (notice : Bool) :
    Changes [.pair, .outbox] [] s (sendControl s note unit digest word notice) := by
  unfold sendControl
  exact changes_ite (fun _ => .refl) (fun _ => (.after (changes_part (ps := [.pair, .outbox]) rfl) .refl))

theorem changes_selfFault (s : State) (code : Nat) :
    Changes [.regs, .fh, .pair, .outbox] mutedKeys s (selfFault s code) := by
  unfold selfFault
  exact changes_ite (fun _ => (.after (changes_part (ps := [.pair]) rfl) (.after (changes_sendControl ..) (.after (changes_mute ..) (.after
    (changes_part (ps := [.pair]) rfl) .refl))))) (fun _ => .refl)

theorem changes_setCause (s : State) (b : Nat) :
    Changes [.regs, .safe, .link, .fh, .pair, .outbox] (keys [(causeRow b), PRL_STATUS.fit] ++ mutedKeys ++ logKeys) s (setCause s b) := by
  unfold setCause
  exact changes_ite (fun _ => .refl) (fun _ => (changes_ite (fun _ => (.after' (changes_selfFault ..) (.after' (changes_mute ..) (.after'
    (changes_fault ..) (.after' (changes_wr ..) .refl))))) (fun _ => (changes_ite (fun _ => (.after' (changes_wr ..) (.after' (changes_mute ..)
    (.after' (changes_fault ..) (.after' (changes_wr ..) .refl))))) (fun _ => (.after' (changes_mute ..) (.after' (changes_fault ..) (.after'
    (changes_wr ..) .refl))))))))

theorem changes_endCause (s : State) (b : Nat) :
    Changes [.regs] (keys [(causeRow b)]) s (endCause s b) := by
  unfold endCause
  exact .after' (changes_wr ..) .refl

theorem changes_history (s : State) (k : FaultKind) (unit : Nat) (detail : Nat) :
    Changes [.regs, .safe, .link, .wkt, .outbox] (keys [WKT_STATUS.history] ++ logKeys) s (history s k unit detail) := by
  unfold history
  exact .after (changes_fault ..) (.after (changes_wr ..) (.after (changes_part (ps := [.wkt]) rfl) .refl))

theorem changes_setMode (s : State) (m : Nat) :
    Changes [.regs, .safe, .link, .fh, .wkt, .pair, .outbox] (keys [causeRow scMode, WKT_STATUS.history, DEV_MODE.transitions,
      DEV_MODE.previous_mode, DEV_MODE.mode, PRL_STATUS.fit] ++ logKeys ++ mutedKeys) s (setMode s m) := by
  unfold setMode
  exact changes_ite (fun _ => (.after (changes_endCause ..) (.after (changes_history ..) (.after (changes_inc ..) (.after (changes_wr ..) (.after
    (changes_wr ..) .refl)))))) (fun _ => (changes_ite (fun _ => (.after (changes_history ..) (.after (changes_inc ..) (.after (changes_wr ..)
    (.after (changes_wr ..) .refl))))) (fun _ => (.after (changes_setCause ..) (.after (changes_history ..) (.after (changes_inc ..) (.after
    (changes_wr ..) (.after (changes_wr ..) .refl))))))))

theorem changes_injectionEnd (s : State) (at' : Nat) (r : Nat) (r2 : Nat) :
    Changes [.regs, .safe, .link] (keys [SAF_INJ_STATUS.latency_us, SAF_INJ_STATUS.detected, SAF_INJ_STATUS.armed, SAF_INJ_STATUS.missed]) s
      (injectionEnd s at' r r2) := by
  unfold injectionEnd
  split
  · exact .refl
  · exact changes_ite (fun _ => (.after (changes_finish ..) (.after (changes_wr ..) (.after (changes_wr ..) (.after (changes_wr ..) (.after
    (changes_part (ps := [.safe]) rfl) .refl)))))) (fun _ => (.after (changes_finish ..) (.after (changes_wr ..) (.after (changes_wr ..) (.after
    (changes_part (ps := [.safe]) rfl) .refl)))))

theorem changes_showStore (s : State) :
    Changes [.regs] (keys [CFG_RETAIN_STATUS.free_mib]) s (showStore s) := by
  unfold showStore
  exact .after (changes_wr ..) .refl

theorem changes_dropOldChains (s : State) :
    Changes [.regs, .tiles, .imgs] (keys [CFG_RETAIN_STATUS.free_mib]) s (dropOldChains s) := by
  unfold dropOldChains
  exact changes_ite (fun _ => (.after (changes_part (ps := [.tiles, .imgs]) rfl) .refl)) (fun _ => (.after (changes_showStore ..) (.after
    (changes_part (ps := [.tiles, .imgs]) rfl) .refl)))

theorem onlyParts_showRepairs (s : State) :
    OnlyParts [.regs] s (showRepairs s) := by
  unfold showRepairs
  exact onlyParts_foldl (fun _ _ => (.after (changes_wr ..).parts .refl)) (.after (changes_wr ..).parts (.after (changes_wr ..).parts .refl))

theorem onlyParts_mapRepairs (s : State) (f : Repair → Option Repair) :
    OnlyParts [.regs, .integ] s (mapRepairs s f) := by
  unfold mapRepairs
  exact .after (onlyParts_showRepairs ..) (.after (qs := [.integ]) rfl .refl)

theorem onlyParts_mapLost (s : State) (f : Repair → Option Repair) :
    OnlyParts [.regs, .integ] s (mapLost s f) := by
  unfold mapLost
  exact .after (onlyParts_showRepairs ..) (.after (qs := [.integ]) rfl .refl)

theorem changes_setDistrict (s : State) (d : Nat) (x : District) :
    Changes [.districts] [] s (setDistrict s d x) := by
  unfold setDistrict
  exact .after (changes_part (ps := [.districts]) rfl) .refl

theorem onlyParts_dropRepairs (s : State) (c : Nat) :
    OnlyParts [.regs, .integ] s (dropRepairs s c) := by
  unfold dropRepairs
  exact .after (onlyParts_mapLost ..) (.after (onlyParts_mapRepairs ..) .refl)

theorem changes_fresh (s : State) (w : Nat) :
    Changes [.free] [] s (State.fresh s w).2 := by
  unfold State.fresh
  exact .after (changes_part (ps := [.free]) rfl) .refl

theorem changes_showStack (s : State) :
    Changes [.regs] (keys [DEV_STACK_STATUS.die_in_reset, DEV_STACK_STATUS.shutter_closed]) s (showStack s) := by
  unfold showStack
  exact .after (changes_wr ..) (.after (changes_wr ..) .refl)

theorem changes_pathServed (s : State) (t : Nat) :
    Changes [.mem] [] s (pathServed s t) := by
  unfold pathServed
  exact .after (changes_part (ps := [.mem]) rfl) .refl

theorem changes_setCtrl (s : State) (c : Nat) (x : DramCtrl) :
    Changes [.dram] [] s (setCtrl s c x) := by
  unfold setCtrl
  exact .after (changes_part (ps := [.dram]) rfl) .refl

theorem changes_putLine (s : State) (line : Nat) (x : DramLine) :
    Changes [.dram] [] s (putLine s line x) := by
  unfold putLine
  exact .after (changes_part (ps := [.dram]) rfl) .refl

theorem changes_noteCommands (s : State) (c : Nat) (i : Nat) (r : List DramReq) :
    Changes [.dram] [] s (noteCommands s c i r) := by
  unfold noteCommands
  exact .after (changes_setCtrl ..) .refl

theorem changes_noteIssued (s : State) (c : Nat) (r : DramReq) :
    Changes [.dram] [] s (noteIssued s c r) := by
  unfold noteIssued
  exact .after (changes_noteCommands ..) .refl

theorem changes_issueThese (s : State) (c : Nat) (l : List DramReq) :
    Changes [.dram] [] s (issueThese s c l) := by
  unfold issueThese
  exact .after (changes_setCtrl ..) (changes_foldl (fun _ _ => (.after (changes_noteIssued ..) (.after (changes_putLine ..) .refl))) .refl)

theorem changes_issueWrites (s : State) (c : Nat) (n : Nat) :
    Changes [.dram] [] s (issueWrites s c n) := by
  unfold issueWrites
  exact .after (changes_issueThese ..) .refl

theorem changes_startRetrain (s : State) (c : Nat) :
    Changes [.regs, .dram] [DRC_STATUS.retraining.key c 0] s (startRetrain s c) := by
  unfold startRetrain
  exact changes_ite (fun _ => (.after' (changes_wr ..) (.after' (changes_setCtrl ..) .refl))) (fun _ => .refl)

theorem changes_selfRefresh (s : State) (c : Nat) :
    Changes [.regs, .dram] [DRC_STATUS.state.key c 0] s (selfRefresh s c) := by
  unfold selfRefresh
  exact changes_ite (fun _ => (.after' (changes_wr ..) (.after' (changes_setCtrl ..) (.after' (changes_issueWrites ..) .refl)))) (fun _ => (.after'
    (changes_setCtrl ..) (.after' (changes_issueWrites ..) .refl)))

theorem changes_setUnlocked (s : State) (d : Nat) (b : Bool) :
    Changes [.regs] (keys [THM_DLOCK_UNLOCKED2.bits] ++ [THM_DLOCK_UNLOCKED.bits.key (d / 32) 0]) s (setUnlocked s d b) := by
  unfold setUnlocked
  exact changes_ite (fun _ => (.after' (changes_wrBit ..) .refl)) (fun _ => (.after' (changes_wrBit ..) .refl))

theorem onlyParts_dlockReset (s : State) :
    OnlyParts [.regs, .districts] s (dlockReset s) := by
  unfold dlockReset
  exact onlyParts_foldl (fun _ _ => (.after (changes_setUnlocked ..).parts (.after (changes_wr ..).parts (.after (changes_wr ..).parts (.after
    (changes_setDistrict ..).parts .refl))))) .refl

theorem changes_keepMeta (s : State) (n : Nat) :
    Changes [.enc] [] s (keepMeta s n) := by
  unfold keepMeta
  exact .after (changes_part (ps := [.enc]) rfl) .refl

theorem changes_setWork (s : State) (k : Option SweepWork) :
    Changes [.enc] [] s (setWork s k) := by
  unfold setWork
  exact .after (changes_part (ps := [.enc]) rfl) .refl

theorem onlyParts_drawNonce (s : State) :
    OnlyParts [.regs, .free] s (drawNonce s) := by
  unfold drawNonce
  exact onlyParts_foldl (fun _ _ => (.after (changes_wr ..).parts .refl)) (.after (qs := [.free]) rfl .refl)

theorem onlyParts_endSession (s : State) :
    OnlyParts [.regs, .link, .sec, .free] s (endSession s) := by
  unfold endSession
  exact onlyParts_ite (fun _ => .refl) (fun _ => (.after (onlyParts_drawNonce ..) (onlyParts_foldl (fun _ _ => (.after (changes_finish ..).parts
    .refl)) (.after (changes_wr ..).parts (.after (changes_wr ..).parts (.after (changes_wr ..).parts (.after (changes_wr ..).parts (.after (qs :=
    [.sec]) rfl .refl))))))))

theorem changes_showFuses (s : State) :
    Changes [.regs] (keys [SEC_STATUS.debug_disabled, SEC_STATUS.owner_slots]) s (showFuses s) := by
  unfold showFuses
  exact .after (changes_wrb ..) (.after (changes_wr ..) .refl)

theorem changes_candidateReset (s : State) (c : Nat) :
    Changes [.regs] (keys [CLK_CAND_READY.ready] ++ [CLK_CAND_COUNT.run.key c 0]) s (candidateReset s c) := by
  unfold candidateReset
  exact .after' (changes_wr ..) (.after' (changes_wrBit ..) .refl)

theorem changes_candidateLost (s : State) (c : Nat) :
    Changes [.regs] (keys [CLK_CAND_READY.ready] ++ [CLK_CAND_COUNT.run.key c 0]) s (candidateLost s c) := by
  unfold candidateLost
  exact changes_ite (fun _ => .refl) (fun _ => (.after' (changes_candidateReset ..) .refl))

theorem changes_setRclk (s : State) (n : Nat) (v : Bool) :
    Changes [.regs] (keys [CLK_CAND_READY.ready] ++ [CLK_CAND_COUNT.run.key (n + 1) 0, FHL_LANE_STATUS.rclk_valid.key n 0]) s (setRclk s n v) := by
  unfold setRclk
  exact changes_ite (fun _ => (.after' (changes_candidateLost ..) (.after' (changes_wrb ..) .refl))) (fun _ => (.after' (changes_wrb ..) .refl))

theorem changes_showEi (s : State) (n : Nat) :
    Changes [.regs, .fh] (keys [CLK_CAND_READY.ready] ++ [CLK_CAND_COUNT.run.key (n + 1) 0, FHL_LANE_STATUS.rclk_valid.key n 0,
      FHL_LANE_STATUS.in_ei.key n 0]) s (showEi s n) := by
  unfold showEi
  exact .after' (changes_setRclk ..) (.after' (changes_wrb ..) (.after' (changes_part (ps := [.fh]) rfl) .refl))

theorem changes_exitEi (s : State) (n : Nat) :
    Changes [.regs, .fh] (keys [CLK_CAND_READY.ready] ++ [CLK_CAND_COUNT.run.key (n + 1) 0, FHL_LANE_STATUS.rclk_valid.key n 0,
      FHL_LANE_STATUS.in_ei.key n 0]) s (exitEi s n) := by
  unfold exitEi
  exact changes_ite (fun _ => (.after' (changes_showEi ..) (.after' (changes_setLane ..) .refl))) (fun _ => .refl)

theorem changes_seEligible (s : State) (n : Nat) :
    Changes [.regs, .tim] [TIM_SYNCE_QL.in_wtr.key n 0, TIM_SYNCE_QL.eligible.key n 0] s (seEligible s n) := by
  unfold seEligible
  exact changes_ite (fun _ => (changes_ite (fun _ => .refl) (fun _ => (changes_ite (fun _ => (.after' (changes_wr ..) (.after' (changes_part (ps :=
    [.tim]) rfl) (.after' (changes_part (ps := [.tim]) rfl) .refl)))) (fun _ => (.after' (changes_wr ..) (.after' (changes_part (ps := [.tim]) rfl)
    .refl))))))) (fun _ => (changes_ite (fun _ => (.after' (changes_part (ps := [.tim]) rfl) (.after' (changes_wr ..) (.after' (changes_wr ..)
    .refl)))) (fun _ => .refl)))

theorem onlyParts_showOwners (s : State) :
    OnlyParts [.regs] s (showOwners s) := by
  unfold showOwners
  exact onlyParts_foldl (fun _ _ => (.after (changes_wr ..).parts .refl)) .refl

theorem changes_startHandover (s : State) (n : Nat) (d : PinDrive) :
    Changes [.pins, .free] [] s (startHandover s n d) := by
  unfold startHandover
  exact .after (changes_part (ps := [.pins]) rfl) (changes_ite (fun _ => (.after (changes_fresh ..) .refl)) (fun _ => .refl))

theorem onlyParts_sleepPins (s : State) :
    OnlyParts [.regs, .pins, .free] s (sleepPins s) := by
  unfold sleepPins
  exact .after (onlyParts_showOwners ..) (.after (qs := [.pins]) rfl (onlyParts_foldl (fun _ _ => (.after (changes_startHandover ..).parts .refl))
    .refl))

theorem changes_recordCause (s : State) (c : ResetCause) :
    Changes [.regs, .safe, .link, .wkt, .outbox] (keys [WKT_STATUS.history, c.row] ++ logKeys) s (recordCause s c) := by
  unfold recordCause
  exact .after' (changes_history ..) (.after' (changes_wr ..) .refl)

theorem changes_startResync (s : State) :
    Changes [.regs, .pair] (keys [PRL_STATUS.suspended, PRL_STATUS.resync]) s (startResync s) := by
  unfold startResync
  exact .after (changes_part (ps := [.pair]) rfl) (.after (changes_wr ..) (.after (changes_wr ..) .refl))

theorem changes_shadowUnfit (s : State) :
    Changes [.regs, .pair, .outbox] (keys [PRL_STATUS.fit, PRL_STATUS.suspended, PRL_STATUS.resync]) s (shadowUnfit s) := by
  unfold shadowUnfit
  exact changes_ite (fun _ => (.after (changes_sendControl ..) (.after (changes_wr ..) (.after (changes_startResync ..) (.after (changes_part (ps
    := [.pair]) rfl) .refl))))) (fun _ => .refl)

theorem changes_rebuildDegraded (s : State) :
    Changes [.regs] (degradedKeys dgDsp ++ degradedKeys dgDistrict ++ degradedKeys dgStack ++ degradedKeys dgMem) s (rebuildDegraded s) := by
  unfold rebuildDegraded
  exact changes_ite (fun _ => (changes_ite (fun _ => (.after (changes_setDegraded ..) (changes_ite (fun _ => (.after (changes_setDegraded ..)
    (changes_ite (fun _ => .refl) (fun _ => (.after (changes_setDegraded ..) .refl))))) (fun _ => (changes_ite (fun _ => .refl) (fun _ => (.after
    (changes_setDegraded ..) .refl))))))) (fun _ => (changes_ite (fun _ => (.after (changes_setDegraded ..) (changes_ite (fun _ => .refl) (fun _ =>
    (.after (changes_setDegraded ..) .refl))))) (fun _ => (changes_ite (fun _ => .refl) (fun _ => (.after (changes_setDegraded ..) .refl))))))))
    (fun _ => (.after (changes_setDegraded ..) (changes_ite (fun _ => (.after (changes_setDegraded ..) (changes_ite (fun _ => (.after
    (changes_setDegraded ..) (changes_ite (fun _ => .refl) (fun _ => (.after (changes_setDegraded ..) .refl))))) (fun _ => (changes_ite (fun _ =>
    .refl) (fun _ => (.after (changes_setDegraded ..) .refl))))))) (fun _ => (changes_ite (fun _ => (.after (changes_setDegraded ..) (changes_ite
    (fun _ => .refl) (fun _ => (.after (changes_setDegraded ..) .refl))))) (fun _ => (changes_ite (fun _ => .refl) (fun _ => (.after
    (changes_setDegraded ..) .refl)))))))))

theorem changes_enterStage (s : State) (n : Nat) :
    Changes [.regs, .boot] (keys [DEV_BOOT_STATUS.stage]) s (enterStage s n) := by
  unfold enterStage
  exact .after (changes_part (ps := [.boot]) rfl) (.after (changes_wr ..) .refl)

theorem changes_haltBoot (s : State) (code : Nat) :
    Changes [.regs, .boot] (keys [DEV_STACK_STATUS.die_in_reset, DEV_STACK_STATUS.shutter_closed, DEV_BOOT_STATUS.halt_code]) s (haltBoot s code)
      := by
  unfold haltBoot
  exact .after (changes_showStack ..) (.after (changes_part (ps := [.boot]) rfl) (.after (changes_wr ..) .refl))

theorem changes_modeToBoot (s : State) (from' : Nat) :
    Changes [.regs, .safe, .link, .wkt, .outbox] (keys [WKT_STATUS.history, DEV_MODE.transitions] ++ logKeys) s (modeToBoot s from') := by
  unfold modeToBoot
  exact changes_ite (fun _ => .refl) (fun _ => (.after (changes_history ..) (.after (changes_inc ..) .refl)))

theorem changes_doWake (s : State) (src : Nat) :
    Changes [.regs, .boot, .safe, .link, .wkt, .outbox] (keys [DEV_BOOT_STATUS.stage, DRC_STATUS.state, WKT_STATUS.history, DEV_MODE.transitions,
      DEV_MODE.mode, WKT_WAKE_TIMER.seconds, DEV_RESET_CAUSE.ref_clock_loss, DEV_RESET_CAUSE.wake_source, DEV_RESET_CAUSE.wake] ++
      [DRC_STATUS.state.key 1 0] ++ degradedKeys dgDsp ++ degradedKeys dgDistrict ++ degradedKeys dgStack ++ degradedKeys dgMem ++ logKeys) s
      (doWake s src) := by
  unfold doWake
  exact .after (changes_enterStage ..) (.after (changes_rebuildDegraded ..) (.after (changes_wr ..) (.after (changes_wr ..) (.after
    (changes_modeToBoot ..) (.after (changes_wr ..) (.after (changes_history ..) (.after (changes_wr ..) (changes_ite (fun _ => (.after (changes_wr
    ..) (.after (changes_wr ..) (.after (changes_wr ..) (.after (changes_part (ps := [.boot]) rfl) .refl))))) (fun _ => (.after (changes_wr ..)
    (.after (changes_wr ..) (.after (changes_part (ps := [.boot]) rfl) .refl))))))))))))

theorem changes_wake (s : State) (src : Nat) :
    Changes [.regs, .boot, .safe, .link, .wkt, .outbox] ([DRC_STATUS.state.key 1 0] ++ keys   [DEV_BOOT_STATUS.stage, DRC_STATUS.state,
      WKT_STATUS.history, DEV_MODE.transitions, DEV_MODE.mode,     WKT_WAKE_TIMER.seconds, DEV_RESET_CAUSE.ref_clock_loss,
      DEV_RESET_CAUSE.wake_source, DEV_RESET_CAUSE.wake] ++ degradedKeys dgDsp ++ degradedKeys dgDistrict ++ degradedKeys dgStack ++ degradedKeys
      dgMem ++ logKeys) s (wake s src) := by
  unfold wake
  exact changes_ite (fun _ => .refl) (fun _ => (changes_ite (fun _ => (.after (changes_part (ps := [.boot]) rfl) .refl)) (fun _ => (.after
    (changes_doWake ..) .refl))))

theorem changes_dropToutArms (s : State) :
    Changes [.regs, .tim] (keys [TIM_TOUT_STATUS.armed]) s (dropToutArms s) := by
  unfold dropToutArms
  exact .after (changes_wr ..) (.after (changes_part (ps := [.tim]) rfl) .refl)

theorem changes_setTrim (s : State) (v : Int) :
    Changes [.regs, .safe, .link, .outbox] (keys [CLK_WKT_TRIM.trim, CLK_WKT_TRIM.trim_limit] ++ logKeys) s (setTrim s v) := by
  unfold setTrim
  exact changes_ite (fun _ => (.after (changes_wr ..) .refl)) (fun _ => (.after (changes_fault ..) (.after (changes_wr ..) (.after (changes_wr ..)
    .refl))))

theorem changes_initialTrim (s : State) (count : Nat) (expected : Nat) :
    Changes [.regs, .safe, .link, .outbox] (keys [CLK_WKT_TRIM.trim, CLK_WKT_TRIM.trim_limit, CLK_WKT_TRIM.trim_source] ++ logKeys) s (initialTrim
      s count expected) := by
  unfold initialTrim
  exact .after (changes_setTrim ..) (.after (changes_wr ..) .refl)

theorem changes_backupCheck (s : State) (permille : Nat) :
    Changes [.regs, .safe, .link, .outbox] (keys [CLK_MON_EVENTS.wicket_osc_fail, CLK_WKT_TRIM.on_backup] ++ logKeys) s (backupCheck permille s) :=
      by
  unfold backupCheck
  exact changes_ite (fun _ => .refl) (fun _ => (.after (changes_fault ..) (.after (changes_wr ..) (.after (changes_wr ..) .refl))))

theorem changes_clkoutCheck (s : State) :
    Changes [.regs] (keys [PIN_STATUS.clkout_refused]) s (clkoutCheck s) := by
  unfold clkoutCheck
  exact changes_ite (fun _ => (.after (changes_wr ..) .refl)) (fun _ => .refl)

theorem changes_pllLock (s : State) (locked : Bool) :
    Changes [.now, .regs, .boot, .tim] (keys [DEV_STACK_STATUS.die_in_reset, DEV_STACK_STATUS.shutter_closed, DEV_BOOT_STATUS.halt_code,
      CLK_REF_STATUS.current, DEV_BOOT_STATUS.stage, CLK_REF_STATUS.dram_locked, CLK_REF_STATUS.lane_locked, CLK_REF_STATUS.hop_locked]) s (pllLock
      locked s) := by
  unfold pllLock
  split
  · exact .refl
  · exact changes_ite (fun _ => .refl) (fun _ => (changes_ite (fun _ => (.after (changes_haltBoot ..) (.after (changes_advanceTo ..) (.after
    (changes_wr ..) .refl)))) (fun _ => (.after (changes_showStack ..) (.after (changes_enterStage ..) (.after (changes_part (ps := [.boot, .tim])
    rfl) (.after (changes_wr ..) (.after (changes_wr ..) (.after (changes_wr ..) (.after (changes_wr ..) .refl))))))))))

theorem changes_readyTimeout (s : State) :
    Changes [.now, .regs, .boot, .tim] (keys [DEV_STACK_STATUS.die_in_reset, DEV_STACK_STATUS.shutter_closed, DEV_BOOT_STATUS.halt_code]) s
      (readyTimeout s) := by
  unfold readyTimeout
  exact changes_ite (fun _ => (.after (changes_haltBoot ..) (.after (changes_advanceTo ..) .refl))) (fun _ => .refl)

theorem changes_switchResult (s : State) (st : Status) :
    Changes [.regs] (keys [CLK_REF_CTRL.done, CLK_REF_CTRL.result]) s (switchResult s st) := by
  unfold switchResult
  exact .after (changes_wr ..) (.after (changes_wr ..) .refl)

theorem changes_refSwitch (s : State) (c : Nat) (confirm : Byte) :
    Changes [.regs, .fh] (keys [CLK_REF_CTRL.done, CLK_REF_CTRL.result, PIN_STATUS.clkout_refused, CLK_CAND_READY.ready, CLK_REF_STATUS.switching,
      CLK_REF_STATUS.current] ++ [CLK_CAND_COUNT.run.key (c - 1 + 1) 0, FHL_LANE_STATUS.rclk_valid.key (c - 1) 0, FHL_LANE_STATUS.in_ei.key (c - 1)
      0]) s (refSwitch c confirm s) := by
  unfold refSwitch
  exact changes_ite (fun _ => .refl) (fun _ => (changes_ite (fun _ => (.after' (changes_switchResult ..) .refl)) (fun _ => (changes_ite (fun _ =>
    (.after' (changes_switchResult ..) .refl)) (fun _ => (changes_ite (fun _ => (.after' (changes_switchResult ..) .refl)) (fun _ => (changes_ite
    (fun _ => (.after' (changes_switchResult ..) .refl)) (fun _ => (changes_ite (fun _ => (.after' (changes_switchResult ..) .refl)) (fun _ =>
    (.after' (changes_clkoutCheck ..) (changes_ite (fun _ => (.after' (changes_exitEi ..) (.after' (changes_wr ..) (.after' (changes_wr ..)
    .refl)))) (fun _ => (.after' (changes_wr ..) (.after' (changes_wr ..) .refl))))))))))))))))

theorem changes_upllFields (s : State) (k : Nat) (v : Nat) :
    Changes [.regs] [CLK_UPLL_CFG.input.key k 0, CLK_UPLL_CFG.o.key k 0, CLK_UPLL_CFG.n.key k 0, CLK_UPLL_CFG.m.key k 0] s (upllFields s k v) := by
  unfold upllFields
  exact .after' (changes_wr ..) (.after' (changes_wr ..) (.after' (changes_wr ..) (.after' (changes_wr ..) .refl)))

theorem changes_channelSelect (s : State) (c : Nat) (k : Nat) :
    Changes [.regs, .ctxs] [CLK_GCH_SEL.source.key c 0] s (channelSelect c k s) := by
  unfold channelSelect
  exact changes_ite (fun _ => (.after' (changes_wr ..) .refl)) (fun _ => (.after' (changes_part (ps := [.ctxs]) rfl) (.after' (changes_wr ..)
    .refl)))

theorem changes_upllLock (s : State) (k : Nat) :
    Changes [.regs, .ctxs, .free] (keys [PIN_STATUS.clkout_refused] ++ [CLK_UPLL_STATUS.locked.key k 0]) s (upllLock k s) := by
  unfold upllLock
  exact changes_ite (fun _ => (.after' (changes_clkoutCheck ..) (.after' (changes_wr ..) (.after' (changes_part (ps := [.ctxs]) rfl) (.after'
    (changes_fresh ..) .refl))))) (fun _ => .refl)

theorem changes_upllFail (s : State) (k : Nat) :
    Changes [.regs, .safe, .link, .outbox] (keys [CLK_MON_EVENTS.upll_unlock] ++ [CLK_UPLL_STATUS.unlock_seen.key k 0, CLK_UPLL_STATUS.locked.key k
      0] ++ logKeys) s (upllFail k s) := by
  unfold upllFail
  exact changes_ite (fun _ => (.after' (changes_fault ..) (.after' (changes_wr ..) (.after' (changes_wr ..) (.after' (changes_wr ..) .refl)))))
    (fun _ => .refl)

theorem changes_takeChannel (s : State) (c : Nat) (code : Nat) :
    Changes [.regs, .safe, .link, .wkt, .outbox] ([WKT_ADC.code.key c 0, WKT_ADC.alarm.key c 0] ++ logKeys) s (takeChannel s c code) := by
  unfold takeChannel
  exact changes_ite (fun _ => .refl) (fun _ => (changes_ite (fun _ => (.after' (changes_wr ..) .refl)) (fun _ => (changes_ite (fun _ => (.after'
    (changes_part (ps := [.wkt]) rfl) (.after' (changes_wr ..) .refl))) (fun _ => (changes_ite (fun _ => (.after' (changes_part (ps := [.wkt]) rfl)
    (.after' (changes_wr ..) .refl))) (fun _ => (.after' (changes_fault ..) (.after' (changes_wr ..) (.after' (changes_part (ps := [.wkt]) rfl)
    (.after' (changes_wr ..) .refl)))))))))))

theorem changes_takeSensor (s : State) (n : Nat) (code : Nat) :
    Changes [.regs, .safe, .link, .outbox] (keys [THM_STATUS.sensor_invalid] ++ [THM_SENSOR.valid.key n 0, THM_SENSOR.temp.key n 0] ++ logKeys) s
      (takeSensor s n code) := by
  unfold takeSensor
  exact changes_ite (fun _ => (.after' (changes_wr ..) .refl)) (fun _ => (changes_ite (fun _ => (.after' (changes_fault ..) (.after' (changes_wr
    ..) (.after' (changes_wrb ..) (.after' (changes_wr ..) .refl))))) (fun _ => (.after' (changes_wrb ..) (.after' (changes_wr ..) .refl)))))

theorem changes_plausible (s : State) (z : Nat) :
    Changes [.regs, .safe, .link, .outbox] (keys [THM_STATUS.plausibility_fault] ++ [THM_ZONE.run.key z 0, THM_ZONE.plausibility.key z 0] ++
      logKeys) s (plausible s z) := by
  unfold plausible
  exact changes_ite (fun _ => (.after' (changes_wr ..) .refl)) (fun _ => (.after' (changes_fault ..) (.after' (changes_wr ..) (.after' (changes_wr
    ..) (.after' (changes_wr ..) .refl)))))

theorem changes_thTo (s : State) (n : Nat) :
    Changes [.regs, .link, .wkt, .outbox] (keys [THM_STATUS.throttle_active, THM_THROTTLE_STATUS.state] ++ [evtKey evThrottle]) s (thTo s n) := by
  unfold thTo
  exact .after (changes_raiseEvent ..) (.after (changes_wrb ..) (.after (changes_wr ..) (.after (changes_part (ps := [.wkt]) rfl) .refl)))

theorem changes_thEnforce (s : State) (k : Nat) :
    Changes [.regs, .link, .wkt, .outbox] (keys [THM_STATUS.throttle_active, THM_THROTTLE_STATUS.state, THM_STATUS.step] ++ [evtKey evThrottle]) s
      (thEnforce s k) := by
  unfold thEnforce
  exact .after (changes_thTo ..) (.after (changes_wr ..) .refl)

theorem changes_throttleRound (s : State) :
    Changes [.regs, .link, .wkt, .outbox] (keys [THM_STATUS.throttle_active, THM_THROTTLE_STATUS.state, THM_THROTTLE_STATUS.acked,
      THM_THROTTLE_STATUS.request, THM_STATUS.step] ++ [evtKey evThrottle]) s (throttleRound s) := by
  unfold throttleRound
  exact changes_ite (fun _ => .refl) (fun _ => (changes_ite (fun _ => (changes_ite (fun _ => .refl) (fun _ => (.after (changes_thTo ..) (.after
    (changes_part (ps := [.wkt]) rfl) (.after (changes_wr ..) (.after (changes_wr ..) .refl))))))) (fun _ => (changes_ite (fun _ => (changes_ite
    (fun _ => (.after (changes_thTo ..) .refl)) (fun _ => (changes_ite (fun _ => (.after (changes_thEnforce ..) .refl)) (fun _ => .refl))))) (fun _
    => (changes_ite (fun _ => (changes_ite (fun _ => (.after (changes_thTo ..) .refl)) (fun _ => .refl))) (fun _ => (changes_ite (fun _ =>
    (changes_ite (fun _ => (.after (changes_thEnforce ..) .refl)) (fun _ => .refl))) (fun _ => .refl)))))))))

theorem changes_graceExpiry (s : State) :
    Changes [.now, .regs, .link, .tim, .wkt, .outbox] (keys [THM_STATUS.throttle_active, THM_THROTTLE_STATUS.state, THM_STATUS.step] ++ [evtKey
      evThrottle]) s (graceExpiry s) := by
  unfold graceExpiry
  exact changes_ite (fun _ => .refl) (fun _ => (changes_ite (fun _ => (.after (changes_thTo ..) (.after (changes_advanceTo ..) .refl))) (fun _ =>
    (changes_ite (fun _ => (.after (changes_thTo ..) (.after (changes_advanceTo ..) .refl))) (fun _ => (.after (changes_thEnforce ..) (.after
    (changes_advanceTo ..) .refl)))))))

theorem changes_setHeld (s : State) (k : Nat) (b : Bool) :
    Changes [.regs, .wkt] (keys [THM_STATUS.warning]) s (setHeld s k b) := by
  unfold setHeld
  exact changes_ite (fun _ => (.after (changes_wrb ..) .refl)) (fun _ => (changes_ite (fun _ => (.after (changes_part (ps := [.wkt]) rfl) .refl))
    (fun _ => (.after (changes_part (ps := [.wkt]) rfl) .refl))))

theorem changes_thCrossing (s : State) (k : Nat) (reached : Bool) :
    Changes [.regs, .safe, .link, .wkt, .outbox] (keys [WKT_STATUS.history, THM_STATUS.warning] ++ [evtKey evThermal] ++ logKeys) s (thCrossing s k
      reached) := by
  unfold thCrossing
  exact changes_ite (fun _ => (.after (changes_raiseEvent ..) (.after (changes_history ..) (.after (changes_setHeld ..) .refl)))) (fun _ => (.after
    (changes_history ..) (.after (changes_setHeld ..) .refl)))

theorem changes_evalThreshold (s : State) (k : Nat) :
    Changes [.regs, .safe, .link, .wkt, .outbox] (keys [WKT_STATUS.history, THM_STATUS.warning] ++ [evtKey evThermal] ++ logKeys) s (evalThreshold
      s k) := by
  unfold evalThreshold
  exact changes_ite (fun _ => (.after (changes_thCrossing ..) .refl)) (fun _ => (changes_ite (fun _ => (.after (changes_thCrossing ..) .refl)) (fun
    _ => .refl)))

theorem changes_injectedRound (s : State) :
    Changes [.regs, .safe, .link, .outbox] (keys [SAF_INJ_STATUS.latency_us, SAF_INJ_STATUS.detected, SAF_INJ_STATUS.armed, SAF_INJ_STATUS.missed]
      ++ logKeys) s (injectedRound s) := by
  unfold injectedRound
  split
  · refine changes_ite (fun _ => .refl) (fun _ => ?_)
    split
    · exact .refl
    · exact changes_ite (fun _ => .refl) (fun _ => (.after (changes_injectionEnd ..) (changes_foldl (fun _ _ => (changes_ite (fun _ => .refl) (fun
      _ => (.after (changes_fault ..) .refl)))) .refl)))
  · exact .refl

theorem changes_pauseGrace (s : State) :
    Changes [.wkt] [] s (pauseGrace s) := by
  unfold pauseGrace
  exact changes_ite (fun _ => (.after (changes_part (ps := [.wkt]) rfl) .refl)) (fun _ => .refl)

theorem changes_roundCauses (s : State) :
    Changes [.regs, .safe, .link, .fh, .pair, .outbox] (keys [causeRow scPlausibility, PRL_STATUS.fit, causeRow scRailAlarm] ++ mutedKeys ++
      logKeys) s (roundCauses s) := by
  unfold roundCauses
  exact changes_ite (fun _ => (.after (changes_setCause ..) (changes_ite (fun _ => (.after (changes_setCause ..) .refl)) (fun _ => .refl)))) (fun _
    => (changes_ite (fun _ => (.after (changes_setCause ..) .refl)) (fun _ => .refl)))

theorem changes_updateFit (s : State) :
    Changes [.regs] (keys [PRL_STATUS.fit]) s (updateFit s) := by
  unfold updateFit
  exact changes_ite (fun _ => (.after (changes_wrb ..) .refl)) (fun _ => .refl)

theorem changes_toBoundary (s : State) (c : Nat) :
    Changes [.now, .tim] [] s (toBoundary s c) := by
  unfold toBoundary
  exact .after (changes_advanceTo ..) (.after (changes_advanceToCounter ..) .refl)

theorem changes_decideTakeover (s : State) :
    Changes [.pair] [] s (decideTakeover s) := by
  unfold decideTakeover
  exact .after (changes_part (ps := [.pair]) rfl) .refl

theorem changes_unitMismatch (s : State) (u : ClosedUnit) :
    Changes [.regs, .link, .pair, .outbox] (keys [PRL_COUNTS.mismatches] ++ [evtKey evPair]) s (unitMismatch s u) := by
  unfold unitMismatch
  exact changes_ite (fun _ => (.after (changes_part (ps := [.pair]) rfl) (.after (changes_raiseEvent ..) (.after (changes_inc ..) (.after
    (changes_part (ps := [.pair]) rfl) .refl))))) (fun _ => (changes_ite (fun _ => (.after (changes_raiseEvent ..) (.after (changes_inc ..) (.after
    (changes_part (ps := [.pair]) rfl) .refl)))) (fun _ => (.after (changes_sendControl ..) (.after (changes_part (ps := [.pair]) rfl) (.after
    (changes_raiseEvent ..) (.after (changes_inc ..) (.after (changes_part (ps := [.pair]) rfl) .refl))))))))

theorem changes_setVerdict (s : State) (n : Nat) (ok : Bool) :
    Changes [.pair] [] s (setVerdict s n ok) := by
  unfold setVerdict
  exact .after (changes_part (ps := [.pair]) rfl) .refl

theorem changes_judge (s : State) (u : ClosedUnit) (d : BitVec 64) (w : Option (BitVec 64)) :
    Changes [.regs, .link, .pair, .outbox] (keys [PRL_COUNTS.mismatches] ++ [evtKey evPair]) s (judge s u d w) := by
  unfold judge
  exact changes_ite (fun _ => (.after (changes_setVerdict ..) .refl)) (fun _ => (changes_ite (fun _ => (.after (changes_sendControl ..) (.after
    (changes_setVerdict ..) .refl))) (fun _ => (.after (changes_unitMismatch ..) (.after (changes_sendControl ..) (.after (changes_setVerdict ..)
    .refl))))))

theorem changes_identifyBank (s : State) (b : Nat) :
    Changes [.regs] (keys [PIN_STATUS.bank_fault, PIN_STATUS.bank_1v8]) s (identifyBank s b) := by
  unfold identifyBank
  exact .after (changes_wrBit ..) (.after (changes_wrBit ..) .refl)

end Sys2Proof.Machine
end

section
set_option Elab.async false
/-! A part of the state that an operation may not change is as it was. -/

namespace Sys2Proof.Machine

variable {s t : State} {ps : List Part} {ks : List Nat}

theorem OnlyParts.regs_eq (h : OnlyParts ps s t) (hp : Part.regs ∉ ps := by decide) : t.regs = s.regs :=
  (congrArg State.regs h).trans (if_neg hp)
theorem OnlyParts.now_eq (h : OnlyParts ps s t) (hp : Part.now ∉ ps := by decide) : t.now = s.now :=
  (congrArg State.now h).trans (if_neg hp)
theorem OnlyParts.grade2_eq (h : OnlyParts ps s t) (hp : Part.grade2 ∉ ps := by decide) : t.grade2 = s.grade2 :=
  (congrArg State.grade2 h).trans (if_neg hp)
theorem OnlyParts.boot_eq (h : OnlyParts ps s t) (hp : Part.boot ∉ ps := by decide) : t.boot = s.boot :=
  (congrArg State.boot h).trans (if_neg hp)
theorem OnlyParts.stack_eq (h : OnlyParts ps s t) (hp : Part.stack ∉ ps := by decide) : t.stack = s.stack :=
  (congrArg State.stack h).trans (if_neg hp)
theorem OnlyParts.safe_eq (h : OnlyParts ps s t) (hp : Part.safe ∉ ps := by decide) : t.safe = s.safe :=
  (congrArg State.safe h).trans (if_neg hp)
theorem OnlyParts.districts_eq (h : OnlyParts ps s t) (hp : Part.districts ∉ ps := by decide) : t.districts = s.districts :=
  (congrArg State.districts h).trans (if_neg hp)
theorem OnlyParts.ctxs_eq (h : OnlyParts ps s t) (hp : Part.ctxs ∉ ps := by decide) : t.ctxs = s.ctxs :=
  (congrArg State.ctxs h).trans (if_neg hp)
theorem OnlyParts.tiles_eq (h : OnlyParts ps s t) (hp : Part.tiles ∉ ps := by decide) : t.tiles = s.tiles :=
  (congrArg State.tiles h).trans (if_neg hp)
theorem OnlyParts.mem_eq (h : OnlyParts ps s t) (hp : Part.mem ∉ ps := by decide) : t.mem = s.mem :=
  (congrArg State.mem h).trans (if_neg hp)
theorem OnlyParts.noc_eq (h : OnlyParts ps s t) (hp : Part.noc ∉ ps := by decide) : t.noc = s.noc :=
  (congrArg State.noc h).trans (if_neg hp)
theorem OnlyParts.dram_eq (h : OnlyParts ps s t) (hp : Part.dram ∉ ps := by decide) : t.dram = s.dram :=
  (congrArg State.dram h).trans (if_neg hp)
theorem OnlyParts.enc_eq (h : OnlyParts ps s t) (hp : Part.enc ∉ ps := by decide) : t.enc = s.enc :=
  (congrArg State.enc h).trans (if_neg hp)
theorem OnlyParts.link_eq (h : OnlyParts ps s t) (hp : Part.link ∉ ps := by decide) : t.link = s.link :=
  (congrArg State.link h).trans (if_neg hp)
theorem OnlyParts.sec_eq (h : OnlyParts ps s t) (hp : Part.sec ∉ ps := by decide) : t.sec = s.sec :=
  (congrArg State.sec h).trans (if_neg hp)
theorem OnlyParts.imgs_eq (h : OnlyParts ps s t) (hp : Part.imgs ∉ ps := by decide) : t.imgs = s.imgs :=
  (congrArg State.imgs h).trans (if_neg hp)
theorem OnlyParts.integ_eq (h : OnlyParts ps s t) (hp : Part.integ ∉ ps := by decide) : t.integ = s.integ :=
  (congrArg State.integ h).trans (if_neg hp)
theorem OnlyParts.dmas_eq (h : OnlyParts ps s t) (hp : Part.dmas ∉ ps := by decide) : t.dmas = s.dmas :=
  (congrArg State.dmas h).trans (if_neg hp)
theorem OnlyParts.fh_eq (h : OnlyParts ps s t) (hp : Part.fh ∉ ps := by decide) : t.fh = s.fh :=
  (congrArg State.fh h).trans (if_neg hp)
theorem OnlyParts.tim_eq (h : OnlyParts ps s t) (hp : Part.tim ∉ ps := by decide) : t.tim = s.tim :=
  (congrArg State.tim h).trans (if_neg hp)
theorem OnlyParts.wkt_eq (h : OnlyParts ps s t) (hp : Part.wkt ∉ ps := by decide) : t.wkt = s.wkt :=
  (congrArg State.wkt h).trans (if_neg hp)
theorem OnlyParts.pins_eq (h : OnlyParts ps s t) (hp : Part.pins ∉ ps := by decide) : t.pins = s.pins :=
  (congrArg State.pins h).trans (if_neg hp)
theorem OnlyParts.pair_eq (h : OnlyParts ps s t) (hp : Part.pair ∉ ps := by decide) : t.pair = s.pair :=
  (congrArg State.pair h).trans (if_neg hp)
theorem OnlyParts.free_eq (h : OnlyParts ps s t) (hp : Part.free ∉ ps := by decide) : t.free = s.free :=
  (congrArg State.free h).trans (if_neg hp)
theorem OnlyParts.outbox_eq (h : OnlyParts ps s t) (hp : Part.outbox ∉ ps := by decide) : t.outbox = s.outbox :=
  (congrArg State.outbox h).trans (if_neg hp)
theorem OnlyParts.pending_eq (h : OnlyParts ps s t) (hp : Part.pending ∉ ps := by decide) : t.pending = s.pending :=
  (congrArg State.pending h).trans (if_neg hp)

theorem Answers.intro {c : Instr} {p : State → Prop} (hexec : exec c s = .next t) (hp : p t) : Answers c s p := ⟨t, hexec, hp⟩

theorem Changes.onlyRegs (h : Changes [.regs] ks s t) : OnlyRegs ks s t := ⟨h.parts, h.sameRegs⟩

/-- A field of an item given as a `Fin` reads as before. -/
theorem Changes.rdAt (h : Changes ps ks s t) {r : Row} {i j : Nat} (hk : r.key i j ∉ ks := by clear * -; decide +revert) :
    t.rd r i j = s.rd r i j :=
  h.rd hk

/-- A write that reaches its block. -/
theorem regWrite_reaches {off : Nat} {f : State → State} (hup : s.link.up = true) (hmode : s.rd DEV_MODE.mode ≠ modeBoot)
    (hblock : blockAnswers s off = true) : regWrite off s f = f s := by
  have hmode0 : s.rd DEV_MODE.mode ≠ 0 := hmode
  simp [regWrite, hup, hmode0, hblock]

/-- The newest entry after `fault` is of its kind. -/
theorem fault_lastKind (s : State) (k : FaultKind) (unit detail die : Nat) (injected withheld hist degraded : Bool) :
    ((fault s k unit detail die injected withheld hist degraded).safe.log.getLast?.map fun e => e.kind) = some k := by
  unfold fault
  dsimp only
  split
  · rw [(changes_raiseEvent ..).parts.safe_eq, appendFault_last]; rfl
  · rw [appendFault_last]; rfl

end Sys2Proof.Machine
end

section
set_option Elab.async false
/-! Settles the statement about user PLLs, global channels and the Wicket oscillator (17_clocks.md). -/

namespace Sys2Proof.Machine

variable {s t : State} {ks : List Nat}

/-- The limits of R440 read the fields of CLK_UPLL_CFG and the frequency of the input. -/
theorem upllOk_congr {k : Nat} (hm : t.rd CLK_UPLL_CFG.m k = s.rd CLK_UPLL_CFG.m k) (hn : t.rd CLK_UPLL_CFG.n k = s.rd CLK_UPLL_CFG.n k)
    (ho : t.rd CLK_UPLL_CFG.o k = s.rd CLK_UPLL_CFG.o k) (hf : upllInput t k = upllInput s k) : upllOk t k = upllOk s k := by
  unfold upllOk
  rw [hm, hn, ho, hf]

theorem upllInput_congr {k : Nat} (hi : t.rd CLK_UPLL_CFG.input k = s.rd CLK_UPLL_CFG.input k)
    (hc : t.rd CLK_REF_STATUS.current = s.rd CLK_REF_STATUS.current) (hl : t.rd CLK_WKT_TRIM.fsel = s.rd CLK_WKT_TRIM.fsel) :
    upllInput t k = upllInput s k := by
  unfold upllInput candHz localHz
  rw [hi, hc, hl]


/-- The fields of CLK_UPLL_CFG_k after a write of `v`. -/
theorem upllFields_rd (s : State) (k v : Nat) :
    (upllFields s k v).rd CLK_UPLL_CFG.m k = bits v 0 7 ∧ (upllFields s k v).rd CLK_UPLL_CFG.n k = bits v 7 10 ∧
    (upllFields s k v).rd CLK_UPLL_CFG.o k = bits v 17 8 ∧ (upllFields s k v).rd CLK_UPLL_CFG.input k = bits v 25 5 := by
  unfold upllFields
  simp (disch := simp [Row.key, Row.offset, CLK_UPLL_CFG.m, CLK_UPLL_CFG.n, CLK_UPLL_CFG.o, CLK_UPLL_CFG.input]) only [rd_wr_same, rd_wr_ne]
  simp [CLK_UPLL_CFG.m, CLK_UPLL_CFG.n, CLK_UPLL_CFG.o, CLK_UPLL_CFG.input, bits]

/-- The fields of CLK_UPLL_CFG_k and of the core reference, on which the limits of R440 rest. -/
def upllRows (k : Nat) : List Nat :=
  keys [CLK_UPLL_CFG.m, CLK_UPLL_CFG.n, CLK_UPLL_CFG.o, CLK_UPLL_CFG.input] k ++ keys [CLK_REF_STATUS.current, CLK_WKT_TRIM.fsel]

theorem upllOk_of_sameRegs {k : Nat} (h : SameRegs ks s t) (hk : ∀ n ∈ upllRows k, n ∉ ks) : upllOk t k = upllOk s k := by
  have hrd : ∀ r j, Row.key r j 0 ∈ upllRows k → t.rd r j = s.rd r j := fun r j hr => h.rd (hk _ hr)
  have hinput := hrd CLK_UPLL_CFG.input k (by simp [upllRows, keys])
  have hcurrent := hrd CLK_REF_STATUS.current 0 (by simp [upllRows, keys])
  have hfsel := hrd CLK_WKT_TRIM.fsel 0 (by simp [upllRows, keys])
  unfold upllOk upllInput candHz localHz
  rw [hrd CLK_UPLL_CFG.m k (by simp [upllRows, keys]), hrd CLK_UPLL_CFG.n k (by simp [upllRows, keys]),
    hrd CLK_UPLL_CFG.o k (by simp [upllRows, keys]), hinput, hcurrent, hfsel]

/-- A change of other fields leaves what `upllRows` names. -/
theorem upllRows_kept (k : Fin 8) : ∀ n ∈ upllRows k, n ∉ keys [CLK_UPLL_CFG.enable, CLK_UPLL_STATUS.cfg_error] k ++ keys [PIN_STATUS.clkout_refused] := by
  decide +revert

/-- The limits of R440 are met or not; then the PLL is enabled or the error shown. -/
theorem upllEnable_cases (s : State) (k : Fin 8) (v : Nat) (hoff : s.rdb CLK_UPLL_CFG.enable k = false) :
    let f := upllFields s k v
    let t := upllEnable k v s
    Changes [.regs] (keys [CLK_UPLL_CFG.enable, CLK_UPLL_STATUS.cfg_error] k ++ keys [PIN_STATUS.clkout_refused]) f t ∧
    (if upllOk f k then t.rd CLK_UPLL_CFG.enable k = 1
      else t.rd CLK_UPLL_STATUS.cfg_error k = 1 ∧ t.rd CLK_UPLL_CFG.enable k = s.rd CLK_UPLL_CFG.enable k) := by
  have hcase : upllEnable k v s = if upllOk (upllFields s k v) k then clkoutCheck ((upllFields s k v).wr CLK_UPLL_CFG.enable 1 k)
      else (upllFields s k v).wr CLK_UPLL_STATUS.cfg_error 1 k := by simp [upllEnable, hoff]
  dsimp only
  rw [hcase]
  split
  · refine ⟨.after' (changes_clkoutCheck ..) (.after' (changes_wr ..) .refl), ?_⟩
    rw [(changes_clkoutCheck _).rdAt, rd_wr_same]; rfl
  · refine ⟨.after' (changes_wr ..) .refl, by rw [rd_wr_same]; rfl, ?_⟩
    rw [(changes_wr ..).rdAt, (changes_upllFields ..).rdAt]

theorem userPllEnable_meets (s : State) (k : Fin 8) (v : Nat) (hoff : s.rdb CLK_UPLL_CFG.enable k = false) :
    let t := upllEnable k v s
    t.rd CLK_UPLL_CFG.m k = bits v 0 7 ∧ t.rd CLK_UPLL_CFG.n k = bits v 7 10 ∧ t.rd CLK_UPLL_CFG.o k = bits v 17 8 ∧
    t.rd CLK_UPLL_CFG.input k = bits v 25 5 ∧
    (if upllOk t k then t.rd CLK_UPLL_CFG.enable k = 1
      else t.rd CLK_UPLL_STATUS.cfg_error k = 1 ∧ t.rd CLK_UPLL_CFG.enable k = s.rd CLK_UPLL_CFG.enable k) ∧
    OnlyRegs (keys [CLK_UPLL_CFG.m, CLK_UPLL_CFG.n, CLK_UPLL_CFG.o, CLK_UPLL_CFG.input, CLK_UPLL_CFG.enable, CLK_UPLL_STATUS.cfg_error] k ++
      keys [PIN_STATUS.clkout_refused]) s t := by
  obtain ⟨hlast, hen⟩ := upllEnable_cases s k v hoff
  obtain ⟨hm, hn, ho, hi⟩ := upllFields_rd s k v
  have hkept := upllRows_kept k
  rw [← upllOk_of_sameRegs hlast.sameRegs hkept] at hen
  have hsame : ∀ r, Row.key r k 0 ∈ upllRows k → (upllEnable k v s).rd r k = (upllFields s k v).rd r k :=
    fun r hr => hlast.sameRegs.rd (hkept _ hr)
  refine ⟨?_, ?_, ?_, ?_, hen, (Changes.after' hlast (.after' (changes_upllFields ..) .refl)).onlyRegs⟩
  · rw [hsame _ (by simp [upllRows, keys]), hm]
  · rw [hsame _ (by simp [upllRows, keys]), hn]
  · rw [hsame _ (by simp [upllRows, keys]), ho]
  · rw [hsame _ (by simp [upllRows, keys]), hi]

theorem upllDisable_meets (s : State) (k : Fin 8) (v : Nat) (hon : s.rdb CLK_UPLL_CFG.enable k = true) (hch : upllChanges s k v = false)
    (huse : ((List.range 32).any (fun c => s.rd CLK_GCH_SEL.source c == 8 + k)) = false) :
    let t := upllDisable k v s
    t.rd CLK_UPLL_CFG.enable k = 0 ∧ t.rd CLK_UPLL_STATUS.locked k = 0 ∧ OnlyRegs (keys [CLK_UPLL_CFG.enable, CLK_UPLL_STATUS.locked] k) s t := by
  have hcase : upllDisable k v s = (s.wr CLK_UPLL_CFG.enable 0 k).wr CLK_UPLL_STATUS.locked 0 k := by
    simp only [upllDisable, hon, hch, huse]; simp
  dsimp only
  rw [hcase]
  refine ⟨?_, by simp, (Changes.after' (changes_wr ..) (.after' (changes_wr ..) .refl)).onlyRegs⟩
  rw [(changes_wr ..).rdAt, rd_wr_same]; rfl

theorem upllLock_meets (s : State) (k : Fin 8) (hon : s.rdb CLK_UPLL_CFG.enable k = true) (hin : upllHasInput s k = true) :
    let t := upllLock k s
    t.rd CLK_UPLL_STATUS.locked k = 1 ∧ SameRegs (CLK_UPLL_STATUS.locked.key k 0 :: keys [PIN_STATUS.clkout_refused]) s t ∧
    t = { s with regs := t.regs, free := s.free + 1, ctxs := { s.ctxs with pllPhase := sparseSet 0 s.ctxs.pllPhase k (s.fresh 64).1.toNat } } := by
  have hcase : upllLock k s = clkoutCheck
      (({ s with free := s.free + 1, ctxs := { s.ctxs with pllPhase := sparseSet 0 s.ctxs.pllPhase k (s.fresh 64).1.toNat } } : State).wr
        CLK_UPLL_STATUS.locked 1 k) := by simp [upllLock, hon, hin, State.fresh]
  have hchanges := changes_upllLock s k
  dsimp only
  rw [hcase] at hchanges ⊢
  refine ⟨?_, hchanges.sameRegs.mono (by simp [keys]), ?_⟩
  · rw [(changes_clkoutCheck ..).rdAt, rd_wr_same]; rfl
  · exact OnlyParts.after (ps := [.regs]) (changes_clkoutCheck _).parts (changes_wr _ CLK_UPLL_STATUS.locked 1 k 0).parts

theorem upllFail_meets (s : State) (k : Fin 8) (hon : s.rdb CLK_UPLL_CFG.enable k = true) :
    let t := upllFail k s
    t.rd CLK_UPLL_STATUS.locked k = 0 ∧ t.rd CLK_UPLL_STATUS.unlock_seen k = 1 ∧ t.rd CLK_MON_EVENTS.upll_unlock = 1 ∧
    (t.safe.log.getLast?.map (fun e => e.kind)) = some .clockFailure ∧
    SameRegs (keys [CLK_UPLL_STATUS.locked, CLK_UPLL_STATUS.unlock_seen] k ++ keys [CLK_MON_EVENTS.upll_unlock] ++ logKeys) s t ∧
    t = { s with regs := t.regs, safe := t.safe, link := t.link, outbox := t.outbox } := by
  have hchanges := changes_upllFail s k
  refine ⟨?_, ?_, ?_, ?_, hchanges.sameRegs.mono ?_, hchanges.parts⟩
  case refine_5 => intro n; simp +contextual [keys, or_imp]
  all_goals simp only [upllFail, hon, if_true]
  · rw [(changes_fault ..).rdAt, (changes_wr ..).rdAt, (changes_wr ..).rdAt, rd_wr_same]; rfl
  · rw [(changes_fault ..).rdAt, (changes_wr ..).rdAt, rd_wr_same]; rfl
  · rw [(changes_fault ..).rd, rd_wr_same]; rfl
  · exact fault_lastKind ..

theorem channelSelect_meets (s : State) (c : Fin 32) (src : Fin 16) :
    let t := channelSelect c src s
    t.rd CLK_GCH_SEL.source c = src.val ∧ (s.rd CLK_GCH_SEL.source c = src.val → t.ctxs = s.ctxs) ∧
    t = { s with regs := t.regs, ctxs := { s.ctxs with chanFrom := t.ctxs.chanFrom } } ∧ SameRegs (keys [CLK_GCH_SEL.source] c) s t := by
  have hwidth : src.val % 2 ^ CLK_GCH_SEL.source.width = src.val := Nat.mod_eq_of_lt (by simp [CLK_GCH_SEL.source])
  have hrd : (channelSelect c src s).rd CLK_GCH_SEL.source c = src.val := by
    unfold channelSelect
    dsimp only
    split
    · rw [rd_wr_same, hwidth]
    · exact (rd_wr_same s CLK_GCH_SEL.source src.val c 0).trans hwidth
  refine ⟨hrd, fun hsame => by simp [channelSelect, hsame], ?_, (changes_channelSelect ..).sameRegs⟩
  unfold channelSelect
  dsimp only
  split <;> rfl

/-- The trim reads back as the number that was stored. -/
theorem toSigned_ofSigned_trim (w : Int) (hlo : -30 ≤ w) (hhi : w ≤ 30) : toSigned 8 (ofSigned 8 w % 2 ^ CLK_WKT_TRIM.trim.width) = w := by
  have hw : CLK_WKT_TRIM.trim.width = 8 := rfl
  rw [hw]
  interval_cases w <;> decide

theorem wicketTrim_meets (s : State) (codes : Int) (hsrc : trimSource s ≠ 0) (hpor : s.boot.porHeld = false)
    (hback : s.rdb CLK_WKT_TRIM.on_backup = false) (hcodes : codes ≠ 0)
    (hbound : -29 ≤ toSigned 8 (s.rd CLK_WKT_TRIM.trim) ∧ toSigned 8 (s.rd CLK_WKT_TRIM.trim) ≤ 29) :
    let t := wicketTrim codes s
    toSigned 8 (t.rd CLK_WKT_TRIM.trim) = toSigned 8 (s.rd CLK_WKT_TRIM.trim) + (if 0 < codes then 1 else -1) ∧
    t.rd CLK_WKT_TRIM.trim_source = trimSource s ∧ OnlyRegs (keys [CLK_WKT_TRIM.trim, CLK_WKT_TRIM.trim_source]) s t := by
  set v := toSigned 8 (s.rd CLK_WKT_TRIM.trim) + (if 0 < codes then 1 else -1) with hv
  obtain ⟨hlo, hhi⟩ : -30 ≤ v ∧ v ≤ 30 := by split at hv <;> omega
  have hclamp : max (-trimClamp) (min trimClamp v) = v := by unfold trimClamp; omega
  have hcase : wicketTrim codes s = (s.wr CLK_WKT_TRIM.trim_source (trimSource s)).wr CLK_WKT_TRIM.trim (ofSigned 8 v) := by
    simp [wicketTrim, setTrim, hsrc, hpor, hback, hcodes, ← hv, hclamp]
  have hsource : trimSource s % 2 ^ CLK_WKT_TRIM.trim_source.width = trimSource s := by
    unfold trimSource
    split
    · rfl
    · split <;> rfl
  dsimp only
  rw [hcase]
  refine ⟨by rw [rd_wr_same, toSigned_ofSigned_trim v hlo hhi], ?_, (Changes.after' (changes_wr ..) (.after' (changes_wr ..) .refl)).onlyRegs⟩
  rw [(changes_wr ..).rd, rd_wr_same, hsource]

theorem backupCheck_meets (s : State) (permille : Nat) (hoff : 100 < permille) (hback : s.rdb CLK_WKT_TRIM.on_backup = false)
    (hpor : s.boot.porHeld = false) :
    let t := backupCheck permille s
    t.rd CLK_WKT_TRIM.on_backup = 1 ∧ t.rd CLK_MON_EVENTS.wicket_osc_fail = 1 ∧ (t.safe.log.getLast?.map (fun e => e.kind)) = some .oscBackup ∧
    SameRegs (keys [CLK_WKT_TRIM.on_backup, CLK_MON_EVENTS.wicket_osc_fail] ++ logKeys) s t ∧
    t = { s with regs := t.regs, safe := t.safe, link := t.link, outbox := t.outbox } := by
  have hchanges := changes_backupCheck s permille
  have hcase : backupCheck permille s = fault ((s.wr CLK_WKT_TRIM.on_backup 1).wr CLK_MON_EVENTS.wicket_osc_fail 1) .oscBackup := by
    have hper : ¬ permille ≤ 100 := by omega
    simp [backupCheck, hper, hback, hpor]
  dsimp only
  rw [hcase] at hchanges ⊢
  refine ⟨?_, ?_, fault_lastKind .., hchanges.sameRegs.mono (by decide), hchanges.parts⟩
  · rw [(changes_fault ..).rd, (changes_wr ..).rd, rd_wr_same]; rfl
  · rw [(changes_fault ..).rd, rd_wr_same]; rfl

/-- Settles O16: each command's meaning, applied, has the fields that the statement names. -/
theorem userPllsAndOscillator : Obligations.UserPllsAndOscillator := by
  unfold Obligations.UserPllsAndOscillator
  refine ⟨?_, ?_, ?_, ?_, ?_, ?_, ?_⟩
  · intro s k v hup hmode hblock hoff
    exact .intro (congrArg Host.Outcome.next (regWrite_reaches hup hmode hblock)) (userPllEnable_meets s k v.toNat hoff)
  · intro s k v hup hmode hblock hon hch huse
    exact .intro (congrArg Host.Outcome.next (regWrite_reaches hup hmode hblock)) (upllDisable_meets s k v.toNat hon hch huse)
  · intro s k hon hin
    exact .intro rfl (upllLock_meets s k hon hin)
  · intro s k hon
    exact .intro rfl (upllFail_meets s k hon)
  · intro s c src hup hmode hblock
    exact .intro (congrArg Host.Outcome.next (regWrite_reaches hup hmode hblock)) (channelSelect_meets s c src)
  · intro s codes hsrc hpor hback hcodes hbound
    exact .intro rfl (wicketTrim_meets s codes hsrc hpor hback hcodes hbound)
  · intro s permille hoff hback hpor
    exact .intro rfl (backupCheck_meets s permille hoff hback hpor)

end Sys2Proof.Machine
end

section
set_option Elab.async false
/-! Settles the statement about boot stages 0x01 to 0x04 (02_modes_and_start_up.md). -/

namespace Sys2Proof.Machine

variable {s t u : State} {ks : List Nat} {ps : List Part}

/-! ## Bits of a field -/

theorem testBit_sub_two_pow (v n i : Nat) (hn : v.testBit n = true) : (v - 2 ^ n).testBit i = (v.testBit i && i != n) := by
  induction n generalizing v i with
  | zero =>
    have hodd : v % 2 = 1 := Nat.mod_two_eq_one_iff_testBit_zero.mpr hn
    cases i with
    | zero => simp; omega
    | succ i => simp [Nat.testBit_succ, show (v - 1) / 2 = v / 2 by omega]
  | succ n ih =>
    rw [Nat.testBit_succ] at hn
    have hdiv : (v - 2 ^ (n + 1)) / 2 = v / 2 - 2 ^ n := by rw [Nat.pow_succ]; omega
    cases i with
    | zero => simp [Nat.testBit_zero]; have := Nat.ge_two_pow_of_testBit hn; rw [Nat.pow_succ]; omega
    | succ i => rw [Nat.testBit_succ, hdiv, ih _ _ hn, Nat.testBit_succ]; simp

theorem bit_putBit (v n i : Nat) (b : Bool) : bit (putBit v n b) i = if i = n then b else bit v i := by
  unfold bit putBit
  cases b with
  | true =>
    by_cases hi : i = n
    · simp [hi, Nat.testBit_or, Nat.one_shiftLeft]
    · simp [hi, Nat.testBit_or, Nat.one_shiftLeft, Nat.testBit_two_pow_of_ne (Ne.symm hi)]
  | false => by_cases hv : v.testBit n <;> by_cases hi : i = n <;> simp [hv, hi, testBit_sub_two_pow]

/-- A bit of a field after a write of one of its bits. -/
theorem bit_rd_wrBit (s : State) (r : Row) {n i : Nat} (b : Bool) (hi : i < r.width) :
    bit ((s.wrBit r n b).rd r) i = if i = n then b else bit (s.rd r) i := by
  unfold State.wrBit
  rw [rd_wr_same]
  simp only [bit, Nat.testBit_mod_two_pow, hi, decide_true, Bool.true_and]
  exact bit_putBit ..

/-! ## POR_N_DEASSERT -/

/-- The state in which stage 0x01 runs: the straps sampled and the cause recorded. -/
def strapped (fsel rate : Nat) (s : State) : State :=
  let t := { s with boot := { s.boot with porHeld := false, cause := none } }
  let t := ((t.wr CLK_WKT_TRIM.fsel fsel).wr DRC_MAP.rate rate).wrb DRC_MAP.strap_no_dram (rate == 3)
  enterStage (recordCause t (s.boot.cause.getD .powerOn)) 1

theorem porDeassert_eq (fsel rate halt : Nat) (hpor : s.boot.porHeld = true) :
    porDeassert fsel rate halt s = if halt ≠ 0 then haltBoot (strapped fsel rate s) halt
      else match fusesRead (strapped fsel rate s) with
        | none => haltBoot (strapped fsel rate s) 2
        | some t => enterStage (showFuses t) 2 := by
  simp only [porDeassert, hpor, strapped]; rfl

theorem changes_strapped (s : State) (fsel rate : Nat) :
    Changes [.regs, .boot, .safe, .link, .wkt, .outbox] (keys [CLK_WKT_TRIM.fsel, DRC_MAP.rate, DRC_MAP.strap_no_dram, DEV_BOOT_STATUS.stage,
      (s.boot.cause.getD .powerOn).row] ++ historyKeys) s (strapped fsel rate s) := by
  unfold strapped
  refine .after' (changes_enterStage ..) (.after' (changes_recordCause ..) (.after' (changes_wrb ..) (.after' (changes_wr ..)
    (.after' (changes_wr ..) (.after (changes_part (ps := [.boot]) rfl) .refl (hk := by simp))))) (hk := ?_))
  intro n; simp +contextual [keys, historyKeys, or_imp]

/-- Each cause has a field of its own, which boot's records of the stage do not touch. -/
theorem causeRow_key (c : ResetCause) : c.row.key 0 0 ∉ keys [DEV_BOOT_STATUS.stage, DEV_BOOT_STATUS.halt_code, SEC_STATUS.owner_slots,
    SEC_STATUS.debug_disabled] ++ shutterKeys ++ historyKeys ∧ CLK_WKT_TRIM.fsel.key 0 0 ≠ c.row.key 0 0 ∧ DRC_MAP.rate.key 0 0 ≠ c.row.key 0 0 := by
  cases c <;> decide

theorem rd_haltBoot_code (s : State) (code : Nat) : (haltBoot s code).rd DEV_BOOT_STATUS.halt_code = code % 2 ^ DEV_BOOT_STATUS.halt_code.width := by
  unfold haltBoot
  rw [(changes_showStack _).rd]
  exact rd_wr_same ..

theorem haltBoot_porHeld (s : State) (code : Nat) : (haltBoot s code).boot.porHeld = s.boot.porHeld := by
  unfold haltBoot
  rw [(changes_showStack _).parts.boot_eq]

theorem enterStage_porHeld (s : State) (n : Nat) : (enterStage s n).boot.porHeld = s.boot.porHeld := rfl

theorem rd_enterStage_stage (s : State) (n : Nat) : (enterStage s n).rd DEV_BOOT_STATUS.stage = n % 2 ^ DEV_BOOT_STATUS.stage.width :=
  rd_wr_same ..

theorem rd_recordCause (s : State) (c : ResetCause) : (recordCause s c).rd c.row = 1 := by
  unfold recordCause
  rw [(changes_history ..).rd (by cases c <;> decide), rd_wr_same]
  cases c <;> rfl

theorem strapped_rd (s : State) (fsel : Fin 8) (rate : Fin 4) :
    (strapped fsel rate s).rd CLK_WKT_TRIM.fsel = fsel.val ∧ (strapped fsel rate s).rd DRC_MAP.rate = rate.val ∧
    (strapped fsel rate s).rd DEV_BOOT_STATUS.stage = 1 ∧ (strapped fsel rate s).rd (s.boot.cause.getD .powerOn).row = 1 := by
  have hf : fsel.val % 2 ^ CLK_WKT_TRIM.fsel.width = fsel.val := Nat.mod_eq_of_lt fsel.isLt
  have hr : rate.val % 2 ^ DRC_MAP.rate.width = rate.val := Nat.mod_eq_of_lt rate.isLt
  unfold strapped
  generalize s.boot.cause.getD .powerOn = c
  refine ⟨?_, ?_, rd_enterStage_stage .., ?_⟩
  · rw [(changes_enterStage ..).rd, (changes_recordCause ..).rd (by cases c <;> decide), (changes_wrb ..).rd, (changes_wr ..).rd, rd_wr_same, hf]
  · rw [(changes_enterStage ..).rd, (changes_recordCause ..).rd (by cases c <;> decide), (changes_wrb ..).rd, rd_wr_same, hr]
  · rw [(changes_enterStage ..).rd (by cases c <;> decide), rd_recordCause]

/-- Reading the fuses takes nothing of the state but the fuses, and changes nothing else. -/
theorem fusesRead_congr (h : t.sec = s.sec) :
    fusesRead t = (fusesRead s).map fun u => { t with sec := u.sec } := by
  unfold fusesRead slotRead
  rw [h]
  dsimp only
  split <;> rfl

theorem fusesRead_eq (h : fusesRead s = some u) : u = { s with sec := u.sec } := by
  unfold fusesRead at h
  dsimp only at h
  split at h
  · obtain rfl := Option.some.inj h; rfl
  · cases h

theorem strapped_porHeld (s : State) (fsel rate : Nat) : (strapped fsel rate s).boot.porHeld = false := by
  unfold strapped
  rw [enterStage_porHeld, (changes_recordCause ..).parts.boot_eq]; rfl

/-- The parts and the fields that the end of stage 0x01 may change. -/
def stageOneKeys : List Nat :=
  keys [DEV_BOOT_STATUS.stage, DEV_BOOT_STATUS.halt_code, SEC_STATUS.owner_slots, SEC_STATUS.debug_disabled] ++ shutterKeys

/-- However stage 0x01 ends, the straps and the cause stay as they were sampled. -/
theorem strapped_kept {fsel : Fin 8} {rate : Fin 4} (h : Changes [.regs, .boot, .sec] stageOneKeys (strapped fsel rate s) t) :
    t.rd CLK_WKT_TRIM.fsel = fsel.val ∧ t.rd DRC_MAP.rate = rate.val ∧ t.rd (s.boot.cause.getD .powerOn).row = 1 ∧
    SameRegs (keys [CLK_WKT_TRIM.fsel, DRC_MAP.rate, DRC_MAP.strap_no_dram, DEV_BOOT_STATUS.stage, DEV_BOOT_STATUS.halt_code,
      SEC_STATUS.owner_slots, SEC_STATUS.debug_disabled, (s.boot.cause.getD .powerOn).row] ++ shutterKeys ++ historyKeys) s t ∧
    t = { s with sec := t.sec, regs := t.regs, boot := t.boot, safe := t.safe, link := t.link, wkt := t.wkt, outbox := t.outbox } := by
  obtain ⟨hfsel, hrate, -, hcause⟩ := strapped_rd s fsel rate
  refine ⟨by rw [h.rd, hfsel], by rw [h.rd, hrate], ?_, ?_, ?_⟩
  · generalize s.boot.cause.getD .powerOn = c at hcause ⊢
    rw [h.rd (by cases c <;> decide), hcause]
  · refine ((changes_strapped s fsel rate).sameRegs.mono ?_).trans (h.sameRegs.mono ?_)
    · intro n; simp +contextual [keys, historyKeys, or_imp]
    · intro n; simp +contextual [keys, stageOneKeys, or_imp]
  · exact OnlyParts.after (ps := [.sec, .regs, .boot, .safe, .link, .wkt, .outbox]) h.parts ((changes_strapped s fsel rate).parts.mono (by decide))

/-- The three ends of stage 0x01. -/
theorem porDeassert_cases (s : State) (fsel rate halt : Nat) (hpor : s.boot.porHeld = true) :
    (halt ≠ 0 ∧ porDeassert fsel rate halt s = haltBoot (strapped fsel rate s) halt) ∨
    (halt = 0 ∧ fusesRead s = none ∧ porDeassert fsel rate halt s = haltBoot (strapped fsel rate s) 2) ∨
    (halt = 0 ∧ ∃ u, fusesRead s = some u ∧
      porDeassert fsel rate halt s = enterStage (showFuses { strapped fsel rate s with sec := u.sec }) 2) := by
  have hsec : (strapped fsel rate s).sec = s.sec := (changes_strapped ..).parts.sec_eq
  rw [porDeassert_eq fsel rate halt hpor, fusesRead_congr hsec]
  by_cases hhalt : halt = 0
  · cases hread : fusesRead s with
    | none => simp [hhalt]
    | some u => simp [hhalt]
  · simp [hhalt]

theorem porNDeassert_meets (s : State) (fsel : Fin 8) (rate : Fin 4) (halt : Fin 3) (hpor : s.boot.porHeld = true) :
    let t := porDeassert fsel rate halt s
    t.boot.porHeld = false ∧ t.rd CLK_WKT_TRIM.fsel = fsel.val ∧ t.rd DRC_MAP.rate = rate.val ∧
    t.rd DEV_BOOT_STATUS.stage = (if halt.val = 0 ∧ (fusesRead s).isSome = true then 2 else 1) ∧
    (halt.val ≠ 0 → t.rd DEV_BOOT_STATUS.halt_code = halt.val ∧ t.sec = s.sec) ∧
    (halt.val = 0 → fusesRead s = none → t.rd DEV_BOOT_STATUS.halt_code = 2 ∧ t.sec = s.sec) ∧
    (halt.val = 0 → ∀ u ∈ fusesRead s, t.sec = u.sec ∧ t.rd SEC_STATUS.owner_slots = ownerSlotBits u % 2 ^ SEC_STATUS.owner_slots.width ∧
      t.rd SEC_STATUS.debug_disabled = b2n u.sec.debugDisabled) ∧
    t.rd (s.boot.cause.getD .powerOn).row = 1 ∧
    SameRegs (keys [CLK_WKT_TRIM.fsel, DRC_MAP.rate, DRC_MAP.strap_no_dram, DEV_BOOT_STATUS.stage, DEV_BOOT_STATUS.halt_code,
      SEC_STATUS.owner_slots, SEC_STATUS.debug_disabled, (s.boot.cause.getD .powerOn).row] ++ shutterKeys ++ historyKeys) s t ∧
    t = { s with sec := t.sec, regs := t.regs, boot := t.boot, safe := t.safe, link := t.link, wkt := t.wkt, outbox := t.outbox } := by
  have hporHeld : (strapped fsel rate s).boot.porHeld = false := strapped_porHeld ..
  have hsec : (strapped fsel rate s).sec = s.sec := (changes_strapped ..).parts.sec_eq
  obtain ⟨-, -, hstage, -⟩ := strapped_rd s fsel rate
  dsimp only
  obtain ⟨hhalt, hcase⟩ | ⟨hhalt, hread, hcase⟩ | ⟨hhalt, u, hread, hcase⟩ := porDeassert_cases s fsel rate halt hpor
  · obtain ⟨hfsel, hrate, hcause, hregs, hframe⟩ :=
      strapped_kept (fsel := fsel) (rate := rate) ((changes_haltBoot _ halt).mono (by decide) (by decide))
    have hcode : halt.val % 2 ^ DEV_BOOT_STATUS.halt_code.width = halt.val := Nat.mod_eq_of_lt (by simp [DEV_BOOT_STATUS.halt_code]; omega)
    rw [hcase]
    refine ⟨(haltBoot_porHeld ..).trans hporHeld, hfsel, hrate, ?_, ?_, fun h => absurd h hhalt, fun h => absurd h hhalt, hcause, hregs, hframe⟩
    · rw [(changes_haltBoot ..).rd, hstage]; simp [hhalt]
    · exact fun _ => ⟨by rw [rd_haltBoot_code, hcode], by rw [(changes_haltBoot ..).parts.sec_eq, hsec]⟩
  · obtain ⟨hfsel, hrate, hcause, hregs, hframe⟩ :=
      strapped_kept (fsel := fsel) (rate := rate) ((changes_haltBoot _ 2).mono (by decide) (by decide))
    rw [hcase]
    refine ⟨(haltBoot_porHeld ..).trans hporHeld, hfsel, hrate, ?_, fun h => absurd hhalt h, ?_, ?_, hcause, hregs, hframe⟩
    · rw [(changes_haltBoot ..).rd, hstage]; simp [hread]
    · exact fun _ _ => ⟨rd_haltBoot_code .., by rw [(changes_haltBoot ..).parts.sec_eq, hsec]⟩
    · simp [hread]
  · have hlast : Changes [.regs, .boot, .sec] stageOneKeys (strapped fsel rate s)
        (enterStage (showFuses { strapped fsel rate s with sec := u.sec }) 2) :=
      .after (changes_enterStage ..) (.after (changes_showFuses ..) (.after (changes_part (ps := [.sec]) rfl) .refl))
    obtain ⟨hfsel, hrate, hcause, hregs, hframe⟩ := strapped_kept hlast
    rw [hcase]
    refine ⟨?_, hfsel, hrate, ?_, fun h => absurd hhalt h, ?_, ?_, hcause, hregs, hframe⟩
    · rw [enterStage_porHeld, (changes_showFuses ..).parts.boot_eq, hporHeld]
    · rw [rd_enterStage_stage]; simp [hhalt, hread]; rfl
    · simp [hread]
    · intro _ v hv
      obtain rfl := Option.some.inj (hread.symm.trans hv)
      refine ⟨?_, ?_, ?_⟩
      · rw [(changes_enterStage ..).parts.sec_eq, (changes_showFuses ..).parts.sec_eq]
      · rw [(changes_enterStage ..).rd]
        unfold showFuses
        rw [(changes_wrb ..).rd, rd_wr_same]; rfl
      · rw [(changes_enterStage ..).rd]
        unfold showFuses
        rw [rd_wrb_same _ _ _ _ _ (by decide)]

/-! ## BOOT_RAIL_CHECK -/

/-- The channels of the rails that BOOT_RAIL_CHECK judges. -/
def railChannels : List Nat := [0, 1, 2, 3, 4] ++ (List.range 8).map (· + 14)

/-- Neither a channel's code nor the limits of a rail that is no bank supply depend on what the banks show. -/
theorem codeIn_rail_congr (h : Changes ps (keys [PIN_STATUS.bank_fault, PIN_STATUS.bank_1v8]) s t) :
    ∀ c ∈ railChannels, codeIn t c (railRange t c) = codeIn s c (railRange s c) := by
  intro c hc
  have hcode : t.rd WKT_ADC.code c = s.rd WKT_ADC.code c := by
    refine h.rd ?_
    clear * - hc
    decide +revert
  have hrange : railRange t c = railRange s c := by
    fin_cases hc <;> rfl
  unfold codeIn
  rw [hcode, hrange]

theorem changes_banks (s : State) :
    Changes [.regs] (keys [PIN_STATUS.bank_fault, PIN_STATUS.bank_1v8]) s ((List.range 4).foldl identifyBank s) :=
  changes_foldl (fun s b => changes_identifyBank s b) .refl

theorem bit_identifyBank (s : State) (a : Nat) {b : Nat} (hb : b < 4) : bit ((identifyBank s a).rd PIN_STATUS.bank_1v8) b =
    if b = a then codeIn s (10 + a) (1710, 1890) else bit (s.rd PIN_STATUS.bank_1v8) b := by
  unfold identifyBank
  dsimp only
  rw [(changes_wrBit ..).rd, bit_rd_wrBit _ _ _ hb]

theorem codeIn_identifyBank (s : State) (a c : Nat) (hc : c < 32) (r : Nat × Nat) : codeIn (identifyBank s a) c r = codeIn s c r := by
  have hcode : (identifyBank s a).rd WKT_ADC.code c = s.rd WKT_ADC.code c := by
    refine (changes_identifyBank ..).rd ?_
    clear * - hc
    decide +revert
  unfold codeIn
  rw [hcode]

/-- Every bank shows the supply that its channel reads. -/
theorem bit_banks (s : State) {b : Nat} (hb : b < 4) :
    bit (((List.range 4).foldl identifyBank s).rd PIN_STATUS.bank_1v8) b = codeIn s (10 + b) (1710, 1890) := by
  simp only [List.range, List.range.loop, List.foldl]
  interval_cases b <;> simp [bit_identifyBank, codeIn_identifyBank]

theorem bootRailCheck_meets (s : State) (hstage : inStage s 2 = true) (hround : s.wkt.round ≠ 0) :
    let t := railCheck s
    (((∀ c ∈ railChannels, codeIn s c (railRange s c) = true) ∧ t.rd DEV_BOOT_STATUS.stage = 3) ∨
      ((∃ c ∈ railChannels, codeIn s c (railRange s c) = false) ∧ t.rd DEV_BOOT_STATUS.halt_code = 3 ∧ t.rd DEV_BOOT_STATUS.stage = 2)) ∧
    (∀ b : Nat, b < 4 → bit (t.rd PIN_STATUS.bank_1v8) b = codeIn s (10 + b) (1710, 1890)) ∧
    OnlyRegs (keys [DEV_BOOT_STATUS.stage, DEV_BOOT_STATUS.halt_code, PIN_STATUS.bank_1v8, PIN_STATUS.bank_fault] ++ shutterKeys)
      { s with boot := t.boot } t := by
  have hbanks := changes_banks s
  have hjudge := codeIn_rail_congr hbanks
  have hbits : ∀ b < 4, bit (((List.range 4).foldl identifyBank s).rd PIN_STATUS.bank_1v8) b = codeIn s (10 + b) (1710, 1890) :=
    fun b hb => bit_banks s hb
  have hstage2 : s.rd DEV_BOOT_STATUS.stage = 2 := by simp [inStage] at hstage; omega
  have hcase : railCheck s = if railChannels.all fun c => codeIn s c (railRange s c)
      then enterStage ((List.range 4).foldl identifyBank s) 3 else haltBoot ((List.range 4).foldl identifyBank s) 3 := by
    have hall : (railChannels.all fun c => codeIn s c (railRange s c)) = railChannels.all fun c =>
        codeIn ((List.range 4).foldl identifyBank s) c (railRange ((List.range 4).foldl identifyBank s) c) := by
      rw [Bool.eq_iff_iff, List.all_eq_true, List.all_eq_true]
      exact forall₂_congr fun c hc => by rw [hjudge c hc]
    rw [hall]
    unfold railCheck
    rw [if_neg (by simp [hstage, hround])]
    rfl
  dsimp only
  rw [hcase]
  generalize (List.range 4).foldl identifyBank s = u at hbanks hbits ⊢
  split
  · next hall =>
    have hlast : Changes [.regs, .boot] (keys [DEV_BOOT_STATUS.stage, PIN_STATUS.bank_1v8, PIN_STATUS.bank_fault]) s (enterStage u 3) :=
      .after (changes_enterStage ..) hbanks.mono
    refine ⟨.inl ⟨by simpa using hall, rd_enterStage_stage ..⟩, ?_, hlast.parts, hlast.sameRegs.mono (by decide)⟩
    intro b hb
    rw [(changes_enterStage ..).rd, hbits b hb]
  · next hall =>
    have hlast : Changes [.regs, .boot] (keys [DEV_BOOT_STATUS.halt_code, PIN_STATUS.bank_1v8, PIN_STATUS.bank_fault] ++ shutterKeys) s
        (haltBoot u 3) := .after (changes_haltBoot ..) hbanks.mono
    refine ⟨.inr ⟨by simpa using hall, rd_haltBoot_code .., ?_⟩, ?_, hlast.parts, hlast.sameRegs.mono (by decide)⟩
    · rw [(changes_haltBoot ..).rd, hbanks.rd, hstage2]
    · intro b hb
      rw [(changes_haltBoot ..).rd, hbits b hb]

/-! ## CORE_PLL_LOCK and REFERENCE_READY_TIMEOUT -/

theorem advanceTo_now_max (s : State) (n : Nat) : (advanceTo s n).now = max s.now n := by
  unfold advanceTo
  split
  · show s.now + (n - s.now) = _; omega
  · omega

theorem haltBoot_coreUp (s : State) (code : Nat) : (haltBoot s code).boot.coreUp = false := by
  unfold haltBoot
  rw [(changes_showStack _).parts.boot_eq]

theorem preferred_le (s : State) {c : Nat} (h : preferred s = some c) : c ≤ 24 := by
  have hfound := List.find?_some h
  simp at hfound
  exact hfound.1

theorem pllLock_eq (s : State) {c : Nat} (locked : Bool) (hpref : preferred s = some c) (hstage : inStage s 4 = true) :
    pllLock locked s = if locked
      then
        let u := (((s.wr CLK_REF_STATUS.current c).wr CLK_REF_STATUS.hop_locked 1).wr CLK_REF_STATUS.lane_locked 1).wr CLK_REF_STATUS.dram_locked 3
        showStack (enterStage { u with boot := { u.boot with coreUp := true }, tim := { u.tim with replica := some (counter u) } } 5)
      else haltBoot (advanceTo (s.wr CLK_REF_STATUS.current c) (s.boot.stageSince + 2 * msTicks)) 5 := by
  cases locked <;> simp [pllLock, hpref, hstage]

theorem corePllLock_meets (s : State) (c : Nat) (locked : Bool) (hpref : preferred s = some c) (hstage : inStage s 4 = true) :
    let t := pllLock locked s
    t.rd CLK_REF_STATUS.current = c ∧
    (if locked then t.rd DEV_BOOT_STATUS.stage = 5 ∧ t.boot.coreUp = true ∧ t.rd CLK_REF_STATUS.hop_locked = 1 ∧
        t.tim.replica = some (counter s) ∧ t.now = s.now
      else t.rd DEV_BOOT_STATUS.stage = 4 ∧ t.rd DEV_BOOT_STATUS.halt_code = 5 ∧ t.boot.coreUp = false ∧
        t.now = max s.now (s.boot.stageSince + 2 * msTicks)) ∧
    OnlyRegs (keys [CLK_REF_STATUS.current, CLK_REF_STATUS.hop_locked, CLK_REF_STATUS.lane_locked, CLK_REF_STATUS.dram_locked,
      DEV_BOOT_STATUS.stage, DEV_BOOT_STATUS.halt_code] ++ shutterKeys) { s with now := t.now, boot := t.boot, tim := t.tim } t := by
  have hchanges := changes_pllLock s locked
  have hstage4 : s.rd DEV_BOOT_STATUS.stage = 4 := by simp [inStage] at hstage; omega
  have hcut : c % 2 ^ CLK_REF_STATUS.current.width = c := by
    have hle := preferred_le s hpref
    exact Nat.mod_eq_of_lt (by simp [CLK_REF_STATUS.current]; omega)
  dsimp only
  refine ⟨?_, ?_, hchanges.parts, hchanges.sameRegs.mono (by decide)⟩
  all_goals rw [pllLock_eq s locked hpref hstage]
  · cases locked with
    | true =>
      simp only [if_true]
      rw [(changes_showStack ..).rd, (changes_enterStage ..).rd]
      show ((((s.wr CLK_REF_STATUS.current c).wr CLK_REF_STATUS.hop_locked 1).wr CLK_REF_STATUS.lane_locked 1).wr CLK_REF_STATUS.dram_locked 3).rd
        CLK_REF_STATUS.current = c
      rw [(changes_wr ..).rd, (changes_wr ..).rd, (changes_wr ..).rd, rd_wr_same, hcut]
    | false =>
      simp only [Bool.false_eq_true, if_false]
      rw [(changes_haltBoot ..).rd, (changes_advanceTo ..).rd, rd_wr_same, hcut]
  · cases locked with
    | true =>
      simp only [if_true]
      refine ⟨?_, ?_, ?_, ?_, ?_⟩
      · rw [(changes_showStack ..).rd, rd_enterStage_stage]; rfl
      · rw [(changes_showStack ..).parts.boot_eq]; rfl
      · rw [(changes_showStack ..).rd, (changes_enterStage ..).rd]
        show ((((s.wr CLK_REF_STATUS.current c).wr CLK_REF_STATUS.hop_locked 1).wr CLK_REF_STATUS.lane_locked 1).wr CLK_REF_STATUS.dram_locked
          3).rd CLK_REF_STATUS.hop_locked = 1
        rw [(changes_wr ..).rd, (changes_wr ..).rd, rd_wr_same]; rfl
      · rw [(changes_showStack ..).parts.tim_eq]; rfl
      · rw [(changes_showStack ..).parts.now_eq]; rfl
    | false =>
      simp only [Bool.false_eq_true, if_false]
      refine ⟨?_, rd_haltBoot_code .., haltBoot_coreUp .., ?_⟩
      · rw [(changes_haltBoot ..).rd, (changes_advanceTo ..).rd, (changes_wr ..).rd, hstage4]
      · rw [(changes_haltBoot ..).parts.now_eq, advanceTo_now_max]; rfl

theorem referenceReadyTimeout_meets (s : State)
    (h : ((inStage s 3 && !candReady s 0) || (inStage s 4 && (preferred s).isNone)) = true) :
    let t := readyTimeout s
    t.rd DEV_BOOT_STATUS.halt_code = 4 ∧ t.boot.coreUp = false ∧ t.now = max s.now (s.boot.stageSince + secTicks) ∧
    OnlyRegs (keys [DEV_BOOT_STATUS.halt_code] ++ shutterKeys) { s with now := t.now, boot := t.boot, tim := t.tim } t := by
  have hchanges := changes_readyTimeout s
  have hcase : readyTimeout s = haltBoot (advanceTo s (s.boot.stageSince + secTicks)) 4 := if_pos h
  dsimp only
  refine ⟨?_, ?_, ?_, hchanges.parts, hchanges.sameRegs.mono (by decide)⟩
  all_goals rw [hcase]
  · exact rd_haltBoot_code ..
  · exact haltBoot_coreUp ..
  · rw [(changes_haltBoot ..).parts.now_eq, advanceTo_now_max]

/-- Settles O7: the four commands one by one. -/
theorem bootStagesOneToFour : Obligations.BootStagesOneToFour := by
  unfold Obligations.BootStagesOneToFour
  refine ⟨?_, ?_, ?_, ?_⟩
  · intro s fsel rate halt hpor
    exact .intro rfl (porNDeassert_meets s fsel rate halt hpor)
  · intro s hstage hround
    exact .intro rfl (bootRailCheck_meets s hstage hround)
  · intro s c locked hpref hstage
    exact .intro rfl (corePllLock_meets s c locked hpref hstage)
  · intro s h
    exact .intro rfl (referenceReadyTimeout_meets s (by simpa using h))

end Sys2Proof.Machine
end

section
set_option Elab.async false
/-! SyncE eligibility and selection, and the candidates of the core reference: what an update of them may change (17_clocks.md, 18_timing_and_holdover.md). -/

namespace Sys2Proof.Machine

variable {s t u : State} {ks : List Nat} {ps : List Part}

/-! ## What an update may change -/

theorem mem_synceKeys {n : Nat} (hn : n < 16) :
    TIM_SYNCE_QL.in_wtr.key n 0 ∈ synceKeys ∧ TIM_SYNCE_QL.eligible.key n 0 ∈ synceKeys ∧ FHL_LANE_STATUS.rclk_valid.key n 0 ∈ synceKeys ∧
    FHL_LANE_STATUS.in_ei.key n 0 ∈ synceKeys ∧ CLK_CAND_COUNT.run.key (n + 1) 0 ∈ synceKeys := by
  decide +revert

theorem changes_seSelect_synce (s : State) (n : Nat) : Changes [.regs, .link, .fh, .tim, .outbox] synceKeys s (seSelect s n) := by
  unfold seSelect
  refine changes_ite (fun _ => .after (changes_part (ps := [.tim]) rfl) .refl (hk := by simp)) fun _ => changes_ite (fun hn => ?_) fun _ => ?_
  · obtain ⟨-, -, hclk, hei, hrun⟩ := mem_synceKeys hn
    refine .after (changes_exitEi ..) (.after (changes_raiseEvent ..) (.after (changes_wr ..) (.after (changes_part (ps := [.tim]) rfl)
      (.after (changes_part (ps := [.tim]) rfl) .refl (hk := by simp)) (hk := by simp)))) (hk := ?_)
    simp [keys, hclk, hei, hrun, show CLK_CAND_READY.ready.key 0 0 ∈ synceKeys by decide]
  · exact .after (changes_raiseEvent ..) (.after (changes_wr ..) (.after (changes_part (ps := [.tim]) rfl)
      (.after (changes_part (ps := [.tim]) rfl) .refl (hk := by simp)) (hk := by simp)))

theorem changes_seEligible_all (s : State) :
    Changes [.regs, .link, .fh, .tim, .outbox] synceKeys s ((List.range 16).foldl seEligible s) := by
  refine changes_foldl_mem (fun t n hn => ?_) .refl
  obtain ⟨hwtr, hel, -⟩ := mem_synceKeys (List.mem_range.mp hn)
  exact (changes_seEligible t n).mono (by decide) (by simp [hwtr, hel])

theorem changes_synceUpdate (s : State) : Changes [.regs, .link, .fh, .tim, .outbox] synceKeys s (synceUpdate s) := by
  have hall := changes_seEligible_all s
  unfold synceUpdate
  refine changes_ite (fun _ => changes_ite (fun _ => ?_) fun _ => ?_) fun _ => ?_
  · exact hall.trans (changes_seSelect_synce ..)
  · exact .after (changes_part (ps := [.tim]) rfl) hall (hk := by simp)
  · exact hall.trans (changes_seSelect_synce ..)

/-! ## The time counter -/

theorem seEligible_fine (s : State) (n : Nat) : (seEligible s n).tim.fine = s.tim.fine := by
  unfold seEligible
  split
  · split
    · rfl
    · dsimp only; split <;> rfl
  · split <;> rfl

theorem seSelect_fine (s : State) (n : Nat) : (seSelect s n).tim.fine = s.tim.fine := by
  unfold seSelect
  dsimp only
  split
  · rfl
  · split
    · rw [(changes_exitEi ..).parts.tim_eq, (changes_raiseEvent ..).parts.tim_eq]; rfl
    · rw [(changes_raiseEvent ..).parts.tim_eq]; rfl

theorem synceUpdate_fine (s : State) : (synceUpdate s).tim.fine = s.tim.fine := by
  have hall : ((List.range 16).foldl seEligible s).tim.fine = s.tim.fine :=
    List.foldlRecOn (motive := fun t => t.tim.fine = s.tim.fine) _ _ rfl fun t ht n _ => (seEligible_fine t n).trans ht
  unfold synceUpdate
  generalize (List.range 16).foldl seEligible s = u at hall ⊢
  dsimp only
  split
  · split
    · rw [seSelect_fine, hall]
    · exact hall
  · rw [seSelect_fine, hall]

/-! ## The candidates -/

/-- From `s` to `t` no candidate has become READY, LOCAL_OSC is as it was, and runs of agreeing windows have only been cut. -/
structure CandidatesFall (s t : State) : Prop where
  ready : ∀ c, candReady t c = true → candReady s c = true
  localOsc : candReady t 0 = candReady s 0 ∧ t.rd CLK_CAND_COUNT.run 0 = s.rd CLK_CAND_COUNT.run 0
  run : ∀ c < 25, t.rd CLK_CAND_COUNT.run c = s.rd CLK_CAND_COUNT.run c ∨ t.rd CLK_CAND_COUNT.run c = 0

theorem CandidatesFall.refl : CandidatesFall s s := ⟨fun _ h => h, ⟨rfl, rfl⟩, fun _ _ => .inl rfl⟩

theorem CandidatesFall.trans (h : CandidatesFall s t) (h' : CandidatesFall t u) : CandidatesFall s u := by
  refine ⟨fun c hc => h.ready c (h'.ready c hc), ⟨h'.localOsc.1.trans h.localOsc.1, h'.localOsc.2.trans h.localOsc.2⟩, fun c hc => ?_⟩
  obtain hkept | hcut := h'.run c hc
  · rw [hkept]; exact h.run c hc
  · exact .inr hcut

/-- The keys of what `CandidatesFall` speaks of. -/
def candidateKeys : List Nat := CLK_CAND_READY.ready.key 0 0 :: (List.range 25).map (fun c => CLK_CAND_COUNT.run.key c 0)

theorem ready_mem_candidateKeys : CLK_CAND_READY.ready.key 0 0 ∈ candidateKeys := by decide
theorem run_mem_candidateKeys {c : Nat} (hc : c < 25) : CLK_CAND_COUNT.run.key c 0 ∈ candidateKeys := by decide +revert

/-- A change of other fields leaves the candidates as they were. -/
theorem Changes.candidatesFall (h : Changes ps ks s t) (hk : ∀ k ∈ candidateKeys, k ∉ ks) : CandidatesFall s t := by
  have hready : ∀ c, candReady t c = candReady s c := fun c => by
    unfold candReady; rw [h.rd (hk _ ready_mem_candidateKeys)]
  have hrun : ∀ c < 25, t.rd CLK_CAND_COUNT.run c = s.rd CLK_CAND_COUNT.run c := fun c hc =>
    h.rd (hk _ (run_mem_candidateKeys hc))
  exact ⟨fun c hc => by rwa [hready] at hc, ⟨hready 0, hrun 0 (by decide)⟩, fun c hc => .inl (hrun c hc)⟩

/-- The key of a candidate's run is that of no other field here. -/
theorem runKey_ne (c : Nat) : CLK_CAND_COUNT.run.key c 0 ≠ CLK_CAND_READY.ready.key 0 0 := by
  simp only [Row.key, Row.offset, CLK_CAND_COUNT.run, CLK_CAND_READY.ready]
  omega

theorem rd_run_candidateReset (s : State) (c d : Nat) :
    (candidateReset s c).rd CLK_CAND_COUNT.run d = if d = c then 0 else s.rd CLK_CAND_COUNT.run d := by
  unfold candidateReset
  split
  · next h => rw [h, rd_wr_same]; rfl
  · next h =>
    rw [rd_wr_ne _ _ _ _ _ _ _ _ ?_]
    · exact rd_wr_ne _ _ _ _ _ _ _ _ (runKey_ne d).symm
    · simp only [Row.key, Row.offset, CLK_CAND_COUNT.run]; omega

theorem candReady_wrBit (s : State) (c d : Nat) (b : Bool) :
    candReady (s.wrBit CLK_CAND_READY.ready c b) d = (decide (d < 25) && if d = c then b else candReady s d) := by
  unfold candReady State.wrBit
  rw [rd_wr_same]
  simp only [bit, Nat.testBit_mod_two_pow]
  exact congrArg _ (bit_putBit ..)

theorem candReady_candidateReset (s : State) (c d : Nat) :
    candReady (candidateReset s c) d = (decide (d < 25) && if d = c then false else candReady s d) := by
  rw [← candReady_wrBit]
  unfold candReady candidateReset
  rw [rd_wr_ne _ _ _ _ _ _ _ _ (runKey_ne c)]

theorem candidateReset_falls (s : State) {c : Nat} (hc : c ≠ 0) : CandidatesFall s (candidateReset s c) := by
  refine ⟨fun d hd => ?_, ⟨?_, ?_⟩, fun d _ => ?_⟩
  · rw [candReady_candidateReset] at hd
    split at hd <;> simp_all
  · simp [candReady_candidateReset, hc.symm]
  · simp [rd_run_candidateReset, hc.symm]
  · rw [rd_run_candidateReset]
    split
    · exact .inr rfl
    · exact .inl rfl

theorem candidateLost_falls (s : State) {c : Nat} (hc : c ≠ 0) : CandidatesFall s (candidateLost s c) := by
  unfold candidateLost
  split
  · exact .refl
  · exact candidateReset_falls s hc

theorem candidateKeys_lane {n : Nat} (hn : n < 16) : ∀ k ∈ candidateKeys, k ∉
    [FHL_LANE_STATUS.rclk_valid.key n 0, FHL_LANE_STATUS.in_ei.key n 0, TIM_SYNCE_QL.in_wtr.key n 0, TIM_SYNCE_QL.eligible.key n 0] := by
  decide +revert

theorem setRclk_falls (s : State) {n : Nat} (hn : n < 16) (v : Bool) : CandidatesFall s (setRclk s n v) := by
  have hwrite : CandidatesFall s (s.wrb FHL_LANE_STATUS.rclk_valid v n) :=
    (changes_wrb ..).candidatesFall fun k hk hmem => candidateKeys_lane hn k hk (by simp_all)
  unfold setRclk
  dsimp only
  split
  · exact hwrite.trans (candidateLost_falls _ (by omega))
  · exact hwrite

theorem exitEi_falls (s : State) {n : Nat} (hn : n < 16) : CandidatesFall s (exitEi s n) := by
  unfold exitEi
  split
  · unfold showEi
    dsimp only
    refine CandidatesFall.trans (Changes.candidatesFall (ps := [.regs, .fh]) (ks := [FHL_LANE_STATUS.in_ei.key n 0]) ?_
      fun k hk hmem => candidateKeys_lane hn k hk (by simp_all)) (setRclk_falls _ hn _)
    exact .after (changes_wrb ..) (.after (changes_part (ps := [.fh]) rfl) (.after (changes_setLane ..) .refl (hk := by simp)) (hk := by simp))
      (hk := by simp)
  · exact .refl

theorem seSelect_falls (s : State) (n : Nat) : CandidatesFall s (seSelect s n) := by
  have hsel : ∀ k ∈ candidateKeys, k ∉ [evtKey evTiming, TIM_STATUS.synce_sel.key 0 0] := by decide
  have hraise : ∀ t : State, OnlyParts [.tim] s t → CandidatesFall s (raiseEvent (t.wr TIM_STATUS.synce_sel n) evTiming) := fun t ht =>
    Changes.candidatesFall (ps := [.regs, .link, .tim, .outbox])
      (.after (changes_raiseEvent ..) (.after (changes_wr ..) (.after (changes_part ht) .refl (hk := by simp)))) hsel
  unfold seSelect
  dsimp only
  split
  · exact (changes_part (ps := [.tim]) (t := { s with tim := { s.tim with seHold := none } }) rfl).candidatesFall (by simp)
  · split
    · next hn => exact CandidatesFall.trans (hraise { s with tim := { s.tim with seHold := none, seSlew := true } } rfl) (exitEi_falls _ hn)
    · exact hraise { s with tim := { s.tim with seHold := none, seSlew := true } } rfl

theorem seEligible_falls (s : State) {n : Nat} (hn : n < 16) : CandidatesFall s (seEligible s n) :=
  (changes_seEligible s n).candidatesFall fun k hk hmem => candidateKeys_lane hn k hk (by simp_all)

theorem synceUpdate_falls (s : State) : CandidatesFall s (synceUpdate s) := by
  have hall : CandidatesFall s ((List.range 16).foldl seEligible s) :=
    List.foldlRecOn (motive := fun t => CandidatesFall s t) _ _ .refl fun t ht n hn => ht.trans (seEligible_falls t (List.mem_range.mp hn))
  unfold synceUpdate
  dsimp only
  split
  · split
    · exact hall.trans (seSelect_falls ..)
    · exact hall.trans (Changes.candidatesFall (ps := [.tim]) (ks := []) (.after (changes_part (ps := [.tim]) rfl) .refl) (by simp))
  · exact hall.trans (seSelect_falls ..)

end Sys2Proof.Machine
end

section
set_option Elab.async false
/-! Settles the statement about cold and warm resets (02_modes_and_start_up.md). -/

namespace Sys2Proof.Machine

variable {s t u : State} {ks : List Nat} {ps : List Part}

/-! ## The link under device events -/

/-- Of the link, at most the pending bits of masked vectors have changed from `s` to `t`. -/
structure KeepsLink (s t : State) : Prop where
  link : t.link = { s.link with pendingMsix := t.link.pendingMsix }

theorem KeepsLink.refl : KeepsLink s s := ⟨rfl⟩
theorem KeepsLink.of_eq (h : t.link = s.link) : KeepsLink s t := ⟨by rw [h]⟩
theorem KeepsLink.trans (h : KeepsLink s t) (h' : KeepsLink t u) : KeepsLink s u := ⟨by rw [h'.link, h.link]⟩
theorem KeepsLink.up (h : KeepsLink s t) : t.link.up = s.link.up := by rw [h.link]
theorem KeepsLink.tracks (h : KeepsLink s t) : t.link.tracks = s.link.tracks := by rw [h.link]

theorem signalVector_keepsLink (s : State) (f v : Nat) : KeepsLink s (signalVector s f v) := by
  unfold signalVector
  split
  · exact ⟨rfl⟩
  · split <;> exact ⟨rfl⟩

theorem raiseEvent_keepsLink (s : State) (k : Nat) : KeepsLink s (raiseEvent s k) := by
  unfold raiseEvent
  dsimp only
  split
  · refine .trans ?_ (signalVector_keepsLink ..)
    exact .of_eq rfl
  · exact ⟨rfl⟩

theorem fault_keepsLink (s : State) (k : FaultKind) (unit detail die : Nat) (injected withheld hist degraded : Bool) :
    KeepsLink s (fault s k unit detail die injected withheld hist degraded) := by
  unfold fault
  dsimp only
  split
  · exact .trans (.of_eq (changes_appendFault ..).parts.link_eq) (raiseEvent_keepsLink ..)
  · exact .of_eq (changes_appendFault ..).parts.link_eq

theorem history_keepsLink (s : State) (k : FaultKind) (unit detail : Nat) : KeepsLink s (history s k unit detail) := by
  unfold history
  refine .trans ?_ (fault_keepsLink ..)
  exact .of_eq rfl

theorem recordCause_keepsLink (s : State) (c : ResetCause) : KeepsLink s (recordCause s c) := by
  unfold recordCause
  refine .trans ?_ (history_keepsLink ..)
  exact .of_eq rfl

theorem modeToBoot_keepsLink (s : State) (m : Nat) : KeepsLink s (modeToBoot s m) := by
  unfold modeToBoot
  split
  · exact .refl
  · refine .trans ?_ (history_keepsLink ..)
    exact .of_eq rfl

theorem seSelect_keepsLink (s : State) (n : Nat) : KeepsLink s (seSelect s n) := by
  have hraise : ∀ t : State, t.link = s.link → KeepsLink s (raiseEvent (t.wr TIM_STATUS.synce_sel n) evTiming) :=
    fun t ht => .trans (t := t.wr TIM_STATUS.synce_sel n) (.of_eq ht) (raiseEvent_keepsLink ..)
  unfold seSelect
  dsimp only
  split
  · exact ⟨rfl⟩
  · split
    · exact .trans (hraise { s with tim := { s.tim with seHold := none, seSlew := true } } rfl) (.of_eq (changes_exitEi ..).parts.link_eq)
    · exact hraise { s with tim := { s.tim with seHold := none, seSlew := true } } rfl

theorem synceUpdate_keepsLink (s : State) : KeepsLink s (synceUpdate s) := by
  have hall : KeepsLink s ((List.range 16).foldl seEligible s) :=
    List.foldlRecOn (motive := fun t => KeepsLink s t) _ _ .refl fun t ht n _ => ht.trans (.of_eq (changes_seEligible t n).parts.link_eq)
  unfold synceUpdate
  generalize (List.range 16).foldl seEligible s = u at hall ⊢
  dsimp only
  split
  · split
    · exact hall.trans (seSelect_keepsLink ..)
    · exact hall.trans (.of_eq rfl)
  · exact hall.trans (seSelect_keepsLink ..)

/-! ## Registers that a reset loads -/

theorem sparseFind_filter_none {α : Type} (m : Sparse α) (p : Nat → Bool) (n : Nat) (hn : p n = false) :
    sparseFind (m.filter fun e => p e.1) n = none := by
  induction m with
  | nil => rfl
  | cons e m ih =>
    obtain ⟨k, v⟩ := e
    by_cases hk : k = n
    · subst hk; simpa [hn] using ih
    · cases hp : p k <;> simp [hp, sparseFind, hk, ih]

/-- A reset of class `c` keeps what is stored under key `k`. -/
def keptByReset (cls : Cls) (p : Nat → Row → Bool) (k : Nat) : Bool :=
  match rowOfKey k with
  | some r => !(r.cls.contains cls && p (k / 32) r)
  | none => true

theorem resetRegs_eq (cls : Cls) (p : Nat → Row → Bool) (m : Sparse Nat) : resetRegs cls p m = m.filter fun e => keptByReset cls p e.1 := rfl

/-- A field of the class reads its reset value after the reset. -/
theorem rd_of_resetRegs {cls : Cls} {p : Nat → Row → Bool} {m : Sparse Nat} (ht : t.regs = resetRegs cls p m) (r q : Row) (i j : Nat)
    (hrow : rowOfKey (r.key i j) = some q) (hq : (q.cls.contains cls && p (r.key i j / 32) q) = true) :
    t.rd r i j = r.resetAt (r.offset i j) := by
  have hkept : keptByReset cls p (r.key i j) = false := by
    unfold keptByReset
    rw [hrow]
    simpa using hq
  unfold State.rd sparseGet
  rw [ht, resetRegs_eq, sparseFind_filter_none m (keptByReset cls p) _ hkept]
  rfl

/-! ## The device cleared -/

theorem changes_drawNonce (s : State) : Changes [.regs, .free] (allKeys [SEC_DEBUG_NONCE.bytes] 4) s (drawNonce s) := by
  unfold drawNonce
  refine changes_foldl_mem (fun t k hk => ?_) ?_
  · exact (changes_wr ..).mono (by decide) (by simpa using key_mem_allKeys List.mem_cons_self (List.mem_range.mp hk))
  · exact .after (changes_part (ps := [.free]) rfl) .refl (hk := by simp)

theorem endSession_sec (s : State) : (endSession s).sec = { s.sec with expires := none } := by
  unfold endSession
  split
  · next h =>
    have hexp : s.sec.expires = none := by simpa using h
    rw [← hexp]
  · refine ((changes_drawNonce _).parts.sec_eq).trans ?_
    refine List.foldlRecOn (motive := fun t : State => t.sec = { s.sec with expires := none }) _ _ rfl fun t ht u _ => ?_
    rw [(changes_finish ..).parts.sec_eq, ht]

theorem onlyParts_spareTakes (s : State) (n : Nat) : OnlyParts [.regs, .safe, .link, .outbox] s (spareTakes n s) := by
  unfold spareTakes
  exact .after (changes_setDegraded ..).parts (.after (changes_fault ..).parts (.after (changes_wr ..).parts (.after (changes_wr ..).parts
    (.after (changes_wrBit ..).parts .refl))))

theorem onlyParts_spareSwitch (s : State) (b k : Nat) : OnlyParts [.regs, .safe, .link, .outbox, .mem] s (spareSwitch s b k) := by
  unfold spareSwitch
  have hretired : OnlyParts [.regs, .safe, .link, .outbox, .mem] s (match servingSpare s b with
      | some old => s.wrBit MEM_SPARE_STAT.retired old true (b / 256)
      | none => s) := by
    split
    · exact .after (changes_wrBit ..).parts .refl
    · exact .refl
  exact .after (changes_setDegraded ..).parts (.after (changes_fault ..).parts (.after (changes_wrb ..).parts (.after (qs := [.mem, .safe]) rfl
    (.after (changes_inc ..).parts (.after (changes_wr ..).parts (.after (changes_wrBit ..).parts hretired))))))

/-- The device as its reset finds it: sessions ended, copies onto spares complete, recovered candidates not READY. -/
def settledForReset (s : State) : State :=
  let s := endSession s
  let s := (s.tiles.filter (fun p => p.2.state == .copying)).foldl (fun t p => spareTakes p.1 t) s
  let s := s.mem.retiring.foldl (fun t r => spareSwitch t r.1 r.2.1) s
  (List.range 24).foldl (fun t c => candidateReset t (c + 1)) (dlockReset s)

theorem onlyParts_settled (s : State) :
    OnlyParts [.regs, .link, .safe, .outbox, .mem, .districts] (endSession s) (settledForReset s) := by
  unfold settledForReset
  refine onlyParts_foldl (fun t c => (changes_candidateReset ..).parts.mono (by decide)) (.after (onlyParts_dlockReset _)
    (onlyParts_foldl (fun t r => (onlyParts_spareSwitch ..).mono (by decide)) (onlyParts_foldl (fun t p =>
    (onlyParts_spareTakes ..).mono (by decide)) .refl)))

/-- Everything outside AON in its state after reset (R52, R53). -/
def emptied (s : State) : State :=
  { s with
    regs := resetRegs .w (fun _ _ => true) s.regs
    boot := { Boot.start with porHeld := false, cause := none, dormant := s.boot.dormant, refLostDormant := s.boot.refLostDormant,
                              thermalHold := s.boot.thermalHold, wakeN := s.boot.wakeN, stageSince := s.now }
    stack := { s.stack with skewBad := Stack.start.skewBad, uncorrectable := 0 }
    safe := { s.safe with injection := none, internalFaultAt := none, again := none, deferred := [], bistCmd := none, bistGroups := 0,
                          intrusive := none }
    ctxs := Contexts.start, tiles := [], mem := MemDie.start, noc := Noc.start
    dram := { lines := [], epoch := s.dram.epoch + 1, c0 := s.dram.c0.kept, c1 := s.dram.c1.kept }
    enc := Enc.start
    link := { Link.start with perst := s.link.perst, refclk := s.link.refclk, nextId := s.link.nextId }
    imgs := Images.start, integ := Integ.start, dmas := [], fh := Fh.start
    tim := { s.tim with replica := none, steps := s.tim.steps.filter (fun p => p.id.isNone && !p.pair) }
    pins := { s.pins with bound := [] }
    pair := Pair.start }

theorem emptied_now (s : State) : (emptied s).now = s.now := rfl
theorem emptied_grade2 (s : State) : (emptied s).grade2 = s.grade2 := rfl
theorem emptied_pending (s : State) : (emptied s).pending = s.pending := rfl
theorem emptied_fine (s : State) : (emptied s).tim.fine = s.tim.fine := rfl
theorem emptied_sec (s : State) : (emptied s).sec = s.sec := rfl
theorem emptied_regs (s : State) : (emptied s).regs = resetRegs .w (fun _ _ => true) s.regs := rfl

theorem clearDevice_eq (s : State) : clearDevice s = showFuses (drawNonce (emptied (settledForReset s))) := rfl

/-- The fields that show the fuses and the nonce. -/
def fuseKeys : List Nat := keys [SEC_STATUS.owner_slots, SEC_STATUS.debug_disabled] ++ allKeys [SEC_DEBUG_NONCE.bytes] 4

theorem changes_fuses (s : State) : Changes [.regs, .free] fuseKeys s (showFuses (drawNonce s)) :=
  .after (changes_showFuses _) ((changes_drawNonce s).mono (by decide) (by decide))

/-- What a device keeps through the resets that clear it. -/
structure KeptByClear (s t : State) : Prop where
  now : t.now = s.now
  grade2 : t.grade2 = s.grade2
  pending : t.pending = s.pending
  fine : t.tim.fine = s.tim.fine
  sec : t.sec = { s.sec with expires := none }

/-- The units of a device just cleared. -/
structure Emptied (t : State) : Prop where
  ctxs : t.ctxs = Contexts.start
  tiles : t.tiles = []
  mem : t.mem = MemDie.start
  enc : t.enc = Enc.start
  imgs : t.imgs = Images.start
  integ : t.integ = Integ.start
  dmas : t.dmas = []

theorem keptByClear (s : State) : KeptByClear s (clearDevice s) := by
  have hend := onlyParts_endSession s
  have hset := onlyParts_settled s
  have hlast := (changes_fuses (emptied (settledForReset s))).parts
  rw [clearDevice_eq]
  refine ⟨?_, ?_, ?_, ?_, ?_⟩
  · rw [hlast.now_eq, emptied_now, hset.now_eq, hend.now_eq]
  · rw [hlast.grade2_eq, emptied_grade2, hset.grade2_eq, hend.grade2_eq]
  · rw [hlast.pending_eq, emptied_pending, hset.pending_eq, hend.pending_eq]
  · rw [hlast.tim_eq, emptied_fine, hset.tim_eq, hend.tim_eq]
  · rw [hlast.sec_eq, emptied_sec, hset.sec_eq, endSession_sec]

theorem clearDevice_emptied (s : State) : Emptied (clearDevice s) := by
  have hlast := (changes_fuses (emptied (settledForReset s))).parts
  rw [clearDevice_eq]
  exact ⟨hlast.ctxs_eq, hlast.tiles_eq, hlast.mem_eq, hlast.enc_eq, hlast.imgs_eq, hlast.integ_eq, hlast.dmas_eq⟩

theorem clearDevice_link (s : State) : (clearDevice s).link.up = false := by
  rw [clearDevice_eq, (changes_fuses _).parts.link_eq]; rfl

theorem clearDevice_coreUp (s : State) : (clearDevice s).boot.coreUp = false := by
  rw [clearDevice_eq, (changes_fuses _).parts.boot_eq]; rfl

/-- A field of class W whose key the fuses do not have reads its reset value. -/
theorem rd_clearDevice (s : State) (r q : Row) (i j : Nat) (hrow : rowOfKey (r.key i j) = some q) (hq : q.cls.contains .w = true)
    (hk : r.key i j ∉ fuseKeys) : (clearDevice s).rd r i j = r.resetAt (r.offset i j) := by
  rw [clearDevice_eq, (changes_fuses _).rd hk]
  exact rd_of_resetRegs (emptied_regs _) r q i j hrow (by rw [hq]; rfl)

theorem clearDevice_mode (s : State) : (clearDevice s).rd DEV_MODE.mode = modeBoot :=
  rd_clearDevice s DEV_MODE.mode DEV_MODE.mode 0 0 (by decide +kernel) (by decide) (by decide)

/-! ## Warm resets -/

/-- The fields that the end of any warm reset may change. -/
def warmKeysAny : List Nat :=
  keys [WKT_STATUS.history, DEV_MODE.transitions, DEV_BOOT_STATUS.stage] ++ shutterKeys ++ logKeys ++ mutedKeys ++ synceKeys ++
    degradedKeys dgStack ++ degradedKeys dgDistrict ++ degradedKeys dgDsp ++ degradedKeys dgMem

/-- The fields that the end of a warm reset for cause `c` may change. -/
def warmKeys (c : ResetCause) : List Nat := c.row.key 0 0 :: warmKeysAny

/-- The end of a warm reset, from the cleared device `s`. -/
def resumeBoot (s : State) (mode : Nat) (left : Bool) (c : ResetCause) : State :=
  let s := recordCause (modeToBoot s mode) c
  let s := { s with boot := { s.boot with leftPair := left } }
  synceUpdate (showStack (mute (enterStage (rebuildDegraded s) 4)))

theorem warmReset_eq (s : State) (c : ResetCause) (hpor : s.boot.porHeld = false) (hdormant : s.boot.dormant = false) :
    warmReset s c = resumeBoot (clearDevice (if c = .refClockLoss then s else selfFault s 3)) (s.rd DEV_MODE.mode)
      ((if c = .refClockLoss then s else selfFault s 3).boot.leftPair || s.rd DEV_MODE.mode == modeShadow) c := by
  unfold warmReset
  rw [if_neg (by simp [hpor, hdormant])]
  rfl

theorem changes_resumeBoot (s : State) (mode : Nat) (left : Bool) (c : ResetCause) :
    Changes [.regs, .safe, .link, .wkt, .outbox, .boot, .fh, .tim] (warmKeys c) s (resumeBoot s mode left c) := by
  have hrest := fun ks (hks : ks ⊆ warmKeysAny) => List.Subset.trans hks (List.subset_cons_self (c.row.key 0 0) warmKeysAny)
  have hcause : keys [WKT_STATUS.history, c.row] ++ logKeys ⊆ warmKeys c := by
    have hlog : logKeys ⊆ warmKeys c := hrest _ (by decide)
    simpa [keys, warmKeys, show WKT_STATUS.history.key 0 0 ∈ warmKeysAny by decide] using hlog
  unfold resumeBoot
  exact .after (changes_synceUpdate _) (.after (changes_showStack _) (.after (changes_mute _) (.after (changes_enterStage _ 4)
    (.after (changes_rebuildDegraded _) (.after (changes_part (ps := [.boot]) rfl) (.after (changes_recordCause _ c)
    (.after (changes_modeToBoot s mode) .refl (hk := hrest _ (by decide))) (hk := hcause)) (hk := by simp)) (hk := hrest _ (by decide)))
    (hk := hrest _ (by decide))) (hk := hrest _ (by decide))) (hk := hrest _ (by decide))) (hk := hrest _ (by decide))

theorem rd_mute_safeState (s : State) : (mute s).rd DEV_MODE.safe_state = 1 := by
  unfold mute
  rw [(changes_setToutLevels ..).rd, (changes_setEgressMuted ..).rd, (changes_cutEgress ..).rd, rd_wr_same]; rfl

theorem warmKeys_mode (c : ResetCause) : DEV_MODE.mode.key 0 0 ∉ warmKeys c := by cases c <;> decide

/-- What every warm reset shows. -/
theorem resumeBoot_shows (s : State) (mode : Nat) (left : Bool) (c : ResetCause) :
    (resumeBoot s mode left c).rd DEV_BOOT_STATUS.stage = 4 ∧ (resumeBoot s mode left c).rd DEV_MODE.safe_state = 1 ∧
    (resumeBoot s mode left c).rd DEV_MODE.mode = s.rd DEV_MODE.mode ∧ (resumeBoot s mode left c).rd c.row = 1 := by
  have hmode := (changes_resumeBoot s mode left c).rd (warmKeys_mode c)
  refine ⟨?_, ?_, hmode, ?_⟩
  all_goals unfold resumeBoot
  · rw [(changes_synceUpdate ..).rd, (changes_showStack ..).rd, (changes_mute ..).rd, rd_enterStage_stage]; rfl
  · rw [(changes_synceUpdate ..).rd, (changes_showStack ..).rd, rd_mute_safeState]
  · dsimp only
    rw [(changes_synceUpdate ..).rd (by cases c <;> decide), (changes_showStack ..).rd (by cases c <;> decide),
      (changes_mute ..).rd (by cases c <;> decide), (changes_enterStage ..).rd (by cases c <;> decide),
      (changes_rebuildDegraded ..).rd (by cases c <;> decide)]
    exact rd_recordCause ..

theorem resumeBoot_link (s : State) (mode : Nat) (left : Bool) (c : ResetCause) : KeepsLink s (resumeBoot s mode left c) := by
  unfold resumeBoot
  refine .trans ((modeToBoot_keepsLink s mode).trans (recordCause_keepsLink _ c)) (.trans (.of_eq ?_) (synceUpdate_keepsLink _))
  rw [(changes_showStack ..).parts.link_eq, (changes_mute ..).parts.link_eq, (changes_enterStage ..).parts.link_eq,
    (changes_rebuildDegraded ..).parts.link_eq]

theorem resumeBoot_fine (s : State) (mode : Nat) (left : Bool) (c : ResetCause) : (resumeBoot s mode left c).tim.fine = s.tim.fine := by
  unfold resumeBoot
  rw [synceUpdate_fine, (changes_showStack ..).parts.tim_eq, (changes_mute ..).parts.tim_eq, (changes_enterStage ..).parts.tim_eq,
    (changes_rebuildDegraded ..).parts.tim_eq]
  show (recordCause (modeToBoot s mode) c).tim.fine = _
  rw [(changes_recordCause ..).parts.tim_eq, (changes_modeToBoot ..).parts.tim_eq]

theorem resumeBoot_coreUp (s : State) (mode : Nat) (left : Bool) (c : ResetCause) : (resumeBoot s mode left c).boot.coreUp = s.boot.coreUp := by
  have hcore : ∀ (u : State) n, (enterStage u n).boot.coreUp = u.boot.coreUp := fun _ _ => rfl
  unfold resumeBoot
  rw [(changes_synceUpdate ..).parts.boot_eq, (changes_showStack ..).parts.boot_eq, (changes_mute ..).parts.boot_eq, hcore,
    (changes_rebuildDegraded ..).parts.boot_eq]
  show (recordCause (modeToBoot s mode) c).boot.coreUp = _
  rw [(changes_recordCause ..).parts.boot_eq, (changes_modeToBoot ..).parts.boot_eq]

/-- What a warm reset for cause `c` leaves of the device. -/
structure WarmlyReset (c : ResetCause) (s t : State) : Prop where
  kept : KeptByClear s t
  emptied : Emptied t
  stage : t.rd DEV_BOOT_STATUS.stage = 4
  safe : t.rd DEV_MODE.safe_state = 1
  mode : t.rd DEV_MODE.mode = modeBoot
  cause : t.rd c.row = 1
  linkDown : t.link.up = false
  coreDown : t.boot.coreUp = false

theorem warmReset_meets (s : State) (c : ResetCause) (hpor : s.boot.porHeld = false) (hdormant : s.boot.dormant = false) :
    WarmlyReset c s (warmReset s c) := by
  rw [warmReset_eq s c hpor hdormant]
  generalize hv : (if c = .refClockLoss then s else selfFault s 3) = v
  generalize (v.boot.leftPair || s.rd DEV_MODE.mode == modeShadow) = left
  have hself : OnlyParts [.regs, .fh, .pair, .outbox] s v := by
    rw [← hv]
    exact onlyParts_ite (fun _ => .refl) fun _ => (changes_selfFault s 3).parts
  have hclear := keptByClear v
  have hempty := clearDevice_emptied v
  have hparts := (changes_resumeBoot (clearDevice v) (s.rd DEV_MODE.mode) left c).parts
  obtain ⟨hstage, hsafe, hmode, hcause⟩ := resumeBoot_shows (clearDevice v) (s.rd DEV_MODE.mode) left c
  refine ⟨⟨?_, ?_, ?_, ?_, ?_⟩, ⟨?_, ?_, ?_, ?_, ?_, ?_, ?_⟩, hstage, hsafe, hmode.trans (clearDevice_mode v), hcause, ?_, ?_⟩
  · rw [hparts.now_eq, hclear.now, hself.now_eq]
  · rw [hparts.grade2_eq, hclear.grade2, hself.grade2_eq]
  · rw [hparts.pending_eq, hclear.pending, hself.pending_eq]
  · rw [resumeBoot_fine, hclear.fine, hself.tim_eq]
  · rw [hparts.sec_eq, hclear.sec, hself.sec_eq]
  · rw [hparts.ctxs_eq, hempty.ctxs]
  · rw [hparts.tiles_eq, hempty.tiles]
  · rw [hparts.mem_eq, hempty.mem]
  · rw [hparts.enc_eq, hempty.enc]
  · rw [hparts.imgs_eq, hempty.imgs]
  · rw [hparts.integ_eq, hempty.integ]
  · rw [hparts.dmas_eq, hempty.dmas]
  · rw [(resumeBoot_link ..).up, clearDevice_link]
  · rw [resumeBoot_coreUp, clearDevice_coreUp]

/-! ## Cold resets -/

theorem drawNonce_free (s : State) : (drawNonce s).free = s.free + 1 := by
  unfold drawNonce
  exact List.foldlRecOn (motive := fun t : State => t.free = s.free + 1) _ _ rfl fun t ht k _ => ht

/-- The device that a cold reset finds, before its nonce is drawn (R52). -/
def coldDevice (s : State) (c : ResetCause) : State :=
  { State.reset with
    grade2 := s.grade2, boot := { Boot.start with cause := some c }, sec := { s.sec with expires := none, ops := [] },
    dram := { Dram.start with epoch := s.dram.epoch + 1 }, link := { Link.start with perst := s.link.perst, refclk := s.link.refclk },
    free := s.free, outbox := s.outbox, pending := s.pending }

theorem coldReset_eq (s : State) (c : ResetCause) : coldReset s c = showFuses (drawNonce (coldDevice s c)) := rfl

theorem coldReset_meets (s : State) (c : ResetCause) :
    let t := coldReset s c
    SameRegs (keys [SEC_STATUS.owner_slots, SEC_STATUS.debug_disabled] ++ allKeys [SEC_DEBUG_NONCE.bytes] 4) { s with regs := [] } t ∧
    t.free = s.free + 1 ∧ t.sec.slots = s.sec.slots ∧ t.sec.debugDisabled = s.sec.debugDisabled ∧ t.sec.expires = none ∧ t.grade2 = s.grade2 ∧
    t.pending = s.pending ∧ t.mem = MemDie.start ∧ t.ctxs = Contexts.start ∧ t.tiles = [] ∧ t.safe = Safety.start ∧ t.tim = Tim.start ∧
    t.boot = { Boot.start with cause := some c } := by
  have hchanges := changes_fuses (coldDevice s c)
  have hparts := hchanges.parts
  dsimp only
  rw [coldReset_eq]
  refine ⟨hchanges.sameRegs, ?_, ?_, ?_, ?_, hparts.grade2_eq, hparts.pending_eq, hparts.mem_eq, hparts.ctxs_eq, hparts.tiles_eq, hparts.safe_eq,
    hparts.tim_eq, hparts.boot_eq⟩
  · rw [(changes_showFuses _).parts.free_eq, drawNonce_free]; rfl
  · rw [hparts.sec_eq]; rfl
  · rw [hparts.sec_eq]; rfl
  · rw [hparts.sec_eq]; rfl

/-! ## A fault of one Porter pair -/

theorem selfFault_keepsLink (s : State) (k : Nat) : KeepsLink s (selfFault s k) := .of_eq (changes_selfFault s k).parts.link_eq

theorem setCause_keepsLink (s : State) (b : Nat) : KeepsLink s (setCause s b) := by
  have hset : KeepsLink s (mute (fault (s.wr (causeRow b) 1) .safeCause b)) := by
    have hwr : KeepsLink s (s.wr (causeRow b) 1) := .of_eq rfl
    exact (hwr.trans (fault_keepsLink _ .safeCause b 0 255 false false false false)).trans (.of_eq (changes_mute _).parts.link_eq)
  unfold setCause
  dsimp only
  split
  · exact .refl
  · split
    · exact hset.trans (selfFault_keepsLink ..)
    · split
      · exact hset.trans (.of_eq (wr_link ..))
      · exact hset

/-- The state in which the fence of a D0 reset waits, from the report of the fault on. -/
def fencing (s : State) (c : Option ResetCause) : State :=
  let s := selfFault s 3
  let s := { s with boot := { s.boot with recoverD0 := true, d0 := .fence s.now, d0Cause := c } }
  cutEgress (advance (setCause s scRecovery) (hcs s 1)) true

theorem dieResetD0_eq (s : State) (c : Option ResetCause) (hpor : s.boot.porHeld = false) (hdormant : s.boot.dormant = false)
    (hcore : s.boot.coreUp = true) (hidle : s.boot.d0 = .idle) (hmode : s.rd DEV_MODE.mode ≠ modeBoot) :
    dieResetD0 s c = { fencing s c with noc := { (fencing s c).noc with fenced := true } } := by
  unfold dieResetD0 fencing
  rw [if_neg (by simp [hpor, hdormant, hcore, hidle, hmode])]

/-- The fields that the start of a D0 reset may change. -/
def fenceKeys : List Nat :=
  keys [causeRow scRecovery, PRL_STATUS.fit] ++ mutedKeys ++ logKeys ++ allKeys [FHL_TX_COUNTS.tx_discarded] 16

theorem changes_fencing (s : State) (c : Option ResetCause) :
    Changes [.now, .regs, .boot, .safe, .link, .fh, .tim, .pair, .outbox] fenceKeys s (fencing s c) := by
  unfold fencing
  exact .after (changes_cutEgress ..) (.after (changes_advance ..) (.after (changes_setCause ..) (.after (changes_part (ps := [.boot]) rfl)
    (.after (changes_selfFault ..) .refl))))

theorem fencing_tracks (s : State) (c : Option ResetCause) : (fencing s c).link.tracks = s.link.tracks := by
  unfold fencing
  rw [(changes_cutEgress ..).parts.link_eq, advance_link, (setCause_keepsLink ..).tracks]
  exact (selfFault_keepsLink s 3).tracks

theorem fencing_boot (s : State) (c : Option ResetCause) :
    (fencing s c).boot = { s.boot with recoverD0 := true, d0 := .fence s.now, d0Cause := c } := by
  have hself := (changes_selfFault s 3).parts
  unfold fencing
  rw [(changes_cutEgress ..).parts.boot_eq, advance_boot, (changes_setCause ..).parts.boot_eq]
  dsimp only
  rw [hself.boot_eq, hself.now_eq]

theorem onePairFault_meets (s : State) (hcore : s.boot.coreUp = true) (hpor : s.boot.porHeld = false) (hdormant : s.boot.dormant = false)
    (hidle : s.boot.d0 = .idle) (hmode : s.rd DEV_MODE.mode ≠ modeBoot) (c : Option ResetCause) :
    let t := dieResetD0 s c
    t.boot.d0 = .fence s.now ∧ t.boot.d0Cause = c ∧ t.noc.fenced = true ∧ t.rd DEV_MODE.mode = s.rd DEV_MODE.mode ∧ t.noc.reqs = s.noc.reqs ∧
    t.mem = s.mem ∧ t.ctxs = s.ctxs ∧ t.tiles = s.tiles ∧ t.link.tracks = s.link.tracks ∧ t.sec = s.sec := by
  have hchanges := changes_fencing s c
  have hparts := hchanges.parts
  have hboot := fencing_boot s c
  have htracks := fencing_tracks s c
  dsimp only
  rw [dieResetD0_eq s c hpor hdormant hcore hidle hmode]
  have hrd : (fencing s c).rd DEV_MODE.mode = s.rd DEV_MODE.mode := hchanges.rd
  generalize fencing s c = u at *
  refine ⟨by rw [hboot], by rw [hboot], rfl, hrd, ?_, hparts.mem_eq, hparts.ctxs_eq, hparts.tiles_eq, htracks, hparts.sec_eq⟩
  show u.noc.reqs = s.noc.reqs
  rw [hparts.noc_eq]

theorem warmResetRequest_confirmed (s : State) (hup : s.link.up = true) : warmResetRequest 0xA5 s = warmReset s .hostRequest := by
  simp [warmResetRequest, hup]

/-- Settles O9: a cold reset is the reset state with what it keeps, a warm reset `WarmlyReset`. -/
theorem warmAndColdReset : Obligations.WarmAndColdReset := by
  unfold Obligations.WarmAndColdReset
  refine ⟨?_, ?_, ?_, ?_⟩
  · intro s cause
    exact .intro rfl (coldReset_meets s _)
  · intro s cause hpor hdormant
    refine .intro rfl ?_
    have hmeets := warmReset_meets s (if cause = 0 then .perst else if cause = 1 then .refClockLoss else if cause = 2 then .porterFault
      else .hostRequest) hpor hdormant
    obtain ⟨⟨hnow, hgrade, hpending, hfine, hsec⟩, ⟨hctxs, htiles, hmem, henc, himgs, hinteg, hdmas⟩, hstage, hsafe, hmode, hcause, -, hcore⟩ := hmeets
    refine ⟨hmode, hstage, hsafe, hcore, ?_, hctxs, htiles, hmem, henc, himgs, hinteg, hdmas, by rw [hsec], by rw [hsec], hfine, hnow, hgrade,
      hpending⟩
    clear * - hcause
    fin_cases cause <;> exact hcause
  · intro s confirm hup hpor hdormant
    refine .intro rfl ?_
    split
    · next hconfirm =>
      obtain ⟨⟨-, -, -, hfine, hsec⟩, ⟨-, -, hmem, -, -, -, -⟩, hstage, -, hmode, hcause, hlink, -⟩ := warmReset_meets s .hostRequest hpor hdormant
      rw [hconfirm, warmResetRequest_confirmed s hup]
      exact ⟨hstage, hmode, hcause, hlink, hmem, by rw [hsec], hfine⟩
    · next hconfirm =>
      have hcase : warmResetRequest confirm s = s.wr DEV_RESET_CTRL.refused 1 := by
        unfold warmResetRequest
        rw [hup, if_neg hconfirm]; rfl
      rw [hcase]
      exact ⟨rd_wr_same .., (changes_wr ..).onlyRegs⟩
  · intro s both hstage hcore hpor hdormant hidle hmode
    refine .intro rfl ?_
    have hcase : porterFault both s = if both then warmReset s .porterFault else dieResetD0 s (some .porterFault) := by
      simp [porterFault, hstage, hcore]
    rw [hcase]
    cases both with
    | true =>
      obtain ⟨⟨-, -, -, -, hsec⟩, -, hstage4, -, hboot, hcause, -, -⟩ := warmReset_meets s .porterFault hpor hdormant
      exact ⟨hstage4, hboot, hcause, by rw [if_pos rfl, hsec]⟩
    | false => exact onePairFault_meets s hcore hpor hdormant hidle hmode (some .porterFault)

end Sys2Proof.Machine
end

section
set_option Elab.async false
/-! Settles the statement about candidates and the core reference (17_clocks.md). -/

namespace Sys2Proof.Machine

variable {s t u : State} {ks : List Nat} {ps : List Part}

/-! ## CLK_MON_EVENTS through a warm reset -/

theorem SameRegs.find (h : SameRegs ks s t) {k : Nat} (hk : k ∉ ks) : sparseFind t.regs k = sparseFind s.regs k := by
  have hkey : (fun k : Nat => !(ks.contains k)) k = true := by simpa using hk
  unfold SameRegs at h
  rw [← sparseFind_filter t.regs (fun k : Nat => !(ks.contains k)) _ hkey, h,
    sparseFind_filter s.regs (fun k : Nat => !(ks.contains k)) _ hkey]

/-- Every field of the register at `off` is in `t` as it was in `s`. -/
structure SameAt (off : Nat) (s t : State) : Prop where
  find : ∀ k, k / 32 = off → sparseFind t.regs k = sparseFind s.regs k

variable {off : Nat}

theorem SameAt.refl : SameAt off s s := ⟨fun _ _ => rfl⟩
theorem SameAt.trans (h : SameAt off s t) (h' : SameAt off t u) : SameAt off s u := ⟨fun k hk => (h'.find k hk).trans (h.find k hk)⟩
theorem SameAt.of_regs (h : t.regs = s.regs) : SameAt off s t := ⟨fun k _ => by rw [h]⟩
theorem Changes.sameAt (h : Changes ps ks s t) (hk : ∀ k ∈ ks, k / 32 ≠ off) : SameAt off s t :=
  ⟨fun k hoff => h.sameRegs.find fun hmem => hk k hmem hoff⟩

theorem SameAt.foldl {α : Type} {f : State → α → State} (hf : ∀ s, ∀ a, SameAt off s (f s a)) (l : List α) (h : SameAt off s t) :
    SameAt off s (l.foldl f t) :=
  List.foldlRecOn (motive := fun t => SameAt off s t) l f h fun t ht a _ => ht.trans (hf t a)

theorem SameAt.rd (h : SameAt off s t) (r : Row) (i j : Nat) (hr : r.key i j / 32 = off) : t.rd r i j = s.rd r i j := by
  unfold State.rd sparseGet
  rw [h.find _ hr]

/-- Writes above a register leave it alone. -/
theorem sameAt_wr (r : Row) (v i j : Nat) (h : off < r.base) : SameAt off s (s.wr r v i j) := by
  refine (changes_wr s r v i j).sameAt fun k hk => ?_
  obtain rfl := List.mem_singleton.mp hk
  unfold Row.key Row.offset
  omega

theorem sameAt_wrb (r : Row) (b : Bool) (i j : Nat) (h : off < r.base) : SameAt off s (s.wrb r b i j) := sameAt_wr r _ i j h
theorem sameAt_inc (r : Row) (k i j : Nat) (h : off < r.base) : SameAt off s (s.inc r k i j) := sameAt_wr r _ i j h
theorem sameAt_wrBit (r : Row) (n : Nat) (b : Bool) (i j : Nat) (h : off < r.base) : SameAt off s (s.wrBit r n b i j) := sameAt_wr r _ i j h

/-- The offset of CLK_MON_EVENTS. -/
def monOffset : Nat := 0x40014

theorem endSession_mon (s : State) : SameAt monOffset s (endSession s) := by
  have hnonce : ∀ t, SameAt monOffset t (drawNonce t) := fun t => (changes_drawNonce t).sameAt (by decide)
  unfold endSession
  split
  · exact .refl
  · refine .trans ?_ (hnonce _)
    refine SameAt.foldl (fun t u => (changes_finish ..).sameAt (by simp)) _ ?_
    exact (Changes.sameAt (ps := [.regs, .sec]) (ks := keys [SEC_STATUS.debug_open, SEC_STATUS.grants, SEC_STATUS.debug_signer,
      SEC_DEBUG_REMAIN.seconds]) (.after (changes_wr ..) (.after (changes_wr ..) (.after (changes_wr ..) (.after (changes_wr ..)
      (.after (changes_part (ps := [.sec]) rfl) .refl))))) (by decide))

theorem spareTakes_mon (s : State) (n : Nat) : SameAt monOffset s (spareTakes n s) := by
  unfold spareTakes
  refine .trans (.trans (.trans (.trans ?_ (sameAt_wr _ _ _ _ ?_)) (sameAt_wr _ _ _ _ ?_)) ((changes_fault ..).sameAt (by decide)))
    ((changes_setDegraded ..).sameAt (by decide))
  · exact sameAt_wr _ _ _ _ (by decide)
  · simp [monOffset, DSP_COL_SPARE.row_g0]
  · decide

theorem spareSwitch_mon (s : State) (b k : Nat) : SameAt monOffset s (spareSwitch s b k) := by
  have hretired : SameAt monOffset s (match servingSpare s b with
      | some old => s.wrBit MEM_SPARE_STAT.retired old true (b / 256)
      | none => s) := by
    split
    · exact sameAt_wr _ _ _ _ (by decide)
    · exact .refl
  unfold spareSwitch
  refine .trans ?_ ((changes_setDegraded ..).sameAt (by decide))
  refine .trans ?_ ((changes_fault ..).sameAt (by decide))
  refine .trans ?_ (sameAt_wrb _ _ _ _ (by decide))
  have hcounted := ((hretired.trans (sameAt_wrBit MEM_SPARE_STAT.used k true (b / 256) 0 (by decide))).trans
    (sameAt_wr { MEM_SPARE_MAP.spare0 with lo := 8 * k } (b % 256) (b / 256) 0 (by simp [monOffset, MEM_SPARE_MAP.spare0]))).trans
    (sameAt_inc MEM_STATUS.spares_used 1 0 0 (by decide))
  exact ⟨hcounted.find⟩

theorem setUnlocked_mon (s : State) (d : Nat) (b : Bool) : SameAt monOffset s (setUnlocked s d b) := by
  unfold setUnlocked
  split <;> exact sameAt_wrBit _ _ _ _ _ (by decide)

theorem dlockReset_mon (s : State) : SameAt monOffset s (dlockReset s) := by
  unfold dlockReset
  refine SameAt.foldl (fun t d => ?_) _ .refl
  dsimp only
  refine .trans ?_ (setUnlocked_mon ..)
  refine .trans (.trans (.of_regs ?_) (sameAt_wr THM_DLOCK_DISTRICT.locked 0 d 0 (by decide))) (sameAt_wr THM_DLOCK_DISTRICT.at_limit 0 d 0 (by decide))
  rfl

theorem candidateReset_mon (s : State) (c : Nat) : SameAt monOffset s (candidateReset s c) := by
  unfold candidateReset
  exact .trans ((changes_wrBit ..).sameAt (by decide)) (sameAt_wr _ _ _ _ (by decide))

theorem settledForReset_mon (s : State) : SameAt monOffset s (settledForReset s) := by
  unfold settledForReset
  refine SameAt.foldl (fun t c => candidateReset_mon t _) _ (.trans ?_ (dlockReset_mon _))
  exact SameAt.foldl (fun t r => spareSwitch_mon ..) _ (SameAt.foldl (fun t p => spareTakes_mon ..) _ (endSession_mon s))

/-- The fields of CLK_MON_EVENTS are not of class W. -/
theorem rd_emptied_of_kept (s : State) (r : Row) (hkept : keptByReset .w (fun _ _ => true) (r.key 0 0) = true) :
    (emptied s).rd r = s.rd r := by
  unfold State.rd sparseGet
  rw [emptied_regs, resetRegs_eq, sparseFind_filter _ _ _ hkept]

theorem selfFault_mon (s : State) (k : Nat) : SameAt monOffset s (selfFault s k) := (changes_selfFault s k).sameAt (by decide)

theorem warmKeys_mon (c : ResetCause) : ∀ k ∈ warmKeys c, k / 32 ≠ monOffset := by cases c <;> decide +kernel

theorem fuseKeys_mon : ∀ k ∈ fuseKeys, k / 32 ≠ monOffset := by decide

/-- A warm reset leaves CLK_MON_EVENTS as it is. -/
theorem warmReset_mon (s : State) (c : ResetCause) (r : Row) (hpor : s.boot.porHeld = false) (hdormant : s.boot.dormant = false)
    (hoff : r.key 0 0 / 32 = monOffset) (hkept : keptByReset .w (fun _ _ => true) (r.key 0 0) = true) :
    (warmReset s c).rd r = s.rd r := by
  rw [warmReset_eq s c hpor hdormant, ((changes_resumeBoot ..).sameAt (warmKeys_mon c)).rd r 0 0 hoff, clearDevice_eq,
    ((changes_fuses _).sameAt fuseKeys_mon).rd r 0 0 hoff, rd_emptied_of_kept _ r hkept,
    (settledForReset_mon _).rd r 0 0 hoff]
  split
  · rfl
  · exact (selfFault_mon s 3).rd r 0 0 hoff

/-! ## Windows of the candidates -/

theorem rd_wr_at (s : State) (r : Row) (v i j : Nat) {w : Nat} (hv : v % 2 ^ r.width = w) : (s.wr r v i j).rd r i j = w :=
  (rd_wr_same ..).trans hv

/-- A window that agrees, before the fourth in a row. -/
theorem candWindow_run (s : State) (c : Fin 25) (count : Nat) (hpor : s.boot.porHeld = false) (hback : s.rdb CLK_WKT_TRIM.on_backup = false)
    (hclk : candClock s c = true) (hhz : candHz s c / 1000 ≠ 0) (hagree : agrees count (candHz s c / 1000) = true)
    (hrun : s.rd CLK_CAND_COUNT.run c < 3) :
    let t := candWindow c count s
    t.rd CLK_CAND_COUNT.run c = s.rd CLK_CAND_COUNT.run c + 1 ∧ t.rd CLK_CAND_COUNT.count c = count % 2 ^ 20 ∧
    OnlyRegs (keys [CLK_CAND_COUNT.count, CLK_CAND_COUNT.run] c) s t := by
  have hkeep : (s.wr CLK_CAND_COUNT.count count c).rd CLK_CAND_COUNT.run c = s.rd CLK_CAND_COUNT.run c := (changes_wr ..).rdAt
  have hmin : min 4 (s.rd CLK_CAND_COUNT.run c + 1) = s.rd CLK_CAND_COUNT.run c + 1 := by omega
  have hcase : candWindow c count s =
      (s.wr CLK_CAND_COUNT.count count c).wr CLK_CAND_COUNT.run (s.rd CLK_CAND_COUNT.run c + 1) c := by
    unfold candWindow
    rw [if_neg (by simp [hpor, hback, hclk])]
    dsimp only
    rw [if_pos ⟨hhz, hagree⟩, hkeep, hmin, if_pos (by omega)]
  dsimp only
  rw [hcase]
  refine ⟨?_, ?_, (Changes.after' (changes_wr ..) (.after' (changes_wr ..) .refl)).onlyRegs⟩
  · exact rd_wr_at _ _ _ _ _ (Nat.mod_eq_of_lt (by rw [show CLK_CAND_COUNT.run.width = 3 from rfl]; omega))
  · rw [(changes_wr ..).rdAt]
    exact rd_wr_same ..

theorem inStage_congr (hboot : t.boot = s.boot) (hmode : t.rd DEV_MODE.mode = s.rd DEV_MODE.mode)
    (hstage : t.rd DEV_BOOT_STATUS.stage = s.rd DEV_BOOT_STATUS.stage) (hhalt : t.rd DEV_BOOT_STATUS.halt_code = s.rd DEV_BOOT_STATUS.halt_code)
    (n : Nat) : inStage t n = inStage s n := by
  unfold inStage
  rw [hboot, hmode, hstage, hhalt]

/-- LOCAL_OSC READY after its fourth window, and the SyncE selection brought up to date. -/
def localReady (s : State) (count : Nat) : State :=
  synceUpdate (((s.wr CLK_CAND_COUNT.count count 0).wr CLK_CAND_COUNT.run 4 0).wrBit CLK_CAND_READY.ready 0 true)

theorem changes_localReady (s : State) (count : Nat) :
    Changes [.regs, .link, .fh, .tim, .outbox] (synceKeys ++ keys [CLK_CAND_READY.ready, CLK_CAND_COUNT.run, CLK_CAND_COUNT.count]) s
      (localReady s count) := by
  unfold localReady
  exact .after (changes_synceUpdate _) (.after (changes_wrBit ..) (.after (changes_wr ..) (.after (changes_wr ..) .refl)))

theorem localReady_candidate (s : State) (count : Nat) :
    candReady (localReady s count) 0 = true ∧ (localReady s count).rd CLK_CAND_COUNT.run 0 = 4 := by
  obtain ⟨-, ⟨hready, hrun⟩, -⟩ := synceUpdate_falls
    (((s.wr CLK_CAND_COUNT.count count 0).wr CLK_CAND_COUNT.run 4 0).wrBit CLK_CAND_READY.ready 0 true)
  refine ⟨hready.trans ?_, hrun.trans ?_⟩
  · simp [candReady_wrBit]
  · rw [(changes_wrBit ..).rd, rd_wr_same]; rfl

theorem candWindow_local (s : State) (count : Nat) (hstage : inStage s 3 = true) (hback : s.rdb CLK_WKT_TRIM.on_backup = false)
    (hhz : localHz s ≠ 0) (hagree : agrees count (localHz s / 1000) = true) (hrun : 3 ≤ s.rd CLK_CAND_COUNT.run 0) :
    let t := candWindow 0 count s
    t.rd DEV_BOOT_STATUS.stage = 4 ∧ candReady t 0 = true ∧ t.rd CLK_CAND_COUNT.run 0 = 4 ∧ t.boot = { s.boot with stageSince := s.now } ∧
    t.sec = s.sec ∧ t.mem = s.mem := by
  have hpor : s.boot.porHeld = false := by simp [inStage] at hstage; tauto
  have hkeep : (s.wr CLK_CAND_COUNT.count count 0).rd CLK_CAND_COUNT.run 0 = s.rd CLK_CAND_COUNT.run 0 := (changes_wr ..).rd
  have hmin : min 4 (s.rd CLK_CAND_COUNT.run 0 + 1) = 4 := by omega
  have hexpected : localHz s / 1000 ≠ 0 := by
    unfold localHz at hhz ⊢
    split at hhz <;> simp_all
  have hlocal := changes_localReady s count
  have hin : inStage (localReady s count) 3 = true := by rw [inStage_congr hlocal.parts.boot_eq hlocal.rd hlocal.rd hlocal.rd, hstage]
  have hcase : candWindow 0 count s = enterStage (initialTrim (localReady s count) count (localHz s / 1000)) 4 := by
    unfold candWindow
    rw [if_neg (by simp [hpor, hback, candClock])]
    dsimp only
    rw [show candHz s 0 = localHz s from rfl, if_pos ⟨hexpected, hagree⟩, hkeep, hmin, if_neg (by omega)]
    exact if_pos ⟨rfl, hin⟩
  have htrim := changes_initialTrim (localReady s count) count (localHz s / 1000)
  obtain ⟨hready, hrun4⟩ := localReady_candidate s count
  dsimp only
  rw [hcase]
  refine ⟨rd_enterStage_stage .., ?_, ?_, ?_, ?_, ?_⟩
  · unfold candReady at hready ⊢
    rw [(changes_enterStage ..).rd, htrim.rd, hready]
  · rw [(changes_enterStage ..).rd, htrim.rd, hrun4]
  · have hboot : ∀ u n, (enterStage u n).boot = { u.boot with stageSince := u.now } := fun _ _ => rfl
    rw [hboot, htrim.parts.boot_eq, htrim.parts.now_eq, hlocal.parts.boot_eq, hlocal.parts.now_eq]
  · rw [(changes_enterStage ..).parts.sec_eq, htrim.parts.sec_eq, hlocal.parts.sec_eq]
  · rw [(changes_enterStage ..).parts.mem_eq, htrim.parts.mem_eq, hlocal.parts.mem_eq]

theorem candWindow_lost (s : State) (c : Fin 25) (count : Nat) (hpor : s.boot.porHeld = false) (hback : s.rdb CLK_WKT_TRIM.on_backup = false)
    (hclk : candClock s c = true) (hagree : candHz s c / 1000 = 0 ∨ agrees count (candHz s c / 1000) = false)
    (hcurrent : c.val ≠ s.rd CLK_REF_STATUS.current) :
    let t := candWindow c count s
    t.rd CLK_CAND_COUNT.run c = 0 ∧ t.rd CLK_CAND_COUNT.count c = count % 2 ^ 20 ∧ candReady t c = false ∧
    t = { s with regs := t.regs, link := t.link, fh := t.fh, tim := t.tim, outbox := t.outbox } := by
  have hkeep : (s.wr CLK_CAND_COUNT.count count c).rd CLK_REF_STATUS.current = s.rd CLK_REF_STATUS.current := (changes_wr ..).rdAt
  have hback' : (s.wr CLK_CAND_COUNT.count count c).rdb CLK_WKT_TRIM.on_backup = false := by
    unfold State.rdb at hback ⊢
    rw [(changes_wr ..).rdAt, hback]
  have hcase : candWindow c count s = synceUpdate (candidateReset (s.wr CLK_CAND_COUNT.count count c) c) := by
    unfold candWindow
    rw [if_neg (by simp [hpor, hback, hclk])]
    dsimp only
    rw [if_neg (by rintro ⟨hz, ha⟩; simp_all), hkeep, if_neg (by tauto)]
    unfold candidateLost
    rw [hback']; rfl
  have hfall := synceUpdate_falls (candidateReset (s.wr CLK_CAND_COUNT.count count c) c)
  dsimp only
  rw [hcase]
  refine ⟨?_, ?_, ?_, ?_⟩
  · have hreset := rd_run_candidateReset (s.wr CLK_CAND_COUNT.count count c) c c
    obtain hsame | hcut := hfall.run c c.isLt
    · rw [hsame, hreset, if_pos rfl]
    · exact hcut
  · rw [(changes_synceUpdate ..).rdAt, (changes_candidateReset ..).rdAt]
    exact rd_wr_same ..
  · by_contra hready
    have hlost := hfall.ready c (by simpa using hready)
    simp [candReady_candidateReset] at hlost
  · exact OnlyParts.after (ps := [.regs, .link, .fh, .tim, .outbox]) (changes_synceUpdate ..).parts
      (.after (changes_candidateReset ..).parts (.after (changes_wr ..).parts .refl))

/-! ## Failure of the core reference -/

/-- The failure of the reference as it is recorded (R436). -/
def refRecorded (s : State) : State :=
  fault (s.wr CLK_MON_EVENTS.failed_source (s.rd CLK_REF_STATUS.current)) .clockFailure (s.rd CLK_REF_STATUS.current) (monWord s)

theorem changes_refRecorded (s : State) :
    Changes [.regs, .safe, .link, .outbox] (keys [CLK_MON_EVENTS.failed_source] ++ logKeys) s (refRecorded s) :=
  .after (changes_fault ..) (.after (changes_wr ..) .refl)

theorem refFailure_eq (s : State) : refFailure s =
    if s.boot.dormant then { refRecorded s with boot := { (refRecorded s).boot with refLostDormant := true } }
    else warmReset (refRecorded s) .refClockLoss := by
  unfold refFailure
  rw [← (changes_refRecorded s).parts.boot_eq]
  rfl

/-- A failure of the reference in DORMANT is remembered (R588). -/
theorem refFailure_dormant (s : State) (hdormant : s.boot.dormant = true) (r : Row)
    (hr : r.key 0 0 ∉ keys [CLK_MON_EVENTS.failed_source] ++ logKeys := by decide) :
    let t := refFailure s
    t.boot = { s.boot with refLostDormant := true } ∧ t.rd r = s.rd r ∧ t.rd CLK_MON_EVENTS.failed_source = s.rd CLK_REF_STATUS.current % 32 ∧
    t.mem = s.mem ∧ t.sec = s.sec ∧ t.pins = s.pins ∧ t.now = s.now := by
  have hchanges := changes_refRecorded s
  have hparts := hchanges.parts
  have hsource : (refRecorded s).rd CLK_MON_EVENTS.failed_source = s.rd CLK_REF_STATUS.current % 32 := by
    unfold refRecorded
    rw [(changes_fault ..).rd]
    exact rd_wr_same ..
  have hr' := hchanges.rd hr
  rw [refFailure_eq, if_pos hdormant]
  generalize refRecorded s = u at *
  exact ⟨by rw [hparts.boot_eq], hr', hsource, hparts.mem_eq, hparts.sec_eq, hparts.pins_eq, hparts.now_eq⟩

/-- Outside DORMANT a warm reset follows (R436). -/
theorem refFailure_awake (s : State) (hdormant : s.boot.dormant = false) (hpor : s.boot.porHeld = false) (r : Row)
    (hr : r.key 0 0 ∉ keys [CLK_MON_EVENTS.failed_source] ++ logKeys := by decide) (hoff : r.key 0 0 / 32 = monOffset := by decide)
    (hkept : keptByReset .w (fun _ _ => true) (r.key 0 0) = true := by decide +kernel) :
    let t := refFailure s
    t.rd DEV_BOOT_STATUS.stage = 4 ∧ t.rd DEV_MODE.mode = modeBoot ∧ t.rd DEV_RESET_CAUSE.ref_clock_loss = 1 ∧ t.rd r = s.rd r ∧
    t.sec.slots = s.sec.slots ∧ t.tim.fine = s.tim.fine := by
  have hchanges := changes_refRecorded s
  have hpor' : (refRecorded s).boot.porHeld = false := by rw [hchanges.parts.boot_eq, hpor]
  have hdormant' : (refRecorded s).boot.dormant = false := by rw [hchanges.parts.boot_eq, hdormant]
  obtain ⟨⟨-, -, -, hfine, hsec⟩, -, hstage, -, hmode, hcause, -, -⟩ := warmReset_meets (refRecorded s) .refClockLoss hpor' hdormant'
  dsimp only
  rw [refFailure_eq, if_neg (by simp [hdormant]), warmReset_mon _ _ r hpor' hdormant' hoff hkept, hchanges.rd hr, hfine, hsec,
    hchanges.parts.tim_eq, hchanges.parts.sec_eq]
  exact ⟨hstage, hmode, hcause, rfl, rfl, rfl⟩

theorem porHeld_of_refWatched (h : refWatched s = true) : s.boot.porHeld = false := by
  unfold refWatched at h
  cases hp : s.boot.porHeld <;> simp_all

/-- The reference stops: the candidate lost, and the SyncE selection brought up to date. -/
def edgeMissed (s : State) : State :=
  synceUpdate (candidateLost (s.wr CLK_MON_EVENTS.missing_edge 1) (s.rd CLK_REF_STATUS.current))

theorem missingEdge_eq (hwatched : refWatched s = true) (hinj : s.safe.injection = none) : missingEdge s = refFailure (edgeMissed s) := by
  have harm : injArmed s 0x01 0 = false := by simp [injArmed, hinj]
  have hkeep : (s.wr CLK_MON_EVENTS.missing_edge 1).rd CLK_REF_STATUS.current = s.rd CLK_REF_STATUS.current := (changes_wr ..).rd
  unfold missingEdge edgeMissed
  rw [if_neg (by simp [hwatched]), if_neg (by simp [harm])]

theorem changes_edgeMissed (s : State) : Changes [.regs, .link, .fh, .tim, .outbox]
    (CLK_CAND_COUNT.run.key (s.rd CLK_REF_STATUS.current) 0 :: keys [CLK_MON_EVENTS.missing_edge] ++ synceKeys) s (edgeMissed s) := by
  unfold edgeMissed
  exact .after (changes_synceUpdate ..) (.after (changes_candidateLost ..) (.after (changes_wr ..) .refl
    (hk := by simp [keys])) (hk := by simp [keys, show CLK_CAND_READY.ready.key 0 0 ∈ synceKeys by decide])) (hk := by simp)

theorem runKey_ne_low (c : Nat) : CLK_CAND_COUNT.run.key c 0 ≠ CLK_REF_STATUS.current.key 0 0 ∧
    CLK_CAND_COUNT.run.key c 0 ≠ CLK_MON_EVENTS.missing_edge.key 0 0 := by
  simp only [Row.key, Row.offset, CLK_CAND_COUNT.run, CLK_REF_STATUS.current, CLK_MON_EVENTS.missing_edge]
  omega

theorem edgeMissed_rd (s : State) : (edgeMissed s).rd CLK_MON_EVENTS.missing_edge = 1 ∧
    (edgeMissed s).rd CLK_REF_STATUS.current = s.rd CLK_REF_STATUS.current ∧ (edgeMissed s).tim.fine = s.tim.fine := by
  have hmon : CLK_MON_EVENTS.missing_edge.key 0 0 ∉ synceKeys := by decide
  obtain ⟨hcur, hmiss⟩ := runKey_ne_low (s.rd CLK_REF_STATUS.current)
  unfold edgeMissed
  refine ⟨?_, ?_, ?_⟩
  · rw [(changes_synceUpdate ..).rd, (changes_candidateLost ..).rd (by
      simp only [List.mem_append, List.mem_singleton, not_or]; exact ⟨by decide, hmiss.symm⟩), rd_wr_same]; rfl
  · rw [(changes_synceUpdate ..).rd, (changes_candidateLost ..).rd (by
      simp only [List.mem_append, List.mem_singleton, not_or]; exact ⟨by decide, hcur.symm⟩), (changes_wr ..).rd]
  · rw [synceUpdate_fine, (changes_candidateLost ..).parts.tim_eq, wr_tim]

theorem missingEdge_dormant (s : State) (hwatched : refWatched s = true) (hinj : s.safe.injection = none) (hdormant : s.boot.dormant = true) :
    let t := missingEdge s
    t.boot = { s.boot with refLostDormant := true } ∧ t.rd CLK_MON_EVENTS.missing_edge = 1 ∧
    t.rd CLK_MON_EVENTS.failed_source = s.rd CLK_REF_STATUS.current % 32 ∧ t.mem = s.mem ∧ t.sec = s.sec ∧ t.pins = s.pins ∧ t.now = s.now := by
  have hparts := (changes_edgeMissed s).parts
  obtain ⟨hmiss, hcur, -⟩ := edgeMissed_rd s
  obtain ⟨hboot, hrd, hsource, hmem, hsec, hpins, hnow⟩ :=
    refFailure_dormant (edgeMissed s) (by rw [hparts.boot_eq, hdormant]) CLK_MON_EVENTS.missing_edge
  dsimp only
  rw [missingEdge_eq hwatched hinj]
  exact ⟨by rw [hboot, hparts.boot_eq], hrd.trans hmiss, by rw [hsource, hcur], hmem.trans hparts.mem_eq, hsec.trans hparts.sec_eq,
    hpins.trans hparts.pins_eq, hnow.trans hparts.now_eq⟩

theorem missingEdge_awake (s : State) (hwatched : refWatched s = true) (hinj : s.safe.injection = none) (hdormant : s.boot.dormant = false) :
    let t := missingEdge s
    t.rd DEV_BOOT_STATUS.stage = 4 ∧ t.rd DEV_MODE.mode = modeBoot ∧ t.rd DEV_RESET_CAUSE.ref_clock_loss = 1 ∧
    t.rd CLK_MON_EVENTS.missing_edge = 1 ∧ t.sec.slots = s.sec.slots ∧ t.tim.fine = s.tim.fine := by
  have hparts := (changes_edgeMissed s).parts
  obtain ⟨hmiss, -, hfine'⟩ := edgeMissed_rd s
  obtain ⟨hstage, hmode, hcause, hrd, hsec, hfine⟩ := refFailure_awake (edgeMissed s) (by rw [hparts.boot_eq, hdormant])
    (by rw [hparts.boot_eq, porHeld_of_refWatched hwatched]) CLK_MON_EVENTS.missing_edge
  dsimp only
  rw [missingEdge_eq hwatched hinj]
  exact ⟨hstage, hmode, hcause, hrd.trans hmiss, by rw [hsec, hparts.sec_eq], hfine.trans hfine'⟩

/-- A PLL unlocked, as it is recorded (R436). -/
def pllLost (s : State) (k : Nat) : State :=
  (if k = 0 then s.wr CLK_REF_STATUS.hop_locked 0 else if k = 1 then s.wr CLK_REF_STATUS.lane_locked 0
    else s.wrBit CLK_REF_STATUS.dram_locked (k - 2) false).wr CLK_MON_EVENTS.pll_unlock 1

theorem changes_pllLost (s : State) (k : Nat) : Changes [.regs]
    (keys [CLK_REF_STATUS.hop_locked, CLK_REF_STATUS.lane_locked, CLK_REF_STATUS.dram_locked, CLK_MON_EVENTS.pll_unlock]) s (pllLost s k) :=
  .after (changes_wr ..) (changes_ite (fun _ => (changes_wr ..).mono) fun _ =>
    changes_ite (fun _ => (changes_wr ..).mono) fun _ => (changes_wrBit ..).mono)

theorem pllUnlock_eq (hwatched : refWatched s = true) (k : Nat) : pllUnlock k s = refFailure (pllLost s k) := by
  unfold pllUnlock pllLost
  rw [if_neg (by simp [hwatched])]

theorem pllLost_shows (s : State) (k : Nat) : (pllLost s k).rd CLK_MON_EVENTS.pll_unlock = 1 := rd_wr_at _ _ _ _ _ rfl

theorem pllUnlock_dormant (s : State) (k : Nat) (hwatched : refWatched s = true) (hdormant : s.boot.dormant = true) :
    let t := pllUnlock k s
    t.boot = { s.boot with refLostDormant := true } ∧ t.rd CLK_MON_EVENTS.pll_unlock = 1 ∧
    t.rd CLK_MON_EVENTS.failed_source = s.rd CLK_REF_STATUS.current % 32 ∧ t.mem = s.mem ∧ t.sec = s.sec ∧ t.pins = s.pins ∧ t.now = s.now := by
  have hchanges := changes_pllLost s k
  have hparts := hchanges.parts
  obtain ⟨hboot, hrd, hsource, hmem, hsec, hpins, hnow⟩ :=
    refFailure_dormant (pllLost s k) (by rw [hparts.boot_eq, hdormant]) CLK_MON_EVENTS.pll_unlock
  dsimp only
  rw [pllUnlock_eq hwatched]
  exact ⟨by rw [hboot, hparts.boot_eq], hrd.trans (pllLost_shows s k), by rw [hsource, hchanges.rd], hmem.trans hparts.mem_eq,
    hsec.trans hparts.sec_eq, hpins.trans hparts.pins_eq, hnow.trans hparts.now_eq⟩

theorem pllUnlock_awake (s : State) (k : Nat) (hwatched : refWatched s = true) (hdormant : s.boot.dormant = false) :
    let t := pllUnlock k s
    t.rd DEV_BOOT_STATUS.stage = 4 ∧ t.rd DEV_MODE.mode = modeBoot ∧ t.rd DEV_RESET_CAUSE.ref_clock_loss = 1 ∧
    t.rd CLK_MON_EVENTS.pll_unlock = 1 ∧ t.sec.slots = s.sec.slots ∧ t.tim.fine = s.tim.fine := by
  have hparts := (changes_pllLost s k).parts
  obtain ⟨hstage, hmode, hcause, hrd, hsec, hfine⟩ := refFailure_awake (pllLost s k) (by rw [hparts.boot_eq, hdormant])
    (by rw [hparts.boot_eq, porHeld_of_refWatched hwatched]) CLK_MON_EVENTS.pll_unlock
  dsimp only
  rw [pllUnlock_eq hwatched]
  exact ⟨hstage, hmode, hcause, hrd.trans (pllLost_shows s k), by rw [hsec, hparts.sec_eq], by rw [hfine, hparts.tim_eq]⟩

/-! ## Switching -/

theorem refSwitch_accepted (s : State) (c : Fin 32) (hmode : s.rd DEV_MODE.mode = modeAssembly ∨ s.rd DEV_MODE.mode = modeService)
    (hidle : s.rdb CLK_REF_STATUS.switching = false) (hc : c.val ≤ 24) (hready : candReady s c = true)
    (hcurrent : c.val ≠ s.rd CLK_REF_STATUS.current) :
    let t := refSwitch c 0xC3 s
    t.rd CLK_REF_STATUS.current = c.val ∧ t.rd CLK_REF_STATUS.switching = 1 ∧ t = { s with regs := t.regs, fh := t.fh } := by
  have hparts := (changes_refSwitch s c 0xC3).parts
  have hcase : refSwitch c 0xC3 s = clkoutCheck (if 1 ≤ c.val ∧ c.val ≤ 16
      then exitEi ((s.wr CLK_REF_STATUS.current c).wr CLK_REF_STATUS.switching 1) (c - 1)
      else (s.wr CLK_REF_STATUS.current c).wr CLK_REF_STATUS.switching 1) := by
    unfold refSwitch
    dsimp only
    rw [if_neg (by simp), if_neg (by tauto), if_neg (by simp [hidle]), if_neg (by omega), if_neg (by simp [hready]), if_neg hcurrent]
  have hwidth : c.val % 2 ^ CLK_REF_STATUS.current.width = c.val := Nat.mod_eq_of_lt c.isLt
  have hswitching : ∀ t : State, (t.wr CLK_REF_STATUS.switching 1).rd CLK_REF_STATUS.switching = 1 := fun t => rd_wr_at _ _ _ _ _ rfl
  refine ⟨?_, ?_, hparts⟩
  all_goals rw [hcase, (changes_clkoutCheck _).rd]; split
  · rw [(changes_exitEi ..).rdAt, (changes_wr ..).rd, rd_wr_same, hwidth]
  · rw [(changes_wr ..).rd, rd_wr_same, hwidth]
  · rw [(changes_exitEi ..).rdAt, hswitching]
  · exact hswitching _

theorem switchResult_meets (s : State) (st : Status) (hst : st.code < 2 ^ CLK_REF_CTRL.result.width) :
    (switchResult s st).rd CLK_REF_CTRL.result = st.code ∧ (switchResult s st).rd CLK_REF_CTRL.done = 1 ∧
    OnlyRegs (keys [CLK_REF_CTRL.result, CLK_REF_CTRL.done]) s (switchResult s st) := by
  refine ⟨?_, rd_wr_at _ _ _ _ _ rfl, ((changes_switchResult s st).mono (by decide) (by decide)).onlyRegs⟩
  unfold switchResult
  rw [(changes_wr ..).rd, rd_wr_same, Nat.mod_eq_of_lt hst]

/-- Settles O15: windows, failures of the reference, and switches. -/
theorem candidatesAndReference : Obligations.CandidatesAndReference := by
  unfold Obligations.CandidatesAndReference
  refine ⟨?_, ?_, ?_, ?_, ?_, ?_, ?_, ?_, ?_, ?_⟩
  · intro s c count hpor hback hclk hhz hagree hrun
    exact .intro rfl (candWindow_run s c count hpor hback hclk hhz hagree hrun)
  · intro s count hstage hback hhz hagree hrun
    exact .intro rfl (candWindow_local s count hstage hback hhz hagree hrun)
  · intro s c count hpor hback hclk hagree hcurrent
    exact .intro rfl (candWindow_lost s c count hpor hback hclk hagree hcurrent)
  · intro s hwatched hinj hdormant
    exact .intro rfl (missingEdge_dormant s hwatched hinj hdormant)
  · intro s hwatched hinj hdormant
    exact .intro rfl (missingEdge_awake s hwatched hinj hdormant)
  · intro s pll hwatched hdormant
    exact .intro rfl (pllUnlock_awake s pll hwatched hdormant)
  · intro s pll hwatched hdormant
    exact .intro rfl (pllUnlock_dormant s pll hwatched hdormant)
  · intro s c hup hblock hmode hidle hc hready hcurrent
    have hboot : s.rd DEV_MODE.mode ≠ modeBoot := by obtain h | h := hmode <;> rw [h] <;> decide
    exact .intro (congrArg Host.Outcome.next (regWrite_reaches hup hboot hblock)) (refSwitch_accepted s c hmode hidle hc hready hcurrent)
  · intro s c confirm hup hblock hboot hassembly hservice
    refine .intro (congrArg Host.Outcome.next (regWrite_reaches hup hboot hblock)) ?_
    split
    · next hconfirm =>
      have hcase : refSwitch c confirm s = switchResult s .modeForbids := by
        unfold refSwitch
        dsimp only
        rw [if_neg (by simp [hconfirm]), if_pos ⟨hassembly, hservice⟩]
      rw [hcase]
      exact switchResult_meets s .modeForbids (by decide)
    · next hconfirm => exact if_pos hconfirm
  · intro s hswitching
    refine .intro rfl ?_
    have hcase : switchEnd s = switchResult (s.wr CLK_REF_STATUS.switching 0) .success := if_pos hswitching
    rw [hcase]
    obtain ⟨hresult, hdone, -⟩ := switchResult_meets (s.wr CLK_REF_STATUS.switching 0) .success (by decide)
    refine ⟨?_, hresult, hdone, (Changes.after (changes_switchResult ..) (.after (changes_wr ..) .refl)).onlyRegs⟩
    rw [(changes_switchResult ..).rd, rd_wr_same]; rfl

end Sys2Proof.Machine
end

section
set_option Elab.async false
/-! Settles the statement about DORMANT and wake (02_modes_and_start_up.md, 19_wicket_and_thermal.md). -/

namespace Sys2Proof.Machine

variable {s t u : State} {ks : List Nat} {ps : List Part}

/-! ## PME_TURN_OFF -/

theorem pmeTurnOff_eq (hup : s.link.up = true) : pmeTurnOff s =
    { s with outbox := s.outbox ++ [.pmeToAck], boot := if s.boot.dormantCommit.isSome then { s.boot with pmeAcked := true } else s.boot } := by
  unfold pmeTurnOff
  rw [hup]
  cases s.boot.dormantCommit <;> rfl

/-! ## Power-down -/

/-- The device whose power goes: the pins in their sleep states, DRAM in self-refresh. -/
def resting (s : State) : State := selfRefresh (selfRefresh (sleepPins s) 0) 1

/-- The same, in DORMANT. -/
def asleep (s : State) : State := { resting s with boot := { (resting s).boot with dormant := true, thermalHold := false } }

/-- What a power-down shows of the cleared device `t`, which left `mode`. -/
def showDormant (t : State) (mode : Nat) : State :=
  let t := { t with boot := { t.boot with hostUp := false, perstSeen := t.link.perst }, wkt := { t.wkt with wakeTick := t.now, estStart := false } }
  let t := history ((t.wr DEV_MODE.mode modeDormant).inc DEV_MODE.transitions) .modeChange 0 (mode + modeDormant * 256)
  synceUpdate (showStack (mute (dropToutArms t)))

theorem powerDown_eq (hwait : s.boot.wakeWaiting = none) : powerDown s false =
    ((List.range 2).filter fun c => (resting s).rd DRC_STATUS.state c == drSelfRefresh).foldl
      (fun t c => t.wr DRC_STATUS.state drSelfRefresh c) (showDormant (clearDevice (asleep s)) (s.rd DEV_MODE.mode)) := by
  unfold powerDown showDormant asleep resting
  simp only [hwait, Bool.false_eq_true, if_false]

/-- With CORE down and every die off, every Shutter is shown closed. -/
theorem rd_showStack_closed (s : State) (hcore : s.boot.coreUp = false) (hd0 : s.boot.d0 = .idle) (hdies : s.boot.dies = [.off, .off, .off]) :
    (showStack s).rd DEV_STACK_STATUS.shutter_closed = 0xF := by
  have hclosed : ∀ n < 4, dieTrained s n = false := by
    intro n hn
    unfold dieTrained statusLane baseOpen
    rw [hcore, hd0, hdies]
    interval_cases n <;> rfl
  have hsum : (List.range 4).foldl (fun a n => a + b2n (!dieTrained s n || (neighbours n).any (fun m => !dieTrained s m)) * 2 ^ n) 0 = 15 := by
    simp only [List.range, List.range.loop, List.foldl]
    rw [hclosed 0 (by decide), hclosed 1 (by decide), hclosed 2 (by decide), hclosed 3 (by decide)]
    rfl
  unfold showStack
  dsimp only
  rw [(changes_wr ..).rd, rd_wr_same, hsum]; rfl

theorem onlyParts_resting (s : State) : OnlyParts [.regs, .pins, .free, .dram] s (resting s) :=
  .after (changes_selfRefresh ..).parts (.after (changes_selfRefresh ..).parts ((onlyParts_sleepPins s).mono (by decide)))

theorem onlyParts_asleep (s : State) : OnlyParts [.regs, .pins, .free, .dram, .boot] s (asleep s) :=
  .after (qs := [.boot]) rfl ((onlyParts_resting s).mono (by decide))

theorem sleepPins_sleeping (s : State) : (sleepPins s).pins.sleeping = true := by
  unfold sleepPins
  rw [(onlyParts_showOwners ..).pins_eq]

theorem resting_sleeping (s : State) : (resting s).pins.sleeping = true := by
  unfold resting
  rw [(changes_selfRefresh ..).parts.pins_eq, (changes_selfRefresh ..).parts.pins_eq, sleepPins_sleeping]

theorem asleep_pins (s : State) : (asleep s).pins = (resting s).pins :=
  OnlyParts.pins_eq (ps := [.boot]) (s := resting s) (t := asleep s) rfl

theorem emptied_boot (s : State) : (emptied s).boot =
    { Boot.start with
      porHeld := false, cause := none, dormant := s.boot.dormant, refLostDormant := s.boot.refLostDormant
      thermalHold := s.boot.thermalHold, wakeN := s.boot.wakeN, stageSince := s.now } := rfl
theorem emptied_sleeping (s : State) : (emptied s).pins.sleeping = s.pins.sleeping := rfl

theorem clearDevice_pins (s : State) : (clearDevice s).pins.sleeping = s.pins.sleeping := by
  rw [clearDevice_eq, (changes_fuses _).parts.pins_eq, emptied_sleeping, (onlyParts_settled s).pins_eq, (onlyParts_endSession s).pins_eq]

theorem clearDevice_boot (s : State) : (clearDevice s).boot.dormant = s.boot.dormant ∧ (clearDevice s).boot.coreUp = false ∧
    (clearDevice s).boot.d0 = .idle ∧ (clearDevice s).boot.dies = [.off, .off, .off] := by
  have hboot : (clearDevice s).boot = (emptied (settledForReset s)).boot := by rw [clearDevice_eq, (changes_fuses _).parts.boot_eq]
  have hdormant : (settledForReset s).boot.dormant = s.boot.dormant := by
    rw [(onlyParts_settled s).boot_eq, (onlyParts_endSession s).boot_eq]
  rw [hboot, emptied_boot]
  exact ⟨hdormant, rfl, rfl, rfl⟩

/-! ## What a power-down shows -/

/-- The device under `showDormant` before it is muted. -/
def dormantShown (t : State) (mode : Nat) : State :=
  let t := { t with boot := { t.boot with hostUp := false, perstSeen := t.link.perst }, wkt := { t.wkt with wakeTick := t.now, estStart := false } }
  history ((t.wr DEV_MODE.mode modeDormant).inc DEV_MODE.transitions) .modeChange 0 (mode + modeDormant * 256)

theorem showDormant_eq (t : State) (mode : Nat) :
    showDormant t mode = synceUpdate (showStack (mute (dropToutArms (dormantShown t mode)))) := rfl

theorem onlyParts_dormantShown (t : State) (mode : Nat) : OnlyParts [.boot, .wkt, .regs, .safe, .link, .outbox] t (dormantShown t mode) := by
  unfold dormantShown
  exact .after (changes_history ..).parts (.after (changes_inc ..).parts (.after (changes_wr ..).parts (.after (qs := [.boot, .wkt]) rfl .refl)))

theorem onlyParts_showDormant (t : State) (mode : Nat) :
    OnlyParts [.boot, .wkt, .regs, .safe, .link, .outbox, .fh, .tim] t (showDormant t mode) := by
  rw [showDormant_eq]
  exact .after (changes_synceUpdate _).parts (.after (changes_showStack _).parts (.after (changes_mute _).parts (.after (changes_dropToutArms _).parts
    ((onlyParts_dormantShown t mode).mono (by decide)))))

theorem history_wakeTick (s : State) (k : FaultKind) (unit detail : Nat) : (history s k unit detail).wkt.wakeTick = s.wkt.wakeTick := by
  unfold history
  rw [(changes_fault ..).parts.wkt_eq]; rfl

theorem showDormant_meets (t : State) (mode : Nat) (hcore : t.boot.coreUp = false) (hd0 : t.boot.d0 = .idle)
    (hdies : t.boot.dies = [.off, .off, .off]) :
    (showDormant t mode).rd DEV_MODE.mode = modeDormant ∧ (showDormant t mode).boot.dormant = t.boot.dormant ∧
    (showDormant t mode).boot.hostUp = false ∧ (showDormant t mode).boot.coreUp = false ∧ (showDormant t mode).wkt.wakeTick = t.now ∧
    (showDormant t mode).rd DEV_STACK_STATUS.shutter_closed = 0xF := by
  have hboot : (mute (dropToutArms (dormantShown t mode))).boot = { t.boot with hostUp := false, perstSeen := t.link.perst } := by
    rw [(changes_mute _).parts.boot_eq, (changes_dropToutArms _).parts.boot_eq]
    unfold dormantShown
    rw [(changes_history ..).parts.boot_eq]; rfl
  have hwkt : (dormantShown t mode).wkt.wakeTick = t.now := by
    unfold dormantShown
    rw [history_wakeTick]; rfl
  have hmode : (dormantShown t mode).rd DEV_MODE.mode = modeDormant := by
    unfold dormantShown
    rw [(changes_history ..).rd, (changes_inc ..).rd]
    exact rd_wr_at _ _ _ _ _ rfl
  have hparts : OnlyParts [.regs, .link, .fh, .tim, .outbox] (mute (dropToutArms (dormantShown t mode))) (showDormant t mode) := by
    rw [showDormant_eq]
    exact .after (changes_synceUpdate _).parts (.after (changes_showStack _).parts .refl)
  refine ⟨?_, ?_, ?_, ?_, ?_, ?_⟩
  · rw [showDormant_eq, (changes_synceUpdate _).rd, (changes_showStack _).rd, (changes_mute _).rd, (changes_dropToutArms _).rd, hmode]
  · rw [hparts.boot_eq, hboot]
  · rw [hparts.boot_eq, hboot]
  · rw [hparts.boot_eq, hboot]; exact hcore
  · rw [hparts.wkt_eq, (changes_mute _).parts.wkt_eq, (changes_dropToutArms _).parts.wkt_eq, hwkt]
  · rw [showDormant_eq, (changes_synceUpdate _).rd]
    exact rd_showStack_closed _ (by rw [hboot]; exact hcore) (by rw [hboot]; exact hd0) (by rw [hboot]; exact hdies)

theorem dormantPowerDown_meets (s : State) (t0 : Nat) (hcommit : s.boot.dormantCommit = some t0) (hwait : s.boot.wakeWaiting = none) :
    let t := dormantPowerDown s
    t.rd DEV_MODE.mode = modeDormant ∧ t.boot.dormant = true ∧ t.boot.hostUp = false ∧ t.boot.coreUp = false ∧ t.pins.sleeping = true ∧
    t.mem = MemDie.start ∧ t.tiles = [] ∧ t.ctxs = Contexts.start ∧ t.sec.slots = s.sec.slots ∧
    t.now = (if s.boot.pmeAcked then s.now else max s.now (t0 + 100 * msTicks)) ∧ t.wkt.wakeTick = t.now ∧
    t.rd DEV_STACK_STATUS.shutter_closed = 0xF ∧ t.grade2 = s.grade2 ∧ t.pending = s.pending := by
  generalize hv : (if s.boot.pmeAcked then s else advanceTo s (t0 + 100 * msTicks)) = v
  have hcase : dormantPowerDown s = powerDown v false := by
    unfold dormantPowerDown
    rw [hcommit, ← hv]
  have htime : OnlyParts [.now, .tim] s v := by
    rw [← hv]
    exact onlyParts_ite (fun _ => .refl) fun _ => (changes_advanceTo ..).parts
  have hnow : v.now = if s.boot.pmeAcked then s.now else max s.now (t0 + 100 * msTicks) := by
    rw [← hv]
    split
    · rfl
    · exact advanceTo_now_max ..
  have hsleep := onlyParts_asleep v
  obtain ⟨hnow', hgrade, hpending, -, hsec⟩ := keptByClear (asleep v)
  obtain ⟨hctxs, htiles, hmem, -⟩ := clearDevice_emptied (asleep v)
  obtain ⟨hdormant, hcore, hd0, hdies⟩ := clearDevice_boot (asleep v)
  have hpins : (clearDevice (asleep v)).pins.sleeping = true := by rw [clearDevice_pins, asleep_pins, resting_sleeping]
  obtain ⟨hmode, hdormant', hhost, hcore', htick, hshut⟩ := showDormant_meets (clearDevice (asleep v)) (v.rd DEV_MODE.mode) hcore hd0 hdies
  have hparts := onlyParts_showDormant (clearDevice (asleep v)) (v.rd DEV_MODE.mode)
  have hlast : Changes [.regs] (keys [DRC_STATUS.state] ++ keys [DRC_STATUS.state] 1) (showDormant (clearDevice (asleep v)) (v.rd DEV_MODE.mode))
      (dormantPowerDown s) := by
    rw [hcase, powerDown_eq (by rw [htime.boot_eq, hwait])]
    refine changes_foldl_mem (fun t c hc => (changes_wr ..).mono (by decide) ?_) .refl
    have hc2 : c < 2 := by simpa using (List.mem_filter.mp hc).1
    clear * - hc2
    interval_cases c <;> decide
  dsimp only
  refine ⟨?_, ?_, ?_, ?_, ?_, ?_, ?_, ?_, ?_, ?_, ?_, ?_, ?_, ?_⟩
  · rw [hlast.rd, hmode]
  · rw [hlast.parts.boot_eq, hdormant', hdormant]; rfl
  · rw [hlast.parts.boot_eq, hhost]
  · rw [hlast.parts.boot_eq, hcore']
  · rw [hlast.parts.pins_eq, hparts.pins_eq, hpins]
  · rw [hlast.parts.mem_eq, hparts.mem_eq, hmem]
  · rw [hlast.parts.tiles_eq, hparts.tiles_eq, htiles]
  · rw [hlast.parts.ctxs_eq, hparts.ctxs_eq, hctxs]
  · rw [hlast.parts.sec_eq, hparts.sec_eq, hsec, hsleep.sec_eq, htime.sec_eq]
  · rw [hlast.parts.now_eq, hparts.now_eq, hnow', hsleep.now_eq, hnow]
  · rw [hlast.parts.wkt_eq, htick, hlast.parts.now_eq, hparts.now_eq]
  · rw [hlast.rd, hshut]
  · rw [hlast.parts.grade2_eq, hparts.grade2_eq, hgrade, hsleep.grade2_eq, htime.grade2_eq]
  · rw [hlast.parts.pending_eq, hparts.pending_eq, hpending, hsleep.pending_eq, htime.pending_eq]

/-! ## Wake -/

/-- The wake as it is recorded, before the mode becomes BOOT. -/
def wakeRecorded (s : State) (src : Nat) : State :=
  let wn := src != 0 && s.rdb DEV_DORMANT_CTRL.assert_wake_n && s.link.perst
  let t := { s with boot := { s.boot with dormant := false, thermalHold := false, wakeWaiting := none, dormantCommit := none, wakeN := wn,
                                          hostUp := !s.link.perst, refLostDormant := false } }
  let t := (t.wr DEV_RESET_CAUSE.wake 1).wr DEV_RESET_CAUSE.wake_source src
  let t := if s.boot.refLostDormant then t.wr DEV_RESET_CAUSE.ref_clock_loss 1 else t
  t.wr WKT_WAKE_TIMER.seconds (t.rd WKT_WAKE_TIMER.seconds - (t.now - t.wkt.wakeTick) / secTicks)

/-- Boot as a wake resumes it. -/
def wakeToBoot (t : State) : State :=
  let t := history t .resetCause 0 (causeWord t)
  let t := modeToBoot (t.wr DEV_MODE.mode modeBoot) modeDormant
  enterStage (rebuildDegraded ((t.wr DRC_STATUS.state drDisabled 0).wr DRC_STATUS.state drDisabled 1)) 4

theorem doWake_eq (s : State) (src : Nat) : doWake s src = wakeToBoot (wakeRecorded s src) := rfl

theorem wakeRecorded_meets (s : State) (src : Nat) (hsrc : src < 3) :
    (wakeRecorded s src).rd DEV_RESET_CAUSE.wake = 1 ∧ (wakeRecorded s src).rd DEV_RESET_CAUSE.wake_source = src ∧
    (wakeRecorded s src).rd WKT_WAKE_TIMER.seconds = (s.rd WKT_WAKE_TIMER.seconds - (s.now - s.wkt.wakeTick) / secTicks) % 2 ^ 32 ∧
    (wakeRecorded s src).boot.dormant = false ∧ (wakeRecorded s src).boot.hostUp = !s.link.perst := by
  have hwidth : src % 2 ^ DEV_RESET_CAUSE.wake_source.width = src :=
    Nat.mod_eq_of_lt (by rw [show DEV_RESET_CAUSE.wake_source.width = 2 from rfl]; omega)
  unfold wakeRecorded
  dsimp only
  cases s.boot.refLostDormant
  · simp only [Bool.false_eq_true, if_false]
    refine ⟨?_, ?_, ?_, rfl, rfl⟩
    · rw [(changes_wr ..).rd, (changes_wr ..).rd]
      exact rd_wr_at _ _ _ _ _ rfl
    · rw [(changes_wr ..).rd]
      exact rd_wr_at _ _ _ _ _ hwidth
    · rw [rd_wr_same, (changes_wr ..).rd, (changes_wr ..).rd]; rfl
  · simp only [if_true]
    refine ⟨?_, ?_, ?_, rfl, rfl⟩
    · rw [(changes_wr ..).rd, (changes_wr ..).rd, (changes_wr ..).rd]
      exact rd_wr_at _ _ _ _ _ rfl
    · rw [(changes_wr ..).rd, (changes_wr ..).rd]
      exact rd_wr_at _ _ _ _ _ hwidth
    · rw [rd_wr_same, (changes_wr ..).rd, (changes_wr ..).rd, (changes_wr ..).rd]; rfl

theorem wakeToBoot_meets (t : State) :
    (wakeToBoot t).rd DEV_MODE.mode = modeBoot ∧ (wakeToBoot t).rd DEV_BOOT_STATUS.stage = 4 ∧
    (wakeToBoot t).rd DEV_RESET_CAUSE.wake = t.rd DEV_RESET_CAUSE.wake ∧
    (wakeToBoot t).rd DEV_RESET_CAUSE.wake_source = t.rd DEV_RESET_CAUSE.wake_source ∧
    (wakeToBoot t).rd WKT_WAKE_TIMER.seconds = t.rd WKT_WAKE_TIMER.seconds ∧
    (wakeToBoot t).boot = { t.boot with stageSince := t.now } := by
  have hlow : ∀ u : State, Changes [.regs, .safe, .link, .wkt, .outbox] (keys [DRC_STATUS.state, WKT_STATUS.history, DEV_MODE.transitions] ++
      keys [DRC_STATUS.state] 1 ++ degradedKeys dgDsp ++ degradedKeys dgDistrict ++ degradedKeys dgStack ++ degradedKeys dgMem ++ logKeys) u
      (rebuildDegraded (((modeToBoot u modeDormant).wr DRC_STATUS.state drDisabled 0).wr DRC_STATUS.state drDisabled 1)) := fun u =>
    .after (changes_rebuildDegraded _) (.after (changes_wr ..) (.after (changes_wr ..) (.after (changes_modeToBoot ..) .refl)))
  have hhistory := changes_history t .resetCause 0 (causeWord t)
  have hboot : ∀ u n, (enterStage u n).boot = { u.boot with stageSince := u.now } := fun _ _ => rfl
  refine ⟨?_, rd_enterStage_stage .., ?_, ?_, ?_, ?_⟩
  all_goals unfold wakeToBoot
  · rw [(changes_enterStage ..).rd, (hlow _).rd]
    exact rd_wr_at _ _ _ _ _ rfl
  · rw [(changes_enterStage ..).rd, (hlow _).rd, (changes_wr ..).rd, hhistory.rd]
  · rw [(changes_enterStage ..).rd, (hlow _).rd, (changes_wr ..).rd, hhistory.rd]
  · rw [(changes_enterStage ..).rd, (hlow _).rd, (changes_wr ..).rd, hhistory.rd]
  · rw [hboot, (hlow _).parts.boot_eq, (hlow _).parts.now_eq, wr_boot, wr_now, hhistory.parts.boot_eq, hhistory.parts.now_eq]

theorem wake_taken (s : State) (src : Nat) (hdormant : s.boot.dormant = true) (henabled : wakeEnabled s src = true)
    (hhold : s.boot.thermalHold = false) (hwait : s.boot.wakeWaiting = none) : wake s src = doWake s src := by
  simp [wake, hdormant, henabled, hhold, hwait]

theorem wake_meets (s : State) (src : Nat) (hsrc : src < 3) (hdormant : s.boot.dormant = true) (henabled : wakeEnabled s src = true)
    (hhold : s.boot.thermalHold = false) (hwait : s.boot.wakeWaiting = none) :
    let t := wake s src
    t.boot.dormant = false ∧ t.rd DEV_MODE.mode = modeBoot ∧ t.rd DEV_BOOT_STATUS.stage = 4 ∧ t.rd DEV_RESET_CAUSE.wake = 1 ∧
    t.rd DEV_RESET_CAUSE.wake_source = src ∧ t.boot.hostUp = !s.link.perst ∧
    t.rd WKT_WAKE_TIMER.seconds = (s.rd WKT_WAKE_TIMER.seconds - (s.now - s.wkt.wakeTick) / secTicks) % 2 ^ 32 ∧
    OnlyParts [.regs, .boot, .safe, .link, .wkt, .outbox] s t := by
  obtain ⟨hwake, hsource, hseconds, hdormant', hhost⟩ := wakeRecorded_meets s src hsrc
  obtain ⟨hmode, hstage, hwake', hsource', hseconds', hboot⟩ := wakeToBoot_meets (wakeRecorded s src)
  have hparts := (changes_wake s src).parts
  dsimp only
  rw [wake_taken s src hdormant henabled hhold hwait, doWake_eq] at *
  exact ⟨by rw [hboot, hdormant'], hmode, hstage, hwake'.trans hwake, hsource'.trans hsource, by rw [hboot, hhost], hseconds'.trans hseconds, hparts⟩

theorem wakeEnabled_timer (s : State) : wakeEnabled s 2 = s.rdb DEV_DORMANT_CTRL.wake_timer := rfl

theorem wakeTimer_meets (s : State) (hdormant : s.boot.dormant = true) (hseconds : s.rd WKT_WAKE_TIMER.seconds ≠ 0)
    (henabled : s.rdb DEV_DORMANT_CTRL.wake_timer = true) (hhold : s.boot.thermalHold = false) (hwait : s.boot.wakeWaiting = none) :
    let t := wakeTimer s
    t.now = max s.now (s.wkt.wakeTick + s.rd WKT_WAKE_TIMER.seconds * secTicks) ∧ t.boot.dormant = false ∧ t.rd WKT_WAKE_TIMER.seconds = 0 ∧
    t.rd DEV_BOOT_STATUS.stage = 4 ∧ t.rd DEV_RESET_CAUSE.wake_source = 2 ∧
    t = { s with now := t.now, regs := t.regs, boot := t.boot, safe := t.safe, link := t.link, tim := t.tim, wkt := t.wkt, outbox := t.outbox } := by
  obtain ⟨u, hu⟩ : ∃ u, u = (advanceTo s (s.wkt.wakeTick + s.rd WKT_WAKE_TIMER.seconds * secTicks)).wr WKT_WAKE_TIMER.seconds 0 := ⟨_, rfl⟩
  have hchanges : Changes [.now, .tim, .regs] (keys [WKT_WAKE_TIMER.seconds]) s u := by
    rw [hu]
    exact .after (changes_wr ..) (changes_advanceTo ..).mono
  have hcase : wakeTimer s = wake u 2 := by simp [wakeTimer, hdormant, hseconds, hu]
  have henabled' : wakeEnabled u 2 = true := by
    rw [wakeEnabled_timer, hchanges.rdb, henabled]
  have hzero : u.rd WKT_WAKE_TIMER.seconds = 0 := by rw [hu]; exact rd_wr_at _ _ _ _ _ rfl
  obtain ⟨hdormant', -, hstage, -, hsource, -, hleft, hparts⟩ := wake_meets u 2 (by decide) (by rw [hchanges.parts.boot_eq, hdormant]) henabled'
    (by rw [hchanges.parts.boot_eq, hhold]) (by rw [hchanges.parts.boot_eq, hwait])
  dsimp only
  rw [hcase]
  refine ⟨?_, hdormant', ?_, hstage, hsource, ?_⟩
  · rw [hparts.now_eq, hu, wr_now, advanceTo_now_max]
  · rw [hleft, hzero, Nat.zero_sub]; rfl
  · exact OnlyParts.after (ps := [.now, .regs, .boot, .safe, .link, .tim, .wkt, .outbox]) hparts (hchanges.parts.mono (by decide))

/-- Settles O11: power-down, and the two ways to wake. -/
theorem dormantAndWake : Obligations.DormantAndWake := by
  unfold Obligations.DormantAndWake
  refine ⟨?_, ?_, ?_, ?_⟩
  · intro s hup
    exact .intro rfl (pmeTurnOff_eq hup)
  · intro s t0 hcommit hwait
    exact .intro rfl (dormantPowerDown_meets s t0 hcommit hwait)
  · intro s source hdormant henabled hhold hwait
    obtain ⟨hdormant', hmode, hstage, hwake, hsource, hhost, -, hparts⟩ := wake_meets s source source.isLt hdormant henabled hhold hwait
    exact .intro rfl ⟨hdormant', hmode, hstage, hwake, hsource, hhost, hparts⟩
  · intro s hdormant hseconds henabled hhold hwait
    exact .intro rfl (wakeTimer_meets s hdormant hseconds henabled hhold hwait)

end Sys2Proof.Machine
end

section
set_option Elab.async false
/-! Settles the statement about the commands that begin what a pair does (15_command_set.md, 21_pair_operation.md). -/

namespace Sys2Proof.Machine

variable {s t t0 u : State} {ks : List Nat} {ps : List Part} {id op : Nat} {x : Track}

/-! ## A command whose entry alone changes, and the parts that its body changes -/

theorem over_eq (h : OnlyParts ps s t) : s.over ps t = t := Eq.symm h

/-- After `t0`, which differs from `s` in the entry of command `id`, the parts `ps` of the state change. -/
theorem OnlyTrack.after_parts (h : OnlyParts ps t0 t) (h0 : OnlyTrack id s t0) (hlink : Part.link ∉ ps := by decide) :
    OnlyTrack id (s.over ps t) t := by
  obtain ⟨hframe, hothers⟩ := h0
  have hl : t.link = t0.link := h.link_eq hlink
  have hl0 : t0.link = { s.link with tracks := t0.link.tracks } := congrArg State.link hframe
  have hover : (s.over ps t).link = s.link := if_neg hlink
  refine ⟨?_, ?_⟩
  · rw [hover, hl, ← hl0]
    conv_lhs => rw [h, hframe]
    unfold State.over
    simp only [hlink, if_false, hl, ← hl0]
  · rw [hover, hl, hothers]

theorem changes_startTrack (s : State) (id : Nat) : Changes [.link] [] s (startTrack s id) := changes_part rfl

/-- The entry of a command that has started. -/
def begun (s : State) (x : Track) : Track := { x with phase := .started, startTick := s.now }

theorem underWay_of_tracks (h : trackOf s id = some x) (ht : t.link.tracks = (startTrack s id).link.tracks) : underWay t id = true := by
  have htrack : trackOf t id = some (begun s x) := by
    refine Eq.trans ?_ (trackOf_startTrack h)
    unfold trackOf
    rw [ht]
  simp [underWay, htrack, begun]

theorem ended_finish_startTrack (h : trackOf s id = some x) (st : Status) (r r2 : Nat) :
    ended (finish (startTrack s id) id st r r2) id st = true :=
  ended_of_endedWith (endedWith_finish (trackOf_startTrack h) (by simp) st r r2)

theorem onlyTrack_finish_startTrack (st : Status) (r r2 : Nat) : OnlyTrack id s (finish (startTrack s id) id st r r2) :=
  onlyTrack_startTrack.trans (onlyTrack_finish st r r2)

theorem Startable.track (h : Startable s id op x) : trackOf s id = some x := h.1
theorem Startable.id_eq (h : Startable s id op x) : x.id = id := id_of_trackOf h.1

/-! ## Control blocks -/

/-- What a control block changes where the link is ACTIVE: it leaves, and its train is numbered. -/
theorem sendControl_meets (s : State) (note : Note) (hactive : pairActive s = true) :
    lastNote (sendControl s note) = some note ∧
    (sendControl s note).pair = { s.pair with txTrain := (sendControl s note).pair.txTrain, sentAt := (sendControl s note).pair.sentAt } := by
  unfold sendControl
  simp [hactive, lastNote, lastBlockSent]

theorem pairActive_congr (h : t.rd PRL_STATUS.link_state = s.rd PRL_STATUS.link_state) : pairActive t = pairActive s := by
  unfold pairActive
  rw [h]

/-! ## PAIR_FORM -/

/-- The device under PAIR_FORM `x`, before it announces its values. -/
def forming (s : State) (x : Track) (v : FormValues) : State :=
  State.wr { s with
    pair := { s.pair with forming := some { id := x.id, role := x.par 0x10 1, since := s.now, edge := none }, values := some v },
    boot := { s.boot with transition := some { dest := if x.par 0x10 1 = 0 then modeLead else modeShadow, id := x.id, ctx := 0, since := s.now } } }
    DEV_MODE.transition_busy 1

/-- The device's own values for PAIR_FORM `x`. -/
def ownValues (s : State) (x : Track) : FormValues :=
  formValues s (x.par 0x11 1 + x.par 0x12 1 * 2 + x.par 0x18 6 * 2 ^ 9 + x.par 0x10 1 * 2 ^ 63)

theorem changes_forming (s : State) (x : Track) (v : FormValues) :
    Changes [.pair, .boot, .regs] (keys [DEV_MODE.transition_busy]) s (forming s x v) := by
  unfold forming
  exact .after (changes_wr ..) (.after (changes_part (ps := [.pair, .boot]) rfl) .refl)

theorem formCompare_unheard (h : s.pair.heard = none) : formCompare s = s := by
  unfold formCompare
  rw [h]
  split
  · next hsome => cases hsome
  · rfl

theorem pairForm_eq (hmode : s.rd DEV_MODE.mode = modeRun) (hrole : x.par 0x10 1 ≤ 1) (hrel : x.par 0x11 1 ≤ 1)
    (htrans : transitioning s = false) (hactive : pairActive s = true) (hthermal : thermalLimit s = false) (hheard : s.pair.heard = none) :
    pairForm x s = sendControl (forming s x (ownValues s x)) (.form (ownValues s x)) := by
  have hsend : pairForm x s = formCompare (sendControl (forming s x (ownValues s x)) (.form (ownValues s x))) := by
    unfold pairForm
    dsimp only
    rw [if_neg (by simp [hmode]), if_neg (by omega), if_neg (by simp [htrans]), if_neg (by simp [hactive]), if_neg (by simp [hthermal])]
    rfl
  have hactive' : pairActive (forming s x (ownValues s x)) = true := by rw [pairActive_congr (changes_forming ..).rd, hactive]
  have hpair := (sendControl_meets (forming s x (ownValues s x)) (.form (ownValues s x)) hactive').2
  rw [hsend, formCompare_unheard]
  rw [hpair]
  exact hheard

theorem pairForm_meets (hs : Startable s id 0x50 x) (hmode : s.rd DEV_MODE.mode = modeRun) (hrole : x.par 0x10 1 ≤ 1) (hrel : x.par 0x11 1 ≤ 1)
    (htrans : transitioning s = false) (hactive : pairActive s = true) (hthermal : thermalLimit s = false) (hheard : s.pair.heard = none) :
    let t := pairForm x (startTrack s id)
    t.pair.forming = some { id := id, role := x.par 0x10 1, since := s.now, edge := none } ∧ t.pair.values.isSome = true ∧
    lastNote t = t.pair.values.map Note.form ∧
    t.boot = { s.boot with transition := some { dest := if x.par 0x10 1 = 0 then modeLead else modeShadow, id := id, ctx := 0, since := s.now } } ∧
    t.rd DEV_MODE.transition_busy = 1 ∧ underWay t id = true ∧ t.rd DEV_MODE.mode = modeRun ∧
    t.pair = { s.pair with forming := t.pair.forming, values := t.pair.values, txTrain := t.pair.txTrain, sentAt := t.pair.sentAt } ∧
    OnlyTrack id { s with boot := t.boot, regs := t.regs, pair := t.pair, outbox := t.outbox } t ∧
    SameRegs (keys [DEV_MODE.transition_busy]) s t := by
  have hstart := changes_startTrack s id
  have hcase := pairForm_eq (s := startTrack s id) (x := x) hmode hrole hrel htrans hactive hthermal hheard
  obtain ⟨v, hv⟩ : ∃ v, ownValues (startTrack s id) x = v := ⟨_, rfl⟩
  rw [hv] at hcase
  have hform : Changes [.pair, .boot, .regs] (keys [DEV_MODE.transition_busy]) (startTrack s id) (forming (startTrack s id) x v) := changes_forming ..
  have hactive' : pairActive (forming (startTrack s id) x v) = true := by
    rw [pairActive_congr (s := startTrack s id) hform.rd]; exact hactive
  obtain ⟨hnote, hpair⟩ := sendControl_meets (forming (startTrack s id) x v) (.form v) hactive'
  have hsend := changes_sendControl (forming (startTrack s id) x v) (.form v) 0 0 none false
  have hlast : Changes [.boot, .regs, .pair, .outbox] (keys [DEV_MODE.transition_busy]) (startTrack s id) (pairForm x (startTrack s id)) := by
    rw [hcase]
    exact .after hsend hform.mono
  have hid := hs.id_eq
  dsimp only
  refine ⟨?_, ?_, ?_, ?_, ?_, ?_, ?_, ?_, onlyTrack_startTrack.after_parts hlast.parts, hlast.sameRegs⟩
  · rw [hcase, hpair, ← hid]; rfl
  · rw [hcase, hpair]; rfl
  · rw [hcase, hnote, hpair]; rfl
  · rw [hcase, hsend.parts.boot_eq, ← hid]; rfl
  · rw [hcase, hsend.rd]; exact rd_wr_at _ _ _ _ _ rfl
  · exact underWay_of_tracks hs.track (by rw [hlast.parts.link_eq])
  · rw [hlast.rd]; exact hmode
  · rw [hcase, hpair]; rfl

theorem transitioning_parts (hpair : t.pair = s.pair) (hbusy : t.rd DEV_MODE.transition_busy = s.rd DEV_MODE.transition_busy) :
    transitioning t = transitioning s := by
  unfold transitioning State.rdb
  rw [hpair, hbusy]

theorem pairForm_linkDown (hs : Startable s id 0x50 x) (hmode : s.rd DEV_MODE.mode = modeRun) (hrole : x.par 0x10 1 ≤ 1)
    (hrel : x.par 0x11 1 ≤ 1) (htrans : transitioning s = false) (hactive : pairActive s = false) :
    pairForm x (startTrack s id) = finish (startTrack s id) id .pairLinkDown := by
  have hmode' : (startTrack s id).rd DEV_MODE.mode = modeRun := hmode
  have htrans' : transitioning (startTrack s id) = false := htrans
  have hactive' : pairActive (startTrack s id) = false := hactive
  unfold pairForm
  dsimp only
  rw [if_neg (by simp [hmode']), if_neg (by omega), if_neg (by simp [htrans']), if_pos (by simp [hactive']), hs.id_eq]

/-! ## PAIR_DISSOLVE -/

/-- The device under PAIR_DISSOLVE `x`, before it announces the frame boundary. -/
def dissolving (s : State) (x : Track) : State :=
  State.wr { s with
    pair := { s.pair with dissolve := some (some x.id, frameBoundary (counter s + 1)) },
    boot := { s.boot with transition := some { dest := modeRun, id := x.id, ctx := 0, since := s.now } } } DEV_MODE.transition_busy 1

theorem changes_dissolving (s : State) (x : Track) :
    Changes [.pair, .boot, .regs] (keys [DEV_MODE.transition_busy]) s (dissolving s x) := by
  unfold dissolving
  exact .after (changes_wr ..) (.after (changes_part (ps := [.pair, .boot]) rfl) .refl)

theorem paired_of_mode (h : s.rd DEV_MODE.mode = modeLead ∨ s.rd DEV_MODE.mode = modeShadow) : unpaired s = false := by
  unfold unpaired
  obtain h | h := h <;> rw [h] <;> decide

theorem pairDissolve_eq (hmode : s.rd DEV_MODE.mode = modeLead ∨ s.rd DEV_MODE.mode = modeShadow) (htrans : transitioning s = false) :
    pairDissolve x s = sendControl (dissolving s x) (.dissolve (frameBoundary (counter s + 1))) := by
  unfold pairDissolve
  rw [if_neg (by simp [paired_of_mode hmode]), if_neg (by simp [htrans])]
  rfl

theorem pairDissolve_meets (hs : Startable s id 0x51 x) (hmode : s.rd DEV_MODE.mode = modeLead ∨ s.rd DEV_MODE.mode = modeShadow)
    (htrans : transitioning s = false) (hactive : pairActive s = true) :
    let t := pairDissolve x (startTrack s id)
    t.pair.dissolve = some (some id, frameBoundary (counter s + 1)) ∧ lastNote t = some (.dissolve (frameBoundary (counter s + 1))) ∧
    t.boot = { s.boot with transition := some { dest := modeRun, id := id, ctx := 0, since := s.now } } ∧
    t.rd DEV_MODE.transition_busy = 1 ∧ underWay t id = true ∧
    t.pair = { s.pair with dissolve := t.pair.dissolve, txTrain := t.pair.txTrain, sentAt := t.pair.sentAt } ∧
    OnlyTrack id { s with boot := t.boot, regs := t.regs, pair := t.pair, outbox := t.outbox } t ∧
    SameRegs (keys [DEV_MODE.transition_busy]) s t := by
  have hcase := pairDissolve_eq (s := startTrack s id) (x := x) hmode htrans
  rw [counter_startTrack] at hcase
  have hform := changes_dissolving (startTrack s id) x
  have hactive' : pairActive (dissolving (startTrack s id) x) = true := by rw [pairActive_congr (s := startTrack s id) hform.rd]; exact hactive
  obtain ⟨hnote, hpair⟩ := sendControl_meets _ (.dissolve (frameBoundary (counter s + 1))) hactive'
  have hsend := changes_sendControl (dissolving (startTrack s id) x) (.dissolve (frameBoundary (counter s + 1))) 0 0 none false
  have hlast : Changes [.boot, .regs, .pair, .outbox] (keys [DEV_MODE.transition_busy]) (startTrack s id) (pairDissolve x (startTrack s id)) := by
    rw [hcase]
    exact .after hsend hform.mono
  have hid := hs.id_eq
  dsimp only
  refine ⟨?_, ?_, ?_, ?_, ?_, ?_, onlyTrack_startTrack.after_parts hlast.parts, hlast.sameRegs⟩
  · rw [hcase, hpair, ← hid]; rfl
  · rw [hcase, hnote]
  · rw [hcase, hsend.parts.boot_eq, ← hid]; rfl
  · rw [hcase, hsend.rd]; exact rd_wr_at _ _ _ _ _ rfl
  · exact underWay_of_tracks hs.track (by rw [hlast.parts.link_eq])
  · rw [hcase, hpair]; rfl

/-! ## PAIR_TAKEOVER and PAIR_COMMIT -/

/-- A command whose body sets a field of the pair and announces it. -/
theorem announced (hs : Startable s id op x) (hactive : pairActive s = true) (p : Pair) (note : Note) :
    let t := sendControl { startTrack s id with pair := p } note
    lastNote t = some note ∧ underWay t id = true ∧ t.pair = { p with txTrain := t.pair.txTrain, sentAt := t.pair.sentAt } ∧
    OnlyTrack id { s with pair := t.pair, outbox := t.outbox } t := by
  have hsend := changes_sendControl { startTrack s id with pair := p } note 0 0 none false
  have hlast : Changes [.pair, .outbox] [] (startTrack s id) (sendControl { startTrack s id with pair := p } note) :=
    .after hsend (changes_part (ps := [.pair, .outbox]) rfl)
  obtain ⟨hnote, hpair⟩ := sendControl_meets { startTrack s id with pair := p } note hactive
  exact ⟨hnote, underWay_of_tracks hs.track (by rw [hlast.parts.link_eq]), hpair, onlyTrack_startTrack.after_parts hlast.parts⟩

/-- The edge that PAIR_TAKEOVER `x` sets. -/
def commandEdge (s : State) (x : Track) : Nat := if (x.par 0x10 1).testBit 0 then frameBoundary (counter s + 1) else nextSymbol s

theorem pairTakeover_eq (hs : Startable s id 0x52 x) (hmode : s.rd DEV_MODE.mode = modeLead ∨ s.rd DEV_MODE.mode = modeShadow)
    (hactive : pairActive s = true) (hfit : s.rd PRL_STATUS.fit = 1) (hnone : s.pair.takeover = none) :
    pairTakeover x (startTrack s id) = sendControl
      { startTrack s id with pair := { s.pair with takeover := some { id := some id, edge := commandEdge s x, own := false } } }
      (.takeover (commandEdge s x)) := by
  have hpaired : unpaired (startTrack s id) = false := paired_of_mode (s := startTrack s id) hmode
  have hactive' : pairActive (startTrack s id) = true := hactive
  have hfit' : (startTrack s id).rdb PRL_STATUS.fit = true := by
    show (s.rd PRL_STATUS.fit == 1) = true
    rw [hfit]; rfl
  have hnone' : (startTrack s id).pair.takeover = none := hnone
  unfold pairTakeover
  rw [if_neg (by simp [hpaired]), if_neg (by simp [hactive']), if_neg (by simp [hfit']), if_neg (by simp [hnone']), hs.id_eq]
  rfl

/-- The change that PAIR_PREPARE `x` begins. -/
def preparing (s : State) (x : Track) : Prepared :=
  { id := x.id, change := x.par 0x10 4, tracks := [], own := false, partner := s.pair.partnerPrepared == some (x.par 0x10 4), applied := false }

theorem pairPrepare_eq (hs : Startable s id 0x53 x) (hmode : s.rd DEV_MODE.mode = modeLead ∨ s.rd DEV_MODE.mode = modeShadow)
    (hactive : pairActive s = true) (hchange : x.par 0x10 4 ≠ 0) (hcount : 1 ≤ x.par 0x14 1 ∧ x.par 0x14 1 ≤ 16) (halign : x.par 0x18 8 % 8 = 0)
    (hnone : s.pair.prepared = none) (hfailed : s.pair.partnerFailed = none) :
    pairPrepare x (startTrack s id) = readHost
      { startTrack s id with
        pair := { s.pair with prepared := some { preparing s x with id := id }, partnerPrepared := none, partnerFailed := none } }
      id (x.par 0x18 8) (64 * x.par 0x14 1) := by
  have hpaired : unpaired (startTrack s id) = false := paired_of_mode (s := startTrack s id) hmode
  have hactive' : pairActive (startTrack s id) = true := hactive
  have hnone' : (startTrack s id).pair.prepared = none := hnone
  have hfailed' : (startTrack s id).pair.partnerFailed = none := hfailed
  unfold pairPrepare
  dsimp only
  rw [if_neg (by simp [hpaired]), if_neg (by simp [hactive']), if_neg (by omega), if_neg (by simp [hnone']), hfailed']
  unfold pairPrepare.go
  rw [hs.id_eq]
  rfl

theorem pairPrepare_meets (hs : Startable s id 0x53 x) (p : Pair) (a n : Nat) :
    let t := readHost { startTrack s id with pair := p } id a n
    t.pair = p ∧ t.link.reads = s.link.reads ++ [{ id := id, addr := a, length := n, got := [], at_ := s.now }] ∧
    t.outbox = s.outbox ++ [.hostRead id a n] ∧ underWay t id = true ∧
    OnlyTrack id { s with link := { s.link with reads := t.link.reads }, pair := t.pair, outbox := t.outbox } t :=
  ⟨rfl, rfl, rfl, underWay_of_tracks hs.track rfl, rfl, (onlyTrack_startTrack (s := s) (id := id)).2⟩

theorem pairCommit_eq (hs : Startable s id 0x54 x) {p : Prepared} (hmode : s.rd DEV_MODE.mode = modeLead) (hactive : pairActive s = true)
    (habandon : x.par 0x14 1 ≤ 1) (hprepared : s.pair.prepared = some p) (hchange : p.change = x.par 0x10 4) (hown : p.own = true)
    (hpartner : p.partner = true) (hnone : s.pair.committing = none) :
    pairCommit x (startTrack s id) = sendControl
      { startTrack s id with
        pair := { s.pair with committing := some { id := some id, abandon := x.par 0x14 1 == 1, edge := frameBoundary (counter s + 1) } } }
      (.commit (x.par 0x10 4) (x.par 0x14 1 == 1) (frameBoundary (counter s + 1))) := by
  have hmode' : (startTrack s id).rd DEV_MODE.mode = modeLead := hmode
  have hpaired : unpaired (startTrack s id) = false := paired_of_mode (s := startTrack s id) (.inl hmode)
  have hactive' : pairActive (startTrack s id) = true := hactive
  have hany : (startTrack s id).pair.prepared.any (fun p => p.change == x.par 0x10 4 && p.own && p.partner) = true := by
    show s.pair.prepared.any _ = true
    rw [hprepared]
    simp [hchange, hown, hpartner]
  have hnone' : (startTrack s id).pair.committing = none := hnone
  unfold pairCommit
  dsimp only
  rw [if_neg (by rw [hmode']; decide), if_neg (by simp [hpaired]), if_neg (by simp [hactive']), if_neg (by simp only [hany]; simp; omega),
    if_neg (by simp [hnone']), hs.id_eq]
  rfl

theorem pairCommit_unpaired (hs : Startable s id 0x54 x) (hunpaired : unpaired s = true) :
    pairCommit x (startTrack s id) = finish (startTrack s id) id .pairNotFormed := by
  have hunpaired' : unpaired (startTrack s id) = true := hunpaired
  have hmode : (startTrack s id).rd DEV_MODE.mode ≠ modeShadow := by
    intro h
    rw [paired_of_mode (.inr h)] at hunpaired'
    cases hunpaired'
  unfold pairCommit
  dsimp only
  rw [if_neg hmode, if_pos hunpaired', hs.id_eq]

/-! ## Injection into the pair -/

/-- SAF_INJ_CFG with the fields of a write of `v`. -/
def injFields (v : Nat) (s : State) : State := (s.wr SAF_INJ_CFG.target (bits v 0 24)).wr SAF_INJ_CFG.variant (bits v 24 2)

theorem changes_injFields (v : Nat) (s : State) : Changes [.regs] (keys [SAF_INJ_CFG.target, SAF_INJ_CFG.variant]) s (injFields v s) :=
  .after (changes_wr ..) (.after (changes_wr ..) .refl)

theorem pairInject_eq (v : Word) (hinject : v.toNat.testBit 26 = true) : pairInject v s =
    if s.rd DEV_MODE.mode = modeShadow ∧ s.rd PRL_STATUS.fit = 1
    then { injFields v.toNat s with pair := { (injFields v.toNat s).pair with inject := true } }
    else (injFields v.toNat s).wr SAF_CTRL.refused 1 := by
  unfold pairInject injFields
  dsimp only
  rw [if_neg (by simp [hinject])]
  simp only [State.rdb, beq_iff_eq]

theorem pairInject_taken (v : Word) (hinject : v.toNat.testBit 26 = true) (hmode : s.rd DEV_MODE.mode = modeShadow)
    (hfit : s.rd PRL_STATUS.fit = 1) :
    let t := pairInject v s
    t.pair = { s.pair with inject := true } ∧ t.rd SAF_INJ_CFG.target = v.toNat % 2 ^ 24 ∧ t.rd SAF_INJ_CFG.variant = bits v.toNat 24 2 ∧
    t = { s with pair := t.pair, regs := t.regs } ∧ SameRegs (keys [SAF_INJ_CFG.target, SAF_INJ_CFG.variant]) s t := by
  have hfields := changes_injFields v.toNat s
  have htarget : (injFields v.toNat s).rd SAF_INJ_CFG.target = v.toNat % 2 ^ 24 := by
    unfold injFields
    rw [(changes_wr ..).rd]
    exact rd_wr_at _ _ _ _ _ (by simp [bits, SAF_INJ_CFG.target])
  have hvariant : (injFields v.toNat s).rd SAF_INJ_CFG.variant = bits v.toNat 24 2 :=
    rd_wr_at _ _ _ _ _ (by simp [bits, SAF_INJ_CFG.variant])
  dsimp only
  rw [pairInject_eq v hinject, if_pos ⟨hmode, hfit⟩]
  generalize injFields v.toNat s = f at *
  have hboth : OnlyParts [.pair, .regs] s { f with pair := { f.pair with inject := true } } :=
    .after (qs := [.pair]) rfl (hfields.parts.mono (by decide))
  exact ⟨by rw [hfields.parts.pair_eq], htarget, hvariant, hboth, hfields.sameRegs⟩

theorem pairInject_refused (v : Word) (hinject : v.toNat.testBit 26 = true)
    (hrefuse : s.rd DEV_MODE.mode ≠ modeShadow ∨ s.rd PRL_STATUS.fit ≠ 1) :
    let t := pairInject v s
    t.rd SAF_CTRL.refused = 1 ∧ OnlyRegs (keys [SAF_INJ_CFG.target, SAF_INJ_CFG.variant, SAF_CTRL.refused]) s t := by
  dsimp only
  rw [pairInject_eq v hinject, if_neg (by tauto)]
  exact ⟨rd_wr_at _ _ _ _ _ rfl, (Changes.after (changes_wr ..) (changes_injFields ..).mono).onlyRegs⟩

/-- Settles O53: the commands in the order of the statement. -/
theorem pairCommandsBegin : Obligations.PairCommandsBegin := by
  unfold Obligations.PairCommandsBegin
  refine ⟨?_, ?_, ?_, ?_, ?_, ?_, ?_, ?_, ?_⟩
  · intro s id u hs hmode hrole hrel htrans hactive hthermal hheard
    exact .intro (congrArg Host.Outcome.next (startCommand_of_startable hs _)) (pairForm_meets hs hmode hrole hrel htrans hactive hthermal hheard)
  · intro s id u hs hmode hrole hrel htrans hactive
    refine .intro (congrArg Host.Outcome.next (startCommand_of_startable hs _)) ?_
    rw [pairForm_linkDown hs hmode hrole hrel htrans hactive]
    exact ⟨ended_finish_startTrack hs.track .pairLinkDown 0 0, onlyTrack_finish_startTrack ..⟩
  · intro s id u hs hmode htrans hactive
    exact .intro (congrArg Host.Outcome.next (startCommand_of_startable hs _)) (pairDissolve_meets hs hmode htrans hactive)
  · intro s id u hs hmode hactive hfit hnone
    refine .intro (congrArg Host.Outcome.next (startCommand_of_startable hs _)) ?_
    rw [pairTakeover_eq hs hmode hactive hfit hnone]
    obtain ⟨hnote, hway, hpair, honly⟩ := announced hs hactive
      { s.pair with takeover := some { id := some id, edge := commandEdge s u, own := false } } (.takeover (commandEdge s u))
    exact ⟨by rw [hpair]; rfl, hnote, hway, by rw [hpair], honly⟩
  · intro s id u hs hmode hactive hchange hcount halign hnone hfailed
    refine .intro (congrArg Host.Outcome.next (startCommand_of_startable hs _)) ?_
    rw [pairPrepare_eq hs hmode hactive hchange hcount halign hnone hfailed]
    obtain ⟨hpair, hreads, houtbox, hway, honly⟩ := pairPrepare_meets hs { s.pair with
      prepared := some { preparing s u with id := id }, partnerPrepared := none, partnerFailed := none } (u.par 0x18 8) (64 * u.par 0x14 1)
    exact ⟨by rw [hpair, ← hfailed]; rfl, hreads, houtbox, hway, honly⟩
  · intro s id u p hs hmode hactive habandon hprepared hchange hown hpartner hnone
    refine .intro (congrArg Host.Outcome.next (startCommand_of_startable hs _)) ?_
    rw [pairCommit_eq hs hmode hactive habandon hprepared hchange hown hpartner hnone]
    obtain ⟨hnote, hway, hpair, honly⟩ := announced hs hactive
      { s.pair with committing := some { id := some id, abandon := u.par 0x14 1 == 1, edge := frameBoundary (counter s + 1) } }
      (.commit (u.par 0x10 4) (u.par 0x14 1 == 1) (frameBoundary (counter s + 1)))
    exact ⟨by rw [hpair], hnote, hway, by rw [hpair], honly⟩
  · intro s id u hs hunpaired
    refine .intro (congrArg Host.Outcome.next (startCommand_of_startable hs _)) ?_
    rw [pairCommit_unpaired hs hunpaired]
    exact ⟨ended_finish_startTrack hs.track .pairNotFormed 0 0, onlyTrack_finish_startTrack ..⟩
  · intro s v hup hmode hblock hinject hshadow hfit
    exact .intro (congrArg Host.Outcome.next (regWrite_reaches hup hmode hblock)) (pairInject_taken v hinject hshadow hfit)
  · intro s v hup hmode hblock hinject hrefuse
    exact .intro (congrArg Host.Outcome.next (regWrite_reaches hup hmode hblock)) (pairInject_refused v hinject hrefuse)

end Sys2Proof.Machine
end

section
set_option Elab.async false
/-! Settles the statement about enabling, disabling and locking encryption regions (10_inline_encryption.md). -/

namespace Sys2Proof.Machine

variable {s t u : State} {ks : List Nat}

theorem rdb_of_rd_zero {r : Row} {i j : Nat} (h : s.rd r i j = 0) : s.rdb r i j = false := by simp [State.rdb, h]
theorem rdb_of_rd_one {r : Row} {i j : Nat} (h : s.rd r i j = 1) : s.rdb r i j = true := by simp [State.rdb, h]

theorem val_ne_31 {n : Fin 32} (h : n ≠ 31) : n.val ≠ 31 := fun hv => h (Fin.ext hv)

/-- The mode and the key ID that a write of `v` to ENC_REGION_CFG stores. -/
def regionFields (s : State) (n v : Nat) : State := (s.wr ENC_REGION_CFG.mode (bits v 1 2) n).wr ENC_REGION_CFG.key_id (bits v 8 6) n

/-- The check that the region fails under the written mode and key ID; 0 where it passes (R252). -/
def regionCheck (s : State) (n v : Nat) : Nat :=
  regionError (regionFields s n v) n (bits v 1 2) (bits v 8 6) (bits v 3 5 != 0 || bits v 14 18 != 0)

/-- The fields stored and the outcome of the check shown. -/
def regionChecked (s : State) (n v : Nat) : State := (regionFields s n v).wr ENC_REGION_STATUS.error (regionCheck s n v) n

theorem bits_lt (v lo w : Nat) : bits v lo w < 2 ^ w := Nat.mod_lt _ (Nat.two_pow_pos w)

theorem regionError_lt (s : State) (n mode key : Nat) (reserved : Bool) : regionError s n mode key reserved < 8 := by
  unfold regionError
  dsimp only
  repeat' split
  all_goals decide

theorem changes_regionChecked (s : State) (n v : Nat) :
    Changes [.regs] (keys [ENC_REGION_CFG.mode, ENC_REGION_CFG.key_id, ENC_REGION_STATUS.error] n) s (regionChecked s n v) :=
  .after' (changes_wr ..) (.after' (changes_wr ..) (.after' (changes_wr ..) .refl))

theorem regionChecked_rd (s : State) (n : Fin 32) (v : Nat) :
    (regionChecked s n v).rd ENC_REGION_CFG.mode n = bits v 1 2 ∧ (regionChecked s n v).rd ENC_REGION_CFG.key_id n = bits v 8 6 ∧
    (regionChecked s n v).rd ENC_REGION_STATUS.error n = regionCheck s n v ∧
    (regionChecked s n v).rd ENC_REGION_CFG.enable n = s.rd ENC_REGION_CFG.enable n := by
  refine ⟨?_, ?_, rd_wr_at _ _ _ _ _ (Nat.mod_eq_of_lt (regionError_lt ..)), (changes_regionChecked ..).rdAt⟩
  · unfold regionChecked regionFields
    rw [(changes_wr ..).rdAt, (changes_wr ..).rdAt, rd_wr_same]; exact Nat.mod_eq_of_lt (bits_lt ..)
  · unfold regionChecked regionFields
    rw [(changes_wr ..).rdAt, rd_wr_same]; exact Nat.mod_eq_of_lt (bits_lt ..)

/-- Where neither the lock nor the region's own enable refuses, the fields are stored and the check decides. -/
theorem regionEnable_eq (s : State) (n : Fin 32) (v : Word) (h31 : n ≠ 31) (hlock : s.rd ENC_CTRL.lock = 0) (hoff : s.rd ENC_REGION_CFG.enable n = 0) :
    regionEnable n v s = if regionCheck s n v.toNat ≠ 0 then regionChecked s n v.toNat
      else if bits v.toNat 1 2 = moPlain
        then ((regionChecked s n v.toNat).wr ENC_REGION_CFG.enable 1 n).wr ENC_REGION_STATUS.state rsActive n
        else queueSweep (((regionChecked s n v.toNat).wr ENC_REGION_CFG.enable 1 n).wr ENC_REGION_STATUS.state rsInit n) n .init := by
  unfold regionEnable rgEnabled
  dsimp only
  rw [if_neg (by simp [rdb_of_rd_zero hlock, rdb_of_rd_zero hoff]), if_neg (val_ne_31 h31)]
  rfl

theorem regionEnable_plain (s : State) (n : Fin 32) (v : Word) (h31 : n ≠ 31) (hlock : s.rd ENC_CTRL.lock = 0) (hoff : s.rd ENC_REGION_CFG.enable n = 0)
    (hplain : bits v.toNat 1 2 = moPlain) (hcheck : regionCheck s n v.toNat = 0) :
    let t := regionEnable n v s
    t.rd ENC_REGION_CFG.enable n = 1 ∧ t.rd ENC_REGION_STATUS.state n = rsActive ∧ t.rd ENC_REGION_STATUS.error n = 0 ∧
    t.rd ENC_REGION_CFG.mode n = moPlain ∧ t.rd ENC_REGION_CFG.key_id n = bits v.toNat 8 6 ∧
    OnlyRegs (keys [ENC_REGION_CFG.mode, ENC_REGION_CFG.key_id, ENC_REGION_STATUS.error, ENC_REGION_CFG.enable, ENC_REGION_STATUS.state] n)
      s t := by
  obtain ⟨hmode, hkey, herror, -⟩ := regionChecked_rd s n v.toNat
  dsimp only
  rw [regionEnable_eq s n v h31 hlock hoff, if_neg (by simp [hcheck]), if_pos hplain]
  refine ⟨?_, rd_wr_at _ _ _ _ _ rfl, ?_, ?_, ?_,
    (Changes.after' (changes_wr ..) (.after' (changes_wr ..) (.after' (changes_regionChecked ..) .refl))).onlyRegs⟩
  · rw [(changes_wr ..).rdAt]; exact rd_wr_at _ _ _ _ _ rfl
  · rw [(changes_wr ..).rdAt, (changes_wr ..).rdAt, herror, hcheck]
  · rw [(changes_wr ..).rdAt, (changes_wr ..).rdAt, hmode, hplain]
  · rw [(changes_wr ..).rdAt, (changes_wr ..).rdAt, hkey]

theorem regionEnable_failed (s : State) (n : Fin 32) (v : Word) (h31 : n ≠ 31) (hlock : s.rd ENC_CTRL.lock = 0) (hoff : s.rd ENC_REGION_CFG.enable n = 0)
    (hcheck : regionCheck s n v.toNat ≠ 0) :
    let t := regionEnable n v s
    t.rd ENC_REGION_CFG.enable n = 0 ∧ t.rd ENC_REGION_STATUS.error n = regionCheck s n v.toNat ∧ t.enc = s.enc ∧
    OnlyRegs (keys [ENC_REGION_CFG.mode, ENC_REGION_CFG.key_id, ENC_REGION_STATUS.error] n) s t := by
  obtain ⟨-, -, herror, henable⟩ := regionChecked_rd s n v.toNat
  dsimp only
  rw [regionEnable_eq s n v h31 hlock hoff, if_pos hcheck]
  exact ⟨henable.trans hoff, herror, rfl, (changes_regionChecked ..).onlyRegs⟩

theorem regionEnable_refused (s : State) (n : Fin 32) (v : Word) (h : s.rd ENC_CTRL.lock = 1 ∨ s.rd ENC_REGION_CFG.enable n = 1) :
    (regionEnable n v s).rd ENC_STATUS.refused = 1 ∧ OnlyRegs (keys [ENC_STATUS.refused]) s (regionEnable n v s) := by
  have hcase : regionEnable n v s = s.wr ENC_STATUS.refused 1 := if_pos (h.imp rdb_of_rd_one rdb_of_rd_one)
  rw [hcase]
  exact ⟨rd_wr_at _ _ _ _ _ rfl, (changes_wr ..).onlyRegs⟩

/-! ## The sweep of an encrypted region -/

/-- The initialisation sweep that enabling region `n` queues. -/
def initSweep (s : State) (n : Nat) : Sweep :=
  { region := n, kind := .init, oldKey := rgKey s n, oldEpoch := s.rd ENC_REGION_EPOCH.epoch n, due := s.now }

/-- The sweep of region `n` is the only one and has begun. -/
def sweepBegun (s : State) (n : Nat) : State :=
  (({ s with enc := { s.enc with sweeps := [initSweep s n] } } : State).wr ENC_REGION_PROGRESS.line 0 n).wr ENC_REGION_EPOCH.epoch 0 n

theorem queueSweep_eq (s : State) (n : Nat) (hnone : s.enc.sweeps = []) : queueSweep s n .init = showSweeps (sweepBegun s n) := by
  unfold queueSweep
  simp only [hnone]
  rfl

/-- Each region shows whether a sweep of it waits among `q`. -/
def showQueued (s : State) (q : List Sweep) : State :=
  (List.range 32).foldl (fun s n => s.wrb ENC_REGION_STATUS.sweep_queued (q.any fun w => w.region == n) n) s

theorem changes_showQueued (s : State) (q : List Sweep) : Changes [.regs] (allKeys [ENC_REGION_STATUS.sweep_queued] 32) s (showQueued s q) :=
  changes_foldl_mem (fun _ _ hm => (changes_wrb ..).mono (hk := by
    simpa using key_mem_allKeys List.mem_cons_self (List.mem_range.mp hm))) .refl

/-- One sweep and none behind it. -/
theorem showSweeps_eq (s : State) (w : Sweep) (h : s.enc.sweeps = [w]) :
    showSweeps s = showQueued (((s.wrb ENC_STATUS.sweep_busy true).wr ENC_STATUS.sweeps_queued 0).wr ENC_STATUS.sweep_region w.region) [] := by
  unfold showSweeps
  simp only [h]
  rfl

theorem changes_sweepBegun (s : State) (n : Nat) :
    Changes [.regs, .enc] (keys [ENC_REGION_PROGRESS.line, ENC_REGION_EPOCH.epoch] n) s (sweepBegun s n) :=
  .after' (changes_wr ..) (.after' (changes_wr ..) (.after' (changes_part (ps := [.enc]) rfl) .refl))

/-- The fields that the start of the first sweep of region `n` changes. -/
def sweepKeys (n : Nat) : List Nat :=
  keys [ENC_REGION_PROGRESS.line, ENC_REGION_EPOCH.epoch] n ++
    keys [ENC_STATUS.sweep_busy, ENC_STATUS.sweeps_queued, ENC_STATUS.sweep_region] ++ allKeys [ENC_REGION_STATUS.sweep_queued] 32

theorem queueSweep_meets (s : State) (n : Fin 32) (hnone : s.enc.sweeps = []) :
    let t := queueSweep s n .init
    t.rd ENC_REGION_PROGRESS.line n = 0 ∧ t.rd ENC_REGION_EPOCH.epoch n = 0 ∧ t.rd ENC_STATUS.sweep_busy = 1 ∧
    t.rd ENC_STATUS.sweep_region = n ∧ t.enc = { s.enc with sweeps := [initSweep s n] } ∧ Changes [.regs, .enc] (sweepKeys n) s t := by
  have hbegun := changes_sweepBegun s n
  have hbusy : Changes [.regs] (keys [ENC_STATUS.sweep_busy, ENC_STATUS.sweeps_queued, ENC_STATUS.sweep_region]) (sweepBegun s n)
      ((((sweepBegun s n).wrb ENC_STATUS.sweep_busy true).wr ENC_STATUS.sweeps_queued 0).wr ENC_STATUS.sweep_region n) :=
    .after (changes_wr ..) (.after (changes_wr ..) (.after (changes_wrb ..) .refl))
  have hshow := Changes.after' (ps := [.regs]) (ks := keys [ENC_STATUS.sweep_busy, ENC_STATUS.sweeps_queued, ENC_STATUS.sweep_region] ++
    allKeys [ENC_REGION_STATUS.sweep_queued] 32) (changes_showQueued _ []) (.after' hbusy .refl)
  dsimp only
  rw [queueSweep_eq s n hnone, showSweeps_eq _ (initSweep s n) rfl, show (initSweep s n).region = n from rfl]
  refine ⟨?_, ?_, ?_, ?_, hshow.parts.enc_eq, ?_⟩
  · rw [hshow.rdAt]; unfold sweepBegun; rw [(changes_wr ..).rdAt]; exact rd_wr_at _ _ _ _ _ rfl
  · rw [hshow.rdAt]; exact rd_wr_at _ _ _ _ _ rfl
  · rw [(changes_showQueued ..).rd, (changes_wr ..).rd, (changes_wr ..).rd]; exact rd_wrb_same _ _ _ _ _ (Nat.le_refl 1)
  · rw [(changes_showQueued ..).rd]; exact rd_wr_at _ _ _ _ _ (Nat.mod_eq_of_lt n.isLt)
  · exact .after' hshow (.after' hbegun .refl (hk := by simp +contextual [keys, sweepKeys])) (hk := by simp +contextual [keys, sweepKeys])

theorem regionEnable_encrypted (s : State) (n : Fin 32) (v : Word) (h31 : n ≠ 31) (hlock : s.rd ENC_CTRL.lock = 0)
    (hoff : s.rd ENC_REGION_CFG.enable n = 0) (hmode : bits v.toNat 1 2 ≠ moPlain) (hnone : s.enc.sweeps = [])
    (hcheck : regionCheck s n v.toNat = 0) :
    let t := regionEnable n v s
    t.rd ENC_REGION_CFG.enable n = 1 ∧ t.rd ENC_REGION_STATUS.state n = rsInit ∧ t.rd ENC_REGION_PROGRESS.line n = 0 ∧
    t.rd ENC_REGION_EPOCH.epoch n = 0 ∧ t.rd ENC_STATUS.sweep_busy = 1 ∧ t.rd ENC_STATUS.sweep_region = n ∧
    t.enc.sweeps.map (fun w => (w.region, w.kind)) = [((n : Nat), .init)] ∧
    t = { s with regs := t.regs, enc := { s.enc with sweeps := t.enc.sweeps } } ∧
    SameRegs (keys [ENC_REGION_CFG.mode, ENC_REGION_CFG.key_id, ENC_REGION_STATUS.error, ENC_REGION_CFG.enable, ENC_REGION_STATUS.state] n ++
      keys [ENC_REGION_PROGRESS.line, ENC_REGION_EPOCH.epoch] n ++
      keys [ENC_STATUS.sweep_busy, ENC_STATUS.sweeps_queued, ENC_STATUS.sweep_region] ++ allKeys [ENC_REGION_STATUS.sweep_queued] 32) s t := by
  have henabled : Changes [.regs] (keys [ENC_REGION_CFG.mode, ENC_REGION_CFG.key_id, ENC_REGION_STATUS.error, ENC_REGION_CFG.enable,
      ENC_REGION_STATUS.state] n) s (((regionChecked s n v.toNat).wr ENC_REGION_CFG.enable 1 n).wr ENC_REGION_STATUS.state rsInit n) :=
    .after' (changes_wr ..) (.after' (changes_wr ..) (.after' (changes_regionChecked ..) .refl))
  have hcase : regionEnable n v s =
      queueSweep (((regionChecked s n v.toNat).wr ENC_REGION_CFG.enable 1 n).wr ENC_REGION_STATUS.state rsInit n) n .init := by
    rw [regionEnable_eq s n v h31 hlock hoff, if_neg (by simp [hcheck]), if_neg hmode]
  have henable : (((regionChecked s n v.toNat).wr ENC_REGION_CFG.enable 1 n).wr ENC_REGION_STATUS.state rsInit n).rd ENC_REGION_CFG.enable n = 1 := by
    rw [(changes_wr ..).rdAt]; exact rd_wr_at _ _ _ _ _ rfl
  have hstate : (((regionChecked s n v.toNat).wr ENC_REGION_CFG.enable 1 n).wr ENC_REGION_STATUS.state rsInit n).rd ENC_REGION_STATUS.state n =
      rsInit := rd_wr_at _ _ _ _ _ rfl
  generalize ((regionChecked s n v.toNat).wr ENC_REGION_CFG.enable 1 n).wr ENC_REGION_STATUS.state rsInit n = u at henabled hcase henable hstate
  have henc : u.enc = s.enc := henabled.parts.enc_eq
  obtain ⟨hline, hepoch, hbusy, hregion, hsweep, hchanges⟩ := queueSweep_meets u n (by rw [henc]; exact hnone)
  dsimp only
  rw [hcase]
  generalize queueSweep u n .init = t at *
  have hsweeps : t.enc = { s.enc with sweeps := t.enc.sweeps } := by rw [hsweep, henc]
  have hall : Changes [.regs, .enc] (keys [ENC_REGION_CFG.mode, ENC_REGION_CFG.key_id, ENC_REGION_STATUS.error, ENC_REGION_CFG.enable,
      ENC_REGION_STATUS.state] n ++ sweepKeys n) s t := .after' hchanges (.after' henabled .refl)
  refine ⟨?_, ?_, hline, hepoch, hbusy, hregion, by rw [hsweep]; rfl, ?_, ?_⟩
  · rw [hchanges.rdAt, henable]
  · rw [hchanges.rdAt, hstate]
  · rw [← hsweeps]; exact hall.parts
  · simpa [sweepKeys] using hall.sameRegs

theorem regionDisable_free (s : State) (n : Fin 32) (v : Word) (h31 : n ≠ 31) (hlock : s.rd ENC_CTRL.lock = 0)
    (hon : s.rd ENC_REGION_CFG.enable n = 1) (hfree : hasSweep s n = false) :
    let t := regionDisable n v s
    t.rd ENC_REGION_CFG.enable n = 0 ∧ t.rd ENC_REGION_STATUS.state n = rsDisabled ∧
    t = { s with regs := t.regs, enc := { s.enc with cache := (keepMeta s n).enc.cache } } ∧
    SameRegs (keys [ENC_REGION_CFG.enable, ENC_REGION_STATUS.state] n) s t := by
  have hcase : regionDisable n v s = ((keepMeta s n).wr ENC_REGION_CFG.enable 0 n).wr ENC_REGION_STATUS.state rsDisabled n := by
    unfold regionDisable rgEnabled
    rw [if_neg (by simp [rdb_of_rd_zero hlock, hfree, val_ne_31 h31]), if_neg (val_ne_31 h31), if_pos (rdb_of_rd_one hon)]
  dsimp only
  rw [hcase]
  refine ⟨?_, rd_wr_at _ _ _ _ _ rfl, rfl,
    (Changes.after' (changes_wr ..) (.after' (changes_wr ..) (.after' (changes_keepMeta s n) .refl (ps := [.regs, .enc])))).sameRegs⟩
  rw [(changes_wr ..).rdAt]
  exact rd_wr_at _ _ _ _ _ rfl

theorem regionDisable_refused (s : State) (n : Fin 32) (v : Word)
    (hon : s.rd ENC_REGION_CFG.enable n = 1) (hbusy : hasSweep s n = true) :
    (regionDisable n v s).rd ENC_STATUS.refused = 1 ∧ OnlyRegs (keys [ENC_STATUS.refused]) s (regionDisable n v s) := by
  have hcase : regionDisable n v s = s.wr ENC_STATUS.refused 1 := if_pos (.inr ⟨rdb_of_rd_one hon, .inl hbusy⟩)
  rw [hcase]
  exact ⟨rd_wr_at _ _ _ _ _ rfl, (changes_wr ..).onlyRegs⟩

theorem encBlock_answers (s : State) (off : Nat) (hcore : s.boot.coreUp = true) (hoff : coreBlock off = true) : blockAnswers s off = true := by
  unfold blockAnswers
  rw [if_pos hoff, hcore]

/-- Settles O31: the branches of the two writes, and the first sweep that an encrypted region queues. -/
theorem regionsAreConfigured : Obligations.RegionsAreConfigured := by
  unfold Obligations.RegionsAreConfigured
  have hreach : ∀ (s : State) (n : Fin 32) (f : State → State), s.link.up = true → s.rd DEV_MODE.mode ≠ 0 → s.boot.coreUp = true →
      regWrite (ENC_REGION_CFG.enable.offset n 0) s f = f s := fun s n f hup hmode hcore =>
    regWrite_reaches hup hmode (encBlock_answers s _ hcore (by clear * -; decide +revert))
  refine ⟨?_, ?_, ?_, ?_, ?_, ?_, ?_⟩
  · intro s n v hup hmode hcore h31 hlock hoff hplain hcheck
    exact .intro (congrArg Host.Outcome.next (hreach s n _ hup hmode hcore)) (regionEnable_plain s n v h31 hlock hoff hplain hcheck)
  · intro s n v hup hmode hcore h31 hlock hoff hcrypt hnone hcheck
    exact .intro (congrArg Host.Outcome.next (hreach s n _ hup hmode hcore)) (regionEnable_encrypted s n v h31 hlock hoff hcrypt hnone hcheck)
  · intro s n v hup hmode hcore h31 hlock hoff hcheck
    exact .intro (congrArg Host.Outcome.next (hreach s n _ hup hmode hcore)) (regionEnable_failed s n v h31 hlock hoff hcheck)
  · intro s n v hup hmode hcore h31 hrefused
    exact .intro (congrArg Host.Outcome.next (hreach s n _ hup hmode hcore)) (regionEnable_refused s n v hrefused)
  · intro s n v hup hmode hcore h31 hlock hon hfree
    exact .intro (congrArg Host.Outcome.next (hreach s n _ hup hmode hcore)) (regionDisable_free s n v h31 hlock hon hfree)
  · intro s n v hup hmode hcore h31 _ hon hbusy
    exact .intro (congrArg Host.Outcome.next (hreach s n _ hup hmode hcore)) (regionDisable_refused s n v hon hbusy)
  · intro s hup hmode hcore
    exact .intro (congrArg Host.Outcome.next (regWrite_reaches hup hmode (encBlock_answers s _ hcore (by decide))))
      ⟨rd_wr_at _ _ _ _ _ rfl, (changes_wr ..).onlyRegs⟩

end Sys2Proof.Machine
end

section
set_option Elab.async false
/-! Settles the statement about the context commands and MODE_SET (04_contexts.md, 15_command_set.md). -/

namespace Sys2Proof.Machine

variable {s t u : State} {id op : Nat} {x : Track}

theorem trackOf_congr (h : t.link.tracks = s.link.tracks) (id : Nat) : trackOf t id = trackOf s id := by
  unfold trackOf
  rw [h]

/-- A command whose number is not that of a prepared change commits at its commit point. -/
theorem reachCommit_eq (h : x.pair = none) (k : State → State) : reachCommit s x k = k (commit s x.id) := by
  unfold reachCommit
  rw [if_neg (by simp [h])]

theorem Startable.unprepared (h : Startable s id op x) : x.pair = none := h.2.2.2.2.2

/-! ## What a staged set shows -/

/-- The fields that show the pending repairs. -/
def repairKeys : List Nat := keys [INT_STATUS.repair_queue, INT_STATUS.lost_frames] ++ allKeys [CFG_CTX_STATUS.repairs_pending] 8

/-- The fields that show which contexts the latch sets hold, and the retained store. -/
def shownKeys : List Nat :=
  keys [CFG_RETAIN_STATUS.free_mib] ++
    allKeys [CFG_CTX_STATUS.in_active, CFG_CTX_STATUS.in_staged, CFG_CTX_STATUS.writeback_pending] 8

theorem changes_showRepairs (s : State) : Changes [.regs] repairKeys s (showRepairs s) := by
  refine changes_foldl_mem (fun _ n hn => (changes_wr ..).mono (hk := ?_)) ?_
  · simpa [repairKeys] using Or.inr (key_mem_allKeys List.mem_cons_self (List.mem_range.mp hn))
  · exact .after (changes_wr ..) (.after (changes_wr ..) .refl)

theorem changes_mapRepairs (s : State) (f : Repair → Option Repair) : Changes [.regs, .integ] repairKeys s (mapRepairs s f) :=
  .after (changes_showRepairs _) (.after (changes_part (ps := [.integ]) rfl) .refl)

theorem changes_mapLost (s : State) (f : Repair → Option Repair) : Changes [.regs, .integ] repairKeys s (mapLost s f) :=
  .after (changes_showRepairs _) (.after (changes_part (ps := [.integ]) rfl) .refl)

theorem changes_showLatches (s : State) : Changes [.regs] shownKeys s (showLatches s) := by
  have hkey : ∀ r ∈ [CFG_CTX_STATUS.in_active, CFG_CTX_STATUS.in_staged, CFG_CTX_STATUS.writeback_pending], ∀ n ∈ List.range 8,
      [r.key n 0] ⊆ shownKeys := fun r hr n hn => by
    simpa [shownKeys] using Or.inr (key_mem_allKeys hr (List.mem_range.mp hn))
  exact changes_foldl_mem (fun _ n hn => .after (changes_wrb ..) (.after (changes_wrb ..) (.after (changes_wrb ..) .refl
    (hk := hkey _ (by simp) n hn)) (hk := hkey _ (by simp) n hn)) (hk := hkey _ (by simp) n hn)) .refl

theorem changes_setStaged (s : State) (st c : Nat) :
    Changes [.regs, .tiles, .imgs] (shownKeys ++ keys [CFG_LATCH_STATUS.staged_state, CFG_LATCH_STATUS.staged_ctx]) s (setStaged s st c) :=
  .after (changes_dropOldChains _) (.after (changes_showLatches _) (.after (changes_wr ..) (.after (changes_wr ..) .refl)))

theorem setStaged_rd (s : State) (st c : Nat) :
    (setStaged s st c).rd CFG_LATCH_STATUS.staged_state = st % 2 ^ CFG_LATCH_STATUS.staged_state.width ∧
    (setStaged s st c).rd CFG_LATCH_STATUS.staged_ctx = c % 2 ^ CFG_LATCH_STATUS.staged_ctx.width := by
  have hshow : ∀ t : State, Changes [.regs, .tiles, .imgs] shownKeys t (dropOldChains (showLatches t)) :=
    fun t => .after (changes_dropOldChains _) (.after (changes_showLatches _) .refl)
  unfold setStaged
  rw [(hshow _).rd, (hshow _).rd, (changes_wr ..).rd]
  exact ⟨rd_wr_same .., rd_wr_same ..⟩

/-! ## What old versions leave behind -/

theorem sparseFind_mapValues {α β : Type} (m : Sparse α) (g : Nat → α → β) (n : Nat) :
    sparseFind (m.map fun p => (p.1, g p.1 p.2)) n = (sparseFind m n).map (g n) := by
  induction m with
  | nil => rfl
  | cons e m ih =>
    obtain ⟨k, v⟩ := e
    by_cases hk : k = n
    · subst hk; simp [sparseFind]
    · simp [sparseFind, hk, ih]

/-- Tiles and contexts differ at most in what they keep of old versions. -/
structure KeepsContent (s t : State) : Prop where
  tiles : ∀ i, tileOf t i = { tileOf s i with oldRanges := (tileOf t i).oldRanges }
  images : t.imgs.ctx.map (fun p => (p.1, p.2.chain, p.2.digest, p.2.keyMask)) = s.imgs.ctx.map (fun p => (p.1, p.2.chain, p.2.digest, p.2.keyMask))
  imgs : t.imgs = { s.imgs with ctx := t.imgs.ctx }

theorem KeepsContent.of_eq (htiles : t.tiles = s.tiles) (himgs : t.imgs = s.imgs) : KeepsContent s t :=
  ⟨fun i => by simp [tileOf, htiles], by rw [himgs], by rw [himgs]⟩

theorem KeepsContent.trans (h : KeepsContent s t) (h' : KeepsContent t u) : KeepsContent s u :=
  ⟨fun i => by rw [h'.tiles i, h.tiles i], h'.images.trans h.images, by rw [h'.imgs, h.imgs]⟩

theorem KeepsContent.committed (h : KeepsContent s t) (c : Nat) : committed t c = committed s c := by
  have hfind : ∀ m : Sparse CtxImage, (sparseFind m c).isSome =
      (sparseFind (m.map fun p => (p.1, p.2.chain, p.2.digest, p.2.keyMask)) c).isSome := fun m => by
    rw [sparseFind_mapValues m (fun _ v => (v.chain, v.digest, v.keyMask)) c, Option.isSome_map]
  unfold Machine.committed
  rw [hfind, h.images, ← hfind]

theorem KeepsContent.of_maps {f : Tile → Sparse (Nat × Nat)} {g : Nat × CtxImage → Nat × CtxImage}
    (htiles : t.tiles = s.tiles.map fun p => (p.1, { p.2 with oldRanges := f p.2 })) (himgs : t.imgs = { s.imgs with ctx := s.imgs.ctx.map g })
    (hg : ∀ p, ((g p).1, (g p).2.chain, (g p).2.digest, (g p).2.keyMask) = (p.1, p.2.chain, p.2.digest, p.2.keyMask)) : KeepsContent s t := by
  have hfind : ∀ i, sparseFind t.tiles i = (sparseFind s.tiles i).map fun x => { x with oldRanges := f x } := fun i => by
    rw [htiles]
    exact sparseFind_mapValues s.tiles (fun _ x => { x with oldRanges := f x }) i
  refine ⟨fun i => ?_, ?_, by rw [himgs]⟩
  · unfold tileOf sparseGet
    rw [hfind]
    cases sparseFind s.tiles i <;> rfl
  · rw [himgs, List.map_map]
    exact List.map_congr_left fun p _ => hg p

theorem dropOldChains_keepsContent (s : State) : KeepsContent s (dropOldChains s) := by
  unfold dropOldChains
  dsimp only
  split <;> exact .of_maps (f := fun x => x.oldRanges.filter fun r => holdsOld s r.1) rfl rfl fun _ => rfl

theorem setStaged_keepsContent (s : State) (st c : Nat) : KeepsContent s (setStaged s st c) := by
  have hshow := (changes_showLatches ((s.wr CFG_LATCH_STATUS.staged_state st).wr CFG_LATCH_STATUS.staged_ctx c)).parts
  have hshown : KeepsContent s (showLatches ((s.wr CFG_LATCH_STATUS.staged_state st).wr CFG_LATCH_STATUS.staged_ctx c)) :=
    .of_eq hshow.tiles_eq hshow.imgs_eq
  exact hshown.trans (dropOldChains_keepsContent _)

/-! ## Stagings that begin -/

/-- The fields that a staging's start changes. -/
def stagingKeys : List Nat :=
  keys [CFG_LATCH_STATUS.frames_staged, CFG_LATCH_STATUS.staged_state, CFG_LATCH_STATUS.staged_ctx] ++ shownKeys ++ repairKeys

/-- The staged set has begun to take context `c`. -/
def stagedFor (s : State) (c : Nat) : State := setStaged (s.wr CFG_LATCH_STATUS.frames_staged 0) stStaging c

theorem changes_stagedFor (s : State) (c : Nat) : Changes [.regs, .tiles, .imgs] stagingKeys s (stagedFor s c) :=
  .after (changes_setStaged ..) (.after (changes_wr ..) .refl)

theorem dropStagedRepairs_integ (h : s.integ.queue = []) : (dropStagedRepairs s).integ = s.integ := by
  have hsame : ({ s.integ with queue := s.integ.queue.filterMap fun r => if r.latch && r.staged then none else some r } : Integ) = s.integ := by
    rw [h]
    conv_rhs => rw [← show ({ s.integ with queue := [] } : Integ) = s.integ by rw [← h]]
    rfl
  unfold dropStagedRepairs mapRepairs
  rw [(changes_showRepairs _).parts.integ_eq]
  exact hsame

theorem OnlyParts.of_integ_eq {ps : List Part} (h : OnlyParts (.integ :: ps) s t) (he : t.integ = s.integ) : OnlyParts ps s t := by
  refine Eq.trans (b := s.over (.integ :: ps) t) h ?_
  unfold State.over
  congr 1
  all_goals simp [he]

/-- A staging of context `c`, owned by `o`, is noted as in progress. -/
def withStaging (s : State) (c : Nat) (o : StageOwner) (now : Nat) : State :=
  { s with ctxs := { s.ctxs with staging := some { ctx := c, start := now, owner := o, oldPlane := false }, refused := false } }

theorem startStaging_eq (s : State) (c : Nat) (o : StageOwner) : startStaging s c o = withStaging (dropStagedRepairs (stagedFor s c)) c o s.now := rfl

theorem changes_dropStagedRepairs (s : State) (hqueue : s.integ.queue = []) : Changes [.regs] repairKeys s (dropStagedRepairs s) := by
  have hdrop := changes_mapRepairs s fun r => if r.latch && r.staged then none else some r
  exact ⟨(hdrop.parts.mono (by decide)).of_integ_eq (dropStagedRepairs_integ hqueue), hdrop.sameRegs⟩

theorem changes_withStaging (s : State) (c : Nat) (o : StageOwner) (now : Nat) : Changes [.ctxs] [] s (withStaging s c o now) := changes_part rfl

theorem startStaging_meets (s : State) (c : Nat) (hc : c < 8) (o : StageOwner) (hqueue : s.integ.queue = []) :
    let t := startStaging s c o
    t.ctxs = { s.ctxs with staging := some { ctx := c, start := s.now, owner := o, oldPlane := false }, refused := false } ∧
    t.rd CFG_LATCH_STATUS.staged_state = stStaging ∧ t.rd CFG_LATCH_STATUS.staged_ctx = c ∧ t.rd CFG_LATCH_STATUS.frames_staged = 0 ∧
    KeepsContent s t ∧ Changes [.regs, .ctxs, .tiles, .imgs] stagingKeys s t := by
  have hstaged := changes_stagedFor s c
  have hdropped := changes_dropStagedRepairs (stagedFor s c) (by rw [hstaged.parts.integ_eq]; exact hqueue)
  have hlast := Changes.after (changes_withStaging (dropStagedRepairs (stagedFor s c)) c o s.now)
    (.after hdropped (.refl (ps := [.regs, .ctxs]) (ks := repairKeys)))
  have hwr : KeepsContent s (s.wr CFG_LATCH_STATUS.frames_staged 0) := .of_eq rfl rfl
  have hcontent : KeepsContent s (stagedFor s c) := hwr.trans (setStaged_keepsContent _ stStaging c)
  obtain ⟨hstate, hctx⟩ := setStaged_rd (s.wr CFG_LATCH_STATUS.frames_staged 0) stStaging c
  dsimp only
  rw [startStaging_eq]
  refine ⟨?_, ?_, ?_, ?_, hcontent.trans (.of_eq hlast.parts.tiles_eq hlast.parts.imgs_eq), .after hlast (.after hstaged .refl)⟩
  · unfold withStaging
    rw [hdropped.parts.ctxs_eq, hstaged.parts.ctxs_eq]
  · rw [hlast.rd]; exact hstate
  · rw [hlast.rd]; exact hctx.trans (Nat.mod_eq_of_lt hc)
  · rw [hlast.rd]
    unfold stagedFor
    rw [(changes_setStaged ..).rd]
    exact rd_wr_at _ _ _ _ _ rfl

theorem contextStage_eq (hctx : x.par 0x10 1 ≤ 7) (hrun : running s = false) (hidle : s.ctxs.staging = none) (harmed : s.ctxs.armed = none)
    (hready : ¬ (stagedState s = stReady ∧ stagedCtx s = x.par 0x10 1)) (hcommitted : committed s (x.par 0x10 1) = true)
    (hswept : s.boot.d3Unswept = false) (hopen : dieOpen s 2 = true) :
    contextStage x s = startStaging s (x.par 0x10 1) (.command x.id) := by
  have hrefusal : stagingRefusal s (x.par 0x10 1) = none := by simp [stagingRefusal, hcommitted, hswept, hopen]
  unfold contextStage
  dsimp only
  rw [if_neg (by omega), if_neg (by simp [stageBusy, hrun, hidle, harmed]), if_neg (by tauto), hrefusal]

theorem contextStage_meets (hs : Startable s id 0x12 x) (hctx : x.par 0x10 1 ≤ 7) (hrun : running s = false) (hidle : s.ctxs.staging = none)
    (harmed : s.ctxs.armed = none) (hready : ¬ (stagedState s = stReady ∧ stagedCtx s = x.par 0x10 1))
    (hcommitted : committed s (x.par 0x10 1) = true) (hswept : s.boot.d3Unswept = false) (hopen : dieOpen s 2 = true) (hqueue : s.integ.queue = []) :
    let t := contextStage x (startTrack s id)
    t.ctxs.staging = some { ctx := x.par 0x10 1, start := s.now, owner := .command id, oldPlane := false } ∧
    t.rd CFG_LATCH_STATUS.staged_state = stStaging ∧ t.rd CFG_LATCH_STATUS.staged_ctx = x.par 0x10 1 ∧
    t.rd CFG_LATCH_STATUS.frames_staged = 0 ∧ underWay t id = true ∧ t.ctxs = { s.ctxs with staging := t.ctxs.staging, refused := false } ∧
    (∀ i : Nat, i < 1024 → tileOf t i = { tileOf s i with oldRanges := (tileOf t i).oldRanges }) ∧
    t.imgs.ctx.map (fun p => (p.1, p.2.chain, p.2.digest, p.2.keyMask)) = s.imgs.ctx.map (fun p => (p.1, p.2.chain, p.2.digest, p.2.keyMask)) ∧
    OnlyTrack id { s with regs := t.regs, ctxs := t.ctxs, imgs := { s.imgs with ctx := t.imgs.ctx }, tiles := t.tiles } t := by
  dsimp only
  rw [contextStage_eq (s := startTrack s id) hctx hrun hidle harmed hready hcommitted hswept hopen, hs.id_eq]
  obtain ⟨hctxs, hstate, hsctx, hframes, hcontent, hchanges⟩ :=
    startStaging_meets (startTrack s id) (x.par 0x10 1) (by omega) (.command id) hqueue
  generalize startStaging (startTrack s id) (x.par 0x10 1) (.command id) = t at *
  refine ⟨by rw [hctxs]; rfl, hstate, hsctx, hframes, underWay_of_tracks hs.track (by rw [hchanges.parts.link_eq]), by rw [hctxs]; rfl,
    fun i _ => hcontent.tiles i, hcontent.images, ?_⟩
  have honly := OnlyTrack.after_parts (id := id) (s := s) hchanges.parts onlyTrack_startTrack
  rw [← show t.imgs = { s.imgs with ctx := t.imgs.ctx } from hcontent.imgs]
  exact honly

theorem contextStage_notReady (hctx : x.par 0x10 1 ≤ 7) (hidle : stageBusy s = false) (hempty : committed s (x.par 0x10 1) = false) :
    contextStage x s = finish s x.id .notReady := by
  have hrefusal : stagingRefusal s (x.par 0x10 1) = some 0 := if_pos (by simpa using hempty)
  unfold contextStage
  dsimp only
  rw [if_neg (by omega), if_neg (by simpa using hidle), if_neg (by simp [hempty]), hrefusal]
  rfl

/-! ## CONTEXT_SWAP_AT and SCHEDULE_SET -/

/-- A swap is armed. -/
def swapArmed (s : State) (a : ArmedSwap) : State :=
  ({ s with ctxs := { s.ctxs with armed := some a } } : State).wr CFG_LATCH_STATUS.swap_armed 1

/-- The swap that CONTEXT_SWAP_AT `x` arms. -/
def swapOf (s : State) (x : Track) : ArmedSwap :=
  { id := x.id, ctx := x.par 0x10 1, immediate := decide (x.time 0x18 ≤ counter s), target := x.time 0x18, skip := (x.par 0x11 1).testBit 1,
    limitUs := x.par 0x12 2, waiting := false }

theorem contextSwapAt_eq (hctx : x.par 0x10 1 ≤ 7) (hcancel : (x.par 0x11 1).testBit 2 = false) (himm : (x.par 0x11 1).testBit 0 = false)
    (htime : timeOk (x.par 0x18 12) = true) (hskip : (x.par 0x11 1).testBit 1 = true → x.par 0x12 2 = 0) (hfar : farAhead s (x.time 0x18) = false)
    (hrun : running s = false) (harmed : s.ctxs.armed = none) (hstaged : stagedCtx s = x.par 0x10 1)
    (hstate : stagedState s = stStaging ∨ stagedState s = stReady ∨ stagedState s = stOutDirty ∨ stagedState s = stOutClean) :
    contextSwapAt x s = swapArmed (commit s x.id) (swapOf s x) := by
  have hvalid : (!timeOk (x.par 0x18 12) || ((x.par 0x11 1).testBit 0 && x.par 0x18 12 != 0) || ((x.par 0x11 1).testBit 1 && x.par 0x12 2 != 0) ||
      (!(x.par 0x11 1).testBit 0 && farAhead s (x.time 0x18))) = false := by
    cases hbit : (x.par 0x11 1).testBit 1 with
    | false => simp [htime, himm, hfar]
    | true => simp [htime, himm, hfar, hskip hbit]
  unfold contextSwapAt
  dsimp only
  rw [if_neg (by omega), if_neg (by simp [hcancel]), if_neg (by rw [hvalid]; decide), if_neg (by simp [hrun, harmed]), if_pos ⟨hstaged, hstate⟩, himm, Bool.false_or]
  unfold swapArmed swapOf
  rfl

theorem swapArmed_meets (hs : Startable s id op x) (a : ArmedSwap) :
    let t := swapArmed (commit (startTrack s id) id) a
    t.ctxs = { s.ctxs with armed := some a } ∧ t.rd CFG_LATCH_STATUS.swap_armed = 1 ∧ underWay t id = true ∧
    OnlyTrack id { s with regs := t.regs, ctxs := t.ctxs } t ∧ SameRegs (keys [CFG_LATCH_STATUS.swap_armed]) s t := by
  have hchanges : Changes [.regs, .ctxs] (keys [CFG_LATCH_STATUS.swap_armed]) (commit (startTrack s id) id)
      (swapArmed (commit (startTrack s id) id) a) := .after (changes_wr ..) (.after (changes_part (ps := [.ctxs]) rfl) .refl)
  have htrack : OnlyTrack id s (commit (startTrack s id) id) := onlyTrack_startTrack.trans onlyTrack_commit
  have hunder : underWay (swapArmed (commit (startTrack s id) id) a) id = true := by
    have hfind : trackOf (swapArmed (commit (startTrack s id) id) a) id = some { begun s x with committed := true } :=
      (trackOf_congr (by rw [hchanges.parts.link_eq]) id).trans (trackOf_commit (trackOf_startTrack hs.track))
    simp [underWay, hfind, begun]
  exact ⟨rfl, rd_wr_at _ _ _ _ _ rfl, hunder, htrack.after_parts hchanges.parts, hchanges.sameRegs⟩

theorem scheduleSet_eq (hlen : 16 ≤ x.par 0x18 4 ∧ x.par 0x18 4 ≤ 528) (halign : x.par 0x10 8 % 8 = 0) (himm : (x.par 0x1C 1).testBit 0 = true)
    (htime : x.par 0x20 12 = 0) (hbank : bankArmed s = false) (harmed : s.ctxs.armed = none) (hidle : s.ctxs.staging = none) :
    scheduleSet x s = readHost s x.id (x.par 0x10 8) (x.par 0x18 4) := by
  have hok : timeOk 0 = true := by decide
  unfold scheduleSet
  dsimp only
  rw [if_neg (by simp [htime, hok, himm, halign]; omega), if_neg (by simp [hbank, harmed, hidle])]

theorem readHost_meets (hs : Startable s id op x) (a n : Nat) :
    let t := readHost (startTrack s id) id a n
    t.link.reads = s.link.reads ++ [{ id := id, addr := a, length := n, got := [], at_ := s.now }] ∧ t.outbox = s.outbox ++ [.hostRead id a n] ∧
    underWay t id = true ∧ OnlyTrack id { s with link := { s.link with reads := t.link.reads }, outbox := t.outbox } t :=
  ⟨rfl, rfl, underWay_of_tracks hs.track rfl, rfl, (onlyTrack_startTrack (s := s) (id := id)).2⟩

/-! ## CONTEXT_RETIRE -/

/-- The planes, what is committed of the contexts and the active content are as before; of the repairs, only the queue and the lost frames change. -/
structure KeepsPlanes (s t : State) : Prop where
  planes : t.ctxs.planes = s.ctxs.planes
  active : t.ctxs.active = s.ctxs.active
  committed : ∀ c, committed t c = committed s c
  imgs : t.imgs = { s.imgs with ctx := t.imgs.ctx }
  integ : t.integ = { s.integ with queue := t.integ.queue, lost := t.integ.lost }

theorem KeepsPlanes.trans (h : KeepsPlanes s t) (h' : KeepsPlanes t u) : KeepsPlanes s u :=
  ⟨by rw [h'.planes, h.planes], by rw [h'.active, h.active], fun c => by rw [h'.committed, h.committed], by rw [h'.imgs, h.imgs],
    by rw [h'.integ, h.integ]⟩

theorem KeepsPlanes.of_parts {ps : List Part} (h : OnlyParts ps s t) (hctxs : Part.ctxs ∉ ps := by decide) (himgs : Part.imgs ∉ ps := by decide)
    (hinteg : Part.integ ∉ ps := by decide) : KeepsPlanes s t := by
  have hc := h.ctxs_eq hctxs
  have hi := h.imgs_eq himgs
  exact ⟨by rw [hc], by rw [hc], fun c => by unfold Machine.committed; rw [hi], by rw [hi], by rw [h.integ_eq hinteg]⟩

theorem mapRepairs_keepsPlanes (s : State) (f : Repair → Option Repair) : KeepsPlanes s (mapRepairs s f) := by
  have hqueue : KeepsPlanes s { s with integ := { s.integ with queue := s.integ.queue.filterMap f } } := ⟨rfl, rfl, fun _ => rfl, rfl, rfl⟩
  exact hqueue.trans (.of_parts (changes_showRepairs _).parts)

theorem mapLost_keepsPlanes (s : State) (f : Repair → Option Repair) : KeepsPlanes s (mapLost s f) := by
  have hlost : KeepsPlanes s { s with integ := { s.integ with lost := s.integ.lost.filterMap f } } := ⟨rfl, rfl, fun _ => rfl, rfl, rfl⟩
  exact hlost.trans (.of_parts (changes_showRepairs _).parts)

theorem dropRepairs_keepsPlanes (s : State) (c : Nat) : KeepsPlanes s (dropRepairs s c) :=
  (mapRepairs_keepsPlanes ..).trans (mapLost_keepsPlanes ..)

theorem setStaged_keepsPlanes (s : State) (st c : Nat) : KeepsPlanes s (setStaged s st c) := by
  have hparts := (changes_setStaged s st c).parts
  have hcontent := setStaged_keepsContent s st c
  exact ⟨by rw [hparts.ctxs_eq], by rw [hparts.ctxs_eq], hcontent.committed, hcontent.imgs, by rw [hparts.integ_eq]⟩

/-- `t`, with the contexts of `s` but that the staged set holds nothing. -/
def noStaged (s t : State) : State := { t with ctxs := { s.ctxs with staged := [], staging := none, refused := false } }

theorem emptyStaged_eq (s : State) :
    emptyStaged s = dropStagedRepairs (noStaged s (setStaged (s.wr CFG_LATCH_STATUS.repair_wait 0) stEmpty 0)) := rfl

theorem noStaged_keepsPlanes (h : KeepsPlanes s t) : KeepsPlanes s (noStaged s t) := ⟨rfl, rfl, h.committed, h.imgs, h.integ⟩

theorem emptyStaged_keepsPlanes (s : State) : KeepsPlanes s (emptyStaged s) := by
  have hset : KeepsPlanes s (setStaged (s.wr CFG_LATCH_STATUS.repair_wait 0) stEmpty 0) :=
    (KeepsPlanes.of_parts (changes_wr ..).parts).trans (setStaged_keepsPlanes ..)
  rw [emptyStaged_eq]
  exact (noStaged_keepsPlanes hset).trans (mapRepairs_keepsPlanes ..)

theorem changes_emptyStaged (s : State) : Changes [.regs, .ctxs, .tiles, .imgs, .integ]
    (keys [CFG_LATCH_STATUS.repair_wait, CFG_LATCH_STATUS.staged_state, CFG_LATCH_STATUS.staged_ctx] ++ shownKeys ++ repairKeys) s (emptyStaged s) := by
  rw [emptyStaged_eq]
  exact .after (changes_mapRepairs ..) (.after (changes_part (ps := [.ctxs])
    (t := noStaged s _) rfl) (.after (changes_setStaged ..) (.after (changes_wr ..) .refl)))

/-- The plane of context `c` is empty, and what was committed of it gone. -/
def planeDropped (s : State) (c : Nat) : State :=
  { s with imgs := { s.imgs with ctx := sparseDel s.imgs.ctx c },
           ctxs := { s.ctxs with planes := dropPlane s.ctxs.planes c, sigs := dropPlane s.ctxs.sigs c,
                                 writtenBack := dropPlane s.ctxs.writtenBack c } }

/-- The tiles keep nothing of context `c`. -/
def tilesFreed (s : State) (c : Nat) : State :=
  { s with tiles := s.tiles.map fun p => (p.1,
      { p.2 with
        ranges := sparseDel p.2.ranges c
        newRanges := sparseDel p.2.newRanges c
        vectors := p.2.vectors.filter (fun v => v.1 / 8 != c)
        newVectors := p.2.newVectors.filter (fun v => v.1 / 8 != c) }) }

/-- The registers show context `c` EMPTY. -/
def shownEmpty (s : State) (c : Nat) : State :=
  (((s.wr CFG_CTX_STATUS.state 0 c).wr CFG_CTX_IMAGE.debug_observe 0 c).wr CFG_CTX_IMAGE.chain_depth 0 c).wr CFG_CTX_IMAGE.retained_64k 0 c

/-- Context `c` is retired; the staged set does not show it yet. -/
def retired (s : State) (c : Nat) : State := tilesFreed (shownEmpty (dropRepairs (planeDropped s c) c) c) c

theorem retire_eq (x : Track) (s : State) : retire x s = finish (showStore
    (if stagedState (retired s (x.par 0x10 1)) != stEmpty && stagedCtx (retired s (x.par 0x10 1)) == x.par 0x10 1
      then emptyStaged (retired s (x.par 0x10 1)) else retired s (x.par 0x10 1))) x.id .success 1 := rfl

theorem planeDropped_frames (s : State) (c : Nat) :
    (∀ f : Nat, f < frameCount → planeFrame (planeDropped s c) c f = 0) ∧
    (∀ d : Nat, d ≠ c → planeFrames (planeDropped s c) d = planeFrames s d ∧ committed (planeDropped s c) d = committed s d) ∧
    committed (planeDropped s c) c = false := by
  refine ⟨fun f hf => ?_, fun d hd => ⟨?_, ?_⟩, ?_⟩
  · have hkey : planeKey c f / 2 ^ 18 = c := by unfold planeKey; unfold frameCount at hf; omega
    show (sparseFind (s.ctxs.planes.filter fun p => p.1 / 2 ^ 18 != c) (planeKey c f)).getD 0 = 0
    rw [sparseFind_filter_none s.ctxs.planes (fun k => k / 2 ^ 18 != c) _ (by rw [hkey]; simp)]
    rfl
  · show ((s.ctxs.planes.filter fun p => p.1 / 2 ^ 18 != c).filter _).map _ = _
    rw [List.filter_filter]
    refine congrArg (List.map _) (List.filter_congr fun p _ => ?_)
    by_cases hp : p.1 / 2 ^ 18 = d
    · rw [hp]; simp [hd]
    · rw [beq_false_of_ne hp]; rfl
  · show (sparseFind (sparseDel s.imgs.ctx c) d).isSome = _
    rw [sparseFind_del_ne _ _ _ hd.symm]
    rfl
  · show (sparseFind (sparseDel s.imgs.ctx c) c).isSome = _
    rw [sparseFind_del_same]
    rfl

theorem changes_shownEmpty (s : State) (c : Nat) : Changes [.regs] (keys [CFG_CTX_STATUS.state, CFG_CTX_IMAGE.debug_observe,
    CFG_CTX_IMAGE.chain_depth, CFG_CTX_IMAGE.retained_64k] c) s (shownEmpty s c) :=
  .after' (changes_wr ..) (.after' (changes_wr ..) (.after' (changes_wr ..) (.after' (changes_wr ..) .refl)))

theorem shownEmpty_state (s : State) (c : Fin 8) : (shownEmpty s c).rd CFG_CTX_STATUS.state c = 0 := by
  unfold shownEmpty
  rw [(changes_wr ..).rdAt, (changes_wr ..).rdAt, (changes_wr ..).rdAt]
  exact rd_wr_at _ _ _ _ _ rfl

theorem changes_tilesFreed (s : State) (c : Nat) : Changes [.tiles] [] s (tilesFreed s c) := changes_part rfl

theorem retired_keepsPlanes (s : State) (c : Nat) : KeepsPlanes (planeDropped s c) (retired s c) :=
  ((dropRepairs_keepsPlanes _ c).trans (.of_parts (changes_shownEmpty _ c).parts)).trans (.of_parts (changes_tilesFreed _ c).parts)

theorem retired_state (s : State) (c : Fin 8) : (retired s c).rd CFG_CTX_STATUS.state c = 0 := by
  unfold retired
  rw [(changes_tilesFreed ..).rd (by simp)]
  exact shownEmpty_state _ c

/-- Context `c` is retired, and the staged set does not hold it. -/
def unstaged (s : State) (c : Nat) : State :=
  showStore (if stagedState (retired s c) != stEmpty && stagedCtx (retired s c) == c then emptyStaged (retired s c) else retired s c)

theorem unstaged_keepsPlanes (s : State) (c : Nat) : KeepsPlanes (planeDropped s c) (unstaged s c) := by
  unfold unstaged
  refine KeepsPlanes.trans ?_ (.of_parts (changes_showStore _).parts)
  split
  · exact (retired_keepsPlanes s c).trans (emptyStaged_keepsPlanes _)
  · exact retired_keepsPlanes s c

theorem unstaged_state (s : State) (c : Fin 8) : (unstaged s c).rd CFG_CTX_STATUS.state c = 0 := by
  unfold unstaged
  rw [(changes_showStore ..).rdAt]
  split
  · rw [(changes_emptyStaged ..).rdAt, retired_state]
  · exact retired_state s c

theorem onlyParts_unstaged (s : State) (c : Nat) : OnlyParts [.regs, .ctxs, .tiles, .imgs, .integ] s (unstaged s c) := by
  have hdropped : OnlyParts [.regs, .ctxs, .tiles, .imgs, .integ] s (planeDropped s c) := .after (qs := [.ctxs, .imgs]) rfl .refl
  have hretired : OnlyParts [.regs, .ctxs, .tiles, .imgs, .integ] s (retired s c) :=
    .after (changes_tilesFreed ..).parts (.after (changes_shownEmpty ..).parts (.after (onlyParts_dropRepairs ..) hdropped))
  unfold unstaged
  exact .after (changes_showStore _).parts (onlyParts_ite (fun _ => .after (changes_emptyStaged _).parts hretired) fun _ => hretired)

theorem contextRetire_committed (hs : Startable s id 0x15 x) (hctx : x.par 0x10 1 ≤ 7) (hfree : retireBusy s (x.par 0x10 1) = false)
    (hcommitted : committed s (x.par 0x10 1) = true) :
    contextRetire x (startTrack s id) = finish (unstaged (commit (startTrack s id) id) (x.par 0x10 1)) id .success 1 := by
  have hfree' : retireBusy (startTrack s id) (x.par 0x10 1) = false := hfree
  have hcommitted' : committed (startTrack s id) (x.par 0x10 1) = true := hcommitted
  unfold contextRetire
  dsimp only
  rw [if_neg (by omega), if_neg (by simp [hfree']), if_neg (by simp [hcommitted']), reachCommit_eq hs.unprepared, retire_eq, hs.id_eq]
  rfl

theorem contextRetire_meets (hs : Startable s id 0x15 x) (hctx : x.par 0x10 1 ≤ 7) (hfree : retireBusy s (x.par 0x10 1) = false)
    (hcommitted : committed s (x.par 0x10 1) = true) :
    let t := contextRetire x (startTrack s id)
    committed t (x.par 0x10 1) = false ∧ t.rd CFG_CTX_STATUS.state (x.par 0x10 1) = 0 ∧
    (∀ f : Nat, f < frameCount → planeFrame t (x.par 0x10 1) f = 0) ∧
    (∀ c : Nat, c < 8 → c ≠ x.par 0x10 1 → planeFrames t c = planeFrames s c ∧ committed t c = committed s c) ∧
    endedWith t id .success 1 0 = true ∧ t.ctxs.active = s.ctxs.active ∧
    t = { s with
      regs := t.regs, ctxs := t.ctxs, tiles := t.tiles, link := { s.link with tracks := t.link.tracks }
      imgs := { s.imgs with ctx := t.imgs.ctx }, integ := { s.integ with queue := t.integ.queue, lost := t.integ.lost } } := by
  dsimp only
  rw [contextRetire_committed hs hctx hfree hcommitted]
  obtain ⟨c, hc⟩ : ∃ c : Fin 8, (c : Nat) = x.par 0x10 1 := ⟨⟨x.par 0x10 1, by omega⟩, rfl⟩
  rw [← hc]
  have hbegun : trackOf (commit (startTrack s id) id) id = some { begun s x with committed := true } := trackOf_commit (trackOf_startTrack hs.track)
  have hstart : Changes [.link] [] s (commit (startTrack s id) id) := .after (changes_commit ..) (.after (changes_startTrack ..) .refl)
  have hframe : commit (startTrack s id) id = { s with link := { s.link with tracks := (commit (startTrack s id) id).link.tracks } } := rfl
  generalize commit (startTrack s id) id = s0 at *
  obtain ⟨hzero, hothers, hgone⟩ := planeDropped_frames s0 c
  have hkept := unstaged_keepsPlanes s0 c
  have hstate := unstaged_state s0 c
  have hparts := onlyParts_unstaged s0 c
  generalize unstaged s0 c = u at *
  have hframes : ∀ d f, planeFrame u d f = planeFrame (planeDropped s0 c) d f := fun d f => by unfold planeFrame; rw [hkept.planes]
  have hplanes : ∀ d, planeFrames u d = planeFrames (planeDropped s0 c) d := fun d => by unfold planeFrames; rw [hkept.planes]
  have hrest : ∀ d, planeFrames s0 d = planeFrames s d ∧ committed s0 d = committed s d := fun d => by rw [hframe]; exact ⟨rfl, rfl⟩
  have htrack : trackOf u id = some { begun s x with committed := true } := (trackOf_congr (by rw [hparts.link_eq]) id).trans hbegun
  refine ⟨(hkept.committed c).trans hgone, hstate, fun f hf => (hframes c f).trans (hzero f hf), fun d _ hd => ⟨?_, ?_⟩,
    endedWith_finish htrack (by simp [begun]) .success 1 0, ?_, ?_⟩
  · exact (hplanes d).trans ((hothers d hd).1.trans (hrest d).1)
  · exact (hkept.committed d).trans ((hothers d hd).2.trans (hrest d).2)
  · exact hkept.active.trans (by rw [hframe]; rfl)
  · have himgs : u.imgs = { s.imgs with ctx := u.imgs.ctx } := hkept.imgs.trans (by rw [hframe]; rfl)
    have hinteg : u.integ = { s.integ with queue := u.integ.queue, lost := u.integ.lost } := hkept.integ.trans (by rw [hframe]; rfl)
    have hlink : (finish u id .success 1).link = { s.link with tracks := (finish u id .success 1).link.tracks } := by
      have hu : u.link = { s.link with tracks := s0.link.tracks } := hparts.link_eq.trans (congrArg State.link hframe)
      have hfinish : (finish u id .success 1).link = { u.link with tracks := (finish u id .success 1).link.tracks } := rfl
      rw [hfinish, hu]
    have honly : OnlyParts [.regs, .ctxs, .tiles, .link, .imgs, .integ] s (finish u id .success 1) :=
      .after (changes_finish u id .success 1 0).parts (.after hparts (.after hstart.parts .refl))
    show _ = { s with
      regs := u.regs, ctxs := u.ctxs, tiles := u.tiles, link := { s.link with tracks := (finish u id .success 1).link.tracks }
      imgs := { s.imgs with ctx := u.imgs.ctx }, integ := { s.integ with queue := u.integ.queue, lost := u.integ.lost } }
    rw [← hlink, ← himgs, ← hinteg]
    exact honly

theorem contextRetire_empty (hs : Startable s id 0x15 x) (hctx : x.par 0x10 1 ≤ 7) (hfree : retireBusy s (x.par 0x10 1) = false)
    (hempty : committed s (x.par 0x10 1) = false) :
    contextRetire x (startTrack s id) = finish (commit (startTrack s id) id) id .success 0 := by
  have hfree' : retireBusy (startTrack s id) (x.par 0x10 1) = false := hfree
  have hempty' : committed (startTrack s id) (x.par 0x10 1) = false := hempty
  unfold contextRetire
  dsimp only
  rw [if_neg (by omega), if_neg (by simp [hfree']), if_pos (by simp [hempty']), reachCommit_eq hs.unprepared, hs.id_eq]

/-! ## MODE_SET -/

theorem par_bytes (h : x.par 0x11 2 = 0) : x.par 0x11 1 = 0 ∧ x.par 0x12 1 = 0 := by
  have hshift : x.entry.toNat >>> (8 * 0x12) = x.entry.toNat >>> (8 * 0x11) >>> 8 := Nat.shiftRight_add _ (8 * 0x11) 8
  unfold Track.par bits at *
  rw [hshift, Nat.shiftRight_eq_div_pow _ 8]
  generalize x.entry.toNat >>> (8 * 0x11) = v at *
  simp only [Nat.reduceMul, Nat.reducePow] at *
  omega

theorem modeSet_same {sd : SwapData} (hmode : x.par 0x10 1 = s.rd DEV_MODE.mode)
    (hallowed : x.par 0x10 1 = modeAssembly ∨ x.par 0x10 1 = modeRun ∨ x.par 0x10 1 = modeService) (hpar : x.par 0x11 2 = 0)
    (hidle : transitioning s = false) : modeSet sd x s = finish (commit s x.id) x.id .success := by
  obtain ⟨hp1, hp2⟩ := par_bytes hpar
  have hvalid : x.par 0x10 1 = 1 ∨ x.par 0x10 1 = 2 ∨ x.par 0x10 1 = 5 := hallowed
  unfold modeSet
  dsimp only
  rw [if_neg (by omega), if_neg (by unfold modeLead modeShadow; omega), if_neg (by simp [hp1, hp2]), if_neg (by simp [hidle]), if_pos hmode]

theorem modeSet_change {sd : SwapData} (hto : x.par 0x10 1 = modeAssembly ∨ x.par 0x10 1 = modeService)
    (hpair : modePair (s.rd DEV_MODE.mode) (x.par 0x10 1) = true) (hfrom : s.rd DEV_MODE.mode ≠ modeService) (hpar : x.par 0x11 2 = 0)
    (hinj : s.safe.injection = none) (hidle : transitioning s = false) :
    modeSet sd x s = finish (commit (setMode (exitAllEi s) (x.par 0x10 1)) x.id) x.id .success := by
  obtain ⟨hp1, hp2⟩ := par_bytes hpar
  have hvalid : x.par 0x10 1 = 1 ∨ x.par 0x10 1 = 5 := hto
  have hother : x.par 0x10 1 ≠ s.rd DEV_MODE.mode := by
    intro heq
    rw [← heq] at hpair
    obtain h | h := hto <;> rw [h] at hpair <;> exact absurd hpair (by decide)
  unfold modeSet
  dsimp only
  rw [if_neg (by omega), if_neg (by unfold modeLead modeShadow; omega), if_neg (by simp [hp1, hp2]), if_neg (by simp [hidle]), if_neg hother,
    if_neg (by simp [hpair]), if_neg (by simp [hinj]), if_neg (by unfold modeRun; omega), if_neg (by unfold modeDormant; omega), if_neg hfrom]

/-! ### What a change of the mode shows -/

theorem rd_wrb_keeps {r : Row} {b : Bool} {n : Nat} (hw : 1 ≤ r.width) (h : s.rd r n = b2n b) (m : Nat) : (s.wrb r b m).rd r n = b2n b := by
  by_cases hkey : r.key m 0 = r.key n 0
  · have hoffset : r.offset m 0 = r.offset n 0 := by unfold Row.key at hkey; omega
    have hrd : ∀ t : State, t.rd r n = t.rd r m := fun t => by unfold State.rd; rw [hkey, hoffset]
    rw [hrd, rd_wrb_same _ _ _ _ _ hw]
  · exact (rd_wr_ne _ _ _ _ _ _ _ _ hkey).trans h

theorem rd_foldl_wrb {r : Row} {b : Bool} {n : Nat} (hw : 1 ≤ r.width) (l : List Nat) (h : n ∈ l ∨ s.rd r n = b2n b) :
    (l.foldl (fun t n => t.wrb r b n) s).rd r n = b2n b := by
  induction l generalizing s with
  | nil => exact h.resolve_left List.not_mem_nil
  | cons m l ih =>
    refine ih ?_
    obtain hmem | hset := h
    · obtain heq | hin := List.mem_cons.mp hmem
      · exact .inr (heq ▸ rd_wrb_same _ _ _ _ _ hw)
      · exact .inl hin
    · exact .inr (rd_wrb_keeps hw hset m)

theorem rd_mute_egress (s : State) (n : Fin 16) : (mute s).rd FHL_LANE_STATUS.egress_muted n = 1 := by
  unfold mute
  rw [(changes_setToutLevels ..).rdAt]
  exact rd_foldl_wrb (Nat.le_refl 1) (List.range 16) (.inl (List.mem_range.mpr n.isLt))

theorem fault_safe (s : State) (k : FaultKind) (unit detail die : Nat) (injected withheld hist degraded : Bool) :
    ∃ e : FaultEntry, e.kind = k ∧ e.history = hist ∧
      (fault s k unit detail die injected withheld hist degraded).safe = (appendFault s e).safe := by
  unfold fault
  dsimp only
  split
  · exact ⟨_, rfl, rfl, (changes_raiseEvent ..).parts.safe_eq⟩
  · exact ⟨_, rfl, rfl, rfl⟩

/-- A full log loses its oldest entry, never its newest. -/
theorem appendFault_keeps_last {e : FaultEntry} (h : s.safe.log.getLast? = some e) (e' : FaultEntry) : e ∈ (appendFault s e').safe.log := by
  obtain ⟨l, hl⟩ := List.getLast?_eq_some_iff.mp h
  have hdrop : e ∈ s.safe.log.drop (s.safe.log.length - 511) := by
    rw [hl, List.drop_append_of_le_length (by simp)]
    simp
  rw [appendFault_safe]
  simp only
  split
  · exact List.mem_append_left _ hdrop
  · exact List.mem_append_left _ (by rw [hl]; simp)

/-- The mode fields, their history record and the log. -/
def modeRecorded (s : State) (m : Nat) : State :=
  history (((s.wr DEV_MODE.mode m).wr DEV_MODE.previous_mode (s.rd DEV_MODE.mode)).inc DEV_MODE.transitions) .modeChange 0
    (s.rd DEV_MODE.mode + m * 256)

theorem setMode_eq (s : State) {m : Nat} (hm : m = 1 ∨ m = 5) : setMode s m = setCause (modeRecorded s m) scMode := by
  unfold setMode
  dsimp only
  rw [if_neg (by unfold modeRun modeLead; omega), if_neg (by unfold modeDormant; omega)]
  rfl

theorem modeRecorded_rd (s : State) {m : Nat} (hm : m = 1 ∨ m = 5) :
    (modeRecorded s m).rd DEV_MODE.mode = m ∧
    (modeRecorded s m).rd DEV_MODE.previous_mode = s.rd DEV_MODE.mode % 2 ^ DEV_MODE.previous_mode.width ∧
    (modeRecorded s m).rd DEV_MODE.transitions = satAdd DEV_MODE.transitions.width (s.rd DEV_MODE.transitions) 1 % 2 ^ DEV_MODE.transitions.width ∧
    causeSet (modeRecorded s m) scMode = causeSet s scMode := by
  have hwidth : m % 2 ^ DEV_MODE.mode.width = m := Nat.mod_eq_of_lt (by obtain h | h := hm <;> rw [h] <;> decide)
  unfold modeRecorded
  refine ⟨?_, ?_, ?_, ?_⟩
  · rw [(changes_history ..).rd, (changes_inc ..).rd, (changes_wr ..).rd, rd_wr_same, hwidth]
  · rw [(changes_history ..).rd, (changes_inc ..).rd, rd_wr_same]
  · rw [(changes_history ..).rd]
    unfold State.inc
    rw [rd_wr_same, (changes_wr ..).rd, (changes_wr ..).rd]
  · unfold causeSet
    rw [(changes_history ..).rd, (changes_inc ..).rd, (changes_wr ..).rd, (changes_wr ..).rd]

theorem history_safe (s : State) (k : FaultKind) (unit detail : Nat) :
    ∃ (u : State) (e : FaultEntry), e.kind = k ∧ e.history = true ∧ (history s k unit detail).safe = (appendFault u e).safe :=
  ⟨_, fault_safe ..⟩

/-- The newest entry of the log is the record of the change. -/
theorem modeRecorded_log (s : State) (m : Nat) :
    ∃ e : FaultEntry, (e.kind == FaultKind.modeChange && e.history) = true ∧ (modeRecorded s m).safe.log.getLast? = some e := by
  unfold modeRecorded
  obtain ⟨u, e, hkind, hhist, hsafe⟩ := history_safe
    (((s.wr DEV_MODE.mode m).wr DEV_MODE.previous_mode (s.rd DEV_MODE.mode)).inc DEV_MODE.transitions) .modeChange 0 (s.rd DEV_MODE.mode + m * 256)
  exact ⟨e, by rw [hkind, hhist]; rfl, by rw [hsafe, appendFault_last]⟩

/-- Outside a pair, a cause that its policy allows and that was clear sets, is logged and mutes. -/
theorem setCause_eq (s : State) {b : Nat} (hallowed : policyAllows s b = true) (hclear : causeSet s b = false)
    (hlead : s.rd DEV_MODE.mode ≠ modeLead) (hshadow : s.rd DEV_MODE.mode ≠ modeShadow) :
    setCause s b = mute (fault (s.wr (causeRow b) 1) .safeCause b) := by
  unfold setCause
  dsimp only
  rw [if_neg (by simp [hallowed, hclear]), if_neg (by simp [hlead]), if_neg (by simp [hshadow])]

theorem setMode_meets (s : State) {m : Nat} (hm : m = 1 ∨ m = 5) (hprev : s.rd DEV_MODE.mode < 8) :
    let t := setMode s m
    t.rd DEV_MODE.mode = m ∧ t.rd DEV_MODE.previous_mode = s.rd DEV_MODE.mode ∧
    t.rd DEV_MODE.transitions = satAdd DEV_MODE.transitions.width (s.rd DEV_MODE.transitions) 1 % 2 ^ DEV_MODE.transitions.width ∧
    causeSet t scMode = true ∧
    (causeSet s scMode = false → t.rd DEV_MODE.safe_state = 1 ∧ (∀ n : Nat, n < 16 → t.rd FHL_LANE_STATUS.egress_muted n = 1)) ∧
    (t.safe.log.any (fun e => e.kind == .modeChange && e.history)) = true := by
  obtain ⟨hmode, hprevious, hcount, hcause⟩ := modeRecorded_rd s hm
  obtain ⟨e, he, hlast⟩ := modeRecorded_log s m
  rw [Nat.mod_eq_of_lt (show s.rd DEV_MODE.mode < 2 ^ DEV_MODE.previous_mode.width from hprev)] at hprevious
  dsimp only
  rw [setMode_eq s hm]
  generalize modeRecorded s m = u at *
  have hother := changes_setCause u scMode
  refine ⟨by rw [hother.rd (by decide +kernel), hmode], by rw [hother.rd (by decide +kernel), hprevious],
    by rw [hother.rd (by decide +kernel), hcount], ?_⟩
  cases hset : causeSet u scMode with
  | true =>
    have hcase : setCause u scMode = u := if_pos (by simp [hset])
    rw [hcase]
    refine ⟨hset, fun hclear => absurd (hcause.symm.trans hset) (by simp [hclear]), List.any_eq_true.mpr ⟨e, List.mem_of_getLast? hlast, he⟩⟩
  | false =>
    have hcase := setCause_eq u (b := scMode) rfl hset (by rw [hmode]; unfold modeLead; omega) (by rw [hmode]; unfold modeShadow; omega)
    rw [hcase]
    refine ⟨?_, fun _ => ⟨rd_mute_safeState _, fun n hn => rd_mute_egress _ ⟨n, hn⟩⟩, ?_⟩
    · unfold causeSet
      rw [(changes_mute ..).rd (by decide +kernel), (changes_fault ..).rd, rd_wr_same]
      rfl
    · obtain ⟨e', -, -, hsafe⟩ := fault_safe (u.wr (causeRow scMode) 1) .safeCause scMode 0 255 false false false false
      rw [(changes_mute _).parts.safe_eq, hsafe]
      exact List.any_eq_true.mpr ⟨e, appendFault_keeps_last (s := u.wr (causeRow scMode) 1) hlast e', he⟩

theorem setMode_keepsLink (s : State) {m : Nat} (hm : m = 1 ∨ m = 5) : KeepsLink s (setMode s m) := by
  have hwr : KeepsLink s (((s.wr DEV_MODE.mode m).wr DEV_MODE.previous_mode (s.rd DEV_MODE.mode)).inc DEV_MODE.transitions) := .of_eq rfl
  rw [setMode_eq s hm]
  exact (hwr.trans (history_keepsLink ..)).trans (setCause_keepsLink ..)

/-- The fields of the lanes that a departure from electrical idle may change. -/
def idleKeys : List Nat :=
  keys [CLK_CAND_READY.ready] ++ allKeys [CLK_CAND_COUNT.run] 25 ++ allKeys [FHL_LANE_STATUS.rclk_valid, FHL_LANE_STATUS.in_ei] 16

theorem changes_exitAllEi (s : State) : Changes [.regs, .fh] idleKeys s (exitAllEi s) := by
  have hkeys : ∀ n : Fin 16, keys [CLK_CAND_READY.ready] ++ [CLK_CAND_COUNT.run.key (n + 1) 0, FHL_LANE_STATUS.rclk_valid.key n 0,
      FHL_LANE_STATUS.in_ei.key n 0] ⊆ idleKeys := by decide +kernel
  exact changes_foldl_mem (fun _ n hn => (changes_exitEi ..).mono (hk := hkeys ⟨n, List.mem_range.mp hn⟩)) .refl

theorem modePair_lt {a b : Nat} (h : modePair a b = true) : a < 8 := by
  simp only [modePair, Bool.or_eq_true, Bool.and_eq_true, beq_iff_eq, modeAssembly, modeRun, modeService] at h
  omega

theorem modeSet_meets {sd : SwapData} (hs : Startable s id 0x7F x) (hto : x.par 0x10 1 = modeAssembly ∨ x.par 0x10 1 = modeService)
    (hpair : modePair (s.rd DEV_MODE.mode) (x.par 0x10 1) = true) (hfrom : s.rd DEV_MODE.mode ≠ modeService) (hpar : x.par 0x11 2 = 0)
    (hinj : s.safe.injection = none) (hidle : transitioning s = false) :
    let t := modeSet sd x (startTrack s id)
    t.rd DEV_MODE.mode = x.par 0x10 1 ∧ t.rd DEV_MODE.previous_mode = s.rd DEV_MODE.mode ∧
    t.rd DEV_MODE.transitions = satAdd DEV_MODE.transitions.width (s.rd DEV_MODE.transitions) 1 % 2 ^ DEV_MODE.transitions.width ∧
    causeSet t scMode = true ∧
    (causeSet s scMode = false → t.rd DEV_MODE.safe_state = 1 ∧ (∀ n : Nat, n < 16 → t.rd FHL_LANE_STATUS.egress_muted n = 1)) ∧
    ended t id .success = true ∧ (t.safe.log.any (fun e => e.kind == .modeChange && e.history)) = true ∧ t.ctxs = s.ctxs ∧ t.mem = s.mem ∧
    t.sec = s.sec ∧ t.imgs = s.imgs ∧ t.boot = s.boot := by
  have hei : Changes [.regs, .link, .fh] idleKeys s (exitAllEi (startTrack s id)) :=
    .after (changes_exitAllEi _) (.after (changes_startTrack ..) .refl)
  have hrd : ∀ r : Row, r.key 0 0 ∉ idleKeys → (exitAllEi (startTrack s id)).rd r = s.rd r := fun r hr => hei.rd hr
  have htracks : (exitAllEi (startTrack s id)).link.tracks = (startTrack s id).link.tracks := by rw [(changes_exitAllEi _).parts.link_eq]
  have hcause : causeSet (exitAllEi (startTrack s id)) scMode = causeSet s scMode := by unfold causeSet; rw [hrd _ (by decide +kernel)]
  have hmodes := hrd DEV_MODE.mode (by decide +kernel)
  dsimp only
  rw [modeSet_change (s := startTrack s id) hto hpair hfrom hpar hinj hidle, hs.id_eq]
  generalize exitAllEi (startTrack s id) = u at *
  obtain ⟨hmode, hprev, hcount, hset, hmuted, hlog⟩ := setMode_meets u (m := x.par 0x10 1) hto (by rw [hmodes]; exact modePair_lt hpair)
  have hlink := setMode_keepsLink u (m := x.par 0x10 1) hto
  have hparts := (changes_setMode u (x.par 0x10 1)).parts
  rw [hmodes] at hprev
  rw [hrd _ (by decide +kernel)] at hcount
  rw [hcause] at hmuted
  generalize setMode u (x.par 0x10 1) = v at *
  have htrack : trackOf v id = some (begun s x) := (trackOf_congr (hlink.tracks.trans htracks) id).trans (trackOf_startTrack hs.track)
  exact ⟨hmode, hprev, hcount, hset, hmuted, ended_of_endedWith (endedWith_finish (trackOf_commit htrack) (by simp [begun]) .success 0 0), hlog,
    hparts.ctxs_eq.trans hei.parts.ctxs_eq, hparts.mem_eq.trans hei.parts.mem_eq, hparts.sec_eq.trans hei.parts.sec_eq,
    hparts.imgs_eq.trans hei.parts.imgs_eq, hparts.boot_eq.trans hei.parts.boot_eq⟩

/-! ### MODE_SET RUN -/

/-- The transition to RUN by command `id`, with context `c`, has begun. -/
def runBegun (s : State) (id c : Nat) : State :=
  ({ s with boot := { s.boot with transition := some { dest := modeRun, id := id, ctx := c, since := s.now } } } : State).wr DEV_MODE.transition_busy 1

theorem modeSet_run {sd : SwapData} (hto : x.par 0x10 1 = modeRun) (hmode : s.rd DEV_MODE.mode = modeAssembly) (hctx : x.par 0x11 1 ≤ 7)
    (hcommitted : committed s (x.par 0x11 1) = true) (htime : s.rd TIM_STATUS.state ≠ tmFree ∨ (x.par 0x12 1).testBit 0 = true)
    (hthermal : thermalLimit s = false) (hinj : s.safe.injection = none) (hstaging : s.ctxs.staging = none) (harmed : s.ctxs.armed = none)
    (hrun : running s = false) (hempty : stagedState s = stEmpty) (hrefusal : stagingRefusal s (x.par 0x11 1) = none)
    (hidle : transitioning s = false) :
    modeSet sd x s = startStaging (runBegun s x.id (x.par 0x11 1)) (x.par 0x11 1) (.mode x.id) := by
  have hnot : (stagedState s == stReady && stagedCtx s == x.par 0x11 1 && !stagedRepair s) = false := by rw [hempty]; rfl
  have hfree : (s.rd TIM_STATUS.state == tmFree && !(x.par 0x12 1).testBit 0) = false := by
    obtain h | h := htime
    · simp [h]
    · rw [h]; simp
  have hbody : modeSet sd x s = modeRunSet sd x s := by
    unfold modeSet
    dsimp only
    rw [hto, hmode, if_neg (by decide), if_neg (by decide), if_neg (by simp; omega), if_neg (by simp [hidle]), if_neg (by decide),
      if_neg (by decide), if_neg (by simp [hinj]), if_pos rfl]
  rw [hbody]
  unfold modeRunSet
  dsimp only
  rw [if_neg (by simp [hthermal]), if_neg (by rw [hfree, hcommitted]; decide), if_neg (by simp [hstaging, harmed, hrun]), if_neg (by rw [hnot]; decide),
    if_neg (by simp [hrefusal])]
  rfl

theorem changes_runBegun (s : State) (id c : Nat) : Changes [.regs, .boot] (keys [DEV_MODE.transition_busy]) s (runBegun s id c) :=
  .after (changes_wr ..) (.after (changes_part (ps := [.boot]) rfl) .refl)

theorem modeRunSet_meets (hs : Startable s id 0x7F x) (hmode : s.rd DEV_MODE.mode = modeAssembly) (hctx : x.par 0x11 1 ≤ 7)
    (hqueue : s.integ.queue = []) :
    let t := startStaging (runBegun (startTrack s id) id (x.par 0x11 1)) (x.par 0x11 1) (.mode id)
    t.boot = { s.boot with transition := some { dest := modeRun, id := id, ctx := x.par 0x11 1, since := s.now } } ∧
    t.rd DEV_MODE.transition_busy = 1 ∧ t.rd DEV_MODE.mode = modeAssembly ∧
    t.ctxs.staging = some { ctx := x.par 0x11 1, start := s.now, owner := .mode id, oldPlane := false } ∧
    t.rd CFG_LATCH_STATUS.staged_state = stStaging ∧ underWay t id = true ∧
    (∀ i : Nat, i < 1024 → tileOf t i = { tileOf s i with oldRanges := (tileOf t i).oldRanges }) ∧
    t.imgs.ctx.map (fun p => (p.1, p.2.chain, p.2.digest, p.2.keyMask)) = s.imgs.ctx.map (fun p => (p.1, p.2.chain, p.2.digest, p.2.keyMask)) ∧
    OnlyTrack id { s with regs := t.regs, boot := t.boot, ctxs := t.ctxs, imgs := { s.imgs with ctx := t.imgs.ctx }, tiles := t.tiles } t := by
  have hbegun := changes_runBegun (startTrack s id) id (x.par 0x11 1)
  have hboot : (runBegun (startTrack s id) id (x.par 0x11 1)).boot =
      { s.boot with transition := some { dest := modeRun, id := id, ctx := x.par 0x11 1, since := s.now } } := rfl
  have hbusy : (runBegun (startTrack s id) id (x.par 0x11 1)).rd DEV_MODE.transition_busy = 1 := rd_wr_at _ _ _ _ _ rfl
  have hnow : (runBegun (startTrack s id) id (x.par 0x11 1)).now = s.now := rfl
  have hcontent0 : KeepsContent s (runBegun (startTrack s id) id (x.par 0x11 1)) := .of_eq rfl rfl
  have hmode0 : (runBegun (startTrack s id) id (x.par 0x11 1)).rd DEV_MODE.mode = modeAssembly := by rw [hbegun.rd]; exact hmode
  have hqueue0 : (runBegun (startTrack s id) id (x.par 0x11 1)).integ.queue = [] := hqueue
  dsimp only
  generalize runBegun (startTrack s id) id (x.par 0x11 1) = u at *
  obtain ⟨hctxs, hstate, -, -, hcontent, hchanges⟩ := startStaging_meets u (x.par 0x11 1) (by omega) (.mode id) hqueue0
  generalize startStaging u (x.par 0x11 1) (.mode id) = t at *
  have hall : Changes [.regs, .boot, .ctxs, .imgs, .tiles] (stagingKeys ++ keys [DEV_MODE.transition_busy]) (startTrack s id) t :=
    .after hchanges (.after hbegun .refl (hk := by simp)) (hk := by simp)
  have hkept : KeepsContent s t := hcontent0.trans hcontent
  refine ⟨hchanges.parts.boot_eq.trans hboot, by rw [hchanges.rd, hbusy], by rw [hchanges.rd, hmode0], by rw [hctxs, hnow], hstate,
    underWay_of_tracks hs.track (by rw [hall.parts.link_eq]), fun i _ => hkept.tiles i, hkept.images, ?_⟩
  rw [← show t.imgs = { s.imgs with ctx := t.imgs.ctx } from hkept.imgs]
  exact OnlyTrack.after_parts hall.parts onlyTrack_startTrack

/-- Settles O45: the branch that each command takes, and what a staging, a retired context and a change of the mode leave. -/
theorem contextCommandsAndModeSet : Obligations.ContextCommandsAndModeSet := by
  unfold Obligations.ContextCommandsAndModeSet
  refine ⟨?_, ?_, ?_, ?_, ?_, ?_, ?_, ?_, ?_⟩
  · intro s id x hs hctx hrun hidle harmed hready hcommitted hswept hopen hqueue
    exact .intro (congrArg Host.Outcome.next (startCommand_of_startable hs contextStage))
      (contextStage_meets hs hctx hrun hidle harmed hready hcommitted hswept hopen hqueue)
  · intro s id x hs hctx hidle hempty
    refine .intro (congrArg Host.Outcome.next (startCommand_of_startable hs contextStage)) ?_
    rw [contextStage_notReady (s := startTrack s id) hctx hidle hempty, hs.id_eq]
    exact ⟨ended_finish_startTrack hs.track .notReady 0 0, onlyTrack_finish_startTrack ..⟩
  · intro s id x hs hctx hcancel himm htime hskip hfar hrun harmed hstaged hstate
    refine .intro (congrArg Host.Outcome.next (startCommand_of_startable hs contextSwapAt)) ?_
    rw [contextSwapAt_eq (s := startTrack s id) hctx hcancel himm htime hskip hfar hrun harmed hstaged hstate, swapOf, hs.id_eq]
    exact swapArmed_meets hs _
  · intro s id x hs hlen halign himm htime hbank harmed hidle
    refine .intro (congrArg Host.Outcome.next (startCommand_of_startable hs scheduleSet)) ?_
    rw [scheduleSet_eq (s := startTrack s id) hlen halign himm htime hbank harmed hidle, hs.id_eq]
    exact readHost_meets hs _ _
  · intro s id x hs hctx hfree hcommitted
    exact .intro (congrArg Host.Outcome.next (startCommand_of_startable hs contextRetire)) (contextRetire_meets hs hctx hfree hcommitted)
  · intro s id x hs hctx hfree hempty
    refine .intro (congrArg Host.Outcome.next (startCommand_of_startable hs contextRetire)) ?_
    rw [contextRetire_empty hs hctx hfree hempty]
    exact endedWith_onlyTrack_of_completes hs.track .success 0 0
  · intro s id x sd hs hto hpair hfrom hpar hinj hidle
    exact .intro (congrArg Host.Outcome.next (startCommand_of_startable hs (modeSet sd))) (modeSet_meets hs hto hpair hfrom hpar hinj hidle)
  · intro s id x sd hs hto hmode hctx hcommitted htime hthermal hinj hstaging harmed hrun hempty hrefusal hqueue hidle
    refine .intro (congrArg Host.Outcome.next (startCommand_of_startable hs (modeSet sd))) ?_
    rw [modeSet_run (s := startTrack s id) hto hmode hctx hcommitted htime hthermal hinj hstaging harmed hrun hempty hrefusal hidle, hs.id_eq]
    exact modeRunSet_meets hs hmode hctx hqueue
  · intro s id x sd hs hmode hallowed hpar hidle
    refine .intro (congrArg Host.Outcome.next (startCommand_of_startable hs (modeSet sd))) ?_
    rw [modeSet_same (s := startTrack s id) hmode hallowed hpar hidle, hs.id_eq]
    obtain ⟨hended, honly⟩ := endedWith_onlyTrack_of_completes hs.track .success 0 0
    exact ⟨ended_of_endedWith hended, honly⟩

end Sys2Proof.Machine
end

section
set_option Elab.async false
/-! Settles the statement about register accesses (01_stack.md, 02_modes_and_start_up.md, 23_register_map.md). -/

namespace Sys2Proof.Machine

variable {s t : State}

/-! ## The fields of one register -/

/-- The rows of the map that have an item at offset `off`. -/
def rowsAt (off : Nat) : List Row := allRows.filter fun r => (r.inst off).isSome

/-- Rows that have no item at the offset do nothing to it. -/
theorem foldl_rowsAt {α : Type} (off : Nat) (f : α → Row → α) (hskip : ∀ a r, r.inst off = none → f a r = a) (a : α) :
    allRows.foldl f a = (rowsAt off).foldl f a := by
  unfold rowsAt
  induction allRows generalizing a with
  | nil => rfl
  | cons r rs ih =>
    cases hinst : r.inst off with
    | none => simp [hinst, hskip a r hinst, ih]
    | some ij => simp [hinst, ih]

theorem fieldsAt_eq (s : State) (off : Nat) : fieldsAt s off = (rowsAt off).foldl (fun a r =>
    match r.inst off with
    | some (i, j) => if r.acc = .wo then a else a + s.rd r i j * 2 ^ r.lo
    | none => a) 0 :=
  foldl_rowsAt off _ (fun a r h => by simp only [h]) 0

/-- The RC fields of the register at `off` clear. -/
def clearedAt (s : State) (off : Nat) : State :=
  (rowsAt off).foldl (fun t r =>
    match r.inst off with
    | some (i, j) => if r.acc = .rc then t.wr r 0 i j else t
    | none => t) s

theorem writeFields_eq (s : State) (off v : Nat) : writeFields off v s = (rowsAt off).foldl (fun t r =>
    match r.inst off with
    | some (i, j) =>
      match r.acc with
      | .rw => t.wr r (bits v r.lo r.width) i j
      | .w1c => t.wr r (t.rd r i j - Nat.land (t.rd r i j) (bits v r.lo r.width)) i j
      | .w1s => t.wr r (Nat.lor (t.rd r i j) (bits v r.lo r.width)) i j
      | _ => t
    | none => t) s :=
  foldl_rowsAt off _ (fun t r h => by simp only [h]) s

/-- A register that is none of those with a value of their own, and no tile's status. -/
def plainOffset (off : Nat) : Bool :=
  off != 4 && off != 0x10 && off != 0xD0000 && off != 0x50004 && off != 0x50008 && off != 0x5000C && off != 0x170004 && !inSwapWindow off &&
    (DSP_TILE_STATUS.spare.inst off).isNone

theorem regValue_plain (s : State) {off : Nat} (h : plainOffset off = true) : regValue s off = fieldsAt s off := by
  simp only [plainOffset, Bool.and_eq_true, bne_iff_ne, Bool.not_eq_true', Option.isNone_iff_eq_none] at h
  obtain ⟨⟨⟨⟨⟨⟨⟨⟨h4, h10⟩, hd⟩, h5⟩, h8⟩, hc⟩, h17⟩, hswap⟩, htile⟩ := h
  unfold regValue
  dsimp only
  rw [if_neg h4, if_neg h10, if_neg hd, if_neg h5, if_neg h8, if_neg hc, if_neg h17, if_neg (by simp [hswap]), htile]

/-- A register without a capture of its own. -/
def uncaptured (off : Nat) : Bool :=
  off != 0x90010 && off != 0x90014 && off != 0xB0018 && off != 0xB001C && off != 0x50004 && off != 0x50008 && off != 0x5000C &&
    (NOC_BYTES_LO.bytes_lo.inst off).isNone && (NOC_BYTES_HI.bytes_hi.inst off).isNone

theorem readReg_uncaptured (s : State) {off : Nat} (h : uncaptured off = true) : readReg s off = (regValue s off, clearedAt s off) := by
  simp only [uncaptured, Bool.and_eq_true, bne_iff_ne, Option.isNone_iff_eq_none] at h
  obtain ⟨⟨⟨⟨⟨⟨⟨⟨h1, h2⟩, h3⟩, h4⟩, h5⟩, h6⟩, h7⟩, hlo⟩, hhi⟩ := h
  have hcleared : allRows.foldl (fun t r =>
      match r.inst off with
      | some (i, j) => if r.acc = .rc then t.wr r 0 i j else t
      | none => t) s = clearedAt s off := foldl_rowsAt off _ (fun t r h => by simp only [h]) s
  unfold readReg
  dsimp only
  rw [if_neg h1, if_neg h2, if_neg h3, if_neg h4, if_neg h5, if_neg h6, if_neg h7, hlo, hhi]
  exact congrArg (Prod.mk _) hcleared

/-! ## Accesses of PF0 -/

theorem reaches_assigned {off : Nat} (h : assigned off = true) : reaches 0 off = some off := by
  unfold reaches
  rw [if_pos rfl, if_pos h]

theorem read32_answered {off : Nat} (h : assigned off = true) (hblock : blockAnswers s off = true) : read32 s 0 off = readReg s off := by
  unfold read32
  rw [reaches_assigned h]
  exact if_pos hblock

theorem hostRead_narrow {fn off : Nat} (hup : s.link.up = true) (halign : off % 4 = 0) :
    hostRead fn off false s = answerRead (read32 s fn off).2 fn off (read32 s fn off).1 := by
  unfold hostRead
  rw [if_neg (by simp [hup, halign])]
  rfl

theorem hostRead_wide {fn off : Nat} (hup : s.link.up = true) (halign : off % 8 = 0) :
    hostRead fn off true s = answerRead (read32 (read32 s fn off).2 fn (off + 4)).2 fn off
      ((read32 s fn off).1 + (read32 (read32 s fn off).2 fn (off + 4)).1 * 2 ^ 32) := by
  unfold hostRead
  rw [if_neg (by simp [hup, halign])]
  rfl

theorem hostWrite_narrow {fn off v : Nat} (hup : s.link.up = true) (halign : off % 4 = 0) :
    hostWrite fn off v false s = write32 fn off (v % 2 ^ 32) s := by
  unfold hostWrite
  rw [if_neg (by simp [hup, halign])]
  rfl

theorem write32_reaches {off : Nat} (v : Nat) (h : assigned off = true) (hopen : ¬ (0x10000 ≤ off ∧ (s.rd DEV_MODE.mode = 0 ∨ !blockAnswers s off))) :
    write32 0 off v s = writeReg off v s := by
  unfold write32
  rw [reaches_assigned h]
  exact if_neg hopen

/-- A read of an assigned register without captures. -/
theorem hostRead_fields {off : Nat} (hup : s.link.up = true) (halign : off % 4 = 0) (hassigned : assigned off = true)
    (hblock : blockAnswers s off = true) (hplain : plainOffset off = true) (huncaptured : uncaptured off = true) :
    hostRead 0 off false s = answerRead (clearedAt s off) 0 off (fieldsAt s off) := by
  rw [hostRead_narrow hup halign, read32_answered hassigned hblock, readReg_uncaptured s huncaptured, regValue_plain s hplain]

/-- Two counters side by side, at bits 0 and 16, that a read clears. -/
theorem countersRead_meets {off : Nat} {r q : Row} {i : Nat} (hrows : rowsAt off = [r, q]) (hr : r.inst off = some (i, 0)) (hq : q.inst off = some (i, 0))
    (hracc : r.acc = .rc) (hqacc : q.acc = .rc) (hrlo : r.lo = 0) (hqlo : q.lo = 16) (hne : q.key i 0 ≠ r.key i 0) :
    fieldsAt s off = s.rd r i + s.rd q i * 2 ^ 16 ∧ (clearedAt s off).rd r i = 0 ∧ (clearedAt s off).rd q i = 0 ∧
    Changes [.regs] (keys [r, q] i) s (clearedAt s off) := by
  have hclear : clearedAt s off = (s.wr r 0 i).wr q 0 i := by simp [clearedAt, hrows, hr, hq, hracc, hqacc]
  refine ⟨by simp [fieldsAt_eq, hrows, hr, hq, hracc, hqacc, hrlo, hqlo], ?_, ?_, ?_⟩
  · rw [hclear, rd_wr_ne _ _ _ _ _ _ _ _ hne, rd_wr_same, Nat.zero_mod]
  · rw [hclear, rd_wr_same, Nat.zero_mod]
  · rw [hclear]
    exact .after' (changes_wr ..) (.after' (changes_wr ..) .refl)

/-! ## Writes by the access types -/

/-- A register of the HOST domain with no meaning of its own. -/
theorem writeReg_host {off v : Nat} (hdev : off < 0x10000 ∨ 0x18000 ≤ off ∧ off < 0x40000) (hreset : off ≠ 0x1C)
    (hquota : PCIE_FN_CFG.queue_base.inst off = none) : writeReg off v s = writeFields off v s := by
  unfold writeReg writeDev
  rw [if_pos (by omega), if_neg hreset, if_neg (by omega), hquota]

theorem scratchWrite_meets (s : State) (v : Nat) (hup : s.link.up = true) :
    (hostWrite 0 0xC v false s).rd DEV_SCRATCH.scratch = v % 2 ^ 32 ∧ OnlyRegs (keys [DEV_SCRATCH.scratch]) s (hostWrite 0 0xC v false s) := by
  have hrows : rowsAt 0xC = [DEV_SCRATCH.scratch] := by decide +kernel
  have hinst : DEV_SCRATCH.scratch.inst 0xC = some (0, 0) := by decide
  have hcase : hostWrite 0 0xC v false s = s.wr DEV_SCRATCH.scratch (bits (v % 2 ^ 32) 0 32) := by
    rw [hostWrite_narrow hup (by decide), write32_reaches _ (by decide +kernel) (by omega), writeReg_host (by decide) (by decide) (by decide),
      writeFields_eq, hrows]
    simp only [List.foldl, hinst]
    rfl
  rw [hcase]
  refine ⟨?_, (changes_wr ..).onlyRegs⟩
  rw [rd_wr_same]
  simp [bits, DEV_SCRATCH.scratch]

/-- The cause of device event `k`. -/
abbrev eventRow (k : Nat) : Row := { HCI_EVT_CAUSE.swap_event with lo := k }

/-- A write of `v` clears the event causes whose bits are 1, up to event `n`. -/
def causesWritten (s : State) (v : Nat) (n : Nat) : State :=
  (List.range n).foldl (fun t k => t.wr (eventRow k) (t.rd (eventRow k) - Nat.land (t.rd (eventRow k)) (bits v k 1))) s

theorem causeWrite_eq (s : State) (v : Nat) (hup : s.link.up = true) (hmode : s.rd DEV_MODE.mode ≠ 0) :
    hostWrite 0 0x18000 v false s = causesWritten s (v % 2 ^ 32) 7 := by
  have hrows : rowsAt 0x18000 = (List.range 7).map eventRow := by decide +kernel
  have hinst : ∀ k : Nat, (eventRow k).inst 0x18000 = some (0, 0) := fun _ => rfl
  have hopen : ¬ (0x10000 ≤ 0x18000 ∧ (s.rd DEV_MODE.mode = 0 ∨ !blockAnswers s 0x18000)) := by
    have hblock : blockAnswers s 0x18000 = true := rfl
    simp [hmode, hblock]
  rw [hostWrite_narrow hup (by decide), write32_reaches _ (by decide +kernel) hopen, writeReg_host (by decide) (by decide) (by decide),
    writeFields_eq, hrows, List.foldl_map]
  rfl

theorem key_eventRow (k : Nat) : (eventRow k).key 0 0 = evtKey k := by
  simp [Row.key, Row.offset, evtKey, HCI_EVT_CAUSE.swap_event]

theorem changes_causesWritten (s : State) (v n : Nat) : Changes [.regs] ((List.range n).map evtKey) s (causesWritten s v n) :=
  changes_foldl_mem (fun _ k hk => (changes_wr ..).mono (hk := by
    simpa [List.subset_def, key_eventRow] using ⟨k, List.mem_range.mp hk, rfl⟩)) .refl

theorem evtKey_injective {k n : Nat} (h : evtKey k = evtKey n) : k = n := by
  unfold evtKey at h
  omega

theorem causesWritten_rd (s : State) (v : Nat) {k n : Nat} (hk : k < n) : (causesWritten s v n).rd (eventRow k) =
    (s.rd (eventRow k) - Nat.land (s.rd (eventRow k)) (bits v k 1)) % 2 := by
  induction n with
  | zero => omega
  | succ n ih =>
    have hstep : causesWritten s v (n + 1) = (causesWritten s v n).wr (eventRow n)
        ((causesWritten s v n).rd (eventRow n) - Nat.land ((causesWritten s v n).rd (eventRow n)) (bits v n 1)) := by
      simp [causesWritten, List.range_succ]
    have hkeys : ∀ m, (eventRow m).key 0 0 ∈ (List.range n).map evtKey → m < n := fun m hm => by
      rw [key_eventRow, List.mem_map] at hm
      obtain ⟨j, hj, hjm⟩ := hm
      exact evtKey_injective hjm ▸ List.mem_range.mp hj
    rw [hstep]
    by_cases heq : k = n
    · subst heq
      rw [rd_wr_same, (changes_causesWritten s v k).rd (fun hm => absurd (hkeys k hm) (Nat.lt_irrefl k))]
      rfl
    · rw [rd_wr_ne _ _ _ _ _ _ _ _ (by rw [key_eventRow, key_eventRow]; exact fun h => heq (evtKey_injective h).symm), ih (by omega)]

/-- What a W1C bit keeps: it clears where a 1 is written. -/
theorem w1c_bit (x v k : Nat) : (x - Nat.land x (bits v k 1)) % 2 = (if v.testBit k = true then x - x % 2 else x) % 2 := by
  have hbit : bits v k 1 = b2n (v.testBit k) := by
    simp [bits, b2n, Nat.testBit, Nat.one_and_eq_mod_two]
    split <;> omega
  rw [hbit]
  cases v.testBit k with
  | true =>
    have hland : Nat.land x (b2n true) = x % 2 := Nat.and_one_is_mod x
    rw [hland]
    rfl
  | false =>
    have hland : Nat.land x (b2n false) = 0 := Nat.and_zero x
    rw [hland]
    rfl

theorem causeWrite_meets (s : State) (v : Nat) (hup : s.link.up = true) (hmode : s.rd DEV_MODE.mode ≠ 0) :
    (∀ k : Nat, k < 7 → (hostWrite 0 0x18000 v false s).rd (eventRow k) =
      (if v.testBit k = true then s.rd (eventRow k) - s.rd (eventRow k) % 2 else s.rd (eventRow k)) % 2) ∧
    OnlyRegs ((List.range 7).map evtKey) s (hostWrite 0 0x18000 v false s) := by
  rw [causeWrite_eq s v hup hmode]
  refine ⟨fun k hk => ?_, (changes_causesWritten ..).onlyRegs⟩
  have hbit : (v % 2 ^ 32).testBit k = v.testBit k := by
    rw [Nat.testBit_mod_two_pow]
    simp; omega
  rw [causesWritten_rd s _ hk, w1c_bit, hbit]

/-- A write of a read-only register of the time block. -/
theorem readOnlyWrite_eq (s : State) (v : Nat) (hup : s.link.up = true) (hmode : s.rd DEV_MODE.mode ≠ 0) (hblock : blockAnswers s 0x50010 = true) :
    hostWrite 0 0x50010 v false s = s := by
  have hrows : rowsAt 0x50010 = [TIM_HO_BOUND.bound_ns] := by decide +kernel
  have hupll : CLK_UPLL_CFG.enable.inst 0x50010 = none := by decide
  have hchannel : CLK_GCH_SEL.source.inst 0x50010 = none := by decide
  have hinst : TIM_HO_BOUND.bound_ns.inst 0x50010 = some (0, 0) := by decide
  have hreg : writeReg 0x50010 (v % 2 ^ 32) s = writeFields 0x50010 (v % 2 ^ 32) s := by
    unfold writeReg writeAon
    rw [if_neg (by decide), if_neg (by decide), if_neg (by decide), if_neg (by decide), if_neg (by decide), if_neg (by decide),
      if_neg (by decide), if_neg (by decide), if_neg (by decide), if_neg (by decide), hupll, hchannel]
  rw [hostWrite_narrow hup (by decide), write32_reaches _ (by decide +kernel) (by simp [hmode, hblock]), hreg, writeFields_eq, hrows]
  simp only [List.foldl, hinst]
  rfl

/-! ## Reads with a capture -/

/-- The fields of a register with one row, at bit 0. -/
theorem fieldsAt_one {off : Nat} {r : Row} (s : State) (hrows : rowsAt off = [r]) (hr : r.inst off = some (0, 0)) (hacc : r.acc ≠ .wo)
    (hlo : r.lo = 0) : fieldsAt s off = s.rd r := by
  simp [fieldsAt_eq, hrows, hr, hacc, hlo]

/-- The fields of a register with two rows, the first at bit 0. -/
theorem fieldsAt_two {off n : Nat} {r q : Row} (s : State) (hrows : rowsAt off = [r, q]) (hr : r.inst off = some (0, 0)) (hq : q.inst off = some (0, 0))
    (hracc : r.acc ≠ .wo) (hqacc : q.acc ≠ .wo) (hlo : r.lo = 0) (hqlo : q.lo = n) : fieldsAt s off = s.rd r + s.rd q * 2 ^ n := by
  simp [fieldsAt_eq, hrows, hr, hq, hracc, hqacc, hlo, hqlo]

theorem denyLow_value (s : State) : regValue s 0x90010 = s.rd NOC_DENY_PA_LO.pa_lo :=
  (regValue_plain s (by decide)).trans (fieldsAt_one s (by decide +kernel) (by decide) (by decide) rfl)

theorem denyHigh_value (s : State) : regValue s 0x90014 = s.rd NOC_DENY_PA_HI.pa_hi + s.rd NOC_DENY_PA_HI.initiator * 2 ^ 24 :=
  (regValue_plain s (by decide)).trans (fieldsAt_two s (by decide +kernel) (by decide) (by decide) (by decide) (by decide) rfl rfl)

theorem failLow_value (s : State) : regValue s 0xB0018 = s.rd ENC_FAIL_PA_LO.kind + s.rd ENC_FAIL_PA_LO.pa_lo * 2 ^ 6 :=
  (regValue_plain s (by decide)).trans (fieldsAt_two s (by decide +kernel) (by decide) (by decide) (by decide) (by decide) rfl rfl)

theorem failHigh_value (s : State) : regValue s 0xB001C = s.rd ENC_FAIL_PA_HI.pa_hi + s.rd ENC_FAIL_PA_HI.initiator * 2 ^ 24 :=
  (regValue_plain s (by decide)).trans (fieldsAt_two s (by decide +kernel) (by decide) (by decide) (by decide) (by decide) rfl rfl)

/-- The second half of the denied address is held for its read. -/
def denyHeld (s : State) (c : Option Nat) : State := { s with noc := { s.noc with denyCap := c } }

theorem denyHeld_meets (s : State) (c : Option Nat) (off v : Nat) :
    (answerRead (denyHeld s c) 0 off v).outbox = s.outbox ++ [.readData 0 off v] ∧ (answerRead (denyHeld s c) 0 off v).noc.denyCap = c ∧
    answerRead (denyHeld s c) 0 off v = { s with
      noc := { s.noc with denyCap := (answerRead (denyHeld s c) 0 off v).noc.denyCap }, outbox := (answerRead (denyHeld s c) 0 off v).outbox } :=
  ⟨rfl, rfl, rfl⟩

/-- The second half of the failed address is held for its read. -/
def failHeld (s : State) (c : Option Nat) : State := { s with enc := { s.enc with failCap := c } }

theorem failHeld_meets (s : State) (off v : Nat) :
    (answerRead (failHeld s none) 0 off v).outbox = s.outbox ++ [.readData 0 off v] ∧
    answerRead (failHeld s none) 0 off v = { s with enc := { s.enc with failCap := none }, outbox := (answerRead (failHeld s none) 0 off v).outbox } :=
  ⟨rfl, rfl⟩

theorem core_answers {off : Nat} (hcore : s.boot.coreUp = true) (hoff : coreBlock off = true) : blockAnswers s off = true :=
  encBlock_answers s off hcore hoff

theorem denyLow_read (hup : s.link.up = true) (hcore : s.boot.coreUp = true) : hostRead 0 0x90010 false s =
    answerRead (denyHeld s (some (s.rd NOC_DENY_PA_HI.pa_hi + s.rd NOC_DENY_PA_HI.initiator * 2 ^ 24))) 0 0x90010 (s.rd NOC_DENY_PA_LO.pa_lo) := by
  have hread : readReg s 0x90010 = (regValue s 0x90010, denyHeld s (some (regValue s 0x90014))) := by
    unfold readReg
    dsimp only
    rw [if_pos rfl]
    rfl
  rw [hostRead_narrow hup (by decide), read32_answered (by decide +kernel) (core_answers hcore (by decide)), hread, denyHigh_value, denyLow_value]

theorem denyHigh_read {v : Nat} (hup : s.link.up = true) (hcore : s.boot.coreUp = true) (hheld : s.noc.denyCap = some v) :
    hostRead 0 0x90014 false s = answerRead (denyHeld s none) 0 0x90014 v := by
  rw [hostRead_narrow hup (by decide), read32_answered (by decide +kernel) (core_answers hcore (by decide))]
  unfold readReg
  dsimp only
  rw [if_neg (by decide), if_pos rfl, hheld]
  rfl

theorem failWide_read (hup : s.link.up = true) (hcore : s.boot.coreUp = true) : hostRead 0 0xB0018 true s = answerRead (failHeld s none) 0 0xB0018
    (s.rd ENC_FAIL_PA_LO.kind + s.rd ENC_FAIL_PA_LO.pa_lo * 2 ^ 6 + (s.rd ENC_FAIL_PA_HI.pa_hi + s.rd ENC_FAIL_PA_HI.initiator * 2 ^ 24) * 2 ^ 32) := by
  have hlow : read32 s 0 0xB0018 = (regValue s 0xB0018, failHeld s (some (regValue s 0xB001C))) := by
    rw [read32_answered (by decide +kernel) (core_answers hcore (by decide))]
    rfl
  have hhigh : ∀ (t : State) (v : Nat), t.boot.coreUp = true → read32 (failHeld t (some v)) 0 0xB001C = (v, failHeld t none) := fun t v ht => by
    rw [read32_answered (s := failHeld t (some v)) (by decide +kernel) (core_answers (s := failHeld t (some v)) ht (by decide))]
    rfl
  rw [hostRead_wide hup (by decide), hlow]
  dsimp only
  rw [hhigh s _ hcore, failLow_value, failHigh_value]

/-- The rest of the time is held for its reads. -/
def timeHeld (s : State) (n : Nat) : State := { s with tim := { s.tim with latched := n, captured := 3 } }

theorem timeHeld_meets (s : State) (n off v : Nat) :
    (answerRead (timeHeld s n) 0 off v).outbox = s.outbox ++ [.readData 0 off v] ∧
    (answerRead (timeHeld s n) 0 off v).tim.latched = n ∧ (answerRead (timeHeld s n) 0 off v).tim.captured = 3 ∧
    answerRead (timeHeld s n) 0 off v = { s with
      tim := { s.tim with latched := (answerRead (timeHeld s n) 0 off v).tim.latched, captured := 3 }
      outbox := (answerRead (timeHeld s n) 0 off v).outbox } :=
  ⟨rfl, rfl, rfl, rfl⟩

theorem timeLow_value (s : State) : regValue s 0x50004 = time96 (counter s) % 2 ^ 32 := by
  have h4 : (0x50004 : Nat) ≠ 4 := by decide
  have h10 : (0x50004 : Nat) ≠ 0x10 := by decide
  have hd : (0x50004 : Nat) ≠ 0xD0000 := by decide
  simp only [regValue, h4, h10, hd, if_false, if_true]

theorem timeLow_readReg (s : State) : readReg s 0x50004 = (regValue s 0x50004, timeHeld s (time96 (counter s) / 2 ^ 32)) := by
  have h1 : (0x50004 : Nat) ≠ 0x90010 := by decide
  have h2 : (0x50004 : Nat) ≠ 0x90014 := by decide
  have h3 : (0x50004 : Nat) ≠ 0xB0018 := by decide
  have h4 : (0x50004 : Nat) ≠ 0xB001C := by decide
  simp only [readReg, h1, h2, h3, h4, if_false, if_true, timeHeld]

theorem timeLow_read (hup : s.link.up = true) (hblock : blockAnswers s 0x50004 = true) :
    hostRead 0 0x50004 false s = answerRead (timeHeld s (time96 (counter s) / 2 ^ 32)) 0 0x50004 (time96 (counter s) % 2 ^ 32) := by
  rw [hostRead_narrow hup (by decide), read32_answered (by decide +kernel) hblock, timeLow_readReg, timeLow_value]

/-! ## Accesses that reach no register -/

/-- The fields that record an access. -/
def accessKeys : List Nat :=
  keys [PCIE_BLOCKED_ACCESS.offset, PCIE_BLOCKED_ACCESS.function, PCIE_BLOCKED_ACCESS.write, PCIE_BLOCKED_ACCESS.kind]

theorem recordAccess_changes (s : State) (off fn : Nat) (write stopped : Bool) :
    Changes [.regs] accessKeys s (recordAccess s off fn write stopped) :=
  .after (changes_wrb ..) (.after (changes_wrb ..) (.after (changes_wr ..) (.after (changes_wr ..) .refl)))

theorem recordAccess_rd (s : State) {off fn : Nat} (hoff : off < 2 ^ 24) (hfn : fn < 64) (write stopped : Bool) :
    let t := recordAccess s off fn write stopped
    t.rd PCIE_BLOCKED_ACCESS.offset = off ∧ t.rd PCIE_BLOCKED_ACCESS.function = fn ∧ t.rd PCIE_BLOCKED_ACCESS.write = b2n write ∧
    t.rd PCIE_BLOCKED_ACCESS.kind = b2n stopped := by
  dsimp only
  unfold recordAccess
  refine ⟨?_, ?_, ?_, rd_wrb_same _ _ _ _ _ (Nat.le_refl 1)⟩
  · rw [(changes_wrb ..).rd, (changes_wrb ..).rd, (changes_wr ..).rd, rd_wr_same]
    exact Nat.mod_eq_of_lt hoff
  · rw [(changes_wrb ..).rd, (changes_wrb ..).rd, rd_wr_same]
    exact Nat.mod_eq_of_lt (Nat.lt_of_lt_of_le hfn (by decide))
  · rw [(changes_wrb ..).rd]
    exact rd_wrb_same _ _ _ _ _ (Nat.le_refl 1)

/-- An access is recorded and counted in `r`. -/
theorem countedAccess_meets (s : State) {off fn : Nat} (hoff : off < 2 ^ 24) (hfn : fn < 64) (write stopped : Bool) (r : Row)
    (hr : r.key 0 0 ∉ accessKeys) (hkeys : ∀ q ∈ [PCIE_BLOCKED_ACCESS.offset, PCIE_BLOCKED_ACCESS.function, PCIE_BLOCKED_ACCESS.write,
      PCIE_BLOCKED_ACCESS.kind], q.key 0 0 ∉ [r.key 0 0]) :
    let t := (recordAccess s off fn write stopped).inc r
    t.rd PCIE_BLOCKED_ACCESS.offset = off ∧ t.rd PCIE_BLOCKED_ACCESS.function = fn ∧ t.rd PCIE_BLOCKED_ACCESS.write = b2n write ∧
    t.rd PCIE_BLOCKED_ACCESS.kind = b2n stopped ∧ t.rd r = satAdd r.width (s.rd r) 1 % 2 ^ r.width ∧
    Changes [.regs] (accessKeys ++ keys [r]) s t := by
  obtain ⟨h1, h2, h3, h4⟩ := recordAccess_rd s hoff hfn write stopped
  have hrec := recordAccess_changes s off fn write stopped
  dsimp only
  generalize recordAccess s off fn write stopped = u at *
  have hinc := changes_inc u r 1 0 0
  refine ⟨?_, ?_, ?_, ?_, ?_, .after hinc (.after hrec .refl (hk := by simp)) (hk := by simp [keys, List.subset_def])⟩
  · rw [hinc.rd (hkeys _ (by simp)), h1]
  · rw [hinc.rd (hkeys _ (by simp)), h2]
  · rw [hinc.rd (hkeys _ (by simp)), h3]
  · rw [hinc.rd (hkeys _ (by simp)), h4]
  · unfold State.inc
    rw [rd_wr_same, hrec.rd hr]

theorem unassigned_meets (s : State) {off fn : Nat} (hoff : off < 2 ^ 24) (hfn : fn < 64) (write : Bool) :
    let t := unassignedAccess s off fn write
    t.rd PCIE_BLOCKED_ACCESS.offset = off ∧ t.rd PCIE_BLOCKED_ACCESS.function = fn ∧ t.rd PCIE_BLOCKED_ACCESS.write = b2n write ∧
    t.rd PCIE_BLOCKED_ACCESS.kind = 0 ∧ t.rd PCIE_BLOCKED_COUNT.unassigned = satAdd 16 (s.rd PCIE_BLOCKED_COUNT.unassigned) 1 % 2 ^ 16 ∧
    Changes [.regs] (accessKeys ++ keys [PCIE_BLOCKED_COUNT.unassigned]) s t :=
  countedAccess_meets s hoff hfn write false PCIE_BLOCKED_COUNT.unassigned (by decide) (by decide)

theorem blocked_meets (s : State) {off : Nat} (hoff : off < 2 ^ 24) (write : Bool) :
    let t := blockedAccess s off 0 write
    t.rd PCIE_BLOCKED_ACCESS.offset = off ∧ t.rd PCIE_BLOCKED_ACCESS.function = 0 ∧ t.rd PCIE_BLOCKED_ACCESS.write = b2n write ∧
    t.rd PCIE_BLOCKED_ACCESS.kind = 1 ∧ t.rd PCIE_BLOCKED_COUNT.blocked = satAdd 16 (s.rd PCIE_BLOCKED_COUNT.blocked) 1 % 2 ^ 16 ∧
    Changes [.regs] (accessKeys ++ keys [PCIE_BLOCKED_COUNT.blocked]) s t :=
  countedAccess_meets s hoff (by decide) write true PCIE_BLOCKED_COUNT.blocked (by decide) (by decide)

theorem OnlyRegs.outbox {ks : List Nat} (h : OnlyRegs ks s t) : t.outbox = s.outbox := by rw [h.1]

theorem exec_registerWrite (s : State) (off : BitVec 24) (v : Word64) (wide : Bool) {n : Nat} (hn : off.toNat = n) :
    exec (.registerWrite 0 off v wide) s = .next (hostWrite 0 n v.toNat wide s) := hn ▸ rfl

theorem exec_rcCounterRead (s : State) (off : BitVec 24) (wide : Bool) {n : Nat} (hn : off.toNat = n) :
    exec (.rcCounterRead 0 off wide) s = .next (hostRead 0 n wide s) := hn ▸ rfl

theorem exec_capturePairRead (s : State) (off : BitVec 24) (wide : Bool) {n : Nat} (hn : off.toNat = n) :
    exec (.capturePairRead 0 off wide) s = .next (hostRead 0 n wide s) := hn ▸ rfl

theorem ptpRows : rowsAt 0x50038 = [TIM_PTP_CTRL.ptp_valid, TIM_PTP_CTRL.meas_count] := by decide +kernel

theorem ptpFields (s : State) : fieldsAt s 0x50038 = s.rd TIM_PTP_CTRL.ptp_valid + s.rd TIM_PTP_CTRL.meas_count * 2 ^ 16 :=
  fieldsAt_two s ptpRows (by decide) (by decide) (by decide) (by decide) rfl rfl

/-- A read of TIM_PTP_CTRL clears its counter. -/
theorem ptpCleared (s : State) : (clearedAt s 0x50038).rd TIM_PTP_CTRL.meas_count = 0 ∧
    Changes [.regs] (keys [TIM_PTP_CTRL.meas_count]) s (clearedAt s 0x50038) := by
  have hvalid : TIM_PTP_CTRL.ptp_valid.inst 0x50038 = some (0, 0) := by decide
  have hcount : TIM_PTP_CTRL.meas_count.inst 0x50038 = some (0, 0) := by decide
  have hcase : clearedAt s 0x50038 = s.wr TIM_PTP_CTRL.meas_count 0 := by
    unfold clearedAt
    rw [ptpRows]
    simp only [List.foldl, hvalid, hcount]
    rfl
  rw [hcase]
  exact ⟨rd_wr_at _ _ _ _ _ rfl, changes_wr ..⟩

/-- A read of a register without RC fields clears nothing. -/
theorem clearedAt_fixed (s : State) {off : Nat} (h : ∀ r ∈ rowsAt off, r.acc ≠ .rc) : clearedAt s off = s := by
  unfold clearedAt
  generalize rowsAt off = rs at h ⊢
  induction rs with
  | nil => rfl
  | cons r rs ih =>
    have hr : r.acc ≠ .rc := h r List.mem_cons_self
    rw [List.foldl_cons]
    have hstep : (match r.inst off with
        | some (i, j) => if r.acc = .rc then s.wr r 0 i j else s
        | none => s) = s := by
      split
      · exact if_neg hr
      · rfl
    rw [hstep]
    exact ih fun q hq => h q (List.mem_cons_of_mem r hq)

theorem fecRegister (n : Fin 16) : rowsAt (0x100018 + 0x4000 * (n : Nat)) = [FHL_FEC_COUNTS.corrected, FHL_FEC_COUNTS.uncorrectable] ∧
    FHL_FEC_COUNTS.corrected.inst (0x100018 + 0x4000 * (n : Nat)) = some ((n : Nat), 0) ∧
    FHL_FEC_COUNTS.uncorrectable.inst (0x100018 + 0x4000 * (n : Nat)) = some ((n : Nat), 0) ∧
    assigned (0x100018 + 0x4000 * (n : Nat)) = true ∧ plainOffset (0x100018 + 0x4000 * (n : Nat)) = true ∧
    uncaptured (0x100018 + 0x4000 * (n : Nat)) = true ∧ coreBlock (0x100018 + 0x4000 * (n : Nat)) = true ∧
    FHL_FEC_COUNTS.uncorrectable.key n 0 ≠ FHL_FEC_COUNTS.corrected.key n 0 ∧ (0x100018 + 0x4000 * (n : Nat)) % 4 = 0 := by
  decide +kernel +revert

theorem badWidth_meets (s : State) (f : Fin 64) (off : Nat) (b : Fin 9) (w : Bool) (hup : s.link.up = true) (hzero : (b : Nat) ≠ 0)
    (hfour : (b : Nat) ≠ 4 ∨ off % 4 ≠ 0) (height : (b : Nat) ≠ 8 ∨ off % 8 ≠ 0) :
    let t := badWidth 0 f off b w s
    t.outbox = (if w = true then s.outbox else s.outbox ++ [.readData f off (2 ^ (8 * (b : Nat)) - 1)]) ∧
    t.rd PCIE_ERR_COUNTS.bad_access = satAdd 16 (s.rd PCIE_ERR_COUNTS.bad_access) 1 % 2 ^ 16 ∧
    t = { s with regs := t.regs, outbox := t.outbox } ∧ SameRegs (keys [PCIE_ERR_COUNTS.bad_access]) s t := by
  have hcase : badWidth 0 f off b w s = if w then badAccess s else answerRead (badAccess s) f off (2 ^ (8 * (b : Nat)) - 1) := by
    have hallowed : ¬ (!s.link.up ∨ (b : Nat) = 0 ∨ (((b : Nat) = 4 ∨ ((b : Nat) = 8 ∧ 0 ≠ 1)) ∧ off % (b : Nat) = 0)) := by
      simp only [hup, Bool.not_true, Bool.false_eq_true, false_or, not_or, not_and]
      refine ⟨hzero, fun h => ?_⟩
      obtain h4 | ⟨h8, -⟩ := h
      · rw [h4] at hfour ⊢; tauto
      · rw [h8] at height ⊢; tauto
    unfold badWidth
    rw [if_neg hallowed]
    rfl
  dsimp only
  rw [hcase]
  have hchanges : Changes [.regs] (keys [PCIE_ERR_COUNTS.bad_access]) s (badAccess s) := changes_inc s PCIE_ERR_COUNTS.bad_access 1 0 0
  have hcount : (badAccess s).rd PCIE_ERR_COUNTS.bad_access = satAdd 16 (s.rd PCIE_ERR_COUNTS.bad_access) 1 % 2 ^ 16 := rd_wr_same ..
  cases w with
  | true => exact ⟨rfl, hcount, (hchanges.parts.mono (ps := [.regs, .outbox]) (by decide)), hchanges.sameRegs⟩
  | false => exact ⟨rfl, hcount, rfl, hchanges.sameRegs⟩

theorem rd_answerRead (t : State) (fn off v : Nat) (r : Row) (i j : Nat) : (answerRead t fn off v).rd r i j = t.rd r i j := rfl

theorem readFrame {ks : List Nat} {fn off v : Nat} (h : Changes [.regs] ks s t) :
    (answerRead t fn off v).outbox = s.outbox ++ [.readData fn off v] ∧
    answerRead t fn off v = { s with regs := (answerRead t fn off v).regs, outbox := (answerRead t fn off v).outbox } ∧
    SameRegs ks s (answerRead t fn off v) := by
  have hparts : OnlyParts [.regs, .outbox] s (answerRead t fn off v) := .after (qs := [.outbox]) rfl (h.parts.mono (by decide))
  have hout : (answerRead t fn off v).outbox = t.outbox ++ [.readData fn off v] := rfl
  exact ⟨by rw [hout, h.parts.outbox_eq], hparts, h.sameRegs⟩

/-- What an access with no register does. -/
theorem exec_unassignedAccess (f : Fin 64) (off : BitVec 24) (w : Bool) (hup : s.link.up = true) (halign : off.toNat % 4 = 0)
    (hnone : reaches f off.toNat = none) : exec (.unassignedAccess f off w) s = .next (if w then unassignedAccess s off.toNat f true
      else answerRead (unassignedAccess s off.toNat f false) f off.toNat 0) := by
  have hexec : exec (.unassignedAccess f off w) s = .next (if !s.link.up ∨ off.toNat % 4 ≠ 0 ∨ (reaches f off.toNat).isSome then s
    else if w then write32 f off.toNat 0 s else hostRead f off.toNat false s) := rfl
  have hwrite : write32 f off.toNat 0 s = unassignedAccess s off.toNat f true := by unfold write32; rw [hnone]
  have hread : read32 s f off.toNat = (0, unassignedAccess s off.toNat f false) := by unfold read32; rw [hnone]
  rw [hexec, if_neg (by simp [hup, halign, hnone]), hwrite, hostRead_narrow hup halign, hread]

/-- What a read of a stopped block does. -/
theorem exec_blockedRead (off : BitVec 24) (hup : s.link.up = true) (halign : off.toNat % 4 = 0) (hassigned : assigned off.toNat = true)
    (hblock : blockAnswers s off.toNat = false) :
    exec (.blockedAccess 0 off false) s = .next (answerRead (blockedAccess s off.toNat 0 false) 0 off.toNat (2 ^ 32 - 1)) := by
  have hexec : exec (.blockedAccess 0 off false) s = .next (if !s.link.up then s
    else match reaches 0 off.toNat with
      | none => s
      | some r => if blockAnswers s r then s else hostRead 0 off.toNat false s) := rfl
  have hread : read32 s 0 off.toNat = (2 ^ 32 - 1, blockedAccess s off.toNat 0 false) := by
    unfold read32
    rw [reaches_assigned hassigned]
    exact if_neg (by simp [hblock])
  rw [hexec, if_neg (by simp [hup]), reaches_assigned hassigned]
  dsimp only
  rw [if_neg (by simp [hblock]), hostRead_narrow hup halign, hread]

/-- What a write of a stopped block, or before ASSEMBLY, does. -/
theorem exec_blockedWrite (off : BitVec 24) (hup : s.link.up = true) (hhigh : 0x10000 ≤ off.toNat) (hassigned : assigned off.toNat = true)
    (hstopped : s.rd DEV_MODE.mode = 0 ∨ blockAnswers s off.toNat = false) :
    exec (.blockedAccess 0 off true) s = .next (blockedAccess s off.toNat 0 true) := by
  have hexec : exec (.blockedAccess 0 off true) s = .next (if !s.link.up then s
    else match reaches 0 off.toNat with
      | none => s
      | some r => if 0x10000 ≤ r ∧ (s.rd DEV_MODE.mode = 0 ∨ !blockAnswers s r) then write32 0 off.toNat 0 s else s) := rfl
  have hcond : 0x10000 ≤ off.toNat ∧ (s.rd DEV_MODE.mode = 0 ∨ !blockAnswers s off.toNat) := ⟨hhigh, hstopped.imp_right fun h => by simp [h]⟩
  have hwrite : write32 0 off.toNat 0 s = blockedAccess s off.toNat 0 true := by
    unfold write32
    rw [reaches_assigned hassigned]
    exact if_pos hcond
  rw [hexec, if_neg (by simp [hup]), reaches_assigned hassigned]
  dsimp only
  rw [if_pos hcond, hwrite]

/-- Settles O59: what each kind of access does with the fields of its register. -/
theorem registerAccessesActByType : Obligations.RegisterAccessesActByType := by
  unfold Obligations.RegisterAccessesActByType
  refine ⟨?_, ?_, ?_, ?_, ?_, ?_, ?_, ?_, ?_, ?_, ?_, ?_, ?_, ?_, ?_, ?_⟩
  · intro s v hup
    exact .intro (exec_registerWrite s _ v false (by decide)) (scratchWrite_meets s v.toNat hup)
  · intro s v hup hmode
    exact .intro (exec_registerWrite s _ v false (by decide)) (causeWrite_meets s v.toNat hup hmode)
  · intro s v hup hmode hblock
    exact .intro (exec_registerWrite s _ v false (by decide)) (readOnlyWrite_eq s v.toNat hup hmode hblock)
  · intro s off v hup halign
    have hwide : hostWrite 0 off.toNat v.toNat true s =
        write32 0 (off.toNat + 4) (v.toNat / 2 ^ 32) (write32 0 off.toNat (v.toNat % 2 ^ 32) s) := by
      unfold hostWrite
      rw [if_neg (by simp [hup, halign])]
      rfl
    exact .intro (exec_registerWrite s off v true rfl) hwide
  · intro s hup
    obtain ⟨hvalue, hr, hq, hchanges⟩ := countersRead_meets (s := s) (off := 0x20004) (r := PCIE_BLOCKED_COUNT.unassigned)
      (q := PCIE_BLOCKED_COUNT.blocked) (i := 0) (by decide +kernel) (by decide) (by decide) rfl rfl rfl rfl (by decide)
    refine .intro (exec_rcCounterRead s _ false (n := 0x20004) (by decide)) ?_
    rw [hostRead_fields hup (by decide) (by decide +kernel) rfl (by decide) (by decide), hvalue]
    obtain ⟨hout, hframe, hregs⟩ := readFrame (fn := 0) (off := 0x20004)
      (v := s.rd PCIE_BLOCKED_COUNT.unassigned + s.rd PCIE_BLOCKED_COUNT.blocked * 2 ^ 16) hchanges
    exact ⟨hout, (rd_answerRead ..).trans hr, (rd_answerRead ..).trans hq, hframe, hregs⟩
  · intro s hup hblock
    refine .intro (exec_rcCounterRead s _ false (n := 0x50038) (by decide)) ?_
    rw [hostRead_fields hup (by decide) (by decide +kernel) hblock (by decide) (by decide), ptpFields s]
    obtain ⟨hout, hframe, hregs⟩ := readFrame (fn := 0) (off := 0x50038)
      (v := s.rd TIM_PTP_CTRL.ptp_valid + s.rd TIM_PTP_CTRL.meas_count * 2 ^ 16) (ptpCleared s).2
    exact ⟨hout, (ptpCleared s).1, hframe, hregs⟩
  · intro s n hup hcore
    have hoff : (BitVec.ofNat 24 (0x100018 + 0x4000 * (n : Nat))).toNat = 0x100018 + 0x4000 * (n : Nat) := by clear * -; decide +revert
    obtain ⟨hrows, hr, hq, hassigned, hplain, huncaptured, hcoreBlock, hne, halign⟩ := fecRegister n
    obtain ⟨hvalue, hzr, hzq, hchanges⟩ := countersRead_meets (s := s) hrows hr hq rfl rfl rfl rfl hne
    refine .intro (exec_rcCounterRead s _ false hoff) ?_
    rw [hostRead_fields hup halign hassigned (core_answers hcore hcoreBlock) hplain huncaptured, hvalue]
    obtain ⟨hout, hframe, hregs⟩ := readFrame (fn := 0) (off := 0x100018 + 0x4000 * (n : Nat))
      (v := s.rd FHL_FEC_COUNTS.corrected n + s.rd FHL_FEC_COUNTS.uncorrectable n * 2 ^ 16) hchanges
    exact ⟨hout, hzr, hzq, hframe, hregs⟩
  · intro s hup
    obtain ⟨hvalue, hr, hq, hchanges⟩ := countersRead_meets (s := s) (off := 0x20004) (r := PCIE_BLOCKED_COUNT.unassigned)
      (q := PCIE_BLOCKED_COUNT.blocked) (i := 0) (by decide +kernel) (by decide) (by decide) rfl rfl rfl rfl (by decide)
    have hlow : read32 s 0 0x20000 = (regValue s 0x20000, s) := by
      rw [read32_answered (by decide +kernel) rfl, readReg_uncaptured s (by decide), clearedAt_fixed s (by decide +kernel)]
    have hhigh : read32 s 0 (0x20000 + 4) = (fieldsAt s 0x20004, clearedAt s 0x20004) := by
      rw [read32_answered (by decide +kernel) rfl, readReg_uncaptured s (by decide), regValue_plain s (by decide)]
    refine .intro (exec_rcCounterRead s _ true (n := 0x20000) (by decide)) ?_
    rw [hostRead_wide hup (by decide), hlow]
    dsimp only
    rw [hhigh, hvalue]
    dsimp only
    obtain ⟨hout, hframe, hregs⟩ := readFrame (fn := 0) (off := 0x20000)
      (v := regValue s 0x20000 + (s.rd PCIE_BLOCKED_COUNT.unassigned + s.rd PCIE_BLOCKED_COUNT.blocked * 2 ^ 16) * 2 ^ 32) hchanges
    exact ⟨hout, (rd_answerRead ..).trans hr, (rd_answerRead ..).trans hq, hframe, hregs⟩
  · intro s hup hcore
    refine .intro (exec_capturePairRead s _ false (n := 0x90010) (by decide)) ?_
    rw [denyLow_read hup hcore]
    exact denyHeld_meets ..
  · intro s v hup hcore hheld
    refine .intro (exec_capturePairRead s _ false (n := 0x90014) (by decide)) ?_
    rw [denyHigh_read hup hcore hheld]
    obtain ⟨hout, -, hframe⟩ := denyHeld_meets s none 0x90014 v
    exact ⟨hout, hframe⟩
  · intro s hup hcore
    refine .intro (exec_capturePairRead s _ true (n := 0xB0018) (by decide)) ?_
    rw [failWide_read hup hcore]
    exact failHeld_meets ..
  · intro s hup hblock
    refine .intro (exec_capturePairRead s _ false (n := 0x50004) (by decide)) ?_
    rw [timeLow_read hup hblock]
    exact timeHeld_meets ..
  · intro s f off b w hup hzero hfour height
    exact .intro rfl (badWidth_meets s f off.toNat b w hup hzero hfour height)
  · intro s f off w hup halign hnone
    refine .intro (exec_unassignedAccess f off w hup halign hnone) ?_
    cases w with
    | true =>
      obtain ⟨hoff, hfn, hwrite, hkind, hcount, hchanges⟩ := unassigned_meets s off.isLt f.isLt true
      exact ⟨hchanges.parts.outbox_eq, hoff, hfn, hwrite, hkind, hcount, hchanges.parts.mono (ps := [.regs, .outbox]) (by decide), hchanges.sameRegs⟩
    | false =>
      obtain ⟨hoff, hfn, hwrite, hkind, hcount, hchanges⟩ := unassigned_meets s off.isLt f.isLt false
      obtain ⟨hout, hframe, hregs⟩ := readFrame (fn := f) (off := off.toNat) (v := 0) hchanges
      exact ⟨hout, hoff, hfn, hwrite, hkind, hcount, hframe, hregs⟩
  · intro s off hup halign hassigned hblock
    refine .intro (exec_blockedRead off hup halign hassigned hblock) ?_
    obtain ⟨hoff, hfn, hwrite, hkind, hcount, hchanges⟩ := blocked_meets s off.isLt false
    obtain ⟨hout, hframe, hregs⟩ := readFrame (fn := 0) (off := off.toNat) (v := 2 ^ 32 - 1) hchanges
    exact ⟨hout, hoff, hfn, hwrite, hkind, hcount, hframe, hregs⟩
  · intro s off hup hhigh hassigned hstopped
    refine .intro (exec_blockedWrite off hup hhigh hassigned hstopped) ?_
    obtain ⟨hoff, hfn, hwrite, hkind, hcount, hchanges⟩ := blocked_meets s off.isLt true
    exact ⟨hoff, hfn, hwrite, hkind, hcount, hchanges.onlyRegs⟩

end Sys2Proof.Machine
end

section
set_option Elab.async false
/-! Port A of the memory die: words, narrow writes and merges. -/

namespace Sys2Proof.Machine

/-! ## The ends of hop cycles with one update -/

/-- The memory die with word `w` of block `b` written and nothing pending. -/
def memWritten (s : State) (b w : Nat) (m : MemWord) : State :=
  { s with mem := { s.mem with words := sparsePut s.mem.words (b * 4096 + w) m, updates := [] } }

/-- The memory die with `u` alone pending. -/
def withUpdate (s : State) (u : MemUpdate) : State := { s with mem := { s.mem with updates := [u] } }

theorem settleTo_empty {s : State} (hu : s.mem.updates = []) (n m : Nat) : settleTo n m s = s := by
  cases n with
  | zero => rfl
  | succ n => simp [settleTo, hu]

theorem settleTo_due {s : State} {u : MemUpdate} {m : Nat} (hu : s.mem.updates = [u]) (hm : u.due s < m) (n : Nat) :
    settleTo (n + 1) m s = settleTo n m (endHc s (u.due s)) := by
  simp [settleTo, hu, hm]

theorem settleTo_later {s : State} {u : MemUpdate} {m : Nat} (hu : s.mem.updates = [u]) (hm : m ≤ u.due s) (n : Nat) :
    settleTo n m s = s := by
  cases n with
  | zero => rfl
  | succ n => simp [settleTo, hu, Nat.not_lt.2 hm]

theorem endHc_writes {s : State} {u : MemUpdate} (hu : s.mem.updates = [u]) (hp : u.port = .portA) (hk : u.kind = .full ∨ u.kind = .merged) :
    endHc s (u.due s) = memWritten s u.block u.word ⟨u.data, false⟩ := by
  rcases hk with hk | hk <;> simp [endHc, hu, hk, takeEffect, MemUpdate.isA, hp, putWord, memWritten]

theorem endHc_reads {s : State} {u : MemUpdate} (hu : s.mem.updates = [u]) (hk : u.kind = .merge none) :
    endHc s (u.due s) = withUpdate s { u with kind := .merge (some (memWord s u.block u.word)) } := by
  simp [endHc, hu, hk, withUpdate, memWord]

theorem mergeRead_good {s : State} {u : MemUpdate} {m : MemWord} (hm : memWord s u.block u.word = some m) (hg : m.poison = false) (n : Nat) :
    mergeRead s u (some m) ⟨.ok, n⟩ = (some (mergeBytes u.be u.data m.data), s) := by
  simp [mergeRead, readWord, hm, hg]

theorem endHc_merges {s : State} {u : MemUpdate} {m : MemWord} (hu : s.mem.updates = [u]) (hp : u.port = .portA)
    (hk : u.kind = .merge (some (some m))) (hm : memWord s u.block u.word = some m) (hg : m.poison = false) :
    endHc s (u.due s) = memWritten s u.block u.word ⟨mergeBytes u.be u.data m.data, false⟩ := by
  have hread := mergeRead_good (s := { s with mem := { s.mem with updates := [] } }) (u := u) (m := m) hm hg 0
  simp [endHc, hu, hk, takeEffect, MemUpdate.isA, hp, hread, putOver, putWord, mergeStatus, memWritten]

theorem wordsAfter_write {t : State} {u : MemUpdate} {n : Nat} (hu : t.mem.updates = [u]) (hp : u.port = .portA)
    (hk : u.kind = .full ∨ u.kind = .merged) (hn : u.due t < hcOf t t.now + n) :
    wordsAfter t n = sparsePut t.mem.words (u.block * 4096 + u.word) ⟨u.data, false⟩ := by
  rw [wordsAfter, hu, List.length_singleton, settleTo_due hu hn, endHc_writes hu hp hk, settleTo_empty rfl]
  rfl

theorem wordsAfter_waiting {t : State} {u : MemUpdate} {n : Nat} (hu : t.mem.updates = [u]) (hk : u.kind = .merge none)
    (hn : hcOf t t.now + n = hcOf t u.since + 3) : wordsAfter t n = t.mem.words := by
  have hdue : u.due t = hcOf t u.since + 2 := by simp [MemUpdate.due, hk, UpdateKind.delay]
  rw [wordsAfter, hu, List.length_singleton, settleTo_due hu (by omega), endHc_reads hu hk]
  rw [settleTo_later (u := { u with kind := .merge (some (memWord t u.block u.word)) }) rfl]
  · rfl
  · exact hn.le

theorem wordsAfter_merge {t : State} {u : MemUpdate} {m : MemWord} {n : Nat} (hu : t.mem.updates = [u]) (hk : u.kind = .merge none)
    (hp : u.port = .portA) (hm : memWord t u.block u.word = some m) (hg : m.poison = false) (hn : hcOf t u.since + 3 < hcOf t t.now + n) :
    wordsAfter t n = sparsePut t.mem.words (u.block * 4096 + u.word) ⟨mergeBytes u.be u.data m.data, false⟩ := by
  have hdue : u.due t = hcOf t u.since + 2 := by simp [MemUpdate.due, hk, UpdateKind.delay]
  rw [wordsAfter, hu, List.length_singleton, settleTo_due hu (by omega), endHc_reads hu hk, hm]
  rw [settleTo_due (u := { u with kind := .merge (some (some m)) }) (s := withUpdate t _) rfl hn 0]
  rw [endHc_merges (s := withUpdate t { u with kind := .merge (some (some m)) }) (u := { u with kind := .merge (some (some m)) }) rfl hp rfl hm hg]
  rfl

/-! ## Port A -/

theorem sum_bytes (n k : Nat) : (List.range k).foldl (fun acc i => acc + (n >>> (8 * i) % 256) * 2 ^ (8 * i)) 0 = n % 2 ^ (8 * k) := by
  induction k with
  | zero => simp [Nat.mod_one]
  | succ k ih =>
    rw [List.range_succ, List.foldl_append, ih, Nat.mul_succ, Nat.pow_add, Nat.mod_mul]
    simp [Nat.shiftRight_eq_div_pow, Nat.mul_comm]

theorem mergeBytes_all (d : BitVec 64) : mergeBytes (BitVec.allOnes 8) d 0 = d := by
  have hbytes : (List.range 8).foldl (fun acc i =>
      acc + (((if (BitVec.allOnes 8).getLsbD i then d else 0).toNat >>> (8 * i)) % 256) * 2 ^ (8 * i)) 0 = d.toNat % 2 ^ (8 * 8) := by
    rw [← sum_bytes d.toNat 8]
    refine List.foldl_ext _ _ _ fun acc i hi => ?_
    rw [BitVec.getLsbD_allOnes, decide_eq_true (List.mem_range.1 hi), if_pos rfl]
  rw [mergeBytes, hbytes, Nat.mod_eq_of_lt d.isLt, BitVec.ofNat_toNat, BitVec.setWidth_eq]

theorem takePoison_clean {s : State} (h : s.stack.poisoned = []) (w : CrossWord) : takePoison s w = (false, s) := by
  simp only [takePoison, h, List.contains_nil, List.erase_nil]
  rw [← h]

/-- The effect of a checked read that meets no error. -/
theorem portARead_answers {s : State} {b : Nat} {w : Nat} {f : Finding} {r : WordRead} (hserves : portAServes s b = true)
    (hsample : portASample s b = s) (hclean : s.stack.poisoned = []) (hf : f.ecc ≠ .double)
    (hread : ∀ i, portRead (portATook s b) true b w f i = (r, portATook s b)) :
    portARead b w f s = { portATook s b with outbox := s.outbox ++ [.portData b (portAEdge s b s.now) r.data r.poison] } := by
  have hpoison := takePoison_clean (s := portATook s b) hclean (.portA (Fin.ofNat 4096 b))
  simp only [portARead, hserves, hsample, hf, hread, hpoison, Bool.not_true, Bool.false_eq_true, if_false, Bool.or_false]
  rfl

theorem portRead_invalid {s : State} {b w : Nat} (hw : memWord s b w = none) (hu : s.mem.updates = []) (f : Finding) (i : Nat) :
    portRead s true b w f i = (⟨0, false⟩, s) := by
  simp [portRead, readWord, hw, ownWrites, hu]

theorem portRead_valid {s : State} {b w : Nat} {m y : MemWord} (hw : memWord s b w = some m) (ho : ownWrites s true b w (some m) = some y) (n i : Nat) :
    portRead s true b w ⟨.ok, n⟩ i = (⟨y.data, y.poison⟩, s) := by
  have hread : readWord s b w ⟨.ok, n⟩ i = (⟨m.data, m.poison⟩, s) := by
    cases hm : m.poison <;> simp [readWord, hw, hm]
  simp only [portRead, hread, hw, Option.isSome_some, if_true, ho]

theorem portAWrite_eq {s : State} {b w : Nat} (hserves : portAServes s b = true) (hsample : portASample s b = s) (hclean : s.stack.poisoned = [])
    (be : BitVec 8) (d : BitVec 64) : portAWrite b w be d s = (writeWord (portATook s b) .portA b w be d).1 := by
  have hpoison := takePoison_clean (s := portATook s b) hclean (.portA (Fin.ofNat 4096 b))
  simp only [portAWrite, hserves, hsample, hpoison, Bool.not_true, Bool.false_eq_true, if_false]

/-- The update that port A accepts now. -/
def acceptedA (s : State) (k : UpdateKind) (b w : Nat) (be : BitVec 8) (d : BitVec 64) : MemUpdate :=
  { kind := k, port := .portA, block := b, word := w, be := be, data := d, since := s.now }

/-- The state in which port A has accepted `u`, with the words newer than a copy as `n`. -/
def tookUpdate (s : State) (b : Nat) (n : List Nat) (u : List MemUpdate) : State :=
  { s with mem := { s.mem with updates := u, portAt := sparsePut s.mem.portAt b s.now, newer := n } }

theorem noteNewer_took {s : State} (hu : s.mem.updates = []) (b w : Nat) : ∃ n, noteNewer (portATook s b) b w = tookUpdate s b n [] := by
  unfold noteNewer
  split
  · exact ⟨_, by rw [tookUpdate, ← hu]; rfl⟩
  · exact ⟨s.mem.newer, by rw [tookUpdate, ← hu]; rfl⟩

theorem wordAtEnd_tookUpdate (s : State) (b w h k : Nat) (n : List Nat) : wordAtEnd (tookUpdate s k n []) b w h = memWord s b w := by
  rw [wordAtEnd, settleTo_empty rfl]
  rfl

/-- What port A takes of a write with `be`, on the state in which it has accepted nothing yet. -/
theorem writeWord_took {s : State} (hu : s.mem.updates = []) (b w : Nat) (be : BitVec 8) (d : BitVec 64) : ∃ n,
    (writeWord (portATook s b) .portA b w be d).1 = tookUpdate s b n (if be = 0 then []
      else if be = BitVec.allOnes 8 then [acceptedA s .full b w be d]
      else if (memWord s b w).isNone then [acceptedA s .full b w be (mergeBytes be d 0)]
      else [acceptedA s (.merge none) b w be d]) := by
  obtain ⟨n, hn⟩ := noteNewer_took hu b w
  refine ⟨n, ?_⟩
  simp only [writeWord, hn, wordAtEnd_tookUpdate]
  split
  · rfl
  · split
    · rfl
    · split <;> rfl

/-- `s` with what a write of port A changes of the memory die taken from `t`. -/
def tookFrom (s t : State) : State :=
  { s with mem := { s.mem with updates := t.mem.updates, portAt := t.mem.portAt, newer := t.mem.newer } }

theorem tookUpdate_parts {s t : State} {b : Nat} {n : List Nat} {u : List MemUpdate} (h : t = tookUpdate s b n u) : t = tookFrom s t := by
  subst h
  rfl

theorem portAWrite_invalid_meets {s : State} {b w : Nat} {be : BitVec 8} {d : BitVec 64} (hw : memWord s b w = none) (hbe : be ≠ 0)
    (hserves : portAServes s b = true) (hsample : portASample s b = s) (hu : s.mem.updates = []) (hclean : s.stack.poisoned = []) :
    wordsAfter (portAWrite b w be d s) 2 = sparsePut s.mem.words (b * 4096 + w) { data := mergeBytes be d 0, poison := false } ∧
      portAWrite b w be d s = tookFrom s (portAWrite b w be d s) := by
  obtain ⟨n, ht⟩ := writeWord_took hu b w be d
  have hone : (if be = BitVec.allOnes 8 then [acceptedA s .full b w be d] else [acceptedA s .full b w be (mergeBytes be d 0)]) =
      [acceptedA s .full b w be (mergeBytes be d 0)] := by
    split
    · next hall => rw [hall, mergeBytes_all]
    · rfl
  rw [portAWrite_eq hserves hsample hclean]
  rw [if_neg hbe, hw, Option.isNone_none, if_pos rfl, hone] at ht
  refine ⟨?_, tookUpdate_parts ht⟩
  rw [ht, wordsAfter_write (u := acceptedA s .full b w be (mergeBytes be d 0)) rfl rfl (.inl rfl)]
  · rfl
  · exact Nat.lt_succ_self _

theorem portAWrite_narrow_meets {s : State} {b w : Nat} {be : BitVec 8} {d : BitVec 64} {m : MemWord} (hw : memWord s b w = some m)
    (hm : m.poison = false) (hbe : be ≠ 0) (hall : be ≠ BitVec.allOnes 8) (hserves : portAServes s b = true) (hsample : portASample s b = s)
    (hu : s.mem.updates = []) (hclean : s.stack.poisoned = []) :
    portAWrite b w be d s = tookFrom s (portAWrite b w be d s) ∧
      wordsAfter (portAWrite b w be d s) 3 = s.mem.words ∧
      wordsAfter (portAWrite b w be d s) 4 = sparsePut s.mem.words (b * 4096 + w) { data := mergeBytes be d m.data, poison := false } := by
  obtain ⟨n, ht⟩ := writeWord_took hu b w be d
  rw [portAWrite_eq hserves hsample hclean]
  rw [if_neg hbe, if_neg hall, hw, Option.isNone_some, if_neg (by decide)] at ht
  refine ⟨tookUpdate_parts ht, ?_, ?_⟩
  · rw [ht, wordsAfter_waiting (t := tookUpdate s b n _) (u := acceptedA s (.merge none) b w be d) rfl rfl rfl]
    rfl
  · rw [ht, wordsAfter_merge (t := tookUpdate s b n _) (u := acceptedA s (.merge none) b w be d) rfl rfl rfl hw hm (Nat.lt_succ_self _)]
    rfl

/-! ## The merge of a narrow write -/

theorem hcTicks_pos (s : State) : 0 < hcTicks s := by
  unfold hcTicks
  split <;> omega

theorem advanceTo_keeps (s : State) (k : Nat) : (advanceTo s k).mem = s.mem ∧ hcTicks (advanceTo s k) = hcTicks s := by
  unfold advanceTo
  split <;> exact ⟨rfl, rfl⟩

/-- The merge of the one pending narrow write finds that it has read its word. -/
theorem settled_merge {s : State} {n : MemUpdate} (hu : s.mem.updates = [n]) (hk : n.kind = .merge none) (hnow : s.now ≤ n.since + 3 * hcTicks s) :
    settleMem (advanceTo s (n.since + hcs s 3)) = withUpdate (advanceTo s (n.since + hcs s 3))
        { n with kind := .merge (some (memWord s n.block n.word)) } ∧
      (advanceTo s (n.since + hcs s 3)).now = n.since + 3 * hcTicks s := by
  have hat : (advanceTo s (n.since + hcs s 3)).now = n.since + 3 * hcTicks s := by
    unfold advanceTo hcs
    split
    · exact Nat.add_sub_cancel' hnow
    · omega
  obtain ⟨hmem, hhc⟩ := advanceTo_keeps s (n.since + hcs s 3)
  generalize advanceTo s (n.since + hcs s 3) = t at *
  have hut : t.mem.updates = [n] := by rw [hmem, hu]
  have hdue : n.due t = hcOf t n.since + 2 := by simp [MemUpdate.due, hk, UpdateKind.delay]
  have hend : hcOf t t.now = hcOf t n.since + 3 := by rw [hcOf, hcOf, hat, hhc, Nat.add_mul_div_right _ _ (hcTicks_pos s)]
  refine ⟨?_, hat⟩
  rw [settleMem, hut, List.length_singleton, settleTo_due hut (by omega), endHc_reads hut hk]
  rw [settleTo_later (u := { n with kind := .merge (some (memWord t n.block n.word)) }) rfl]
  · rw [memWord, memWord, hmem]
  · exact hend.le

/-- `s` with its time, and what else a merge changes, taken from `t`. -/
def mergedFrom (s t : State) : State := { s with now := t.now, tim := t.tim, mem := { s.mem with updates := t.mem.updates } }

theorem mergedFrom_advanceTo (s : State) (k : Nat) (u : MemUpdate) :
    withUpdate (advanceTo s k) u = mergedFrom s (withUpdate (advanceTo s k) u) := by
  unfold advanceTo
  split <;> rfl

/-- The pending merge `n`, its word `m` read. -/
def hasRead (n : MemUpdate) (m : MemWord) : MemUpdate := { n with kind := .merge (some (some m)) }

/-- What the merge of the one pending narrow write makes of what its read half gives. -/
theorem narrowMerge_eq {s : State} {n : MemUpdate} {m : MemWord} {f : Finding} (hu : s.mem.updates = [n]) (hk : n.kind = .merge none)
    (hnow : s.now ≤ n.since + 3 * hcTicks s) (hw : memWord s n.block n.word = some m) :
    let r := mergeRead (withUpdate (advanceTo s (n.since + hcs s 3)) (hasRead n m)) (hasRead n m) (some m) f
    let l := match r.1 with
      | some d => [{ n with kind := .merged, data := d }]
      | none => []
    narrowMerge f s = mergeStatus { r.2 with mem := { r.2.mem with updates := l } } (hasRead n m) r.1.isNone := by
  obtain ⟨hsettled, -⟩ := settled_merge hu hk hnow
  rw [hw] at hsettled
  simp only [narrowMerge, hu, hk, hsettled, List.find?_cons, withUpdate, hasRead, beq_self_eq_true, Bool.and_self, Option.getD_some]
  generalize mergeRead _ _ _ _ = r
  rcases hr : r.1 with _ | d
  · simp
  · simp

theorem memWord_later (s : State) (k : Nat) {n u : MemUpdate} {m : MemWord} (hw : memWord s n.block n.word = some m) :
    memWord (withUpdate (advanceTo s k) u) n.block n.word = some m := by
  unfold advanceTo
  split <;> exact hw

theorem narrowMerge_good_meets {s : State} {n : MemUpdate} {m : MemWord} (hu : s.mem.updates = [n]) (hk : n.kind = .merge none)
    (hp : n.port = .portA) (hnow : s.now ≤ n.since + 3 * hcTicks s) (hw : memWord s n.block n.word = some m) (hm : m.poison = false) :
    (narrowMerge ⟨.ok, 0⟩ s).now = n.since + 3 * hcTicks s ∧
      wordsAfter (narrowMerge ⟨.ok, 0⟩ s) 1 = sparsePut s.mem.words (n.block * 4096 + n.word) ⟨mergeBytes n.be n.data m.data, false⟩ ∧
      narrowMerge ⟨.ok, 0⟩ s = mergedFrom s (narrowMerge ⟨.ok, 0⟩ s) := by
  obtain ⟨-, hat⟩ := settled_merge hu hk hnow
  obtain ⟨hmem, hticks⟩ := advanceTo_keeps s (n.since + hcs s 3)
  have hread := mergeRead_good (s := withUpdate (advanceTo s (n.since + hcs s 3)) (hasRead n m)) (u := hasRead n m)
    (memWord_later s _ hw) hm 0
  have hmerge : narrowMerge ⟨.ok, 0⟩ s = withUpdate (advanceTo s (n.since + hcs s 3))
      { n with kind := .merged, data := mergeBytes n.be n.data m.data } := by
    rw [narrowMerge_eq hu hk hnow hw, hread]
    simp [mergeStatus, hasRead, hp, withUpdate]
  rw [hmerge]
  refine ⟨hat, ?_, mergedFrom_advanceTo _ _ _⟩
  rw [wordsAfter_write (t := withUpdate _ _) (u := { n with kind := .merged, data := mergeBytes n.be n.data m.data }) rfl hp (.inr rfl)]
  · exact congrArg (fun w => sparsePut w _ _) (congrArg (·.words) hmem)
  · change hcOf (advanceTo s _) n.since + 3 < hcOf (advanceTo s _) (advanceTo s (n.since + hcs s 3)).now + 1
    rw [hat, hcOf, hcOf, hticks, Nat.add_mul_div_right _ _ (hcTicks_pos s)]
    exact Nat.lt_succ_self _

theorem narrowMerge_poisoned_meets {s : State} {n : MemUpdate} {m : MemWord} {f : Finding} (hu : s.mem.updates = [n]) (hk : n.kind = .merge none)
    (hp : n.port = .portA) (hnow : s.now ≤ n.since + 3 * hcTicks s) (hw : memWord s n.block n.word = some m) (hm : m.poison = true)
    (hf : f.ecc ≠ .double) :
    (narrowMerge f s).mem = { s.mem with updates := [] } ∧
      (narrowMerge f s).outbox = s.outbox ++ [.werr n.block (portAEdge s n.block n.since)] ∧
      narrowMerge f s =
        { s with now := (narrowMerge f s).now, tim := (narrowMerge f s).tim, mem := (narrowMerge f s).mem, outbox := (narrowMerge f s).outbox } := by
  have hread : mergeRead (withUpdate (advanceTo s (n.since + hcs s 3)) (hasRead n m)) (hasRead n m) (some m) f =
      (none, withUpdate (advanceTo s (n.since + hcs s 3)) (hasRead n m)) := by
    simp [mergeRead, readWord, hasRead, hm, hf, memWord_later s (n.since + hcs s 3) hw]
  rw [narrowMerge_eq hu hk hnow hw, hread]
  simp only [mergeStatus, hasRead, hp, Option.isNone_none, if_true]
  unfold advanceTo
  split <;> exact ⟨rfl, rfl, rfl⟩

/-- Settles O26, clause by clause. -/
theorem memoryDieWordsAndMerges : Obligations.MemoryDieWordsAndMerges := by
  unfold Obligations.MemoryDieWordsAndMerges
  refine ⟨?_, ?_, ?_, ?_, ?_, ?_, ?_⟩
  · intro s b w f hw hserves hsample hu hclean hf
    refine Answers.intro (t := portARead b w f s) rfl ?_
    rw [portARead_answers hserves hsample hclean hf fun i => portRead_invalid (s := portATook s b) hw hu f i]
    exact ⟨sparseFind_put_same _ _ _, rfl⟩
  · intro s b w m y hw hserves hsample hclean hown
    refine Answers.intro (t := portARead b w ⟨.ok, 0⟩ s) rfl ?_
    rw [portARead_answers hserves hsample hclean (by decide) fun i => portRead_valid (s := portATook s b) hw hown 0 i]
    exact ⟨sparseFind_put_same _ _ _, rfl⟩
  · intro s b w be d hw hbe hserves hsample hu hclean
    exact Answers.intro rfl (portAWrite_invalid_meets hw hbe hserves hsample hu hclean)
  · intro s b w be d m hw hm hbe hall hserves hsample hu hclean
    exact Answers.intro rfl (portAWrite_narrow_meets hw hm hbe hall hserves hsample hu hclean)
  · intro s b w d hserves hsample hu hclean
    refine Answers.intro (t := portAWrite b w 0 d s) rfl ?_
    obtain ⟨n, ht⟩ := writeWord_took hu b w 0 d
    rw [portAWrite_eq hserves hsample hclean, ht, if_pos rfl, tookUpdate, ← hu]
  · intro s n m hu hk hp hnow hw hm
    exact Answers.intro rfl (narrowMerge_good_meets hu hk hp hnow hw hm)
  · intro s n m f hu hk hp hnow hw hm hf
    exact Answers.intro rfl (narrowMerge_poisoned_meets hu hk hp hnow hw hm hf)

end Sys2Proof.Machine
end

section
set_option Elab.async false
/-! Reads and writes of the DRAM controllers. -/

namespace Sys2Proof.Machine

/-! ## Requests, operations and controllers -/

theorem find?_map_of_matching {α : Type} (l : List α) (p : α → Bool) (f : α → α) (hp : ∀ x, p x = true → p (f x) = true) :
    (l.map fun x => if p x then f x else x).find? p = (l.find? p).map f := by
  induction l with
  | nil => rfl
  | cons x l ih =>
    rw [List.map_cons, List.find?_cons, List.find?_cons]
    cases hx : p x with
    | false => simpa [hx] using ih
    | true => simp [hp x hx]

theorem reqOf_mapReq {s : State} {i t : Nat} {f : NocReq → NocReq} (hf : ∀ r, (f r).init = r.init ∧ (f r).tag = r.tag) :
    reqOf (mapReq s i t f) i t = (reqOf s i t).map f :=
  find?_map_of_matching _ _ _ fun r hr => by rw [(hf r).1, (hf r).2, hr]

theorem opOf_mapOp {s : State} {i t : Nat} {f : EncOp → EncOp} (hf : ∀ o, (f o).req = o.req) : opOf (mapOp s i t f) i t = (opOf s i t).map f :=
  find?_map_of_matching _ _ _ fun o ho => by rw [hf o, ho]

theorem opOf_staged (s : State) (i t : Nat) (st : EncStage) :
    opOf (mapOp s i t fun o => { o with stage := st }) i t = (opOf s i t).map fun o => { o with stage := st } :=
  opOf_mapOp fun _ => rfl

theorem opOf_setCtrl (s : State) (c : Nat) (x : DramCtrl) (i t : Nat) : opOf (setCtrl s c x) i t = opOf s i t := rfl

theorem stage_of_staged {s : State} {i t : Nat} {st : EncStage} {x : EncOp}
    (hx : x ∈ opOf (mapOp s i t fun o => { o with stage := st }) i t) : x.stage = st := by
  rw [opOf_staged] at hx
  obtain ⟨o, -, rfl⟩ := Option.map_eq_some_iff.1 hx
  rfl

theorem ids_of_opOf {s : State} {i t : Nat} {o : EncOp} (h : opOf s i t = some o) : o.req.init = i ∧ o.req.tag = t := by
  simpa using List.find?_some h

theorem ctrl_setCtrl_other (s : State) {c : Nat} (hc : c < 2) (x : DramCtrl) : ctrl (setCtrl s c x) (1 - c) = ctrl s (1 - c) :=
  ctrl_setCtrl_ne s c (1 - c) x fun h => by
    have hiff := iff_of_eq h
    omega

theorem setCtrl_ctrl (s : State) (c : Nat) : setCtrl s c (ctrl s c) = s := by
  unfold ctrl setCtrl
  split <;> rfl

theorem setCtrl_setCtrl (s : State) (c : Nat) (x y : DramCtrl) : setCtrl (setCtrl s c x) c y = setCtrl s c y := by
  unfold setCtrl
  split <;> rfl

theorem ctrlOfLoc_lt (s : State) (loc : Nat) : ctrlOfLoc s loc < 2 := by
  unfold ctrlOfLoc
  split
  · unfold b2n
    split <;> decide
  · split <;> decide

/-- The machine with another state of the controllers' queues. -/
theorem setCtrl_parts (s : State) (c : Nat) (x : DramCtrl) :
    (setCtrl s c x).dram.lines = s.dram.lines ∧ (setCtrl s c x).dram.epoch = s.dram.epoch ∧ setCtrl s c x = { s with dram := (setCtrl s c x).dram } := by
  unfold setCtrl
  split <;> exact ⟨rfl, rfl, rfl⟩

/-! ## Answers of the engine -/

/-- The engine without its operations for a request. -/
def withoutOp (s : State) (i t : Nat) : State :=
  { s with enc := { s.enc with ops := s.enc.ops.filter (fun o => !(o.req.init == i && o.req.tag == t)) } }

theorem opOf_withoutOp (s : State) (i t : Nat) : opOf (withoutOp s i t) i t = none := by
  simp only [opOf, withoutOp, List.find?_eq_none, List.mem_filter]
  rintro o ⟨-, ho⟩
  simpa [imp_iff_not_or] using ho

/-- One more line of a write is served. -/
theorem answerLine_write {s : State} {i t : Nat} {r : NocReq} (hr : reqOf s i t = some r) (hw : r.write = true) (st : Nat) (d : BitVec 512)
    (late : Nat) : answerLine s i t st d late = served (withoutOp s i t) i t r.len st (hcs s late) := by
  have hr' : reqOf (withoutOp s i t) i t = some r := hr
  simp only [answerLine]
  change (match reqOf (withoutOp s i t) i t with | none => _ | some r => _) = _
  rw [hr']
  simp only [hw, if_true]
  rfl

/-- A line of a write that is served without an error: its request, and what else of the machine it touches. -/
theorem served_write {s : State} {i t : Nat} {r : NocReq} (hr : reqOf s i t = some r) (total dt : Nat) :
    ∀ q ∈ reqOf (served s i t total 0 dt) i t, q.done = r.done + 1 ∧ q.status = r.status := by
  intro q hq
  rw [served, reqOf_mapReq (fun _ => by exact ⟨rfl, rfl⟩), hr] at hq
  obtain rfl := Option.some.inj hq
  exact ⟨rfl, by simp only [worseStatus]; split <;> simp_all⟩

/-- A refused line of a read. -/
theorem denyLine_read {s : State} {q : DramReq} {r : NocReq} (hr : reqOf s q.init q.tag = some r) (hw : r.write = false) :
    (∀ x ∈ reqOf (denyLine s q) q.init q.tag, x.done = r.done + 1 ∧ x.status = worseStatus r.status Status.accessDenied.code ∧
      x.respPoison = r.respPoison ++ [r.done] ∧ x.respData = r.respData ++ [0]) ∧ opOf (denyLine s q) q.init q.tag = none ∧
    denyLine s q = { s with enc := { s.enc with ops := (denyLine s q).enc.ops }, noc := { s.noc with reqs := (denyLine s q).noc.reqs } } := by
  have hr' : reqOf (withoutOp s q.init q.tag) q.init q.tag = some r := hr
  have heq : denyLine s q = served (mapReq (withoutOp s q.init q.tag) q.init q.tag fun r =>
      { r with respData := r.respData ++ [0], respPoison := r.respPoison ++ [r.done] }) q.init q.tag r.len Status.accessDenied.code (hcs s 0) := by
    simp only [denyLine, answerLine]
    change (match reqOf (withoutOp s q.init q.tag) q.init q.tag with | none => _ | some r => _) = _
    rw [hr']
    simp only [hw]
    rfl
  rw [heq]
  refine ⟨fun x hx => ?_, opOf_withoutOp s q.init q.tag, rfl⟩
  rw [served, reqOf_mapReq (fun _ => by exact ⟨rfl, rfl⟩), reqOf_mapReq (fun _ => by exact ⟨rfl, rfl⟩), hr'] at hx
  obtain rfl := Option.some.inj hx
  exact ⟨rfl, rfl, rfl, rfl⟩

/-- An operation that waits for no metadata reads none. -/
theorem opMeta_ready {s : State} {i t : Nat} {o : EncOp} (ho : opOf s i t = some o) (hn : o.need = []) : opMeta s i t = s := by
  simp [opMeta, ho, hn, readMeta]

theorem enqueueRead_fresh {s : State} {c : Nat} {q : DramReq} (h : (ctrl s c).writes.any (fun w => w.line == q.line) = false) :
    enqueueRead s c q = setCtrl s c { ctrl s c with reads := (ctrl s c).reads ++ [{ q with op := .read, since := s.now }] } := by
  have hnone : (ctrl s c).writes.findIdx? (fun w => w.line == q.line && decide (w.since ≤ s.now)) = none := by
    rw [List.findIdx?_eq_none_iff]
    intro w hw
    rw [List.any_eq_false.1 h w hw |> Bool.eq_false_iff.2, Bool.false_and]
  simp only [enqueueRead, settleOlder, hnone]

theorem ctrl_enqueueWrite (s : State) (c : Nat) (r : DramReq) :
    (ctrl (enqueueWrite s c r) c).writes.any (fun q => q.line == r.line && q.data == r.data) = true ∧
      ∀ q ∈ (ctrl s c).writes, q.line ≠ r.line → q ∈ (ctrl (enqueueWrite s c r) c).writes := by
  simp only [enqueueWrite, ctrl_setCtrl_same]
  split
  · next h =>
    obtain ⟨w, hw, hl⟩ := List.any_eq_true.1 h
    refine ⟨List.any_eq_true.2 ⟨_, List.mem_map_of_mem hw, by simp [eq_of_beq hl]⟩, fun q hq hne => ?_⟩
    exact List.mem_map.2 ⟨q, hq, if_neg (by simpa using hne)⟩
  · exact ⟨by simp, fun q hq _ => List.mem_append_left _ hq⟩

/-! ## A read that issues -/

theorem issueThese_nil (s : State) (c : Nat) : issueThese s c [] = s := by
  have hall : (ctrl s c).writes.filter (fun q => !([] : List DramReq).contains q) = (ctrl s c).writes := List.filter_eq_self.2 fun _ _ => rfl
  simp only [issueThese, List.foldl_nil, hall]
  exact setCtrl_ctrl s c

/-- A controller without pending writes ends its drain. -/
theorem settleLine_idle {s : State} {c : Nat} (h : (ctrl s c).writes = []) (line t : Nat) :
    settleLine s c line t = setCtrl s c { ctrl s c with draining := false } := by
  have hsettle : ∀ x : DramCtrl, x.writes = [] → settleOlder (setCtrl s c x) c line t = setCtrl s c x := fun x hx => by
    simp [settleOlder, hx]
  simp only [settleLine]
  cases hd : (ctrl s c).draining with
  | true =>
    have hnoissue : issueWrites s c ((ctrl s c).writes.length - 16) = s := by
      rw [issueWrites, h, List.filter_nil, List.take_nil, issueThese_nil]
    have hempty : decide (16 < (ctrl s c).writes.length) = false := by rw [h]; rfl
    simp only [if_true, hnoissue, hempty]
    exact hsettle _ h
  | false =>
    have hself : setCtrl s c { ctrl s c with draining := false } = s := by rw [← hd, setCtrl_ctrl]
    rw [hself]
    simpa [setCtrl_ctrl] using hsettle (ctrl s c) h

/-- The controller after commands have entered a retry buffer: its queues stand. -/
theorem noteIssued_queues (s : State) (c : Nat) (r : DramReq) : ∃ y, noteIssued s c r = setCtrl s c y ∧ y.reads = (ctrl s c).reads ∧
    y.writes = (ctrl s c).writes ∧ y.draining = (ctrl s c).draining := by
  refine ⟨_, rfl, ?_⟩
  unfold DramCtrl.setSub
  split <;> exact ⟨rfl, rfl, rfl⟩

theorem lineCheck_good (s : State) (c : Nat) : lineCheck s c { bad := 0 } = .ok := by
  rw [lineCheck]
  exact if_pos (by decide +kernel)

/-- A read that finds no error delivers what the line holds, beside the pending writes. -/
theorem readLine_good {s : State} {c line : Nat} (hc : ctrlOfLoc s (line * 64) = c) (hw : (ctrl s c).writes = []) (pa init t : Nat) :
    ∃ y, readLine s line { bad := 0 } pa init t = (⟨(dramLine s line).data, (dramLine s line).poison⟩, setCtrl s c y) ∧
      y.reads = (ctrl s c).reads ∧ y.writes = [] := by
  obtain ⟨y, hy, hreads, hwrites, -⟩ := noteIssued_queues s c
    { init := init, tag := 0, pa := pa, line := line, op := .read, data := 0, be := BitVec.allOnes 64, qos := 1, since := s.now }
  refine ⟨y, ?_, hreads, hwrites.trans hw⟩
  have hline : dramLine (setCtrl s c y) line = dramLine s line := by
    unfold dramLine setCtrl
    split <;> rfl
  simp only [readLine, hc, hy, ctrl_setCtrl_same, hwrites, hw, List.find?_nil, hline, lineCheck_good]
  cases hp : (dramLine s line).poison <;> simp

/-- The read that issues without pending writes: what the engine hands on, over a state with other queues. -/
theorem dramData_idle {s : State} {c : Nat} {q : DramReq} (haccepts : ctrlAccepts s c = true) (hnext : nextRead s c = some q)
    (hc : ctrlOfLoc s (q.line * 64) = c) (hw : (ctrl s c).writes = []) :
    ∃ y, dramData c { bad := 0 } s = (readBack (setCtrl s c y) q ⟨(dramLine s q.line).data, (dramLine s q.line).poison⟩).getD
        (settleLine s c q.line q.since) ∧ y.reads = (ctrl s c).reads.erase q ∧ y.writes = [] := by
  have hsettle := settleLine_idle hw q.line q.since
  obtain ⟨y, hread, hreads, hwrites⟩ := readLine_good (s := setCtrl s c { ctrl s c with draining := false, reads := (ctrl s c).reads.erase q })
    (c := c) (line := q.line) (by rw [← hc]; rfl) (by rw [ctrl_setCtrl_same]; exact hw) q.pa q.init q.since
  rw [ctrl_setCtrl_same] at hreads
  rw [setCtrl_setCtrl] at hread
  have hline : dramLine (setCtrl s c { ctrl s c with draining := false, reads := (ctrl s c).reads.erase q }) q.line = dramLine s q.line := by
    unfold dramLine setCtrl
    split <;> rfl
  rw [hline] at hread
  refine ⟨y, ?_, hreads, hwrites⟩
  simp only [dramData, haccepts, hnext, hsettle, ctrl_setCtrl_same, setCtrl_setCtrl, hread]
  rfl

theorem nextRead_free {s : State} {c : Nat} {q : DramReq} (h : nextRead s c = some q) : lineHeld s q.line = false := by
  have hmem : q ∈ (ctrl s c).reads.filter (fun r => !lineHeld s r.line) := by
    simp only [nextRead] at h
    split at h
    · next hf => exact Option.some.inj h ▸ List.mem_of_find?_eq_some hf
    · split at h
      · next hf => exact Option.some.inj h ▸ List.mem_of_find?_eq_some hf
      · split at h
        · next hf => exact Option.some.inj h ▸ List.mem_of_find?_eq_some hf
        · exact List.mem_of_mem_head? h
  simpa using (List.mem_filter.1 hmem).2

theorem nextRead_only {s : State} {c : Nat} {q : DramReq} (hr : (ctrl s c).reads = [q]) (hfree : lineHeld s q.line = false) :
    nextRead s c = some q := by
  have hl : (ctrl s c).reads.filter (fun r => !lineHeld s r.line) = [q] := by rw [hr]; simp [hfree]
  simp only [nextRead, hl, List.find?_singleton, List.head?_cons]
  split
  · next h => exact h.symm.trans (by split at h <;> simp_all)
  · split
    · next h => exact h.symm.trans (by split at h <;> simp_all)
    · split
      · next h => exact h.symm.trans (by split at h <;> simp_all)
      · rfl

/-- The one pending write of a line issues before a younger read of it. -/
theorem settleLine_issues {s : State} {c line t : Nat} {w : DramReq} (hw : (ctrl s c).writes = [w]) (hd : (ctrl s c).draining = false)
    (hl : w.line = line) (ht : w.since ≤ t) (hfree : lineHeld s line = false) :
    ∃ y, settleLine s c line t = setCtrl (putLine s line ⟨w.data, false⟩) c y ∧ y.reads = (ctrl s c).reads ∧ y.writes = [] ∧ y.draining = false := by
  subst hl
  obtain ⟨y, hy, hreads, -, hdraining⟩ := noteIssued_queues (putLine s w.line ⟨w.data, false⟩) c w
  refine ⟨{ y with writes := [] }, ?_, hreads, rfl, hdraining.trans hd⟩
  simp [settleLine, hd, settleOlder, hw, ht, hfree, issueThese, hy, setCtrl_setCtrl]

/-- The read that issues after the one pending write of its line. -/
theorem dramData_after_write {s : State} {c : Nat} {q w : DramReq} (haccepts : ctrlAccepts s c = true) (hnext : nextRead s c = some q)
    (hc : ctrlOfLoc s (q.line * 64) = c) (hw : (ctrl s c).writes = [w]) (hd : (ctrl s c).draining = false) (hl : w.line = q.line)
    (ht : w.since ≤ q.since) :
    ∃ y u, dramData c { bad := 0 } s = (readBack (setCtrl (putLine s q.line ⟨w.data, false⟩) c y) q ⟨w.data, false⟩).getD u ∧ y.writes = [] := by
  obtain ⟨y, hsettle, -, hwrites, hdraining⟩ := settleLine_issues hw hd hl ht (nextRead_free hnext)
  obtain ⟨z, hread, -, hzw⟩ := readLine_good (s := setCtrl (putLine s q.line ⟨w.data, false⟩) c { y with reads := y.reads.erase q })
    (c := c) (line := q.line) (by rw [← hc]; rfl) (by rw [ctrl_setCtrl_same]; exact hwrites) q.pa q.init q.since
  have hline : dramLine (setCtrl (putLine s q.line ⟨w.data, false⟩) c { y with reads := y.reads.erase q }) q.line = ⟨w.data, false⟩ := by
    rw [dramLine, (setCtrl_parts _ _ _).1]
    simp only [putLine, sparseFind_put_same, Option.getD_some]
  rw [hline, setCtrl_setCtrl] at hread
  refine ⟨z, settleLine s c q.line q.since, ?_, hzw⟩
  simp only [dramData, haccepts, hnext, hsettle, ctrl_setCtrl_same, setCtrl_setCtrl, hread]
  rw [hdraining]
  rfl

/-! ## The operations of the engine -/

theorem ctrlAccepts_online {s : State} {c : Nat} (h : ctrlAccepts s c = true) : s.rd DRC_STATUS.state c ≠ drOffline := by
  intro hoff
  simp [ctrlAccepts, hoff, drActive, drOffline] at h

theorem dramRead_queues {s : State} {i t : Nat} {o : EncOp} (ho : opOf s i t = some o) (hs : o.stage = .toController) (hn : o.need = [])
    (hop : o.req.op = .read) (hw : (ctrl s (ctrlOfLoc s (o.req.line * 64))).writes.any (fun q => q.line == o.req.line) = false)
    (hacc : ctrlAccepts s (ctrlOfLoc s (o.req.line * 64)) = true) (hroom : (ctrl s (ctrlOfLoc s (o.req.line * 64))).reads.length < 64) :
    dramRead i t s = mapOp (setCtrl s (ctrlOfLoc s (o.req.line * 64)) { ctrl s (ctrlOfLoc s (o.req.line * 64)) with
      reads := (ctrl s (ctrlOfLoc s (o.req.line * 64))).reads ++ [{ o.req with op := .read, since := s.now }] }) i t
        (fun o => { o with stage := .queued }) := by
  have honline := ctrlAccepts_online hacc
  simp only [dramRead, opMeta_ready ho hn, ho]
  simp only [hop, hs, honline, readRoom, hacc, hroom, enqueueRead_fresh hw]
  simp

theorem dramRead_denied {s : State} {i t : Nat} {o : EncOp} (ho : opOf s i t = some o) (hs : o.stage = .toController) (hn : o.need = [])
    (hop : o.req.op = .read) (hoff : s.rd DRC_STATUS.state (ctrlOfLoc s (o.req.line * 64)) = drOffline) : dramRead i t s = denyLine s o.req := by
  simp only [dramRead, opMeta_ready ho hn, ho]
  simp [hop, hs, hoff]

theorem dramWrite_acknowledged {s : State} {i t : Nat} {o : EncOp} (ho : opOf s i t = some o) (hs : o.stage = .toController) (hn : o.need = [])
    (hseal : o.sealing = false) (hop : o.req.op = .write) (hbe : o.req.be = BitVec.allOnes 64) (he : o.entry = none)
    (hacc : ctrlAccepts s (ctrlOfLoc s (o.req.line * 64)) = true) (hroom : writeRoom s (ctrlOfLoc s (o.req.line * 64)) o.req.line = true) :
    dramWrite i t s = answerLine (enqueueWrite s (ctrlOfLoc s (o.req.line * 64)) { o.req with since := s.now }) i t 0 0 o.late := by
  have honline := ctrlAccepts_online hacc
  simp only [dramWrite, opMeta_ready ho hn, ho]
  simp only [hop, hs, hseal, hbe, honline, hacc, hroom, installTag, he]
  simp

/-- The read of a partial write, in its controller's read queue. -/
def partRead (s : State) (o : EncOp) : DramReq := { o.req with use := .part, op := .read, since := s.now }

/-- The machine with the read of the operation `o` alone in its controller's read queue. -/
def partQueued (s : State) (i t : Nat) (o : EncOp) : State :=
  mapOp (setCtrl s (ctrlOfLoc s (o.req.line * 64)) { ctrl s (ctrlOfLoc s (o.req.line * 64)) with reads := [partRead s o] }) i t
    (fun o => { o with stage := .queued })

theorem ctrl_partQueued (s : State) (i t : Nat) (o : EncOp) : ctrl (partQueued s i t o) (ctrlOfLoc s (o.req.line * 64)) =
    { ctrl s (ctrlOfLoc s (o.req.line * 64)) with reads := [partRead s o] } := ctrl_setCtrl_same _ _ _

theorem dramPartial_issues {s : State} {i t : Nat} {o : EncOp} (ho : opOf s i t = some o) (hs : o.stage = .toController)
    (hseal : o.sealing = false) (hop : o.req.op = .write) (hbe : o.req.be ≠ BitVec.allOnes 64)
    (hacc : ctrlAccepts s (ctrlOfLoc s (o.req.line * 64)) = true) (hreads : (ctrl s (ctrlOfLoc s (o.req.line * 64))).reads = [])
    (hheld : lineHeld s o.req.line = false) (hw : (ctrl s (ctrlOfLoc s (o.req.line * 64))).writes = []) :
    nextRead (partQueued s i t o) (ctrlOfLoc s (o.req.line * 64)) = some (partRead s o) ∧
      dramPartial i t { bad := 0 } s = dramData (ctrlOfLoc s (o.req.line * 64)) { bad := 0 } (partQueued s i t o) := by
  have honline := ctrlAccepts_online hacc
  have hctrl := ctrl_partQueued s i t o
  have hfree : lineHeld (partQueued s i t o) o.req.line = false := by
    rw [← hheld]
    simp only [lineHeld]
    rw [show ctrlOfLoc (partQueued s i t o) (o.req.line * 64) = ctrlOfLoc s (o.req.line * 64) from rfl, hctrl]
    rfl
  have hnext := nextRead_only (c := ctrlOfLoc s (o.req.line * 64)) (q := partRead s o) (by rw [hctrl]) hfree
  refine ⟨hnext, ?_⟩
  obtain ⟨hi, ht⟩ := ids_of_opOf ho
  have henqueue := enqueueRead_fresh (s := s) (c := ctrlOfLoc s (o.req.line * 64)) (q := { o.req with use := .part, op := .write }) (by simp [hw])
  rw [hreads, List.nil_append] at henqueue
  have hroom : readRoom s (ctrlOfLoc s (o.req.line * 64)) = true := by simp [readRoom, hacc, hreads]
  simp only [dramPartial, ho, hs, hseal, hop, honline, hroom, henqueue]
  have hmine : (nextRead (partQueued s i t o) (ctrlOfLoc s (o.req.line * 64))).any (fun q => q.use == .part && q.init == i && q.tag == t) = true := by
    rw [hnext]
    simp [partRead, hi, ht]
  rw [if_neg (by simpa using hbe), if_neg (by simp), if_pos (by simp)]
  change serveRead (ctrlOfLoc s (o.req.line * 64)) (fun q => q.use == .part && q.init == i && q.tag == t) { bad := 0 } (partQueued s i t o) = _
  exact if_pos hmine

/-! ## The statement -/

theorem dramRead_meets {s : State} {i t : Nat} {o : EncOp} (ho : opOf s i t = some o) (hs : o.stage = .toController) (hn : o.need = [])
    (hop : o.req.op = .read) (hw : (ctrl s (ctrlOfLoc s (o.req.line * 64))).writes.any (fun q => q.line == o.req.line) = false)
    (hacc : ctrlAccepts s (ctrlOfLoc s (o.req.line * 64)) = true) (hroom : (ctrl s (ctrlOfLoc s (o.req.line * 64))).reads.length < 64) :
    (ctrl (dramRead i t s) (ctrlOfLoc s (o.req.line * 64))).reads =
        (ctrl s (ctrlOfLoc s (o.req.line * 64))).reads ++ [{ o.req with op := .read, since := s.now }] ∧
      (∀ q ∈ opOf (dramRead i t s) i t, q = { o with stage := .queued }) ∧ (dramRead i t s).dram.lines = s.dram.lines ∧
      (dramRead i t s).dram.epoch = s.dram.epoch ∧
      ctrl (dramRead i t s) (1 - ctrlOfLoc s (o.req.line * 64)) = ctrl s (1 - ctrlOfLoc s (o.req.line * 64)) ∧
      dramRead i t s = { s with dram := (dramRead i t s).dram, enc := { s.enc with ops := (dramRead i t s).enc.ops } } := by
  rw [dramRead_queues ho hs hn hop hw hacc hroom]
  obtain ⟨hlines, hepoch, -⟩ := setCtrl_parts s (ctrlOfLoc s (o.req.line * 64)) { ctrl s (ctrlOfLoc s (o.req.line * 64)) with
    reads := (ctrl s (ctrlOfLoc s (o.req.line * 64))).reads ++ [{ o.req with op := .read, since := s.now }] }
  refine ⟨congrArg (·.reads) (ctrl_setCtrl_same _ _ _), fun q hq => ?_, hlines, hepoch, ctrl_setCtrl_other s (ctrlOfLoc_lt s _) _, rfl⟩
  rw [opOf_staged, opOf_setCtrl, ho] at hq
  exact (Option.some.inj hq).symm

theorem dramWrite_meets {s : State} {i t : Nat} {o : EncOp} {r : NocReq} (ho : opOf s i t = some o) (hr : reqOf s i t = some r)
    (hs : o.stage = .toController) (hn : o.need = []) (hseal : o.sealing = false) (hop : o.req.op = .write)
    (hbe : o.req.be = BitVec.allOnes 64) (he : o.entry = none) (hwrite : r.write = true)
    (hacc : ctrlAccepts s (ctrlOfLoc s (o.req.line * 64)) = true) (hroom : writeRoom s (ctrlOfLoc s (o.req.line * 64)) o.req.line = true) :
    (ctrl (dramWrite i t s) (ctrlOfLoc s (o.req.line * 64))).writes.any (fun q => q.line == o.req.line && q.data == o.req.data) = true ∧
      (∀ q ∈ (ctrl s (ctrlOfLoc s (o.req.line * 64))).writes, q.line ≠ o.req.line →
        q ∈ (ctrl (dramWrite i t s) (ctrlOfLoc s (o.req.line * 64))).writes) ∧
      (dramWrite i t s).dram.lines = s.dram.lines ∧
      (∀ q ∈ reqOf (dramWrite i t s) i t, q.done = r.done + 1 ∧ q.status = r.status) ∧ opOf (dramWrite i t s) i t = none ∧
      dramWrite i t s = { s with
        dram := (dramWrite i t s).dram
        enc := { s.enc with ops := (dramWrite i t s).enc.ops, tags := (dramWrite i t s).enc.tags }
        noc := { s.noc with reqs := (dramWrite i t s).noc.reqs } } := by
  rw [dramWrite_acknowledged ho hs hn hseal hop hbe he hacc hroom]
  have hr' : reqOf (enqueueWrite s (ctrlOfLoc s (o.req.line * 64)) { o.req with since := s.now }) i t = some r := hr
  obtain ⟨hany, hothers⟩ := ctrl_enqueueWrite s (ctrlOfLoc s (o.req.line * 64)) { o.req with since := s.now }
  rw [answerLine_write hr' hwrite]
  exact ⟨hany, hothers, (setCtrl_parts s _ _).1, served_write hr' _ _, opOf_withoutOp _ i t, rfl⟩

theorem partDone_good {s : State} {q : DramReq} {o : EncOp} (ho : opOf s q.init q.tag = some o) (d : BitVec 512) :
    partDone s q ⟨d, false⟩ = answerLine (enqueueWrite s (ctrlOfLoc s (q.line * 64))
      { o.req with data := mergeLine o.req.be o.req.data d, be := BitVec.allOnes 64, since := s.now }) q.init q.tag 0 0 o.late := by
  simp only [partDone, ho]
  rfl

theorem enqueueWrite_first {s : State} {c : Nat} (h : (ctrl s c).writes = []) (r : DramReq) : (ctrl (enqueueWrite s c r) c).writes = [r] := by
  simp [enqueueWrite, h]

/-- The machine with other queues and operations. -/
def withQueues (s : State) (d : Dram) (l : List EncOp) : State := { s with dram := d, enc := { s.enc with ops := l } }

/-- What of the machine a write that is acknowledged touches, taken from `t`. -/
def acknowledgedFrom (s t : State) : State :=
  { s with dram := t.dram, enc := { s.enc with ops := t.enc.ops, tags := t.enc.tags }, noc := { s.noc with reqs := t.noc.reqs } }

/-- A merged write enters an empty write queue and is acknowledged there. -/
theorem merged_meets {s z : State} {d : Dram} {l : List EncOp} {c i t : Nat} {r : NocReq} (hz : z = withQueues s d l)
    (hlines : z.dram.lines = s.dram.lines) (hw : (ctrl z c).writes = []) (hr : reqOf s i t = some r) (hwrite : r.write = true) (w : DramReq)
    (late : Nat) :
    (ctrl (answerLine (enqueueWrite z c w) i t 0 0 late) c).writes.map (fun q => (q.line, q.data)) = [(w.line, w.data)] ∧
      (answerLine (enqueueWrite z c w) i t 0 0 late).dram.lines = s.dram.lines ∧
      (∀ q ∈ reqOf (answerLine (enqueueWrite z c w) i t 0 0 late) i t, q.done = r.done + 1 ∧ q.status = r.status) ∧
      opOf (answerLine (enqueueWrite z c w) i t 0 0 late) i t = none ∧
      answerLine (enqueueWrite z c w) i t 0 0 late = acknowledgedFrom s (answerLine (enqueueWrite z c w) i t 0 0 late) := by
  have hr' : reqOf (enqueueWrite z c w) i t = some r := by
    rw [hz]
    exact hr
  rw [answerLine_write hr' hwrite]
  refine ⟨congrArg (List.map fun q : DramReq => (q.line, q.data)) (enqueueWrite_first hw w), ?_, served_write hr' _ _, opOf_withoutOp _ i t, ?_⟩
  · exact (setCtrl_parts _ _ _).1.trans hlines
  · rw [hz]
    rfl

theorem dramPartial_meets {s : State} {i t : Nat} {o : EncOp} {r : NocReq} (ho : opOf s i t = some o) (hr : reqOf s i t = some r)
    (hs : o.stage = .toController) (hseal : o.sealing = false) (hop : o.req.op = .write) (hbe : o.req.be ≠ BitVec.allOnes 64)
    (hwrite : r.write = true) (hacc : ctrlAccepts s (ctrlOfLoc s (o.req.line * 64)) = true)
    (hreads : (ctrl s (ctrlOfLoc s (o.req.line * 64))).reads = []) (hheld : lineHeld s o.req.line = false)
    (hw : (ctrl s (ctrlOfLoc s (o.req.line * 64))).writes = []) (hgood : (dramLine s o.req.line).poison = false) :
    (ctrl (dramPartial i t { bad := 0 } s) (ctrlOfLoc s (o.req.line * 64))).writes.map (fun q => (q.line, q.data)) =
        [(o.req.line, mergeLine o.req.be o.req.data (dramLine s o.req.line).data)] ∧
      (dramPartial i t { bad := 0 } s).dram.lines = s.dram.lines ∧
      (∀ q ∈ reqOf (dramPartial i t { bad := 0 } s) i t, q.done = r.done + 1 ∧ q.status = r.status) ∧
      opOf (dramPartial i t { bad := 0 } s) i t = none ∧
      dramPartial i t { bad := 0 } s = acknowledgedFrom s (dramPartial i t { bad := 0 } s) := by
  obtain ⟨hnext, hissue⟩ := dramPartial_issues ho hs hseal hop hbe hacc hreads hheld hw
  have hctrl := ctrl_partQueued s i t o
  have hacc' : ctrlAccepts (partQueued s i t o) (ctrlOfLoc s (o.req.line * 64)) = true := by
    simp only [ctrlAccepts, hctrl]
    exact hacc
  have hline : dramLine (partQueued s i t o) o.req.line = dramLine s o.req.line := by
    obtain ⟨hlines, hepoch, -⟩ := setCtrl_parts s (ctrlOfLoc s (o.req.line * 64))
      { ctrl s (ctrlOfLoc s (o.req.line * 64)) with reads := [partRead s o] }
    simp only [dramLine, partQueued, mapOp, hlines, hepoch]
  obtain ⟨y, hdata, -, hyw⟩ := dramData_idle (q := partRead s o) hacc' hnext rfl (by rw [hctrl]; exact hw)
  obtain ⟨hi, ht⟩ := ids_of_opOf ho
  have hop' : opOf (setCtrl (partQueued s i t o) (ctrlOfLoc s (o.req.line * 64)) y) i t = some { o with stage := .queued } := by
    refine (opOf_staged _ i t .queued).trans ?_
    exact congrArg (Option.map _) ho
  generalize hz : setCtrl (partQueued s i t o) (ctrlOfLoc s (o.req.line * 64)) y = z at hdata hop'
  have hpart : dramPartial i t { bad := 0 } s = answerLine (enqueueWrite z (ctrlOfLoc s (o.req.line * 64))
      { o.req with data := mergeLine o.req.be o.req.data (dramLine s o.req.line).data, be := BitVec.allOnes 64, since := s.now }) i t 0 0 o.late := by
    have hpoison : (dramLine (partQueued s i t o) (partRead s o).line).poison = false := by rw [← hgood, ← hline]; rfl
    rw [hissue, hdata, hpoison]
    subst hi ht
    change partDone z (partRead s o) ⟨(dramLine (partQueued s o.req.init o.req.tag o) o.req.line).data, false⟩ = _
    rw [hline, partDone_good (q := partRead s o) hop']
    subst hz
    rfl
  have hlines : z.dram.lines = s.dram.lines := by
    rw [← hz]
    exact (setCtrl_parts _ _ _).1.trans (setCtrl_parts s _ _).1
  have hwrites : (ctrl z (ctrlOfLoc s (o.req.line * 64))).writes = [] := by rw [← hz, ctrl_setCtrl_same, hyw]
  have hz' : z = withQueues s z.dram z.enc.ops := by
    rw [← hz]
    rfl
  rw [hpart]
  exact merged_meets hz' hlines hwrites hr hwrite _ _

/-- Settles O29, clause by clause. -/
theorem dramRequestsAndData : Obligations.DramRequestsAndData := by
  unfold Obligations.DramRequestsAndData
  refine ⟨?_, ?_, ?_, ?_, ?_, ?_⟩
  · intro s i t o r ho hr hs hn hseal hop hw hacc hroom
    exact Answers.intro rfl (dramRead_meets ho hs hn hop hw hacc hroom)
  · intro s i t o r ho hr hs hn hseal hop hi ht hw hoff
    subst hi
    refine Answers.intro (t := denyLine s o.req) (congrArg _ (dramRead_denied ho hs hn hop hoff)) ?_
    rw [← ht] at hr ⊢
    obtain ⟨hq, hnone, hparts⟩ := denyLine_read hr hw
    refine ⟨hq, hnone, ?_, hparts⟩
    rw [hparts]
  · intro s i t o r ho hr hs hn hseal hop hbe he hwrite hacc hroom
    exact Answers.intro rfl (dramWrite_meets ho hr hs hn hseal hop hbe he hwrite hacc hroom)
  · intro s i t o r ho hr hs hn hseal hop hbe hwrite hacc hreads hi ht hheld hw0 hw1 hgood
    have hw : (ctrl s (ctrlOfLoc s (o.req.line * 64))).writes = [] := by
      obtain h | h : ctrlOfLoc s (o.req.line * 64) = 0 ∨ ctrlOfLoc s (o.req.line * 64) = 1 := by
        have hlt := ctrlOfLoc_lt s (o.req.line * 64)
        omega
      · rw [h, hw0]
      · rw [h, hw1]
    exact Answers.intro rfl (dramPartial_meets ho hr hs hseal hop hbe hwrite hacc hreads hheld hw hgood)
  · intro s c q hacc hnext huse hc hw hop
    obtain ⟨y, hdata, hreads, -⟩ := dramData_idle hacc hnext hc hw
    refine Answers.intro (congrArg Host.Outcome.next hdata) ?_
    simp only [readBack, huse, Option.getD_some]
    refine ⟨?_, ?_, ?_, ?_, rfl⟩
    · exact (congrArg (·.reads) (ctrl_setCtrl_same s c y)).trans hreads
    · intro x hx
      exact stage_of_staged hx
    · exact (setCtrl_parts s c y).1
    · obtain rfl | rfl : c = 0 ∨ c = 1 := by omega
      · rfl
      · rfl
  · intro s c q w hacc hnext huse hc hw hd hl ht hop
    obtain ⟨y, u, hdata, hyw⟩ := dramData_after_write hacc hnext hc hw hd hl ht
    refine Answers.intro (congrArg Host.Outcome.next hdata) ?_
    simp only [readBack, huse, Option.getD_some]
    refine ⟨?_, ?_, ?_, ?_⟩
    · exact (congrArg (·.writes) (ctrl_setCtrl_same _ (c : Nat) y)).trans hyw
    · have hlines := (setCtrl_parts (putLine s q.line ⟨w.data, false⟩) c y).1
      rw [dramLine]
      change (sparseFind (setCtrl (putLine s q.line ⟨w.data, false⟩) c y).dram.lines q.line).getD _ = _
      rw [hlines, putLine, sparseFind_put_same]
      rfl
    · intro x hx
      exact stage_of_staged hx
    · have hlines := (setCtrl_parts (putLine s q.line ⟨w.data, false⟩) c y).1
      simp only [mapOp, hlines]
      exact filter_sparsePut _ (fun n => n != q.line) _ _ (by simp)

end Sys2Proof.Machine
end

section
set_option Elab.async false
/-! Settles the statement about the comparison of units, the release of segments and resynchronisation (21_pair_operation.md). -/

namespace Sys2Proof.Machine

/-! ## Control blocks -/

/-- What of the pair a control block touches. -/
def sentFrom (s t : State) : Pair := { s.pair with txTrain := t.pair.txTrain, sentAt := t.pair.sentAt }

theorem sendControl_pair (s : State) (note : Note) (unit : Nat) (digest : BitVec 64) (word : Option (BitVec 64)) (notice : Bool) :
    (sendControl s note unit digest word notice).pair = sentFrom s (sendControl s note unit digest word notice) := by
  unfold sendControl
  split <;> rfl

theorem lastBlockSent_sendControl {s : State} (h : pairActive s = true) (note : Note) (unit : Nat) (digest : BitVec 64)
    (word : Option (BitVec 64)) : (lastBlockSent (sendControl s note unit digest word)).map (fun b => (b.note, b.unit, b.digest, b.word)) =
      some (note, unit, digest, word) := by
  unfold sendControl
  simp [h, lastBlockSent]

theorem lastNote_sendControl {s : State} (h : pairActive s = true) (note : Note) (unit : Nat) (digest : BitVec 64) (word : Option (BitVec 64)) :
    lastNote (sendControl s note unit digest word) = some note := by
  have hsent := congrArg (Option.map Prod.fst) (lastBlockSent_sendControl h note unit digest word)
  rwa [Option.map_map] at hsent

/-! ## The close of a unit -/

/-- The unit that closes at `e` with digest `d` and without a user word. -/
def closingUnit (p : Pair) (e : Nat) (d : BitVec 64) : ClosedUnit :=
  { unit := p.unit, digest := d, word := none, suspended := p.unitSuspended, since := p.unitBefore, closed := e
    verdict := if p.unitSuspended then some true else none }

/-- The pair with that unit closed and the next one open, an injection `i` left. -/
def nextUnit (p : Pair) (e : Nat) (d : BitVec 64) (i : Bool) : Pair :=
  { p with
    unit := p.unit % (2 ^ 32 - 1) + 1, unitOpened := e, unitBefore := p.unitOpened, frames := []
    unitSuspended := (p.copying || p.ctxDiffers) || p.absentSince.isSome, inject := i
    early := p.early.filter (fun x => x.1 != p.unit)
    closed := p.closed.drop (p.closed.length - 63) ++ [closingUnit p e d] }

/-- The device on that boundary. -/
def unitShut (s : State) (p : Pair) (e : Nat) (d : BitVec 64) (i : Bool) : State :=
  let z := { s with pair := nextUnit p e d i }
  z.wrb PRL_STATUS.suspended ((p.copying || p.ctxDiffers) || portsSuspended z)

theorem unitShut_pair (s : State) (p : Pair) (e : Nat) (d : BitVec 64) (i : Bool) : (unitShut s p e d i).pair = nextUnit p e d i := rfl

theorem changes_unitShut (s : State) (p : Pair) (e : Nat) (d : BitVec 64) (i : Bool) :
    Changes [.regs, .pair] (keys [PRL_STATUS.suspended]) s (unitShut s p e d i) := by
  unfold unitShut
  exact .after (changes_wrb ..) (.after (changes_part (ps := [.pair]) rfl) .refl)

/-- The digest that a shadow sends of its open unit: falsified once under injection (R525). -/
def shadowDigest (p : Pair) : BitVec 64 := if p.inject then crc64 (digestBytes p.frames) ^^^ 1 else crc64 (digestBytes p.frames)

theorem userWord_none {s : State} (h : udigPa s = 0) (f : AccessFind) : userWord s f = (none, s) := by
  simp [userWord, h]

section
variable {s : State} {f : AccessFind}

theorem userWord_at_boundary (hpa : udigPa s = 0) (f : AccessFind) (k : Nat) (c : Prop) [Decidable c] :
    (if c then userWord (toBoundary s k) f else (none, toBoundary s k)) = (none, toBoundary s k) := by
  have hpa' : udigPa (toBoundary s k) = 0 := by
    rw [← hpa]
    unfold udigPa
    rw [(changes_toBoundary s k).rd, (changes_toBoundary s k).rd]
  rw [userWord_none hpa', ite_self]

/-- The close of a unit at the shadow, without a user word. -/
theorem unitClose_shadow (hmode : s.rd DEV_MODE.mode = modeShadow) (hunit : s.pair.unit ≠ 0) (hpa : udigPa s = 0) :
    unitClose f s = sendControl (unitShut (toBoundary s (unitEnd s * 65536)) s.pair (unitEnd s) (shadowDigest s.pair) false) .none s.pair.unit
      (shadowDigest s.pair) none := by
  have hpair := (changes_toBoundary s (unitEnd s * 65536)).parts.pair_eq
  unfold unitClose
  rw [if_neg (by simp [hmode, hunit])]
  dsimp only
  rw [userWord_at_boundary hpa, if_pos hmode, hpair]
  have hdigest : (if s.rd DEV_MODE.mode = modeShadow ∧ s.pair.inject = true then crc64 (digestBytes s.pair.frames) ^^^ 1
      else crc64 (digestBytes s.pair.frames)) = shadowDigest s.pair := if_congr (and_iff_right hmode) rfl rfl
  have hinject : (s.pair.inject && !decide (s.rd DEV_MODE.mode = modeShadow ∧ s.pair.inject = true)) = false := by
    simp [hmode]
  dsimp only
  rw [hdigest, hinject]
  rfl

/-- The close of a unit of digest `k` at the lead, the shadow's digest at hand, without a user word. -/
theorem unitClose_lead {k d : BitVec 64} {w : Option (BitVec 64)} {n : Nat} (hmode : s.rd DEV_MODE.mode = modeLead) (hunit : s.pair.unit ≠ 0)
    (hpa : udigPa s = 0) (hearly : s.pair.early.find? (fun p => p.1 == s.pair.unit) = some (n, d, w))
    (hk : crc64 (digestBytes s.pair.frames) = k) :
    unitClose f s = judge (unitShut (toBoundary s (unitEnd s * 65536)) s.pair (unitEnd s) k s.pair.inject) (closingUnit s.pair (unitEnd s) k) d w := by
  have hpair := (changes_toBoundary s (unitEnd s * 65536)).parts.pair_eq
  have hnot : ¬(s.rd DEV_MODE.mode = modeShadow ∧ s.pair.inject = true) := fun h => absurd (hmode.symm.trans h.1) (by decide)
  have hinject : (s.pair.inject && !decide (s.rd DEV_MODE.mode = modeShadow ∧ s.pair.inject = true)) = s.pair.inject := by
    simp [decide_eq_false hnot]
  unfold unitClose
  rw [if_neg (by simp [hmode, hunit])]
  dsimp only
  generalize hw : (if unitEnd s = _ then _ else _ : Option (BitVec 64) × State) = x
  obtain ⟨hnone, hstate⟩ := Prod.mk.inj (hw.symm.trans (userWord_at_boundary hpa f _ _))
  rw [if_neg (fun h => absurd (hmode.symm.trans h) (by decide)), hnone, hstate, hpair, if_neg hnot, hinject, hk]
  split
  · next heq =>
    obtain ⟨-, rfl, rfl⟩ : _ ∧ _ ∧ _ := by simpa using hearly.symm.trans heq
    rfl
  · next heq => exact absurd (hearly.symm.trans heq) (by simp)

end

/-- The end of a unit at the shadow. -/
theorem unitClose_shadow_meets {s : State} {f : AccessFind} (hunit : s.pair.unit ≠ 0) (hpa : udigPa s = 0) (hactive : pairActive s = true)
    (hmode : s.rd DEV_MODE.mode = modeShadow) :
    let t := unitClose f s
    (lastBlockSent t).map (fun b => (b.unit, b.digest, b.word)) = some (s.pair.unit, shadowDigest s.pair, none) ∧ t.pair.inject = false ∧
    t.pair.closed.getLast? = some (closingUnit s.pair (unitEnd s) (shadowDigest s.pair)) ∧ t.pair.unit = s.pair.unit % (2 ^ 32 - 1) + 1 ∧
    t.pair.unitOpened = unitEnd s ∧ t.pair.unitBefore = s.pair.unitOpened ∧ t.pair.frames = [] ∧
    t.now = (toBoundary s (unitEnd s * 65536)).now ∧ t.ctxs = s.ctxs ∧ t.mem = s.mem ∧ t.sec = s.sec ∧ t.fh = s.fh ∧
    SameRegs (keys [PRL_STATUS.suspended]) s t := by
  dsimp only
  rw [unitClose_shadow hmode hunit hpa]
  have hshut := changes_unitShut (toBoundary s (unitEnd s * 65536)) s.pair (unitEnd s) (shadowDigest s.pair) false
  have hall : Changes [.now, .tim, .regs, .pair] (keys [PRL_STATUS.suspended]) s
      (unitShut (toBoundary s (unitEnd s * 65536)) s.pair (unitEnd s) (shadowDigest s.pair) false) :=
    .after hshut (.after (changes_toBoundary ..) .refl)
  have hpair := unitShut_pair (toBoundary s (unitEnd s * 65536)) s.pair (unitEnd s) (shadowDigest s.pair) false
  have hnow := hshut.parts.now_eq
  generalize unitShut (toBoundary s (unitEnd s * 65536)) s.pair (unitEnd s) (shadowDigest s.pair) false = z at hall hpair hnow ⊢
  have hsent := changes_sendControl z .none s.pair.unit (shadowDigest s.pair) none false
  have hp := sendControl_pair z .none s.pair.unit (shadowDigest s.pair) none false
  have hblock := lastBlockSent_sendControl (s := z) (by rw [pairActive_congr hall.rd, hactive]) .none s.pair.unit (shadowDigest s.pair) none
  have hend : Changes [.now, .tim, .regs, .pair, .outbox] (keys [PRL_STATUS.suspended]) s
      (sendControl z .none s.pair.unit (shadowDigest s.pair) none) := .after hsent (.after hall .refl)
  have hnow' := hsent.parts.now_eq
  rw [sentFrom, hpair] at hp
  rw [hp]
  refine ⟨?_, rfl, ?_, rfl, rfl, rfl, rfl, hnow'.trans hnow, hend.parts.ctxs_eq, hend.parts.mem_eq, hend.parts.sec_eq, hend.parts.fh_eq, hend.sameRegs⟩
  · have h := congrArg (Option.map Prod.snd) hblock
    rwa [Option.map_map] at h
  · exact List.getLast?_concat

/-! ## The verdict of the lead -/

section
variable {s : State} {u : ClosedUnit} {d : BitVec 64} {w : Option (BitVec 64)}

theorem judge_agrees (hs : u.suspended = false) (hd : u.digest = d) (hw : u.word = w) :
    judge s u d w = sendControl (setVerdict s u.unit true) (.verdict true) (unit := u.unit) := by
  simp [judge, hs, hd, hw]

theorem judge_differs (hs : u.suspended = false) (hd : u.digest ≠ d) :
    judge s u d w = unitMismatch (sendControl (setVerdict s u.unit false) (.verdict false) (unit := u.unit)) u := by
  have hne : (u.digest == d) = false := beq_eq_false_iff_ne.2 hd
  simp only [judge, hs, hne, Bool.false_and, Bool.false_eq_true, if_false]

/-- The pair's own count of mismatches rises. -/
def countOne (s : State) : State := { s with pair := { s.pair with mismatches := s.pair.mismatches + 1 } }

/-- A mismatch is counted (R520, R528). -/
def mismatchCounted (s : State) : State := raiseEvent ((countOne s).inc PRL_COUNTS.mismatches) evPair

theorem mismatchCounted_pair (s : State) : (mismatchCounted s).pair = { s.pair with mismatches := s.pair.mismatches + 1 } :=
  (changes_raiseEvent ..).parts.pair_eq

theorem changes_countOne (s : State) : Changes [.pair] [] s (countOne s) := changes_part rfl

theorem rd_mismatchCounted (s : State) : (mismatchCounted s).rd PRL_COUNTS.mismatches =
    satAdd PRL_COUNTS.mismatches.width (s.rd PRL_COUNTS.mismatches) 1 % 2 ^ PRL_COUNTS.mismatches.width := by
  rw [mismatchCounted, (changes_raiseEvent ..).rd, rd_inc_same, (changes_countOne s).rd]

theorem changes_mismatchCounted (s : State) :
    Changes [.regs, .link, .pair, .outbox] (keys [PRL_COUNTS.mismatches] ++ [evtKey evPair]) s (mismatchCounted s) := by
  unfold mismatchCounted
  exact .after (changes_raiseEvent ..) (.after (changes_inc ..) (.after (changes_countOne ..) .refl))

/-- The device with a counted mismatch of unit `u` and its own report, before the report leaves (R528). -/
def mismatchNoted (s : State) (u : ClosedUnit) : State :=
  { s with pair := { s.pair with mismatch := some u, ownReport := some (reportsFault s u) } }

theorem changes_mismatchNoted (s : State) (u : ClosedUnit) : Changes [.pair] [] s (mismatchNoted s u) := changes_part rfl

theorem mismatchNoted_pair (s : State) (u : ClosedUnit) :
    (mismatchNoted s u).pair = { s.pair with mismatch := some u, ownReport := some (reportsFault s u) } := rfl

theorem unitMismatch_eq (hf : s.pair.frameFrom = none) (hm : s.pair.mismatch = none) : unitMismatch s u =
    sendControl (mismatchNoted (mismatchCounted s) u) (.report (reportsFault (mismatchCounted s) u)) (unit := u.unit) := by
  have hframe : (mismatchCounted s).pair.frameFrom.isSome = false := by rw [mismatchCounted_pair]; simp [hf]
  have hmis : (mismatchCounted s).pair.mismatch.isSome = false := by rw [mismatchCounted_pair]; simp [hm]
  unfold unitMismatch
  change (if (mismatchCounted s).pair.frameFrom.isSome = true then _ else if (mismatchCounted s).pair.mismatch.isSome = true then _ else _) = _
  rw [hframe, hmis]
  rfl

/-- The cause bit of a pair event is set. -/
theorem rd_raiseEvent_pair (s : State) : (raiseEvent s evPair).rd HCI_EVT_CAUSE.pair_event = 1 := by
  unfold raiseEvent
  dsimp only
  split
  · rw [(changes_signalVector ..).rd]
    exact rd_wr_at s HCI_EVT_CAUSE.pair_event 1 0 0 rfl
  · exact rd_wr_at s HCI_EVT_CAUSE.pair_event 1 0 0 rfl

theorem rd_mismatchCounted_event (s : State) : (mismatchCounted s).rd HCI_EVT_CAUSE.pair_event = 1 := rd_raiseEvent_pair _

end

/-! ## What a verdict leaves of the open unit -/

/-- The open unit of the comparison is the same (R525). -/
structure SameUnit (s t : State) : Prop where
  early : t.pair.early = s.pair.early
  unit : t.pair.unit = s.pair.unit
  opened : t.pair.unitOpened = s.pair.unitOpened
  before : t.pair.unitBefore = s.pair.unitBefore
  frames : t.pair.frames = s.pair.frames

theorem SameUnit.trans {s t u : State} (h : SameUnit s t) (h' : SameUnit t u) : SameUnit s u :=
  ⟨h'.early.trans h.early, h'.unit.trans h.unit, h'.opened.trans h.opened, h'.before.trans h.before, h'.frames.trans h.frames⟩

theorem sameUnit_sendControl (s : State) (note : Note) (unit : Nat) (digest : BitVec 64) (word : Option (BitVec 64)) (notice : Bool) :
    SameUnit s (sendControl s note unit digest word notice) := by
  have h := sendControl_pair s note unit digest word notice
  constructor <;> rw [h] <;> rfl

theorem sameUnit_setVerdict (s : State) (n : Nat) (ok : Bool) : SameUnit s (setVerdict s n ok) := ⟨rfl, rfl, rfl, rfl, rfl⟩

theorem sameUnit_mismatchNoted (s : State) (u : ClosedUnit) : SameUnit s (mismatchNoted (mismatchCounted s) u) := by
  have h := mismatchCounted_pair s
  constructor <;> rw [mismatchNoted] <;> dsimp only <;> rw [h]

/-- The device in which the lead has returned its verdict on unit `u` (R526). -/
def verdictSent (s : State) (u : ClosedUnit) (ok : Bool) : State := sendControl (setVerdict s u.unit ok) (.verdict ok) (unit := u.unit)

theorem sameUnit_verdictSent (s : State) (u : ClosedUnit) (ok : Bool) : SameUnit s (verdictSent s u ok) :=
  (sameUnit_setVerdict ..).trans (sameUnit_sendControl ..)

theorem changes_verdictSent (s : State) (u : ClosedUnit) (ok : Bool) : Changes [.pair, .outbox] [] s (verdictSent s u ok) :=
  .after (changes_sendControl ..) (.after (changes_setVerdict ..) .refl)

/-- What else of the pair a verdict leaves. -/
theorem verdictSent_pair (s : State) (u : ClosedUnit) (ok : Bool) : (verdictSent s u ok).pair.mismatches = s.pair.mismatches ∧
    (verdictSent s u ok).pair.mismatch = s.pair.mismatch ∧ (verdictSent s u ok).pair.frameFrom = s.pair.frameFrom := by
  have h : (verdictSent s u ok).pair = _ := sendControl_pair ..
  rw [h]
  exact ⟨rfl, rfl, rfl⟩

section
variable {s : State} {u : ClosedUnit} {d : BitVec 64} {w : Option (BitVec 64)}

/-- A unit that agrees: the lead returns agreement. -/
theorem judge_agrees_meets (hs : u.suspended = false) (hd : u.digest = d) (hw : u.word = w) (hactive : pairActive s = true)
    (hm : s.pair.mismatch = none) :
    lastNote (judge s u d w) = some (.verdict true) ∧ (judge s u d w).pair.mismatches = s.pair.mismatches ∧ (judge s u d w).pair.mismatch = none ∧
      SameUnit s (judge s u d w) := by
  obtain ⟨hcount, hmis, -⟩ := verdictSent_pair s u true
  rw [judge_agrees hs hd hw]
  exact ⟨lastNote_sendControl (s := setVerdict s u.unit true) hactive _ _ _ _, hcount, hmis.trans hm, sameUnit_verdictSent s u true⟩

/-- A unit that differs: the mismatch is counted and the device's own report leaves. -/
theorem judge_differs_meets (hs : u.suspended = false) (hd : u.digest ≠ d) (hactive : pairActive s = true) (hm : s.pair.mismatch = none)
    (hf : s.pair.frameFrom = none) :
    (judge s u d w).rd PRL_COUNTS.mismatches =
        satAdd PRL_COUNTS.mismatches.width (s.rd PRL_COUNTS.mismatches) 1 % 2 ^ PRL_COUNTS.mismatches.width ∧
      (judge s u d w).pair.mismatches = s.pair.mismatches + 1 ∧ (judge s u d w).rd HCI_EVT_CAUSE.pair_event = 1 ∧
      (judge s u d w).pair.mismatch = some u ∧ lastNote (judge s u d w) = (judge s u d w).pair.ownReport.map Note.report ∧
      SameUnit s (judge s u d w) := by
  obtain ⟨hcount, hmis, hframe⟩ := verdictSent_pair s u false
  have hsent := changes_verdictSent s u false
  have hunit := sameUnit_verdictSent s u false
  have hjudge : judge s u d w = unitMismatch (verdictSent s u false) u := judge_differs hs hd
  rw [hjudge, unitMismatch_eq (hframe.trans hf) (hmis.trans hm)]
  generalize verdictSent s u false = v at hcount hsent hunit
  have hcounted := changes_mismatchCounted v
  have hreport := changes_sendControl (mismatchNoted (mismatchCounted v) u) (.report (reportsFault (mismatchCounted v) u)) u.unit 0 none false
  have hpair := sendControl_pair (mismatchNoted (mismatchCounted v) u) (.report (reportsFault (mismatchCounted v) u)) u.unit 0 none false
  have hactive' : pairActive (mismatchCounted v) = true := by
    rw [← hactive, pairActive_congr (s := v) (hcounted.rd), pairActive_congr hsent.rd]
  have hnoted := changes_mismatchNoted (mismatchCounted v) u
  have hnote := lastNote_sendControl (s := mismatchNoted (mismatchCounted v) u) hactive' (.report (reportsFault (mismatchCounted v) u)) u.unit 0 none
  rw [sentFrom, mismatchNoted_pair, mismatchCounted_pair] at hpair
  refine ⟨?_, ?_, ?_, ?_, ?_, ?_⟩
  · rw [hreport.rd, hnoted.rd, rd_mismatchCounted, hsent.rd]
  · rw [hpair, ← hcount]
  · rw [hreport.rd, hnoted.rd, rd_mismatchCounted_event]
  · rw [hpair]
  · rw [hnote, hpair, Option.map_some]
  · exact hunit.trans ((sameUnit_mismatchNoted v u).trans (sameUnit_sendControl ..))

end

/-- The end of a unit at the lead, where the shadow's digest is at hand. -/
theorem unitClose_lead_meets {s : State} {f : AccessFind} {d : BitVec 64} (hunit : s.pair.unit ≠ 0) (hpa : udigPa s = 0)
    (hactive : pairActive s = true) (hmode : s.rd DEV_MODE.mode = modeLead) (hsusp : s.pair.unitSuspended = false)
    (hearly : s.pair.early = [(s.pair.unit, d, none)]) (hm : s.pair.mismatch = none) (hf : s.pair.frameFrom = none) {k : BitVec 64}
    (hk : crc64 (digestBytes s.pair.frames) = k) :
    let t := unitClose f s
    (k = d → lastNote t = some (.verdict true) ∧ t.pair.mismatches = s.pair.mismatches ∧ t.pair.mismatch = none) ∧
    (k ≠ d → t.rd PRL_COUNTS.mismatches = satAdd PRL_COUNTS.mismatches.width (s.rd PRL_COUNTS.mismatches) 1 % 2 ^ PRL_COUNTS.mismatches.width ∧
      t.pair.mismatches = s.pair.mismatches + 1 ∧ t.rd HCI_EVT_CAUSE.pair_event = 1 ∧ t.pair.mismatch = some (closingUnit s.pair (unitEnd s) k) ∧
      lastNote t = t.pair.ownReport.map Note.report) ∧
    t.pair.early = [] ∧ t.pair.unit = s.pair.unit % (2 ^ 32 - 1) + 1 ∧ t.pair.unitOpened = unitEnd s ∧ t.pair.unitBefore = s.pair.unitOpened ∧
    t.pair.frames = [] ∧ t.now = (toBoundary s (unitEnd s * 65536)).now ∧ t.ctxs = s.ctxs ∧ t.mem = s.mem ∧ t.sec = s.sec ∧ t.fh = s.fh := by
  dsimp only
  rw [unitClose_lead (n := s.pair.unit) (d := d) (w := none) hmode hunit hpa (by rw [hearly]; simp) hk]
  have hshut := changes_unitShut (toBoundary s (unitEnd s * 65536)) s.pair (unitEnd s) k s.pair.inject
  have hall : Changes [.now, .tim, .regs, .pair] (keys [PRL_STATUS.suspended]) s
      (unitShut (toBoundary s (unitEnd s * 65536)) s.pair (unitEnd s) k s.pair.inject) := .after hshut (.after (changes_toBoundary ..) .refl)
  have hpair := unitShut_pair (toBoundary s (unitEnd s * 65536)) s.pair (unitEnd s) k s.pair.inject
  have hnow := hshut.parts.now_eq
  generalize unitShut (toBoundary s (unitEnd s * 65536)) s.pair (unitEnd s) k s.pair.inject = z at hall hpair hnow ⊢
  have hactive' : pairActive z = true := by rw [pairActive_congr hall.rd, hactive]
  have hm' : z.pair.mismatch = none := by rw [hpair]; exact hm
  have hf' : z.pair.frameFrom = none := by rw [hpair]; exact hf
  have hjudge := changes_judge z (closingUnit s.pair (unitEnd s) k) d none
  have hend : Changes [.now, .tim, .regs, .link, .pair, .outbox] (keys [PRL_STATUS.suspended, PRL_COUNTS.mismatches] ++ [evtKey evPair]) s
      (judge z (closingUnit s.pair (unitEnd s) k) d none) := .after hjudge (.after hall .refl)
  have hsame : SameUnit z (judge z (closingUnit s.pair (unitEnd s) k) d none) := by
    by_cases hkd : k = d
    · exact (judge_agrees_meets hsusp hkd rfl hactive' hm').2.2.2
    · exact (judge_differs_meets hsusp hkd hactive' hm' hf').2.2.2.2.2
  obtain ⟨hearly', hunit', hopened, hbefore, hframes⟩ := hsame
  rw [hpair] at hearly' hunit' hopened hbefore hframes
  refine ⟨fun hkd => ?_, fun hkd => ?_, hearly'.trans ?_, hunit', hopened, hbefore, hframes, hjudge.parts.now_eq.trans hnow, hend.parts.ctxs_eq,
    hend.parts.mem_eq, hend.parts.sec_eq, hend.parts.fh_eq⟩
  · obtain ⟨hnote, hcount, hmis, -⟩ := judge_agrees_meets (w := none) (u := closingUnit s.pair (unitEnd s) k) hsusp hkd rfl hactive' hm'
    exact ⟨hnote, hcount.trans (by rw [hpair]; rfl), hmis⟩
  · obtain ⟨hrd, hcount, hevent, hmis, hnote, -⟩ :=
      judge_differs_meets (w := none) (u := closingUnit s.pair (unitEnd s) k) hsusp hkd hactive' hm' hf'
    exact ⟨by rw [hrd, hall.rd], hcount.trans (by rw [hpair]; rfl), hevent, hmis, hnote⟩
  · rw [nextUnit, hearly]
    simp

/-! ## The release of segments -/

/-- A frame given to an idle transmitter. -/
theorem transmit_idle {s : State} {n : Nat} (hei : (laneOf s n).txEi = false) (hwire : (laneOf s n).onWire = []) (l : List Byte) (bad stream : Bool) :
    ∃ e, transmit s n l bad stream = { setLane s n { laneOf s n with onWire := [e] } with
      outbox := s.outbox ++ [.egress n (s.now + txLatency s n * hcTicks s) (overwrite s l ++ List.replicate (60 - (overwrite s l).length) 0) bad] } := by
  have hexit : exitEi s n = s := if_neg (by simp [hei])
  simp only [transmit, hexit, hei, hwire, List.filter_nil, List.nil_append, List.foldl_nil, Bool.false_eq_true, if_false, Nat.add_zero]
  exact ⟨_, rfl⟩

/-- The device with another time. -/
def atTime (s : State) (n : Nat) (m : Tim) : State := { s with now := n, tim := m }

theorem changes_atTime (s : State) (n : Nat) (m : Tim) : Changes [.now, .tim] [] s (atTime s n m) := changes_part rfl

theorem advanceTo_eq (s : State) (k : Nat) : ∃ m, advanceTo s k = atTime s (max s.now k) m := by
  have hnow : (advanceTo s k).now = max s.now k := advanceTo_now_max ..
  refine ⟨(advanceTo s k).tim, ?_⟩
  rw [← hnow]
  exact (changes_advanceTo s k).parts

/-- The device `b` with no frame held, and the unit of `h` judged `ok`. -/
def unheld (b : State) (h : HeldFrame) (ok : Bool) : State := setVerdict { b with pair := { b.pair with held := [] } } h.unit ok

theorem changes_unheld (b : State) (h : HeldFrame) (ok : Bool) : Changes [.pair] [] b (unheld b h ok) := changes_part rfl

section
variable {s : State} {h : HeldFrame} {c : ClosedUnit}

theorem egressOpen_congr {s t : State} (hm : t.rd DEV_MODE.mode = s.rd DEV_MODE.mode) (hs : t.rd DEV_MODE.safe_state = s.rd DEV_MODE.safe_state) :
    egressOpen t = egressOpen s := by
  simp only [egressOpen, State.rdb, hm, hs]

/-- A segment that matched is given to its lane. -/
theorem segmentDue_matched (hheld : s.pair.held = [h]) (hc : s.pair.closed.find? (fun x => x.unit == h.unit) = some c)
    (hv : c.verdict = some true) (hopen : egressOpen s = true) (hup : laneState s h.lane = lnUp) :
    segmentDue s = transmit (unheld (advanceTo s (h.at_ + 1500 * nsTicks)) h true) h.lane h.data h.bad true := by
  have hb := changes_advanceTo s (h.at_ + 1500 * nsTicks)
  have hpair := hb.parts.pair_eq
  have hopen' : egressOpen (unheld (advanceTo s (h.at_ + 1500 * nsTicks)) h true) = true := by
    rw [← hopen]
    exact egressOpen_congr (((changes_unheld ..).rd).trans hb.rd) (((changes_unheld ..).rd).trans hb.rd)
  have hup' : laneState (unheld (advanceTo s (h.at_ + 1500 * nsTicks)) h true) h.lane = lnUp :=
    ((changes_unheld ..).rd (hk := List.not_mem_nil)).trans ((hb.rd (hk := List.not_mem_nil)).trans hup)
  simp only [segmentDue, hheld, hpair, hc, Option.bind_some, hv, if_true]
  generalize advanceTo s (h.at_ + 1500 * nsTicks) = b at hpair hopen' hup' ⊢
  have hstate : { b with pair := { s.pair with held := [] } } = { b with pair := { b.pair with held := [] } } := by rw [hpair]
  rw [hstate]
  exact if_pos (by rw [Bool.and_eq_true]; exact ⟨hopen', beq_iff_eq.2 hup'⟩)

/-- What of the machine the release of a segment touches, taken from `t`. -/
def releasedFrom (s t : State) : State :=
  { s with
    now := t.now, tim := t.tim, fh := { s.fh with lanes := t.fh.lanes }, pair := { s.pair with held := [], closed := t.pair.closed }
    outbox := t.outbox }

theorem segmentDue_matched_meets (hheld : s.pair.held = [h]) (hc : s.pair.closed.find? (fun x => x.unit == h.unit) = some c)
    (hv : c.verdict = some true) (hopen : egressOpen s = true) (hup : laneState s h.lane = lnUp) (hei : (laneOf s h.lane).txEi = false)
    (hwire : (laneOf s h.lane).onWire = []) :
    let t := segmentDue s
    t.pair.held = [] ∧ t.outbox = s.outbox ++ [.egress h.lane (t.now + txLatency s h.lane * hcTicks s)
      (overwrite s h.data ++ List.replicate (60 - (overwrite s h.data).length) 0) h.bad] ∧ t.now = max s.now (h.at_ + 1500 * nsTicks) ∧
    t.regs = s.regs ∧ (laneOf t h.lane).onWire.length = 1 ∧ t = releasedFrom s t := by
  obtain ⟨m, hb⟩ := advanceTo_eq s (h.at_ + 1500 * nsTicks)
  dsimp only
  rw [segmentDue_matched hheld hc hv hopen hup, hb]
  obtain ⟨e, ht⟩ := transmit_idle (s := unheld (atTime s (max s.now (h.at_ + 1500 * nsTicks)) m) h true) (n := h.lane) hei hwire h.data h.bad true
  rw [ht]
  refine ⟨rfl, rfl, rfl, rfl, ?_, rfl⟩
  exact congrArg (fun x : Lane => x.onWire.length) (laneOf_setLane_same ..)

/-- The device without held frames, one counted as discarded. -/
def discardedOne (b : State) (n : Nat) : State := { b with pair := { b.pair with held := [] } }.inc FHL_TX_COUNTS.tx_discarded 1 n

/-- A segment that is discarded. -/
theorem segmentDue_discarded (hheld : s.pair.held = [h]) (hc : s.pair.closed.find? (fun x => x.unit == h.unit) = some c)
    (hv : c.verdict ≠ some true) : segmentDue s =
      if c.verdict.isNone then (discardedOne (advanceTo s (h.at_ + 1500 * nsTicks)) h.lane).inc PRL_COUNTS.late_digests
      else setVerdict (discardedOne (advanceTo s (h.at_ + 1500 * nsTicks)) h.lane) h.unit false := by
  have hpair := (changes_advanceTo s (h.at_ + 1500 * nsTicks)).parts.pair_eq
  simp only [segmentDue, hheld, hpair, hc, Option.bind_some]
  rw [if_neg hv]
  generalize advanceTo s (h.at_ + 1500 * nsTicks) = b at hpair ⊢
  simp [discardedOne, hpair]

theorem discardedKey_ne_late (n : Nat) : PRL_COUNTS.late_digests.key 0 0 ∉ [FHL_TX_COUNTS.tx_discarded.key n 0] := by
  simp only [List.mem_singleton, Row.key, Row.offset, PRL_COUNTS.late_digests, FHL_TX_COUNTS.tx_discarded]
  omega

/-- What of the machine a discarded segment touches, taken from `t`. -/
def discardedFrom (s t : State) : State :=
  { s with now := t.now, tim := t.tim, regs := t.regs, pair := { s.pair with held := [], closed := t.pair.closed } }

theorem segmentDue_discarded_meets (hheld : s.pair.held = [h]) (hc : s.pair.closed.find? (fun x => x.unit == h.unit) = some c)
    (hv : c.verdict ≠ some true) :
    let t := segmentDue s
    t.pair.held = [] ∧ t.outbox = s.outbox ∧ t.rd FHL_TX_COUNTS.tx_discarded h.lane =
      satAdd FHL_TX_COUNTS.tx_discarded.width (s.rd FHL_TX_COUNTS.tx_discarded h.lane) 1 % 2 ^ FHL_TX_COUNTS.tx_discarded.width ∧
    (c.verdict = none → t.rd PRL_COUNTS.late_digests =
      satAdd PRL_COUNTS.late_digests.width (s.rd PRL_COUNTS.late_digests) 1 % 2 ^ PRL_COUNTS.late_digests.width) ∧
    t.now = max s.now (h.at_ + 1500 * nsTicks) ∧ t = discardedFrom s t ∧
    SameRegs ([FHL_TX_COUNTS.tx_discarded.key h.lane 0] ++ keys [PRL_COUNTS.late_digests]) s t := by
  obtain ⟨m, hb⟩ := advanceTo_eq s (h.at_ + 1500 * nsTicks)
  have hne := discardedKey_ne_late h.lane
  dsimp only
  rw [segmentDue_discarded hheld hc hv, hb]
  have hone : Changes [.regs, .now, .tim, .pair] [FHL_TX_COUNTS.tx_discarded.key h.lane 0] s
      (discardedOne (atTime s (max s.now (h.at_ + 1500 * nsTicks)) m) h.lane) :=
    .after' (changes_inc ..) (.after' (changes_part (ps := [.pair]) rfl) (.after' (changes_atTime s _ m) .refl))
  have hcount : (discardedOne (atTime s (max s.now (h.at_ + 1500 * nsTicks)) m) h.lane).rd FHL_TX_COUNTS.tx_discarded h.lane =
      satAdd FHL_TX_COUNTS.tx_discarded.width (s.rd FHL_TX_COUNTS.tx_discarded h.lane) 1 % 2 ^ FHL_TX_COUNTS.tx_discarded.width := by
    rw [discardedOne, rd_inc_same]
    rfl
  split
  · have hlate := changes_inc (discardedOne (atTime s (max s.now (h.at_ + 1500 * nsTicks)) m) h.lane) PRL_COUNTS.late_digests 1 0 0
    refine ⟨rfl, rfl, ?_, fun _ => ?_, rfl, rfl, ?_⟩
    · rw [hlate.rd (hk := by simpa [eq_comm] using hne), hcount]
    · rw [rd_inc_same, hone.rd (hk := hne)]
    · exact (hone.sameRegs.mono (by simp)).trans (hlate.sameRegs.mono (by simp [keys]))
  · refine ⟨rfl, rfl, hcount, fun hnone => absurd hnone (by simp_all), rfl, rfl, ?_⟩
    exact hone.sameRegs.mono (by simp)

end

/-! ## The resolution of a mismatch -/

/-- The device in which both reports are known and taken. -/
def reportsTaken (s : State) : State := { s with pair := { s.pair with mismatch := none, ownReport := none, partnerReport := none } }

theorem changes_reportsTaken (s : State) : Changes [.pair] [] s (reportsTaken s) := changes_part rfl

section
variable {s : State} {c : ClosedUnit} {own other : Bool}

/-- What a fit shadow makes of both reports (R528). -/
theorem resolveMismatch_shadow (hm : s.pair.mismatch = some c) (ho : s.pair.ownReport = some own) (hp : s.pair.partnerReport = some other)
    (hmode : s.rd DEV_MODE.mode = modeShadow) (hfit : s.rd PRL_STATUS.fit = 1) :
    resolveMismatch s =
      if other = true ∧ own = true then
        let t := fault (reportsTaken s) .pairDoubleFault 0 c.digest.toNat
        { t.wr PRL_STATUS.fit 0 with pair := { t.pair with synced := false } }
      else if other = true then decideTakeover (reportsTaken s)
      else shadowUnfit (reportsTaken s) := by
  have hfit' : (reportsTaken s).rdb PRL_STATUS.fit = true := by
    have hkept := (changes_reportsTaken s).rd (r := PRL_STATUS.fit) (i := 0) (j := 0)
    simp [State.rdb, hkept, hfit]
  unfold reportsTaken at hfit' ⊢
  cases other <;> cases own <;> simp [resolveMismatch, hm, ho, hp, hmode, hfit', show modeShadow ≠ modeLead by decide]

/-- The device in which both devices have reported a fault. -/
def doubleFaulted (s : State) (c : ClosedUnit) : State :=
  let t := fault s .pairDoubleFault 0 c.digest.toNat
  { t.wr PRL_STATUS.fit 0 with pair := { t.pair with synced := false } }

theorem changes_doubleFaulted (s : State) (c : ClosedUnit) :
    Changes [.regs, .safe, .link, .outbox, .pair] (keys [PRL_STATUS.fit] ++ logKeys) s (doubleFaulted s c) := by
  unfold doubleFaulted
  exact .after (changes_part (ps := [.pair]) rfl) (.after (changes_wr ..) (.after (changes_fault ..) .refl))

theorem doubleFaulted_meets (s : State) (c : ClosedUnit) :
    (doubleFaulted s c).safe.log.getLast?.map (fun e => e.kind) = some .pairDoubleFault ∧ (doubleFaulted s c).rd PRL_STATUS.fit = 0 ∧
      (doubleFaulted s c).pair = { s.pair with synced := false } := by
  have hpair : (fault s .pairDoubleFault 0 c.digest.toNat).pair = s.pair := (changes_fault ..).parts.pair_eq
  refine ⟨?_, ?_, ?_⟩
  · exact fault_lastKind ..
  · exact rd_wr_at (fault s .pairDoubleFault 0 c.digest.toNat) PRL_STATUS.fit 0 0 0 rfl
  · rw [doubleFaulted, hpair]

/-- The device in which the shadow has begun to resynchronise, before it says so. -/
def resyncBegun (s : State) : State :=
  (startResync { s with pair := { s.pair with synced := false, rounds := 0 } }).wr PRL_STATUS.fit 0

theorem changes_resyncBegun (s : State) :
    Changes [.regs, .pair] (keys [PRL_STATUS.fit, PRL_STATUS.suspended, PRL_STATUS.resync]) s (resyncBegun s) := by
  unfold resyncBegun
  exact .after (changes_wr ..) (.after (changes_startResync ..) (.after (changes_part (ps := [.pair]) rfl) .refl))

theorem shadowUnfit_meets {s : State} (hmode : s.rd DEV_MODE.mode = modeShadow) (hactive : pairActive s = true) :
    (shadowUnfit s).rd PRL_STATUS.fit = 0 ∧ (shadowUnfit s).rd PRL_STATUS.resync = 1 ∧ (shadowUnfit s).pair.copying = true ∧
      lastNote (shadowUnfit s) = some .resync ∧ (shadowUnfit s).pair.takeover = s.pair.takeover ∧ (shadowUnfit s).pair.mismatch = s.pair.mismatch ∧
      (shadowUnfit s).pair.ownReport = s.pair.ownReport ∧ (shadowUnfit s).pair.partnerReport = s.pair.partnerReport := by
  have heq : shadowUnfit s = sendControl (resyncBegun s) .resync := if_pos hmode
  have hactive' : pairActive (resyncBegun s) = true := by rw [pairActive_congr (changes_resyncBegun s).rd, hactive]
  have hpair := sendControl_pair (resyncBegun s) .resync 0 0 none false
  have hsent := changes_sendControl (resyncBegun s) .resync 0 0 none false
  have hfit : (resyncBegun s).rd PRL_STATUS.fit = 0 := rd_wr_at _ PRL_STATUS.fit 0 0 0 rfl
  have hresync : (resyncBegun s).rd PRL_STATUS.resync = 1 := by
    rw [resyncBegun, (changes_wr ..).rd]
    exact ((changes_wr (s.wr PRL_STATUS.resync 1) PRL_STATUS.suspended 1 0 0).rd).trans (rd_wr_at s PRL_STATUS.resync 1 0 0 rfl)
  rw [heq, hsent.rd, hsent.rd, lastNote_sendControl hactive', hpair]
  exact ⟨hfit, hresync, rfl, rfl, rfl, rfl, rfl, rfl⟩

theorem decideTakeover_meets {s : State} (h : s.pair.takeover = none) :
    (decideTakeover s).pair = { s.pair with takeover := some { id := none, edge := nextSymbol s, own := true } } := by
  simp only [decideTakeover, h]

/-- What the resolution of a mismatch does at a fit shadow. -/
theorem resolveMismatch_meets (hm : s.pair.mismatch = some c) (ho : s.pair.ownReport = some own) (hp : s.pair.partnerReport = some other)
    (hmode : s.rd DEV_MODE.mode = modeShadow) (hfit : s.rd PRL_STATUS.fit = 1) (htake : s.pair.takeover = none) (hactive : pairActive s = true) :
    let t := resolveMismatch s
    (own = true → other = true → t.safe.log.getLast?.map (fun e => e.kind) = some .pairDoubleFault ∧ t.rd PRL_STATUS.fit = 0 ∧
      t.pair.synced = false ∧ t.pair.takeover = none) ∧
    (own = false → other = true → t.pair.takeover = some { id := none, edge := nextSymbol s, own := true } ∧ t.rd PRL_STATUS.fit = 1) ∧
    (other = false → t.rd PRL_STATUS.fit = 0 ∧ t.rd PRL_STATUS.resync = 1 ∧ t.pair.copying = true ∧ lastNote t = some .resync ∧
      t.pair.takeover = none) ∧
    t.pair.mismatch = none ∧ t.pair.ownReport = none ∧ t.pair.partnerReport = none ∧ t.now = s.now ∧ t.ctxs = s.ctxs ∧ t.mem = s.mem ∧
    t.sec = s.sec ∧ t.fh = s.fh := by
  have htaken := changes_reportsTaken s
  have hmode' : (reportsTaken s).rd DEV_MODE.mode = modeShadow := by rw [htaken.rd, hmode]
  have hactive' : pairActive (reportsTaken s) = true := by rw [pairActive_congr htaken.rd, hactive]
  have hresolve := resolveMismatch_shadow hm ho hp hmode hfit
  dsimp only
  cases other with
  | false =>
    have heq : resolveMismatch s = shadowUnfit (reportsTaken s) := by rw [hresolve]; simp
    obtain ⟨hf, hr, hcopy, hnote, ht, hmis, hown, hpart⟩ := shadowUnfit_meets hmode' hactive'
    have hparts := ((changes_shadowUnfit (reportsTaken s)).after (ps := [.regs, .pair, .outbox])
      (ks := keys [PRL_STATUS.fit, PRL_STATUS.suspended, PRL_STATUS.resync]) (htaken.mono)).parts
    rw [heq]
    exact ⟨fun _ h => Bool.noConfusion h, fun _ h => Bool.noConfusion h, fun _ => ⟨hf, hr, hcopy, hnote, ht.trans htake⟩, hmis, hown, hpart,
      hparts.now_eq, hparts.ctxs_eq, hparts.mem_eq, hparts.sec_eq, hparts.fh_eq⟩
  | true =>
    cases own with
    | false =>
      have heq : resolveMismatch s = decideTakeover (reportsTaken s) := by rw [hresolve]; simp
      have hpair := decideTakeover_meets (s := reportsTaken s) htake
      have hparts := ((changes_decideTakeover (reportsTaken s)).after (ps := [.pair]) (ks := []) htaken)
      rw [heq]
      refine ⟨fun h => Bool.noConfusion h, fun _ _ => ⟨?_, hparts.rd.trans hfit⟩, fun h => Bool.noConfusion h, ?_, ?_, ?_, hparts.parts.now_eq,
        hparts.parts.ctxs_eq, hparts.parts.mem_eq, hparts.parts.sec_eq, hparts.parts.fh_eq⟩
      all_goals rw [hpair]; rfl
    | true =>
      have heq : resolveMismatch s = doubleFaulted (reportsTaken s) c := by rw [hresolve]; simp [doubleFaulted]
      obtain ⟨hlog, hf, hpair⟩ := doubleFaulted_meets (reportsTaken s) c
      have hparts := ((changes_doubleFaulted (reportsTaken s) c).after (ps := [.regs, .safe, .link, .outbox, .pair])
        (ks := keys [PRL_STATUS.fit] ++ logKeys) (htaken.mono)).parts
      rw [heq]
      refine ⟨fun _ _ => ⟨hlog, hf, ?_, ?_⟩, fun h => Bool.noConfusion h, fun h => Bool.noConfusion h, ?_, ?_, ?_, hparts.now_eq, hparts.ctxs_eq,
        hparts.mem_eq, hparts.sec_eq, hparts.fh_eq⟩
      · rw [hpair]
      · rw [hpair]; exact htake
      all_goals rw [hpair]; rfl

end

/-! ## The end of a copy -/

section
variable {s : State}

/-- The device in which the copy has ended. -/
def copyEnded (s : State) : State :=
  { s with pair := { s.pair with copying := false, dirty := false, frameFrom := some (frameBoundary (counter s + 1)) } }.wr PRL_STATUS.resync 0

theorem changes_copyEnded (s : State) : Changes [.regs, .pair] (keys [PRL_STATUS.resync]) s (copyEnded s) := by
  unfold copyEnded
  exact .after (changes_wr ..) (.after (changes_part (ps := [.pair]) rfl) .refl)

theorem copyDone_shadow (hc : s.pair.copying = true) (hmode : s.rd DEV_MODE.mode = modeShadow) : copyDone s = copyEnded s := by
  simp only [copyDone, hc, hmode, show modeShadow ≠ modeLead by decide, copyEnded, Bool.not_true, Bool.false_eq_true, if_false]

theorem copyDone_shadow_meets (hc : s.pair.copying = true) (hmode : s.rd DEV_MODE.mode = modeShadow) :
    let t := copyDone s
    t.pair = { s.pair with copying := false, dirty := false, frameFrom := some (frameBoundary (counter s + 1)) } ∧ t.rd PRL_STATUS.resync = 0 ∧
      t = { s with pair := t.pair, regs := t.regs } ∧ SameRegs (keys [PRL_STATUS.resync]) s t := by
  dsimp only
  rw [copyDone_shadow hc hmode]
  exact ⟨rfl, rd_wr_at _ PRL_STATUS.resync 0 0 0 rfl, rfl, (changes_copyEnded s).sameRegs⟩

theorem copyDone_lead (hc : s.pair.copying = true) (hmode : s.rd DEV_MODE.mode = modeLead) :
    copyDone s = copyEnded ((syncCopies s).foldl sendData s) := by
  simp only [copyDone, hc, hmode, copyEnded, Bool.not_true, Bool.false_eq_true, if_false, if_true]

/-- A lead whose link is awake puts the data blocks into the present train, in order (R506). -/
theorem foldl_sendData_awake (hmode : s.rd DEV_MODE.mode = modeLead) (ha : pairActive s = true) (hsleep : s.rd PRL_STATUS.tx_sleep = 0)
    (hd0 : d0Fenced s = false) (ds : List PairData) :
    let t := ds.foldl sendData s
    t.outbox = s.outbox ++ ds.map (fun d => .dataBlock s.pair.txTrain d) ∧ t = { s with pair := t.pair, outbox := t.outbox } := by
  induction ds generalizing s with
  | nil => exact ⟨(List.append_nil _).symm, rfl⟩
  | cons d ds ih =>
    have hsent : sendData s d = putBlock s d := by simp [sendData, hmode, ha, hd0, State.rdb, hsleep]
    obtain ⟨hout, hkeep⟩ := ih (s := putBlock s d) hmode ha hsleep hd0
    dsimp only at hout hkeep ⊢
    rw [List.foldl_cons, hsent]
    refine ⟨?_, ?_⟩
    · rw [hout]
      simp [putBlock]
    · rw [hkeep]
      rfl

theorem copyDone_lead_meets (hc : s.pair.copying = true) (hmode : s.rd DEV_MODE.mode = modeLead) (ha : pairActive s = true)
    (hsleep : s.rd PRL_STATUS.tx_sleep = 0) (hd0 : d0Fenced s = false) :
    let t := copyDone s
    t.pair.copying = false ∧ t.pair.frameFrom = some (frameBoundary (counter s + 1)) ∧ t.rd PRL_STATUS.resync = 0 ∧
      t.outbox = s.outbox ++ (syncCopies s).map (fun d => .dataBlock s.pair.txTrain d) ∧
      t = { s with pair := t.pair, regs := t.regs, outbox := t.outbox } ∧ SameRegs (keys [PRL_STATUS.resync]) s t := by
  obtain ⟨hout, hkeep⟩ := foldl_sendData_awake hmode ha hsleep hd0 (syncCopies s)
  dsimp only at hout hkeep ⊢
  rw [copyDone_lead hc hmode]
  generalize (syncCopies s).foldl sendData s = u at hout hkeep ⊢
  have hregs : u.regs = s.regs := by rw [hkeep]
  have hcounter : counter u = counter s := by rw [hkeep]; rfl
  refine ⟨rfl, ?_, rd_wr_at _ PRL_STATUS.resync 0 0 0 rfl, hout, ?_, ?_⟩
  · rw [← hcounter]; rfl
  · rw [hkeep]; rfl
  · have hsame := (changes_copyEnded u).sameRegs
    simpa only [SameRegs, hregs] using hsame

/-! ## The whole frame after a copy -/

theorem causeSet_congr {t : State} {b : Nat} (h : t.rd (causeRow b) = s.rd (causeRow b)) : causeSet t b = causeSet s b := by
  rw [causeSet, causeSet, h]

theorem causeKey_ne_fit (b : Nat) (hb : b < 10) : (causeRow b).key 0 0 ∉ [Row.key PRL_STATUS.fit 0 0] := by
  interval_cases b <;> decide +kernel

theorem all_range_congr {p q : Nat → Bool} {n : Nat} (h : ∀ b < n, p b = q b) : (List.range n).all p = (List.range n).all q := by
  rw [Bool.eq_iff_iff, List.all_eq_true, List.all_eq_true]
  exact forall₂_congr fun b hb => by rw [h b (List.mem_range.mp hb)]

/-- The conditions of R519 do not read the bit that shows them. -/
theorem fitNow_updateFit (s : State) : fitNow (updateFit s) = fitNow s := by
  have hpair : (updateFit s).pair = s.pair := (changes_updateFit s).parts.pair_eq
  have hcause : ∀ b ∈ List.range 10, causeSet (updateFit s) b = causeSet s b := fun b hb =>
    causeSet_congr ((changes_updateFit s).rd (hk := causeKey_ne_fit b (List.mem_range.mp hb)))
  have hall : (List.range 10).all (fun b => decide (b < 3) || !causeSet (updateFit s) b) =
      (List.range 10).all (fun b => decide (b < 3) || !causeSet s b) :=
    all_range_congr fun b hb => by rw [hcause b (List.mem_range.mpr hb)]
  rw [fitNow, fitNow, hall, hpair]

theorem rd_updateFit (h : s.rd DEV_MODE.mode = modeShadow) : (updateFit s).rd PRL_STATUS.fit = b2n (fitNow (updateFit s)) := by
  rw [fitNow_updateFit, updateFit, if_pos h]
  exact rd_wrb_same s PRL_STATUS.fit (fitNow s) 0 0 (by decide)

/-- The device that no longer watches its frame. -/
def frameLeft (b : State) : State := { b with pair := { b.pair with frameFrom := none, dirty := false } }

/-- The device after a clean frame. -/
def cleanFrame (b : State) : State := { b with pair := { b.pair with frameFrom := none, dirty := false, synced := true, rounds := 0 } }

/-- The device that has given up. -/
def roundsOver (b : State) : State := { b with pair := { b.pair with frameFrom := none, dirty := false, rounds := 0 } }

/-- The device in which one more round is counted. -/
def roundCounted (b : State) : State := { b with pair := { b.pair with frameFrom := none, dirty := false, rounds := b.pair.rounds + 1 } }

/-- The device that begins another round. -/
def roundBegun (b : State) : State := startResync (roundCounted b)

theorem changes_frameLeft (b : State) : Changes [.pair] [] b (frameLeft b) := changes_part rfl

theorem changes_cleanFrame (b : State) : Changes [.pair] [] b (cleanFrame b) := changes_part rfl

theorem changes_roundsOver (b : State) : Changes [.pair] [] b (roundsOver b) := changes_part rfl

theorem changes_roundCounted (b : State) : Changes [.pair] [] b (roundCounted b) := changes_part rfl

theorem changes_roundBegun (b : State) : Changes [.regs, .pair] (keys [PRL_STATUS.suspended, PRL_STATUS.resync]) b (roundBegun b) :=
  .after (changes_startResync ..) (.after (changes_roundCounted b) .refl)

/-- What the end of a frame makes of a device that has reached it (R527). -/
def frameLeave (s : State) : State :=
  let dirty := s.pair.dirty
  let s := { s with pair := { s.pair with frameFrom := none, dirty := false } }
  if s.rd DEV_MODE.mode ≠ modeShadow then s
  else if !dirty then updateFit { s with pair := { s.pair with synced := true, rounds := 0 } }
  else if 3 ≤ s.pair.rounds + 1 then raiseEvent (fault { s with pair := { s.pair with rounds := 0 } } .pairResyncFailed) evPair
  else sendControl (startResync { s with pair := { s.pair with rounds := s.pair.rounds + 1 } }) .resync

theorem frameDone_eq {f : Nat} (hf : s.pair.frameFrom = some f) : frameDone s = frameLeave (toBoundary s (f + 10000000 * 65536)) := by
  unfold frameDone
  rw [hf]
  rfl

theorem frameLeave_eq (b : State) : frameLeave b =
    if (frameLeft b).rd DEV_MODE.mode ≠ modeShadow then frameLeft b
    else if !b.pair.dirty then updateFit (cleanFrame b)
    else if 3 ≤ b.pair.rounds + 1 then raiseEvent (fault (roundsOver b) .pairResyncFailed) evPair
    else sendControl (roundBegun b) .resync := rfl

variable {b : State}

theorem frameLeave_clean (hmode : b.rd DEV_MODE.mode = modeShadow) (hd : b.pair.dirty = false) : frameLeave b = updateFit (cleanFrame b) := by
  have hmode' : (frameLeft b).rd DEV_MODE.mode = modeShadow := by rw [(changes_frameLeft b).rd, hmode]
  rw [frameLeave_eq, if_neg (not_not_intro hmode'), if_pos (by rw [hd]; rfl)]

theorem frameLeave_dirty (hmode : b.rd DEV_MODE.mode = modeShadow) (hd : b.pair.dirty = true) :
    frameLeave b = if 2 ≤ b.pair.rounds then raiseEvent (fault (roundsOver b) .pairResyncFailed) evPair else sendControl (roundBegun b) .resync := by
  have hmode' : (frameLeft b).rd DEV_MODE.mode = modeShadow := by rw [(changes_frameLeft b).rd, hmode]
  rw [frameLeave_eq, if_neg (not_not_intro hmode'), if_neg (by rw [hd]; decide)]
  exact if_congr Nat.succ_le_succ_iff rfl rfl

/-- What the end of a clean frame leaves. -/
theorem frameLeave_clean_meets (hreach : Changes [.now, .tim] [] s b) (hmode : s.rd DEV_MODE.mode = modeShadow) (hd : s.pair.dirty = false) :
    let t := frameLeave b
    t.pair = { s.pair with frameFrom := none, synced := true, rounds := 0 } ∧ t.rd PRL_STATUS.fit = b2n (fitNow t) ∧
      t.now = b.now ∧ t = { s with now := t.now, tim := t.tim, pair := t.pair, regs := t.regs } ∧ SameRegs (keys [PRL_STATUS.fit]) s t := by
  have hmode' : b.rd DEV_MODE.mode = modeShadow := by rw [hreach.rd, hmode]
  have hclean : (cleanFrame b).rd DEV_MODE.mode = modeShadow := by rw [(changes_cleanFrame b).rd, hmode']
  have hpair : (cleanFrame b).pair = { s.pair with frameFrom := none, synced := true, rounds := 0 } := by
    rw [cleanFrame, hreach.parts.pair_eq]
    simp only [hd]
  have hchanges : Changes [.now, .tim, .pair, .regs] (keys [PRL_STATUS.fit]) s (updateFit (cleanFrame b)) :=
    .after (changes_updateFit _) (.after (changes_cleanFrame b) (.after hreach .refl))
  dsimp only
  rw [frameLeave_clean hmode' (by rw [hreach.parts.pair_eq, hd])]
  refine ⟨?_, rd_updateFit hclean, ?_, hchanges.parts, hchanges.sameRegs⟩
  · rw [(changes_updateFit _).parts.pair_eq, hpair]
  · rw [(changes_updateFit _).parts.now_eq]; rfl

theorem frameLeave_dirty_meets (hreach : Changes [.now, .tim] [] s b) (hmode : s.rd DEV_MODE.mode = modeShadow) (hd : s.pair.dirty = true)
    (ha : pairActive s = true) :
    let t := frameLeave b
    (s.pair.rounds < 2 → t.pair.copying = true ∧ t.pair.rounds = s.pair.rounds + 1 ∧ lastNote t = some .resync ∧ t.rd PRL_STATUS.resync = 1) ∧
      (2 ≤ s.pair.rounds → t.pair.rounds = 0 ∧ t.safe.log.getLast?.map (fun e => e.kind) = some .pairResyncFailed ∧
        t.rd HCI_EVT_CAUSE.pair_event = 1) ∧
      t.pair.frameFrom = none ∧ t.pair.synced = s.pair.synced ∧ t.now = b.now ∧ t.ctxs = s.ctxs ∧ t.mem = s.mem ∧ t.sec = s.sec ∧ t.fh = s.fh := by
  have hmode' : b.rd DEV_MODE.mode = modeShadow := by rw [hreach.rd, hmode]
  have hbpair : b.pair = s.pair := hreach.parts.pair_eq
  dsimp only
  rw [frameLeave_dirty hmode' (by rw [hbpair, hd]), hbpair]
  by_cases hr : 2 ≤ s.pair.rounds
  · rw [if_pos hr]
    have hlogged : Changes [.regs, .safe, .link, .outbox] _ (roundsOver b) (raiseEvent (fault (roundsOver b) .pairResyncFailed) evPair) :=
      .after (changes_raiseEvent ..) (.after (changes_fault ..) (.refl (ks := [evtKey evPair] ++ logKeys)))
    have hparts : OnlyParts [.now, .tim, .pair] s (roundsOver b) := (Changes.after (ks := []) (changes_roundsOver b) (hreach.mono)).parts
    have hpair : (roundsOver b).pair = { s.pair with frameFrom := none, dirty := false, rounds := 0 } := by rw [roundsOver, hbpair]
    have hnow : (roundsOver b).now = b.now := rfl
    have hlast : (raiseEvent (fault (roundsOver b) .pairResyncFailed) evPair).safe.log.getLast?.map (fun e => e.kind) = some .pairResyncFailed := by
      rw [(changes_raiseEvent ..).parts.safe_eq]
      exact fault_lastKind ..
    rw [hlogged.parts.pair_eq, hlogged.parts.now_eq, hlogged.parts.ctxs_eq, hlogged.parts.mem_eq, hlogged.parts.sec_eq, hlogged.parts.fh_eq, hpair]
    exact ⟨fun h => absurd h (by omega), fun _ => ⟨rfl, hlast, rd_raiseEvent_pair _⟩, rfl, rfl, hnow, hparts.ctxs_eq, hparts.mem_eq,
      hparts.sec_eq, hparts.fh_eq⟩
  · rw [if_neg hr]
    have ha' : pairActive (roundBegun b) = true := by rw [pairActive_congr (changes_roundBegun b).rd, pairActive_congr hreach.rd, ha]
    have hsent := changes_sendControl (roundBegun b) .resync 0 0 none false
    have hparts : OnlyParts [.now, .tim, .regs, .pair] s (roundBegun b) :=
      (Changes.after (ks := keys [PRL_STATUS.suspended, PRL_STATUS.resync]) (changes_roundBegun b) (hreach.mono)).parts
    have hpair : (roundBegun b).pair =
        { s.pair with copying := true, frameFrom := none, dirty := false, unitSuspended := true, rounds := s.pair.rounds + 1 } := by
      rw [← hbpair]; rfl
    have hresync : (roundBegun b).rd PRL_STATUS.resync = 1 :=
      ((changes_wr ((roundCounted b).wr PRL_STATUS.resync 1) PRL_STATUS.suspended 1 0 0).rd).trans
        (rd_wr_at (roundCounted b) PRL_STATUS.resync 1 0 0 rfl)
    have hnow : (roundBegun b).now = b.now := (changes_roundBegun b).parts.now_eq
    rw [lastNote_sendControl ha', sendControl_pair, hsent.rd, hsent.parts.now_eq, hsent.parts.ctxs_eq, hsent.parts.mem_eq, hsent.parts.sec_eq,
      hsent.parts.fh_eq, sentFrom, hpair, hresync]
    exact ⟨fun _ => ⟨rfl, rfl, rfl, rfl⟩, fun h => absurd h hr, rfl, rfl, hnow, hparts.ctxs_eq, hparts.mem_eq, hparts.sec_eq, hparts.fh_eq⟩

end

/-- Settles O55: a clause each for the close of a unit at the shadow and at the lead, the release and the discard of a held segment, the
resolution of a mismatch, the end of a copy at each device, and the frame after it. -/
theorem unitsAreComparedAndReleased : Obligations.UnitsAreComparedAndReleased := by
  unfold Obligations.UnitsAreComparedAndReleased
  refine ⟨?_, ?_, ?_, ?_, ?_, ?_, ?_, ?_, ?_⟩
  · exact fun s hunit hpa hactive hmode => Answers.intro rfl (unitClose_shadow_meets hunit hpa hactive hmode)
  · exact fun s d hunit hpa hactive hmode hsusp hearly hm hf _ => Answers.intro rfl (unitClose_lead_meets hunit hpa hactive hmode hsusp hearly hm hf rfl)
  · exact fun s h c hheld hc hv hopen hup hei hwire => Answers.intro rfl (segmentDue_matched_meets hheld hc hv hopen hup hei hwire)
  · exact fun s h c hheld hc hv => Answers.intro rfl (segmentDue_discarded_meets hheld hc hv)
  · exact fun s c own other hm ho hp hmode hfit htake hactive => Answers.intro rfl (resolveMismatch_meets hm ho hp hmode hfit htake hactive)
  · exact fun s hc hmode => Answers.intro rfl (copyDone_shadow_meets hc hmode)
  · exact fun s hc hmode ha hsleep hd0 => Answers.intro rfl (copyDone_lead_meets hc hmode ha hsleep hd0)
  · intro s f hf hmode hd
    refine Answers.intro rfl ?_
    rw [frameDone_eq hf]
    exact frameLeave_clean_meets (changes_toBoundary ..) hmode hd
  · intro s f hf hmode hd ha
    refine Answers.intro rfl ?_
    rw [frameDone_eq hf]
    exact frameLeave_dirty_meets (changes_toBoundary ..) hmode hd ha

end Sys2Proof.Machine
end

section
set_option Elab.async false
/-! An instruction of a Thicket tile that issues: the state and the tile that it leaves, field by field. -/

namespace Sys2Proof.Machine

/-! ## What issues acts -/

@[simp] theorem slotFinds_clean (w : Nat) : slotFinds clean w = clean := by
  simp [slotFinds, clean]

@[simp] theorem countEcc_ok (s : State) (n : Nat) : countEcc s n .ok = s := rfl

/-- The two halves of a register, put together again. -/
theorem halves_append (v : BitVec (64 + 64)) : v.extractLsb' 64 64 ++ v.extractLsb' 0 64 = v := by
  ext i hi
  simp only [BitVec.getElem_append]
  split
  · simp [BitVec.getLsbD_eq_getElem hi]
  · simp [show 64 + (i - 64) = i by omega, BitVec.getLsbD_eq_getElem hi]

theorem poisonLoad_clean (s : State) (scalar : Bool) (v : BitVec 128) : poisonLoad s scalar false false v = (v, s) := by
  have hjoin : v.extractLsb' 64 64 ++ v.extractLsb' 0 64 = v := halves_append v
  cases scalar <;> simp [poisonLoad, hjoin]

/-- Without errors the loads deliver what the memory gives. -/
theorem poisonLoads_clean (s : State) (loads : List (Nat × BitVec 128)) (w : Nat) : poisonLoads s loads clean w = (s, loads) := by
  suffices h : ∀ done : List (Nat × BitVec 128), loads.foldl (fun a p => (a.1, a.2 ++ [p])) (s, done) = (s, done ++ loads) by
    have hok : (Ecc.ok == Ecc.double) = false := rfl
    simpa [poisonLoads, clean, hok, poisonLoad_clean] using h []
  induction loads with
  | nil => simp
  | cons p loads ih => intro done; simp [ih, List.append_assoc]

/-- The headroom of the stores in scope 3 is a free value. -/
def slotTracks (x : Tile) (w : Nat) : Bool :=
  bexTrack x.regs && bexScope x.regs == 3 && ((xSlot w).kind == 2 || (ySlot w).kind == 2)

/-- The state once the free value of a tracked store has been drawn. -/
def afterDraw (s : State) (x : Tile) (w : Nat) : State := if slotTracks x w then (s.fresh 4).2 else s

/-- The entry that a pop delivers, and the tile once it and the slots have acted. -/
def poppedTile (op : TOp) (x : Tile) (w n : Nat) : BitVec 128 × Tile :=
  match popFifo op w with
  | some k => doPop (slotsEffect x w).1 k n
  | none => (0, (slotsEffect x w).1)

/-- The tile once the slots and a pop have acted on it, with a free headroom where the stores are tracked. -/
def slotTile (s : State) (op : TOp) (x : Tile) (w n : Nat) : Tile :=
  let y := (poppedTile op x w n).2
  if slotTracks x w then { y with regs := { y.regs with headroom := (s.fresh 4).1.toNat } } else y

/-- The program flow of the instruction: its registers, the next address, the loops and the bubble. -/
def flowOf (s : State) (op : TOp) (x : Tile) (w n : Nat) : TileRegs × Nat × List LoopFrame × Nat :=
  controlNext op w { slotTile s op x w n with loops := x.loops } (slotTile s op x w n).regs

/-- The registers that the instruction leaves: its own results, then the loads. -/
def issuedRegs (s : State) (op : TOp) (x : Tile) (w n : Nat) : TileRegs :=
  let r := computeRegs op w x (poppedTile op x w n).1 (flowOf s op x w n).1
  { r with v := (slotsEffect x w).2.foldl (fun m p => sparseSet 0 m p.1 p.2) r.v }

/-- The tile with its registers, its program flow and its use of the memories, before scoreboard and flow operations. -/
def steppedTile (s : State) (op : TOp) (x : Tile) (w n : Nat) : Tile :=
  let y := slotTile s op x w n
  { y with regs := issuedRegs s op x w n, pc := (flowOf s op x w n).2.1, loops := (flowOf s op x w n).2.2.1,
           hc := n + 1 + (flowOf s op x w n).2.2.2, lastHc := n,
           xUses := slotUse s y.xUses (xSlot w) n, yUses := slotUse s y.yUses (ySlot w) n }

/-- The tile that the instruction leaves, but for an output that it stages. -/
def issuedTile (s : State) (op : TOp) (t : Nat) (x : Tile) (w n : Nat) : Tile :=
  flowEffect op w n x (scoreboard (steppedTile s op x w n) op w n) t

/-- The tile with an output staged behind those that it has. -/
def stagedTile (x : Tile) (o : StagedOut) : Tile := { x with staging := x.staging ++ [o], blockOuts := x.blockOuts + 1 }

/-- The state that the instruction leaves: an output is staged in a block and else released. -/
def issuedState (s : State) (op : TOp) (t : Nat) : State :=
  let x := tileOf s t
  let w := wordAt s t
  let n := issueHc s x op w
  match outputOf s t x op w with
  | some o =>
    if x.inBlock then setTile (afterDraw s x w) t (stagedTile (issuedTile s op t x w n) o)
    else releaseOut (setTile (afterDraw s x w) t (issuedTile s op t x w n)) t n o
  | none => setTile (afterDraw s x w) t (issuedTile s op t x w n)

theorem releaseOut_safe (s : State) (t n : Nat) (o : StagedOut) : (releaseOut s t n o).safe = s.safe := by
  obtain ⟨kind, data⟩ := o
  cases kind <;> rfl

@[simp] theorem afterDraw_safe (s : State) (x : Tile) (w : Nat) : (afterDraw s x w).safe = s.safe := by
  unfold afterDraw; split <;> rfl

theorem issuedState_safe (s : State) (op : TOp) (t : Nat) : (issuedState s op t).safe = s.safe := by
  unfold issuedState
  dsimp only
  split
  · split
    · simp
    · simp [releaseOut_safe]
  · simp

theorem injArmed_of_none {s : State} (h : s.safe.injection = none) (mech target : Nat) : injArmed s mech target = false := by
  simp [injArmed, h]

theorem execute_clean {s : State} (op : TOp) (t : Nat) (h : s.safe.injection = none) :
    execute op t (wordAt s t) clean s = issuedState s op t := by
  have hnone : injArmed (issuedState s op t) 8 t = false := injArmed_of_none (by rw [issuedState_safe, h]) _ _
  have hbad : loadsBad clean = false := rfl
  have hshape : execute op t (wordAt s t) clean s =
      if op.isMac && injArmed (issuedState s op t) 0x08 t
      then residueFail (issuedState s op t) t (issueHc s (tileOf s t) op (wordAt s t) + 5) true else issuedState s op t := by
    unfold execute
    extract_lets x0 xs ys f n s1 out sl pl s2 popped x1 tracked fr s3 rg x1' c r1 r3 x2 x3 x4 s4 s5 s6
    have hf : f = clean := slotFinds_clean _
    have hs1 : s1 = s := by simp only [s1, hf]; rfl
    have hpl : pl = (s, sl.2) := by simp only [pl, hs1, hf, poisonLoads_clean]
    have hs2 : s2 = s := by simp only [s2, hpl]
    have htracked : tracked = slotTracks x0 (wordAt s t) := rfl
    have hx1 : x1' = slotTile s op x0 (wordAt s t) n := by
      cases hb : slotTracks x0 (wordAt s t) <;> simp only [x1', fr, hs2, htracked, hb, slotTile] <;> rfl
    have hs3 : s3 = afterDraw s x0 (wordAt s t) := by
      cases hb : slotTracks x0 (wordAt s t) <;> simp only [s3, fr, hs2, htracked, hb, afterDraw] <;> rfl
    have hc : c = flowOf s op x0 (wordAt s t) n := by simp only [c, hx1]; rfl
    have hr3 : r3 = issuedRegs s op x0 (wordAt s t) n := by simp only [r3, r1, hpl, hc]; rfl
    have hx2 : x2 = steppedTile s op x0 (wordAt s t) n := by simp only [x2, hr3, hc, hx1, hs1]; rfl
    have hx3 : x3 = issuedTile s op t x0 (wordAt s t) n := by simp only [x3, hx2]; rfl
    have hs5 : s5 = issuedState s op t := by
      have hout : out = outputOf s t x0 op (wordAt s t) := by simp only [out, hs1]
      cases ho : outputOf s t x0 op (wordAt s t) with
      | none =>
        simp only [s5, s4, x4, hout, ho, hx3, hs3, issuedState]
        simp only [x0] at ho
        rw [ho]
      | some o =>
        cases hb : x0.inBlock <;> simp only [s5, s4, x4, hout, ho, hb, hx3, hs3, issuedState] <;> simp only [x0] at ho hb <;> rw [ho] <;> simp only [hb] <;> rfl
    have hs6 : s6 = s5 := by simp only [s6, hf, hbad]; rfl
    rw [hs6, hs5]
  rw [hshape, hnone]
  simp

/-- An instruction that is free to issue issues. -/
theorem issue_of_issues {s : State} {op : TOp} {t : Nat} (h : Issues s t op) : issue op t clean s = issuedState s op t := by
  obtain ⟨hrun, hswap, hlasting, hrange, hop, hexc, hlimit, hstall, hlong, hinj⟩ := h
  have hfree : ¬ ((tileOf s t).state ≠ .run ∨ ((tileOf s t).swapPending = true ∧ (tileOf s t).betweenBlocks = true) ∨
      ((tileOf s t).lasting = true ∧ (tileOf s t).betweenBlocks = true ∧ (!spareGone s t) = true)) := by
    rintro (hr | ⟨h1, h2⟩ | ⟨h1, h2, h3⟩)
    · exact hr hrun
    · simp [hswap h1] at h2
    · simp [hlasting h1 h2] at h3
  have hinTime : ¬ ((tileOf s t).inBlock = true ∧ (tileOf s t).blockHc + 65536 < issueHc s (tileOf s t) op (wordAt s t)) := by
    rintro ⟨h1, h2⟩
    exact absurd (hlong h1) (by omega)
  rw [← execute_clean op t hinj]
  have hword : (sparseGet 0 (tileOf s t).prog (tileOf s t).pc).toNat = wordAt s t := rfl
  have hfetch : clean.fetch = .ok := rfl
  simp only [issue, hword, hfree, hrange, hfetch, countEcc_ok, hop, hexc, hlimit, hstall, hinTime, if_false, ne_eq, not_true_eq_false,
    reduceCtorEq, Bool.false_eq_true]

end Sys2Proof.Machine
end

section
set_option Elab.async false
/-! What an issued instruction leaves of its tile: the slots, the registers, the program flow and the frame. -/

namespace Sys2Proof.Machine

/-! ## Which part of a tile an operation can write -/

/-- The operation takes no entry, makes no output and changes neither block, reads, timer nor state of the tile. -/
def TOp.onRegisters : TOp → Bool
  | .wait | .blkBegin | .blkCommit | .timer | .spop | .lpop | .spush | .lpush | .mdrd | .mdwr | .nwr => false
  | _ => true

/-- The operation writes a special register that its word names (R166). -/
def TOp.setsSpecial : TOp → Bool
  | .setr | .setrv => true
  | _ => false

/-- The operation writes the exponent registers (R134). -/
def TOp.setsExponent : TOp → Bool
  | .bexNext | .bexClr => true
  | _ => false

/-- The operation goes to an address of its own choice (R159, R160). -/
def TOp.jumps : TOp → Bool
  | .br | .loop => true
  | _ => false

/-! ## The slots -/

/-- Registers `r` with the generators of `g`. -/
def withGens (r g : TileRegs) : TileRegs := { r with ag := g.ag, ag4 := g.ag4, ag5 := g.ag5 }

theorem slotUpdate_eq (r : TileRegs) (k : Slot) : slotUpdate r k = withGens r (slotUpdate r k) := by
  unfold slotUpdate
  split
  · rfl
  · split
    · rfl
    · split <;> rfl

/-- The slots' updates reach the generators only (R131, R132). -/
theorem slotUpdates_eq (r : TileRegs) (w : Nat) : slotUpdates r w = withGens r (slotUpdates r w) := by
  unfold slotUpdates
  dsimp only
  split
  · exact slotUpdate_eq _ _
  · have hx : withGens r (slotUpdate r (xSlot w)) = slotUpdate r (xSlot w) := (slotUpdate_eq _ _).symm
    calc slotUpdate (slotUpdate r (xSlot w)) (ySlot w)
        = withGens (slotUpdate r (xSlot w)) (slotUpdate (slotUpdate r (xSlot w)) (ySlot w)) := slotUpdate_eq _ _
      _ = withGens (withGens r (slotUpdate r (xSlot w))) (slotUpdate (slotUpdate r (xSlot w)) (ySlot w)) := by rw [hx]
      _ = withGens r (slotUpdate (slotUpdate r (xSlot w)) (ySlot w)) := rfl

/-- The headroom once the slots have acted. -/
def slotHeadroom (s : State) (x : Tile) (w : Nat) : Nat :=
  if slotTracks x w then (s.fresh 4).1.toNat else (slotsEffect x w).1.regs.headroom

/-- The registers once the slots have acted on them. -/
def slotRegs (s : State) (x : Tile) (w : Nat) : TileRegs := { slotUpdates x.regs w with headroom := slotHeadroom s x w }

/-- Stores that no scope tracks leave the headroom alone (R133). -/
theorem slotHeadroom_of_untracked {s : State} {x : Tile} {w : Nat} (h : bexTrack x.regs = false) : slotHeadroom s x w = x.regs.headroom := by
  simp [slotHeadroom, slotTracks, slotsEffect, h]

/-- So does an instruction without a store. -/
theorem slotHeadroom_of_noStore {s : State} {x : Tile} {w : Nat} (hx : (xSlot w).kind ≠ 2) (hy : (ySlot w).kind ≠ 2) :
    slotHeadroom s x w = x.regs.headroom := by
  simp [slotHeadroom, slotTracks, slotsEffect, hx, hy]

/-- The tile once a pop has taken its entry. -/
def poppedFrom (op : TOp) (x : Tile) (w n : Nat) : Tile :=
  match popFifo op w with
  | some k => (doPop x k n).2
  | none => x

/-- A tile with other registers and memories. -/
def withData (x : Tile) (r : TileRegs) (mx my : Sparse (BitVec 32)) : Tile := { x with regs := r, x := mx, y := my }

theorem slotsEffect_eq (x : Tile) (w : Nat) : (slotsEffect x w).1 =
    withData x (slotsEffect x w).1.regs (slotsEffect x w).1.x (slotsEffect x w).1.y := rfl

/-- A pop reads and writes the FIFOs only. -/
theorem doPop_withData (x : Tile) (r : TileRegs) (mx my : Sparse (BitVec 32)) (k n : Nat) :
    doPop (withData x r mx my) k n = ((doPop x k n).1, withData (doPop x k n).2 r mx my) := by
  simp only [doPop, Tile.fifo, Tile.setFifo, withData]
  split_ifs <;> rfl

/-- The tile that slots and pop leave: they act on different parts of it. -/
theorem slotTile_eq (s : State) (op : TOp) (x : Tile) (w n : Nat) :
    slotTile s op x w n = withData (poppedFrom op x w n) (slotRegs s x w) (slotsEffect x w).1.x (slotsEffect x w).1.y := by
  have hpop : (poppedTile op x w n).2 =
      withData (poppedFrom op x w n) (slotsEffect x w).1.regs (slotsEffect x w).1.x (slotsEffect x w).1.y := by
    unfold poppedTile poppedFrom
    cases h : popFifo op w with
    | none => exact slotsEffect_eq x w
    | some k => dsimp only; rw [slotsEffect_eq, doPop_withData]; rfl
  unfold slotTile
  rw [hpop]
  cases h : slotTracks x w
  · simp [slotRegs, slotHeadroom, h, slotsEffect]
  · simp [slotRegs, slotHeadroom, h, slotsEffect, withData]

theorem slotRegs_of_noSlots {s : State} {x : Tile} {w : Nat} (hx : (xSlot w).kind = 0) (hy : (ySlot w).kind = 0) : slotRegs s x w = x.regs := by
  simp [slotRegs, slotHeadroom_of_noStore (s := s) (x := x) (w := w) (by omega) (by omega), slotUpdates, slotUpdate, hx, hy]

/-! ## The program flow -/

/-- Registers `r` with the loop counters of `g`. -/
def withLoops (r g : TileRegs) : TileRegs := { r with loop0 := g.loop0, loop1 := g.loop1 }

theorem setLoopCount_eq (r : TileRegs) (lc n : Nat) : setLoopCount r lc n = withLoops r (setLoopCount r lc n) := by
  unfold setLoopCount; split <;> rfl

theorem loopNext_regs (r : TileRegs) (pc : Nat) (l : List LoopFrame) : (loopNext r pc l).1 = withLoops r (loopNext r pc l).1 := by
  induction l generalizing r with
  | nil => rfl
  | cons f fs ih =>
    unfold loopNext
    split
    · split
      · exact setLoopCount_eq _ _ _
      · rw [ih, setLoopCount_eq r]; rfl
    · rfl

/-- The program flow writes the loop counters only (R160). -/
theorem controlNext_regs (op : TOp) (w : Nat) (x : Tile) (r : TileRegs) : (controlNext op w x r).1 = withLoops r (controlNext op w x r).1 := by
  unfold controlNext
  cases op
  case br => dsimp only; split; exacts [rfl, loopNext_regs _ _ _]
  case loop =>
    dsimp only
    have h : (if bit w 54 then r else setLoopCount r (if bit w 55 = true then 1 else 0) (bits w 38 16)) =
        withLoops r (if bit w 54 then r else setLoopCount r (if bit w 55 = true then 1 else 0) (bits w 38 16)) := by
      split
      · rfl
      · exact setLoopCount_eq _ _ _
    generalize (if bit w 54 then r else setLoopCount r (if bit w 55 = true then 1 else 0) (bits w 38 16)) = g at h ⊢
    split <;> split <;> exact h
  all_goals exact loopNext_regs _ _ _

/-- An instruction that ends no loop's body goes on to the next address (R160). -/
theorem loopNext_of_inside {r : TileRegs} {pc : Nat} {l : List LoopFrame} (h : ∀ f ∈ l, f.last ≠ pc) :
    loopNext r pc l = (r, (pc + 1) % 2048, l) := by
  cases l with
  | nil => rfl
  | cons f fs => simp [loopNext, h f List.mem_cons_self]

/-- An operation that does not jump goes where the loops say. -/
theorem controlNext_of_straight {op : TOp} (h : op.jumps = false) (w : Nat) (x : Tile) (r : TileRegs) :
    controlNext op w x r = ((loopNext r x.pc x.loops).1, (loopNext r x.pc x.loops).2.1, (loopNext r x.pc x.loops).2.2, 0) := by
  cases op
  case br => cases h
  case loop => cases h
  all_goals rfl

/-! ## The compute operation -/

/-- Registers with a result in V register `d`. -/
def putVec (r : TileRegs) (d : Nat) (p : BitVec 128 × Bool) : TileRegs := { r with v := sparseSet 0 r.v d p.1, sat := r.sat || p.2 }

/-- Registers with a result in accumulator `d`. -/
def putAcc (r : TileRegs) (d : Nat) (p : BitVec 384 × Bool) : TileRegs := { r with acc := sparseSet 0 r.acc d p.1, sat := r.sat || p.2 }

/-- What an operation computes into its V register (R125, R164 to R166). -/
def vecOf (op : TOp) (w : Nat) (x : Tile) (p : BitVec 128) : BitVec 128 × Bool :=
  match op with
  | .pack => packResult w (sparseGet 0 x.regs.acc (fA w))
  | .spop | .lpop => (p, false)
  | .getr => (BitVec.ofNat 128 (readSpecial x (fSel w)), false)
  | _ => valuResult op w (sparseGet 0 x.regs.v (fA w)) (sparseGet 0 x.regs.v (fB w))

/-- What an operation computes into its accumulator (R162, R163). -/
def accOf (op : TOp) (w : Nat) (x : Tile) : BitVec 384 × Bool :=
  match op with
  | .aclr => (0, false)
  | .aload => aloadResult w (sparseGet 0 x.regs.v (fA w))
  | _ => macResult op w (sparseGet 0 x.regs.acc (fD w)) (sparseGet 0 x.regs.v (fA w)) (sparseGet 0 x.regs.v (fB w))

/-- What the compute operation does to registers `r`: by class, a result into an accumulator, one into a V register, or a special register. -/
theorem computeRegs_cases (op : TOp) (w : Nat) (x : Tile) (p : BitVec 128) (r : TileRegs) :
    (op.writesAcc = true ∧ computeRegs op w x p r = putAcc r (fD w) (accOf op w x)) ∨
    (op.writesAcc = false ∧ (∃ d, destV op w = some d ∧ computeRegs op w x p r = putVec r d (vecOf op w x p))) ∨
    (op = .bexNext ∧ computeRegs op w x p r = bexNext r) ∨ (op = .bexClr ∧ computeRegs op w x p r = bexClr r) ∨
    (op = .setr ∧ computeRegs op w x p r = writeSpecial r (fSel w) (fImm16 w)) ∨
    (op = .setrv ∧ computeRegs op w x p r = writeSpecial r (fSel w) ((sparseGet 0 x.regs.v (fB w)).toNat % 65536)) ∨
    (op.writesAcc = false ∧ op.setsSpecial = false ∧ op.setsExponent = false ∧ computeRegs op w x p r = r) := by
  cases op
  case mac | macj | msb | mul | mulj | aclr | aload => exact .inl ⟨rfl, rfl⟩
  case pack | vadd | vsub | vaddmj | vsubmj | vconj | vshr | vmov | vperm | spop | lpop | getr => exact .inr (.inl ⟨rfl, _, rfl, rfl⟩)
  case bexNext => exact .inr (.inr (.inl ⟨rfl, rfl⟩))
  case bexClr => exact .inr (.inr (.inr (.inl ⟨rfl, rfl⟩)))
  case setr => exact .inr (.inr (.inr (.inr (.inl ⟨rfl, rfl⟩))))
  case setrv => exact .inr (.inr (.inr (.inr (.inr (.inl ⟨rfl, rfl⟩)))))
  all_goals exact .inr (.inr (.inr (.inr (.inr (.inr ⟨rfl, rfl, rfl, rfl⟩)))))

/-- Two sets of registers with the same V registers and accumulators. -/
def SameVecs (r g : TileRegs) : Prop := g.v = r.v ∧ g.acc = r.acc

theorem SameVecs.ite {r g g' : TileRegs} {c : Prop} [Decidable c] (h : SameVecs r g) (h' : SameVecs r g') : SameVecs r (if c then g else g') := by
  split
  · exact h
  · exact h'

/-- A write of a special register reaches no V register and no accumulator (R166). -/
theorem writeSpecial_data (r : TileRegs) (sel v : Nat) : SameVecs r (writeSpecial r sel v) := by
  unfold writeSpecial
  extract_lets n g putG an putA
  have hG : ∀ g, SameVecs r (putG g) := fun _ => ⟨rfl, rfl⟩
  have hA : ∀ a, SameVecs r (putA a) := fun _ => .ite ⟨rfl, rfl⟩ ⟨rfl, rfl⟩
  have hrest : SameVecs r (if sel = 0x18 then { r with headroom := v % 16, expTotal := bits v 8 8 }
      else if sel = 0x19 then { r with bexMode := BitVec.ofNat 16 v }
      else if sel = 0x1A then { r with loop0 := BitVec.ofNat 16 v }
      else if sel = 0x1B then { r with loop1 := BitVec.ofNat 16 v }
      else if bit v 5 then { r with sat := false } else r) :=
    .ite ⟨rfl, rfl⟩ (.ite ⟨rfl, rfl⟩ (.ite ⟨rfl, rfl⟩ (.ite ⟨rfl, rfl⟩ (.ite ⟨rfl, rfl⟩ ⟨rfl, rfl⟩))))
  exact .ite (hG _) (.ite (hG _) (.ite (hG _) (.ite (hG _) (.ite (hA _) (.ite (hA _) (.ite (hA _) (.ite (hA _) hrest)))))))

/-- A V register that is not the destination keeps its value. -/
theorem computeRegs_v {op : TOp} {w n : Nat} (h : destV op w ≠ some n) (x : Tile) (p : BitVec 128) (r : TileRegs) :
    sparseGet 0 (computeRegs op w x p r).v n = sparseGet 0 r.v n := by
  obtain ⟨-, he⟩ | ⟨-, d, hd, he⟩ | ⟨-, he⟩ | ⟨-, he⟩ | ⟨-, he⟩ | ⟨-, he⟩ | ⟨-, -, -, he⟩ := computeRegs_cases op w x p r <;> rw [he]
  · rfl
  · exact sparseGet_set_ne _ _ _ _ _ _ (fun e => h (by rw [hd, e]))
  · rfl
  · rfl
  · rw [(writeSpecial_data _ _ _).1]
  · rw [(writeSpecial_data _ _ _).1]

/-- An accumulator that is not the destination keeps its value. -/
theorem computeRegs_acc {op : TOp} {w n : Nat} (h : op.writesAcc = true → fD w ≠ n) (x : Tile) (p : BitVec 128) (r : TileRegs) :
    sparseGet 0 (computeRegs op w x p r).acc n = sparseGet 0 r.acc n := by
  obtain ⟨hw, he⟩ | ⟨-, d, hd, he⟩ | ⟨-, he⟩ | ⟨-, he⟩ | ⟨-, he⟩ | ⟨-, he⟩ | ⟨-, -, -, he⟩ := computeRegs_cases op w x p r <;> rw [he]
  · exact sparseGet_set_ne _ _ _ _ _ _ (h hw)
  · rfl
  · rfl
  · rfl
  · rw [(writeSpecial_data _ _ _).2]
  · rw [(writeSpecial_data _ _ _).2]

/-- An operation that writes no special register leaves the generators and the loop counters alone. -/
theorem computeRegs_gens {op : TOp} (h : op.setsSpecial = false) (w : Nat) (x : Tile) (p : BitVec 128) (r : TileRegs) :
    withLoops (withGens (computeRegs op w x p r) r) r = computeRegs op w x p r := by
  obtain ⟨-, he⟩ | ⟨-, d, hd, he⟩ | ⟨-, he⟩ | ⟨-, he⟩ | ⟨ho, he⟩ | ⟨ho, he⟩ | ⟨-, -, -, he⟩ := computeRegs_cases op w x p r
  case inr.inr.inr.inr.inl => rw [ho] at h; cases h
  case inr.inr.inr.inr.inr.inl => rw [ho] at h; cases h
  all_goals rw [he]; rfl

/-- An operation that writes neither special nor exponent registers leaves the block exponent alone. -/
theorem computeRegs_exponent {op : TOp} (h : op.setsSpecial = false) (h' : op.setsExponent = false) (w : Nat) (x : Tile) (p : BitVec 128)
    (r : TileRegs) : (computeRegs op w x p r).expTotal = r.expTotal ∧ (computeRegs op w x p r).bexMode = r.bexMode ∧
      (computeRegs op w x p r).headroom = r.headroom := by
  obtain ⟨-, he⟩ | ⟨-, d, hd, he⟩ | ⟨ho, he⟩ | ⟨ho, he⟩ | ⟨ho, he⟩ | ⟨ho, he⟩ | ⟨-, -, -, he⟩ := computeRegs_cases op w x p r
  case inr.inr.inl => rw [ho] at h'; cases h'
  case inr.inr.inr.inl => rw [ho] at h'; cases h'
  case inr.inr.inr.inr.inl => rw [ho] at h; cases h
  case inr.inr.inr.inr.inr.inl => rw [ho] at h; cases h
  all_goals rw [he]; exact ⟨rfl, rfl, rfl⟩

/-! ## Scoreboard, flow and block operations -/

/-- A tile with another scoreboard. -/
def withBoard (x b : Tile) : Tile := { x with vReady := b.vReady, accReady := b.accReady, checkAt := b.checkAt }

theorem scoreboard_eq (x : Tile) (op : TOp) (w n : Nat) : scoreboard x op w n = withBoard x (scoreboard x op w n) := by
  unfold scoreboard
  dsimp only
  split <;> rfl

theorem flowEffect_of_onRegisters {op : TOp} (h : op.onRegisters = true) (w n : Nat) (x0 x : Tile) (t : Nat) : flowEffect op w n x0 x t = x := by
  cases op <;> first | rfl | cases h

/-- The registers, the memories and the program flow of tile `y` are those of `x`. -/
def SameData (x y : Tile) : Prop :=
  y.regs = x.regs ∧ y.x = x.x ∧ y.y = x.y ∧ y.pc = x.pc ∧ y.loops = x.loops ∧ y.hc = x.hc

theorem flowEffect_data (op : TOp) (w n : Nat) (x0 x : Tile) (t : Nat) : SameData x (flowEffect op w n x0 x t) := by
  cases op <;> exact ⟨rfl, rfl, rfl, rfl, rfl, rfl⟩

/-! ## The registers that an instruction leaves -/

section
variable (s : State) (op : TOp) (x : Tile) (w n : Nat)

/-- Slots and program flow write generators, headroom and loop counters. -/
theorem flowOf_regs : (flowOf s op x w n).1 = withLoops (slotRegs s x w) (flowOf s op x w n).1 := by
  have hregs : (slotTile s op x w n).regs = slotRegs s x w := by rw [slotTile_eq]; rfl
  unfold flowOf
  rw [hregs]
  exact controlNext_regs _ _ _ _

theorem slotRegs_eq : slotRegs s x w = { withGens x.regs (slotUpdates x.regs w) with headroom := slotHeadroom s x w } := by
  unfold slotRegs
  rw [slotUpdates_eq]
  rfl

theorem flowOf_data : (flowOf s op x w n).1.v = x.regs.v ∧ (flowOf s op x w n).1.acc = x.regs.acc ∧ (flowOf s op x w n).1.sat = x.regs.sat := by
  rw [flowOf_regs, slotRegs_eq]
  exact ⟨rfl, rfl, rfl⟩

theorem flowOf_gens : (flowOf s op x w n).1.ag = (slotUpdates x.regs w).ag ∧ (flowOf s op x w n).1.ag4 = (slotUpdates x.regs w).ag4 ∧
    (flowOf s op x w n).1.ag5 = (slotUpdates x.regs w).ag5 := by
  rw [flowOf_regs, slotRegs_eq]
  exact ⟨rfl, rfl, rfl⟩

theorem flowOf_exponent : (flowOf s op x w n).1.expTotal = x.regs.expTotal ∧ (flowOf s op x w n).1.bexMode = x.regs.bexMode ∧
    (flowOf s op x w n).1.headroom = slotHeadroom s x w := by
  rw [flowOf_regs, slotRegs_eq]
  exact ⟨rfl, rfl, rfl⟩

end

/-- The tile that an instruction leaves holds the registers, memories and program flow worked out above. -/
theorem issuedTile_data (s : State) (op : TOp) (t : Nat) (x : Tile) (w n : Nat) :
    (issuedTile s op t x w n).regs = issuedRegs s op x w n ∧ (issuedTile s op t x w n).x = (slotsEffect x w).1.x ∧
      (issuedTile s op t x w n).y = (slotsEffect x w).1.y ∧ (issuedTile s op t x w n).pc = (flowOf s op x w n).2.1 ∧
      (issuedTile s op t x w n).loops = (flowOf s op x w n).2.2.1 ∧ (issuedTile s op t x w n).hc = n + 1 + (flowOf s op x w n).2.2.2 := by
  obtain ⟨hr, hx, hy, hp, hl, hh⟩ := flowEffect_data op w n x (scoreboard (steppedTile s op x w n) op w n) t
  unfold issuedTile
  rw [hr, hx, hy, hp, hl, hh, scoreboard_eq, withBoard, steppedTile]
  dsimp only
  rw [slotTile_eq]
  exact ⟨rfl, rfl, rfl, rfl, rfl, rfl⟩

/-! ## Slots, generators, data, exponent and flow of an issued instruction -/

/-- Loads write the registers that they name, in their order. -/
theorem sparseGet_foldl_set_ne (l : List (Nat × BitVec 128)) (m : Sparse (BitVec 128)) {q : Nat} (h : ∀ p ∈ l, p.1 ≠ q) :
    sparseGet 0 (l.foldl (fun m p => sparseSet 0 m p.1 p.2) m) q = sparseGet 0 m q := by
  induction l generalizing m with
  | nil => rfl
  | cons p l ih =>
    rw [List.foldl_cons, ih _ (fun p hp => h p (List.mem_cons_of_mem _ hp)), sparseGet_set_ne _ _ _ _ _ _ (h p List.mem_cons_self)]

section
variable {s : State} {op : TOp} {t : Nat} {x : Tile} {w n : Nat}

theorem issuedRegs_v_of_noLoad {q : Nat} (hx : (xSlot w).kind = 1 → (xSlot w).v ≠ q) (hy : (ySlot w).kind = 1 → (ySlot w).v ≠ q) :
    sparseGet 0 (issuedRegs s op x w n).v q =
      sparseGet 0 (computeRegs op w x (poppedTile op x w n).1 (flowOf s op x w n).1).v q := by
  refine sparseGet_foldl_set_ne _ _ fun p hp => ?_
  simp only [slotsEffect, List.mem_append, List.mem_ite_nil_right, List.mem_singleton] at hp
  obtain ⟨hk, rfl⟩ | ⟨hk, rfl⟩ := hp
  · exact hx hk
  · exact hy hk

/-- The slots act as R131, R133, R167 and R168 give them. -/
theorem slotsAct_issued (hclash : loadClash op w = false) : SlotsAct w x (issuedTile s op t x w n) := by
  obtain ⟨hr, hx, hy, -⟩ := issuedTile_data s op t x w n
  refine ⟨by rw [hx]; rfl, by rw [hy]; rfl, fun hk => ?_, fun hk => ?_⟩
  · rw [hr]
    by_cases hy : (ySlot w).kind = 1
    · have hne : (ySlot w).v ≠ (xSlot w).v := by
        intro e; simp [loadClash, hk, hy, e] at hclash
      simp [issuedRegs, slotsEffect, hk, hy, sparseGet_set_ne _ _ _ _ _ _ hne]
    · simp [issuedRegs, slotsEffect, hk, hy]
  · rw [hr]
    simp [issuedRegs, slotsEffect, hk]

/-- Registers that the instruction does not write keep their values. -/
theorem dataKept_issued : DataKept op w x (issuedTile s op t x w n) := by
  obtain ⟨hr, -⟩ := issuedTile_data s op t x w n
  obtain ⟨hv, hacc, -⟩ := flowOf_data s op x w n
  refine ⟨fun q _ hd hx hy => ?_, fun q _ ha => ?_⟩
  · rw [hr, issuedRegs_v_of_noLoad hx hy, computeRegs_v hd, hv]
  · rw [hr, ← hacc]
    exact computeRegs_acc ha _ _ _

theorem gensAct_issued (h : op.setsSpecial = false) : GensAct w x (issuedTile s op t x w n) := by
  obtain ⟨hr, -⟩ := issuedTile_data s op t x w n
  obtain ⟨h1, h2, h3⟩ := flowOf_gens s op x w n
  unfold GensAct
  rw [hr, issuedRegs, ← computeRegs_gens h]
  exact ⟨h1, h2, h3⟩

theorem expKept_issued (h : op.setsSpecial = false) (h' : op.setsExponent = false) : ExpKept x (issuedTile s op t x w n) := by
  obtain ⟨hr, -⟩ := issuedTile_data s op t x w n
  obtain ⟨h1, h2, h3⟩ := computeRegs_exponent h h' w x (poppedTile op x w n).1 (flowOf s op x w n).1
  obtain ⟨g1, g2, g3⟩ := flowOf_exponent s op x w n
  refine ⟨?_, ?_, fun hb => ?_⟩ <;> rw [hr]
  · exact h1.trans g1
  · exact h2.trans g2
  · exact h3.trans (g3.trans (slotHeadroom_of_untracked hb))

/-- Where the flow stays inside every loop's body, it falls through. -/
theorem fallsThrough_of_flow (h : op.setsSpecial = false)
    (hflow : (∀ f ∈ x.loops, f.last ≠ x.pc) → flowOf s op x w n = (slotRegs s x w, (x.pc + 1) % 2048, x.loops, 0)) :
    FallsThrough x (issuedTile s op t x w n) := by
  intro hinside
  obtain ⟨hr, -, -, hpc, hloops, -⟩ := issuedTile_data s op t x w n
  rw [hpc, hloops, hr, issuedRegs, ← computeRegs_gens h, hflow hinside]
  refine ⟨rfl, rfl, ?_, ?_⟩
  · show (slotRegs s x w).loop0 = _
    rw [slotRegs_eq]; rfl
  · show (slotRegs s x w).loop1 = _
    rw [slotRegs_eq]; rfl

theorem poppedFrom_pc : (poppedFrom op x w n).pc = x.pc := by
  unfold poppedFrom
  cases popFifo op w with
  | none => rfl
  | some k => simp only [doPop, Tile.setFifo]; split_ifs <;> rfl

theorem flowOf_of_straight (h : op.jumps = false) : flowOf s op x w n =
    ((loopNext (slotRegs s x w) x.pc x.loops).1, (loopNext (slotRegs s x w) x.pc x.loops).2.1, (loopNext (slotRegs s x w) x.pc x.loops).2.2, 0) := by
  unfold flowOf
  rw [controlNext_of_straight h, slotTile_eq]
  simp only [withData, poppedFrom_pc]

theorem fallsThrough_issued (h : op.setsSpecial = false) (hj : op.jumps = false) : FallsThrough x (issuedTile s op t x w n) :=
  fallsThrough_of_flow h fun hinside => by rw [flowOf_of_straight hj, loopNext_of_inside hinside]

end

end Sys2Proof.Machine
end

section
set_option Elab.async false
/-! What an instruction leaves of the device beside its tile, and the rules for the arithmetic operations. -/

namespace Sys2Proof.Machine

/-! ## The frame -/

theorem outputOf_of_onRegisters {op : TOp} (h : op.onRegisters = true) (s : State) (t : Nat) (x : Tile) (w : Nat) : outputOf s t x op w = none := by
  cases op <;> first | rfl | cases h

theorem poppedFrom_of_onRegisters {op : TOp} (h : op.onRegisters = true) (x : Tile) (w n : Nat) : poppedFrom op x w n = x := by
  cases op <;> first | rfl | cases h

/-- An instruction without an output leaves its tile and a free value. -/
theorem issuedState_of_silent {s : State} {op : TOp} {t : Nat} (h : outputOf s t (tileOf s t) op (wordAt s t) = none) :
    issuedState s op t = setTile (afterDraw s (tileOf s t) (wordAt s t)) t
      (issuedTile s op t (tileOf s t) (wordAt s t) (issueHc s (tileOf s t) op (wordAt s t))) := by
  simp only [issuedState, h]

theorem afterDraw_eq (s : State) (x : Tile) (w : Nat) : afterDraw s x w = { s with free := (afterDraw s x w).free } := by
  unfold afterDraw
  split <;> rfl

theorem tileOf_afterDraw (s : State) (x : Tile) (w k : Nat) : tileOf (afterDraw s x w) k = tileOf s k := by
  rw [afterDraw_eq]; rfl

/-- Writing a tile after a draw changes nothing else. -/
theorem onlyTile_setTile (s : State) (x y : Tile) (w t : Nat) : OnlyTile t s (setTile (afterDraw s x w) t y) := by
  refine ⟨by rw [afterDraw_eq]; rfl, fun n _ hn => ?_⟩
  rw [tileOf_setTile_ne _ _ _ _ (Ne.symm hn), tileOf_afterDraw]

section
variable {s : State} {op : TOp} {t : Nat}

theorem onlyTile_issued (h : outputOf s t (tileOf s t) op (wordAt s t) = none) : OnlyTile t s (issuedState s op t) := by
  rw [issuedState_of_silent h]
  exact onlyTile_setTile _ _ _ _ _

theorem tileOf_issued (h : outputOf s t (tileOf s t) op (wordAt s t) = none) : tileOf (issuedState s op t) t =
    issuedTile s op t (tileOf s t) (wordAt s t) (issueHc s (tileOf s t) op (wordAt s t)) := by
  rw [issuedState_of_silent h, tileOf_setTile_same]

/-- A register operation leaves the rest of its tile alone. -/
theorem issuedTile_frame {x : Tile} {w n : Nat} (h : op.onRegisters = true) : issuedTile s op t x w n =
    { x with
      regs := (issuedTile s op t x w n).regs, x := (issuedTile s op t x w n).x, y := (issuedTile s op t x w n).y,
      pc := (issuedTile s op t x w n).pc, loops := (issuedTile s op t x w n).loops, hc := (issuedTile s op t x w n).hc, lastHc := n,
      xUses := (issuedTile s op t x w n).xUses, yUses := (issuedTile s op t x w n).yUses, vReady := (issuedTile s op t x w n).vReady,
      accReady := (issuedTile s op t x w n).accReady, checkAt := (issuedTile s op t x w n).checkAt } := by
  have htile : issuedTile s op t x w n = withBoard (steppedTile s op x w n) (scoreboard (steppedTile s op x w n) op w n) := by
    rw [issuedTile, flowEffect_of_onRegisters h, ← scoreboard_eq]
  rw [htile, steppedTile, slotTile_eq, poppedFrom_of_onRegisters h]
  rfl

theorem noClash_of_issues (h : Issues s t op) : loadClash op (wordAt s t) = false := by
  obtain ⟨-, -, -, -, -, hexc, -⟩ := h
  by_contra hclash
  simp [staticExc, Bool.not_eq_false _ ▸ hclash] at hexc

/-- A register operation that does not jump. -/
theorem registerOp_of_flow (h : Issues s t op) (ho : op.onRegisters = true)
    (hflow : (flowOf s op (tileOf s t) (wordAt s t) (issueHc s (tileOf s t) op (wordAt s t))).2.2.2 = 0) :
    RegisterOp s (issuedState s op t) t op := by
  have hsilent := outputOf_of_onRegisters ho s t (tileOf s t) (wordAt s t)
  obtain ⟨-, -, -, -, -, hhc⟩ := issuedTile_data s op t (tileOf s t) (wordAt s t) (issueHc s (tileOf s t) op (wordAt s t))
  refine ⟨onlyTile_issued hsilent, ?_⟩
  rw [tileOf_issued hsilent]
  exact ⟨slotsAct_issued (noClash_of_issues h), dataKept_issued, by rw [hhc, hflow], issuedTile_frame ho⟩

theorem registerOp_issued (h : Issues s t op) (ho : op.onRegisters = true) (hj : op.jumps = false) : RegisterOp s (issuedState s op t) t op :=
  registerOp_of_flow h ho (by rw [flowOf_of_straight hj])

/-- The arithmetic operations, NOP and GETR: register operations that move the generators only by their slots and fall through. -/
theorem arithOp_issued (h : Issues s t op) (ho : op.onRegisters = true) (hj : op.jumps = false) (hs : op.setsSpecial = false)
    (he : op.setsExponent = false) : ArithOp s (issuedState s op t) t op := by
  refine ⟨registerOp_issued h ho hj, ?_⟩
  rw [tileOf_issued (outputOf_of_onRegisters ho s t _ _)]
  exact ⟨gensAct_issued hs, expKept_issued hs he, fallsThrough_issued hs hj⟩

/-- A command whose meaning is the issue of one instruction answers the state that the instruction leaves. -/
theorem Answers.of_issue {c : Instr} {p : State → Prop} (hexec : exec c s = .next (issue op t clean s)) (h : Issues s t op)
    (hp : p (issuedState s op t)) : Answers c s p :=
  ⟨issuedState s op t, by rw [hexec, issue_of_issues h], hp⟩

end

/-! ## Parts of a register -/

theorem satTo_range (w : Nat) (x : Int) : -(2 ^ (w - 1)) ≤ (satTo w x).1 ∧ (satTo w x).1 < 2 ^ (w - 1) := by
  have hpos : (0 : Int) < 2 ^ (w - 1) := by positivity
  unfold satTo
  dsimp only
  split_ifs <;> constructor <;> simp only <;> omega

/-- A number in range survives its encoding in `w` bits. -/
theorem toSigned_of_mod {w n : Nat} (hw : 0 < w) {x : Int} (h : -(2 ^ (w - 1)) ≤ x ∧ x < 2 ^ (w - 1)) (hn : n % 2 ^ w = ofSigned w x) :
    toSigned w n = x := by
  obtain ⟨k, rfl⟩ : ∃ k, w = k + 1 := ⟨w - 1, by omega⟩
  simp only [Nat.add_sub_cancel] at h
  have hp : (2 : Nat) ^ (k + 1) = 2 * 2 ^ k := by rw [pow_succ, Nat.mul_comm]
  have hcast : ((2 ^ k : Nat) : Int) = 2 ^ k := by norm_cast
  unfold toSigned
  rw [hn]
  unfold ofSigned
  rw [hp]
  simp only [Nat.add_sub_cancel]
  generalize hm : (2 : Nat) ^ k = m at *
  rw [← hcast] at h
  by_cases hx : 0 ≤ x
  · rw [Int.emod_eq_of_lt hx (by omega)]
    split <;> omega
  · have he : x % ((2 * m : Nat) : Int) = x + (2 * m : Nat) := by
      rw [← Int.add_emod_right, Int.emod_eq_of_lt (by omega) (by omega)]
    rw [he]
    split <;> omega

/-- Numbers below `b` packed with the first lowest: the `p`th digit. -/
theorem digit_of_foldr {α : Type} (b : Nat) (f : α → Nat) (hf : ∀ x, f x < b) (l : List α) (p : Nat) (hp : p < l.length) :
    (l.foldr (fun x acc => f x + acc * b) 0) / b ^ p % b = f l[p] := by
  induction l generalizing p with
  | nil => simp at hp
  | cons x l ih =>
    have hb : 0 < b := lt_of_le_of_lt (Nat.zero_le _) (hf x)
    cases p with
    | zero => simp [Nat.add_mul_mod_self_right, Nat.mod_eq_of_lt (hf x)]
    | succ p =>
      rw [List.foldr_cons, pow_succ', ← Nat.div_div_eq_div_mul, Nat.add_mul_div_right _ _ hb, Nat.div_eq_of_lt (hf x), Nat.zero_add]
      simpa using ih p (by simpa using hp)

theorem foldr_lt {α : Type} (b : Nat) (f : α → Nat) (hf : ∀ x, f x < b) (l : List α) : l.foldr (fun x acc => f x + acc * b) 0 < b ^ l.length := by
  induction l with
  | nil => simp
  | cons x l ih =>
    rw [List.foldr_cons, List.length_cons, pow_succ]
    have := hf x
    nlinarith

theorem ofSigned_lt (w : Nat) (x : Int) : ofSigned w x < 2 ^ w := by
  unfold ofSigned
  have hpos : (0 : Int) < ((2 ^ w : Nat) : Int) := by positivity
  have h0 := Int.emod_nonneg x hpos.ne'
  have h1 := Int.emod_lt_of_pos x hpos
  omega

/-- A packed list of numbers in range gives each of them back. -/
theorem toSigned_packed {W w : Nat} (hw : 0 < w) {l : List Int} (hlen : w * l.length = W) {p : Nat} (hp : p < l.length)
    (h : -(2 ^ (w - 1)) ≤ l[p] ∧ l[p] < 2 ^ (w - 1)) :
    toSigned w ((BitVec.ofNat W (l.foldr (fun x acc => ofSigned w x + acc * 2 ^ w) 0)).toNat >>> (w * p)) = l[p] := by
  have hlt := foldr_lt (2 ^ w) (ofSigned w) (ofSigned_lt w) l
  rw [← pow_mul, hlen] at hlt
  refine toSigned_of_mod hw h ?_
  rw [BitVec.toNat_ofNat, Nat.mod_eq_of_lt hlt, Nat.shiftRight_eq_div_pow, pow_mul]
  exact digit_of_foldr (2 ^ w) (ofSigned w) (ofSigned_lt w) l p hp

theorem partW_pos (m8 : Bool) : 0 < partW m8 := by cases m8 <;> decide
theorem accW_pos (m8 : Bool) : 0 < accW m8 := by cases m8 <;> decide
theorem partW_mul_partN (m8 : Bool) : partW m8 * partN m8 = 128 := by cases m8 <;> rfl
theorem accW_mul_partN (m8 : Bool) : accW m8 * partN m8 = 384 := by cases m8 <;> rfl

/-- The parts of a V register built from saturated values. -/
theorem vPart_of_satAll (m8 : Bool) (f : Nat → Int) {p : Nat} (hp : p < partN m8) :
    vPart (partW m8) (ofParts (partW m8) (satAll (partW m8) ((List.range (partN m8)).map f)).1) p = (satTo (partW m8) (f p)).1 := by
  have hlen : (satAll (partW m8) ((List.range (partN m8)).map f)).1.length = partN m8 := by simp [satAll]
  have hget : (satAll (partW m8) ((List.range (partN m8)).map f)).1[p]'(by rw [hlen]; exact hp) = (satTo (partW m8) (f p)).1 := by simp [satAll]
  rw [← hget]
  exact toSigned_packed (partW_pos m8) (by rw [hlen, partW_mul_partN]) _ (by rw [hget]; exact satTo_range _ _)

/-- The parts of an accumulator built from saturated values. -/
theorem accPart_of_satAll (m8 : Bool) (f : Nat → Int) {p : Nat} (hp : p < partN m8) :
    accPart (accW m8) (ofAccParts (accW m8) (satAll (accW m8) ((List.range (partN m8)).map f)).1) p = (satTo (accW m8) (f p)).1 := by
  have hlen : (satAll (accW m8) ((List.range (partN m8)).map f)).1.length = partN m8 := by simp [satAll]
  have hget : (satAll (accW m8) ((List.range (partN m8)).map f)).1[p]'(by rw [hlen]; exact hp) = (satTo (accW m8) (f p)).1 := by simp [satAll]
  rw [← hget]
  exact toSigned_packed (accW_pos m8) (by rw [hlen, accW_mul_partN]) _ (by rw [hget]; exact satTo_range _ _)

theorem satAll_sat (w : Nat) (l : List Nat) (f : Nat → Int) : (satAll w (l.map f)).2 = l.any (fun p => (satTo w (f p)).2) := by
  simp [satAll, List.any_map, Function.comp_def]

/-! ## Results -/

section
variable {s : State} {op : TOp} {t : Nat}

/-- The result of an operation that writes a V register. -/
theorem vec_issued (h : Issues s t op) (hsilent : outputOf s t (tileOf s t) op (wordAt s t) = none) {d : Nat} (hd : destV op (wordAt s t) = some d)
    (hput : ∀ p r, computeRegs op (wordAt s t) (tileOf s t) p r = putVec r d (vecOf op (wordAt s t) (tileOf s t) p)) :
    ∃ p, p = (poppedTile op (tileOf s t) (wordAt s t) (issueHc s (tileOf s t) op (wordAt s t))).1 ∧
      vAt (issuedState s op t) t d = (vecOf op (wordAt s t) (tileOf s t) p).1 ∧
      (tileOf (issuedState s op t) t).regs.sat = ((tileOf s t).regs.sat || (vecOf op (wordAt s t) (tileOf s t) p).2) := by
  have hclash := noClash_of_issues h
  obtain ⟨hr, -⟩ := issuedTile_data s op t (tileOf s t) (wordAt s t) (issueHc s (tileOf s t) op (wordAt s t))
  obtain ⟨-, -, hsat⟩ := flowOf_data s op (tileOf s t) (wordAt s t) (issueHc s (tileOf s t) op (wordAt s t))
  have hx : (xSlot (wordAt s t)).kind = 1 → (xSlot (wordAt s t)).v ≠ d := by
    intro hk e; simp [loadClash, hd, hk, e] at hclash
  have hy : (ySlot (wordAt s t)).kind = 1 → (ySlot (wordAt s t)).v ≠ d := by
    intro hk e; simp [loadClash, hd, hk, e] at hclash
  refine ⟨_, rfl, ?_⟩
  unfold vAt
  rw [tileOf_issued hsilent, hr]
  constructor
  · rw [issuedRegs_v_of_noLoad hx hy, hput]
    exact sparseGet_set_same _ _ _ _
  · show (computeRegs _ _ _ _ _).sat = _
    rw [hput, ← hsat]
    rfl

/-- The same for an operation that takes no entry. -/
theorem vecResult_issued (h : Issues s t op) (ho : op.onRegisters = true) {d : Nat} (hd : destV op (wordAt s t) = some d)
    (hput : ∀ p r, computeRegs op (wordAt s t) (tileOf s t) p r = putVec r d (vecOf op (wordAt s t) (tileOf s t) p)) :
    vAt (issuedState s op t) t d = (vecOf op (wordAt s t) (tileOf s t) 0).1 ∧
      (tileOf (issuedState s op t) t).regs.sat = ((tileOf s t).regs.sat || (vecOf op (wordAt s t) (tileOf s t) 0).2) := by
  have hpop : ∀ n, (poppedTile op (tileOf s t) (wordAt s t) n).1 = 0 := by
    intro n
    cases op <;> first | rfl | cases ho
  obtain ⟨p, rfl, hresult⟩ := vec_issued h (outputOf_of_onRegisters ho s t _ _) hd hput
  rwa [hpop] at hresult

/-- The result of an operation that writes an accumulator. -/
theorem accResult_issued (ho : op.onRegisters = true)
    (hput : ∀ p r, computeRegs op (wordAt s t) (tileOf s t) p r = putAcc r (fD (wordAt s t)) (accOf op (wordAt s t) (tileOf s t))) :
    accAt (issuedState s op t) t (fD (wordAt s t)) = (accOf op (wordAt s t) (tileOf s t)).1 ∧
      (tileOf (issuedState s op t) t).regs.sat = ((tileOf s t).regs.sat || (accOf op (wordAt s t) (tileOf s t)).2) := by
  obtain ⟨hr, -⟩ := issuedTile_data s op t (tileOf s t) (wordAt s t) (issueHc s (tileOf s t) op (wordAt s t))
  obtain ⟨-, -, hsat⟩ := flowOf_data s op (tileOf s t) (wordAt s t) (issueHc s (tileOf s t) op (wordAt s t))
  unfold accAt
  rw [tileOf_issued (outputOf_of_onRegisters ho s t _ _), hr]
  constructor
  · show sparseGet 0 (computeRegs _ _ _ _ _).acc _ = _
    rw [hput]
    exact sparseGet_set_same _ _ _ _
  · show (computeRegs _ _ _ _ _).sat = _
    rw [hput, ← hsat]
    rfl

/-- A V register of saturated parts, as the statements give it. -/
theorem vecResult_of {f : Nat → Int} {also : Bool} {u : State} {v : BitVec 128 × Bool}
    (h : vAt u t (fD (wordAt s t)) = v.1 ∧ (tileOf u t).regs.sat = ((tileOf s t).regs.sat || v.2))
    (hv : v.1 = ofParts (partW (fM8 (wordAt s t))) (satAll (partW (fM8 (wordAt s t))) ((List.range (partN (fM8 (wordAt s t)))).map f)).1)
    (hs : v.2 = ((satAll (partW (fM8 (wordAt s t))) ((List.range (partN (fM8 (wordAt s t)))).map f)).2 || also)) :
    VecResult s u t f also := by
  obtain ⟨hval, hsat⟩ := h
  refine ⟨fun p hp => by rw [hval, hv]; exact vPart_of_satAll _ _ hp, ?_⟩
  rw [hsat, hs, satAll_sat, Bool.or_assoc]

/-- An accumulator of saturated parts, as the statements give it. -/
theorem accResult_of {f : Nat → Int} {u : State} {v : BitVec 384 × Bool}
    (h : accAt u t (fD (wordAt s t)) = v.1 ∧ (tileOf u t).regs.sat = ((tileOf s t).regs.sat || v.2))
    (hv : v = (ofAccParts (accW (fM8 (wordAt s t))) (satAll (accW (fM8 (wordAt s t))) ((List.range (partN (fM8 (wordAt s t)))).map f)).1,
      (satAll (accW (fM8 (wordAt s t))) ((List.range (partN (fM8 (wordAt s t)))).map f)).2)) :
    AccResult s u t f := by
  obtain ⟨hval, hsat⟩ := h
  subst hv
  exact ⟨fun p hp => by rw [hval]; exact accPart_of_satAll _ _ hp, by rw [hsat, satAll_sat]⟩

end

/-! ## The multiply-accumulate group and PACK -/

/-- An operation whose V register holds saturated parts. -/
theorem vecGroup_answers {s : State} {op : TOp} {tile : Fin 1024} {c : Instr} {f : Nat → Int} {also : Bool}
    (hexec : exec c s = .next (issue op tile clean s))
    (h : Issues s tile op) (ho : op.onRegisters = true) (hj : op.jumps = false) (hs : op.setsSpecial = false) (he : op.setsExponent = false)
    (hd : destV op (wordAt s tile) = some (fD (wordAt s tile)))
    (hput : ∀ p r, computeRegs op (wordAt s tile) (tileOf s tile) p r = putVec r (fD (wordAt s tile)) (vecOf op (wordAt s tile) (tileOf s tile) p))
    (hv : (vecOf op (wordAt s tile) (tileOf s tile) 0).1 = ofParts (partW (fM8 (wordAt s tile)))
      (satAll (partW (fM8 (wordAt s tile))) ((List.range (partN (fM8 (wordAt s tile)))).map f)).1)
    (hsat : (vecOf op (wordAt s tile) (tileOf s tile) 0).2 =
      ((satAll (partW (fM8 (wordAt s tile))) ((List.range (partN (fM8 (wordAt s tile)))).map f)).2 || also)) :
    Answers c s fun t => ArithOp s t tile op ∧ VecResult s t tile f also :=
  .of_issue hexec h ⟨arithOp_issued h ho hj hs he, vecResult_of (vecResult_issued h ho hd hput) hv hsat⟩

/-- An operation whose accumulator holds saturated parts. -/
theorem macGroup_answers {s : State} {op : TOp} {tile : Fin 1024} {c : Instr} {f : Nat → Int} (hexec : exec c s = .next (issue op tile clean s))
    (h : Issues s tile op) (ho : op.onRegisters = true) (hj : op.jumps = false) (hs : op.setsSpecial = false) (he : op.setsExponent = false)
    (hput : ∀ p r, computeRegs op (wordAt s tile) (tileOf s tile) p r = putAcc r (fD (wordAt s tile)) (accOf op (wordAt s tile) (tileOf s tile)))
    (hv : accOf op (wordAt s tile) (tileOf s tile) =
      (ofAccParts (accW (fM8 (wordAt s tile))) (satAll (accW (fM8 (wordAt s tile))) ((List.range (partN (fM8 (wordAt s tile)))).map f)).1,
        (satAll (accW (fM8 (wordAt s tile))) ((List.range (partN (fM8 (wordAt s tile)))).map f)).2)) :
    Answers c s fun t => ArithOp s t tile op ∧ AccResult s t tile f :=
  .of_issue hexec h ⟨arithOp_issued h ho hj hs he, accResult_of (accResult_issued ho hput) hv⟩

/-- Settles O19. Each operation issues once, and the accumulator or V register holds the saturated parts of its result. -/
theorem macGroupWritesItsAccumulator : Obligations.MacGroupWritesItsAccumulator := by
  unfold Obligations.MacGroupWritesItsAccumulator
  refine ⟨fun s tile h => ?_, fun s tile h => ?_, fun s tile h => ?_, fun s tile h => ?_, fun s tile h => ?_, fun s tile h => ?_,
    fun s tile h => ?_, fun s tile h => ?_⟩
  · exact macGroup_answers rfl h rfl rfl rfl rfl (fun _ _ => rfl) rfl
  · exact macGroup_answers rfl h rfl rfl rfl rfl (fun _ _ => rfl) rfl
  · exact macGroup_answers rfl h rfl rfl rfl rfl (fun _ _ => rfl) rfl
  · exact macGroup_answers rfl h rfl rfl rfl rfl (fun _ _ => rfl) rfl
  · exact macGroup_answers rfl h rfl rfl rfl rfl (fun _ _ => rfl) rfl
  · exact vecGroup_answers rfl h rfl rfl rfl rfl rfl (fun _ _ => rfl) rfl (Bool.or_false _).symm
  · obtain ⟨hval, hsat⟩ := accResult_issued (s := s) (t := tile) (op := .aclr) rfl (fun _ _ => rfl)
    exact .of_issue rfl h ⟨arithOp_issued h rfl rfl rfl rfl, hval, by rw [hsat]; exact Bool.or_false _⟩
  · exact macGroup_answers rfl h rfl rfl rfl rfl (fun _ _ => rfl) rfl

end Sys2Proof.Machine
end

section
set_option Elab.async false
/-! The VALU operations and the block exponent. -/

namespace Sys2Proof.Machine

/-! ## VPERM and VMOV -/

/-- The register that VPERM builds holds the elements that its selectors name (R164). -/
theorem vElem_vperm (w : Nat) (a b : BitVec 128) {k : Nat} (hk : k < 4) : vElem (valuResult .vperm w a b).1 k = vElem a (bits w (32 + 2 * k) 2) := by
  have hlt : ∀ j : Nat, (a.toNat >>> (32 * bits w (32 + 2 * j) 2)) % 2 ^ 32 < 2 ^ 32 := fun _ => Nat.mod_lt _ (by positivity)
  have hsize := foldr_lt (2 ^ 32) (fun j => (a.toNat >>> (32 * bits w (32 + 2 * j) 2)) % 2 ^ 32) hlt (List.range 4)
  have hdigit := digit_of_foldr (2 ^ 32) (fun j => (a.toNat >>> (32 * bits w (32 + 2 * j) 2)) % 2 ^ 32) hlt (List.range 4) k (by simpa using hk)
  rw [List.length_range, ← pow_mul] at hsize
  rw [List.getElem_range] at hdigit
  refine BitVec.eq_of_toNat_eq ?_
  rw [valuResult, vElem, vElem, BitVec.toNat_ofNat, BitVec.toNat_ofNat, BitVec.toNat_ofNat, Nat.mod_eq_of_lt hsize, Nat.shiftRight_eq_div_pow,
    pow_mul, hdigit]

/-! ## The block exponent (R133, R134) -/

theorem bexPreshift_setPreshift (r : TileRegs) (n : Nat) : bexPreshift (setPreshift r n) = n % 16 := by
  have hm := r.bexMode.isLt
  simp only [bexPreshift, setPreshift, bits, BitVec.toNat_ofNat, Nat.shiftRight_eq_div_pow]
  omega

theorem bexGuard_setPreshift (r : TileRegs) (n : Nat) : bexGuard (setPreshift r n) = bexGuard r := by
  have hm := r.bexMode.isLt
  simp only [bexPreshift, bexGuard, setPreshift, bits, BitVec.toNat_ofNat, Nat.shiftRight_eq_div_pow]
  omega

/-- The exponent fields of an issued tile are those that the compute operation leaves. -/
theorem exponent_issued {s : State} {op : TOp} {t : Nat} {g : TileRegs → TileRegs} (ho : op.onRegisters = true)
    (hg : ∀ p r, computeRegs op (wordAt s t) (tileOf s t) p r = g r) :
    ∃ r, r.bexMode = (tileOf s t).regs.bexMode ∧ r.expTotal = (tileOf s t).regs.expTotal ∧ r.headroom = slotHeadroom s (tileOf s t) (wordAt s t) ∧
      (tileOf (issuedState s op t) t).regs.bexMode = (g r).bexMode ∧ (tileOf (issuedState s op t) t).regs.expTotal = (g r).expTotal ∧
      (tileOf (issuedState s op t) t).regs.headroom = (g r).headroom := by
  obtain ⟨hr, -⟩ := issuedTile_data s op t (tileOf s t) (wordAt s t) (issueHc s (tileOf s t) op (wordAt s t))
  obtain ⟨h1, h2, h3⟩ := flowOf_exponent s op (tileOf s t) (wordAt s t) (issueHc s (tileOf s t) op (wordAt s t))
  refine ⟨_, h2, h1, h3, ?_⟩
  rw [tileOf_issued (outputOf_of_onRegisters ho s t _ _), hr, issuedRegs, hg]
  exact ⟨rfl, rfl, rfl⟩

/-- BEX.NEXT and BEX.CLR are register operations that move the generators only by their slots and fall through. -/
theorem exponentOp_issued {s : State} {op : TOp} {t : Nat} (h : Issues s t op) (ho : op.onRegisters = true) (hj : op.jumps = false)
    (hs : op.setsSpecial = false) : RegisterOp s (issuedState s op t) t op ∧ GensAct (wordAt s t) (tileOf s t) (tileOf (issuedState s op t) t) ∧
      FallsThrough (tileOf s t) (tileOf (issuedState s op t) t) := by
  rw [tileOf_issued (outputOf_of_onRegisters ho s t _ _)]
  exact ⟨registerOp_issued h ho hj, gensAct_issued hs, fallsThrough_issued hs hj⟩

/-- Settles O20. Each operation issues once; its register holds the saturated parts, the moved elements or the exponent of its rule. -/
theorem vectorUnitWritesItsRegister : Obligations.VectorUnitWritesItsRegister := by
  unfold Obligations.VectorUnitWritesItsRegister
  refine ⟨fun s tile h => ?_, fun s tile h => ?_, fun s tile h => ?_, fun s tile h => ?_, fun s tile h => ?_, fun s tile h => ?_,
    fun s tile h => ?_, fun s tile h => ?_, fun s tile h => ?_, fun s tile h => ?_⟩
  · exact vecGroup_answers rfl h rfl rfl rfl rfl rfl (fun _ _ => rfl) rfl rfl
  · exact vecGroup_answers rfl h rfl rfl rfl rfl rfl (fun _ _ => rfl) rfl rfl
  · exact vecGroup_answers rfl h rfl rfl rfl rfl rfl (fun _ _ => rfl) rfl rfl
  · exact vecGroup_answers rfl h rfl rfl rfl rfl rfl (fun _ _ => rfl) rfl rfl
  · exact vecGroup_answers rfl h rfl rfl rfl rfl rfl (fun _ _ => rfl) rfl rfl
  · exact vecGroup_answers rfl h rfl rfl rfl rfl rfl (fun _ _ => rfl) rfl rfl
  · obtain ⟨hval, hsat⟩ := vecResult_issued h rfl rfl (fun _ _ => rfl)
    exact .of_issue rfl h ⟨arithOp_issued h rfl rfl rfl rfl, hval, by rw [hsat]; exact Bool.or_false _⟩
  · obtain ⟨hval, hsat⟩ := vecResult_issued h rfl rfl (fun _ _ => rfl)
    refine .of_issue rfl h ⟨arithOp_issued h rfl rfl rfl rfl, fun k hk => ?_, by rw [hsat]; exact Bool.or_false _⟩
    rw [hval]
    exact vElem_vperm _ _ (vAt s tile (fB (wordAt s tile))) hk
  · obtain ⟨hop, hgens, hfalls⟩ := exponentOp_issued h rfl rfl rfl
    obtain ⟨r, hmode, htotal, hhead, hmode', htotal', hhead'⟩ := exponent_issued (s := s) (t := tile) (op := .bexNext) (g := bexNext) rfl (fun _ _ => rfl)
    refine .of_issue rfl h ⟨hop, hgens, hfalls, fun hx hy => ?_⟩
    rw [slotHeadroom_of_noStore hx hy] at hhead
    have hguard : bexGuard r = bexGuard (tileOf s tile).regs := by rw [bexGuard, bexGuard, hmode]
    refine ⟨?_, ?_, hhead'⟩
    · rw [bexPreshift, hmode', ← hguard, ← hhead]
      exact bexPreshift_setPreshift _ _
    · rw [htotal', ← hguard, ← hhead, ← htotal]
      rfl
  · obtain ⟨hop, hgens, hfalls⟩ := exponentOp_issued h rfl rfl rfl
    obtain ⟨r, hmode, -, -, hmode', htotal', hhead'⟩ := exponent_issued (s := s) (t := tile) (op := .bexClr) (g := bexClr) rfl (fun _ _ => rfl)
    refine .of_issue rfl h ⟨hop, hgens, hfalls, ?_, htotal', hhead', ?_⟩
    · rw [bexPreshift, hmode']
      exact bexPreshift_setPreshift r 0
    · rw [bexGuard, hmode', bexGuard, ← hmode]
      exact bexGuard_setPreshift r 0

end Sys2Proof.Machine
end

section
set_option Elab.async false
/-! Program flow, WAIT, TIMER and the special registers of a tile. -/

namespace Sys2Proof.Machine

section
variable {s : State} {op : TOp} {t : Nat}

/-- What every instruction without an output shows of slots, data and the rest of the device. -/
theorem silent_issued (h : Issues s t op) (hsilent : outputOf s t (tileOf s t) op (wordAt s t) = none) :
    OnlyTile t s (issuedState s op t) ∧ SlotsAct (wordAt s t) (tileOf s t) (tileOf (issuedState s op t) t) ∧
      DataKept op (wordAt s t) (tileOf s t) (tileOf (issuedState s op t) t) := by
  rw [tileOf_issued hsilent]
  exact ⟨onlyTile_issued hsilent, slotsAct_issued (noClash_of_issues h), dataKept_issued⟩

/-- Before flow and block operations act, the rest of the tile is as a pop has left it. -/
theorem steppedTile_rest (x : Tile) (w n : Nat) :
    scoreboard (steppedTile s op x w n) op w n =
      { poppedFrom op x w n with
        regs := (scoreboard (steppedTile s op x w n) op w n).regs, x := (scoreboard (steppedTile s op x w n) op w n).x
        y := (scoreboard (steppedTile s op x w n) op w n).y, pc := (scoreboard (steppedTile s op x w n) op w n).pc
        loops := (scoreboard (steppedTile s op x w n) op w n).loops, hc := (scoreboard (steppedTile s op x w n) op w n).hc
        lastHc := (scoreboard (steppedTile s op x w n) op w n).lastHc, xUses := (scoreboard (steppedTile s op x w n) op w n).xUses
        yUses := (scoreboard (steppedTile s op x w n) op w n).yUses, vReady := (scoreboard (steppedTile s op x w n) op w n).vReady
        accReady := (scoreboard (steppedTile s op x w n) op w n).accReady, checkAt := (scoreboard (steppedTile s op x w n) op w n).checkAt } := by
  rw [scoreboard_eq, steppedTile, slotTile_eq]
  rfl

end

/-! ## The conditions of BR -/

/-- Without a store the slots change no condition of BR (R159). -/
theorem brCond_of_slots {s : State} {x : Tile} {w : Nat} (hx : (xSlot w).kind ≠ 2) (hy : (ySlot w).kind ≠ 2) (n c : Nat) :
    brCond { slotTile s .br x w n with loops := x.loops } c = brCond x c := by
  rw [slotTile_eq, slotRegs_eq, slotHeadroom_of_noStore hx hy]
  rfl

/-- The flow of BR: to its target with a bubble, or on (R159). -/
theorem flowOf_br (s : State) (x : Tile) (w n : Nat) : flowOf s .br x w n =
    if brCond { slotTile s .br x w n with loops := x.loops } (fD w) != bit w 51 then
      (slotRegs s x w, bits w 32 11, x.loops.filter (fun f => decide (f.first ≤ bits w 32 11 ∧ bits w 32 11 ≤ f.last)), 1)
    else ((loopNext (slotRegs s x w) x.pc x.loops).1, (loopNext (slotRegs s x w) x.pc x.loops).2.1, (loopNext (slotRegs s x w) x.pc x.loops).2.2, 0) := by
  have hregs : (slotTile s .br x w n).regs = slotRegs s x w := by rw [slotTile_eq]; rfl
  have hpc : (slotTile s .br x w n).pc = x.pc := by rw [slotTile_eq]; rfl
  unfold flowOf
  rw [hregs, ← hpc]
  rfl

/-- The flow of LOOP (R160). -/
theorem flowOf_loop (s : State) (x : Tile) (w n : Nat) :
    let len := if bits w 32 6 = 0 then 64 else bits w 32 6
    let r := if bit w 54 then slotRegs s x w else setLoopCount (slotRegs s x w) (b2n (bit w 55)) (bits w 38 16)
    flowOf s .loop x w n = if loopCount r (b2n (bit w 55)) = 0 then (r, (x.pc + 1 + len) % 2048, x.loops, 1)
      else (r, (x.pc + 1) % 2048, { lc := b2n (bit w 55), first := x.pc + 1, last := x.pc + len } :: x.loops, 0) := by
  have hregs : (slotTile s .loop x w n).regs = slotRegs s x w := by rw [slotTile_eq]; rfl
  have hpc : (slotTile s .loop x w n).pc = x.pc := by rw [slotTile_eq]; rfl
  unfold flowOf
  rw [hregs, ← hpc]
  rfl

theorem loopCount_setLoopCount {r : TileRegs} {lc n : Nat} (hn : n < 65536) : loopCount (setLoopCount r lc n) lc = n := by
  unfold loopCount setLoopCount
  split <;> simp [Nat.mod_eq_of_lt hn]

theorem loopCount_setLoopCount_other {r : TileRegs} {lc n : Nat} (hlc : lc < 2) : loopCount (setLoopCount r lc n) (1 - lc) = loopCount r (1 - lc) := by
  obtain rfl | rfl : lc = 0 ∨ lc = 1 := by omega
  · rfl
  · rfl

theorem loopCount_lt (r : TileRegs) (lc : Nat) : loopCount r lc < 65536 := by
  unfold loopCount
  split
  · exact r.loop0.isLt
  · exact r.loop1.isLt

theorem loopCount_slotRegs (s : State) (x : Tile) (w lc : Nat) : loopCount (slotRegs s x w) lc = loopCount x.regs lc := by
  rw [slotRegs_eq]; rfl

/-- The registers of an instruction without a result, but for loads: those of its flow. -/
theorem loopCount_issued {s : State} {op : TOp} {t : Nat} {x : Tile} {w n : Nat} (hs : op.setsSpecial = false) (lc : Nat) :
    loopCount (issuedTile s op t x w n).regs lc = loopCount (flowOf s op x w n).1 lc := by
  obtain ⟨hr, -⟩ := issuedTile_data s op t x w n
  rw [hr, issuedRegs, ← computeRegs_gens hs]
  rfl

theorem bits_lt_two_pow (w lo n : Nat) : bits w lo n < 2 ^ n := Nat.mod_lt _ (by positivity)

/-! ## The clauses -/

/-- The last instruction of a body goes back to its first, with the counter decremented while it is above 1 (R160). -/
theorem nop_repeats_loop {s : State} {tile : Fin 1024} {f : LoopFrame} {rest : List LoopFrame} (h : Issues s tile .nop)
    (hloops : (tileOf s tile).loops = f :: rest) (hlast : f.last = (tileOf s tile).pc) (hlc : f.lc < 2)
    (hcount : 1 < loopCount (tileOf s tile).regs f.lc) :
    Answers (.thicketNop tile clean) s fun t => RegisterOp s t tile .nop ∧ (tileOf t tile).pc = f.first ∧ (tileOf t tile).loops = f :: rest ∧
      loopCount (tileOf t tile).regs f.lc = loopCount (tileOf s tile).regs f.lc - 1 ∧
      loopCount (tileOf t tile).regs (1 - f.lc) = loopCount (tileOf s tile).regs (1 - f.lc) := by
  have hflow : ∀ n, flowOf s .nop (tileOf s tile) (wordAt s tile) n =
      (setLoopCount (slotRegs s (tileOf s tile) (wordAt s tile)) f.lc (loopCount (tileOf s tile).regs f.lc - 1), f.first, f :: rest, 0) := by
    intro n
    rw [flowOf_of_straight rfl, hloops, loopNext, if_pos hlast, loopCount_slotRegs, if_pos hcount]
  obtain ⟨-, -, -, hpc, hl, -⟩ := issuedTile_data s .nop tile (tileOf s tile) (wordAt s tile) (issueHc s (tileOf s tile) .nop (wordAt s tile))
  refine .of_issue rfl h ⟨registerOp_issued h rfl rfl, ?_⟩
  rw [tileOf_issued rfl, hpc, hl, loopCount_issued rfl, loopCount_issued rfl, hflow]
  have hlt := loopCount_lt (tileOf s tile).regs f.lc
  exact ⟨rfl, rfl, loopCount_setLoopCount (by omega), by rw [loopCount_setLoopCount_other hlc, loopCount_slotRegs]⟩

/-- A special register as SETR or SETRV leaves the registers, where neither slots nor loops act (R166). -/
theorem setSpecial_regs {s : State} {op : TOp} {t v : Nat} (ho : op.onRegisters = true) (hj : op.jumps = false)
    (hput : ∀ p r, computeRegs op (wordAt s t) (tileOf s t) p r = writeSpecial r (fSel (wordAt s t)) v)
    (hx : (xSlot (wordAt s t)).kind = 0) (hy : (ySlot (wordAt s t)).kind = 0) (hinside : ∀ f ∈ (tileOf s t).loops, f.last ≠ (tileOf s t).pc) :
    (tileOf (issuedState s op t) t).regs = writeSpecial (tileOf s t).regs (fSel (wordAt s t)) v := by
  obtain ⟨hr, -⟩ := issuedTile_data s op t (tileOf s t) (wordAt s t) (issueHc s (tileOf s t) op (wordAt s t))
  have hloads : (slotsEffect (tileOf s t) (wordAt s t)).2 = [] := by simp [slotsEffect, hx, hy]
  rw [tileOf_issued (outputOf_of_onRegisters ho s t _ _), hr, issuedRegs, hput, flowOf_of_straight hj, loopNext_of_inside hinside, hloads,
    slotRegs_of_noSlots hx hy]
  rfl

/-- The clause of WAIT. -/
theorem wait_answers {s : State} {tile : Fin 1024} (h : Issues s tile .wait) : Answers (.wait tile clean) s fun t => OnlyTile tile s t ∧
    SlotsAct (wordAt s tile) (tileOf s tile) (tileOf t tile) ∧ DataKept .wait (wordAt s tile) (tileOf s tile) (tileOf t tile) ∧
    GensAct (wordAt s tile) (tileOf s tile) (tileOf t tile) ∧ (tileOf t tile).state = .idle ∧ (tileOf t tile).inHandler = false ∧
    (tileOf t tile).prog = (tileOf s tile).prog ∧ (tileOf t tile).staging = (tileOf s tile).staging ∧ (tileOf t tile).ckpt = (tileOf s tile).ckpt ∧
    (tileOf t tile).swapPending = (tileOf s tile).swapPending ∧ (tileOf t tile).events = (tileOf s tile).events ∧
    (tileOf t tile).timer = (tileOf s tile).timer := by
  obtain ⟨honly, hslots, hdata⟩ := silent_issued h rfl
  refine .of_issue rfl h ⟨honly, hslots, hdata, ?_⟩
  rw [tileOf_issued rfl]
  refine ⟨gensAct_issued rfl, ?_⟩
  rw [issuedTile, steppedTile_rest]
  exact ⟨rfl, rfl, rfl, rfl, rfl, rfl, rfl, rfl⟩

/-- The clause of TIMER. -/
theorem timer_answers {s : State} {tile : Fin 1024} (h : Issues s tile .timer) : Answers (.timer tile clean) s fun t => OnlyTile tile s t ∧
    SlotsAct (wordAt s tile) (tileOf s tile) (tileOf t tile) ∧ DataKept .timer (wordAt s tile) (tileOf s tile) (tileOf t tile) ∧
    GensAct (wordAt s tile) (tileOf s tile) (tileOf t tile) ∧ FallsThrough (tileOf s tile) (tileOf t tile) ∧
    (tileOf t tile).timer = (if bits (wordAt s tile) 32 16 = 0 then none
      else some (issueHc s (tileOf s tile) .timer (wordAt s tile) + bits (wordAt s tile) 32 16)) ∧
    (tileOf t tile).state = .run ∧ (tileOf t tile).events = (tileOf s tile).events ∧ (tileOf t tile).staging = (tileOf s tile).staging := by
  obtain ⟨honly, hslots, hdata⟩ := silent_issued h rfl
  have hrun := h.1
  refine .of_issue rfl h ⟨honly, hslots, hdata, ?_⟩
  rw [tileOf_issued rfl]
  refine ⟨gensAct_issued rfl, fallsThrough_issued rfl rfl, ?_⟩
  rw [issuedTile, steppedTile_rest]
  exact ⟨rfl, hrun, rfl, rfl⟩

/-- The clause of BR. -/
theorem br_answers {s : State} {tile : Fin 1024} (h : Issues s tile .br) : Answers (.br tile clean) s fun t =>
    GensAct (wordAt s tile) (tileOf s tile) (tileOf t tile) ∧
    ((xSlot (wordAt s tile)).kind ≠ 2 → (ySlot (wordAt s tile)).kind ≠ 2 →
      ((brCond (tileOf s tile) (fD (wordAt s tile)) ≠ bit (wordAt s tile) 51 →
        (tileOf t tile).pc = bits (wordAt s tile) 32 11 ∧ (tileOf t tile).hc = issueHc s (tileOf s tile) .br (wordAt s tile) + 2 ∧
        (tileOf t tile).loops =
          (tileOf s tile).loops.filter (fun f => decide (f.first ≤ bits (wordAt s tile) 32 11 ∧ bits (wordAt s tile) 32 11 ≤ f.last))) ∧
      (brCond (tileOf s tile) (fD (wordAt s tile)) = bit (wordAt s tile) 51 →
        RegisterOp s t tile .br ∧ FallsThrough (tileOf s tile) (tileOf t tile)))) ∧
    OnlyTile tile s t ∧ SlotsAct (wordAt s tile) (tileOf s tile) (tileOf t tile) ∧ DataKept .br (wordAt s tile) (tileOf s tile) (tileOf t tile) ∧
    ExpKept (tileOf s tile) (tileOf t tile) := by
  obtain ⟨honly, hslots, hdata⟩ := silent_issued h rfl
  obtain ⟨-, -, -, hpc, hloops, hhc⟩ := issuedTile_data s .br tile (tileOf s tile) (wordAt s tile) (issueHc s (tileOf s tile) .br (wordAt s tile))
  refine .of_issue rfl h ⟨?_, fun hx hy => ⟨fun htaken => ?_, fun hnot => ⟨registerOp_of_flow h rfl ?_, ?_⟩⟩, honly, hslots, hdata, ?_⟩
  · rw [tileOf_issued rfl]; exact gensAct_issued rfl
  · have hflow := flowOf_br s (tileOf s tile) (wordAt s tile) (issueHc s (tileOf s tile) .br (wordAt s tile))
    rw [brCond_of_slots hx hy, if_pos (bne_iff_ne.mpr htaken)] at hflow
    rw [tileOf_issued rfl, hpc, hloops, hhc, hflow]
    exact ⟨rfl, rfl, rfl⟩
  · rw [flowOf_br, brCond_of_slots hx hy, if_neg (by simp [hnot])]
  · rw [tileOf_issued rfl]
    refine fallsThrough_of_flow rfl fun hinside => ?_
    rw [flowOf_br, brCond_of_slots hx hy, if_neg (by simp [hnot]), loopNext_of_inside hinside]
  · rw [tileOf_issued rfl]; exact expKept_issued rfl rfl

/-- The clause of LOOP. -/
theorem loop_answers {s : State} {tile : Fin 1024} (h : Issues s tile .loop) : Answers (.loop tile clean) s fun t => OnlyTile tile s t ∧
    SlotsAct (wordAt s tile) (tileOf s tile) (tileOf t tile) ∧ DataKept .loop (wordAt s tile) (tileOf s tile) (tileOf t tile) ∧
    GensAct (wordAt s tile) (tileOf s tile) (tileOf t tile) ∧
    (bit (wordAt s tile) 54 = false → bits (wordAt s tile) 38 16 ≠ 0 →
      loopCount (tileOf t tile).regs (b2n (bit (wordAt s tile) 55)) = bits (wordAt s tile) 38 16 ∧
      (tileOf t tile).pc = ((tileOf s tile).pc + 1) % 2048 ∧ (tileOf t tile).hc = issueHc s (tileOf s tile) .loop (wordAt s tile) + 1 ∧
      (tileOf t tile).loops = { lc := b2n (bit (wordAt s tile) 55), first := (tileOf s tile).pc + 1, last := (tileOf s tile).pc + (if bits (wordAt s tile) 32 6 = 0 then 64 else bits (wordAt s tile) 32 6) } ::
        (tileOf s tile).loops) ∧
    (bit (wordAt s tile) 54 = false → bits (wordAt s tile) 38 16 = 0 →
      (tileOf t tile).pc = ((tileOf s tile).pc + 1 + (if bits (wordAt s tile) 32 6 = 0 then 64 else bits (wordAt s tile) 32 6)) % 2048 ∧
      (tileOf t tile).loops = (tileOf s tile).loops ∧ (tileOf t tile).hc = issueHc s (tileOf s tile) .loop (wordAt s tile) + 2) ∧
    (bit (wordAt s tile) 54 = true → (tileOf t tile).regs.loop0 = (tileOf s tile).regs.loop0 ∧
      (tileOf t tile).regs.loop1 = (tileOf s tile).regs.loop1) := by
  obtain ⟨honly, hslots, hdata⟩ := silent_issued h rfl
  obtain ⟨-, -, -, hpc, hloops, hhc⟩ := issuedTile_data s .loop tile (tileOf s tile) (wordAt s tile) (issueHc s (tileOf s tile) .loop (wordAt s tile))
  have hflow := flowOf_loop s (tileOf s tile) (wordAt s tile) (issueHc s (tileOf s tile) .loop (wordAt s tile))
  have hcount : ∀ r, loopCount (setLoopCount r (b2n (bit (wordAt s tile) 55)) (bits (wordAt s tile) 38 16)) (b2n (bit (wordAt s tile) 55)) =
      bits (wordAt s tile) 38 16 := fun r => loopCount_setLoopCount (bits_lt_two_pow _ _ 16)
  dsimp only at hflow
  refine .of_issue rfl h ⟨honly, hslots, hdata, ?_⟩
  rw [tileOf_issued rfl, hpc, hloops, hhc, loopCount_issued rfl]
  refine ⟨gensAct_issued rfl, fun hset hne => ?_, fun hset hzero => ?_, fun hkeep => ?_⟩
  · rw [hset, if_neg Bool.false_ne_true, hcount, if_neg hne] at hflow
    rw [hflow]
    exact ⟨hcount _, rfl, rfl, rfl⟩
  · rw [hset, if_neg Bool.false_ne_true, hcount, if_pos hzero] at hflow
    rw [hflow]
    exact ⟨rfl, rfl, rfl⟩
  · rw [hkeep, if_pos rfl] at hflow
    have hregs : (flowOf s .loop (tileOf s tile) (wordAt s tile) (issueHc s (tileOf s tile) .loop (wordAt s tile))).1 =
        slotRegs s (tileOf s tile) (wordAt s tile) := by rw [hflow]; split <;> rfl
    have hcounts := fun lc => (loopCount_issued (s := s) (op := .loop) (t := tile) (x := tileOf s tile) (w := wordAt s tile)
      (n := issueHc s (tileOf s tile) .loop (wordAt s tile)) rfl lc).trans ((congrArg (loopCount · lc) hregs).trans (loopCount_slotRegs _ _ _ _))
    exact ⟨BitVec.eq_of_toNat_eq (hcounts 0), BitVec.eq_of_toNat_eq (hcounts 1)⟩

/-- Settles O21. Flow and loops by the cases of `controlNext`, the special registers by `writeSpecial` and `readSpecial`. -/
theorem tileFlowAndSpecialRegisters : Obligations.TileFlowAndSpecialRegisters := by
  unfold Obligations.TileFlowAndSpecialRegisters
  refine ⟨fun s tile h => ?_, fun s tile f rest h hloops hlast hlc hcount => nop_repeats_loop h hloops hlast hlc hcount, fun s tile h => wait_answers h,
    fun s tile h => br_answers h, fun s tile h => loop_answers h, fun s tile h => timer_answers h, fun s tile h => ?_, fun s tile h => ?_,
    fun s tile h => ?_⟩
  · obtain ⟨hr, -⟩ := issuedTile_data s .nop tile (tileOf s tile) (wordAt s tile) (issueHc s (tileOf s tile) .nop (wordAt s tile))
    obtain ⟨-, -, hsat⟩ := flowOf_data s .nop (tileOf s tile) (wordAt s tile) (issueHc s (tileOf s tile) .nop (wordAt s tile))
    refine .of_issue rfl h ⟨arithOp_issued h rfl rfl rfl rfl, ?_⟩
    rw [tileOf_issued rfl, hr]
    exact hsat
  · exact .of_issue rfl h ⟨registerOp_issued h rfl rfl, setSpecial_regs rfl rfl fun _ _ => rfl⟩
  · exact .of_issue rfl h ⟨registerOp_issued h rfl rfl, setSpecial_regs rfl rfl fun _ _ => rfl⟩
  · obtain ⟨hval, -⟩ := vecResult_issued h rfl rfl (fun _ _ => rfl)
    exact .of_issue rfl h ⟨arithOp_issued h rfl rfl rfl rfl, hval⟩

end Sys2Proof.Machine
end

section
set_option Elab.async false
/-! Blocks, stream and link ports, and the memory-die and network operations of a tile. -/

namespace Sys2Proof.Machine

section
variable {s : State} {op : TOp} {t : Nat}

/-- What the slots and the program flow do in an instruction that neither jumps nor writes special or exponent registers. -/
theorem acts_issued (h : Issues s t op) (hj : op.jumps = false) (hs : op.setsSpecial = false) (he : op.setsExponent = false) (n : Nat) :
    SlotsAct (wordAt s t) (tileOf s t) (issuedTile s op t (tileOf s t) (wordAt s t) n) ∧
      GensAct (wordAt s t) (tileOf s t) (issuedTile s op t (tileOf s t) (wordAt s t) n) ∧
      ExpKept (tileOf s t) (issuedTile s op t (tileOf s t) (wordAt s t) n) ∧
      FallsThrough (tileOf s t) (issuedTile s op t (tileOf s t) (wordAt s t) n) :=
  ⟨slotsAct_issued (noClash_of_issues h), gensAct_issued hs, expKept_issued hs he, fallsThrough_issued hs hj⟩

/-- The same of an instruction without an output, with its frame. -/
theorem silent_acts (h : Issues s t op) (hsilent : outputOf s t (tileOf s t) op (wordAt s t) = none) (hj : op.jumps = false)
    (hs : op.setsSpecial = false) (he : op.setsExponent = false) : OnlyTile t s (issuedState s op t) ∧
      SlotsAct (wordAt s t) (tileOf s t) (tileOf (issuedState s op t) t) ∧ GensAct (wordAt s t) (tileOf s t) (tileOf (issuedState s op t) t) ∧
      ExpKept (tileOf s t) (tileOf (issuedState s op t) t) ∧ FallsThrough (tileOf s t) (tileOf (issuedState s op t) t) ∧
      DataKept op (wordAt s t) (tileOf s t) (tileOf (issuedState s op t) t) := by
  rw [tileOf_issued hsilent]
  obtain ⟨h1, h2, h3, h4⟩ := acts_issued h hj hs he (issueHc s (tileOf s t) op (wordAt s t))
  exact ⟨onlyTile_issued hsilent, h1, h2, h3, h4, dataKept_issued⟩

/-! ## Pops -/

theorem poppedTile_fst {k : Nat} (hk : popFifo op (wordAt s t) = some k) (n : Nat) :
    (poppedTile op (tileOf s t) (wordAt s t) n).1 = ((tileOf s t).fifo k).q.getD ((tileOf s t).fifo k).popped 0 := by
  rw [poppedTile, hk]
  dsimp only
  rw [slotsEffect_eq, doPop_withData, doPop]
  dsimp only
  split <;> rfl

theorem fifo_setFifo_same (x : Tile) (k : Nat) (f : TileFifo) : (x.setFifo k f).fifo k = f := by
  unfold Tile.fifo Tile.setFifo
  split_ifs <;> rfl

theorem fifo_setFifo_ne (x : Tile) {k j : Nat} (hk : k < 4) (hj : j < 4) (hne : j ≠ k) (f : TileFifo) : (x.setFifo k f).fifo j = x.fifo j := by
  unfold Tile.fifo Tile.setFifo
  split_ifs <;> first | rfl | omega

/-- The FIFO from which a pop has taken its entry: tentatively inside a block (R144). -/
theorem fifo_doPop_inside {x : Tile} (h : x.inBlock = true) (k n : Nat) :
    (doPop x k n).2.fifo k = { x.fifo k with popped := (x.fifo k).popped + 1 } := by
  simp only [doPop, h, if_true, fifo_setFifo_same]

theorem fifo_doPop_outside {x : Tile} (h : x.inBlock = false) (k n : Nat) : ((doPop x k n).2.fifo k).q = (x.fifo k).q.drop 1 := by
  simp only [doPop, h, Bool.false_eq_true, if_false, fifo_setFifo_same]

theorem fifo_doPop_ne (x : Tile) {k j : Nat} (hk : k < 4) (hj : j < 4) (hne : j ≠ k) (n : Nat) : (doPop x k n).2.fifo j = x.fifo j := by
  unfold doPop
  dsimp only
  split <;> exact fifo_setFifo_ne x hk hj hne _

theorem doPop_buffers (x : Tile) (k n : Nat) : (doPop x k n).2.staging = x.staging ∧ (doPop x k n).2.ckpt = x.ckpt := by
  unfold doPop Tile.setFifo
  dsimp only
  split_ifs <;> exact ⟨rfl, rfl⟩

/-- A pop leaves of its tile's FIFOs and buffers what `doPop` leaves, and delivers its entry. -/
theorem pop_issued {k : Nat} (h : Issues s t op) (hk : popFifo op (wordAt s t) = some k) (hd : destV op (wordAt s t) = some (fD (wordAt s t)))
    (hsilent : outputOf s t (tileOf s t) op (wordAt s t) = none) (hflow : ∀ x, flowEffect op (wordAt s t) (issueHc s (tileOf s t) op (wordAt s t)) (tileOf s t) x t = x)
    (hput : ∀ p r, computeRegs op (wordAt s t) (tileOf s t) p r = putVec r (fD (wordAt s t)) (p, false))
    (hvec : ∀ p, vecOf op (wordAt s t) (tileOf s t) p = (p, false)) :
    vAt (issuedState s op t) t (fD (wordAt s t)) = ((tileOf s t).fifo k).q.getD ((tileOf s t).fifo k).popped 0 ∧
      (∀ j, (tileOf (issuedState s op t) t).fifo j = (doPop (tileOf s t) k (issueHc s (tileOf s t) op (wordAt s t))).2.fifo j) ∧
      (tileOf (issuedState s op t) t).staging = (tileOf s t).staging ∧ (tileOf (issuedState s op t) t).ckpt = (tileOf s t).ckpt := by
  obtain ⟨p, hp, hval, -⟩ := vec_issued h hsilent hd (fun p r => by rw [hput, hvec])
  obtain ⟨hstaging, hckpt⟩ := doPop_buffers (tileOf s t) k (issueHc s (tileOf s t) op (wordAt s t))
  have hfrom : poppedFrom op (tileOf s t) (wordAt s t) (issueHc s (tileOf s t) op (wordAt s t)) =
      (doPop (tileOf s t) k (issueHc s (tileOf s t) op (wordAt s t))).2 := by rw [poppedFrom, hk]
  refine ⟨by rw [hval, hvec, hp, poppedTile_fst hk], ?_⟩
  rw [tileOf_issued hsilent, issuedTile, hflow, steppedTile_rest, hfrom]
  exact ⟨fun j => rfl, hstaging, hckpt⟩

/-! ## Outputs -/

/-- An output of an instruction inside a block goes into the staging buffer (R144, R165). -/
theorem staged_issued {o : StagedOut} (h : Issues s t op) (hout : outputOf s t (tileOf s t) op (wordAt s t) = some o) (hin : (tileOf s t).inBlock = true)
    (hj : op.jumps = false) (hs : op.setsSpecial = false) (he : op.setsExponent = false) (hpop : popFifo op (wordAt s t) = none)
    (hflow : ∀ x, flowEffect op (wordAt s t) (issueHc s (tileOf s t) op (wordAt s t)) (tileOf s t) x t = x) :
    OnlyTile t s (issuedState s op t) ∧ SlotsAct (wordAt s t) (tileOf s t) (tileOf (issuedState s op t) t) ∧
      GensAct (wordAt s t) (tileOf s t) (tileOf (issuedState s op t) t) ∧ ExpKept (tileOf s t) (tileOf (issuedState s op t) t) ∧
      FallsThrough (tileOf s t) (tileOf (issuedState s op t) t) ∧ Staged s (issuedState s op t) t o.kind o.data := by
  have hstate : issuedState s op t = setTile (afterDraw s (tileOf s t) (wordAt s t)) t
      (stagedTile (issuedTile s op t (tileOf s t) (wordAt s t) (issueHc s (tileOf s t) op (wordAt s t))) o) := by
    simp only [issuedState, hout, hin, if_true]
  have hfrom : poppedFrom op (tileOf s t) (wordAt s t) (issueHc s (tileOf s t) op (wordAt s t)) = tileOf s t := by rw [poppedFrom, hpop]
  obtain ⟨h1, h2, h3, h4⟩ := acts_issued h hj hs he (issueHc s (tileOf s t) op (wordAt s t))
  unfold Staged
  rw [hstate, tileOf_setTile_same]
  refine ⟨onlyTile_setTile _ _ _ _ _, h1, h2, h3, h4, ?_⟩
  rw [issuedTile, hflow, steppedTile_rest, hfrom]
  exact ⟨rfl, rfl⟩

/-- The state before the output of an instruction outside a block is released. -/
def beforeRelease (s : State) (op : TOp) (t : Nat) : State :=
  setTile (afterDraw s (tileOf s t) (wordAt s t)) t (issuedTile s op t (tileOf s t) (wordAt s t) (issueHc s (tileOf s t) op (wordAt s t)))

theorem issuedState_of_release {o : StagedOut} (hout : outputOf s t (tileOf s t) op (wordAt s t) = some o) (hin : (tileOf s t).inBlock = false) :
    issuedState s op t = releaseOut (beforeRelease s op t) t (issueHc s (tileOf s t) op (wordAt s t)) o := by
  simp only [issuedState, hout, hin, Bool.false_eq_true, if_false, beforeRelease]

theorem beforeRelease_eq (s : State) (op : TOp) (t : Nat) : beforeRelease s op t =
    { s with tiles := (beforeRelease s op t).tiles, free := (beforeRelease s op t).free } := by
  rw [beforeRelease, afterDraw_eq]; rfl

theorem tileOf_beforeRelease_same (s : State) (op : TOp) (t : Nat) : tileOf (beforeRelease s op t) t =
    issuedTile s op t (tileOf s t) (wordAt s t) (issueHc s (tileOf s t) op (wordAt s t)) := tileOf_setTile_same _ _ _

theorem tileOf_beforeRelease_ne (s : State) (op : TOp) {t n : Nat} (hn : n ≠ t) : tileOf (beforeRelease s op t) n = tileOf s n := by
  rw [beforeRelease, tileOf_setTile_ne _ _ _ _ (Ne.symm hn), tileOf_afterDraw]

/-- An output of an instruction outside a block that is delivered to no tile: what the tiles show. -/
theorem released_issued {u : State} (h : Issues s t op) (htiles : u.tiles = (beforeRelease s op t).tiles)
    (hj : op.jumps = false) (hs : op.setsSpecial = false) (he : op.setsExponent = false) :
    (∀ n, n < 1024 → n ≠ t → tileOf u n = tileOf s n) ∧ SlotsAct (wordAt s t) (tileOf s t) (tileOf u t) ∧
      GensAct (wordAt s t) (tileOf s t) (tileOf u t) ∧ ExpKept (tileOf s t) (tileOf u t) ∧ FallsThrough (tileOf s t) (tileOf u t) := by
  have hof : ∀ n, tileOf u n = tileOf (beforeRelease s op t) n := fun n => by rw [tileOf, tileOf, htiles]
  refine ⟨fun n _ hn => by rw [hof, tileOf_beforeRelease_ne s op hn], ?_⟩
  rw [hof, tileOf_beforeRelease_same]
  exact acts_issued h hj hs he _

end

/-! What is released, in a state that differs from `s` in tiles and free values only. -/

section
variable (s : State) (l : Sparse Tile) (f t n : Nat) (d : BitVec 128)

theorem releaseOut_streamOut (p : Nat) : releaseOut { s with tiles := l, free := f } t n { kind := .streamOut p, data := d } =
    { s with
      tiles := l, free := f, outbox := s.outbox ++ [.tileStream t p (streamTakes s t p n) d]
      ctxs := { s.ctxs with ports := { s.ctxs.ports with
        outs := sparseSet [] s.ctxs.ports.outs (t * 4 + 2 + p) (streamHeld s (t * 4 + 2 + p) (n * hcTicks s) ++ [streamTakes s t p n]) } } } := rfl

theorem releaseOut_memWrite (a : Nat) : releaseOut { s with tiles := l, free := f } t n { kind := .memWrite a, data := d } =
    { s with tiles := l, free := f, mem := { s.mem with pathWrites := s.mem.pathWrites ++ [{ tile := t, addr := a, data := d, hc := n }] } } := rfl

/-- The NoC write of 16 bytes that an NWR makes (R165). -/
def nwrRequest (t pa : Nat) (d : BitVec 128) : NocReq :=
  { init := 0x80 + t / 64, tag := 0, owner := .tile t, qos := 0, write := true, pa := pa - pa % 64, kidValid := false, kid := 0, len := 1
    be := BitVec.ofNat 64 (0xFFFF <<< (16 * bits pa 4 2)), data := [BitVec.ofNat 512 (d.toNat <<< (128 * bits pa 4 2))] }

theorem releaseOut_nocWrite (pa : Nat) : releaseOut { s with tiles := l, free := f } t n { kind := .nocWrite pa, data := d } =
    { s with tiles := l, free := f, noc := { s.noc with waiting := s.noc.waiting ++ [nwrRequest t pa d] } } := rfl

end

theorem xSlot_kind (w : Nat) : (xSlot w).kind = w / 2 ^ 30 % 4 := by
  simp only [xSlot, slotOf, bits, Nat.shiftRight_eq_div_pow]
  omega

theorem ySlot_kind (w : Nat) : (ySlot w).kind = w / 2 ^ 14 % 4 := by
  simp only [ySlot, slotOf, bits, Nat.shiftRight_eq_div_pow]
  omega

/-- The 16-byte part of its line that an address names lies in its low word. -/
theorem bits_of_wide (hi : Nat) (lo : BitVec 32) : bits (hi * 2 ^ 32 + lo.toNat) 4 2 = lo.toNat / 16 % 4 := by
  have hlt := lo.isLt
  simp only [bits, Nat.shiftRight_eq_div_pow]
  omega

theorem sub_mod_eq_div_mul (n : Nat) : n - n % 64 = n / 64 * 64 := by omega

/-- LPUSH at the edge of the array raises an exception, so that an LPUSH that issues has a neighbour (R174). -/
theorem neighbour_ne_of_issues {s : State} {tile : Fin 1024} (h : Issues s tile .lpush) : neighbour tile (fBc (wordAt s tile)) ≠ tile := by
  obtain ⟨-, -, -, -, -, hexc, -⟩ := h
  intro he
  cases hb : fBc (wordAt s tile) with
  | true => simp [neighbour, hb] at he
  | false =>
    have hzero : (tile : Nat) = 0 := by simp [neighbour, hb] at he; omega
    rw [hzero] at hb
    simp [staticExc, hb, hzero] at hexc
    split_ifs at hexc

/-- Settles O22. Blocks and reads by the tile that the instruction leaves, pops by `doPop`, outputs by the staging buffer or `releaseOut`. -/
theorem blocksAndPorts : Obligations.BlocksAndPorts := by
  unfold Obligations.BlocksAndPorts
  refine ⟨fun s tile h => ?_, fun s tile h => ?_, fun s tile h hin => ?_, fun s tile h hin => ?_, fun s tile h hin => ?_, fun s tile h hin => ?_,
    fun s tile h hin => ?_, fun s tile h hin => ?_, fun s tile h hin => ?_, fun s tile h hin => ?_, fun s tile h => ?_, fun s tile h hin => ?_,
    fun s tile h hin => ?_, fun s tile h hin => ?_, fun s tile h hin => ?_⟩
  · obtain ⟨h1, h2, h3, h4, h5, h6⟩ := silent_acts h rfl rfl rfl rfl
    have hrun := h.1
    refine .of_issue rfl h ⟨h1, h2, h3, h4, h5, h6, ?_⟩
    rw [tileOf_issued rfl, issuedTile, steppedTile_rest]
    exact ⟨rfl, rfl, rfl, rfl, rfl, rfl, rfl, rfl, hrun⟩
  · obtain ⟨h1, h2, h3, h4, h5, h6⟩ := silent_acts h rfl rfl rfl rfl
    refine .of_issue rfl h ⟨h1, h2, h3, h4, h5, h6, ?_⟩
    rw [tileOf_issued rfl, issuedTile, steppedTile_rest]
    exact ⟨rfl, rfl, rfl, rfl, rfl, rfl, rfl, rfl⟩
  · obtain ⟨h1, h2, h3, h4, h5, h6⟩ := silent_acts h rfl rfl rfl rfl
    obtain ⟨hval, hfifo, hstaging, -⟩ := pop_issued h (k := b2n (fBc (wordAt s tile))) rfl rfl rfl (fun _ => rfl) (fun _ _ => rfl) (fun _ => rfl)
    have hk : b2n (fBc (wordAt s tile)) < 2 := by cases fBc (wordAt s tile) <;> decide
    refine .of_issue rfl h ⟨h1, h2, h3, h4, h5, h6, hval, ?_, ?_, ?_, ?_, hstaging⟩
    · rw [hfifo, fifo_doPop_outside hin]
    · rw [hfifo, fifo_doPop_ne _ (by omega) (by omega) (by omega)]
    · exact (hfifo 2).trans (fifo_doPop_ne _ (by omega) (by omega) (by omega) _)
    · exact (hfifo 3).trans (fifo_doPop_ne _ (by omega) (by omega) (by omega) _)
  · obtain ⟨h1, h2, h3, h4, h5, -⟩ := silent_acts h rfl rfl rfl rfl
    obtain ⟨hval, hfifo, -, hckpt⟩ := pop_issued h (k := b2n (fBc (wordAt s tile))) rfl rfl rfl (fun _ => rfl) (fun _ _ => rfl) (fun _ => rfl)
    exact .of_issue rfl h ⟨h1, h2, h3, h4, h5, hval, by rw [hfifo, fifo_doPop_inside hin], hckpt⟩
  · obtain ⟨h1, h2, h3, h4, h5, h6⟩ := silent_acts h rfl rfl rfl rfl
    obtain ⟨hval, hfifo, -, -⟩ := pop_issued h (k := 2 + b2n (fBc (wordAt s tile))) rfl rfl rfl (fun _ => rfl) (fun _ _ => rfl) (fun _ => rfl)
    have hk : b2n (fBc (wordAt s tile)) < 2 := by cases fBc (wordAt s tile) <;> decide
    refine .of_issue rfl h ⟨h1, h2, h3, h4, h5, h6, hval, ?_, ?_, ?_, ?_⟩
    · rw [hfifo, fifo_doPop_outside hin]
    · exact (hfifo 0).trans (fifo_doPop_ne _ (by omega) (by omega) (by omega) _)
    · exact (hfifo 1).trans (fifo_doPop_ne _ (by omega) (by omega) (by omega) _)
    · rw [hfifo, fifo_doPop_ne _ (by omega) (by omega) (by omega)]
  · obtain ⟨h1, h2, h3, h4, h5, -⟩ := silent_acts h rfl rfl rfl rfl
    obtain ⟨hval, hfifo, -, -⟩ := pop_issued h (k := 2 + b2n (fBc (wordAt s tile))) rfl rfl rfl (fun _ => rfl) (fun _ _ => rfl) (fun _ => rfl)
    exact .of_issue rfl h ⟨h1, h2, h3, h4, h5, hval, by rw [hfifo, fifo_doPop_inside hin]⟩
  · have hstate := issuedState_of_release (s := s) (op := .spush) (t := tile) rfl hin
    rw [beforeRelease_eq, releaseOut_streamOut] at hstate
    obtain ⟨h1, h2, h3, h4, h5⟩ := released_issued (u := issuedState s .spush tile) h (by rw [hstate]) rfl rfl rfl
    refine .of_issue rfl h ⟨by rw [hstate], h1, h2, h3, h4, h5, by rw [hstate]; rfl, fun k _ => ?_, ?_⟩
    · rw [hstate]
      show sparseGet [] (sparseSet [] _ _ _) k = _
      split_ifs with hk
      · rw [hk, show 4 * (tile : Nat) + 2 + b2n (fBc (wordAt s tile)) = tile * 4 + 2 + b2n (fBc (wordAt s tile)) by omega]
        exact sparseGet_set_same _ _ _ _
      · exact sparseGet_set_ne _ _ _ _ _ _ (by omega)
    · rw [hstate]
      show (tileOf (beforeRelease s .spush tile) tile).staging = _
      rw [tileOf_beforeRelease_same, issuedTile, steppedTile_rest]
      rfl
  · exact .of_issue rfl h (staged_issued h rfl hin rfl rfl rfl rfl fun _ => rfl)
  · have hne := neighbour_ne_of_issues h
    have hstate := issuedState_of_release (s := s) (op := .lpush) (t := tile) rfl hin
    obtain ⟨h2, h3, h4, h5⟩ := acts_issued h rfl rfl rfl (issueHc s (tileOf s tile) .lpush (wordAt s tile))
    have hown : tileOf (issuedState s .lpush tile) tile =
        issuedTile s .lpush tile (tileOf s tile) (wordAt s tile) (issueHc s (tileOf s tile) .lpush (wordAt s tile)) := by
      rw [hstate, ← tileOf_beforeRelease_same]
      exact tileOf_setTile_ne _ _ _ _ hne
    refine .of_issue rfl h ⟨?_, fun k _ hk hk' => ?_, by rw [hown]; exact h2, by rw [hown]; exact h3, by rw [hown]; exact h4, by rw [hown]; exact h5, ?_⟩
    · rw [hstate, beforeRelease_eq]
      rfl
    · rw [hstate, ← tileOf_beforeRelease_ne s .lpush hk]
      exact tileOf_setTile_ne _ _ _ _ (Ne.symm hk')
    · rw [hstate, ← tileOf_beforeRelease_ne s .lpush hne]
      exact tileOf_setTile_same _ _ _
  · exact .of_issue rfl h (staged_issued h rfl hin rfl rfl rfl rfl fun _ => rfl)
  · obtain ⟨h1, h2, h3, h4, h5, -⟩ := silent_acts h rfl rfl rfl rfl
    refine .of_issue rfl h ⟨h1, h2, h3, h4, h5, ?_, ?_, fun k _ hk => ?_⟩
    · rw [tileOf_issued rfl, issuedTile, steppedTile_rest]
      rfl
    · rw [tileOf_issued rfl, issuedTile, steppedTile_rest]
      rfl
    · obtain ⟨hx, hy⟩ := hk
      rw [← xSlot_kind] at hx
      rw [← ySlot_kind] at hy
      obtain ⟨hr, -⟩ := issuedTile_data s .mdrd tile (tileOf s tile) (wordAt s tile) (issueHc s (tileOf s tile) .mdrd (wordAt s tile))
      obtain ⟨hv, -⟩ := flowOf_data s .mdrd (tileOf s tile) (wordAt s tile) (issueHc s (tileOf s tile) .mdrd (wordAt s tile))
      rw [vAt, tileOf_issued rfl, hr, issuedRegs_v_of_noLoad (fun e => absurd e hx) (fun e => absurd e hy), vAt, ← hv]
      rfl
  · have hstate := issuedState_of_release (s := s) (op := .mdwr) (t := tile) rfl hin
    rw [beforeRelease_eq, releaseOut_memWrite] at hstate
    obtain ⟨h1, h2, h3, h4, h5⟩ := released_issued (u := issuedState s .mdwr tile) h (by rw [hstate]) rfl rfl rfl
    exact .of_issue rfl h ⟨by rw [hstate], h1, h2, h3, h4, h5, by rw [hstate]; rfl⟩
  · exact .of_issue rfl h (staged_issued h rfl hin rfl rfl rfl rfl fun _ => rfl)
  · have hstate := issuedState_of_release (s := s) (op := .nwr) (t := tile) rfl hin
    rw [beforeRelease_eq, releaseOut_nocWrite] at hstate
    obtain ⟨h1, h2, h3, h4, h5⟩ := released_issued (u := issuedState s .nwr tile) h (by rw [hstate]) rfl rfl rfl
    refine .of_issue rfl h ⟨by rw [hstate], h1, h2, h3, h4, h5, by rw [hstate], ?_, ?_, fun r hr => ?_⟩
    · rw [hstate]; exact List.dropLast_concat
    · rw [hstate]; exact List.length_append
    · rw [hstate] at hr
      have hlast : r = nwrRequest tile ((vElem (vAt s tile (fA (wordAt s tile))) 1).toNat % 2 ^ 24 * 2 ^ 32 +
          (vElem (vAt s tile (fA (wordAt s tile))) 0).toNat) (vAt s tile (fB (wordAt s tile))) := by
        simpa [vAt] using hr.symm
      subst hlast
      refine ⟨rfl, rfl, rfl, rfl, sub_mod_eq_div_mul _, ?_⟩
      rw [nwrRequest, bits_of_wide]
  · exact .of_issue rfl h (staged_issued h rfl hin rfl rfl rfl rfl fun _ => rfl)

end Sys2Proof.Machine
end

section
set_option Elab.async false
/-! Throttle steps and the Wicket's watchdog. -/

namespace Sys2Proof.Machine

variable {s t u : State}

/-! ## Frames -/

/-- Nothing but time, the Wicket's state, registers, pending messages and the outbox has changed. -/
theorem wicket_frame (h : OnlyParts [.now, .regs, .link, .tim, .wkt, .outbox] s t) (hl : KeepsLink s t) : t =
    { s with now := t.now, tim := t.tim, wkt := t.wkt, regs := t.regs, link := { s.link with pendingMsix := t.link.pendingMsix }, outbox := t.outbox } :=
  Eq.trans h (congrArg (fun l => { s with now := t.now, tim := t.tim, wkt := t.wkt, regs := t.regs, link := l, outbox := t.outbox }) hl.link)

/-- The record of a changed step reaches the Wicket's state only (R529). -/
theorem stepChange_eq (before s : State) : stepChange before s =
    { s with wkt := { s.wkt with stepWas := (stepChange before s).wkt.stepWas, stepFrom := (stepChange before s).wkt.stepFrom } } := by
  unfold stepChange
  split <;> rfl

theorem stepChange_rd (before s : State) (r : Row) (i j : Nat) : (stepChange before s).rd r i j = s.rd r i j := by
  rw [stepChange_eq]; rfl

theorem stepChange_keepsLink (before s : State) : KeepsLink s (stepChange before s) := .of_eq (by rw [stepChange_eq])

/-! ## A change of the throttle state (R487) -/

theorem thTo_keepsLink (s : State) (n : Nat) : KeepsLink s (thTo s n) := by
  unfold thTo
  refine .trans ?_ (raiseEvent_keepsLink ..)
  exact .of_eq rfl

theorem rd_raiseEvent_throttle (s : State) : (raiseEvent s evThrottle).rd HCI_EVT_CAUSE.throttle_request = 1 := by
  unfold raiseEvent
  dsimp only
  split
  · rw [(changes_signalVector ..).rd]; exact rd_wr_same _ _ _ _ _
  · exact rd_wr_same _ _ _ _ _

theorem thTo_event (s : State) (n : Nat) : (thTo s n).rd HCI_EVT_CAUSE.throttle_request = 1 := rd_raiseEvent_throttle _

theorem thTo_state (s : State) {n : Nat} (hn : n < 8) : (thTo s n).rd THM_THROTTLE_STATUS.state = n := by
  unfold thTo
  rw [(changes_raiseEvent ..).rd, (changes_wrb ..).rd, rd_wr_same]
  exact Nat.mod_eq_of_lt hn

/-- Enforcement of a step, in the state and the step field. -/
theorem thEnforce_rd (s : State) {k : Nat} (hk : k < 4) :
    (thEnforce s k).rd THM_THROTTLE_STATUS.state = thEnforcing ∧ (thEnforce s k).rd THM_STATUS.step = k := by
  refine ⟨thTo_state _ (by decide), ?_⟩
  unfold thEnforce
  rw [(changes_thTo ..).rd, rd_wr_same]
  exact Nat.mod_eq_of_lt hk

theorem thEnforce_keepsLink (s : State) (k : Nat) : KeepsLink s (thEnforce s k) := by
  unfold thEnforce
  have hwr : KeepsLink s (s.wr THM_STATUS.step k) := .of_eq rfl
  exact hwr.trans (thTo_keepsLink ..)

/-! ## Grace time and steps -/

/-- The device at the moment at which a time of the throttle ends. -/
theorem advanceTo_throttle (s : State) (k : Nat) : (advanceTo s k).now = max s.now k ∧ (advanceTo s k).wkt = s.wkt ∧ effTemp (advanceTo s k) = effTemp s ∧
    thState (advanceTo s k) = thState s := by
  have h := changes_advanceTo s k
  exact ⟨advanceTo_now_max s k, h.parts.wkt_eq, by rw [effTemp, h.rd]; rfl, by rw [thState, h.rd]; rfl⟩

theorem graceExpiry_keepsLink (s : State) : KeepsLink s (graceExpiry s) := by
  have hadvance : ∀ k, KeepsLink s (advanceTo s k) := fun k => .of_eq (changes_advanceTo s k).parts.link_eq
  unfold graceExpiry
  dsimp only
  split
  · exact .refl
  · split
    · exact (hadvance _).trans (thTo_keepsLink ..)
    · split
      · exact (hadvance _).trans (thTo_keepsLink ..)
      · exact (hadvance _).trans (thEnforce_keepsLink ..)

/-- The end of the grace time: the state that follows, its event and its time. -/
theorem graceExpiry_meets (hruns : throttleRuns s = true) (hgrace : thState s = thGrace) :
    (graceExpiry s).rd THM_THROTTLE_STATUS.state = (if effTemp s < 101 * tempUnit then thIdle
      else if s.rd THM_THROTTLE_STATUS.acked = 1 ∧ 10 * s.wkt.power ≤ 9 * s.wkt.request then thWatch else thEnforcing) ∧
    ((graceExpiry s).rd THM_THROTTLE_STATUS.state = thEnforcing → (graceExpiry s).rd THM_STATUS.step = 1) ∧
    (graceExpiry s).now = max s.now (s.wkt.since + s.wkt.pauseTotal + graceTicks s) ∧
    (graceExpiry s).rd HCI_EVT_CAUSE.throttle_request = 1 := by
  obtain ⟨hnow, hwkt, htemp, -⟩ := advanceTo_throttle s (s.wkt.since + s.wkt.pauseTotal + graceTicks s)
  have hacked : (advanceTo s (s.wkt.since + s.wkt.pauseTotal + graceTicks s)).rd THM_THROTTLE_STATUS.acked = s.rd THM_THROTTLE_STATUS.acked :=
    (changes_advanceTo ..).rd
  have hnever : ∀ {n : Nat}, n ≠ thEnforcing → n < 8 → ∀ v : State, (thTo v n).rd THM_THROTTLE_STATUS.state = thEnforcing →
      (thTo v n).rd THM_STATUS.step = 1 := fun hne hn v h => absurd ((thTo_state v hn).symm.trans h) hne
  have hthTo : ∀ (v : State) (n : Nat), (thTo v n).now = v.now := fun v n => (changes_thTo v n).parts.now_eq
  unfold graceExpiry
  rw [if_neg (by simp [hruns, hgrace])]
  dsimp only
  rw [htemp, hwkt, State.rdb, hacked]
  by_cases hcool : effTemp s < 101 * tempUnit
  · rw [if_pos hcool, if_pos hcool]
    exact ⟨thTo_state _ (by decide), hnever (by decide) (by decide) _, by rw [hthTo, hnow], thTo_event _ _⟩
  · rw [if_neg hcool, if_neg hcool]
    by_cases hack : s.rd THM_THROTTLE_STATUS.acked = 1 ∧ 10 * s.wkt.power ≤ 9 * s.wkt.request
    · rw [if_pos hack, if_pos (by simpa using hack)]
      exact ⟨thTo_state _ (by decide), hnever (by decide) (by decide) _, by rw [hthTo, hnow], thTo_event _ _⟩
    · rw [if_neg hack, if_neg (by simpa using hack)]
      obtain ⟨hst, hstep⟩ := thEnforce_rd (advanceTo s (s.wkt.since + s.wkt.pauseTotal + graceTicks s)) (k := 1) (by decide)
      exact ⟨hst, fun _ => hstep, by rw [(changes_thEnforce ..).parts.now_eq, hnow], thTo_event _ _⟩

/-- The clause of THROTTLE_GRACE_EXPIRY. -/
theorem throttleGraceExpiry_answers (hruns : throttleRuns s = true) (hgrace : thState s = thGrace) : Answers (.throttleGraceExpiry) s fun t =>
    t.rd THM_THROTTLE_STATUS.state = (if effTemp s < 101 * tempUnit then thIdle
      else if s.rd THM_THROTTLE_STATUS.acked = 1 ∧ 10 * s.wkt.power ≤ 9 * s.wkt.request then thWatch else thEnforcing) ∧
    (t.rd THM_THROTTLE_STATUS.state = thEnforcing → t.rd THM_STATUS.step = 1) ∧
    t.now = max s.now (s.wkt.since + s.wkt.pauseTotal + graceTicks s) ∧ t.rd HCI_EVT_CAUSE.throttle_request = 1 ∧ t =
      { s with now := t.now, tim := t.tim, wkt := t.wkt, regs := t.regs, link := { s.link with pendingMsix := t.link.pendingMsix }, outbox := t.outbox } ∧
    SameRegs (keys [THM_THROTTLE_STATUS.state, THM_STATUS.throttle_active, THM_STATUS.step] ++ [evtKey evThrottle]) s t := by
  have hchanges : Changes [.now, .regs, .link, .tim, .wkt, .outbox]
      (keys [THM_THROTTLE_STATUS.state, THM_STATUS.throttle_active, THM_STATUS.step] ++ [evtKey evThrottle]) s (stepChange s (graceExpiry s)) :=
    .after (changes_stepChange ..) (.after (changes_graceExpiry s) .refl)
  obtain ⟨h1, h2, h3, h4⟩ := graceExpiry_meets hruns hgrace
  refine .intro (t := stepChange s (graceExpiry s)) rfl ⟨?_, ?_, ?_, ?_, ?_, hchanges.sameRegs⟩
  · rw [stepChange_rd, h1]
  · rw [stepChange_rd, stepChange_rd]; exact h2
  · rw [stepChange_eq]; exact h3
  · rw [stepChange_rd, h4]
  · exact wicket_frame hchanges.parts ((graceExpiry_keepsLink s).trans (stepChange_keepsLink ..))

/-- The timer of the throttle step starts afresh. -/
def sinceNow (t : State) : State := { t with wkt := { t.wkt with since := t.now } }

/-- The device at tick `k`, with the timer of its throttle step started afresh. -/
def timerRestarted (s : State) (k : Nat) : State := sinceNow (advanceTo s k)

theorem changes_timerRestarted (s : State) (k : Nat) : Changes [.now, .tim, .wkt] [] s (timerRestarted s k) :=
  .after (changes_part (ps := [.wkt]) (s := advanceTo s k) rfl) (.after (changes_advanceTo s k) .refl)

theorem timerRestarted_now (s : State) (k : Nat) : (timerRestarted s k).now = max s.now k := advanceTo_now_max s k

theorem timerRestarted_wkt (s : State) (k : Nat) : (timerRestarted s k).wkt = { s.wkt with since := (timerRestarted s k).now } := by
  have h := (changes_advanceTo s k).parts.wkt_eq
  unfold timerRestarted sinceNow
  dsimp only
  rw [h]

theorem effTemp_of_changes {ps : List Part} {ks : List Nat} (h : Changes ps ks s t) (hk : THM_STATUS.eff_temp.key 0 0 ∉ ks := by decide) :
    effTemp t = effTemp s := by
  rw [effTemp, h.rd hk]; rfl

/-- One step deeper while hot. -/
def deepened (t : State) : State := if 105 * tempUnit ≤ effTemp t then t.wr THM_STATUS.step (min 3 (t.rd THM_STATUS.step + 1)) else t

/-- The step as it is taken at tick `k`. -/
def deepenAt (s : State) (k : Nat) : State :=
  if !throttleRuns s || thState s != thEnforcing then s
  else
    let t := advanceTo s k
    let t := { t with wkt := { t.wkt with since := t.now } }
    if 105 * tempUnit ≤ effTemp t then t.wr THM_STATUS.step (min 3 (t.rd THM_STATUS.step + 1)) else t

theorem stepDeepen_eq (s : State) : stepDeepen s = deepenAt s (s.wkt.since + 10 * msTicks) := rfl

theorem deepenAt_eq (hruns : throttleRuns s = true) (henforcing : thState s = thEnforcing) (k : Nat) :
    deepenAt s k = deepened (timerRestarted s k) := by
  rw [deepenAt, if_neg (by simp [hruns, henforcing])]
  rfl

theorem deepened_meets (t : State) : Changes [.regs] (keys [THM_STATUS.step]) t (deepened t) ∧
    (deepened t).rd THM_STATUS.step = (if 105 * tempUnit ≤ effTemp t then min 3 (t.rd THM_STATUS.step + 1) else t.rd THM_STATUS.step) := by
  unfold deepened
  refine ⟨changes_ite (fun _ => changes_wr ..) fun _ => .refl, ?_⟩
  split
  · exact (rd_wr_same ..).trans (Nat.mod_eq_of_lt (by show _ < 4; omega))
  · rfl

/-- The clause of THROTTLE_STEP_DEEPEN, for any tick. -/
theorem deepenAt_meets (hruns : throttleRuns s = true) (henforcing : thState s = thEnforcing) (k : Nat) (ht : t = stepChange s (deepenAt s k)) :
    t.rd THM_STATUS.step = (if 105 * tempUnit ≤ effTemp s then min 3 (s.rd THM_STATUS.step + 1) else s.rd THM_STATUS.step) ∧
    thState t = thEnforcing ∧ t.now = max s.now k ∧
    t.wkt = { s.wkt with since := t.now, stepWas := t.wkt.stepWas, stepFrom := t.wkt.stepFrom } ∧ t.outbox = s.outbox ∧ t =
      { s with now := t.now, tim := t.tim, wkt := t.wkt, regs := t.regs, link := { s.link with pendingMsix := t.link.pendingMsix }, outbox := t.outbox } ∧
    SameRegs (keys [THM_THROTTLE_STATUS.state, THM_STATUS.throttle_active, THM_STATUS.step] ++ [evtKey evThrottle]) s t := by
  rw [deepenAt_eq hruns henforcing] at ht
  subst ht
  have htimer := changes_timerRestarted s k
  have hnow := timerRestarted_now s k
  have hwkt := timerRestarted_wkt s k
  obtain ⟨hdeepened, hstep⟩ := deepened_meets (timerRestarted s k)
  have hchanges : Changes [.now, .regs, .link, .tim, .wkt, .outbox]
      (keys [THM_THROTTLE_STATUS.state, THM_STATUS.throttle_active, THM_STATUS.step] ++ [evtKey evThrottle]) s (stepChange s (deepened (timerRestarted s k))) :=
    .after (changes_stepChange ..) (.after hdeepened (.after htimer .refl))
  refine ⟨?_, ?_, ?_, ?_, ?_, ?_, hchanges.sameRegs⟩
  · rw [stepChange_rd, hstep, effTemp_of_changes htimer, htimer.rd]
  · rw [thState, stepChange_rd, hdeepened.rd, htimer.rd]; exact henforcing
  · rw [stepChange_eq]; exact hdeepened.parts.now_eq.trans hnow
  · rw [stepChange_eq, hdeepened.parts.wkt_eq, hdeepened.parts.now_eq, hwkt]
  · rw [stepChange_eq]; exact hdeepened.parts.outbox_eq.trans htimer.parts.outbox_eq
  · exact wicket_frame hchanges.parts (.of_eq (by rw [stepChange_eq]; exact hdeepened.parts.link_eq.trans htimer.parts.link_eq))

/-- One step back while cool; with the last one throttling ends. -/
def released (t : State) : State :=
  if effTemp t < 105 * tempUnit then
    if t.rd THM_STATUS.step - 1 = 0 then thTo (t.wr THM_STATUS.step (t.rd THM_STATUS.step - 1)) thIdle
    else t.wr THM_STATUS.step (t.rd THM_STATUS.step - 1)
  else t

/-- The step as it is taken back at tick `k`. -/
def releaseAt (s : State) (k : Nat) : State :=
  if !throttleRuns s || thState s != thReleasing then s
  else
    let t := advanceTo s k
    let t := { t with wkt := { t.wkt with since := t.now } }
    if effTemp t < 105 * tempUnit then
      let k := t.rd THM_STATUS.step - 1
      let t := t.wr THM_STATUS.step k
      if k = 0 then thTo t thIdle else t
    else t

theorem stepRelease_eq (s : State) : stepRelease s = releaseAt s (s.wkt.since + 100 * msTicks) := rfl

theorem releaseAt_eq (hruns : throttleRuns s = true) (hreleasing : thState s = thReleasing) (k : Nat) :
    releaseAt s k = released (timerRestarted s k) := by
  rw [releaseAt, if_neg (by simp [hruns, hreleasing])]
  rfl

theorem changes_released (t : State) : Changes [.regs, .link, .wkt, .outbox]
    (keys [THM_THROTTLE_STATUS.state, THM_STATUS.throttle_active, THM_STATUS.step] ++ [evtKey evThrottle]) t (released t) := by
  unfold released
  exact changes_ite (fun _ => changes_ite (fun _ => .after (changes_thTo ..) (.after (changes_wr ..) .refl)) fun _ => .after (changes_wr ..) .refl)
    fun _ => .refl

theorem released_meets {t : State} (hcool : effTemp t < 105 * tempUnit) (hstep : t.rd THM_STATUS.step < 4) (hreleasing : thState t = thReleasing) :
    (released t).rd THM_STATUS.step = t.rd THM_STATUS.step - 1 ∧
      thState (released t) = (if t.rd THM_STATUS.step ≤ 1 then thIdle else thReleasing) ∧ KeepsLink t (released t) := by
  have hrd : (t.wr THM_STATUS.step (t.rd THM_STATUS.step - 1)).rd THM_STATUS.step = t.rd THM_STATUS.step - 1 :=
    (rd_wr_same ..).trans (Nat.mod_eq_of_lt (by show _ < 4; omega))
  have hlink : KeepsLink t (t.wr THM_STATUS.step (t.rd THM_STATUS.step - 1)) := .of_eq rfl
  have hstate : thState (t.wr THM_STATUS.step (t.rd THM_STATUS.step - 1)) = thReleasing := by rw [thState, (changes_wr ..).rd]; exact hreleasing
  unfold released
  rw [if_pos hcool]
  by_cases hlast : t.rd THM_STATUS.step - 1 = 0
  · rw [if_pos hlast, if_pos (by omega), (changes_thTo ..).rd]
    exact ⟨hrd, thTo_state _ (by decide), hlink.trans (thTo_keepsLink ..)⟩
  · rw [if_neg hlast, if_neg (by omega)]
    exact ⟨hrd, hstate, hlink⟩

/-- The clause of THROTTLE_STEP_RELEASE, for any tick. -/
theorem releaseAt_meets (hruns : throttleRuns s = true) (hreleasing : thState s = thReleasing) (hcool : effTemp s < 105 * tempUnit)
    (hstep : s.rd THM_STATUS.step < 4) (k : Nat) (ht : t = stepChange s (releaseAt s k)) :
    t.rd THM_STATUS.step = s.rd THM_STATUS.step - 1 ∧ thState t = (if s.rd THM_STATUS.step ≤ 1 then thIdle else thReleasing) ∧
    t.now = max s.now k ∧ t =
      { s with now := t.now, tim := t.tim, wkt := t.wkt, regs := t.regs, link := { s.link with pendingMsix := t.link.pendingMsix }, outbox := t.outbox } ∧
    SameRegs (keys [THM_THROTTLE_STATUS.state, THM_STATUS.throttle_active, THM_STATUS.step] ++ [evtKey evThrottle]) s t := by
  rw [releaseAt_eq hruns hreleasing] at ht
  subst ht
  have htimer := changes_timerRestarted s k
  have hvstep : (timerRestarted s k).rd THM_STATUS.step = s.rd THM_STATUS.step := htimer.rd
  have hvstate : thState (timerRestarted s k) = thReleasing := by rw [thState, htimer.rd]; exact hreleasing
  obtain ⟨h1, h2, h3⟩ := released_meets (t := timerRestarted s k) (by rw [effTemp_of_changes htimer]; exact hcool) (by rw [hvstep]; exact hstep) hvstate
  have hchanges : Changes [.now, .regs, .link, .tim, .wkt, .outbox]
      (keys [THM_THROTTLE_STATUS.state, THM_STATUS.throttle_active, THM_STATUS.step] ++ [evtKey evThrottle]) s (stepChange s (released (timerRestarted s k))) :=
    .after (changes_stepChange ..) (.after (changes_released _) (.after htimer .refl))
  refine ⟨?_, ?_, ?_, ?_, hchanges.sameRegs⟩
  · rw [stepChange_rd, h1, hvstep]
  · rw [thState, stepChange_rd, ← hvstep]; exact h2
  · rw [stepChange_eq]; exact (changes_released _).parts.now_eq.trans (timerRestarted_now s k)
  · exact wicket_frame hchanges.parts (((KeepsLink.of_eq htimer.parts.link_eq).trans h3).trans (stepChange_keepsLink ..))

/-! ## The watchdog (R474) -/

theorem pauseGrace_eq (s : State) : pauseGrace s = { s with wkt := { s.wkt with paused := (pauseGrace s).wkt.paused } } := by
  unfold pauseGrace
  split <;> rfl

/-- The same frame where the fault log may take entries. -/
theorem logged_frame (h : OnlyParts [.now, .regs, .safe, .link, .tim, .wkt, .outbox] s t) (hl : KeepsLink s t)
    (hsafe : t.safe = { s.safe with log := t.safe.log, nextSeq := t.safe.nextSeq }) : t =
    { s with now := t.now, tim := t.tim, wkt := t.wkt, regs := t.regs, safe := { s.safe with log := t.safe.log, nextSeq := t.safe.nextSeq }, link := { s.link with pendingMsix := t.link.pendingMsix }, outbox := t.outbox } :=
  Eq.trans h (congrArg₂ (fun l f => { s with now := t.now, tim := t.tim, wkt := t.wkt, regs := t.regs, safe := f, link := l, outbox := t.outbox }) hl.link hsafe)

/-- The core restarts, recorded, and a running grace time pauses. -/
def restarted (t : State) : State :=
  let u := fault ((t.wr THM_STATUS.wicket_restart 1).inc WKT_STATUS.restarts) .wicketRestart
  pauseGrace { u with wkt := { u.wkt with restart := some u.now } }

/-- The watchdog as it runs out at tick `k`. -/
def watchdogAt (s : State) (k : Nat) : State :=
  if s.boot.porHeld || s.wkt.restart.isSome || !s.wkt.stalled then s
  else
    let t := advanceTo s k
    let t := fault ((t.wr THM_STATUS.wicket_restart 1).inc WKT_STATUS.restarts) .wicketRestart
    pauseGrace { t with wkt := { t.wkt with restart := some t.now } }

theorem watchdog_eq (s : State) : watchdog s = watchdogAt s (s.wkt.served + 10 * msTicks) := rfl

theorem watchdogAt_eq (hpor : s.boot.porHeld = false) (hrestart : s.wkt.restart = none) (hstalled : s.wkt.stalled = true) (k : Nat) :
    watchdogAt s k = restarted (advanceTo s k) := by
  rw [watchdogAt, if_neg (by simp [hpor, hrestart, hstalled])]
  rfl

/-- An entry of the log changes the log and the sequence number only. -/
theorem fault_keepsSafe (s : State) (k : FaultKind) (unit detail die : Nat) (injected withheld hist degraded : Bool) :
    (fault s k unit detail die injected withheld hist degraded).safe =
      { s.safe with
        log := (fault s k unit detail die injected withheld hist degraded).safe.log
        nextSeq := (fault s k unit detail die injected withheld hist degraded).safe.nextSeq } := by
  obtain ⟨e, -, -, hsafe⟩ := fault_safe s k unit detail die injected withheld hist degraded
  rw [hsafe, appendFault_safe]

theorem restarted_meets (t : State) : (restarted t).rd THM_STATUS.wicket_restart = 1 ∧
    (restarted t).rd WKT_STATUS.restarts = satAdd WKT_STATUS.restarts.width (t.rd WKT_STATUS.restarts) 1 % 2 ^ WKT_STATUS.restarts.width ∧
    (restarted t).wkt.restart = some t.now ∧ ((restarted t).safe.log.getLast?.map (fun e => e.kind)) = some .wicketRestart ∧ KeepsLink t (restarted t) ∧
    (restarted t).safe = { t.safe with log := (restarted t).safe.log, nextSeq := (restarted t).safe.nextSeq } ∧
    Changes [.regs, .safe, .link, .wkt, .outbox] (keys [THM_STATUS.wicket_restart, WKT_STATUS.restarts] ++ logKeys) t (restarted t) := by
  have hcount : Changes [.regs] (keys [THM_STATUS.wicket_restart, WKT_STATUS.restarts]) t ((t.wr THM_STATUS.wicket_restart 1).inc WKT_STATUS.restarts) :=
    .after (changes_inc ..) (.after (changes_wr ..) .refl)
  have hrestart : ((t.wr THM_STATUS.wicket_restart 1).inc WKT_STATUS.restarts).rd THM_STATUS.wicket_restart = 1 := by
    rw [(changes_inc ..).rd, rd_wr_same]; rfl
  have hrestarts : ((t.wr THM_STATUS.wicket_restart 1).inc WKT_STATUS.restarts).rd WKT_STATUS.restarts =
      satAdd WKT_STATUS.restarts.width (t.rd WKT_STATUS.restarts) 1 % 2 ^ WKT_STATUS.restarts.width := by
    unfold State.inc
    rw [rd_wr_same, (changes_wr ..).rd]
  unfold restarted
  generalize (t.wr THM_STATUS.wicket_restart 1).inc WKT_STATUS.restarts = v at hcount hrestart hrestarts ⊢
  have hfault := changes_fault v .wicketRestart 0 0 255 false false false false
  have hlast := fault_lastKind v .wicketRestart 0 0 255 false false false false
  have hlink := fault_keepsLink v .wicketRestart 0 0 255 false false false false
  have hsafe := fault_keepsSafe v .wicketRestart 0 0 255 false false false false
  generalize fault v .wicketRestart = u at hfault hlast hlink hsafe ⊢
  have hpause := changes_pauseGrace { u with wkt := { u.wkt with restart := some u.now } }
  have hpart : Changes [.wkt] [] u { u with wkt := { u.wkt with restart := some u.now } } := changes_part rfl
  have hall := hpause.after (hpart.after .refl) (ps := [.wkt]) (ks := [])
  dsimp only
  refine ⟨?_, ?_, ?_, ?_, ?_, ?_, ?_⟩
  · rw [hall.rd, hfault.rd, hrestart]
  · rw [hall.rd, hfault.rd, hrestarts]
  · rw [pauseGrace_eq]
    show some u.now = some t.now
    rw [hfault.parts.now_eq, hcount.parts.now_eq]
  · rw [hall.parts.safe_eq]; exact hlast
  · exact ((KeepsLink.of_eq hcount.parts.link_eq).trans hlink).trans (.of_eq hall.parts.link_eq)
  · rw [hall.parts.safe_eq, ← hcount.parts.safe_eq]; exact hsafe
  · exact .after hall (.after hfault (.after hcount .refl))

/-- The clause of WICKET_WATCHDOG_EXPIRY, for any tick. -/
theorem watchdogAt_meets (hpor : s.boot.porHeld = false) (hrestart : s.wkt.restart = none) (hstalled : s.wkt.stalled = true) (k : Nat)
    (ht : t = watchdogAt s k) : t.rd THM_STATUS.wicket_restart = 1 ∧
    t.rd WKT_STATUS.restarts = satAdd WKT_STATUS.restarts.width (s.rd WKT_STATUS.restarts) 1 % 2 ^ WKT_STATUS.restarts.width ∧
    t.now = max s.now k ∧ t.wkt.restart = some t.now ∧ (t.safe.log.getLast?.map (fun e => e.kind)) = some .wicketRestart ∧ t =
      { s with now := t.now, tim := t.tim, wkt := t.wkt, regs := t.regs, safe := { s.safe with log := t.safe.log, nextSeq := t.safe.nextSeq }, link := { s.link with pendingMsix := t.link.pendingMsix }, outbox := t.outbox } ∧
    SameRegs (keys [THM_STATUS.wicket_restart, WKT_STATUS.restarts] ++ logKeys) s t := by
  rw [watchdogAt_eq hpor hrestart hstalled] at ht
  subst ht
  have hadvance := changes_advanceTo s k
  obtain ⟨h1, h2, h3, h4, h5, h6, hchanges⟩ := restarted_meets (advanceTo s k)
  have hall : Changes [.now, .regs, .safe, .link, .tim, .wkt, .outbox] (keys [THM_STATUS.wicket_restart, WKT_STATUS.restarts] ++ logKeys) s
      (restarted (advanceTo s k)) := .after hchanges (.after hadvance .refl)
  refine ⟨h1, by rw [h2, hadvance.rd], hchanges.parts.now_eq.trans (advanceTo_now_max s k), by rw [h3, hchanges.parts.now_eq], h4, ?_, hall.sameRegs⟩
  exact logged_frame hall.parts ((KeepsLink.of_eq hadvance.parts.link_eq).trans h5) (by rw [h6, hadvance.parts.safe_eq])

/-- The clause of WICKET_RESTART_END. -/
theorem wicketRestartEnd_answers {n : Nat} (hrestart : s.wkt.restart = some n) : Answers (.wicketRestartEnd) s fun t => t.wkt.restart = none ∧
    t.wkt.stalled = false ∧ t.wkt.served = s.now ∧ t.wkt.paused = none ∧
    (∀ p ∈ s.wkt.paused, t.wkt.pauseTotal = s.wkt.pauseTotal + (s.now - p)) ∧ t = { s with wkt := t.wkt } := by
  refine .intro (t := restartEnd s) rfl ?_
  unfold restartEnd
  rw [hrestart]
  dsimp only
  unfold resumeGrace
  cases hp : s.wkt.paused with
  | none => simp
  | some p => simp

end Sys2Proof.Machine
end

section
set_option Elab.async false
/-! A housekeeping round as far as its conversions and readings (R472, R476 to R479). -/

namespace Sys2Proof.Machine

variable {s t u : State}

/-- Of the fault log only entries and sequence number, of the link only pending messages have changed. -/
structure Quiet (s t : State) : Prop where
  link : KeepsLink s t
  safe : t.safe = { s.safe with log := t.safe.log, nextSeq := t.safe.nextSeq }

theorem Quiet.refl : Quiet s s := ⟨.refl, rfl⟩
theorem Quiet.trans (h : Quiet s t) (h' : Quiet t u) : Quiet s u := ⟨h.link.trans h'.link, by rw [h'.safe, h.safe]⟩
theorem Quiet.of_eq (hl : t.link = s.link) (hs : t.safe = s.safe) : Quiet s t := ⟨.of_eq hl, by rw [hs]⟩

theorem fault_quiet (s : State) (k : FaultKind) (unit detail die : Nat) (injected withheld hist degraded : Bool) :
    Quiet s (fault s k unit detail die injected withheld hist degraded) := ⟨fault_keepsLink .., fault_keepsSafe ..⟩

theorem foldl_quiet {α : Type} {f : State → α → State} (hf : ∀ s a, Quiet s (f s a)) (l : List α) (s : State) : Quiet s (l.foldl f s) :=
  List.foldlRecOn (motive := fun t => Quiet s t) l f .refl fun t ht a _ => ht.trans (hf t a)

/-! ## One channel and one sensor -/

theorem takeChannel_quiet (s : State) (c code : Nat) : Quiet s (takeChannel s c code) := by
  have hwr : Quiet s (s.wr WKT_ADC.code code c) := .of_eq rfl rfl
  unfold takeChannel
  split
  · exact .refl
  · dsimp only
    split
    · exact hwr
    · split
      · exact .of_eq rfl rfl
      · split
        · exact .of_eq rfl rfl
        · refine .trans ?_ (fault_quiet ..)
          exact .of_eq rfl rfl

/-- A conversion changes of the Wicket's state the run of rounds out of limits only. -/
theorem takeChannel_wkt (s : State) (c code : Nat) :
    (takeChannel s c code).wkt = { s.wkt with railRun := (takeChannel s c code).wkt.railRun } := by
  unfold takeChannel
  split
  · rfl
  · dsimp only
    split
    · rfl
    · split
      · rfl
      · split
        · rfl
        · rw [(changes_fault ..).parts.wkt_eq]
          rfl

/-- A channel that is converted shows its code; its alarm and the log may follow (R477). -/
theorem takeChannel_after_code (h : channelRuns s c = true) (code : Nat) :
    Changes [.regs, .safe, .link, .wkt, .outbox] ([WKT_ADC.alarm.key c 0] ++ logKeys) (s.wr WKT_ADC.code code c) (takeChannel s c code) := by
  unfold takeChannel
  rw [if_neg (by simp [h])]
  dsimp only
  exact changes_ite (fun _ => .refl) (fun _ => changes_ite (fun _ => .after' (changes_part (ps := [.wkt]) rfl) .refl)
    (fun _ => changes_ite (fun _ => .after' (changes_part (ps := [.wkt]) rfl) .refl)
      (fun _ => .after' (changes_fault ..) (.after' (changes_wr ..) (.after' (changes_part (ps := [.wkt]) rfl) .refl)))))

theorem codeKey_not_alarm : ∀ c < 48, WKT_ADC.code.key c 0 ∉ [WKT_ADC.alarm.key c 0] ++ logKeys := by decide +kernel

theorem takeChannel_rd (h : channelRuns s c = true) (hc : c < 48) {code : Nat} (hcode : code < 4096) : (takeChannel s c code).rd WKT_ADC.code c = code := by
  rw [(takeChannel_after_code h code).rd (codeKey_not_alarm c hc), rd_wr_same]
  exact Nat.mod_eq_of_lt hcode

theorem takeSensor_quiet (s : State) (n code : Nat) : Quiet s (takeSensor s n code) := by
  unfold takeSensor
  dsimp only
  split
  · exact .of_eq rfl rfl
  · split
    · refine .trans ?_ (fault_quiet ..)
      exact .of_eq rfl rfl
    · exact .of_eq rfl rfl

/-- A sensor's reading and whether it is valid (R479). -/
theorem takeSensor_after (h : dieReadable s (n / 24) = true) (code : Nat) :
    Changes [.regs, .safe, .link, .outbox] (keys [THM_STATUS.sensor_invalid] ++ logKeys)
      ((s.wr THM_SENSOR.temp code n).wrb THM_SENSOR.valid (readingInRange (toSigned 12 code)) n) (takeSensor s n code) := by
  unfold takeSensor
  dsimp only
  rw [if_neg (by simp [h])]
  exact changes_ite (fun _ => .after (changes_fault ..) (.after (changes_wr ..) .refl)) fun _ => .refl

theorem sensorKeys_apart : ∀ n < 96, THM_SENSOR.temp.key n 0 ∉ keys [THM_STATUS.sensor_invalid] ++ logKeys ∧
    THM_SENSOR.valid.key n 0 ∉ keys [THM_STATUS.sensor_invalid] ++ logKeys ∧ THM_SENSOR.temp.key n 0 ≠ THM_SENSOR.valid.key n 0 := by decide +kernel

theorem takeSensor_rd (hn : n < 96) {code : Nat} (hcode : code < 4096) :
    (dieReadable s (n / 24) = true → (takeSensor s n code).rd THM_SENSOR.temp n = code ∧
      ((takeSensor s n code).rd THM_SENSOR.valid n = 1 ↔ readingInRange (toSigned 12 code) = true)) ∧
    (dieReadable s (n / 24) = false → (takeSensor s n code).rd THM_SENSOR.valid n = 0) := by
  obtain ⟨htemp, hvalid, hne⟩ := sensorKeys_apart n hn
  constructor
  · intro h
    rw [(takeSensor_after h code).rd htemp, (takeSensor_after h code).rd hvalid, (changes_wrb ..).rd (by simpa using hne), rd_wr_same]
    refine ⟨Nat.mod_eq_of_lt hcode, ?_⟩
    unfold State.wrb
    rw [rd_wr_same]
    cases readingInRange (toSigned 12 code) <;> decide
  · intro h
    unfold takeSensor
    dsimp only
    rw [if_pos (by simp [h]), rd_wr_same]
    rfl

/-! ## All channels and all sensors -/

/-- The code of channel `c` in a round. -/
def codeOf (codes : Vector (BitVec 12) 48) (c : Nat) : Nat := (codes.toList.getD c 0).toNat

/-- The reading of sensor `n` in a round. -/
def readingOf (sensors : Vector (BitVec 12) 96) (n : Nat) : Nat := (sensors.toList.getD n 0).toNat

theorem codeOf_lt (codes : Vector (BitVec 12) 48) (c : Nat) : codeOf codes c < 4096 := BitVec.isLt _
theorem readingOf_lt (sensors : Vector (BitVec 12) 96) (n : Nat) : readingOf sensors n < 4096 := BitVec.isLt _

/-- The channels of a round, the first `n` of them. -/
def converted (codes : Vector (BitVec 12) 48) (n : Nat) (s : State) : State := (List.range n).foldl (fun t c => takeChannel t c (codeOf codes c)) s

/-- The sensors of a round, the first `n` of them. -/
def sensed (sensors : Vector (BitVec 12) 96) (n : Nat) (s : State) : State := (List.range n).foldl (fun t k => takeSensor t k (readingOf sensors k)) s

/-- The fields that the conversions of a round may change. -/
def channelKeys : List Nat := allKeys [WKT_ADC.code, WKT_ADC.alarm] 48 ++ logKeys

/-- The fields that the readings of a round may change. -/
def sensorKeys : List Nat := allKeys [THM_SENSOR.temp, THM_SENSOR.valid] 96 ++ keys [THM_STATUS.sensor_invalid] ++ logKeys

theorem takeChannel_keys : ∀ c < 48, [WKT_ADC.code.key c 0, WKT_ADC.alarm.key c 0] ++ logKeys ⊆ channelKeys := by decide +kernel

theorem takeSensor_keys : ∀ n < 96, keys [THM_STATUS.sensor_invalid] ++ [THM_SENSOR.valid.key n 0, THM_SENSOR.temp.key n 0] ++ logKeys ⊆ sensorKeys := by
  decide +kernel

theorem changes_converted (codes : Vector (BitVec 12) 48) {n : Nat} (hn : n ≤ 48) (s : State) :
    Changes [.regs, .safe, .link, .wkt, .outbox] channelKeys s (converted codes n s) :=
  changes_foldl_mem (fun _ c hc => (changes_takeChannel ..).mono (by decide) (takeChannel_keys c (by have := List.mem_range.mp hc; omega))) .refl

theorem changes_sensed (sensors : Vector (BitVec 12) 96) {n : Nat} (hn : n ≤ 96) (s : State) :
    Changes [.regs, .safe, .link, .outbox] sensorKeys s (sensed sensors n s) :=
  changes_foldl_mem (fun _ k hk => (changes_takeSensor ..).mono (by decide) (takeSensor_keys k (by have := List.mem_range.mp hk; omega))) .refl

theorem converted_quiet (codes : Vector (BitVec 12) 48) (n : Nat) (s : State) : Quiet s (converted codes n s) := foldl_quiet (fun _ _ => takeChannel_quiet ..) _ _
theorem sensed_quiet (sensors : Vector (BitVec 12) 96) (n : Nat) (s : State) : Quiet s (sensed sensors n s) := foldl_quiet (fun _ _ => takeSensor_quiet ..) _ _

theorem converted_wkt (codes : Vector (BitVec 12) 48) (n : Nat) (s : State) :
    (converted codes n s).wkt = { s.wkt with railRun := (converted codes n s).wkt.railRun } :=
  List.foldlRecOn (motive := fun t : State => t.wkt = { s.wkt with railRun := t.wkt.railRun }) _ _ rfl fun t ht c _ => by rw [takeChannel_wkt, ht]

theorem converted_succ (codes : Vector (BitVec 12) 48) (n : Nat) (s : State) :
    converted codes (n + 1) s = takeChannel (converted codes n s) n (codeOf codes n) := by
  simp [converted, List.range_succ]

theorem sensed_succ (sensors : Vector (BitVec 12) 96) (n : Nat) (s : State) :
    sensed sensors (n + 1) s = takeSensor (sensed sensors n s) n (readingOf sensors n) := by
  simp [sensed, List.range_succ]

theorem codeKeys_apart : ∀ c < 48, ∀ k < 48, k ≠ c → WKT_ADC.code.key k 0 ∉ [WKT_ADC.code.key c 0, WKT_ADC.alarm.key c 0] ++ logKeys := by decide +kernel

theorem sensorKeys_distinct : ∀ n < 96, ∀ k < 96, k ≠ n →
    THM_SENSOR.temp.key k 0 ∉ keys [THM_STATUS.sensor_invalid] ++ [THM_SENSOR.valid.key n 0, THM_SENSOR.temp.key n 0] ++ logKeys ∧
    THM_SENSOR.valid.key k 0 ∉ keys [THM_STATUS.sensor_invalid] ++ [THM_SENSOR.valid.key n 0, THM_SENSOR.temp.key n 0] ++ logKeys := by decide +kernel

/-- After a round every converted channel shows its code. -/
theorem converted_rd (codes : Vector (BitVec 12) 48) (hdormant : s.boot.dormant = false) (hstage : 2 ≤ s.rd DEV_BOOT_STATUS.stage) {n : Nat} (hn : n ≤ 48) :
    ∀ k < n, (converted codes n s).rd WKT_ADC.code k = codeOf codes k := by
  induction n with
  | zero => intro k hk; omega
  | succ n ih =>
    intro k hk
    have hchanges := changes_converted codes (n := n) (by omega) s
    have hruns : channelRuns (converted codes n s) n = true := by
      have hboot : (converted codes n s).boot.dormant = false := by rw [hchanges.parts.boot_eq, hdormant]
      have hrd : (converted codes n s).rd DEV_BOOT_STATUS.stage = s.rd DEV_BOOT_STATUS.stage := hchanges.rd (by decide +kernel)
      simp [channelRuns, hboot, hrd, hstage]
    rw [converted_succ]
    by_cases hkn : k = n
    · rw [hkn]
      exact takeChannel_rd hruns (by omega) (codeOf_lt codes n)
    · rw [(changes_takeChannel ..).rd (codeKeys_apart n (by omega) k (by omega) hkn)]
      exact ih (by omega) k (by omega)

/-- After a round every readable sensor shows its reading, and whether it is valid; every other is invalid. -/
theorem sensed_rd (sensors : Vector (BitVec 12) 96) (s : State) {n : Nat} (hn : n ≤ 96) : ∀ k < n,
    (dieReadable s (k / 24) = true → (sensed sensors n s).rd THM_SENSOR.temp k = readingOf sensors k ∧
      ((sensed sensors n s).rd THM_SENSOR.valid k = 1 ↔ readingInRange (toSigned 12 (readingOf sensors k)) = true)) ∧
    (dieReadable s (k / 24) = false → (sensed sensors n s).rd THM_SENSOR.valid k = 0) := by
  induction n with
  | zero => intro k hk; omega
  | succ n ih =>
    intro k hk
    have hchanges := changes_sensed sensors (n := n) (by omega) s
    rw [sensed_succ]
    by_cases hkn : k = n
    · have hreadable : dieReadable (sensed sensors n s) (n / 24) = dieReadable s (n / 24) := by
        simp only [dieReadable, dieOpen, hchanges.parts.boot_eq]
      rw [hkn, ← hreadable]
      exact takeSensor_rd (by omega) (readingOf_lt sensors n)
    · obtain ⟨htemp, hvalid⟩ := sensorKeys_distinct n (by omega) k (by omega) hkn
      rw [(changes_takeSensor ..).rd htemp, (changes_takeSensor ..).rd hvalid]
      exact ih (by omega) k (by omega)

end Sys2Proof.Machine
end

section
set_option Elab.async false
/-! A housekeeping round: its measurements, and the round that the core does not serve (R474). -/

namespace Sys2Proof.Machine

variable {s t u : State}

/-! ## The parts of a round -/

/-- The round as it ends at tick `k`. -/
def roundAt (codes : Vector (BitVec 12) 48) (sensors : Vector (BitVec 12) 96) (a : Vector Nat 20) (served : Bool) (s : State) (k : Nat) : State :=
  if s.boot.porHeld then s
  else
    let code (c : Nat) : Nat := (codes.toList.getD c 0).toNat
    let temp (n : Nat) : Nat := (sensors.toList.getD n 0).toNat
    let s := advanceTo s k
    let s := { s with wkt := { s.wkt with lastRound := s.now, round := s.wkt.round + 1 } }
    let s := (List.range 48).foldl (fun t c => takeChannel t c (code c)) s
    let s := (List.range 96).foldl (fun t n => takeSensor t n (temp n)) s
    let s := if s.boot.dormant then s else { s with wkt := { s.wkt with power := logicPower s } }
    let trip := (List.range 4).filter (fun d => hwTrip s d temp)
    let s := trip.foldl (fun t d => t.wr THM_DIE.hw_trip 1 d) s
    let s :=
      if !served || s.wkt.restart.isSome then { pauseGrace s with wkt := { (pauseGrace s).wkt with stalled := true } }
      else
        let t := { resumeGrace s with wkt := { (resumeGrace s).wkt with stalled := false, served := s.now } }
        let t := showTemps (estimates a t) none
        injectedRound (roundCauses (thEvaluate t))
    if trip.isEmpty then s else shutDown s

theorem round_eq (codes : Vector (BitVec 12) 48) (sensors : Vector (BitVec 12) 96) (a : Vector Nat 20) (served : Bool) (s : State) :
    round codes sensors a served s = roundAt codes sensors a served s (s.wkt.lastRound + 2 * msTicks) := rfl

/-- A round is counted as it begins. -/
def roundOpened (u : State) : State := { u with wkt := { u.wkt with lastRound := u.now, round := u.wkt.round + 1 } }

/-- The power of the logic die follows its channels outside DORMANT (R478). -/
def powered (u : State) : State := if u.boot.dormant then u else { u with wkt := { u.wkt with power := logicPower u } }

/-- The measurements of a round that ends at tick `k`. -/
def measured (codes : Vector (BitVec 12) 48) (sensors : Vector (BitVec 12) 96) (s : State) (k : Nat) : State :=
  powered (sensed sensors 96 (converted codes 48 (roundOpened (advanceTo s k))))

/-- The core does not serve the round. -/
def unserved (m : State) : State := { pauseGrace m with wkt := { (pauseGrace m).wkt with stalled := true } }

/-- The core has taken up the round: a grace time that paused runs on. -/
def taken (m : State) : State := { resumeGrace m with wkt := { (resumeGrace m).wkt with stalled := false, served := m.now } }

/-- What follows from the temperatures of a served round. -/
def roundServed (a : Vector Nat 20) (m : State) : State := injectedRound (roundCauses (thEvaluate (showTemps (estimates a (taken m)) none)))

/-- With every reading below 115 °C no die trips (R484). -/
theorem hwTrip_of_cool (sensors : Vector (BitVec 12) 96) (hcool : ∀ n, n < 96 → toSigned 12 (sensors.toList.getD n 0).toNat < 115 * tempUnit)
    {d : Nat} (hd : d < 4) (m : State) : hwTrip m d (fun n => (sensors.toList.getD n 0).toNat) = false := by
  unfold hwTrip
  rw [Bool.and_eq_false_iff]
  right
  rw [List.any_eq_false]
  intro k hk
  have hk := List.mem_range.mp hk
  have := hcool (24 * d + k) (by omega)
  simpa using this

theorem roundAt_eq (codes : Vector (BitVec 12) 48) (sensors : Vector (BitVec 12) 96) (a : Vector Nat 20) (served : Bool) (k : Nat)
    (hpor : s.boot.porHeld = false) (hcool : ∀ n, n < 96 → toSigned 12 (sensors.toList.getD n 0).toNat < 115 * tempUnit) :
    roundAt codes sensors a served s k = if !served || (measured codes sensors s k).wkt.restart.isSome then unserved (measured codes sensors s k)
      else roundServed a (measured codes sensors s k) := by
  rw [roundAt, if_neg (by simp [hpor])]
  extract_lets code temp u0 w0 u1 u2 u3 w3 m trip m' p1 p2 p3 p4 t1 t2 r
  have htrip : trip = [] := List.filter_eq_nil_iff.mpr fun d hd => by
    rw [show hwTrip m d temp = false from hwTrip_of_cool sensors hcool (List.mem_range.mp hd) m]; decide
  have hm' : m' = m := by simp only [m', htrip, List.foldl_nil]
  have hbegun : u1 = roundOpened (advanceTo s k) := rfl
  have hconverted : u2 = converted codes 48 u1 := rfl
  have hsensed : u3 = sensed sensors 96 u2 := rfl
  have hpowered : m = powered u3 := rfl
  have hm : m = measured codes sensors s k := by rw [measured, hpowered, hsensed, hconverted, hbegun]
  have hr : r = if !served || m'.wkt.restart.isSome then unserved m' else roundServed a m' := rfl
  rw [htrip, List.isEmpty_nil, if_pos rfl, hr, hm', hm]

/-! ## The measurements -/

/-- The fields that the measurements of a round may change. -/
def measuredKeys : List Nat := channelKeys ++ sensorKeys

theorem powered_eq (u : State) : powered u = { u with wkt := { u.wkt with power := (powered u).wkt.power } } := by
  unfold powered
  split <;> rfl

/-- What the measurements leave: codes and readings, the Wicket's counts, and everything else but the log. -/
structure Measured (codes : Vector (BitVec 12) 48) (sensors : Vector (BitVec 12) 96) (s : State) (k : Nat) (m : State) : Prop where
  changes : Changes [.now, .regs, .safe, .link, .tim, .wkt, .outbox] measuredKeys s m
  quiet : Quiet s m
  now : m.now = max s.now k
  wkt : m.wkt = { s.wkt with railRun := m.wkt.railRun, power := codeOf codes 3 * codeOf codes 8, lastRound := m.now, round := s.wkt.round + 1 }
  codes : ∀ c < 48, m.rd WKT_ADC.code c = codeOf codes c
  sensors : ∀ n < 96, (dieReadable s (n / 24) = true → m.rd THM_SENSOR.temp n = readingOf sensors n ∧
      (m.rd THM_SENSOR.valid n = 1 ↔ readingInRange (toSigned 12 (readingOf sensors n)) = true)) ∧
    (dieReadable s (n / 24) = false → m.rd THM_SENSOR.valid n = 0)

theorem codeKey_not_sensor : ∀ c < 48, WKT_ADC.code.key c 0 ∉ sensorKeys := by decide +kernel

theorem measured_meets (codes : Vector (BitVec 12) 48) (sensors : Vector (BitVec 12) 96) (k : Nat) (hdormant : s.boot.dormant = false)
    (hstage : 2 ≤ s.rd DEV_BOOT_STATUS.stage) : Measured codes sensors s k (measured codes sensors s k) := by
  have hadvance := changes_advanceTo s k
  have hnow := advanceTo_now_max s k
  unfold measured
  generalize advanceTo s k = u at hadvance hnow ⊢
  have hbegun : Changes [.now, .tim, .wkt] [] s (roundOpened u) := .after (changes_part (ps := [.wkt]) (s := u) rfl) (.after hadvance .refl)
  have hbwkt : (roundOpened u).wkt = { s.wkt with lastRound := u.now, round := s.wkt.round + 1 } := by
    rw [← hadvance.parts.wkt_eq]; rfl
  have hbnow : (roundOpened u).now = u.now := rfl
  generalize roundOpened u = b at hbegun hbwkt hbnow ⊢
  have hcon := changes_converted codes (Nat.le_refl 48) b
  have hcwkt := converted_wkt codes 48 b
  have hcrd := converted_rd codes (s := b) (by rw [hbegun.parts.boot_eq, hdormant]) (by rw [hbegun.rd]; exact hstage) (Nat.le_refl 48)
  have hcquiet := converted_quiet codes 48 b
  generalize converted codes 48 b = c at hcon hcwkt hcrd hcquiet ⊢
  have hsen := changes_sensed sensors (Nat.le_refl 96) c
  have hsrd := sensed_rd sensors c (Nat.le_refl 96)
  have hsquiet := sensed_quiet sensors 96 c
  generalize sensed sensors 96 c = m at hsen hsrd hsquiet ⊢
  have hboot : c.boot = s.boot := hcon.parts.boot_eq.trans hbegun.parts.boot_eq
  have hmboot : m.boot.dormant = false := by rw [hsen.parts.boot_eq, hboot, hdormant]
  have hcode : ∀ k < 48, m.rd WKT_ADC.code k = codeOf codes k := fun k hk => by rw [hsen.rd (codeKey_not_sensor k hk), hcrd k hk]
  have hpower : (powered m).wkt.power = codeOf codes 3 * codeOf codes 8 := by
    simp [powered, hmboot, logicPower, hcode]
  have hmnow : m.now = u.now := hsen.parts.now_eq.trans (hcon.parts.now_eq.trans hbnow)
  have hmwkt : m.wkt = { s.wkt with railRun := c.wkt.railRun, lastRound := u.now, round := s.wkt.round + 1 } := by
    rw [hsen.parts.wkt_eq, hcwkt, hbwkt]
  have hparts : Changes [.wkt] [] m (powered m) := by rw [powered_eq]; exact changes_part rfl
  have hall : Changes [.now, .regs, .safe, .link, .tim, .wkt, .outbox] measuredKeys s (powered m) :=
    .after hparts (.after hsen (.after hcon (.after hbegun .refl) (hk := List.subset_append_left _ _)) (hk := List.subset_append_right _ _)) (hk := List.nil_subset _)
  refine ⟨hall, ?_, ?_, ?_, fun k hk => by rw [hparts.rd List.not_mem_nil]; exact hcode k hk, fun n hn => ?_⟩
  · exact (((Quiet.of_eq hbegun.parts.link_eq hbegun.parts.safe_eq).trans hcquiet).trans hsquiet).trans (.of_eq hparts.parts.link_eq hparts.parts.safe_eq)
  · rw [hparts.parts.now_eq, hmnow, hnow]
  · rw [hparts.parts.now_eq, hmnow, ← hpower, powered_eq, hmwkt]
  · have hread : dieReadable s (n / 24) = dieReadable c (n / 24) := by simp only [dieReadable, dieOpen, hboot]
    rw [hread, hparts.rd List.not_mem_nil, hparts.rd List.not_mem_nil]
    exact hsrd n hn

/-! ## The round that is not served -/

theorem unserved_eq (m : State) : unserved m = { m with wkt := { m.wkt with paused := (unserved m).wkt.paused, stalled := true } } := by
  unfold unserved
  rw [pauseGrace_eq]

/-- The clause of a round that is not served, for any tick. -/
theorem unservedRound_meets (codes : Vector (BitVec 12) 48) (sensors : Vector (BitVec 12) 96) (a : Vector Nat 20) (k : Nat) (hpor : s.boot.porHeld = false)
    (hdormant : s.boot.dormant = false) (hstage : 2 ≤ s.rd DEV_BOOT_STATUS.stage)
    (hcool : ∀ n, n < 96 → toSigned 12 (sensors.toList.getD n 0).toNat < 115 * tempUnit) (ht : t = stepChange s (roundAt codes sensors a false s k)) :
    (∀ k : Nat, k < 48 → t.rd WKT_ADC.code k = (codes.toList.getD k 0).toNat) ∧ (∀ n : Nat, n < 96 → (dieReadable s (n / 24) = true →
      t.rd THM_SENSOR.temp n = (sensors.toList.getD n 0).toNat ∧ (t.rd THM_SENSOR.valid n = 1 ↔ readingInRange (toSigned 12 (sensors.toList.getD n 0).toNat) =
      true)) ∧ (dieReadable s (n / 24) = false → t.rd THM_SENSOR.valid n = 0)) ∧ t.wkt.stalled = true ∧ t.wkt.round = s.wkt.round + 1 ∧
      t.wkt.lastRound = t.now ∧ t.wkt.served = s.wkt.served ∧ t.rd THM_STATUS.eff_temp = s.rd THM_STATUS.eff_temp ∧
      t.rd THM_STATUS.band = s.rd THM_STATUS.band ∧ t.now = max s.now k ∧ t =
      { s with now := t.now, tim := t.tim, wkt := t.wkt, regs := t.regs, safe := { s.safe with log := t.safe.log, nextSeq := t.safe.nextSeq }, link := { s.link with pendingMsix := t.link.pendingMsix }, outbox := t.outbox } := by
  obtain ⟨hchanges, hquiet, hnow, hwkt, hcodes, hsensors⟩ := measured_meets codes sensors k hdormant hstage
  rw [roundAt_eq codes sensors a false k hpor hcool] at ht
  generalize measured codes sensors s k = m at hchanges hquiet hnow hwkt hcodes hsensors ht
  have htm : t = { m with wkt := { m.wkt with paused := t.wkt.paused, stalled := true, stepWas := t.wkt.stepWas, stepFrom := t.wkt.stepFrom } } := by
    have hun : t = stepChange s (unserved m) := ht
    rw [hun, stepChange_eq, unserved_eq]
  have hrd : ∀ (r : Row) (i : Nat), t.rd r i = m.rd r i := fun r i => by rw [htm]; rfl
  have hparts : OnlyParts [.now, .regs, .safe, .link, .tim, .wkt, .outbox] s t := by
    refine .after (qs := [.wkt]) ?_ hchanges.parts
    rw [htm]; rfl
  have hq : Quiet s t := hquiet.trans (.of_eq (by rw [htm]) (by rw [htm]))
  have htnow : t.now = m.now := by rw [htm]
  refine ⟨fun k hk => (hrd _ _).trans (hcodes k hk), fun n hn => ?_, by rw [htm], by rw [htm, hwkt], ?_, by rw [htm, hwkt], ?_, ?_, by rw [htnow, hnow], ?_⟩
  · rw [hrd, hrd]; exact hsensors n hn
  · rw [htnow, htm]; show m.wkt.lastRound = m.now; rw [hwkt]
  · rw [hrd]; exact hchanges.rd (by decide +kernel)
  · rw [hrd]; exact hchanges.rd (by decide +kernel)
  · exact logged_frame hparts hq.link hq.safe

end Sys2Proof.Machine
end

section
set_option Elab.async false
/-! The temperatures of a served round (R480, R482). -/

namespace Sys2Proof.Machine

variable {s t u : State}

/-! ## The junction follows readings, estimates and districts -/

/-- What a temperature of the stack is made of stands as it was. -/
structure SameHeat (s t : State) : Prop where
  boot : t.boot = s.boot
  districts : t.districts = s.districts
  est : t.wkt.est = s.wkt.est
  estStart : t.wkt.estStart = s.wkt.estStart
  temps : ∀ n < 96, t.rd THM_SENSOR.temp n = s.rd THM_SENSOR.temp n ∧ t.rd THM_SENSOR.valid n = s.rd THM_SENSOR.valid n
  limits : ∀ n < 80, t.rd THM_DLOCK_DISTRICT.at_limit n = s.rd THM_DLOCK_DISTRICT.at_limit n

theorem SameHeat.sensorWith (h : SameHeat s t) {d k : Nat} (hd : d < 4) (hk : k < 24) : sensorWith t none d k = sensorWith s none d k := by
  obtain ⟨htemp, hvalid⟩ := h.temps (24 * d + k) (by omega)
  unfold Machine.sensorWith sensor sensorTemp State.rdb
  rw [htemp, hvalid]

/-- The hotter of what stands and the reading of sensor `k`. -/
def hotterSensor (s : State) (d : Nat) (a : Option (Int × Nat)) (k : Nat) : Option (Int × Nat) :=
  match sensorWith s none d k with
  | some t => hotter a (t, k)
  | none => a

/-- The hotter of what stands and zone `z` of the logic die, by its sensor or its estimate. -/
def hotterZone (s : State) (a : Option (Int × Nat)) (z : Nat) : Option (Int × Nat) :=
  let e := estTemp (s.wkt.est.getD z 0)
  match sensorWith s none 2 z with
  | some m => if m < e then hotter a (e, 24 + z) else hotter a (m, z)
  | none => hotter a (e, 24 + z)

/-- A temperature raised to `v` where `on`. -/
def raisedTo (a : Option (Int × Nat)) (on : Bool) (v : Int) : Option (Int × Nat) :=
  match a with
  | some x => if on && decide (x.1 < v) then some (v, x.2) else some x
  | none => none

theorem dieEff_eq (s : State) (d : Nat) : dieEff s none d = if s.boot.dormant && d != 0 then none
    else if d ≠ 2 then (List.range 24).foldl (hotterSensor s d) none
    else if !s.wkt.estStart then none
    else raisedTo (raisedTo ([20, 21, 22, 23].foldl (hotterSensor s d) ((List.range 20).foldl (hotterZone s) none))
      ((List.range 80).any (fun n => (district s n).slow)) (105 * tempUnit))
      ((List.range 80).any (fun n => s.rdb THM_DLOCK_DISTRICT.at_limit n)) (100 * tempUnit) := rfl

theorem any_eq_of_mem {α : Type} {l : List α} {f g : α → Bool} (h : ∀ a ∈ l, f a = g a) : l.any f = l.any g := by
  induction l with
  | nil => rfl
  | cons a l ih => simp only [List.any_cons, h a List.mem_cons_self, ih fun b hb => h b (List.mem_cons_of_mem a hb)]

theorem SameHeat.dieEff (h : SameHeat s t) {d : Nat} (hd : d < 4) : dieEff t none d = dieEff s none d := by
  have hsensors : ∀ (ks : List Nat) (a : Option (Int × Nat)), (∀ k ∈ ks, k < 24) → ks.foldl (hotterSensor t d) a = ks.foldl (hotterSensor s d) a :=
    fun ks a hks => List.foldl_ext _ _ _ fun a k hk => by rw [hotterSensor, hotterSensor, h.sensorWith hd (hks k hk)]
  have hzones : ∀ a : Option (Int × Nat), (List.range 20).foldl (hotterZone t) a = (List.range 20).foldl (hotterZone s) a :=
    fun a => List.foldl_ext _ _ _ fun a z hz => by
      rw [hotterZone, hotterZone, h.sensorWith (by decide) (by have := List.mem_range.mp hz; omega), h.est]
  have hlimit : (List.range 80).any (fun n => t.rdb THM_DLOCK_DISTRICT.at_limit n) = (List.range 80).any (fun n => s.rdb THM_DLOCK_DISTRICT.at_limit n) :=
    any_eq_of_mem fun n hn => by rw [State.rdb, State.rdb, h.limits n (List.mem_range.mp hn)]
  rw [dieEff_eq, dieEff_eq, h.boot, h.estStart, hlimit, hzones, hsensors _ _ (by simp), hsensors _ _ (by simp)]
  simp only [district, h.districts]

theorem SameHeat.junction (h : SameHeat s t) : junction t none = junction s none :=
  List.foldl_ext _ _ _ fun a d hd => by rw [h.dieEff (List.mem_range.mp hd)]

theorem hotter_source {a : Option (Int × Nat)} {b : Int × Nat} (ha : ∀ e ∈ a, e.2 < 4) (hb : b.2 < 4) : ∀ e ∈ hotter a b, e.2 < 4 := by
  intro e he
  unfold hotter at he
  split at he
  · split at he
    · obtain rfl : b = e := by simpa using he
      exact hb
    · exact ha e he
  · obtain rfl : b = e := by simpa using he
    exact hb

/-- The hottest die is one of the four. -/
theorem junction_source (s : State) (inj : Option (Nat × Int)) : ∀ e ∈ junction s inj, e.2 < 4 := by
  unfold Machine.junction
  refine List.foldlRecOn (motive := fun a : Option (Int × Nat) => ∀ e ∈ a, e.2 < 4) _ _ (by simp) fun a ha d hd => ?_
  split
  · exact hotter_source ha (List.mem_range.mp hd)
  · exact ha

/-! ## The temperature registers -/

/-- The fields of the dies' temperatures. -/
def dieKeys : List Nat := allKeys [THM_DIE.valid, THM_DIE.eff_temp, THM_DIE.hottest] 4

/-- The temperatures of one die are shown. -/
def showDie (s : State) (inj : Option (Nat × Int)) (t : State) (d : Nat) : State :=
  let t := t.wrb THM_DIE.valid (dieReadable s d) d
  match dieEff s inj d with
  | some x => (t.wr THM_DIE.eff_temp (ofSigned 12 x.1) d).wr THM_DIE.hottest x.2 d
  | none => t

/-- The temperatures of the dies are shown. -/
def showDies (s : State) (inj : Option (Nat × Int)) : State := (List.range 4).foldl (showDie s inj) s

theorem dieKey_mem : ∀ d < 4, THM_DIE.valid.key d 0 ∈ dieKeys ∧ THM_DIE.eff_temp.key d 0 ∈ dieKeys ∧ THM_DIE.hottest.key d 0 ∈ dieKeys := by decide +kernel

theorem changes_showDie (s : State) (inj : Option (Nat × Int)) (t : State) {d : Nat} (hd : d < 4) : Changes [.regs] dieKeys t (showDie s inj t d) := by
  obtain ⟨h1, h2, h3⟩ := dieKey_mem d hd
  unfold showDie
  dsimp only
  have hvalid : Changes [.regs] dieKeys t (t.wrb THM_DIE.valid (dieReadable s d) d) := (changes_wrb ..).mono (hk := by simpa using h1)
  split
  · exact .after (changes_wr ..) (.after (changes_wr ..) hvalid (hk := by simpa using h2)) (hk := by simpa using h3)
  · exact hvalid

theorem changes_showDies (s : State) (inj : Option (Nat × Int)) : Changes [.regs] dieKeys s (showDies s inj) :=
  changes_foldl_mem (fun t _ hd => changes_showDie s inj t (List.mem_range.mp hd)) .refl

/-- The fields of the temperatures that a round shows. -/
def tempKeys : List Nat := dieKeys ++ keys [THM_STATUS.eff_temp, THM_STATUS.hot_die]

theorem showTemps_eq (s : State) (inj : Option (Nat × Int)) : showTemps s inj = match junction s inj with
    | some x => ((showDies s inj).wr THM_STATUS.eff_temp (ofSigned 12 x.1)).wr THM_STATUS.hot_die x.2
    | none => showDies s inj := rfl

theorem changes_showTemps (s : State) (inj : Option (Nat × Int)) : Changes [.regs] tempKeys s (showTemps s inj) := by
  have hdies : Changes [.regs] tempKeys s (showDies s inj) := (changes_showDies s inj).mono (hk := List.subset_append_left _ _)
  rw [showTemps_eq]
  split
  · exact .after (changes_wr ..) (.after (changes_wr ..) hdies (hk := by decide +kernel)) (hk := by decide +kernel)
  · exact hdies

theorem heatKeys_not_temp : (∀ n < 96, THM_SENSOR.temp.key n 0 ∉ tempKeys ∧ THM_SENSOR.valid.key n 0 ∉ tempKeys) ∧
    ∀ n < 80, THM_DLOCK_DISTRICT.at_limit.key n 0 ∉ tempKeys := by decide +kernel

/-- The same heat, by what may have changed. -/
theorem SameHeat.of_changes {ps : List Part} {ks : List Nat} (h : Changes ps ks s t) (hkeys : (∀ n < 96, THM_SENSOR.temp.key n 0 ∉ ks ∧
    THM_SENSOR.valid.key n 0 ∉ ks) ∧ ∀ n < 80, THM_DLOCK_DISTRICT.at_limit.key n 0 ∉ ks) (hboot : t.boot = s.boot) (hdistricts : t.districts = s.districts)
    (hest : t.wkt.est = s.wkt.est) (hstart : t.wkt.estStart = s.wkt.estStart) : SameHeat s t :=
  ⟨hboot, hdistricts, hest, hstart, fun n hn => ⟨h.rd (hkeys.1 n hn).1, h.rd (hkeys.1 n hn).2⟩, fun n hn => h.rd (hkeys.2 n hn)⟩

theorem showTemps_sameHeat (s : State) (inj : Option (Nat × Int)) : SameHeat s (showTemps s inj) :=
  have h := changes_showTemps s inj
  .of_changes h heatKeys_not_temp h.parts.boot_eq h.parts.districts_eq (by rw [h.parts.wkt_eq]) (by rw [h.parts.wkt_eq])

/-- The round shows its junction temperature and the die that sets it (R482). -/
theorem showTemps_junction (s : State) : ∀ e ∈ junction (showTemps s none) none,
    (showTemps s none).rd THM_STATUS.eff_temp = ofSigned 12 e.1 ∧ (showTemps s none).rd THM_STATUS.hot_die = e.2 := by
  intro e he
  rw [(showTemps_sameHeat s none).junction] at he
  have hdie := junction_source s none e he
  rw [showTemps_eq, Option.mem_def.mp he]
  dsimp only
  rw [(changes_wr ..).rd, rd_wr_same, rd_wr_same]
  exact ⟨Nat.mod_eq_of_lt (ofSigned_lt 12 e.1), Nat.mod_eq_of_lt hdie⟩

/-! ## The estimates -/

/-- The fields of the zones' estimates. -/
def zoneKeys : List Nat := allKeys [THM_ZONE.estimate, THM_ZONE.share, THM_ZONE.run, THM_ZONE.plausibility] 20 ++ keys [THM_STATUS.plausibility_fault] ++ logKeys

theorem zoneKeys_step : ∀ z < 20, keys [THM_STATUS.plausibility_fault] ++ [THM_ZONE.run.key z 0, THM_ZONE.plausibility.key z 0] ++ logKeys ⊆ zoneKeys ∧
    [THM_ZONE.share.key z 0] ⊆ zoneKeys ∧ [THM_ZONE.estimate.key z 0] ⊆ zoneKeys := by decide +kernel

theorem changes_estimates (a : Vector Nat 20) (s : State) : Changes [.regs, .safe, .link, .wkt, .outbox] zoneKeys s (estimates a s) := by
  unfold estimates
  refine changes_ite (fun _ => .refl) fun _ => changes_ite (fun _ => .refl) fun _ => changes_foldl_mem (fun t z hz => ?_) ?_
  · obtain ⟨h1, h2, h3⟩ := zoneKeys_step z (List.mem_range.mp hz)
    exact .after (changes_plausible ..) (.after (changes_wr ..) (.after (changes_wr ..) .refl (hk := h3)) (hk := h2)) (hk := h1)
  · exact .after (changes_part (ps := [.wkt]) rfl) .refl

theorem estimates_wkt (a : Vector Nat 20) (s : State) :
    (estimates a s).wkt = { s.wkt with est := (estimates a s).wkt.est, estStart := (estimates a s).wkt.estStart } := by
  unfold estimates
  split
  · rfl
  · split
    · rfl
    · dsimp only
      refine List.foldlRecOn (motive := fun t : State => t.wkt = { s.wkt with est := t.wkt.est, estStart := t.wkt.estStart }) _ _ rfl fun t ht z _ => ?_
      rw [(changes_plausible ..).parts.wkt_eq]
      exact ht

/-! ## The temperatures of the round -/

/-- The device once the served round shows its temperatures. -/
def warmed (a : Vector Nat 20) (m : State) : State := showTemps (estimates a (taken m)) none

theorem roundServed_eq (a : Vector Nat 20) (m : State) : roundServed a m = injectedRound (roundCauses (thEvaluate (warmed a m))) := rfl

theorem taken_eq (m : State) : taken m =
    { m with wkt := { m.wkt with paused := (taken m).wkt.paused, pauseTotal := (taken m).wkt.pauseTotal, stalled := false, served := m.now } } := by
  unfold taken resumeGrace
  split <;> rfl

/-- The fields that show the temperatures and estimates of a round. -/
def warmKeysRound : List Nat := zoneKeys ++ tempKeys

structure Warmed (m u : State) : Prop where
  changes : Changes [.regs, .safe, .link, .wkt, .outbox] warmKeysRound m u
  served : u.wkt.served = m.now
  stalled : u.wkt.stalled = false
  power : u.wkt.power = m.wkt.power
  junction : ∀ e ∈ junction u none, u.rd THM_STATUS.eff_temp = ofSigned 12 e.1 ∧ u.rd THM_STATUS.hot_die = e.2

theorem warmed_meets (a : Vector Nat 20) (m : State) : Warmed m (warmed a m) := by
  have htaken : Changes [.wkt] [] m (taken m) := by rw [taken_eq]; exact changes_part rfl
  have hest := changes_estimates a (taken m)
  have hshow := changes_showTemps (estimates a (taken m)) none
  have hwkt : (warmed a m).wkt = (estimates a (taken m)).wkt := hshow.parts.wkt_eq
  refine ⟨?_, ?_, ?_, ?_, showTemps_junction _⟩
  · exact .after hshow (.after hest (.after htaken .refl (hk := List.nil_subset _)) (hk := List.subset_append_left _ _)) (hk := List.subset_append_right _ _)
  all_goals rw [hwkt, estimates_wkt, taken_eq]

end Sys2Proof.Machine
end

section
set_option Elab.async false
/-! What a served round concludes: thresholds, band, throttle and causes (R483 to R489). -/

namespace Sys2Proof.Machine

variable {s t u : State}

/-! ## Thresholds -/

/-- What the Wicket measures and serves. -/
def coreOf (s : State) : List Int × Bool × Nat × Bool × Nat := (s.wkt.est, s.wkt.estStart, s.wkt.served, s.wkt.stalled, s.wkt.power)

theorem history_wkt (s : State) (k : FaultKind) (unit detail : Nat) :
    (history s k unit detail).wkt = { s.wkt with history := (history s k unit detail).wkt.history } := by
  unfold history
  dsimp only
  rw [(changes_fault ..).parts.wkt_eq]
  rfl

theorem thCrossing_wkt (s : State) (k : Nat) (reached : Bool) :
    (thCrossing s k reached).wkt = { (setHeld s k reached).wkt with history := (thCrossing s k reached).wkt.history } := by
  unfold thCrossing
  dsimp only
  split
  · rw [(changes_raiseEvent ..).parts.wkt_eq, history_wkt]
  · rw [history_wkt]

theorem setHeld_core (s : State) (k : Nat) (b : Bool) : coreOf (setHeld s k b) = coreOf s := by
  unfold setHeld
  split
  · rfl
  · split <;> rfl

theorem thCrossing_core (s : State) (k : Nat) (reached : Bool) : coreOf (thCrossing s k reached) = coreOf s := by
  rw [← setHeld_core s k reached, coreOf, thCrossing_wkt]; rfl

theorem evalThreshold_core (s : State) (k : Nat) : coreOf (evalThreshold s k) = coreOf s := by
  unfold evalThreshold
  dsimp only
  split
  · exact thCrossing_core ..
  · split
    · exact thCrossing_core ..
    · rfl

theorem history_rd (s : State) (k : FaultKind) (unit detail : Nat) {r : Row} {i : Nat} (hr : r.key i 0 ∉ keys [WKT_STATUS.history] ++ logKeys := by decide) :
    (history s k unit detail).rd r i = s.rd r i := (changes_history ..).rd hr

theorem thCrossing_warning (s : State) (k : Nat) (reached : Bool) :
    (thCrossing s k reached).rd THM_STATUS.warning = (setHeld s k reached).rd THM_STATUS.warning := by
  unfold thCrossing
  dsimp only
  split
  · rw [(changes_raiseEvent ..).rd, history_rd]
  · rw [history_rd]

theorem setHeld_warning (s : State) {k : Nat} (hk : k ≠ 0) (b : Bool) : (setHeld s k b).rd THM_STATUS.warning = s.rd THM_STATUS.warning := by
  unfold setHeld
  rw [if_neg hk]
  split <;> rfl

/-- The thresholds of throttling and shut-down leave the warning. -/
theorem evalThreshold_keepsWarning (s : State) {k : Nat} (hk : k ≠ 0) : (evalThreshold s k).rd THM_STATUS.warning = s.rd THM_STATUS.warning := by
  unfold evalThreshold
  dsimp only
  split
  · rw [thCrossing_warning, setHeld_warning s hk]
  · split
    · rw [thCrossing_warning, setHeld_warning s hk]
    · rfl

/-- The warning stands from 100 °C until below 96 °C (R483). -/
theorem evalThreshold_warning (s : State) : (100 * tempUnit ≤ effTemp s → (evalThreshold s 0).rd THM_STATUS.warning = 1) ∧
    (effTemp s < 96 * tempUnit → (evalThreshold s 0).rd THM_STATUS.warning ≠ 1) := by
  have hheld : thHeld s 0 = (s.rd THM_STATUS.warning == 1) := rfl
  have hset : ∀ b, (thCrossing s 0 b).rd THM_STATUS.warning = b2n b := fun b => by
    rw [thCrossing_warning]
    show (s.wr THM_STATUS.warning (b2n b)).rd THM_STATUS.warning = _
    rw [rd_wr_same]
    cases b <;> rfl
  unfold evalThreshold
  dsimp only
  rw [hheld, show thLevel 0 = 100 from rfl]
  by_cases hw : s.rd THM_STATUS.warning = 1
  · rw [if_neg (by simp [hw])]
    by_cases hcool : effTemp s < 96 * tempUnit
    · rw [if_pos (by simpa [hw] using hcool), hset]
      exact ⟨fun h => absurd (Int.lt_of_le_of_lt h hcool) (by decide), fun _ => by decide⟩
    · rw [if_neg (by simpa [hw] using hcool)]
      exact ⟨fun _ => hw, fun h => absurd h hcool⟩
  · by_cases hhot : 100 * tempUnit ≤ effTemp s
    · rw [if_pos (by simpa [hw] using hhot), hset]
      exact ⟨fun _ => rfl, fun h => absurd (Int.lt_of_le_of_lt hhot h) (by decide)⟩
    · rw [if_neg (by simpa [hw] using hhot), if_neg (by simp [hw])]
      exact ⟨fun h => absurd h hhot, fun _ => hw⟩

/-! ## The band -/

/-- The band of a temperature is one of four. -/
theorem nextBand_lt {b : Nat} (hb : b < 4) (e : Int) : nextBand b e < 4 := by
  have hfall : ∀ b : Nat, b < 4 → (if b ≠ 0 ∧ e ≤ (bandFloor b - 2) * tempUnit then b - 1 else b) < 4 := fun b hb => by split <;> omega
  have hup : (if 100 * tempUnit ≤ e then 3 else if 85 * tempUnit ≤ e then 2 else if 0 ≤ e then 1 else 0) < 4 := by
    split
    · decide
    · split
      · decide
      · split <;> decide
  unfold nextBand
  dsimp only
  generalize (if 100 * tempUnit ≤ e then 3 else if 85 * tempUnit ≤ e then 2 else if 0 ≤ e then 1 else 0) = up at hup ⊢
  by_cases h : b < up
  · rw [if_pos h]; exact hup
  · rw [if_neg h]; exact hfall _ (hfall _ (hfall _ hb))

theorem changes_pairPart (t : State) (p : Pair) : Changes [.pair] [] t { t with pair := p } := changes_part rfl

/-- A lane pair's use ends or begins. -/
theorem changes_settleLanes (before s : State) :
    Changes [.regs, .pair] (keys [CLK_CAND_READY.ready] ++ allKeys [CLK_CAND_COUNT.run] 25) s (settleLanes before s) := by
  have hkey : ∀ n < 8, keys [CLK_CAND_READY.ready] ++ [CLK_CAND_COUNT.run.key (17 + n) 0] ⊆ keys [CLK_CAND_READY.ready] ++ allKeys [CLK_CAND_COUNT.run] 25 := by
    decide +kernel
  unfold settleLanes
  refine changes_foldl_mem (fun t n hn => changes_ite (fun _ => changes_ite (fun _ => .refl) fun _ => ?_) fun _ => changes_ite (fun _ => ?_) fun _ => .refl) .refl
  · exact (changes_pairPart _ _).mono (hk := List.nil_subset _)
  · exact .after (changes_candidateLost ..) ((changes_pairPart _ _).mono (hk := List.nil_subset _)) (hk := hkey n (List.mem_range.mp hn))

/-- The fields that follow the band. -/
def bandKeys : List Nat := keys [WKT_STATUS.history, PRL_STATUS.width, CLK_CAND_READY.ready] ++ [DRC_STATUS.retraining.key 0 0, DRC_STATUS.retraining.key 1 0] ++
  allKeys [CLK_CAND_COUNT.run] 25 ++ logKeys

/-- The band `b` is in force: it is recorded and DRAM retrains (R229). -/
def bandRecorded (t : State) (b : Nat) : State := startRetrain (startRetrain (history t .bandChange b) 0) 1

/-- The lane pairs of an active link readapt (R511). -/
def readapting (t : State) : State :=
  if !pairActive t then t
  else
    let u := { t with pair := { t.pair with readapt := (List.range 4).filter (lanePairUsable t), readaptAt := t.now } }
    settleLanes t (u.wr PRL_STATUS.width (linkWidth u))

theorem takeBand_eq (s : State) : takeBand s = if nextBand (s.rd THM_STATUS.band) (effTemp s) = s.rd THM_STATUS.band then s
    else readapting (bandRecorded (s.wr THM_STATUS.band (nextBand (s.rd THM_STATUS.band) (effTemp s))) (nextBand (s.rd THM_STATUS.band) (effTemp s))) := rfl

theorem changes_readapting (t : State) : Changes [.regs, .pair] bandKeys t (readapting t) := by
  unfold readapting
  refine changes_ite (fun _ => .refl) fun _ => ?_
  exact .after (changes_settleLanes ..) (.after (changes_wr ..) ((changes_pairPart _ _).mono (hk := List.nil_subset _)) (hk := by decide +kernel))
    (hk := by decide +kernel)

theorem changes_bandRecorded (t : State) (b : Nat) : Changes [.regs, .safe, .link, .wkt, .outbox, .dram] bandKeys t (bandRecorded t b) :=
  .after (changes_startRetrain ..) (.after (changes_startRetrain ..) ((changes_history ..).mono (hk := by decide +kernel)) (hk := by decide +kernel))
    (hk := by decide +kernel)

theorem bandRecorded_core (t : State) (b : Nat) : coreOf (bandRecorded t b) = coreOf t := by
  unfold coreOf bandRecorded
  rw [(changes_startRetrain ..).parts.wkt_eq, (changes_startRetrain ..).parts.wkt_eq, history_wkt]

theorem changes_bandFollows (t : State) (b : Nat) :
    Changes [.regs, .safe, .link, .wkt, .outbox, .dram, .pair] bandKeys t (readapting (bandRecorded t b)) :=
  .after (changes_readapting _) ((changes_bandRecorded t b).mono (hk := List.Subset.refl _)) (hk := List.Subset.refl _)

theorem changes_takeBand (s : State) :
    Changes [.regs, .safe, .link, .wkt, .outbox, .dram, .pair] (keys [THM_STATUS.band] ++ bandKeys) s (takeBand s) := by
  rw [takeBand_eq]
  refine changes_ite (fun _ => .refl) fun _ => ?_
  exact .after (changes_bandFollows ..) ((changes_wr ..).mono (hk := by decide +kernel)) (hk := List.subset_append_right _ _)

theorem takeBand_core (s : State) : coreOf (takeBand s) = coreOf s := by
  rw [takeBand_eq]
  split
  · rfl
  · rw [coreOf, (changes_readapting _).parts.wkt_eq]
    exact bandRecorded_core ..

theorem band_not_mem_bandKeys : THM_STATUS.band.key 0 0 ∉ bandKeys := by decide +kernel

/-- The band in force follows the temperature (R489). -/
theorem takeBand_band (hband : s.rd THM_STATUS.band < 4) : (takeBand s).rd THM_STATUS.band = nextBand (s.rd THM_STATUS.band) (effTemp s) := by
  rw [takeBand_eq]
  split
  · next h => exact h.symm
  · rw [(changes_bandFollows ..).rd band_not_mem_bandKeys, rd_wr_same]
    exact Nat.mod_eq_of_lt (nextBand_lt hband _)

/-! ## Throttle state and pin -/

theorem thTo_wkt (s : State) (n : Nat) : (thTo s n).wkt = { s.wkt with since := s.now, paused := none, pauseTotal := 0 } := by
  unfold thTo
  rw [(changes_raiseEvent ..).parts.wkt_eq]; rfl

theorem thEnforce_wkt (s : State) (k : Nat) : (thEnforce s k).wkt = { s.wkt with since := s.now, paused := none, pauseTotal := 0 } := thTo_wkt ..

theorem throttleRound_wkt (s : State) : (throttleRound s).wkt = { s.wkt with
    since := (throttleRound s).wkt.since, paused := (throttleRound s).wkt.paused, pauseTotal := (throttleRound s).wkt.pauseTotal
    request := (throttleRound s).wkt.request } := by
  unfold throttleRound
  dsimp only
  split
  · rfl
  · split
    · split
      · rfl
      · rw [thTo_wkt]; rfl
    · split
      · split
        · rw [thTo_wkt]
        · split
          · rw [thEnforce_wkt]
          · rfl
      · split
        · split
          · rw [thTo_wkt]
          · rfl
        · split
          · split
            · rw [thEnforce_wkt]
            · rfl
          · rfl

theorem thermPin_eq (hdormant : s.boot.dormant = false) :
    thermPin s = { s with wkt := { s.wkt with thermN := decide (115 * tempUnit ≤ effTemp s) } } := by
  unfold thermPin
  dsimp only
  rw [hdormant]
  split
  · split <;> rfl
  · rfl

/-! ## The evaluation of a round -/

/-- The evaluation without its shut-down. -/
def evaluated (s : State) : State := thermPin (throttleRound (evalThreshold (takeBand (evalThreshold (evalThreshold s 0) 1)) 2))

theorem thEvaluate_eq (hdormant : s.boot.dormant = false) :
    thEvaluate s = if (evaluated s).wkt.shutHeld then shutDown (evaluated s) else evaluated s := by
  unfold thEvaluate
  rw [hdormant]
  rfl

/-- The fields that an evaluation may change. -/
def evaluationKeys : List Nat := keys [THM_STATUS.band] ++ bandKeys ++ keys [THM_STATUS.warning, THM_STATUS.throttle_active, THM_THROTTLE_STATUS.state,
  THM_THROTTLE_STATUS.acked, THM_THROTTLE_STATUS.request, THM_STATUS.step] ++ [evtKey evThrottle, evtKey evThermal] ++ logKeys

structure Evaluated (s t : State) : Prop where
  changes : Changes [.regs, .safe, .link, .wkt, .outbox, .dram, .pair] evaluationKeys s t
  core : coreOf t = coreOf s
  hot : 100 * tempUnit ≤ effTemp s → t.rd THM_STATUS.warning = 1
  cold : effTemp s < 96 * tempUnit → t.rd THM_STATUS.warning ≠ 1
  band : s.rd THM_STATUS.band < 4 → t.rd THM_STATUS.band = nextBand (s.rd THM_STATUS.band) (effTemp s)

theorem threshold_keys : keys [WKT_STATUS.history, THM_STATUS.warning] ++ [evtKey evThermal] ++ logKeys ⊆ evaluationKeys := by decide +kernel
theorem takeBand_keys : keys [THM_STATUS.band] ++ bandKeys ⊆ evaluationKeys := by decide +kernel
theorem throttle_keys : keys [THM_STATUS.throttle_active, THM_THROTTLE_STATUS.state, THM_THROTTLE_STATUS.acked, THM_THROTTLE_STATUS.request,
    THM_STATUS.step] ++ [evtKey evThrottle] ⊆ evaluationKeys := by decide +kernel

theorem effTemp_of_rd (h : t.rd THM_STATUS.eff_temp = s.rd THM_STATUS.eff_temp) : effTemp t = effTemp s := by rw [effTemp, h]; rfl

theorem evaluated_meets (hdormant : s.boot.dormant = false) : Evaluated s (evaluated s) := by
  have h0 := changes_evalThreshold s 0
  have hw := evalThreshold_warning s
  have hc0 := evalThreshold_core s 0
  unfold evaluated
  generalize evalThreshold s 0 = t0 at h0 hw hc0 ⊢
  have h1 := changes_evalThreshold t0 1
  have hw1 := evalThreshold_keepsWarning t0 (k := 1) (by decide)
  have hc1 := evalThreshold_core t0 1
  generalize evalThreshold t0 1 = t1 at h1 hw1 hc1 ⊢
  have htemp1 : effTemp t1 = effTemp s := by rw [effTemp_of_changes h1, effTemp_of_changes h0]
  have hband1 : t1.rd THM_STATUS.band = s.rd THM_STATUS.band := by rw [h1.rd, h0.rd]
  have h2 := changes_takeBand t1
  have hb2 := takeBand_band (s := t1)
  have hc2 := takeBand_core t1
  generalize takeBand t1 = t2 at h2 hb2 hc2 ⊢
  have hw2 : t2.rd THM_STATUS.warning = t1.rd THM_STATUS.warning := h2.rd (by decide +kernel)
  have h3 := changes_evalThreshold t2 2
  have hw3 := evalThreshold_keepsWarning t2 (k := 2) (by decide)
  have hc3 := evalThreshold_core t2 2
  generalize evalThreshold t2 2 = t3 at h3 hw3 hc3 ⊢
  have h4 := changes_throttleRound t3
  have hc4 : coreOf (throttleRound t3) = coreOf t3 := by rw [coreOf, throttleRound_wkt]; rfl
  generalize throttleRound t3 = t4 at h4 hc4 ⊢
  have hboot : t4.boot.dormant = false := by
    rw [h4.parts.boot_eq, h3.parts.boot_eq, h2.parts.boot_eq, h1.parts.boot_eq, h0.parts.boot_eq, hdormant]
  rw [thermPin_eq hboot]
  have h5 : Changes [.wkt] [] t4 { t4 with wkt := { t4.wkt with thermN := decide (115 * tempUnit ≤ effTemp t4) } } := changes_part rfl
  have hrd : ∀ (r : Row), State.rd { t4 with wkt := { t4.wkt with thermN := decide (115 * tempUnit ≤ effTemp t4) } } r = t4.rd r := fun _ => rfl
  have hwarning : t4.rd THM_STATUS.warning = t0.rd THM_STATUS.warning := by rw [h4.rd, hw3, hw2, hw1]
  refine ⟨?_, ?_, ?_, ?_, ?_⟩
  · exact .after h5 (.after h4 (.after h3 (.after h2 (.after h1 (.after h0 .refl (hk := threshold_keys)) (hk := threshold_keys)) (hk := takeBand_keys))
      (hk := threshold_keys)) (hk := throttle_keys)) (hk := List.nil_subset _)
  · exact hc4.trans (hc3.trans (hc2.trans (hc1.trans hc0)))
  · intro h; rw [hrd, hwarning]; exact hw.1 h
  · intro h; rw [hrd, hwarning]; exact hw.2 h
  · intro h; rw [hrd, h4.rd, h3.rd, hb2 (by rw [hband1]; exact h), hband1, htemp1]

end Sys2Proof.Machine
end

section
set_option Elab.async false
/-! Housekeeping rounds, throttling and the Wicket's watchdog: O50. -/

namespace Sys2Proof.Machine

variable {s t u : State}

/-! ## A shut-down holds its threshold -/

theorem history_shutHeld (s : State) (k : FaultKind) (unit detail : Nat) : (history s k unit detail).wkt.shutHeld = s.wkt.shutHeld := by rw [history_wkt]

theorem doWake_shutHeld (s : State) (src : Nat) : (doWake s src).wkt.shutHeld = s.wkt.shutHeld := by
  have hmode : ∀ (t : State) (m : Nat), (modeToBoot t m).wkt.shutHeld = t.wkt.shutHeld := fun t m => by
    unfold modeToBoot
    split
    · rfl
    · rw [history_shutHeld]; rfl
  unfold doWake
  dsimp only
  rw [(changes_enterStage ..).parts.wkt_eq, (changes_rebuildDegraded _).parts.wkt_eq, (changes_wr ..).parts.wkt_eq, (changes_wr ..).parts.wkt_eq, hmode,
    (changes_wr ..).parts.wkt_eq, history_shutHeld, (changes_wr ..).parts.wkt_eq]
  split <;> rfl

theorem wake_shutHeld (s : State) (src : Nat) : (wake s src).wkt.shutHeld = s.wkt.shutHeld := by
  unfold wake
  split
  · rfl
  · split
    · rfl
    · exact doWake_shutHeld ..

theorem emptied_wkt (s : State) : (emptied s).wkt = s.wkt := rfl

theorem clearDevice_wkt (s : State) : (clearDevice s).wkt = s.wkt := by
  rw [clearDevice_eq, (changes_fuses _).parts.wkt_eq, emptied_wkt]
  exact (onlyParts_settled s).wkt_eq.trans (onlyParts_endSession s).wkt_eq

/-- What a thermal or a requested power-down shows of the cleared device `t`. -/
def sleepShown (t : State) (mode : Nat) (thermal : Bool) : State :=
  if thermal then (dormantShown t mode).wr DEV_RESET_CAUSE.thermal_entry 1 else dormantShown t mode

theorem sleepShown_shutHeld (t : State) (mode : Nat) (thermal : Bool) : (sleepShown t mode thermal).wkt.shutHeld = t.wkt.shutHeld := by
  have h : (dormantShown t mode).wkt.shutHeld = t.wkt.shutHeld := by
    unfold dormantShown
    rw [history_shutHeld]; rfl
  unfold sleepShown
  split <;> exact h

/-- The device whose power goes, in DORMANT. -/
def dozing (s : State) (thermal : Bool) : State := { resting s with boot := { (resting s).boot with dormant := true, thermalHold := thermal } }

/-- The device without power, before a wake that came in between. -/
def poweredDown (s : State) (thermal : Bool) : State :=
  ((List.range 2).filter fun c => (resting s).rd DRC_STATUS.state c == drSelfRefresh).foldl (fun t c => t.wr DRC_STATUS.state drSelfRefresh c)
    (synceUpdate (showStack (mute (dropToutArms (sleepShown (clearDevice (dozing s thermal)) (s.rd DEV_MODE.mode) thermal)))))

theorem powerDown_of_none (hwait : s.boot.wakeWaiting = none) (thermal : Bool) : powerDown s thermal = poweredDown s thermal := by
  unfold powerDown poweredDown sleepShown dormantShown dozing resting
  simp only [hwait]

theorem powerDown_of_waiting {src : Nat} (hwait : s.boot.wakeWaiting = some src) (thermal : Bool) :
    powerDown s thermal = wake (poweredDown s thermal) src := by
  unfold powerDown poweredDown sleepShown dormantShown dozing resting
  simp only [hwait]

theorem onlyParts_dozing (s : State) (thermal : Bool) : OnlyParts [.regs, .pins, .free, .dram, .boot] s (dozing s thermal) :=
  .after (qs := [.boot]) rfl ((onlyParts_resting s).mono (by decide))

theorem poweredDown_shutHeld (s : State) (thermal : Bool) : (poweredDown s thermal).wkt.shutHeld = s.wkt.shutHeld := by
  have hslept : ∀ (l : List Nat) (t : State), (l.foldl (fun t c => t.wr DRC_STATUS.state drSelfRefresh c) t).wkt = t.wkt := fun l t =>
    (onlyParts_foldl (ps := [.regs]) (s := t) (l := l) (fun t c => (changes_wr t DRC_STATUS.state drSelfRefresh c 0).parts) .refl).wkt_eq
  unfold poweredDown
  rw [hslept, (changes_synceUpdate _).parts.wkt_eq, (changes_showStack _).parts.wkt_eq, (changes_mute _).parts.wkt_eq, (changes_dropToutArms _).parts.wkt_eq,
    sleepShown_shutHeld, clearDevice_wkt, (onlyParts_dozing ..).wkt_eq]

theorem powerDown_shutHeld (s : State) (thermal : Bool) : (powerDown s thermal).wkt.shutHeld = s.wkt.shutHeld := by
  cases hwait : s.boot.wakeWaiting with
  | none => rw [powerDown_of_none hwait, poweredDown_shutHeld]
  | some src => rw [powerDown_of_waiting hwait, wake_shutHeld, poweredDown_shutHeld]

theorem shutDown_shutHeld (s : State) : (shutDown s).wkt.shutHeld = s.wkt.shutHeld := by
  unfold shutDown
  split
  · rfl
  · rw [powerDown_shutHeld, (changes_selfFault ..).parts.wkt_eq, (changes_mute _).parts.wkt_eq]

/-! ## The end of a served round -/

/-- The fields of the causes and of an injection that a round judges. -/
def judgedKeys : List Nat := keys [causeRow scPlausibility, PRL_STATUS.fit, causeRow scRailAlarm] ++ mutedKeys ++ logKeys ++
  keys [SAF_INJ_STATUS.latency_us, SAF_INJ_STATUS.detected, SAF_INJ_STATUS.armed, SAF_INJ_STATUS.missed]

theorem changes_judged (s : State) : Changes [.regs, .safe, .link, .fh, .pair, .outbox] judgedKeys s (injectedRound (roundCauses s)) :=
  .after (changes_injectedRound _) (.after (changes_roundCauses s) .refl (hk := List.subset_append_left _ _)) (hk := by decide +kernel)

/-- The fields that change after the temperatures of a round are shown. -/
def concludedKeys : List Nat := evaluationKeys ++ judgedKeys

theorem concludedKeys_apart : (∀ n < 96, THM_SENSOR.temp.key n 0 ∉ concludedKeys ∧ THM_SENSOR.valid.key n 0 ∉ concludedKeys) ∧
    ∀ n < 80, THM_DLOCK_DISTRICT.at_limit.key n 0 ∉ concludedKeys := by decide +kernel

theorem codeKeys_apart_round : ∀ c < 48, WKT_ADC.code.key c 0 ∉ warmKeysRound ∧ WKT_ADC.code.key c 0 ∉ concludedKeys := by decide +kernel

theorem sensorKeys_apart_round : ∀ n < 96, THM_SENSOR.temp.key n 0 ∉ warmKeysRound ∧ THM_SENSOR.valid.key n 0 ∉ warmKeysRound := by decide +kernel

theorem statusKeys_apart_round : THM_STATUS.eff_temp.key 0 0 ∉ concludedKeys ∧ THM_STATUS.hot_die.key 0 0 ∉ concludedKeys ∧
    THM_STATUS.warning.key 0 0 ∉ judgedKeys ∧ THM_STATUS.band.key 0 0 ∉ judgedKeys ∧ THM_STATUS.band.key 0 0 ∉ warmKeysRound ∧
    THM_STATUS.band.key 0 0 ∉ measuredKeys := by decide +kernel

/-- A served round that shuts nothing down, after its measurements. -/
structure Concluded (m t : State) : Prop where
  parts : OnlyParts [.regs, .safe, .link, .wkt, .outbox, .dram, .pair, .fh] m t
  codes : ∀ c < 48, t.rd WKT_ADC.code c = m.rd WKT_ADC.code c
  sensors : ∀ n < 96, t.rd THM_SENSOR.temp n = m.rd THM_SENSOR.temp n ∧ t.rd THM_SENSOR.valid n = m.rd THM_SENSOR.valid n
  junction : ∀ e ∈ junction t none, t.rd THM_STATUS.eff_temp = ofSigned 12 e.1 ∧ t.rd THM_STATUS.hot_die = e.2
  hot : 100 * tempUnit ≤ effTemp t → t.rd THM_STATUS.warning = 1
  cold : effTemp t < 96 * tempUnit → t.rd THM_STATUS.warning ≠ 1
  band : m.rd THM_STATUS.band < 4 → t.rd THM_STATUS.band = nextBand (m.rd THM_STATUS.band) (effTemp t)
  served : t.wkt.served = m.now
  stalled : t.wkt.stalled = false
  power : t.wkt.power = m.wkt.power

theorem roundServed_shutHeld {m : State} (a : Vector Nat 20) (hdormant : m.boot.dormant = false) :
    (roundServed a m).wkt.shutHeld = (evaluated (warmed a m)).wkt.shutHeld := by
  have hboot : (warmed a m).boot.dormant = false := by rw [(warmed_meets a m).changes.parts.boot_eq, hdormant]
  rw [roundServed_eq, (changes_judged _).parts.wkt_eq, thEvaluate_eq hboot]
  split
  · rw [shutDown_shutHeld]
  · rfl

theorem roundServed_meets {m : State} (a : Vector Nat 20) (hdormant : m.boot.dormant = false) (hheld : (roundServed a m).wkt.shutHeld = false) :
    Concluded m (roundServed a m) := by
  obtain ⟨hwarm, hserved, hstalled, hpower, hjunction⟩ := warmed_meets a m
  have hboot : (warmed a m).boot.dormant = false := by rw [hwarm.parts.boot_eq, hdormant]
  rw [roundServed_shutHeld a hdormant] at hheld
  rw [roundServed_eq, thEvaluate_eq hboot, if_neg (by simp [hheld])]
  clear hheld
  generalize warmed a m = u at *
  obtain ⟨heval, hcore, hhot, hcold, hband⟩ := evaluated_meets hboot
  generalize evaluated u = v at heval hcore hhot hcold hband ⊢
  have hjudge := changes_judged v
  generalize injectedRound (roundCauses v) = t at hjudge ⊢
  have hlate : Changes [.regs, .safe, .link, .wkt, .outbox, .dram, .pair, .fh] concludedKeys u t :=
    .after hjudge (heval.mono (hk := List.subset_append_left _ _)) (hk := List.subset_append_right _ _)
  have hcore' : coreOf t = coreOf u := by rw [← hcore, coreOf, hjudge.parts.wkt_eq]; rfl
  obtain ⟨hest, hstart, hserved', hstalled', hpower'⟩ : t.wkt.est = u.wkt.est ∧ t.wkt.estStart = u.wkt.estStart ∧ t.wkt.served = u.wkt.served ∧
      t.wkt.stalled = u.wkt.stalled ∧ t.wkt.power = u.wkt.power := by simpa only [coreOf, Prod.mk.injEq] using hcore'
  obtain ⟨htempk, hdiek, hwarnk, hbandk, hbandw, -⟩ := statusKeys_apart_round
  have hheat : SameHeat u t := .of_changes hlate concludedKeys_apart hlate.parts.boot_eq hlate.parts.districts_eq hest hstart
  have htemp : effTemp t = effTemp u := effTemp_of_rd (hlate.rd htempk)
  have hwarning : t.rd THM_STATUS.warning = v.rd THM_STATUS.warning := hjudge.rd hwarnk
  have hm : u.rd THM_STATUS.band = m.rd THM_STATUS.band := hwarm.rd hbandw
  have hparts : OnlyParts [.regs, .safe, .link, .wkt, .outbox, .dram, .pair, .fh] m t := .trans (hwarm.parts.mono (by decide)) hlate.parts
  refine ⟨hparts, fun c hc => ?_, fun n hn => ?_, fun e he => ?_, fun h => ?_, fun h => ?_, fun h => ?_, ?_, ?_, ?_⟩
  · rw [hlate.rd (codeKeys_apart_round c hc).2, hwarm.rd (codeKeys_apart_round c hc).1]
  · obtain ⟨h1, h2⟩ := hheat.temps n hn
    rw [h1, h2, hwarm.rd (sensorKeys_apart_round n hn).1, hwarm.rd (sensorKeys_apart_round n hn).2]
    exact ⟨rfl, rfl⟩
  · rw [hheat.junction] at he
    rw [hlate.rd htempk, hlate.rd hdiek]
    exact hjunction e he
  · rw [hwarning]; exact hhot (htemp ▸ h)
  · rw [hwarning]; exact hcold (htemp ▸ h)
  · rw [hjudge.rd hbandk, hband (by rw [hm]; exact h), hm, htemp]
  · rw [hserved', hserved]
  · rw [hstalled', hstalled]
  · rw [hpower', hpower]

/-! ## O50 -/

/-- The clause of a served round, for any tick. -/
theorem servedRound_meets (codes : Vector (BitVec 12) 48) (sensors : Vector (BitVec 12) 96) (a : Vector Nat 20) (k : Nat) (hpor : s.boot.porHeld = false)
    (hdormant : s.boot.dormant = false) (hstage : 2 ≤ s.rd DEV_BOOT_STATUS.stage)
    (hcool : ∀ n, n < 96 → toSigned 12 (sensors.toList.getD n 0).toNat < 115 * tempUnit) (hband : s.rd THM_STATUS.band < 4)
    (ht : t = stepChange s (roundAt codes sensors a true s k)) : t.wkt.shutHeld = false → s.wkt.restart = none →
    (∀ k : Nat, k < 48 → t.rd WKT_ADC.code k = (codes.toList.getD k 0).toNat) ∧ (∀ n : Nat, n < 96 → (dieReadable s (n / 24) = true →
      t.rd THM_SENSOR.temp n = (sensors.toList.getD n 0).toNat ∧ (t.rd THM_SENSOR.valid n = 1 ↔ readingInRange (toSigned 12 (sensors.toList.getD n 0).toNat) =
      true)) ∧ (dieReadable s (n / 24) = false → t.rd THM_SENSOR.valid n = 0)) ∧
      (∀ e ∈ junction t none, t.rd THM_STATUS.eff_temp = ofSigned 12 e.1 ∧ t.rd THM_STATUS.hot_die = e.2) ∧
      (100 * tempUnit ≤ effTemp t → t.rd THM_STATUS.warning = 1) ∧ (effTemp t < 96 * tempUnit → t.rd THM_STATUS.warning ≠ 1) ∧
      t.rd THM_STATUS.band = nextBand (s.rd THM_STATUS.band) (effTemp t) ∧ t.wkt.served = t.now ∧ t.wkt.stalled = false ∧
      t.wkt.power = (codes.toList.getD 3 0).toNat * (codes.toList.getD 8 0).toNat ∧ t.now = max s.now k ∧ t.ctxs = s.ctxs ∧ t.mem = s.mem ∧ t.sec = s.sec := by
  intro hheld hrestart
  obtain ⟨hchanges, -, hnow, hwkt, hcodes, hsensors⟩ := measured_meets codes sensors k hdormant hstage
  rw [roundAt_eq codes sensors a true k hpor hcool] at ht
  generalize measured codes sensors s k = m at hchanges hnow hwkt hcodes hsensors ht
  have hidle : (!true || m.wkt.restart.isSome) = false := by rw [hwkt]; simp [hrestart]
  rw [hidle, if_neg Bool.false_ne_true] at ht
  have hmdormant : m.boot.dormant = false := by rw [hchanges.parts.boot_eq, hdormant]
  have hstep : Changes [.wkt] [] (roundServed a m) t := ht ▸ changes_stepChange ..
  have hwktstep : t.wkt = { (roundServed a m).wkt with stepWas := t.wkt.stepWas, stepFrom := t.wkt.stepFrom } := by rw [ht, stepChange_eq]
  have hserved := roundServed_meets a hmdormant (by rw [hwktstep] at hheld; exact hheld)
  generalize roundServed a m = u at hstep hwktstep hserved
  obtain ⟨hparts, hcode, hsensor, hjunction, hhot, hcold, hbands, hserved, hstalled, hpower⟩ := hserved
  have hrd : ∀ (r : Row) (i : Nat), t.rd r i = u.rd r i := fun r i => hstep.rd List.not_mem_nil
  have htemp : effTemp t = effTemp u := effTemp_of_rd (hrd ..)
  have hheat : SameHeat u t := .of_changes hstep ⟨fun _ _ => ⟨List.not_mem_nil, List.not_mem_nil⟩, fun _ _ => List.not_mem_nil⟩ hstep.parts.boot_eq
    hstep.parts.districts_eq (by rw [hwktstep]) (by rw [hwktstep])
  have hmband : m.rd THM_STATUS.band = s.rd THM_STATUS.band := hchanges.rd (statusKeys_apart_round.2.2.2.2.2)
  have hall : OnlyParts [.now, .regs, .safe, .link, .tim, .wkt, .outbox, .dram, .pair, .fh] s t :=
    .after hstep.parts (.after hparts (hchanges.parts.mono (by decide)))
  refine ⟨fun c hc => ?_, fun n hn => ?_, fun e he => ?_, fun h => ?_, fun h => ?_, ?_, ?_, ?_, ?_, ?_, hall.ctxs_eq, hall.mem_eq, hall.sec_eq⟩
  · rw [hrd, hcode c hc]; exact hcodes c hc
  · rw [hrd, hrd, (hsensor n hn).1, (hsensor n hn).2]; exact hsensors n hn
  · rw [hheat.junction] at he
    rw [hrd, hrd]; exact hjunction e he
  · rw [hrd]; exact hhot (htemp ▸ h)
  · rw [hrd]; exact hcold (htemp ▸ h)
  · rw [hrd, hbands (by rw [hmband]; exact hband), hmband, htemp]
  · rw [hwktstep, hstep.parts.now_eq, hparts.now_eq]; exact hserved
  · rw [hwktstep]; exact hstalled
  · rw [hwktstep]
    show u.wkt.power = _
    rw [hpower, hwkt]; rfl
  · rw [hstep.parts.now_eq, hparts.now_eq, hnow]

/-- Settles O50, the end of each time of the throttle and of the Wicket taken at an arbitrary tick. -/
theorem housekeepingAndThrottling : Obligations.HousekeepingAndThrottling := by
  unfold Obligations.HousekeepingAndThrottling
  refine ⟨fun s c x a hpor hdormant hstage hcool hband => .intro (t := stepChange s (round c x a true s)) rfl ?_,
    fun s c x a hpor hdormant hstage hcool => .intro (t := stepChange s (round c x a false s)) rfl ?_,
    fun s hruns hgrace => throttleGraceExpiry_answers hruns hgrace,
    fun s hruns henforcing => .intro (t := stepChange s (stepDeepen s)) rfl ?_,
    fun s hruns hreleasing hcool hstep => .intro (t := stepChange s (stepRelease s)) rfl ?_,
    fun s hpor hrestart hstalled => .intro (t := watchdog s) rfl ?_, fun s n hn => wicketRestartEnd_answers hn⟩
  · exact servedRound_meets c x a _ hpor hdormant hstage hcool hband (by rw [round_eq])
  · exact unservedRound_meets c x a _ hpor hdormant hstage hcool (by rw [round_eq])
  · exact deepenAt_meets hruns henforcing _ (by rw [stepDeepen_eq])
  · exact releaseAt_meets hruns hreleasing hcool hstep _ (by rw [stepRelease_eq])
  · exact watchdogAt_meets hpor hrestart hstalled _ (by rw [watchdog_eq])

end Sys2Proof.Machine
end

section
set_option Elab.async false
/-! The bound of the fault log (R559): what keeps it, and how the operations that may write entries do. -/

namespace Sys2Proof.Machine

variable {s t u : State} {ps : List Part} {ks : List Nat}

/-- If the log of `s` meets its bound, that of `t` does. -/
structure KeepsBound (s t : State) : Prop where
  bound : LogBounded s → LogBounded t

theorem KeepsBound.refl : KeepsBound s s := ⟨fun h => h⟩

theorem KeepsBound.trans (h : KeepsBound s t) (h' : KeepsBound t u) : KeepsBound s u := ⟨fun hs => h'.bound (h.bound hs)⟩

/-- A last change, and the changes before it. -/
theorem KeepsBound.after (h' : KeepsBound t u) (h : KeepsBound s t) : KeepsBound s u := h.trans h'

theorem KeepsBound.of_log (h : t.safe.log = s.safe.log) : KeepsBound s t := ⟨fun hs => by
  unfold LogBounded at hs ⊢
  rw [h]
  exact hs⟩

/-- A change of parts without the log. -/
theorem OnlyParts.keepsBound (h : OnlyParts ps s t) (hp : Part.safe ∉ ps := by decide) : KeepsBound s t :=
  .of_log (congrArg Safety.log ((onlyParts_iff.mp h).2.2.2.2.2.1.resolve_left hp))

theorem Changes.keepsBound (h : Changes ps ks s t) (hp : Part.safe ∉ ps := by decide) : KeepsBound s t := h.parts.keepsBound hp

/-- A change of the parts `ps` that are not the log's. -/
theorem KeepsBound.over (ps : List Part) (h : OnlyParts ps s t) (hp : Part.safe ∉ ps := by decide) : KeepsBound s t := h.keepsBound hp

/-- A change of the parts `ps` that leaves the log as it is. -/
theorem KeepsBound.overLog (ps : List Part) (_ : OnlyParts ps s t) (hlog : t.safe.log = s.safe.log) : KeepsBound s t := .of_log hlog

theorem KeepsBound.ite {c : Prop} [Decidable c] (ht : KeepsBound s t) (hu : KeepsBound s u) : KeepsBound s (if c then t else u) := by
  split
  · exact ht
  · exact hu

theorem KeepsBound.dite {c : Prop} [Decidable c] {f : c → State} {g : ¬ c → State} (ht : ∀ h, KeepsBound s (f h)) (hu : ∀ h, KeepsBound s (g h)) :
    KeepsBound s (if h : c then f h else g h) := by
  split
  · exact ht _
  · exact hu _

theorem KeepsBound.foldl {α : Type} {f : State → α → State} (hf : ∀ s a, KeepsBound s (f s a)) {l : List α} (h : KeepsBound s t) :
    KeepsBound s (l.foldl f t) := by
  induction l generalizing t with
  | nil => exact h
  | cons a l ih => exact ih (h.trans (hf t a))

theorem appendFault_keepsBound (s : State) (e : FaultEntry) : KeepsBound s (appendFault s e) := ⟨appendFault_log_le s e⟩

/-! ## A part of the state takes another value -/

theorem KeepsBound.withCtxs (s : State) (x : Contexts) : KeepsBound s { s with ctxs := x } := .over [.ctxs] rfl
theorem KeepsBound.withTiles (s : State) (x : Sparse Tile) : KeepsBound s { s with tiles := x } := .over [.tiles] rfl
theorem KeepsBound.withMem (s : State) (x : MemDie) : KeepsBound s { s with mem := x } := .over [.mem] rfl
theorem KeepsBound.withNoc (s : State) (x : Noc) : KeepsBound s { s with noc := x } := .over [.noc] rfl
theorem KeepsBound.withDram (s : State) (x : Dram) : KeepsBound s { s with dram := x } := .over [.dram] rfl
theorem KeepsBound.withEnc (s : State) (x : Enc) : KeepsBound s { s with enc := x } := .over [.enc] rfl
theorem KeepsBound.withLink (s : State) (x : Link) : KeepsBound s { s with link := x } := .over [.link] rfl
theorem KeepsBound.withSec (s : State) (x : Sec) : KeepsBound s { s with sec := x } := .over [.sec] rfl
theorem KeepsBound.withImgs (s : State) (x : Images) : KeepsBound s { s with imgs := x } := .over [.imgs] rfl
theorem KeepsBound.withInteg (s : State) (x : Integ) : KeepsBound s { s with integ := x } := .over [.integ] rfl
theorem KeepsBound.withDmas (s : State) (x : List Dma) : KeepsBound s { s with dmas := x } := .over [.dmas] rfl
theorem KeepsBound.withFh (s : State) (x : Fh) : KeepsBound s { s with fh := x } := .over [.fh] rfl
theorem KeepsBound.withTim (s : State) (x : Tim) : KeepsBound s { s with tim := x } := .over [.tim] rfl
theorem KeepsBound.withWkt (s : State) (x : Wkt) : KeepsBound s { s with wkt := x } := .over [.wkt] rfl
theorem KeepsBound.withPins (s : State) (x : Pins) : KeepsBound s { s with pins := x } := .over [.pins] rfl
theorem KeepsBound.withPair (s : State) (x : Pair) : KeepsBound s { s with pair := x } := .over [.pair] rfl
theorem KeepsBound.withOutbox (s : State) (x : List Out) : KeepsBound s { s with outbox := x } := .over [.outbox] rfl
theorem KeepsBound.withPending (s : State) (x : List Instr) : KeepsBound s { s with pending := x } := .over [.pending] rfl
theorem KeepsBound.withBoot (s : State) (x : Boot) : KeepsBound s { s with boot := x } := .over [.boot] rfl
theorem KeepsBound.withStack (s : State) (x : Stack) : KeepsBound s { s with stack := x } := .over [.stack] rfl
theorem KeepsBound.withDistricts (s : State) (x : Sparse District) : KeepsBound s { s with districts := x } := .over [.districts] rfl

theorem KeepsBound.withTimPair (s : State) (x : Tim) (y : Pair) : KeepsBound s { s with tim := x, pair := y } := .over [.tim, .pair] rfl

theorem KeepsBound.withSafe (s : State) (x : Safety) (h : x.log = s.safe.log) : KeepsBound s { s with safe := x } := .of_log h

/-! ## Registers and time -/

theorem wr_keepsBound (s : State) (r : Row) (v i j : Nat) : KeepsBound s (s.wr r v i j) := (changes_wr ..).keepsBound
theorem wrb_keepsBound (s : State) (r : Row) (b : Bool) (i j : Nat) : KeepsBound s (s.wrb r b i j) := (changes_wrb ..).keepsBound
theorem wrBit_keepsBound (s : State) (r : Row) (n : Nat) (b : Bool) (i j : Nat) : KeepsBound s (s.wrBit r n b i j) := (changes_wrBit ..).keepsBound
theorem inc_keepsBound (s : State) (r : Row) (k i j : Nat) : KeepsBound s (s.inc r k i j) := (changes_inc ..).keepsBound
theorem fresh_keepsBound (s : State) (w : Nat) : KeepsBound s (s.fresh w).2 := .over [.free] rfl
theorem advanceTo_keepsBound (s : State) (k : Nat) : KeepsBound s (advanceTo s k) := (changes_advanceTo ..).keepsBound

theorem fault_keepsBound (s : State) (k : FaultKind) (unit detail die : Nat) (injected withheld history degraded : Bool) :
    KeepsBound s (fault s k unit detail die injected withheld history degraded) := by
  unfold fault
  exact .ite (.after (changes_raiseEvent ..).keepsBound (appendFault_keepsBound ..)) (appendFault_keepsBound ..)

/-! ## Operations that act through a given change -/

theorem regWrite_keepsBound (s : State) (off : Nat) {f : State → State} (hf : ∀ s, KeepsBound s (f s)) : KeepsBound s (regWrite off s f) := by
  unfold regWrite
  exact .ite .refl (.ite (changes_blockedAccess ..).keepsBound (hf s))

theorem hciWrite_keepsBound (s : State) (fn off : Nat) {f : State → State} (hf : ∀ s, KeepsBound s (f s)) : KeepsBound s (hciWrite fn off s f) := by
  unfold hciWrite
  exact .ite .refl (.ite (changes_blockedAccess ..).keepsBound (hf s))

theorem startCommand_keepsBound (s : State) (op id : Nat) {f : Track → State → State} (hf : ∀ x s, KeepsBound s (f x s)) :
    KeepsBound s (startCommand op id s f) := by
  unfold startCommand
  split
  · exact .refl
  · exact .ite (.ite (.after (hf _ _) (.over [.link] rfl)) (.after (changes_finish ..).keepsBound (.over [.link] rfl))) .refl

theorem startDma_keepsBound (s : State) (op id : Nat) {f : Nat → Track → State → State} (hf : ∀ m x s, KeepsBound s (f m x s)) :
    KeepsBound s (startDma op id s f) := by
  unfold startDma
  split
  · exact .refl
  · exact startCommand_keepsBound s op id (hf _)

theorem reachCommit_keepsBound (s : State) (x : Track) {f : State → State} (hf : ∀ s, KeepsBound s (f s)) : KeepsBound s (reachCommit s x f) := by
  unfold reachCommit
  exact .ite (.over [.link] rfl) (.after (hf _) (changes_commit ..).keepsBound)

theorem changeOwners_keepsBound (s : State) {f : State → State} (hf : ∀ s, KeepsBound s (f s)) : KeepsBound s (changeOwners f s) := by
  unfold changeOwners
  exact .ite (hf s) (.after (onlyParts_showOwners ..).keepsBound (.foldl (fun _ _ => .ite .refl (changes_startHandover ..).keepsBound) (hf s)))

theorem goOffline_keepsBound (s : State) (c : Nat) {f : State → DramReq → State} (hf : ∀ s r, KeepsBound s (f s r)) : KeepsBound s (goOffline s c f) := by
  unfold goOffline
  exact .after (changes_setDegraded ..).keepsBound (.after (fault_keepsBound ..) (.after (wr_keepsBound ..) (.foldl hf
    (.foldl (fun _ _ => fault_keepsBound ..) (.after (wr_keepsBound ..) (changes_setCtrl ..).keepsBound)))))

end Sys2Proof.Machine
end

section
set_option Elab.async false
/-! Operations that keep the bound of the fault log: those that need only their callees. -/

namespace Sys2Proof.Machine

theorem history_keepsBound (s : State) (k : FaultKind) (unit detail : Nat) : KeepsBound s (history s k unit detail) := by
  unfold history
  exact .after (fault_keepsBound ..) (.after (wr_keepsBound ..) (.over [.wkt] rfl))

theorem recordCause_keepsBound (s : State) (c : ResetCause) : KeepsBound s (recordCause s c) := by
  unfold recordCause
  exact .after (history_keepsBound ..) (wr_keepsBound ..)

theorem setCause_keepsBound (s : State) (b : Nat) : KeepsBound s (setCause s b) := by
  unfold setCause
  exact .ite .refl (.ite (.after (changes_selfFault ..).keepsBound (.after (changes_mute ..).keepsBound (.after (fault_keepsBound ..)
    (wr_keepsBound ..)))) (.ite (.after (wr_keepsBound ..) (.after (changes_mute ..).keepsBound (.after (fault_keepsBound ..) (wr_keepsBound ..))))
    (.after (changes_mute ..).keepsBound (.after (fault_keepsBound ..) (wr_keepsBound ..)))))

theorem setMode_keepsBound (s : State) (m : Nat) : KeepsBound s (setMode s m) := by
  unfold setMode
  exact .ite (.after (changes_endCause ..).keepsBound (.after (history_keepsBound ..) (.after (inc_keepsBound ..) (.after (wr_keepsBound ..)
    (wr_keepsBound ..))))) (.ite (.after (history_keepsBound ..) (.after (inc_keepsBound ..) (.after (wr_keepsBound ..) (wr_keepsBound ..))))
    (.after (setCause_keepsBound ..) (.after (history_keepsBound ..) (.after (inc_keepsBound ..) (.after (wr_keepsBound ..) (wr_keepsBound ..))))))

theorem modeToBoot_keepsBound (s : State) (from' : Nat) : KeepsBound s (modeToBoot s from') := by
  unfold modeToBoot
  exact .ite .refl (.after (history_keepsBound ..) (inc_keepsBound ..))

theorem doWake_keepsBound (s : State) (src : Nat) : KeepsBound s (doWake s src) := by
  unfold doWake
  exact .after (changes_enterStage ..).keepsBound (.after (changes_rebuildDegraded ..).keepsBound (.after (wr_keepsBound ..) (.after (wr_keepsBound
    ..) (.after (modeToBoot_keepsBound ..) (.after (wr_keepsBound ..) (.after (history_keepsBound ..) (.after (wr_keepsBound ..) (.ite (.after
    (wr_keepsBound ..) (.after (wr_keepsBound ..) (.after (wr_keepsBound ..) (.over [.boot] rfl)))) (.after (wr_keepsBound ..) (.after
    (wr_keepsBound ..) (.over [.boot] rfl)))))))))))

theorem wake_keepsBound (s : State) (src : Nat) : KeepsBound s (wake s src) := by
  unfold wake
  exact .ite .refl (.ite (.over [.boot] rfl) (doWake_keepsBound ..))

theorem perstDeassert_keepsBound (s : State) : KeepsBound s (perstDeassert s) := by
  unfold perstDeassert
  exact .ite (.ite (.after (wake_keepsBound ..) (.over [.boot, .link] rfl)) (.over [.boot, .link] rfl)) (.after (.over [.boot] rfl) (.over [.boot,
    .link] rfl))

theorem wakeTimer_keepsBound (s : State) : KeepsBound s (wakeTimer s) := by
  unfold wakeTimer
  exact .ite .refl (.after (wake_keepsBound ..) (.after (wr_keepsBound ..) (advanceTo_keepsBound ..)))

theorem dieResetD0_keepsBound (s : State) (c : Option ResetCause) : KeepsBound s (dieResetD0 s c) := by
  unfold dieResetD0
  exact .ite .refl (.after (.over [.noc] rfl) (.after (changes_cutEgress ..).keepsBound (.after (changes_advance ..).keepsBound (.after
    (setCause_keepsBound ..) (.after (.over [.boot] rfl) (changes_selfFault ..).keepsBound)))))

theorem endLoad_keepsBound (s : State) (l : Load) (st : Status) (r2 : Nat) : KeepsBound s (endLoad s l st r2) := by
  unfold endLoad
  exact .after (changes_finish ..).keepsBound (.after (wr_keepsBound ..) (.after (wr_keepsBound ..) (.after (wr_keepsBound ..) (.after (.over
    [.ctxs, .imgs] rfl) (.over [.link] rfl)))))

theorem loadReset_keepsBound (s : State) : KeepsBound s (loadReset s) := by
  unfold loadReset
  split
  · exact endLoad_keepsBound ..
  · exact .refl

theorem resetD3_keepsBound (s : State) : KeepsBound s (resetD3 s) := by
  unfold resetD3
  exact .after (changes_shadowUnfit ..).keepsBound (.after (setCause_keepsBound ..) (.after (changes_setDegraded ..).keepsBound (.after (.overLog
    [.boot, .safe] rfl rfl) (.after (.over [.regs] rfl) (.after (.over [.integ] rfl) (loadReset_keepsBound ..))))))

theorem pathFailed_keepsBound (s : State) (t pa st : Nat) : KeepsBound s (pathFailed s t pa st) := by
  unfold pathFailed
  exact fault_keepsBound ..

theorem outstandingEnd_keepsBound (s : State) (r : NocReq) : KeepsBound s (outstandingEnd s r) := by
  unfold outstandingEnd
  refine .ite (.ite (fault_keepsBound ..) .refl) ?_
  split
  · exact .after (.over [.outbox] rfl) (.ite (fault_keepsBound ..) .refl)
  · exact .after (pathFailed_keepsBound ..) (.ite (fault_keepsBound ..) .refl)
  · exact .ite (fault_keepsBound ..) .refl

theorem injectReq_keepsBound (s : State) (r : NocReq) (malformed : Bool) : KeepsBound s (injectReq s r malformed) := by
  unfold injectReq
  exact .after (.over [.noc] rfl) (.ite (.over [.regs] rfl) .refl)

theorem issueFabric_keepsBound (s : State) (init : Nat) (l : List (BitVec 512)) : KeepsBound s (issueFabric s init l) := by
  unfold issueFabric
  exact .ite (fault_keepsBound ..) (injectReq_keepsBound ..)

theorem recordDie_keepsBound (s : State) (n : Nat) (host : Bool) : KeepsBound s (recordDie s n host) := by
  unfold recordDie
  exact .after (history_keepsBound ..) (.ite (.after (wr_keepsBound ..) (wrBit_keepsBound ..)) (wrBit_keepsBound ..))

theorem injectionEnd_keepsBound (s : State) (at' r r2 : Nat) : KeepsBound s (injectionEnd s at' r r2) := by
  unfold injectionEnd
  split
  · exact .refl
  · exact .ite (.after (changes_finish ..).keepsBound (.after (wr_keepsBound ..) (.after (wr_keepsBound ..) (.after (wr_keepsBound ..) (.overLog
    [.safe] rfl rfl))))) (.after (changes_finish ..).keepsBound (.after (wr_keepsBound ..) (.after (wr_keepsBound ..) (.overLog [.safe] rfl rfl))))

theorem injectionLogged_keepsBound (s : State) (at' die : Nat) : KeepsBound s (injectionLogged s at' die) := by
  unfold injectionLogged
  split
  · exact .refl
  · exact .after (injectionEnd_keepsBound ..) (fault_keepsBound ..)

theorem flitBad_keepsBound (s : State) (init tag router k : Nat) (bad0 bad1 : Bool) : KeepsBound s (flitBad s init tag router k bad0 bad1) := by
  unfold flitBad
  exact .ite (.ite (.over [.noc] rfl) .refl) (.ite (.after (fault_keepsBound ..) (.over [.noc] rfl)) (.ite (.after (fault_keepsBound ..) (.after
    (inc_keepsBound ..) (.over [.noc] rfl))) (.ite (inc_keepsBound ..) .refl)))

theorem flitCheck_keepsBound (s : State) (init tag router k : Nat) (find : FlitFind) : KeepsBound s (flitCheck s init tag router k find) := by
  unfold flitCheck
  exact .ite (.ite (injectionLogged_keepsBound ..) (.after (injectionEnd_keepsBound ..) (.after (fault_keepsBound ..) (.over [.noc] rfl)))) (.after
    (flitBad_keepsBound ..) (.ite (.ite .refl (inc_keepsBound ..)) (.after (.over [.noc] rfl) (.ite .refl (inc_keepsBound ..)))))

theorem countEvent_keepsBound (s : State) (k n : Nat) : KeepsBound s (countEvent s k n).1 := by
  unfold countEvent
  dsimp only
  split
  · exact .after (.overLog [.safe] rfl rfl) (.overLog [.safe] rfl rfl)
  · exact .overLog [.safe] rfl rfl

theorem channelLasting_keepsBound (s : State) (kind group c : Nat) : KeepsBound s (channelLasting s kind group c) := by
  unfold channelLasting
  dsimp only
  split
  · exact .after (.over [.stack] rfl) (.over [.stack] rfl)
  · exact .after (fault_keepsBound ..) (.over [.stack] rfl)

theorem countFull_keepsBound (s : State) (before : State) (g : Nat) : KeepsBound s (countFull before s g) := by
  unfold countFull
  exact .ite (inc_keepsBound ..) .refl

theorem spareChannel_keepsBound (s : State) : KeepsBound s (spareChannel s) := by
  unfold spareChannel
  split
  · exact .refl
  · exact .after (changes_setDegraded ..).keepsBound (.after (fault_keepsBound ..) (.after (countFull_keepsBound ..) (.after (inc_keepsBound ..)
    (.after (.over [.stack] rfl) (advanceTo_keepsBound ..)))))

theorem unlock_keepsBound (s : State) (d : Nat) (slow : Bool) : KeepsBound s (unlock s d slow) := by
  unfold unlock
  exact .after (fault_keepsBound ..) (.after (wr_keepsBound ..) (.after (inc_keepsBound ..) (.after (changes_setUnlocked ..).keepsBound (.after
    (wr_keepsBound ..) (changes_setDistrict ..).keepsBound))))

theorem lockWindow_keepsBound (s : State) (d : Nat) (e : Int) : KeepsBound s (lockWindow d e s) := by
  unfold lockWindow
  exact .ite .refl (.ite (.ite (.after (unlock_keepsBound ..) (.after (wrb_keepsBound ..) (.after (wr_keepsBound ..) (.after (wr_keepsBound ..)
    (changes_setDistrict ..).keepsBound)))) (.ite (.after (unlock_keepsBound ..) (.after (wrb_keepsBound ..) (.after (wr_keepsBound ..) (.after
    (wr_keepsBound ..) (changes_setDistrict ..).keepsBound)))) (.after (wrb_keepsBound ..) (.after (wr_keepsBound ..) (.after (wr_keepsBound ..)
    (changes_setDistrict ..).keepsBound))))) (.ite (.ite (.after (wrb_keepsBound ..) (.after (wr_keepsBound ..) (.after (changes_setDistrict
    ..).keepsBound (.after (wrb_keepsBound ..) (.after (wr_keepsBound ..) (.after (wr_keepsBound ..) (changes_setDistrict ..).keepsBound))))))
    (.after (wrb_keepsBound ..) (.after (wr_keepsBound ..) (.after (wr_keepsBound ..) (changes_setDistrict ..).keepsBound)))) (.ite (.after
    (changes_setUnlocked ..).keepsBound (.after (wrb_keepsBound ..) (.after (wr_keepsBound ..) (.after (changes_setDistrict ..).keepsBound (.after
    (wrb_keepsBound ..) (.after (wr_keepsBound ..) (.after (wr_keepsBound ..) (changes_setDistrict ..).keepsBound))))))) (.after (wrb_keepsBound
    ..) (.after (wr_keepsBound ..) (.after (wr_keepsBound ..) (changes_setDistrict ..).keepsBound))))))

theorem acquireTimeout_keepsBound (s : State) (d : Nat) : KeepsBound s (acquireTimeout d s) := by
  unfold acquireTimeout
  dsimp only
  split
  · exact .ite .refl (.after (unlock_keepsBound ..) (advanceTo_keepsBound ..))
  · exact .refl

theorem takeDistrictSpare_keepsBound (s : State) (d : Nat) : KeepsBound s (takeDistrictSpare s d) := by
  unfold takeDistrictSpare
  dsimp only
  split
  · exact .refl
  · exact .ite (.after (fault_keepsBound ..) (changes_setDistrict ..).keepsBound) (.after (changes_setDegraded ..).keepsBound (.after
    (fault_keepsBound ..) (changes_setDistrict ..).keepsBound))

theorem dropStagedRepairs_keepsBound (s : State) : KeepsBound s (dropStagedRepairs s) := by
  unfold dropStagedRepairs
  exact (changes_mapRepairs ..).keepsBound

theorem startStaging_keepsBound (s : State) (c : Nat) (o : StageOwner) : KeepsBound s (startStaging s c o) := by
  unfold startStaging
  exact .after (.over [.ctxs] rfl) (.after (dropStagedRepairs_keepsBound ..) (.after (changes_setStaged ..).keepsBound (wr_keepsBound ..)))

theorem scheduleStage_keepsBound (s : State) : KeepsBound s (scheduleStage s) := by
  unfold scheduleStage
  split
  · exact .refl
  · exact .ite (.over [.ctxs] rfl) (.ite (.over [.ctxs] rfl) (.ite (.after (.over [.ctxs] rfl) (.over [.ctxs] rfl)) (.after
    (startStaging_keepsBound ..) (.over [.ctxs] rfl))))

theorem liftIfClear_keepsBound (s : State) : KeepsBound s (liftIfClear s) := by
  unfold liftIfClear
  exact .ite (changes_unmute ..).keepsBound .refl

theorem enterRun_keepsBound (s : State) : KeepsBound s (enterRun s) := by
  unfold enterRun
  split
  · exact .refl
  · exact .after (liftIfClear_keepsBound ..) (.ite (.after (setCause_keepsBound ..) (.after (.over [.boot] rfl) (.after (setMode_keepsBound ..)
    (.after (changes_finish ..).keepsBound (.after (changes_commit ..).keepsBound (.over [.regs, .boot] rfl)))))) (.after (setMode_keepsBound ..)
    (.after (changes_finish ..).keepsBound (.after (changes_commit ..).keepsBound (.over [.regs, .boot] rfl)))))

theorem endRecovery_keepsBound (s : State) : KeepsBound s (endRecovery s) := by
  unfold endRecovery
  exact .ite .refl (changes_endCause ..).keepsBound

theorem tilesSwap_keepsBound (s : State) : KeepsBound s (tilesSwap s) := by
  unfold tilesSwap
  exact .foldl (fun _ _ => by exact .over [.tiles] rfl) .refl

theorem newVersionActive_keepsBound (s : State) (c : Nat) : KeepsBound s (newVersionActive s c) := by
  unfold newVersionActive
  exact .ite .refl (.over [.ctxs, .tiles] rfl)

theorem doSwap_keepsBound (s : State) (sd : SwapData) : KeepsBound s (doSwap s sd) := by
  unfold doSwap
  refine .after (endRecovery_keepsBound ..) ?_
  refine .after (changes_dropOldChains ..).keepsBound ?_
  refine .after (tilesSwap_keepsBound ..) ?_
  refine .after (newVersionActive_keepsBound ..) ?_
  split
  · exact .after (changes_setStaged ..).keepsBound (.ite (.after (.over [.tiles, .imgs] rfl) (.after (changes_mapLost ..).keepsBound (.after
    (changes_mapRepairs ..).keepsBound (.after (wr_keepsBound ..) (.after (wr_keepsBound ..) (.after (.over [.ctxs, .noc, .fh, .pins] rfl) (.after
    (.over [.boot, .ctxs] rfl) (.over [.ctxs] rfl)))))))) (.after (changes_mapLost ..).keepsBound (.after (changes_mapRepairs ..).keepsBound
    (.after (wr_keepsBound ..) (.after (wr_keepsBound ..) (.after (.over [.ctxs, .noc, .fh, .pins] rfl) (.after (.over [.boot, .ctxs] rfl) (.over
    [.ctxs] rfl))))))))
  · exact .after (changes_setStaged ..).keepsBound (.after (wr_keepsBound ..) (.ite (.after (.over [.tiles, .imgs] rfl) (.after (changes_mapLost
    ..).keepsBound (.after (changes_mapRepairs ..).keepsBound (.after (wr_keepsBound ..) (.after (wr_keepsBound ..) (.after (.over [.ctxs, .noc,
    .fh, .pins] rfl) (.after (.over [.boot, .ctxs] rfl) (.over [.ctxs] rfl)))))))) (.after (changes_mapLost ..).keepsBound (.after
    (changes_mapRepairs ..).keepsBound (.after (wr_keepsBound ..) (.after (wr_keepsBound ..) (.after (.over [.ctxs, .noc, .fh, .pins] rfl) (.after
    (.over [.boot, .ctxs] rfl) (.over [.ctxs] rfl)))))))))

theorem runSwap_keepsBound (s : State) (sd : SwapData) : KeepsBound s (runSwap s sd) := by
  unfold runSwap
  exact .after (scheduleStage_keepsBound ..) (.after (enterRun_keepsBound ..) (.after (doSwap_keepsBound ..) (advanceTo_keepsBound ..)))

theorem spareExhaust_keepsBound (s : State) (t : Nat) : KeepsBound s (spareExhaust s t) := by
  unfold spareExhaust
  exact .after (fault_keepsBound ..) (wrBit_keepsBound ..)

theorem substitutionStart_keepsBound (s : State) (t : Nat) : KeepsBound s (substitutionStart t s) := by
  unfold substitutionStart
  exact .ite (.foldl (fun _ _ => by exact .after (spareExhaust_keepsBound ..) (.over [.tiles] rfl)) (.over [.tiles] rfl)) .refl

theorem mergeStatus_keepsBound (s : State) (u : MemUpdate) (refused : Bool) : KeepsBound s (mergeStatus s u refused) := by
  unfold mergeStatus
  split
  · exact .ite (.over [.outbox] rfl) .refl
  · exact .over [.noc] rfl
  · exact .ite (pathFailed_keepsBound ..) .refl

theorem copyWord_keepsBound (s : State) (b w : Nat) (f : WordFind) : KeepsBound s (copyWord s b w f) := by
  unfold copyWord
  split
  · exact .refl
  · refine .ite .refl ?_
    split
    · exact .refl
    · exact .refl
    · exact .after (fault_keepsBound ..) (.after (.over [.mem] rfl) (fresh_keepsBound ..))
    · exact .after (.over [.mem] rfl) (fresh_keepsBound ..)
    · exact .after (.over [.mem] rfl) (fresh_keepsBound ..)

theorem injectFabric_keepsBound (s : State) (init : Nat) (l : List (BitVec 512)) : KeepsBound s (injectFabric s init l) := by
  unfold injectFabric
  exact .ite .refl (.ite (.after (.over [.noc] rfl) (advanceTo_keepsBound ..)) (.after (issueFabric_keepsBound ..) (advanceTo_keepsBound ..)))

theorem matcherEvent_keepsBound (s : State) (m : Nat) : KeepsBound s (matcherEvent m s) := by
  unfold matcherEvent
  exact .ite (.ite (.after (changes_signalVector ..).keepsBound (.after (inc_keepsBound ..) (wr_keepsBound ..))) (.after (inc_keepsBound ..)
    (wr_keepsBound ..))) (.ite (.after (wake_keepsBound ..) (.ite (.after (changes_signalVector ..).keepsBound (.after (inc_keepsBound ..)
    (wr_keepsBound ..))) (.after (inc_keepsBound ..) (wr_keepsBound ..)))) (.ite (.after (.over [.boot] rfl) (.ite (.after (changes_signalVector
    ..).keepsBound (.after (inc_keepsBound ..) (wr_keepsBound ..))) (.after (inc_keepsBound ..) (wr_keepsBound ..)))) (.ite (.after
    (changes_signalVector ..).keepsBound (.after (inc_keepsBound ..) (wr_keepsBound ..))) (.after (inc_keepsBound ..) (wr_keepsBound ..)))))

theorem matcherEdge_keepsBound (s : State) (m : Nat) : KeepsBound s (matcherEdge s m) := by
  unfold matcherEdge
  exact .ite .refl (.ite (.after (matcherEvent_keepsBound ..) (wrb_keepsBound ..)) (wrb_keepsBound ..))

theorem matcherConfig_keepsBound (s : State) (m v : Nat) : KeepsBound s (matcherConfig m v s) := by
  unfold matcherConfig
  exact .ite (.after (wr_keepsBound ..) (.after (wr_keepsBound ..) (.after (wr_keepsBound ..) (.after (wr_keepsBound ..) (.after (wr_keepsBound ..)
    (wr_keepsBound ..)))))) (.ite (.after (wr_keepsBound ..) (.after (wr_keepsBound ..) (.after (wr_keepsBound ..) (.after (wr_keepsBound ..)
    (.after (wr_keepsBound ..) (.after (wr_keepsBound ..) (wr_keepsBound ..))))))) (.ite (.after (matcherEdge_keepsBound ..) (.after (wr_keepsBound
    ..) (.after (wr_keepsBound ..) (.after (wr_keepsBound ..) (wr_keepsBound ..))))) (.ite (.after (wrb_keepsBound ..) (.after (wr_keepsBound ..)
    (.after (wr_keepsBound ..) (.after (wr_keepsBound ..) (.after (wr_keepsBound ..) (wr_keepsBound ..)))))) (.after (matcherEdge_keepsBound ..)
    (.after (wr_keepsBound ..) (.after (wr_keepsBound ..) (.after (wr_keepsBound ..) (.after (wr_keepsBound ..) (wr_keepsBound ..)))))))))

theorem applyPolicy_keepsBound (s : State) : KeepsBound s (applyPolicy s) := by
  unfold applyPolicy
  exact .foldl (fun _ _ => (.ite (setCause_keepsBound ..) .refl)) (.ite .refl (changes_endCause ..).keepsBound)

theorem writeCtrl_keepsBound (s : State) (v : Nat) : KeepsBound s (writeCtrl v s) := by
  unfold writeCtrl
  exact .ite (.over [.regs] rfl) (.after (applyPolicy_keepsBound ..) (.foldl (fun _ _ => (wr_keepsBound ..)) (.ite (.after (wr_keepsBound ..) (.ite
    (wr_keepsBound ..) .refl)) (.ite (wr_keepsBound ..) .refl))))

theorem showSweeps_keepsBound (s : State) : KeepsBound s (showSweeps s) := by
  unfold showSweeps
  refine .foldl (fun _ _ => (wrb_keepsBound ..)) ?_
  split
  · exact .after (wr_keepsBound ..) (.after (wr_keepsBound ..) (wrb_keepsBound ..))
  · exact .after (wr_keepsBound ..) (wrb_keepsBound ..)

theorem startSweep_keepsBound (s : State) : KeepsBound s (startSweep s) := by
  unfold startSweep
  split
  · exact .refl
  · split
    · exact .after (wr_keepsBound ..) (.after (wr_keepsBound ..) (.over [.enc] rfl))
    · exact .after (wr_keepsBound ..) (.after (wr_keepsBound ..) (.over [.enc] rfl))
    · exact .after (wr_keepsBound ..) (.after (wr_keepsBound ..) (.after (wr_keepsBound ..) (.after (wr_keepsBound ..) (.after (changes_commit
      ..).keepsBound (.after (wr_keepsBound ..) (.over [.enc] rfl))))))

theorem queueSweep_keepsBound (s : State) (n : Nat) (k : SweepKind) : KeepsBound s (queueSweep s n k) := by
  unfold queueSweep
  exact .after (showSweeps_keepsBound ..) (.ite (.after (startSweep_keepsBound ..) (.over [.enc] rfl)) (.over [.enc] rfl))

theorem epochSweep_keepsBound (s : State) (n : Nat) : KeepsBound s (epochSweep s n) := by
  unfold epochSweep
  exact .ite .refl (.ite (fault_keepsBound ..) (queueSweep_keepsBound ..))

theorem installTag_keepsBound (s : State) (o : EncOp) : KeepsBound s (installTag s o) := by
  unfold installTag
  split
  · exact .ite (.after (epochSweep_keepsBound ..) (.over [.enc] rfl)) (.over [.enc] rfl)
  · exact .refl

theorem pprExhausted_keepsBound (s : State) (c e : Nat) : KeepsBound s (pprExhausted s c e) := by
  unfold pprExhausted
  exact .after (fault_keepsBound ..) (wr_keepsBound ..)

theorem startRepair_keepsBound (s : State) (c e : Nat) : KeepsBound s (startRepair s c e) := by
  unfold startRepair
  exact .ite (changes_setCtrl ..).keepsBound (.ite .refl (changes_setCtrl ..).keepsBound)

theorem rowLasting_keepsBound (s : State) (c e : Nat) : KeepsBound s (rowLasting s c e) := by
  unfold rowLasting
  exact .ite .refl (.ite (.after (pprExhausted_keepsBound ..) (changes_setCtrl ..).keepsBound) (.ite (.after (startRepair_keepsBound ..)
    (changes_setCtrl ..).keepsBound) (changes_setCtrl ..).keepsBound))

theorem rowEvent_keepsBound (s : State) (c loc : Nat) (unc : Bool) (symbol : Nat) : KeepsBound s (rowEvent s c loc unc symbol) := by
  unfold rowEvent
  dsimp only
  split
  · exact inc_keepsBound ..
  · exact .ite (.after (rowLasting_keepsBound ..) (.ite (.after (wr_keepsBound ..) (.after (wr_keepsBound ..) (.after (wr_keepsBound ..) (.after
    (wr_keepsBound ..) (.ite (.after (wr_keepsBound ..) (.after (wrb_keepsBound ..) (.after (wr_keepsBound ..) (.after (wr_keepsBound ..) (.after
    (wr_keepsBound ..) (.after (wr_keepsBound ..) (.after (wr_keepsBound ..) (.after (wr_keepsBound ..) (.after (changes_setCtrl ..).keepsBound
    (.ite (inc_keepsBound ..) (inc_keepsBound ..))))))))))) (.after (wrb_keepsBound ..) (.after (wr_keepsBound ..) (.after (wr_keepsBound ..)
    (.after (wr_keepsBound ..) (.after (wr_keepsBound ..) (.after (wr_keepsBound ..) (.after (wr_keepsBound ..) (.after (changes_setCtrl
    ..).keepsBound (.ite (inc_keepsBound ..) (inc_keepsBound ..))))))))))))))) (.after (wr_keepsBound ..) (.after (wr_keepsBound ..) (.after
    (wr_keepsBound ..) (.ite (.after (wr_keepsBound ..) (.after (wrb_keepsBound ..) (.after (wr_keepsBound ..) (.after (wr_keepsBound ..) (.after
    (wr_keepsBound ..) (.after (wr_keepsBound ..) (.after (wr_keepsBound ..) (.after (wr_keepsBound ..) (.after (changes_setCtrl ..).keepsBound
    (.ite (inc_keepsBound ..) (inc_keepsBound ..))))))))))) (.after (wrb_keepsBound ..) (.after (wr_keepsBound ..) (.after (wr_keepsBound ..)
    (.after (wr_keepsBound ..) (.after (wr_keepsBound ..) (.after (wr_keepsBound ..) (.after (wr_keepsBound ..) (.after (changes_setCtrl
    ..).keepsBound (.ite (inc_keepsBound ..) (inc_keepsBound ..)))))))))))))))) (.ite (.after (wr_keepsBound ..) (.after (wr_keepsBound ..) (.after
    (wr_keepsBound ..) (.after (wr_keepsBound ..) (.ite (.after (wr_keepsBound ..) (.after (wrb_keepsBound ..) (.after (wr_keepsBound ..) (.after
    (wr_keepsBound ..) (.after (wr_keepsBound ..) (.after (wr_keepsBound ..) (.after (wr_keepsBound ..) (.after (wr_keepsBound ..) (.after
    (changes_setCtrl ..).keepsBound (.ite (inc_keepsBound ..) (inc_keepsBound ..))))))))))) (.after (wrb_keepsBound ..) (.after (wr_keepsBound ..)
    (.after (wr_keepsBound ..) (.after (wr_keepsBound ..) (.after (wr_keepsBound ..) (.after (wr_keepsBound ..) (.after (wr_keepsBound ..) (.after
    (changes_setCtrl ..).keepsBound (.ite (inc_keepsBound ..) (inc_keepsBound ..))))))))))))))) (.after (wr_keepsBound ..) (.after (wr_keepsBound
    ..) (.after (wr_keepsBound ..) (.ite (.after (wr_keepsBound ..) (.after (wrb_keepsBound ..) (.after (wr_keepsBound ..) (.after (wr_keepsBound
    ..) (.after (wr_keepsBound ..) (.after (wr_keepsBound ..) (.after (wr_keepsBound ..) (.after (wr_keepsBound ..) (.after (changes_setCtrl
    ..).keepsBound (.ite (inc_keepsBound ..) (inc_keepsBound ..))))))))))) (.after (wrb_keepsBound ..) (.after (wr_keepsBound ..) (.after
    (wr_keepsBound ..) (.after (wr_keepsBound ..) (.after (wr_keepsBound ..) (.after (wr_keepsBound ..) (.after (wr_keepsBound ..) (.after
    (changes_setCtrl ..).keepsBound (.ite (inc_keepsBound ..) (inc_keepsBound ..)))))))))))))))

theorem answerLine_keepsBound (s : State) (init tag st : Nat) (d : BitVec 512) (late : Nat) : KeepsBound s (answerLine s init tag st d late) := by
  unfold answerLine
  dsimp only
  split
  · exact .over [.enc] rfl
  · exact .after (.over [.noc] rfl) (.ite (.over [.enc] rfl) (.after (.over [.noc] rfl) (.over [.enc] rfl)))

theorem endOp_keepsBound (s : State) (init tag st : Nat) (d : BitVec 512) (late : Nat) : KeepsBound s (endOp s init tag st d late) := by
  unfold endOp
  exact .after (answerLine_keepsBound ..) (.over [.dram] rfl)

theorem logFail_keepsBound (s : State) (pa init : Nat) (denial : Bool) (cls : Nat) : KeepsBound s (logFail s pa init denial cls) := by
  unfold logFail
  exact .after (fault_keepsBound ..) (.after (wr_keepsBound ..) (.after (wr_keepsBound ..) (.after (wr_keepsBound ..) (wrb_keepsBound ..))))

theorem logIntegrity_keepsBound (s : State) (pa init cls : Nat) : KeepsBound s (logIntegrity s pa init cls) := by
  unfold logIntegrity
  exact .after (logFail_keepsBound ..) (inc_keepsBound ..)

theorem loseMeta_keepsBound (s : State) (n m pa init cls : Nat) : KeepsBound s (loseMeta s n m pa init cls) := by
  unfold loseMeta
  exact .after (logIntegrity_keepsBound ..) (.over [.enc] rfl)

theorem metaBad_keepsBound (s : State) (q : DramReq) : KeepsBound s (metaBad s q) := by
  unfold metaBad
  refine .after (.over [.enc] rfl) ?_
  refine .foldl (fun _ _ => (endOp_keepsBound ..)) ?_
  split
  · exact loseMeta_keepsBound ..
  · exact .refl

theorem mr4Poll_keepsBound (s : State) (c : Nat) (readings : List Nat) : KeepsBound s (mr4Poll c readings s) := by
  unfold mr4Poll
  exact .ite .refl (.ite (.after (fault_keepsBound ..) (.after (wr_keepsBound ..) (changes_setCtrl ..).keepsBound)) (changes_setCtrl ..).keepsBound)

theorem retainedLost_keepsBound (s : State) (c : Nat) : KeepsBound s (retainedLost s c) := by
  unfold retainedLost
  exact .ite .refl (.after (fault_keepsBound ..) (.after (wr_keepsBound ..) (.foldl (fun _ _ => (wr_keepsBound ..)) (.over [.imgs] rfl))))

theorem drainOn_keepsBound (s : State) (c : Nat) : KeepsBound s (drainOn s c) := by
  unfold drainOn
  split
  · exact (changes_selfRefresh ..).keepsBound
  · exact .refl

theorem nextSoftRepair_keepsBound (s : State) (c : Nat) : KeepsBound s (nextSoftRepair s c) := by
  unfold nextSoftRepair
  exact .foldl (fun _ _ => (.ite .refl (.ite (changes_setCtrl ..).keepsBound (.ite (.after (startRepair_keepsBound ..) (changes_setCtrl
    ..).keepsBound) (.after (pprExhausted_keepsBound ..) (changes_setCtrl ..).keepsBound))))) .refl

theorem repairDone_keepsBound (s : State) (c : Nat) (bad : List (Fin 128)) (fixed : List (Fin 128 × Fin 40)) : KeepsBound s (repairDone c bad fixed
  s) := by
  unfold repairDone
  split
  · exact .refl
  · exact .after (drainOn_keepsBound ..) (.after (nextSoftRepair_keepsBound ..) (.ite (.after (wr_keepsBound ..) (.after (wrBit_keepsBound ..)
    (.after (changes_setCtrl ..).keepsBound (.foldl (fun _ _ => (.ite .refl (.after (rowEvent_keepsBound ..) (.after (fault_keepsBound ..)
    (changes_putLine ..).keepsBound)))) (.foldl (fun _ _ => (rowEvent_keepsBound ..)) .refl))))) (.after (wrBit_keepsBound ..) (.after
    (changes_setCtrl ..).keepsBound (.foldl (fun _ _ => (.ite .refl (.after (rowEvent_keepsBound ..) (.after (fault_keepsBound ..) (changes_putLine
    ..).keepsBound)))) (.foldl (fun _ _ => (rowEvent_keepsBound ..)) .refl))))))

theorem logDenial_keepsBound (s : State) (pa init cls : Nat) : KeepsBound s (logDenial s pa init cls) := by
  unfold logDenial
  exact .after (logFail_keepsBound ..) (.after (inc_keepsBound ..) (.over [.regs] rfl))

theorem dirtyMeta_keepsBound (s : State) (n line : Nat) : KeepsBound s (dirtyMeta s n line) := by
  unfold dirtyMeta
  exact .foldl (fun _ _ => by exact .over [.enc] rfl) .refl

theorem holdWrite_keepsBound (s : State) (init tag : Nat) : KeepsBound s (holdWrite s init tag) := by
  unfold holdWrite
  exact .ite .refl (.after (inc_keepsBound ..) (.over [.enc] rfl))

theorem encWrite_keepsBound (s : State) (o : EncOp) (n : Nat) : KeepsBound s (encWrite s o n) := by
  unfold encWrite
  split
  · exact .after (holdWrite_keepsBound ..) (.over [.enc] rfl)
  · exact .after (.over [.enc] rfl) (.over [.enc] rfl)

theorem encReadComplete_keepsBound (s : State) (init tag : Nat) : KeepsBound s (encReadComplete init tag s) := by
  unfold encReadComplete
  split
  · exact .refl
  · split
    · refine .ite .refl ?_
      refine .ite (.ite (answerLine_keepsBound ..) (.after (answerLine_keepsBound ..) (fresh_keepsBound ..))) ?_
      refine .ite (answerLine_keepsBound ..) ?_
      split
      · exact answerLine_keepsBound ..
      · refine .ite (answerLine_keepsBound ..) ?_
        split
        · exact .after (answerLine_keepsBound ..) (.after (logIntegrity_keepsBound ..) (.after (dirtyMeta_keepsBound ..) (.over [.enc] rfl)))
        · exact .ite (answerLine_keepsBound ..) (encWrite_keepsBound ..)
    · exact .refl

theorem storeTraffic_keepsBound (s : State) (i bytes : Nat) : KeepsBound s (storeTraffic s i bytes) := by
  unfold storeTraffic
  exact .ite .refl (.foldl (fun _ _ => (.after (inc_keepsBound ..) (fresh_keepsBound ..))) (.after (wr_keepsBound ..) (wr_keepsBound ..)))

theorem wayCounts_keepsBound (s : State) (init t0 : Nat) (w : NetWay) : KeepsBound s (wayCounts s init t0 w) := by
  unfold wayCounts
  split
  · exact .refl
  · exact .refl
  · exact inc_keepsBound ..
  · exact .after (fault_keepsBound ..) (inc_keepsBound ..)
  · exact .after (inc_keepsBound ..) (.after (advanceTo_keepsBound ..) (fault_keepsBound ..))

theorem streamEnd_keepsBound (s : State) (net : NetWay) : KeepsBound s (streamEnd net s) := by
  unfold streamEnd
  split
  · exact .refl
  · refine .ite .refl ?_
    refine .after (storeTraffic_keepsBound ..) ?_
    refine .ite (.after (endLoad_keepsBound ..) (wayCounts_keepsBound ..)) ?_
    refine .ite (endLoad_keepsBound ..) ?_
    split
    · exact .over [.regs, .imgs] rfl
    · exact endLoad_keepsBound ..

theorem queueRepair_keepsBound (s : State) (r : Repair) : KeepsBound s (queueRepair s r) := by
  unfold queueRepair
  exact .ite .refl (.after (changes_showRepairs ..).keepsBound (.over [.integ] rfl))

theorem chainRead_keepsBound (s : State) (b : Bool) : KeepsBound s (chainRead s b) := by
  unfold chainRead
  exact .after (storeTraffic_keepsBound ..) (fresh_keepsBound ..)

theorem frameLasting_keepsBound (s : State) (r : Repair) : KeepsBound s (frameLasting s r) := by
  unfold frameLasting
  exact .ite (fault_keepsBound ..) (.ite (fault_keepsBound ..) (.ite .refl (.ite (fault_keepsBound ..) (changes_setDistrict ..).keepsBound)))

theorem lastRepair_keepsBound (s : State) (r : Repair) (src : Nat) : KeepsBound s (lastRepair s r src) := by
  unfold lastRepair
  exact .after (wr_keepsBound ..) (.after (wrb_keepsBound ..) (.after (wrb_keepsBound ..) (.after (wr_keepsBound ..) (wr_keepsBound ..))))

theorem putSig_keepsBound (s : State) (r : Repair) (g : BitVec 64) : KeepsBound s (putSig s r g) := by
  unfold putSig
  exact .ite (.over [.ctxs] rfl) (.over [.ctxs] rfl)

theorem rebuildSig_keepsBound (s : State) (r : Repair) : KeepsBound s (rebuildSig s r) := by
  unfold rebuildSig
  split
  · exact .after (chainRead_keepsBound ..) (.ite (.after (frameLasting_keepsBound ..) (.after (countEvent_keepsBound ..) (.after
    (lastRepair_keepsBound ..) (.after (inc_keepsBound ..) (putSig_keepsBound ..))))) (.after (countEvent_keepsBound ..) (.after
    (lastRepair_keepsBound ..) (.after (inc_keepsBound ..) (putSig_keepsBound ..)))))
  · exact .after (putSig_keepsBound ..) (fresh_keepsBound ..)

theorem latchCheck_keepsBound (s : State) (f : Nat) (staged : Bool) (held : Option Frame) (written entryBad : Bool) : KeepsBound s (latchCheck f
  staged held written entryBad s) := by
  unfold latchCheck
  refine .ite ?_ ?_
  · split
    · exact .over [.ctxs] rfl
    · exact .refl
  · refine .ite ?_ ?_
    · split
      · exact .over [.ctxs] rfl
      · exact .refl
    · refine .ite ?_ ?_
      · refine .after (queueRepair_keepsBound ..) ?_
        refine .after (injectionLogged_keepsBound ..) ?_
        split
        · exact .over [.ctxs] rfl
        · exact .refl
      · refine .ite ?_ ?_
        · refine .ite ?_ ?_
          · refine .after (rebuildSig_keepsBound ..) ?_
            split
            · exact .over [.ctxs] rfl
            · exact .refl
          · split
            · exact .over [.ctxs] rfl
            · exact .refl
        · refine .after (queueRepair_keepsBound ..) ?_
          refine .ite ?_ ?_
          · refine .after (rebuildSig_keepsBound ..) ?_
            split
            · exact .over [.ctxs] rfl
            · exact .refl
          · split
            · exact .over [.ctxs] rfl
            · exact .refl

theorem raiseInternalFault_keepsBound (s : State) (unit : Nat) : KeepsBound s (raiseInternalFault s unit) := by
  unfold raiseInternalFault
  exact .ite (.after (setCause_keepsBound ..) (.after (changes_selfFault ..).keepsBound (.after (.overLog [.safe] rfl rfl) (.after
    (fault_keepsBound ..) (wr_keepsBound ..))))) (.after (.overLog [.safe] rfl rfl) (.after (fault_keepsBound ..) (wr_keepsBound ..)))

theorem frameCheck_keepsBound (s : State) (b : Bool) (held : Option Frame) (entryBad : Bool) : KeepsBound s (frameCheck b held entryBad s) := by
  unfold frameCheck
  refine .ite .refl ?_
  refine .ite ?_ ?_
  · split
    · refine .ite ?_ ?_
      · refine .after (endLoad_keepsBound ..) ?_
        split
        · exact .after (.over [.ctxs] rfl) (.after (.over [.integ] rfl) (advanceTo_keepsBound ..))
        · exact .after (.over [.integ] rfl) (advanceTo_keepsBound ..)
      · split
        · exact .after (.over [.ctxs] rfl) (.after (.over [.integ] rfl) (advanceTo_keepsBound ..))
        · exact .after (.over [.integ] rfl) (advanceTo_keepsBound ..)
    · split
      · exact .after (.over [.ctxs] rfl) (.after (.over [.integ] rfl) (advanceTo_keepsBound ..))
      · exact .after (.over [.integ] rfl) (advanceTo_keepsBound ..)
  · refine .ite ?_ ?_
    · split
      · exact .after (.over [.ctxs] rfl) (.after (.over [.integ] rfl) (advanceTo_keepsBound ..))
      · exact .after (.over [.integ] rfl) (advanceTo_keepsBound ..)
    · refine .ite ?_ ?_
      · refine .after (queueRepair_keepsBound ..) ?_
        refine .after (injectionLogged_keepsBound ..) ?_
        refine .ite ?_ ?_
        · refine .after (rebuildSig_keepsBound ..) ?_
          split
          · exact .after (.over [.ctxs] rfl) (.after (.over [.integ] rfl) (advanceTo_keepsBound ..))
          · exact .after (.over [.integ] rfl) (advanceTo_keepsBound ..)
        · split
          · exact .after (.over [.ctxs] rfl) (.after (.over [.integ] rfl) (advanceTo_keepsBound ..))
          · exact .after (.over [.integ] rfl) (advanceTo_keepsBound ..)
      · refine .ite ?_ ?_
        · refine .ite ?_ ?_
          · refine .after (rebuildSig_keepsBound ..) ?_
            split
            · exact .after (.over [.ctxs] rfl) (.after (.over [.integ] rfl) (advanceTo_keepsBound ..))
            · exact .after (.over [.integ] rfl) (advanceTo_keepsBound ..)
          · split
            · exact .after (.over [.ctxs] rfl) (.after (.over [.integ] rfl) (advanceTo_keepsBound ..))
            · exact .after (.over [.integ] rfl) (advanceTo_keepsBound ..)
        · refine .after (queueRepair_keepsBound ..) ?_
          refine .ite ?_ ?_
          · refine .after (rebuildSig_keepsBound ..) ?_
            split
            · exact .after (.over [.ctxs] rfl) (.after (.over [.integ] rfl) (advanceTo_keepsBound ..))
            · exact .after (.over [.integ] rfl) (advanceTo_keepsBound ..)
          · split
            · exact .after (.over [.ctxs] rfl) (.after (.over [.integ] rfl) (advanceTo_keepsBound ..))
            · exact .after (.over [.integ] rfl) (advanceTo_keepsBound ..)

theorem shadowFault_keepsBound (s : State) (code : Nat) : KeepsBound s (shadowFault s code) := by
  unfold shadowFault
  exact .after (.over [.pair] rfl) (.after (changes_sendControl ..).keepsBound (.after (.over [.pair] rfl) (wr_keepsBound ..)))

theorem repairLost_keepsBound (s : State) (r : Repair) : KeepsBound s (repairLost s r) := by
  unfold repairLost
  exact .after (setCause_keepsBound ..) (.ite (.ite (.after (lastRepair_keepsBound ..) (fault_keepsBound ..)) (.after (changes_showRepairs
    ..).keepsBound (.after (.over [.integ] rfl) (.after (lastRepair_keepsBound ..) (fault_keepsBound ..))))) (.ite (.after (shadowFault_keepsBound
    ..) (.ite (.after (lastRepair_keepsBound ..) (fault_keepsBound ..)) (.after (changes_showRepairs ..).keepsBound (.after (.over [.integ] rfl)
    (.after (lastRepair_keepsBound ..) (fault_keepsBound ..)))))) (.after (changes_selfFault ..).keepsBound (.ite (.after (lastRepair_keepsBound
    ..) (fault_keepsBound ..)) (.after (changes_showRepairs ..).keepsBound (.after (.over [.integ] rfl) (.after (lastRepair_keepsBound ..)
    (fault_keepsBound ..))))))))

theorem internalFaultDelay_keepsBound (s : State) : KeepsBound s (internalFaultDelay s) := by
  unfold internalFaultDelay
  split
  · exact .ite .refl (.after (setCause_keepsBound ..) (advanceTo_keepsBound ..))
  · exact .refl

theorem drainExpired_keepsBound (s : State) (q : Nat) : KeepsBound s (drainExpired q s) := by
  unfold drainExpired
  split
  · exact .refl
  · refine .ite .refl ?_
    refine .after (raiseInternalFault_keepsBound ..) ?_
    split
    · exact .after (changes_finish ..).keepsBound (.after (.over [.link] rfl) (advanceTo_keepsBound ..))
    · exact .after (.over [.link] rfl) (advanceTo_keepsBound ..)

theorem overrun_keepsBound (s : State) (id : Nat) : KeepsBound s (overrun id s) := by
  unfold overrun
  split
  · exact .refl
  · split
    · exact .refl
    · exact .ite .refl (.after (fault_keepsBound ..) (.after (changes_mapTrack ..).keepsBound (advanceTo_keepsBound ..)))

theorem throughNet_keepsBound (s : State) (r : NocReq) (f : AccessFind) (st : Nat) (l : List Byte) : KeepsBound s (throughNet s r f st l).2 := by
  unfold throughNet
  dsimp only
  split
  · exact .after (wayCounts_keepsBound ..) (.ite .refl (inc_keepsBound ..))
  · exact .after (wayCounts_keepsBound ..) (.ite .refl (inc_keepsBound ..))
  · exact .after (wayCounts_keepsBound ..) (.ite .refl (inc_keepsBound ..))
  · exact .after (wayCounts_keepsBound ..) (.ite .refl (inc_keepsBound ..))
  · exact .after (wayCounts_keepsBound ..) (.ite .refl (inc_keepsBound ..))

theorem writeHost_keepsBound (s : State) (addr : Nat) (d : List Byte) : KeepsBound s (writeHost s addr d) := by
  unfold writeHost
  exact .ite (.over [.outbox] rfl) .refl

theorem modeRunSet_keepsBound (s : State) (sd : SwapData) (t : Track) : KeepsBound s (modeRunSet sd t s) := by
  unfold modeRunSet
  exact .ite (changes_finish ..).keepsBound (.ite (changes_finish ..).keepsBound (.ite (changes_finish ..).keepsBound (.ite (.after
    (runSwap_keepsBound ..) (.after (wr_keepsBound ..) (.over [.boot] rfl))) (.ite (changes_finish ..).keepsBound (.after (startStaging_keepsBound
    ..) (.after (wr_keepsBound ..) (.over [.boot] rfl)))))))

theorem setTrim_keepsBound (s : State) (v : Int) : KeepsBound s (setTrim s v) := by
  unfold setTrim
  exact .ite (wr_keepsBound ..) (.after (fault_keepsBound ..) (.after (wr_keepsBound ..) (wr_keepsBound ..)))

theorem initialTrim_keepsBound (s : State) (count expected : Nat) : KeepsBound s (initialTrim s count expected) := by
  unfold initialTrim
  exact .after (setTrim_keepsBound ..) (wr_keepsBound ..)

theorem upllFail_keepsBound (s : State) (k : Nat) : KeepsBound s (upllFail k s) := by
  unfold upllFail
  exact .ite (.after (fault_keepsBound ..) (.after (wr_keepsBound ..) (.after (wr_keepsBound ..) (wr_keepsBound ..)))) .refl

theorem wicketTrim_keepsBound (s : State) (codes : Int) : KeepsBound s (wicketTrim codes s) := by
  unfold wicketTrim
  exact .ite (wr_keepsBound ..) (.after (setTrim_keepsBound ..) (wr_keepsBound ..))

theorem backupCheck_keepsBound (s : State) (permille : Nat) : KeepsBound s (backupCheck permille s) := by
  unfold backupCheck
  exact .ite .refl (.after (fault_keepsBound ..) (.after (wr_keepsBound ..) (wr_keepsBound ..)))

theorem growOutage_keepsBound (s : State) : KeepsBound s (growOutage s) := by
  unfold growOutage
  exact .ite (.over [.tim] rfl) .refl

theorem timeErrorCause_keepsBound (s : State) (te : Bool) : KeepsBound s (timeErrorCause s te) := by
  unfold timeErrorCause
  exact .ite (setCause_keepsBound ..) (changes_endCause ..).keepsBound

theorem showTiming_keepsBound (s : State) (te : Bool) : KeepsBound s (showTiming s te) := by
  unfold showTiming
  refine .ite ?_ ?_
  · refine .after (changes_raiseEvent ..).keepsBound ?_
    split
    · exact .ite (.after (wr_keepsBound ..) (.after (wr_keepsBound ..) (.after (wrb_keepsBound ..) (.after (wrb_keepsBound ..) (.after
      (wr_keepsBound ..) (.after (wrb_keepsBound ..) (.after (wr_keepsBound ..) (.after (wr_keepsBound ..) (wr_keepsBound ..))))))))) (.after
      (wr_keepsBound ..) (.after (wrb_keepsBound ..) (.after (wrb_keepsBound ..) (.after (wr_keepsBound ..) (.after (wrb_keepsBound ..) (.after
      (wr_keepsBound ..) (.after (wr_keepsBound ..) (wr_keepsBound ..))))))))
    · exact .after (wr_keepsBound ..) (.after (wrb_keepsBound ..) (.after (wrb_keepsBound ..) (.after (wr_keepsBound ..) (.after (wrb_keepsBound
      ..) (.after (wr_keepsBound ..) (.after (wr_keepsBound ..) (wr_keepsBound ..)))))))
  · split
    · exact .ite (.after (wr_keepsBound ..) (.after (wr_keepsBound ..) (.after (wrb_keepsBound ..) (.after (wrb_keepsBound ..) (.after
      (wr_keepsBound ..) (.after (wrb_keepsBound ..) (.after (wr_keepsBound ..) (.after (wr_keepsBound ..) (wr_keepsBound ..))))))))) (.after
      (wr_keepsBound ..) (.after (wrb_keepsBound ..) (.after (wrb_keepsBound ..) (.after (wr_keepsBound ..) (.after (wrb_keepsBound ..) (.after
      (wr_keepsBound ..) (.after (wr_keepsBound ..) (wr_keepsBound ..))))))))
    · exact .after (wr_keepsBound ..) (.after (wrb_keepsBound ..) (.after (wrb_keepsBound ..) (.after (wr_keepsBound ..) (.after (wrb_keepsBound
      ..) (.after (wr_keepsBound ..) (.after (wr_keepsBound ..) (wr_keepsBound ..)))))))

theorem timePllLoss_keepsBound (s : State) : KeepsBound s (timePllLoss s) := by
  unfold timePllLoss
  exact .ite .refl (.ite (.after (wr_keepsBound ..) (growOutage_keepsBound ..)) (.after (timeErrorCause_keepsBound ..) (.after
    (showTiming_keepsBound ..) (.after (.over [.tim] rfl) (.after (.over [.tim] rfl) (.after (wr_keepsBound ..) (growOutage_keepsBound ..)))))))

theorem timeInjection_keepsBound (s : State) : KeepsBound s (timeInjection s) := by
  unfold timeInjection
  exact .after (injectionEnd_keepsBound ..) (fault_keepsBound ..)

theorem takeChannel_keepsBound (s : State) (c code : Nat) : KeepsBound s (takeChannel s c code) := by
  unfold takeChannel
  exact .ite .refl (.ite (wr_keepsBound ..) (.ite (.after (.over [.wkt] rfl) (wr_keepsBound ..)) (.ite (.after (.over [.wkt] rfl) (wr_keepsBound
    ..)) (.after (fault_keepsBound ..) (.after (wr_keepsBound ..) (.after (.over [.wkt] rfl) (wr_keepsBound ..)))))))

theorem takeSensor_keepsBound (s : State) (n code : Nat) : KeepsBound s (takeSensor s n code) := by
  unfold takeSensor
  exact .ite (wr_keepsBound ..) (.ite (.after (fault_keepsBound ..) (.after (wr_keepsBound ..) (.after (wrb_keepsBound ..) (wr_keepsBound ..))))
    (.after (wrb_keepsBound ..) (wr_keepsBound ..)))

theorem plausible_keepsBound (s : State) (z : Nat) : KeepsBound s (plausible s z) := by
  unfold plausible
  exact .ite (wr_keepsBound ..) (.after (fault_keepsBound ..) (.after (wr_keepsBound ..) (.after (wr_keepsBound ..) (wr_keepsBound ..))))

theorem estimates_keepsBound (s : State) (a : Vector Nat 20) : KeepsBound s (estimates a s) := by
  unfold estimates
  exact .ite .refl (.ite .refl (.foldl (fun _ _ => (.after (plausible_keepsBound ..) (.after (wr_keepsBound ..) (wr_keepsBound ..)))) (.over [.wkt]
    rfl)))

theorem injectedRound_keepsBound (s : State) : KeepsBound s (injectedRound s) := by
  unfold injectedRound
  split
  · refine .ite .refl ?_
    split
    · exact .refl
    · exact .ite .refl (.after (injectionEnd_keepsBound ..) (.foldl (fun _ _ => (.ite .refl (fault_keepsBound ..))) .refl))
  · exact .refl

theorem roundCauses_keepsBound (s : State) : KeepsBound s (roundCauses s) := by
  unfold roundCauses
  exact .ite (.after (setCause_keepsBound ..) (.ite (setCause_keepsBound ..) .refl)) (.ite (setCause_keepsBound ..) .refl)

theorem thCrossing_keepsBound (s : State) (k : Nat) (reached : Bool) : KeepsBound s (thCrossing s k reached) := by
  unfold thCrossing
  exact .ite (.after (changes_raiseEvent ..).keepsBound (.after (history_keepsBound ..) (changes_setHeld ..).keepsBound)) (.after
    (history_keepsBound ..) (changes_setHeld ..).keepsBound)

theorem evalThreshold_keepsBound (s : State) (k : Nat) : KeepsBound s (evalThreshold s k) := by
  unfold evalThreshold
  exact .ite (thCrossing_keepsBound ..) (.ite (thCrossing_keepsBound ..) .refl)

theorem thermPin_keepsBound (s : State) : KeepsBound s (thermPin s) := by
  unfold thermPin
  refine .ite ?_ (.over [.wkt] rfl)
  split
  · exact .ite (.after (wake_keepsBound ..) (.over [.wkt] rfl)) (.over [.wkt] rfl)
  · exact .over [.wkt] rfl

theorem resolveMismatch_keepsBound (s : State) : KeepsBound s (resolveMismatch s) := by
  unfold resolveMismatch
  split
  · exact .ite (.over [.pair] rfl) (.ite (.after (.over [.pair] rfl) (.after (wr_keepsBound ..) (.after (fault_keepsBound ..) (.over [.pair]
    rfl)))) (.ite (.ite (.after (changes_decideTakeover ..).keepsBound (.over [.pair] rfl)) (.over [.pair] rfl)) (.ite (.after (changes_shadowUnfit
    ..).keepsBound (.over [.pair] rfl)) (.after (wr_keepsBound ..) (.after (changes_startResync ..).keepsBound (.over [.pair] rfl))))))
  · exact .refl

theorem ownTime_keepsBound (s : State) : KeepsBound s (ownTime s) := by
  unfold ownTime
  exact .ite (.after (timeErrorCause_keepsBound ..) (.after (showTiming_keepsBound ..) (.over [.tim] rfl))) .refl

theorem endCycle_keepsBound (s : State) : KeepsBound s (endCycle s) := by
  unfold endCycle
  exact .ite .refl (.after (wr_keepsBound ..) (.overLog [.safe] rfl rfl))

theorem bistCount_keepsBound (s : State) (ran moved : Bool) : KeepsBound s (bistCount s ran moved) := by
  unfold bistCount
  split
  · exact .refl
  · exact .ite (.overLog [.safe] rfl rfl) (.after (changes_finish ..).keepsBound (.overLog [.safe] rfl rfl))

theorem settleSlice_keepsBound (s : State) (n : Nat) (ran : Bool) : KeepsBound s (settleSlice s n ran) := by
  unfold settleSlice
  exact .after (endCycle_keepsBound ..) (.after (bistCount_keepsBound ..) (.overLog [.safe] rfl rfl))

theorem skipSlice_keepsBound (s : State) (n : Nat) : KeepsBound s (skipSlice s n) := by
  unfold skipSlice
  exact .after (settleSlice_keepsBound ..) (inc_keepsBound ..)

theorem injectionTimeout_keepsBound (s : State) : KeepsBound s (injectionTimeout s) := by
  unfold injectionTimeout
  split
  · exact .refl
  · exact .after (injectionEnd_keepsBound ..) (advanceTo_keepsBound ..)

theorem takePort_keepsBound (s : State) (n : Nat) (d : PinDrive) : KeepsBound s (takePort s n d) := by
  unfold takePort
  exact .ite (.ite (.after (.over [.outbox] rfl) (.over [.pins] rfl)) (.over [.pins] rfl)) .refl

theorem presentPins_keepsBound (s : State) : KeepsBound s (presentPins s) := by
  unfold presentPins
  exact .ite .refl (.foldl (fun _ _ => (.ite (takePort_keepsBound ..) .refl)) .refl)

theorem railCheck_keepsBound (s : State) : KeepsBound s (railCheck s) := by
  unfold railCheck
  exact .ite .refl (.ite (.after (changes_enterStage ..).keepsBound (.foldl (fun _ _ => (changes_identifyBank ..).keepsBound) .refl)) (.after
    (changes_haltBoot ..).keepsBound (.foldl (fun _ _ => (changes_identifyBank ..).keepsBound) .refl)))

theorem setMarginLow_keepsBound (s : State) (c g : Nat) : KeepsBound s (setMarginLow s c g) := by
  unfold setMarginLow
  exact .foldl (fun _ _ => (wrBit_keepsBound ..)) .refl

theorem dropRepair_keepsBound (s : State) (c res : Nat) : KeepsBound s (dropRepair c s res) := by
  unfold dropRepair
  dsimp only
  split
  · exact .refl
  · split
    · exact .after (fault_keepsBound ..) (.after (wrBit_keepsBound ..) (changes_setCtrl ..).keepsBound)
    · exact .after (fault_keepsBound ..) (.after (fresh_keepsBound ..) (.after (wrBit_keepsBound ..) (changes_setCtrl ..).keepsBound))

theorem laneTo_keepsBound (s : State) (n st : Nat) : KeepsBound s (laneTo s n st) := by
  unfold laneTo
  exact .after (wr_keepsBound ..) (.ite (.ite (.after (inc_keepsBound ..) (changes_setLane ..).keepsBound) (changes_setLane ..).keepsBound) (.after
    (wr_keepsBound ..) (.after (changes_setRclk ..).keepsBound (.after (wr_keepsBound ..) (.ite (.after (inc_keepsBound ..) (changes_setLane
    ..).keepsBound) (changes_setLane ..).keepsBound)))))

theorem startLane_keepsBound (s : State) (n : Nat) : KeepsBound s (startLane s n) := by
  unfold startLane
  exact .ite .refl (.ite (wr_keepsBound ..) (.after (wr_keepsBound ..) (laneTo_keepsBound ..)))

theorem wakePins_keepsBound (s : State) : KeepsBound s (wakePins s) := by
  unfold wakePins
  exact .ite .refl (.after (onlyParts_showOwners ..).keepsBound (.after (.over [.pins] rfl) (.foldl (fun _ _ => (changes_startHandover
    ..).keepsBound) .refl)))

theorem bootComplete_keepsBound (s : State) : KeepsBound s (bootComplete s) := by
  unfold bootComplete
  exact .ite (.foldl (fun _ _ => (startLane_keepsBound ..)) (.after (wakePins_keepsBound ..) (setMode_keepsBound ..))) .refl

theorem spareSwitch_keepsBound (s : State) (b k : Nat) : KeepsBound s (spareSwitch s b k) := by
  unfold spareSwitch
  refine .after (changes_setDegraded ..).keepsBound ?_
  refine .after (fault_keepsBound ..) ?_
  refine .after (wrb_keepsBound ..) ?_
  refine .after (.overLog [.safe, .mem] rfl rfl) ?_
  refine .after (inc_keepsBound ..) ?_
  refine .after (wr_keepsBound ..) ?_
  refine .after (wrBit_keepsBound ..) ?_
  split
  · exact wrBit_keepsBound ..
  · exact .refl

theorem spareTakes_keepsBound (s : State) (t : Nat) : KeepsBound s (spareTakes t s) := by
  unfold spareTakes
  exact .after (changes_setDegraded ..).keepsBound (.after (fault_keepsBound ..) (.after (wr_keepsBound ..) (.after (wr_keepsBound ..)
    (wrBit_keepsBound ..))))

theorem clearDevice_keepsBound (s : State) : KeepsBound s (clearDevice s) := by
  unfold clearDevice
  exact .after (changes_showFuses ..).keepsBound (.after (changes_drawNonce ..).keepsBound (.after (.overLog [.regs, .boot, .stack, .safe, .ctxs,
    .tiles, .mem, .noc, .dram, .enc, .link, .imgs, .integ, .dmas, .fh, .tim, .pins, .pair] rfl rfl) (.foldl (fun _ _ => (changes_candidateReset
    ..).keepsBound) (.after (onlyParts_dlockReset ..).keepsBound (.foldl (fun _ _ => (spareSwitch_keepsBound ..)) (.foldl (fun _ _ =>
    (spareTakes_keepsBound ..)) (onlyParts_endSession ..).keepsBound))))))

theorem warmReset_keepsBound (s : State) (c : ResetCause) : KeepsBound s (warmReset s c) := by
  unfold warmReset
  exact .ite .refl (.after (changes_synceUpdate ..).keepsBound (.after (changes_showStack ..).keepsBound (.after (changes_mute ..).keepsBound
    (.after (changes_enterStage ..).keepsBound (.after (changes_rebuildDegraded ..).keepsBound (.after (.over [.boot] rfl) (.after
    (recordCause_keepsBound ..) (.after (modeToBoot_keepsBound ..) (.after (clearDevice_keepsBound ..) (.ite .refl (changes_selfFault
    ..).keepsBound))))))))))

theorem snapshotMoves_keepsBound (s : State) : KeepsBound s (snapshotMoves s) := by
  unfold snapshotMoves
  exact .ite .refl (.foldl (fun _ _ => (.after (changes_finish ..).keepsBound (writeHost_keepsBound ..))) .refl)

theorem dmaEnd_keepsBound (s : State) (d : Dma) (st : Status) : KeepsBound s (dmaEnd s d st) := by
  unfold dmaEnd
  exact .after (snapshotMoves_keepsBound ..) (.after (changes_finish ..).keepsBound (.after (.over [.dmas] rfl) (.over [.link] rfl)))

theorem setSlot_keepsBound (s : State) (n : Nat) (o : OwnerSlot) : KeepsBound s (setSlot s n o) := by
  unfold setSlot
  exact .dite (fun _ => (.after (changes_showFuses ..).keepsBound (.over [.sec] rfl))) (fun _ => .refl)

theorem ownerFuse_keepsBound (s : State) (d : List Byte) (cut : Bool) : KeepsBound s (ownerFuse s d cut) := by
  unfold ownerFuse
  exact .ite (setSlot_keepsBound ..) (.ite (.ite .refl (.ite (.after (onlyParts_endSession ..).keepsBound (setSlot_keepsBound ..))
    (setSlot_keepsBound ..))) (.after (changes_showFuses ..).keepsBound (.over [.sec] rfl)))

theorem ownerApply_keepsBound (s : State) (rec : Option (List Byte)) (cut : Bool) : KeepsBound s (ownerApply rec cut s) := by
  unfold ownerApply
  exact .ite (.after (wr_keepsBound ..) (.ite (ownerFuse_keepsBound ..) .refl)) (.after (wr_keepsBound ..) (.after (wr_keepsBound ..) (.after
    (wr_keepsBound ..) (.ite (ownerFuse_keepsBound ..) .refl))))

theorem startStream_keepsBound (s : State) (l : Load) : KeepsBound s (startStream s l) := by
  unfold startStream
  exact .after (.over [.link, .outbox] rfl) (.after (wr_keepsBound ..) (.over [.regs, .imgs] rfl))

theorem installKey_keepsBound (s : State) (t : Track) : KeepsBound s (installKey t s) := by
  unfold installKey
  exact .after (changes_finish ..).keepsBound (.after (.over [.regs] rfl) (.over [.enc] rfl))

theorem powerDown_keepsBound (s : State) (thermal : Bool) : KeepsBound s (powerDown s thermal) := by
  unfold powerDown
  dsimp only
  split
  · exact .after (wake_keepsBound ..) (.foldl (fun _ _ => (wr_keepsBound ..)) (.after (changes_synceUpdate ..).keepsBound (.after
    (changes_showStack ..).keepsBound (.after (changes_mute ..).keepsBound (.after (changes_dropToutArms ..).keepsBound (.ite (.after
    (wr_keepsBound ..) (.after (history_keepsBound ..) (.after (inc_keepsBound ..) (.after (wr_keepsBound ..) (.after (.over [.boot, .wkt] rfl)
    (.after (clearDevice_keepsBound ..) (.after (.over [.boot] rfl) (.after (changes_selfRefresh ..).keepsBound (.after (changes_selfRefresh
    ..).keepsBound (onlyParts_sleepPins ..).keepsBound))))))))) (.after (history_keepsBound ..) (.after (inc_keepsBound ..) (.after (wr_keepsBound
    ..) (.after (.over [.boot, .wkt] rfl) (.after (clearDevice_keepsBound ..) (.after (.over [.boot] rfl) (.after (changes_selfRefresh
    ..).keepsBound (.after (changes_selfRefresh ..).keepsBound (onlyParts_sleepPins ..).keepsBound))))))))))))))
  · exact .foldl (fun _ _ => (wr_keepsBound ..)) (.after (changes_synceUpdate ..).keepsBound (.after (changes_showStack ..).keepsBound (.after
    (changes_mute ..).keepsBound (.after (changes_dropToutArms ..).keepsBound (.ite (.after (wr_keepsBound ..) (.after (history_keepsBound ..)
    (.after (inc_keepsBound ..) (.after (wr_keepsBound ..) (.after (.over [.boot, .wkt] rfl) (.after (clearDevice_keepsBound ..) (.after (.over
    [.boot] rfl) (.after (changes_selfRefresh ..).keepsBound (.after (changes_selfRefresh ..).keepsBound (onlyParts_sleepPins
    ..).keepsBound))))))))) (.after (history_keepsBound ..) (.after (inc_keepsBound ..) (.after (wr_keepsBound ..) (.after (.over [.boot, .wkt]
    rfl) (.after (clearDevice_keepsBound ..) (.after (.over [.boot] rfl) (.after (changes_selfRefresh ..).keepsBound (.after (changes_selfRefresh
    ..).keepsBound (onlyParts_sleepPins ..).keepsBound)))))))))))))

theorem dormantPowerDown_keepsBound (s : State) : KeepsBound s (dormantPowerDown s) := by
  unfold dormantPowerDown
  split
  · exact .refl
  · exact .after (powerDown_keepsBound ..) (.ite .refl (advanceTo_keepsBound ..))

theorem porterFault_keepsBound (s : State) (both : Bool) : KeepsBound s (porterFault both s) := by
  unfold porterFault
  exact .ite (changes_haltBoot ..).keepsBound (.ite .refl (.ite (warmReset_keepsBound ..) (dieResetD0_keepsBound ..)))

theorem setDie_keepsBound (s : State) (k : Nat) (p : DiePhase) : KeepsBound s (setDie s k p) := by
  unfold setDie
  exact .after (changes_showStack ..).keepsBound (.over [.boot] rfl)

theorem reserveLost_keepsBound (s : State) : KeepsBound s (reserveLost s) := by
  unfold reserveLost
  exact .ite .refl (.after (changes_showStore ..).keepsBound (.foldl (fun _ _ => (wr_keepsBound ..)) (.over [.imgs] rfl)))

theorem resetD1_keepsBound (s : State) : KeepsBound s (resetD1 s) := by
  unfold resetD1
  exact .after (changes_shadowUnfit ..).keepsBound (.after (reserveLost_keepsBound ..) (.after (.over [.regs] rfl) (.after (.over [.mem] rfl)
    (.foldl (fun _ _ => (spareSwitch_keepsBound ..)) .refl))))

theorem warmResetRequest_keepsBound (s : State) (confirm : Byte) : KeepsBound s (warmResetRequest confirm s) := by
  unfold warmResetRequest
  exact .ite .refl (.ite (warmReset_keepsBound ..) (wr_keepsBound ..))

theorem refFailure_keepsBound (s : State) (die : Nat) : KeepsBound s (refFailure s die) := by
  unfold refFailure
  exact .ite (.after (.over [.boot] rfl) (.after (fault_keepsBound ..) (wr_keepsBound ..))) (.after (warmReset_keepsBound ..) (.after
    (fault_keepsBound ..) (wr_keepsBound ..)))

theorem skewSample_keepsBound (s : State) (n : Nat) (skew : Int) : KeepsBound s (skewSample n skew s) := by
  unfold skewSample
  exact .ite .refl (.ite (.over [.stack] rfl) (.after (refFailure_keepsBound ..) (.after (wrBit_keepsBound ..) (.over [.stack] rfl))))

theorem restage_keepsBound (s : State) (c : Nat) : KeepsBound s (restage s c) := by
  unfold restage
  exact .ite (startStaging_keepsBound ..) .refl

theorem stagingDone_keepsBound (s : State) (g : Staging) : KeepsBound s (stagingDone s g) := by
  unfold stagingDone
  exact .ite (.after (restage_keepsBound ..) (.after (changes_setStaged ..).keepsBound (.after (wr_keepsBound ..) (.after (wr_keepsBound ..)
    (.after (.over [.stack, .ctxs] rfl) (.foldl (fun _ _ => (takeDistrictSpare_keepsBound ..)) .refl)))))) (.after (changes_setStaged
    ..).keepsBound (.after (wr_keepsBound ..) (.after (wr_keepsBound ..) (.after (.over [.stack, .ctxs] rfl) (.foldl (fun _ _ =>
    (takeDistrictSpare_keepsBound ..)) .refl)))))

theorem takePoison_keepsBound (s : State) (w : CrossWord) : KeepsBound s (takePoison s w).2 := by
  unfold takePoison
  exact .over [.stack] rfl

theorem writeBackFrame_keepsBound (s : State) (c : Nat) (p : Nat × Frame) : KeepsBound s (writeBackFrame c s p) := by
  unfold writeBackFrame
  exact .ite (takePoison_keepsBound ..) (.over [.ctxs] rfl)

theorem writeBack_keepsBound (s : State) : KeepsBound s (writeBack s) := by
  unfold writeBack
  split
  · exact .refl
  · exact .ite .refl (.ite (.ite (.after (changes_setStaged ..).keepsBound (.after (.over [.ctxs] rfl) (.foldl (fun _ _ =>
    (writeBackFrame_keepsBound ..)) (advanceTo_keepsBound ..)))) (.after (changes_showLatches ..).keepsBound (.after (.over [.ctxs] rfl) (.foldl
    (fun _ _ => (writeBackFrame_keepsBound ..)) (advanceTo_keepsBound ..))))) (.after (.over [.ctxs] rfl) (.foldl (fun _ _ =>
    (writeBackFrame_keepsBound ..)) (advanceTo_keepsBound ..))))

theorem entryVector_keepsBound (s : State) (t : Nat) : KeepsBound s (entryVector t s) := by
  unfold entryVector
  refine .ite .refl ?_
  dsimp only
  split
  · exact .over [.tiles] rfl
  · refine .ite ?_ ?_
    · split
      · exact .over [.regs, .tiles] rfl
      · exact .over [.tiles] rfl
    · split
      · exact .over [.tiles] rfl
      · exact .refl

theorem releaseOut_keepsBound (s : State) (t n : Nat) (o : StagedOut) : KeepsBound s (releaseOut s t n o) := by
  unfold releaseOut
  split
  · exact .over [.ctxs, .outbox] rfl
  · exact .over [.tiles] rfl
  · exact .over [.mem] rfl
  · exact .over [.noc] rfl

theorem releaseKind_keepsBound (s : State) (t k h : Nat) : KeepsBound s (releaseKind t k h s) := by
  unfold releaseKind
  dsimp only
  split
  · exact .refl
  · split
    · exact .refl
    · exact .ite (.after (releaseOut_keepsBound ..) (.over [.tiles] rfl)) .refl

theorem copyingComplete_keepsBound (s : State) (t : Nat) : KeepsBound s (copyingComplete t s) := by
  unfold copyingComplete
  exact .ite .refl (.after (spareTakes_keepsBound ..) (.after (.over [.tiles] rfl) (advanceTo_keepsBound ..)))

theorem putOver_keepsBound (s : State) (u : MemUpdate) (w : Option MemWord) : KeepsBound s (putOver s u w) := by
  unfold putOver
  split
  · exact .over [.mem] rfl
  · exact .refl

theorem elogUpdate_keepsBound (s : State) (q e b w : Nat) (fresh unc : Bool) (place : Nat) : KeepsBound s (elogUpdate s q e b w fresh unc place).1
  := by
  unfold elogUpdate
  exact .ite (.after (wr_keepsBound ..) (.after (wr_keepsBound ..) (.after (wr_keepsBound ..) (.after (wr_keepsBound ..) (.after (wr_keepsBound ..)
    (.after (wrb_keepsBound ..) (.after (wr_keepsBound ..) (.after (wr_keepsBound ..) (.over [.mem] rfl))))))))) (.after (wr_keepsBound ..) (.after
    (wr_keepsBound ..) (.after (wr_keepsBound ..) (.after (wr_keepsBound ..) (.after (wrb_keepsBound ..) (.after (wr_keepsBound ..) (.after
    (wr_keepsBound ..) (.over [.mem] rfl))))))))

theorem noteNewer_keepsBound (s : State) (b w : Nat) : KeepsBound s (noteNewer s b w) := by
  unfold noteNewer
  exact .ite (.over [.mem] rfl) .refl

theorem writeWord_keepsBound (s : State) (port : MemPort) (b w : Nat) (be : BitVec 8) (d : BitVec 64) : KeepsBound s (writeWord s port b w be d).1
  := by
  unfold writeWord
  dsimp only
  split
  · exact noteNewer_keepsBound ..
  · split
    · exact .after (.over [.mem] rfl) (noteNewer_keepsBound ..)
    · split
      · exact .after (.over [.mem] rfl) (noteNewer_keepsBound ..)
      · exact .after (.over [.mem] rfl) (noteNewer_keepsBound ..)

theorem writeLaneHeld_keepsBound (s : State) (n v : Nat) : KeepsBound s (writeLaneHeld s n v) := by
  unfold writeLaneHeld
  exact .ite (.ite (wr_keepsBound ..) .refl) (.after (wr_keepsBound ..) (.after (wr_keepsBound ..) (wr_keepsBound ..)))

theorem showDrives_keepsBound (s : State) (before : State) : KeepsBound s (showDrives before s) := by
  unfold showDrives
  exact .foldl (fun _ _ => by exact .ite (.over [.outbox] rfl) .refl) .refl

theorem writeFields_keepsBound (s : State) (off v : Nat) : KeepsBound s (writeFields off v s) := by
  unfold writeFields
  refine .foldl (fun s a => ?_) .refl
  split
  · split
    · exact wr_keepsBound ..
    · exact wr_keepsBound ..
    · exact wr_keepsBound ..
    · exact .refl
  · exact .refl

theorem setPinIn_keepsBound (s : State) (n : Nat) (b : Bool) : KeepsBound s (setPinIn s n b) := by
  unfold setPinIn
  exact wrBit_keepsBound ..

theorem restartCount_keepsBound (s : State) (n : Nat) (b : Bool) : KeepsBound s (restartCount s n b) := by
  unfold restartCount
  exact .ite (.after (setPinIn_keepsBound ..) (.over [.pins] rfl)) (.ite (.over [.pins] rfl) (.after (.over [.pins] rfl) (.over [.pins] rfl)))

theorem debounceChange_keepsBound (s : State) (n : Nat) : KeepsBound s (debounceChange s n) := by
  unfold debounceChange
  exact restartCount_keepsBound ..

theorem ownerWrite_keepsBound (s : State) (r v : Nat) : KeepsBound s (ownerWrite r v s) := by
  unfold ownerWrite
  exact .ite (wr_keepsBound ..) (.after (wr_keepsBound ..) (.after (wr_keepsBound ..) (wr_keepsBound ..)))

theorem matchersEdge_keepsBound (s : State) : KeepsBound s (matchersEdge s) := by
  unfold matchersEdge
  exact .foldl (fun _ _ => (matcherEdge_keepsBound ..)) .refl

theorem writeLaneLim_keepsBound (s : State) (v : Nat) : KeepsBound s (writeLaneLim v s) := by
  unfold writeLaneLim
  exact .ite (.over [.regs] rfl) (.foldl (fun _ _ => by exact .after (wr_keepsBound ..) (.ite .refl (.overLog [.safe] rfl rfl))) .refl)

theorem writeWindow_keepsBound (s : State) (k v : Nat) : KeepsBound s (writeWindow k v s) := by
  unfold writeWindow
  exact .ite (.over [.regs] rfl) (.after (wr_keepsBound ..) (wr_keepsBound ..))

theorem safWrite_keepsBound (s : State) (r v : Nat) : KeepsBound s (safWrite r v s) := by
  unfold safWrite
  exact .ite (writeCtrl_keepsBound ..) (.ite (writeLaneLim_keepsBound ..) (writeWindow_keepsBound ..))

theorem readReg_keepsBound (s : State) (off : Nat) : KeepsBound s (readReg s off).2 := by
  unfold readReg
  generalize allRows = rows
  split
  · exact .over [.noc] rfl
  · split
    · exact .over [.noc] rfl
    · split
      · exact .over [.enc] rfl
      · split
        · exact .over [.enc] rfl
        · split
          · exact .over [.tim] rfl
          · split
            · exact .over [.tim] rfl
            · split
              · exact .over [.tim] rfl
              · split
                · exact .over [.noc] rfl
                · exact .over [.noc] rfl
                · refine .foldl (fun t r => ?_) .refl
                  split
                  · exact .ite (wr_keepsBound ..) .refl
                  · exact .refl

theorem issued_keepsBound (s : State) (d : Dma) (e : DmaElem) (n : Nat) : KeepsBound s (issued s d e n).1 := by
  unfold issued
  exact .ite (changes_commit ..).keepsBound .refl

theorem sendData_keepsBound (s : State) (d : PairData) : KeepsBound s (sendData s d) := by
  unfold sendData
  exact .ite .refl (.ite (.over [.pair] rfl) (.over [.pair, .outbox] rfl))

theorem dmaWrite_keepsBound (s : State) (d : Dma) (pa : Nat) (bytes : List Byte) : KeepsBound s (dmaWrite s d pa bytes) := by
  unfold dmaWrite
  exact .after (.over [.noc] rfl) (sendData_keepsBound ..)

theorem dmaPut_keepsBound (s : State) (d : Dma) (e : DmaElem) (bytes : List Byte) : KeepsBound s (dmaPut s d e bytes).1 := by
  unfold dmaPut
  split
  · exact .after (writeHost_keepsBound ..) (issued_keepsBound ..)
  · exact .after (dmaWrite_keepsBound ..) (issued_keepsBound ..)

theorem denyLine_keepsBound (s : State) (r : DramReq) : KeepsBound s (denyLine s r) := by
  unfold denyLine
  exact answerLine_keepsBound ..

theorem settleOlder_keepsBound (s : State) (c line t : Nat) : KeepsBound s (settleOlder s c line t) := by
  unfold settleOlder
  split
  · exact (changes_issueThese ..).keepsBound
  · exact .refl

theorem settleLine_keepsBound (s : State) (c line t : Nat) : KeepsBound s (settleLine s c line t) := by
  unfold settleLine
  exact .after (settleOlder_keepsBound ..) (.ite (.after (changes_setCtrl ..).keepsBound (changes_issueWrites ..).keepsBound) .refl)

theorem readLine_keepsBound (s : State) (line : Nat) (f : LineFind) (pa init t : Nat) : KeepsBound s (readLine s line f pa init t).2 := by
  unfold readLine
  dsimp only
  split
  · exact (changes_noteIssued ..).keepsBound
  · split
    · exact (changes_noteIssued ..).keepsBound
    · exact .after (rowEvent_keepsBound ..) (.ite (changes_noteIssued ..).keepsBound (.after (.over [.dram] rfl) (changes_noteIssued
      ..).keepsBound))
    · exact .after (rowEvent_keepsBound ..) (.after (fault_keepsBound ..) (.after (changes_noteIssued ..).keepsBound (.after (changes_putLine
      ..).keepsBound (.after (fresh_keepsBound ..) (changes_noteIssued ..).keepsBound))))

theorem denyRead_keepsBound (s : State) (q : DramReq) : KeepsBound s (denyRead s q) := by
  unfold denyRead
  split
  · exact denyLine_keepsBound ..
  · exact denyLine_keepsBound ..
  · exact .after (.over [.enc] rfl) (.foldl (fun _ _ => (endOp_keepsBound ..)) .refl)
  · exact .refl

theorem showRetrain_keepsBound (s : State) (c : Nat) : KeepsBound s (showRetrain s c) := by
  unfold showRetrain
  exact wrb_keepsBound ..

theorem failEngine_keepsBound (s : State) (b : Bool) (flag : Row) : KeepsBound s (failEngine s b flag) := by
  unfold failEngine
  exact .ite .refl (.ite (.after (raiseInternalFault_keepsBound ..) (.after (fault_keepsBound ..) (.after (.over [.integ] rfl) (.after (.over
    [.regs] rfl) (wr_keepsBound ..))))) (.after (changes_setDegraded ..).keepsBound (.after (wr_keepsBound ..) (.after (fault_keepsBound ..)
    (.after (.over [.integ] rfl) (.after (.over [.regs] rfl) (wr_keepsBound ..)))))))

theorem beginSweep_keepsBound (s : State) (b : Bool) : KeepsBound s (beginSweep s b) := by
  unfold beginSweep
  exact .after (.over [.integ] rfl) (.ite .refl (.over [.regs] rfl))

theorem sweepStart_keepsBound (s : State) (b katOk : Bool) : KeepsBound s (sweepStart b katOk s) := by
  unfold sweepStart
  exact .ite .refl (.ite (.after (wr_keepsBound ..) (.ite .refl (advanceTo_keepsBound ..))) (.ite (.after (failEngine_keepsBound ..) (.ite .refl
    (advanceTo_keepsBound ..))) (.after (beginSweep_keepsBound ..) (.ite .refl (advanceTo_keepsBound ..)))))

theorem sweepReport_keepsBound (s : State) (b slip : Bool) : KeepsBound s (sweepReport b slip s) := by
  unfold sweepReport
  exact .ite .refl (.ite (.after (failEngine_keepsBound ..) (.after (wr_keepsBound ..) (.over [.integ] rfl))) (.ite (.after (wr_keepsBound ..)
    (.ite (.after (.over [.boot] rfl) (.after (.over [.boot] rfl) (.after (wr_keepsBound ..) (.over [.integ] rfl)))) (.after (.over [.boot] rfl)
    (.after (wr_keepsBound ..) (.over [.integ] rfl))))) (.ite (.after (.over [.boot] rfl) (.after (.over [.boot] rfl) (.after (wr_keepsBound ..)
    (.over [.integ] rfl)))) (.after (.over [.boot] rfl) (.after (wr_keepsBound ..) (.over [.integ] rfl))))))

theorem reportLate_keepsBound (s : State) (b : Bool) : KeepsBound s (reportLate b s) := by
  unfold reportLate
  exact .ite .refl (.after (failEngine_keepsBound ..) (advanceTo_keepsBound ..))

theorem queueError_keepsBound (s : State) (q code : Nat) : KeepsBound s (queueError s q code) := by
  unfold queueError
  exact .ite .refl (.after (changes_raiseEvent ..).keepsBound (.after (wr_keepsBound ..) (wr_keepsBound ..)))

/-- Where the state that it may put in error keeps the bound, so does the result. -/
theorem msixSent_keepsBound {s t u : State} (h : KeepsBound u t) (q : Nat) (fails : Bool) : KeepsBound u (msixSent s t q fails) := by
  unfold msixSent
  exact .ite (.after (queueError_keepsBound ..) (.after (.withOutbox ..) h)) h

theorem announceStep_keepsBound (s : State) (p : TimeStep) : KeepsBound s (announceStep s p) := by
  unfold announceStep
  exact .ite (.after (changes_sendControl ..).keepsBound (.over [.tim] rfl)) (.over [.tim] rfl)

theorem setLevel_keepsBound (s : State) (n : Nat) (v : Bool) : KeepsBound s (setLevel s n v) := by
  unfold setLevel
  exact .ite (wrBit_keepsBound ..) .refl

theorem toutRise_keepsBound (s : State) (n : Nat) (o : Tout) : KeepsBound s (toutRise s n o) := by
  unfold toutRise
  exact .ite (.after (.over [.tim] rfl) (setLevel_keepsBound ..)) (.after (.over [.tim] rfl) (setLevel_keepsBound ..))

theorem stepTout_keepsBound (s : State) (old n : Nat) : KeepsBound s (stepTout old s n) := by
  unfold stepTout
  exact .ite (toutRise_keepsBound ..) (.ite (.ite (.over [.tim] rfl) (.after (wrBit_keepsBound ..) (.over [.tim] rfl))) (.ite (.over [.tim] rfl)
    .refl))

theorem jumpArmed_keepsBound (s : State) (old : Nat) : KeepsBound s (jumpArmed s old) := by
  unfold jumpArmed
  split
  · exact .ite (.over [.ctxs] rfl) .refl
  · exact .refl

theorem reschedule_keepsBound (s : State) : KeepsBound s (reschedule s) := by
  unfold reschedule
  split
  · exact .refl
  · exact .after (scheduleStage_keepsBound ..) (.ite (.after (wr_keepsBound ..) (.over [.ctxs] rfl)) (.after (wr_keepsBound ..) (.over [.ctxs]
    rfl)))

theorem applyStep_keepsBound (s : State) (d : Int) : KeepsBound s (applyStep s d) := by
  unfold applyStep
  exact .after (showTiming_keepsBound ..) (.foldl (fun _ _ => (stepTout_keepsBound ..)) (.after (jumpArmed_keepsBound ..) (.after
    (reschedule_keepsBound ..) (.after (.over [.tim] rfl) (.over [.tim] rfl)))))

theorem countReq_keepsBound (s : State) (r : NocReq) (bin st : Nat) : KeepsBound s (countReq s r bin st) := by
  unfold countReq
  exact .ite .refl (.ite (.after (wr_keepsBound ..) (.after (wr_keepsBound ..) (inc_keepsBound ..))) (inc_keepsBound ..))

theorem modeDormantSet_keepsBound (s : State) (t : Track) : KeepsBound s (modeDormantSet t s) := by
  unfold modeDormantSet
  exact .ite (changes_finish ..).keepsBound (.ite (changes_finish ..).keepsBound (.after (changes_finish ..).keepsBound (.after (.over [.boot,
    .link] rfl) (changes_commit ..).keepsBound)))

theorem cutLane_keepsBound (s : State) (n : Nat) : KeepsBound s (cutLane s n) := by
  unfold cutLane
  exact .ite (changes_setLane ..).keepsBound (.after (.over [.outbox] rfl) (changes_setLane ..).keepsBound)

theorem candWindow_keepsBound (s : State) (c count : Nat) : KeepsBound s (candWindow c count s) := by
  unfold candWindow
  exact .ite .refl (.ite (.ite (.after (wr_keepsBound ..) (wr_keepsBound ..)) (.ite (.after (changes_enterStage ..).keepsBound (.after
    (initialTrim_keepsBound ..) (.after (changes_synceUpdate ..).keepsBound (.after (wrBit_keepsBound ..) (.after (wr_keepsBound ..) (wr_keepsBound
    ..)))))) (.after (changes_synceUpdate ..).keepsBound (.after (wrBit_keepsBound ..) (.after (wr_keepsBound ..) (wr_keepsBound ..)))))) (.ite
    (.after (refFailure_keepsBound ..) (.after (wr_keepsBound ..) (.after (changes_synceUpdate ..).keepsBound (.after (changes_candidateLost
    ..).keepsBound (wr_keepsBound ..))))) (.after (changes_synceUpdate ..).keepsBound (.after (changes_candidateLost ..).keepsBound (wr_keepsBound
    ..)))))

theorem missingEdge_keepsBound (s : State) : KeepsBound s (missingEdge s) := by
  unfold missingEdge
  exact .ite .refl (.ite (.after (injectionEnd_keepsBound ..) (fault_keepsBound ..)) (.after (refFailure_keepsBound ..) (.after
    (changes_synceUpdate ..).keepsBound (.after (changes_candidateLost ..).keepsBound (wr_keepsBound ..)))))

theorem pllUnlock_keepsBound (s : State) (k : Nat) : KeepsBound s (pllUnlock k s) := by
  unfold pllUnlock
  exact .ite .refl (.after (refFailure_keepsBound ..) (.after (wr_keepsBound ..) (.ite (wr_keepsBound ..) (.ite (wr_keepsBound ..)
    (wrBit_keepsBound ..)))))

theorem seSelect_keepsBound (s : State) (n : Nat) : KeepsBound s (seSelect s n) := by
  unfold seSelect
  exact .ite (.over [.tim] rfl) (.ite (.after (changes_exitEi ..).keepsBound (.after (changes_raiseEvent ..).keepsBound (.after (wr_keepsBound ..)
    (.after (.over [.tim] rfl) (.over [.tim] rfl))))) (.after (changes_raiseEvent ..).keepsBound (.after (wr_keepsBound ..) (.after (.over [.tim]
    rfl) (.over [.tim] rfl)))))

theorem holdOffEnd_keepsBound (s : State) : KeepsBound s (holdOffEnd s) := by
  unfold holdOffEnd
  split
  · exact .refl
  · exact .ite (.after (seSelect_keepsBound ..) (.after (changes_synceUpdate ..).keepsBound (advanceTo_keepsBound ..))) (.after
    (changes_synceUpdate ..).keepsBound (advanceTo_keepsBound ..))

theorem wtrEnd_keepsBound (s : State) (n : Nat) : KeepsBound s (wtrEnd n s) := by
  unfold wtrEnd
  split
  · exact .refl
  · exact .after (changes_synceUpdate ..).keepsBound (.ite (.after (wr_keepsBound ..) (.after (wr_keepsBound ..) (.after (.over [.tim] rfl)
    (advanceTo_keepsBound ..)))) (.after (wr_keepsBound ..) (.after (.over [.tim] rfl) (advanceTo_keepsBound ..))))

theorem toutArm_keepsBound (s : State) (n : Nat) (a : ToutArm) : KeepsBound s (toutArm s n a) := by
  unfold toutArm
  exact .after (wrBit_keepsBound ..) (.after (wrBit_keepsBound ..) (.over [.tim] rfl))

theorem toutEdge_keepsBound (s : State) (n : Nat) : KeepsBound s (toutEdge n s) := by
  unfold toutEdge
  dsimp only
  split
  · split
    · exact .after (toutArm_keepsBound ..) (.after (.over [.tim] rfl) (advanceTo_keepsBound ..))
    · exact .ite (.after (setLevel_keepsBound ..) (.after (.over [.tim] rfl) (advanceTo_keepsBound ..))) (.after (wrBit_keepsBound ..) (.after
      (setLevel_keepsBound ..) (.after (.over [.tim] rfl) (advanceTo_keepsBound ..))))
  · exact .ite .refl (.after (toutRise_keepsBound ..) (changes_advanceToCounter ..).keepsBound)

theorem shutDown_keepsBound (s : State) : KeepsBound s (shutDown s) := by
  unfold shutDown
  exact .ite .refl (.after (powerDown_keepsBound ..) (.after (changes_selfFault ..).keepsBound (changes_mute ..).keepsBound))

theorem takeBand_keepsBound (s : State) : KeepsBound s (takeBand s) := by
  unfold takeBand
  exact .ite .refl (.ite (.after (changes_startRetrain ..).keepsBound (.after (changes_startRetrain ..).keepsBound (.after (history_keepsBound ..)
    (wr_keepsBound ..)))) (.after (changes_settleLanes ..).keepsBound (.after (wr_keepsBound ..) (.after (.over [.pair] rfl) (.after
    (changes_startRetrain ..).keepsBound (.after (changes_startRetrain ..).keepsBound (.after (history_keepsBound ..) (wr_keepsBound ..))))))))

theorem thEvaluate_keepsBound (s : State) : KeepsBound s (thEvaluate s) := by
  unfold thEvaluate
  exact .ite (.after (shutDown_keepsBound ..) (.after (thermPin_keepsBound ..) (.after (changes_throttleRound ..).keepsBound (.after
    (evalThreshold_keepsBound ..) (.ite .refl (.after (takeBand_keepsBound ..) (.after (evalThreshold_keepsBound ..) (evalThreshold_keepsBound
    ..)))))))) (.after (thermPin_keepsBound ..) (.after (changes_throttleRound ..).keepsBound (.after (evalThreshold_keepsBound ..) (.ite .refl
    (.after (takeBand_keepsBound ..) (.after (evalThreshold_keepsBound ..) (evalThreshold_keepsBound ..)))))))

theorem resumeGrace_keepsBound (s : State) : KeepsBound s (resumeGrace s) := by
  unfold resumeGrace
  split
  · exact .over [.wkt] rfl
  · exact .refl

theorem takeVisible_keepsBound (s : State) (n : Nat) (b : Bool) : KeepsBound s (takeVisible s n b) := by
  unfold takeVisible
  exact .ite .refl (restartCount_keepsBound ..)

theorem pinChange_keepsBound (s : State) (ports : List (Fin 64 × Bool × Bool)) (levels : List (Fin 64 × Bool)) : KeepsBound s (pinChange ports
  levels s) := by
  unfold pinChange
  exact .ite .refl (.after (matchersEdge_keepsBound ..) (.foldl (fun _ _ => (takeVisible_keepsBound ..)) (.after (changes_advance ..).keepsBound
    (.foldl (fun _ _ => (takePort_keepsBound ..)) (advanceTo_keepsBound ..)))))

theorem debounceSettle_keepsBound (s : State) (n : Nat) : KeepsBound s (debounceSettle n s) := by
  unfold debounceSettle
  split
  · exact .refl
  · exact .after (matchersEdge_keepsBound ..) (.foldl (fun _ _ => by exact .ite (.after (setPinIn_keepsBound ..) (.over [.pins] rfl)) .refl)
    (advanceTo_keepsBound ..))

theorem widthChange_keepsBound (s : State) : KeepsBound s (widthChange s) := by
  unfold widthChange
  split
  · exact .refl
  · exact .after (changes_settleLanes ..).keepsBound (.after (wr_keepsBound ..) (.over [.pair] rfl))

theorem directionWake_keepsBound (s : State) : KeepsBound s (directionWake s) := by
  unfold directionWake
  exact .ite .refl (.foldl (fun _ _ => by exact .over [.pair, .outbox] rfl) (.after (wr_keepsBound ..) (.over [.pair] rfl)))

theorem finishTime_keepsBound (s : State) (id : Nat) (st : Status) (c : Nat) : KeepsBound s (finishTime s id st c) := by
  unfold finishTime
  exact (changes_finish ..).keepsBound

theorem copyDone_keepsBound (s : State) : KeepsBound s (copyDone s) := by
  unfold copyDone
  exact .ite .refl (.after (wr_keepsBound ..) (.after (.over [.pair] rfl) (.ite (.foldl (fun _ _ => (sendData_keepsBound ..)) .refl) .refl)))

theorem planStep_keepsBound (s : State) (d : Int) (engine pair : Bool) : KeepsBound s (planStep s d engine pair) := by
  unfold planStep
  exact announceStep_keepsBound ..

theorem adoptMirror_keepsBound (s : State) (p : Nat × Mirror) : KeepsBound s (adoptMirror s p) := by
  unfold adoptMirror
  split
  · exact .refl
  · split
    · exact .refl
    · exact .over [.link] rfl

theorem failChannels_keepsBound (s : State) (spares : List (Nat × Nat × Nat)) : KeepsBound s (failChannels s spares) := by
  unfold failChannels
  exact .foldl (fun _ _ => by exact .ite .refl (.after (countFull_keepsBound ..) (.over [.stack] rfl))) .refl

theorem sliceFails_keepsBound (s : State) (n : Nat) (sig : Word) (spares : List (Nat × Nat × Nat)) : KeepsBound s (sliceFails s n sig spares) := by
  unfold sliceFails
  exact .after (setCause_keepsBound ..) (.ite (.after (failChannels_keepsBound ..) (.after (.overLog [.safe] rfl rfl) (.after (wrBit_keepsBound ..)
    (fault_keepsBound ..)))) (.after (.overLog [.safe] rfl rfl) (.after (wrBit_keepsBound ..) (fault_keepsBound ..))))

theorem runSlice_keepsBound (s : State) (n : Nat) (sig : Word) (spares : List (Nat × Nat × Nat)) : KeepsBound s (runSlice s n sig spares) := by
  unfold runSlice
  exact .ite (skipSlice_keepsBound ..) (.ite (.ite (settleSlice_keepsBound ..) (.after (settleSlice_keepsBound ..) (.after (injectionEnd_keepsBound
    ..) (fault_keepsBound ..)))) (.ite (settleSlice_keepsBound ..) (.ite (.overLog [.safe] rfl rfl) (.after (settleSlice_keepsBound ..)
    (sliceFails_keepsBound ..)))))

theorem recordAccess_keepsBound (s : State) (off fn : Nat) (write stopped : Bool) : KeepsBound s (recordAccess s off fn write stopped) := by
  unfold recordAccess
  exact .after (wrb_keepsBound ..) (.after (wrb_keepsBound ..) (.after (wr_keepsBound ..) (wr_keepsBound ..)))

theorem unassignedAccess_keepsBound (s : State) (off fn : Nat) (write : Bool) : KeepsBound s (unassignedAccess s off fn write) := by
  unfold unassignedAccess
  exact .after (inc_keepsBound ..) (recordAccess_keepsBound ..)

theorem blockedAccess_keepsBound (s : State) (off fn : Nat) (write : Bool) : KeepsBound s (blockedAccess s off fn write) := by
  unfold blockedAccess
  exact .after (inc_keepsBound ..) (recordAccess_keepsBound ..)

theorem read32_keepsBound (s : State) (fn off : Nat) : KeepsBound s (read32 s fn off).2 := by
  unfold read32
  split
  · exact unassignedAccess_keepsBound ..
  · split
    · exact readReg_keepsBound ..
    · exact blockedAccess_keepsBound ..

theorem hostRead_keepsBound (s : State) (fn off : Nat) (wide : Bool) : KeepsBound s (hostRead fn off wide s) := by
  unfold hostRead
  exact .ite .refl (.ite (.after (.over [.outbox] rfl) (.after (read32_keepsBound ..) (read32_keepsBound ..))) (.after (.over [.outbox] rfl)
    (read32_keepsBound ..)))

theorem streamOn_keepsBound (s : State) (old l : Load) : KeepsBound s (streamOn s old l) := by
  unfold streamOn
  exact .after (storeTraffic_keepsBound ..) (.over [.regs, .imgs] rfl)

theorem streamBytes_keepsBound (s : State) (old : Load) (d : List Byte) : KeepsBound s (streamBytes s old d) := by
  unfold streamBytes
  refine .ite ?_ (streamOn_keepsBound ..)
  split
  · exact endLoad_keepsBound ..
  · exact streamOn_keepsBound ..

theorem startLoad_keepsBound (s : State) (isPartial : Bool) (t : Track) : KeepsBound s (startLoad isPartial t s) := by
  unfold startLoad
  exact .ite (changes_finish ..).keepsBound (.ite (changes_finish ..).keepsBound (.ite (changes_finish ..).keepsBound (.ite (.after
    (endLoad_keepsBound ..) (.after (wr_keepsBound ..) (.after (wr_keepsBound ..) (.after (wrb_keepsBound ..) (.over [.regs, .imgs] rfl)))))
    (.after (.over [.link, .outbox] rfl) (.after (wr_keepsBound ..) (.after (wr_keepsBound ..) (.after (wrb_keepsBound ..) (.over [.regs, .imgs]
    rfl))))))))

theorem scheduleSet_keepsBound (s : State) (t : Track) : KeepsBound s (scheduleSet t s) := by
  unfold scheduleSet
  exact .ite (changes_finish ..).keepsBound (.ite (changes_finish ..).keepsBound (.over [.link, .outbox] rfl))

theorem retire_keepsBound (s : State) (t : Track) : KeepsBound s (retire t s) := by
  unfold retire
  exact .after (changes_finish ..).keepsBound (.after (changes_showStore ..).keepsBound (.ite (.after (changes_emptyStaged ..).keepsBound (.after
    (.over [.tiles] rfl) (.after (wr_keepsBound ..) (.after (wr_keepsBound ..) (.after (wr_keepsBound ..) (.after (wr_keepsBound ..) (.after
    (onlyParts_dropRepairs ..).keepsBound (.over [.ctxs, .imgs] rfl)))))))) (.after (.over [.tiles] rfl) (.after (wr_keepsBound ..) (.after
    (wr_keepsBound ..) (.after (wr_keepsBound ..) (.after (wr_keepsBound ..) (.after (onlyParts_dropRepairs ..).keepsBound (.over [.ctxs, .imgs]
    rfl)))))))))

theorem timedOut_keepsBound (s : State) (g : HostTarget) : KeepsBound s (timedOut g s) := by
  unfold timedOut
  refine .ite .refl ?_
  dsimp only
  split
  · exact .refl
  · split
    · exact .after (advanceTo_keepsBound ..) (fresh_keepsBound ..)
    · exact .refl
  · refine .ite ?_ .refl
    split
    · exact .after (advanceTo_keepsBound ..) (fresh_keepsBound ..)
    · exact .refl

theorem failSpare_keepsBound (s : State) (x : SpareFail) : KeepsBound s (failSpare s x) := by
  unfold failSpare
  exact .ite .refl (.after (fault_keepsBound ..) (.overLog [.safe] rfl rfl))

theorem intrusiveEnd_keepsBound (s : State) (sigs : Vector Word 97) (spares : List SpareFail) (channels : List (Nat × Nat × Nat)) : KeepsBound s
  (intrusiveEnd sigs spares channels s) := by
  unfold intrusiveEnd
  split
  · exact .refl
  · refine .after (changes_finish ..).keepsBound ?_
    refine .foldl (fun _ _ => (.ite (.after (startLane_keepsBound ..) (changes_setLane ..).keepsBound) .refl)) ?_
    refine .after (.overLog [.safe] rfl rfl) ?_
    refine .foldl (fun _ _ => (failSpare_keepsBound ..)) ?_
    refine .foldl (fun _ _ => (.ite .refl (sliceFails_keepsBound ..))) ?_
    split
    · exact advanceTo_keepsBound ..
    · exact .refl

end Sys2Proof.Machine
end

section
set_option Elab.async false
/-! Operations that keep the bound of the fault log, continued. -/

namespace Sys2Proof.Machine

theorem endTransition_keepsBound (s : State) : KeepsBound s (endTransition s) := by
  unfold endTransition
  exact .after (wr_keepsBound ..) (.over [.boot] rfl)

theorem abandonStaging_keepsBound (s : State) (g : Staging) (st : Status) : KeepsBound s (abandonStaging s g st) := by
  unfold abandonStaging
  split
  · exact .after (changes_finish ..).keepsBound (changes_emptyStaged ..).keepsBound
  · exact .after (changes_finish ..).keepsBound (.after (endTransition_keepsBound ..) (changes_emptyStaged ..).keepsBound)
  · exact (changes_emptyStaged ..).keepsBound

theorem stagingTimeout_keepsBound (s : State) : KeepsBound s (stagingTimeout s) := by
  unfold stagingTimeout
  split
  · exact .refl
  · exact .after (abandonStaging_keepsBound ..) (.after (fault_keepsBound ..) (advanceTo_keepsBound ..))

theorem setSlotState_keepsBound (s : State) (m v : Nat) : KeepsBound s (setSlotState s m v) := by
  unfold setSlotState
  exact wr_keepsBound ..

theorem openStore_keepsBound (s : State) : KeepsBound s (openStore s) := by
  unfold openStore
  exact .ite (.after (changes_showStore ..).keepsBound (.after (wr_keepsBound ..) (.after (wr_keepsBound ..) (.after (wr_keepsBound ..) (.after
    (wr_keepsBound ..) (.after (wr_keepsBound ..) (.after (wr_keepsBound ..) (.after (wr_keepsBound ..) (.after (setSlotState_keepsBound ..)
    (.after (.over [.enc] rfl) (.over [.free] rfl))))))))))) (.after (changes_showStore ..).keepsBound (.after (wr_keepsBound ..) (.after
    (wr_keepsBound ..) (wr_keepsBound ..))))

theorem disableCtrl_keepsBound (s : State) (c : Nat) : KeepsBound s (disableCtrl s c) := by
  unfold disableCtrl
  exact .after (wr_keepsBound ..) (wr_keepsBound ..)

theorem showGroup_keepsBound (s : State) (c : Nat) (t : GroupTrain) (g : Nat) : KeepsBound s (showGroup c t s g) := by
  unfold showGroup
  exact .after (wr_keepsBound ..) (.after (wr_keepsBound ..) (.after (wr_keepsBound ..) (wr_keepsBound ..)))

theorem takeGroup_keepsBound (s : State) (c g : Nat) (t : GroupTrain) : KeepsBound s (takeGroup s c g t) := by
  unfold takeGroup
  exact .ite (.after (setMarginLow_keepsBound ..) (.foldl (fun _ _ => (showGroup_keepsBound ..)) .refl)) (.foldl (fun _ _ => (showGroup_keepsBound
    ..)) .refl)

theorem trainCtrl_keepsBound (s : State) (c : Nat) (fit : DramFit) (drop : List (Fin 32)) : KeepsBound s (trainCtrl s c fit drop).1 := by
  unfold trainCtrl
  dsimp only
  split
  · exact disableCtrl_keepsBound ..
  · exact .after (disableCtrl_keepsBound ..) (wr_keepsBound ..)
  · split
    · exact .after (disableCtrl_keepsBound ..) (wr_keepsBound ..)
    · split
      · exact .after (disableCtrl_keepsBound ..) (.foldl (fun _ _ => (takeGroup_keepsBound ..)) (.after (wrb_keepsBound ..) (.after (wrb_keepsBound
        ..) (wrb_keepsBound ..))))
      · exact .after (wr_keepsBound ..) (.foldl (fun _ _ => (dropRepair_keepsBound ..)) (.after (wr_keepsBound ..) (.foldl (fun _ _ =>
        (takeGroup_keepsBound ..)) (.after (wrb_keepsBound ..) (.after (wrb_keepsBound ..) (wrb_keepsBound ..))))))

theorem classQ_keepsBound (s : State) (q : Nat) : KeepsBound s (classQ s q) := by
  unfold classQ
  exact .after (.over [.regs] rfl) (.over [.link] rfl)

theorem dropTracks_keepsBound (s : State) (p : Track → Bool) : KeepsBound s (dropTracks s p) := by
  unfold dropTracks
  exact .over [.link] rfl

theorem dropRead_keepsBound (s : State) (id : Nat) : KeepsBound s (dropRead s id) := by
  unfold dropRead
  exact .over [.link] rfl

theorem rollbackOne_keepsBound (s : State) (t : Track) (st : Status) : KeepsBound s (rollbackOne s t st) := by
  unfold rollbackOne
  dsimp only
  refine .ite ?_ ?_
  · split
    · exact .ite (.after (endLoad_keepsBound ..) (dropRead_keepsBound ..)) (.after (changes_finish ..).keepsBound (dropRead_keepsBound ..))
    · exact .after (changes_finish ..).keepsBound (dropRead_keepsBound ..)
  · refine .ite ?_ ?_
    · split
      · exact .ite (.after (abandonStaging_keepsBound ..) (dropRead_keepsBound ..)) (.after (changes_finish ..).keepsBound (dropRead_keepsBound ..))
      · exact .after (changes_finish ..).keepsBound (dropRead_keepsBound ..)
    · refine .ite ?_ ?_
      · split
        · exact .after (dmaEnd_keepsBound ..) (dropRead_keepsBound ..)
        · exact .after (changes_finish ..).keepsBound (dropRead_keepsBound ..)
      · refine .ite (.after (changes_finish ..).keepsBound (.after (showSweeps_keepsBound ..) (.after (.over [.enc] rfl) (dropRead_keepsBound
        ..)))) ?_
        refine .ite (.after (changes_finish ..).keepsBound (.after (.over [.tim] rfl) (dropRead_keepsBound ..))) ?_
        refine .ite (.after (changes_finish ..).keepsBound (.after (changes_sendControl ..).keepsBound (.after (endTransition_keepsBound ..)
          (.after (.over [.pair] rfl) (dropRead_keepsBound ..))))) ?_
        refine .ite (.after (changes_finish ..).keepsBound (.after (changes_sendControl ..).keepsBound (.after (endTransition_keepsBound ..)
          (.after (.over [.pair] rfl) (dropRead_keepsBound ..))))) ?_
        refine .ite (.after (changes_finish ..).keepsBound (.after (changes_sendControl ..).keepsBound (.after (.over [.pair] rfl)
          (dropRead_keepsBound ..)))) ?_
        refine .ite (.after (changes_finish ..).keepsBound (.after (changes_sendControl ..).keepsBound (.after (.over [.pair] rfl)
          (dropRead_keepsBound ..)))) ?_
        refine .ite ?_ (.after (changes_finish ..).keepsBound (dropRead_keepsBound ..))
        split
        · exact .ite (.after (abandonStaging_keepsBound ..) (.ite (.after (endTransition_keepsBound ..) (dropRead_keepsBound ..))
          (dropRead_keepsBound ..))) (.after (changes_finish ..).keepsBound (.ite (.after (endTransition_keepsBound ..) (dropRead_keepsBound ..))
          (dropRead_keepsBound ..)))
        · exact .after (changes_finish ..).keepsBound (.ite (.after (endTransition_keepsBound ..) (dropRead_keepsBound ..)) (dropRead_keepsBound
          ..))

theorem unprepare_keepsBound (s : State) : KeepsBound s (unprepare s) := by
  unfold unprepare
  split
  · exact .refl
  · exact .ite (.foldl (fun _ _ => (changes_mapTrack ..).keepsBound) (.over [.pair] rfl)) (.after (dropTracks_keepsBound ..) (.foldl (fun _ _ =>
    (rollbackOne_keepsBound ..)) (.over [.pair] rfl)))

theorem rollback_keepsBound (s : State) (t : Track) (st : Status) : KeepsBound s (rollback s t st) := by
  unfold rollback
  exact .ite (.after (changes_finish ..).keepsBound (.ite (.after (changes_sendControl ..).keepsBound (.after (unprepare_keepsBound ..)
    (dropRead_keepsBound ..))) .refl)) (rollbackOne_keepsBound ..)

theorem resetFunction_keepsBound (s : State) (f : Nat) : KeepsBound s (resetFunction s f) := by
  unfold resetFunction
  refine .after (.over [.regs, .link] rfl) ?_
  refine .foldl (fun _ _ => (classQ_keepsBound ..)) ?_
  refine .after (dropTracks_keepsBound ..) ?_
  refine .foldl (fun s a => ?_) .refl
  refine .ite .refl ?_
  refine .ite .refl ?_
  refine .ite ?_ (rollback_keepsBound ..)
  split
  · exact dmaEnd_keepsBound ..
  · exact dropRead_keepsBound ..

theorem setLoad_keepsBound (s : State) (l : Load) (ph : Nat) : KeepsBound s (setLoad s l ph) := by
  unfold setLoad
  exact .after (wr_keepsBound ..) (.over [.imgs] rfl)

theorem afterChecks_keepsBound (s : State) (l : Load) : KeepsBound s (afterChecks s l) := by
  unfold afterChecks
  exact .ite (.after (setLoad_keepsBound ..) (.after (.over [.ctxs] rfl) (wr_keepsBound ..))) (.after (startStream_keepsBound ..) (.after (.over
    [.ctxs] rfl) (wr_keepsBound ..)))

theorem wrapRead_keepsBound (s : State) (l : Load) : KeepsBound s (wrapRead s l) := by
  unfold wrapRead
  refine .ite (endLoad_keepsBound ..) ?_
  split
  · exact endLoad_keepsBound ..
  · split
    · exact afterChecks_keepsBound ..
    · exact endLoad_keepsBound ..

theorem attest_keepsBound (s : State) (t : Track) : KeepsBound s (attest t s) := by
  unfold attest
  exact .ite (changes_finish ..).keepsBound (.after (changes_finish ..).keepsBound (.after (writeHost_keepsBound ..) (.after (changes_commit
    ..).keepsBound (.over [.free] rfl))))

theorem debugToken_keepsBound (s : State) (t : Track) (d : List Byte) : KeepsBound s (debugToken t d s) := by
  unfold debugToken
  refine .ite (changes_finish ..).keepsBound ?_
  split
  · exact .after (changes_finish ..).keepsBound (.after (changes_commit ..).keepsBound (.after (wr_keepsBound ..) (.after (wr_keepsBound ..)
    (.after (wr_keepsBound ..) (.after (wr_keepsBound ..) (.after (changes_drawNonce ..).keepsBound (.over [.sec] rfl)))))))
  · exact (changes_finish ..).keepsBound

theorem debugRun_keepsBound (s : State) (t : Track) (d : Option (List Byte)) : KeepsBound s (debugRun t d s) := by
  unfold debugRun
  refine .ite (.ite (changes_finish ..).keepsBound (.after (changes_finish ..).keepsBound (.after (changes_commit ..).keepsBound
    (onlyParts_endSession ..).keepsBound))) ?_
  refine .ite (changes_finish ..).keepsBound ?_
  split
  · exact debugToken_keepsBound ..
  · exact (changes_finish ..).keepsBound

theorem holdData_keepsBound (s : State) (id : Nat) (d : List Byte) : KeepsBound s (holdData s id d) := by
  unfold holdData
  exact (changes_mapTrack ..).keepsBound

theorem keyKnown_keepsBound (s : State) (t : Track) (k : List Byte) : KeepsBound s (keyKnown t k s) := by
  unfold keyKnown
  exact .ite (changes_finish ..).keepsBound (.after (reachCommit_keepsBound (hf := fun _ => (installKey_keepsBound ..)) ..) (holdData_keepsBound
    ..))

theorem keyBlob_keepsBound (s : State) (t : Track) (d : List Byte) : KeepsBound s (keyBlob t d s) := by
  unfold keyBlob
  split
  · exact keyKnown_keepsBound ..
  · exact (changes_finish ..).keepsBound

theorem porterDo_keepsBound (s : State) (x : PorterOp) : KeepsBound s (porterDo s x) := by
  unfold porterDo
  split
  · exact ownerApply_keepsBound ..
  · exact .refl
  · split
    · exact .ite (wrapRead_keepsBound ..) .refl
    · exact .refl
  · split
    · exact .refl
    · refine .ite .refl ?_
      refine .ite (attest_keepsBound ..) ?_
      refine .ite (debugRun_keepsBound ..) ?_
      split
      · exact keyBlob_keepsBound ..
      · exact .refl

theorem functionReset_keepsBound (s : State) (f : Nat) : KeepsBound s (functionReset f s) := by
  unfold functionReset
  exact .foldl (fun _ _ => (resetFunction_keepsBound ..)) .refl

theorem endPairCommands_keepsBound (s : State) : KeepsBound s (endPairCommands s) := by
  unfold endPairCommands
  exact .foldl (fun _ _ => (.after (changes_finish ..).keepsBound (dropRead_keepsBound ..))) (.ite (endTransition_keepsBound ..) .refl)

theorem leavePair_keepsBound (s : State) (safe : Bool) : KeepsBound s (leavePair s safe) := by
  unfold leavePair
  exact .after (changes_raiseEvent ..).keepsBound (.after (setMode_keepsBound ..) (.ite (.after (setCause_keepsBound ..) (.after (wr_keepsBound ..)
    (.after (wr_keepsBound ..) (.after (wr_keepsBound ..) (.after (.over [.pair] rfl) (.after (unprepare_keepsBound ..) (endPairCommands_keepsBound
    ..))))))) (.after (wr_keepsBound ..) (.after (wr_keepsBound ..) (.after (wr_keepsBound ..) (.after (.over [.pair] rfl) (.after
    (unprepare_keepsBound ..) (endPairCommands_keepsBound ..))))))))

theorem dieRegs_keepsBound (s : State) (d : Die) : KeepsBound s (dieRegs s d) := by
  unfold dieRegs
  exact .over [.regs] rfl

theorem setTile_keepsBound (s : State) (t : Nat) (x : Tile) : KeepsBound s (setTile s t x) := by
  unfold setTile
  exact .over [.tiles] rfl

theorem tilesLost_keepsBound (s : State) : KeepsBound s (tilesLost s) := by
  unfold tilesLost
  exact .foldl (fun _ _ => (setTile_keepsBound ..)) (.over [.ctxs, .tiles] rfl)

theorem showSchedule_keepsBound (s : State) : KeepsBound s (showSchedule s) := by
  unfold showSchedule
  exact .foldl (fun _ _ => (wrb_keepsBound ..)) .refl

theorem ctxResetD2_keepsBound (s : State) : KeepsBound s (ctxResetD2 s) := by
  unfold ctxResetD2
  extract_lets s0 s1 s2 was s2' p1 p2 p3 p4 s3 s4 s5 s6
  have h0 : KeepsBound s s0 := by
    dsimp only [s0]
    split
    · split
      · exact (changes_finish ..).keepsBound
      · exact .after (changes_finish ..).keepsBound (endTransition_keepsBound ..)
      · exact .refl
    · exact .refl
  have h1 : KeepsBound s s1 := by
    dsimp only [s1]
    split
    · exact .ite (.after (changes_finish ..).keepsBound (.after (endTransition_keepsBound ..) h0)) h0
    · exact h0
  have h2 : KeepsBound s s2 := by
    dsimp only [s2]
    split
    · exact .after (changes_finish ..).keepsBound h1
    · exact h1
  have h3 : KeepsBound s s3 := .after (.over [.ctxs, .noc, .fh, .pins] rfl) (.after (changes_mapRepairs ..).keepsBound h2)
  have h4 : KeepsBound s s4 := .after (wr_keepsBound ..) (.after (wr_keepsBound ..) (.after (wr_keepsBound ..) h3))
  have h5 : KeepsBound s s5 := .ite (.after (wr_keepsBound ..) h4) h4
  have h6 : KeepsBound s s6 := .after (wr_keepsBound ..) (.after (wr_keepsBound ..) (.after (wr_keepsBound ..) h5))
  exact .after (showSchedule_keepsBound ..) (.after (changes_dropOldChains ..).keepsBound (.after (changes_setStaged ..).keepsBound (.after (wr_keepsBound ..)
    (.after (wr_keepsBound ..) h6))))

theorem reqsResetD2_keepsBound (s : State) : KeepsBound s (reqsResetD2 s) := by
  unfold reqsResetD2
  exact .over [.mem, .noc, .dram, .enc] rfl

theorem resetD2_keepsBound (s : State) : KeepsBound s (resetD2 s) := by
  unfold resetD2
  exact .ite (.after (leavePair_keepsBound ..) (.after (setCause_keepsBound ..) (.after (.over [.boot] rfl) (.after (dieRegs_keepsBound ..) (.after
    (tilesLost_keepsBound ..) (.after (.over [.mem, .noc] rfl) (.after (onlyParts_dlockReset ..).keepsBound (.after (ctxResetD2_keepsBound ..)
    (.after (reqsResetD2_keepsBound ..) (.after (loadReset_keepsBound ..) (.foldl (fun _ _ => (spareTakes_keepsBound ..)) .refl))))))))))) (.after
    (setCause_keepsBound ..) (.after (.over [.boot] rfl) (.after (dieRegs_keepsBound ..) (.after (tilesLost_keepsBound ..) (.after (.over [.mem,
    .noc] rfl) (.after (onlyParts_dlockReset ..).keepsBound (.after (ctxResetD2_keepsBound ..) (.after (reqsResetD2_keepsBound ..) (.after
    (loadReset_keepsBound ..) (.foldl (fun _ _ => (spareTakes_keepsBound ..)) .refl))))))))))

theorem dieReset_keepsBound (s : State) (k : Nat) : KeepsBound s (dieReset k s) := by
  unfold dieReset
  split
  · exact .ite .refl (.after (setDie_keepsBound ..) (.ite (.after (resetD1_keepsBound ..) (changes_selfFault ..).keepsBound) (.ite (.after
    (resetD2_keepsBound ..) (changes_selfFault ..).keepsBound) (.after (resetD3_keepsBound ..) (changes_selfFault ..).keepsBound))))
  · exact .ite .refl (.after (setDie_keepsBound ..) (.ite (.after (resetD1_keepsBound ..) (changes_selfFault ..).keepsBound) (.ite (.after
    (resetD2_keepsBound ..) (changes_selfFault ..).keepsBound) (.after (resetD3_keepsBound ..) (changes_selfFault ..).keepsBound))))
  · exact .ite .refl (.after (setDie_keepsBound ..) (.ite (.after (resetD1_keepsBound ..) (changes_selfFault ..).keepsBound) (.ite (.after
    (resetD2_keepsBound ..) (changes_selfFault ..).keepsBound) (.after (resetD3_keepsBound ..) (changes_selfFault ..).keepsBound))))
  · exact .refl

theorem dieResetRequest_keepsBound (s : State) (mask : Nat) (confirm : Byte) : KeepsBound s (dieResetRequest mask confirm s) := by
  unfold dieResetRequest
  exact .ite .refl (.ite (wr_keepsBound ..) (.foldl (fun _ _ => by exact .ite .refl (.ite (dieResetD0_keepsBound ..) (.ite (dieReset_keepsBound ..)
    (.after (.over [.boot] rfl) (dieReset_keepsBound ..))))) .refl))

theorem trainingFails_keepsBound (s : State) (k : Nat) : KeepsBound s (trainingFails k s) := by
  unfold trainingFails
  split
  · exact .ite .refl (.after (dieReset_keepsBound ..) (advanceTo_keepsBound ..))
  · exact .refl

theorem stagingComplete_keepsBound (s : State) (sd : SwapData) : KeepsBound s (stagingComplete sd s) := by
  unfold stagingComplete
  dsimp only
  split
  · exact .refl
  · refine .ite .refl ?_
    refine .ite (.after (abandonStaging_keepsBound ..) (fault_keepsBound ..)) ?_
    refine .ite .refl ?_
    split
    · exact .after (changes_finish ..).keepsBound (.after (changes_commit ..).keepsBound (.after (stagingDone_keepsBound ..) (advanceTo_keepsBound
      ..)))
    · exact .ite (.after (stagingDone_keepsBound ..) (advanceTo_keepsBound ..)) (.ite (.after (abandonStaging_keepsBound ..) (.after
      (stagingDone_keepsBound ..) (advanceTo_keepsBound ..))) (.after (runSwap_keepsBound ..) (.after (stagingDone_keepsBound ..)
      (advanceTo_keepsBound ..))))
    · exact .after (stagingDone_keepsBound ..) (advanceTo_keepsBound ..)

theorem takeEv0_keepsBound (s : State) (t c addr : Nat) : KeepsBound s (takeEv0 s t c addr) := by
  unfold takeEv0
  exact .after (wr_keepsBound ..) (setTile_keepsBound ..)

theorem raiseExc_keepsBound (s : State) (t code : Nat) (injected : Bool) : KeepsBound s (raiseExc s t code injected) := by
  unfold raiseExc
  dsimp only
  split
  · exact .after (setTile_keepsBound ..) (.ite .refl (fault_keepsBound ..))
  · split
    · exact .after (takeEv0_keepsBound ..) (.after (setTile_keepsBound ..) (.ite .refl (fault_keepsBound ..)))
    · exact .after (setTile_keepsBound ..) (.ite .refl (fault_keepsBound ..))

theorem countEcc_keepsBound (s : State) (t : Nat) (e : Ecc) : KeepsBound s (countEcc s t e) := by
  unfold countEcc
  exact .ite (inc_keepsBound ..) .refl

theorem residueFail_keepsBound (s : State) (t e : Nat) (injected : Bool) : KeepsBound s (residueFail s t e injected) := by
  unfold residueFail
  extract_lets c s1 spareUsed wantSpare s2 x cost tries y0 y beyond s3 s4 s5 s6 s7 x7 s8
  have hwant : ∀ v, KeepsBound v (wantSpare v) := fun v => .ite (spareExhaust_keepsBound ..) (setTile_keepsBound ..)
  have hc : KeepsBound s c.1 := by
    dsimp only [c]
    split
    · exact .refl
    · exact countEvent_keepsBound ..
  have h1 : KeepsBound s s1 := .ite (.after (injectionLogged_keepsBound ..) hc) hc
  have h2 : KeepsBound s s2 := .ite (.after (hwant _) h1) h1
  have h3 : KeepsBound s s3 := .after (fault_keepsBound ..) h2
  have h4 : KeepsBound s s4 := .ite (.ite h3 (.after (inc_keepsBound ..) h3)) h2
  have h6 : KeepsBound s s6 := .after (fault_keepsBound ..) (.after (setTile_keepsBound ..) h4)
  have h7 : KeepsBound s s7 := .ite h6 (.after (hwant _) h6)
  have h8 : KeepsBound s s8 := .ite h4 (.after (inc_keepsBound ..) h4)
  exact .ite (.after (raiseExc_keepsBound ..) h2) (.ite (.ite (.ite h7 (.after (setCause_keepsBound ..) h7)) (.after (setTile_keepsBound ..) h6))
    (.after (setTile_keepsBound ..) h8))

theorem readReturn_keepsBound (s : State) (t : Nat) : KeepsBound s (readReturn t s) := by
  unfold readReturn
  dsimp only
  split
  · exact .refl
  · exact .ite .refl (.ite (.after (raiseExc_keepsBound ..) (.after (setTile_keepsBound ..) (advanceTo_keepsBound ..))) (.after (setTile_keepsBound
    ..) (advanceTo_keepsBound ..)))

theorem stagingRelease_keepsBound (s : State) (t : Nat) : KeepsBound s (stagingRelease t s) := by
  unfold stagingRelease
  exact .ite .refl (.after (setTile_keepsBound ..) (.foldl (fun _ _ => (releaseKind_keepsBound ..)) (advanceTo_keepsBound ..)))

theorem blockWatchdog_keepsBound (s : State) (t : Nat) : KeepsBound s (blockWatchdog t s) := by
  unfold blockWatchdog
  exact .ite .refl (.after (raiseExc_keepsBound ..) (.after (setTile_keepsBound ..) (advanceTo_keepsBound ..)))

theorem mapReq_keepsBound (s : State) (init tag : Nat) (f : NocReq → NocReq) : KeepsBound s (mapReq s init tag f) := by
  unfold mapReq
  exact .over [.noc] rfl

theorem served_keepsBound (s : State) (init tag total st dt : Nat) : KeepsBound s (served s init tag total st dt) := by
  unfold served
  exact mapReq_keepsBound ..

theorem putWord_keepsBound (s : State) (b w : Nat) (m : MemWord) : KeepsBound s (putWord s b w m) := by
  unfold putWord
  exact .over [.mem] rfl

theorem portATook_keepsBound (s : State) (b : Nat) : KeepsBound s (portATook s b) := by
  unfold portATook
  exact .over [.mem] rfl

theorem portBTook_keepsBound (s : State) (b : Nat) : KeepsBound s (portBTook s b) := by
  unfold portBTook
  exact .over [.mem] rfl

theorem writeLaneOpen_keepsBound (s : State) (n v : Nat) : KeepsBound s (writeLaneOpen s n v) := by
  unfold writeLaneOpen
  exact .after (wr_keepsBound ..) (.after (wr_keepsBound ..) (.after (wr_keepsBound ..) (.after (wr_keepsBound ..) (wr_keepsBound ..))))

theorem laneEnable_keepsBound (s : State) (n v : Nat) : KeepsBound s (laneEnable n v s) := by
  unfold laneEnable
  exact .ite (.after (wr_keepsBound ..) (.after (writeLaneOpen_keepsBound ..) (writeLaneHeld_keepsBound ..))) (.after (startLane_keepsBound ..)
    (.after (wr_keepsBound ..) (.after (writeLaneOpen_keepsBound ..) (writeLaneHeld_keepsBound ..))))

theorem linkCommandsEnd_keepsBound (s : State) : KeepsBound s (linkCommandsEnd s) := by
  unfold linkCommandsEnd
  dsimp only
  split
  · refine .ite ?_ ?_
    · split
      · exact .after (changes_finish ..).keepsBound (.after (endTransition_keepsBound ..) (.over [.pair] rfl))
      · exact .refl
    · refine .after (changes_finish ..).keepsBound ?_
      refine .after (unprepare_keepsBound ..) ?_
      refine .after (dropRead_keepsBound ..) ?_
      split
      · exact .after (changes_finish ..).keepsBound (.after (endTransition_keepsBound ..) (.over [.pair] rfl))
      · exact .refl
  · split
    · exact .after (changes_finish ..).keepsBound (.after (endTransition_keepsBound ..) (.over [.pair] rfl))
    · exact .refl

theorem writePins_keepsBound (s : State) (off v : Nat) : KeepsBound s (writePins off v s) := by
  unfold writePins
  exact .ite (.after (showDrives_keepsBound ..) (.ite (writeFields_keepsBound ..) (.after (debounceChange_keepsBound ..) (writeFields_keepsBound
    ..)))) (.ite (.after (changes_clkoutCheck ..).keepsBound (changeOwners_keepsBound (hf := fun _ => (ownerWrite_keepsBound ..)) ..)) (.ite
    (.after (changes_clkoutCheck ..).keepsBound (.after (showDrives_keepsBound ..) (writeFields_keepsBound ..))) (.ite (writeFields_keepsBound ..)
    (.ite (matcherConfig_keepsBound ..) (.ite (.after (matchersEdge_keepsBound ..) (writeFields_keepsBound ..)) (.ite .refl (writeFields_keepsBound
    ..)))))))

theorem setDma_keepsBound (s : State) (d : Dma) : KeepsBound s (setDma s d) := by
  unfold setDma
  exact .over [.dmas] rfl

theorem fullRetrainEnd_keepsBound (s : State) (c : Nat) (res : List GroupTrain) : KeepsBound s (fullRetrainEnd c res s) := by
  unfold fullRetrainEnd
  exact .ite (.ite (.after (retainedLost_keepsBound ..) (goOffline_keepsBound (hf := fun _ _ => (denyRead_keepsBound ..)) ..)) (.after
    (drainOn_keepsBound ..) (.after (showRetrain_keepsBound ..) (.foldl (fun _ _ => (takeGroup_keepsBound ..)) (changes_setCtrl ..).keepsBound))))
    (.ite (.ite (.after (retainedLost_keepsBound ..) (goOffline_keepsBound (hf := fun _ _ => (denyRead_keepsBound ..)) ..)) (.after
    (drainOn_keepsBound ..) (.after (showRetrain_keepsBound ..) (.foldl (fun _ _ => (takeGroup_keepsBound ..)) (changes_setCtrl ..).keepsBound))))
    .refl)

theorem retrainQuantum_keepsBound (s : State) (c sub : Nat) (res : Option (Fin 10 × GroupTrain)) (last : Bool) : KeepsBound s (retrainQuantum c sub
  res last s) := by
  unfold retrainQuantum
  refine .ite .refl ?_
  refine .after (showRetrain_keepsBound ..) ?_
  split
  · exact .after (changes_setCtrl ..).keepsBound (.after (changes_advance ..).keepsBound (advanceTo_keepsBound ..))
  · exact .ite (.after (fault_keepsBound ..) (.after (setMarginLow_keepsBound ..) (.after (changes_setCtrl ..).keepsBound (.after (changes_advance
    ..).keepsBound (advanceTo_keepsBound ..))))) (.after (takeGroup_keepsBound ..) (.after (changes_setCtrl ..).keepsBound (.after (changes_advance
    ..).keepsBound (advanceTo_keepsBound ..))))

theorem prepareFails_keepsBound (s : State) (p : Prepared) (i : Nat) (st : Status) : KeepsBound s (prepareFails s p i st) := by
  unfold prepareFails
  exact .after (changes_sendControl ..).keepsBound (.after (changes_finish ..).keepsBound (unprepare_keepsBound ..))

theorem pairCheck_keepsBound (s : State) : KeepsBound s (pairCheck s) := by
  unfold pairCheck
  dsimp only
  split
  · exact .refl
  · split
    · exact prepareFails_keepsBound ..
    · exact .ite .refl (.ite (.after (changes_finish ..).keepsBound (.after (changes_commit ..).keepsBound (.after (changes_sendControl
      ..).keepsBound (.over [.pair] rfl)))) (.after (changes_sendControl ..).keepsBound (.over [.pair] rfl)))

theorem abortTarget_keepsBound (s : State) (t u : Track) : KeepsBound s (abortTarget t u s) := by
  unfold abortTarget
  exact .ite (changes_finish ..).keepsBound (.ite (.after (changes_finish ..).keepsBound (.after (changes_commit ..).keepsBound (changes_mapTrack
    ..).keepsBound)) (.ite (.after (changes_finish ..).keepsBound (.after (changes_finish ..).keepsBound (.after (changes_mapTrack ..).keepsBound
    (.after (changes_commit ..).keepsBound (changes_mapTrack ..).keepsBound)))) (.after (changes_finish ..).keepsBound (.after (rollback_keepsBound
    ..) (.after (changes_mapTrack ..).keepsBound (.after (changes_commit ..).keepsBound (changes_mapTrack ..).keepsBound))))))

theorem abort_keepsBound (s : State) (t : Track) : KeepsBound s (abort t s) := by
  unfold abort
  split
  · exact (changes_finish ..).keepsBound
  · refine .ite (changes_finish ..).keepsBound ?_
    split
    · exact abortTarget_keepsBound ..
    · split
      · exact .ite (.after (changes_finish ..).keepsBound (changes_commit ..).keepsBound) (changes_finish ..).keepsBound
      · exact (changes_finish ..).keepsBound

theorem applyAdjust_keepsBound (s : State) (p : TimeStep) : KeepsBound s (applyAdjust s p) := by
  unfold applyAdjust
  dsimp only
  refine .ite ?_ ?_
  · refine .ite ?_ ?_
    · split
      · exact (changes_finish ..).keepsBound
      · exact .refl
    · split
      · exact .after (changes_finish ..).keepsBound (.after (changes_commit ..).keepsBound (.ite (.over [.tim] rfl) (.over [.tim] rfl)))
      · exact .ite (.over [.tim] rfl) (.over [.tim] rfl)
  · split
    · exact .after (changes_finish ..).keepsBound (.after (changes_commit ..).keepsBound (.ite (.after (changes_raiseEvent ..).keepsBound (.after
      (inc_keepsBound ..) (.ite (.after (showTiming_keepsBound ..) (.ite (.after (.over [.tim] rfl) (applyStep_keepsBound ..))
      (applyStep_keepsBound ..))) (.ite (.after (.over [.tim] rfl) (applyStep_keepsBound ..)) (applyStep_keepsBound ..))))) (.ite (.after
      (showTiming_keepsBound ..) (.ite (.after (.over [.tim] rfl) (applyStep_keepsBound ..)) (applyStep_keepsBound ..))) (.ite (.after (.over
      [.tim] rfl) (applyStep_keepsBound ..)) (applyStep_keepsBound ..)))))
    · exact .ite (.after (changes_raiseEvent ..).keepsBound (.after (inc_keepsBound ..) (.ite (.after (showTiming_keepsBound ..) (.ite (.after
      (.over [.tim] rfl) (applyStep_keepsBound ..)) (applyStep_keepsBound ..))) (.ite (.after (.over [.tim] rfl) (applyStep_keepsBound ..))
      (applyStep_keepsBound ..))))) (.ite (.after (showTiming_keepsBound ..) (.ite (.after (.over [.tim] rfl) (applyStep_keepsBound ..))
      (applyStep_keepsBound ..))) (.ite (.after (.over [.tim] rfl) (applyStep_keepsBound ..)) (applyStep_keepsBound ..)))

theorem timeAdjust_keepsBound (s : State) (t : Track) : KeepsBound s (timeAdjust t s) := by
  unfold timeAdjust
  exact .ite (changes_finish ..).keepsBound (.ite (changes_finish ..).keepsBound (.ite (announceStep_keepsBound ..) (.after (applyAdjust_keepsBound
    ..) (.ite .refl (advanceTo_keepsBound ..)))))

theorem nocLogDeny_keepsBound (s : State) (pa init : Nat) : KeepsBound s (nocLogDeny s pa init) := by
  unfold nocLogDeny
  exact .after (wr_keepsBound ..) (.after (wr_keepsBound ..) (wr_keepsBound ..))

theorem deliverAt_keepsBound (s : State) (before : State) (t : Nat) : KeepsBound s (deliverAt before s t) := by
  unfold deliverAt
  exact .over [.noc] rfl

theorem freshInt_keepsBound (s : State) (w : Nat) : KeepsBound s (freshInt s w).2 := by
  unfold freshInt
  dsimp only
  exact fresh_keepsBound ..

theorem steer_keepsBound (s : State) (dT : Int) : KeepsBound s (steer s dT) := by
  unfold steer
  exact .ite (.ite (.ite .refl (.ite (.after (.over [.tim] rfl) (freshInt_keepsBound ..)) (.after (.over [.tim] rfl) (freshInt_keepsBound ..))))
    .refl) (.ite (.ite (.after (.over [.tim] rfl) (freshInt_keepsBound ..)) (.after (.over [.tim] rfl) (freshInt_keepsBound ..))) (.ite (.ite .refl
    (.ite (.after (.over [.tim] rfl) (freshInt_keepsBound ..)) (.after (.over [.tim] rfl) (freshInt_keepsBound ..)))) (.ite (.after (.over [.tim]
    rfl) (freshInt_keepsBound ..)) (.over [.tim] rfl))))

theorem learn_keepsBound (s : State) : KeepsBound s (learn s) := by
  unfold learn
  exact .ite .refl (.ite (.after (inc_keepsBound ..) (.after (.over [.tim] rfl) (.over [.tim] rfl))) (.after (.over [.tim] rfl) (.over [.tim] rfl)))

theorem noteRefs_keepsBound (s : State) : KeepsBound s (noteRefs s) := by
  unfold noteRefs
  exact .over [.tim] rfl

theorem readOscTemp_keepsBound (s : State) : KeepsBound s (readOscTemp s) := by
  unfold readOscTemp
  exact .over [.tim] rfl

theorem stepEdge_keepsBound (s : State) : KeepsBound s (stepEdge s) := by
  unfold stepEdge
  split
  · exact .refl
  · exact .after (applyAdjust_keepsBound ..) (.ite (.after (changes_advanceToCounter ..).keepsBound (.over [.tim] rfl)) (.after
    (advanceTo_keepsBound ..) (.after (changes_advanceToCounter ..).keepsBound (.over [.tim] rfl))))

theorem resend_keepsBound (s : State) (b : ControlBlock) : KeepsBound s (resend s b) := by
  unfold resend
  refine .foldl (fun s a => ?_) .refl
  split
  · exact .ite (.over [.outbox] rfl) .refl
  · exact .refl

theorem shadowActs_keepsBound (s : State) : KeepsBound s (shadowActs s) := by
  unfold shadowActs
  exact .ite (changes_decideTakeover ..).keepsBound (leavePair_keepsBound ..)

theorem formCompare_keepsBound (s : State) : KeepsBound s (formCompare s) := by
  unfold formCompare
  split
  · exact .ite .refl (.ite (.after (.over [.pair] rfl) (.over [.pair] rfl)) (.after (changes_finish ..).keepsBound (.after
    (endTransition_keepsBound ..) (.after (.over [.pair] rfl) (.over [.pair] rfl)))))
  · exact .refl

theorem compareAgain_keepsBound (s : State) : KeepsBound s (compareAgain s) := by
  unfold compareAgain
  split
  · exact .after (changes_updateFit ..).keepsBound (.ite (.over [.pair] rfl) (.after (changes_raiseEvent ..).keepsBound (.over [.pair] rfl)))
  · exact .refl

theorem verdictArrives_keepsBound (s : State) (n : Nat) (ok : Bool) : KeepsBound s (verdictArrives s n ok) := by
  unfold verdictArrives
  split
  · exact .refl
  · exact .ite (changes_setVerdict ..).keepsBound (.after (changes_unitMismatch ..).keepsBound (changes_setVerdict ..).keepsBound)

theorem partnerReady_keepsBound (s : State) (change : Nat) : KeepsBound s (partnerReady s change) := by
  unfold partnerReady
  split
  · exact .ite (.over [.pair] rfl) (.ite (.after (changes_finish ..).keepsBound (.after (changes_commit ..).keepsBound (.over [.pair] rfl))) (.over
    [.pair] rfl))
  · exact .over [.pair] rfl

theorem partnerUnready_keepsBound (s : State) (change i : Nat) : KeepsBound s (partnerUnready s change i) := by
  unfold partnerUnready
  split
  · exact .ite (.after (changes_finish ..).keepsBound (.after (unprepare_keepsBound ..) (dropRead_keepsBound ..))) (.over [.pair] rfl)
  · exact .over [.pair] rfl

theorem takeNote_keepsBound (s : State) (unit : Nat) (x : Note) : KeepsBound s (takeNote s unit x) := by
  unfold takeNote
  split
  · exact .refl
  · exact .over [.pair] rfl
  · exact .over [.pair] rfl
  · exact .ite .refl (.over [.tim] rfl)
  · exact .ite (.over [.pair] rfl) .refl
  · exact .ite .refl (.ite (.over [.pair] rfl) (.over [.pair] rfl))
  · exact .ite .refl (.over [.pair] rfl)
  · exact .over [.pair] rfl
  · exact .ite (.after (wr_keepsBound ..) (changes_startResync ..).keepsBound) .refl
  · exact .ite (.after (formCompare_keepsBound ..) (.over [.pair] rfl)) (.after (compareAgain_keepsBound ..) (.over [.pair] rfl))
  · exact .ite (verdictArrives_keepsBound ..) .refl
  · exact .over [.pair] rfl
  · exact partnerReady_keepsBound ..
  · exact partnerUnready_keepsBound ..
  · exact .ite (.over [.pair] rfl) (.ite (.over [.pair] rfl) .refl)

theorem digestArrives_keepsBound (s : State) (n : Nat) (d : BitVec 64) (w : Option (BitVec 64)) : KeepsBound s (digestArrives s n d w) := by
  unfold digestArrives
  split
  · exact .ite (changes_judge ..).keepsBound (changes_setVerdict ..).keepsBound
  · exact .ite (.over [.pair] rfl) .refl

theorem takeBlock_keepsBound (s : State) (b : ControlBlock) : KeepsBound s (takeBlock b s) := by
  unfold takeBlock
  exact .ite (.after (leavePair_keepsBound ..) (.ite (.after (wrb_keepsBound ..) (.ite (.after (wr_keepsBound ..) (.after (resend_keepsBound ..)
    (.after (changes_settleLanes ..).keepsBound (.after (wrb_keepsBound ..) (.after (wr_keepsBound ..) (.over [.pair] rfl)))))) (.after
    (resend_keepsBound ..) (.after (changes_settleLanes ..).keepsBound (.after (wrb_keepsBound ..) (.after (wr_keepsBound ..) (.over [.pair]
    rfl))))))) (.ite (.after (wr_keepsBound ..) (.after (resend_keepsBound ..) (.after (changes_settleLanes ..).keepsBound (.after (wrb_keepsBound
    ..) (.after (wr_keepsBound ..) (.over [.pair] rfl)))))) (.after (resend_keepsBound ..) (.after (changes_settleLanes ..).keepsBound (.after
    (wrb_keepsBound ..) (.after (wr_keepsBound ..) (.over [.pair] rfl)))))))) (.ite (.after (shadowActs_keepsBound ..) (.after (.over [.pair] rfl)
    (.after (takeNote_keepsBound ..) (.ite (.after (digestArrives_keepsBound ..) (.ite (.after (wrb_keepsBound ..) (.ite (.after (wr_keepsBound ..)
    (.after (resend_keepsBound ..) (.after (changes_settleLanes ..).keepsBound (.after (wrb_keepsBound ..) (.after (wr_keepsBound ..) (.over
    [.pair] rfl)))))) (.after (resend_keepsBound ..) (.after (changes_settleLanes ..).keepsBound (.after (wrb_keepsBound ..) (.after (wr_keepsBound
    ..) (.over [.pair] rfl))))))) (.ite (.after (wr_keepsBound ..) (.after (resend_keepsBound ..) (.after (changes_settleLanes ..).keepsBound
    (.after (wrb_keepsBound ..) (.after (wr_keepsBound ..) (.over [.pair] rfl)))))) (.after (resend_keepsBound ..) (.after (changes_settleLanes
    ..).keepsBound (.after (wrb_keepsBound ..) (.after (wr_keepsBound ..) (.over [.pair] rfl)))))))) (.ite (.after (wrb_keepsBound ..) (.ite
    (.after (wr_keepsBound ..) (.after (resend_keepsBound ..) (.after (changes_settleLanes ..).keepsBound (.after (wrb_keepsBound ..) (.after
    (wr_keepsBound ..) (.over [.pair] rfl)))))) (.after (resend_keepsBound ..) (.after (changes_settleLanes ..).keepsBound (.after (wrb_keepsBound
    ..) (.after (wr_keepsBound ..) (.over [.pair] rfl))))))) (.ite (.after (wr_keepsBound ..) (.after (resend_keepsBound ..) (.after
    (changes_settleLanes ..).keepsBound (.after (wrb_keepsBound ..) (.after (wr_keepsBound ..) (.over [.pair] rfl)))))) (.after (resend_keepsBound
    ..) (.after (changes_settleLanes ..).keepsBound (.after (wrb_keepsBound ..) (.after (wr_keepsBound ..) (.over [.pair] rfl))))))))))) (.after
    (takeNote_keepsBound ..) (.ite (.after (digestArrives_keepsBound ..) (.ite (.after (wrb_keepsBound ..) (.ite (.after (wr_keepsBound ..) (.after
    (resend_keepsBound ..) (.after (changes_settleLanes ..).keepsBound (.after (wrb_keepsBound ..) (.after (wr_keepsBound ..) (.over [.pair]
    rfl)))))) (.after (resend_keepsBound ..) (.after (changes_settleLanes ..).keepsBound (.after (wrb_keepsBound ..) (.after (wr_keepsBound ..)
    (.over [.pair] rfl))))))) (.ite (.after (wr_keepsBound ..) (.after (resend_keepsBound ..) (.after (changes_settleLanes ..).keepsBound (.after
    (wrb_keepsBound ..) (.after (wr_keepsBound ..) (.over [.pair] rfl)))))) (.after (resend_keepsBound ..) (.after (changes_settleLanes
    ..).keepsBound (.after (wrb_keepsBound ..) (.after (wr_keepsBound ..) (.over [.pair] rfl)))))))) (.ite (.after (wrb_keepsBound ..) (.ite
    (.after (wr_keepsBound ..) (.after (resend_keepsBound ..) (.after (changes_settleLanes ..).keepsBound (.after (wrb_keepsBound ..) (.after
    (wr_keepsBound ..) (.over [.pair] rfl)))))) (.after (resend_keepsBound ..) (.after (changes_settleLanes ..).keepsBound (.after (wrb_keepsBound
    ..) (.after (wr_keepsBound ..) (.over [.pair] rfl))))))) (.ite (.after (wr_keepsBound ..) (.after (resend_keepsBound ..) (.after
    (changes_settleLanes ..).keepsBound (.after (wrb_keepsBound ..) (.after (wr_keepsBound ..) (.over [.pair] rfl)))))) (.after (resend_keepsBound
    ..) (.after (changes_settleLanes ..).keepsBound (.after (wrb_keepsBound ..) (.after (wr_keepsBound ..) (.over [.pair] rfl))))))))))

theorem controlBlock_keepsBound (s : State) (b : ControlBlock) (crcOk : Bool) : KeepsBound s (controlBlock b crcOk s) := by
  unfold controlBlock
  exact .ite .refl (.ite (.after (changes_stepChange ..).keepsBound (takeBlock_keepsBound ..)) (.over [.pair] rfl))

theorem firstUnit_keepsBound (s : State) (ns : Nat) : KeepsBound s (firstUnit s ns) := by
  unfold firstUnit
  exact .over [.pair] rfl

theorem heartbeatLoss_keepsBound (s : State) : KeepsBound s (heartbeatLoss s) := by
  unfold heartbeatLoss
  exact .ite .refl (.ite (.after (shadowActs_keepsBound ..) (.ite (.after (wr_keepsBound ..) (.after (wr_keepsBound ..) (.after (.over [.pair] rfl)
    (advanceTo_keepsBound ..)))) (.after (wr_keepsBound ..) (.after (.over [.pair] rfl) (advanceTo_keepsBound ..))))) (.ite (.after (.over [.pair]
    rfl) (.ite (.after (wr_keepsBound ..) (.after (wr_keepsBound ..) (.after (.over [.pair] rfl) (advanceTo_keepsBound ..)))) (.after
    (wr_keepsBound ..) (.after (.over [.pair] rfl) (advanceTo_keepsBound ..))))) (.ite (.after (wr_keepsBound ..) (.after (wr_keepsBound ..)
    (.after (.over [.pair] rfl) (advanceTo_keepsBound ..)))) (.after (wr_keepsBound ..) (.after (.over [.pair] rfl) (advanceTo_keepsBound ..))))))

theorem takeLead_keepsBound (s : State) (id : Option Nat) (edge : Nat) : KeepsBound s (takeLead s id edge) := by
  unfold takeLead
  refine .after (ownTime_keepsBound ..) ?_
  refine .after (changes_sendControl ..).keepsBound ?_
  refine .after (changes_raiseEvent ..).keepsBound ?_
  refine .after (inc_keepsBound ..) ?_
  refine .after (wr_keepsBound ..) ?_
  refine .after (wr_keepsBound ..) ?_
  refine .after (wr_keepsBound ..) ?_
  refine .after (.over [.pair] rfl) ?_
  refine .foldl (fun _ _ => (adoptMirror_keepsBound ..)) ?_
  refine .after (liftIfClear_keepsBound ..) ?_
  refine .after (setMode_keepsBound ..) ?_
  refine .after (changes_exitAllEi ..).keepsBound ?_
  refine .after (unprepare_keepsBound ..) ?_
  refine .after (endPairCommands_keepsBound ..) ?_
  split
  · exact .after (finishTime_keepsBound ..) (changes_commit ..).keepsBound
  · exact .refl

theorem notTaken_keepsBound (s : State) (k : Takeover) : KeepsBound s (notTaken s k) := by
  unfold notTaken
  split
  · exact .after (changes_finish ..).keepsBound (.over [.pair] rfl)
  · exact .over [.pair] rfl

theorem takeoverEdge_keepsBound (s : State) : KeepsBound s (takeoverEdge s) := by
  unfold takeoverEdge
  refine .ite ?_ ?_
  · split
    · exact .refl
    · exact .ite (.after (takeLead_keepsBound ..) (changes_toBoundary ..).keepsBound) (.ite (.after (leavePair_keepsBound ..) (changes_toBoundary
      ..).keepsBound) (.after (notTaken_keepsBound ..) (changes_toBoundary ..).keepsBound))
  · refine .ite ?_ .refl
    split
    · exact .refl
    · exact .after (leavePair_keepsBound ..) (changes_toBoundary ..).keepsBound
    · refine .ite (.after (notTaken_keepsBound ..) (changes_toBoundary ..).keepsBound) ?_
      split
      · exact .after (leavePair_keepsBound ..) (.after (finishTime_keepsBound ..) (.after (changes_commit ..).keepsBound (changes_toBoundary
        ..).keepsBound))
      · exact .after (leavePair_keepsBound ..) (changes_toBoundary ..).keepsBound

theorem partnerTimeout_keepsBound (s : State) : KeepsBound s (partnerTimeout s) := by
  unfold partnerTimeout
  split
  · exact .ite .refl (.after (leavePair_keepsBound ..) (advanceTo_keepsBound ..))
  · exact .refl

theorem dissolveBoundary_keepsBound (s : State) : KeepsBound s (dissolveBoundary s) := by
  unfold dissolveBoundary
  split
  · exact .refl
  · refine .ite ?_ ?_
    · refine .after (.over [.pair] rfl) ?_
      split
      · exact .after (changes_finish ..).keepsBound (.after (changes_commit ..).keepsBound (.after (endTransition_keepsBound ..)
        (changes_toBoundary ..).keepsBound))
      · exact (changes_toBoundary ..).keepsBound
    · refine .after (leavePair_keepsBound ..) ?_
      refine .after (.over [.pair] rfl) ?_
      split
      · exact .after (changes_finish ..).keepsBound (.after (changes_commit ..).keepsBound (.after (endTransition_keepsBound ..)
        (changes_toBoundary ..).keepsBound))
      · exact (changes_toBoundary ..).keepsBound

theorem changeDone_keepsBound (s : State) : KeepsBound s (changeDone s) := by
  unfold changeDone
  split
  · exact .refl
  · exact .ite .refl (.after (compareAgain_keepsBound ..) (.after (changes_sendControl ..).keepsBound (.over [.pair] rfl)))

theorem newPrograms_keepsBound (s : State) (l : Load) : KeepsBound s (newPrograms s l) := by
  unfold newPrograms
  exact .foldl (fun _ _ => (setTile_keepsBound ..)) (.over [.ctxs, .tiles] rfl)

theorem keepRanges_keepsBound (s : State) (c : Nat) : KeepsBound s (keepRanges s c) := by
  unfold keepRanges
  exact .ite .refl (.over [.tiles] rfl)

theorem supersede_keepsBound (s : State) (c : Nat) : KeepsBound s (supersede s c) := by
  unfold supersede
  refine .ite ?_ ?_
  · refine .after (restage_keepsBound ..) ?_
    refine .after (changes_setStaged ..).keepsBound ?_
    split
    · exact .ite (.after (.over [.ctxs] rfl) (.ite (.after (.over [.ctxs] rfl) (keepRanges_keepsBound ..)) (keepRanges_keepsBound ..))) (.ite
      (.after (.over [.ctxs] rfl) (keepRanges_keepsBound ..)) (keepRanges_keepsBound ..))
    · exact .ite (.after (.over [.ctxs] rfl) (keepRanges_keepsBound ..)) (keepRanges_keepsBound ..)
  · split
    · exact .ite (.after (.over [.ctxs] rfl) (.ite (.after (.over [.ctxs] rfl) (keepRanges_keepsBound ..)) (keepRanges_keepsBound ..))) (.ite
      (.after (.over [.ctxs] rfl) (keepRanges_keepsBound ..)) (keepRanges_keepsBound ..))
    · exact .ite (.after (.over [.ctxs] rfl) (keepRanges_keepsBound ..)) (keepRanges_keepsBound ..)

theorem commitLoad_keepsBound (s : State) (l : Load) : KeepsBound s (commitLoad l s) := by
  unfold commitLoad
  exact .ite (endLoad_keepsBound ..) (.after (changes_finish ..).keepsBound (.after (changes_showStore ..).keepsBound (.after
    (changes_dropOldChains ..).keepsBound (.after (wr_keepsBound ..) (.after (wr_keepsBound ..) (.after (wr_keepsBound ..) (.after (wr_keepsBound
    ..) (.after (wrb_keepsBound ..) (.after (wr_keepsBound ..) (.after (onlyParts_dropRepairs ..).keepsBound (.after (.over [.ctxs, .imgs] rfl)
    (.after (newPrograms_keepsBound ..) (supersede_keepsBound ..)))))))))))))

theorem scheduleArm_keepsBound (s : State) (t : Track) : KeepsBound s (scheduleArm t s) := by
  unfold scheduleArm
  exact .after (changes_finish ..).keepsBound (.ite (.after (showSchedule_keepsBound ..) (.after (wr_keepsBound ..) (.over [.ctxs] rfl))) (.after
    (scheduleStage_keepsBound ..) (.after (showSchedule_keepsBound ..) (.after (wr_keepsBound ..) (.over [.ctxs] rfl)))))

theorem zeroiseSlot_keepsBound (s : State) (m : Nat) : KeepsBound s (zeroiseSlot s m) := by
  unfold zeroiseSlot
  exact .after (setSlotState_keepsBound ..) (.over [.enc] rfl)

theorem rekeyQueue_keepsBound (s : State) (t : Track) : KeepsBound s (rekeyQueue t s) := by
  unfold rekeyQueue
  exact queueSweep_keepsBound ..

theorem listedCommit_keepsBound (s : State) (t : Track) : KeepsBound s (listedCommit s t) := by
  unfold listedCommit
  refine .ite ?_ (.ite (scheduleArm_keepsBound ..) (.ite (.ite (retire_keepsBound ..) .refl) (.ite (installKey_keepsBound ..) (.ite
    (zeroiseSlot_keepsBound ..) (rekeyQueue_keepsBound ..)))))
  split
  · exact .ite (commitLoad_keepsBound ..) .refl
  · exact .refl

theorem commitListed_keepsBound (s : State) : KeepsBound s (commitListed s) := by
  unfold commitListed
  split
  · exact .refl
  · refine .after (changeDone_keepsBound ..) ?_
    refine .after (dropTracks_keepsBound ..) ?_
    refine .after (.over [.pair] rfl) ?_
    refine .foldl (fun s a => ?_) .refl
    split
    · exact .after (listedCommit_keepsBound ..) (changes_commit ..).keepsBound
    · exact .refl

theorem readHost_keepsBound (s : State) (id addr n : Nat) : KeepsBound s (readHost s id addr n) := by
  unfold readHost
  exact .over [.link, .outbox] rfl

theorem headerRead_keepsBound (s : State) (l : Load) : KeepsBound s (headerRead s l) := by
  unfold headerRead
  split
  · exact endLoad_keepsBound ..
  · exact .ite (.after (readHost_keepsBound ..) (.after (setLoad_keepsBound ..) (wrb_keepsBound ..))) (.after (afterChecks_keepsBound ..)
    (wrb_keepsBound ..))

theorem loadRead_keepsBound (s : State) (l : Load) (d : List Byte) : KeepsBound s (loadRead s l d) := by
  unfold loadRead
  exact .ite (.ite (headerRead_keepsBound ..) (.after (.over [.sec] rfl) (setLoad_keepsBound ..))) .refl

theorem contextRetire_keepsBound (s : State) (t : Track) : KeepsBound s (contextRetire t s) := by
  unfold contextRetire
  exact .ite (changes_finish ..).keepsBound (.ite (changes_finish ..).keepsBound (.ite (reachCommit_keepsBound (hf := fun _ => (changes_finish
    ..).keepsBound) ..) (reachCommit_keepsBound (hf := fun _ => (retire_keepsBound ..)) ..)))

end Sys2Proof.Machine
end

section
set_option Elab.async false
/-! Operations that keep the bound of the fault log: queues, packets, metadata and pieces of data. -/

namespace Sys2Proof.Machine

theorem ppsLost_keepsBound (s : State) : KeepsBound s (ppsLost s) := by
  unfold ppsLost
  exact .ite .refl (.after (noteRefs_keepsBound ..) (.after (wr_keepsBound ..) (.after (.withTim ..) (advanceTo_keepsBound ..))))

theorem formTimeout_keepsBound (s : State) : KeepsBound s (formTimeout s) := by
  unfold formTimeout
  split
  · exact .after (changes_finish ..).keepsBound (.after (endTransition_keepsBound ..) (.after (.withPair ..) (advanceTo_keepsBound ..)))
  · exact .refl

theorem frameDone_keepsBound (s : State) : KeepsBound s (frameDone s) := by
  unfold frameDone
  split
  · exact .refl
  · exact .ite (.after (.withPair ..) (changes_toBoundary ..).keepsBound) (.ite (.after (changes_updateFit ..).keepsBound (.after (.withPair ..)
    (.after (.withPair ..) (changes_toBoundary ..).keepsBound))) (.ite (.after (changes_raiseEvent ..).keepsBound (.after (fault_keepsBound ..)
    (.after (.withPair ..) (.after (.withPair ..) (changes_toBoundary ..).keepsBound)))) (.after (changes_sendControl ..).keepsBound (.after
    (changes_startResync ..).keepsBound (.after (.withPair ..) (.after (.withPair ..) (changes_toBoundary ..).keepsBound))))))

theorem timeAverage_keepsBound (s : State) : KeepsBound s (timeAverage s) := by
  unfold timeAverage
  exact .ite .refl (.ite (.after (.withPair ..) (advanceTo_keepsBound ..)) (.after (changes_updateFit ..).keepsBound (.ite (.after (wr_keepsBound
    ..) (.after (.withPair ..) (.after (.withPair ..) (advanceTo_keepsBound ..)))) (.after (planStep_keepsBound ..) (.after (wr_keepsBound ..)
    (.after (.withPair ..) (.after (.withPair ..) (advanceTo_keepsBound ..))))))))

theorem copyEnd_keepsBound (s : State) : KeepsBound s (copyEnd s) := by
  unfold copyEnd
  split
  · exact .refl
  · exact .ite .refl (.after (startStream_keepsBound ..) (.after (.withCtxs ..) (advanceTo_keepsBound ..)))

theorem turnBegins_keepsBound (s : State) : KeepsBound s (turnBegins s) := by
  unfold turnBegins
  split
  · exact (changes_mapTrack ..).keepsBound
  · exact .refl

theorem disarm_keepsBound (s : State) : KeepsBound s (disarm s) := by
  unfold disarm
  exact .after (wr_keepsBound ..) (.withCtxs ..)

theorem armedSwap_keepsBound (s : State) (a : ArmedSwap) (sd : SwapData) : KeepsBound s (armedSwap s a sd) := by
  unfold armedSwap
  exact .after (finishTime_keepsBound ..) (.after (scheduleStage_keepsBound ..) (.after (disarm_keepsBound ..) (doSwap_keepsBound ..)))

theorem swapRecord_keepsBound (s : State) (bank due : Nat) (edge : Option Nat) (entry c kind reason : Nat) : KeepsBound s (swapRecord s bank due
  edge entry c kind reason) := by
  unfold swapRecord
  exact .after (changes_raiseEvent ..).keepsBound (.ite (.after (inc_keepsBound ..) (.ite (.after (wr_keepsBound ..) (.withCtxs ..)) (.after
    (wr_keepsBound ..) (.after (.withCtxs ..) (.withCtxs ..))))) (.ite (.ite (.after (wr_keepsBound ..) (.withCtxs ..)) (.after (wr_keepsBound ..)
    (.after (.withCtxs ..) (.withCtxs ..)))) (.after (inc_keepsBound ..) (.ite (.after (wr_keepsBound ..) (.withCtxs ..)) (.after (wr_keepsBound
    ..) (.after (.withCtxs ..) (.withCtxs ..)))))))

theorem moveFlit_keepsBound (s : State) (f : Flit) (router t : Nat) : KeepsBound s (moveFlit s f router t) := by
  unfold moveFlit
  exact .after (.withNoc ..) (mapReq_keepsBound ..)

theorem answerPoisoned_keepsBound (s : State) (init tag : Nat) : KeepsBound s (answerPoisoned s init tag) := by
  unfold answerPoisoned
  exact mapReq_keepsBound ..

theorem arriveCheck_keepsBound (s : State) (init tag : Nat) : KeepsBound s (arriveCheck s init tag) := by
  unfold arriveCheck
  split
  · exact .refl
  · exact .ite .refl (.ite (answerPoisoned_keepsBound ..) (.ite (.after (inc_keepsBound ..) (answerPoisoned_keepsBound ..)) (mapReq_keepsBound ..)))

theorem nocMake_keepsBound (s : State) (init : Nat) (o : NocOwner) (write : Bool) (pa len : Nat) (kid : Option Nat) (be : BitVec 64) (data : List
  (BitVec 512)) : KeepsBound s (nocMake s init o write pa len kid be data) := by
  unfold nocMake
  exact .withNoc ..

theorem dmaRead_keepsBound (s : State) (d : Dma) (pa n : Nat) : KeepsBound s (dmaRead s d pa n) := by
  unfold dmaRead
  exact nocMake_keepsBound ..

theorem enqueueRead_keepsBound (s : State) (c : Nat) (q : DramReq) : KeepsBound s (enqueueRead s c q) := by
  unfold enqueueRead
  exact .after (changes_setCtrl ..).keepsBound (settleOlder_keepsBound ..)

theorem enqueueWrite_keepsBound (s : State) (c : Nat) (r : DramReq) : KeepsBound s (enqueueWrite s c r) := by
  unfold enqueueWrite
  exact (changes_setCtrl ..).keepsBound

theorem setCache_keepsBound (s : State) (m : Nat) (l : List CacheLine) : KeepsBound s (setCache s m l) := by
  unfold setCache
  exact .withEnc ..

theorem mapOp_keepsBound (s : State) (init tag : Nat) (f : EncOp → EncOp) : KeepsBound s (mapOp s init tag f) := by
  unfold mapOp
  exact .withEnc ..

theorem partDone_keepsBound (s : State) (q : DramReq) (r : LineRead) : KeepsBound s (partDone s q r) := by
  unfold partDone
  split
  · exact .refl
  · exact .ite (answerLine_keepsBound ..) (.after (answerLine_keepsBound ..) (enqueueWrite_keepsBound ..))

theorem setTag_keepsBound (s : State) (line : Nat) (e : TagEntry) : KeepsBound s (setTag s line e) := by
  unfold setTag
  exact .withEnc ..

theorem changeMeta_keepsBound (s : State) (n m : Nat) (d : BitVec 512) : KeepsBound s (changeMeta s n m d) := by
  unfold changeMeta
  exact .ite .refl (.foldl (fun _ _ => (setTag_keepsBound ..)) .refl)

theorem mapWork_keepsBound (s : State) (f : SweepWork → SweepWork) : KeepsBound s (mapWork s f) := by
  unfold mapWork
  exact .withEnc ..

theorem showOutstanding_keepsBound (s : State) (q : Nat) : KeepsBound s (showOutstanding s q) := by
  unfold showOutstanding
  exact wr_keepsBound ..

theorem addTrack_keepsBound (s : State) (t : Track) : KeepsBound s (addTrack s t) := by
  unfold addTrack
  exact .withLink ..

theorem setQueue_keepsBound (s : State) (q : Nat) (x : Queue) : KeepsBound s (setQueue s q x) := by
  unfold setQueue
  exact .withLink ..

theorem fetchEntryStart_keepsBound (s : State) (q : Nat) (e : Line) : KeepsBound s (fetchEntry.start s q e) := by
  unfold fetchEntry.start
  split
  · exact .refl
  · exact .after (showOutstanding_keepsBound ..) (.after (addTrack_keepsBound ..) (setQueue_keepsBound ..))

theorem fetchEntry_keepsBound (s : State) (q : Nat) (e : Line) : KeepsBound s (fetchEntry s q e) := by
  unfold fetchEntry
  split
  · exact .refl
  · refine .ite (.after (showOutstanding_keepsBound ..) (.after (addTrack_keepsBound ..) (setQueue_keepsBound ..))) ?_
    refine .ite (fetchEntryStart_keepsBound ..) ?_
    refine .ite (.after (showOutstanding_keepsBound ..) (.after (addTrack_keepsBound ..) (setQueue_keepsBound ..))) ?_
    split
    · exact .ite (.ite (.after (showOutstanding_keepsBound ..) (.after (addTrack_keepsBound ..) (setQueue_keepsBound ..))) (.after
      (showOutstanding_keepsBound ..) (.after (addTrack_keepsBound ..) (setQueue_keepsBound ..)))) (fetchEntryStart_keepsBound ..)
    · exact fetchEntryStart_keepsBound ..

theorem instant_keepsBound (s : State) (e : Edges) : KeepsBound s (instant s e) := by
  unfold instant
  exact .over [.ctxs, .free] rfl

theorem setLatch_keepsBound (s : State) (staged : Bool) (f : Nat) (d : Frame) : KeepsBound s (setLatch s staged f d) := by
  unfold setLatch
  exact .withCtxs ..

theorem endSweep_keepsBound (s : State) : KeepsBound s (endSweep s) := by
  unfold endSweep
  split
  · exact .refl
  · refine .after (showSweeps_keepsBound ..) ?_
    refine .after (startSweep_keepsBound ..) ?_
    split
    · exact .after (wr_keepsBound ..) (.withEnc ..)
    · exact .withEnc ..
    · exact .after (changes_finish ..).keepsBound (.after (wr_keepsBound ..) (.after (wr_keepsBound ..) (.after (.withEnc ..) (.withEnc ..))))

theorem signalCompletion_keepsBound (s : State) (q : Nat) (t : Track) : KeepsBound s (signalCompletion s q t) := by
  unfold signalCompletion
  split
  · exact .refl
  · exact .ite (.after (changes_signalVector ..).keepsBound (setQueue_keepsBound ..)) (setQueue_keepsBound ..)

theorem drainTick_keepsBound (s : State) (c : Nat) : KeepsBound s (drainTick s c) := by
  unfold drainTick
  exact .ite .refl (.after (changes_setCtrl ..).keepsBound (changes_issueWrites ..).keepsBound)

end Sys2Proof.Machine
end

section
set_option Elab.async false
/-! Operations that keep the bound of the fault log: those that repeat, and those that may answer nothing. -/

namespace Sys2Proof.Machine

/-! ## Turns: by induction on their number -/

theorem ripple_keepsBound (n : Nat) (s : State) : KeepsBound s (ripple n s) := by
  induction n generalizing s with
  | zero => exact .refl
  | succ n ih =>
    rw [ripple]
    exact .ite .refl (.after (ih _) (.after (.withCtxs ..) (instant_keepsBound ..)))

theorem porterRun_keepsBound (n : Nat) (s : State) : KeepsBound s (porterRun n s) := by
  induction n generalizing s with
  | zero => exact .refl
  | succ n ih =>
    rw [porterRun]
    split
    · exact .refl
    · exact .ite (.after (ih _) (.after (turnBegins_keepsBound ..) (.after (porterDo_keepsBound ..) (.withSec ..)))) .refl

theorem pump_keepsBound (n init : Nat) (s : State) : KeepsBound s (pump n init s) := by
  induction n generalizing s with
  | zero => exact .refl
  | succ n ih =>
    rw [pump]
    split
    · exact .refl
    · exact .ite (.after (ih _) (.after (issueFabric_keepsBound ..) (.withNoc ..))) .refl

theorem ejectTo_keepsBound (k n : Nat) (s : State) : KeepsBound s (ejectTo k n s) := by
  induction n generalizing s with
  | zero => exact .refl
  | succ n ih =>
    rw [ejectTo]
    split
    · exact .refl
    · exact .after (ih _) (.after (arriveCheck_keepsBound ..) (moveFlit_keepsBound ..))

theorem fetchTurn_keepsBound (q k : Nat) (es : List Line) (s : State) : KeepsBound s (fetchTurn q k es s).1 := by
  induction k generalizing es s with
  | zero => exact .refl
  | succ k ih =>
    cases es with
    | nil => exact .refl
    | cons e es =>
      rw [fetchTurn]
      split
      · exact .after (ih ..) (fetchEntry_keepsBound ..)
      · exact .refl

theorem passScans_keepsBound (k : Nat) (s : State) : KeepsBound s (passScans k s) := by
  induction k generalizing s with
  | zero => exact .refl
  | succ k ih =>
    rw [passScans]
    exact .ite .refl (.ite (.after (ih _) (skipSlice_keepsBound ..)) (.after (ih _) (.after (settleSlice_keepsBound ..) (.withSafe _ _ rfl))))

theorem putBytes_keepsBound (k init : Nat) (o : NocOwner) (pa : Nat) (l : List Byte) (s : State) : KeepsBound s (putBytes k init o pa l s).2 := by
  induction k generalizing pa l s with
  | zero => exact .refl
  | succ k ih =>
    cases l with
    | nil => exact .refl
    | cons b l => exact .after (ih ..) (nocMake_keepsBound ..)

theorem dmaRest_keepsBound (k : Nat) (s : State) (d : Dma) (e : DmaElem) (l : List Byte) : KeepsBound s (dmaRest k s d e l).1 := by
  induction k generalizing s d l with
  | zero => exact .refl
  | succ k ih =>
    rw [dmaRest]
    split
    · exact .refl
    · exact .after (ih ..) (dmaPut_keepsBound ..)

theorem dmaGo_keepsBound (k : Nat) (s : State) (d : Dma) : KeepsBound s (dmaGo k s d) := by
  induction k generalizing s d with
  | zero => exact setDma_keepsBound ..
  | succ k ih =>
    rw [dmaGo]
    split
    · exact dmaEnd_keepsBound ..
    · refine .ite (setDma_keepsBound ..) (.ite (dmaEnd_keepsBound ..) (.ite (dmaEnd_keepsBound ..) ?_))
      dsimp only
      split
      · exact .ite (.after (ih ..) (dmaPut_keepsBound ..)) (.after (setDma_keepsBound ..) (dmaPut_keepsBound ..))
      · exact .ite (.after (setDma_keepsBound ..) (readHost_keepsBound ..)) (.after (setDma_keepsBound ..) (dmaRead_keepsBound ..))

/-! ## Operations that may answer no state -/

/-- Whatever state the fold answers keeps the bound, where each step's does. -/
theorem keepsBound_foldl_bind {α : Type} {f : State → α → Option State} (hf : ∀ s a, ∀ t ∈ f s a, KeepsBound s t) (l : List α) (s : State) :
    ∀ t ∈ l.foldl (fun a x => a.bind fun s => f s x) (some s), KeepsBound s t := by
  refine List.foldlRecOn (motive := fun o : Option State => ∀ t ∈ o, KeepsBound s t) l _ (by simp [KeepsBound.refl]) fun o ho a _ t ht => ?_
  obtain ⟨u, hu, htu⟩ := Option.bind_eq_some_iff.mp ht
  exact (ho u hu).trans (hf u a t htu)

theorem useMeta_keepsBound {s t : State} {m : Nat} {dirty : Bool} (ht : t ∈ useMeta s m dirty) : KeepsBound s t := by
  have hcache : ∀ l, KeepsBound s (setCache s m l) := fun l => setCache_keepsBound ..
  unfold useMeta at ht
  dsimp only at ht
  split at ht
  · cases ht; exact hcache _
  · split at ht
    · cases ht; exact hcache _
    · split at ht
      · cases ht
      · cases ht; exact .after (enqueueWrite_keepsBound ..) (hcache _)

theorem useEntry_keepsBound {s t : State} {n j : Nat} {dirty : Bool} (ht : t ∈ useEntry s n j dirty) : KeepsBound s t :=
  keepsBound_foldl_bind (fun _ _ _ h => useMeta_keepsBound h) _ _ t ht

theorem readMeta_keepsBound {s t : State} {l : List Nat} {pa init tag qos : Nat} (ht : t ∈ readMeta s l pa init tag qos) : KeepsBound s t := by
  refine keepsBound_foldl_bind (fun s m t h => ?_) l s t ht
  split at h
  · cases h; exact .refl
  · dsimp only at h
    split at h
    · cases h
    · split at h
      · cases h; exact .refl
      · cases h; exact enqueueRead_keepsBound ..

theorem metaIn_keepsBound {s t : State} {q : DramReq} (ht : t ∈ metaIn s q) : KeepsBound s t := by
  unfold metaIn at ht
  obtain ⟨u, hu, rfl⟩ := Option.map_eq_some_iff.mp ht
  refine .foldl (fun v o => ?_) (.after (mapWork_keepsBound ..) (.after (.withEnc ..) (useMeta_keepsBound hu)))
  split
  · exact encWrite_keepsBound ..
  · exact .refl

theorem readBack_keepsBound {s t : State} {q : DramReq} {r : LineRead} (ht : t ∈ readBack s q r) : KeepsBound s t := by
  unfold readBack at ht
  split at ht
  · cases ht; exact mapOp_keepsBound ..
  · cases ht; exact partDone_keepsBound ..
  · split at ht
    · cases ht; exact metaBad_keepsBound ..
    · split at ht
      · exact .after (metaIn_keepsBound ht) (changeMeta_keepsBound ..)
      · exact metaIn_keepsBound ht
  · cases ht; exact mapWork_keepsBound ..

theorem lateCommand_keepsBound {s t : State} {sd : SwapData} (ht : t ∈ lateCommand sd s) : KeepsBound s t := by
  unfold lateCommand at ht
  split at ht
  · cases ht
  · dsimp only at ht
    split at ht
    · cases ht
    · rw [← Option.some.inj ht]
      exact .after (armedSwap_keepsBound ..) (advanceTo_keepsBound ..)

theorem lateSchedule_keepsBound {s t : State} {sd : SwapData} (ht : t ∈ lateSchedule sd s) : KeepsBound s t := by
  unfold lateSchedule at ht
  split at ht
  · cases ht
  · dsimp only at ht
    split at ht
    · cases ht
    · rw [← Option.some.inj ht]
      exact .after (scheduleStage_keepsBound ..) (.after (swapRecord_keepsBound ..) (.after (.withCtxs ..) (.after (doSwap_keepsBound ..)
        (advanceTo_keepsBound ..))))

theorem fusesRead_keepsBound {s t : State} (ht : t ∈ fusesRead s) : KeepsBound s t := by
  unfold fusesRead at ht
  dsimp only at ht
  split at ht
  · cases ht; exact .withSec ..
  · cases ht

theorem lateReady_keepsBound (s : State) (sd : SwapData) : KeepsBound s (lateReady sd s) := by
  unfold lateReady
  cases hc : lateCommand sd s with
  | some t => exact lateCommand_keepsBound hc
  | none =>
    cases hs : lateSchedule sd s with
    | some t => exact lateSchedule_keepsBound hs
    | none => exact .refl

theorem opMeta_keepsBound (s : State) (init tag : Nat) : KeepsBound s (opMeta s init tag) := by
  unfold opMeta
  split
  · exact .refl
  · split
    · exact readMeta_keepsBound (by assumption)
    · exact endOp_keepsBound ..

theorem porDeassert_keepsBound (s : State) (fsel rate halt : Nat) : KeepsBound s (porDeassert fsel rate halt s) := by
  have hread : ∀ u v : State, v ∈ fusesRead u → KeepsBound u (enterStage (showFuses v) 2) := fun u v h =>
    .after (changes_enterStage ..).keepsBound (.after (changes_showFuses ..).keepsBound (fusesRead_keepsBound h))
  unfold porDeassert
  refine .ite .refl ?_
  extract_lets cause boot s1 s2 s3
  have h3 : KeepsBound s s3 := .after (changes_enterStage ..).keepsBound (.after (recordCause_keepsBound ..) (.after (wrb_keepsBound ..)
    (.after (wr_keepsBound ..) (.after (wr_keepsBound ..) (.withBoot ..)))))
  refine .ite (.after (changes_haltBoot ..).keepsBound h3) ?_
  split
  · exact .after (changes_haltBoot ..).keepsBound h3
  · next h => exact .after (hread _ _ h) h3

end Sys2Proof.Machine
end

section
set_option Elab.async false
/-! Operations that keep the bound of the fault log: those of several stages. -/

namespace Sys2Proof.Machine

theorem thenAct_keepsBound (s : State) (off v : Nat) (act : Bool) {f : State → State} (hf : ∀ s, KeepsBound s (f s)) :
    KeepsBound s (thenAct off v act f s) := by
  unfold thenAct
  exact .ite (.after (hf _) (writeFields_keepsBound ..)) (writeFields_keepsBound ..)

/-! ## The log read by its command -/

theorem faultLogRead_keepsBound (s : State) (t : Track) : KeepsBound s (faultLogRead t s) := by
  have hdrop : ∀ l : List FaultEntry, l.length ≤ s.safe.log.length → KeepsBound s { s with safe := { s.safe with log := l } } := fun l hl =>
    ⟨fun h => Nat.le_trans hl h⟩
  unfold faultLogRead
  refine .ite (changes_finish ..).keepsBound ?_
  refine .after (changes_finish ..).keepsBound (.after (writeHost_keepsBound ..) (.after (changes_commit ..).keepsBound (.after (wr_keepsBound ..)
    (hdrop _ ?_))))
  split
  · rw [List.length_drop]; exact Nat.sub_le ..
  · exact Nat.le_refl _

/-! ## The cold reset -/

theorem coldReset_keepsBound (s : State) (c : ResetCause) : KeepsBound s (coldReset s c) := by
  rw [coldReset_eq]
  exact .after (changes_fuses _).keepsBound ⟨fun _ => Nat.zero_le _⟩

/-! ## Temperatures -/

theorem stepDeepen_keepsBound (s : State) : KeepsBound s (stepDeepen s) := by
  have hat : ∀ k, KeepsBound s (deepenAt s k) := fun k => by
    have h := (changes_timerRestarted s k).keepsBound
    unfold deepenAt
    exact .ite .refl (.ite (.after (wr_keepsBound ..) h) h)
  rw [stepDeepen_eq]
  exact hat _

theorem stepRelease_keepsBound (s : State) : KeepsBound s (stepRelease s) := by
  have hat : ∀ k, KeepsBound s (releaseAt s k) := fun k => by
    have h := (changes_timerRestarted s k).keepsBound
    unfold releaseAt
    exact .ite .refl (.ite (.ite (.after (changes_thTo ..).keepsBound (.after (wr_keepsBound ..) h)) (.after (wr_keepsBound ..) h)) h)
  rw [stepRelease_eq]
  exact hat _

theorem watchdog_keepsBound (s : State) : KeepsBound s (watchdog s) := by
  have hat : ∀ k, KeepsBound s (watchdogAt s k) := fun k => by
    unfold watchdogAt
    exact .ite .refl (.after (changes_pauseGrace ..).keepsBound (.after (.withWkt ..) (.after (fault_keepsBound ..) (.after (inc_keepsBound ..)
      (.after (wr_keepsBound ..) (advanceTo_keepsBound ..))))))
  rw [watchdog_eq]
  exact hat _

theorem round_keepsBound (s : State) (codes : Vector (BitVec 12) 48) (sensors : Vector (BitVec 12) 96) (a : Vector Nat 20) (served : Bool) :
    KeepsBound s (round codes sensors a served s) := by
  have hat : ∀ k, KeepsBound s (roundAt codes sensors a served s k) := fun k => by
    unfold roundAt
    refine .ite .refl ?_
    extract_lets code temp u0 w0 u1 u2 u3 w3 m trip m' p1 p2 p3 p4 t1 t2 r
    have h1 : KeepsBound s u1 := .after (.withWkt ..) (advanceTo_keepsBound ..)
    have h3 : KeepsBound s u3 := .foldl (fun _ _ => takeSensor_keepsBound ..) (.foldl (fun _ _ => takeChannel_keepsBound ..) h1)
    have hm : KeepsBound s m := .ite h3 (.after (.withWkt ..) h3)
    have hm' : KeepsBound s m' := .foldl (fun _ _ => wr_keepsBound ..) hm
    have hr : KeepsBound s r := .ite (.after (.withWkt ..) (.after (changes_pauseGrace ..).keepsBound hm')) (.after (injectedRound_keepsBound ..)
      (.after (roundCauses_keepsBound ..) (.after (thEvaluate_keepsBound ..) (.after (changes_showTemps ..).keepsBound (.after (estimates_keepsBound ..)
      (.after (.withWkt ..) (.after (resumeGrace_keepsBound ..) hm')))))))
    exact .ite hr (.after (shutDown_keepsBound ..) hr)
  rw [round_eq]
  exact hat _

/-! ## Pairs of a state and a value -/

theorem poisonLoad_keepsBound (s : State) (scalar lo hi : Bool) (v : BitVec 128) : KeepsBound s (poisonLoad s scalar lo hi v).2 := by
  unfold poisonLoad
  split
  · split
    · exact fresh_keepsBound ..
    · exact .refl
  · extract_lets a b
    have ha : KeepsBound s a.2 := by
      dsimp only [a]
      split
      · exact fresh_keepsBound ..
      · exact .refl
    dsimp only [b]
    split
    · exact .after (fresh_keepsBound ..) ha
    · exact ha

theorem poisonLoads_keepsBound (s : State) (loads : List (Nat × BitVec 128)) (f : Finds) (w : Nat) : KeepsBound s (poisonLoads s loads f w).1 := by
  unfold poisonLoads
  refine List.foldlRecOn (motive := fun a : State × List (Nat × BitVec 128) => KeepsBound s a.1) loads _ .refl fun a ha p _ => ?_
  exact .after (poisonLoad_keepsBound ..) ha

theorem readNowHc_keepsBound (s : State) (r : NocReq) : KeepsBound s (readNowHc s r).2 := by
  unfold readNowHc
  split
  · exact fresh_keepsBound s 16
  · exact .refl
  · exact .refl

theorem pagePair_keepsBound (s : State) : KeepsBound s (pagePair s).2 := by
  unfold pagePair
  dsimp only
  split
  · exact .refl
  · exact fresh_keepsBound s 8

theorem countChannel_keepsBound (s : State) (kind group c : Nat) : KeepsBound s (countChannel s kind group c) := by
  have h := countEvent_keepsBound s 0 (channelKey s kind group c)
  unfold countChannel
  dsimp only
  exact .ite (.after (channelLasting_keepsBound ..) h) h

theorem repaired_keepsBound (s : State) (r : Repair) (src : Nat) (d : Frame) : KeepsBound s (repaired s r src d) := by
  unfold repaired
  extract_lets c0 t0 t1
  have h0 : KeepsBound s t0 := .ite (setLatch_keepsBound ..) (.withCtxs ..)
  have h1 : KeepsBound s t1 := .after (lastRepair_keepsBound ..) (.after (inc_keepsBound ..) h0)
  have h2 := h1.trans (countEvent_keepsBound t1 1 (planeKey r.ctx r.frame))
  dsimp only
  exact .ite h0 (.ite (.after (frameLasting_keepsBound ..) h2) h2)

theorem ddrTraining_keepsBound (s : State) (fit0 fit1 : DramFit) (drop0 drop1 : List (Fin 32)) :
    KeepsBound s (ddrTraining fit0 fit1 drop0 drop1 s) := by
  have h0 := trainCtrl_keepsBound s 0 fit0 drop0
  have h1 := trainCtrl_keepsBound (trainCtrl s 0 fit0 drop0).1 1 fit1 drop1
  unfold ddrTraining
  refine .ite .refl ?_
  dsimp only
  exact .after (changes_enterStage ..).keepsBound (.after (openStore_keepsBound ..) (.after (wr_keepsBound ..) (.after (wrb_keepsBound ..)
    (.after (wrb_keepsBound ..) (h0.trans h1)))))

/-! ## Commands and completions -/

theorem commandCaught_keepsBound (s : State) (t : Track) : KeepsBound s (commandCaught s t) := by
  unfold commandCaught
  extract_lets free kept s1
  have hfree : ∀ u, KeepsBound u (free u) := fun u => by
    dsimp only [free]
    split
    · exact .ite (.withCtxs ..) .refl
    · exact .refl
  have h1 : KeepsBound s s1 := .withDmas ..
  have hend : KeepsBound s (match dmaOf s1 t.id with
      | some d => dmaEnd s1 d .success
      | none => s1) := by
    split
    · exact .after (dmaEnd_keepsBound ..) h1
    · exact h1
  have hfinish : ∀ (u : State) (st : Status) (r : Nat), KeepsBound u (finish u t.id st r) := fun u st r => (changes_finish ..).keepsBound
  exact .ite h1 (.ite (.after (hfinish ..) h1) (.ite hend (.ite (.after (hfinish ..) h1) (.ite (.after (hfinish ..) (.after (hfree _) h1))
    (.ite (.after (hfinish ..) (.after (endTransition_keepsBound ..) (.after (hfree _) h1))) (.after (rollback_keepsBound ..) h1))))))

theorem postEntry_keepsBound (s : State) (t : Track) (refused msixFails : Bool) : KeepsBound s (postEntry s t refused msixFails) := by
  unfold postEntry
  extract_lets gone
  have hgone : ∀ u, KeepsBound u (gone u) := fun u => .withLink ..
  split
  · exact hgone s
  · refine .ite (.after (showOutstanding_keepsBound ..) (.after (hgone _) (setQueue_keepsBound ..))) (.ite (.after (showOutstanding_keepsBound ..)
      (.after (hgone _) (.after (queueError_keepsBound ..) (setQueue_keepsBound ..)))) ?_)
    exact msixSent_keepsBound (.after (signalCompletion_keepsBound ..) (.after (sendData_keepsBound ..) (.after (showOutstanding_keepsBound ..)
      (.after (hgone _) (.after (setQueue_keepsBound ..) (writeHost_keepsBound ..)))))) _ _

theorem coalesce_keepsBound (s : State) (q : Nat) (msixFails : Bool) : KeepsBound s (coalesce q msixFails s) := by
  have hsent : ∀ (u : State) (x : Queue) (v : Nat), KeepsBound s u →
      KeepsBound s (msixSent u (signalVector (setQueue u q x) (qFunction s q) v) q msixFails) := fun u x v h =>
    msixSent_keepsBound (.after (changes_signalVector ..).keepsBound (.after (setQueue_keepsBound ..) h)) _ _
  unfold coalesce
  split
  · exact .refl
  · refine .ite .refl ?_
    dsimp only
    exact hsent _ _ _ (advanceTo_keepsBound ..)

/-! ## The pair -/

theorem formCommit_keepsBound (s : State) : KeepsBound s (formCommit s) := by
  unfold formCommit
  split
  · exact .refl
  · split
    · exact .after (changes_startResync ..).keepsBound (.after (wr_keepsBound ..) (.after (changes_exitAllEi ..).keepsBound (.after
        (setMode_keepsBound ..) (.after (firstUnit_keepsBound ..) (.after (wr_keepsBound ..) (.after (.withTimPair ..) (.after
        (finishTime_keepsBound ..) (.after (endTransition_keepsBound ..) (.after (changes_commit ..).keepsBound
        (changes_toBoundary ..).keepsBound)))))))))
    · exact .refl

theorem roleExchange_keepsBound (s : State) : KeepsBound s (roleExchange s) := by
  unfold roleExchange
  split
  · exact .refl
  · exact .ite (.after (.withPair ..) (changes_toBoundary ..).keepsBound) (.ite (.after (ownTime_keepsBound ..) (.after (.withPair ..) (.after
    (liftIfClear_keepsBound ..) (.after (setMode_keepsBound ..) (.after (changes_exitAllEi ..).keepsBound (.after (.withPair ..)
    (changes_toBoundary ..).keepsBound)))))) (.ite (.after (changes_updateFit ..).keepsBound (.after (.withTimPair ..) (.after
    (setMode_keepsBound ..) (.after (changes_exitAllEi ..).keepsBound (.after (.withPair ..) (changes_toBoundary ..).keepsBound))))) (.after
    (.withPair ..) (changes_toBoundary ..).keepsBound)))

theorem commitBoundary_keepsBound (s : State) : KeepsBound s (commitBoundary s) := by
  unfold commitBoundary
  split
  · exact .refl
  · extract_lets s1 p1 s2 s3
    have h1 : KeepsBound s s1 := (changes_toBoundary ..).keepsBound
    clear_value s1
    have h2 : KeepsBound s s2 := .after (.withPair ..) h1
    have h3 : KeepsBound s s3 := by
      dsimp only [s3]
      split
      · exact .after (finishTime_keepsBound ..) (.after (changes_commit ..).keepsBound h2)
      · exact h2
    exact .ite (.after (unprepare_keepsBound ..) h3) (.after (commitListed_keepsBound ..) h3)

/-! ## Memory, DRAM and the sweeps of the encryption engine -/

theorem startRetire_keepsBound (s : State) (b w : Nat) : KeepsBound s (startRetire s b w) := by
  unfold startRetire
  extract_lets key acted p1 s1 p2
  have h1 : KeepsBound s s1 := .withSafe _ _ rfl
  refine .ite .refl ?_
  split
  · exact .after (fault_keepsBound ..) (.after (wr_keepsBound ..) h1)
  · exact .after (wr_keepsBound ..) (.after (.withMem ..) h1)

theorem dramData_keepsBound (s : State) (c : Nat) (f : LineFind) : KeepsBound s (dramData c f s) := by
  unfold dramData
  refine .ite .refl ?_
  split
  · exact .refl
  · next q _ =>
    extract_lets s0 x r
    have h0 : KeepsBound s s0 := settleLine_keepsBound ..
    have hr : KeepsBound s r.2 := .after (readLine_keepsBound ..) (.after (changes_setCtrl ..).keepsBound h0)
    refine .ite h0 ?_
    cases hback : readBack r.2 q r.1 with
    | some t => exact hr.trans (readBack_keepsBound hback)
    | none => exact h0

theorem cutScan_keepsBound (s : State) (g n : Nat) : KeepsBound s (cutScan s g n) := by
  unfold cutScan
  split
  · exact .refl
  · extract_lets p1 s1 s2
    have h1 : KeepsBound s s1 := .withFh ..
    have h2 : KeepsBound s s2 := .ite (.after (wr_keepsBound ..) h1) h1
    split
    · exact h2
    · refine .after (changes_finish ..).keepsBound (.after (writeHost_keepsBound ..) ?_)
      exact List.foldlRecOn (motive := fun a : List Byte × State => KeepsBound s a.2) _ _ h2 fun a ha _ _ => .after (fresh_keepsBound a.2 16) ha

end Sys2Proof.Machine
end

section
set_option Elab.async false
/-! What further operations of the dies, the tiles, the lanes and the rings leave of the log's bound. -/

namespace Sys2Proof.Machine

theorem fabricTick_keepsBound (s : State) : KeepsBound s (fabricTick s) := by
  unfold fabricTick
  exact .ite .refl (.after (presentPins_keepsBound ..) (.after (ripple_keepsBound ..) (.after (instant_keepsBound ..) (ripple_keepsBound ..))))

theorem idle_keepsBound (s : State) : KeepsBound s (idle s) := by
  unfold idle
  exact .after (fabricTick_keepsBound ..) (.after (drainTick_keepsBound ..) (.after (drainTick_keepsBound ..) (changes_advance ..).keepsBound))

theorem porterTurn_keepsBound (s : State) : KeepsBound s (porterTurn s) := by
  unfold porterTurn
  exact porterRun_keepsBound ..

theorem ownerData_keepsBound (s : State) (rec : Option (List Byte)) : KeepsBound s (ownerData rec s) := by
  unfold ownerData
  exact .after (porterTurn_keepsBound ..) (.after (.withSec ..) (dropRead_keepsBound ..))

theorem linkDown_keepsBound (s : State) : KeepsBound s (linkDown s) := by
  unfold linkDown
  exact .after (wr_keepsBound ..) (.after (wr_keepsBound ..) (.ite (.after (ownerData_keepsBound ..) (.after (.withLink ..) (.foldl (fun _ _ =>
    (resetFunction_keepsBound ..)) .refl))) (.after (.withLink ..) (.foldl (fun _ _ => (resetFunction_keepsBound ..)) .refl))))

theorem perstAssert_keepsBound (s : State) : KeepsBound s (perstAssert s) := by
  unfold perstAssert
  exact .ite .refl (.ite (.after (.withBoot ..) (.withLink ..)) (.ite (.withLink ..) (.ite (.after (recordCause_keepsBound ..) (.after
    (linkDown_keepsBound ..) (.withLink ..))) (.after (warmReset_keepsBound ..) (.withLink ..)))))

theorem pumpAll_keepsBound (s : State) : KeepsBound s (pumpAll s) := by
  unfold pumpAll
  exact .foldl (fun _ _ => (pump_keepsBound ..)) .refl

theorem leaveSelfRefresh_keepsBound (s : State) (c : Nat) : KeepsBound s (leaveSelfRefresh s c) := by
  unfold leaveSelfRefresh
  exact .after (wr_keepsBound ..) (changes_setCtrl ..).keepsBound

theorem shuttersOpen_keepsBound (s : State) : KeepsBound s (shuttersOpen s) := by
  unfold shuttersOpen
  split
  · exact .after (pumpAll_keepsBound ..) (.after (changes_showStack ..).keepsBound (.after (.over [.boot, .noc, .enc] rfl) (.foldl (fun _ _ =>
    (.ite (leaveSelfRefresh_keepsBound ..) .refl)) (advanceTo_keepsBound ..))))
  · exact .refl

theorem porterReady_keepsBound (s : State) : KeepsBound s (porterReady s) := by
  unfold porterReady
  split
  · exact .after (porterTurn_keepsBound ..) (.foldl (fun _ _ => (startLane_keepsBound ..)) (.after (snapshotMoves_keepsBound ..) (.after
    (recordDie_keepsBound ..) (.after (.withBoot ..) (.ite (wr_keepsBound ..) .refl)))))
  · exact .refl

theorem dieTrainedNow_keepsBound (s : State) (k : Nat) : KeepsBound s (dieTrainedNow k s) := by
  unfold dieTrainedNow
  split
  · exact .ite .refl (.after (recordDie_keepsBound ..) (.after (.withBoot ..) (.ite (.after (changes_advance ..).keepsBound (.ite (.after
    (endRecovery_keepsBound ..) (.after (.withBoot ..) (.ite (.after (pumpAll_keepsBound ..) (.after (.withNoc ..) (.after (setDie_keepsBound ..)
    (advanceTo_keepsBound ..)))) (.after (setDie_keepsBound ..) (advanceTo_keepsBound ..))))) (.ite (.after (pumpAll_keepsBound ..) (.after
    (.withNoc ..) (.after (setDie_keepsBound ..) (advanceTo_keepsBound ..)))) (.after (setDie_keepsBound ..) (advanceTo_keepsBound ..))))) (.ite
    (.after (endRecovery_keepsBound ..) (.after (.withBoot ..) (.ite (.after (pumpAll_keepsBound ..) (.after (.withNoc ..) (.after
    (setDie_keepsBound ..) (advanceTo_keepsBound ..)))) (.after (setDie_keepsBound ..) (advanceTo_keepsBound ..))))) (.ite (.after
    (pumpAll_keepsBound ..) (.after (.withNoc ..) (.after (setDie_keepsBound ..) (advanceTo_keepsBound ..)))) (.after (setDie_keepsBound ..)
    (advanceTo_keepsBound ..)))))))
  · exact .refl

theorem crossFlit_keepsBound (s : State) (group init tag k : Nat) (find : FlitFind) (bad : List Nat) : KeepsBound s (crossFlit s group init tag k
  find bad) := by
  unfold crossFlit
  exact .ite (flitCheck_keepsBound ..) (.foldl (fun _ _ => (countChannel_keepsBound ..)) (flitCheck_keepsBound ..))

theorem poisonWord_keepsBound (s : State) (w : CrossWord) : KeepsBound s (poisonWord s w) := by
  unfold poisonWord
  split
  · exact .refl
  · exact .refl
  · exact .ite .refl (.withStack ..)

theorem crossing_keepsBound (s : State) (kind group : Nat) (back : Bool) (bad : List Nat) (w : CrossWord) : KeepsBound s (crossing kind group back
  bad w s) := by
  unfold crossing
  refine .ite .refl ?_
  refine .ite (.ite (.after (injectionEnd_keepsBound ..) (fault_keepsBound ..)) (injectionLogged_keepsBound ..)) ?_
  split
  · exact .ite (crossFlit_keepsBound ..) .refl
  · exact .refl
  · exact .after (countChannel_keepsBound ..) (.ite (inc_keepsBound ..) .refl)
  · exact .ite (.after (fault_keepsBound ..) (.withStack ..)) (poisonWord_keepsBound ..)

/-- A choice of a value and a state. -/
theorem KeepsBound.iteSnd {α : Type} {s : State} {c : Prop} [Decidable c] {a b : α × State} (ha : KeepsBound s a.2) (hb : KeepsBound s b.2) :
    KeepsBound s (if c then a else b).2 := by
  split
  · exact ha
  · exact hb

theorem execute_keepsBound (s : State) (op : TOp) (t w : Nat) (f : Finds) : KeepsBound s (execute op t w f s) := by
  unfold execute
  extract_lets x0 xs ys f' n s1 out sl pl s2 popped x1 tracked fr s3 _ x1' c r1 r3 x2 x3 x4 s4 s5 s6
  have h1 : KeepsBound s s1 := .after (countEcc_keepsBound ..) (.after (countEcc_keepsBound ..) (.after (countEcc_keepsBound ..)
    (countEcc_keepsBound ..)))
  have h2 : KeepsBound s s2 := .after (poisonLoads_keepsBound ..) h1
  have h3 : KeepsBound s s3 := .iteSnd (.after (fresh_keepsBound ..) h2) h2
  have h4 : KeepsBound s s4 := .after (setTile_keepsBound ..) h3
  have h5 : KeepsBound s s5 := by
    dsimp only [s5]
    clear_value s4 out
    cases out with
    | some o => exact .ite h4 (.after (releaseOut_keepsBound ..) h4)
    | none => exact h4
  have h6 : KeepsBound s s6 := .ite (.after (raiseExc_keepsBound ..) h5) h5
  exact .ite (.after (residueFail_keepsBound ..) h6) h6

theorem issue_keepsBound (s : State) (op : TOp) (t : Nat) (f : Finds) : KeepsBound s (issue op t f s) := by
  unfold issue
  refine .ite .refl ?_
  refine .ite (raiseExc_keepsBound ..) ?_
  refine .ite (raiseExc_keepsBound ..) ?_
  split
  · exact .after (raiseExc_keepsBound ..) (countEcc_keepsBound ..)
  · refine .ite .refl ?_
    split
    · exact .ite .refl (.after (raiseExc_keepsBound ..) (countEcc_keepsBound ..))
    · exact .ite (.after (raiseExc_keepsBound ..) (countEcc_keepsBound ..)) (.ite .refl (.ite (.after (raiseExc_keepsBound ..) (countEcc_keepsBound
      ..)) (.after (execute_keepsBound ..) (countEcc_keepsBound ..))))

theorem netAt_keepsBound (s : State) (t : Nat) : KeepsBound s (netAt s t) := by
  unfold netAt
  exact ejectTo_keepsBound ..

theorem arrive_keepsBound (s : State) (init tag : Nat) : KeepsBound s (arrive s init tag) := by
  unfold arrive
  exact netAt_keepsBound ..

theorem xyAct_keepsBound (s : State) (r : NocReq) (b total : Nat) (ecc ecc2 : Ecc) : KeepsBound s (xyAct s r b total ecc ecc2) := by
  unfold xyAct
  exact .ite (.after (served_keepsBound ..) (.ite .refl (.ite (setTile_keepsBound ..) (setTile_keepsBound ..)))) (.after (served_keepsBound ..)
    (.after (mapReq_keepsBound ..) (.after (poisonLoad_keepsBound ..) (.after (countEcc_keepsBound ..) (countEcc_keepsBound ..)))))

theorem xyBeat_keepsBound (s : State) (init tag : Nat) (ecc ecc2 : Ecc) : KeepsBound s (xyBeat init tag ecc ecc2 s) := by
  unfold xyBeat
  dsimp only
  split
  · exact arrive_keepsBound ..
  · split
    · refine .ite (arrive_keepsBound ..) ?_
      split
      · exact .after (served_keepsBound ..) (.after (advanceTo_keepsBound ..) (arrive_keepsBound ..))
      · split
        · exact arrive_keepsBound ..
        · exact .after (xyAct_keepsBound ..) (.ite (.after (setTile_keepsBound ..) (.after (advanceTo_keepsBound ..) (arrive_keepsBound ..)))
          (.after (advanceTo_keepsBound ..) (arrive_keepsBound ..)))
    · exact arrive_keepsBound ..

theorem memEvent_keepsBound (s : State) (b w : Nat) (unc : Bool) (place init : Nat) : KeepsBound s (memEvent s b w unc place init) := by
  unfold memEvent
  dsimp only
  split
  · exact .after (inc_keepsBound ..) (.ite (fault_keepsBound ..) .refl)
  · exact .ite (.after (startRetire_keepsBound ..) (.after (elogUpdate_keepsBound ..) (.after (inc_keepsBound ..) (.ite (fault_keepsBound ..)
    .refl)))) (.after (elogUpdate_keepsBound ..) (.after (inc_keepsBound ..) (.ite (fault_keepsBound ..) .refl)))

theorem readWord_keepsBound (s : State) (b w : Nat) (f : Finding) (init : Nat) : KeepsBound s (readWord s b w f init).2 := by
  unfold readWord
  split
  · exact .refl
  · split
    · exact .refl
    · split
      · exact .refl
      · exact memEvent_keepsBound ..
      · exact .after (memEvent_keepsBound ..) (.after (putWord_keepsBound ..) (fresh_keepsBound ..))
      · exact .after (memEvent_keepsBound ..) (.after (putWord_keepsBound ..) (fresh_keepsBound ..))
      · exact .after (putWord_keepsBound ..) (fresh_keepsBound ..)

theorem portRead_keepsBound (s : State) (portA : Bool) (b w : Nat) (f : Finding) (init : Nat) : KeepsBound s (portRead s portA b w f init).2 := by
  unfold portRead
  dsimp only
  split
  · exact readWord_keepsBound ..
  · exact readWord_keepsBound ..

theorem flitHop_keepsBound (s : State) (init tag router : Nat) (find : FlitFind) : KeepsBound s (flitHop init tag router find s) := by
  unfold flitHop
  dsimp only
  split
  · exact netAt_keepsBound ..
  · refine .ite (netAt_keepsBound ..) ?_
    split
    · exact netAt_keepsBound ..
    · exact .ite (netAt_keepsBound ..) (.after (flitCheck_keepsBound ..) (.after (moveFlit_keepsBound ..) (.after (advanceTo_keepsBound ..) (.after
      (netAt_keepsBound ..) (netAt_keepsBound ..)))))

theorem enableQueue_keepsBound (s : State) (q f : Nat) (admin : Bool) (x : Queue) : KeepsBound s (enableQueue s q f admin x) := by
  unfold enableQueue
  exact .after (wr_keepsBound ..) (.after (wrb_keepsBound ..) (.after (wr_keepsBound ..) (setQueue_keepsBound ..)))

theorem adminEnable_keepsBound (s : State) (f sqLog cqLog : Nat) : KeepsBound s (adminEnable f sqLog cqLog s) := by
  unfold adminEnable
  refine .ite .refl ?_
  refine .ite (.after (wr_keepsBound ..) (.after (wr_keepsBound ..) (wr_keepsBound ..))) ?_
  split
  · exact .after (wr_keepsBound ..) (.after (wr_keepsBound ..) (wr_keepsBound ..))
  · exact .after (wr_keepsBound ..) (.after (wr_keepsBound ..) (.after (wr_keepsBound ..) (.after (enableQueue_keepsBound ..) (.after
    (wr_keepsBound ..) (wr_keepsBound ..)))))

theorem settleQueue_keepsBound (s : State) (q : Nat) : KeepsBound s (settleQueue s q) := by
  unfold settleQueue
  split
  · exact .refl
  · refine .ite .refl ?_
    refine .ite ?_ ?_
    · refine .after (wr_keepsBound ..) ?_
      refine .after (classQ_keepsBound ..) ?_
      split
      · exact .after (changes_finish ..).keepsBound (.after (setQueue_keepsBound ..) (.ite (wr_keepsBound ..) .refl))
      · exact .after (setQueue_keepsBound ..) (.ite (wr_keepsBound ..) .refl)
    · split
      · exact .after (changes_finish ..).keepsBound (.after (setQueue_keepsBound ..) (.ite (wr_keepsBound ..) .refl))
      · exact .after (setQueue_keepsBound ..) (.ite (wr_keepsBound ..) .refl)

theorem beginDisable_keepsBound (s : State) (q : Nat) (by' : Option Nat) : KeepsBound s (beginDisable s q by') := by
  unfold beginDisable
  split
  · exact .refl
  · refine .after (settleQueue_keepsBound ..) ?_
    refine .after (wr_keepsBound ..) ?_
    refine .after (setQueue_keepsBound ..) ?_
    refine .foldl (fun s a => ?_) .refl
    refine .ite (changes_finish ..).keepsBound ?_
    refine .ite (changes_finish ..).keepsBound ?_
    split
    · exact .ite (.after (finishTime_keepsBound ..) (disarm_keepsBound ..)) .refl
    · exact .refl

theorem adminDisable_keepsBound (s : State) (f : Nat) : KeepsBound s (adminDisable f s) := by
  unfold adminDisable
  dsimp only
  refine .ite (wr_keepsBound ..) ?_
  split
  · exact .after (wr_keepsBound ..) (wr_keepsBound ..)
  · exact .ite (.after (wr_keepsBound ..) (wr_keepsBound ..)) (.after (beginDisable_keepsBound ..) (.after (setQueue_keepsBound ..) (.after
    (wr_keepsBound ..) (wr_keepsBound ..))))

theorem quotaWrite_keepsBound (s : State) (f base count : Nat) : KeepsBound s (quotaWrite f base count s) := by
  unfold quotaWrite
  exact .ite (wr_keepsBound ..) (.after (wr_keepsBound ..) (wr_keepsBound ..))

theorem writeDev_keepsBound (s : State) (off v : Nat) : KeepsBound s (writeDev off v s) := by
  unfold writeDev
  refine .ite (thenAct_keepsBound (hf := fun _ => (.ite (warmResetRequest_keepsBound ..) (dieResetRequest_keepsBound ..))) ..) ?_
  refine .ite (.ite (.ite (adminEnable_keepsBound ..) (.after (adminDisable_keepsBound ..) (.ite .refl (.after (wr_keepsBound ..) (wr_keepsBound
    ..))))) (.ite .refl (writeFields_keepsBound ..))) ?_
  split
  · exact quotaWrite_keepsBound ..
  · exact writeFields_keepsBound ..

theorem porterAccept_keepsBound (s : State) (o : PorterOp) : KeepsBound s (porterAccept s o) := by
  unfold porterAccept
  exact .after (porterTurn_keepsBound ..) (.withSec ..)

theorem ownerGo_keepsBound (s : State) (v : Nat) : KeepsBound s (ownerGo v s) := by
  unfold ownerGo
  exact .ite .refl (.after (porterAccept_keepsBound ..) (.after (readHost_keepsBound ..) (wr_keepsBound ..)))

theorem statClear_keepsBound (s : State) : KeepsBound s (statClear s) := by
  unfold statClear
  exact .foldl (fun _ _ => (.foldl (fun _ _ => (wr_keepsBound ..)) (.after (wr_keepsBound ..) (wr_keepsBound ..)))) .refl

theorem regionEnable_keepsBound (s : State) (n : Nat) (v : BitVec 32) : KeepsBound s (regionEnable n v s) := by
  unfold regionEnable
  exact .ite (wr_keepsBound ..) (.ite .refl (.ite (.after (wr_keepsBound ..) (.after (wr_keepsBound ..) (wr_keepsBound ..))) (.ite (.after
    (wr_keepsBound ..) (.after (wr_keepsBound ..) (.after (wr_keepsBound ..) (.after (wr_keepsBound ..) (wr_keepsBound ..))))) (.after
    (queueSweep_keepsBound ..) (.after (wr_keepsBound ..) (.after (wr_keepsBound ..) (.after (wr_keepsBound ..) (.after (wr_keepsBound ..)
    (wr_keepsBound ..)))))))))

theorem regionDisable_keepsBound (s : State) (n : Nat) (v : BitVec 32) : KeepsBound s (regionDisable n v s) := by
  unfold regionDisable
  exact .ite (wr_keepsBound ..) (.ite .refl (.ite (.after (wr_keepsBound ..) (.after (wr_keepsBound ..) (changes_keepMeta ..).keepsBound)) (.after
    (wr_keepsBound ..) (wr_keepsBound ..))))

theorem writeEnc_keepsBound (s : State) (off v : Nat) : KeepsBound s (writeEnc off v s) := by
  unfold writeEnc
  exact .ite (.ite (wr_keepsBound ..) (writeFields_keepsBound ..)) (.ite (.ite (wr_keepsBound ..) (.ite .refl (writeFields_keepsBound ..))) (.ite
    (.ite (.ite (regionEnable_keepsBound ..) (regionDisable_keepsBound ..)) (.ite (wr_keepsBound ..) (.ite .refl (writeFields_keepsBound ..))))
    (writeFields_keepsBound ..)))

theorem laneDisable_keepsBound (s : State) (n v : Nat) : KeepsBound s (laneDisable n v s) := by
  unfold laneDisable
  exact .ite (.after (wr_keepsBound ..) (.after (writeLaneOpen_keepsBound ..) (writeLaneHeld_keepsBound ..))) (.after (cutScan_keepsBound ..)
    (.after (laneTo_keepsBound ..) (.after (wr_keepsBound ..) (.after (writeLaneOpen_keepsBound ..) (writeLaneHeld_keepsBound ..)))))

theorem txTail_keepsBound (s : State) (n v : Nat) : KeepsBound s (txTail n v s) := by
  unfold txTail
  exact .ite (.after (changes_exitEi ..).keepsBound (wr_keepsBound ..)) (wr_keepsBound ..)

theorem writeFhl_keepsBound (s : State) (off v : Nat) : KeepsBound s (writeFhl off v s) := by
  unfold writeFhl
  exact .ite (.after (changes_synceUpdate ..).keepsBound (.ite (laneEnable_keepsBound ..) (laneDisable_keepsBound ..))) (.ite (txTail_keepsBound
    ..) (.ite (wr_keepsBound ..) (.ite (wr_keepsBound ..) (.ite (wr_keepsBound ..) (writeFields_keepsBound ..)))))

theorem linkTo_keepsBound (s : State) (st : Nat) : KeepsBound s (linkTo s st) := by
  unfold linkTo
  exact .ite (.after (.withPair ..) (wr_keepsBound ..)) (.after (changes_settleLanes ..).keepsBound (.after (wr_keepsBound ..) (.after
    (wr_keepsBound ..) (.after (wr_keepsBound ..) (.foldl (fun _ _ => (cutScan_keepsBound ..)) (.after (linkCommandsEnd_keepsBound ..) (.after
    (.withPair ..) (wr_keepsBound ..))))))))

theorem linkEnable_keepsBound (s : State) (v : Word) : KeepsBound s (linkEnable v s) := by
  unfold linkEnable
  exact .ite (.after (wrb_keepsBound ..) (wrb_keepsBound ..)) (.ite (.after (wr_keepsBound ..) (.after (wrb_keepsBound ..) (wrb_keepsBound ..)))
    (.ite (.after (linkTo_keepsBound ..) (.after (wr_keepsBound ..) (.after (wr_keepsBound ..) (.after (wrb_keepsBound ..) (wrb_keepsBound ..)))))
    (.ite (.after (wr_keepsBound ..) (.after (wr_keepsBound ..) (.after (wrb_keepsBound ..) (wrb_keepsBound ..)))) (.after (linkTo_keepsBound ..)
    (.after (wr_keepsBound ..) (.after (wr_keepsBound ..) (.after (wrb_keepsBound ..) (wrb_keepsBound ..))))))))

theorem ptpCommit_keepsBound (s : State) (v : Nat) : KeepsBound s (ptpCommit v s) := by
  unfold ptpCommit
  exact .after (inc_keepsBound ..) (.after (noteRefs_keepsBound ..) (.after (.withTim ..) (.after (wr_keepsBound ..) (wr_keepsBound ..))))

theorem clearCauses_keepsBound (s : State) (v : Word) : KeepsBound s (clearCauses v s) := by
  unfold clearCauses
  exact .after (changes_updateFit ..).keepsBound (.foldl (fun _ _ => (.ite (changes_endCause ..).keepsBound .refl)) .refl)

theorem pairInject_keepsBound (s : State) (v : Word) : KeepsBound s (pairInject v s) := by
  unfold pairInject
  exact .ite (.after (wr_keepsBound ..) (wr_keepsBound ..)) (.ite (.after (.withPair ..) (.after (wr_keepsBound ..) (wr_keepsBound ..))) (.after
    (wr_keepsBound ..) (.after (wr_keepsBound ..) (wr_keepsBound ..))))

theorem upllEnable_keepsBound (s : State) (k v : Nat) : KeepsBound s (upllEnable k v s) := by
  unfold upllEnable
  exact .ite (.ite (wr_keepsBound ..) .refl) (.ite (.after (changes_clkoutCheck ..).keepsBound (.after (wr_keepsBound ..) (changes_upllFields
    ..).keepsBound)) (.after (wr_keepsBound ..) (changes_upllFields ..).keepsBound))

theorem upllDisable_keepsBound (s : State) (k v : Nat) : KeepsBound s (upllDisable k v s) := by
  unfold upllDisable
  exact .ite (changes_upllFields ..).keepsBound (.ite (wr_keepsBound ..) (.after (wr_keepsBound ..) (wr_keepsBound ..)))

theorem writeAon_keepsBound (s : State) (off v : Nat) : KeepsBound s (writeAon off v s) := by
  unfold writeAon
  refine .ite (thenAct_keepsBound (hf := fun _ => (changes_refSwitch ..).keepsBound) ..) ?_
  refine .ite (ptpCommit_keepsBound ..) ?_
  refine .ite (wr_keepsBound ..) ?_
  refine .ite (.after (changes_synceUpdate ..).keepsBound (.after (noteRefs_keepsBound ..) (writeFields_keepsBound ..))) ?_
  refine .ite (writePins_keepsBound ..) ?_
  refine .ite (safWrite_keepsBound ..) ?_
  refine .ite (clearCauses_keepsBound ..) ?_
  refine .ite (pairInject_keepsBound ..) ?_
  split
  · exact .ite (upllEnable_keepsBound ..) (upllDisable_keepsBound ..)
  · split
    · exact (changes_channelSelect ..).keepsBound
    · exact writeFields_keepsBound ..

theorem dmaRun_keepsBound (s : State) (d : Dma) : KeepsBound s (dmaRun s d) := by
  unfold dmaRun
  exact dmaGo_keepsBound ..

theorem dmaBytes_keepsBound (s : State) (d : Dma) (e : DmaElem) (l : List Byte) : KeepsBound s (dmaBytes s d e l) := by
  unfold dmaBytes
  exact .ite (setDma_keepsBound ..) (.ite (.after (dmaRun_keepsBound ..) (dmaPut_keepsBound ..)) (.after (setDma_keepsBound ..) (dmaPut_keepsBound
    ..)))

theorem dmaResponse_keepsBound (s : State) (id piece : Nat) (r : NocReq) : KeepsBound s (dmaResponse id piece r s) := by
  unfold dmaResponse
  split
  · exact .refl
  · refine .ite .refl ?_
    split
    · exact .ite (dmaEnd_keepsBound ..) (dmaRun_keepsBound ..)
    · exact .ite (dmaEnd_keepsBound ..) (dmaBytes_keepsBound ..)
    · exact .refl

theorem writeBytes_keepsBound (s : State) (init : Nat) (o : NocOwner) (pa : Nat) (l : List Byte) : KeepsBound s (writeBytes s init o pa l).2 := by
  unfold writeBytes
  exact putBytes_keepsBound ..

theorem rxNext_keepsBound (s : State) (n : Nat) : KeepsBound s (rxNext n s) := by
  unfold rxNext
  dsimp only
  split
  · exact .refl
  · exact .ite .refl (.after (changes_setLane ..).keepsBound (writeBytes_keepsBound ..))

theorem rxAnswered_keepsBound (s : State) (n st : Nat) : KeepsBound s (rxAnswered n st s) := by
  unfold rxAnswered
  exact .ite (changes_setLane ..).keepsBound (.after (rxNext_keepsBound ..) (.ite (.after (inc_keepsBound ..) (changes_setLane ..).keepsBound)
    (.after (wr_keepsBound ..) (changes_setLane ..).keepsBound)))

theorem txRead_keepsBound (s : State) (n : Nat) (x : SlowTx) (r : NocReq) : KeepsBound s (txRead n x r s) := by
  unfold txRead
  exact .ite (changes_setLane ..).keepsBound (.after (nocMake_keepsBound ..) (changes_setLane ..).keepsBound)

theorem slowAnswered_keepsBound (s : State) (n : Nat) (part : SlowPart) (r : NocReq) : KeepsBound s (slowAnswered n part r s) := by
  unfold slowAnswered
  split
  · exact rxAnswered_keepsBound ..
  · exact .after (wr_keepsBound ..) (changes_setLane ..).keepsBound
  · exact txRead_keepsBound ..
  · exact txRead_keepsBound ..
  · exact .refl

theorem deliver_keepsBound (s : State) (r : NocReq) : KeepsBound s (deliver r s) := by
  unfold deliver
  refine .ite .refl ?_
  split
  · exact .withOutbox ..
  · exact .withOutbox ..
  · exact .ite .refl (pathFailed_keepsBound ..)
  · exact dmaResponse_keepsBound ..
  · exact slowAnswered_keepsBound ..
  · exact .ite .refl (.after (.withPair ..) (wr_keepsBound ..))
  · exact .refl

theorem dropReq_keepsBound (s : State) (init tag : Nat) : KeepsBound s (dropReq s init tag) := by
  unfold dropReq
  exact .withNoc ..

theorem concluded_keepsBound (s : State) (r : NocReq) (bin : Nat) : KeepsBound s (concluded s r bin) := by
  unfold concluded
  exact .ite (.after (pump_keepsBound ..) (.after (deliver_keepsBound ..) (.ite (dropReq_keepsBound ..) (.after (countReq_keepsBound ..)
    (dropReq_keepsBound ..))))) (.after (deliver_keepsBound ..) (.ite (dropReq_keepsBound ..) (.after (countReq_keepsBound ..) (dropReq_keepsBound
    ..))))

theorem requestTimeout_keepsBound (s : State) (init tag : Nat) : KeepsBound s (requestTimeout init tag s) := by
  unfold requestTimeout
  split
  · exact .refl
  · exact .ite .refl (.ite (.after (mapReq_keepsBound ..) (.after (inc_keepsBound ..) (advanceTo_keepsBound ..))) (.after (concluded_keepsBound ..)
    (.after (inc_keepsBound ..) (advanceTo_keepsBound ..))))

theorem responseArrival_keepsBound (s : State) (init tag : Nat) (ready : Bool) : KeepsBound s (responseArrival init tag ready s) := by
  unfold responseArrival
  dsimp only
  split
  · exact arrive_keepsBound ..
  · exact .ite (arrive_keepsBound ..) (.ite (.ite (.ite (arrive_keepsBound ..) (.after (advanceTo_keepsBound ..) (arrive_keepsBound ..))) (.after
    (mapReq_keepsBound ..) (.ite (.after (inc_keepsBound ..) (.ite (arrive_keepsBound ..) (.after (advanceTo_keepsBound ..) (arrive_keepsBound
    ..)))) (.ite (arrive_keepsBound ..) (.after (advanceTo_keepsBound ..) (arrive_keepsBound ..)))))) (.after (concluded_keepsBound ..) (.after
    (advanceTo_keepsBound ..) (.ite (.after (inc_keepsBound ..) (.ite (arrive_keepsBound ..) (.after (advanceTo_keepsBound ..) (arrive_keepsBound
    ..)))) (.ite (arrive_keepsBound ..) (.after (advanceTo_keepsBound ..) (arrive_keepsBound ..)))))))

theorem dramRead_keepsBound (s : State) (init tag : Nat) : KeepsBound s (dramRead init tag s) := by
  unfold dramRead
  dsimp only
  split
  · exact opMeta_keepsBound ..
  · exact .ite (opMeta_keepsBound ..) (.ite (.after (denyLine_keepsBound ..) (opMeta_keepsBound ..)) (.ite (opMeta_keepsBound ..) (.after
    (mapOp_keepsBound ..) (.after (enqueueRead_keepsBound ..) (opMeta_keepsBound ..)))))

theorem dramWrite_keepsBound (s : State) (init tag : Nat) : KeepsBound s (dramWrite init tag s) := by
  unfold dramWrite
  dsimp only
  split
  · exact opMeta_keepsBound ..
  · exact .ite (opMeta_keepsBound ..) (.ite (.after (denyLine_keepsBound ..) (opMeta_keepsBound ..)) (.ite (opMeta_keepsBound ..) (.after
    (answerLine_keepsBound ..) (.after (installTag_keepsBound ..) (.after (enqueueWrite_keepsBound ..) (opMeta_keepsBound ..))))))

theorem serveRead_keepsBound (s : State) (c : Nat) (p : DramReq → Bool) (f : LineFind) : KeepsBound s (serveRead c p f s) := by
  unfold serveRead
  exact .ite (dramData_keepsBound ..) .refl

theorem dramPartial_keepsBound (s : State) (init tag : Nat) (f : LineFind) : KeepsBound s (dramPartial init tag f s) := by
  unfold dramPartial
  split
  · exact .refl
  · exact .ite .refl (.ite (denyLine_keepsBound ..) (.after (serveRead_keepsBound ..) (.ite (.after (mapOp_keepsBound ..) (enqueueRead_keepsBound
    ..)) .refl)))

theorem serveMeta_keepsBound (s : State) (n : Nat) (l : List Nat) (m : MetaFind) : KeepsBound s (serveMeta n l m s) := by
  unfold serveMeta
  exact .foldl (fun _ _ => (serveRead_keepsBound ..)) .refl

theorem ownerRecord_keepsBound (s : State) (kind : Nat) (confirm : Byte) (rec : Option (List Byte)) (cut : Bool) : KeepsBound s (ownerRecord kind
  confirm rec cut s) := by
  unfold ownerRecord
  exact .ite .refl (.ite .refl (.after (porterAccept_keepsBound ..) (wr_keepsBound ..)))

theorem dmRevert_keepsBound (s : State) (r : Repair) (d : Frame) : KeepsBound s (dmRevert s r d) := by
  unfold dmRevert
  exact .after (repaired_keepsBound ..) (.after (fault_keepsBound ..) (.withCtxs ..))

theorem writeRepair_keepsBound (s : State) (r : Repair) (src : Nat) (d : Frame) : KeepsBound s (writeRepair s r src d) := by
  unfold writeRepair
  exact .ite (.after (queueRepair_keepsBound ..) (takePoison_keepsBound ..)) (.ite (dmRevert_keepsBound ..) (repaired_keepsBound ..))

theorem repairEnded_keepsBound (s : State) (r : Repair) : KeepsBound s (repairEnded s r) := by
  unfold repairEnded
  split
  · exact .refl
  · exact .ite (.withCtxs ..) .refl

theorem frameRepair_keepsBound (s : State) (net : NetWay) : KeepsBound s (frameRepair net s) := by
  unfold frameRepair
  refine .ite .refl ?_
  split
  · exact .refl
  · next r _ =>
    extract_lets ok _ t0 t1 chain reads t2 u
    have h0 : KeepsBound s t0 := .after (changes_showRepairs ..).keepsBound (.withInteg ..)
    have h1 : KeepsBound s t1 := .ite h0 (.after (repairEnded_keepsBound ..) h0)
    have h2 : KeepsBound s t2 := .ite (.after (wayCounts_keepsBound ..) h1) h1
    have hu : KeepsBound s u := by
      dsimp only [u]
      clear_value t2 chain
      split
      · exact .after (writeRepair_keepsBound ..) h2
      · split
        · exact .ite (.after (writeRepair_keepsBound ..) h2) (.after (repairLost_keepsBound ..) h2)
        · exact .after (repairLost_keepsBound ..) h2
    exact .ite (.after (chainRead_keepsBound ..) hu) hu

theorem completionPost_keepsBound (s : State) (id : Nat) (refused msixFails : Bool) : KeepsBound s (completionPost id refused msixFails s) := by
  unfold completionPost
  split
  · exact .refl
  · exact .ite .refl (.after (porterTurn_keepsBound ..) (.after (settleQueue_keepsBound ..) (.foldl (fun _ _ => (postEntry_keepsBound ..)) (.after
    (postEntry_keepsBound ..) (.foldl (fun _ _ => (changes_mapTrack ..).keepsBound) .refl)))))

theorem pcieErrors_keepsBound (s : State) (n errors : Nat) : KeepsBound s (pcieErrors n errors s) := by
  unfold pcieErrors
  exact .ite .refl (.ite (.after (linkDown_keepsBound ..) (.after (changes_setDegraded ..).keepsBound (.after (fault_keepsBound ..) (.after
    (wrBit_keepsBound ..) (cutScan_keepsBound ..))))) (.after (.withLink ..) (.after (inc_keepsBound ..) (.after (changes_setDegraded
    ..).keepsBound (.after (fault_keepsBound ..) (.after (wrBit_keepsBound ..) (cutScan_keepsBound ..)))))))

theorem assign_keepsBound (s : State) (id m : Nat) (gather : Bool) (es : List DmaElem) : KeepsBound s (assign s id m gather es).1 := by
  unfold assign
  exact .withDmas ..

theorem dmaMove_keepsBound (s : State) (fill : Bool) (m : Nat) (t : Track) : KeepsBound s (dmaMove fill m t s) := by
  unfold dmaMove
  exact .after (dmaRun_keepsBound ..) (assign_keepsBound ..)

theorem keyInstall_keepsBound (s : State) (t : Track) : KeepsBound s (keyInstall t s) := by
  unfold keyInstall
  exact .ite (changes_finish ..).keepsBound (.ite (changes_finish ..).keepsBound (.ite (.after (keyKnown_keepsBound ..) (.over [.free] rfl))
    (.after (porterAccept_keepsBound ..) (readHost_keepsBound ..))))

theorem loopLanes_keepsBound (s : State) : KeepsBound s (loopLanes s) := by
  unfold loopLanes
  exact .ite (.foldl (fun _ _ => (.ite .refl (.after (changes_setLane ..).keepsBound (.after (laneTo_keepsBound ..) (cutScan_keepsBound ..)))))
    .refl) (.after (linkTo_keepsBound ..) (.foldl (fun _ _ => (.ite .refl (.after (changes_setLane ..).keepsBound (.after (laneTo_keepsBound ..)
    (cutScan_keepsBound ..))))) .refl))

theorem pageOf_keepsBound (s : State) (page : Nat) : KeepsBound s (pageOf s page).2 := by
  unfold pageOf
  split
  · exact .refl
  · split
    · exact pagePair_keepsBound ..
    · exact .refl

theorem telemetry_keepsBound (s : State) (t : Track) : KeepsBound s (telemetry t s) := by
  unfold telemetry
  exact .ite (changes_finish ..).keepsBound (.after (changes_finish ..).keepsBound (.after (writeHost_keepsBound ..) (.after (changes_commit
    ..).keepsBound (pageOf_keepsBound ..))))

theorem debugUnlock_keepsBound (s : State) (t : Track) : KeepsBound s (debugUnlock t s) := by
  unfold debugUnlock
  exact .after (porterAccept_keepsBound ..) (.ite (readHost_keepsBound ..) .refl)

theorem stopIntrusive_keepsBound (s : State) : KeepsBound s (stopIntrusive s) := by
  unfold stopIntrusive
  refine .foldl (fun _ _ => (.ite (.after (startLane_keepsBound ..) (changes_setLane ..).keepsBound) .refl)) ?_
  split
  · exact .after (changes_finish ..).keepsBound (.after (.withSafe _ _ rfl) (.foldl (fun _ _ => (cutScan_keepsBound ..)) .refl))
  · exact .foldl (fun _ _ => (cutScan_keepsBound ..)) .refl

theorem modeSet_keepsBound (s : State) (sd : SwapData) (t : Track) : KeepsBound s (modeSet sd t s) := by
  unfold modeSet
  exact .ite (changes_finish ..).keepsBound (.ite (changes_finish ..).keepsBound (.ite (changes_finish ..).keepsBound (.ite (changes_finish
    ..).keepsBound (.ite (.after (changes_finish ..).keepsBound (changes_commit ..).keepsBound) (.ite (changes_finish ..).keepsBound (.ite
    (changes_finish ..).keepsBound (.ite (modeRunSet_keepsBound ..) (.ite (modeDormantSet_keepsBound ..) (.after (changes_finish ..).keepsBound
    (.after (changes_commit ..).keepsBound (.after (setMode_keepsBound ..) (.after (changes_exitAllEi ..).keepsBound (.ite
    (stopIntrusive_keepsBound ..) .refl)))))))))))))

theorem linkLoss_keepsBound (s : State) (n : Nat) : KeepsBound s (linkLoss n s) := by
  unfold linkLoss
  exact .ite .refl (.after (cutScan_keepsBound ..) (laneTo_keepsBound ..))

theorem toTile_keepsBound (s : State) (n r : Nat) (l : List Byte) (i : RxInfo) (off : Int) : KeepsBound s (toTile s n r l i off) := by
  unfold toTile
  exact .ite .refl (.after (.withFh ..) (.after (deliverAt_keepsBound ..) (.foldl (fun _ _ => (writeBytes_keepsBound ..)) (.ite (.foldl (fun _ _ =>
    (writeBytes_keepsBound ..)) .refl) .refl))))

theorem toSlow_keepsBound (s : State) (n : Nat) (l : List Byte) (i : RxInfo) : KeepsBound s (toSlow s n l i) := by
  unfold toSlow
  exact .ite .refl (.ite (inc_keepsBound ..) (.after (rxNext_keepsBound ..) (changes_setLane ..).keepsBound))

theorem toStream_keepsBound (s : State) (n : Nat) (l : List Byte) (i : RxInfo) (off : Int) (ready : Bool) : KeepsBound s (toStream s n l i off
  ready) := by
  unfold toStream
  exact .ite (.after (.withOutbox ..) (changes_setLane ..).keepsBound) (changes_setLane ..).keepsBound

theorem frameReceived_keepsBound (s : State) (n : Nat) (l : List Byte) (fcs pcs : Bool) (off : Int) (ready : Bool) : KeepsBound s (frameReceived n
  l fcs pcs off ready s) := by
  unfold frameReceived
  dsimp only
  refine .ite .refl ?_
  refine .ite (inc_keepsBound ..) ?_
  refine .ite (inc_keepsBound ..) ?_
  split
  · exact .ite (.after (toTile_keepsBound ..) (.ite (.after (toSlow_keepsBound ..) (.ite (.after (toStream_keepsBound ..) (.ite (.ite .refl
    (inc_keepsBound ..)) (.after (fresh_keepsBound ..) (.ite .refl (inc_keepsBound ..))))) (.ite (.ite .refl (inc_keepsBound ..)) (.after
    (fresh_keepsBound ..) (.ite .refl (inc_keepsBound ..)))))) (.ite (.after (toStream_keepsBound ..) (.ite (.ite .refl (inc_keepsBound ..))
    (.after (fresh_keepsBound ..) (.ite .refl (inc_keepsBound ..))))) (.ite (.ite .refl (inc_keepsBound ..)) (.after (fresh_keepsBound ..) (.ite
    .refl (inc_keepsBound ..))))))) (.ite (.after (toSlow_keepsBound ..) (.ite (.after (toStream_keepsBound ..) (.ite (.ite .refl (inc_keepsBound
    ..)) (.after (fresh_keepsBound ..) (.ite .refl (inc_keepsBound ..))))) (.ite (.ite .refl (inc_keepsBound ..)) (.after (fresh_keepsBound ..)
    (.ite .refl (inc_keepsBound ..)))))) (.ite (.after (toStream_keepsBound ..) (.ite (.ite .refl (inc_keepsBound ..)) (.after (fresh_keepsBound
    ..) (.ite .refl (inc_keepsBound ..))))) (.ite (.ite .refl (inc_keepsBound ..)) (.after (fresh_keepsBound ..) (.ite .refl (inc_keepsBound
    ..))))))
  · exact .ite (.after (toSlow_keepsBound ..) (.ite (.after (toStream_keepsBound ..) (.ite (.ite .refl (inc_keepsBound ..)) (.after
    (fresh_keepsBound ..) (.ite .refl (inc_keepsBound ..))))) (.ite (.ite .refl (inc_keepsBound ..)) (.after (fresh_keepsBound ..) (.ite .refl
    (inc_keepsBound ..)))))) (.ite (.after (toStream_keepsBound ..) (.ite (.ite .refl (inc_keepsBound ..)) (.after (fresh_keepsBound ..) (.ite
    .refl (inc_keepsBound ..))))) (.ite (.ite .refl (inc_keepsBound ..)) (.after (fresh_keepsBound ..) (.ite .refl (inc_keepsBound ..)))))

theorem rxSignalLoss_keepsBound (s : State) (n : Nat) : KeepsBound s (rxSignalLoss n s) := by
  unfold rxSignalLoss
  exact .ite .refl (.ite (.after (changes_showEi ..).keepsBound (changes_setLane ..).keepsBound) (linkLoss_keepsBound ..))

theorem eiRelockTimeout_keepsBound (s : State) (n : Nat) : KeepsBound s (eiRelockTimeout n s) := by
  unfold eiRelockTimeout
  exact .ite .refl (.after (linkLoss_keepsBound ..) (changes_advance ..).keepsBound)

theorem noteDrop_keepsBound (s : State) (n : Nat) : KeepsBound s (noteDrop s n) := by
  unfold noteDrop
  exact .ite (.after (changes_selfFault ..).keepsBound (.ite (.after (changes_sendControl ..).keepsBound (.after (changes_setDegraded
    ..).keepsBound (.after (fault_keepsBound ..) (cutScan_keepsBound ..)))) (.after (changes_setDegraded ..).keepsBound (.after (fault_keepsBound
    ..) (cutScan_keepsBound ..))))) (.ite (.after (changes_sendControl ..).keepsBound (.after (changes_setDegraded ..).keepsBound (.after
    (fault_keepsBound ..) (cutScan_keepsBound ..)))) (.after (changes_setDegraded ..).keepsBound (.after (fault_keepsBound ..) (cutScan_keepsBound
    ..))))

theorem dropLane_keepsBound (s : State) (n : Nat) : KeepsBound s (dropLane s n) := by
  unfold dropLane
  exact .after (noteDrop_keepsBound ..) (.after (laneTo_keepsBound ..) (cutLane_keepsBound ..))

theorem cutIngress_keepsBound (s : State) (m : Nat) (l : List Byte) : KeepsBound s (cutIngress s m l) := by
  unfold cutIngress
  exact .ite .refl (frameReceived_keepsBound ..)

theorem fallBack_keepsBound (s : State) (n m : Nat) : KeepsBound s (fallBack s n m) := by
  unfold fallBack
  exact .after (wrb_keepsBound ..) (.after (wr_keepsBound ..) (.after (laneTo_keepsBound ..) (.after (cutLane_keepsBound ..) (.ite
    (noteDrop_keepsBound ..) (dropLane_keepsBound ..)))))

theorem errorWindow_keepsBound (s : State) (n corrected errors : Nat) (l : List Byte) : KeepsBound s (errorWindow n corrected errors l s) := by
  unfold errorWindow
  exact .ite .refl (.ite (.after (inc_keepsBound ..) (inc_keepsBound ..)) (.ite (.after (dropLane_keepsBound ..) (.after (cutIngress_keepsBound ..)
    (.after (inc_keepsBound ..) (inc_keepsBound ..)))) (.ite (.ite (.after (dropLane_keepsBound ..) (.after (cutIngress_keepsBound ..) (.after
    (inc_keepsBound ..) (inc_keepsBound ..)))) (.after (dropLane_keepsBound ..) (.after (dropLane_keepsBound ..) (.after (cutIngress_keepsBound ..)
    (.after (inc_keepsBound ..) (inc_keepsBound ..)))))) (.after (fallBack_keepsBound ..) (.after (cutIngress_keepsBound ..) (.after
    (inc_keepsBound ..) (inc_keepsBound ..)))))))

theorem linkStage_keepsBound (s : State) (partner : Nat) : KeepsBound s (linkStage partner s) := by
  unfold linkStage
  exact .ite .refl (.ite (linkTo_keepsBound ..) (.ite (.after (changes_sendControl ..).keepsBound (.after (wr_keepsBound ..) (.after (.withPair ..)
    (.after (changes_settleLanes ..).keepsBound (.after (wr_keepsBound ..) (linkTo_keepsBound ..)))))) (.after (wr_keepsBound ..) (.after
    (.withPair ..) (.after (changes_settleLanes ..).keepsBound (.after (wr_keepsBound ..) (linkTo_keepsBound ..)))))))

theorem linkTimeout_keepsBound (s : State) : KeepsBound s (linkTimeout s) := by
  unfold linkTimeout
  exact .ite (.after (linkTo_keepsBound ..) (advanceTo_keepsBound ..)) .refl

theorem setTout_keepsBound (s : State) (n : Nat) (o : Tout) : KeepsBound s (setTout s n o) := by
  unfold setTout
  exact .withTim ..

theorem toutCommit_keepsBound (s : State) (n : Nat) (a : ToutArm) : KeepsBound s (toutCommit s n a) := by
  unfold toutCommit
  exact .ite (setTout_keepsBound ..) (toutArm_keepsBound ..)

theorem takeRecord_keepsBound (s : State) (f q seq cid status result : Nat) : KeepsBound s (takeRecord s f q seq cid status result) := by
  unfold takeRecord
  exact .ite .refl (.withPair ..)

theorem dataBlock_keepsBound (s : State) (train k : Nat) (fec : Bool) (d : PairData) : KeepsBound s (dataBlock train k fec d s) := by
  unfold dataBlock
  dsimp only
  refine .ite .refl ?_
  refine .ite (.withPair ..) ?_
  split
  · exact .after (writeBytes_keepsBound ..) (.withPair ..)
  · split
    · exact .ite (.after (toutCommit_keepsBound ..) (.after (takeRecord_keepsBound ..) (.withPair ..))) (.after (takeRecord_keepsBound ..)
      (.withPair ..))
    · exact .after (takeRecord_keepsBound ..) (.withPair ..)

theorem linkLanes_keepsBound (s : State) : KeepsBound s (linkLanes s) := by
  unfold linkLanes
  exact .ite .refl (.ite (linkTo_keepsBound ..) (.ite .refl (.after (changes_sendControl ..).keepsBound (.withPair ..))))

theorem dropBolryn_keepsBound (s : State) (n : Nat) : KeepsBound s (dropBolryn s n) := by
  unfold dropBolryn
  exact .ite .refl (.after (changes_setDegraded ..).keepsBound (.after (fault_keepsBound ..) (.after (cutScan_keepsBound ..) (wrBit_keepsBound
    ..))))

theorem bolrynErrors_keepsBound (s : State) (n codewords : Nat) : KeepsBound s (bolrynErrors n codewords s) := by
  unfold bolrynErrors
  exact .ite .refl (.after (changes_settleLanes ..).keepsBound (.after (linkLanes_keepsBound ..) (dropBolryn_keepsBound ..)))

theorem bandReadapt_keepsBound (s : State) (ok : Bool) : KeepsBound s (bandReadapt ok s) := by
  unfold bandReadapt
  split
  · exact .refl
  · exact .ite (.after (changes_settleLanes ..).keepsBound (.after (wr_keepsBound ..) (.after (.withPair ..) (advanceTo_keepsBound ..)))) (.after
    (changes_settleLanes ..).keepsBound (.after (linkLanes_keepsBound ..) (.after (dropBolryn_keepsBound ..) (.after (dropBolryn_keepsBound ..)
    (.after (.withPair ..) (advanceTo_keepsBound ..))))))

theorem resumeMovers_keepsBound (s : State) : KeepsBound s (resumeMovers s) := by
  unfold resumeMovers
  refine .after (snapshotMoves_keepsBound ..) ?_
  refine .foldl (fun s a => ?_) .refl
  split
  · exact .refl
  · split
    · exact dmaBytes_keepsBound ..
    · exact dmaRun_keepsBound ..
    · exact .refl

theorem linkTrained_keepsBound (s : State) (speed w : Nat) (reversed : Bool) : KeepsBound s (linkTrained speed w reversed s) := by
  unfold linkTrained
  exact .ite .refl (.after (resumeMovers_keepsBound ..) (.after (wrb_keepsBound ..) (.after (wr_keepsBound ..) (.after (wr_keepsBound ..)
    (.withLink ..)))))

theorem scheduleTable_keepsBound (s : State) (t : Track) (d : List Byte) : KeepsBound s (scheduleTable t d s) := by
  unfold scheduleTable
  exact .ite (changes_finish ..).keepsBound (.ite (changes_finish ..).keepsBound (.ite (changes_finish ..).keepsBound (.after
    (reachCommit_keepsBound (hf := fun _ => (scheduleArm_keepsBound ..)) ..) (holdData_keepsBound ..))))

theorem dmaHostData_keepsBound (s : State) (id : Nat) (l : List Byte) : KeepsBound s (dmaHostData id l s) := by
  unfold dmaHostData
  split
  · split
    · exact dmaBytes_keepsBound ..
    · exact .ite (dmaRun_keepsBound ..) .refl
    · exact .refl
  · exact .refl

theorem porterData_keepsBound (s : State) (id : Nat) (d : List Byte) : KeepsBound s (porterData s id d) := by
  unfold porterData
  exact .after (porterTurn_keepsBound ..) (.withSec ..)

theorem keyRetire_keepsBound (s : State) (t : Track) : KeepsBound s (keyRetire t s) := by
  unfold keyRetire
  exact .ite (changes_finish ..).keepsBound (.ite (changes_finish ..).keepsBound (reachCommit_keepsBound (hf := fun _ => (.after (changes_finish
    ..).keepsBound (zeroiseSlot_keepsBound ..))) ..))

theorem regionRekey_keepsBound (s : State) (t : Track) : KeepsBound s (regionRekey t s) := by
  unfold regionRekey
  exact .ite (changes_finish ..).keepsBound (.ite (changes_finish ..).keepsBound (.ite (changes_finish ..).keepsBound (.ite (changes_finish
    ..).keepsBound (.ite (reachCommit_keepsBound (hf := fun _ => (rekeyQueue_keepsBound ..)) ..) (.after (rekeyQueue_keepsBound ..)
    (changes_mapTrack ..).keepsBound)))))

theorem listedStart_keepsBound (s : State) (t : Track) : KeepsBound s (listedStart s t) := by
  unfold listedStart
  exact .ite (.after (startLoad_keepsBound ..) (changes_mapTrack ..).keepsBound) (.ite (.after (startLoad_keepsBound ..) (changes_mapTrack
    ..).keepsBound) (.ite (.after (scheduleSet_keepsBound ..) (changes_mapTrack ..).keepsBound) (.ite (.after (contextRetire_keepsBound ..)
    (changes_mapTrack ..).keepsBound) (.ite (.after (keyInstall_keepsBound ..) (changes_mapTrack ..).keepsBound) (.ite (.after
    (keyRetire_keepsBound ..) (changes_mapTrack ..).keepsBound) (.after (regionRekey_keepsBound ..) (changes_mapTrack ..).keepsBound))))))

theorem readFails_keepsBound (s : State) (r : HostRead) (t : Track) : KeepsBound s (readFails r t s) := by
  unfold readFails
  refine .after (porterTurn_keepsBound ..) ?_
  split
  · split
    · exact .after (dmaEnd_keepsBound ..) (.after (dmaRest_keepsBound ..) (dropRead_keepsBound ..))
    · exact .after (dmaEnd_keepsBound ..) (dropRead_keepsBound ..)
  · exact .ite (.after (endLoad_keepsBound ..) (dropRead_keepsBound ..)) (.after (changes_finish ..).keepsBound (dropRead_keepsBound ..))
  · exact .ite (.after (prepareFails_keepsBound ..) (dropRead_keepsBound ..)) (.after (changes_finish ..).keepsBound (dropRead_keepsBound ..))
  · exact .after (changes_finish ..).keepsBound (dropRead_keepsBound ..)

theorem bolrynSignal_keepsBound (s : State) (n : Nat) (up : Bool) : KeepsBound s (bolrynSignal n up s) := by
  unfold bolrynSignal
  exact .after (changes_settleLanes ..).keepsBound (.after (linkLanes_keepsBound ..) (.withPair ..))

end Sys2Proof.Machine
end

section
set_option Elab.async false
/-! The words of the memory die, the Porter's reads, the encryption engine's lines and the timing engine keep the bound of the fault log. -/

namespace Sys2Proof.Machine

variable {s : State} {α β : Type} {l : List α}

/-! ## A fold that carries a state and a value -/

theorem KeepsBound.foldlFst {f : State × β → α → State × β} (hf : ∀ a x, KeepsBound a.1 (f a x).1) {a : State × β} (h : KeepsBound s a.1) :
    KeepsBound s (l.foldl f a).1 := by
  induction l generalizing a with
  | nil => exact h
  | cons x l ih => exact ih (h.trans (hf a x))

theorem KeepsBound.foldlSnd {f : β × State → α → β × State} (hf : ∀ a x, KeepsBound a.2 (f a x).2) {a : β × State} (h : KeepsBound s a.2) :
    KeepsBound s (l.foldl f a).2 := by
  induction l generalizing a with
  | nil => exact h
  | cons x l ih => exact ih (h.trans (hf a x))

/-! ## The words of the memory die -/

theorem mergeRead_keepsBound (s : State) (u : MemUpdate) (base : Option MemWord) (f : Finding) : KeepsBound s (mergeRead s u base f).2 := by
  unfold mergeRead
  split
  · exact .refl
  · extract_lets fr init stands r _ _ s1
    have hr : KeepsBound s r.2 := .after (readWord_keepsBound ..) (.iteSnd (fresh_keepsBound ..) .refl)
    have h1 : KeepsBound s s1 := .ite hr (.after (.withMem ..) hr)
    exact .iteSnd h1 h1

theorem takeEffect_keepsBound (s : State) (u : MemUpdate) : KeepsBound s (takeEffect s u) := by
  unfold takeEffect
  split
  · exact .withMem ..
  · exact putWord_keepsBound ..
  · exact putWord_keepsBound ..
  · exact .after (mergeStatus_keepsBound ..) (.after (putOver_keepsBound ..) (mergeRead_keepsBound ..))

theorem endHc_keepsBound (s : State) (h : Nat) : KeepsBound s (endHc s h) := by
  unfold endHc
  exact .after (.withMem ..) (.foldl takeEffect_keepsBound (.foldl takeEffect_keepsBound (.foldl takeEffect_keepsBound (.withMem ..))))

theorem settleTo_keepsBound (fuel m : Nat) (s : State) : KeepsBound s (settleTo fuel m s) := by
  induction fuel generalizing s with
  | zero => exact .refl
  | succ fuel ih =>
    rw [settleTo]
    split
    · exact .refl
    · exact .ite (.after (ih _) (endHc_keepsBound ..)) .refl

theorem settleMem_keepsBound (s : State) : KeepsBound s (settleMem s) := settleTo_keepsBound ..

theorem wordTurn_keepsBound (s : State) (t k : Nat) : KeepsBound s (wordTurn s t k) :=
  .after (settleMem_keepsBound ..) (advanceTo_keepsBound ..)

theorem readWords_keepsBound (s : State) (pa n init : Nat) (finds : List Finding) : KeepsBound s (readWords s pa n init finds).2 := by
  unfold readWords
  refine .foldlSnd (fun _ _ => ?_) .refl
  exact .after (portRead_keepsBound ..) (wordTurn_keepsBound ..)

theorem writeFlit_keepsBound (s : State) (init tag pa be d : Nat) : KeepsBound s (writeFlit s init tag pa be d).1 := by
  unfold writeFlit
  refine .foldlFst (fun _ _ => ?_) .refl
  exact .after (writeWord_keepsBound ..) (wordTurn_keepsBound ..)

theorem portASample_keepsBound (s : State) (b : Nat) : KeepsBound s (portASample s b) := by
  unfold portASample
  split
  · exact .after (settleMem_keepsBound ..) (advanceTo_keepsBound ..)
  · exact settleMem_keepsBound ..

theorem portBServed_keepsBound (s : State) (b : Nat) (path : Bool) (t : Nat) : KeepsBound s (portBServed s b path t) :=
  .after (.withMem ..) (.after (settleMem_keepsBound ..) (advanceTo_keepsBound ..))

theorem nocRead_keepsBound (s : State) (b : Nat) (r : NocReq) (finds : List Finding) : KeepsBound s (nocRead s b r finds) :=
  .after (served_keepsBound ..) (.after (mapReq_keepsBound ..) (.after (portBTook_keepsBound ..) (.after (readWords_keepsBound ..)
    (portBServed_keepsBound ..))))

theorem nocWrite_keepsBound (s : State) (b : Nat) (r : NocReq) : KeepsBound s (nocWrite s b r) := by
  have h0 : ∀ t, KeepsBound s (portBServed s b false t) := portBServed_keepsBound s b false
  have hv : ∀ t be d, KeepsBound s (portBTook (writeFlit (portBServed s b false t) r.init r.tag (r.pa + 64 * r.done) be d).1 b) := fun t _ _ =>
    .after (portBTook_keepsBound ..) (.after (writeFlit_keepsBound ..) (h0 t))
  exact .ite (.after (served_keepsBound ..) (.after (portBTook_keepsBound ..) (.after (wordTurn_keepsBound ..) (h0 _))))
    (.ite (.after (mapReq_keepsBound ..) (hv ..)) (.after (served_keepsBound ..) (hv ..)))

theorem portARead_keepsBound (s : State) (b w : Nat) (f : Finding) : KeepsBound s (portARead b w f s) := by
  have h0 : KeepsBound s (portATook (portASample s b) b) := .after (portATook_keepsBound ..) (portASample_keepsBound ..)
  exact .ite .refl (.after (.withOutbox ..) (.after (takePoison_keepsBound ..) (.after (portRead_keepsBound ..)
    (.iteSnd (.after (fresh_keepsBound ..) h0) h0))))

theorem portAWrite_keepsBound (s : State) (b w : Nat) (be : BitVec 8) (d : BitVec 64) : KeepsBound s (portAWrite b w be d s) := by
  have h0 : KeepsBound s (takePoison (portATook (portASample s b) b) (.portA (Fin.ofNat 4096 b))).2 :=
    .after (takePoison_keepsBound ..) (.after (portATook_keepsBound ..) (portASample_keepsBound ..))
  exact .ite .refl (.ite (.after (.withOutbox ..) h0) (.after (writeWord_keepsBound ..) h0))

theorem invalidate_keepsBound (s : State) (b : Nat) : KeepsBound s (invalidate s b) :=
  .ite (wr_keepsBound ..) (.after (wr_keepsBound ..) (.after (.withMem ..) (settleMem_keepsBound ..)))

theorem invalidateAll_keepsBound (s : State) : KeepsBound s (invalidateAll s) :=
  .after (wr_keepsBound ..) (.after (.withMem ..) (settleMem_keepsBound ..))

theorem portAInvalidate_keepsBound (s : State) (b : Nat) : KeepsBound s (portAInvalidate b s) :=
  .ite .refl (.after (invalidate_keepsBound ..) (.after (.withMem ..)
    (.ite (.after (portASample_keepsBound ..) (.after (advanceTo_keepsBound ..) (portASample_keepsBound ..))) (portASample_keepsBound ..))))

theorem narrowMerge_keepsBound (s : State) (f : Finding) : KeepsBound s (narrowMerge f s) := by
  have h0 : ∀ k, KeepsBound s (settleMem (advanceTo s k)) := fun _ => .after (settleMem_keepsBound ..) (advanceTo_keepsBound ..)
  unfold narrowMerge
  dsimp only
  split
  · exact .refl
  · split
    · exact h0 _
    · exact .after (mergeStatus_keepsBound ..) (.after (.withMem ..) (.after (mergeRead_keepsBound ..) (h0 _)))

theorem retirementSwitch_keepsBound (s : State) (b : Nat) (bad : List (Fin 4096 × WordFind)) : KeepsBound s (retirementSwitch b bad s) := by
  unfold retirementSwitch
  split
  · exact .refl
  · exact .after (spareSwitch_keepsBound ..) (.foldl (fun _ _ => copyWord_keepsBound ..) (.after (settleMem_keepsBound ..) (advanceTo_keepsBound ..)))

theorem portBRead_keepsBound (s : State) (p : BPort) (finds : List Finding) : KeepsBound s (portBRead p finds s) := by
  cases p with
  | noc init tag =>
    have ha : KeepsBound s (arrive s init tag) := arrive_keepsBound ..
    dsimp only [portBRead]
    split
    · exact ha
    · split
      · exact .ite ha (.after (nocRead_keepsBound ..) ha)
      · exact ha
  | path t =>
    have ha : KeepsBound s (netAt s s.now) := netAt_keepsBound ..
    dsimp only [portBRead]
    split
    · exact ha
    · next r _ =>
      refine .ite ha (.after (setTile_keepsBound ..) (.after (portBTook_keepsBound ..) ?_))
      have h0 : ∀ b, KeepsBound s (takePoison (pathServed (portBServed (netAt s s.now) b true (netAt s s.now).now) t) (.path t)).2 := fun _ =>
        .after (takePoison_keepsBound ..) (.after (changes_pathServed ..).keepsBound (.after (portBServed_keepsBound ..) ha))
      exact .iteSnd (.after (nocLogDeny_keepsBound ..) (h0 _)) (.after (readWords_keepsBound ..) (h0 _))

theorem portBWrite_keepsBound (s : State) (p : BPort) : KeepsBound s (portBWrite p s) := by
  cases p with
  | noc init tag =>
    have ha : KeepsBound s (arrive s init tag) := arrive_keepsBound ..
    dsimp only [portBWrite]
    split
    · exact ha
    · split
      · exact .ite ha (.after (nocWrite_keepsBound ..) ha)
      · exact ha
  | path t =>
    have ha : KeepsBound s (netAt s s.now) := netAt_keepsBound ..
    have h0 : ∀ b, KeepsBound s (takePoison (pathServed (portBServed (netAt s s.now) b true (netAt s s.now).now) t) (.path t)).2 := fun _ =>
      .after (takePoison_keepsBound ..) (.after (changes_pathServed ..).keepsBound (.after (portBServed_keepsBound ..) ha))
    unfold portBWrite
    dsimp only
    split
    · exact ha
    · exact .ite ha (.ite (.after (pathFailed_keepsBound ..) (.after (nocLogDeny_keepsBound ..) (.after (.withMem ..)
        (.after (portBTook_keepsBound ..) (h0 _))))) (.ite (.after (pathFailed_keepsBound ..) (.after (.withMem ..)
        (.after (portBTook_keepsBound ..) (h0 _)))) (.after (portBTook_keepsBound ..) (.after (writeWord_keepsBound ..)
        (.after (wordTurn_keepsBound ..) (.after (writeWord_keepsBound ..) (.after (.withMem ..) (.after (portBTook_keepsBound ..) (h0 _)))))))))

end Sys2Proof.Machine
end

section
set_option Elab.async false
/-! Reads of lines, rounds of fetches, the encryption engine's lines, the refit and a loss of CORE keep the bound of the fault log. -/

namespace Sys2Proof.Machine

theorem readLineOf_keepsBound (s : State) (r : NocReq) (n : Nat) (f : AccessFind) : KeepsBound s (readLineOf s r n f).2 := by
  unfold readLineOf
  dsimp only
  split
  · exact .iteSnd .refl (.after (readWords_keepsBound ..) (settleMem_keepsBound ..))
  · exact .iteSnd .refl .refl
  · exact .iteSnd (logDenial_keepsBound ..) (.iteSnd .refl (.iteSnd .refl (.after (readLine_keepsBound ..) (settleLine_keepsBound ..))))
  · exact .refl

theorem readNow_keepsBound (s : State) (init pa n : Nat) (f : AccessFind) : KeepsBound s (readNow s init pa n f).2 := by
  have hr : ∀ r, KeepsBound s (if f.way != .header && f.way != .dropped then readLineOf s r n f else ((0, List.replicate n 0), s)).2 := fun _ =>
    .iteSnd (readLineOf_keepsBound ..) .refl
  exact .iteSnd (.after (countReq_keepsBound ..) (nocLogDeny_keepsBound ..))
    (.after (countReq_keepsBound ..) (.after (throughNet_keepsBound ..) (.after (readNowHc_keepsBound ..) (hr _))))

theorem KeepsBound.withValue {s : State} {α β : Type} {r : α × State} (h : KeepsBound s r.2) (g : α × State → β) : KeepsBound s (g r, r.2).2 := h

theorem userWord_keepsBound (s : State) (f : AccessFind) : KeepsBound s (userWord s f).2 := by
  have hr : KeepsBound s (readNow s 0xA0 (udigPa s) 8 f).2 := readNow_keepsBound ..
  unfold userWord
  split
  · exact .refl
  · exact hr.withValue fun r => some (BitVec.ofNat 64 (ofBytes r.1.2))

theorem readSpace_keepsBound (s : State) (off n : Nat) : KeepsBound s (readSpace off n s).2 := by
  unfold readSpace
  refine .foldlSnd (fun _ _ => ?_) .refl
  exact .iteSnd (readReg_keepsBound ..) .refl

theorem fetchRound_keepsBound (s : State) (es : List Line) : KeepsBound s (fetchRound es s) := by
  unfold fetchRound
  refine .ite .refl (.foldlFst (fun a q => ?_) .refl)
  have hf : KeepsBound a.1 (fetchTurn q 8 a.2 a.1).1 := fetchTurn_keepsBound ..
  dsimp only
  split
  · exact .ite hf (.after (.withLink ..) hf)
  · exact .refl

theorem sweepReads_keepsBound (s : State) (f : LineFind) (m : MetaFind) : KeepsBound s (sweepReads f m s) := by
  unfold sweepReads
  split
  · exact .refl
  · next w _ _ =>
    split
    · exact .refl
    · next k _ =>
      extract_lets line c s1 mine s2
      have h1 : KeepsBound s s1 := by
        dsimp only [s1]
        split
        · next t ht => exact readMeta_keepsBound ht
        · exact (changes_setWork ..).keepsBound
      have h2 : KeepsBound s s2 := .ite h1 (.after (enqueueRead_keepsBound ..) h1)
      exact .ite .refl (.after (serveRead_keepsBound ..) (.after (serveMeta_keepsBound ..) h2))

theorem encRequest_keepsBound (s : State) (init tag : Nat) (m : MetaFind) : KeepsBound s (encRequest init tag m s) := by
  have ha : KeepsBound s (arrive s init tag) := arrive_keepsBound ..
  have hadv : ∀ k, KeepsBound s (advanceTo (arrive s init tag) k) := fun _ => .after (advanceTo_keepsBound ..) ha
  have huse : ∀ (l : List Nat) (w : Bool) u, KeepsBound u (l.foldl (fun s m => (useMeta s m w).getD s) u) := fun l w u =>
    .foldl (fun v m => by
      cases hu : useMeta v m w with
      | none => exact .refl
      | some t => exact useMeta_keepsBound hu) .refl
  unfold encRequest
  dsimp only
  split
  · exact ha
  · next r _ =>
    refine .ite ha (.ite (.after (answerLine_keepsBound ..) (hadv _)) ?_)
    split
    · exact .after (answerLine_keepsBound ..) (.after (logDenial_keepsBound ..) (hadv _))
    · exact .after (.withEnc ..) (hadv _)
    · refine .ite (.after (answerLine_keepsBound ..) (hadv _)) ?_
      have hm : ∀ (c : Bool) (l : List Nat), KeepsBound s (if c = true then l.foldl (fun s m => (useMeta s m r.write).getD s)
          (advanceTo (arrive s init tag) (reachTick (arrive s init tag) r)) else advanceTo (arrive s init tag) (reachTick (arrive s init tag) r)) :=
        fun c l => .ite (.after (huse ..) (hadv _)) (hadv _)
      exact .ite (.ite (.after (encWrite_keepsBound ..) (.after (.withEnc ..) (hm ..))) (.after (.withEnc ..) (hm ..)))
        (.after (serveMeta_keepsBound ..) (.after (opMeta_keepsBound ..) (.after (.withEnc ..) (hm ..))))

theorem synceUpdate_keepsBound (s : State) : KeepsBound s (synceUpdate s) := by
  have h0 : KeepsBound s ((List.range 16).foldl seEligible s) := .foldl (fun _ _ => (changes_seEligible ..).keepsBound) .refl
  unfold synceUpdate
  dsimp only
  exact .ite (.ite (.after (seSelect_keepsBound ..) h0) (.after (.withTim ..) h0)) (.after (seSelect_keepsBound ..) h0)

theorem sweepStore_keepsBound (s : State) : KeepsBound s (sweepStore s) := by
  unfold sweepStore
  obtain ⟨q, hq⟩ : ∃ q, 256 * nsTicks = q := ⟨_, rfl⟩
  rw [hq]
  clear hq
  split
  · exact .refl
  · next w _ _ =>
    split
    · exact .refl
    · next k _ =>
      extract_lets n line c off store lost d
      refine .ite .refl ?_
      split
      · exact .refl
      · next s0 hs0 =>
        have h0 : KeepsBound s s0 := by
          split at hs0
          · exact useEntry_keepsBound hs0
          · rw [← Option.some.inj hs0]
            exact .refl
        clear hs0
        extract_lets s2 _ s3 rate _ s4 j s5
        have hstore : ∀ p, KeepsBound s (store s0 p) := fun p => by
          dsimp only [store]
          split
          · exact .after (setTag_keepsBound ..) (.after (enqueueWrite_keepsBound ..) h0)
          · exact .after (enqueueWrite_keepsBound ..) h0
        have hlost : ∀ {u}, KeepsBound s u → KeepsBound s (lost u) := fun hu => .ite (.after (setTag_keepsBound ..) hu) hu
        have h2 : KeepsBound s s2 := by
          dsimp only [s2]
          clear_value store lost
          refine .ite (hlost h0) ?_
          split
          · exact hstore _
          · exact hlost (.after (logIntegrity_keepsBound ..) h0)
        have h3 : KeepsBound s s3 := .ite (.after (.withEnc ..) h2) h2
        have h5 : KeepsBound s s5 := .after (wr_keepsBound ..) (.after (.withEnc ..) h3)
        exact .ite h0 (.ite h5 (.after (endSweep_keepsBound ..) h5))

theorem timingEvaluate_keepsBound (s : State) : KeepsBound s (timingEvaluate s) := by
  unfold timingEvaluate
  obtain ⟨k, hk⟩ : ∃ k, 100 * msTicks = k := ⟨_, rfl⟩
  rw [hk]
  clear hk
  extract_lets s0 _ s1 was s2 f s3 old r shadow o base extra _ s4 s5 s6 s7 inj real new s8 s9
  have h3 : KeepsBound s s3 := .after (freshInt_keepsBound ..) (.after (synceUpdate_keepsBound ..) (.after (learn_keepsBound ..)
    (.after (noteRefs_keepsBound ..) (.after (readOscTemp_keepsBound ..) (.after (.withTim ..) (advanceTo_keepsBound ..))))))
  have h4 : KeepsBound s s4 := .after (.withTim ..) h3
  have h5 : KeepsBound s s5 := by
    dsimp only [s5]
    clear_value s4
    split
    · exact .ite h4 (.after (planStep_keepsBound ..) h4)
    · exact h4
  have h6 : KeepsBound s s6 := .ite (.after (changes_raiseEvent ..).keepsBound (.after (wr_keepsBound ..) h5)) h5
  have h7 : KeepsBound s s7 := .after (steer_keepsBound ..) h6
  have h8 : KeepsBound s s8 := .ite (.after (fault_keepsBound ..) h7) h7
  have h9 : KeepsBound s s9 := .ite (.after (timeInjection_keepsBound ..) h8) h8
  exact .after (timeErrorCause_keepsBound ..) (.after (showTiming_keepsBound ..) h9)

theorem clearCore_keepsBound (s : State) : KeepsBound s (clearCore s) := by
  unfold clearCore
  extract_lets s0 s1 link _ _ _ _ _ _ _ _ t1 t2
  have h0 : KeepsBound s s0 := .foldl (fun _ _ => .ite .refl (laneTo_keepsBound ..)) .refl
  have h1 : KeepsBound s s1 := .foldl (fun _ _ => cutScan_keepsBound ..) (.foldl (fun _ _ => cutScan_keepsBound ..) h0)
  clear_value s1
  have ht : KeepsBound s1 t1 := .of_log rfl
  have h2 : KeepsBound s t2 := .after (wr_keepsBound ..) (h1.trans ht)
  exact .after (synceUpdate_keepsBound ..) (.after (changes_shadowUnfit ..).keepsBound (.after (changes_settleLanes ..).keepsBound
    (.ite h2 (.after (wr_keepsBound ..) h2))))

theorem bistSlice_keepsBound (s : State) (sig : Word) (spares : List (Nat × Nat × Nat)) : KeepsBound s (bistSlice sig spares s) := by
  unfold bistSlice
  obtain ⟨k, hk⟩ : ∃ k, 10 * msTicks = k := ⟨_, rfl⟩
  rw [hk]
  clear hk
  extract_lets t0 _ t1 _ u
  have h1 : KeepsBound s t1 := .after (.withSafe _ _ rfl) (advanceTo_keepsBound ..)
  have hu : KeepsBound s u := .after (passScans_keepsBound ..) h1
  clear_value t1 u
  refine .ite .refl ?_
  split
  · exact .after (runSlice_keepsBound ..) h1
  · split
    · exact .after (runSlice_keepsBound ..) (.after (.withSafe _ _ rfl) h1)
    · exact .after (runSlice_keepsBound ..) hu

end Sys2Proof.Machine
end

section
set_option Elab.async false
/-! Writes of registers, sweeps, self-tests and the rest of the operations keep the bound of the fault log. -/

namespace Sys2Proof.Machine

theorem pprNow_keepsBound (s : State) (c e : Nat) : KeepsBound s (pprNow c e s) := by
  unfold pprNow
  exact .ite (.after (startRepair_keepsBound ..) (wr_keepsBound ..)) (.after (wr_keepsBound ..) (wr_keepsBound ..))

theorem writeCore_keepsBound (s : State) (off v : Nat) : KeepsBound s (writeCore off v s) := by
  unfold writeCore
  refine .ite (thenAct_keepsBound (hf := fun _ => (ownerGo_keepsBound ..)) ..) ?_
  refine .ite (thenAct_keepsBound (hf := fun _ => (statClear_keepsBound ..)) ..) ?_
  refine .ite (writeEnc_keepsBound ..) ?_
  refine .ite (.ite (.ite (invalidateAll_keepsBound ..) (invalidate_keepsBound ..)) .refl) ?_
  refine .ite (.ite .refl (.ite (.foldl (fun _ _ => (setTile_keepsBound ..)) .refl) (setTile_keepsBound ..))) ?_
  refine .ite (writeFhl_keepsBound ..) ?_
  refine .ite (linkEnable_keepsBound ..) ?_
  split
  · exact .ite (.after (pprNow_keepsBound ..) (thenAct_keepsBound (hf := fun _ => (changes_startRetrain ..).keepsBound) ..)) (thenAct_keepsBound
    (hf := fun _ => (changes_startRetrain ..).keepsBound) ..)
  · exact writeFields_keepsBound ..

theorem writeReg_keepsBound (s : State) (off v : Nat) : KeepsBound s (writeReg off v s) := by
  unfold writeReg
  exact .ite (writeDev_keepsBound ..) (.ite (writeCore_keepsBound ..) (writeAon_keepsBound ..))

theorem writeSpace_keepsBound (s : State) (off : Nat) (be : BitVec 64) (d : BitVec 512) : KeepsBound s (writeSpace off be d s) := by
  unfold writeSpace
  exact .foldl (fun _ _ => (.ite (writeReg_keepsBound ..) .refl)) .refl

theorem setWork_keepsBound (s : State) (k : Option SweepWork) : KeepsBound s (setWork s k) := by
  unfold setWork
  exact .withEnc ..

theorem sweepTake_keepsBound (s : State) : KeepsBound s (sweepTake s) := by
  unfold sweepTake
  split
  · exact .refl
  · exact .ite .refl (.after (setWork_keepsBound ..) (advanceTo_keepsBound ..))

theorem sweepLine_keepsBound (s : State) (f : LineFind) (m : MetaFind) : KeepsBound s (sweepLine f m s) := by
  unfold sweepLine
  exact .after (sweepStore_keepsBound ..) (.after (sweepReads_keepsBound ..) (sweepTake_keepsBound ..))

theorem injRead_keepsBound (s : State) (mech target variant : Nat) (f : AccessFind) : KeepsBound s (injRead s mech target variant f) := by
  unfold injRead
  exact .ite (.after (readNow_keepsBound ..) (changes_advance ..).keepsBound) (.ite (.after (injectionEnd_keepsBound ..) (.after (fault_keepsBound
    ..) (.after (readNow_keepsBound ..) (changes_advance ..).keepsBound))) (.ite (.after (injectionEnd_keepsBound ..) (.after (fault_keepsBound ..)
    (.after (readNow_keepsBound ..) (changes_advance ..).keepsBound))) (.after (injectionLogged_keepsBound ..) (.after (readNow_keepsBound ..)
    (changes_advance ..).keepsBound))))

theorem injectRun_keepsBound (s : State) (f : AccessFind) (t : Track) : KeepsBound s (injectRun f t s) := by
  unfold injectRun
  exact .ite (changes_finish ..).keepsBound (.ite (changes_finish ..).keepsBound (.ite (.after (injRead_keepsBound ..) (.after (wr_keepsBound ..)
    (.after (wr_keepsBound ..) (.after (wr_keepsBound ..) (.after (wr_keepsBound ..) (.after (.withSafe _ _ rfl) (changes_commit
    ..).keepsBound)))))) (.after (wr_keepsBound ..) (.after (wr_keepsBound ..) (.after (wr_keepsBound ..) (.after (wr_keepsBound ..) (.after
    (.withSafe _ _ rfl) (changes_commit ..).keepsBound)))))))

theorem bistRun_keepsBound (s : State) (f : AccessFind) (t : Track) : KeepsBound s (bistRun f t s) := by
  unfold bistRun
  exact .ite (changes_finish ..).keepsBound (.ite (changes_finish ..).keepsBound (.ite (changes_finish ..).keepsBound (.ite (injectRun_keepsBound
    ..) (.ite (.after (.withSafe _ _ rfl) (.after (.withSafe _ _ rfl) (changes_commit ..).keepsBound)) (.after (loopLanes_keepsBound ..) (.after
    (.withSafe _ _ rfl) (.after (.withSafe _ _ rfl) (changes_commit ..).keepsBound)))))))

theorem timingRound_keepsBound (s : State) : KeepsBound s (timingRound s) := by
  unfold timingRound
  exact .ite (timingEvaluate_keepsBound ..) (.ite (.after (.withPair ..) (timingEvaluate_keepsBound ..)) (.after (changes_sendControl
    ..).keepsBound (.after (.withPair ..) (.after (.withPair ..) (timingEvaluate_keepsBound ..)))))

theorem unitClose_keepsBound (s : State) (f : AccessFind) : KeepsBound s (unitClose f s) := by
  unfold unitClose
  refine .ite .refl ?_
  refine .ite ?_ ?_
  · refine .after (changes_sendControl ..).keepsBound ?_
    refine .after (wrb_keepsBound ..) ?_
    refine .after (.withPair ..) ?_
    split
    · exact .after (userWord_keepsBound ..) (changes_toBoundary ..).keepsBound
    · exact (changes_toBoundary ..).keepsBound
  · split
    · refine .after (changes_judge ..).keepsBound ?_
      refine .after (wrb_keepsBound ..) ?_
      refine .after (.withPair ..) ?_
      split
      · exact .after (userWord_keepsBound ..) (changes_toBoundary ..).keepsBound
      · exact (changes_toBoundary ..).keepsBound
    · refine .after (wrb_keepsBound ..) ?_
      refine .after (.withPair ..) ?_
      split
      · exact .after (userWord_keepsBound ..) (changes_toBoundary ..).keepsBound
      · exact (changes_toBoundary ..).keepsBound

theorem write32_keepsBound (s : State) (fn off v : Nat) : KeepsBound s (write32 fn off v s) := by
  unfold write32
  split
  · exact unassignedAccess_keepsBound ..
  · exact .ite (blockedAccess_keepsBound ..) (writeReg_keepsBound ..)

theorem hostWrite_keepsBound (s : State) (fn off v : Nat) (wide : Bool) : KeepsBound s (hostWrite fn off v wide s) := by
  unfold hostWrite
  exact .ite .refl (.ite (.after (write32_keepsBound ..) (write32_keepsBound ..)) (write32_keepsBound ..))

theorem serveRegs_keepsBound (s : State) (init tag : Nat) : KeepsBound s (serveRegs init tag s) := by
  have ha : ∀ k, KeepsBound s (advanceTo (arrive s init tag) k) := fun _ => .after (advanceTo_keepsBound ..) (arrive_keepsBound ..)
  unfold serveRegs
  dsimp only
  split
  · exact .refl
  · exact .ite .refl (.ite (.after (mapReq_keepsBound ..) (.foldl (fun _ _ => .ite .refl (writeSpace_keepsBound ..)) (ha _)))
      (.after (mapReq_keepsBound ..) (.after (readSpace_keepsBound ..) (ha _))))

theorem outstandingReset_keepsBound (s : State) : KeepsBound s (outstandingReset s) := by
  unfold outstandingReset
  obtain ⟨k, hk⟩ : ∃ k, 500 * nsTicks = k := ⟨_, rfl⟩
  rw [hk]
  clear hk
  split
  · exact .after (changes_showStack ..).keepsBound (.after (.withBoot ..) (.after (clearCore_keepsBound ..) (.after (unprepare_keepsBound ..)
      (.foldl (fun _ _ => .after (changes_mapTrack ..).keepsBound (commandCaught_keepsBound ..)) (.foldl (fun _ _ => outstandingEnd_keepsBound ..)
        (advanceTo_keepsBound ..))))))
  · exact .refl

theorem refit_keepsBound (s : State) : KeepsBound s (refit s) := by
  unfold refit
  obtain ⟨k, hk⟩ : ∃ k, 60 * secTicks = k := ⟨_, rfl⟩
  rw [hk]
  clear hk
  refine .ite (.after (.withTim ..) (advanceTo_keepsBound ..)) (.after (.withTim ..) (.after (.foldlSnd (fun _ _ => ?_) .refl)
    (advanceTo_keepsBound ..)))
  dsimp only
  exact freshInt_keepsBound ..

theorem changeList_keepsBound (s : State) (t : Track) (d : List Byte) : KeepsBound s (changeList t d s) := by
  have hlist : ∀ (l : List Nat) u, KeepsBound u (l.foldl (fun s id =>
      match trackOf s id with
      | some k => if s.pair.prepared.isSome then pairCheck (listedStart s k) else s
      | none => s) u) := fun l u => .foldl (fun v id => by
        split
        · exact .ite (.after (pairCheck_keepsBound ..) (listedStart_keepsBound ..)) .refl
        · exact .refl) .refl
  unfold changeList
  dsimp only
  split
  · exact .refl
  · split
    · exact prepareFails_keepsBound ..
    · refine .after (pairCheck_keepsBound ..) (.after (hlist ..) (.after (.withPair ..) (.foldlFst (fun _ _ => ?_) .refl)))
      exact addTrack_keepsBound ..

end Sys2Proof.Machine
end

section
set_option Elab.async false
/-! The ends of the host's reads keep the bound of the fault log. -/

namespace Sys2Proof.Machine

theorem readDone_keepsBound (s : State) (t : Track) (d : List Byte) : KeepsBound s (readDone t d s) := by
  unfold readDone
  refine .ite ?_ (.ite (scheduleTable_keepsBound ..) (.ite (dmaHostData_keepsBound ..) (.ite (porterData_keepsBound ..) (.ite
    (changeList_keepsBound ..) .refl))))
  split
  · exact .ite (.after (porterTurn_keepsBound ..) (loadRead_keepsBound ..)) .refl
  · exact .refl

theorem readData_keepsBound (s : State) (r : HostRead) (t : Track) (d : List Byte) : KeepsBound s (readData r t d s) := by
  unfold readData
  dsimp only
  split
  · exact .ite (.after (streamBytes_keepsBound ..) (.ite (dropRead_keepsBound ..) (.withLink ..))) (.ite (.after (readDone_keepsBound ..) (.ite
    (dropRead_keepsBound ..) (.withLink ..))) (.ite (dropRead_keepsBound ..) (.withLink ..)))
  · exact .ite (.after (readDone_keepsBound ..) (.ite (dropRead_keepsBound ..) (.withLink ..))) (.ite (dropRead_keepsBound ..) (.withLink ..))

theorem readCompletion_keepsBound (s : State) (g : HostTarget) (o : ReadOutcome) : KeepsBound s (readCompletion g o s) := by
  unfold readCompletion
  refine .ite .refl ?_
  split
  · split
    · exact .refl
    · exact .refl
    · exact queueError_keepsBound ..
  · split
    · exact .ite (ownerData_keepsBound ..) (.withLink ..)
    · exact ownerData_keepsBound ..
    · exact .refl
  · split
    · split
      · exact .after (pairCheck_keepsBound ..) (readData_keepsBound ..)
      · exact .after (pairCheck_keepsBound ..) (readFails_keepsBound ..)
    · exact .refl

end Sys2Proof.Machine
end

section
set_option Elab.async false
/-! The operations of the commands keep the bound of the fault log. -/

namespace Sys2Proof.Machine

theorem timerExpiry_keepsBound (s : State) (t : Nat) : KeepsBound s (timerExpiry t s) := by
  unfold timerExpiry
  dsimp only
  split
  · exact .refl
  · exact .after (setTile_keepsBound ..) (advanceTo_keepsBound ..)

theorem linkArrival_keepsBound (s : State) (t : Nat) : KeepsBound s (linkArrival t s) := by
  unfold linkArrival
  dsimp only
  split
  · exact .refl
  · exact .ite .refl (.after (setTile_keepsBound ..) (advanceTo_keepsBound ..))

theorem streamPush_keepsBound (s : State) (t p : Nat) (d : BitVec 128) : KeepsBound s (streamPush t p d s) := by
  unfold streamPush
  exact .ite .refl (setTile_keepsBound ..)

theorem runTimeout_keepsBound (s : State) : KeepsBound s (runTimeout s) := by
  unfold runTimeout
  split
  · split
    · exact .after (abandonStaging_keepsBound ..) (advanceTo_keepsBound ..)
    · exact .refl
  · exact .refl

theorem commandSwapDue_keepsBound (s : State) (sd : SwapData) : KeepsBound s (commandSwapDue sd s) := by
  unfold commandSwapDue
  split
  · exact .refl
  · exact .ite .refl (.ite (.after (armedSwap_keepsBound ..) (.after (advanceTo_keepsBound ..) (.ite .refl (changes_advanceToCounter
    ..).keepsBound))) (.ite (.after (finishTime_keepsBound ..) (.after (disarm_keepsBound ..) (.ite .refl (changes_advanceToCounter
    ..).keepsBound))) (.after (.withCtxs ..) (.ite .refl (changes_advanceToCounter ..).keepsBound))))

theorem advanceEntry_keepsBound (s : State) : KeepsBound s (advanceEntry s) := by
  unfold advanceEntry
  split
  · exact .refl
  · exact .ite (wr_keepsBound ..) (.after (wr_keepsBound ..) (.withCtxs ..))

theorem supersedeLate_keepsBound (s : State) (c : Nat) : KeepsBound s (supersedeLate s c) := by
  unfold supersedeLate
  split
  · exact .refl
  · exact .ite (.after (swapRecord_keepsBound ..) (.withCtxs ..)) (.ite (.after (.withCtxs ..) (.after (swapRecord_keepsBound ..) (.withCtxs ..)))
    (.after (startStaging_keepsBound ..) (.after (swapRecord_keepsBound ..) (.withCtxs ..))))

theorem afterSkip_keepsBound (s : State) (c : Nat) : KeepsBound s (afterSkip s c) := by
  unfold afterSkip
  exact .ite (scheduleStage_keepsBound ..) (.ite (.after (scheduleStage_keepsBound ..) (changes_emptyStaged ..).keepsBound)
    (scheduleStage_keepsBound ..))

theorem entryNotReady_keepsBound (s : State) (i : Nat) (e : SchedEntry) (due reason : Nat) : KeepsBound s (entryNotReady s i e due reason) := by
  unfold entryNotReady
  exact .ite (.after (afterSkip_keepsBound ..) (swapRecord_keepsBound ..)) (.ite (.withCtxs ..) (.ite (.withCtxs ..) (.after
    (startStaging_keepsBound ..) (.withCtxs ..))))

theorem entryDue_keepsBound (s : State) (sd : SwapData) : KeepsBound s (entryDue sd s) := by
  unfold entryDue
  split
  · exact .refl
  · exact .ite .refl (.ite (.after (scheduleStage_keepsBound ..) (.ite (.after (swapRecord_keepsBound ..) (.after (advanceEntry_keepsBound ..)
    (.after (supersedeLate_keepsBound ..) (changes_advanceToCounter ..).keepsBound))) (.after (advanceEntry_keepsBound ..) (.after
    (supersedeLate_keepsBound ..) (changes_advanceToCounter ..).keepsBound)))) (.ite (.after (entryNotReady_keepsBound ..) (.after
    (advanceEntry_keepsBound ..) (.after (supersedeLate_keepsBound ..) (changes_advanceToCounter ..).keepsBound))) (.ite (.after
    (entryNotReady_keepsBound ..) (.after (advanceEntry_keepsBound ..) (.after (supersedeLate_keepsBound ..) (changes_advanceToCounter
    ..).keepsBound))) (.after (scheduleStage_keepsBound ..) (.ite (.after (swapRecord_keepsBound ..) (.after (advanceEntry_keepsBound ..) (.after
    (doSwap_keepsBound ..) (.after (advanceTo_keepsBound ..) (.after (supersedeLate_keepsBound ..) (changes_advanceToCounter ..).keepsBound)))))
    (.after (advanceEntry_keepsBound ..) (.after (doSwap_keepsBound ..) (.after (advanceTo_keepsBound ..) (.after (supersedeLate_keepsBound ..)
    (changes_advanceToCounter ..).keepsBound)))))))))

theorem skipLate_keepsBound (s : State) (l : LateSwap) : KeepsBound s (skipLate s l) := by
  unfold skipLate
  exact .after (afterSkip_keepsBound ..) (.after (swapRecord_keepsBound ..) (.withCtxs ..))

theorem skipAtLimit_keepsBound (s : State) : KeepsBound s (lateLimit.skipAtLimit s) := by
  unfold lateLimit.skipAtLimit
  split
  · exact .after (skipLate_keepsBound ..) (changes_advanceToCounter ..).keepsBound
  · exact .refl

theorem lateLimit_keepsBound (s : State) : KeepsBound s (lateLimit s) := by
  unfold lateLimit
  split
  · exact .ite (.after (finishTime_keepsBound ..) (.after (disarm_keepsBound ..) (changes_advanceToCounter ..).keepsBound)) (skipAtLimit_keepsBound
    ..)
  · exact skipAtLimit_keepsBound ..

theorem supersedeIfStopped_keepsBound (s : State) (go : Bool) : KeepsBound s (bankTakeover.supersedeIfStopped go s) := by
  unfold bankTakeover.supersedeIfStopped
  exact .ite .refl (supersedeLate_keepsBound ..)

theorem bankTakeover_keepsBound (s : State) : KeepsBound s (bankTakeover s) := by
  unfold bankTakeover
  split
  · exact .refl
  · exact .ite .refl (.ite (.after (showSchedule_keepsBound ..) (.after (supersedeIfStopped_keepsBound ..) (.after (wrb_keepsBound ..) (.after
    (wr_keepsBound ..) (.after (wr_keepsBound ..) (.after (wr_keepsBound ..) (.after (.withCtxs ..) (changes_advanceToCounter ..).keepsBound)))))))
    (.after (scheduleStage_keepsBound ..) (.after (showSchedule_keepsBound ..) (.after (supersedeIfStopped_keepsBound ..) (.after (wrb_keepsBound
    ..) (.after (wr_keepsBound ..) (.after (wr_keepsBound ..) (.after (wr_keepsBound ..) (.after (.withCtxs ..) (changes_advanceToCounter
    ..).keepsBound)))))))))

theorem contextStage_keepsBound (s : State) (t : Track) : KeepsBound s (contextStage t s) := by
  unfold contextStage
  refine .ite (changes_finish ..).keepsBound ?_
  refine .ite (changes_finish ..).keepsBound ?_
  refine .ite (.after (changes_finish ..).keepsBound (changes_commit ..).keepsBound) ?_
  split
  · exact (changes_finish ..).keepsBound
  · exact (changes_finish ..).keepsBound
  · exact startStaging_keepsBound ..

theorem contextSwapAt_keepsBound (s : State) (t : Track) : KeepsBound s (contextSwapAt t s) := by
  unfold contextSwapAt
  refine .ite (changes_finish ..).keepsBound ?_
  refine .ite ?_ (.ite (changes_finish ..).keepsBound (.ite (changes_finish ..).keepsBound (.ite (.after (wr_keepsBound ..) (.after (.withCtxs ..)
    (changes_commit ..).keepsBound)) (changes_finish ..).keepsBound)))
  refine .ite (changes_finish ..).keepsBound ?_
  refine .ite (changes_finish ..).keepsBound ?_
  split
  · exact (changes_finish ..).keepsBound
  · exact .after (changes_finish ..).keepsBound (.after (finishTime_keepsBound ..) (.after (disarm_keepsBound ..) (changes_commit ..).keepsBound))

theorem injectDebug_keepsBound (s : State) (init : Nat) (l : List (BitVec 512)) (tap : Bool) : KeepsBound s (injectDebug s init l tap) := by
  unfold injectDebug
  exact .ite .refl (injectReq_keepsBound ..)

theorem injectEngine_keepsBound (s : State) (init : Nat) : KeepsBound s (injectEngine s init) := by
  unfold injectEngine
  split
  · exact .refl
  · exact .ite .refl (.after (injectReq_keepsBound ..) (.withNoc ..))

theorem powerLoss_keepsBound (s : State) (k lane : Nat) : KeepsBound s (powerLoss k lane s) := by
  unfold powerLoss
  exact .ite (.ite (.after (.withNoc ..) (.after (setDie_keepsBound ..) (changes_advance ..).keepsBound)) (.after (setDie_keepsBound ..)
    (changes_advance ..).keepsBound)) .refl

theorem clearDone_keepsBound (s : State) (b : Nat) : KeepsBound s (clearDone b s) := by
  unfold clearDone
  split
  · exact .refl
  · exact .after (wrb_keepsBound ..) (.after (.withMem ..) (advanceTo_keepsBound ..))

theorem refresh_keepsBound (s : State) (c : Nat) : KeepsBound s (refresh c s) := by
  unfold refresh
  exact .ite .refl (.after (wr_keepsBound ..) (.after (changes_setCtrl ..).keepsBound (.after (changes_noteCommands ..).keepsBound
    (advanceTo_keepsBound ..))))

theorem alertOn_keepsBound (s : State) (c sub : Nat) (crc : Bool) : KeepsBound s (alertOn c sub crc s) := by
  unfold alertOn
  exact .ite .refl (.ite (inc_keepsBound ..) (.after (inc_keepsBound ..) (changes_setCtrl ..).keepsBound))

theorem alertOff_keepsBound (s : State) (c sub : Nat) : KeepsBound s (alertOff c sub s) := by
  unfold alertOff
  dsimp only
  split
  · exact .refl
  · exact .after (drainOn_keepsBound ..) (.after (showRetrain_keepsBound ..) (changes_setCtrl ..).keepsBound)

theorem sessionExpiry_keepsBound (s : State) : KeepsBound s (sessionExpiry s) := by
  unfold sessionExpiry
  split
  · exact .after (onlyParts_endSession ..).keepsBound (advanceTo_keepsBound ..)
  · exact .refl

theorem badAccess_keepsBound (s : State) : KeepsBound s (badAccess s) := by
  unfold badAccess
  exact inc_keepsBound ..

theorem sqTail_keepsBound (s : State) (f k v : Nat) : KeepsBound s (sqTail f k v s) := by
  unfold sqTail
  refine .ite .refl ?_
  split
  · exact badAccess_keepsBound ..
  · exact .ite (queueError_keepsBound ..) (setQueue_keepsBound ..)

theorem cqHead_keepsBound (s : State) (f k v : Nat) : KeepsBound s (cqHead f k v s) := by
  unfold cqHead
  refine .ite .refl ?_
  split
  · exact badAccess_keepsBound ..
  · exact .ite (queueError_keepsBound ..) (setQueue_keepsBound ..)

theorem msixUnmask_keepsBound (s : State) (f v : Nat) : KeepsBound s (msixUnmask f v s) := by
  unfold msixUnmask
  exact .ite .refl (.ite (.after (.over [.link, .outbox] rfl) (.withLink ..)) (.withLink ..))

theorem dmaGather_keepsBound (s : State) (m : Nat) (t : Track) : KeepsBound s (dmaGather m t s) := by
  unfold dmaGather
  exact .ite (changes_finish ..).keepsBound (.after (readHost_keepsBound ..) (assign_keepsBound ..))

theorem cdrLock_keepsBound (s : State) (n : Nat) (heights : List Nat) : KeepsBound s (cdrLock n heights s) := by
  unfold cdrLock
  exact .ite .refl (.after (wr_keepsBound ..) (laneTo_keepsBound ..))

theorem alignLock_keepsBound (s : State) (n : Nat) : KeepsBound s (alignLock n s) := by
  unfold alignLock
  exact .ite .refl (laneTo_keepsBound ..)

theorem laneAcquireTimeout_keepsBound (s : State) (n : Nat) : KeepsBound s (laneAcquireTimeout n s) := by
  unfold laneAcquireTimeout
  exact .ite .refl (.after (changes_setLane ..).keepsBound (advanceTo_keepsBound ..))

theorem retryEnd_keepsBound (s : State) (n : Nat) : KeepsBound s (retryEnd n s) := by
  unfold retryEnd
  exact .ite .refl (.after (laneTo_keepsBound ..) (advanceTo_keepsBound ..))

theorem tsSettle_keepsBound (s : State) (n : Nat) : KeepsBound s (tsSettle n s) := by
  unfold tsSettle
  exact .ite .refl (.after (changes_showEi ..).keepsBound (.after (wr_keepsBound ..) (advanceTo_keepsBound ..)))

theorem noteFrame_keepsBound (s : State) (n : Nat) (l : List Byte) : KeepsBound s (noteFrame s n l) := by
  unfold noteFrame
  exact .ite (.withPair ..) .refl

theorem transmit_keepsBound (s : State) (n : Nat) (l : List Byte) (bad stream : Bool) : KeepsBound s (transmit s n l bad stream) := by
  unfold transmit
  exact .after (.withOutbox ..) (.after (changes_setLane ..).keepsBound (changes_exitEi ..).keepsBound)

theorem streamEgress_keepsBound (s : State) (n : Nat) (l : List Byte) (underrun : Bool) : KeepsBound s (streamEgress n l underrun s) := by
  unfold streamEgress
  exact .ite .refl (.ite (.after (inc_keepsBound ..) (noteFrame_keepsBound ..)) (.ite (.after (.withPair ..) (.ite (.after (inc_keepsBound ..)
    (noteFrame_keepsBound ..)) (noteFrame_keepsBound ..))) (.after (transmit_keepsBound ..) (.ite (.after (inc_keepsBound ..) (noteFrame_keepsBound
    ..)) (noteFrame_keepsBound ..)))))

theorem txStart_keepsBound (s : State) (n : Nat) : KeepsBound s (txStart n s) := by
  unfold txStart
  exact .after (changes_setLane ..).keepsBound (nocMake_keepsBound ..)

theorem slowTransmit_keepsBound (s : State) (n : Nat) (off : Int) (stepped : Bool) : KeepsBound s (slowTransmit n off stepped s) := by
  unfold slowTransmit
  refine .ite .refl ?_
  split
  · exact txStart_keepsBound ..
  · exact .ite .refl (.after (nocMake_keepsBound ..) (.after (changes_setLane ..).keepsBound (.ite (transmit_keepsBound ..) .refl)))

theorem eiEntryAt_keepsBound (s : State) (n : Nat) : KeepsBound s (eiEntryAt n s) := by
  unfold eiEntryAt
  exact .ite (.after (changes_showEi ..).keepsBound (.after (changes_setLane ..).keepsBound (advanceTo_keepsBound ..))) .refl

theorem eiReturn_keepsBound (s : State) (n : Nat) : KeepsBound s (eiReturn n s) := by
  unfold eiReturn
  exact .ite .refl (.after (changes_showEi ..).keepsBound (changes_setLane ..).keepsBound)

theorem eyeScan_keepsBound (s : State) (t : Track) : KeepsBound s (eyeScan t s) := by
  unfold eyeScan
  exact .ite (changes_finish ..).keepsBound (.ite (changes_finish ..).keepsBound (.ite (changes_finish ..).keepsBound (.ite (changes_finish
    ..).keepsBound (.ite (.ite (.after (changes_setLane ..).keepsBound (.after (laneTo_keepsBound ..) (.after (wr_keepsBound ..) (.after (.withFh
    ..) (changes_commit ..).keepsBound)))) (.after (wr_keepsBound ..) (.after (.withFh ..) (changes_commit ..).keepsBound))) (.after (.withFh ..)
    (changes_commit ..).keepsBound)))))

theorem eyeScanEnd_keepsBound (s : State) (g : Nat) (points : List (BitVec 16)) : KeepsBound s (eyeScanEnd g points s) := by
  unfold eyeScanEnd
  split
  · exact .refl
  · refine .ite .refl ?_
    split
    · exact .withFh ..
    · exact .after (changes_finish ..).keepsBound (.after (writeHost_keepsBound ..) (.ite (.after (startLane_keepsBound ..) (.after
      (changes_setLane ..).keepsBound (.ite (.after (wr_keepsBound ..) (.after (.withFh ..) (advanceTo_keepsBound ..))) (.after (.withFh ..)
      (advanceTo_keepsBound ..))))) (.ite (.after (wr_keepsBound ..) (.after (.withFh ..) (advanceTo_keepsBound ..))) (.after (.withFh ..)
      (advanceTo_keepsBound ..)))))

theorem timeRead_keepsBound (s : State) (t : Track) : KeepsBound s (timeRead t s) := by
  unfold timeRead
  exact .after (finishTime_keepsBound ..) (changes_commit ..).keepsBound

theorem holdoverDone_keepsBound (s : State) (id : Nat) (st : Status) : KeepsBound s (holdoverDone s id st) := by
  unfold holdoverDone
  exact (changes_finish ..).keepsBound

theorem setEng_keepsBound (s : State) (e : Engine) : KeepsBound s (setEng s e) := by
  unfold setEng
  exact .withTim ..

theorem discardModel_keepsBound (s : State) : KeepsBound s (discardModel s) := by
  unfold discardModel
  exact .after (wr_keepsBound ..) (.withTim ..)

theorem holdoverControl_keepsBound (s : State) (t : Track) : KeepsBound s (holdoverControl t s) := by
  unfold holdoverControl
  exact .ite (.after (changes_finish ..).keepsBound (readOscTemp_keepsBound ..)) (.ite (.after (changes_finish ..).keepsBound
    (readOscTemp_keepsBound ..)) (.ite (.ite (.after (holdoverDone_keepsBound ..) (.after (changes_commit ..).keepsBound (.after
    (showTiming_keepsBound ..) (.after (setEng_keepsBound ..) (.after (wr_keepsBound ..) (readOscTemp_keepsBound ..)))))) (.after (changes_finish
    ..).keepsBound (readOscTemp_keepsBound ..))) (.ite (.ite (.after (holdoverDone_keepsBound ..) (.after (changes_commit ..).keepsBound (.after
    (wr_keepsBound ..) (readOscTemp_keepsBound ..)))) (.after (changes_finish ..).keepsBound (readOscTemp_keepsBound ..))) (.ite (.ite (.after
    (changes_finish ..).keepsBound (readOscTemp_keepsBound ..)) (.after (holdoverDone_keepsBound ..) (.after (changes_commit ..).keepsBound (.after
    (showTiming_keepsBound ..) (.after (discardModel_keepsBound ..) (readOscTemp_keepsBound ..)))))) (.ite (.ite (.after (changes_finish
    ..).keepsBound (readOscTemp_keepsBound ..)) (.after (holdoverDone_keepsBound ..) (.after (changes_commit ..).keepsBound (.after (wr_keepsBound
    ..) (readOscTemp_keepsBound ..))))) (.after (holdoverDone_keepsBound ..) (.after (changes_commit ..).keepsBound (readOscTemp_keepsBound
    ..))))))))

theorem timedOutputSet_keepsBound (s : State) (t : Track) : KeepsBound s (timedOutputSet t s) := by
  unfold timedOutputSet
  exact .ite (changes_finish ..).keepsBound (.after (changes_finish ..).keepsBound (.after (toutCommit_keepsBound ..) (changes_commit
    ..).keepsBound))

theorem timePllReturn_keepsBound (s : State) : KeepsBound s (timePllReturn s) := by
  unfold timePllReturn
  exact .ite .refl (.after (wr_keepsBound ..) (.after (growOutage_keepsBound ..) (changes_advanceToCounter ..).keepsBound))

theorem ppsRise_keepsBound (s : State) (width sub : Nat) : KeepsBound s (ppsRise width sub s) := by
  unfold ppsRise
  exact .ite .refl (.after (noteRefs_keepsBound ..) (.after (.withTim ..) (.after (wrb_keepsBound ..) (wrb_keepsBound ..))))

theorem todAccept_keepsBound (s : State) (m : Nat) : KeepsBound s (todAccept m s) := by
  unfold todAccept
  exact .after (noteRefs_keepsBound ..) (.after (wrb_keepsBound ..) (.withTim ..))

theorem todMessage_keepsBound (s : State) (msg : TodMessage) : KeepsBound s (todMessage msg s) := by
  unfold todMessage
  refine .ite .refl ?_
  split
  · exact .ite (inc_keepsBound ..) (todAccept_keepsBound ..)
  · exact .ite (inc_keepsBound ..) (.after (todAccept_keepsBound ..) (.after (wrb_keepsBound ..) (.withTim ..)))

theorem pmeTurnOff_keepsBound (s : State) : KeepsBound s (pmeTurnOff s) := by
  unfold pmeTurnOff
  exact .ite .refl (.ite (.after (.withBoot ..) (.withOutbox ..)) (.withOutbox ..))

theorem drainEnd_keepsBound (s : State) : KeepsBound s (drainEnd s) := by
  unfold drainEnd
  split
  · exact .after (.withBoot ..) (.after (changes_selfRefresh ..).keepsBound (.after (changes_selfRefresh ..).keepsBound (.ite (advanceTo_keepsBound
    ..) .refl)))
  · exact .refl

theorem coreRelease_keepsBound (s : State) : KeepsBound s (coreRelease s) := by
  unfold coreRelease
  split
  · exact .after (changes_showStack ..).keepsBound (.after (.over [.boot, .tim] rfl) (advanceTo_keepsBound ..))
  · exact .refl

theorem dlockRelease_keepsBound (s : State) : KeepsBound s (dlockRelease s) := by
  unfold dlockRelease
  exact .foldl (fun _ _ => (changes_setDistrict ..).keepsBound) .refl

theorem dieRelease_keepsBound (s : State) (k : Nat) : KeepsBound s (dieRelease k s) := by
  unfold dieRelease
  split
  · exact .after (setDie_keepsBound ..) (.ite (.after (dlockRelease_keepsBound ..) (advanceTo_keepsBound ..)) (advanceTo_keepsBound ..))
  · exact .refl

theorem switchEnd_keepsBound (s : State) : KeepsBound s (switchEnd s) := by
  unfold switchEnd
  exact .ite (.after (changes_switchResult ..).keepsBound (wr_keepsBound ..)) .refl

theorem restartEnd_keepsBound (s : State) : KeepsBound s (restartEnd s) := by
  unfold restartEnd
  split
  · exact .refl
  · exact .after (resumeGrace_keepsBound ..) (.withWkt ..)

theorem handoverEnd_keepsBound (s : State) (n : Nat) (port : PinDrive) : KeepsBound s (handoverEnd n port s) := by
  unfold handoverEnd
  split
  · exact .refl
  · exact .after (onlyParts_showOwners ..).keepsBound (.ite (.after (.withOutbox ..) (.ite (.after (.withPins ..) (.after (.withPins ..)
    (advanceTo_keepsBound ..))) (.ite (.after (.withPins ..) (.after (.withPins ..) (advanceTo_keepsBound ..))) (.after (.withPins ..)
    (advanceTo_keepsBound ..))))) (.ite (.after (.withPins ..) (.after (.withPins ..) (advanceTo_keepsBound ..))) (.ite (.after (.withPins ..)
    (.after (.withPins ..) (advanceTo_keepsBound ..))) (.after (.withPins ..) (advanceTo_keepsBound ..)))))

theorem violation_keepsBound (s : State) (l : Load) (at' : Nat) (dsp : Bool) : KeepsBound s (violation s l at' dsp) := by
  unfold violation
  exact .after (endLoad_keepsBound ..) (.after (wrb_keepsBound ..) (wr_keepsBound ..))

theorem landFrame_keepsBound (s : State) (c : Nat) (d : Frame) (f : Nat) : KeepsBound s (landFrame c d s f) := by
  unfold landFrame
  exact .withCtxs ..

theorem frameRecord_keepsBound (s : State) (l : Load) (g : Seg) : KeepsBound s (frameRecord s l g) := by
  unfold frameRecord
  dsimp only
  refine .ite (.ite (endLoad_keepsBound ..) (setLoad_keepsBound ..)) ?_
  refine .ite .refl ?_
  refine .ite (endLoad_keepsBound ..) ?_
  refine .ite .refl ?_
  split
  · exact violation_keepsBound ..
  · exact .ite (.after (endLoad_keepsBound ..) (.after (.withStack ..) (.ite (.foldl (fun _ _ => (landFrame_keepsBound ..)) .refl) .refl))) (.after
    (wr_keepsBound ..) (.after (setLoad_keepsBound ..) (.ite (.foldl (fun _ _ => (landFrame_keepsBound ..)) .refl) .refl)))

theorem programEntry_keepsBound (s : State) (l : Load) (g : Seg) : KeepsBound s (programEntry s l g) := by
  unfold programEntry
  exact .ite (.ite (endLoad_keepsBound ..) (setLoad_keepsBound ..)) (.ite (endLoad_keepsBound ..) (.ite .refl (.ite (endLoad_keepsBound ..) (.ite
    (violation_keepsBound ..) (.ite (endLoad_keepsBound ..) (.ite .refl (setLoad_keepsBound ..)))))))

theorem imageRecord_keepsBound (s : State) : KeepsBound s (imageRecord s) := by
  unfold imageRecord
  split
  · exact .refl
  · refine .ite .refl ?_
    split
    · exact .refl
    · exact .ite (frameRecord_keepsBound ..) (.ite (programEntry_keepsBound ..) (.ite .refl (setLoad_keepsBound ..)))

theorem writePrograms_keepsBound (s : State) (l : Load) : KeepsBound s (writePrograms s l) := by
  unfold writePrograms
  exact .foldl (fun _ _ => (setTile_keepsBound ..)) .refl

theorem planeRemap_keepsBound (s : State) : KeepsBound s (planeRemap s) := by
  unfold planeRemap
  split
  · exact .refl
  · refine .ite .refl ?_
    refine .ite (endLoad_keepsBound ..) ?_
    refine .ite (.ite (setLoad_keepsBound ..) .refl) ?_
    split
    · exact .refl
    · exact .ite .refl (.after (reachCommit_keepsBound (hf := fun _ => (commitLoad_keepsBound ..)) ..) (.after (setLoad_keepsBound ..) (.after
      (writePrograms_keepsBound ..) (changes_advance ..).keepsBound)))

theorem directionSleep_keepsBound (s : State) : KeepsBound s (directionSleep s) := by
  unfold directionSleep
  exact .ite .refl (.after (changes_sendControl ..).keepsBound (.after (wr_keepsBound ..) (advanceTo_keepsBound ..)))

theorem pairForm_keepsBound (s : State) (t : Track) : KeepsBound s (pairForm t s) := by
  unfold pairForm
  exact .ite (changes_finish ..).keepsBound (.ite (changes_finish ..).keepsBound (.ite (changes_finish ..).keepsBound (.ite (changes_finish
    ..).keepsBound (.ite (changes_finish ..).keepsBound (.after (formCompare_keepsBound ..) (.after (changes_sendControl ..).keepsBound (.after
    (wr_keepsBound ..) (.over [.boot, .pair] rfl))))))))

theorem pairDissolve_keepsBound (s : State) (t : Track) : KeepsBound s (pairDissolve t s) := by
  unfold pairDissolve
  exact .ite (changes_finish ..).keepsBound (.ite (changes_finish ..).keepsBound (.after (changes_sendControl ..).keepsBound (.after (wr_keepsBound
    ..) (.over [.boot, .pair] rfl))))

theorem pairTakeover_keepsBound (s : State) (t : Track) : KeepsBound s (pairTakeover t s) := by
  unfold pairTakeover
  exact .ite (changes_finish ..).keepsBound (.ite (changes_finish ..).keepsBound (.ite (changes_finish ..).keepsBound (.ite (changes_finish
    ..).keepsBound (.after (changes_sendControl ..).keepsBound (.withPair ..)))))

theorem go_keepsBound (s : State) (t : Track) (change n : Nat) : KeepsBound s (pairPrepare.go t s change n) := by
  unfold pairPrepare.go
  exact .after (readHost_keepsBound ..) (.withPair ..)

theorem pairPrepare_keepsBound (s : State) (t : Track) : KeepsBound s (pairPrepare t s) := by
  unfold pairPrepare
  refine .ite (changes_finish ..).keepsBound ?_
  refine .ite (changes_finish ..).keepsBound ?_
  refine .ite (changes_finish ..).keepsBound ?_
  refine .ite (changes_finish ..).keepsBound ?_
  split
  · exact .ite (.after (changes_finish ..).keepsBound (.withPair ..)) (go_keepsBound ..)
  · exact go_keepsBound ..

theorem pairCommit_keepsBound (s : State) (t : Track) : KeepsBound s (pairCommit t s) := by
  unfold pairCommit
  exact .ite (changes_finish ..).keepsBound (.ite (changes_finish ..).keepsBound (.ite (changes_finish ..).keepsBound (.ite (changes_finish
    ..).keepsBound (.ite (changes_finish ..).keepsBound (.after (changes_sendControl ..).keepsBound (.withPair ..))))))

theorem segmentDue_keepsBound (s : State) : KeepsBound s (segmentDue s) := by
  unfold segmentDue
  split
  · exact .refl
  · exact .ite (.ite (.after (transmit_keepsBound ..) (.ite (.after (.withPair ..) (advanceTo_keepsBound ..)) (.after (changes_setVerdict
    ..).keepsBound (.after (.withPair ..) (advanceTo_keepsBound ..))))) (.after (inc_keepsBound ..) (.ite (.after (.withPair ..)
    (advanceTo_keepsBound ..)) (.after (changes_setVerdict ..).keepsBound (.after (.withPair ..) (advanceTo_keepsBound ..)))))) (.ite (.after
    (inc_keepsBound ..) (.foldl (fun _ _ => (inc_keepsBound ..)) (.after (.withPair ..) (advanceTo_keepsBound ..)))) (.after (changes_setVerdict
    ..).keepsBound (.foldl (fun _ _ => (inc_keepsBound ..)) (.after (.withPair ..) (advanceTo_keepsBound ..)))))

theorem identify_keepsBound (s : State) (t : Track) : KeepsBound s (identify t s) := by
  unfold identify
  exact .after (changes_finish ..).keepsBound (changes_commit ..).keepsBound

theorem queueCreate_keepsBound (s : State) (t : Track) : KeepsBound s (queueCreate t s) := by
  unfold queueCreate
  refine .ite (changes_finish ..).keepsBound ?_
  split
  · exact (changes_finish ..).keepsBound
  · exact .ite (changes_finish ..).keepsBound (.after (changes_finish ..).keepsBound (.after (changes_commit ..).keepsBound (enableQueue_keepsBound
    ..)))

theorem queueDisable_keepsBound (s : State) (t : Track) : KeepsBound s (queueDisable t s) := by
  unfold queueDisable
  split
  · exact (changes_finish ..).keepsBound
  · exact .ite (.after (beginDisable_keepsBound ..) (changes_commit ..).keepsBound) (changes_finish ..).keepsBound

theorem queueDelete_keepsBound (s : State) (t : Track) : KeepsBound s (queueDelete t s) := by
  unfold queueDelete
  split
  · exact (changes_finish ..).keepsBound
  · exact .ite (.after (changes_finish ..).keepsBound (.after (changes_commit ..).keepsBound (classQ_keepsBound ..))) (changes_finish ..).keepsBound

theorem snapshot_keepsBound (s : State) (t : Track) : KeepsBound s (snapshot t s) := by
  unfold snapshot
  exact .ite (changes_finish ..).keepsBound (.ite (changes_finish ..).keepsBound .refl)

theorem setFfs_keepsBound (s : State) (l : List (Nat × BitVec 512)) : KeepsBound s (setFfs s l) := by
  unfold setFfs
  exact .withCtxs ..

theorem snapshotEdge_keepsBound (s : State) (id : Nat) (values : List (BitVec 512)) : KeepsBound s (snapshotEdge id values s) := by
  unfold snapshotEdge
  split
  · exact .refl
  · exact .ite .refl (.ite (.after (changes_finish ..).keepsBound (.after (changes_mapTrack ..).keepsBound (.after (advanceTo_keepsBound ..) (.ite
    .refl (changes_advanceToCounter ..).keepsBound)))) (.after (snapshotMoves_keepsBound ..) (.after (changes_mapTrack ..).keepsBound (.after
    (changes_commit ..).keepsBound (.after (setFfs_keepsBound ..) (.after (changes_mapTrack ..).keepsBound (.after (advanceTo_keepsBound ..) (.ite
    .refl (changes_advanceToCounter ..).keepsBound))))))))

theorem throttleAck_keepsBound (s : State) (t : Track) : KeepsBound s (throttleAck t s) := by
  unfold throttleAck
  exact .ite (changes_finish ..).keepsBound (.after (changes_finish ..).keepsBound (.after (changes_commit ..).keepsBound (wr_keepsBound ..)))

theorem porterStart_keepsBound (s : State) (result : Nat) : KeepsBound s (porterStart result s) := by
  unfold porterStart
  exact .ite .refl (.ite (changes_haltBoot ..).keepsBound (.after (changes_enterStage ..).keepsBound (.foldl (fun _ _ => (wr_keepsBound ..))
    (.after (changes_showFuses ..).keepsBound (changes_drawNonce ..).keepsBound))))

theorem dieTraining_keepsBound (s : State) (failed : Option Nat) : KeepsBound s (dieTraining failed s) := by
  unfold dieTraining
  refine .ite .refl ?_
  split
  · exact .after (changes_haltBoot ..).keepsBound (.foldl (fun _ _ => (setDie_keepsBound ..)) (.after (changes_advance ..).keepsBound (.ite
    (dlockRelease_keepsBound ..) .refl)))
  · exact .after (changes_enterStage ..).keepsBound (.after (.withNoc ..) (.foldl (fun _ _ => (setDie_keepsBound ..)) (.after (changes_advance
    ..).keepsBound (.ite (dlockRelease_keepsBound ..) .refl))))

theorem stackClear_keepsBound (s : State) : KeepsBound s (stackClear s) := by
  unfold stackClear
  exact .ite .refl (.ite (.after (changes_enterStage ..).keepsBound (.after (openStore_keepsBound ..) (.after (.withTiles ..) (.over [.ctxs,
    .tiles, .mem] rfl)))) (.after (changes_enterStage ..).keepsBound (.after (wr_keepsBound ..) (.after (wr_keepsBound ..) (.after (.withTiles ..)
    (.over [.ctxs, .tiles, .mem] rfl))))))

theorem muteLift_keepsBound (s : State) : KeepsBound s (muteLift s) := by
  unfold muteLift
  exact .ite (.after (changes_unmute ..).keepsBound (.ite (.after (endRecovery_keepsBound ..) (.after (.withBoot ..) (changes_advanceToCounter
    ..).keepsBound)) (changes_advanceToCounter ..).keepsBound)) (.ite (.after (endRecovery_keepsBound ..) (.after (.withBoot ..)
    (changes_advanceToCounter ..).keepsBound)) (changes_advanceToCounter ..).keepsBound)

theorem msixWrite_keepsBound (s : State) (f o v : Nat) : KeepsBound s (msixWrite f o v s) := by
  unfold msixWrite
  exact .ite .refl (.ite (.withLink ..) (.ite (.withLink ..) (.ite (.withLink ..) (.ite (.withLink ..) (msixUnmask_keepsBound ..)))))

theorem barWrite_keepsBound (s : State) (bar fn off v : Nat) (wide : Bool) : KeepsBound s (barWrite bar fn off v wide s) := by
  unfold barWrite
  exact .ite .refl (.ite (.ite (badAccess_keepsBound ..) (.ite (sqTail_keepsBound ..) (.ite (cqHead_keepsBound ..) (badAccess_keepsBound ..))))
    (.ite (.after (msixWrite_keepsBound ..) (msixWrite_keepsBound ..)) (msixWrite_keepsBound ..)))

theorem answerRead_keepsBound (s : State) (fn off v : Nat) : KeepsBound s (answerRead s fn off v) := by
  unfold answerRead
  exact .withOutbox ..

theorem barRead_keepsBound (s : State) (bar fn off : Nat) (wide : Bool) : KeepsBound s (barRead bar fn off wide s) := by
  unfold barRead
  exact .ite .refl (.ite (answerRead_keepsBound ..) (answerRead_keepsBound ..))

theorem badWidth_keepsBound (s : State) (bar fn off bytes : Nat) (write : Bool) : KeepsBound s (badWidth bar fn off bytes write s) := by
  unfold badWidth
  exact .ite .refl (.ite (.ite (badAccess_keepsBound ..) .refl) (.after (answerRead_keepsBound ..) (.ite (badAccess_keepsBound ..) .refl)))

end Sys2Proof.Machine
end

section
set_option Elab.async false
/-! Every command, and the hop cycle that passes without one, keeps the bound of the fault log (R559). -/

namespace Sys2Proof.Machine

/-- Whatever next state the outcome answers, it keeps the bound. -/
structure AnswersBound (s : State) (o : Res) : Prop where
  bound : ∀ t, o = .next t → KeepsBound s t

theorem AnswersBound.next {s t : State} (h : KeepsBound s t) : AnswersBound s (.next t) := ⟨fun u hu => by
  cases hu
  exact h⟩

theorem exec_answersBound (i : Instr) (s : State) : AnswersBound s (exec i s) := by
  cases i with
  | coldReset => exact .next (coldReset_keepsBound ..)
  | porNDeassert => exact .next (porDeassert_keepsBound ..)
  | bootRailCheck => exact .next (railCheck_keepsBound ..)
  | corePllLock => exact .next ((changes_pllLock ..).keepsBound)
  | porterStart => exact .next (porterStart_keepsBound ..)
  | dieReleaseTraining => exact .next (dieTraining_keepsBound ..)
  | stackClear => exact .next (stackClear_keepsBound ..)
  | ddrTraining => exact .next (ddrTraining_keepsBound ..)
  | bootComplete => exact .next (bootComplete_keepsBound ..)
  | warmReset => exact .next (warmReset_keepsBound ..)
  | perstAssert => exact .next (perstAssert_keepsBound ..)
  | perstDeassert => exact .next (perstDeassert_keepsBound ..)
  | linkLoss => exact .next (.ite (linkDown_keepsBound ..) .refl)
  | pcieRefclkLoss => exact .next (.ite (.withLink ..) (.after (linkDown_keepsBound ..) (.withLink ..)))
  | functionLevelReset => exact .next (.ite (functionReset_keepsBound ..) .refl)
  | pmeTurnOff => exact .next (pmeTurnOff_keepsBound ..)
  | dormantPowerDown => exact .next (dormantPowerDown_keepsBound ..)
  | wake => exact .next (wake_keepsBound ..)
  | wakeTimerExpiry => exact .next (wakeTimer_keepsBound ..)
  | porterLockstepFault => exact .next (porterFault_keepsBound ..)
  | dieResetRequest => exact .next (dieResetRequest_keepsBound ..)
  | warmResetRequest => exact .next (warmResetRequest_keepsBound ..)
  | dieResetD0 => exact .next (dieResetD0_keepsBound ..)
  | d0DrainEnd => exact .next (drainEnd_keepsBound ..)
  | d0OutstandingDieReset => exact .next (outstandingReset_keepsBound ..)
  | d0ResetRelease => exact .next (coreRelease_keepsBound ..)
  | d0ShuttersOpen =>
    refine .next ?_
    split
    · exact .foldl (fun _ _ => dieReset_keepsBound ..) (shuttersOpen_keepsBound ..)
    · exact .refl
  | porterReady => exact .next (porterReady_keepsBound ..)
  | dieResetUpper => exact .next (dieReset_keepsBound ..)
  | dieTrainingComplete => exact .next (.ite (trainingFails_keepsBound ..) (dieTrainedNow_keepsBound ..))
  | neighbourPowerLoss => exact .next (powerLoss_keepsBound ..)
  | crossingWord => exact .next (crossing_keepsBound ..)
  | channelSpareSwitch => exact .next (spareChannel_keepsBound ..)
  | clockSkewSample => exact .next (skewSample_keepsBound ..)
  | delayLockWindow => exact .next (lockWindow_keepsBound ..)
  | lockAcquireTimeout => exact .next (acquireTimeout_keepsBound ..)
  | stagingComplete => exact .next (stagingComplete_keepsBound ..)
  | stagingTimeout => exact .next (stagingTimeout_keepsBound ..)
  | commandSwapDue => exact .next (commandSwapDue_keepsBound ..)
  | scheduleEntryDue => exact .next (entryDue_keepsBound ..)
  | lateSwapReady => exact .next (lateReady_keepsBound ..)
  | lateLimitExpiry => exact .next (lateLimit_keepsBound ..)
  | scheduleBankTakeover => exact .next (bankTakeover_keepsBound ..)
  | writeBackFrame => exact .next (writeBack_keepsBound ..)
    | thicketNop | wait | br | loop | blkBegin | blkCommit | timer | mac | macj | msb | mul | mulj | pack | aclr | aload | bexNext | bexClr | vadd |
    vsub | vaddmj | vsubmj | vconj | vshr | vmov | vperm | spop | spush | lpop | lpush | mdrd | mdwr | nwr | setr | setrv | getr =>
    exact .next (issue_keepsBound ..)
  | entryVectorTaken => exact .next (entryVector_keepsBound ..)
  | tileTimerExpiry => exact .next (timerExpiry_keepsBound ..)
  | residueCheckFail => exact .next (.ite .refl (residueFail_keepsBound ..))
  | mdrdDataReturn => exact .next (readReturn_keepsBound ..)
  | linkArrival => exact .next (linkArrival_keepsBound ..)
  | streamInPush => exact .next (streamPush_keepsBound ..)
  | stagingBufferRelease => exact .next (stagingRelease_keepsBound ..)
  | blockWatchdog => exact .next (blockWatchdog_keepsBound ..)
  | externalXyBeat => exact .next (xyBeat_keepsBound ..)
  | tileSubstitutionStart => exact .next (substitutionStart_keepsBound ..)
  | copyingComplete => exact .next (copyingComplete_keepsBound ..)
  | tileKick => exact .next (regWrite_keepsBound (hf := fun _ => (.ite (setTile_keepsBound ..) .refl)) ..)
  | tileKickAll => exact .next (regWrite_keepsBound (hf := fun _ => (.ite (.foldl (fun _ _ => setTile_keepsBound ..) .refl) .refl)) ..)
  | portARead => exact .next (portARead_keepsBound ..)
  | portAWrite => exact .next (portAWrite_keepsBound ..)
  | portAInvalidate => exact .next (portAInvalidate_keepsBound ..)
  | portBRead => exact .next (portBRead_keepsBound ..)
  | portBWrite => exact .next (portBWrite_keepsBound ..)
  | narrowWriteMerge => exact .next (narrowMerge_keepsBound ..)
  | retirementSwitch => exact .next (retirementSwitch_keepsBound ..)
  | hostBlockInvalidate => exact .next (regWrite_keepsBound (hf := fun _ => (.ite (invalidate_keepsBound ..) .refl)) ..)
  | hostInvalidateAll => exact .next (regWrite_keepsBound (hf := fun _ => (.ite (invalidateAll_keepsBound ..) .refl)) ..)
  | invalidateClearDone => exact .next (clearDone_keepsBound ..)
  | nocRequestInject => exact .next (.ite (injectFabric_keepsBound ..) (.ite .refl (.ite (injectDebug_keepsBound ..) (injectEngine_keepsBound ..))))
  | nocFlitHop => exact .next (.after (flitHop_keepsBound ..) (serveRegs_keepsBound ..))
  | nocRequestTimeout => exact .next (requestTimeout_keepsBound ..)
  | nocResponseArrival => exact .next (.after (responseArrival_keepsBound ..) (serveRegs_keepsBound ..))
  | nocStatClear => exact .next (regWrite_keepsBound (hf := fun _ => statClear_keepsBound ..) ..)
  | dramReadRequest => exact .next (dramRead_keepsBound ..)
  | dramWriteRequest => exact .next (dramWrite_keepsBound ..)
  | dramPartialWrite => exact .next (dramPartial_keepsBound ..)
  | dramReadData => exact .next (dramData_keepsBound ..)
  | dramRefresh => exact .next (refresh_keepsBound ..)
  | mr4Poll => exact .next (mr4Poll_keepsBound ..)
  | dramAlert => exact .next (alertOn_keepsBound ..)
  | dramFullRetrainEnd => exact .next (fullRetrainEnd_keepsBound ..)
  | retrainQuantum => exact .next (retrainQuantum_keepsBound ..)
  | dramRetrainRequest => exact .next (regWrite_keepsBound (hf := fun _ => (changes_startRetrain ..).keepsBound) ..)
  | pprNow => exact .next (regWrite_keepsBound (hf := fun _ => pprNow_keepsBound ..) ..)
  | spprRepairComplete => exact .next (repairDone_keepsBound ..)
  | encRegionEnable => exact .next (regWrite_keepsBound (hf := fun _ => regionEnable_keepsBound ..) ..)
  | encRegionDisable => exact .next (regWrite_keepsBound (hf := fun _ => regionDisable_keepsBound ..) ..)
  | encConfigLock => exact .next (regWrite_keepsBound (hf := fun _ => wr_keepsBound ..) ..)
  | encRequest => exact .next (encRequest_keepsBound ..)
  | encReadComplete => exact .next (encReadComplete_keepsBound ..)
  | sweepLine => exact .next (sweepLine_keepsBound ..)
  | ownerProgram | ownerRevoke | ownerDisableDebug => exact .next (regWrite_keepsBound (hf := fun _ => ownerRecord_keepsBound ..) ..)
  | debugSessionExpiry => exact .next (sessionExpiry_keepsBound ..)
  | imageFrameRecord => exact .next (.after (pairCheck_keepsBound ..) (imageRecord_keepsBound ..))
  | imageStreamEnd => exact .next (.after (pairCheck_keepsBound ..) (streamEnd_keepsBound ..))
  | landingPlaneRemap =>
    refine .next ?_
    split
    · exact .ite (commitListed_keepsBound ..) (.after (pairCheck_keepsBound ..) (planeRemap_keepsBound ..))
    · exact planeRemap_keepsBound ..
  | snapshotCaptureEdge => exact .next (snapshotEdge_keepsBound ..)
  | voteCorrection => exact .next (.ite (inc_keepsBound ..) .refl)
  | latchCheckFrame => exact .next (latchCheck_keepsBound ..)
  | privetSweepStart => exact .next (sweepStart_keepsBound ..)
  | privetFrameCheck => exact .next (frameCheck_keepsBound ..)
  | privetSweepReport => exact .next (sweepReport_keepsBound ..)
  | privetReportLate => exact .next (reportLate_keepsBound ..)
  | frameRepair => exact .next (frameRepair_keepsBound ..)
  | internalFaultSafeDelay => exact .next (internalFaultDelay_keepsBound ..)
  | sqTailDoorbell => exact .next (sqTail_keepsBound ..)
  | cqHeadDoorbell => exact .next (cqHead_keepsBound ..)
  | commandFetch => exact .next (fetchRound_keepsBound ..)
  | completionPost => exact .next (completionPost_keepsBound ..)
  | coalescingTimeout => exact .next (coalesce_keepsBound ..)
  | msixUnmask => exact .next (msixUnmask_keepsBound ..)
  | adminQueueEnable => exact .next (hciWrite_keepsBound (hf := fun _ => adminEnable_keepsBound ..) ..)
  | adminQueueDisable => exact .next (hciWrite_keepsBound (hf := fun _ => adminDisable_keepsBound ..) ..)
  | functionQuotaWrite => exact .next (regWrite_keepsBound (hf := fun _ => quotaWrite_keepsBound ..) ..)
  | queueDrainLimit => exact .next (drainExpired_keepsBound ..)
  | commandOverrun => exact .next (overrun_keepsBound ..)
  | pcieLaneErrorWindow => exact .next (pcieErrors_keepsBound ..)
  | nop => exact .next (startCommand_keepsBound (hf := fun _ _ => (.after (changes_finish ..).keepsBound (changes_commit ..).keepsBound)) ..)
  | identify => exact .next (startCommand_keepsBound (hf := fun _ _ => identify_keepsBound ..) ..)
  | abort => exact .next (startCommand_keepsBound (hf := fun _ _ => abort_keepsBound ..) ..)
  | queueCreate => exact .next (startCommand_keepsBound (hf := fun _ _ => queueCreate_keepsBound ..) ..)
  | queueDisable => exact .next (startCommand_keepsBound (hf := fun _ _ => queueDisable_keepsBound ..) ..)
  | queueDelete => exact .next (startCommand_keepsBound (hf := fun _ _ => queueDelete_keepsBound ..) ..)
  | imageLoad | imageLoadPartial => exact .next (startCommand_keepsBound (hf := fun _ _ => startLoad_keepsBound ..) ..)
  | contextStage => exact .next (startCommand_keepsBound (hf := fun _ _ => contextStage_keepsBound ..) ..)
  | contextSwapAt => exact .next (startCommand_keepsBound (hf := fun _ _ => contextSwapAt_keepsBound ..) ..)
  | scheduleSet => exact .next (startCommand_keepsBound (hf := fun _ _ => scheduleSet_keepsBound ..) ..)
  | contextRetire => exact .next (startCommand_keepsBound (hf := fun _ _ => contextRetire_keepsBound ..) ..)
  | snapshotFf => exact .next (startCommand_keepsBound (hf := fun _ _ => snapshot_keepsBound ..) ..)
  | dmaMove | dmaFill => exact .next (startDma_keepsBound (hf := fun _ _ _ => dmaMove_keepsBound ..) ..)
  | dmaGather => exact .next (startDma_keepsBound (hf := fun _ _ _ => dmaGather_keepsBound ..) ..)
  | keyInstall => exact .next (startCommand_keepsBound (hf := fun _ _ => keyInstall_keepsBound ..) ..)
  | keyRetire => exact .next (startCommand_keepsBound (hf := fun _ _ => keyRetire_keepsBound ..) ..)
  | regionRekey => exact .next (startCommand_keepsBound (hf := fun _ _ => regionRekey_keepsBound ..) ..)
  | timeRead => exact .next (startCommand_keepsBound (hf := fun _ _ => timeRead_keepsBound ..) ..)
  | timeAdjust => exact .next (startCommand_keepsBound (hf := fun _ _ => timeAdjust_keepsBound ..) ..)
  | holdoverControl => exact .next (startCommand_keepsBound (hf := fun _ _ => holdoverControl_keepsBound ..) ..)
  | timedOutputSet => exact .next (startCommand_keepsBound (hf := fun _ _ => timedOutputSet_keepsBound ..) ..)
  | eyeScan => exact .next (startCommand_keepsBound (hf := fun _ _ => eyeScan_keepsBound ..) ..)
  | pairForm => exact .next (startCommand_keepsBound (hf := fun _ _ => pairForm_keepsBound ..) ..)
  | pairDissolve => exact .next (startCommand_keepsBound (hf := fun _ _ => pairDissolve_keepsBound ..) ..)
  | pairTakeover => exact .next (startCommand_keepsBound (hf := fun _ _ => pairTakeover_keepsBound ..) ..)
  | pairPrepare => exact .next (startCommand_keepsBound (hf := fun _ _ => pairPrepare_keepsBound ..) ..)
  | pairCommit => exact .next (startCommand_keepsBound (hf := fun _ _ => pairCommit_keepsBound ..) ..)
  | bistRun => exact .next (.ite .refl (startCommand_keepsBound (hf := fun _ _ => bistRun_keepsBound ..) ..))
  | telemetryRead => exact .next (startCommand_keepsBound (hf := fun _ _ => telemetry_keepsBound ..) ..)
  | faultLogRead => exact .next (startCommand_keepsBound (hf := fun _ _ => faultLogRead_keepsBound ..) ..)
  | throttleAck => exact .next (startCommand_keepsBound (hf := fun _ _ => throttleAck_keepsBound ..) ..)
  | attest => exact .next (startCommand_keepsBound (hf := fun _ _ => porterAccept_keepsBound ..) ..)
  | debugUnlock => exact .next (startCommand_keepsBound (hf := fun _ _ => debugUnlock_keepsBound ..) ..)
  | modeSet => exact .next (startCommand_keepsBound (hf := fun _ _ => modeSet_keepsBound ..) ..)
  | laneEnable => exact .next (regWrite_keepsBound (hf := fun _ => laneEnable_keepsBound ..) ..)
  | laneDisable => exact .next (regWrite_keepsBound (hf := fun _ => (.after (synceUpdate_keepsBound ..) (laneDisable_keepsBound ..))) ..)
  | cdrLock => exact .next (cdrLock_keepsBound ..)
  | laneAlignLock => exact .next (alignLock_keepsBound ..)
  | laneAcquireTimeout => exact .next (laneAcquireTimeout_keepsBound ..)
  | laneRetryWaitEnd => exact .next (retryEnd_keepsBound ..)
  | laneLinkLoss => exact .next (.after (synceUpdate_keepsBound ..) (linkLoss_keepsBound ..))
  | tsSettle => exact .next (.after (synceUpdate_keepsBound ..) (tsSettle_keepsBound ..))
  | frameReceived => exact .next (frameReceived_keepsBound ..)
  | streamEgressFrame => exact .next (streamEgress_keepsBound ..)
  | slowPathTxTail => exact .next (regWrite_keepsBound (hf := fun _ => txTail_keepsBound ..) ..)
  | slowPathTransmit => exact .next (slowTransmit_keepsBound ..)
  | eiEntry => exact .next (eiEntryAt_keepsBound ..)
  | rxSignalLossEi => exact .next (.after (synceUpdate_keepsBound ..) (rxSignalLoss_keepsBound ..))
  | eiRelockTimeout => exact .next (.after (synceUpdate_keepsBound ..) (eiRelockTimeout_keepsBound ..))
  | fhLaneErrorWindow => exact .next (.after (synceUpdate_keepsBound ..) (errorWindow_keepsBound ..))
  | eyeScanEnd => exact .next (eyeScanEnd_keepsBound ..)
  | candidateWindow => exact .next (candWindow_keepsBound ..)
  | coreRefMissingEdge => exact .next (missingEdge_keepsBound ..)
  | corePllUnlock => exact .next (pllUnlock_keepsBound ..)
  | coreReferenceSwitch => exact .next (regWrite_keepsBound (hf := fun _ => (changes_refSwitch ..).keepsBound) ..)
  | coreRefSwitchEnd => exact .next (switchEnd_keepsBound ..)
  | userPllEnable => exact .next (regWrite_keepsBound (hf := fun _ => upllEnable_keepsBound ..) ..)
  | userPllDisable => exact .next (regWrite_keepsBound (hf := fun _ => upllDisable_keepsBound ..) ..)
  | userPllLock => exact .next ((changes_upllLock ..).keepsBound)
  | userPllInputFail => exact .next (upllFail_keepsBound ..)
  | globalChannelSelect => exact .next (regWrite_keepsBound (hf := fun _ => (changes_channelSelect ..).keepsBound) ..)
  | wicketTrim => exact .next (wicketTrim_keepsBound ..)
  | oscBackupCheck => exact .next (backupCheck_keepsBound ..)
  | timePllRefLoss => exact .next (timePllLoss_keepsBound ..)
  | timePllReturn => exact .next (timePllReturn_keepsBound ..)
  | replicaRealign => exact .next (.ite (.withTim ..) .refl)
  | timingEvaluation => exact .next (timingRound_keepsBound ..)
  | modelRefit => exact .next (refit_keepsBound ..)
  | ptpMeasurementCommit => exact .next (regWrite_keepsBound (hf := fun _ => ptpCommit_keepsBound ..) ..)
  | ppsEdge => exact .next (ppsRise_keepsBound ..)
  | ppsTimeout => exact .next (ppsLost_keepsBound ..)
  | todMessage => exact .next (todMessage_keepsBound ..)
  | synceHoldOffExpiry => exact .next (holdOffEnd_keepsBound ..)
  | synceWtrExpiry => exact .next (wtrEnd_keepsBound ..)
  | timeStepEdge => exact .next (stepEdge_keepsBound ..)
  | timedOutputEdge => exact .next (toutEdge_keepsBound ..)
  | housekeepingRound => exact .next (.after (changes_stepChange ..).keepsBound (round_keepsBound ..))
  | throttleGraceExpiry => exact .next (.after (changes_stepChange ..).keepsBound (changes_graceExpiry ..).keepsBound)
  | throttleStepDeepen => exact .next (.after (changes_stepChange ..).keepsBound (stepDeepen_keepsBound ..))
  | throttleStepRelease => exact .next (.after (changes_stepChange ..).keepsBound (stepRelease_keepsBound ..))
  | wicketWatchdogExpiry => exact .next (watchdog_keepsBound ..)
  | wicketRestartEnd => exact .next (restartEnd_keepsBound ..)
  | pinOwnerChange =>
    exact .next (regWrite_keepsBound (hf := fun _ => (.after (changes_clkoutCheck ..).keepsBound (changeOwners_keepsBound (hf := fun _ =>
      (ownerWrite_keepsBound ..)) ..))) ..)
  | ownerHandoverEnd => exact .next (handoverEnd_keepsBound ..)
  | pinInputChange => exact .next (pinChange_keepsBound ..)
  | debounceSettle => exact .next (debounceSettle_keepsBound ..)
  | matcherEnable => exact .next (regWrite_keepsBound (hf := fun _ => matcherConfig_keepsBound ..) ..)
  | prlLinkEnable => exact .next (regWrite_keepsBound (hf := fun _ => linkEnable_keepsBound ..) ..)
  | linkStageDone => exact .next (linkStage_keepsBound ..)
  | linkStateTimeout => exact .next (linkTimeout_keepsBound ..)
  | controlBlockReceived => exact .next (controlBlock_keepsBound ..)
  | dataBlockReceived => exact .next (dataBlock_keepsBound ..)
  | bolrynLaneErrorWindow => exact .next (bolrynErrors_keepsBound ..)
  | linkWidthChange => exact .next (widthChange_keepsBound ..)
  | linkDirectionSleep => exact .next (directionSleep_keepsBound ..)
  | linkDirectionWake => exact .next (directionWake_keepsBound ..)
  | bandReadapt => exact .next (bandReadapt_keepsBound ..)
  | pairFormCommit => exact .next (formCommit_keepsBound ..)
  | pairFormTimeout => exact .next (formTimeout_keepsBound ..)
  | digestUnitClose => exact .next (unitClose_keepsBound ..)
  | segmentReleaseDue => exact .next (segmentDue_keepsBound ..)
  | mismatchResolution => exact .next (resolveMismatch_keepsBound ..)
  | resyncCopyEnd => exact .next (copyDone_keepsBound ..)
  | resyncFrameEnd => exact .next (frameDone_keepsBound ..)
  | pairTimeAverage => exact .next (timeAverage_keepsBound ..)
  | roleExchange => exact .next (roleExchange_keepsBound ..)
  | heartbeatLoss => exact .next (.after (changes_stepChange ..).keepsBound (heartbeatLoss_keepsBound ..))
  | takeoverEdge => exact .next (takeoverEdge_keepsBound ..)
  | partnerTimeout => exact .next (partnerTimeout_keepsBound ..)
  | dissolveBoundary => exact .next (dissolveBoundary_keepsBound ..)
  | pairCommitBoundary => exact .next (commitBoundary_keepsBound ..)
  | pairInject => exact .next (regWrite_keepsBound (hf := fun _ => pairInject_keepsBound ..) ..)
  | bistSlice => exact .next (bistSlice_keepsBound ..)
  | injectionTimeout => exact .next (injectionTimeout_keepsBound ..)
  | safeCauseClear => exact .next (regWrite_keepsBound (hf := fun _ => clearCauses_keepsBound ..) ..)
  | muteLift => exact .next (muteLift_keepsBound ..)
  | safConfigWrite => exact .next (regWrite_keepsBound (hf := fun _ => safWrite_keepsBound ..) ..)
  | registerWrite => exact .next (.ite (hostWrite_keepsBound ..) (barWrite_keepsBound ..))
  | rcCounterRead => exact .next (.ite (hostRead_keepsBound ..) (barRead_keepsBound ..))
  | capturePairRead => exact .next (hostRead_keepsBound ..)
  | badWidthAccess => exact .next (badWidth_keepsBound ..)
  | unassignedAccess => exact .next (.ite .refl (.ite (write32_keepsBound ..) (hostRead_keepsBound ..)))
  | blockedAccess =>
    refine .next ?_
    refine .ite .refl ?_
    split
    · exact .refl
    · exact .ite (.ite (write32_keepsBound ..) .refl) (.ite .refl (hostRead_keepsBound ..))
  | linkTrainingComplete => exact .next (linkTrained_keepsBound ..)
  | hostReadCompletion => exact .next (readCompletion_keepsBound ..)
  | completionTimeout => exact .next (.after (readCompletion_keepsBound ..) (timedOut_keepsBound ..))
  | runStagingTimeout => exact .next (runTimeout_keepsBound ..)
  | referenceReadyTimeout => exact .next ((changes_readyTimeout ..).keepsBound)
  | upperDieRelease => exact .next (dieRelease_keepsBound ..)
  | bolrynLaneSignalChange => exact .next (bolrynSignal_keepsBound ..)
  | eiSignalReturn => exact .next (.after (synceUpdate_keepsBound ..) (eiReturn_keepsBound ..))
  | dramAlertDeassert => exact .next (alertOff_keepsBound ..)
  | intrusiveBistEnd => exact .next (intrusiveEnd_keepsBound ..)
  | landingPlaneCopyEnd => exact .next (copyEnd_keepsBound ..)

/-- Settles O6: entries are appended by `appendFault` alone, which drops the oldest of a full log, and what every command does is composed of changes
that keep the bound. -/
theorem faultLogStaysBounded : Obligations.FaultLogStaysBounded := by
  unfold Obligations.FaultLogStaysBounded
  intro s t hs ht
  unfold step at ht
  split at ht
  · cases ht
    exact (idle_keepsBound s).bound hs
  · next c rest _ => exact (((exec_answersBound c _).bound t ht).after (.withPending s rest)).bound hs

end Sys2Proof.Machine
end
